-- ==== Sys2Proof/Word.lean ====
section
/-!
DEFINITION. Words, bytes and index types of the IFL9740, and the plainest reading of a word's bits.
-/

namespace Sys2Proof

/-- A 32-bit register word (02 R50). -/
abbrev Word := BitVec 32

/-- One byte. -/
abbrev Byte := BitVec 8

/-- A bound code of 00 R10: exponent in bits 15 to 11, mantissa in bits 10 to 0. -/
abbrev Code := BitVec 16

/-- Number of a time domain, TD0 to TD3. -/
abbrev Dom := Fin 4

/-- Number of a reference slot, RS0 to RS31. -/
abbrev SlotNo := Fin 32

/-- Number of a jet, JET0 to JET15. -/
abbrev JetNo := Fin 16

/-- Number of a logical port, LP0 to LP15. -/
abbrev PortNo := Fin 16

/-- Number of a SerDes lane, LANE0 to LANE15. -/
abbrev LaneNo := Fin 16

/-- Number of a capture input, CAP0 to CAP7. -/
abbrev CapNo := Fin 8

/-- Number of a host partition, HP0 to HP3. -/
abbrev Part := Fin 4

/-- Number of a queue of a partition. -/
abbrev QNo := Fin 8

/-- Number of a PTP client instance, 0 to 3, feeding slot RS26 + k (13 R418). -/
abbrev ClNo := Fin 4

/-- Number of a key slot, KS0 to KS63. -/
abbrev KeyNo := Fin 64

/-- Number of a BAR0 page, bits 19 to 12 of an offset (02 R44). -/
abbrev PageNo := Fin 256

/-- A tag of 15 R471. -/
abbrev Tag := Fin 512

/-- One of the two timing halves; also the feed, oscillator and XO that belong to it (01 R16). -/
inductive Half where
  | A
  | B
deriving DecidableEq, Repr

/-- One of the three dies. -/
inductive Die where
  | A
  | B
  | C
deriving DecidableEq, Repr

/-- One of the two paths of a logical port (12 R380). -/
inductive PathAB where
  | A
  | B
deriving DecidableEq, Repr

/-- The other half. -/
def Half.peer : Half → Half
  | .A => .B
  | .B => .A

/-- A value for each of the two halves, paths or feeds (01 R16, 12 R380). -/
structure Pair (α : Type) where
  a : α
  b : α
deriving DecidableEq, Repr

/-- The value of one half. -/
def Pair.of {α : Type} (p : Pair α) : Half → α
  | .A => p.a
  | .B => p.b

/-- The pair with the value of one half replaced. -/
def Pair.set {α : Type} (p : Pair α) (h : Half) (v : α) : Pair α :=
  match h with
  | .A => { p with a := v }
  | .B => { p with b := v }

/-- A path seen as a key of a pair. -/
def PathAB.half : PathAB → Half
  | .A => .A
  | .B => .B

/-- Index of a half in the tables of the two halves. -/
def Half.ix : Half → Fin 2
  | .A => 0
  | .B => 1

/-- Index of a path. -/
def PathAB.ix : PathAB → Fin 2
  | .A => 0
  | .B => 1

/-- The other path. -/
def PathAB.other : PathAB → PathAB
  | .A => .B
  | .B => .A

end Sys2Proof
end

