-- ==== Sys2Proof/Syntax.lean ====
section
/-!
DEFINITION. The commands of the IFL9740: one constructor of `Instr` for each row of spec/opcode_table.json,
with the operands the row's event carries, and the plain data types those operands use.
-/

namespace Sys2Proof

/-- Which oscillator of a half a model or a reading belongs to (07 R245). -/
inductive Osc where
  | mosc
  | xo
deriving DecidableEq, Repr

/-- The frequency and drift monitors of 05 R164 that run on a window. -/
inductive FreqMon where
  | w1
  | w64
  | w1024
  | drift
deriving DecidableEq, Repr

/-- The label of a time-of-day second: days since 1 January 1970, hour, minute and second, 60 in a leap second (05 R179). -/
structure TodLabel where
  day : Nat
  hour : Nat
  min : Nat
  sec : Nat
deriving DecidableEq, Repr

/-- A time-of-day message as its standard decodes it (05 R176): NMEA 0183 sentences, and the messages of ITU-T G.8271
Annex A. `checkOk` says that its checksum or check field is correct; no label stands for one that does not decode. -/
inductive TodMsg where
  | zda (checkOk : Bool) (t : Option TodLabel)
  /-- `active`: status A -/
  | rmc (checkOk : Bool) (active : Bool) (t : Option TodLabel)
  /-- the time event message: `valid` as it indicates -/
  | timeEvent (checkOk : Bool) (valid : Bool) (t : Option TodLabel)
  /-- the time announce message: its UTC offset, when valid -/
  | timeAnnounce (checkOk : Bool) (utcOffset : Option Nat)
  | other
deriving DecidableEq, Repr

/-- A time-of-day message as it is received: what it says, and the time from the pulse before it to its last byte, or with
LABEL = 1 from its last byte to the next pulse (05 R177). -/
structure TodRx where
  msg : TodMsg
  gapNs : Nat
deriving DecidableEq, Repr

/-- A reading of a slot against TD0 to TD3, ps: of its signal, or of ATOM_CLK (05 R149, R153, R154). -/
structure SlotReading where
  clk : Bool
  raw : List Int
deriving DecidableEq, Repr

/-- An AUTHENTICATION TLV as it is received, with what its ICV covers (13 R415, R417). -/
structure AuthTlv where
  spp : Byte
  keyId : Word
  /-- the octets of its message from the first of the header up to the ICV -/
  octets : List Byte
  icv : BitVec 128
deriving DecidableEq, Repr

/-- A BOUND TLV as it is received: what decides whether it is accepted, and its total (13 R406, R408). -/
structure BoundRx where
  org : BitVec 24
  sub : BitVec 24
  version : Byte
  total : Code
deriving DecidableEq, Repr

/-- What decides whether the engine consumes a PTP message: its VLAN tag, versionPTP and minorVersionPTP, domainNumber (13 R395,
R396). -/
structure PtpHead where
  vlan : Option (BitVec 12) := none
  version : BitVec 4 := 2
  minor : BitVec 4 := 1
  domainNum : BitVec 8
deriving DecidableEq, Repr

/-- What an exchange carries besides the timestamps that the device took itself (13 R421): timestamps in ns of TAI and
correctionFields in units of 2^-16 ns, as its messages state them. -/
structure Exchange where
  /-- of the Delay_Resp -/
  head : PtpHead
  seqId : BitVec 16
  /-- t1, from the Sync or from its Follow_Up, and their correctionFields; 0 for a Follow_Up that there is not -/
  t1 : Int
  corrSync : Int
  corrFollow : Int
  /-- t4 and the correctionField of the Delay_Resp; its logMessageInterval -/
  t4 : Int
  corrResp : Int
  logMin : Int
  /-- BOUND TLV of Sync or Follow_Up, and of the Delay_Resp -/
  boundSync : Option BoundRx
  boundResp : Option BoundRx
  /-- of a two-step Sync, the AUTHENTICATION TLV of its Follow_Up, if it has one; and that of the Delay_Resp -/
  follow : Option (Option AuthTlv)
  auth : Option AuthTlv
deriving DecidableEq, Repr

/-- How a path's timestamp unit sees a frame's timestamp point (10 R317 to R320). -/
structure RxPoint where
  /-- the TDC reading, ps after the latest CLK_CORE edge -/
  sub : Nat
  /-- latency of the FEC sublayer for the point's codeword position, ps -/
  fec : Nat
  /-- 100GBASE-R4: the lane of the four that delivered the point, and by how many ps it comes after the reference lane, as the
  latest alignment marker measured it -/
  lane : Fin 4 := 0
  skew : Int := 0
deriving DecidableEq, Repr

/-- A frame arriving at a path of a port. -/
structure RxFrame where
  /-- its octets from the destination address on, short of the FCS -/
  bytes : List Byte
  fcsOk : Bool
  pt : RxPoint
  /-- RS-FEC codewords that the path's reference lane has corrected since the frame before, and those it could not (12 R391) -/
  corr : Nat := 0
  uncorr : Nat := 0
deriving DecidableEq, Repr

/-- A posted entry of a host receive ring: BUF_ADDR and BUF_LEN (12 R378). -/
structure RingEntry where
  addr : Nat
  len : Nat
deriving DecidableEq, Repr

/-- An ESMC PDU as it is received: the SSM code of its QL TLV, and the octets of its enhanced SSM TLV, if it has one (12 R385). -/
structure EsmcPdu where
  ql : BitVec 4
  enhanced : List Byte := []
deriving DecidableEq, Repr

/-- A PTP Announce as a client instance sees it (13 R419). -/
structure AnnounceMsg where
  head : PtpHead
  auth : Option AuthTlv
  gmPrio1 : BitVec 8
  gmClass : BitVec 8
  gmAccuracy : BitVec 8
  gmVariance : BitVec 16
  gmPrio2 : BitVec 8
  gmId : BitVec 64
  stepsRemoved : BitVec 16
  timeSource : BitVec 8
  sender : BitVec 64
  senderPort : BitVec 16
  /-- logMessageInterval: the master's announce interval -/
  logInterval : Int
deriving DecidableEq, Repr

/-- Who a PTP unicast message comes from (13 R411). -/
structure UniClient where
  transport : BitVec 2
  addr : BitVec 128
  dmac : BitVec 48
  clockId : BitVec 64
  portNum : BitVec 16
deriving DecidableEq, Repr

/-- A Signaling message of unicast negotiation, its TLV apart (13 R409, R410, R417). -/
structure UniMsg where
  head : PtpHead
  client : UniClient
  auth : Option AuthTlv
deriving DecidableEq, Repr

/-- The message types of unicast negotiation (13 R409). -/
inductive GrantType where
  | announce
  | sync
  | delayResp
deriving DecidableEq, Repr

/-- A Delay_Req received on a master port (13 R400). -/
structure DelayReq where
  head : PtpHead
  unicast : Bool
  client : UniClient
  auth : Option AuthTlv
  seqId : BitVec 16
  correction : Int
  pt : RxPoint
deriving DecidableEq, Repr

/-- A UDP datagram to port 123 as a path receives it (14 R429, R432, R433). -/
structure NtpReq where
  vlan : Option (BitVec 12) := none
  /-- no IP options, no fragmentation, no extension header -/
  framed : Bool
  srcMac : BitVec 48
  srcIs6 : Bool
  srcAddr : BitVec 128
  dstAddr : BitVec 128
  srcPort : BitVec 16
  /-- the 48 octets of its NTP header -/
  hdr : List Byte
  /-- it ends in a symmetric-key MAC (14 R430) -/
  hasMac : Bool
  /-- the builders are full when the request arrives (14 R461) -/
  buildersFull : Bool
  pt : RxPoint
deriving DecidableEq, Repr

/-- The NTS part of a request (14 R446, R447). -/
structure NtsReq where
  /-- the octets that follow the NTP header -/
  ext : List Byte
  /-- the response can be sealed before its launch instant -/
  sealInTime : Bool
deriving DecidableEq, Repr

/-- The frame that leaves a path, as far as its egress handling differs (10 R321, R329; 12 R377, R383). -/
inductive TxKind where
  /-- the host frame at this place, from 0, among those accepted on the port and not yet sent -/
  | host (idx : Nat)
  /-- the oldest message the PTP engine has built for the port -/
  | ptp
  /-- the oldest Fountain response waiting on the port -/
  | ntp
  /-- an ESMC PDU -/
  | esmc
deriving DecidableEq, Repr

/-- The transport a mailbox request arrives on (18 R565, R567). -/
inductive Transport where
  | part (p : Part)
  | smbus
  | eth
deriving DecidableEq, Repr

/-- A policy record of SET_POLICY (18 R564). -/
inductive PolicyRec where
  /-- owner and VIS of pages, key slot owners, administrator partition, SMB_PRIV -/
  | partition (pages : List (PageNo × BitVec 3 × Bool)) (keyOwners : List (KeyNo × BitVec 3)) (admin : Option Part) (smbPriv : Bool)
  /-- TDn_TROWEL values and initial values of listed RWB registers (BAR0 offset, word) -/
  | startup (trowel : List (Dom × Word)) (init : List (Nat × Word))
  /-- KEY_TAMP_CFG -/
  | tamper (cfg : Word)
deriving DecidableEq, Repr

/-- Kinds of partition reset (15 R468, R491); a link that went down trains again with `linkUp` (log entry 224). -/
inductive PartReset where
  | flr
  | hotReset
  | perst
  | soft
  | linkDown
  | linkUp
deriving DecidableEq, Repr

/-- The host data an operation reads: bytes, or a failed read (15 R489, HOST_MEMORY). -/
abbrev HostRead := Option (List Byte)

/-- A host access that carries its own size: width in bytes and byte enables of the lower word (02 R70 to R75). -/
structure Access where
  part : Part
  width : Nat
  be : BitVec 8
  /-- the write came after the capture point of the coming boundary (02 R56) -/
  late : Bool
  /-- on the PTP and Fountain pages, whose boundaries are those of each port: the ports whose capture point alone it missed -/
  ports : BitVec 16 := 0
  /-- the offset is one of BAR2 (15 R467), which REGISTER_WRITE alone looks at -/
  bar2 : Bool := false
deriving DecidableEq, Repr

/-- A RATE_SET at its dispatch: the operation, and whether its write came after the 2-cycle point of the coming boundary (06
R227, 02 R56). -/
structure RateWrite where
  tag : Tag
  late : Bool
deriving DecidableEq, Repr

/-- Where a detector sits (17 R530): common die, half A, half B, Belrex store or island. -/
inductive Place where
  | common
  | halfA
  | halfB
  | belrex
deriving DecidableEq, Repr

/-- A point whose TDC calibration is checked (10 R325). -/
inductive TdcPoint where
  | laneTx (n : LaneNo)
  | laneRx (n : LaneNo)
  | cap (n : CapNo)
deriving DecidableEq, Repr

/-- The two kinds of port page that carry detectors (12 R392). -/
inductive PortPage where
  | lane (n : LaneNo)
  | lp (n : PortNo)
deriving DecidableEq, Repr

/-- The commands of the block, one constructor per row of spec/opcode_table.json. -/
inductive Instr where
  -- power, reset and thermal events (03)
  | feedDetected (f : Half) (mv : Nat)
  | feedLost (f : Half)
  | halfHeldInReset (h : Half)
  | halfRepower (h : Half)
  | breakerTrip (f : Half)
  | breakerReclose (f : Half)
  | resetN (low : Bool)
  | thermWarn (d : Die)
  | thermTrip (h : Half)
  | thermCommon
  | thermRecover (d : Die)
  | vbatLow (mv : Nat)
  | vauxOverload
  | preRegulatorsUp (retained : Bool)
  -- boot, measurement and start-up (16, 18)
  | bootRomStart (fuseOk : Bool)
  | measuredBoot
  | measExtend (i : Fin 8) (digest : BitVec 384)
  | measLock
  | measLockTimeout
  | step5Complete
  | bootRestart (step : Byte) (reason : Byte)
  -- half start-up and the Lath (04)
  | halfResetEnd (h : Half)
  | standbyLineLock (h : Half)
  | xoLockTimeout (h : Half)
  | moscClassify (h : Half) (hz : Nat)
  | primaryLineLock (h : Half)
  | lathLock (h : Half)
  | lathAcquireRetry (h : Half)
  | moscLost (h : Half)
  | lockLost (h : Half)
  | toStandby (h : Half) (coastNs : Nat) (offset : BitVec 10)
  | xoBad (h : Half)
  | moscReclassify (h : Half) (hz : Nat)
  | moscQualWindow (h : Half) (y : Int)
  | toPrimary (h : Half) (offset : BitVec 10)
  | lathReturnCmd (h : Half)
  | autoRst (h : Half)
  -- claims and arbiters (09, 04, 11)
  | claimChange (h : Half)
  | peerOkPersist
  | switch
  | clkArbSwitch
  | jetSwitch (j : JetNo) (holdPs : Nat) (sub : Nat) (devLast : Int) (devNext : Int)
  | claimParityError (h : Half)
  | claimParityClear (h : Half)
  -- beats, digests and resynchronisation (06, 09)
  | beatBoundary (h : Half) (d : Dom) (xoPhase : Int)
  | digestReceived (h : Half) (peerDigest : BitVec 64)
  | resyncOrder
  | peerOkRise
  | powerupSelftest (h : Half) (pass : Bool)
  | resyncStart (h : Half)
  | loadStateReceived (h : Half)
  | loadInForce (h : Half) (ext : Int) (die common : Vector Int 6)
  | holdoffElapsed (h : Half)
  | heartbeatSend (h : Half)
  | heartbeatReceived (h : Half)
  | linkLost
  | linkUp
  | halfResetCmd (h : Half)
  -- reference slots (05)
  | slotObservation (h : Half) (n : SlotNo) (r : SlotReading)
  | freqMonitorEval (h : Half) (n : SlotNo) (m : FreqMon)
  | signalLost (h : Half) (n : SlotNo)
  | signalPresent (h : Half) (n : SlotNo)
  | qualTimeElapsed (h : Half) (n : SlotNo)
  | disqHoldElapsed (h : Half) (n : SlotNo)
  | agreeDwellElapsed (h : Half) (n : SlotNo)
  | adopt (n : SlotNo)
  | requal (n : SlotNo)
  | todMessage (h : Half) (k : Fin 2) (rx : TodRx)
  | atomTelemetry (h : Half) (line : List Byte) (gapNs : Nat)
  | weightUpdate (h : Half) (d : Dom)
  | comparisonPeriodStart (h : Half) (d : Dom)
  -- time domains (06)
  | loopUpdate (h : Half) (d : Dom) (phase : Option Int)
  | dwellExpiry (h : Half) (d : Dom)
  | trowelArm (a : Access) (d : Dom) (v : Word)
  | forceHold (a : Access) (d : Dom) (v : Word)
  | nowLatch (p : Part) (d : Dom)
  -- Cistern and Spirit Level (07, 08)
  | cisternSecond (h : Half) (d : Dom) (own : Vector Int 7) (common : Vector Int 6)
  | sensorLost (h : Half) (k : Fin 13)
  | sensorPresent (h : Half) (k : Fin 13)
  | modelInst (h : Half) (o : Osc)
  | modelPersist (h : Half) (o : Osc)
  | learningPass (h : Half) (o : Osc)
  | efcTarget (h : Half)
  | slPdsClr (mask : BitVec 4)
  -- frames, timestamps, captures and alarms (10, 12)
  | frameReceived (p : PortNo) (path : PathAB) (f : RxFrame) (entry : Option RingEntry)
  | frameTransmitted (p : PortNo) (path : PathAB) (k : TxKind) (sub : Nat) (fec : Nat) (discarded : Bool)
  | txtsPop (a : Access) (p : PortNo)
  | captureEdge (c : CapNo) (rising : Bool) (sub : Nat) (sinceNs : Nat)
  | capPop (a : Access) (c : CapNo)
  | alarmFire (t : Tag)
  -- jets (11)
  | jetStart (j : JetNo)
  | started (j : JetNo)
  | jetPeriodEdge (j : JetNo) (sub : Nat)
  | jetKill (a : Access) (j : JetNo) (v : Word)
  | jetRestart (j : JetNo)
  | rampDone (j : JetNo) (sub : Nat)
  -- ports and SyncE (12)
  | packetBoundary (p : PortNo)
  | linkDown (p : PortNo) (path : PathAB)
  | portLinkUp (p : PortNo) (path : PathAB)
  | pathHoldoffElapsed (p : PortNo) (path : PathAB)
  | partnerTimeout (p : PortNo) (path : PathAB)
  | pathSwitch (p : PortNo)
  | esmcPdu (p : PortNo) (path : PathAB) (pdu : EsmcPdu) (parseOk : Bool)
  | esmcTo (p : PortNo) (path : PathAB)
  | esmcInfoSend (p : PortNo) (path : PathAB)
  | hrxTail (a : Access) (p : PortNo) (v : Word)
  | bwWindow (p : PortNo)
  -- PTP engine (13)
  | followUpBuild (p : PortNo)
  | delayReqReceived (p : PortNo) (path : PathAB) (m : DelayReq)
  | foreignAnn (p : PortNo)
  | unicastRequest (p : PortNo) (c : UniMsg) (g : GrantType) (logPeriod : Int) (duration : Nat)
  | unicastCancel (p : PortNo) (c : UniMsg) (g : GrantType)
  | grantCountdown (d : Dom)
  | ptpCancel (index : Nat)
  | clientAnnounce (k : ClNo) (m : AnnounceMsg)
  | masterLost (k : ClNo)
  | grantRequest (k : ClNo) (failed : Bool)
  | clientDelayReq (k : ClNo)
  | exchangeComplete (k : ClNo) (x : Exchange)
  | delayRespTimeout (k : ClNo)
  | l1SyncSend (p : PortNo)
  -- Fountain (14)
  | ntpRequest (p : PortNo) (path : PathAB) (r : NtpReq)
  | ntsRequest (p : PortNo) (path : PathAB) (r : NtpReq) (n : NtsReq)
  | ntsLaunch (p : PortNo) (crossPs : Nat)
  | sweeperVisit (index : Fin 1048576)
  | epochAdv
  | ftnKill (a : Access) (v : Word)
  -- host queues and operations (15)
  | sqTail (a : Access) (q : QNo) (v : Word)
  | entryFetch (p : Part) (q : QNo) (entry : Vector Word 16)
  | nop (t : Tag)
  | fence (t : Tag)
  | fenceComplete (t : Tag)
  | timeRead (t : Tag)
  | eventArm (t : Tag)
  | alarmSet (t : Tag)
  | alarmCancel (t : Tag)
  | ptpSend (t : Tag) (frame : HostRead)
  | rateSet (r : RateWrite)
  | keyDerive (t : Tag) (label : HostRead)
  | keyReplace (t : Tag) (key : HostRead)
  | cookieMint (t : Tag) (keys : HostRead)
  | statsSnapshot (t : Tag)
  | logRead (t : Tag)
  | completionWrite (p : Part) (q : QNo)
  | cqHead (a : Access) (q : QNo) (v : Word)
  | irqCoalesceTimeout (p : Part) (q : QNo)
  | queueEnable (a : Access) (q : QNo) (v : Word)
  | queueDisable (a : Access) (q : QNo) (v : Word)
  | qStopped (p : Part) (q : QNo)
  | partitionReset (p : Part) (k : PartReset)
  | queueOpTimeout (t : Tag)
  | mbxGo (a : Access) (v : Word)
  -- keys and tamper (16)
  | keyZeroise (a : Access) (slot : KeyNo)
  | keyZeroiseAll (a : Access)
  | tamper (src : Fin 9)
  | eraseComplete
  -- faults and self-test (17)
  | faultDetection (pl : Place) (pg : PageNo) (det : Byte) (loc : BitVec 24)
  | faultMessageAccepted (source : BitVec 10)
  | overflowMessage (source : BitVec 10)
  | selftestResult (source : BitVec 10) (det : Byte) (pass : Bool)
  | engineWatchdog (source : BitVec 10)
  | crossingTimeout (p : Part) (lost : Nat)
  | mgtWdog
  | aliveToggle
  | fltResume (a : Access) (v : Word)
  | fltRetest (a : Access) (v : Word) (pass : Bool)
  | fltInjWdog (a : Access) (v : Word)
  | fltLogPop (a : Access)
  -- detections of the owning chapters
  | domainDetection (d : Dom) (det : Byte)
  | cisternDetection (det : Byte)
  | slDetection (det : Byte)
  | halfDetection (det : Byte)
  | captureDetection (c : CapNo) (det : Byte)
  | tdcCalDetection (pt : TdcPoint)
  | jetDetection (j : JetNo) (det : Byte)
  | portDetection (pg : PortPage) (det : Byte)
  | ptpDetection (det : Byte) (index : Nat)
  | ftnDetection (det : Byte) (index : Nat)
  | hpDetection (p : Part) (det : Byte)
  | keyDetection (det : Byte) (slot : KeyNo)
  | fltDetection (det : Byte) (loc : BitVec 24)
  | mgtDetection (det : Byte) (correctable : Bool)
  | cntDetection (c : Fin 1024)
  | railCrossing (rail : Fin 8) (mv : Nat)
  | logRecordWrite
  -- mailbox commands (18)
  | getInfo (src : Transport) (tag : BitVec 16)
  | getSensors (src : Transport) (tag : BitVec 16)
  | getChallenge (src : Transport) (tag : BitVec 16)
  | setPolicy (src : Transport) (tag : BitVec 16) (r : PolicyRec)
  | clearLatch (src : Transport) (tag : BitVec 16) (live : BitVec 9)
  | chipReset (src : Transport) (tag : BitVec 16)
  | restartMgt (src : Transport) (tag : BitVec 16)
  | updateBegin (src : Transport) (tag : BitVec 16) (bodyLen : Nat)
  | updateData (src : Transport) (tag : BitVec 16) (offset : Nat) (data : List Byte)
  | updateEnd (src : Transport) (tag : BitVec 16)
  | confirm (src : Transport) (tag : BitVec 16)
  | svnCommit (src : Transport) (tag : BitVec 16)
  | enterRma (src : Transport) (tag : BitVec 16) (sig : List Byte)
  | decommission (src : Transport) (tag : BitVec 16)
  -- register accesses (02)
  | chainWrite (a : Access) (w : Fin 16) (v : Word)
  | pageLock (a : Access) (pg : PageNo)
  | pageEnable (a : Access) (pg : PageNo) (en : Bool)
  | srst (a : Access) (pg : PageNo)
  | pageSoftReset (pg : PageNo)
  | eventClear (a : Access) (pg : PageNo) (v : Word) (coincident : Word)
  | faultClear (a : Access) (pg : PageNo)
  | inject (a : Access) (pg : PageNo) (det : Byte) (continuous : Bool)
  | applyHold (a : Access) (pg : PageNo)
  | applyRelease (a : Access) (pg : PageNo)
  | discard (a : Access) (pg : PageNo)
  | indAddrWrite (a : Access) (pg : PageNo) (v : Word)
  | indCtlWrite (a : Access) (pg : PageNo) (v : Word)
  | indDataRead (a : Access) (pg : PageNo)
  | indDataWrite (a : Access) (pg : PageNo) (v : Word)
  | buserrLogPop (a : Access)
  | registerWrite (a : Access) (off : Nat) (v : Option (BitVec 64))
  -- the rows added at the table's end
  | selHoldElapsed (h : Half) (d : Dom)
  | pdsAgreeDwellElapsed (h : Half) (k : ClNo)
  | jetFallingEdge (j : JetNo)
  | pcieCompletionTimeout (t : Tag)
  | hiBer (n : LaneNo)
  | mgtEthFrame (srcMac : BitVec 48) (seq : BitVec 64) (body : List Byte) (icv : BitVec 128)
deriving DecidableEq, Repr

end Sys2Proof
end

