-- ==== Sys2Proof/Decode.lean ====
section
/-!
DEFINITION. Decoding of the words that spec/opcode_table.json gives its rows.
-/

namespace Sys2Proof

/-- The command that a word of the table spells. No row of spec/opcode_table.json gives bits: the block's commands
are events and register accesses, not encoded words, so every word is refused. -/
def decodeTableWord (_nbits _w : Nat) : Option Instr := none

end Sys2Proof
end

