-- ==== Sys2Proof/Config.lean ====
section
/-!
DEFINITION. What one module fixes at manufacture, the cryptographic functions the spec names by their standards,
and the free values: constants without a body, so that nothing can be proved of their values.
-/

namespace Sys2Proof.Config

/-! ## Factory data (10 R322, R337; 11 R366; 12; 13; 18 R557) -/

/-- The factory value of the register at offset `off` of page `pg` (reset values marked "factory"). -/
opaque factory (pg off : Nat) : Word

/-- Factory latency of a lane for a mode, LANE_TS_LAT (10 R317). -/
opaque laneLat (lane mode : Nat) : Word

/-- Factory residuals of a lane for a mode: LANE_RESID_TS at offset 0x414, LANE_RESID_FEC at 0x418 (10 R322). -/
opaque laneResid (lane mode off : Nat) : Word

/-- Factory latency of a jet from grid to ball, ps (11 R353). -/
opaque jetLat (jet : Nat) : Int

/-- Front-end residual codes of a half, entries 0 to 8 (08 R281). -/
opaque frontResid (half entry : Nat) : Code

/-- The module serial number (18 DEV_SERIAL). -/
opaque serial : BitVec 64

/-- Silicon revision (18 DEV_ID.REV). -/
opaque revision : Byte

/-- Fused identity of a die: lot, wafer, X, Y (18 DEV_DIE): 0 common die, 1 half A, 2 half B. -/
opaque dieId (die : Nat) : BitVec 57

/-- Boot ROM version (16 R502). -/
opaque bootRomVersion : Nat

/-- SHA-384 digest of the Dalnal key in the boot ROM (18 R559). -/
opaque dalnalDigest : BitVec 384

/-! ## Functions named by standards (16 R502 to R506, 14 R443, 13 R413) -/

opaque sha384 : List Byte → BitVec 384

/-- The root secret (16 R499). -/
opaque rootSecret : List Byte

/-- HKDF-SHA-384: salt, input key material, info, octets out (16 R504). -/
opaque hkdf384 (salt ikm info : List Byte) (len : Nat) : List Byte

/-- HMAC-SHA-384 under a key (16 R506). -/
opaque hmac384 (key data : List Byte) : BitVec 384

/-- HMAC-SHA256 truncated to 128 bits (13 R415, 18 R567). -/
opaque hmac256 (key data : List Byte) : BitVec 128

/-- AES key wrap with padding and its inverse (16 R505). -/
opaque aesWrap (key data : List Byte) : List Byte
opaque aesUnwrap (key data : List Byte) : List Byte

/-- ECDSA P-384 verification of a signature over a message under a public key (18 R559, R574). -/
opaque ecdsaOk (pubkey msg sig : List Byte) : Bool

/-- The Dalnal public key (18 R574). -/
opaque dalnalKey : List Byte

/-- AEAD_AES_SIV_CMAC_256: key, nonce, associated data, plaintext; and its inverse (14 R446 to R448). -/
opaque aeadSeal (key nonce assoc plain : List Byte) : List Byte
opaque aeadOpen (key nonce assoc cipher : List Byte) : Option (List Byte)

/-- SipHash-2-4 under a 128-bit key (14 R445, R455). -/
opaque sipHash (key : BitVec 128) (data : List Byte) : BitVec 64

/-- AES-256-GCM: key, IV, associated data, plaintext; ciphertext followed by its tag; and its inverse (14 R444). -/
opaque gcmSeal (key : List Byte) (iv : BitVec 64) (assoc plain : List Byte) : List Byte
opaque gcmOpen (key : List Byte) (iv : BitVec 64) (assoc cipher : List Byte) : Option (List Byte)

/-- The client table's hash key, drawn from the random source for the n-th time (14 R455). -/
opaque hashKey : Nat → BitVec 128

/-- portNumber in the messages of a client instance (13 R401 states that of a master port alone). -/
opaque clNumber : Nat → BitVec 16

/-- The number of the first round of the permutation of 14 R445, which names the rounds' number and not its start. -/
opaque firstRound : Nat

/-- AES-256 of one block (14 R445). -/
opaque aes256 (key block : List Byte) : List Byte

/-! ## Free values -/

/-- A value the spec leaves open, drawn at place `n` of a counter that the step advances. -/
opaque free : Nat → Nat

/-- Whether key unit 1, not 0, serves a key operation while both are in service, by its tag and its place in its queue. -/
opaque keyUnit (tag order : Nat) : Bool

/-- Whether an inexact result is rounded up where the spec states no rounding. -/
opaque roundUp (num den : Int) : Bool

/-- Natural logarithm, square root and their rounding, in units of 2^-32, where the spec names the function
and no rounding. -/
opaque lnQ32 (num den : Nat) : Int
opaque sqrtQ (num den : Nat) : Nat

/-- Uncertainty of a half's XO measurement, units of LATH_XO_UNC (04 R123 states no formula of it). -/
opaque xoUnc (half : Nat) (n : Nat) : Word

/-- The first value of XO_Y, units of 2^-60, of a standby line that locks while the grid runs on PRIMARY (04 R123). -/
opaque xoFirst (half : Nat) (n : Nat) : Int

/-- A half's offset from its peer's grid, units of 2^-60, that RS31 has not measured (09 R302). -/
opaque gridOffset (half : Nat) (n : Nat) : Int

/-- The location in the messages of checks on memories and tables, which names the part that failed (17 R531): by page,
detector and number of the detection. -/
opaque faultLoc (pg det n : Nat) : BitVec 24

/-- The current of a feed in mA at a millisecond of common time, by the draw taken at its detection (03 R599). -/
opaque feedMa (draw ms : Nat) : BitVec 16

/-- What temperature sensor `k` reads at a millisecond of common time, 1/256 °C: 0 to 5 of half A's die, 6 to 11 of half B's, 12 to 23
of the common die, 24 and 25 at the oscillators (18 R575). -/
opaque sensorTemp (k ms : Nat) : BitVec 16

/-- The part of 10 mW added before PWR_INPUT.POWER drops what is below its unit: the rounding the spec leaves open (03 R599). -/
opaque powerRound (ms : Nat) : Nat

/-- Detector index in messages whose chapters list no detector, by page and kind: access checks (02 R76), feeds,
breakers, thermal thresholds and rails (17 R532), tamper sources. -/
opaque detectorOf (pg kind : Nat) : Byte

end Sys2Proof.Config
end

