-- ==== Sys2Proof/Machine/Table.lean ====
section
/-!
DEFINITION. Sparse tables with a default value in one canonical form (keys strictly rising, no entry equal to
its default), and updates of fixed tables.
-/

namespace Sys2Proof.Machine

/-- A sparse table: the entries that differ from the default, by rising key. -/
abbrev KMap (α : Type) := List (Nat × α)

/-- The value of key `k`; an unlisted key has the value `d k`. -/
def look {α : Type} (d : Nat → α) (m : KMap α) (k : Nat) : α :=
  match m with
  | [] => d k
  | (j, v) :: r => if j = k then v else look d r k

/-- Place an entry before the first larger key. -/
def place {α : Type} (m : KMap α) (k : Nat) (v : α) : KMap α :=
  match m with
  | [] => [(k, v)]
  | (j, w) :: r => if k < j then (k, v) :: (j, w) :: r else (j, w) :: place r k v

/-- Remove every entry of key `k`. -/
def drop {α : Type} (m : KMap α) (k : Nat) : KMap α :=
  match m with
  | [] => []
  | (j, w) :: r => if j = k then drop r k else (j, w) :: drop r k

/-- The table with key `k` holding `v`, in canonical form. -/
def put {α : Type} [DecidableEq α] (d : Nat → α) (m : KMap α) (k : Nat) (v : α) : KMap α :=
  if v = d k then drop m k else place (drop m k) k v

/-- The canonical form: keys strictly rising, no entry equal to its default. -/
def KMap.wf {α : Type} [DecidableEq α] (d : Nat → α) : KMap α → Bool
  | [] => true
  | (k, v) :: r =>
    decide (v ≠ d k) && (match r with | [] => true | (j, _) :: _ => decide (k < j)) && KMap.wf d r

/-- The keys of a sparse table. -/
def keysOf {α : Type} (m : KMap α) : List Nat := m.map (·.1)

/-- A fixed table with one entry changed by `f`. -/
def modAt {α : Type} {n : Nat} (v : Vector α n) (i : Fin n) (f : α → α) : Vector α n :=
  v.set i.val (f (v.get i)) i.isLt

/-- A fixed table with one entry replaced. -/
def setAt {α : Type} {n : Nat} (v : Vector α n) (i : Fin n) (x : α) : Vector α n :=
  v.set i.val x i.isLt

/-- The first entry of a list that satisfies `p`, with its position. -/
def findIx {α : Type} (p : α → Bool) : List α → Option (Nat × α)
  | [] => none
  | x :: r => if p x then some (0, x) else (findIx p r).map (fun q => (q.1 + 1, q.2))

/-- The bits `hi` to `lo` of a word, as a number. -/
def bits (w : Word) (hi lo : Nat) : Nat := (w.toNat / 2 ^ lo) % 2 ^ (hi + 1 - lo)

/-- One bit of a word. -/
def bit (w : Word) (i : Nat) : Bool := w.getLsbD i

/-- The bits `hi` to `lo` of a word, as a signed number. -/
def sbits (w : Word) (hi lo : Nat) : Int :=
  let n := bits w hi lo
  if n < 2 ^ (hi - lo) then (n : Int) else (n : Int) - (2 ^ (hi + 1 - lo) : Nat)

/-- A number laid into a word at bit `lo`. -/
def fld (n lo : Nat) : Word := BitVec.ofNat 32 (n * 2 ^ lo)

/-- A flag laid into a word at bit `i`. -/
def flagAt (b : Bool) (i : Nat) : Word := if b then BitVec.ofNat 32 (2 ^ i) else 0

/-- The word with the bits of `mask` taken from `v` and the others kept. -/
def mergeMask (old v mask : Word) : Word := (old &&& ~~~mask) ||| (v &&& mask)

/-- The mask of bits `hi` to `lo`. -/
def maskOf (hi lo : Nat) : Word := BitVec.ofNat 32 ((2 ^ (hi + 1 - lo) - 1) * 2 ^ lo)

/-- The bytes of a number, `n` of them, the least significant first (00 R5). -/
def leBytes : Nat → Nat → List Byte
  | 0, _ => []
  | n + 1, x => BitVec.ofNat 8 x :: leBytes n (x / 256)

/-- The number that bytes spell, the least significant first (00 R5). -/
def ofLe : List Byte → Nat
  | [] => 0
  | b :: r => b.toNat + 256 * ofLe r

/-- The bytes of a number, `n` of them, the most significant first (00 R5). -/
def beBytes (n x : Nat) : List Byte := (leBytes n x).reverse

/-- The number that bytes spell, the most significant first. -/
def ofBe (l : List Byte) : Nat := ofLe l.reverse

end Sys2Proof.Machine
end

