-- ==== Sys2Proof/Machine/Operands.lean ====
section
/-!
DEFINITION. Where a command's operands name registers: the kinds of page, the register map of every page with
the access code and reset value of each bit, and the indirect tables.
-/

namespace Sys2Proof.Machine

/-- The kinds of implemented page and their number (02 R45 and the owning chapters). -/
inductive PageKind where
  | dev
  | hp (n : Nat)
  | rs (n : Nat)
  | td (n : Nat)
  | cis
  | cap (n : Nat)
  | half
  | lath
  | sl
  | jet (n : Nat)
  | lp (n : Nat)
  | lane (n : Nat)
  | ptp
  | ftn
  | key
  | flt
  | cnt
  | mgt
  | pwr
deriving DecidableEq, Repr

/-- The page at a page number, when one is implemented (02 R45). -/
def pageKind (pg : Nat) : Option PageKind :=
  if pg = 0 then some .dev
  else if 0x10 ≤ pg ∧ pg < 0x14 then some (.hp (pg - 0x10))
  else if 0x20 ≤ pg ∧ pg < 0x40 then some (.rs (pg - 0x20))
  else if 0x40 ≤ pg ∧ pg < 0x44 then some (.td (pg - 0x40))
  else if pg = 0x44 then some .cis
  else if 0x48 ≤ pg ∧ pg < 0x50 then some (.cap (pg - 0x48))
  else if pg = 0x50 then some .half
  else if pg = 0x51 then some .lath
  else if pg = 0x52 then some .sl
  else if 0x60 ≤ pg ∧ pg < 0x70 then some (.jet (pg - 0x60))
  else if 0x70 ≤ pg ∧ pg < 0x80 then some (.lp (pg - 0x70))
  else if 0x80 ≤ pg ∧ pg < 0x90 then some (.lane (pg - 0x80))
  else if pg = 0x90 then some .ptp
  else if pg = 0xA0 then some .ftn
  else if pg = 0xB0 then some .key
  else if pg = 0xC0 then some .flt
  else if pg = 0xD0 then some .cnt
  else if pg = 0xE0 then some .mgt
  else if pg = 0xF0 then some .pwr
  else none

def pgDev : Nat := 0x00
def pgHp (p : Part) : Nat := 0x10 + p.val
def pgRs (n : SlotNo) : Nat := 0x20 + n.val
def pgTd (d : Dom) : Nat := 0x40 + d.val
def pgCis : Nat := 0x44
def pgCap (c : CapNo) : Nat := 0x48 + c.val
def pgHalf : Nat := 0x50
def pgLath : Nat := 0x51
def pgSl : Nat := 0x52
def pgJet (j : JetNo) : Nat := 0x60 + j.val
def pgLp (p : PortNo) : Nat := 0x70 + p.val
def pgLane (n : LaneNo) : Nat := 0x80 + n.val
def pgPtp : Nat := 0x90
def pgFtn : Nat := 0xA0
def pgKey : Nat := 0xB0
def pgFlt : Nat := 0xC0
def pgCnt : Nat := 0xD0
def pgMgt : Nat := 0xE0
def pgPwr : Nat := 0xF0

/-- A register, or an array of registers at `base + i * stride`, with the masks of its access codes (00 R14).
A bit in no mask is RO. `pair` is 1 for the low and 2 for the high word of a designated wide pair (02 R72). -/
structure RegRow where
  base : Nat
  stride : Nat := 4
  count : Nat := 1
  reset : Word := 0
  rwb : Word := 0
  rw : Word := 0
  w1c : Word := 0
  wo : Word := 0
  pop : Bool := false
  pair : Nat := 0
  /-- the reset value is the factory's -/
  fact : Bool := false
deriving DecidableEq, Repr

/-- Whether a row holds the register at an offset. -/
def RegRow.has (r : RegRow) (off : Nat) : Bool :=
  decide (r.base ≤ off) && decide ((off - r.base) % r.stride = 0) && decide ((off - r.base) / r.stride < r.count)

/-- A read-only register, an array of them, and a wide pair or an array of pairs. -/
def ro (b : Nat) (v : Word := 0) : List RegRow := [{ base := b, reset := v }]
def roA (b stride n : Nat) (v : Word := 0) : List RegRow := [{ base := b, stride := stride, count := n, reset := v }]
def roP (b : Nat) (stride : Nat := 8) (n : Nat := 1) : List RegRow :=
  [{ base := b, stride := stride, count := n, pair := 1 }, { base := b + 4, stride := stride, count := n, pair := 2 }]

/-- Buffered registers: mask and reset value. -/
def wb (b : Nat) (m : Word) (v : Word := 0) : List RegRow := [{ base := b, rwb := m, reset := v }]
def wbA (b stride n : Nat) (m : Word) (v : Word := 0) : List RegRow :=
  [{ base := b, stride := stride, count := n, rwb := m, reset := v }]
def wbF (b : Nat) (m : Word) : List RegRow := [{ base := b, rwb := m, fact := true }]
def wbP (b : Nat) (ml mh : Word) (vl : Word := 0) (vh : Word := 0) (stride : Nat := 8) (n : Nat := 1) : List RegRow :=
  [{ base := b, stride := stride, count := n, rwb := ml, reset := vl, pair := 1 },
   { base := b + 4, stride := stride, count := n, rwb := mh, reset := vh, pair := 2 }]

/-- Immediate registers (RW and RWI): mask and reset value. -/
def wi (b : Nat) (m : Word) (v : Word := 0) : List RegRow := [{ base := b, rw := m, reset := v }]
def wiA (b stride n : Nat) (m : Word) (v : Word := 0) : List RegRow :=
  [{ base := b, stride := stride, count := n, rw := m, reset := v }]
def popP (b : Nat) : List RegRow := [{ base := b, pop := true, pair := 1 }, { base := b + 4, pop := true, pair := 2 }]

def allOnes : Word := 0xFFFFFFFF

/-- The common page header (02 R50, R62). -/
def headerRows : List RegRow :=
  roA 0x000 4 3 ++ wi 0x00C 0x80000003 ++ ro 0x010 ++ [{ base := 0x014, w1c := 0x80FFFFFF }] ++ wi 0x018 allOnes ++
  [{ base := 0x01C, w1c := 1 }] ++ wi 0x020 0x3FF ++ wi 0x024 3 ++ wi 0x028 allOnes ++
  [{ base := 0x02C, rw := allOnes, pop := true }] ++ [{ base := 0x030, rw := 0x1FF, w1c := 0x01000000 }] ++ ro 0x034

/-- Slot pages (05 R188): registers marked for particular slots are reserved in the others. CLASS follows MODE where a slot has one
(R149), here with MODE at 0. -/
def rsRows (n : Nat) : List RegRow :=
  let clsWord : Word := if n < 8 ∨ n = 30 then 0x10 else if n < 10 then 0 else if n < 26 ∨ n = 31 then 0x20 else 0
  wb 0x040 (if n < 8 ∨ n = 30 then 0xFF000101 else if n = 31 then 0xFF000000 else 0xFF000100) (0xF0000000 ||| clsWord) ++
  (if n < 8 then wb 0x044 0x3FFFFFFF 1 else []) ++ wb 0x048 allOnes ++
  (if 26 ≤ n ∧ n < 30 then wb 0x04C allOnes 0x79C479C4 else wb 0x04C 0xFFFF (if 10 ≤ n ∧ n < 26 then 0xB98A else 0x79C4)) ++ wb 0x050 allOnes 0x0040000A ++
  wb 0x054 0x3FFFFFFF 0x04B0A427 ++ wb 0x058 allOnes 0x00320032 ++ wb 0x05C 0x0FFFFFFF 0x020A0064 ++
  wb 0x060 0x7FF 0x42D ++ (if 26 ≤ n ∧ n < 30 then wb 0x064 0x1FFFF 20 else []) ++ wb 0x068 3 ++
  (if n = 8 then wb 0x070 0x00FF3E73 0x00030400 ++ wb 0x074 0x7FF else []) ++
  (if n = 9 then wb 0x070 0x00FF3E73 0x00030410 ++ wb 0x074 0x7FF else []) ++
  (if n = 30 then wb 0x070 0xFF1F 0x0511 else []) ++
  roA 0x100 4 2 ++ roP 0x108 8 4 ++ roA 0x128 4 8 ++ ro 0x148 0xFFFF ++
  (if 26 ≤ n ∧ n < 30 then ro 0x14C else []) ++ (if n = 8 ∨ n = 9 then roA 0x150 4 2 else []) ++
  (if n = 30 then ro 0x150 else [])

/-- Time-domain pages (06 R229 to R231, 05 R188). -/
def tdRows : List RegRow :=
  wb 0x040 0x131 ++ wb 0x044 0x1F1F1F 0x02060C ++ wb 0x048 allOnes 0x40104008 ++ wb 0x04C allOnes 0x006403E8 ++
  wb 0x050 allOnes 0x01000032 ++ wb 0x054 0x03FF03FF 0x002A0027 ++ wb 0x058 0x1FFFF 20000 ++
  wb 0x05C 0xFFFF 0xB98A ++ [{ base := 0x060, wo := 0x701 }] ++ wi 0x064 1 ++ wb 0x0C0 0x00FFFF03 0x00C00A02 ++
  ro 0x0C4 ++ roP 0x0C8 ++ ro 0x100 ++ ro 0x104 0xFFFF ++ roA 0x108 4 2 ++ roP 0x110 ++ roP 0x118 ++ roP 0x120 ++
  roA 0x128 4 7

/-- The Cistern page (07 R256). -/
def cisRows : List RegRow :=
  wb 0x040 0x00FFFFFF 0x00080400 ++ wb 0x044 0x00013FFF 0x418 ++ wbA 0x048 4 2 0x003FF733 0x0002B301 ++
  wbA 0x050 4 2 allOnes ++ wb 0x058 0xFFFF 0x1A1A ++ wbA 0x05C 4 2 0x00FFFFFF 0x00800000 ++
  roA 0x100 0x20 4 ++ roP 0x108 0x20 4 ++ roA 0x110 0x20 4 ++ roA 0x114 0x20 4 ++ roA 0x118 0x20 4 ++
  roA 0x11C 0x20 4 0xFFFF ++ roA 0x200 4 4 ++ roA 0x240 4 4

/-- The halves page (09 R313). -/
def halfRows : List RegRow :=
  wb 0x040 0x1FFF00FF 0x110A0088 ++ wb 0x044 0x00FFFFFF 0x00320064 ++ wb 0x048 0x3FF 0x2C ++ wb 0x04C 3 ++
  ro 0x080 2 ++ roA 0x084 4 2 ++ roA 0x090 4 4 0x80000000 ++ roA 0x100 4 4 ++ roA 0x140 4 4

/-- The Lath page (04 R145): per-half status at 0x080 and 0x0C0. -/
def lathRows : List RegRow :=
  wbA 0x040 4 2 0x17 ++ wb 0x048 0x00FFFF3F 0x00643203 ++ wb 0x04C 0xF 4 ++ wb 0x050 3 ++
  roA 0x080 0x40 2 ++ roP 0x088 0x40 2 ++ roA 0x090 0x40 2 allOnes ++ roA 0x094 0x40 2 ++ roA 0x098 0x40 2 ++
  roA 0x09C 0x40 2

/-- The Spirit Level page (08 R280): per-half status at 0x100 and 0x200, domain n at + n × 0x20,
and the held delay-step terms of RS26 to RS29 at + 0x80 + k × 4. -/
def slRows : List RegRow :=
  wb 0x040 0x03FF00FF 0x002C0020 ++ wb 0x044 0xF ++ roA 0x100 0x20 4 allOnes ++ roA 0x200 0x20 4 allOnes ++
  roA 0x104 0x20 4 allOnes ++ roA 0x204 0x20 4 allOnes ++ roA 0x108 0x20 4 allOnes ++ roA 0x208 0x20 4 allOnes ++
  roA 0x10C 0x20 4 0x0018FFFF ++ roA 0x20C 0x20 4 0x0018FFFF ++ roA 0x110 0x20 4 ++ roA 0x210 0x20 4 ++
  roA 0x114 0x20 4 ++ roA 0x214 0x20 4 ++ roA 0x118 0x20 4 0xFFFF ++ roA 0x218 0x20 4 0xFFFF ++
  roA 0x11C 0x20 4 0xFFFF ++ roA 0x21C 0x20 4 0xFFFF ++ roA 0x180 4 4 ++ roA 0x280 4 4

/-- Capture pages (10 R346). -/
def capRows : List RegRow :=
  wb 0x040 0x101 ++ wb 0x044 allOnes ++ wbF 0x048 0xFFFF ++ [{ base := 0x04C, w1c := 0x8000 }] ++ ro 0x050 ++
  popP 0x060 ++ roP 0x068 ++ roA 0x070 4 2

/-- Jet pages (11 R369). -/
def jetRows : List RegRow :=
  wb 0x040 0x01131331 1 ++ wb 0x044 allOnes 100000000 ++ wbP 0x048 0x3FFFFFFF 0xFFFF 1 1 ++ wb 0x050 0x3FF 0x22 ++
  wb 0x054 0xFFFF 0xB98A ++ wb 0x058 allOnes ++ wb 0x05C 0xFFFF ++ wbF 0x060 0xFFFF ++ wi 0x064 3 ++ wb 0x068 1 ++
  ro 0x100 0x80 ++ ro 0x104 0xFFFF ++ roP 0x108 ++ ro 0x110

/-- Logical port pages (12 R390, 10 R346). -/
def lpRows : List RegRow :=
  wb 0x040 0x0003F113 1 ++
  [{ base := 0x048, rwb := allOnes, fact := true, pair := 1 }, { base := 0x04C, rwb := 0xFFFF, fact := true, pair := 2 }] ++
  wb 0x050 0x00FFFFFF 0x00030A88 ++ wb 0x054 allOnes ++ wb 0x058 0x000301F7 0xB0 ++ wb 0x05C 0xFFFFF 0x000FB4B2 ++
  wbP 0x060 0xFFFFFFE0 0xFFFFFFFF ++ wb 0x068 0x10F 8 ++ wi 0x06C 0xFFF ++ ro 0x070 ++ wb 0x080 3 3 ++ ro 0x084 ++
  roP 0x088 ++ roP 0x090 ++ roA 0x098 4 2 ++ roA 0x100 4 3 ++ ro 0x10C 0x000F0000 ++
  wb 0x400 0x103 0x100 ++ wb 0x404 allOnes ++ [{ base := 0x408, w1c := 0x8000 }] ++ popP 0x410 ++ roP 0x418 ++
  roA 0x420 4 2

/-- Lane pages (12 R390, 10 R346). -/
def laneRows : List RegRow :=
  wb 0x040 0x303 ++ wb 0x044 0x3FFFF 0xC00 ++ roA 0x100 4 2 ++ ro 0x400 ++ wb 0x404 allOnes ++ wbA 0x408 4 2 allOnes ++
  wb 0x410 allOnes ++ wbF 0x414 allOnes ++ wbF 0x418 0xFFFF ++ wb 0x41C 0x31 ++ roA 0x420 4 2

/-- The PTP page (13 R425). -/
def ptpRows : List RegRow :=
  [{ base := 0x040, rwb := allOnes, fact := true, pair := 1 }, { base := 0x044, rwb := allOnes, fact := true, pair := 2 }] ++
  wb 0x048 0xFFFF 0x8080 ++ wb 0x04C 0xFFFFFF ++ wb 0x050 0x0037FFFF 0x25 ++ wb 0x054 allOnes 0x3407F806 ++
  wb 0x058 allOnes 0x8C07F806 ++ wb 0x05C 0xFFFFFF01 0x4E5D2100 ++ wb 0x060 0xFFFFFF01 0x4E5D2101 ++
  wb 0x064 0xFFFF 0x9F43 ++ wb 0x068 0x03FF03FF 0x03E8000A ++ wb 0x06C 0xFFFF 0x4D99 ++ wb 0x070 0x8001FFFF ++
  wbP 0x080 0xC0003FFF 0xFFFFFFFF 0 0 8 16 ++
  wbA 0x100 0x20 16 0xFF0F37F7 ++ wbA 0x104 0x20 16 0xFFFF0FFF 0x888 ++ wbA 0x108 0x20 16 allOnes ++
  wbA 0x10C 0x20 16 allOnes ++ wbA 0x110 0x20 16 allOnes ++ wbA 0x114 0x20 16 allOnes ++ wbA 0x118 0x20 16 allOnes ++
  wbA 0x11C 0x20 16 allOnes 0x10000000 ++
  wbA 0x300 0x40 4 0xFF0F3FB7 ++ wbA 0x304 0x40 4 allOnes 0x80073888 ++ wbA 0x308 0x40 4 0x3FF 300 ++
  wbA 0x30C 0x40 4 allOnes ++ wbA 0x310 0x40 4 allOnes ++ wbA 0x314 0x40 4 allOnes ++ wbA 0x318 0x40 4 allOnes ++
  wbP 0x320 0xFFFFFFFF 0xFFFF 0 0 0x40 4 ++
  roA 0x400 4 4 ++ roA 0x500 0x10 16 ++ roA 0x504 0x10 16 ++ roA 0x508 0x10 16 ++
  roA 0x600 0x40 4 ++ roP 0x608 0x40 4 ++ roP 0x610 0x40 4 ++ roA 0x618 0x40 4 ++ roA 0x61C 0x40 4

/-- The Fountain page (14 R463). -/
def ftnRows : List RegRow :=
  wb 0x040 0xFFFFFF02 0x00322802 ++ wb 0x044 0x1FFFF 0x25 ++ wbP 0x048 0xFFFFFFFF 0x1F03FFFF 0 0x0C000000 ++
  wb 0x050 0xCF00FFFF 0x4A001010 ++ wb 0x054 0x3F ++ wi 0x058 1 ++
  wbA 0x100 0x20 16 0xFFFF0037 ++ wbA 0x104 0x20 16 allOnes ++ wbA 0x108 0x20 16 allOnes ++ wbA 0x10C 0x20 16 allOnes ++
  wbA 0x110 0x20 16 allOnes ++ wbA 0x114 0x20 16 allOnes ++
  roA 0x400 4 16 ++ roA 0x500 0x10 16 ++ roA 0x504 0x10 16 ++ roA 0x508 0x10 16

/-- Partition pages (15 R495, 18 R567, 02 R77). -/
def hpRows : List RegRow :=
  ro 0x040 ++ wi 0x044 0xFFFF 50 ++ wi 0x048 3 ++
  [{ base := 0x100, stride := 0x40, count := 8, rw := 0xFFFFF000, pair := 1 },
   { base := 0x104, stride := 0x40, count := 8, rw := allOnes, pair := 2 },
   { base := 0x108, stride := 0x40, count := 8, rw := 0xFFFFF000, pair := 1 },
   { base := 0x10C, stride := 0x40, count := 8, rw := allOnes, pair := 2 }] ++
  wiA 0x110 0x40 8 0x80011FFF 0x88 ++ wiA 0x114 0x40 8 0xFFF ++ wiA 0x118 0x40 8 0xFFF ++ roA 0x11C 0x40 8 ++
  wiA 0x120 0x40 8 0x00FFFFFF 1 ++ roA 0x124 0x40 8 ++ wiA 0x500 4 64 allOnes ++ wi 0x600 1 ++ popP 0x7C0

/-- Key, collector, counter, device, management and power pages (16 R526, 17 R551, 19 R592, 18 R582, 03 R111). -/
def keyRows : List RegRow := ro 0x040 ++ wi 0x044 0x13F ++ ro 0x048 0x0202A900 ++ roA 0x04C 4 3

def fltRows : List RegRow :=
  ro 0x040 ++ wi 0x044 1 ++ wi 0x048 0x000FFF0F 0x0003E804 ++ wi 0x04C 0xFFFF 1000 ++ wi 0x050 0xFF 64 ++
  wi 0x054 0xFF 10 ++ wi 0x058 0x3FFF 1000 ++ wi 0x05C 0x83FF00FF ++ wi 0x060 0x800003FF ++ popP 0x080 ++
  roA 0x088 4 4

/-- Chain bits of word `w` that exist: counters that are used (19 R587, R588). -/
def chainUsed (w : Nat) : Word :=
  if w < 4 then allOnes                       -- 16 logical ports
  else if w = 4 then 0x000FFFFF               -- Fountain 256 to 295
  else if w = 5 then 0x000007FF               -- PTP 320 to 341
  else if w = 6 then allOnes                  -- partitions 384 to 447
  else if w = 7 then allOnes                  -- capture inputs and lanes
  else if w = 8 then allOnes                  -- lanes to 543, half A from 544
  else if w = 9 then 0xFFFF07FF
  else if w = 10 then 0x007F07FF
  else 0

/-- Reset values of the chain words: 1 for the pairs marked n/n+1 (19 R587, R588). -/
def chainReset (w : Nat) : Word :=
  if w < 4 then 0x06060606
  else if w = 4 then 0x000FFF07
  else if w = 5 then 0x0000001F
  else if w = 10 then 0x00400000
  else 0

def cntRows : List RegRow :=
  ro 0x040 ++ (List.range 16).map (fun w =>
    { base := 0x080 + w * 4, rw := chainUsed w, reset := chainReset w })

def devRows : List RegRow := ro 0x040 ++ roP 0x048 ++ roP 0x050 8 3 ++ ro 0x068

def mgtRows : List RegRow :=
  roA 0x040 4 2 ++ roA 0x080 4 15 ++ roA 0x0C0 4 8 ++ wi 0x100 0x7F 0x4E ++ wi 0x104 0x3F 0x3E

def pwrRows : List RegRow := roA 0x040 4 6

/-- The block registers of a page. -/
def blockRows : PageKind → List RegRow
  | .dev => devRows
  | .hp _ => hpRows
  | .rs n => rsRows n
  | .td _ => tdRows
  | .cis => cisRows
  | .cap _ => capRows
  | .half => halfRows
  | .lath => lathRows
  | .sl => slRows
  | .jet _ => jetRows
  | .lp _ => lpRows
  | .lane _ => laneRows
  | .ptp => ptpRows
  | .ftn => ftnRows
  | .key => keyRows
  | .flt => fltRows
  | .cnt => cntRows
  | .mgt => mgtRows
  | .pwr => pwrRows

/-- The register at an offset of a kind of page, when one is there (02 R50, R58). -/
def regRow? (k : PageKind) (off : Nat) : Option RegRow :=
  if off < 0x040 then headerRows.find? (RegRow.has · off) else (blockRows k).find? (RegRow.has · off)

/-- The register at an offset of a page. -/
def regAt? (pg off : Nat) : Option RegRow := (pageKind pg).bind (fun k => regRow? k off)

/-- The writable bits of a register. -/
def RegRow.writable (r : RegRow) : Word := r.rwb ||| r.rw ||| r.w1c ||| r.wo

/-- The reset value of the register at an offset of a page; a factory value where the spec says so, which for
CAP_RESID is at most 0x2200 (10 R346), and for a lane that of the mode at reset, 10GBASE-R (10 R322, 12 R372). -/
def resetWord (pg off : Nat) : Word :=
  match regAt? pg off with
  | none => 0
  | some r =>
    if r.fact then
      let f := (if 0x80 ≤ pg ∧ pg < 0x90 then (if off = 0x414 then Config.laneResid (pg - 0x80) 1 off else 0)
        else Config.factory pg off) &&& r.rwb
      if 0x48 ≤ pg ∧ pg < 0x50 then (if f.toNat ≤ 0x2200 then f else 0x2200) else f
    else r.reset

/-- An indirect table: words per entry, entries, and whether IND_DATA may write it (02 R62). -/
structure IndTable where
  words : Nat
  entries : Nat
  writable : Bool
deriving DecidableEq, Repr

/-- The indirect tables of each page (07 R257, 08 R281, 13 R426, 14 R464, 15 R496, 16 R527, 17 R552, 19 R591). -/
def indTable? (k : PageKind) (t : Nat) : Option IndTable :=
  match k with
  | .cis =>
    if t < 4 then some ⟨16, 1, true⟩ else if t < 8 then some ⟨4, 3600, false⟩
    else if t < 12 then some ⟨4, 9450, false⟩ else none
  | .sl => if t < 2 then some ⟨1, 16, false⟩ else none
  | .ptp => if t = 0 then some ⟨16, 131072, false⟩ else none
  | .ftn => if t = 0 then some ⟨2, 1048576, true⟩ else none
  | .hp _ => if t = 0 then some ⟨1, 256, true⟩ else none
  | .key => if t = 0 then some ⟨4, 64, false⟩ else if t = 1 then some ⟨12, 8, false⟩ else none
  | .flt => if t = 0 then some ⟨1, 1024, true⟩ else if t = 1 then some ⟨1, 1024, false⟩ else none
  | .cnt => if t = 0 then some ⟨1, 1024, false⟩ else none
  | _ => none

/-- PAGE_CAP.BOUNDARY of a page: 0 none, 1 beat, 2 packet boundary, 3 output period edge (02 R55). -/
def boundaryOf : PageKind → Nat
  | .rs _ | .td _ | .cis | .half | .lath | .sl => 1
  | .lp _ | .lane _ | .ptp | .ftn => 2
  | .cap _ => 1
  | .jet _ => 3
  | _ => 0

end Sys2Proof.Machine
end

