-- ==== Sys2Proof/Machine/Flags.lean ====
section
/-!
DEFINITION. Flags: the bits of PAGE_EVT of each page, fault kinds and severities, the kind of each detector, and
status codes.
-/

namespace Sys2Proof.Machine

/-! ## PAGE_EVT bits -/

/-- ACCESS_EVT of every page (02 R50). -/
def evAccess : Nat := 31

/-- Power page (03 R112). -/
def evFeedLost : Half → Nat | .A => 0 | .B => 2
def evFeedRet : Half → Nat | .A => 1 | .B => 3
def evBreaker : Half → Nat | .A => 4 | .B => 5
def evVbatLow : Nat := 6
def evThermWarn : Nat := 7
def evThermTrip : Half → Nat | .A => 8 | .B => 9

/-- Partition page (15 R497). -/
def evQError (q : QNo) : Nat := q.val
def evQStopped (q : QNo) : Nat := 8 + q.val
def evCfgIgnored : Nat := 16
def evHostMemory : Nat := 17
def evTimeout : Nat := 18
def evMbxDone : Nat := 19

/-- Key page (16 R528). -/
def evCommit : Nat := 0
def evZeroised : Nat := 1
def evBadslot : Nat := 2
def evTorn : Nat := 3
def evTamperLog : Nat := 4
def evSealed : Nat := 5
def evStoreLoaded : Nat := 6

/-- Collector page (17 R553). -/
def evMsg : Nat := 0
def evFatal : Nat := 1
def evFrozen : Nat := 2
def evLasting : Nat := 3
def evLogOvf : Nat := 4
def evMgtWdog : Nat := 5
def evRecovery : Nat := 6
def evUnfenced : Nat := 7

/-- Management page (18 R583). -/
def evRestart : Nat := 0
def evUpdateReady : Nat := 1
def evMgtLogOvf : Nat := 2
def evPolicy : Nat := 3

/-- Counter page (19 R593). -/
def evSnapshot : Nat := 0

/-! ## Fault kinds and severities (17 R530, R532) -/

def kParity : Nat := 0x01
def kEcc : Nat := 0x02
def kCrc : Nat := 0x03
def kLockstep : Nat := 0x04
def kClock : Nat := 0x05
def kVoltage : Nat := 0x06
def kThermal : Nat := 0x07
def kTimeout : Nat := 0x08
def kAccess : Nat := 0x09
def kWoViol : Nat := 0x0A
def kLockViol : Nat := 0x0B
def kXingFlush : Nat := 0x0C
def kStep : Nat := 0x0D
def kLink : Nat := 0x0E
def kCrypto : Nat := 0x0F
def kRecovery : Nat := 0x10
def kSelftest : Nat := 0x11
def kPower : Nat := 0x12
def kTamper : Nat := 0x13
def kOverflow : Nat := 0x3F

def sevInfo : Nat := 0
def sevWarning : Nat := 1
def sevError : Nat := 2
def sevFatal : Nat := 3

/-- The severity a detector sends for a kind unless its chapter names another (17 R532): here ECC is that of an
uncorrected error. -/
def kindSev (k : Nat) : Nat :=
  if k ≤ kClock then sevError
  else if k = kVoltage ∨ k = kXingFlush ∨ k = kLink ∨ k = kPower ∨ k = kOverflow then sevWarning
  else if k = kThermal ∨ k = kAccess ∨ k = kWoViol ∨ k = kLockViol ∨ k = kRecovery ∨ k = kSelftest then sevInfo
  else sevError

/-- The kinds whose message starts a targeted self-test (17 R532). -/
def kindTests (k : Nat) : Bool :=
  (decide (kParity ≤ k) && decide (k ≤ kClock)) || k == kTimeout || k == kStep || k == kCrypto

/-- The kind that detector `d` of a page sends; none for an index not used (the chapters' detector tables). -/
def detKind (k : PageKind) (d : Nat) : Option Nat :=
  match k with
  | .lath => if d < 7 then some kClock else none
  | .td _ =>
    let e := if d < 8 then d else d - 8
    if d ≥ 16 then none
    else if e < 3 then some kParity else if e = 3 then some kLockstep else if e = 4 then some kCrc else none
  | .cis =>
    let e := if d < 4 then d else d - 4
    if d ≥ 8 then none
    else some (if e = 0 then kEcc else if e = 1 then kCrc else if e = 2 then kTimeout else kParity)
  | .sl =>
    let e := if d < 8 then d else d - 8
    if d ≥ 16 then none
    else if e < 2 then some kParity else if e = 2 then some kLockstep else if e = 3 then some kParity
    else if e = 4 then some kCrc else none
  | .half =>
    if d < 2 then some kStep else if d < 4 then some kLink else if d < 6 then some kCrc
    else if d < 8 then some kParity else if d = 8 then some kStep else none
  | .cap _ => if d = 0 then some kClock else if d = 1 then some kEcc else if d = 2 then some kLockstep else none
  | .jet _ => if d = 2 then some kClock else if d < 5 then some kParity else none
  | .lane _ => if d < 3 then some kClock else if d = 3 then some kParity else none
  | .lp _ => if d < 2 then some kEcc else if d < 5 then some kParity else none
  | .ptp =>
    if d = 0 then some kEcc else if d ≤ 16 then some kParity else if d = 17 then some kCrypto
    else if d < 20 then some kParity else none
  | .ftn =>
    if d < 8 then some kCrypto else if d < 12 then some kParity else if d = 12 then some kEcc
    else if d < 15 then some kCrypto else if d = 15 then some kParity else none
  | .hp _ =>
    if d = 0 then some kParity else if d = 1 then some kEcc else if d = 2 then some kTimeout
    else if d < 5 then some kParity else none
  | .key => if d = 2 then some kEcc else if d < 5 then some kCrypto else none
  | .flt => if d = 1 ∨ d = 2 then some kEcc else if d < 4 then some kParity else none
  | .mgt => if d = 0 then some kLockstep else if d = 1 then some kEcc else if d < 4 then some kCrc else none
  | .cnt => if d = 0 then some kParity else none
  | _ => none

/-! ## Status codes of completions (15 R489) -/

def stOk : Byte := 0x00
def stInvalidOp : Byte := 0x10
def stInvalidField : Byte := 0x11
def stAccessRefused : Byte := 0x12
def stRefusedState : Byte := 0x13
def stResource : Byte := 0x14
def stNotFound : Byte := 0x15
def stCancelled : Byte := 0x16
def stBadslot : Byte := 0x17
def stAbortReset : Byte := 0x20
def stAbortFlush : Byte := 0x21
def stTamper : Byte := 0x22
def stRetry : Byte := 0x23
def stTimeout : Byte := 0x24
def stHostMemory : Byte := 0x30

end Sys2Proof.Machine
end

