-- ==== Sys2Proof/Machine/Numbers.lean ====
section
/-!
DEFINITION. Exact numbers: bound codes, decimal limits, rates, least-squares fits and rounding.
-/

namespace Sys2Proof.Machine

/-! ## Rounding -/

/-- The least whole number not below `q`. -/
def ceilQ (q : Rat) : Int := -((-q).floor)

/-- The whole number nearest to `q`; a tie, which the spec does not settle, goes by a free value. -/
def nearQ (q : Rat) : Int :=
  let f := q.floor
  let r := q - (f : Rat)
  if r < 1 / 2 then f else if 1 / 2 < r then f + 1
  else if Config.roundUp q.num q.den then f + 1 else f

/-- A whole number for `q` where the spec states no rounding: `q` when it is whole, else one of its neighbours by
a free value. -/
def openQ (q : Rat) : Int :=
  if q.den = 1 then q.num else if Config.roundUp q.num q.den then q.floor + 1 else q.floor

def absQ (q : Rat) : Rat := if q < 0 then -q else q
def maxQ (a b : Rat) : Rat := if a < b then b else a
def minQ (a b : Rat) : Rat := if b < a then b else a
def clampI (v lo hi : Int) : Int := if v < lo then lo else if hi < v then hi else v

/-- A number saturated to a signed field of `n` bits, and laid into it. -/
def satI (n : Nat) (v : Int) : Int := clampI v (-(2 ^ (n - 1) : Nat)) ((2 ^ (n - 1) : Nat) - 1)
def wordI (v : Int) : Word := BitVec.ofInt 32 v

/-- A whole number saturated to `n` bits. -/
def satN (n v : Nat) : Nat := min v (2 ^ n - 1)

/-- 10 to the power `-e`. -/
def tenth (e : Nat) : Rat := 1 / ((10 ^ e : Nat) : Rat)

/-! ## Bound codes (00 R10 to R12) -/

/-- A bound in 1/2048 ps, as the code stands for it (R10). -/
def codeUnits (c : Code) : Nat := (2048 + c.toNat % 2048) * 2 ^ (c.toNat / 2048)

/-- A bound in ps, as the code stands for it. -/
def codePs (c : Code) : Rat := ((codeUnits c : Nat) : Rat) / 2048

/-- The error that a code states, in ps: none, an unbounded one, for 0xFFFF (R11). -/
def openCode (c : Code) : Option Rat := if c = 0xFFFF then none else some (codePs c)

/-- The whole ps that stand for an unbounded contribution: one above the greatest bound that a code holds (R11, R12; log entry
182). -/
def unboundedPs : Nat := 4292870145

/-- A contribution in ps, the unbounded one among them. -/
def contribPs (v : Option Rat) : Rat := v.getD (unboundedPs : Rat)

/-- The smallest code from exponent `e` on, `n` exponents left, that stands for at least `u` units of 1/2048 ps. -/
def codeFrom (u : Nat) : Nat → Nat → Code
  | 0, _ => 0xFFFF
  | n + 1, e =>
    let m := (u + 2 ^ e - 1) / 2 ^ e
    if m ≤ 2048 then BitVec.ofNat 16 (e * 2048)
    else if m ≤ 4095 then BitVec.ofNat 16 (e * 2048 + (m - 2048))
    else codeFrom u n (e + 1)

/-- The smallest code whose value is at least a bound in 1/2048 ps (R12). -/
def encodeUnits (u : Nat) : Code := codeFrom u 32 0

/-- The code of a bound in ps (R12). -/
def encodePs (ps : Rat) : Code := encodeUnits (ceilQ (ps * 2048)).toNat

/-- The code of a bound that may be unbounded (R11, R12). -/
def encodeOpen (v : Option Rat) : Code := match v with
  | some ps => encodePs ps
  | none => 0xFFFF

/-- The code of a bound of whole ps. -/
def encodeB (ps : Nat) : Code := encodeUnits (ps * 2048)

/-- A total bound with a level 7 added at presentation (08 R277). -/
def addBound (c : Code) (ps : Rat) : Code := if c = 0xFFFF then 0xFFFF else encodePs (codePs c + ps)

/-! ## Fields with a decimal format -/

/-- A 10-bit limit: mantissa in the upper 5 bits, exponent in the lower 5, m × 10^-e (05 RS_FLIM). -/
def flimQ (n : Nat) : Rat := ((n / 32 : Nat) : Rat) * tenth (n % 32)

/-! ## Rates in units of 2^-60 (06 R192) -/

def rateUnit : Nat := 2 ^ 60
def rateMax : Int := 2 ^ 47 - 1
def rateMin : Int := -(2 ^ 47)
def satRate (r : Int) : Int := clampI r rateMin rateMax

/-- A rate as a fraction, and a fraction as units of 2^-60. -/
def rateQ (r : Rat) : Rat := r / (rateUnit : Rat)
def unitsQ (y : Rat) : Rat := y * (rateUnit : Rat)

/-- The value r′ of 04 R131 with (1 + r′) = (1 + r) / (1 + y), all in units of 2^-60. -/
def rescaleQ (r y : Rat) : Rat := ((rateUnit : Rat) + r) * (rateUnit : Rat) / ((rateUnit : Rat) + y) - (rateUnit : Rat)

/-- A rate word so replaced, rounded to the nearest unit (R131). -/
def rescale (r y : Int) : Int := nearQ (rescaleQ r y)

/-! ## Time in units of 2^-62 ns (06 R191) -/

/-- One beat, 976,562.5 ns (00 R7), one second and one picosecond. -/
def beatT : Nat := 1953125 * 2 ^ 61
def secondT : Nat := 1000000000 * 2 ^ 62
def tickT (rate : Int) : Nat := (5 * 2 ^ 60 + 5 * rate).toNat
def psQ (t : Int) : Rat := (t : Rat) * 1000 / ((2 ^ 62 : Nat) : Rat)
def secQ (t : Nat) : Rat := (t : Rat) / (secondT : Rat)

/-- The first beat boundary after a time (00 R7). -/
def nextBeat (t : Nat) : Nat := (t / beatT + 1) * beatT

/-- A time in ps, rounded down. -/
def psOf (t : Nat) : Nat := t * 1000 / 2 ^ 62

/-! ## Means and fits -/

def sumQ (l : List Rat) : Rat := l.foldl (· + ·) 0
def meanQ (l : List Rat) : Rat := if l.isEmpty then 0 else sumQ l / (l.length : Rat)
def meanI (l : List Int) : Rat := meanQ (l.map (fun (i : Int) => (i : Rat)))
def maxAbsQ (l : List Rat) : Rat := l.foldl (fun m x => maxQ m (absQ x)) 0

/-- Sums for a least-squares line over points (t, y): Σ(t − t̄)(y − ȳ) and Σ(t − t̄)². -/
def fitSums (l : List (Rat × Rat)) : Rat × Rat :=
  let mt := meanQ (l.map (·.1))
  let my := meanQ (l.map (·.2))
  (sumQ (l.map (fun p => (p.1 - mt) * (p.2 - my))), sumQ (l.map (fun p => (p.1 - mt) * (p.1 - mt))))

/-- The least-squares slope; 0 when all times agree. -/
def slopeQ (l : List (Rat × Rat)) : Rat :=
  let (a, b) := fitSums l
  if b = 0 then 0 else a / b

/-- The least-squares line at time `t`. -/
def lineAt (l : List (Rat × Rat)) (t : Rat) : Rat :=
  meanQ (l.map (·.2)) + slopeQ l * (t - meanQ (l.map (·.1)))

/-- The common slope of several groups of points with an intercept each (05 R163). -/
def commonSlope (gs : List (List (Rat × Rat))) : Rat :=
  let ss := gs.map fitSums
  let b := sumQ (ss.map (·.2))
  if b = 0 then 0 else sumQ (ss.map (·.1)) / b

/-- Sum of squared residuals about the least-squares line. -/
def residSq (l : List (Rat × Rat)) : Rat := sumQ (l.map (fun p => (p.2 - lineAt l p.1) * (p.2 - lineAt l p.1)))

/-- Sum of squared deviations from the mean. -/
def devSq (l : List Rat) : Rat := sumQ (l.map (fun x => (x - meanQ l) * (x - meanQ l)))

/-- The median: the middle value, or the mean of the two middle values. -/
def insertQ (x : Rat) : List Rat → List Rat
  | [] => [x]
  | y :: r => if x ≤ y then x :: y :: r else y :: insertQ x r
def sortQ (l : List Rat) : List Rat := l.foldl (fun a x => insertQ x a) []
def medianQ (l : List Rat) : Rat :=
  let s := sortQ l
  let n := s.length
  if n = 0 then 0 else (s.getD ((n - 1) / 2) 0 + s.getD (n / 2) 0) / 2

/-- A square root in units of 1/unit, the spec stating no rounding: the free root of Config. -/
def rootQ (q : Rat) (unit : Nat) : Rat :=
  if q ≤ 0 then 0
  else let x := q * (unit : Rat) * (unit : Rat); ((Config.sqrtQ x.num.toNat x.den : Nat) : Rat) / (unit : Rat)

/-- The natural logarithm of a positive number, rounded as Config has it. -/
def lnQ (q : Rat) : Rat := (Config.lnQ32 q.num.toNat q.den : Rat) / ((2 ^ 32 : Nat) : Rat)

/-- π to 30 decimal places (log entry 16). -/
def piQ : Rat := 3141592653589793238462643383280 / 1000000000000000000000000000000

/-! ## Digest (09 R298): CRC-64 of ECMA-182, generator 0x42F0E1EBA9EA3693, initial value 0, most significant bit first -/

def crc64Byte (c : BitVec 64) (b : Byte) : BitVec 64 :=
  (List.range 8).foldl (fun a _ => if a.getMsbD 0 then (a <<< 1) ^^^ 0x42F0E1EBA9EA3693 else a <<< 1)
    (c ^^^ ((b.zeroExtend 64) <<< 56))

def crc64 (l : List Byte) : BitVec 64 := l.foldl crc64Byte 0

end Sys2Proof.Machine
end

