-- ==== Sys2Proof/Machine/Parts/Common.lean ====
section
/-!
DEFINITION. The state of the common die's shared parts: register pages, power, host partitions and queues, keys
and tamper, fault collector, management and counters. Every default is the value right after reset.
-/

namespace Sys2Proof.Machine

/-! ## Register pages (02) -/

/-- One partition's indirect trio on one page (02 R62 to R67). -/
structure Trio where
  addr : Word := 0
  autoinc : Bool := false
  table : Byte := 0
  torn : Bool := false
  /-- the entry being staged and the words of it written so far (R66) -/
  staged : Option (Nat × List (Nat × Word)) := none
  /-- the entry last snapshot, the next word of it in order, and its words (R67) -/
  snap : Option (Nat × Nat × List Word) := none
deriving DecidableEq, Repr

/-- PAGE_FAULT, whether its fault state was set by a message with the ERRPIN reaction (17 R550), and the detectors that have
set it: place, kind and detector (17 R544; the model's own field). -/
structure PageFault where
  seq : BitVec 14 := 0
  kind : BitVec 6 := 0
  sev : BitVec 2 := 0
  lasting : Bool := false
  active : Bool := false
  errpin : Bool := false
  by_ : List (Nat × Nat × Byte) := []
deriving DecidableEq, Repr

/-- One 4 KiB register page (02 R50 to R69). Registers are words in force by offset; a register not listed
holds its reset value. -/
structure Page where
  regs : KMap Word := []
  /-- words written and waiting for a boundary, by offset -/
  shadow : KMap Word := []
  /-- the words already captured for the coming boundary, once a write came after the capture point (R56) -/
  captured : Option (KMap Word) := none
  pend : Bool := false
  late : Bool := false
  hold : Bool := false
  applySeq : BitVec 16 := 0
  /-- buffered writes arrived so far; those up to `doneMark` are in force or discarded; those up to `capMark` are
  captured for the coming boundary (15 R483) -/
  bufCnt : Nat := 0
  capMark : Nat := 0
  doneMark : Nat := 0
  /-- offsets of WO registers already written since the page's reset (R79) -/
  woDone : List Nat := []
  lock : Bool := false
  en : Bool := true
  /-- a soft reset requested and not yet complete (R51) -/
  srst : Bool := false
  evt : Word := 0
  evtEn : Word := 0
  evtCnt : BitVec 16 := 0
  fault : PageFault := {}
  injArm : Bool := false
  injCont : Bool := false
  injDet : Byte := 0
  owner : BitVec 3 := 7
  vis : Bool := false
  /-- the partition whose operation the page's engine took last; on the DEV page, the one that took the last shared tag (15 R478; log entry 235) -/
  turn : Part := 3
  trio : Vector Trio 4 := Vector.replicate 4 {}
deriving DecidableEq, Repr

/-- A page right after reset: PAGE_CTL.EN is 1, and 0 on the jet pages 0x60 to 0x6F (02 R595). -/
def Page.reset (pg : Nat) : Page := { en := !(decide (0x60 ≤ pg) && decide (pg ≤ 0x6F)) }

/-! ## Power and the island (03) -/

/-- PWR_STATE.STATE (03 R105). -/
inductive PwrState where
  | run
  | reduced
  | sealed
  | standby
  | boot
deriving DecidableEq, Repr

/-- One feed (03 R96 to R99). -/
structure Feed where
  detected : Bool := false
  mv : Nat := 0
  /-- the draw that, with the time, names the free value of the feed's measured current (R599; the model's own field) -/
  ma : Nat := 0
  /-- lost at least once, so that the next detection is a return (R112) -/
  lostOnce : Bool := false
  /-- the input switch is open after a breaker trip (R99) -/
  tripped : Bool := false
deriving DecidableEq, Repr

/-- How far a half's supply and reset have come (03 R97, R98). -/
inductive HalfPwr where
  | off
  /-- power-fail signalled, not yet held in reset -/
  | failing
  /-- powered and held in reset -/
  | held
  /-- powered and out of reset -/
  | on
deriving DecidableEq, Repr

/-- Power, thermal and island state. -/
structure Pwr where
  state : PwrState := .standby
  feeds : Pair Feed := ⟨{}, {}⟩
  startStep : Nat := 1
  half : Pair HalfPwr := ⟨.off, .off⟩
  /-- a half has had power-fail since the latest start-up, and stays unpowered for the 10 ms of R98 -/
  waitOff : Pair Bool := ⟨false, false⟩
  /-- a half waits for its junction to fall below 100 °C (R110) -/
  halfHot : Pair Bool := ⟨false, false⟩
  commonHot : Bool := false
  warned : List Die := []
  /-- RESET_N is held low (R94) -/
  resetLow : Bool := false
  vaux : Bool := false
  vauxFold : Bool := false
  /-- the PCIe endpoints have begun link training (R107) -/
  pcieUp : Bool := false
  vbatMv : Nat := 0
  vbatLow : Bool := false
  rtcValid : Bool := false
  rtcSec : Word := 0
  /-- CLK_CORE cycles of the running RTC second -/
  rtcFrac : Nat := 0
  lastCause : Nat := 0
  /-- the retention pattern was found lost at the latest power-up (R104) -/
  retentionLost : Bool := false
  /-- the common die runs from arbitrated Lath clocks, not its boot oscillator (01 R39, 04 R144) -/
  lathClock : Bool := false
deriving DecidableEq, Repr

/-! ## Host partitions, queues and operations (15) -/

/-- Causes of a bus error, in the order of 02 R596. -/
inductive Cause where
  | oversize
  | absent
  | reserved
  | unaligned
  | narrowWrite
  | spanning
  | narrowPop
  | shadowWrite
  | readOnly
  | lockViol
  | woViol
  | indTable
  | indRange
deriving DecidableEq, Repr

/-- One entry of HPn_BUSERR_LOG (02 R77, R78). -/
structure BusErr where
  cause : Cause
  isWrite : Bool
  lost : Nat
  /-- the SEQ of its fault message, once accepted -/
  seq : Option (BitVec 14)
  be : BitVec 4
  off : BitVec 20
  ident : Nat
deriving DecidableEq, Repr

/-- How far an operation has come (15 R471, R481). -/
inductive OpPhase where
  /-- fetched, not yet dispatched -/
  | fetched
  /-- dispatched and working -/
  | running
  /-- waiting for an alarm, an edge, a boundary, an egress or earlier operations -/
  | waiting
  /-- its completion is ready, with this status -/
  | done (status : Byte)
deriving DecidableEq, Repr

/-- An operation that holds a tag (15 R471 to R493). -/
structure Op where
  part : Part
  q : QNo
  words : Vector Word 16
  phase : OpPhase := .fetched
  result : Vector Word 6 := Vector.replicate 6 0
  /-- place in its queue's order of fetching -/
  order : Nat
  /-- place in the queue's order of ready completions (R475) -/
  ready : Nat := 0
  /-- whether the tag came from the shared pool -/
  shared : Bool
  /-- a commit point has passed (R481) -/
  committed : Bool := false
  /-- FENCE with APPLY: how many buffered writes had reached its page when it was fetched (R483) -/
  fenceWait : Option Nat := none
  /-- FENCE with APPLY: HOLD of its page was 1 at the fetch, or became 1 while it waited (R483) -/
  heldSeen : Bool := false
deriving DecidableEq, Repr

/-- One queue of a partition (15 R472 to R479). -/
structure Queue where
  running : Bool := false
  error : Bool := false
  sqHead : Nat := 0
  sqTail : Nat := 0
  cqTail : Nat := 0
  cqHead : Nat := 0
  phase : Bool := true
  errCause : Nat := 0
  errVal : Nat := 0
  nextOrder : Nat := 0
  nextReady : Nat := 0
  /-- completions written and not acknowledged (R479) -/
  unacked : Nat := 0
deriving DecidableEq, Repr

/-- A latched live time view of one domain, whose registers reset to 0 (06 R229). -/
structure NowView where
  t : Nat := 0
  bound : Code := 0
  state : Nat := 0
deriving DecidableEq, Repr

/-- A holding set of 64-bit words beside a POP register (10 R331, 17 R551). -/
abbrev HoldSet := List (BitVec 64)

/-- One entry of the MSI-X table in BAR2 (15 R467): the message's address and data, and the vector's mask, which PCI Express
sets at reset (log entry 223). -/
structure MsixVec where
  addr : BitVec 64 := 0
  data : Word := 0
  mask : Bool := true
deriving DecidableEq, Repr

/-- BAR2 of a partition (15 R467): the MSI-X table and its pending bit array. -/
structure BarSt where
  vectors : Vector MsixVec 32 := Vector.replicate 32 {}
  waiting : BitVec 32 := 0
deriving DecidableEq, Repr

/-- One host partition. -/
structure PartSt where
  linkUp : Bool := false
  bme : Bool := false
  queues : Vector Queue 8 := Vector.replicate 8 {}
  busLog : List BusErr := []
  busLost : Nat := 0
  vecMap : KMap Word := []
  /-- fetching paused after a tag pool detection (R498) -/
  paused : Bool := false
  mbxDone : Bool := false
  /-- the queue served last (R478; log entry 235) -/
  turn : QNo := 7
  nowView : Vector NowView 4 := Vector.replicate 4 {}
  txHold : KMap HoldSet := []
  capHold : KMap HoldSet := []
  fltHold : HoldSet := [0, 0, 0]
deriving DecidableEq, Repr

/-- The vector map resets every entry to 31 (15 R496). -/
def vecReset (_ : Nat) : Word := 31

/-! ## Keys, measurements and tamper (16) -/

/-- One bank of a key slot in the Belrex store (16 R506). -/
structure Bank where
  valid : Bool := false
  gen : Word := 0
  attr : Word := 0
  imported : Bool := false
  /-- the label of a derived key, or the wrapped key of an imported one -/
  body : List Byte := []
  tag : BitVec 64 := 0
deriving DecidableEq, Repr

/-- A key slot with its material in the key store (16 R506 to R511). -/
structure KeySlot where
  /-- written since manufacture or RMA -/
  used : Bool := false
  gen : Word := 0
  banks : Vector Bank 2 := Vector.replicate 2 {}
  zeroised : Bool := false
  badslot : Bool := false
  loaded : Bool := false
  /-- material of generations g and g − 1 in the key store -/
  cur : Option (List Byte) := none
  prev : Option (List Byte) := none
  policyOwner : BitVec 3 := 0
  commitSec : Word := 0
deriving DecidableEq, Repr

/-- Fuses: lifecycle 0 TEST, 1 PRODUCTION, 2 RMA, 3 DECOMMISSIONED (R500); blown bits of the anti-rollback counter (R499). -/
structure Fuse where
  lifecycle : Nat := 1
  rollback : Nat := 0
deriving DecidableEq, Repr

/-- Keys, measurements, tamper latch. -/
structure Keys where
  slots : Vector KeySlot 64 := Vector.replicate 64 {}
  meas : Vector (BitVec 384) 8 := Vector.replicate 8 0
  measLocked : Bool := false
  storeLoaded : Bool := false
  kint : Option (List Byte) := none
  kwrap : Option (List Byte) := none
  tampCfg : Word := 0x0202A900
  latch : BitVec 9 := 0
  raw : BitVec 9 := 0
  tampTime : Word := 0
  erasePend : Bool := false
  /-- an ERASE response is under way in the Belrex store (R523) -/
  erasing : Bool := false
  fuse : Fuse := {}
  /-- the lifecycle field failed to read at this start-up, so that it acts as DECOMMISSIONED (R500) -/
  fuseBad : Bool := false
deriving DecidableEq, Repr

/-! ## Fault collector (17) -/

/-- A fault message on its way to the collector (17 R530). `ident` names the detection; `ref` is a message
whose SEQ goes into the location field, at this bit. -/
structure Msg where
  src : BitVec 10
  kind : BitVec 6
  sev : BitVec 2
  det : Byte
  loc : BitVec 24
  injected : Bool
  ident : Nat
  ref : Option (Nat × Nat) := none
deriving DecidableEq, Repr

/-- One entry of the collector's log ring (17 R536). -/
structure LogEnt where
  msg : BitVec 64
  sec : Word
  ns : Word
  injected : Bool
  lost : Nat
deriving DecidableEq, Repr

/-- A testable unit, keyed by source and detector (17 R540 to R543). -/
structure TestUnit where
  /-- the detection whose message started the running test -/
  testing : Option Nat := none
  fenced : Bool := false
  /-- a spare bank serves in place of the fenced one (R542) -/
  spare : Bool := false
  /-- SEQ of the message that started the running test -/
  startSeq : Option (BitVec 14) := none
  /-- detection whose SELFTEST message reported the fencing result, and its SEQ -/
  resIdent : Option Nat := none
  resSeq : Option (BitVec 14) := none
  /-- times of recent TRANSIENT results, ns -/
  transients : List Nat := []
  /-- time of the last engine reset, ns (R546) -/
  lastReset : Option Nat := none
deriving DecidableEq, Repr

/-- The fault collector. -/
structure Flt where
  bufs : KMap (List Msg) := []
  dropped : KMap Nat := []
  nextSeq : BitVec 14 := 0
  log : List LogEnt := []
  logLost : Nat := 0
  lostTotal : BitVec 16 := 0
  react : KMap Word := []
  counts : KMap Word := []
  fatal : Bool := false
  frozen : Bool := false
  aliveOn : Bool := false
  alive : Bool := false
  /-- spare SRAM banks in use, of 2 (R542) -/
  spares : Nat := 0
  /-- the next message is logged with SOURCE 0x0C0 after an input parity detection (R554) -/
  badInput : Bool := false
  units : KMap TestUnit := []
  /-- the source whose message was accepted last (R534; log entry 235) -/
  turn : Nat := 1023
  /-- an NMI waits for Milondino's firmware (R551) -/
  nmiHeld : Bool := false
deriving DecidableEq, Repr

/-- Reaction masks reset to MIN_SEV WARNING with NMI and IRQ (17 R539). -/
def reactReset (_ : Nat) : Word := 0x0103

/-! ## Milondino management (18) -/

/-- An event log record, its sequence number apart (18 R577). -/
structure LogRec where
  typ : Nat
  rtc : Bool
  injected : Bool
  sec : Nat
  ns : Nat
  data : BitVec 64
deriving DecidableEq, Repr

/-- A record of the event log ring with its sequence, and whether its CRC is correct (18 R577, R584). -/
structure LogStored where
  seq : Word
  body : LogRec
  crcOk : Bool := true
deriving DecidableEq, Repr

/-- The boot control record (18 R560). -/
structure BootCtl where
  preferB : Bool := false
  trial : Bool := false
  tries : Nat := 0
deriving DecidableEq, Repr

/-- A request that a transport holds (18 R566). -/
structure MbxReq where
  src : Transport
  cmd : Nat
  tag : BitVec 16
  len : Nat
  mac : BitVec 48 := 0
deriving DecidableEq, Repr

/-- An update session (18 R571). -/
structure Session where
  regionB : Bool
  bodyLen : Nat
deriving DecidableEq, Repr

/-- The partition policy record (18 R564). -/
structure PartPolicy where
  pages : List (PageNo × BitVec 3 × Bool)
  keyOwners : List (KeyNo × BitVec 3)
  admin : Option Part
  smbPriv : Bool
deriving DecidableEq, Repr

/-- The start-up policy record (18 R564). -/
structure StartPolicy where
  trowel : List (Dom × Word)
  init : List (Nat × Word)
deriving DecidableEq, Repr

/-- What the boot ROM selected (18 R560, R561). -/
inductive BootImage where
  | none
  | regionA
  | regionB
  | recovery
deriving DecidableEq, Repr

/-- Milondino, its firmware, policies, event log, sensors and mailboxes. -/
structure Mgt where
  running : Bool := false
  image : BootImage := .none
  dalnalKey : Bool := false
  version : Word := 0
  svn : Nat := 0
  trialImage : Bool := false
  bootCtl : BootCtl := {}
  bootFails : Nat := 0
  /-- firmware measured and started; the MEAS3 extend has been made -/
  measured : Bool := false
  restarts : BitVec 16 := 0
  lockstepRun : Nat := 0
  /-- the management watchdog expired once since it was last served (17 R545) -/
  wdogOnce : Bool := false
  flash : KMap Byte := []
  session : Option Session := none
  nonce : Option (List Byte × Nat) := none
  decom : Option (BitVec 16 × Nat) := none
  held : List MbxReq := []
  ethSeq : Option (BitVec 64) := none
  /-- the sequence number of the next answer on the management Ethernet -/
  ethTx : BitVec 64 := 0
  /-- SMB_ALERT_N asserted: an answer on SMBus waits (18 R567) -/
  smbAlert : Bool := false
  ethDrop : BitVec 16 := 0
  policy : Option PartPolicy := none
  /-- administrator and SMB_PRIV in force (next chip reset after a change, R564) -/
  admin : Option Part := none
  smbPriv : Bool := false
  startup : Option StartPolicy := none
  /-- the tamper policy record in the Belrex store -/
  tamperRec : Option Word := none
  log : List LogStored := []
  logSeq : Word := 0
  logQ : List LogRec := []
  logDropped : Nat := 0
  rails : Vector Nat 8 := Vector.replicate 8 0
  /-- rails outside ±5 % of nominal -/
  railBad : Vector Bool 8 := Vector.replicate 8 false
  tempA : Vector Int 6 := Vector.replicate 6 0
  tempB : Vector Int 6 := Vector.replicate 6 0
  tempC : Vector Int 12 := Vector.replicate 12 0
  ots : Pair Int := ⟨0, 0⟩
  /-- DEV_DIE_A/B read since chip reset -/
  dieRead : Pair Bool := ⟨false, false⟩
deriving DecidableEq, Repr

/-- The flash reads all ones where nothing was programmed. -/
def flashReset (_ : Nat) : Byte := 0xFF

/-! ## Counters (19) -/

/-- The event counters (19 R585 to R589). -/
structure Cnt where
  vals : KMap Word := []
  snapSeq : Word := 0
  /-- CLK_SYS time not yet counted in the time base, in units of 1.25 ns -/
  frac : Nat := 0
deriving DecidableEq, Repr

end Sys2Proof.Machine
end

