-- ==== Sys2Proof/Machine/Parts/Timing.lean ====
section
/-!
DEFINITION. The state of the two timing halves (Lath, slots, domains, Cistern, Spirit Level, role and link) and of
the arbiters that choose between them.
-/

namespace Sys2Proof.Machine

/-! ## Reference slots (05) -/

/-- One observation of a slot against one domain: offset or unwrapped phase in ps, its value against the coast scale of its
period, the domain's elapsed time and rate sum, the comparison period, and whether the phase-step fit counts it (R153 to
R167). -/
structure Obs where
  x : Int
  coast : Rat
  el : Nat
  acc : Int
  per : Nat
  fit : Bool
deriving DecidableEq, Repr

/-- One slot against one domain. -/
structure SlotDom where
  /-- newest first, over the latest 1,024 s -/
  obs : List Obs := []
  /-- RS30: the observations of ATOM_CLK (R149, R154, R182) -/
  clk : List Obs := []
  /-- C is the leave-one-out estimate (R163), and the elapsed time of the latest change of scale -/
  loo : Bool := false
  scaleEl : Nat := 0
  /-- elapsed time of the latest entry to QUALIFYING or REQUAL, and observations since the mark of R597 -/
  startEl : Nat := 0
  nSince : Nat := 0
  /-- the current comparison period: number, rate sum and beats of the domain at its start, mean rate word -/
  per : Nat := 0
  perAcc : Int := 0
  perNb : Nat := 0
  perRate : Rat := 0
  y1 : Rat := 0
  y64 : Rat := 0
  y1024 : Rat := 0
  slope : Rat := 0
  phMean : Rat := 0
  /-- latest 16 values of the 64 s frequency against C, and grid-relative with their elapsed times -/
  ys64 : List Rat := []
  grid64 : List (Rat × Nat) := []
  driftRun : Nat := 0
  exceed : Nat := 0
  fail1 : Bool := false
  fail64 : Bool := false
  fail1024 : Bool := false
  failDrift : Bool := false
  failPh : Bool := false
  /-- phase and frequency weights: at the start of the ramp, and targets (R171) -/
  w0 : Rat := 0
  w1 : Rat := 0
  v0 : Rat := 0
  v1 : Rat := 0
  /-- an observation came, an exchange completed, since the domain's previous boundary (08 R274) -/
  fresh : Bool := false
  freshEx : Bool := false
deriving DecidableEq, Repr

/-- A pulse as a slot latches it against one domain: the domain's time at the pulse in ps, and its elapsed time, rate sum and
beats (R153, R177, R181). -/
structure PulseMark where
  t : Int
  el : Nat
  acc : Int
  nb : Nat
deriving DecidableEq, Repr

/-- SlotSt.STATE (R157): 0 ABSENT, 1 MONITOR, 2 QUALIFYING, 3 QUALIFIED, 4 DISAGREEING, 5 DISQUALIFIED. -/
abbrev SlotMode := Nat

/-- What waits for a slot's next boundary (R160). -/
structure SlotPend where
  lost : Bool := false
  present : Bool := false
  qual : Bool := false
  hold : Bool := false
  agree : Bool := false
  pstep : Bool := false
  pds : Bool := false
  adopt : Bool := false
  requal : Bool := false
  /-- CAUSE code of a failure of a frequency or drift-slope monitor, and |mean| / T of a phase-limit failure -/
  fail : Option Nat := none
  ph : Option Rat := none
  /-- detectors injected, each with the domain and the number of the beat at which it fires (R190) -/
  inj : List (Nat × Dom × Nat) := []
deriving DecidableEq, Repr

/-- One slot of one half (R157 to R188). -/
structure SlotSt where
  st : SlotMode := 0
  cause : Nat := 0
  latch : Bool := false
  adopting : Bool := false
  present : Bool := false
  dom : Vector SlotDom 4 := Vector.replicate 4 {}
  qualBeats : Nat := 0
  holdBeats : Nat := 0
  /-- beats for which each of the two conditions of AGREE_DWELL has held: majority agreement, and no other reference (R159) -/
  agreeBeats : Nat := 0
  aloneBeats : Nat := 0
  /-- beats in QUALIFIED (R169) -/
  inBeats : Nat := 0
  pend : SlotPend := {}
  /-- the beat holds a Lath change of source: its observations are discarded (R156) -/
  skip : Bool := false
  /-- time of day (R176 to R180): offset in force on this half, latest valid TAI second, last message's label -/
  taiUtc : Nat := 0
  leapPend : Nat := 0
  todSec : Word := 0
  /-- FORMAT 0: the sentence of the running second that has come, ZDA or not, with its label (R176) -/
  todHalf : Option (Bool × TodLabel) := none
  /-- a valid second has come since VALID of TAI_UTC was 1 (R178) -/
  todObs : Bool := false
  /-- the label of the latest valid second; it was 23:59:60, so that an inserted leap holds from the next label on (R179) -/
  todLabel : Option TodLabel := none
  leapDue : Bool := false
  /-- the latest pulse of the slot, by domain (R177, R181), and the second that labels the next one -/
  pulse : Vector (Option PulseMark) 4 := Vector.replicate 4 none
  nextSec : Option Nat := none
  fixValid : Bool := false
  utcMismatch : Bool := false
  lateCnt : Byte := 0
  errCnt : Byte := 0
  /-- telemetry (R181): status 0 none, 1 L, 2 H, 3 W or F -/
  atomStatus : Nat := 0
  atomUnc : Nat := 0
  /-- mean path delays of the latest exchanges, ps, newest first; those that exceed in a row (R164, R185) -/
  delays : List Rat := []
  exceeding : List Rat := []
  delta : Int := 0
  /-- bound stated by the master: BOUND TLV, else mapped from clockAccuracy (R184) -/
  masterUnc : Code := 0
  /-- held path-delay-step term in ps, and beats of agreement since the latest step (08 R275) -/
  held : Rat := 0
  /-- added from the next beat (05 R185) -/
  heldNew : Rat := 0
  heldBeats : Nat := 0
deriving DecidableEq, Repr

/-! ## Time domains (06), with their Cistern (07) and Spirit Level (08) parts -/

/-- What the loop takes as its input (R205, R206). -/
inductive LoopIn where
  | none
  | slot (n : SlotNo)
  | conf
  | freq (n : SlotNo)
  | freqConf
  | step (n : SlotNo)
deriving DecidableEq, Repr

/-- The target of a RATE_SET on one half (R227): its operation, and `stage`: 0 it joins the coming boundary, 1 it came past that
one's capture point and joins the next (02 R56), 2 in force at this boundary, 3 in force as clipped, 4 refused. -/
structure RateReq where
  tag : Tag
  rate : Int
  stage : Nat
deriving DecidableEq, Repr

/-- A history entry (07 R233): mean rate word, temperature in 1/256 °C, EFC code, source, CLEAN. -/
structure HistEnt where
  rate : Int
  temp : Int
  efc : Nat
  standby : Bool
  clean : Bool
deriving DecidableEq, Repr

/-- Values fixed at holdover entry (07 R238) and kept by 08 R267. -/
structure Hold where
  /-- entered from a state other than HOLDOVER: the held rate applies (R198) -/
  fromOther : Bool := false
  rBase : Rat := 0
  thRef : Rat := 0
  aRef : Rat := 0
  f : Int := 0
  /-- temperature at which the correction stands where the entry model names no sensor (R241, R245) -/
  thLast : Int := 0
  osc : Osc := .mosc
  model : Vector Word 16 := Vector.replicate 16 0
  modelBad : Bool := false
  entryEl : Nat := 0
  /-- L6_entry, exact, and levels 1 to 5 as published at entry (08 R267) -/
  l6 : Rat := 0
  held : List Nat := [0, 0, 0, 0, 0]
  /-- the measured part of u_r, of the span fixed on entry (R248) -/
  meas : Rat := 0
  /-- frequency loop in holdover (R270): elapsed time of its start, G there, u_f so far -/
  freqAt : Option (Nat × Rat × Rat) := none
  /-- growth kept from frequency spans, less the growth of R269 at their ends -/
  extra : Rat := 0
deriving DecidableEq, Repr

/-- One level of the Spirit Level (08 R273): published and computed ps, elapsed time of the latest evidence or
rise. -/
structure Level where
  pub : Nat := 0
  comp : Nat := 0
  at_ : Nat := 0
deriving DecidableEq, Repr

/-- A Lath term (08 R268): residual in ps, rate uncertainty, elapsed time of the change, ended. -/
structure LathTerm where
  rho : Rat
  unc : Rat
  tc : Nat
  closed : Bool := false
deriving DecidableEq, Repr

/-- One time domain of one half. `t` counts units of 2^-62 ns; `off` is the step made, so that `t - off` is the time
elapsed since the domain's start. State codes: 0 FREE_RUN, 1 ACQUIRING, 2 LOCKED, 3 HOLDOVER, 4 LOST. Coats: 0 none,
1 Scratch, 2 Float, 3 Finish. -/
structure DomSt where
  t : Nat := 0
  /-- number of the latest beat boundary dealt with -/
  done : Nat := 0
  off : Nat := 0
  rate : Int := 0
  st : Nat := 0
  bound : Code := 0xFFFF
  /-- the six published level codes with the total (08 R264) -/
  codes : Vector Code 6 := Vector.replicate 6 0xFFFF
  stepped : Bool := false
  centre : Int := 0
  integ : Rat := 0
  coat : Nat := 0
  heldRate : Int := 0
  hostTarget : Option Int := none
  /-- targets of RATE_SET operations, oldest first -/
  hostPend : List RateReq := []
  carry : Rat := 0
  aw : Bool := false
  wSlope : Bool := false
  wExc : Bool := false
  /-- WEIR_SLOPE or WEIR_EXC was 1 in the running second (07 R234) -/
  weirSec : Bool := false
  forced : Bool := false
  steer : Bool := false
  bwEff : Nat := 0
  input : LoopIn := .none
  phi0 : Rat := 0
  e : Rat := 0
  eObs : List (Rat × Nat) := []
  yKeep : Rat := 0
  tauKeep : Nat := 0
  /-- beats for which the condition to advance, to fall, to lock, to unlock has held -/
  adv : Nat := 0
  fall : Nat := 0
  lock : Nat := 0
  unlock : Nat := 0
  dwellDone : Bool := false
  stateBeats : Nat := 0
  /-- rate words at the latest beats, newest first; their sum and the beats since the domain's start -/
  rates : List Int := []
  acc : Int := 0
  nb : Nat := 0
  stepRec : Option (Nat × SlotNo) := none
  /-- beat count at the step; an adoption came since the previous boundary (R198, R225) -/
  stepNb : Nat := 0
  adopted : Bool := false
  stepBeat : Bool := false
  resetBeat : Bool := false
  stepSec : Bool := false
  sel : Option SlotNo := none
  /-- a better slot (R169) -/
  better : Option SlotNo := none
  selDone : Bool := false
  confE : Rat := 0
  confF : Rat := 0
  members : List SlotNo := []
  ramp : Nat := 0
  /-- Cistern -/
  hist : List HistEnt := []
  hist64 : List HistEnt := []
  cleanRun : Nat := 0
  ready : Bool := false
  secClean : Bool := true
  secRates : List Int := []
  hold : Option Hold := none
  ur : Rat := 0
  ua : Rat := 0
  ut : Rat := 0
  g1024 : Code := 0xFFFF
  /-- Spirit Level -/
  levels : Vector Level 6 := Vector.replicate 6 {}
  /-- UNB_CAUSE: 0 none, 1 not stepped, 2 detection, 3 awaiting load, 4 saturated -/
  unb : Nat := 1
  /-- a detection made B unbounded, and the half has not reloaded the domain since (06 R232, 08 R272, R283) -/
  marred : Bool := false
  /-- a time reference has steered the domain since its reset (14 R437) -/
  refSince : Bool := false
  entryCode : Code := 0xFFFF
  lathTerms : List LathTerm := []
  dTerm : Rat := 0
  gTerm : Rat := 0
deriving DecidableEq, Repr

/-! ## The Lath (04) -/

/-- LATH_STAT.STATE (R125). -/
inductive LathMode where
  | acquire
  | primary
  | coast
  | standby
  | returning
  | fail
deriving DecidableEq, Repr

/-- One half's Lath. Rates are units of 2^-60. -/
structure Lath where
  st : LathMode := .acquire
  /-- the R120 sequence has ended with a source: the half has reached Lath lock -/
  locked : Bool := false
  /-- grid source: 0 none, 1 primary, 2 standby -/
  src : Nat := 0
  standbyLock : Bool := false
  xoTimeout : Bool := false
  primaryLock : Bool := false
  /-- 0 absent, 1 10 MHz, 2 25 MHz, 3 100 MHz -/
  cls : Nat := 0
  /-- MOSC counts as lost without a loss that its monitor reports: by an injection, or by a loss of primary lock (R127, R148; 17
  R544, R548) -/
  lossInj : Bool := false
  classified : Bool := false
  xoOk : Bool := false
  xoY : Option Int := none
  xoUnc : Word := 0xFFFFFFFF
  /-- phase of the standby line at the previous TD0 beat, and its changes per beat, newest first, ps; none for a beat that gave no
  measurement (R123) -/
  xoPrev : Option Int := none
  samples : List (Option Int) := []
  qualWin : Nat := 0
  qualified : Bool := false
  /-- RETURN_x came into force with qualification passed (R137) -/
  returnOk : Bool := false
  windows : List Int := []
  moscY : Int := 0
  /-- the latest qualification window, corrected by XO_Y (R136) -/
  moscWin : Int := 0
  moscUnc : Rat := 0
  resid : Nat := 0
  lastDir : Bool := false
  swCnt : BitVec 16 := 0
  offset : BitVec 10 := 0
  ctrl : BitVec 16 := 0
  frozen : Bool := false
  /-- the half's time at entry to COAST or FAIL -/
  awayAt : Nat := 0
  /-- the ratio applied at the latest change of source (07 R235) -/
  ratio : Int := 0
deriving DecidableEq, Repr

/-! ## The half (09) and its Cistern (07) -/

/-- HALF_STAT.ROLE (R284). -/
inductive Role where
  | off
  | lath
  | test
  | solo
  | loading
  | verify
  | holdoff
  | peer
  | split
deriving DecidableEq, Repr

/-- Results of the targeted self-tests that a divergence starts (R300, R301). -/
inductive DivTest where
  | none
  | running
  | transient
  /-- LASTING by a test that failed -/
  | failed
  /-- LASTING by escalation of a passed test (17 R541) -/
  | escalated
deriving DecidableEq, Repr

/-- A load under way (R302): the next boundary expected, of 32, and the number that k was. -/
structure Load where
  got : Nat := 0
  started : Bool := false
deriving DecidableEq, Repr

/-- A sensor as the Cistern reads it (07 R241): latest 1 s mean in 1/256 °C. -/
structure Sensor where
  temp : Int := 0
  lost : Bool := false
deriving DecidableEq, Repr

/-- What a half's time bus carries of a domain from a TD0 beat on (01 R26, 08 R264): state, total and level codes. -/
structure BusRec where
  st : Nat := 0
  bound : Code := 0xFFFF
  levels : Vector Code 6 := Vector.replicate 6 0xFFFF
deriving DecidableEq, Repr

/-- A captured set of values on its way to a half (02 R57): domain and number of its beat, page, the words that come into force
there and those that are in force until then. -/
structure ConfSet where
  dom : Dom
  beat : Nat
  page : Nat
  words : KMap Word
  old : KMap Word
deriving DecidableEq, Repr

structure HalfSt where
  role : Role := .off
  /-- edges of the half's CLK_CORE per nominal cycle of common time, and the part of an edge gone by (the model's own
  fields, log entry 4) -/
  grid : Rat := 1
  gphase : Rat := 0
  /-- CLK_CORE edges since the grid first locked: eight to a grid cycle (04 R114, R116) -/
  edge : BitVec 5 := 0
  /-- the half's time since lock, that of TD0 without its steps and resets: spans that are no domain's are counted by it -/
  up : Nat := 0
  bus : Vector BusRec 4 := Vector.replicate 4 {}
  /-- the claim number that the bus carries from a TD0 beat on (01 R26) -/
  busClaim : Option (BitVec 8) := none
  /-- sets this half has yet to put in force, and those it has put in force before the half that the arbiters follow, newest
  first (02 R57) -/
  late : List ConfSet := []
  early : List ConfSet := []
  lath : Lath := {}
  selftestOk : Bool := false
  selftestDone : Bool := false
  /-- HALF_RESYNC.TEST: 0 none, 1 pass or TRANSIENT, 2 power-up fail, 3 LASTING -/
  testRes : Nat := 0
  /-- a targeted self-test has given LASTING since half reset (R287) -/
  failed : Bool := false
  peerOk : Bool := false
  linkUp : Bool := false
  hbGood : Nat := 0
  /-- the peer's count of heartbeats sent as of the latest valid one received (R306) -/
  hbAt : Nat := 0
  hbSent : Nat := 0
  matchRun : Nat := 0
  mismatch : BitVec 16 := 0
  lossCnt : BitVec 16 := 0
  splitBeats : Nat := 0
  /-- the half's time at the link loss (R309) -/
  lossAt : Option Nat := none
  resyncCnt : BitVec 16 := 0
  suspended : Bool := false
  divTest : DivTest := .none
  /-- the claim just before the divergence (R300) -/
  divClaim : Option (BitVec 8) := none
  digest : Option (BitVec 64) := none
  load : Option Load := none
  holdBeats : Nat := 0
  /-- the half's time from which D counts (R309) -/
  divAt : Option Nat := none
  slots : Vector SlotSt 32 := Vector.replicate 32 {}
  doms : Vector DomSt 4 := Vector.replicate 4 {}
  /-- the sensors by number (07 R241, R245): external thermometer, own die, common die -/
  temps : Vector Sensor 13 := Vector.replicate 13 {}
  /-- the temperature at which each oscillator's model stands, 1/256 °C (07 R241) -/
  moscT : Int := 0
  xoT : Int := 0
  /-- EFC output (07 R252 to R254) -/
  efcCode : Nat := 0x800000
  efcTarget : Option Nat := none
  efcFrac : Rat := 0
  efcMode : Nat := 1
  efcLimit : Bool := false
  efcHeld : Bool := false
  /-- feedforward of the latest 1,024 s, by the half's time -/
  efcLog : List (Int × Nat) := []
  /-- the model tables that fail their integrity check: MOSC, XO (07 R259) -/
  moscBad : Bool := false
  xoBad : Bool := false
  learnRes : Nat := 0
  learnCnt : BitVec 16 := 0
deriving DecidableEq, Repr

/-- A model table of the Cistern page (07 R245 to R247). -/
structure ModelTab where
  words : Vector Word 16 := Vector.replicate 16 0
  /-- completed tables that wait for the next TD0 beat, oldest first, and whether learning made them -/
  pend : List (Vector Word 16 × Bool) := []
  /-- what the Belrex store holds -/
  stored : Vector Word 16 := Vector.replicate 16 0
deriving DecidableEq, Repr

/-! ## The arbiters (09 R289 to R297, 04 R142) -/

structure Arb where
  /-- the half the time bus arbiter follows -/
  active : Option Half := none
  /-- the half the clock arbiter follows; none while the boot oscillator serves -/
  clock : Option Half := none
  /-- claims as the arbiters see them (R289), and as they last acted on them -/
  claims : Pair (Option (BitVec 8)) := ⟨none, none⟩
  acted : Pair (Option (BitVec 8)) := ⟨none, none⟩
  /-- a change of PEER_OK alone waits to persist 2 ms (R290) -/
  persist : Bool := false
  parity : Pair Bool := ⟨false, false⟩
  /-- the half published when it last drove its claim lines anew (R285, R288, R289) -/
  pub : Pair Bool := ⟨false, false⟩
  /-- cause of the change of claims last acted on (HALF_ARB.LAST_CAUSE codes) -/
  cause : Nat := 0
  swCnt : BitVec 16 := 0
  lastCause : Nat := 0
  recHold : Nat := 0
  recJump : Nat := 0
  /-- Δ of each domain, ps (R296) -/
  tdiff : Vector (Option Int) 4 := Vector.replicate 4 none
  ovr : Nat := 0
  within : Nat := 0
  diverged : Bool := false
  /-- T_last of each domain while the hold of R294 lasts or no half publishes -/
  last : Vector (Option Nat) 4 := Vector.replicate 4 none
  /-- a half started afresh since the followed half ceased to publish: no hold against its values (06 R601, R294) -/
  fresh : Bool := false
  /-- domains whose step the outputs have followed (11 R355, 01 R43) -/
  seen : Vector Bool 4 := Vector.replicate 4 false
  /-- additions of R279 and R297 to each domain's total, ps, until the new half's first TD0 beat -/
  add : Vector Nat 4 := Vector.replicate 4 0
  /-- what T_last exceeded T_new by at a passing from no claim, ps, in the total while that hold lasts (R294) -/
  held : Vector Nat 4 := Vector.replicate 4 0
deriving DecidableEq, Repr

end Sys2Proof.Machine
end

