-- ==== Sys2Proof/Machine/Parts/Serving.lean ====
section
/-!
DEFINITION. The state of the common die's serving parts: capture inputs, jets, lanes and ports, PTP engine, Fountain;
and the record of what the module has put out.
-/

namespace Sys2Proof.Machine

/-! ## Capture inputs (10) -/

/-- One stored capture (10 R336). `t` counts units of 2^-62 ns. -/
structure CapEnt where
  t : Nat
  dom : Dom
  bound : Code
  rising : Bool
  seq : BitVec 16
  lost : Nat
deriving DecidableEq, Repr

/-- One capture input (10 R333 to R337): mode 0 disarmed, 1 ONCE, 2 STREAM; edge 0 RISE, 1 FALL, 2 BOTH. -/
structure CapSt where
  mode : Nat := 0
  dom : Dom := 0
  edge : Nat := 0
  part : Part := 0
  tag : Option Tag := none
  fifo : List CapEnt := []
  lost : BitVec 16 := 0
  lostPend : Nat := 0
  ovf : Bool := false
  missed : Word := 0
  seq : BitVec 16 := 0
  /-- an edge has been captured, so that a dead time has begun (R334) -/
  edged : Bool := false
  /-- a latch check detection makes the next capture unbounded (R348) -/
  latchBad : Bool := false
deriving DecidableEq, Repr

/-! ## Jets (11) -/

/-- How far a jet's edge engine has come (R352). -/
inductive JetPhase where
  /-- disabled, killed or without a half -/
  | off
  /-- START = 1, waiting for the domain's step -/
  | forStep
  /-- started, before O -/
  | wait
  | run
deriving DecidableEq, Repr

/-- The level at a jet's balls. -/
inductive JetLevel where
  | low
  | high
  | hiz
deriving DecidableEq, Repr

/-- A ramp of a jet's frequency (R361): domain time of the edge it began with, the frequency there and the new one, Hz, and the
change per second. -/
structure JetRamp where
  t0 : Rat
  f0 : Rat
  f1 : Rat
  slope : Rat
deriving DecidableEq, Repr

/-- Where the engine has placed an edge (R353, R363): CLK_CORE edges of the half from the one before the instant at which it was
placed, the grid tap of that cycle, and the interpolator code. -/
structure JetPlace where
  edge : Int := 0
  tap : Nat := 0
  code : Nat := 0
deriving DecidableEq, Repr

structure JetSt where
  phase : JetPhase := .off
  /-- the domain the running engine takes its time from -/
  dom : Dom := 0
  /-- the edge origin O, in units of 2^-62 ns of domain time (R351) -/
  o : Rat := 0
  /-- number of the next rising edge, from O or from the edge with which a ramp began -/
  next : Int := 0
  /-- the domain time of the falling edge to come, and of the output's last change of level (R351, R359) -/
  fallAt : Option Rat := none
  lastAt : Option Rat := none
  /-- the same instant in ps of common time -/
  lastPs : Rat := 0
  place : JetPlace := {}
  /-- JET_PLANE and JET_PLANE_UNC as the latest start took them; a write since page reset, and whether the start used
  one (R354) -/
  dly : Int := 0
  unc : Code := 0
  planeW : Bool := false
  planeSet : Bool := false
  /-- the jet stops at its next falling edge, and starts again from there (R358, R360) -/
  stop : Bool := false
  again : Bool := false
  level : JetLevel := .low
  /-- the condition of OUT_POL has failed; the squelch has taken effect (R357) -/
  sqWant : Bool := false
  sq : Bool := false
  aligned : Bool := false
  align : Nat := 0
  ramp : Option JetRamp := none
  half : Option Half := none
  /-- edge engines whose stream counts as absent (R371) -/
  bad : Pair Bool := ⟨false, false⟩
  driverBad : Bool := false
  bound : Code := 0xFFFF
  hold : BitVec 16 := 0
  delayed : BitVec 16 := 0
  swCnt : BitVec 16 := 0
deriving DecidableEq, Repr

/-! ## Lanes, paths and ports (12, 10) -/

structure LaneSt where
  /-- lane mode: SPEED, and 4 for SPEED 2 with FEC25 (10 R322) -/
  mode : Nat := 1
  cdr : Bool := false
  block : Bool := false
  aligned : Bool := false
  an : Bool := false
  lt : Bool := false
  hiBer : Bool := false
  /-- the calibration set of the mode is loaded (10 R322) -/
  ready : Bool := false
  skew : Word := 0
  /-- RS-FEC codewords corrected and uncorrectable (12 R390) -/
  corr : BitVec 16 := 0
  uncorr : BitVec 16 := 0
deriving DecidableEq, Repr

/-- One path of a port (R381, R385). -/
structure PathSt where
  link : Bool := false
  partner : Bool := false
  /-- LINK_OK, TS_OK, PARTNER_OK as published -/
  pub : Vector Bool 3 := Vector.replicate 3 false
  /-- risen health bits that wait for HOLDOFF, with the time they rose -/
  rising : List (Fin 3 × Nat) := []
  /-- the claim is withdrawn until a health bit is published again (R390) -/
  withdrawn : Bool := false
  /-- claim parity: no claim is published (R392) -/
  claimBad : Bool := false
  esmcValid : Bool := false
  ql : BitVec 4 := 0
  /-- the enhanced SSM TLV of the latest ESMC PDU, recorded and not used (R385) -/
  enhanced : List Byte := []
  /-- an event PDU is due; the times of the PDUs sent in the latest second (R387) -/
  eventDue : Bool := false
  esmcAt : List Nat := []
  /-- the egress scheduler's parity check has hit this path (R392) -/
  schedBad : Bool := false
deriving DecidableEq, Repr

/-- One entry of a TX timestamp queue (10 R329 to R331, R344). -/
structure TxEnt where
  t : Nat
  dom : Dom
  noSend : Bool
  mark : Bool
  id : BitVec 16
  lost : Nat
  bound : Code
deriving DecidableEq, Repr

/-- A host frame accepted for transmission (12 R377, 15 R482): the operation's tag until it has completed; path 0
ACTIVE, 1 A, 2 B; destination 0 NONE, 1 COMPLETION, 2 QUEUE. -/
structure HostFrame where
  part : Part
  tag : Option Tag
  path : Nat
  dest : Nat
  dom : Dom
  id : BitVec 16
  /-- the frame short of its FCS -/
  bytes : List Byte
  /-- one-step offset, and checksum offset -/
  oneAt : Option Nat
  sumAt : Option Nat
deriving DecidableEq, Repr

/-- What a Signaling message carries (13 R395, R409, R410, R420, R423). -/
inductive SigTlv where
  | request (g : GrantType) (log : Int) (duration : Nat)
  | grant (g : GrantType) (log : Int) (duration : Nat)
  | cancel (g : GrantType)
  | ackCancel (g : GrantType)
  | l1sync (tcr rcr cr : Bool)
deriving DecidableEq, Repr

inductive PtpKind where
  | sync (twoStep : Bool)
  | followUp
  | delayResp
  | announce
  | signaling (tlv : SigTlv)
  | delayReq
deriving DecidableEq, Repr

/-- The BOUND TLV's variable fields (13 R406): total, six level codes, level 7, flags. -/
structure BoundTlv where
  total : Code := 0xFFFF
  levels : Vector Code 6 := Vector.replicate 6 0xFFFF
  level7 : Code := 0xFFFF
  flags : Byte := 0
deriving DecidableEq, Repr

/-- A PTP message built and waiting on its port. `t` is the timestamp that a Follow_Up or Delay_Resp reports. -/
structure PtpMsg where
  kind : PtpKind
  /-- session table index, or a client instance -/
  sess : Option Nat := none
  client : Option ClNo := none
  /-- the requester of a multicast or hybrid Delay_Resp, or of a message outside a session -/
  dest : Option UniClient := none
  /-- sent to one receiver; to all of its multicast address else -/
  unicast : Bool := false
  domNum : BitVec 8
  seq : BitVec 16
  /-- the interval in force for its type (R401) -/
  log : Int := 0
  dom : Dom
  t : Nat := 0
  corr : Int := 0
  bound : BoundTlv := {}
  /-- association whose ICV the message carries -/
  sa : Option (Fin 16) := none
deriving DecidableEq, Repr

/-- A response of the Fountain (14 R433). -/
inductive NtpKind where
  | plain
  | rate
  | nak
  | auth
  | authRate
deriving DecidableEq, Repr

/-- What an NTP response carries in its header (14 R433 to R437). -/
structure NtpHeader where
  li : Nat := 0
  vn : Nat := 4
  stratum : Nat := 0
  poll : Nat := 0
  disp : Nat := 0
  refId : Nat := 0
  ref : Nat := 0
  org : BitVec 64 := 0
  t2 : Nat := 0
  t3 : Nat := 0
deriving DecidableEq, Repr

/-- A response waiting on its port; of an authenticated one the launch instant, the header and the field as sealed. -/
structure NtpResp where
  kind : NtpKind
  req : NtpReq
  dom : Dom
  t2 : Nat
  /-- T2 as the port presented it at its own instant (14 R434, R463) -/
  p2 : Nat := 0
  /-- the units that work on it, by detector number, each with the common time at which it is done (14 R462) -/
  units : List (Nat × Nat) := []
  uid : List Byte := []
  /-- C2S and S2C of its cookie, and how many cookies answer it -/
  keys : List Byte × List Byte := ([], [])
  cookies : Nat := 0
  t3 : Nat := 0
  hdr : NtpHeader := {}
  box : List Byte := []
deriving DecidableEq, Repr

/-- What an Announce carried (13 R401). -/
structure AnnounceSet where
  clockClass : Nat
  accuracy : Nat
  variance : Nat
  timeSource : Nat
  utcOffset : Nat
  utcValid : Bool
  leap61 : Bool
  leap59 : Bool
  timeTraceable : Bool
  freqTraceable : Bool
  gmId : BitVec 64
  portNum : BitVec 16
  prio1 : Nat
  prio2 : Nat
  stepsRemoved : Nat
  ptpTimescale : Bool
  logInterval : Int
deriving DecidableEq, Repr

/-- What a port has still to take of the PTP or the Fountain page at its packet boundaries (02 R55, R56): the words that wait, those
captured for the coming boundary, how many buffered writes of the page had arrived at that capture, and how many of them the port
has dealt with. -/
structure PortWords where
  wait : KMap Word := []
  capt : Option (KMap Word) := none
  capMark : Nat := 0
  doneMark : Nat := 0
deriving DecidableEq, Repr

structure PortSt where
  /-- words of the PTP and of the Fountain page that this port has taken and others not yet (02 R55) -/
  overP : KMap Word := []
  overF : KMap Word := []
  waitP : PortWords := {}
  waitF : PortWords := {}
  paths : Pair PathSt := ⟨{}, {}⟩
  /-- the path arbiter follows B -/
  onB : Bool := false
  swCnt : BitVec 16 := 0
  stbyDisc : Word := 0
  conflict : Bool := false
  /-- TX timestamp queue -/
  txq : List TxEnt := []
  txSpill : BitVec 16 := 0
  txLost : Nat := 0
  txOvf : Bool := false
  hrxHead : Nat := 0
  /-- code transmitted, and DNU_LOOP (R388) -/
  qlTx : BitVec 4 := 0xF
  dnuLoop : Bool := false
  /-- counts of the running window, and the read buffer: RX bytes, TX bytes, RX frames, TX frames (R389) -/
  win : Vector Nat 4 := Vector.replicate 4 0
  read : Vector Nat 4 := Vector.replicate 4 0
  bwSeq : BitVec 16 := 0
  hosts : List HostFrame := []
  msgs : List PtpMsg := []
  /-- Syncs sent two-step whose Follow_Up is not built yet -/
  follow : List PtpMsg := []
  ntp : List NtpResp := []
  sealed : List NtpResp := []
deriving DecidableEq, Repr

/-! ## PTP engine (13) -/

structure Grant where
  active : Bool := false
  log : Int := 0
  remain : Nat := 0
deriving DecidableEq, Repr

/-- One entry of the session table (R412). -/
structure PtpSess where
  lp : PortNo
  auth : Bool
  key : Nat
  client : UniClient
  ann : Grant := {}
  sync : Grant := {}
  dresp : Grant := {}
  annSeq : BitVec 16 := 0
  syncSeq : BitVec 16 := 0
  sigSeq : BitVec 16 := 0
  dreqDrop : BitVec 16 := 0
  lastRx : Word := 0
  dreqCnt : Word := 0
  /-- token bucket of R414, and the time of its latest use -/
  tokens : Rat := 4
  tokenAt : Nat := 0
deriving DecidableEq, Repr

/-- One master port (R393 to R401). -/
structure PtpPort where
  syncSeq : BitVec 16 := 0
  annSeq : BitVec 16 := 0
  sigSeq : BitVec 16 := 0
  /-- multicast and hybrid Delay_Req answered in the running second (R400), and that second -/
  dreqSec : Nat := 0
  dreqAt : Nat := 0
  dreqLimit : BitVec 16 := 0
  foreign : BitVec 16 := 0
  foreignAt : Option Nat := none
  /-- TCR, RCR and CR of the peer, from its latest L1_SYNC TLV (R423) -/
  peer : BitVec 3 := 0
  serving : Bool := false
  /-- what the latest Announce carried -/
  ann : Option AnnounceSet := none
deriving DecidableEq, Repr

/-- A foreign master that a client instance hears: its latest Announce, and the times of the latest ones (R419). -/
structure Foreign where
  ann : AnnounceMsg
  at_ : List Nat
deriving DecidableEq, Repr

/-- The times of one instant on the buses of the two halves, in ps, by half and domain; none where a half's grid did not run, or
whose domain has been reset since (01 R20, R27). -/
abbrev Stamps := Vector (Option Int) 8

/-- A Delay_Req that waits for its response: sequenceId, the latest Sync before it left, and its own egress (13 R421). -/
structure DreqSent where
  seq : BitVec 16
  sync : Option Stamps := none
  left : Option Stamps := none
deriving DecidableEq, Repr

/-- A grant that an instance holds: granted duration in s, and common time of the grant (R420). -/
structure ClGrant where
  dur : Nat
  since : Nat
deriving DecidableEq, Repr

/-- A client instance. Its state is CLIENT with a master, REQUESTING with an Announce grant alone, else LISTENING; DISABLED is read
from the port (R418). -/
structure Client where
  foreigns : List Foreign := []
  master : Option AnnounceMsg := none
  /-- the accepted master changed: loss is reported at the next beat (R422) -/
  changed : Bool := false
  loss : Bool := true
  /-- unicast: the grants of Announce, Sync and Delay_Resp; the wait after the latest failure in s, and the time of that failure
  (R420) -/
  grants : Vector (Option ClGrant) 3 := Vector.replicate 3 none
  wait : Nat := 0
  failedAt : Nat := 0
  sigSeq : BitVec 16 := 0
  dreqSeq : BitVec 16 := 0
  /-- the time of the latest Delay_Req, and the master's logMinDelayReqInterval (R421) -/
  dreqAt : Option Nat := none
  minDreq : Option Int := none
  /-- the latest Sync received, as each half's bus timed it -/
  syncAt : Option Stamps := none
  /-- the Delay_Req that wait for their responses, oldest first -/
  outstanding : List DreqSent := []
  mpd : Int := 0
  mbound : Code := 0
  boundAt : Option Nat := none
  exch : Word := 0
  /-- exchanges completed since the master was accepted -/
  since : Nat := 0
deriving DecidableEq, Repr

structure Ptp where
  sessions : KMap (Option PtpSess) := []
  ports : Vector PtpPort 16 := Vector.replicate 16 {}
  clients : Vector Client 4 := Vector.replicate 4 {}
  bucketFull : BitVec 16 := 0
  denied : BitVec 16 := 0
  authFail : BitVec 16 := 0
  saBad : BitVec 16 := 0
  syncLate : Word := 0
  /-- messages of a beat past its capacity, by domain: port, session, whether a Sync (R413) -/
  late : Vector (List (PortNo × Option Nat × Bool)) 4 := Vector.replicate 4 []
deriving DecidableEq, Repr

/-! ## Fountain (14) -/

/-- What a port shows of its latest response (R463). -/
structure FtnPort where
  serving : Bool := false
  smearing : Bool := false
  stratum : Nat := 0
  li : Nat := 0
  disp : Nat := 0
  refId : Nat := 0
  /-- Reference Timestamp at the latest beat at which a time reference steered each domain (R437) -/
  refTime : Vector Nat 4 := Vector.replicate 4 0
deriving DecidableEq, Repr

/-- The counters of FTN_NTP_RESP to FTN_REPLAY, in the order of their registers. -/
inductive FtnCnt where
  | ntpResp
  | ntsResp
  | minted
  | kod
  | nak
  | evict
  | dropRl
  | dropBusy
  | dropLate
  | dropBad
  | dropNoserve
  | replay
deriving DecidableEq, Repr

structure Ftn where
  /-- client table entries as 64-bit words; 0 is a free entry (R456) -/
  table : KMap (BitVec 64) := []
  /-- hash keys drawn so far, and the one in use, none once it is zeroised (R455, R463) -/
  hashNo : Nat := 0
  hash : Option Nat := some 0
  counts : Vector Word 12 := Vector.replicate 12 0
  ports : Vector FtnPort 16 := Vector.replicate 16 {}
  /-- mint epoch in use, none before the first commit; the epoch the Belrex store holds; its sequence (R453) -/
  epoch : Option (BitVec 24) := none
  stored : BitVec 24 := 0
  seq : Nat := 0
  /-- mint counter check: minting stops until a new epoch is committed (R466) -/
  mintBad : Bool := false
  /-- NTS_READY as last evaluated, and the generation last shown -/
  ready : Bool := false
  gen : Word := 0
  /-- FTN_LEAP as it was last seen in force (R439) -/
  leapSeen : Nat := 0
  /-- its leap was past already as it came into force -/
  leapPast : Bool := false
  /-- work of the latest second: common time, requests of builders, AES blocks (FTN_UTIL) -/
  util : List (Nat × Nat × Nat) := []
deriving DecidableEq, Repr

/-! ## What the module has put out -/

/-- What a frame that left carried, with its octets short of the FCS. -/
inductive Sent where
  | host (bytes : List Byte) (stamp : Option Nat)
  | ptp (m : PtpMsg) (t : Nat) (ann : Option AnnounceSet) (bytes : List Byte)
  | ntp (kind : NtpKind) (h : NtpHeader) (bytes : List Byte)
  | esmc (ql : BitVec 4) (event : Bool) (bytes : List Byte)
  | mark
deriving DecidableEq, Repr

/-- What the module has put out to its environment, in order. -/
inductive Out where
  /-- a write to a host's memory -/
  | hostMem (p : Part) (addr : Nat) (bytes : List Byte)
  /-- an MSI-X message of a vector, with the address and data its table entry holds -/
  | msix (p : Part) (vector : Nat) (addr : BitVec 64) (data : Word)
  /-- the ALIVE pin -/
  | alive (level : Bool)
  /-- data returned by a read that pops or steps an address; none is a Completer Abort -/
  | readData (p : Part) (data : Option (BitVec 64))
  /-- a mailbox answer: transport, command, tag, status and the values answered -/
  | mailbox (src : Transport) (cmd : Nat) (tag : BitVec 16) (status : Nat) (vals : List Nat)
  /-- an answer on the management Ethernet: destination, sequence number, message and ICV -/
  | ethAnswer (dst : BitVec 48) (seq : BitVec 64) (body : List Byte) (icv : BitVec 128)
  /-- a frame that left a path of a port -/
  | frame (p : PortNo) (path : PathAB) (f : Sent)
deriving DecidableEq, Repr

end Sys2Proof.Machine
end

