-- ==== Sys2Proof/Machine/State.lean ====
section
/-!
DEFINITION. The state of the block, the reasons a step can stop, and the state right after reset.
-/

namespace Sys2Proof.Machine

/-- Why a step faults. No command of this block faults: every event the spec describes has a next state, and an
event whose condition does not hold in the state changes nothing (log entry 2). -/
inductive Fault where
  /-- Raised by no command. Safe. -/
  | none
deriving DecidableEq, Repr

/-- Why a command has no meaning. -/
inductive Refusal where
  /-- Raised by an arm of the dispatch whose command has no meaning yet. Safe. -/
  | notModelled (mnemonic : String)
deriving DecidableEq, Repr

/-- The whole block. -/
structure State where
  /-- commands waiting, first in, first out (the model's own field) -/
  pending : List Instr := []
  /-- draws taken of the free values (the model's own field; no statement rests on it) -/
  fresh : Nat := 0
  /-- common time since reset, in CLK_CORE cycles of 1.25 ns -/
  now : Nat := 0
  outs : List Out := []
  pages : KMap Page := []
  pwr : Pwr := {}
  arb : Arb := {}
  halves : Pair HalfSt := ⟨{}, {}⟩
  parts : Vector PartSt 4 := Vector.replicate 4 {}
  bars : Vector BarSt 4 := Vector.replicate 4 {}
  ops : KMap (Option Op) := []
  /-- place of the next detection or bus error, to match messages with the SEQ they are given -/
  ident : Nat := 0
  models : Vector ModelTab 4 := Vector.replicate 4 {}
  caps : Vector CapSt 8 := Vector.replicate 8 {}
  jets : Vector JetSt 16 := Vector.replicate 16 {}
  lanes : Vector LaneSt 16 := Vector.replicate 16 {}
  ports : Vector PortSt 16 := Vector.replicate 16 {}
  ptp : Ptp := {}
  ftn : Ftn := {}
  keys : Keys := {}
  flt : Flt := {}
  mgt : Mgt := {}
  cnt : Cnt := {}
deriving DecidableEq, Repr

/-- The state right after reset: no feed, the island newly powered, every register at the value the spec gives. -/
def State.reset : State := {}

end Sys2Proof.Machine
end

