-- ==== Sys2Proof/Machine/Ops.lean ====
section
/-!
DEFINITION. The named operations over the state that every family shares: pages and registers, events and
interrupts, counters, fault messages, the event log, tags and completions.
-/

namespace Sys2Proof.Machine

/-! ## Pages and registers -/

/-- A page of the register file. -/
def State.page (s : State) (pg : Nat) : Page := look Page.reset s.pages pg

def State.setPage (s : State) (pg : Nat) (p : Page) : State := { s with pages := put Page.reset s.pages pg p }

def State.modPage (s : State) (pg : Nat) (f : Page → Page) : State := s.setPage pg (f (s.page pg))

/-- The word in force at a register of a register file. -/
def regOf (m : KMap Page) (pg o : Nat) : Word := look (resetWord pg) (look Page.reset m pg).regs o

/-- A bit of a page's PAGE_EVT in a register file (02 R81). -/
def evtOf (m : KMap Page) (pg b : Nat) : Bool := bit (look Page.reset m pg).evt b

/-- The word in force at a register. -/
def State.reg (s : State) (pg off : Nat) : Word := regOf s.pages pg off

/-- The page with the word in force at a register replaced. -/
def Page.setReg (pg : Nat) (p : Page) (off : Nat) (v : Word) : Page := { p with regs := put (resetWord pg) p.regs off v }

def State.setReg (s : State) (pg off : Nat) (v : Word) : State := s.modPage pg (fun p => p.setReg pg off v)

/-- A field in force, as a number, as a signed number, and one bit. -/
def State.fieldAt (s : State) (pg off hi lo : Nat) : Nat := bits (s.reg pg off) hi lo
def State.sfieldAt (s : State) (pg off hi lo : Nat) : Int := sbits (s.reg pg off) hi lo
def State.bitAt (s : State) (pg off i : Nat) : Bool := bit (s.reg pg off) i

/-- A wide pair in force, as one 64-bit number. -/
def State.wideAt (s : State) (pg off : Nat) : Nat := (s.reg pg off).toNat + 2 ^ 32 * (s.reg pg (off + 4)).toNat

/-- A wide pair written by the hardware. -/
def State.setWide (s : State) (pg off v : Nat) : State :=
  (s.setReg pg off (BitVec.ofNat 32 v)).setReg pg (off + 4) (BitVec.ofNat 32 (v / 2 ^ 32))

/-! ## Outputs and free values -/

def State.emit (s : State) (o : Out) : State := { s with outs := s.outs ++ [o] }

/-- A free value below `n`, and the state with its counter advanced. -/
def State.draw (s : State) (n : Nat) : Nat × State := (Config.free s.fresh % n, { s with fresh := s.fresh + 1 })

/-- Common time in ns, µs and s. -/
def State.nowNs (s : State) : Nat := s.now * 5 / 4

/-! ## Power and halves -/

/-- A half is powered and out of reset (03 R105), as it is until it is held in reset 10 µs after power-fail (03 R97, R106). -/
def State.halfOn (s : State) (h : Half) : Bool := s.pwr.half.of h == .on || s.pwr.half.of h == .failing

def State.anyHalfOn (s : State) : Bool := s.halfOn .A || s.halfOn .B

def State.half (s : State) (h : Half) : HalfSt := s.halves.of h

def State.setHalf (s : State) (h : Half) (x : HalfSt) : State := { s with halves := s.halves.set h x }

def State.modHalf (s : State) (h : Half) (f : HalfSt → HalfSt) : State := s.setHalf h (f (s.half h))

/-- A start-up step from 7 to 10 is complete for some half or domain (03 R599). -/
def State.reachStep (s : State) (n : Nat) : State := { s with pwr := { s.pwr with startStep := max s.pwr.startStep n } }

/-- The lifecycle state in which the module acts (16 R500). -/
def State.lifecycle (s : State) : Nat := if s.keys.fuseBad then 3 else s.keys.fuse.lifecycle

/-! ## Counters (19) -/

/-- CHAIN of the even counter `c` (19 R587). -/
def State.chained (s : State) (c : Nat) : Bool := s.bitAt pgCnt (0x080 + c / 64 * 4) (c % 64 / 2)

def cntReset (_ : Nat) : Word := 0

/-- Set a counter's value. -/
def State.setCnt (s : State) (c : Nat) (v : Word) : State :=
  { s with cnt := { s.cnt with vals := put cntReset s.cnt.vals c v } }

def State.cntVal (s : State) (c : Nat) : Word := look cntReset s.cnt.vals c

/-- Add `n` units to counter `c` (19 R585 to R587): an odd counter whose partner is chained counts only the
partner's wraps, and a wrap of a chained even counter adds to its partner. -/
def State.count (s : State) (c n : Nat) : State :=
  if c % 2 = 1 ∧ s.chained (c - 1) then s
  else
    let v := (s.cntVal c).toNat + n
    let s1 := s.setCnt c (BitVec.ofNat 32 v)
    if c % 2 = 0 ∧ s.chained c ∧ v ≥ 2 ^ 32 then
      s1.setCnt (c + 1) (BitVec.ofNat 32 ((s1.cntVal (c + 1)).toNat + v / 2 ^ 32))
    else s1

def cntPart (p : Part) (i : Nat) : Nat := 384 + 16 * p.val + i
def cntPort (p : PortNo) (i : Nat) : Nat := 16 * p.val + i
def cntCap (c : CapNo) (i : Nat) : Nat := 448 + 4 * c.val + i
def cntLane (n : LaneNo) (i : Nat) : Nat := 480 + 4 * n.val + i
def cntHalf (h : Half) (i : Nat) : Nat := 544 + 64 * h.ix.val + i

/-! ## Partitions, ownership, interrupts -/

def State.part (s : State) (p : Part) : PartSt := s.parts.get p
def State.setPart (s : State) (p : Part) (x : PartSt) : State := { s with parts := setAt s.parts p x }
def State.modPart (s : State) (p : Part) (f : PartSt → PartSt) : State := s.setPart p (f (s.part p))

def State.queue (s : State) (p : Part) (q : QNo) : Queue := (s.part p).queues.get q
def State.modQueue (s : State) (p : Part) (q : QNo) (f : Queue → Queue) : State :=
  s.modPart p (fun x => { x with queues := modAt x.queues q f })

/-- The partition that owns a page (02 R47). -/
def State.ownerOf (s : State) (pg : Nat) : Option Part :=
  let o := (s.page pg).owner.toNat
  if h : o < 4 then some ⟨o, h⟩ else none

def State.owns (s : State) (p : Part) (pg : Nat) : Bool := s.ownerOf pg == some p

/-- A page is visible to a partition: owned, or read-only with VIS (02 R47). -/
def State.visible (s : State) (p : Part) (pg : Nat) : Bool := s.owns p pg || (s.page pg).vis

/-- A partition's endpoint can be reached (03 R107, 15 R467): not while the common die is held in reset or shut down (03 R94,
R110). -/
def State.hostUp (s : State) (p : Part) : Bool :=
  s.pwr.pcieUp && (s.part p).linkUp && !s.pwr.resetLow && !s.pwr.commonHot

def State.bar (s : State) (p : Part) : BarSt := s.bars.get p
def State.modBar (s : State) (p : Part) (f : BarSt → BarSt) : State := { s with bars := modAt s.bars p f }

/-- Signal an MSI-X vector (15 R467, R479): a message, or, while the vector is masked, its pending bit. -/
def State.msix (s : State) (p : Part) (v : Nat) : State :=
  let e := (s.bar p).vectors.get (Fin.ofNat 32 v)
  if e.mask then s.modBar p (fun x => { x with waiting := x.waiting ||| flagAt true v })
  else (s.emit (.msix p v e.addr e.data)).count (cntPart p 9) 1

/-- One word of BAR2 (15 R467): the MSI-X table at 0, four words an entry, the pending bits at 0x2000; the rest reads 0. -/
def State.barWord (s : State) (p : Part) (w : Nat) : Word :=
  let x := s.bar p
  if w < 0x200 then
    let e := x.vectors.get (Fin.ofNat 32 (w / 16))
    match w / 4 % 4 with
    | 0 => e.addr.setWidth 32
    | 1 => (e.addr >>> 32).setWidth 32
    | 2 => e.data
    | _ => flagAt e.mask 0
  else if w = 0x2000 then x.waiting
  else 0

/-- Write one word of BAR2: the pending bits are read-only; a vector unmasked while it is pending sends its message (log entry
223). -/
def State.setBarWord (s : State) (p : Part) (w : Nat) (v : Word) : State :=
  if w < 0x200 then
    let k : Fin 32 := Fin.ofNat 32 (w / 16)
    let e := (s.bar p).vectors.get k
    let e1 : MsixVec := match w / 4 % 4 with
      | 0 => { e with addr := (e.addr >>> 32 <<< 32) ||| ((v &&& 0xFFFFFFFC).setWidth 64) }
      | 1 => { e with addr := (e.addr &&& 0xFFFFFFFF) ||| (v.setWidth 64 <<< 32) }
      | 2 => { e with data := v }
      | _ => { e with mask := bit v 0 }
    let due := !e1.mask && bit (s.bar p).waiting k.val
    let s1 := s.modBar p (fun x =>
      { vectors := setAt x.vectors k e1
        waiting := if due then x.waiting &&& ~~~flagAt true k.val else x.waiting })
    if due then s1.msix p k.val else s1
  else s

/-- Signal the vector that the owner's vector map names for a page (15 R479, R496). -/
def State.irqPage (s : State) (pg : Nat) : State :=
  match s.ownerOf pg with
  | none => s
  | some p => s.msix p (bits (look vecReset (s.part p).vecMap pg) 4 0)

/-- A hardware set of a PAGE_EVT bit (02 R81, 15 R479). -/
def State.setEvt (s : State) (pg b : Nat) : State :=
  let s1 := s.modPage pg (fun p => { p with evt := p.evt ||| flagAt true b, evtCnt := p.evtCnt + 1 })
  if bit (s.page pg).evtEn b then s1.irqPage pg else s1

/-- Set a PAGE_EVT bit when a condition holds. -/
def State.evtIf (s : State) (c : Bool) (pg b : Nat) : State := if c then s.setEvt pg b else s

/-! ## Fault messages (17 R530 to R541) -/

/-- Places of a source (17 R530). -/
def placeOf : Half → Nat
  | .A => 1
  | .B => 2

def unitKey (src : Nat) (det : Byte) : Nat := src * 256 + det.toNat

def unitReset (_ : Nat) : TestUnit := {}

def State.unit (s : State) (src : Nat) (det : Byte) : TestUnit := look unitReset s.flt.units (unitKey src det)

def State.setUnit (s : State) (src : Nat) (det : Byte) (u : TestUnit) : State :=
  { s with flt := { s.flt with units := put unitReset s.flt.units (unitKey src det) u } }

/-- A unit takes no dispatch while its self-test runs or once it is fenced (17 R540, R542). -/
def State.unitBusy (s : State) (src : Nat) (det : Byte) : Bool :=
  ((s.unit src det).fenced && !(s.unit src det).spare) || (s.unit src det).testing.isSome

/-- Start the targeted self-test of a unit, unless one runs or it is fenced (17 R540). -/
def State.startTest (s : State) (src : Nat) (det : Byte) (ident : Nat) : State :=
  let u := s.unit src det
  if (u.fenced && !u.spare) || u.testing.isSome then s
  else (s.setUnit src det { u with testing := some ident, startSeq := none }).count 676 1

def bufReset (_ : Nat) : List Msg := []
def dropReset (_ : Nat) : Nat := 0

/-- Put a message into its block's outbound buffer of 4, or drop and count it (17 R534, R535). -/
def State.enqueueMsg (s : State) (m : Msg) : State :=
  let k := m.src.toNat
  let b := look bufReset s.flt.bufs k
  if b.length < 4 then { s with flt := { s.flt with bufs := put bufReset s.flt.bufs k (b ++ [m]) } }
  else { s with flt := { s.flt with dropped := put dropReset s.flt.dropped k (look dropReset s.flt.dropped k + 1) } }

/-- A source sends messages unless it lies on a half that is unpowered or in reset (17 R534). -/
def State.canSend (s : State) (place : Nat) : Bool :=
  if place = 1 then s.halfOn .A else if place = 2 then s.halfOn .B else true

/-- The counter of fault messages a half sends (19 R588). -/
def State.countSent (s : State) (place : Nat) : State :=
  if place = 1 then s.count (cntHalf .A 52) 1 else if place = 2 then s.count (cntHalf .B 52) 1 else s

/-- The location of a check on a memory, a table or a datapath, where the command does not name the part that failed: a
free value; 0 for a kind that has none (17 R531). -/
def State.locFor (s : State) (pg kind : Nat) (det : Byte) : BitVec 24 :=
  if kind = kParity ∨ kind = kEcc ∨ kind = kCrc ∨ kind = kCrypto then Config.faultLoc pg det.toNat s.ident else 0

/-- A detector fires: its message is sent, marked injected under 17 R536, a one-shot injection ends, and the
targeted self-test of R540 starts when the kind has one. -/
def State.fault (s : State) (place pg kind sev : Nat) (det : Byte) (loc : BitVec 24) : State :=
  if s.canSend place then
    let p := s.page pg
    let inj := p.injArm && p.injDet == det
    let m : Msg := { src := BitVec.ofNat 10 (place * 256 + pg), kind := BitVec.ofNat 6 kind, sev := BitVec.ofNat 2 sev,
                     det := det, loc := loc, injected := inj, ident := s.ident }
    let s1 := if inj && !p.injCont then s.modPage pg (fun q => { q with injArm := false }) else s
    let s2 := ({ s1 with ident := s.ident + 1 }.enqueueMsg m).countSent place
    if kindTests kind then s2.startTest (place * 256 + pg) det s.ident else s2
  else s

/-- A message of kind STEP that tells of a half's failed self-test; it starts no test of its own (17 R532: under R300). -/
def State.testFailed (s : State) (place pg : Nat) : State :=
  if s.canSend place then
    let m : Msg := { src := BitVec.ofNat 10 (place * 256 + pg), kind := BitVec.ofNat 6 kStep, sev := BitVec.ofNat 2 (kindSev kStep),
                     det := Config.detectorOf pg kStep, loc := 0, injected := false, ident := s.ident }
    ({ s with ident := s.ident + 1 }.enqueueMsg m).countSent place
  else s

/-- A RECOVERY message: the level in bits [3:0], the SEQ of the expiry message in bits [17:4] (17 R545). -/
def State.recovery (s : State) (place pg level : Nat) (ofIdent : Nat) : State :=
  if s.canSend place then
    let m : Msg := { src := BitVec.ofNat 10 (place * 256 + pg), kind := BitVec.ofNat 6 kRecovery, sev := 0, det := 0xFF,
                     loc := BitVec.ofNat 24 level, injected := false, ident := s.ident, ref := some (ofIdent, 4) }
    ({ s with ident := s.ident + 1 }.enqueueMsg m).countSent place
  else s

/-! ## The arbitrated time bus and the event log -/

/-- The half the time bus arbiter follows (01 R26, 09 R293). -/
def State.busHalf (s : State) : Option Half := s.arb.active

/-- The half whose valid claim is the higher (09 R290). -/
def winner (c : Pair (Option (BitVec 8))) : Option Half :=
  match c.a, c.b with
  | none, none => none
  | some _, none => some .A
  | none, some _ => some .B
  | some x, some y => if y.toNat < x.toNat then some .A else some .B

/-- The half the arbiters go to on the claims last acted on. -/
def State.followed (s : State) : Option Half := winner s.arb.acted

/-- A domain's time at an instant, with the part of a CLK_CORE cycle gone by since the half's latest edge. -/
def HalfSt.timeOf (x : HalfSt) (d : Dom) : Nat :=
  let y := x.doms.get d
  y.t + (x.gphase * (tickT y.rate : Rat)).floor.toNat

/-- The arbitrated time of a domain, in units of 2^-62 ns: while the new half is behind T_last, T_last (09 R294). -/
def State.busTime (s : State) (d : Dom) : Nat :=
  match s.busHalf with
  | some h => max ((s.half h).timeOf d) ((s.arb.last.get d).getD 0)
  | none => 0

def State.busStepped (s : State) (d : Dom) : Bool :=
  match s.busHalf with
  | some h => ((s.half h).doms.get d).stepped
  | none => false

/-- State code of a domain on the arbitrated bus, as of the followed half's TD0 beat (01 R26). -/
def State.busState (s : State) (d : Dom) : Nat :=
  match s.busHalf with
  | some h => ((s.half h).bus.get d).st
  | none => 0

/-- What the arbiter adds to a domain's total, ps: until the new half's first TD0 beat, and while a hold from no claim lasts (08 R279;
09 R294, R297). -/
def State.busAdd (s : State) (d : Dom) : Nat :=
  s.arb.add.get d + (match s.busHalf, s.arb.last.get d with
    | some h, some t => if (s.half h).timeOf d ≤ t then s.arb.held.get d else 0
    | _, _ => 0)

/-- The total on the arbitrated bus, with the additions of 08 R279 and 09 R297. -/
def State.busBound (s : State) (d : Dom) : Code :=
  match s.busHalf with
  | some h =>
    let c := ((s.half h).bus.get d).bound
    if s.busAdd d = 0 then c else addBound c ((s.busAdd d : Nat) : Rat)
  | none => 0xFFFF

/-- Seconds, nanoseconds and 2^-32 ns fraction of a time in units of 2^-62 ns (00, Time values). -/
def secOf (t : Nat) : Nat := t / (1000000000 * 2 ^ 62)
def nsOf (t : Nat) : Nat := t / 2 ^ 62 % 1000000000
def fracOf (t : Nat) : Nat := t % 2 ^ 62 / 2 ^ 30

/-- An event log record of now: TD0's time once it has stepped and a half publishes, else RTC seconds (18 R577, R579). -/
def State.record (s : State) (typ : Nat) (data : Nat) (inj : Bool := false) : LogRec :=
  let onTd0 := s.busStepped 0
  let t := s.busTime 0
  { typ := typ, rtc := !onTd0, injected := inj, sec := if onTd0 then secOf t else s.pwr.rtcSec.toNat,
    ns := if onTd0 then nsOf t else 0, data := BitVec.ofNat 64 data }

/-- A record is written to the ring of 6,144 in the Belrex store (18 R557, R577). -/
def State.storeRec (s : State) (r : LogRec) : State :=
  let l := s.mgt.log ++ [LogStored.mk s.mgt.logSeq r true]
  { s with mgt := { s.mgt with log := l.drop (l.length - 6144), logSeq := s.mgt.logSeq + 1 } }.count 682 1

/-- Add a record to Milondino's queue of 256, or drop and count it (18 R577, R579, R580). -/
def State.logRec (s : State) (typ : Nat) (data : Nat) (inj : Bool := false) : State :=
  let r := s.record typ data inj
  if s.mgt.logQ.length < 256 then { s with mgt := { s.mgt with logQ := s.mgt.logQ ++ [r] } }
  else { s with mgt := { s.mgt with logDropped := s.mgt.logDropped + 1 } }.setEvt pgMgt evMgtLogOvf

/-! ## Tags and completions (15 R471, R488, R490) -/

def opReset (_ : Nat) : Option Op := none

def State.op? (s : State) (t : Tag) : Option Op := look opReset s.ops t.val

def State.setOp (s : State) (t : Tag) (o : Option Op) : State := { s with ops := put opReset s.ops t.val o }

/-- The operations that hold tags, by tag. -/
def State.opList (s : State) : List (Tag × Op) :=
  s.ops.filterMap (fun e => match e.2 with
    | some o => if h : e.1 < 512 then some (⟨e.1, h⟩, o) else none
    | none => none)

def Op.word (o : Op) (i : Fin 16) : Word := o.words.get i
def Op.opcode (o : Op) : Nat := bits (o.word 0) 7 0
def Op.cid (o : Op) : Nat := bits (o.word 0) 31 16
/-- The 64-bit buffer address in dwords 4 and 5 (15 R482). -/
def Op.addr (o : Op) : Nat := (o.word 4).toNat + 2 ^ 32 * (o.word 5).toNat
/-- The page a FENCE with APPLY waits for (15 R482, R483). -/
def Op.fencePage (o : Op) : Option Nat :=
  if o.opcode == 0x01 && bit (o.word 1) 0 then some (bits (o.word 1) 15 8) else none
def Op.isDone (o : Op) : Bool := match o.phase with | .done _ => true | _ => false

/-- The page whose engine serves an operation (15 R490). -/
def Op.enginePage (o : Op) : Nat :=
  let w := o.word 1
  match o.opcode with
  | 0x11 => 0x48 + bits w 2 0
  | 0x20 => 0x70 + bits w 3 0
  | 0x21 => 0x40 + bits w 1 0
  | 0x30 => pgKey
  | 0x31 => pgKey
  | 0x32 => pgFtn
  | 0x40 => pgCnt
  | 0x41 => pgMgt
  | _ => pgHp o.part

/-- Operations of a queue that hold tags. -/
def queueOps (s : State) (p : Part) (q : QNo) : List (Tag × Op) :=
  s.opList.filter (fun e => e.2.part == p && e.2.q == q)

/-- A FENCE completes only once nothing fetched before it from its queue still holds a tag, whatever its status (15 R483). -/
def fenceWaits (s : State) (o : Op) : Bool :=
  o.opcode == 0x01 && (queueOps s o.part o.q).any (fun e => e.2.order < o.order)

/-- An earlier FENCE of the queue has not completed (15 R483). -/
def fenced (s : State) (o : Op) : Bool :=
  (queueOps s o.part o.q).any (fun e => e.2.opcode == 0x01 && e.2.order < o.order && (!e.2.isDone || fenceWaits s e.2))

/-- How many come before `k` in a round of `n` that goes on after the one served last. -/
def roundPlace (n last k : Nat) : Nat := (k + (n - 1 - last)) % n

/-- An operation waits for its engine. -/
def State.asks (s : State) (o : Op) : Bool := o.phase == .fetched && !fenced s o

/-- It is the turn of an operation's partition at its engine: of those with operations waiting for it, the next after the one that
the engine served last (15 R478). -/
def State.engineTurn (s : State) (o : Op) : Bool :=
  let place (p : Part) : Nat := roundPlace 4 (s.page o.enginePage).turn.val p.val
  s.opList.all (fun e => !(s.asks e.2 && e.2.enginePage == o.enginePage) || decide (place o.part ≤ place e.2.part))

/-- An engine takes an operation: the turn goes on from its partition (15 R478). -/
def State.served (s : State) (o : Op) : State := s.modPage o.enginePage (fun x => { x with turn := o.part })

/-- The operation has been dispatched and has not completed. -/
def State.inFlight (s : State) (o : Op) : Bool := !o.isDone && (o.phase != .fetched || !fenced s o)

def noResult : Vector Word 6 := Vector.replicate 6 0

/-- An operation's completion becomes ready with a status and a result, in its queue's order (15 R475, R487). -/
def State.finish (s : State) (t : Tag) (st : Byte) (res : Vector Word 6 := noResult) : State :=
  match s.op? t with
  | none => s
  | some o =>
    if o.isDone then s
    else
      let n := (s.queue o.part o.q).nextReady
      let s1 := s.setOp t (some { o with phase := .done st, result := res, ready := n })
      let s2 := s1.modQueue o.part o.q (fun x => { x with nextReady := n + 1 })
      let s3 := s2.evtIf (st == stHostMemory) (pgHp o.part) evHostMemory
      s3.evtIf (st == stTimeout) (pgHp o.part) evTimeout

/-- Move an operation to a phase. -/
def State.phase (s : State) (t : Tag) (ph : OpPhase) : State :=
  match s.op? t with
  | none => s
  | some o => s.setOp t (some { o with phase := ph })

/-- Disarm the capture input that an operation armed; its FIFO entries stay (15 R481). -/
def State.disarmTag (s : State) (t : Tag) : State :=
  { s with caps := s.caps.map (fun c => if c.tag = some t then { c with mode := 0, tag := none } else c) }

/-- Abort, with a status, every operation that is short of its commit point and satisfies `p` (15 R490). -/
def State.abortOps (s : State) (p : Op → Bool) (st : Byte) : State :=
  s.opList.foldl (fun a e => if !e.2.isDone && !e.2.committed && p e.2 then (a.finish e.1 st).disarmTag e.1 else a) s

/-! ## TX timestamp queues (10 R329, R330, R347) -/

def State.port (s : State) (p : PortNo) : PortSt := s.ports.get p
def State.modPort (s : State) (p : PortNo) (f : PortSt → PortSt) : State := { s with ports := modAt s.ports p f }

def evTxtsAvail : Nat := 20
def evTxtsOvf : Nat := 21

/-- An entry is written to a port's TX timestamp queue, or dropped and counted when it holds 32. -/
def State.pushTx (s : State) (p : PortNo) (e : TxEnt) : State :=
  let x := s.port p
  let pg := 0x70 + p.val
  if x.txq.length < 32 then
    (s.modPort p (fun y => { y with txq := y.txq ++ [{ e with lost := min 255 y.txLost }], txLost := 0 })).evtIf
      x.txq.isEmpty pg evTxtsAvail
  else
    (s.modPort p (fun y => { y with txOvf := true, txSpill := y.txSpill + 1, txLost := y.txLost + 1 })).setEvt pg evTxtsOvf

/-- The entry of a frame that was discarded before its egress. -/
def TxEnt.unsent (d : Dom) (id : BitVec 16) : TxEnt :=
  { t := 0, dom := d, noSend := true, mark := false, id := id, lost := 0, bound := 0 }

/-- Host frames of a port are discarded: QUEUE entries are written with NOSEND, and operations that wait for them
complete by `f` (R329, 15 R491). -/
def State.dropFrames (s : State) (p : PortNo) (which : HostFrame → Bool) (f : HostFrame → State → State) : State :=
  let go := (s.port p).hosts.filter which
  let s1 := s.modPort p (fun y => { y with hosts := y.hosts.filter (fun e => !which e) })
  go.foldl (fun a e => f e (if e.dest = 2 then a.pushTx p (TxEnt.unsent e.dom e.id) else a)) s1

/-- The word of the buffered register as a read of its shadow offset gives it (02 R58): the latest pending word,
else the captured one, else the word in force. -/
def State.shadowReg (s : State) (pg off : Nat) : Word :=
  let p := s.page pg
  look (fun o => look (fun o' => s.reg pg o') (p.captured.getD []) o) p.shadow off

end Sys2Proof.Machine
end

