-- ==== Sys2Proof/Machine/Resets.lean ====
section
/-!
DEFINITION. Resets of the module's parts, and the power state machine of 03 R106.
-/

namespace Sys2Proof.Machine

def evDivStart : Nat := 16
def evDivEnd : Nat := 17

/-- D starts or ends on a half, with the events of the pair (08 R271, R282). -/
def State.setDiv (s : State) (h : Half) (v : Option Nat) : State :=
  let anyD (a : State) : Bool := (a.half .A).divAt.isSome || (a.half .B).divAt.isSome
  let was := anyD s
  let s1 := s.modHalf h (fun x => { x with divAt := v })
  (s1.evtIf (anyD s1 && !was) pgSl evDivStart).evtIf (!(anyD s1) && was) pgSl evDivEnd

/-- What a half has for the collector ends with it: its blocks' outbound buffers and the tests of its units (17 R534, R540). -/
def dropMessages (h : Half) (f : Flt) : Flt :=
  { f with
    bufs := f.bufs.filter (fun e => e.1 / 256 != placeOf h)
    dropped := f.dropped.filter (fun e => e.1 / 256 != placeOf h)
    units := (f.units.map (fun e => if e.1 / 65536 = placeOf h then (e.1, { e.2 with testing := none, startSeq := none }) else e)).filter
      (fun e => e.2 != unitReset e.1) }

/-- A half held in reset or unpowered: its state is lost (03 R97, 01 R24). The bus that the arbiter follows is last seen here:
its times are kept for the hold of the coming switch (09 R294, R295). A peer in SOLO has no D beside a half that is OFF
(09 R310). -/
def State.dropHalf (s : State) (h : Half) : State :=
  let s1 := if s.busHalf = some h then
      { s with arb := { s.arb with last := Vector.ofFn (fun d : Fin 4 => some (s.busTime d)) } }
    else s
  let s2 := s1.setDiv h none
  let s3 := (if (s.half h.peer).role = .solo then s2.setDiv h.peer none else s2).setHalf h {}
  { s3 with flt := dropMessages h s3.flt }

/-! ## Key operations cut short (16 R513, R514) -/

def State.slotKey (s : State) (n : KeyNo) : KeySlot := s.keys.slots.get n

def State.setSlotKey (s : State) (n : KeyNo) (k : KeySlot) : State :=
  { s with keys := { s.keys with slots := setAt s.keys.slots n k } }

/-- The key operations in flight, by opcode (15 R481). -/
def Op.isKey (o : Op) : Bool := o.opcode == 0x30 || o.opcode == 0x31
def Op.keySlot (o : Op) : Nat := bits (o.word 1) 5 0
def Op.isMint (o : Op) : Bool := o.opcode == 0x32

/-- Generation g − 1 of a slot is withdrawn, and its bank holds what the operation has left in it (16 R513, 14 R454). -/
def withdrawPrev (n : KeyNo) (left : Bank) (s : State) : State :=
  let k := s.slotKey n
  let ix : Fin 2 := if bit (k.gen + 1) 0 then 1 else 0
  s.setSlotKey n { k with prev := none, banks := setAt k.banks ix left }

/-- The bank of a key operation that ends between its step 4 and its flip: written whole for generation g + 1, which the header
word does not name. No load takes it, so that its label or key is left out (16 R511, R513). -/
def leftBank (o : Op) (s : State) : Bank :=
  { valid := true, gen := (s.slotKey (Fin.ofNat 64 o.keySlot)).gen + 1, attr := o.word 2, imported := o.opcode == 0x31 }

/-- A key operation ends short of its flip: before step 2 of 16 R513, after it, or with the bank written (16 R514). -/
def keyCutAt (how : Nat) (o : Op) (s : State) : State :=
  if how = 0 then s
  else withdrawPrev (Fin.ofNat 64 o.keySlot) (if how = 1 then {} else leftBank o s) s

/-- An operation in flight ends short of its flip: how far a key operation had come is open (15 R481; log entry 150). -/
def keyCut (o : Op) (s : State) : State :=
  if o.isKey then
    let pr := s.draw 3
    keyCutAt pr.1 o pr.2
  else s

/-- The key operations in flight that satisfy `which` end short of their flips. -/
def cutKeys (which : Op → Bool) (s : State) : State :=
  (s.opList.filter (fun e => s.inFlight e.2 && !e.2.committed && which e.2)).foldl (fun a e => keyCut e.2 a) s

/-- Key slots as the Belrex store keeps them through a reset: the key store's material is gone (16 R510). -/
def KeySlot.unload (k : KeySlot) : KeySlot := { k with loaded := false, cur := none, prev := none }

/-- What outlives a chip reset: the island, the fuses, the Belrex store, the flash, and the model's own record of
outputs and time (03 R94, 16 R499, R506, 18 R557). -/
def State.afterChipReset (s : State) : State :=
  { State.reset with
    pending := s.pending
    fresh := s.fresh
    now := s.now
    outs := s.outs
    ident := s.ident
    models := s.models.map (fun (m : ModelTab) => { m with words := m.stored, pend := [] })
    ftn := { State.reset.ftn with stored := s.ftn.stored, hashNo := s.ftn.hashNo + 1, hash := some (s.ftn.hashNo + 1) }
    pwr := { s.pwr with half := ⟨.off, .off⟩, startStep := 2, vaux := false, vauxFold := false, pcieUp := false,
                        lathClock := false, warned := [], waitOff := ⟨false, false⟩ }
    keys := { State.reset.keys with
              slots := s.keys.slots.map KeySlot.unload
              tampCfg := s.keys.tampCfg
              latch := s.keys.latch
              raw := s.keys.raw
              tampTime := s.keys.tampTime
              erasePend := s.keys.erasePend || s.keys.erasing
              fuse := s.keys.fuse }
    mgt := { State.reset.mgt with
             bootCtl := s.mgt.bootCtl
             flash := s.mgt.flash
             policy := s.mgt.policy
             startup := s.mgt.startup
             tamperRec := s.mgt.tamperRec
             log := s.mgt.log
             logSeq := s.mgt.logSeq } }

/-- REDUCED becomes RUN once both halves are powered and out of reset (03 R106). -/
def State.settleUp (s : State) : State :=
  if s.pwr.state = .reduced ∧ s.halfOn .A = true ∧ s.halfOn .B = true then
    { s with pwr := { s.pwr with state := .run } }
  else s

/-- RUN becomes REDUCED when a half is unpowered or held in reset (03 R106). -/
def State.settleDown (s : State) : State :=
  if s.pwr.state = .run then { s with pwr := { s.pwr with state := .reduced } } else s

/-- A log record of type POWER (18 R578). -/
def State.logPower (s : State) (lastGasp : Bool) : State :=
  s.logRec 0x0005 (s.pwr.lastCause + if lastGasp then 16 else 0)

/-- A chip reset or RESET_N, with its cause (03 R94, R106, 17 R537): everything but the island restarts at
start-up step 3; the module stays SEALED while the tamper latch is set, and then PCIe trains again (03 R107). With the latch
cleared a reset of any cause leaves SEALED (log entry 181). Key operations in flight keep their slots' generation g (16 R514). -/
def State.chipReset (s : State) (cause : Nat) : State :=
  let t := (cutKeys (fun _ => true) s).afterChipReset
  let st :=
    match s.pwr.state with
    | .standby => PwrState.standby
    | .sealed => if s.keys.latch = 0 then PwrState.boot else PwrState.sealed
    | _ => PwrState.boot
  { t with pwr := { t.pwr with state := st, lastCause := cause,
                               startStep := if s.pwr.state = .standby then s.pwr.startStep else 2, pcieUp := st == .sealed }
           parts := if st = .sealed then t.parts.map (fun p => { p with linkUp := true, bme := true }) else t.parts }

/-- Both feeds lost: STANDBY, with the island alone running (01 R37, 03 R106, R109). The last-gasp record goes
straight to the event log ring; queued records are lost (18 R580, R582). -/
def State.toStandby (s : State) : State :=
  let r := s.record 0x0005 (1 + 16)
  let b := (cutKeys (fun _ => true) s).afterChipReset
  { b with
    pwr := { b.pwr with state := .standby, startStep := 1, lastCause := 1, vaux := false }
    mgt := { b.mgt with log := (b.mgt.log ++ [LogStored.mk b.mgt.logSeq r true]).drop (b.mgt.log.length + 1 - 6144)
                        logSeq := b.mgt.logSeq + 1 } }

/-- Power a half from its feed: it starts held in reset (01 R38, 03 R98, R108). -/
def State.powerHalf (s : State) (h : Half) : State :=
  { s with pwr := { s.pwr with half := s.pwr.half.set h .held, waitOff := s.pwr.waitOff.set h false } }

/-- Halves may be powered: start-up step 5 is complete and the half's feed and junction allow it (03 R98, R108, R110). -/
def State.mayPower (s : State) (h : Half) : Bool :=
  decide (5 ≤ s.pwr.startStep) && (s.pwr.feeds.of h).detected && !(s.pwr.halfHot.of h) && !s.pwr.resetLow

end Sys2Proof.Machine
end

