-- ==== Sys2Proof/Machine/Keys.lean ====
section
/-!
DEFINITION. Derivation, key slots, key operations, zeroise and tamper (16).
-/

namespace Sys2Proof.Machine

/-! ## Derivation (R500, R504, R505) -/

/-- The secret that derivation uses in a lifecycle state (R500). -/
def secretOf (lifecycle : Nat) : Option (List Byte) :=
  if lifecycle = 1 then some Config.rootSecret
  else if lifecycle = 0 ∨ lifecycle = 2 then some (List.replicate 32 0)
  else none

/-- Octets of ASCII text. -/
def ascii (t : String) : List Byte := t.toList.map (fun c => BitVec.ofNat 8 c.toNat)

def measBytes (m : BitVec 384) : List Byte := beBytes 48 m.toNat

/-- MEAS0 to MEAS7 one after another, 384 octets (R504). -/
def allMeas (s : State) : List Byte := s.keys.meas.toList.flatMap measBytes

/-- HKDF-SHA-384 of R504 with the module's secret. -/
def deriveKey (s : State) (bound : Bool) (info : List Byte) (len : Nat) : List Byte :=
  match secretOf s.lifecycle with
  | none => []
  | some ikm => Config.hkdf384 (if bound then allMeas s else List.replicate 48 0) ikm info len

/-- ATTR fields (R508). -/
def attrOwner (a : Word) : Nat := bits a 2 0
def attrLen (a : Word) : Nat := 16 * (bits a 11 10 + 1)
def attrBound (a : Word) : Bool := bit a 8
def attrSigver (a : Word) : Bool := bit a 7
def attrHmac (a : Word) : Bool := bit a 5
def attrSiv (a : Word) : Bool := bit a 4

/-- Material of a bank: derived under R504, or unwrapped under K_wrap (R505, R510). -/
def bankMaterial (s : State) (n : KeyNo) (b : Bank) : List Byte :=
  if b.imported then Config.aesUnwrap (s.keys.kwrap.getD []) b.body
  else
    deriveKey s (attrBound b.attr)
      (ascii "IFL9740-KS" ++ [BitVec.ofNat 8 n.val] ++ beBytes 2 (bits b.attr 15 0) ++ b.body) (attrLen b.attr)

/-- The integrity tag of a bank (R506). -/
def bankTag (s : State) (n : KeyNo) (b : Bank) : BitVec 64 :=
  let data := [BitVec.ofNat 8 n.val] ++ leBytes 4 b.gen.toNat ++ leBytes 4 b.attr.toNat ++
    [if b.imported then 1 else 0] ++ b.body
  (Config.hmac384 (s.keys.kint.getD []) data).extractLsb' 320 64

def KeySlot.bankOf (k : KeySlot) (g : Word) : Bank := k.banks.get (if bit g 0 then 1 else 0)

/-- The bank of the generation in force. -/
def KeySlot.curBank (k : KeySlot) : Bank := k.bankOf k.gen

/-- STATE of a slot record: 0 EMPTY, 1 VALID, 2 ZEROISED, 3 BADSLOT (R509, R527). -/
def KeySlot.stateCode (k : KeySlot) : Nat :=
  if k.zeroised then 2 else if !k.used then 0 else if k.badslot then 3 else 1

/-- The owner of a slot: of its ATTR when VALID or BADSLOT, else the partition policy's (R509). -/
def KeySlot.ownerCode (k : KeySlot) : Nat :=
  if k.stateCode = 1 ∨ k.stateCode = 3 then attrOwner k.curBank.attr else k.policyOwner.toNat

/-- A slot is usable: VALID with its material loaded, in a module that is not SEALED (R509, R524). -/
def State.keyUsable (s : State) (n : KeyNo) : Bool :=
  let k := s.slotKey n
  k.stateCode == 1 && k.loaded && s.pwr.state != .sealed

/-- The event log record of type KEY (18 R578). -/
def State.logKey (s : State) (n : KeyNo) (ev : Nat) (gen : Word) : State :=
  s.logRec 0x0006 (n.val + 2 ^ 8 * 2 ^ ev + 2 ^ 32 * gen.toNat)

/-- A bank's tag is good for the generation it stands for: the tag covers the generation (R506), so a bank written for another
fails. -/
def bankGood (s : State) (n : KeyNo) (b : Bank) (g : Word) : Bool := b.valid && b.gen == g && b.tag == bankTag s n b

/-- Load one slot's material from its banks (R511). -/
def loadSlot (s : State) (n : KeyNo) : State :=
  let k := s.slotKey n
  if k.stateCode = 1 then
    let b := k.curBank
    if bankGood s n b k.gen then
      let p := k.bankOf (k.gen + 1)
      let k1 := { k with loaded := true, cur := some (bankMaterial s n b) }
      if p.valid then
        if bankGood s n p (k.gen - 1) then s.setSlotKey n { k1 with prev := some (bankMaterial s n p) }
        else
          let ix : Fin 2 := if bit (k.gen + 1) 0 then 1 else 0
          (s.setSlotKey n { k1 with prev := none, banks := setAt k.banks ix { p with valid := false } }).setEvt pgKey evTorn
      else s.setSlotKey n k1
    else ((s.setSlotKey n { k with badslot := true, loaded := false, cur := none, prev := none }).setEvt pgKey evBadslot).logKey
      n evBadslot k.gen
  else s

def allKeys : List KeyNo := List.finRange 64

/-- Load the key store (R511); not in SEALED (R525). -/
def loadStore (s : State) : State :=
  if s.pwr.state = .sealed then s
  else
    let t := allKeys.foldl loadSlot s
    ({ t with keys := { t.keys with storeLoaded := true } }).setEvt pgKey evStoreLoaded

/-! ## Key operations (R512 to R515) -/

/-- A key unit in service: neither fenced nor under test (16 KEY_STAT.UNITS, 17 R540). -/
def keyUnitOk (s : State) (u : Nat) : Bool := !s.unitBusy pgKey (BitVec.ofNat 8 u)

/-- The unit that serves an operation; the choice between two units in service is free (log entry 15). -/
def keyUnitOf (s : State) (t : Tag) : Nat :=
  if keyUnitOk s 0 && keyUnitOk s 1 then (if Config.keyUnit t.val ((s.op? t).elim 0 Op.order) then 1 else 0)
  else if keyUnitOk s 0 then 0 else 1

/-- The first status of R512 that applies, or none when the operation is accepted. `len` is LABEL_LEN or KEY_LEN. -/
def keyRequire (s : State) (p : Part) (n : KeyNo) (attr : Word) (replace : Bool) (len : Nat) : Option Byte :=
  let k := s.slotKey n
  if s.pwr.state = .sealed then some stTamper
  else if !keyUnitOk s 0 && !keyUnitOk s 1 then some stRetry
  else if k.ownerCode ≠ p.val ∨ attrOwner attr ≠ p.val then some stAccessRefused
  else if k.stateCode = 3 then some stBadslot
  else if attr &&& 0xFFFFF008 ≠ 0 ∨ attr &&& 0xF0 = 0 ∨ (attrSigver attr ∧ !replace) ∨ (attrBound attr ∧ replace) ∨
      (replace ∧ len ≠ attrLen attr) ∨ (!replace ∧ (len = 0 ∨ 64 < len)) then some stInvalidField
  else if k.gen = 0xFFFFFFFF then some stRefusedState
  else none

/-- Steps 2 to 7 of R513: the bank for g + 1 written and checked, the generation flipped, the key store updated. -/
def commitKey (s : State) (n : KeyNo) (attr : Word) (imported : Bool) (body : List Byte) : State :=
  let k := s.slotKey n
  let g := k.gen + 1
  let a := if imported then attr ||| 0x1000 else attr
  let b0 : Bank := { valid := true, gen := g, attr := a, imported := imported, body := body }
  let b := { b0 with tag := bankTag s n b0 }
  let ix : Fin 2 := if bit g 0 then 1 else 0
  let k1 := { k with used := true, zeroised := false, badslot := false, gen := g, banks := setAt k.banks ix b,
                     loaded := true, prev := k.cur, cur := some (bankMaterial s n b), commitSec := s.pwr.rtcSec }
  (((s.setSlotKey n k1).setEvt pgKey evCommit).logKey n evCommit g).count 679 1

/-! ## Zeroise (R517) -/

/-- Zeroise one slot: material, banks and label are erased, and g is kept. -/
def zeroiseSlot (s : State) (n : KeyNo) : State :=
  let k := s.slotKey n
  let k1 := { k with used := true, zeroised := true, badslot := false, loaded := false, cur := none, prev := none,
                     banks := Vector.replicate 2 {} }
  (((s.setSlotKey n k1).setEvt pgKey evZeroised).logKey n evZeroised k.gen).count 680 1

/-- KEY_ZEROISE of one slot: a key operation on it short of its flip completes with REFUSED_STATE (R526). -/
def zeroiseOne (s : State) (n : KeyNo) : State :=
  zeroiseSlot (s.abortOps (fun o => o.isKey && o.keySlot == n.val) stRefusedState) n

/-- KEY_ZEROISE with ALL at 1. -/
def zeroiseAll (s : State) : State := allKeys.foldl zeroiseOne s

/-! ## Tamper (R519 to R525) -/

/-- The response KEY_TAMP_CFG gives a source: 0 OFF, 1 LOG, 2 SEAL, 3 ERASE (R520). -/
def tampResp (s : State) (src : Fin 9) : Nat := bits s.keys.tampCfg (2 * src.val + 1) (2 * src.val)

/-- Sources watched by the island in every power state (R519). -/
def islandSrc (src : Fin 9) : Bool := decide (src.val < 6)

/-- The PTP engine and the Fountain stop (13 R424, 14 R463): sessions are freed, the client table, the hash key and what waits to be
sent are erased. -/
def stopServing (s : State) : State :=
  { s with
    ptp := { s.ptp with sessions := [], late := Vector.replicate 4 [] }
    ftn := { s.ftn with table := [], hash := none, epoch := none, seq := 0 }
    ports := s.ports.map (fun (x : PortSt) => { x with msgs := [], follow := [], ntp := [], sealed := [] }) }

/-- A new mint epoch is committed to the Belrex store (14 R453). Epoch 0xFF_FFFF is never left. -/
def commitEpoch (s : State) : State :=
  if s.ftn.stored = 0xFFFFFF then s
  else { s with ftn := { s.ftn with stored := s.ftn.stored + 1 } }.count 681 1

def evEpochAdv : Nat := 4

/-- The Fountain takes the committed mint epoch into use, its sequence starting at 0 (14 R453, R465). -/
def useEpoch (s : State) : State :=
  { s with ftn := { s.ftn with epoch := some s.ftn.stored, seq := 0, mintBad := false } }.setEvt pgFtn evEpochAdv

/-- Enter SEALED (R521, R524): key store, K_wrap and K_int are zeroised, key operations and COOKIE_MINT in flight
complete with TAMPER, and PCIe trains if it has not (03 R107). -/
def sealModule (s : State) : State :=
  let s1 := (cutKeys (fun _ => true) s).abortOps (fun o => o.isKey || o.isMint) stTamper
  let ks : Keys :=
    { s1.keys with slots := s1.keys.slots.map KeySlot.unload, kint := none, kwrap := none, storeLoaded := false }
  let pw : Pwr := { s1.pwr with state := .sealed, pcieUp := true }
  let s2 : State := { s1 with keys := ks, pwr := pw }
  let s3 : State := if s.pwr.pcieUp then s2 else { s2 with parts := s2.parts.map (fun p => { p with linkUp := true, bme := true }) }
  stopServing (s3.evtIf (s.pwr.state != .sealed) pgKey evSealed)

/-- A tamper source asserts and its response is applied (R519 to R523). -/
def tamperSource (src : Fin 9) (s : State) : State :=
  let feed := s.pwr.feeds.a.detected || s.pwr.feeds.b.detected
  if !feed && !islandSrc src then s
  else
    let bitW : BitVec 9 := BitVec.ofNat 9 (2 ^ src.val)
    let s0 := { s with keys := { s.keys with raw := s.keys.raw ||| bitW } }
    let r := tampResp s src
    if r = 0 then s0
    else if r = 1 then
      if s.pwr.state = .standby then s0
      else
        ((s0.logRec 0x0004 (2 ^ src.val + 2 ^ 16)).setEvt pgKey evTamperLog).fault 3 pgKey kTamper sevError
          (Config.detectorOf pgKey kTamper) 0
    else
      let t := if s.keys.latch = 0 then s.pwr.rtcSec else s.keys.tampTime
      let s1 := { s0 with keys := { s0.keys with latch := s0.keys.latch ||| bitW, tampTime := t } }
      if s.pwr.state = .standby then
        { s1 with keys := { s1.keys with erasePend := s1.keys.erasePend || r == 3 } }
      else
        let s2 := sealModule { s1 with keys := { s1.keys with erasing := s1.keys.erasing || r == 3 },
                                       pwr := { s1.pwr with lastCause := 6 } }
        (s2.logRec 0x0004 (2 ^ src.val + 2 ^ 16 * r)).fault 3 pgKey kTamper sevError (Config.detectorOf pgKey kTamper) 0

/-- The ERASE of every slot's banks in the Belrex store completes (R523). -/
def eraseComplete (s : State) : State :=
  if s.keys.erasing then
    let t := allKeys.foldl zeroiseSlot s
    { t with keys := { t.keys with erasing := false, erasePend := false } }
  else s

def execTamper (src : Fin 9) (s : State) : Host.Outcome State Fault Refusal := .next (tamperSource src s)
def execEraseComplete (s : State) : Host.Outcome State Fault Refusal := .next (eraseComplete s)

end Sys2Proof.Machine
end

