-- ==== Sys2Proof/Machine/Queues.lean ====
section
/-!
DEFINITION. Host queues: doorbells, fetching, fences, completions, partition reset, and the operations on time,
keys, counters and the event log (15).
-/

namespace Sys2Proof.Machine

/-! ## Queue configuration (R472, R495) -/

def qBase (q : QNo) : Nat := 0x100 + q.val * 0x40

def qCfg (s : State) (p : Part) (q : QNo) : Word := s.reg (pgHp p) (qBase q + 0x10)

/-- EN of a queue. -/
def qEn (s : State) (p : Part) (q : QNo) : Bool := bit (qCfg s p q) 31

/-- A size field of 4 to 12, other values acting as the nearer limit (R495). -/
def clampLog2 (n : Nat) : Nat := if n < 4 then 4 else if 12 < n then 12 else n

def sqDepth (s : State) (p : Part) (q : QNo) : Nat := 2 ^ clampLog2 (bits (qCfg s p q) 3 0)
def cqDepth (s : State) (p : Part) (q : QNo) : Nat := 2 ^ clampLog2 (bits (qCfg s p q) 7 4)

/-- A doorbell error (R476). -/
def doorbellError (s : State) (p : Part) (q : QNo) (cause v : Nat) : State :=
  (s.modQueue p q (fun x => { x with error := true, errCause := cause, errVal := v })).setEvt (pgHp p) (evQError q)

/-- A write of SQ_TAIL (R473, R476). -/
def doSqTail (s : State) (p : Part) (q : QNo) (v : Word) : State :=
  let t := bits v 11 0
  let s1 := s.count (cntPart p 8) 1
  if sqDepth s p q ≤ t then doorbellError s1 p q 1 t else s1.modQueue p q (fun x => { x with sqTail := t })

/-- A write of CQ_HEAD (R474, R476): it may return no slot that the device has not written. -/
def doCqHead (s : State) (p : Part) (q : QNo) (v : Word) : State :=
  let h := bits v 11 0
  let d := cqDepth s p q
  let x := s.queue p q
  let s1 := s.count (cntPart p 8) 1
  let back := (h + d - x.cqHead) % d
  if d ≤ h ∨ (x.cqTail + d - x.cqHead) % d < back then doorbellError s1 p q 2 h
  else s1.modQueue p q (fun y => { y with cqHead := h, unacked := y.unacked - back })

/-- The operations that a disable cancels while they are in flight (R477): an ALARM_SET that sets an alarm, and an EVENT_ARM in
ONCE mode, dispatched or not yet. -/
def Op.isWait (o : Op) : Bool :=
  (o.opcode == 0x12 && !bit (o.word 1) 8) || (o.opcode == 0x11 && bits (o.word 1) 9 8 == 1)

/-- A write of CFG (R477): EN, and, only while EN and RUNNING are 0, the sizes. -/
def doQCfg (s : State) (p : Part) (q : QNo) (v : Word) : State :=
  let pg := pgHp p
  let off := qBase q + 0x10
  let old := qCfg s p q
  let run := (s.queue p q).running
  let active := bit old 31 || run
  let sizes : Word := 0xFF
  let newSize := if active then old &&& sizes else v &&& sizes
  let ignored := active && decide (v &&& sizes ≠ old &&& sizes)
  let en := if bit v 31 then (if run then bit old 31 else true) else false
  let w := (v &&& 0x00011F00) ||| newSize ||| flagAt en 31
  let s1 := (s.setReg pg off w).evtIf ignored pg evCfgIgnored
  if en && !run then
    s1.modQueue p q (fun x => { x with running := true, error := false })
  else if !en && bit old 31 then
    (s1.abortOps (fun o => o.part == p && o.q == q && o.isWait) stCancelled).modQueue p q (fun x => { x with error := false })
  else s1

/-- A write to a base register while EN or RUNNING is 1 is ignored (R477). -/
def doQBase (s : State) (p : Part) (q : QNo) (off : Nat) (v mask : Word) : State :=
  if qEn s p q || (s.queue p q).running then s.setEvt (pgHp p) evCfgIgnored
  else s.setReg (pgHp p) off (v &&& mask)

/-! ## Fetching and dispatch (R471, R478, R480, R483) -/

def knownOpcode (n : Nat) : Bool := [0x00, 0x01, 0x10, 0x11, 0x12, 0x20, 0x21, 0x30, 0x31, 0x32, 0x40, 0x41].contains n

/-- The tag an entry takes: some free tag, which one the spec does not say. -/
def freeTag (s : State) : Option Tag :=
  let k := Config.free s.fresh
  (List.finRange 512).find? (fun i => (s.op? (Fin.ofNat 512 (i.val + k))).isNone) |>.map (fun i => Fin.ofNat 512 (i.val + k))

/-- A queue has an entry to fetch (R471, R473, R476, R477, R498). -/
def queueAsks (s : State) (p : Part) (q : QNo) : Bool :=
  let x := s.queue p q
  s.hostUp p && !(s.part p).paused && qEn s p q && x.running && !x.error && x.sqHead != x.sqTail

/-- A partition has its reserve of 64 tags in use and needs a shared one (R471). -/
def needsShared (s : State) (p : Part) : Bool := decide (64 ≤ (s.opList.filter (fun e => e.2.part == p && !e.2.shared)).length)

/-- A tag may be had for a queue: it holds fewer than 64, and the reserve or the 256 shared ones are not used up (R471). -/
def tagMayBe (s : State) (p : Part) (q : QNo) : Bool :=
  decide ((queueOps s p q).length < 64) && !(needsShared s p && decide (256 ≤ (s.opList.filter (fun e => e.2.shared)).length))

/-- A queue can fetch now. -/
def canFetch (s : State) (p : Part) (q : QNo) : Bool := queueAsks s p q && tagMayBe s p q

/-- It is a queue's turn among those of its partition that can fetch (R478). -/
def queueTurn (s : State) (p : Part) (q : QNo) : Bool :=
  let place (r : QNo) : Nat := roundPlace 8 (s.part p).turn.val r.val
  (List.finRange 8).all (fun r => !canFetch s p r || decide (place q ≤ place r))

/-- It is a partition's turn among those that ask for a shared tag (R478); the turn at the shared tags stands with the DEV page. -/
def tagTurn (s : State) (p : Part) : Bool :=
  let place (r : Part) : Nat := roundPlace 4 (s.page pgDev).turn.val r.val
  (List.finRange 4).all (fun r =>
    !(needsShared s r && (List.finRange 8).any (fun q => canFetch s r q)) || decide (place p ≤ place r))

/-- Fetch one submission entry (R471, R473, R478, R480): its tag comes from the partition's reserve of 64 first, else
from the shared 256, and a queue holds at most 64. A FENCE with APPLY notes the buffered writes that have reached its
page, and whether the page is held (R483). -/
def entryFetch (p : Part) (q : QNo) (entry : Vector Word 16) (s : State) : State :=
  let x := s.queue p q
  if queueAsks s p q then
    let useShared := needsShared s p
    if !tagMayBe s p q then s.count (cntPart p 10) 1
    else if !queueTurn s p q || (useShared && !tagTurn s p) then s
    else
      match freeTag s with
      | none => s.count (cntPart p 10) 1
      | some t =>
        let e : Op := { part := p, q := q, words := entry, order := x.nextOrder, shared := useShared }
        let o : Op := match e.fencePage with
          | some pg => { e with fenceWait := some (s.page pg).bufCnt, heldSeen := (s.page pg).hold }
          | none => e
        let s1 := ({ s with fresh := s.fresh + 1 }.setOp t (some o)).modQueue p q
          (fun y => { y with sqHead := (y.sqHead + 1) % sqDepth s p q, nextOrder := y.nextOrder + 1 })
        let s2 := (s1.modPart p (fun y => { y with turn := q })).count (cntPart p 0) 1
        let s3 := if useShared then s2.modPage pgDev (fun y => { y with turn := p }) else s2
        if knownOpcode o.opcode then s3 else s3.finish t stInvalidOp
  else s

/-- The operation under a tag when it has this opcode and may be dispatched now (R478, R483). -/
def dispatchable (s : State) (t : Tag) (code : Nat) : Option Op :=
  match s.op? t with
  | none => none
  | some o => if o.opcode == code && s.asks o && s.engineTurn o then some o else none

/-- NOP completes at dispatch. -/
def opNop (t : Tag) (s : State) : State :=
  match dispatchable s t 0x00 with
  | none => s
  | some _ => s.finish t stOk

/-- FENCE (R481, R483): with APPLY the page must be visible. -/
def opFence (t : Tag) (s : State) : State :=
  match dispatchable s t 0x01 with
  | none => s
  | some o =>
    let s0 := s.count (cntPart o.part 7) 1
    let pg := bits (o.word 1) 15 8
    if bit (o.word 1) 0 then
      if (pageKind pg).isNone || !s.visible o.part pg then s0.finish t stAccessRefused
      else s0.setOp t (some { o with phase := .waiting })
    else s0.setOp t (some { o with phase := .waiting })

/-- The waits of a FENCE are satisfied and it completes (R483): every earlier completion of the queue is written;
with APPLY, the noted writes are in force or discarded, or HOLD, now or seen since the fetch, refuses. -/
def fenceComplete (t : Tag) (s : State) : State :=
  match s.op? t with
  | none => s
  | some o =>
    if o.opcode == 0x01 && o.phase == .waiting && (queueOps s o.part o.q).all (fun e => o.order ≤ e.2.order) then
      match o.fenceWait with
      | none => s.finish t stOk
      | some n =>
        let pg := bits (o.word 1) 15 8
        let p := s.page pg
        if p.hold || o.heldSeen then s.finish t stRefusedState
        else if n ≤ p.doneMark then
          s.finish t stOk (noResult.set 0 (BitVec.ofNat 32 p.applySeq.toNat))
        else s
    else s

/-- The time result of R488, dwords 2 to 7. -/
def timeResult (t st : Nat) (b : Code) (d : Dom) (h : Half) (extra : Word) : Vector Word 6 :=
  #v[BitVec.ofNat 32 (fracOf t), BitVec.ofNat 32 (nsOf t), BitVec.ofNat 32 (secOf t),
     fld (secOf t / 2 ^ 32 % 2 ^ 16) 0 ||| fld st 16, fld b.toNat 0, fld d.val 0 ||| fld h.ix.val 3 ||| extra]

def opDom (w : Word) (lo : Nat) : Dom := Fin.ofNat 4 (bits w (lo + 1) lo)

/-- One of the host interface's two TIME_READ units can latch: detectors 3 and 4 of the partition's page (R485, R498). -/
def timeUnitFree (s : State) (p : Part) : Bool := !s.unitBusy (pgHp p) 3 || !s.unitBusy (pgHp p) 4

/-! ## Completions (R474, R475, R479, R488) -/

/-- The completion ready first in a queue; that of a FENCE waits for every earlier one (R483). -/
def nextReadyOp (s : State) (p : Part) (q : QNo) : Option (Tag × Op) :=
  (queueOps s p q).foldl (fun best e =>
    if e.2.isDone && !fenceWaits s e.2 then
      match best with
      | none => some e
      | some b => if e.2.ready < b.2.ready then some e else some b
    else best) none

def statusOf (o : Op) : Byte := match o.phase with | .done st => st | _ => 0

/-- The completion entry (R488). -/
def completionEntry (x : Queue) (q : QNo) (t : Tag) (o : Op) : List Byte :=
  let d0 := fld o.opcode 0 ||| fld (statusOf o).toNat 8 ||| fld o.cid 16
  let d1 := fld x.sqHead 0 ||| fld t.val 16 ||| fld q.val 28 ||| flagAt x.phase 31
  (d0 :: d1 :: o.result.toList).flatMap (fun w => leBytes 4 w.toNat)

/-- Write the next completion when the CQ has a free slot; the tag is returned (R471, R474, R475, R479). -/
def completionWrite (p : Part) (q : QNo) (s : State) : State :=
  let x := s.queue p q
  let d := cqDepth s p q
  match nextReadyOp s p q with
  | none => s
  | some (t, o) =>
    if s.hostUp p && x.running && (x.cqTail + 1) % d != x.cqHead then
      let addr := s.wideAt (pgHp p) (qBase q + 0x08) + x.cqTail * 32
      let s1 := (s.emit (.hostMem p addr (completionEntry x q t o))).setOp t none
      let wrap := (x.cqTail + 1) % d == 0
      let s2 := s1.modQueue p q (fun y =>
        { y with cqTail := (y.cqTail + 1) % d, phase := if wrap then !y.phase else y.phase, unacked := y.unacked + 1 })
      let st := statusOf o
      let s3 := s2.count (cntPart p (if st = stOk then 1 else 2)) 1
      let s4 := if st = stRetry then s3.count (cntPart p 13) 1 else if st = stTimeout then s3.count (cntPart p 14) 1
        else if st = stHostMemory then s3.count (cntPart p 15) 1 else s3
      let cnt := max 1 (bits (s.reg (pgHp p) (qBase q + 0x20)) 7 0)
      if bit (qCfg s p q) 16 && cnt ≤ x.unacked + 1 then s4.msix p (bits (qCfg s p q) 12 8) else s4
    else s

/-- TIME µs after the first completion not acknowledged (R479). -/
def irqCoalesce (p : Part) (q : QNo) (s : State) : State :=
  let x := s.queue p q
  if bit (qCfg s p q) 16 && 0 < x.unacked then s.msix p (bits (qCfg s p q) 12 8) else s

/-- Every tag of a disabled queue is returned (R477). -/
def qStopped (p : Part) (q : QNo) (s : State) : State :=
  if !qEn s p q && (s.queue p q).running && (queueOps s p q).isEmpty then
    (s.modQueue p q (fun x => { x with running := false, sqHead := 0, cqTail := 0, phase := true, unacked := 0 })).setEvt
      (pgHp p) (evQStopped q)
  else s

/-! ## Operations on time, keys, counters and the log -/

/-- TIME_READ latches the arbitrated time bus with its bound, in submission order within the queue (R484, R485). -/
def opTimeRead (t : Tag) (s : State) : State :=
  match dispatchable s t 0x10 with
  | none => s
  | some o =>
    let d := opDom (o.word 1) 0
    let s0 := s.count (cntPart o.part 3) 1
    if !s.visible o.part (pgTd d) then s0.finish t stAccessRefused
    else
      match s.busHalf with
      | none => s
      | some h =>
        if timeUnitFree s o.part &&
            (queueOps s o.part o.q).all (fun e => e.2.opcode != 0x10 || e.2.isDone || o.order ≤ e.2.order) then
          s0.finish t stOk (timeResult (s.busTime d) (s.busState d) (s.busBound d) d h 0)
        else s

/-- The result of a key operation: generation in force and slot (R488). -/
def keyResult (s : State) (n : KeyNo) : Vector Word 6 :=
  (noResult.set 0 (s.slotKey n).gen).set 1 (BitVec.ofNat 32 n.val)

/-- KEY_DERIVE and KEY_REPLACE (16 R512, R513): the requirements, then the label or key read from host memory, then
the commit. -/
def keyOp (t : Tag) (o : Op) (data : HostRead) (replace : Bool) (s : State) : State :=
  let n : KeyNo := Fin.ofNat 64 o.keySlot
  let attr := o.word 2
  let len := bits (o.word 3) 6 0
  let s0 := (s.served o).count (cntPart o.part 5) 1
  match keyRequire s0 o.part n attr replace len with
  | some st => s0.finish t st
  | none =>
    match data with
    | none => s0.finish t stHostMemory
    | some bs =>
      let s1 := if replace then commitKey s0 n attr true (Config.aesWrap (s0.keys.kwrap.getD []) (bs.take len))
        else commitKey s0 n attr false (bs.take len)
      s1.finish t stOk (keyResult s1 n)

def opKeyDerive (t : Tag) (label : HostRead) (s : State) : State :=
  match dispatchable s t 0x30 with
  | none => s
  | some o => keyOp t o label false s

def opKeyReplace (t : Tag) (key : HostRead) (s : State) : State :=
  match dispatchable s t 0x31 with
  | none => s
  | some o => keyOp t o key true s

/-- STATS_SNAPSHOT (19 R589): the range is latched at once and written to the buffer. -/
def opStatsSnapshot (t : Tag) (s : State) : State :=
  match dispatchable s t 0x40 with
  | none => s
  | some o =>
    let s := s.served o
    let first := bits (o.word 1) 9 0
    let n := bits (o.word 2) 10 0
    if !s.visible o.part pgCnt then s.finish t stAccessRefused
    else if n = 0 ∨ 1024 < n ∨ 1024 < first + n then s.finish t stInvalidField
    else
      let sq := s.cnt.snapSeq + 1
      let bytes := (List.range n).flatMap (fun i => leBytes 4 (s.cntVal (first + i)).toNat)
      let s1 := ({ s with cnt := { s.cnt with snapSeq := sq } }.setEvt pgCnt evSnapshot).emit (.hostMem o.part o.addr bytes)
      s1.finish t stOk ((noResult.set 0 (BitVec.ofNat 32 n)).set 1 sq)

/-! ### The event log's bytes (18 R577) -/

/-- CRC-32C over bytes, reflected, initial and final value all ones. -/
def crc32cByte (c : Nat) (b : Byte) : Nat :=
  (List.range 8).foldl (fun x _ => if x % 2 = 1 then (x / 2) ^^^ 0x82F63B78 else x / 2) (c ^^^ b.toNat)

def crc32c (l : List Byte) : Nat := (l.foldl crc32cByte 0xFFFFFFFF) ^^^ 0xFFFFFFFF

/-- The 32 bytes of a record. -/
def recordBytes (r : LogStored) : List Byte :=
  let b := r.body
  let l := leBytes 4 r.seq.toNat ++ leBytes 2 b.typ ++
    [(if b.rtc then 1 else 0) ||| (if b.injected then 2 else 0), 0] ++
    leBytes 6 b.sec ++ leBytes 2 0 ++ leBytes 4 b.ns ++ leBytes 8 b.data.toNat
  l ++ leBytes 4 (crc32c l)

/-- Records from START_SEQ in order, whole, within MAX_LEN; a record whose CRC fails at read is skipped
(18 R581, R584). Sequence order is that of the ring. -/
def logSlice (s : State) (start : Word) (maxLen : Nat) : List LogStored :=
  let base := (s.mgt.log.head?.map (·.seq)).getD 0
  let skip := if s.mgt.log.length ≤ (start - base).toNat then
      (if (start - base).toNat < 2 ^ 31 then s.mgt.log.length else 0) else (start - base).toNat
  ((s.mgt.log.drop skip).filter (·.crcOk)).take (maxLen / 32)

/-- LOG_READ (18 R581). The sequence after the last record where none is written, and the oldest one where none is held, are free
(log entry 227). -/
def opLogRead (t : Tag) (s : State) : State :=
  match dispatchable s t 0x41 with
  | none => s
  | some o =>
    let s := s.served o
    let maxLen := bits (o.word 2) 18 0
    if !s.visible o.part pgMgt then s.finish t stAccessRefused
    else if maxLen < 64 ∨ 262144 < maxLen then s.finish t stInvalidField
    else
      let rs := logSlice s (o.word 1) maxLen
      let bytes := rs.flatMap recordBytes
      let after := match rs.getLast? with
        | some r => r.seq + 1
        | none => BitVec.ofNat 32 (Config.free s.fresh)
      let oldest := match s.mgt.log.head? with
        | some r => r.seq
        | none => BitVec.ofNat 32 (Config.free (s.fresh + 1))
      let s0 := { s with fresh := s.fresh + 2 }
      let s1 := if bytes.isEmpty then s0 else s0.emit (.hostMem o.part o.addr bytes)
      s1.finish t stOk (((noResult.set 0 (BitVec.ofNat 32 bytes.length)).set 1 after).set 2 oldest)

/-- A host-memory read failed or passed the PCIe completion timeout (R489, 17 R545). -/
def pcieTimeout (t : Tag) (s : State) : State :=
  match s.op? t with
  | none => s
  | some o =>
    if [0x20, 0x30, 0x31, 0x32].contains o.opcode && o.phase == .fetched && !fenced s o then s.finish t stHostMemory else s

/-! ## Partition reset (R491, 02 R49) -/

/-- The partition's page after a partition reset: reset values, with owner and lock kept (R491, 02 R49). -/
def resetPartPage (pg : Nat) (p : Page) : Page := { Page.reset pg with owner := p.owner, vis := p.vis, lock := p.lock }

/-- Every page's trio of one partition returned to reset (02 R49). -/
def resetTrios (s : State) (p : Part) : State :=
  (keysOf s.pages).foldl (fun a pg => a.modPage pg (fun x => { x with trio := setAt x.trio p {} })) s

/-- A partition reset (R491): its operations end, every tag is returned, its alarms, arms and waiting frames go, its queues, page
and trios return to reset; the vector map, the bus-error log and what reads of other pages left held are kept (02 R49), and so is
BAR2, which is no part of the page (log entry 223). The
flushed crossing reports how many entries it lost (02 R86): every operation that held a tag, in the location field
(log entries 175, 176). -/
def partitionReset (p : Part) (s : State) : State :=
  let mine := s.opList.filter (fun e => e.2.part == p)
  let s1 := mine.foldl (fun a e => (a.disarmTag e.1).setOp e.1 none) (cutKeys (fun o => o.part == p) s)
  let s2 := s1.setPage (pgHp p) (resetPartPage (pgHp p) (s1.page (pgHp p)))
  let old := s.part p
  let s3 := resetTrios s2 p
  let s4 := s3.setPart p { old with queues := Vector.replicate 8 {}, paused := false, mbxDone := false }
  let s5 := { s4 with caps := s4.caps.map (fun (y : CapSt) => if y.mode ≠ 0 ∧ y.part = p then { y with mode := 0, tag := none } else y) }
  let s6 := (List.finRange 16).foldl (fun a n => a.dropFrames n (fun e => e.part == p) (fun _ b => b)) s5
  s6.fault 0 (pgHp p) kXingFlush sevWarning 2 (BitVec.ofNat 24 mine.length)

def execEntryFetch (p : Part) (q : QNo) (entry : Vector Word 16) (s : State) : Host.Outcome State Fault Refusal :=
  .next (entryFetch p q entry s)
def execNop (t : Tag) (s : State) : Host.Outcome State Fault Refusal := .next (opNop t s)
def execFence (t : Tag) (s : State) : Host.Outcome State Fault Refusal := .next (opFence t s)
def execFenceComplete (t : Tag) (s : State) : Host.Outcome State Fault Refusal := .next (fenceComplete t s)
def execTimeRead (t : Tag) (s : State) : Host.Outcome State Fault Refusal := .next (opTimeRead t s)
def execStatsSnapshot (t : Tag) (s : State) : Host.Outcome State Fault Refusal := .next (opStatsSnapshot t s)
def execLogRead (t : Tag) (s : State) : Host.Outcome State Fault Refusal := .next (opLogRead t s)
def execCompletionWrite (p : Part) (q : QNo) (s : State) : Host.Outcome State Fault Refusal := .next (completionWrite p q s)
def execIrqCoalesceTimeout (p : Part) (q : QNo) (s : State) : Host.Outcome State Fault Refusal := .next (irqCoalesce p q s)
def execQStopped (p : Part) (q : QNo) (s : State) : Host.Outcome State Fault Refusal := .next (qStopped p q s)
def execPcieCompletionTimeout (t : Tag) (s : State) : Host.Outcome State Fault Refusal := .next (pcieTimeout t s)

end Sys2Proof.Machine
end

