-- ==== Sys2Proof/Machine/Capture.lean ====
section
/-!
DEFINITION. Issuing time from the arbitrated bus, capture inputs and alarms (10).
-/

namespace Sys2Proof.Machine

/-! ## Issuing time (01 R27, R33; 08 R277) -/

/-- The arbitrated time of a domain `ps` after the latest CLK_CORE edge. It is a free value while no half is followed,
or where corrections take it below 0. -/
def State.issue (s : State) (d : Dom) (ps : Int) : Nat × State :=
  let v := (s.busTime d : Int) + ps * (2 ^ 62 : Nat) / 1000
  if s.busHalf.isNone ∨ v < 0 then s.draw (2 ^ 48 * secondT) else (v.toNat, s)

/-- The total issued with a level 7 in ps (08 R277). -/
def State.present (s : State) (d : Dom) (ps : Rat) : Code := addBound (s.busBound d) ps

/-- A bound code in a register field, in ps. -/
def State.codeAt (s : State) (pg off hi lo : Nat) : Rat := codePs (BitVec.ofNat 16 (s.fieldAt pg off hi lo))

def State.cap (s : State) (c : CapNo) : CapSt := s.caps.get c
def State.modCap (s : State) (c : CapNo) (f : CapSt → CapSt) : State := { s with caps := modAt s.caps c f }

def State.followHalf (s : State) : Half := s.busHalf.getD .A

/-! ## Capture inputs (R333 to R338, R345 to R348) -/

def evCaptured : Nat := 0
def evCapOvf : Nat := 1
def evMissed : Nat := 2
def evOnceDone : Nat := 3

/-- The edge an arm selects: 0 RISE, 1 FALL, 2 BOTH. -/
def CapSt.selects (x : CapSt) (rising : Bool) : Bool := x.edge == 2 || x.edge == (if rising then 0 else 1)

/-- A capture is stored in the FIFO, or dropped when it holds 64 (R336). -/
def storeCapture (c : CapNo) (e : CapEnt) (s : State) : State :=
  let x := s.cap c
  if x.fifo.length < 64 then
    let s1 := s.modCap c (fun y => { y with fifo := y.fifo ++ [{ e with lost := min 255 y.lostPend }], lostPend := 0 })
    s1.evtIf x.fifo.isEmpty (pgCap c) evCaptured
  else
    let s1 := s.modCap c (fun y => { y with ovf := true, lost := y.lost + 1, lostPend := y.lostPend + 1 })
    (s1.setEvt (pgCap c) evCapOvf).count (cntCap c 1) 1

/-- An edge at a capture input: `sub` ps after the latest CLK_CORE edge, `sinceNs` whole ns after the latest captured
edge (R333 to R337). A fenced input captures nothing (R325). -/
def captureEdge (c : CapNo) (rising : Bool) (sub sinceNs : Nat) (s : State) : State :=
  let x := s.cap c
  let pg := pgCap c
  let r := rising != s.bitAt pg 0x040 0
  if x.mode = 0 ∨ (s.unit pg 0).fenced = true ∨ x.selects r = false then s
  else if x.edged ∧ sinceNs < 10 then
    ((s.modCap c (fun y => { y with missed := y.missed + 1 })).setEvt pg evMissed).count (cntCap c 2) 1
  else
    let pr := s.issue x.dom ((sub : Int) - s.sfieldAt pg 0x044 31 0)
    let t := pr.1
    let s1 := pr.2
    let b := if x.latchBad || s.unitBusy pg 0 then 0xFFFF else s.present x.dom (s.codeAt pg 0x048 15 0)
    let s2 := (s1.modCap c (fun y => { y with seq := y.seq + 1, edged := true, latchBad := false })).count (cntCap c 0) 1
    if x.mode = 1 then
      let res := timeResult t (s.busState x.dom) b x.dom s.followHalf (flagAt r 9)
      let s3 := ((s2.modCap c (fun y => { y with mode := 0, tag := none })).setEvt pg evOnceDone).count (cntCap c 3) 1
      match x.tag with
      | some g => s3.finish g stOk res
      | none => s3
    else storeCapture c { t := t, dom := x.dom, bound := b, rising := r, seq := x.seq + 1, lost := 0 } s2

/-- An arm replaces the one in force; an outstanding ONCE on the input is cancelled (R335). -/
def rearm (c : CapNo) (f : CapSt → CapSt) (s : State) : State :=
  let s1 := match (s.cap c).tag with
    | some g => s.finish g stCancelled
    | none => s
  s1.modCap c (fun y => f { y with tag := none })

/-- EVENT_ARM (R335; 15 R481, R482, R486). -/
def opEventArm (t : Tag) (s : State) : State :=
  match dispatchable s t 0x11 with
  | none => s
  | some o =>
    let s := s.served o
    let c : CapNo := Fin.ofNat 8 (bits (o.word 1) 2 0)
    let d := opDom (o.word 1) 4
    let mode := bits (o.word 1) 9 8
    let edge := bits (o.word 1) 13 12
    if mode = 3 ∨ edge = 3 then s.finish t stInvalidField
    else if !s.owns o.part (pgCap c) || !s.visible o.part (pgTd d) then s.finish t stAccessRefused
    else if mode = 0 then (rearm c (fun y => { y with mode := 0 }) s).finish t stOk
    else
      let s1 := rearm c (fun y => { y with mode := mode, dom := d, edge := edge, part := o.part }) s
      if mode = 1 then (s1.modCap c (fun y => { y with tag := some t })).phase t .waiting else s1.finish t stOk

/-- Detections of a capture page (R348). -/
def captureDetection (c : CapNo) (det : Byte) (s : State) : State :=
  match detKind (.cap c.val) det.toNat with
  | none => s
  | some k =>
    let s1 := s.fault 0 (pgCap c) k (kindSev k) det (s.locFor (pgCap c) k det)
    if det = 1 then s1.modCap c (fun y =>
      { y with fifo := match y.fifo with | [] => [] | e :: r => { e with bound := 0xFFFF } :: r })
    else if det = 2 then s1.modCap c (fun y => { y with latchBad := true })
    else s1

/-! ## Alarms (R339 to R343) -/

def Op.alarmDom (o : Op) : Dom := opDom (o.word 1) 0
def Op.alarmNs (o : Op) : Nat := ((o.word 4).toNat + 2 ^ 32 * bits (o.word 5) 15 0) * 1000000000 + bits (o.word 3) 29 0
def Op.alarmFrac (o : Op) : Nat := (o.word 2).toNat

/-- The target is at or before the bus time: D < 0, or D = 0 with its fraction not above the bus fraction (R339). -/
def reached (s : State) (o : Op) : Bool :=
  let t := s.busTime o.alarmDom
  let d := (BitVec.ofNat 48 o.alarmNs - BitVec.ofNat 48 (t / 2 ^ 62)).toInt
  decide (d < 0) || (decide (d = 0) && decide (o.alarmFrac ≤ fracOf t))

/-- The completion of a fired alarm (R343, 15 R488): levels 1 to 6, as no stage adds a level 7. -/
def fireAlarm (t : Tag) (o : Op) (past : Bool) (s : State) : State :=
  let d := o.alarmDom
  s.finish t stOk (timeResult (s.busTime d) (s.busState d) (s.busBound d) d s.followHalf (flagAt past 8))

/-- Alarms of a partition that are outstanding. -/
def alarmsOf (s : State) (p : Part) : List (Tag × Op) :=
  s.opList.filter (fun e => e.2.part == p && e.2.opcode == 0x12 && e.2.phase == .waiting)

/-- ALARM_SET without the cancel flag (R339 to R342). -/
def opAlarmSet (t : Tag) (s : State) : State :=
  match dispatchable s t 0x12 with
  | none => s
  | some o =>
    if bit (o.word 1) 8 then s
    else if !s.visible o.part (pgTd o.alarmDom) then s.finish t stAccessRefused
    else if !s.busStepped o.alarmDom then s.finish t stRefusedState
    else if 16 ≤ (alarmsOf s o.part).length then s.finish t stResource
    else if reached s o then fireAlarm t o true s
    else s.phase t .waiting

/-- The oldest of several operations. -/
def oldestOp (l : List (Tag × Op)) : Option (Tag × Op) :=
  l.foldl (fun best e => match best with
    | none => some e
    | some b => if e.2.order < b.2.order then some e else some b) none

/-- ALARM_SET with the cancel flag. An alarm whose target the bus has reached fires, and its cancel finds none (R342, R345). -/
def opAlarmCancel (t : Tag) (s : State) : State :=
  match dispatchable s t 0x12 with
  | none => s
  | some o =>
    if !bit (o.word 1) 8 then s
    else
      match oldestOp ((alarmsOf s o.part).filter (fun e =>
          e.2.q.val == bits (o.word 1) 12 10 && e.2.cid == bits (o.word 1) 31 16)) with
      | some e =>
        if s.busHalf.isSome && reached s e.2 then (fireAlarm e.1 e.2 false s).finish t stNotFound
        else (s.finish e.1 stCancelled).finish t stOk
      | none => s.finish t stNotFound

/-- The bus reaches an alarm's target (R339, R343). -/
def alarmFire (t : Tag) (s : State) : State :=
  match s.op? t with
  | none => s
  | some o =>
    if o.opcode == 0x12 && o.phase == .waiting && s.busHalf.isSome && reached s o then fireAlarm t o false s else s

/-- A domain reset disarms the STREAM arms on the domain; FIFO entries stay (R345). -/
def disarmDomain (d : Dom) (s : State) : State :=
  { s with caps := s.caps.map (fun y => if y.dom = d then { y with mode := 0, tag := none } else y) }

def execCaptureEdge (c : CapNo) (rising : Bool) (sub sinceNs : Nat) (s : State) : Host.Outcome State Fault Refusal :=
  .next (captureEdge c rising sub sinceNs s)
def execEventArm (t : Tag) (s : State) : Host.Outcome State Fault Refusal := .next (opEventArm t s)
def execAlarmSet (t : Tag) (s : State) : Host.Outcome State Fault Refusal := .next (opAlarmSet t s)
def execAlarmCancel (t : Tag) (s : State) : Host.Outcome State Fault Refusal := .next (opAlarmCancel t s)
def execAlarmFire (t : Tag) (s : State) : Host.Outcome State Fault Refusal := .next (alarmFire t s)
def execCaptureDetection (c : CapNo) (det : Byte) (s : State) : Host.Outcome State Fault Refusal :=
  .next (captureDetection c det s)

end Sys2Proof.Machine
end

