-- ==== Sys2Proof/Machine/PortCfg.lean ====
section
/-!
DEFINITION. Which lanes a port's paths take, which ports are held disabled, and which ports a PTP or Fountain register
affects (12 R372, R373, R380; 02 R55).
-/

namespace Sys2Proof.Machine

def allPorts : List PortNo := List.finRange 16
def allLanes : List LaneNo := List.finRange 16

def State.lane (s : State) (n : LaneNo) : LaneSt := s.lanes.get n
def State.modLane (s : State) (n : LaneNo) (f : LaneSt → LaneSt) : State := { s with lanes := modAt s.lanes n f }

def State.speed (s : State) (p : PortNo) : Nat := s.fieldAt (pgLp p) 0x040 1 0
def State.paired (s : State) (p : PortNo) : Bool := s.bitAt (pgLp p) 0x040 8

/-- The first lane of a path, its reference lane (10 R320, 12 R372, R380). -/
def State.refLane (s : State) (p : PortNo) : PathAB → LaneNo
  | .A => p
  | .B => Fin.ofNat 16 (s.fieldAt (pgLp p) 0x040 15 12)

/-- The lanes of a path: four for SPEED 3. -/
def State.pathLanes (s : State) (p : PortNo) (a : PathAB) : List Nat :=
  let n := (s.refLane p a).val
  if a = .B ∧ s.paired p = false then [] else if s.speed p = 3 then [n, n + 1, n + 2, n + 3] else [n]

def meets (a b : List Nat) : Bool := a.any (fun x => b.contains x)

/-- A port that its own configuration holds disabled: misplaced lane groups, or one lane named twice (R373). -/
def State.selfHeld (s : State) (p : PortNo) : Bool :=
  (s.speed p == 3 && (p.val % 4 != 0 || (s.paired p && (s.refLane p .B).val % 4 != 0))) ||
    meets (s.pathLanes p .A) (s.pathLanes p .B)

/-- Port `q` takes lanes that port `p` names (R373). -/
def State.heldBy (s : State) (p q : PortNo) : Bool :=
  meets (s.pathLanes q .B) (s.pathLanes p .A) ||
    (decide (q.val < p.val) &&
      (meets (s.pathLanes q .A) (s.pathLanes p .A) || meets (s.pathLanes q .B) (s.pathLanes p .B)))

/-- The port is held disabled (R373). -/
def State.conflictNow (s : State) (p : PortNo) : Bool :=
  (s.page (pgLp p)).en && (s.selfHeld p ||
    allPorts.any (fun q => q != p && (s.page (pgLp q)).en && !s.selfHeld q && s.heldBy p q))

/-- The port runs: enabled, not held, with the common die on a half's clocks (01 R39, 02 R595, 04 R144, 12 R373). -/
def State.portUp (s : State) (p : PortNo) : Bool := (s.page (pgLp p)).en && !(s.port p).conflict && s.pwr.lathClock

/-- The path that a lane belongs to. -/
def State.laneOwner (s : State) (n : LaneNo) : Option (PortNo × PathAB) :=
  allPorts.findSome? (fun p =>
    if s.portUp p then
      (if (s.pathLanes p .A).contains n.val then some (p, PathAB.A)
       else if (s.pathLanes p .B).contains n.val then some (p, PathAB.B) else none)
    else none)

/-- The lane mode that a port's configuration gives its lanes: SPEED, and 4 for Clause 108 RS-FEC (R372). -/
def State.portMode (s : State) (p : PortNo) : Nat :=
  if s.speed p = 2 ∧ s.bitAt (pgLp p) 0x040 4 = true then 4 else s.speed p

/-- The ports a register of the PTP or Fountain page affects: those of a port block, the port of a client instance, or
every port (02 R55). -/
def State.affected (s : State) (pg off : Nat) : List PortNo :=
  let one (n : Nat) : List PortNo := [Fin.ofNat 16 n]
  if pg = pgPtp then
    (if 0x100 ≤ off ∧ off < 0x300 then one ((off - 0x100) / 0x20)
     else if 0x300 ≤ off ∧ off < 0x400 then one (s.fieldAt pgPtp (0x300 + (off - 0x300) / 0x40 * 0x40) 11 8)
     else allPorts)
  else if 0x100 ≤ off ∧ off < 0x300 then one ((off - 0x100) / 0x20)
  else allPorts

/-- The pages whose words come into force port by port (02 R55). -/
def servePage (pg : Nat) : Bool := pg == pgPtp || pg == pgFtn

/-- The words of the PTP or Fountain page that a port has taken ahead of others. -/
def PortSt.over (x : PortSt) (pg : Nat) : KMap Word := if pg = pgPtp then x.overP else x.overF
def PortSt.setOver (x : PortSt) (pg : Nat) (m : KMap Word) : PortSt := if pg = pgPtp then { x with overP := m } else { x with overF := m }

/-- What it has still to take of the page. -/
def PortSt.waits (x : PortSt) (pg : Nat) : PortWords := if pg = pgPtp then x.waitP else x.waitF
def PortSt.setWaits (x : PortSt) (pg : Nat) (w : PortWords) : PortSt := if pg = pgPtp then { x with waitP := w } else { x with waitF := w }

/-- The word of the PTP or Fountain page in force on a port. -/
def State.portReg (s : State) (p : PortNo) (pg off : Nat) : Word := look (fun o => s.reg pg o) ((s.port p).over pg) off

def State.pf (s : State) (p : PortNo) (pg off hi lo : Nat) : Nat := bits (s.portReg p pg off) hi lo
def State.psf (s : State) (p : PortNo) (pg off hi lo : Nat) : Int := sbits (s.portReg p pg off) hi lo
def State.pb (s : State) (p : PortNo) (pg off i : Nat) : Bool := bit (s.portReg p pg off) i

/-- The capture point of the port's coming boundary has passed, with `n` writes arrived: what waits is captured for it (02 R56). -/
def PortWords.capture (x : PortWords) (n : Nat) : PortWords :=
  if x.capt.isSome then x else { x with capt := some x.wait, wait := [], capMark := n }

/-- The words that the port takes at its boundary, and what it waits for afterwards (02 R56, R59). -/
def PortWords.due (x : PortWords) (hold : Bool) : KMap Word := x.capt.getD (if hold then [] else x.wait)
def PortWords.passed (x : PortWords) (hold : Bool) (n : Nat) : PortWords :=
  match x.capt with
  | some _ => { x with capt := none, doneMark := x.capMark }
  | none => if hold then x else { x with wait := [], doneMark := n }

/-- Nothing of the page waits for the port; how many of `n` writes it has dealt with; a register of which it waits for a word. -/
def PortWords.idle (x : PortWords) : Bool := x.wait.isEmpty && x.capt.isNone
def PortWords.mark (x : PortWords) (n : Nat) : Nat := if x.idle then n else x.doneMark
def PortWords.waitsFor (x : PortWords) (o : Nat) : Bool := (x.wait ++ x.capt.getD []).any (fun e => e.1 == o)

/-- A write to a page of the ports, PTP or Fountain that no running port waits for (02 R55). -/
def State.portIdle (s : State) (pg off : Nat) : Bool :=
  if h : 0x70 ≤ pg ∧ pg < 0x80 then !s.portUp ⟨pg - 0x70, by omega⟩
  else if h : 0x80 ≤ pg ∧ pg < 0x90 then (s.laneOwner ⟨pg - 0x80, by omega⟩).isNone
  else if pg = pgPtp ∨ pg = pgFtn then (s.affected pg off).all (fun p => !s.portUp p)
  else false

end Sys2Proof.Machine
end

