-- ==== Sys2Proof/Machine/Pages.lean ====
section
/-!
DEFINITION. Buffered writes and their boundaries, soft reset of a page's registers, and bus errors (02).
-/

namespace Sys2Proof.Machine

/-- An entry listed whatever its value: pending words of a shadow (02 R54). -/
def listAt (m : KMap Word) (k : Nat) (v : Word) : KMap Word := place (drop m k) k v

/-- Pages whose writes and soft resets are in force at once while no half is powered and out of reset (01 R25, 04 R119). -/
def State.copyOnly (s : State) (pg : Nat) : Bool :=
  match pageKind pg with
  | some (.rs _) | some (.td _) | some .cis | some .half | some .lath | some .sl => !s.anyHalfOn
  | _ => false

/-- Writes that are in force at once: those, and those of a disabled port (02 R55). -/
def immediateNow (s : State) (pg off : Nat) : Bool := s.copyOnly pg || s.portIdle pg off

/-- A factory value of a lane for a mode: modes without RS-FEC have no FEC variation (10 R322, R323). -/
def laneFactory (lane mode off : Nat) : Word :=
  if off = 0x418 then (if mode = 3 ∨ mode = 4 then Config.laneResid lane mode off &&& 0xFFFF else 0)
  else Config.laneResid lane mode off

/-- The least word of a raise-only register: its factory value, that of the mode in force on a lane (10 R323, R337). -/
def State.floorWord (s : State) (pg off : Nat) : Word :=
  if h : 0x80 ≤ pg ∧ pg < 0x90 then laneFactory (pg - 0x80) (s.lanes.get ⟨pg - 0x80, by omega⟩).mode off
  else resetWord pg off

/-- A lane loads the calibration set of a mode (10 R322, R323). -/
def loadLane (n : LaneNo) (mode : Nat) (s : State) : State :=
  let s1 := s.modLane n (fun y => { y with mode := mode, ready := true })
  (s1.setReg (pgLane n) 0x414 (laneFactory n.val mode 0x414)).setReg (pgLane n) 0x418 (laneFactory n.val mode 0x418)

/-- The mode that configuration gives a lane: that of the running port that takes it, else of the port of its number (10 R322; 12
R372). -/
def State.laneMode (s : State) (n : LaneNo) : Nat :=
  match s.laneOwner n with
  | some (p, _) => s.portMode p
  | none => s.portMode n

/-- A word as its register takes it: codes that are not used leave their field at the value it has, and raise-only
residuals do not fall below `low` (04 R145, 05 R188, 06 R204, 07 R256, 10 R323, R337, 11 R365, R366, 13 R394). A nominal frequency
outside its range, for which the spec gives no effect, is stored as written (log entry 204). -/
def legalWord (low : Word) (pg off : Nat) (old new : Word) : Word :=
  let keep (hi lo : Nat) (ok : Nat → Bool) (w : Word) : Word :=
    if ok (bits w hi lo) then w else mergeMask w old (maskOf hi lo)
  let raise (hi lo : Nat) (w : Word) : Word :=
    if bits w hi lo < bits low hi lo then mergeMask w low (maskOf hi lo) else w
  let not3 (n : Nat) : Bool := n != 3
  match pageKind pg with
  | some .lath => if off = 0x040 ∨ off = 0x044 then keep 2 0 (fun n => decide (n ≤ 3) || n == 7) new else new
  | some (.rs n) =>
    if off = 0x070 then
      (if n = 30 then keep 3 0 (fun n => decide (n ≤ 8)) new
       else keep 13 10 (fun n => decide (n ≤ 8)) (keep 1 0 (fun n => decide (n ≤ 1)) new))
    else if off = 0x074 then keep 10 9 not3 new else new
  | some (.td _) => if off = 0x040 then keep 5 4 not3 new else new
  | some .cis => if off = 0x048 ∨ off = 0x04C then keep 1 0 not3 new else new
  | some (.cap _) => if off = 0x048 then raise 15 0 new else new
  | some (.lane _) =>
    if off = 0x414 then raise 31 16 (raise 15 0 new) else if off = 0x418 then raise 15 0 new else new
  | some (.jet _) =>
    if off = 0x060 then raise 15 0 new else if off = 0x040 then keep 9 8 not3 new else new
  | some .ptp =>
    let lp := decide (0x100 ≤ off) && decide (off < 0x300) && off % 0x20 == 0
    let cl := decide (0x300 ≤ off) && decide (off < 0x400) && off % 0x40 == 0
    if lp || cl then keep 2 0 (fun n => decide (n ≤ 4)) new else new
  | _ => new

/-- A write after the capture point of the coming boundary finds the shadow captured for it (02 R56). -/
def Page.captureLate (p : Page) : Page :=
  if p.hold || p.captured.isSome then p
  else { p with captured := some p.shadow, shadow := [], capMark := p.bufCnt }

/-- Every word that waits in a page, by offset: the captured ones, and over them those of the shadow. -/
def Page.waiting (p : Page) : KMap Word := p.shadow.foldl (fun m e => listAt m e.1 e.2) (p.captured.getD [])

/-- A buffered write is in force at once: without HOLD, where every word of it is (01 R25; 02 R55, R59). -/
def putAtOnce (s : State) (pg : Nat) (ws : List (Nat × Word × Word)) : Bool :=
  !(s.page pg).hold && ws.all (fun e => immediateNow s pg e.1)

/-! ### The PTP and Fountain pages, port by port (02 R55, R56; log entry 201) -/

/-- Words come into force on a port. -/
def State.portPut (s : State) (p : PortNo) (pg : Nat) (ws : KMap Word) : State :=
  s.modPort p (fun x => x.setOver pg (ws.foldl (fun m e =>
    listAt m e.1 (legalWord 0 pg e.1 (look (fun o => s.reg pg o) m e.1) e.2)) (x.over pg)))

/-- A port takes the words due for it. -/
def State.portTakes (s : State) (p : PortNo) (pg : Nat) : State :=
  let g := s.page pg
  let x := (s.port p).waits pg
  (s.portPut p pg (x.due g.hold)).modPort p (fun y => y.setWaits pg (x.passed g.hold g.bufCnt))

/-- A port's packet boundary on the page: APPLY_SEQ counts it when the port takes words at it. -/
def State.portPasses (s : State) (p : PortNo) (pg : Nat) : State :=
  let none := (((s.port p).waits pg).due (s.page pg).hold).isEmpty
  (s.portTakes p pg).modPage pg (fun q => { q with applySeq := if none then q.applySeq else q.applySeq + 1 })

/-- A port that does not run takes at once what waits for it: what was captured, then, without HOLD, the rest. -/
def State.idleTakes (s : State) (pg : Nat) : State :=
  allPorts.foldl (fun a p => if a.portUp p then a else (a.portTakes p pg).portTakes p pg) s

/-- A word is in force on the page once no port waits for one and the ports it affects have it alike; the shadow keeps the words that
some port waits for. -/
def State.commitPorts (s : State) (pg : Nat) : State :=
  let waited (o : Nat) : Bool := s.ports.toList.any (fun x => (x.waits pg).waitsFor o)
  let val (o : Nat) : Word := s.portReg ((s.affected pg o).headD 0) pg o
  let done := (s.ports.toList.flatMap (fun x => (x.over pg).map (fun e => e.1))).filter (fun o =>
    !waited o && (s.affected pg o).all (fun p => s.portReg p pg o == val o))
  let mark := s.ports.toList.foldl (fun m x => min m ((x.waits pg).mark (s.page pg).bufCnt)) (s.page pg).bufCnt
  let s1 := done.foldl (fun a o => a.setReg pg o (val o)) s
  let s2 := s1.modPage pg (fun q =>
    let rest := q.shadow.filter (fun e => waited e.1)
    { q with shadow := rest, pend := !rest.isEmpty, doneMark := mark, late := q.late && decide (mark < q.bufCnt) })
  { s2 with ports := s2.ports.map (fun x => x.setOver pg ((x.over pg).filter (fun e => !done.contains e.1))) }

/-- Words that come into force without a boundary: on the ports that do not run. -/
def State.settleServe (s : State) (pg : Nat) : State := (s.idleTakes pg).commitPorts pg

/-- A write missed the capture point of a port's coming boundary. -/
def State.missed (s : State) (a : Access) (p : PortNo) : Bool := s.portUp p && (a.late || a.ports.getLsbD p.val)

/-- A buffered write of the PTP or Fountain page waits on each port that it affects for that port's boundary. -/
def State.bufferServe (s : State) (pg : Nat) (new : KMap Word) (a : Access) : State :=
  let g := s.page pg
  let mine (p : PortNo) : KMap Word := new.filter (fun e => (s.affected pg e.1).contains p)
  let late (p : PortNo) : Bool := !g.hold && s.missed a p && !(mine p).isEmpty
  let add (m ws : KMap Word) : KMap Word := ws.foldl (fun m e => listAt m e.1 e.2) m
  let s1 := s.modPage pg (fun q =>
    { q with shadow := add q.shadow new, pend := true, late := allPorts.any late, bufCnt := g.bufCnt + 1 })
  let s2 := allPorts.foldl (fun b p =>
    if (mine p).isEmpty then b
    else b.modPort p (fun x =>
      let w0 := x.waits pg
      let w1 := if w0.idle then { w0 with doneMark := g.bufCnt } else w0
      let w2 := if late p then w1.capture g.bufCnt else w1
      x.setWaits pg { w2 with wait := add w2.wait (mine p) })) s1
  s2.settleServe pg

/-- DISCARD on those pages (R60): what a port has captured stays for its boundary. -/
def State.discardServe (s : State) (pg : Nat) (a : Access) : State :=
  let g := s.page pg
  let s1 := s.modPage pg (fun q => { q with shadow := [], pend := false, late := false })
  (allPorts.foldl (fun b p => b.modPort p (fun x =>
    let w0 := x.waits pg
    let w1 := if s.missed a p && !g.hold && !w0.wait.isEmpty then w0.capture g.bufCnt else w0
    x.setWaits pg { w1 with wait := [], capMark := g.bufCnt })) s1).commitPorts pg

/-- A write to HOLD on those pages (R59): boundaries pass without capture, and a clear takes its own arrival for that of the
writes it frees. -/
def State.holdServe (s : State) (pg : Nat) (on : Bool) (a : Access) : State :=
  let g := s.page pg
  if on then
    (allPorts.foldl (fun b p => b.modPort p (fun x =>
      let w := x.waits pg
      if s.missed a p && !g.hold && !w.wait.isEmpty then x.setWaits pg (w.capture g.bufCnt) else x)) s).modPage pg (fun q =>
        { q with hold := true })
  else
    let past (p : PortNo) : Bool := g.hold && s.missed a p && !((s.port p).waits pg).wait.isEmpty
    let s1 := s.modPage pg (fun q => { q with hold := false, late := q.late || allPorts.any past })
    (allPorts.foldl (fun b p => b.modPort p (fun x =>
      let w := x.waits pg
      if past p && w.capt.isNone then x.setWaits pg { w with capt := some [], capMark := w.doneMark } else x)) s1).settleServe pg

/-- One buffered write, of one word or of a wide pair: offsets, values and masks (02 R54, R56, R72). One that is in force at
once takes the place of words of its own that still wait. -/
def bufferWords (s : State) (pg : Nat) (ws : List (Nat × Word × Word)) (a : Access) : State :=
  let w (e : Nat × Word × Word) : Word := mergeMask (s.shadowReg pg e.1) e.2.1 e.2.2
  if servePage pg then
    let once := putAtOnce s pg ws
    (s.bufferServe pg (ws.map (fun e => (e.1, w e))) a).modPage pg (fun q =>
      { q with applySeq := if once then q.applySeq + 1 else q.applySeq })
  else if putAtOnce s pg ws then
    s.modPage pg (fun p =>
      let less (m : KMap Word) : KMap Word := ws.foldl (fun a e => drop a e.1) m
      let rest := less p.shadow
      let capt := p.captured.map less
      let clear := rest.isEmpty && capt.isNone
      { (ws.foldl (fun q e => q.setReg pg e.1 (legalWord (s.floorWord pg e.1) pg e.1 (s.reg pg e.1) (w e))) p) with
        shadow := rest, captured := capt, pend := !clear, late := p.late && !clear
        applySeq := p.applySeq + 1, bufCnt := p.bufCnt + 1, doneMark := if clear then p.bufCnt + 1 else p.doneMark })
  else
    s.modPage pg (fun p =>
      let lateNow := a.late && !p.hold
      let q := if lateNow then p.captureLate else p
      { q with shadow := ws.foldl (fun m e => listAt m e.1 (w e)) q.shadow, pend := true, late := lateNow,
               bufCnt := p.bufCnt + 1 })

/-- The words a page puts in force at its boundary (02 R56, R59): the captured ones, else, without HOLD, the shadow. -/
def Page.dueWords (p : Page) : KMap Word :=
  match p.captured with
  | some c => c
  | none => if p.hold then [] else p.shadow

/-- The page after its boundary, registers apart (02 R56, R59; PAGE_APPLY). -/
def Page.afterBoundary (p : Page) : Page :=
  let n := if p.dueWords.isEmpty then p.applySeq else p.applySeq + 1
  match p.captured with
  | some _ => { p with captured := none, applySeq := n, doneMark := p.capMark, pend := !p.shadow.isEmpty }
  | none =>
    if p.hold then p
    else { p with shadow := [], applySeq := n, doneMark := p.bufCnt, pend := false, late := false }

/-- A page's boundary: its due words come into force (02 R55 to R59). -/
def boundary (s : State) (pg : Nat) : State :=
  let p := s.page pg
  if p.captured.isNone && p.shadow.isEmpty then s
  else
    let ws := p.dueWords
    let s1 := s.setPage pg p.afterBoundary
    ws.foldl (fun a e => a.setReg pg e.1 (legalWord (a.floorWord pg e.1) pg e.1 (a.reg pg e.1) e.2)) s1

/-- Every word that waits in a page comes into force, without a boundary. -/
def flushWords (s : State) (pg : Nat) : State :=
  let p := s.page pg
  let s1 := s.setPage pg { p with
    shadow := [], captured := none, pend := false, late := false, applySeq := p.applySeq + 1, doneMark := p.bufCnt }
  p.waiting.foldl (fun a e => a.setReg pg e.1 (legalWord (a.floorWord pg e.1) pg e.1 (a.reg pg e.1) e.2)) s1

/-- Registers of those pages whose bits act on coming into force and then read 0 (04 R139, 05 R159, 08 R275, 09 R311). -/
def commandReg (pg : Nat) : Option Nat :=
  match pageKind pg with
  | some (.rs _) => some 0x068
  | some .lath => some 0x050
  | some .half => some 0x04C
  | some .sl => some 0x044
  | _ => none

/-- Pages of which the common die keeps a copy, and the pages decided with them (01 R25, 04 R119). -/
def copyPages : List Nat := (List.range 256).filter (fun pg => match pageKind pg with
  | some (.rs _) | some (.td _) | some .cis | some .half | some .lath | some .sl => true
  | _ => false)

/-- Words of a page still waiting, where HOLD does not keep them, come into force in the copy; a command bit among them
finds no half to act on. -/
def settlePage (s : State) (pg : Nat) : State :=
  if (s.page pg).hold || ((s.page pg).captured.isNone && (s.page pg).shadow.isEmpty) then s
  else match commandReg pg with
    | some o => (flushWords s pg).setReg pg o 0
    | none => flushWords s pg

/-- Once no half is powered and out of reset, words still waiting for a beat come into force in the copy, save under HOLD;
their command bits find no half to act on (01 R25, log entry 178). -/
def settleCopy (s : State) : State :=
  if s.anyHalfOn then s
  else copyPages.foldl settlePage s

/-- The bits of a register that rise to 1 at the page's coming boundary: command bits that come into force. -/
def dueBits (s : State) (pg off : Nat) : Word := look (fun _ => 0) (s.page pg).dueWords off

/-- A write of 1 to DISCARD (02 R60). -/
def discardPage (s : State) (pg : Nat) (a : Access) : State :=
  if servePage pg then s.discardServe pg a
  else s.modPage pg (fun p =>
    let q := if a.late then p.captureLate else p
    let r := { q with shadow := [], pend := false, late := false }
    if r.captured.isNone then { r with doneMark := r.bufCnt } else { r with capMark := r.bufCnt })

/-- A FENCE that waits for the page has seen HOLD at 1 (15 R483). -/
def noteHeld (s : State) (pg : Nat) : State :=
  s.opList.foldl (fun a e =>
    if e.2.fencePage == some pg && !e.2.isDone then a.setOp e.1 (some { e.2 with heldSeen := true }) else a) s

/-- A write to HOLD (02 R59). A clear takes its own arrival for that of the writes it frees, so that one after the capture
point leaves LATE at 1 (log entry 173). -/
def holdPage (s : State) (pg : Nat) (on : Bool) (a : Access) : State :=
  let s1 := if on then noteHeld s pg else s
  if servePage pg then s1.holdServe pg on a
  else s1.modPage pg (fun p =>
    if on then { (if a.late then p.captureLate else p) with hold := true }
    else
      let past := p.hold && (a.late || p.captured.isSome)
      let q := { p with hold := false, late := p.late || (past && !p.shadow.isEmpty) }
      if past && p.captured.isNone then { q with captured := some [], capMark := q.doneMark } else q)

/-- A page's registers return to reset (02 R51): owner, LOCK and EVT_CNT stay; the shadow is emptied. A reset of the copy
leaves APPLY_SEQ one above its old value (01 R25, log entry 174). -/
def resetPageRegs (s : State) (pg : Nat) : State :=
  s.modPage pg (fun p =>
    { Page.reset pg with
      owner := p.owner, vis := p.vis, lock := p.lock, evtCnt := p.evtCnt, bufCnt := p.bufCnt, capMark := p.bufCnt,
      doneMark := p.bufCnt, applySeq := if s.copyOnly pg then p.applySeq + 1 else 0 })

/-! ## Bus errors (02 R76 to R78, R596) -/

def Cause.code : Cause → Nat
  | .reserved => 0
  | .absent => 1
  | .readOnly => 2
  | .narrowWrite => 3
  | .unaligned => 4
  | .narrowPop => 5
  | .woViol => 6
  | .lockViol => 7
  | .indRange => 8
  | .indTable => 9
  | .shadowWrite => 10
  | .oversize => 11
  | .spanning => 12

/-- Place of a cause in the order of 02 R596. -/
def Cause.rank : Cause → Nat
  | .oversize => 0
  | .absent => 1
  | .reserved => 2
  | .unaligned => 3
  | .narrowWrite => 4
  | .spanning => 5
  | .narrowPop => 6
  | .shadowWrite => 7
  | .readOnly => 8
  | .lockViol => 9
  | .woViol => 10
  | .indTable => 11
  | .indRange => 12

def Cause.kind : Cause → Nat
  | .woViol => kWoViol
  | .lockViol => kLockViol
  | _ => kAccess

/-- The first cause in the order of 02 R596 among those met. -/
def firstCause (l : List Cause) : Option Cause :=
  l.foldl (fun best c => match best with
    | none => some c
    | some b => if c.rank < b.rank then some c else some b) none

/-- A bus error (02 R76, R78): the event on a visible page, the log entry or its loss, and the fault message, sent
for the page accessed, be it visible to the partition or not, or for the partition's page where no page is implemented (log entry
24). Bit i of BYTE_EN is that of byte OFFSET + i, the access's own first byte being bit 0 (log entry 24). -/
def busError (s : State) (p : Part) (c : Cause) (isWrite : Bool) (off : Nat) (be : BitVec 8) : State :=
  let pg := off / 4096
  let here := (pageKind pg).isSome
  let s1 := s.evtIf (here && s.visible p pg) pg evAccess
  let x := s1.part p
  let s2 :=
    if x.busLog.length < 16 then
      s1.setPart p { x with
        busLog := x.busLog ++ [{ cause := c, isWrite := isWrite, lost := min 31 x.busLost, seq := none,
                                 be := be.extractLsb' 0 4, off := BitVec.ofNat 20 off, ident := s1.ident }]
        busLost := 0 }
    else s1.setPart p { x with busLost := x.busLost + 1 }
  let mpg := if here then pg else pgHp p
  (s2.fault 0 mpg c.kind sevInfo (Config.detectorOf mpg c.kind) 0).count (cntPart p 11) 1

end Sys2Proof.Machine
end

