-- ==== Sys2Proof/Machine/Halves.lean ====
section
/-!
DEFINITION. Reading and changing the parts of a half: its slots, domains and Lath; who shows shared events; means of
rate words; and the prompt rises of the Spirit Level (08 R276).
-/

namespace Sys2Proof.Machine

def allDoms : List Dom := [0, 1, 2, 3]
def allHalves : List Half := [.A, .B]
def allSlots : List SlotNo := List.finRange 32

def State.dom (s : State) (h : Half) (d : Dom) : DomSt := (s.half h).doms.get d
def State.modDom (s : State) (h : Half) (d : Dom) (f : DomSt → DomSt) : State :=
  s.modHalf h (fun x => { x with doms := modAt x.doms d f })
def State.slot (s : State) (h : Half) (n : SlotNo) : SlotSt := (s.half h).slots.get n
def State.modSlot (s : State) (h : Half) (n : SlotNo) (f : SlotSt → SlotSt) : State :=
  s.modHalf h (fun x => { x with slots := modAt x.slots n f })
def State.modLath (s : State) (h : Half) (f : Lath → Lath) : State :=
  s.modHalf h (fun x => { x with lath := f x.lath })

/-- Time elapsed since the domain's start, its step left out. -/
def DomSt.el (x : DomSt) : Nat := x.t - x.off

/-- A half whose grid runs: powered, out of reset, Lath locked (04 R120). -/
def State.gridOn (s : State) (h : Half) : Bool := s.halfOn h && (s.half h).lath.locked

/-- The half's time by which spans that belong to no domain are counted. -/
def State.el0 (s : State) (h : Half) : Nat := (s.half h).up

/-- The 2-bit index of the running grid cycle (04 R114). -/
def HalfSt.cycleIndex (x : HalfSt) : BitVec 2 := x.edge.extractLsb' 3 2

/-- A rising edge of CLK_SLOW: tap 0 of a grid cycle with index 0 (04 R116, R117). -/
def HalfSt.slowEdge (x : HalfSt) : Bool := x.edge == 0

/-- The half that answers reads of shared pages sets their events (01 R23, 08 R282): the one the arbiters follow while its grid
runs, else any half that runs: the survivor, before the switch (01 R43), or each while none is followed (log entry 17). -/
def State.shows (s : State) (h : Half) : Bool :=
  match s.busHalf with
  | some k => k == h || !s.gridOn k
  | none => true

/-- Set an event of a page that both halves share. -/
def State.evtH (s : State) (h : Half) (pg b : Nat) : State := s.evtIf (s.shows h) pg b

/-- The half publishes a claim (09 R284). -/
def HalfSt.publishes (x : HalfSt) : Bool :=
  match x.role with
  | .solo | .peer | .split => true
  | _ => false

/-- The half publishes a claim, and has had no power-fail, on which the common die withdraws it (03 R97). -/
def State.publishing (s : State) (h : Half) : Bool := s.pwr.half.of h == .on && (s.half h).publishes

/-- The half's peer is in OFF, LATH or TEST (09 R310). -/
def State.peerAway (s : State) (h : Half) : Bool :=
  match (s.half h.peer).role with
  | .off | .lath | .test => true
  | _ => false

/-- The peer is established: it publishes and has a stepped domain (09 R285). -/
def State.established (s : State) (h : Half) : Bool :=
  s.publishing h && allDoms.any (fun d => (s.dom h d).stepped)

/-! ## Means of the rate word -/

/-- Mean rate word over the latest `k` beats, or over those there are (05 R163, 06 R198, 07 R253; log entry 18). -/
def DomSt.meanRate (x : DomSt) (k : Nat) : Rat :=
  match x.rates.take k with
  | [] => (x.rate : Rat)
  | l => meanI l

/-- The time the domain has gained, in ps, on a scale whose rate word was held at `r` from a moment with rate sum
`acc` and beat count `nb` (05 R163). -/
def DomSt.gained (x : DomSt) (acc : Int) (nb : Nat) (r : Rat) : Rat :=
  rateQ (((x.acc - acc : Int) : Rat) - r * (((x.nb : Int) - (nb : Int) : Int) : Rat)) * 976562500

/-! ## Lath log records and events (04 R146, R147) -/

def lathBit (h : Half) (b : Nat) : Nat := b + 8 * h.ix.val

/-- Event bits of the Lath page, half A (R146). -/
def evMoscLost : Nat := 0
def evLockLost : Nat := 1
def evToStandby : Nat := 2
def evToPrimary : Nat := 3
def evQualFail : Nat := 4
def evXoBad : Nat := 5
def evLathFail : Nat := 6
def evClkArbSwitch : Nat := 16
def evBootOsc : Nat := 17

def State.lathEvt (s : State) (h : Half) (b : Nat) : State :=
  let s1 := s.setEvt pgLath (lathBit h b)
  if b = evToStandby ∨ b = evToPrimary ∨ b = evQualFail then s1.logRec 0x0003 (h.ix.val + 2 * lathBit h b) else s1

/-- A fault message of kind CLOCK from a half's Lath (R147, detectors of R148). -/
def State.lathFault (s : State) (h : Half) (det : Nat) : State :=
  s.fault (placeOf h) pgLath kClock (kindSev kClock) (BitVec.ofNat 8 det) 0

/-! ## Prompt rises (08 R272, R276) -/

/-- Every level's published value and fall state are discarded: B is unbounded for a cause (R272). -/
def DomSt.unbound (x : DomSt) (cause : Nat) : DomSt :=
  { x with unb := cause, bound := 0xFFFF, codes := Vector.replicate 6 0xFFFF, levels := x.levels.map (fun l => { comp := l.comp }) }

def DomSt.pubSum (x : DomSt) : Nat := x.levels.foldl (fun a l => a + l.pub) 0

/-- The bound code and level codes of a domain from its published levels (08 R263, R264). -/
def DomSt.encode (x : DomSt) : DomSt :=
  if x.unb = 1 ∨ x.unb = 2 ∨ x.unb = 3 then { x with bound := 0xFFFF, codes := Vector.replicate 6 0xFFFF }
  else
    let c := encodeB x.pubSum
    { x with bound := c, codes := x.levels.map (fun l => encodeB l.pub), unb := if c = 0xFFFF then 4 else 0 }

/-- Raise level 6 to its published value plus some ps, at once (R276). -/
def DomSt.prompt (x : DomSt) (ps : Rat) : DomSt :=
  let l := x.levels.get 5
  { x with levels := setAt x.levels 5 { l with pub := (ceilQ ((l.pub : Rat) + ps)).toNat, at_ := x.el } }.encode

/-- The half's time bus takes a domain's state, total and level codes: at a TD0 beat, at a prompt rise, and where a new sequence
of its time begins (01 R26; 08 R261, R264, R276). -/
def State.busNote (s : State) (h : Half) (d : Dom) : State :=
  s.modHalf h (fun x =>
    let y := x.doms.get d
    { x with bus := setAt x.bus d { st := y.st, bound := y.bound, levels := y.codes } })
def State.busNotes (s : State) (h : Half) : State := allDoms.foldl (fun a d => a.busNote h d) s

def evPrompt (d : Dom) : Nat := 8 + d.val
def evUnbounded (d : Dom) : Nat := d.val
def evBounded (d : Dom) : Nat := 4 + d.val

/-- A prompt rise of level 6 of one domain (R276, R282). -/
def State.promptRise (s : State) (h : Half) (d : Dom) (ps : Rat) : State :=
  let x := s.dom h d
  if x.unb ≠ 0 ∧ x.unb ≠ 4 then s
  else
    let s1 := ((s.modDom h d (fun y => y.prompt ps)).busNote h d).count (cntHalf h (12 + d.val)) 1
    let s2 := s1.evtH h pgSl (evPrompt d)
    s2.evtIf (s.shows h && x.bound != 0xFFFF && (s1.dom h d).bound == 0xFFFF) pgSl (evUnbounded d)

/-- B of a domain becomes unbounded by a detection and stays so until the half has reloaded the domain, also where the
domain's step or its load is pending (06 R232, 08 R272, R276, R283). -/
def State.promptUnbound (s : State) (h : Half) (d : Dom) : State :=
  let was := (s.dom h d).bound
  let s1 := ((s.modDom h d (fun y => { (if y.unb = 3 then y else y.unbound 2) with marred := true })).busNote h d).count (cntHalf h (12 + d.val)) 1
  (s1.evtH h pgSl (evPrompt d)).evtIf (s.shows h && was != 0xFFFF) pgSl (evUnbounded d)

/-! ## Configuration of slots (05 R149, R150, R188) -/

/-- CLASS of a slot: 0 TIME, 1 PHASE, 2 FREQ (R149). -/
def State.slotClass (s : State) (n : SlotNo) : Nat :=
  let m := s.bitAt (pgRs n) 0x040 0
  if n.val < 8 then (if m then 2 else 1)
  else if n.val < 10 then 0
  else if n.val < 26 then 2
  else if n.val < 30 then 0
  else if n.val = 30 then (if m then 0 else 1)
  else 2

def State.slotMask (s : State) (n : SlotNo) : List Dom := allDoms.filter (fun d => s.bitAt (pgRs n) 0x040 (24 + d.val))

/-- ROLE = STEER and DOM_MASK ≠ 0; RS31 has ROLE fixed at MONITOR (R150, R151). -/
def State.slotSteers (s : State) (n : SlotNo) : Bool :=
  s.bitAt (pgRs n) 0x040 8 && !(s.slotMask n).isEmpty && n.val != 31

/-- Domains a slot is observed against: those assigned, or TD0 (R150, 00 R8). -/
def State.slotDoms (s : State) (n : SlotNo) : List Dom := if (s.slotMask n).isEmpty then [0] else s.slotMask n

/-- The domain whose beats are a slot page's boundaries: its one domain, else TD0 (02 R55, 05 R160). -/
def State.slotBeat (s : State) (n : SlotNo) : Dom :=
  match s.slotMask n with
  | [d] => d
  | _ => 0

/-- The domain that a slot's values are shown for: the lowest-numbered assigned one, as the table of RS_CONTRIB gives it for L4 (05
R188; log entry 83). -/
def State.slotShown (s : State) (n : SlotNo) : Dom := (s.slotDoms n).headD 0

/-- The signal of RS31: the link is up and the peer half powered (05 R158); a half in SOLO has none beside a peer in LATH or TEST (09
R310). -/
def State.peerSeen (s : State) (h : Half) : Bool :=
  (s.half h).linkUp && s.halfOn h.peer &&
    !((s.half h).role == .solo && s.peerAway h)

def State.slotPrio (s : State) (n : SlotNo) : Nat := s.fieldAt (pgRs n) 0x040 31 28

/-- A slot is a member of a domain: QUALIFIED, ROLE STEER and assigned (R150, R170). -/
def State.serves (s : State) (h : Half) (n : SlotNo) (d : Dom) : Bool :=
  (s.slot h n).st == 3 && s.slotSteers n && (s.slotMask n).contains d

/-- FORCE_HOLD acts on a stepped domain; one in FREE_RUN or with its step pending is not affected (06 R201). -/
def DomSt.forcedOff (x : DomSt) : Bool := x.forced && x.stepped

/-- A slot steers a domain: a member, and no FORCE_HOLD acts (R150, 06 R201). -/
def State.steers (s : State) (h : Half) (n : SlotNo) (d : Dom) : Bool := s.serves h n d && !(s.dom h d).forcedOff

def State.serving (s : State) (h : Half) (d : Dom) : List SlotNo := allSlots.filter (fun n => s.serves h n d)
def State.steering (s : State) (h : Half) (d : Dom) : List SlotNo := allSlots.filter (fun n => s.steers h n d)

/-- QUALIFIED assigned slots of TIME or PHASE class (R162). -/
def State.timeQual (s : State) (h : Half) (d : Dom) : List SlotNo :=
  allSlots.filter (fun n => (s.slot h n).st == 3 && (s.slotMask n).contains d && s.slotClass n != 2)

/-! ## Observations held by a slot -/

def State.sd (s : State) (h : Half) (n : SlotNo) (d : Dom) : SlotDom := (s.slot h n).dom.get d

def SlotDom.latest (x : SlotDom) : Option Int := x.obs.head?.map (·.x)

/-- The latest offset at or before an elapsed time, ps; the earliest one held where none is (R163). -/
def SlotDom.xAt (x : SlotDom) (el : Nat) : Int :=
  match x.obs.find? (fun o => decide (o.el ≤ el)) with
  | some o => o.x
  | none => (x.obs.getLast?.map (·.x)).getD 0

/-- The latest 16 observations since the mark of R597. -/
def SlotDom.last16 (x : SlotDom) : List Obs := x.obs.take (min 16 x.nSince)
def SlotDom.mean16 (x : SlotDom) : Option Rat := if x.last16.isEmpty then none else some (meanI (x.last16.map (·.x)))

/-- Observations of the latest `sec` seconds before the elapsed time `el`. -/
def SlotDom.window (x : SlotDom) (el sec : Nat) : List Obs := x.obs.filter (fun o => decide (el < o.el + sec * secondT))

def Obs.pt (o : Obs) : Rat × Rat := (secQ o.el, (o.x : Rat))

/-- A PTP client's slot (R149). -/
def isPtp (n : SlotNo) : Bool := decide (26 ≤ n.val) && decide (n.val < 30)

/-- A bound code in a register field; none where it states an unbounded error (00 R11). -/
def State.codeQ (s : State) (pg off hi lo : Nat) : Option Rat := openCode (BitVec.ofNat 16 (s.fieldAt pg off hi lo))

/-- The stated uncertainty u_j of a TIME or PHASE slot, ps; none where it is unbounded (05 R170, R182, R184; 00 R11). -/
def State.slotU (s : State) (h : Half) (n : SlotNo) : Option Rat :=
  let x := s.slot h n
  (s.codeQ (pgRs n) 0x04C 15 0).bind (fun c =>
    if n.val = 30 then some (maxQ c ((x.atomUnc * 1000 : Nat) : Rat))
    else if isPtp n then (openCode x.masterUnc).map (maxQ c)
    else some c)

/-- P_j of a PTP slot, 0 otherwise (05 R184, R185; 08 R275). -/
def State.slotP (s : State) (h : Half) (n : SlotNo) : Option Rat :=
  if isPtp n then (s.codeQ (pgRs n) 0x04C 31 16).map (· + (s.slot h n).held) else some 0

/-- DLIM and REJOIN in ps. -/
def State.dlimPs (s : State) (n : SlotNo) : Rat := ((s.fieldAt (pgRs n) 0x058 15 0 * 1000 : Nat) : Rat)
def State.rejoinPs (s : State) (n : SlotNo) : Rat := ((s.fieldAt (pgRs n) 0x05C 15 0 * 1000 : Nat) : Rat)
def State.flimAt (s : State) (n : SlotNo) (hi lo : Nat) : Rat := flimQ (s.fieldAt (pgRs n) 0x054 hi lo)

/-- Predicted holdover growth over 1,024 s, in ps rounded up (07 R250). -/
def DomSt.growth1024 (x : DomSt) : Nat :=
  (ceilQ (((x.ur + x.ut) * 1024 + x.ua * (1024 * 1024 : Nat) / 2) * (10 ^ 12 : Nat))).toNat

/-- The other QUALIFIED TIME or PHASE slots of a domain (05 R163). -/
def State.others (s : State) (h : Half) (n : SlotNo) (d : Dom) : List SlotNo := (s.timeQual h d).filter (fun i => i != n)

/-- C is the leave-one-out estimate with at least 2 others, else the coast scale (05 R163). -/
def State.useLoo (s : State) (h : Half) (n : SlotNo) (d : Dom) : Bool := decide (2 ≤ (s.others h n d).length)

/-- The detection threshold T_j of a TIME or PHASE slot, ps, by the scale that its slots' states give now (05 R166). -/
def State.slotT (s : State) (h : Half) (n : SlotNo) (d : Dom) : Rat :=
  if s.useLoo h n d then s.dlimPs n else s.dlimPs n + (((s.dom h d).growth1024 : Nat) : Rat)

/-- The weights in use: on a ramp of 64 s from their values at its start to the targets (05 R171). -/
def rampAt (n : Nat) (a b : Rat) : Rat := if 65536 ≤ n then b else a + (b - a) * (n : Rat) / 65536
def State.wUse (s : State) (h : Half) (n : SlotNo) (d : Dom) : Rat :=
  rampAt (s.dom h d).ramp (s.sd h n d).w0 (s.sd h n d).w1
def State.vUse (s : State) (h : Half) (n : SlotNo) (d : Dom) : Rat :=
  rampAt (s.dom h d).ramp (s.sd h n d).v0 (s.sd h n d).v1

/-- Majority agreement for slot `n` in domain `d` (05 R162). -/
def State.majority (s : State) (h : Half) (n : SlotNo) (d : Dom) : Bool :=
  match (s.sd h n d).mean16 with
  | none => false
  | some m =>
    let others := ((s.timeQual h d).filter (fun i => i != n)).filterMap (fun i => (s.sd h i d).mean16)
    let near := others.filter (fun y => decide (absQ (y - m) ≤ s.dlimPs n))
    decide (others.length < 2 * near.length)

/-! ## Stamps of both buses (01 R20, R27) -/

def stampIx (h : Half) (d : Dom) : Fin 8 := ⟨4 * h.ix.val + d.val, by have := h.ix.isLt; omega⟩

/-- An instant `ps` after the latest CLK_CORE edge, as each half's own bus times it. -/
def State.stamps (s : State) (ps : Int) : Stamps :=
  Vector.ofFn (fun i : Fin 8 =>
    let h : Half := if i.val < 4 then .A else .B
    if s.gridOn h then some (openQ (psQ (((s.half h).timeOf (Fin.ofNat 4 (i.val % 4)) : Nat) : Int)) + ps) else none)

/-- What the stamps of exchanges under way become on a half, for one domain. -/
def State.modStamps (s : State) (h : Half) (d : Dom) (f : Option Int → Option Int) : State :=
  let g (v : Option Stamps) : Option Stamps := v.map (fun x => modAt x (stampIx h d) f)
  { s with ptp := { s.ptp with clients := s.ptp.clients.map (fun c =>
      { c with syncAt := g c.syncAt, outstanding := c.outstanding.map (fun q => { q with sync := g q.sync, left := g q.left }) }) } }

/-! ## Operations on a domain in flight (06 R195, 15 R490) -/

/-- The domain an operation works on, when it works on one. -/
def Op.domain? (o : Op) : Option Nat :=
  match o.opcode with
  | 0x10 => some (bits (o.word 1) 1 0)
  | 0x11 => some (bits (o.word 1) 5 4)
  | 0x12 => some (bits (o.word 1) 1 0)
  | 0x20 => some (bits (o.word 1) 13 12)
  | 0x21 => some (bits (o.word 1) 1 0)
  | _ => none

end Sys2Proof.Machine
end

