-- ==== Sys2Proof/Machine/Jets.lean ====
section
/-!
DEFINITION. Jets: starts, edges, squelch, kill, ramps, steps and the jet arbiters (11).
-/

namespace Sys2Proof.Machine

def State.jet (s : State) (j : JetNo) : JetSt := s.jets.get j
def State.modJet (s : State) (j : JetNo) (f : JetSt → JetSt) : State := { s with jets := modAt s.jets j f }
def allJets : List JetNo := List.finRange 16

/-- Event bits (R370). -/
def evStarted : Nat := 0
def evSquelch : Nat := 1
def evUnsquelch : Nat := 2
def evSuppressed : Nat := 3
def evRampDone : Nat := 4
def evJetSwitch : Nat := 5
def evMisaligned : Nat := 6
def evJetKilled : Nat := 7
def evRunt : Nat := 8
def evDriver : Nat := 9

/-! ## Configuration (R349 to R351, R359) -/

def State.jetPulse (s : State) (j : JetNo) : Bool := s.bitAt (pgJet j) 0x040 0
def State.jetDom (s : State) (j : JetNo) : Dom := opDom (s.reg (pgJet j) 0x040) 4
/-- The domain that a jet's engine runs on, or that its configuration names. -/
def State.jetDomNow (s : State) (j : JetNo) : Dom := if (s.jet j).phase = .off then s.jetDom j else (s.jet j).dom
def State.jetKillVal (s : State) (j : JetNo) : Nat := s.fieldAt (pgJet j) 0x064 1 0

/-- NUM / DEN within the limits of R350, Hz. -/
def jetFreqOf (pulse : Bool) (std num den : Nat) : Rat :=
  let hi : Rat := if pulse then 10000000 else if std = 1 then 400000000 else 800000000
  minQ hi (maxQ 1 ((num : Rat) / ((max den 1 : Nat) : Rat)))

def State.jetFreq (s : State) (j : JetNo) : Rat :=
  let pg := pgJet j
  jetFreqOf (s.jetPulse j) (s.fieldAt pg 0x040 9 8) (s.fieldAt pg 0x048 29 0) (s.fieldAt pg 0x04C 15 0)

/-- One period, in units of 2^-62 ns. -/
def State.jetPeriod (s : State) (j : JetNo) : Rat := (secondT : Rat) / s.jetFreq j

/-- The high phase of a pulse, ns: WIDTH between 2 ns and the period less 2 ns (R351). -/
def State.jetWidth (s : State) (j : JetNo) (f : Rat) : Rat :=
  minQ (1000000000 / f - 2) (maxQ 2 (s.fieldAt (pgJet j) 0x044 31 0 : Nat))

/-- The faster of the two frequencies of a ramp, else the one in force (R359). -/
def State.jetTop (s : State) (j : JetNo) : Rat :=
  match (s.jet j).ramp with
  | none => s.jetFreq j
  | some r => maxQ r.f0 r.f1

/-- The guard phase G in ps: 15/16 of the shortest nominal phase, at the faster frequency of a ramp (R359). -/
def State.jetGuard (s : State) (j : JetNo) : Rat :=
  let f := s.jetTop j
  let w := s.jetWidth j f
  15000 / 16 * (if s.jetPulse j then minQ w (1000000000 / f - w) else 500000000 / f)

/-- Level 7 of a jet, ps (R366). -/
def State.jetLevel7 (s : State) (j : JetNo) : Rat := s.codeAt (pgJet j) 0x060 15 0 + codePs (s.jet j).unc

/-- The least whole second, in units of 2^-62 ns, not before a time. -/
def ceilSec (t : Nat) : Nat := (t + secondT - 1) / secondT * secondT

/-! ## Output stage -/

/-- The level at the balls; a driver under detection 3 is high-impedance (R371). -/
def JetSt.drive (x : JetSt) (l : JetLevel) : JetSt := { x with level := if x.driverBad then .hiz else l }

/-- The squelch level (R357). -/
def State.sqlLevel (s : State) (j : JetNo) : JetLevel := if s.bitAt (pgJet j) 0x040 20 then .hiz else .low

/-- The condition of OUT_POL holds (R357). -/
def State.jetOk (s : State) (j : JetNo) : Bool :=
  let pol := s.fieldAt (pgJet j) 0x040 17 16
  let d := s.jetDomNow j
  if pol = 0 then true
  else if pol = 2 then decide ((s.present d (s.jetLevel7 j)).toNat ≤ s.fieldAt (pgJet j) 0x054 15 0)
  else s.busStepped d && s.busBound d != 0xFFFF

/-- The half a jet's arbiter goes to: one whose edge engine is lost counts as absent (R29, R371). -/
def State.jetWant (s : State) (j : JetNo) : Option Half :=
  let lost (h : Half) : Bool := (s.jet j).bad.of h
  match s.followed with
  | none => none
  | some h =>
    if lost h = false then some h
    else if lost h.peer = false ∧ (s.arb.acted.of h.peer).isSome = true then some h.peer else none

/-- The level of an output that is not running: low when killed with 1 or 2, disabled or fenced, high-impedance when killed with 3,
else its squelch level (R352, R358, R368; 02 R595). -/
def State.restLevel (s : State) (j : JetNo) : JetLevel :=
  let k := s.jetKillVal j
  if k = 3 then .hiz
  else if k ≠ 0 ∨ (s.page (pgJet j)).en = false ∨ (s.unit (pgJet j) 4).fenced = true then .low
  else s.sqlLevel j

/-- An output that does not follow its stream takes the level that the configuration in force gives it (R352, R357, R368). -/
def settleLevel (j : JetNo) (s : State) : State :=
  let x := s.jet j
  if x.phase ≠ .run then s.modJet j (fun y => y.drive (s.restLevel j))
  else if x.sq then s.modJet j (fun y => y.drive (s.sqlLevel j)) else s

/-! ## The stream of an edge engine (R351, R353, R361, R363) -/

/-- Picoseconds in units of 2^-62 ns. -/
def psUnits (ps : Rat) : Rat := ps * ((2 ^ 62 : Nat) : Rat) / 1000

/-- The domain time that an edge leaving the balls `ps` after the latest CLK_CORE edge stands for: that of the half the jet's arbiter
follows, moved by JET_PLANE (R353). -/
def State.jetTime (s : State) (j : JetNo) (ps : Rat) : Rat :=
  let x := s.jet j
  let t : Nat := match x.half with
    | some h => (s.half h).timeOf x.dom
    | none => s.busTime x.dom
  (t : Rat) + psUnits ((x.dly : Rat) + ps)

/-- How long a ramp lasts, s, and the cycles it makes in `t` seconds, and in all (R361). -/
def JetRamp.span (r : JetRamp) : Rat := if r.slope = 0 then 0 else (r.f1 - r.f0) / r.slope
def JetRamp.within (r : JetRamp) (t : Rat) : Rat := r.f0 * t + r.slope * t * t / 2
def JetRamp.cycles (r : JetRamp) (t : Rat) : Rat :=
  if t ≤ r.span then r.within t else r.within r.span + r.f1 * (t - r.span)

/-- When a ramp has made `q` cycles, s after its start. -/
def JetRamp.timeOf (r : JetRamp) (q : Rat) : Rat :=
  let all := r.within r.span
  if q ≤ all ∧ r.slope ≠ 0 then (rootQ (r.f0 * r.f0 + 2 * r.slope * q) (10 ^ 24) - r.f0) / r.slope
  else r.span + (q - all) / r.f1

/-- The instantaneous frequency, Hz. -/
def JetRamp.freqAt (r : JetRamp) (t : Rat) : Rat := if t ≤ r.span then r.f0 + r.slope * t else r.f1

/-- The stream's phase at a domain time, in cycles: rising edges fall at the whole numbers. -/
def State.jetPhase (s : State) (j : JetNo) (t : Rat) : Rat :=
  match (s.jet j).ramp with
  | none => (t - (s.jet j).o) / s.jetPeriod j
  | some r => r.cycles ((t - r.t0) / (secondT : Rat))

/-- The domain time at which the stream has a phase. -/
def State.jetAt (s : State) (j : JetNo) (q : Rat) : Rat :=
  match (s.jet j).ramp with
  | none => (s.jet j).o + q * s.jetPeriod j
  | some r => r.t0 + r.timeOf q * (secondT : Rat)

/-- The frequency at a domain time, Hz. -/
def State.jetFreqAt (s : State) (j : JetNo) (t : Rat) : Rat :=
  match (s.jet j).ramp with
  | none => s.jetFreq j
  | some r => r.freqAt ((t - r.t0) / (secondT : Rat))

/-- The falling edge after rising edge `k` at domain time `e`: half a period later, or W later (R351). -/
def State.jetFall (s : State) (j : JetNo) (k : Int) (e : Rat) : Rat :=
  if s.jetPulse j then e + s.jetWidth j (s.jetFreqAt j e) * ((2 ^ 62 : Nat) : Rat) else s.jetAt j ((k : Rat) + 1 / 2)

/-- The grid tap and interpolator code of an edge that stands for a domain time, by the rate word in force: at the ball the edge is
JET_PLANE earlier, and on the grid the factory latency earlier (R353, R363). -/
def State.jetPlace (s : State) (j : JetNo) (e : Rat) : JetPlace :=
  let x := s.jet j
  match x.half with
  | none => {}
  | some h =>
    let y := s.dom h x.dom
    let n := openQ ((e - psUnits ((x.dly + Config.jetLat j.val : Int) : Rat) - (y.t : Rat)) / (tickT y.rate : Rat) * 4096)
    { edge := n / 4096, tap := (n / 1024 % 4).toNat, code := (n % 1024).toNat }

/-- A domain time of the stream near to now, in ps of common time. -/
def State.jetPs (s : State) (j : JetNo) (e : Rat) : Rat :=
  (s.now : Rat) * 1250 + (e - s.jetTime j 0) * 1000 / ((2 ^ 62 : Nat) : Rat)

/-- The output goes to a level with an edge at a domain time, unless that would end a phase shorter than G: then the edge is withheld
(R359). Whether the edge reaches the balls. -/
def jetEdge (j : JetNo) (l : JetLevel) (e : Rat) (s : State) : State × Bool :=
  let x := s.jet j
  let short := match x.lastAt with
    | some t => decide (e - t < psUnits (s.jetGuard j))
    | none => false
  if x.level = l ∨ short = true then (s, false)
  else (s.modJet j (fun y => { y.drive l with lastAt := some e, lastPs := s.jetPs j e, place := s.jetPlace j e }), true)

/-! ## Starts (R352, R354, R368) -/

/-- The jet may start: enabled, not killed, not fenced, with a half's grid on the common die. -/
def State.jetReady (s : State) (j : JetNo) : Bool :=
  (s.page (pgJet j)).en && s.jetKillVal j == 0 && s.pwr.lathClock && (s.jetWant j).isSome && !(s.unit (pgJet j) 4).fenced

/-- ALIGNED falls, with its event where it was 1 (R370). -/
def misalign (j : JetNo) (s : State) : State :=
  (s.modJet j (fun x => { x with aligned := false })).evtIf (s.jet j).aligned (pgJet j) evMisaligned

/-- Place O at a whole second at least one beat after a time (R352). -/
def placeOrigin (j : JetNo) (from_ : Nat) (s : State) : State :=
  (misalign j s).modJet j (fun x =>
    { x with phase := .wait, o := ((ceilSec (from_ + beatT) : Nat) : Rat), next := 0, fallAt := none, align := 0 })

/-- A start under R352: the output waits for O at its squelch level. A jet that may not start yet holds the level it has then. -/
def startJet (j : JetNo) (s : State) : State :=
  if (s.jet j).phase ≠ .off then s
  else if s.jetReady j = false then settleLevel j s
  else
    let d := s.jetDom j
    let s1 := s.modJet j (fun x => { x.drive (s.sqlLevel j) with
      dly := s.sfieldAt (pgJet j) 0x058 31 0, unc := BitVec.ofNat 16 (s.fieldAt (pgJet j) 0x05C 15 0), planeSet := x.planeW
      dom := d, stop := false, again := false, sq := false, ramp := none, half := s.jetWant j })
    let s2 := s1.modJet j (fun x => { x with sqWant := !s1.jetOk j })
    if s.bitAt (pgJet j) 0x040 12 && !s.busStepped d then
      (misalign j s2).modJet j (fun x => { x with phase := .forStep, fallAt := none, align := 0 })
    else placeOrigin j (s.busTime d) s2

/-- The edge engine stops, and the output goes at once to the level that it has when not running. -/
def haltJet (j : JetNo) (s : State) : State :=
  s.modJet j (fun x => { x.drive (s.restLevel j) with
    phase := .off, stop := false, again := false, ramp := none, fallAt := none, lastAt := none })

/-- A running jet stops at its next falling edge and, with `again`, starts from there; one that waits does so at once
(R358, R360). -/
def stopJet (j : JetNo) (again : Bool) (s : State) : State :=
  match (s.jet j).phase with
  | .off => s
  | .run => s.modJet j (fun x => { x with stop := true, again := again })
  | _ => let s1 := haltJet j s; if again then startJet j s1 else s1

/-- A half's grid reaches the common die: the jets' arbiters follow it, and enabled jets start (R29, R368). -/
def jetsOn (s : State) : State :=
  allJets.foldl (fun a j => startJet j (a.modJet j (fun x => { x with half := a.jetWant j }))) s

/-- No half publishes: the engines' state is discarded and the outputs hold their squelch level (R368, R369). -/
def jetsOff (s : State) : State :=
  allJets.foldl (fun a j =>
    (haltJet j (misalign j a)).modJet j (fun x => { x with half := none, align := 0, bad := ⟨false, false⟩ })) s

/-- O is reached: its edge leaves within the running CLK_CORE cycle (R352, R353). -/
def started (j : JetNo) (s : State) : State :=
  if (s.jet j).phase = .wait ∧ (s.jet j).o ≤ s.jetTime j 1250 then
    (s.modJet j (fun y => { y with phase := .run, aligned := true, align := 0, sq := y.sqWant })).setEvt (pgJet j) evStarted
  else s

/-! ## Edges (R351, R357, R360, R361, R366, R600) -/

/-- What a change of configuration in force does to a running jet: whether it restarts, and whether it ramps. -/
def jetChange (a b : State) (j : JetNo) (cmd : Bool) : Bool × Bool :=
  let pg := pgJet j
  let f (lo hi : Nat) : Bool := a.fieldAt pg 0x040 hi lo != b.fieldAt pg 0x040 hi lo
  let freq := a.reg pg 0x048 != b.reg pg 0x048 || a.reg pg 0x04C != b.reg pg 0x04C
  let chg := b.bitAt pg 0x040 24
  (cmd || f 4 5 || f 0 0 || f 8 9 || (freq && chg), freq && !chg)

/-- RAMP: a mantissa of 0 acts as 1 × 10^-9 per second (R361). -/
def State.jetRampRate (s : State) (j : JetNo) : Rat :=
  let n := s.fieldAt (pgJet j) 0x050 9 0
  if n / 32 = 0 then tenth 9 else flimQ n

/-- A ramp from rising edge `e` on, from the frequency `f0` there to the one now in force. R361 bounds its slope and does not fix it:
the share of the bound is a free value (log entry 211). -/
def startFreqRamp (j : JetNo) (e f0 : Rat) (s : State) : State :=
  let f1 := s.jetFreq j
  let pr := s.draw (2 ^ 32)
  let top := s.jetRampRate j * maxQ f0 f1 * (((pr.1 : Rat) + 1) / ((2 ^ 32 : Nat) : Rat))
  (misalign j pr.2).modJet j (fun y =>
    { y with o := e, next := 1, ramp := some { t0 := e, f0 := f0, f1 := f1, slope := if f1 < f0 then -top else if f0 < f1 then top else 0 } })

/-- A jet page's boundary: its due words come into force and act. `edge` is the rising edge of a running jet, its number and domain
time; what begins with it is placed under the new values (R354, R360, R361, R600). -/
def jetBoundary (j : JetNo) (edge : Option (Int × Rat)) (s : State) : State :=
  let pg := pgJet j
  let ws := (s.page pg).dueWords
  let has (off : Nat) : Bool := ws.any (fun e => e.1 == off)
  let cmd := bit (dueBits s pg 0x068) 0
  let s1 := boundary s pg
  let s2 := settleLevel j ((if has 0x068 then s1.setReg pg 0x068 0 else s1).modJet j (fun x =>
    { x with planeW := x.planeW || has 0x058 || has 0x05C }))
  let (restart, ramp) := jetChange s s2 j cmd
  match (s2.jet j).phase, edge with
  | .off, _ => s2
  | .run, none => if restart then stopJet j true s2 else s2
  | .run, some (k, e) =>
    if restart then (stopJet j true s2).modJet j (fun y => { y with fallAt := some (s.jetFall j k e) })
    else
      let s3 := if ramp then startFreqRamp j e (s.jetFreqAt j e) s2 else s2
      s3.modJet j (fun y => { y with fallAt := some (s3.jetFall j (if ramp then 0 else k) e) })
  | _, _ =>
    let start := s.bitAt pg 0x040 12 != s2.bitAt pg 0x040 12
    let dom := s.jetDom j != s2.jetDom j
    if cmd || start || dom then stopJet j true s2 else s2

/-- The stream of the half that a jet follows is there: its edge engine is not lost (R371). -/
def State.jetStream (s : State) (j : JetNo) : Bool :=
  (s.jet j).phase == .run && (match (s.jet j).half with
    | some h => !(s.jet j).bad.of h
    | none => false)

/-- The latest rising edge of the stream at a domain time, its number and its own time, if it has not been taken yet. -/
def State.riseDue (s : State) (j : JetNo) (t : Rat) : Option (Int × Rat) :=
  let k := (s.jetPhase j t).floor
  if (s.jet j).next ≤ k then some (k, s.jetAt j (k : Rat)) else none

/-- JET_BOUND of a rising edge that leaves `latePs` late (R362, R366, R371). -/
def noteBound (j : JetNo) (latePs : Rat) (s : State) : State :=
  let pg := pgJet j
  s.modJet j (fun y =>
    { y with bound := if s.unitBusy pg 4 then 0xFFFF else s.present y.dom (s.jetLevel7 j + latePs) })

/-- A rising edge of a running jet, due `sub` ps after the latest CLK_CORE edge: an unsquelch due takes effect, JET_BOUND is stored,
and the buffered writes that joined the edge come into force. A withheld edge does not reach the balls (R351, R353, R357, R359, R366,
R600). -/
def jetPeriodEdge (j : JetNo) (sub : Nat) (s : State) : State :=
  match (if s.jetStream j then s.riseDue j (s.jetTime j (sub : Rat)) else none) with
  | none => s
  | some (k, e) =>
    let x := s.jet j
    let s1 := (s.modJet j (fun y => { y with sq := y.sq && y.sqWant, next := k + 1, fallAt := some (s.jetFall j k e) })).evtIf
      (x.sq && !x.sqWant) (pgJet j) evUnsquelch
    let r := if (s1.jet j).sq then (s1, true) else jetEdge j .high e s1
    if r.2 then jetBoundary j (some (k, e)) (noteBound j 0 r.1) else r.1

/-- A falling edge within the running CLK_CORE cycle: a pending squelch, and a pending stop, take effect. A withheld edge leaves the
output and both as they are (R351, R357 to R360). -/
def jetFallingEdge (j : JetNo) (s : State) : State :=
  match (s.jet j).fallAt with
  | none => s
  | some e =>
    if s.jetStream j = false ∨ s.jetTime j 1250 < e then s
    else
      let x := s.jet j
      let s0 := s.modJet j (fun y => { y with fallAt := none })
      let r := if x.sq || x.level != .high then (s0, true) else jetEdge j .low e s0
      if !r.2 then r.1
      else
        let s2 := if x.sqWant && !x.sq then
            (r.1.modJet j (fun y => { y.drive (r.1.sqlLevel j) with sq := true })).setEvt (pgJet j) evSquelch
          else r.1
        if x.stop then
          let s3 := haltJet j s2
          if x.again then startJet j s3 else s3
        else s2

/-- JET_CMD.RESTART comes into force (R360). -/
def jetRestart (j : JetNo) (s : State) : State := stopJet j true s

/-- JET_KILL takes a value (R358). -/
def killJet (j : JetNo) (v : Nat) (s : State) : State :=
  let pg := pgJet j
  let old := s.jetKillVal j
  let s1 := (s.setReg pg 0x064 (fld v 0)).evtIf (old == 0 && v != 0) pg evJetKilled
  if v = 0 then
    if old = 0 then s1
    else if (s1.jet j).phase = .run then s1.modJet j (fun x => { x with again := x.stop })
    else startJet j s1
  else if v = 1 then (if (s1.jet j).phase = .off then settleLevel j s1 else stopJet j false s1)
  else haltJet j s1

/-- How far edges from an origin lie after the edges of a frequency with O at a whole second, ps, from 0 up to one period (R355,
R361). -/
def State.jetOffset (s : State) (j : JetNo) (o : Rat) : Nat :=
  let p := s.jetPeriod j
  let inSec := o - ((o / (secondT : Rat)).floor : Rat) * (secondT : Rat)
  let ps := (inSec - ((inSec / p).floor : Rat) * p) * 1000 / ((2 ^ 62 : Nat) : Rat)
  let a := openQ ps
  satN 40 (if p * 1000 / ((2 ^ 62 : Nat) : Rat) ≤ (a : Rat) then ps.floor else a).toNat

/-- A ramp reaches the new frequency, `sub` ps after the latest CLK_CORE edge: the edges go on from an origin of their own (R361). -/
def rampDone (j : JetNo) (sub : Nat) (s : State) : State :=
  match (s.jet j).ramp with
  | none => s
  | some r =>
    let e := r.t0 + r.span * (secondT : Rat)
    if s.jetStream j = false ∨ s.jetTime j (sub : Rat) < e then s
    else
      let o := e - r.within r.span * (secondT : Rat) / r.f1
      (s.modJet j (fun x => { x with ramp := none, o := o, align := s.jetOffset j o })).setEvt (pgJet j) evRampDone

/-! ## Beats, steps and resets (R352, R355, R357) -/

/-- A running stream keeps its edges in real time: what it holds of domain time moves with the time (R351, R355, R369). -/
def shiftJet (j : JetNo) (delta : Int) (s : State) : State :=
  s.modJet j (fun y =>
    { y with fallAt := y.fallAt.map (· + (delta : Rat)), lastAt := y.lastAt.map (· + (delta : Rat))
             ramp := y.ramp.map (fun r => { r with t0 := r.t0 + (delta : Rat) }) })

/-- A running CLOCK jet keeps its edges: its origin moves with the time (R355). -/
def moveOrigin (j : JetNo) (delta : Int) (s : State) : State :=
  let x := s.jet j
  let o := x.o + (delta : Rat)
  let unit : Rat := (secondT : Rat) / ((s.jetFreq j).num : Rat)
  let ok := x.aligned && decide ((o / unit).den = 1)
  (s.modJet j (fun y => { y with o := o, aligned := ok, align := if ok then 0 else s.jetOffset j o })).evtIf
    (x.aligned && !ok) (pgJet j) evMisaligned

/-- The next pulse of a jet is suppressed: the first due at or after `t`, and in a reset beat those of that beat (R195, R217, R355). -/
def suppressPulse (j : JetNo) (t : Nat) (reset : Bool) (s : State) : State :=
  let first := ceilQ (s.jetPhase j (t : Rat))
  let past := if reset then ceilQ (s.jetPhase j ((t + beatT : Nat) : Rat)) else first
  (s.modJet j (fun y => { y with next := max (first + 1) past })).setEvt (pgJet j) evSuppressed

/-- A step or a reset of a jet's domain, by `delta`, the time now standing at `t` (R195, R217, R355). -/
def jetStep (j : JetNo) (t : Nat) (delta : Int) (reset : Bool) (s : State) : State :=
  let x := s.jet j
  match x.phase with
  | .off => s
  | .forStep => if reset then s else placeOrigin j (nextBeat t) s
  | .wait => placeOrigin j t s
  | .run =>
    let s1 := shiftJet j delta s
    if s.jetPulse j then suppressPulse j t reset s1
    else if x.ramp.isSome then s1 else moveOrigin j delta s1

/-- Jets of a domain at a beat of the half the bus carries: a step or reset, then the squelch condition (R355, R357). -/
def jetsBeat (h : Half) (d : Dom) (moved : Option (Int × Bool)) (s : State) : State :=
  let s1 := match moved with
    | none => s
    | some (delta, reset) =>
      allJets.foldl (fun a j => if a.jetDomNow j = d then jetStep j (a.dom h d).t delta reset a else a) s
  allJets.foldl (fun a j =>
    if a.jetDomNow j = d ∧ (a.jet j).phase ≠ .off then a.modJet j (fun x => { x with sqWant := !a.jetOk j }) else a) s1

/-- A lost edge engine is reloaded from a peer that publishes and runs (R371). -/
def reloadEngines (j : JetNo) (s : State) : State :=
  allHalves.foldl (fun a h =>
    let x := a.jet j
    if x.bad.of h && a.gridOn h && !x.bad.of h.peer && a.gridOn h.peer && (a.arb.acted.of h.peer).isSome then
      startJet j (a.modJet j (fun y => { y with bad := y.bad.set h false }))
    else a) s

/-- A TD0 beat: jets that are killed, disabled or before O take their boundary, and lost edge engines are reloaded (R358, R371,
R600). -/
def jetsTd0 (s : State) : State :=
  allJets.foldl (fun a j => reloadEngines j (if (a.jet j).phase = .run then a else jetBoundary j none a)) s

/-! ## Switch-over (R292, R362) -/

/-- The new half's stream at the end of a hold: rising edges that passed since the last one taken, the latest of them or of those
taken, whether the stream is high, and its next edge after that instant. -/
structure JetAhead where
  passed : Nat
  last : Int
  high : Bool
  fall : Option Rat
  next : Rat
deriving DecidableEq, Repr

def State.jetAhead (s : State) (j : JetNo) (t : Rat) : JetAhead :=
  let x := s.jet j
  match s.riseDue j t with
  | some (k, e) =>
    let f := s.jetFall j k e
    let high := decide (t < f)
    { passed := (k - x.next + 1).toNat, last := k, high := high, fall := if high then some f else none
      next := if high then f else s.jetAt j ((k + 1 : Int) : Rat) }
  | none =>
    match x.fallAt with
    | some f =>
      if t < f then { passed := 0, last := x.next - 1, high := true, fall := some f, next := f }
      else { passed := 0, last := x.next - 1, high := false, fall := none, next := s.jetAt j (x.next : Rat) }
    | none => { passed := 0, last := x.next - 1, high := false, fall := none, next := s.jetAt j (x.next : Rat) }

/-- A running output at the end of the hold, `t` in the new half's time, its last edge `since` before: R362's three cases. -/
def rejoinJet (j : JetNo) (t since : Rat) (dev : Rat) (s : State) : State :=
  let x := s.jet j
  let a := s.jetAhead j t
  let lvl := x.level == .high
  let g := psUnits (s.jetGuard j)
  let tx := maxQ t (t - since + g)
  let moves := a.high != lvl && decide (g ≤ a.next + dev - tx)
  let edges := 2 * a.passed + (if lvl then 1 else 0) - (if a.high then 1 else 0)
  let s1 := s.modJet j (fun y => { y with
    next := a.last + 1, fallAt := a.fall, lastAt := if x.lastAt.isSome then some (t - since) else none
    delayed := y.delayed + BitVec.ofNat 16 ((edges + 1) / 2) })
  if !moves then s1
  else
    let s2 := s1.modJet j (fun y => { y.drive (if a.high then .high else .low) with
      lastAt := some tx, lastPs := s1.jetPs j tx, place := s1.jetPlace j tx })
    if a.high then
      let e := s.jetAt j (a.last : Rat)
      jetBoundary j (some (a.last, e)) (noteBound j ((tx - e) * 1000 / ((2 ^ 62 : Nat) : Rat)) s2)
    else s2

/-- A jet's arbiter switches `sub` ps after the latest CLK_CORE edge, with a hold in ps. The streams of the halves differ by a few ps
(R292): the output's last edge left by `devLast` from its place in the old stream, and the new stream's next edge leaves by `devNext`
from its own (log entry 212). -/
def jetSwitch (j : JetNo) (holdPs sub : Nat) (devLast devNext : Int) (s : State) : State :=
  let x := s.jet j
  match x.half, s.jetWant j with
  | some h, some k =>
    if h = k then s
    else
      let since := if x.lastAt.isSome then psUnits ((s.now : Rat) * 1250 + ((sub + holdPs : Nat) : Rat) - x.lastPs - (devLast : Rat))
        else psUnits (s.jetGuard j)
      let s1 := (s.modJet j (fun y => { y with half := some k, swCnt := y.swCnt + 1, hold := BitVec.ofNat 16 (satN 16 holdPs) })).setEvt
        (pgJet j) evJetSwitch
      if x.phase = .run ∧ x.sq = false then rejoinJet j (s1.jetTime j ((sub + holdPs : Nat) : Rat)) since (psUnits (devNext : Rat)) s1
      else s1
  | _, _ => s

/-! ## Detections (R371) -/

def jetDetection (j : JetNo) (det : Byte) (s : State) : State :=
  let pg := pgJet j
  match detKind (.jet j.val) det.toNat with
  | none => s
  | some k =>
    if det.toNat < 2 then
      let h : Half := if det.toNat = 0 then .A else .B
      if s.halfOn h then (s.modJet j (fun x => { x with bad := x.bad.set h true })).fault (placeOf h) pg k (kindSev k) det (s.locFor pg k det)
      else s
    else
      let s1 := s.fault 0 pg k (kindSev k) det (s.locFor pg k det)
      if det.toNat = 2 then s1.setEvt pg evRunt
      else if det.toNat = 3 then (s1.modJet j (fun x => { x with driverBad := true, level := .hiz })).setEvt pg evDriver
      else s1.modJet j (fun x => { x with bound := 0xFFFF })

/-- PAGE_FAULT.ACTIVE of a jet page is cleared: the driver returns, a running stream with its next rising edge
(R371). -/
def jetDriverBack (j : JetNo) (s : State) : State :=
  if (s.jet j).driverBad then
    settleLevel j (s.modJet j (fun y => { y with driverBad := false, level := .low, lastAt := none }))
  else s

/-- A jet page reset: the jet is disabled, a running output going low from its next falling edge (02 R51, R595). It clears
PAGE_FAULT.ACTIVE, so that the driver returns (R371). -/
def resetJet (j : JetNo) (s : State) : State :=
  let s1 := (jetDriverBack j s).modJet j (fun y =>
    { y with planeW := false, planeSet := false, bound := 0xFFFF, hold := 0, delayed := 0, swCnt := 0 })
  if (s.jet j).phase = .run then s1.modJet j (fun y => { y with stop := true, again := false }) else haltJet j s1

def execJetStart (j : JetNo) (s : State) : Host.Outcome State Fault Refusal := .next (startJet j s)
def execStarted (j : JetNo) (s : State) : Host.Outcome State Fault Refusal := .next (started j s)
def execJetPeriodEdge (j : JetNo) (sub : Nat) (s : State) : Host.Outcome State Fault Refusal := .next (jetPeriodEdge j sub s)
def execJetFallingEdge (j : JetNo) (s : State) : Host.Outcome State Fault Refusal := .next (jetFallingEdge j s)
def execJetRestart (j : JetNo) (s : State) : Host.Outcome State Fault Refusal := .next (jetRestart j s)
def execRampDone (j : JetNo) (sub : Nat) (s : State) : Host.Outcome State Fault Refusal := .next (rampDone j sub s)
def execJetSwitch (j : JetNo) (holdPs sub : Nat) (devLast devNext : Int) (s : State) :
    Host.Outcome State Fault Refusal := .next (jetSwitch j holdPs sub devLast devNext s)
def execJetDetection (j : JetNo) (det : Byte) (s : State) : Host.Outcome State Fault Refusal := .next (jetDetection j det s)

end Sys2Proof.Machine
end

