-- ==== Sys2Proof/Machine/Boot.lean ====
section
/-!
DEFINITION. Boot ROM, measured boot and the end of start-up (16, 18, 03).
-/

namespace Sys2Proof.Machine

/-! ## Firmware images in flash (18 R558, R559) -/

def regionBase (b : Bool) : Nat := if b then 0x80000 else 0

def flashByte (s : State) (a : Nat) : Byte := look flashReset s.mgt.flash a

def flashBytes (s : State) (a n : Nat) : List Byte := (List.range n).map (fun i => flashByte s (a + i))

def imgVersion (s : State) (r : Bool) : Nat := ofLe (flashBytes s (regionBase r + 8) 4)
def imgSvn (s : State) (r : Bool) : Nat := (flashByte s (regionBase r + 12)).toNat
def imgBodyLen (s : State) (r : Bool) : Nat := ofLe (flashBytes s (regionBase r + 16) 4)
def imgHeader (s : State) (r : Bool) : List Byte := flashBytes s (regionBase r) 512
def imgBody (s : State) (r : Bool) : List Byte := flashBytes s (regionBase r + 0x1000) (imgBodyLen s r)
def imgPubkey (s : State) (r : Bool) : List Byte := flashBytes s (regionBase r + 80) 96

/-- KS63 holds the digest of the verification key when it is VALID with SIGVER and OWNER 4 (R559). -/
def ks63Digest (s : State) : Option (List Byte) :=
  let k := s.slotKey 63
  if k.stateCode = 1 then some (bankMaterial s 63 k.curBank) else none

/-- The image is verified by the Dalnal key: KS63 is not VALID (R559). -/
def usesDalnalKey (s : State) : Bool := (ks63Digest s).isNone

/-- The public key is the one the module accepts (R559). -/
def pubkeyOk (s : State) (r : Bool) : Bool :=
  let d := Config.sha384 (imgPubkey s r)
  match ks63Digest s with
  | some m =>
    let a := (s.slotKey 63).curBank.attr
    m == measBytes d && attrSigver a && attrOwner a == 4
  | none => d == Config.dalnalDigest

/-- Every check of R559 but that of SVN. -/
def imageGood (s : State) (r : Bool) : Bool :=
  flashBytes s (regionBase r) 4 == ascii "IFLF" && ofLe (flashBytes s (regionBase r + 4) 2) == 1 &&
  decide (4096 ≤ imgBodyLen s r) && decide (imgBodyLen s r ≤ 393216) && pubkeyOk s r &&
  Config.ecdsaOk (imgPubkey s r) ((imgHeader s r).take 416) (flashBytes s (regionBase r + 416) 96) &&
  measBytes (Config.sha384 (imgBody s r)) == flashBytes s (regionBase r + 32) 48

/-- An image is valid (R559). -/
def imageValid (s : State) (r : Bool) : Bool := imageGood s r && decide (s.keys.fuse.rollback ≤ imgSvn s r)

/-- The selection of R560: the boot control record after it, and the image. -/
def selectImage (s : State) : BootCtl × BootImage :=
  let c := s.mgt.bootCtl
  let (c1, sel) : BootCtl × Bool :=
    if c.trial then
      if c.tries = 0 then ({ preferB := !c.preferB, trial := false, tries := 0 }, !c.preferB)
      else ({ c with tries := c.tries - 1 }, c.preferB)
    else (c, c.preferB)
  let pick := if imageValid s sel then some sel else if imageValid s (!sel) then some (!sel) else none
  (c1, match pick with
    | some true => .regionB
    | some false => .regionA
    | none => .recovery)

/-- The image that runs is the trial image: the boot control record is a trial of its region (R560, R573). -/
def isTrial (c : BootCtl) (i : BootImage) : Bool :=
  c.trial && ((i == .regionB && c.preferB) || (i == .regionA && !c.preferB))

/-! ## Step 4 (16 R500, R505, R520 to R523; 18 R560, R561) -/

/-- An interrupted erase is finished before anything else; the tamper configuration comes back after a loss of retention. -/
def bootRestore (s : State) : State :=
  let s1 := if s.keys.erasePend then eraseComplete { s with keys := { s.keys with erasing := true } } else s
  if s1.pwr.retentionLost then
    { s1 with keys := { s1.keys with tampCfg := s1.mgt.tamperRec.getD s1.keys.tampCfg } }
  else s1

/-- The tamper sources that the boot ROM raises itself: bad fuses and a loss of retention (R519). -/
def bootTampers (fuseOk : Bool) (s : State) : State :=
  let s1 := if fuseOk then s else tamperSource 7 s
  if s1.pwr.retentionLost then tamperSource 4 { s1 with pwr := { s1.pwr with retentionLost := false } } else s1

/-- A latched or decommissioned module is sealed; any other derives its internal keys (R500, R504; 01 R42). -/
def bootSeal (s : State) : State :=
  let s1 := if s.keys.latch ≠ 0 ∨ s.lifecycle = 3 then sealModule s else s
  if s1.pwr.state = .sealed then s1
  else { s1 with keys := { s1.keys with
    kint := some (deriveKey s1 false (ascii "IFL9740-INT") 48)
    kwrap := some (deriveKey s1 false (ascii "IFL9740-WRAP") 32) } }

/-- Recovery derives no key (18 R561). -/
def bootRecover (img : BootImage) (s : State) : State :=
  if img = .recovery then { s with keys := { s.keys with kint := none, kwrap := none } } else s

/-- The boot ROM has selected an image, a boot control record that changes being committed: ALIVE toggles from the end of step 4 (17 R550, 18 R560). -/
def bootSelected (pick : BootCtl × BootImage) (s : State) : State :=
  bootRecover pick.2 { (if pick.1 = s.mgt.bootCtl then s else s.count 681 1) with
    mgt := { s.mgt with bootCtl := pick.1, image := pick.2 }
    flt := { s.flt with aliveOn := true, frozen := false }
    pwr := { s.pwr with startStep := 4 } }

/-- Start-up step 4, or its restart. `fuseOk`: the lifecycle field reads and decodes; if not, it acts as DECOMMISSIONED and the
FUSE source asserts (R500, R519). K_int and K_wrap are derived unless the module is SEALED (01 R42). An erase left
pending is completed first, the tamper policy restored after an island power loss, and the latch acted on. In recovery
no key stands (18 R561). -/
def bootRomStart (fuseOk : Bool) (s : State) : State :=
  if s.pwr.resetLow || !(s.pwr.startStep == 3 || (s.pwr.startStep == 4 && s.mgt.image == .none)) then s
  else
    let s1 := bootSeal (bootTampers fuseOk (bootRestore { s with keys := { s.keys with fuseBad := !fuseOk } }))
    bootSelected (selectImage s1) s1

/-! ## Step 5 (16 R502, R503, R511; 18 R562 to R564) -/

/-- Extend a measurement register (16 R502). -/
def extendMeas (s : State) (i : Fin 8) (d : BitVec 384) : State :=
  let m := Config.sha384 (measBytes (s.keys.meas.get i) ++ measBytes d)
  { s with keys := { s.keys with meas := setAt s.keys.meas i m } }

/-- Owner and VIS of the default policy (15 R470, R469). -/
def defaultOwner (pg : Nat) : BitVec 3 × Bool :=
  match pageKind pg with
  | some (.hp n) => (BitVec.ofNat 3 n, false)
  | some .dev | some .mgt | some .pwr | some .flt => (4, true)
  | some _ => (0, true)
  | none => (7, false)

/-- A page's owner is changed by management; a change clears LOCK (02 R49). -/
def setOwner (s : State) (pg : Nat) (o : BitVec 3) (v : Bool) : State :=
  s.modPage pg (fun p => { p with owner := o, vis := v, lock := if p.owner = o then p.lock else false })

def implementedPages : List Nat := (List.range 256).filter (fun pg => (pageKind pg).isSome)

/-- Owner and VIS that the partition policy gives a page, the last of its records for the page; a partition's own page is
not assignable, and a page without a record has the default policy's (15 R469, R470, 18 R564). -/
def policyOwner (s : State) (pg : Nat) : BitVec 3 × Bool :=
  let listed := ((s.mgt.policy.map (fun p => p.pages)).getD []).filter (fun e => e.1.val == pg)
  match pageKind pg, listed.getLast? with
  | some (.hp _), _ => defaultOwner pg
  | _, some e => e.2
  | _, none => defaultOwner pg

/-- The page owners of the partition policy, or of the default policy, each page set once (02 R49). -/
def applyOwners (s : State) : State :=
  implementedPages.foldl (fun a pg => setOwner a pg (policyOwner s pg).1 (policyOwner s pg).2) s

/-- The owners of key slots, the administrator and SMB_PRIV of the partition policy, taken at a chip reset (18 R564). -/
def applyPolicy (s : State) : State :=
  let s1 := applyOwners s
  match s.mgt.policy with
  | none => { s1 with mgt := { s1.mgt with admin := none, smbPriv := false } }
  | some p =>
    let owner (n : KeyNo) : BitVec 3 := (((p.keyOwners.filter (fun e => e.1 == n)).getLast?).map (fun e => e.2)).getD 0
    let s2 := allKeys.foldl (fun a n => a.setSlotKey n { a.slotKey n with policyOwner := owner n }) s1
    { s2 with mgt := { s2.mgt with admin := p.admin, smbPriv := p.smbPriv } }

/-- A TDn_TROWEL value of the startup policy, where the once-written register has none yet. -/
def startupTrowel (s : State) (e : Dom × Word) : State :=
  if (s.page (pgTd e.1)).woDone.contains 0x060 then s
  else (s.setReg (pgTd e.1) 0x060 (e.2 &&& 0x701)).modPage (pgTd e.1) (fun x =>
    { x with woDone := x.woDone ++ [0x060], applySeq := x.applySeq + 1 })

/-- An initial value of the startup policy for a buffered register: as a write of it, it raises a residual and takes no value that the
register does not have (10 R323, R337; 11 R365, R366). -/
def startupInit (s : State) (e : Nat × Word) : State :=
  let pg := e.1 / 4096
  let off := e.1 % 4096
  match regAt? pg off with
  | none => s
  | some r =>
    if r.rwb = 0 then s
    else
      let s1 := match pageKind pg with
        | some (.jet n) => s.modJet (Fin.ofNat 16 n) (fun x => { x with planeW := x.planeW || off == 0x058 || off == 0x05C })
        | _ => s
      (s1.setReg pg off (legalWord (s.floorWord pg off) pg off (s.reg pg off) (mergeMask (s.reg pg off) e.2 r.rwb))).modPage pg (fun x => { x with applySeq := x.applySeq + 1 })

/-- The start-up policy's values, written while no half is powered: in force at once in the common die's copy
(18 R564, 06 R212, 01 R25). Only WO TROWEL and RWB fields are taken. -/
def applyStartup (s : State) : State :=
  match s.mgt.startup with
  | none => s
  | some p =>
    allJets.foldl (fun a j => settleLevel j a) (p.init.foldl startupInit (p.trowel.foldl startupTrowel s))

/-- The boot ROM extends a measurement; once the measurements are locked, until the next chip reset, the request is refused and logged
(16 R503). -/
def romExtend (i : Fin 8) (d : BitVec 384) (s : State) : State :=
  if s.keys.measLocked then s.logRec 0x0009 0 else extendMeas s i d

/-- The image is verified, MEAS0 to MEAS2 are extended, the firmware starts, finds the newest event log record and
applies the policies (16 R502, 18 R556, R559, R564, R579). -/
def measuredBoot (s : State) : State :=
  let r? : Option Bool := match s.mgt.image with | .regionA => some false | .regionB => some true | _ => none
  match r? with
  | none => s
  | some r =>
    if s.pwr.startStep ≠ 4 ∨ s.mgt.running then s
    else
      let s1 := romExtend 0 (Config.sha384 (leBytes 8 s.lifecycle ++ leBytes 8 s.keys.fuse.rollback ++
        leBytes 8 Config.bootRomVersion)) s
      let s2 := romExtend 1 (Config.sha384 (imgHeader s r ++ imgBody s r)) s1
      let s3 := romExtend 2 (Config.sha384 (imgPubkey s r)) s2
      let m := s3.mgt
      let trial := isTrial m.bootCtl m.image
      let s4 : State := { s3 with mgt := { m with
        running := true, measured := true, version := BitVec.ofNat 32 (imgVersion s r), svn := imgSvn s r,
        trialImage := trial, dalnalKey := usesDalnalKey s } }
      let s5 := applyStartup (applyPolicy s4)
      s5.logRec 0x0007 ((if r then 1 else 0) + (if trial then 2 else 0) + 4 * m.bootCtl.tries + 256 * imgSvn s r +
        2 ^ 32 * imgVersion s r)

/-- A measurement register is extended, or the request is refused and logged after the lock (16 R503). -/
def measExtend (i : Fin 8) (d : BitVec 384) (s : State) : State :=
  if s.keys.measLocked then s.logRec 0x0009 0
  else if s.mgt.running then extendMeas s i d else s

/-- Lock the measurements and load the key store (16 R503, R511). -/
def measLock (s : State) : State :=
  if s.mgt.running && !s.keys.measLocked then loadStore { s with keys := { s.keys with measLocked := true } } else s

def allSides : List Half := [.A, .B]

/-- Start-up step 5 completes (03 R106 to R108, 18 R562): PCIe trains, the state follows the feeds, step 6 powers the
halves whose feeds are detected and loads the lanes' calibration (10 R322; 18 R562), and the next mint epoch is committed and in use
(14 R453). In SEALED no half is powered (01 R42). -/
def step5Complete (s : State) : State :=
  if s.pwr.startStep = 4 ∧ s.mgt.image ≠ .none ∧ s.keys.measLocked ∧ s.keys.storeLoaded ∧ s.pwr.state = .boot then
    let both := allSides.all (fun h => (s.pwr.feeds.of h).detected && !(s.pwr.halfHot.of h))
    let on (h : Half) : HalfPwr := if (s.pwr.feeds.of h).detected && !(s.pwr.halfHot.of h) then .held else s.pwr.half.of h
    let s1 : State := { s with
      pwr := { s.pwr with startStep := 6, pcieUp := true, state := if both then .run else .reduced, half := ⟨on .A, on .B⟩ }
      parts := s.parts.map (fun p => { p with linkUp := true, bme := true }) }
    let s2 := allLanes.foldl (fun a n => loadLane n (a.laneMode n) a) s1
    if s2.ftn.stored = 0xFFFFFF then s2 else useEpoch (commitEpoch s2)
  else s

/-- 100 ms after a failure of step 4 or 5 the boot ROM restarts step 4, START_STEP not falling (03 R599); after 3 restarts it
enters recovery (18 R561, R563). -/
def bootRestart (step reason : Byte) (s : State) : State :=
  if (s.pwr.startStep = 3 ∨ s.pwr.startStep = 4) ∧ s.pwr.state = .boot ∧ s.mgt.image ≠ .recovery then
    let s1 := s.storeRec (s.record 0x0008 (step.toNat + 256 * reason.toNat))
    if s.mgt.bootFails < 3 then
      { s1 with
        mgt := { s1.mgt with bootFails := s1.mgt.bootFails + 1, image := .none, running := false, measured := false } }
    else
      { s1 with
        mgt := { s1.mgt with image := .recovery, running := false }
        pwr := { s1.pwr with startStep := 4 } }
  else s

def execBootRomStart (fuseOk : Bool) (s : State) : Host.Outcome State Fault Refusal := .next (bootRomStart fuseOk s)
def execMeasuredBoot (s : State) : Host.Outcome State Fault Refusal := .next (measuredBoot s)
def execMeasExtend (i : Fin 8) (d : BitVec 384) (s : State) : Host.Outcome State Fault Refusal := .next (measExtend i d s)
def execMeasLock (s : State) : Host.Outcome State Fault Refusal := .next (measLock s)
def execMeasLockTimeout (s : State) : Host.Outcome State Fault Refusal := .next (measLock s)
def execStep5Complete (s : State) : Host.Outcome State Fault Refusal := .next (step5Complete s)
def execBootRestart (step reason : Byte) (s : State) : Host.Outcome State Fault Refusal := .next (bootRestart step reason s)

end Sys2Proof.Machine
end

