-- ==== Sys2Proof/Machine/Frames.lean ====
section
/-!
DEFINITION. Frames as octets: Ethernet, IP and UDP headers, PTP messages and their TLVs, ESMC PDUs, NTP requests and their
extension fields, written out and read (12 R377, R378, R385; 13 R396, R406, R415; 14 R429, R446). What the spec takes from its
standards is PRESUMED (log entry 214).
-/

namespace Sys2Proof.Machine

/-! ## Octets -/

/-- A signed number in two's complement, most significant octet first. -/
def beInt (n : Nat) (v : Int) : List Byte := beBytes n (v % ((2 ^ (8 * n) : Nat) : Int)).toNat

/-- The octet at a place, and the number that stands in `n` octets there; what lies beyond the end counts as 0. -/
def octAt (l : List Byte) (i : Nat) : Nat := ((l[i]?).getD 0).toNat
def numAt (l : List Byte) (i n : Nat) : Nat := ofBe ((l.drop i).take n)

/-- Octets written over those at a place. -/
def overwrite (l : List Byte) (i : Nat) (v : List Byte) : List Byte := l.take i ++ v ++ l.drop (i + v.length)

/-- The sum of 16-bit words, an odd last octet filled up with a zero. -/
def wordSum : List Byte → Nat
  | a :: b :: r => 256 * a.toNat + b.toNat + wordSum r
  | [a] => 256 * a.toNat
  | [] => 0

/-- A sum brought into 16 bits with end-around carry. -/
def carry16 (n : Nat) : Nat := if n = 0 then 0 else (n - 1) % 65535 + 1

/-- The ones'-complement checksum of octets. -/
def inetSum (l : List Byte) : Nat := 65535 - carry16 (wordSum l)

/-! ## Headers (12 R377; 13 R396; 14 R432) -/

/-- What carries a message. -/
inductive NetHdr where
  | l2 (etherType : Nat)
  | udp4 (src dst : BitVec 32) (sport dport ttl : Nat) (csum : Bool)
  | udp6 (src dst : BitVec 128) (sport dport hops : Nat)
deriving DecidableEq, Repr

structure LinkHdr where
  dst : BitVec 48
  src : BitVec 48
  /-- PCP and VLAN_ID of a tag -/
  tci : Option Nat
  net : NetHdr
deriving DecidableEq, Repr

/-- A UDP datagram; its checksum, where it is computed, covers the pseudo-header too. -/
def udpOctets (pseudo : List Byte) (sport dport : Nat) (csum : Bool) (payload : List Byte) : List Byte :=
  let hdr (c : Nat) : List Byte := beBytes 2 sport ++ beBytes 2 dport ++ beBytes 2 (8 + payload.length) ++ beBytes 2 c
  let k := inetSum (pseudo ++ hdr 0 ++ payload)
  hdr (if csum then (if k = 0 then 65535 else k) else 0) ++ payload

/-- An IPv4 header; `free` fills the fields that the spec leaves open: type of service, identification, don't-fragment. -/
def ip4Octets (src dst : BitVec 32) (ttl len free : Nat) : List Byte :=
  let hdr (c : Nat) : List Byte :=
    [0x45, BitVec.ofNat 8 free] ++ beBytes 2 (20 + len) ++ beBytes 2 (free / 2 ^ 8) ++ beBytes 2 (free / 2 ^ 24 % 2 * 2 ^ 14) ++
      [BitVec.ofNat 8 ttl, 17] ++ beBytes 2 c ++ beBytes 4 src.toNat ++ beBytes 4 dst.toNat
  hdr (inetSum (hdr 0))

/-- An IPv6 header; `free` fills traffic class and flow label. -/
def ip6Octets (src dst : BitVec 128) (hops len free : Nat) : List Byte :=
  beBytes 4 (6 * 2 ^ 28 + free % 2 ^ 28) ++ beBytes 2 len ++ [17, BitVec.ofNat 8 hops] ++ beBytes 16 src.toNat ++ beBytes 16 dst.toNat

def NetHdr.octets (n : NetHdr) (free : Nat) (payload : List Byte) : List Byte :=
  match n with
  | .l2 t => beBytes 2 t ++ payload
  | .udp4 s d sp dp ttl csum =>
    let u := udpOctets (beBytes 4 s.toNat ++ beBytes 4 d.toNat ++ [0, 17] ++ beBytes 2 (8 + payload.length)) sp dp csum payload
    beBytes 2 0x0800 ++ ip4Octets s d ttl u.length free ++ u
  | .udp6 s d sp dp hops =>
    let u := udpOctets (beBytes 16 s.toNat ++ beBytes 16 d.toNat ++ beBytes 4 (8 + payload.length) ++ beBytes 4 17) sp dp true payload
    beBytes 2 0x86DD ++ ip6Octets s d hops u.length free ++ u

/-- A whole frame short of its FCS, filled up to 60 octets (12 R375). -/
def LinkHdr.frame (h : LinkHdr) (free : Nat) (payload : List Byte) : List Byte :=
  let f := beBytes 6 h.dst.toNat ++ beBytes 6 h.src.toNat ++ h.tci.elim [] (fun t => beBytes 2 0x8100 ++ beBytes 2 t) ++
    h.net.octets free payload
  f ++ List.replicate (60 - f.length) 0

/-! ## Host frames (12 R377) -/

/-- The contribution of octets at a place to a sum of the frame's 16-bit words. -/
def sumAt (i : Nat) (v : List Byte) : Nat := wordSum (if i % 2 = 0 then v else 0 :: v)

/-- Ten octets of a timestamp are written at an offset, and the sum at a checksum offset is corrected for what they replace. -/
def stampFrame (bytes : List Byte) (off : Nat) (csum : Option Nat) (stamp : List Byte) : List Byte :=
  let out := overwrite bytes off stamp
  match csum with
  | none => out
  | some c =>
    let old := sumAt off ((bytes.drop off).take stamp.length)
    let sum := (65535 - numAt out c 2) + (65535 * (old + 1) - old) + sumAt off stamp
    overwrite out c (beBytes 2 (65535 - carry16 sum))

/-! ## PTP messages (13 R395 to R401, R406, R415) -/

/-- The header of a PTP message; `flags` has flagField's first octet high. -/
structure PtpHdr where
  typ : Nat
  domainNum : BitVec 8
  flags : Nat
  corr : Int
  clockId : BitVec 64
  portNum : BitVec 16
  seq : BitVec 16
  ctl : Nat
  log : Int
deriving DecidableEq, Repr

/-- A PTP message with `more` octets to follow those given: versionPTP 2 and minorVersionPTP 1 (13 R395). -/
def PtpHdr.octets (h : PtpHdr) (body : List Byte) (more : Nat) : List Byte :=
  [BitVec.ofNat 8 h.typ, 0x12] ++ beBytes 2 (34 + body.length + more) ++ [h.domainNum, 0] ++ beBytes 2 h.flags ++ beInt 8 h.corr ++
    beBytes 4 0 ++ beBytes 8 h.clockId.toNat ++ beBytes 2 h.portNum.toNat ++ beBytes 2 h.seq.toNat ++
    [BitVec.ofNat 8 h.ctl, BitVec.ofInt 8 h.log] ++ body

/-- Octets of a message with correctionField taken as 0 (13 R415). -/
def zeroCorr (m : List Byte) : List Byte := overwrite m 8 (List.replicate 8 0)

/-- Octets of a message before its TLVs, by messageType. -/
def ptpBody (typ : Nat) : Nat := if typ = 0x9 then 54 else if typ = 0xB then 64 else 44

/-- The TLVs that stand in octets, type and value. -/
def tlvsIn : Nat → List Byte → List (Nat × List Byte)
  | 0, _ => []
  | n + 1, l =>
    if l.length < 4 then []
    else (numAt l 0 2, (l.drop 4).take (numAt l 2 2)) :: tlvsIn n (l.drop (4 + numAt l 2 2))

def ptpTlvs (m : List Byte) : List (Nat × List Byte) := tlvsIn m.length (m.drop (ptpBody (octAt m 0 % 16)))

/-- The AUTHENTICATION TLV of a message, which is its last one (13 R407, R415). -/
def ptpAuth (m : List Byte) : Option AuthTlv :=
  ((ptpTlvs m).find? (fun e => e.1 == 0x8009)).map (fun e =>
    { spp := BitVec.ofNat 8 (octAt e.2 0), keyId := BitVec.ofNat 32 (numAt e.2 2 4), octets := m.take (m.length - 16)
      icv := BitVec.ofNat 128 (ofBe (m.drop (m.length - 16))) })

/-- What decides whether a message is consumed. -/
def ptpHead (vlan : Option (BitVec 12)) (m : List Byte) : PtpHead :=
  { vlan := vlan, version := BitVec.ofNat 4 (octAt m 1), minor := BitVec.ofNat 4 (octAt m 1 / 16), domainNum := BitVec.ofNat 8 (octAt m 4) }

/-! ## Frames received (12 R378, R385; 13 R395; 14 R429) -/

/-- What a received frame is, as the engines classify it. -/
inductive FrameKind where
  /-- the octets of an IEEE 1588 message -/
  | ptp (msg : List Byte)
  /-- a datagram to UDP port 123 whose IP framing R429 admits: mode field and destination address -/
  | ntp (mode : Nat) (is6 : Bool) (dst : BitVec 128)
  | esmc
  | macControl
  | other
deriving DecidableEq, Repr

/-- A received frame as far as the port looks into it: transport 0 L2, 1 UDP/IPv4, 2 UDP/IPv6, with the source's address there. -/
structure Parsed where
  dst : BitVec 48
  vlan : Option (BitVec 12)
  transport : Nat
  src : BitVec 128
  kind : FrameKind
deriving DecidableEq, Repr

/-- A PTP message, of the length that its header gives. -/
def ptpIn (l : List Byte) : FrameKind := if numAt l 2 2 < 34 ∨ l.length < numAt l 2 2 then .other else .ptp (l.take (numAt l 2 2))

/-- A UDP datagram by its destination port. -/
def udpIn (u : List Byte) (is6 : Bool) (dst : BitVec 128) : FrameKind :=
  let body := (u.drop 8).take (numAt u 4 2 - 8)
  let port := numAt u 2 2
  if port = 319 ∨ port = 320 then ptpIn body
  else if port = 123 then .ntp (octAt body 0 % 8) is6 dst
  else .other

/-- What follows an EtherType: transport, source address and kind. An IPv4 datagram is looked into without options and
unfragmented, an IPv6 one without extension header (14 R429). -/
def netIn (src : BitVec 48) (etherType : Nat) (l : List Byte) : Nat × BitVec 128 × FrameKind :=
  let mac : BitVec 128 := src.setWidth 128
  if etherType = 0x88F7 then (0, mac, ptpIn l)
  else if etherType = 0x8808 then (0, mac, .macControl)
  else if etherType = 0x8809 then (0, mac, if octAt l 0 = 0x0A then .esmc else .other)
  else if etherType = 0x0800 then
    (1, BitVec.ofNat 128 (numAt l 12 4),
      if octAt l 0 = 0x45 ∧ numAt l 6 2 % 2 ^ 14 = 0 ∧ octAt l 9 = 17 then udpIn (l.drop 20) false (BitVec.ofNat 128 (numAt l 16 4)) else .other)
  else if etherType = 0x86DD then
    (2, BitVec.ofNat 128 (numAt l 8 16), if octAt l 6 = 17 then udpIn (l.drop 40) true (BitVec.ofNat 128 (numAt l 24 16)) else .other)
  else (0, mac, .other)

/-- A frame as the port reads it; a tag is one of IEEE 802.1Q. -/
def parseFrame (b : List Byte) : Parsed :=
  let tagged := numAt b 12 2 == 0x8100
  let i := if tagged then 16 else 12
  let net := netIn (BitVec.ofNat 48 (numAt b 6 6)) (numAt b i 2) (b.drop (i + 2))
  { dst := BitVec.ofNat 48 (numAt b 0 6), vlan := if tagged then some (BitVec.ofNat 12 (numAt b 14 2)) else none
    transport := net.1, src := net.2.1, kind := net.2.2 }

/-! ## ESMC PDUs (12 R385, R387) -/

/-- An ESMC PDU: slow protocol, subtype 0x0A, the event flag and the QL TLV (ITU-T G.8264). -/
def esmcFrame (src : BitVec 48) (event : Bool) (ql : BitVec 4) : List Byte :=
  let h : LinkHdr := { dst := 0x0180C2000002, src := src, tci := none, net := .l2 0x8809 }
  h.frame 0 ([0x0A, 0x00, 0x19, 0xA7, 0x00, 0x01, if event then 0x18 else 0x10, 0, 0, 0] ++ [0x01, 0x00, 0x04, BitVec.ofNat 8 ql.toNat])

/-! ## NTP requests (14 R429, R433, R446) -/

def ntpMode (r : NtpReq) : Nat := octAt r.hdr 0 % 8
def ntpVersion (r : NtpReq) : Nat := octAt r.hdr 0 / 8 % 8
def ntpPoll (r : NtpReq) : Nat := octAt r.hdr 2
def ntpXmit (r : NtpReq) : BitVec 64 := BitVec.ofNat 64 (numAt r.hdr 40 8)

/-- An extension field of RFC 7822: type, length, body padded to a whole number of words. -/
def padding (n : Nat) : Nat := (4 - n % 4) % 4
def extField (typ : Nat) (body : List Byte) : List Byte :=
  beBytes 2 typ ++ beBytes 2 (4 + body.length + padding body.length) ++ body ++ List.replicate (padding body.length) 0

def uidField (u : List Byte) : List Byte := extField 0x0104 u

/-- The extension fields that stand in octets, type and body; none where they do not follow RFC 7822 or leave the payload. -/
def extFields : Nat → List Byte → Option (List (Nat × List Byte))
  | 0, l => if l.isEmpty then some [] else none
  | n + 1, l =>
    if l.isEmpty then some []
    else if l.length < 4 ∨ numAt l 2 2 % 4 ≠ 0 ∨ numAt l 2 2 < 16 ∨ l.length < numAt l 2 2 then none
    else (extFields n (l.drop (numAt l 2 2))).map (fun r => (numAt l 0 2, (l.take (numAt l 2 2)).drop 4) :: r)

/-- The parts of a well-formed NTS request. -/
structure NtsParts where
  uid : List Byte
  cookie : List Byte
  placeholders : Nat
  /-- the NTP header and the fields before the authenticator, which the AEAD covers -/
  assoc : List Byte
  nonce : List Byte
  cipher : List Byte
deriving DecidableEq, Repr

/-- The authenticator field's parts, where its lengths fit and are those of R446. -/
def authParts (b : List Byte) : Option (List Byte × List Byte) :=
  let n := numAt b 0 2
  let c := numAt b 2 2
  if 16 ≤ n ∧ n ≤ 32 ∧ 16 ≤ c ∧ 4 + n + padding n + c + padding c ≤ b.length then
    some ((b.drop 4).take n, (b.drop (4 + n + padding n)).take c)
  else none

/-- An NTS request's parts when it is well formed, its VN apart (14 R446). -/
def ntsParts (r : NtpReq) (n : NtsReq) : Option NtsParts :=
  match extFields n.ext.length n.ext with
  | none => none
  | some fs =>
    let of (t : Nat) : List (List Byte) := (fs.filter (fun e => e.1 == t)).map (·.2)
    match of 0x0104, of 0x0204, of 0x0404, fs.getLast? with
    | [u], [c], [a], some (0x0404, _) =>
      if 32 ≤ u.length ∧ u.length ≤ 64 then
        (authParts a).map (fun p =>
          { uid := u, cookie := c, placeholders := ((of 0x0304).filter (fun h => h.length == c.length)).length
            assoc := r.hdr ++ n.ext.take (n.ext.length - (4 + a.length)), nonce := p.1, cipher := p.2 })
      else none
    | _, _, _, _ => none

end Sys2Proof.Machine
end

