-- ==== Sys2Proof/Machine/Overlay.lean ====
section
/-!
DEFINITION. The configuration in force on each half (01 R22, R24; 02 R57): the pages hold what the half that the arbiters follow
has in force; a half that puts a captured set in force at another instant, at its own beat of the same number, keeps the words
that differ.
-/

namespace Sys2Proof.Machine

/-- Pages whose captured sets go to every half with the number of the target beat (R57). -/
def forwarded (pg : Nat) : Bool :=
  match pageKind pg with
  | some (.rs _) | some (.td _) | some .cis => true
  | _ => false

def State.putWords (s : State) (pg : Nat) (ws : KMap Word) : State := ws.foldl (fun a e => a.setReg pg e.1 e.2) s

/-- The module as a half's own configuration makes it. -/
def State.view (s : State) (h : Half) : State :=
  let x := s.half h
  let s1 := x.early.foldr (fun c a => a.putWords c.page c.words) s
  x.late.foldl (fun a c => a.putWords c.page c.old) s1

/-- What a half has done under its own configuration, with the words in force as they were in `s`. -/
def State.unview (t s : State) (h : Half) : State :=
  let x := s.half h
  (x.early ++ x.late).foldl (fun a c => a.modPage c.page (fun p => { p with regs := (s.page c.page).regs })) t

/-- A half's work under its own configuration, and one that touches nothing but the halves. -/
def State.inView (s : State) (h : Half) (f : State → State) : State := (f (s.view h)).unview s h
def State.halvesIn (s : State) (h : Half) (f : State → State) : State := { s with halves := (f (s.view h)).halves }

/-- Pages whose boundary is a beat of a domain (02 R55): the domain's own, slots tied to it, and with TD0 the pages
not tied to a domain, capture pages among them. -/
def State.beatPages (s : State) (d : Dom) : List Nat :=
  [pgTd d] ++ (allSlots.filter (fun n => s.slotBeat n == d)).map pgRs ++
    (if d = 0 then [pgHalf, pgLath, pgSl, pgCis] ++ (List.range 8).map (· + 0x48) else [])

/-- The words of a page as its registers take them. -/
def State.legalWords (s : State) (pg : Nat) (ws : KMap Word) : KMap Word :=
  ws.map (fun e => (e.1, legalWord (s.floorWord pg e.1) pg e.1 (s.reg pg e.1) e.2))

/-- The set that a page has due for a beat, with what it takes the place of. -/
def State.dueSet (s : State) (d : Dom) (n pg : Nat) : ConfSet :=
  let ws := s.legalWords pg (s.page pg).dueWords
  { dom := d, beat := n, page := pg, words := ws, old := ws.map (fun e => (e.1, s.reg pg e.1)) }

/-- What a set does on a half where it comes into force: REQUAL and ADOPT wait for the slot's boundary, and a receiver takes
TAI_UTC with its pending leap (05 R159, R173, R178, R179). -/
def setTaken (h : Half) (c : ConfSet) (s : State) : State :=
  match pageKind c.page with
  | some (.rs m) =>
    if hm : m < 32 then
      let cmd := look (fun _ => (0 : Word)) c.words 0x068
      let utc := look (fun _ => (0 : Word)) c.words 0x074
      let tod := (m == 8 || m == 9) && c.words.any (fun e => e.1 == 0x074)
      s.modSlot h ⟨m, hm⟩ (fun z =>
        { z with pend := { z.pend with adopt := z.pend.adopt || bit cmd 0, requal := z.pend.requal || bit cmd 1 }
                 taiUtc := if tod then bits utc 7 0 else z.taiUtc
                 leapPend := if tod then bits utc 10 9 else z.leapPend
                 leapDue := z.leapDue && (!tod || bits utc 10 9 == 1) })
    else s
  | _ => s

def HalfSt.tookEarly (x : HalfSt) (pg : Nat) : Bool := x.early.any (fun c => c.page == pg)
def HalfSt.dropEarly (x : HalfSt) (pg : Nat) : HalfSt := { x with early := x.early.filter (fun c => c.page != pg) }

/-- The half with whose beat a set is decided has it in force (R57), unless it had taken it already. -/
def takeOwn (h : Half) (c : ConfSet) (s : State) : State :=
  if (s.half h).tookEarly c.page then s.modHalf h (fun x => x.dropEarly c.page) else setTaken h c s

/-- Its peer puts it in force at its own beat of that number (R22, R57); one whose grid does not run takes the configuration when it
locks or loads (R24). -/
def giveSet (h : Half) (c : ConfSet) (s : State) : State :=
  if (s.half h).tookEarly c.page then s.modHalf h (fun x => x.dropEarly c.page)
  else if s.gridOn h then s.modHalf h (fun x => { x with late := c :: x.late })
  else s

/-- A forwarded page's boundary with the half whose beat decides it; bits that act read 0 again (05 R159, R173). -/
def commitSet (h : Half) (d : Dom) (n pg : Nat) (s : State) : State :=
  let c := s.dueSet d n pg
  let s1 := boundary s pg
  if c.words.isEmpty then s1
  else
    let s2 := match commandReg pg with
      | some o => s1.setReg pg o 0
      | none => s1
    giveSet h.peer c (takeOwn h c s2)

/-- A half that reaches the beat before the one it is decided with: it takes the page's due words now, and no later write joins
them (R56, R57). -/
def takeEarly (h : Half) (d : Dom) (n pg : Nat) (s : State) : State :=
  let c := s.dueSet d n pg
  if !forwarded pg || c.words.isEmpty || (s.half h).tookEarly pg then s
  else setTaken h c ((s.modPage pg Page.captureLate).modHalf h (fun x => { x with early := c :: x.early }))

/-- Sets of a domain that a half has still to put in force come into force on it, up to a beat, or all of them. -/
def takeLate (h : Half) (d : Dom) (upTo : Option Nat) (s : State) : State :=
  let due (c : ConfSet) : Bool := c.dom == d && (match upTo with
    | some n => decide (c.beat ≤ n)
    | none => true)
  let cs := (s.half h).late.filter due
  cs.foldr (setTaken h) (s.modHalf h (fun x => { x with late := x.late.filter (fun c => !due c) }))

/-- The sets a half took before the half that the arbiters followed: decided with it once they follow it (01 R43; 02 R57). -/
def settleEarly (h : Half) (s : State) : State :=
  (s.half h).early.foldr (fun c a => commitSet h c.dom c.beat c.page a) s

/-- A page whose registers return to reset: no set of it waits on either half (02 R51). -/
def dropSets (pg : Nat) (s : State) : State :=
  allHalves.foldl (fun a h => a.modHalf h (fun x =>
    { x with late := x.late.filter (fun c => c.page != pg), early := x.early.filter (fun c => c.page != pg) })) s

end Sys2Proof.Machine
end

