-- ==== Sys2Proof/Machine/Slots.lean ====
section
/-!
DEFINITION. Reference slots (05): observations, monitors, qualification states, time of day and telemetry.
-/

namespace Sys2Proof.Machine

/-- Event bits of a slot page (R189). -/
def evRsState : Nat := 0
def evRsLost : Nat := 1
def evRsQual : Nat := 2
def evRsDisq : Nat := 3
def evRsDisag : Nat := 4
def evRsPstep : Nat := 5
def evRsPds : Nat := 6
def evRsTodErr : Nat := 7
def evRsLeap : Nat := 8
def evRsUtcMis : Nat := 9
def evRsAtom : Nat := 10
def evRsAdopt : Nat := 11

def State.modSd (s : State) (h : Half) (n : SlotNo) (d : Dom) (f : SlotDom → SlotDom) : State :=
  s.modSlot h n (fun x => { x with dom := modAt x.dom d f })

def State.modPend (s : State) (h : Half) (n : SlotNo) (f : SlotPend → SlotPend) : State :=
  s.modSlot h n (fun x => { x with pend := f x.pend })

/-! ## Comparison scales (R163) -/

/-- A combination of the other slots' values with the weights in use, or, where these sum to 0, with their targets. -/
def State.combine (s : State) (h : Half) (d : Dom) (l : List SlotNo) (f : SlotNo → Rat) : Rat :=
  let w := l.map (fun i => s.wUse h i d)
  let u := if sumQ w = 0 then l.map (fun i => (s.sd h i d).w1) else w
  if sumQ u = 0 then meanQ (l.map f) else sumQ ((l.zip u).map (fun p => p.2 * f p.1)) / sumQ u

/-- The latest offset of a slot against a domain, ps. -/
def State.latestX (s : State) (h : Half) (i : SlotNo) (d : Dom) : Rat := (((s.sd h i d).latest.getD 0 : Int) : Rat)

/-- x − C of an observation that a slot holds, against the scale that the slots' states give now (R163, R166). -/
def State.devNow (s : State) (h : Half) (n : SlotNo) (d : Dom) (o : Obs) : Rat :=
  if s.useLoo h n d then
    (o.x : Rat) - s.combine h d (s.others h n d) (fun i => (((s.sd h i d).xAt o.el : Int) : Rat))
  else o.coast

/-- The observations that give a slot's frequency: on RS30 with CLK_EN those of ATOM_CLK (R149, R182). -/
def State.freqObs (s : State) (h : Half) (n : SlotNo) (d : Dom) : SlotDom :=
  let q := s.sd h n d
  if n.val = 30 ∧ s.bitAt (pgRs n) 0x070 4 = true then { q with obs := q.clk } else q

/-- An event of a slot page with its record (R186, R189): slot, state, half and bit. -/
def State.slotEvt (s : State) (h : Half) (n : SlotNo) (b : Nat) : State :=
  let x := s.slot h n
  (s.evtH h (pgRs n) b).logRec 0x0002
    (n.val + 256 * x.st + 4096 * x.st + 65536 * x.cause + 2 ^ 20 * b + 2 ^ 24 * (h.ix.val + 1))

/-- A comparison period starts for a slot in a domain (R163). -/
def periodStart (y : DomSt) (q : SlotDom) : SlotDom :=
  { q with per := q.per + 1, perAcc := y.acc, perNb := y.nb, perRate := y.meanRate 65536 }

/-! ## Per-observation monitors (R164 to R166) -/

/-- Reduction of a PHASE offset into (−0.5 s, +0.5 s] (R153). -/
def reducePhase (x : Int) : Int :=
  let m := x % 1000000000000
  if m ≤ 500000000000 then m else m - 1000000000000

/-- The phase-step detector on one offset: residual from the fit, whether it exceeds, and the run of such; an observation that it
does not evaluate ends the run (R164, R165). -/
def State.pstepRun (s : State) (h : Half) (n : SlotNo) (d : Dom) (el : Nat) (x : Int) : Bool × Nat :=
  let q := s.sd h n d
  let pts := ((q.window el 64).filter (fun o => o.fit && decide (q.startEl ≤ o.el))).map Obs.pt
  if pts.length < 2 then (false, 0)
  else
    let r := absQ ((x : Rat) - lineAt pts (secQ el))
    if ((s.fieldAt (pgRs n) 0x058 31 16 * 1000 : Nat) : Rat) < r then (true, q.exceed + 1) else (false, 0)

/-- Whether the phase-limit monitor evaluates (R166, R597). -/
def State.phEvaluates (s : State) (h : Half) (n : SlotNo) (d : Dom) : Bool :=
  decide (0 < (s.sd h n d).nSince) && ((s.dom h d).stepped || s.useLoo h n d)

/-- A slot that may still fail is QUALIFYING, QUALIFIED or DISAGREEING (R159). -/
def SlotSt.live (x : SlotSt) : Bool := x.st == 2 || x.st == 3 || x.st == 4

/-- A failure of a frequency or drift-slope monitor waits for the boundary; the first one found stands (R159). The
drift-slope monitor sets LATCH besides (R160). -/
def State.failSlot (s : State) (h : Half) (n : SlotNo) (cause : Nat) : State :=
  s.modSlot h n (fun z =>
    { z with latch := z.latch || cause == 5,
             pend := if z.live then { z.pend with fail := some (z.pend.fail.getD cause) } else z.pend })

/-- A phase-limit failure waits for the boundary with the largest |mean| / T found (R187). -/
def State.failPhase (s : State) (h : Half) (n : SlotNo) (ratio : Rat) : State :=
  s.modSlot h n (fun z =>
    { z with pend := if z.live then { z.pend with ph := some (maxQ ratio (z.pend.ph.getD ratio)) } else z.pend })

/-- The phase-step detector fires: QUALIFYING again at the boundary (R159, R164). -/
def State.stepSeen (s : State) (h : Half) (n : SlotNo) : State :=
  (s.modPend h n (fun p => { p with pstep := true })).slotEvt h n evRsPstep

/-- Keep an observation for 1,024 s (R164). -/
def pushObs (el : Nat) (l : List Obs) (o : Obs) : List Obs :=
  o :: l.filter (fun p => decide (el < p.el + 1024 * secondT))

/-- The values of x − C that the phase-limit mean takes (R164, R597). -/
def State.devs16 (s : State) (h : Half) (n : SlotNo) (d : Dom) : List Rat := (s.sd h n d).last16.map (s.devNow h n d)

/-- The phase-limit monitor of a slot in one domain (R164, R166). -/
def phaseLimit (h : Half) (n : SlotNo) (d : Dom) (s : State) : State :=
  if s.phEvaluates h n d then
    let m := meanQ (s.devs16 h n d)
    let t := s.slotT h n d
    let bad := decide (t < absQ m)
    let s1 := s.modSd h n d (fun z => { z with phMean := m, failPh := bad })
    if bad then s1.failPhase h n (if t = 0 then absQ m else absQ m / t) else s1
  else s.modSd h n d (fun z => { z with failPh := false })

/-- The domain as it stands now, as a pulse marks it. -/
def DomSt.mark (y : DomSt) : PulseMark := { t := (psOf y.t : Int), el := y.el, acc := y.acc, nb := y.nb }

/-- An offset or phase as it is held: with what the domain has gained since its period began, had its rate word been held
(R163). -/
def SlotDom.obsAt (q : SlotDom) (m : PulseMark) (x : Int) (fit : Bool) : Obs :=
  let g := rateQ (((m.acc - q.perAcc : Int) : Rat) - q.perRate * (((m.nb : Int) - (q.perNb : Int) : Int) : Rat)) * 976562500
  { x := x, coast := (x : Rat) + g, el := m.el, acc := m.acc, per := q.per, fit := fit }

/-- RS_DELAY is added to every observation (R155). -/
def State.delayed (s : State) (n : SlotNo) (raw : Int) : Int := raw + s.sfieldAt (pgRs n) 0x048 31 0

/-- One observation against one domain, as that stood at the mark: it is held, and the phase-step and phase-limit monitors
run (R153 to R156, R164, R165). -/
def observeIn (h : Half) (n : SlotNo) (d : Dom) (m : PulseMark) (raw : Int) (s : State) : State :=
  let x0 := s.delayed n raw
  let x := if s.slotClass n = 1 then reducePhase x0 else x0
  let timey := s.slotClass n != 2
  let (ex, run) := if timey then s.pstepRun h n d m.el x else (false, 0)
  let s1 := s.modSd h n d (fun z =>
    { z with obs := pushObs m.el z.obs (z.obsAt m x (!ex)), nSince := z.nSince + 1, exceed := run, fresh := true })
  if timey then
    let s2 := if ex && decide (max 1 (s.fieldAt (pgRs n) 0x05C 27 24) ≤ run) then s1.stepSeen h n else s1
    phaseLimit h n d s2
  else s1

/-- One reading of ATOM_CLK against one domain: its frequency monitors alone use it (R154, R182). -/
def observeClk (h : Half) (n : SlotNo) (d : Dom) (raw : Int) (s : State) : State :=
  let m := (s.dom h d).mark
  s.modSd h n d (fun z => { z with clk := pushObs m.el z.clk (z.obsAt m (s.delayed n raw) true) })

/-- ADOPTING clears once the mean offset lies within REJOIN in every assigned domain (R173). -/
def State.adoptDone (s : State) (h : Half) (n : SlotNo) : State :=
  if (s.slot h n).adopting &&
      (s.slotDoms n).all (fun d => match (s.sd h n d).mean16 with
        | some m => decide (absQ m ≤ s.rejoinPs n)
        | none => false) then
    (s.modSlot h n (fun x => { x with adopting := false })).slotEvt h n evRsAdopt
  else s

/-- A reading of a slot against one domain, where the command carries it. -/
def observeRaw (h : Half) (n : SlotNo) (r : Option Int) (d : Dom) (s : State) : State :=
  match r with
  | some v => observeIn h n d (s.dom h d).mark v s
  | none => s

/-- A slot takes observations: its signal is present, and no change of source spoils the beat (R156, R157). -/
def State.observing (s : State) (h : Half) (n : SlotNo) : Bool :=
  s.gridOn h && (s.slot h n).st != 0 && !(s.slot h n).skip

/-- An observation of a slot, made now, against every domain it is observed against (R149, R153 to R156). -/
def observe (h : Half) (n : SlotNo) (raw : List Int) (s : State) : State :=
  if s.observing h n then
    ((s.slotDoms n).foldl (fun a d => observeRaw h n raw[d.val]? d a) s).adoptDone h n
  else s

/-- The observation of a pulse that a second labels, against one domain that latched it: the reference's time less the
domain's at the pulse (R153, R177, R180, R182). -/
def labelIn (h : Half) (n : SlotNo) (sec : Nat) (p : Option PulseMark) (d : Dom) (s : State) : State :=
  match p with
  | some m => observeIn h n d m (((sec * 10 ^ 12 : Nat) : Int) - m.t) s
  | none => s

/-- A second labels the slot's latest pulse, which is used up. -/
def labelPulse (h : Half) (n : SlotNo) (sec : Nat) (s : State) : State :=
  let ps := (s.slot h n).pulse
  let s1 := if s.observing h n then
      ((s.slotDoms n).foldl (fun a d => labelIn h n sec (ps.get d) d a) s).adoptDone h n
    else s
  s1.modSlot h n (fun z => { z with pulse := Vector.replicate 4 none, nextSec := none })

/-- The second whose pulse a reading is of: the nearest to the domain's time, so that the offset read lies within half a
second (R153). -/
def DomSt.pulseAt (y : DomSt) (raw : Int) : PulseMark :=
  let k : Int := ((psOf y.t : Int) + raw + 500000000000) / 1000000000000
  { y.mark with t := k * 1000000000000 - raw }

/-- Slots whose pulses wait for a label: the receivers, and RS30 in TIME mode (R149, R182). -/
def State.labelled (s : State) (n : SlotNo) : Bool :=
  n.val == 8 || n.val == 9 || (n.val == 30 && s.bitAt (pgRs n) 0x040 0)

/-- A pulse's reading against one domain, held until its second is labelled. -/
def pulseRaw (h : Half) (n : SlotNo) (r : Option Int) (d : Dom) (s : State) : State :=
  match r with
  | some v => s.modSlot h n (fun z => { z with pulse := setAt z.pulse d (some ((s.dom h d).pulseAt v)) })
  | none => s

/-- A receiver's slot observes, and its monitors run, only with TAI_UTC set (R178). -/
def State.taiSet (s : State) (n : SlotNo) : Bool := (n.val != 8 && n.val != 9) || s.bitAt (pgRs n) 0x074 8

/-- A pulse of such a slot: it is latched against each domain, and labelled at once by a second that was sent before it, unless
TAI_UTC has lost VALID since (R177, R178). -/
def pulseSeen (h : Half) (n : SlotNo) (raw : List Int) (s : State) : State :=
  if s.gridOn h && !(s.slot h n).skip then
    let s1 := (s.slotDoms n).foldl (fun a d => pulseRaw h n raw[d.val]? d a) s
    match (s.slot h n).nextSec with
    | some k => if s.taiSet n then labelPulse h n k s1 else s1.modSlot h n (fun z => { z with nextSec := none })
    | none => s1
  else s

/-- A reading of ATOM_CLK against one domain, where the command carries it. -/
def clkRaw (h : Half) (n : SlotNo) (r : Option Int) (d : Dom) (s : State) : State :=
  match r with
  | some v => observeClk h n d v s
  | none => s

/-- SLOT_OBSERVATION: readings against TD0 to TD3 in ps. A PTP slot observes through its exchanges only; a pulse that a
message labels is read modulo 1 s; `clk` marks a reading of ATOM_CLK (R149, R153, R154). -/
def slotObservation (h : Half) (n : SlotNo) (clk : Bool) (raw : List Int) (s : State) : State :=
  if isPtp n then s
  else if clk then
    (if n.val == 30 && s.bitAt (pgRs n) 0x070 4 && s.observing h n then
      (s.slotDoms n).foldl (fun a d => clkRaw h n raw[d.val]? d a) s
     else s)
  else if s.labelled n then pulseSeen h n raw s
  else observe h n raw s

/-! ## Window monitors (R164, R165, R167) -/

/-- Frequency of the observations of a window against C, as a fraction: with the leave-one-out estimate the others'
frequencies are combined, with the coast scale one slope is fitted over the comparison periods (R163). Another slot that holds fewer
than 2 observations of the window, for which the spec gives no frequency, enters with 0 and its weight (log entry 81). -/
def State.freqOver (s : State) (h : Half) (n : SlotNo) (d : Dom) (sec : Nat) : Rat :=
  let el := (s.dom h d).el
  let w := (s.freqObs h n d).window el sec
  let y :=
    if s.useLoo h n d then
      slopeQ (w.map Obs.pt) -
        s.combine h d (s.others h n d) (fun i => slopeQ (((s.freqObs h i d).window el sec).map Obs.pt))
    else
      let pers := (w.map (·.per)).eraseDups
      commonSlope (pers.map (fun k => (w.filter (fun o => o.per == k)).map (fun o => (secQ o.el, o.coast))))
  y / (10 ^ 12 : Nat)

/-- Whether a window of `sec` seconds may be evaluated (R165). -/
def State.windowReady (s : State) (h : Half) (n : SlotNo) (d : Dom) (sec : Nat) : Bool :=
  let q := s.freqObs h n d
  let el := (s.dom h d).el
  decide (2 ≤ (q.window el sec).length) && decide (q.startEl + sec * secondT ≤ el) && decide (q.scaleEl + sec * secondT ≤ el)

/-- Window in seconds, field of RSn_FLIM, cause of disqualification of a frequency monitor (R164, R168). -/
def windowOf : FreqMon → Nat × Nat × Nat × Nat
  | .w1 => (1, 9, 0, 2)
  | .w64 => (64, 19, 10, 3)
  | _ => (1024, 29, 20, 4)

/-- Phase against the half's grid: the phase against the domain with what its rate words have added since (R167). -/
def Obs.gridPt (o : Obs) : Rat × Rat := (secQ o.el, (o.x : Rat) + rateQ (o.acc : Rat) * 976562500)

/-- The grid-relative frequency over 64 s, kept for the drift monitor (R164, R167). -/
def noteGrid64 (h : Half) (n : SlotNo) (d : Dom) (s : State) : State :=
  let el := (s.dom h d).el
  let w := (s.freqObs h n d).window el 64
  if 2 ≤ w.length then
    let g := slopeQ (w.map Obs.gridPt) / (10 ^ 12 : Nat)
    s.modSd h n d (fun z => { z with grid64 := ((g, el) :: z.grid64).take 16 })
  else s

/-- The result of a window, in the field of its monitor. -/
def SlotDom.windowResult (m : FreqMon) (y : Rat) (bad : Bool) (z : SlotDom) : SlotDom :=
  match m with
  | .w1 => { z with y1 := y, fail1 := bad }
  | .w64 => { z with y64 := y, fail64 := bad, ys64 := (y :: z.ys64).take 16 }
  | _ => { z with y1024 := y, fail1024 := bad }

/-- One frequency window in one domain; a 64 s window also gives the values of σ. -/
def evalWindow (h : Half) (n : SlotNo) (m : FreqMon) (d : Dom) (s : State) : State :=
  let w := windowOf m
  let lim := s.flimAt n w.2.1 w.2.2.1
  let y := s.freqOver h n d w.1
  if s.windowReady h n d w.1 then
    let bad := decide (lim ≠ 0) && decide (lim < absQ y)
    let s1 := s.modSd h n d (SlotDom.windowResult m y bad)
    if bad then s1.failSlot h n w.2.2.2 else s1
  else s

/-- The drift-slope monitor in one domain, every 64 s: a further grid-relative value, and the line through the last 16
(R164, R165, R167). -/
def evalDrift (h : Half) (n : SlotNo) (d : Dom) (s0 : State) : State :=
  let s := noteGrid64 h n d s0
  let q := s.sd h n d
  let thr := flimQ (s.fieldAt (pgRs n) 0x060 9 0)
  if n.val == 31 || !s.bitAt (pgRs n) 0x060 10 || decide (thr = 0) then s.modSd h n d (fun z => { z with failDrift := false })
  else if q.grid64.length == 16 && q.grid64.all (fun p => decide (q.startEl + 64 * secondT ≤ p.2)) then
    let sl := slopeQ (q.grid64.map (fun p => (secQ p.2, p.1)))
    let run := if thr < absQ sl then q.driftRun + 1 else 0
    let s1 := s.modSd h n d (fun z => { z with slope := sl, driftRun := run, failDrift := decide (2 ≤ run) })
    if 2 ≤ run then s1.failSlot h n 5 else s1
  else s

/-- One monitor in one domain. -/
def evalMonitor (h : Half) (n : SlotNo) (m : FreqMon) (d : Dom) (s : State) : State :=
  match m with
  | .drift => evalDrift h n d s
  | _ => evalWindow h n m d s

/-- A monitor is evaluated in every domain the slot serves (R164). -/
def freqMonitorEval (h : Half) (n : SlotNo) (m : FreqMon) (s : State) : State :=
  if s.gridOn h && (s.slot h n).st != 0 && s.taiSet n then
    (s.slotDoms n).foldl (fun a d => evalMonitor h n m d a) s
  else s

/-! ## Presence and timers: conditions that wait for the boundary (R158 to R160) -/

/-- Loss is declared; a presence that waits is void. -/
def signalLost (h : Half) (n : SlotNo) (s : State) : State :=
  if s.halfOn h then
    s.modSlot h n (fun z => { z with pend := { z.pend with lost := z.pend.lost || z.st != 0, present := false } })
  else s

def qualTimeElapsed (h : Half) (n : SlotNo) (s : State) : State :=
  if s.gridOn h && (s.slot h n).st == 2 then s.modPend h n (fun p => { p with qual := true }) else s

def disqHoldElapsed (h : Half) (n : SlotNo) (s : State) : State :=
  if s.gridOn h && (s.slot h n).st == 5 then s.modPend h n (fun p => { p with hold := true }) else s

def agreeDwellElapsed (h : Half) (n : SlotNo) (s : State) : State :=
  if s.gridOn h && (s.slot h n).st == 4 then s.modPend h n (fun p => { p with agree := true }) else s

def comparisonPeriodStart (h : Half) (d : Dom) (s : State) : State :=
  if s.gridOn h then
    allSlots.foldl (fun a n => if (a.slotDoms n).contains d then a.modSd h n d (periodStart (a.dom h d)) else a) s
  else s

/-! ## Transitions at a boundary (R159 to R162) -/

/-- The rejoin check (R161). -/
def State.rejoinOk (s : State) (h : Half) (n : SlotNo) : Bool :=
  (s.slotDoms n).all (fun d =>
    !(s.dom h d).stepped || s.slotClass n == 2 ||
    (if (s.others h n d).isEmpty then
      (match (s.sd h n d).mean16 with
       | some m => decide (absQ m ≤ s.rejoinPs n)
       | none => false)
     else s.majority h n d))

/-- No other reference in any assigned domain, and a mean offset within REJOIN (R159). -/
def State.aloneNear (s : State) (h : Half) (n : SlotNo) : Bool :=
  (s.slotDoms n).all (fun d => (s.others h n d).isEmpty && (match (s.sd h n d).mean16 with
     | some m => decide (absQ m ≤ s.rejoinPs n)
     | none => false))

/-- A monitor of a slot is in failure: one that runs, in a domain the slot serves (R159, R164, R178). -/
def State.anyFail (s : State) (h : Half) (n : SlotNo) : Bool :=
  s.taiSet n && (s.slotDoms n).any (fun d =>
    let q := s.sd h n d
    q.fail1 || q.fail64 || q.fail1024 || (q.failDrift && s.bitAt (pgRs n) 0x060 10) || (q.failPh && s.slotClass n != 2))

/-- No monitor runs against a domain that the slot does not serve, so that none is in failure there (R164). -/
def SlotDom.idle (q : SlotDom) : SlotDom :=
  { q with fail1 := false, fail64 := false, fail1024 := false, failDrift := false, failPh := false, driftRun := 0 }

/-- Marks of a fresh entry to QUALIFYING or of REQUAL in one domain (R163, R165, R597). -/
def freshDom (y : DomSt) (q : SlotDom) : SlotDom :=
  { periodStart y q with
    startEl := y.el, nSince := 0, exceed := 0, driftRun := 0, fail1 := false, fail64 := false, fail1024 := false,
    failDrift := false, failPh := false }

/-- The event bit of a new state (R189). -/
def stateEvt (st : Nat) : Nat :=
  if st = 0 then evRsLost else if st = 3 then evRsQual else if st = 5 then evRsDisq else if st = 4 then evRsDisag
  else evRsState

/-- A slot enters a state (R157, R159, R160, R186, R189; 19 R588). What waits of its signal and of commands goes on waiting,
save on loss, which ends it all. -/
def State.enterSlot (s0 : State) (h : Half) (n : SlotNo) (st cause : Nat) : State :=
  let x := s0.slot h n
  let s := if x.adopting && st != 3 then s0.slotEvt h n evRsAdopt else s0
  let c := if x.live && st != 3 && cause != 0 then cause else x.cause
  let s1 := s.modSlot h n (fun z =>
    { z with st := st, cause := c, present := st != 0, adopting := z.adopting && st == 3
             qualBeats := 0, holdBeats := 0, agreeBeats := 0, aloneBeats := 0, inBeats := 0
             pend := if st = 0 then { inj := z.pend.inj } else { z.pend with present := false, qual := false, hold := false, agree := false } })
  let s2 :=
    if st = 2 then
      s1.modHalf h (fun y => { y with slots := modAt y.slots n (fun z =>
        { z with dom := Vector.ofFn (fun d : Dom => freshDom (y.doms.get d) (z.dom.get d)) }) })
    else if x.st = 0 then s1.modSlot h n (fun z => { z with dom := z.dom.map (fun q => { q with nSince := 0 }) })
    else s1
  let armed := st == 3 && (s.slotMask n).any (fun d => s.bitAt (pgTd d) 0x060 0)
  let s3 := ((if armed then s2.reachStep 8 else s2).count (cntHalf h (16 + n.val)) 1).evtH h (pgRs n) evRsState
  let s4 := s3.evtIf (s.shows h && stateEvt st != evRsState && (st != 0 || cause == 1)) (pgRs n) (stateEvt st)
  s4.logRec 0x0002
    (n.val + 256 * st + 4096 * x.st + 65536 * c + 2 ^ 20 * stateEvt st + 2 ^ 24 * (h.ix.val + 1))

/-- ADOPT in force (R173, R174): a DISAGREEING slot becomes QUALIFIED and adopting; other references outside their
own DLIM from it become DISAGREEING. -/
def adoptAct (h : Half) (n : SlotNo) (s : State) : State :=
  if (s.slot h n).st = 4 then
    let s0 := (s.enterSlot h n 3 0).modSlot h n (fun z => { z with adopting := true })
    let s1 := (s.slotMask n).foldl (fun a d => a.modDom h d (fun y => { y with adopted := true })) s0
    let away (a : State) (i : SlotNo) : Bool :=
      (a.slotMask n).any (fun d => (a.timeQual h d).contains i && (match (a.sd h i d).mean16, (a.sd h n d).mean16 with
        | some m, some m0 => decide (a.dlimPs i < absQ (m - m0))
        | _, _ => false))
    allSlots.foldl (fun a i => if i != n && away s1 i then a.enterSlot h i 4 11 else a) s1
  else s

/-- REQUAL in force on a DISQUALIFIED slot (R159). -/
def requalAct (h : Half) (n : SlotNo) (s : State) : State :=
  if (s.slot h n).st = 5 then (s.enterSlot h n 2 0).modSlot h n (fun z => { z with latch := false }) else s

/-- The state a slot goes to at its boundary, with the cause, when one of its conditions holds (R159, R187). RS31 has its signal while
the link and the peer are there (R158). -/
def State.slotNext (s : State) (h : Half) (n : SlotNo) : Option (Nat × Nat) :=
  let x := s.slot h n
  let p := x.pend
  let steer := s.slotSteers n
  let home := if steer then 2 else 1
  if !(s.page (pgRs n)).en then (if x.st = 0 then none else some (0, 10))
  else if p.lost || (n.val == 31 && !s.peerSeen h) then (if x.st = 0 then none else some (0, 1))
  else if x.st = 0 then (if p.present || n.val == 31 then some (home, 0) else none)
  else if x.st = 1 then (if steer then some (2, 0) else none)
  else if x.st = 5 then
    (if p.hold && decide (s.fieldAt (pgRs n) 0x050 31 16 * 1024 ≤ x.holdBeats) && !x.latch && !s.anyFail h n then some (home, 0)
     else none)
  else if !steer then some (1, 10)
  else if p.pstep then some (2, 7)
  else
    match p.fail, p.ph with
    | some c, _ => some (5, c)
    | none, some _ => some (5, 6)
    | none, none =>
      if x.st = 2 then
        (if p.qual && decide (max 1 (s.fieldAt (pgRs n) 0x050 15 0) * 1024 ≤ x.qualBeats) then
          (if s.rejoinOk h n then some (3, 0) else some (4, 9))
         else none)
      else if x.st = 3 then (if p.pds && s.bitAt (pgRs n) 0x064 16 then some (4, 8) else none)
      else if p.agree && decide (max 1 (s.fieldAt (pgRs n) 0x05C 23 16 * 1024) ≤ max x.agreeBeats x.aloneBeats) then some (3, 0)
      else none

/-- Whether the qualification time counts: on a receiver from the first valid second with TAI_UTC set on (R178). -/
def SlotSt.qualCounts (x : SlotSt) (n : SlotNo) : Bool := (n.val != 8 && n.val != 9) || x.todObs

/-- The timers of a slot count a beat: QUAL_TIME, DISQ_HOLD, the two dwells of AGREE_DWELL, the time QUALIFIED, and the
agreement that ends a held delay step (R159, R169, R178; 08 R275). -/
def State.slotTimers (s : State) (h : Half) (n : SlotNo) : State :=
  let tai := s.taiSet n
  let maj := (s.slotDoms n).all (fun d => s.majority h n d)
  let near := s.aloneNear h n
  let assigned := !(s.slotMask n).isEmpty
  let step (on : Bool) (k : Nat) : Nat := if on then k + 1 else 0
  s.modSlot h n (fun z =>
    { z with todObs := z.todObs && tai, nextSec := if tai then z.nextSec else none
             dom := Vector.ofFn (fun d : Dom => if (s.slotDoms n).contains d then z.dom.get d else (z.dom.get d).idle)
             qualBeats := if !tai then 0 else if z.st == 2 && z.qualCounts n then z.qualBeats + 1 else z.qualBeats
             holdBeats := if z.st = 5 then z.holdBeats + 1 else z.holdBeats
             inBeats := step (z.st == 3) z.inBeats
             agreeBeats := step (z.st == 4 && maj) z.agreeBeats
             aloneBeats := step (z.st == 4 && near) z.aloneBeats
             heldBeats := step (isPtp n && decide (0 < z.held) && maj && assigned) z.heldBeats })

/-- One slot at its boundary: its timers, its transition, then REQUAL and ADOPT (R160, R187). An elapsed DISQ_HOLD stays
elapsed, and a presence declared on an ABSENT slot waits. -/
def slotBoundary (h : Half) (n : SlotNo) (s : State) : State :=
  let pend := (s.slot h n).pend
  let en := (s.page (pgRs n)).en
  let s1 := s.slotTimers h n
  let nx := s1.slotNext h n
  let s2 := s1.modSlot h n (fun z =>
    { z with skip := false, held := z.held + z.heldNew, heldNew := 0
             heldBeats := if z.heldNew = 0 then z.heldBeats else 0
             pend := { present := pend.present && z.st == 0 && en, hold := pend.hold && z.st == 5, inj := pend.inj } })
  let s3 := match nx with
    | some (st, c) => s2.enterSlot h n st c
    | none => s2
  let s4 := if pend.requal then requalAct h n s3 else s3
  if pend.adopt then adoptAct h n s4 else s4

/-- Of several members of a domain that fail the phase limit before one boundary, only the one with the largest ratio
is disqualified for it (R187); of equal ratios the lowest-numbered slot's counts as the largest (log entry 84). -/
def worstOnly (h : Half) (s : State) : State :=
  let ratio (n : SlotNo) : Rat := (s.slot h n).pend.ph.getD 0
  let failing := allSlots.filter (fun n => (s.slot h n).pend.ph.isSome && (s.slot h n).st == 3)
  let worse (i n : SlotNo) : Bool :=
    (s.slotMask i).any (fun d => (s.slotMask n).contains d) &&
    (decide (ratio n < ratio i) || (decide (ratio n = ratio i) && decide (i < n)))
  failing.foldl (fun a n => if failing.any (fun i => i != n && worse i n)
    then a.modPend h n (fun p => { p with ph := none }) else a) s

/-- The path-delay-step monitor fires: half the step is held from the next beat on, and the page of the Spirit Level tells it
(R164, R185, R189; 08 R282). -/
def State.delayStep (s : State) (h : Half) (n : SlotNo) (dlt : Rat) : State :=
  let s1 := (s.modSlot h n (fun z =>
    { z with exceeding := [], delta := openQ dlt, heldNew := z.heldNew + absQ dlt / 2, pend := { z.pend with pds := true } })).slotEvt
      h n evRsPds
  (s.slotMask n).foldl (fun a d => a.evtH h pgSl (12 + d.val)) s1

/-- A message of the receiver that is not valid: its second is none, and no label directly precedes the next (R177 to R179). -/
def State.todInvalid (s : State) (h : Half) (n : SlotNo) : State :=
  s.modSlot h n (fun z => { z with fixValid := false, todHalf := none, todLabel := none, nextSec := none })

/-- A bad check, and a late message: counted, and the second is not valid (R177, R189). -/
def State.todErr (s : State) (h : Half) (n : SlotNo) : State :=
  ((s.modSlot h n (fun z => { z with errCnt := z.errCnt + 1 })).todInvalid h n).slotEvt h n evRsTodErr
def State.todLate (s : State) (h : Half) (n : SlotNo) : State :=
  ((s.modSlot h n (fun z => { z with lateCnt := z.lateCnt + 1 })).todInvalid h n).slotEvt h n evRsTodErr

/-- A monitor is in failure in every domain of its slot. -/
def State.failIn (s : State) (h : Half) (n : SlotNo) (f : SlotDom → SlotDom) : State :=
  (s.slotDoms n).foldl (fun a d => a.modSd h n d f) s

/-- The path-delay-step monitor and the time-of-day check fire by injection (R190). -/
def State.delayDetected (s : State) (h : Half) (n : SlotNo) : State :=
  let x := s.slot h n
  (s.modSlot h n (fun z => { z with delays := x.delays.take 4 })).delayStep h n
    (medianQ (x.delays.take 4) - medianQ (x.delays.drop 4))
def State.todDetected (s : State) (h : Half) (n : SlotNo) : State :=
  if n.val = 8 ∨ n.val = 9 then s.todErr h n else if n.val = 30 then s.slotEvt h n evRsTodErr else s

/-- What each detector of a slot page does when it fires; `timey`: the slot's class carries phase (R164, R190). -/
def slotDetected (h : Half) (n : SlotNo) (timey : Bool) (det : Nat) (s : State) : State :=
  match det with
  | 0 => signalLost h n s
  | 1 => if timey then s.stepSeen h n else s
  | 2 => (s.failIn h n (fun z => { z with fail1 := true })).failSlot h n 2
  | 3 => (s.failIn h n (fun z => { z with fail64 := true })).failSlot h n 3
  | 4 => (s.failIn h n (fun z => { z with fail1024 := true })).failSlot h n 4
  | 5 => if n.val = 31 then s else (s.failIn h n (fun z => { z with failDrift := true })).failSlot h n 5
  | 6 => if timey then (s.failIn h n (fun z => { z with failPh := true })).failPhase h n 0 else s
  | 7 => if isPtp n then s.delayDetected h n else s
  | 8 => s.todDetected h n
  | _ => s

/-- A detector of a slot page fires on one half as it does in earnest (R190). -/
def slotMonitorHalf (h : Half) (n : SlotNo) (det : Nat) (s : State) : State :=
  if s.gridOn h then slotDetected h n (s.slotClass n != 2) det s else s

/-- Beats of a domain are numbered alike on both halves: neither is more than one ahead (R190). -/
def State.beatsAlike (s : State) (d : Dom) : Bool :=
  s.gridOn .A && s.gridOn .B && decide ((s.dom .A d).done ≤ (s.dom .B d).done + 1) &&
    decide ((s.dom .B d).done ≤ (s.dom .A d).done + 1)

/-- The beat of a domain at which an injection made now fires on a half: on both the first one that neither has reached (R190). -/
def State.injBeat (s : State) (h : Half) (d : Dom) : Nat :=
  (if s.beatsAlike d then max (s.dom .A d).done (s.dom .B d).done else (s.dom h d).done) + 1

/-- A detector is injected on a half, for one beat of a domain. -/
def State.injectAt (s : State) (h : Half) (n : SlotNo) (e : Nat × Dom × Nat) : State :=
  s.modPend h n (fun p => { p with inj := p.inj ++ [e] })

/-- A detector is injected once: it waits on every half that runs for one and the same beat (R190; 17 R548). -/
def slotMonitor (n : SlotNo) (det : Nat) (s : State) : State :=
  let d := s.slotBeat n
  allHalves.foldl (fun a h => if s.gridOn h then a.injectAt h n (det, d, s.injBeat h d) else a) s

/-- An injection fires at this beat of domain `d`: its beat has come, or the slot has gone over to another domain's beats, or the
domain's beats count afresh. -/
def dueInj (d : Dom) (beat : Nat) (e : Nat × Dom × Nat) : Bool :=
  e.2.1 != d || decide (e.2.2 ≤ beat) || decide (beat + 2 < e.2.2)

/-- The detectors injected into a slot fire at its boundary: those that wait for this beat, and one that its page injects
continuously, which the half that reaches the beat first injects for its peer too (R190; 17 R548). A one-shot injection is over once
no half waits for it. -/
def slotInjected (h : Half) (n : SlotNo) (s : State) : State :=
  let p := s.page (pgRs n)
  let d := s.slotBeat n
  let beat := (s.dom h d).done
  let first := !s.beatsAlike d || decide ((s.dom h.peer d).done < beat)
  let inj := (s.slot h n).pend.inj
  let s1 := (inj.filter (dueInj d beat)).foldl (fun a e => slotMonitorHalf h n e.1 a) s
  let s2 := s1.modPend h n (fun q => { q with inj := inj.filter (fun e => !dueInj d beat e) })
  if p.injArm && p.injCont then
    (if first then
      let s3 := slotMonitorHalf h n p.injDet.toNat s2
      if s.beatsAlike d then s3.injectAt h.peer n (p.injDet.toNat, d, beat) else s3
     else s2)
  else if p.injArm && (s2.slot .A n).pend.inj.isEmpty && (s2.slot .B n).pend.inj.isEmpty then
    s2.modPage (pgRs n) (fun q => { q with injArm := false })
  else s2

/-- The comparison scale of each slot follows the states of the slots, from the boundary of a change on (R163, R165). -/
def State.refreshScales (s : State) (h : Half) : State :=
  allSlots.foldl (fun a n => (s.slotDoms n).foldl (fun b d =>
    let loo := s.useLoo h n d
    if (b.sd h n d).loo == loo then b
    else b.modSd h n d (fun z => { z with loo := loo, scaleEl := (s.dom h d).el })) a) s

/-- Every slot whose boundary is this beat (R160). They are settled by rising number, each by the states that those before it have
come to at this boundary; which states count the spec does not say (log entry 87). -/
def slotsBoundary (h : Half) (d : Dom) (s : State) : State :=
  let mine := allSlots.filter (fun n => s.slotBeat n == d)
  let s1 := mine.foldl (fun a n => slotInjected h n a) s
  (mine.foldl (fun a n => slotBoundary h n a) (worstOnly h s1)).refreshScales h

/-- RS_CMD.ADOPT or REQUAL come into force on every powered half (R159, R173). -/
def adopt (n : SlotNo) (s : State) : State :=
  allHalves.foldl (fun a h => if a.gridOn h then (adoptAct h n a).refreshScales h else a) s
def requal (n : SlotNo) (s : State) : State :=
  allHalves.foldl (fun a h => if a.gridOn h then (requalAct h n a).refreshScales h else a) s

/-! ## GNSS time of day (R176 to R180) -/

def todSlot (k : Fin 2) : SlotNo := ⟨8 + k.val, by omega⟩

/-- The hardware's change of TAI_UTC and LEAP_PEND on one half (R179). -/
def State.setLeap (s : State) (h : Half) (n : SlotNo) (tai : Nat) : State :=
  (s.modSlot h n (fun z => { z with taiUtc := tai % 256, leapPend := 0, leapDue := false })).slotEvt h n evRsLeap

/-- The half that shows also writes the register where a leap has changed the offset since `s` (R179). -/
def leapReg (h : Half) (n : SlotNo) (s t : State) : State :=
  let tai := (t.slot h n).taiUtc
  if s.shows h && tai != (s.slot h n).taiUtc then
    t.setReg (pgRs n) 0x074 (mergeMask (t.reg (pgRs n) 0x074) (fld tai 0) 0x6FF)
  else t

def labelSec (l : TodLabel) : Nat := l.day * 86400 + l.hour * 3600 + l.min * 60 + l.sec

/-- The leap second: 23:59:60 (R179). -/
def leapLabel (l : TodLabel) : Bool := l.hour == 23 && l.min == 59 && l.sec == 60

/-- The TAI second a label stands for, and the offset it brings in: from the label after 23:59:60 on that of an insert, at a
00:00:00 directly after 23:59:58 of the day before that of a delete (R178, R179). -/
def todTai (x : SlotSt) (l : TodLabel) : Nat × Option Nat :=
  if x.leapDue && x.leapPend == 1 && !leapLabel l then (labelSec l + x.taiUtc + 1, some (x.taiUtc + 1))
  else if x.leapPend == 2 && l.hour == 0 && l.min == 0 && l.sec == 0 &&
      x.todLabel.any (fun p => p.day + 1 == l.day && p.hour == 23 && p.min == 59 && p.sec == 58) then
    (labelSec l + x.taiUtc - 1, some (x.taiUtc + 255))
  else (labelSec l + x.taiUtc, none)

/-- A second all of whose messages came in time, with correct checks and a label: it is valid unless its second field is 60
where no leap is to be inserted; converted, it labels its pulse (R176 to R180). -/
def todSecond (h : Half) (n : SlotNo) (l : TodLabel) (s : State) : State :=
  let x := s.slot h n
  let tai := s.taiSet n
  if l.sec == 60 && !(leapLabel l && x.leapPend == 1) then s.todInvalid h n
  else
    let r := todTai x l
    let s1 := s.modSlot h n (fun z =>
      { z with fixValid := true, todHalf := none, todLabel := some l, todObs := tai
               leapDue := (z.leapDue || leapLabel l) && tai, todSec := if tai then BitVec.ofNat 32 r.1 else z.todSec })
    if tai then
      let s2 := match r.2 with
        | some t => s1.setLeap h n t
        | none => s1
      if s.bitAt (pgRs n) 0x070 9 then s2.modSlot h n (fun z => { z with nextSec := some r.1 }) else labelPulse h n r.1 s2
    else s1

/-- A message of the format in force that carries a second: whether it is a ZDA sentence, its check, whether it says that its
time is good, and its label (R176). -/
def todCarries (fmt : Nat) : TodMsg → Option (Bool × Bool × Bool × Option TodLabel)
  | .zda c t => if fmt = 0 then some (true, c, true, t) else none
  | .rmc c a t => if fmt = 0 then some (false, c, a, t) else none
  | .timeEvent c v t => if fmt = 1 then some (false, c, v, t) else none
  | .timeAnnounce _ _ => none
  | .other => none

/-- One sentence of FORMAT 0: with the other of the same second it makes the second (R176). A second of which one sentence alone has
come is not valid, and comes between the labels before and after it (R179). -/
def todSentence (h : Half) (n : SlotNo) (zda : Bool) (l : TodLabel) (s : State) : State :=
  if (s.slot h n).todHalf = some (!zda, l) then todSecond h n l s
  else s.modSlot h n (fun z =>
    { z with todHalf := some (zda, l), todLabel := if z.todHalf.any (fun p => p.2 != l) then none else z.todLabel })

/-- The UTC offset of a time announce message against TAI_UTC (R178). -/
def todOffset (h : Half) (n : SlotNo) (o : Nat) (s : State) : State :=
  let x := s.slot h n
  let mis := s.taiSet n && o != x.taiUtc
  let s1 := s.modSlot h n (fun z => { z with utcMismatch := mis })
  if mis then s1.slotEvt h n evRsUtcMis else s1

/-- One time-of-day message on TODIN (R176 to R180). `gapNs` is the time from the pulse before it to its last byte, or with
LABEL = 1 the time from its last byte to the next pulse. -/
def todMessage (h : Half) (k : Fin 2) (m : TodMsg) (gapNs : Nat) (s : State) : State :=
  let n := todSlot k
  let fmt := s.fieldAt (pgRs n) 0x070 1 0
  let late := if s.bitAt (pgRs n) 0x070 9 then decide (gapNs < 10000000) else decide (900000000 < gapNs)
  if !s.gridOn h then s
  else
    match todCarries fmt m with
    | some (_, false, _, _) => s.todErr h n
    | some (zda, true, good, lab) =>
      if late then s.todLate h n
      else match good, lab with
        | true, some l => if fmt = 0 then todSentence h n zda l s else todSecond h n l s
        | _, _ => s.todInvalid h n
    | none =>
      match m with
      | .timeAnnounce ok off =>
        if fmt ≠ 1 then s
        else if !ok then (s.modSlot h n (fun z => { z with errCnt := z.errCnt + 1 })).slotEvt h n evRsTodErr
        else match off with
          | some o => todOffset h n o s
          | none => s
      | _ => s

/-! ## Atomic reference telemetry (R181, R182) -/

/-- Digits of a decimal field. -/
def decVal (l : List Byte) : Option Nat :=
  if l.isEmpty then none
  else l.foldl (fun a b => a.bind (fun n =>
    if 0x30 ≤ b.toNat ∧ b.toNat ≤ 0x39 then some (n * 10 + (b.toNat - 0x30)) else none)) (some 0)

def hexVal (b : Byte) : Option Nat :=
  let n := b.toNat
  if 0x30 ≤ n ∧ n ≤ 0x39 then some (n - 0x30)
  else if 0x41 ≤ n ∧ n ≤ 0x46 then some (n - 0x37)
  else if 0x61 ≤ n ∧ n ≤ 0x66 then some (n - 0x57) else none

/-- The part of a list before the first `c`, and the part after it. -/
def splitAt1 (c : Byte) : List Byte → Option (List Byte × List Byte)
  | [] => none
  | x :: r => if x = c then some ([], r) else (splitAt1 c r).map (fun p => (x :: p.1, p.2))

/-- A telemetry line: status, uncertainty in ns, seconds when given (R181). -/
def parseAtom (line : List Byte) : Option (Byte × Nat × Option Nat) := do
  let head := line.take 5
  if head != [0x24, 0x41, 0x54, 0x4D, 0x2C] then none
  else
    let (body, tail) ← splitAt1 0x2A (line.drop 1)
    match tail with
    | [a, b, 0x0D, 0x0A] =>
      let hi ← hexVal a
      let lo ← hexVal b
      let cs := body.foldl (fun (x : Byte) y => x ^^^ y) 0
      if cs.toNat != hi * 16 + lo then none
      else
        let (st, r) ← splitAt1 0x2C (body.drop 4)
        let (un, sec) ← splitAt1 0x2C r
        let u ← decVal un
        match st with
        | [c] =>
          if 16777215 < u ∨ ([0x4C, 0x48, 0x57, 0x46] : List Byte).contains c = false then none
          else if sec.isEmpty then some (c, u, none)
          else (decVal sec).map (fun v => (c, u, some v))
        | _ => none
    | _ => none

/-- In TIME mode the seconds of a line label the pulse (R182). -/
def atomLabel (h : Half) (timeMode : Bool) (sec : Option Nat) (s : State) : State :=
  match timeMode, sec with
  | true, some v => labelPulse h 30 v s
  | _, _ => s

/-- A telemetry line, `gapNs` after its pulse (R181, R182, R189). A status other than L or H is a loss (R158), and in TIME
mode the seconds label the pulse. -/
def atomTelemetry (h : Half) (line : List Byte) (gapNs : Nat) (s : State) : State :=
  let n : SlotNo := 30
  if !s.gridOn h then s
  else
    let timeMode := s.bitAt (pgRs n) 0x040 0
    let bad := s.slotEvt h n evRsTodErr
    match parseAtom line with
    | none => bad
    | some (c, u, sec) =>
      if decide (900000000 < gapNs) || (timeMode && sec.isNone) then bad
      else
        let st := if c = 0x4C then 1 else if c = 0x48 then 2 else 3
        let s1 := s.modSlot h n (fun z => { z with atomStatus := st, atomUnc := u })
        let s2 := if c == 0x48 || c == 0x46 then s1.slotEvt h n evRsAtom else s1
        let s3 := if st = 3 then signalLost h n s2 else s2
        atomLabel h timeMode sec s3

/-! ## Exchanges of PTP slots (R153, R164, R185; 08 R275) -/

/-- The path-delay-step monitor on the mean path delay of one exchange, ps: it fires at 4 successive exceedings, and the step
is their median less the previous one; the exchanges from then on are compared with those after the step (R164, R185; log
entry 19). -/
def pathDelay (h : Half) (n : SlotNo) (delay : Rat) (s : State) : State :=
  let x := s.slot h n
  let thr := ((s.fieldAt (pgRs n) 0x064 15 0 * 1000 : Nat) : Rat)
  let med := medianQ x.delays
  let exceeds := !x.delays.isEmpty && decide (thr < absQ (delay - med))
  let run := if exceeds then delay :: x.exceeding else []
  let s1 := s.modSlot h n (fun z =>
    { z with delays := (delay :: x.delays).take 64, exceeding := run, dom := z.dom.map (fun q => { q with freshEx := true }) })
  if run.length < 4 then s1
  else (s1.modSlot h n (fun z => { z with delays := run })).delayStep h n (medianQ run - medianQ (x.delays.drop 3))

def execSlotObservation (h : Half) (n : SlotNo) (r : SlotReading) (s : State) : Host.Outcome State Fault Refusal :=
  .next (s.inView h (slotObservation h n r.clk r.raw))
def execFreqMonitorEval (h : Half) (n : SlotNo) (m : FreqMon) (s : State) : Host.Outcome State Fault Refusal := .next (s.halvesIn h (freqMonitorEval h n m))
def execSignalLost (h : Half) (n : SlotNo) (s : State) : Host.Outcome State Fault Refusal := .next (signalLost h n s)
def execQualTimeElapsed (h : Half) (n : SlotNo) (s : State) : Host.Outcome State Fault Refusal := .next (qualTimeElapsed h n s)
def execDisqHoldElapsed (h : Half) (n : SlotNo) (s : State) : Host.Outcome State Fault Refusal := .next (disqHoldElapsed h n s)
def execAgreeDwellElapsed (h : Half) (n : SlotNo) (s : State) : Host.Outcome State Fault Refusal := .next (agreeDwellElapsed h n s)
def execAdopt (n : SlotNo) (s : State) : Host.Outcome State Fault Refusal := .next (adopt n s)
def execRequal (n : SlotNo) (s : State) : Host.Outcome State Fault Refusal := .next (requal n s)
def execTodMessage (h : Half) (k : Fin 2) (rx : TodRx) (s : State) : Host.Outcome State Fault Refusal :=
  .next (leapReg h (todSlot k) s (s.inView h (todMessage h k rx.msg rx.gapNs)))
def execAtomTelemetry (h : Half) (line : List Byte) (gapNs : Nat) (s : State) : Host.Outcome State Fault Refusal :=
  .next (s.inView h (atomTelemetry h line gapNs))
def execComparisonPeriodStart (h : Half) (d : Dom) (s : State) : Host.Outcome State Fault Refusal := .next (comparisonPeriodStart h d s)

end Sys2Proof.Machine
end

