-- ==== Sys2Proof/Machine/Ports.lean ====
section
/-!
DEFINITION. Ports: configuration port by port, path health and claims, links, SyncE, host frames, timestamps at lanes and
bandwidth windows (12, 10).
-/

namespace Sys2Proof.Machine

/-! ## Events (12 R391) -/

def evLpLinkUp (a : PathAB) : Nat := a.ix.val
def evLpLinkDown (a : PathAB) : Nat := 2 + a.ix.val
def evPathSwitch : Nat := 4
def evRxAvail : Nat := 5
def evRxNobuf : Nat := 6
def evQlChg : Nat := 7
def evEsmcTo : Nat := 8
def evConflict : Nat := 9
def evBwWindow : Nat := 10
def evCdrLost : Nat := 0
def evBlockLost : Nat := 1
def evHiBer : Nat := 2
def evFecUncorr : Nat := 3

/-! ## Counts (19 R588, 12 R389) -/

/-- A frame received or sent, of `len` bytes with its FCS. -/
def State.countFrame (s : State) (p : PortNo) (tx : Bool) (len : Nat) : State :=
  let s1 := (s.count (cntPort p (if tx then 1 else 0)) 1).count (cntPort p (if tx then 4 else 2)) len
  let b : Fin 4 := if tx then 1 else 0
  let f : Fin 4 := if tx then 3 else 2
  s1.modPort p (fun x => { x with win := modAt (modAt x.win b (· + len)) f (· + 1) })

/-! ## Timestamp points (10 R316 to R325) -/

/-- No timestamp point of the path's reference lane is fenced or issuing 0xFFFF (12 R381). -/
def State.tsOk (s : State) (p : PortNo) (a : PathAB) : Bool :=
  let pg := pgLane (s.refLane p a)
  !s.unitBusy pg 0 && !s.unitBusy pg 1

/-- Whether RS-FEC runs on a lane (R319). -/
def LaneSt.fec (x : LaneSt) : Bool := x.mode == 3 || x.mode == 4

/-- The correction of an egress timestamp, ps (R318). -/
def State.txCorr (s : State) (n : LaneNo) (fec : Nat) : Int :=
  let pg := pgLane n
  (bits (Config.laneLat n.val (s.lane n).mode) 31 16 : Int) + s.sfieldAt pg 0x404 31 16 +
    (if (s.lane n).fec then (fec : Int) else 0) + s.sfieldAt pg 0x408 31 0

/-- The correction of an ingress timestamp of a path, ps, with the skew of the lane that delivered the point against the reference
lane (R318, R320; log entry 209). -/
def State.rxCorr (s : State) (p : PortNo) (a : PathAB) (pt : RxPoint) : Int :=
  let n := s.refLane p a
  let pg := pgLane n
  (bits (Config.laneLat n.val (s.lane n).mode) 15 0 : Int) + s.sfieldAt pg 0x404 15 0 +
    (if (s.lane n).fec then (pt.fec : Int) else 0) + s.sfieldAt pg 0x40C 31 0 + (if s.speed p = 3 then pt.skew else 0)

/-- Level 7 of egress and ingress, ps (R324). -/
def State.txLevel7 (s : State) (n : LaneNo) : Rat :=
  let pg := pgLane n
  s.codeAt pg 0x414 31 16 + s.codeAt pg 0x410 31 16 + s.codeAt pg 0x418 15 0
def State.rxLevel7 (s : State) (n : LaneNo) : Rat :=
  let pg := pgLane n
  s.codeAt pg 0x414 15 0 + s.codeAt pg 0x410 15 0 + s.codeAt pg 0x418 15 0

/-- The issued egress timestamp of a frame on a path with its bound (R318, R321, R324, R325). -/
def State.egress (s : State) (p : PortNo) (a : PathAB) (d : Dom) (sub fec : Nat) : Nat × Code × State :=
  let n := s.refLane p a
  let pr := s.issue d ((sub : Int) + s.txCorr n fec)
  let t := pr.1
  let s1 := pr.2
  (t, if s.unitBusy (pgLane n) 0 then 0xFFFF else s.present d (s.txLevel7 n), s1)

/-- The issued ingress timestamp of a frame on a path with its bound. -/
def State.ingress (s : State) (p : PortNo) (a : PathAB) (d : Dom) (pt : RxPoint) : Nat × Code × State :=
  let n := s.refLane p a
  let pr := s.issue d ((pt.sub : Int) - s.rxCorr p a pt)
  let t := pr.1
  let s1 := pr.2
  (t, if s.unitBusy (pgLane n) 1 then 0xFFFF else s.present d (s.rxLevel7 n), s1)

/-! ## Path health and claims (12 R381 to R383) -/

def PortSt.path (x : PortSt) (a : PathAB) : PathSt := x.paths.of a.half
def State.path (s : State) (p : PortNo) (a : PathAB) : PathSt := (s.port p).path a
def State.modPath (s : State) (p : PortNo) (a : PathAB) (f : PathSt → PathSt) : State :=
  s.modPort p (fun x => { x with paths := x.paths.set a.half (f (x.path a)) })
def bothPaths : List PathAB := [.A, .B]

/-- A path's egress takes no frame: its scheduler's check has stopped it, or the scheduler or its watchdog is under test or fenced
(12 R392, 17 R545; log entry 116). -/
def State.schedBusy (s : State) (p : PortNo) (a : PathAB) : Bool :=
  (s.unitBusy (pgLp p) 2 && ((s.path p a).schedBad || bothPaths.all (fun b => !(s.path p b).schedBad))) || s.unitBusy (pgLp p) 0xFF

/-- The port runs this path. -/
def State.pathUp (s : State) (p : PortNo) (a : PathAB) : Bool := s.portUp p && (a == .A || s.paired p)

def State.activePath (s : State) (p : PortNo) : PathAB := if (s.port p).onB && s.paired p then .B else .A

/-- LINK_OK, TS_OK and PARTNER_OK as they are (R381). -/
def State.health (s : State) (p : PortNo) (a : PathAB) (i : Fin 3) : Bool :=
  match i with
  | 0 => (s.path p a).link
  | 1 => s.tsOk p a
  | 2 => (s.path p a).partner

/-- A health bit that falls is published at once; one that rises waits for HOLDOFF (R382). -/
def State.settleBit (s : State) (p : PortNo) (a : PathAB) (i : Fin 3) : State :=
  let x := s.path p a
  if !s.pathUp p a || !s.health p a i then
    s.modPath p a (fun y => { y with pub := setAt y.pub i false, rising := y.rising.filter (fun r => r.1 != i) })
  else if x.pub.get i || x.rising.any (fun r => r.1 == i) then s
  else if s.fieldAt (pgLp p) 0x050 15 8 = 0 then s.modPath p a (fun y => { y with pub := setAt y.pub i true, withdrawn := false })
  else s.modPath p a (fun y => { y with rising := y.rising ++ [(i, s.now)] })

def State.settlePath (s : State) (p : PortNo) (a : PathAB) : State :=
  ((s.settleBit p a 0).settleBit p a 1).settleBit p a 2

/-- The claim a path publishes (R381, R390, R392). -/
def State.pathClaim (s : State) (p : PortNo) (a : PathAB) : Option (BitVec 8) :=
  let x := s.path p a
  if s.pathUp p a && !x.withdrawn && !(x.claimBad && s.unitBusy (pgLp p) 3) then
    let prio := match a with | .A => s.fieldAt (pgLp p) 0x050 3 0 | .B => s.fieldAt (pgLp p) 0x050 7 4
    some (BitVec.ofNat 8 (prio * 16 + (if x.pub.get 0 then 8 else 0) + (if x.pub.get 1 then 4 else 0) +
      (if x.pub.get 2 then 2 else 0) + (if a = .A then 1 else 0)))
  else none

/-- The oldest risen health bits have stayed 1 for HOLDOFF and are published (R382). -/
def pathHoldoffElapsed (p : PortNo) (a : PathAB) (s : State) : State :=
  match (s.path p a).rising with
  | [] => s
  | (_, t) :: _ =>
    s.modPath p a (fun y =>
      { y with pub := (y.rising.filter (fun r => r.2 == t)).foldl (fun v r => setAt v r.1 true) y.pub
               rising := y.rising.filter (fun r => r.2 != t)
               withdrawn := false })

/-- No frame for PARTNER_TO (R381). -/
def partnerTimeout (p : PortNo) (a : PathAB) (s : State) : State :=
  (s.modPath p a (fun y => { y with partner := false })).settlePath p a

/-- The path arbiter goes to the higher claim at a packet boundary (R382, R391). -/
def pathSwitch (p : PortNo) (s : State) : State :=
  let want : Option Bool := match winner ⟨s.pathClaim p .A, s.pathClaim p .B⟩ with
    | some .A => some false
    | some .B => some true
    | none => none
  match want with
  | some b =>
    if b = (s.port p).onB then s
    else (s.modPort p (fun x => { x with onB := b, swCnt := x.swCnt + 1 })).setEvt (pgLp p) evPathSwitch
  | none => s

/-! ## Links (R374, 05 R158) -/

/-- The SyncE slot of a lane is declared lost, on every half. -/
def State.loseSlot (s : State) (n : SlotNo) : State := signalLost .B n (signalLost .A n s)

def laneSlot (n : LaneNo) : SlotNo := Fin.ofNat 32 (10 + n.val)

/-- The lanes of a path, as lane numbers. -/
def State.lanesOf (s : State) (p : PortNo) (a : PathAB) : List LaneNo := (s.pathLanes p a).map (Fin.ofNat 16)

/-- What falls on a path's lanes when its link goes down: block lock, alignment, or nothing (a fault seen at the link). -/
def State.lanesDown (s : State) (p : PortNo) (a : PathAB) : State :=
  let ls := s.lanesOf p a
  let pr := s.draw (if s.speed p = 3 then 3 else 2)
  let k := pr.1
  let s1 := pr.2
  if k = 0 then s1
  else ls.foldl (fun b n =>
    let x := b.lane n
    let drop := if k = 1 then x.block else x.aligned
    let b1 := b.modLane n (fun y => { y with block := y.block && k != 1, aligned := false, an := false, lt := false })
    if drop then (b1.setEvt (pgLane n) evBlockLost).count (cntLane n 2) 1 else b1) s1

/-- The link of a path is declared down. -/
def State.dropLink (s : State) (p : PortNo) (a : PathAB) : State :=
  if (s.path p a).link then
    let s1 := (s.modPath p a (fun y => { y with link := false })).setEvt (pgLp p) (evLpLinkDown a)
    (s1.settlePath p a).loseSlot (laneSlot (s.refLane p a))
  else s

def linkDown (p : PortNo) (a : PathAB) (s : State) : State :=
  if (s.path p a).link then (s.lanesDown p a).dropLink p a else s

/-- The link of a path is declared up. On 100GBASE-R4 alignment has measured the skew of the lanes besides the reference lane, free
values; SPEED 0 has no link training (R372, R374, 10 R320). -/
def portLinkUp (p : PortNo) (a : PathAB) (s : State) : State :=
  if s.pathUp p a && !(s.path p a).link then
    let four := decide (s.speed p = 3)
    let r := s.refLane p a
    let s0 := (s.lanesOf p a).foldl (fun b n =>
      let pr := if n = r then (0, b) else b.draw (2 ^ 32)
      pr.2.modLane n (fun y => { y with skew := BitVec.ofNat 32 pr.1 })) s
    let s1 := (s.lanesOf p a).foldl (fun b n =>
      b.modLane n (fun y => { y with cdr := true, block := true, aligned := four, hiBer := false
                                     an := s.bitAt (pgLane n) 0x040 8
                                     lt := s.bitAt (pgLane n) 0x040 9 && s.speed p != 0 })) s0
    ((s1.modPath p a (fun y => { y with link := true })).setEvt (pgLp p) (evLpLinkUp a)).settlePath p a
  else s

/-! ## Host frames (R377, R381; 10 R327 to R329; 15 R481, R482) -/

/-- The completion of a PTP_SEND whose frame has left or was discarded (10 R327). -/
def finishSend (f : HostFrame) (discarded : Bool) (res : Vector Word 6) (s : State) : State :=
  match f.tag with
  | some t => s.finish t stOk (if discarded then noResult.set 5 (flagAt true 10) else res)
  | none => s

/-- Frames of a port are discarded short of egress. -/
def State.discardFrames (s : State) (p : PortNo) (which : HostFrame → Bool) : State :=
  s.dropFrames p which (fun f b => finishSend f true noResult b)

/-- An operation that ends short of egress leaves no frame (15 R481). -/
def dropTagged (t : Tag) (s : State) : State :=
  { s with ports := s.ports.map (fun x => { x with hosts := x.hosts.filter (fun f => f.tag != some t) }) }

/-- PTP_SENDs on a port end with a status; their frames are not sent. -/
def abortSends (p : PortNo) (st : Byte) (s : State) : State :=
  let tags := (s.port p).hosts.filterMap (·.tag)
  tags.foldl (fun a t => dropTagged t (a.finish t st)) s

/-- The PTP_SENDs whose frames satisfy `which` end with RETRY (15 R490). -/
def State.retrySends (s : State) (p : PortNo) (which : HostFrame → Bool) : State :=
  (((s.port p).hosts.filter which).filterMap (·.tag)).foldl (fun a t => dropTagged t (a.finish t stRetry)) s

def sendInvalid (o : Op) (jumbo : Bool) : Bool :=
  let w1 := o.word 1
  let len := bits (o.word 2) 15 0
  bits w1 5 4 == 3 || bits w1 9 8 == 3 || decide (len < 60) || decide ((if jumbo then 9212 else 1518) < len) ||
    (bit w1 16 && decide (len < bits (o.word 3) 15 0 + 10)) || (bit w1 17 && decide (len < bits (o.word 3) 31 16 + 2)) ||
    (bits w1 9 8 == 2 && bits (o.word 2) 31 16 == 0xFFFF)

/-- The path that a PATH code of a PTP_SEND names: ACTIVE, A or B (R383). -/
def State.sendPath (s : State) (p : PortNo) (code : Nat) : PathAB := if code = 0 then s.activePath p else if code = 1 then .A else .B

/-- LEN octets of the buffer that a PTP_SEND names (15 R482). -/
def sendBytes (frame : HostRead) (len : Nat) : List Byte := (frame.getD [] ++ List.replicate len 0).take len

/-- PTP_SEND (R377; 10 R327, R328): a frame for a disabled port is discarded. -/
def opPtpSend (t : Tag) (frame : HostRead) (s : State) : State :=
  match dispatchable s t 0x20 with
  | none => s
  | some o =>
    let p : PortNo := Fin.ofNat 16 (bits (o.word 1) 3 0)
    let s0 := (s.served o).count (cntPart o.part 4) 1
    if !s.owns o.part (pgLp p) then s0.finish t stAccessRefused
    else if sendInvalid o (s.bitAt (pgLp p) 0x040 16) then s0.finish t stInvalidField
    else if frame.isNone then s0.finish t stHostMemory
    else if s.unitBusy (pgLp p) 1 || s.schedBusy p (s.sendPath p (if s.paired p then bits (o.word 1) 5 4 else 0)) then
      s0.finish t stRetry
    else
      let dest := bits (o.word 1) 9 8
      let f : HostFrame :=
        { part := o.part, tag := if dest = 2 then none else some t, path := if s.paired p then bits (o.word 1) 5 4 else 0
          dest := dest, dom := opDom (o.word 1) 12, id := BitVec.ofNat 16 (bits (o.word 2) 31 16)
          bytes := sendBytes frame (bits (o.word 2) 15 0)
          oneAt := if bit (o.word 1) 16 then some (bits (o.word 3) 15 0) else none
          sumAt := if bit (o.word 1) 17 then some (bits (o.word 3) 31 16) else none }
      let s1 := if dest = 2 then s0.finish t stOk else s0.phase t .running
      let s2 := s1.modPort p (fun x => { x with hosts := x.hosts ++ [f] })
      if s.portUp p then s2 else s2.discardFrames p (fun _ => true)

/-- A one-step frame as it leaves at a time: 48-bit seconds and 32-bit nanoseconds at its offset (R377). -/
def HostFrame.leaving (f : HostFrame) (t : Nat) : List Byte :=
  match f.oneAt with
  | some i => stampFrame f.bytes i f.sumAt (beBytes 6 (secOf t) ++ beBytes 4 (nsOf t))
  | none => f.bytes

/-- A host frame leaves a path, or is discarded there (R377, R381, R383; 10 R321, R329). -/
def hostLeaves (p : PortNo) (a : PathAB) (idx sub fec : Nat) (discarded : Bool) (s : State) : State :=
  match (s.port p).hosts[idx]? with
  | none => s
  | some f =>
    let onPath := a == s.sendPath p f.path
    let up := s.pathUp p a && (s.path p a).link && !s.schedBusy p a
    let s1 := s.modPort p (fun x => { x with hosts := x.hosts.eraseIdx idx })
    let gone := discarded || (f.dest != 0 && !s.tsOk p a)
    if !onPath then s
    else if gone then finishSend f true noResult (if f.dest = 2 then s1.pushTx p (TxEnt.unsent f.dom f.id) else s1)
    else if !up then s
    else
      let pr := s1.egress p a f.dom sub fec
      let t := pr.1
      let b := pr.2.1
      let s2 := pr.2.2
      let s3 := ((s2.emit (.frame p a (.host (f.leaving t) (f.oneAt.map (fun _ => t))))).countFrame p true
        (f.bytes.length + 4)).count (cntPort p 14) 1
      let s4 := if f.dest = 2 then
          s3.pushTx p { t := t, dom := f.dom, noSend := false, mark := false, id := f.id, lost := 0, bound := b }
        else s3
      finishSend f false (if f.dest = 1 then timeResult t (s.busState f.dom) b f.dom s.followHalf 0 else noResult) s4

/-- A lane sends calibration marks: LANE_CAL.MARK is 1, and no running port takes the lane (10 R344). -/
def State.marking (s : State) (n : LaneNo) : Bool := s.bitAt (pgLane n) 0x41C 0 && (s.laneOwner n).isNone && s.pwr.lathClock

/-- What a lane's output carries: the signal of the port that runs it, with the rate word of its SyncE domain where that corrects
the line clock (12 R387), the zero level between marks, or nothing (10 R344). -/
inductive LaneOut where
  | port (p : PortNo) (a : PathAB) (rate : Option Int)
  | zero
  | off
deriving DecidableEq, Repr

/-- The domain that LPn_SYNCE_CFG names (R387). -/
def State.syncDom (s : State) (p : PortNo) : Dom := opDom (s.reg (pgLp p) 0x058) 16

/-- With TX_EN at 1 a port's line clock is the common-die reference corrected by the rate word of its SyncE domain (R387). -/
def State.lineRate (s : State) (p : PortNo) : Option Int :=
  if s.bitAt (pgLp p) 0x058 0 then s.busHalf.map (fun h => ((s.half h).doms.get (s.syncDom p)).rate) else none

/-- The output of a lane between the marks that it sends (10 R344). -/
def State.laneOut (s : State) (n : LaneNo) : LaneOut :=
  match s.laneOwner n with
  | some (p, a) => .port p a (s.lineRate p)
  | none => if s.marking n then .zero else .off

/-- A lane that sends marks sends one at a beat of MARK_DOM (10 R344). -/
def calMark (d : Dom) (n : LaneNo) (s : State) : State :=
  let pg := pgLane n
  let p : PortNo := n
  if s.marking n && opDom (s.reg pg 0x41C) 4 == d then
    let pr := s.issue d (s.txCorr n 0)
    let t := pr.1
    let s1 := pr.2
    let b := if s.unitBusy pg 0 then 0xFFFF else s.present d (s.txLevel7 n)
    (s1.emit (.frame p .A .mark)).pushTx p { t := t, dom := d, noSend := false, mark := true, id := 0xFFFF, lost := 0, bound := b }
  else s

/-! ## The host receive ring (R378, R379) -/

/-- Six bytes of seconds, two reserved, then nanoseconds and fraction. -/
def ringTime (t : Nat) : List Byte := leBytes 6 (secOf t) ++ leBytes 2 0 ++ leBytes 4 (nsOf t) ++ leBytes 4 (fracOf t)

def State.ringDepth (s : State) (p : PortNo) : Nat := 2 ^ clampLog2 (s.fieldAt (pgLp p) 0x068 3 0)

/-- The station address of a port. -/
def State.lpMac (s : State) (p : PortNo) : BitVec 48 := BitVec.ofNat 48 (s.wideAt (pgLp p) 0x048)

/-- A frame's destination address lets it through to the host (R378). -/
def State.macPasses (s : State) (p : PortNo) (dst : BitVec 48) : Bool :=
  dst == s.lpMac p || dst == BitVec.allOnes 48 || (dst.getLsbD 40 && s.bitAt (pgLp p) 0x040 17)

/-- A received frame for the host finds a posted entry. -/
def State.ringFree (s : State) (p : PortNo) : Bool :=
  (s.port p).hrxHead % s.ringDepth p != s.fieldAt (pgLp p) 0x06C 11 0 % s.ringDepth p

/-- A frame for the host: into the buffer and the entry that is next posted, or dropped; DONE is set last, and a frame that is
dropped counts in no window (R378, R379, R389). -/
def toHost (p : PortNo) (a : PathAB) (f : RxFrame) (dst : BitVec 48) (entry : Option RingEntry) (s0 : State) : State :=
  let pg := pgLp p
  let s := s0.countFrame p false (f.bytes.length + 4)
  if !s0.macPasses p dst || !s0.bitAt pg 0x068 8 then s
  else
    let x := s.port p
    let depth := s.ringDepth p
    match s.ownerOf pg, entry, s0.ringFree p with
    | some h, some e, true =>
      let d := opDom (s.reg pg 0x400) 0
      let ts := s.bitAt pg 0x400 8 && s.tsOk p a
      let pr := if ts then s.ingress p a d f.pt else (0, 0, s)
      let t := pr.1
      let b := pr.2.1
      let s1 := pr.2.2
      let whole := f.bytes.length
      let flags := 1 + (if ts then 2 else 0) + (if a = .B then 4 else 0) + (if e.len < whole then 8 else 0) + 16 * d.val
      let fill := leBytes 2 (min whole e.len) ++ [BitVec.ofNat 8 flags, 0] ++ leBytes 2 b.toNat ++
        (if ts then ringTime t else leBytes 16 0)
      let s2 := (s1.emit (.hostMem h e.addr (f.bytes.take e.len))).emit
        (.hostMem h (s.wideAt pg 0x060 + x.hrxHead % depth * 32 + 10) fill)
      (s2.modPort p (fun y => { y with hrxHead := (y.hrxHead % depth + 1) % depth })).setEvt pg evRxAvail
    | _, _, _ => (s0.setEvt pg evRxNobuf).count (cntPort p 8) 1

/-! ## SyncE (R385 to R388) -/

/-- Rank of an SSM code under an option; a code outside its table ranks with FAILED (R386). -/
def qlRank (opt2 : Bool) (c : Nat) : Nat :=
  let t : List (Nat × Nat) := if opt2 then [(0x1, 9), (0x0, 8), (0x7, 7), (0x4, 6), (0xD, 5), (0xA, 4), (0xC, 3), (0xE, 2), (0xF, 1)]
    else [(0x2, 9), (0x4, 8), (0x8, 7), (0xB, 6), (0xF, 1)]
  ((t.find? (fun e => e.1 == c)).map (·.2)).getD 0

/-- The mapped QL by the state of the domain (R388). -/
def State.mappedQl (s : State) (p : PortNo) : Nat :=
  let d := s.syncDom p
  let st := s.busState d
  let w := s.reg (pgLp p) 0x05C
  if st = 0 ∨ s.busStepped d = false ∨ s.busBound d = 0xFFFF then bits w 19 16
  else if st = 1 then bits w 7 4
  else if st = 2 then bits w 3 0
  else if st = 3 then bits w 11 8
  else bits w 15 12

/-- The slot of a path's reference lane steers the port's SyncE domain (R388). -/
def State.qlLoop (s : State) (p : PortNo) (a : PathAB) : Bool :=
  match s.busHalf with
  | some h => (a == .A || s.paired p) && s.steers h (laneSlot (s.refLane p a)) (s.syncDom p)
  | none => false

/-- The QL a path transmits: DNU or DUS in a loop (R388). -/
def State.qlOf (s : State) (p : PortNo) (a : PathAB) : BitVec 4 :=
  BitVec.ofNat 4 (if s.qlLoop p a then 0xF else s.mappedQl p)

/-- The transmitted QL as the port shows it, that of its active path; a change makes an event PDU due on each path (R387, R388,
R391). -/
def qlBeat (p : PortNo) (s : State) : State :=
  let q := s.qlOf p (s.activePath p)
  let new := q != (s.port p).qlTx
  let s1 := (s.modPort p (fun x => { x with qlTx := q, dnuLoop := s.qlLoop p .A || s.qlLoop p .B })).evtIf new (pgLp p) evQlChg
  if new && s.bitAt (pgLp p) 0x058 2 then
    bothPaths.foldl (fun b a => b.modPath p a (fun y => { y with eventDue := s.pathUp p a && y.link })) s1
  else s1

/-- The received QL of a path is no obstacle to presence (R385, R386). -/
def State.qlOk (s : State) (p : PortNo) (a : PathAB) : Bool :=
  let opt := s.bitAt (pgLp p) 0x058 8
  !s.bitAt (pgLp p) 0x058 1 ||
    ((s.path p a).esmcValid && decide (qlRank opt (s.fieldAt (pgLp p) 0x058 7 4) ≤ qlRank opt (s.path p a).ql.toNat))

/-- A path's slot is declared lost while the QL it holds is not acceptable (R386; 05 R158). -/
def State.qlLost (s : State) (p : PortNo) (a : PathAB) : State := if s.qlOk p a then s else s.loseSlot (laneSlot (s.refLane p a))

/-- An ESMC PDU received: one that does not parse is discarded, and an enhanced SSM TLV is recorded (R385, R386). -/
def esmcPdu (p : PortNo) (a : PathAB) (pdu : EsmcPdu) (parseOk : Bool) (s : State) : State :=
  let pg := pgLp p
  let x := s.path p a
  if s.pathUp p a && x.link && s.bitAt pg 0x058 1 && parseOk then
    ((s.modPath p a (fun y => { y with esmcValid := true, ql := pdu.ql, enhanced := pdu.enhanced })).evtIf
      (!x.esmcValid || x.ql != pdu.ql) pg evQlChg).qlLost p a
  else s

/-- No valid ESMC PDU for 5 s: the path's QL is FAILED, and its slot is declared lost (R385, R390). -/
def esmcTo (p : PortNo) (a : PathAB) (s : State) : State :=
  let pg := pgLp p
  if s.pathUp p a && s.bitAt pg 0x058 1 then
    (((s.modPath p a (fun y => { y with esmcValid := false })).setEvt pg evEsmcTo).evtIf (s.path p a).esmcValid pg evQlChg).loseSlot
      (laneSlot (s.refLane p a))
  else s

/-- The ESMC PDUs of a path in the second before now. -/
def State.esmcLately (s : State) (p : PortNo) (a : PathAB) : List Nat :=
  (s.path p a).esmcAt.filter (fun t => decide (s.now < t + 800000000))

/-- A path can send an ESMC PDU: 10 at most in a second (R387). -/
def State.esmcMay (s : State) (p : PortNo) (a : PathAB) : Bool :=
  s.pathUp p a && (s.path p a).link && s.bitAt (pgLp p) 0x058 2 && !s.schedBusy p a && decide ((s.esmcLately p a).length < 10)

/-- An ESMC PDU, an information or an event PDU, leaves a path (R376, R383, R387). -/
def sendEsmc (p : PortNo) (a : PathAB) (event : Bool) (s : State) : State :=
  if s.esmcMay p a then
    let b := esmcFrame (s.lpMac p) event (s.qlOf p a)
    let s1 := s.modPath p a (fun y => { y with esmcAt := s.now :: s.esmcLately p a, eventDue := y.eventDue && !event })
    ((s1.emit (.frame p a (.esmc (s.qlOf p a) event b))).countFrame p true (b.length + 4)).count (cntPort p 12) 1
  else s

/-- The event PDU that is due leaves a path. -/
def sendEvent (p : PortNo) (a : PathAB) (s : State) : State := if (s.path p a).eventDue then sendEsmc p a true s else s

/-- A lane's slot may be present: CDR locked on the reference lane of a path that is up with an acceptable QL (R385; 05 R158). -/
def State.lanePresent (s : State) (n : LaneNo) : Bool :=
  (s.lane n).cdr && allPorts.any (fun p => bothPaths.any (fun a =>
    s.refLane p a == n && s.pathUp p a && (s.path p a).link && s.qlOk p a))

/-- What the device knows itself of a signal whose presence is declared (05 R158); pulses and edges are the event's own. -/
def State.presenceOk (s : State) (h : Half) (n : SlotNo) : Bool :=
  let x := s.slot h n
  if n.val < 8 then true
  else if n.val < 10 then x.fixValid
  else if n.val < 26 then s.lanePresent (Fin.ofNat 16 (n.val - 10))
  else if n.val < 30 then
    let c := s.ptp.clients.get (Fin.ofNat 4 (n.val - 26))
    c.master.isSome && decide (2 ≤ c.since)
  else if n.val = 30 then x.atomStatus == 1 || x.atomStatus == 2
  else s.peerSeen h

/-- Presence is declared: it waits for the slot's boundary (05 R158, R160). -/
def signalPresent (h : Half) (n : SlotNo) (s : State) : State :=
  if s.gridOn h && (s.page (pgRs n)).en && !(s.slot h n).present && s.presenceOk h n then
    s.modPend h n (fun p => { p with present := true })
  else s

/-! ## Windows and lanes (R389, R391) -/

def bwWindow (p : PortNo) (s : State) : State :=
  (s.modPort p (fun x => { x with read := x.win, win := Vector.replicate 4 0, bwSeq := x.bwSeq + 1 })).setEvt (pgLp p) evBwWindow

def hiBer (n : LaneNo) (s : State) : State :=
  if (s.lane n).hiBer then s else (s.modLane n (fun y => { y with hiBer := true })).setEvt (pgLane n) evHiBer

/-! ## Changes of configuration and of service -/

/-- A port stops: its links go down, its claims are withdrawn, its frames are discarded (02 R595, 10 R345, 12 R390). -/
def stopPort (p : PortNo) (s : State) : State :=
  let s1 := (s.dropLink p .A).dropLink p .B
  let s2 := (s1.discardFrames p (fun _ => true)).modPort p (fun x => { x with msgs := [], follow := [], ntp := [], sealed := [] })
  bothPaths.foldl (fun a x =>
    (a.modPath p x (fun y => { y with partner := false, esmcValid := false, eventDue := false })).settlePath p x) s2

/-- The conflicts of R373 as the configuration now stands: a port newly held stops. -/
def settleConflicts (s : State) : State :=
  allPorts.foldl (fun a p =>
    let c := s.conflictNow p
    if c = (s.port p).conflict then a
    else
      let b := a.modPort p (fun x => { x with conflict := c })
      if c then stopPort p (b.setEvt (pgLp p) evConflict) else b) s

/-- A lane takes a new mode with the calibration set of the mode; before start-up step 6 none is loaded (10 R322; 18 R562). -/
def settleLane (n : LaneNo) (s : State) : State :=
  let m := s.laneMode n
  if (s.lane n).mode = m then s
  else if (s.lane n).ready then loadLane n m s else s.modLane n (fun y => { y with mode := m })

/-- Lanes take the mode that configuration gives them. -/
def settleLanes (s : State) : State :=
  allLanes.foldl (fun a n => settleLane n a) s

/-- Every port is brought in line with configuration, health and the common die's clocks. -/
def settlePorts (s : State) : State :=
  let s1 := ((settleLanes (settleConflicts s)).settleServe pgPtp).settleServe pgFtn
  allPorts.foldl (fun a p => (a.settlePath p .A).settlePath p .B) s1

/-- No half publishes: the ports are disabled (04 R144). -/
def portsOff (s : State) : State := allPorts.foldl (fun a p => stopPort p a) s

/-- A change of LPn_SYNCE_CFG: with RX_EN at 0 no PDU counts as received, and the QL held is ranked anew (R385, R386). -/
def syncChanged (p : PortNo) (old s : State) : State :=
  let rx := s.bitAt (pgLp p) 0x058 1
  let was := old.bitAt (pgLp p) 0x058 1
  bothPaths.foldl (fun b a =>
    let c := if rx then b else b.modPath p a (fun y => { y with esmcValid := false })
    if rx && was && c.pathUp p a && (c.path p a).esmcValid then c.qlLost p a else c) s

/-- The claims of a port's paths are withdrawn; risen bits wait for HOLDOFF again (R382, R390). -/
def withdrawPaths (p : PortNo) (s : State) : State :=
  bothPaths.foldl (fun b a => b.modPath p a (fun y => { y with pub := Vector.replicate 3 false, rising := [], withdrawn := true })) s

/-- What a port's registers do on coming into force, from their old values in `old` (R345, R386, R389, R390). -/
def portChanged (p : PortNo) (old s : State) : State :=
  let pg := pgLp p
  let mode := old.fieldAt pg 0x040 1 0 != s.fieldAt pg 0x040 1 0 || old.bitAt pg 0x040 4 != s.bitAt pg 0x040 4
  let pair := old.bitAt pg 0x040 8 != s.bitAt pg 0x040 8 || old.fieldAt pg 0x040 15 12 != s.fieldAt pg 0x040 15 12
  let s1 := if mode then ((s.discardFrames p (fun _ => true)).dropLink p .A).dropLink p .B
    else if pair then s.dropLink p .B else s
  let s2 := if old.fieldAt pg 0x080 1 0 != s.fieldAt pg 0x080 1 0 then s1.modPort p (fun x => { x with win := Vector.replicate 4 0 })
    else s1
  let s3 := if old.reg pg 0x058 = s.reg pg 0x058 then s2 else syncChanged p old s2
  if mode || pair then settlePorts s3 else s3

/-- A port page's boundary, and its lanes' (02 R55). -/
def portBoundary (p : PortNo) (s : State) : State :=
  let s1 := (s.lanesOf p .A ++ s.lanesOf p .B).foldl (fun a n => boundary a (pgLane n)) s
  portChanged p s1 (boundary s1 (pgLp p))

/-! ## Detections (R392, 10 R325) -/

/-- A TDC calibration residual is too large: the point is unbounded until its check passes (10 R325). -/
def tdcCalDetection (pt : TdcPoint) (s : State) : State :=
  match pt with
  | .laneTx n => settlePorts (s.fault 0 (pgLane n) kClock (kindSev kClock) 0 0)
  | .laneRx n => settlePorts (s.fault 0 (pgLane n) kClock (kindSev kClock) 1 0)
  | .cap c => s.fault 0 (pgCap c) kClock (kindSev kClock) 0 0

def portDetection (pg : PortPage) (det : Byte) (s : State) : State :=
  match pg with
  | .lane n =>
    match detKind (.lane n.val) det.toNat with
    | none => s
    | some k =>
      let s1 := s.fault 0 (pgLane n) k (kindSev k) det (s.locFor (pgLane n) k det)
      if det.toNat < 2 then settlePorts s1
      else
        let s2 := if det.toNat = 2 then
            ((s1.modLane n (fun y => { y with cdr := false })).evtIf (s.lane n).cdr (pgLane n) evCdrLost).count (cntLane n 3) 1
          else s1
        match s2.laneOwner n with
        | some (p, a) => s2.dropLink p a
        | none => s2
  | .lp p =>
    match detKind (.lp p.val) det.toNat with
    | none => s
    | some k =>
      let s1 := s.fault 0 (pgLp p) k (kindSev k) det (s.locFor (pgLp p) k det)
      if det.toNat = 0 then s1.modPort p (fun x =>
        { x with txq := match x.txq with | [] => [] | e :: r => { e with bound := 0xFFFF } :: r })
      else if det.toNat = 1 then
        let s2 := match (s1.port p).hosts with
          | [] => s1
          | f :: r =>
            if f.tag.isNone then (s1.modPort p (fun x => { x with hosts := r })).pushTx p (TxEnt.unsent f.dom f.id) else s1
        abortSends p stRetry s2
      else if det.toNat = 2 then
        let pr := s1.draw 2
        let hit (a : PathAB) : Bool := !s.paired p || pr.1 == a.ix.val
        let s2 := (pr.2.modPath p .A (fun y => { y with schedBad := hit .A })).modPath p .B (fun y => { y with schedBad := hit .B })
        s2.retrySends p (fun f => hit (s.sendPath p f.path))
      else if det.toNat = 3 then
        let pr := s1.draw 2
        let k := pr.1
        let s2 := pr.2
        let which (a : PathAB) : Bool := !s.paired p || k == a.ix.val
        (s2.modPath p .A (fun y => { y with claimBad := which .A })).modPath p .B (fun y => { y with claimBad := which .B })
      else s1

def execSignalPresent (h : Half) (n : SlotNo) (s : State) : Host.Outcome State Fault Refusal := .next (signalPresent h n s)
def execPathHoldoffElapsed (p : PortNo) (path : PathAB) (s : State) : Host.Outcome State Fault Refusal :=
  .next (pathHoldoffElapsed p path s)
def execPartnerTimeout (p : PortNo) (path : PathAB) (s : State) : Host.Outcome State Fault Refusal := .next (partnerTimeout p path s)
def execPathSwitch (p : PortNo) (s : State) : Host.Outcome State Fault Refusal := .next (pathSwitch p s)
def execLinkDown (p : PortNo) (path : PathAB) (s : State) : Host.Outcome State Fault Refusal := .next (linkDown p path s)
def execPortLinkUp (p : PortNo) (path : PathAB) (s : State) : Host.Outcome State Fault Refusal := .next (portLinkUp p path s)
def execPtpSend (t : Tag) (frame : HostRead) (s : State) : Host.Outcome State Fault Refusal := .next (opPtpSend t frame s)
def execEsmcPdu (p : PortNo) (path : PathAB) (pdu : EsmcPdu) (parseOk : Bool) (s : State) : Host.Outcome State Fault Refusal :=
  .next (esmcPdu p path pdu parseOk s)
def execEsmcTo (p : PortNo) (path : PathAB) (s : State) : Host.Outcome State Fault Refusal := .next (esmcTo p path s)
def execEsmcInfoSend (p : PortNo) (path : PathAB) (s : State) : Host.Outcome State Fault Refusal := .next (sendEsmc p path false s)
def execBwWindow (p : PortNo) (s : State) : Host.Outcome State Fault Refusal := .next (bwWindow p s)
def execHiBer (n : LaneNo) (s : State) : Host.Outcome State Fault Refusal := .next (hiBer n s)
def execTdcCalDetection (pt : TdcPoint) (s : State) : Host.Outcome State Fault Refusal := .next (tdcCalDetection pt s)
def execPortDetection (pg : PortPage) (det : Byte) (s : State) : Host.Outcome State Fault Refusal := .next (portDetection pg det s)

end Sys2Proof.Machine
end

