-- ==== Sys2Proof/Machine/Cistern.lean ====
section
/-!
DEFINITION. The Cistern (07): rate histories, oscillator models, holdover rate and terms, learning, EFC steering.
-/

namespace Sys2Proof.Machine

/-- Event bits of the Cistern page (R258). -/
def evReadyUp (d : Dom) : Nat := d.val
def evReadyDown (d : Dom) : Nat := 4 + d.val
def evModelInst : Nat := 8
def evSensorLost (h : Half) : Nat := 9 + h.ix.val
def evEfcLimit (h : Half) : Nat := 11 + h.ix.val
def evLearnReject : Nat := 13

/-! ## Models (R241 to R245) -/

def tabIx (h : Half) (o : Osc) : Fin 4 :=
  match h, o with
  | .A, .mosc => 0
  | .A, .xo => 1
  | .B, .mosc => 2
  | .B, .xo => 3

abbrev Model := Vector Word 16

/-- The model in use is that of the grid source in force (R241). -/
def Lath.osc (l : Lath) : Osc := if l.src = 2 then .xo else .mosc

def State.model (s : State) (h : Half) (o : Osc) : Model := (s.models.get (tabIx h o)).words

/-- A sensor number that the table gives no sensor counts as lost (R245). -/
def sensorBad (m : Model) : Bool := decide (12 < bits (m.get 0) 4 0)

/-- The sensor that a model names (R241, R245). -/
def sensorOf (m : Model) : Fin 13 := Fin.ofNat 13 (bits (m.get 0) 4 0)

def HalfSt.sensorGone (x : HalfSt) (m : Model) : Bool := sensorBad m || (x.temps.get (sensorOf m)).lost

/-- Latest 1 s mean of the sensor that a model names; `last`, where the correction stands, when it names none (R241, R245). -/
def HalfSt.tempFor (x : HalfSt) (m : Model) (last : Int) : Int :=
  if sensorBad m then last else (x.temps.get (sensorOf m)).temp

/-- The temperature at which an oscillator's correction stands. -/
def HalfSt.oscTemp (x : HalfSt) : Osc → Int
  | .mosc => x.moscT
  | .xo => x.xoT

/-- A model table fails its integrity check until it is rewritten (R259). -/
def HalfSt.tabBad (x : HalfSt) : Osc → Bool
  | .mosc => x.moscBad
  | .xo => x.xoBad

def modelValid (m : Model) (bad : Bool) : Bool := bit (m.get 0) 31 && !bad

def wordSigned (w : Word) : Int := w.toInt

/-- y_t(θ) as a fraction, θ in 1/256 °C (R242). -/
def tempPart (m : Model) (theta : Int) : Rat :=
  let u : Rat := ((theta - wordSigned (m.get 1) : Int) : Rat) / 4096
  let k (i : Fin 16) : Rat := (wordSigned (m.get i) : Rat) * tenth 15
  let order := min 5 (bits (m.get 0) 10 8)
  let terms : List Rat := [k 2 * u, k 3 * (u * u), k 4 * (u * u * u), k 5 * (u * u * u * u), k 6 * (u * u * u * u * u)]
  sumQ (terms.take order)

/-- The logarithmic term runs: TAU not 0, RTC valid, age not negative (R243). -/
def logRuns (rtc : Bool) (m : Model) (a : Rat) : Bool := (m.get 8).toNat != 0 && rtc && decide (0 ≤ a)

/-- ageing(a) as a fraction (R243). -/
def agePart (rtc : Bool) (m : Model) (a : Rat) : Rat :=
  (if logRuns rtc m a then (wordSigned (m.get 9) : Rat) * tenth 15 * lnQ (1 + a / ((m.get 8).toNat : Rat)) else 0) +
  (wordSigned (m.get 10) : Rat) * tenth 21 * a

/-- The oscillator age: RTC seconds less EPOCH (R243). -/
def State.age (s : State) (m : Model) : Int := (s.pwr.rtcSec.toNat : Int) - ((m.get 7).toNat : Int)

/-- U_RATE, U_AGE and U_TEMP with the additions of R243 and R244, as fractions. -/
def State.uRate (_s : State) (m : Model) (bad : Bool) : Rat :=
  if modelValid m bad then ((m.get 11).toNat : Rat) * tenth 15 else tenth 11
def State.uAge (s : State) (m : Model) (bad : Bool) : Rat :=
  if modelValid m bad then
    let drop : Rat :=
      if (m.get 8).toNat ≠ 0 ∧ logRuns s.pwr.rtcValid m ((s.age m : Int) : Rat) = false then
        absQ ((wordSigned (m.get 9) : Rat) * tenth 15) / ((m.get 8).toNat : Rat)
      else 0
    ((m.get 12).toNat : Rat) * tenth 21 + drop
  else tenth 15
def State.uTemp (_s : State) (m : Model) (bad lost : Bool) : Rat :=
  if modelValid m bad then ((if lost then m.get 14 else m.get 13).toNat : Rat) * tenth 15 else 5 * tenth 9

/-! ## Holdover (R238, R239) -/

/-- AVG_WIN and AVG_GUARD, and whether 64 s entries are used (R237). -/
def State.avgSpan (s : State) : Nat × Nat × Bool :=
  let w := max 64 (s.fieldAt pgCis 0x040 15 0)
  let g := s.fieldAt pgCis 0x040 23 16
  if 3600 < w + g then ((w + 63) / 64, (g + 63) / 64, true) else (w, g, false)

/-- Entries of the averaging span, newest first, converted to the source in force (R235, R238). -/
def State.span (s : State) (h : Half) (d : Dom) : List HistEnt :=
  let (w, g, long) := s.avgSpan
  let x := s.dom h d
  ((if long then x.hist64 else x.hist).drop g).take w

def Lath.convert (l : Lath) (e : HistEnt) : Rat :=
  if e.standby == (l.src == 2) then (e.rate : Rat) else rescaleQ (e.rate : Rat) (l.ratio : Rat)

/-- HOLD_READY: the latest AVG_WIN + AVG_GUARD seconds of entries are all CLEAN (R236, R237). -/
def State.holdReady (s : State) (h : Half) (d : Dom) : Bool :=
  let (w, g, long) := s.avgSpan
  let l := ((if long then (s.dom h d).hist64 else (s.dom h d).hist).take (w + g))
  l.length == w + g && l.all (·.clean)

/-- 3 s_r √(64 s / W), from the 1 s entries of the averaging span that are held (R248). -/
def State.measured (s : State) (h : Half) (d : Dom) : Rat :=
  let (w, g, long) := s.avgSpan
  let k := if long then 64 else 1
  let sp := (((s.dom h d).hist.drop (g * k)).take (w * k)).map (fun e => rateQ ((s.half h).lath.convert e))
  let n := sp.length
  let sr2 : Rat := if n < 2 then 0 else devSq sp / ((n - 1 : Nat) : Rat)
  rootQ (9 * sr2 * 64 / ((w * k : Nat) : Rat)) (10 ^ 15)

/-- The four values fixed on entry to HOLDOVER (R238), with the measured part of u_r over the same span. The age of the span's centre is G + W/2 before now. -/
def State.holdValues (s : State) (h : Half) (d : Dom) : Hold :=
  let x := s.half h
  let l := x.lath
  let o := l.osc
  let m := s.model h o
  let sp := s.span h d
  let (w, g, long) := s.avgSpan
  let back : Rat := ((g : Rat) + (w : Rat) / 2) * (if long then 64 else 1)
  { rBase := meanQ (sp.map l.convert), thRef := meanI (sp.map (·.temp)), aRef := ((s.age m : Int) : Rat) - back, f := 0, osc := o,
    thLast := x.oscTemp o, model := m, modelBad := x.tabBad o, entryEl := (s.dom h d).el, meas := s.measured h d }

/-- r_h in units of 2^-60 (R239, R241, R244). -/
def State.holdRate (s : State) (h : Half) (k : Hold) : Rat :=
  if modelValid k.model k.modelBad then
    let th := (s.half h).tempFor k.model k.thLast
    let a : Rat := ((s.age k.model : Int) : Rat)
    let corr (t : Rat) : Rat :=
      -- θ_ref is a mean and need not be whole: the polynomial is taken at it exactly
      let u : Rat := (t - (wordSigned (k.model.get 1) : Rat)) / 4096
      let kk (i : Fin 16) : Rat := (wordSigned (k.model.get i) : Rat) * tenth 15
      sumQ (([kk 2 * u, kk 3 * (u * u), kk 4 * (u * u * u), kk 5 * (u * u * u * u), kk 6 * (u * u * u * u * u)] : List Rat).take
        (min 5 (bits (k.model.get 0) 10 8)))
    k.rBase - unitsQ (corr (th : Rat) - corr k.thRef) -
      unitsQ (agePart s.pwr.rtcValid k.model a - agePart s.pwr.rtcValid k.model k.aRef) + (k.f : Rat)
  else k.rBase + (k.f : Rat)

/-- A change of grid source in HOLDOVER or LOST rebases the domain on the new oscillator (R240). -/
def State.rebaseHold (s : State) (h : Half) (k : Hold) (newRate : Rat) : Hold :=
  let x := s.half h
  let o := x.lath.osc
  let m := s.model h o
  let th := x.tempFor m (x.oscTemp o)
  { k with rBase := newRate, thRef := ((th : Int) : Rat), aRef := ((s.age m : Int) : Rat), f := 0, osc := o, thLast := th,
           model := m, modelBad := x.tabBad o }

/-- Inputs that carry phase from where they were taken up, not the offset (R205, R206). -/
def LoopIn.relative : LoopIn → Bool
  | .freq _ | .step _ | .freqConf => true
  | _ => false

/-- IN_HOLD: the holdover rate drives the domain, and no frequency loop does (R198, CIS_TDn_STAT). -/
def DomSt.inHold (x : DomSt) : Bool :=
  (x.st == 3 || x.st == 4) && x.hold.any (fun k => !k.fromOther) && !(x.st == 3 && x.input.relative)

/-- The oscillator whose model the domain uses, that model, and whether it fails its check (R240, R241, R246). -/
def State.modelUsed (s : State) (h : Half) (d : Dom) : Osc × Model × Bool :=
  let o := (s.half h).lath.osc
  match (s.dom h d).hold with
  | some k => (k.osc, k.model, k.modelBad)
  | none => (o, s.model h o, (s.half h).tabBad o)

/-! ## Uncertainty terms (R248 to R250) -/

def State.efcGain (s : State) (h : Half) : Int := wordSigned (s.reg pgCis (0x050 + 4 * h.ix.val))
def State.efcTol (s : State) (h : Half) : Rat := ((s.fieldAt pgCis 0x058 (7 + 8 * h.ix.val) (8 * h.ix.val) : Nat) : Rat) / 256

/-- Size of the EFC feedforward of the latest 1,024 s, as a fraction (R248). -/
def State.efcRecent (s : State) (h : Half) : Rat :=
  let el := s.el0 h
  absQ (rateQ (((((s.half h).efcLog.filter (fun p => decide (el < p.2 + 1024 * secondT))).map (·.1)).sum : Int) : Rat))

/-- u_r, u_a and u_t as the Cistern computes them now (R248). -/
def State.cisTerms (s : State) (h : Half) (d : Dom) : Rat × Rat × Rat :=
  let x := s.dom h d
  let (_, m, mb) := s.modelUsed h d
  let meas := match x.hold with
    | some k => k.meas
    | none => s.measured h d
  let ur := if !x.ready && x.st != 3 && x.st != 4 then tenth 8
    else maxQ (s.uRate m mb) meas + s.efcTol h * s.efcRecent h
  (ur, s.uAge m mb, s.uTemp m mb ((s.half h).sensorGone m))

/-- The reported terms at a beat: in HOLDOVER and LOST none falls below what was reported since the last beat before
entry (R249). -/
def State.reportTerms (s : State) (h : Half) (d : Dom) : State :=
  let (a, b, c) := s.cisTerms h d
  s.modDom h d (fun x =>
    let y := if x.st = 3 ∨ x.st = 4 then { x with ur := maxQ x.ur a, ua := maxQ x.ua b, ut := maxQ x.ut c }
             else { x with ur := a, ua := b, ut := c }
    { y with g1024 := encodeB y.growth1024 })

/-- HOLD_READY at a beat boundary, with its events (R236, R258). -/
def State.readyBeat (s : State) (h : Half) (d : Dom) : State :=
  let was := (s.dom h d).ready
  let now := s.holdReady h d
  let s1 := s.modDom h d (fun x => { x with ready := now })
  (s1.evtIf (s.shows h && now && !was) pgCis (evReadyUp d)).evtIf (s.shows h && !now && was) pgCis (evReadyDown d)

/-! ## History (R233 to R235) -/

/-- The 1 s means of the sensors reach a half: a lost sensor keeps its last one, and each oscillator's correction follows the
sensor of its model in force (R241). -/
def State.takeTemps (s : State) (h : Half) (temps : List Int) : State :=
  s.modHalf h (fun x =>
    let y := { x with temps := Vector.ofFn (fun k : Fin 13 =>
      let z := x.temps.get k
      if z.lost then z else { z with temp := (temps[k.val]?).getD z.temp }) }
    { y with moscT := y.tempFor (s.model h .mosc) x.moscT, xoT := y.tempFor (s.model h .xo) x.xoT })

/-- The mean of the latest 64 1 s entries (R233, R234). -/
def Lath.entry64 (l : Lath) (es : List HistEnt) (e : HistEnt) : HistEnt :=
  { rate := openQ (meanQ (es.map l.convert)), temp := openQ (meanI (es.map (·.temp)))
    efc := (openQ (meanI (es.map (fun x => (x.efc : Int))))).toNat, standby := e.standby, clean := es.all (·.clean) }

/-- One second of a domain ends: the 1 s entry, and on multiples of 64 s the mean of the latest 64 entries (R233). -/
def cisternSecond (h : Half) (d : Dom) (temps : List Int) (s : State) : State :=
  if !s.gridOn h then s
  else
    let s0 := s.takeTemps h temps
    let y := s0.half h
    s0.modDom h d (fun x =>
      let e : HistEnt :=
        { rate := if x.secRates.isEmpty then x.rate else openQ (meanI x.secRates), temp := y.oscTemp y.lath.osc
          efc := y.efcCode, standby := y.lath.src == 2, clean := x.secClean && !x.stepSec && !x.weirSec }
      let hist := (e :: x.hist).take 3600
      { x with
        hist := hist
        hist64 := if (x.t / secondT) % 64 = 0 ∧ 64 ≤ hist.length then (y.lath.entry64 (hist.take 64) e :: x.hist64).take 9450
                  else x.hist64
        cleanRun := if e.clean then satN 16 (x.cleanRun + 1) else 0
        secClean := true, stepSec := false, weirSec := false, secRates := [] })

/-! ## Sensors and models (R241, R246, R247) -/

def State.setLost (s : State) (h : Half) (k : Fin 13) (lost : Bool) : State :=
  s.modHalf h (fun x => { x with temps := modAt x.temps k (fun z => { z with lost := lost }) })

def sensorLost (h : Half) (k : Fin 13) (s : State) : State :=
  if s.halfOn h && !((s.half h).temps.get k).lost then (s.setLost h k true).setEvt pgCis (evSensorLost h) else s

def sensorPresent (h : Half) (k : Fin 13) (s : State) : State := if s.halfOn h then s.setLost h k false else s

/-- The words a completed table puts in force: GEN one more than before, LEARNED by who made it (R245, R246). -/
def installWords (old new : Model) (learned : Bool) : Model :=
  setAt new 15 (flagAt learned 31 ||| fld ((bits (old.get 15) 15 0 + 1) % 65536) 0)

def State.modTab (s : State) (h : Half) (o : Osc) (f : ModelTab → ModelTab) : State :=
  { s with models := modAt s.models (tabIx h o) f }

/-- The half whose oscillator a table describes. -/
def tabHalf (i : Fin 4) : Half := if i.val < 2 then .A else .B

/-- A completed table comes into force: rewritten, it passes its check again, and a SENSOR not used is a sensor lost (R245, R246,
R258, R259). -/
def installOne (h : Half) (o : Osc) (e : Model × Bool) (s : State) : State :=
  let s1 := (s.modTab h o (fun t => { t with words := installWords t.words e.1 e.2 })).modHalf h (fun x => match o with
    | .mosc => { x with moscBad := false }
    | .xo => { x with xoBad := false })
  (s1.setEvt pgCis evModelInst).evtIf (s.halfOn h && sensorBad e.1) pgCis (evSensorLost h)

/-- Completed models come into force, in their order (R246). -/
def modelInst (h : Half) (o : Osc) (s : State) : State :=
  (s.models.get (tabIx h o)).pend.foldl (fun a e => installOne h o e a) (s.modTab h o (fun t => { t with pend := [] }))

/-- The model in force is committed to the Belrex store (R247; 19 R588). -/
def modelPersist (h : Half) (o : Osc) (s : State) : State :=
  let t := s.models.get (tabIx h o)
  if t.stored = t.words then s else (s.modTab h o (fun x => { x with stored := x.words })).count 681 1

/-! ## Learning (R251) -/

/-- Gaussian elimination on the rows of an augmented matrix; none where it is singular. -/
def eliminate : Nat → List (List Rat) → Option (List (List Rat))
  | 0, rows => some rows
  | n + 1, rows =>
    let c := rows.length - (n + 1)
    let done := rows.take c
    let rest := rows.drop c
    match findIx (fun r => decide (r.getD c 0 ≠ 0)) rest with
    | none => none
    | some (i, p) =>
      let piv := p.map (· / p.getD c 0)
      let sub (r : List Rat) : List Rat := (r.zip piv).map (fun q => q.1 - r.getD c 0 * q.2)
      eliminate n ((done.map sub) ++ piv :: ((rest.eraseIdx i).map sub))

/-- Least squares over rows of regressors with their value: the coefficients, the residual sum of squares, and the
diagonal of the inverse normal matrix. -/
def leastSquares (rows : List (List Rat × Rat)) : Option (List Rat × Rat × List Rat) :=
  let p := match rows with
    | [] => 0
    | r :: _ => r.1.length
  let ix := List.range p
  let nm := ix.map (fun i =>
    ix.map (fun j => sumQ (rows.map (fun r => r.1.getD i 0 * r.1.getD j 0))) ++
    [sumQ (rows.map (fun r => r.1.getD i 0 * r.2))] ++ ix.map (fun j => if i = j then (1 : Rat) else 0))
  (eliminate p nm).map (fun m =>
    let b := m.map (fun r => r.getD p 0)
    let rss := sumQ (rows.map (fun r =>
      let e := r.2 - sumQ ((r.1.zip b).map (fun q => q.1 * q.2)); e * e))
    (b, rss, ix.map (fun i => (m.getD i []).getD (p + 1 + i) 0)))

def learnResult (h : Half) (code : Nat) (s : State) : State :=
  let s1 := s.modHalf h (fun x => { x with learnRes := code, learnCnt := x.learnCnt + 1 })
  if code = 1 then s1 else s1.setEvt pgCis evLearnReject

/-- The rate of an entry as taken on an oscillator (R235; log entry 185). -/
def Lath.rateOn (l : Lath) (o : Osc) (e : HistEnt) : Rat :=
  if e.standby == (o == .xo) then (e.rate : Rat) else rescaleQ (e.rate : Rat) (l.ratio : Rat)

/-- One learning pass for an oscillator of a half, on every CLEAN 64 s entry of the domain it names (R251). The rate word follows
−(y_t + ageing) up to a constant. A host's table that waits is installed first, and the pass fits from it (R256). -/
def learningPass (h : Half) (o : Osc) (s : State) : State :=
  if !(s.bitAt pgCis 0x044 16) || !s.halfOn h then s
  else
    let x := s.half h
    let m := match (s.models.get (tabIx h o)).pend.getLast? with
      | some e => e.1
      | none => s.model h o
    let dn := s.fieldAt pgCis 0x044 13 12
    let y := x.doms.getD dn {}
    let ents := ((List.range y.hist64.length).zip y.hist64).filter (fun e => e.2.clean)
    let first : Nat := match ents.getLast? with
      | some e => e.2.efc
      | none => 0
    let gain : Rat := (s.efcGain h : Rat) * tenth 18
    let age (k : Nat) : Rat := ((s.age m - (64 * k : Nat) : Int) : Rat)
    let lg (a : Rat) : Rat := agePart s.pwr.rtcValid (setAt m 10 0) a
    let val (e : Nat × HistEnt) : Rat :=
      -(rateQ (x.lath.rateOn o e.2)) - gain * (((e.2.efc : Int) - (first : Int) : Int) : Rat) - lg (age e.1)
    if ents.length < 1008 then learnResult h 2 s
    else
      let temps := ents.map (fun e => e.2.temp)
      let wide := decide (((s.fieldAt pgCis 0x044 11 8 * 128 : Nat) : Int) ≤
        (temps.foldl max (temps.headD 0)) - (temps.foldl min (temps.headD 0)))
      let order := if wide then min 5 (bits (m.get 0) 10 8) else 0
      let u (t : Int) : Rat := ((t - wordSigned (m.get 1) : Int) : Rat) / 4096
      let pow (b : Rat) (n : Nat) : Rat := (List.range n).foldl (fun a _ => a * b) 1
      let rows := ents.map (fun e =>
        ((1 : Rat) :: age e.1 :: (List.range order).map (fun i => pow (u e.2.temp) (i + 1)),
         if wide then val e else val e - tempPart m e.2.temp))
      match leastSquares rows with
      | none => learnResult h 4 s
      | some (b, rss, diag) =>
        let n := rows.length
        let p := order + 2
        let rms := rootQ (rss / (n : Rat)) (10 ^ 15)
        if 4 * s.uTemp m ((s.models.get (tabIx h o)).pend.isEmpty && x.tabBad o) false < rms then learnResult h 4 s
        else
          let se := rootQ (rss / ((n - p : Nat) : Rat) * diag.getD 1 0) (10 ^ 21)
          let w0 := setAt m 10 (wordI (satI 32 (openQ (b.getD 1 0 * (10 ^ 21 : Nat)))))
          let w1 := (List.range order).foldl (fun a i =>
            a.setIfInBounds (2 + i) (wordI (satI 32 (openQ (b.getD (2 + i) 0 * (10 ^ 15 : Nat)))))) w0
          let w2 := setAt w1 13 (BitVec.ofNat 32 (satN 32 (openQ (3 * rms * (10 ^ 15 : Nat))).toNat))
          let w3 := setAt w2 12 (BitVec.ofNat 32 (satN 32 (openQ (3 * se * (10 ^ 21 : Nat))).toNat))
          learnResult h (if wide then 1 else 3) (s.modTab h o (fun t => { t with pend := t.pend ++ [(w3, true)] }))

/-! ## EFC steering (R252 to R254) -/

def State.efcCfg (s : State) (h : Half) (hi lo : Nat) : Nat := s.fieldAt pgCis (0x048 + 4 * h.ix.val) hi lo
def State.efcDom (s : State) (h : Half) : Dom := ⟨s.efcCfg h 5 4 % 4, by omega⟩

/-- The EFC output may move: the Lath is in PRIMARY and no modulator detection holds it (R253; 04 R141; R259). -/
def State.efcFree (s : State) (h : Half) : Bool := (s.half h).lath.st == .primary && !(s.half h).efcHeld

/-- What an EFC pin carries. -/
inductive EfcPin where
  | hiZ
  | low
  | code (n : Nat)
deriving DecidableEq, Repr

/-- The EFC pin of a half (R252). -/
def State.efcPin (s : State) (h : Half) : EfcPin :=
  if s.pwr.half.of h = .off then .hiZ else if (s.half h).efcMode = 0 then .low else .code (s.half h).efcCode

/-- A new EFC target at a multiple of 64 s of the steering domain (R253). -/
def efcTarget (h : Half) (s : State) : State :=
  let x := s.dom h (s.efcDom h)
  let g := s.efcGain h
  if s.gridOn h && s.efcCfg h 1 0 == 2 && g != 0 && x.st == 2 && s.efcFree h && (x.t / beatT) % 65536 == 0 then
    let frac : Rat := ((2 ^ s.efcCfg h 10 8 : Nat) : Rat)
    let dc := nearQ (rateQ (x.meanRate 65536) / frac / ((g : Rat) * tenth 18))
    let tgt := ((s.half h).efcCode : Int) + dc
    let clip := decide (tgt < 0) || decide (0xFFFFFF < tgt)
    let s1 := s.modHalf h (fun y => { y with efcTarget := some (clampI tgt 0 0xFFFFFF).toNat, efcLimit := clip })
    s1.evtIf clip pgCis (evEfcLimit h)
  else s

/-- The Weir slope limit in force on a domain, per second (06 R220). -/
def State.weirSlope (s : State) (d : Dom) (st : Nat) : Rat :=
  let v := if st = 0 ∨ st = 1 then flimQ (s.fieldAt (pgTd d) 0x054 9 0) else flimQ (s.fieldAt (pgTd d) 0x054 25 16)
  if v < tenth 12 then tenth 12 else if tenth 6 < v then tenth 6 else v

/-- The smallest of EFC_SLOPE and a quarter of the Weir slope limits of the half's domains (R254). -/
def State.efcSlope (s : State) (h : Half) : Rat :=
  allDoms.foldl (fun m d => minQ m (s.weirSlope d (s.dom h d).st / 4)) (flimQ (s.efcCfg h 21 12))

/-- Feedforward into a domain's rate source, units of 2^-60 (R254): in HOLDOVER under a frequency loop its integrator too (06
R198). -/
def DomSt.feed (x : DomSt) (u : Int) : DomSt :=
  if x.st = 3 ∨ x.st = 4 then
    { x with hold := x.hold.map (fun k => { k with f := k.f + u }), heldRate := x.heldRate + u
             integ := if x.st = 3 ∧ x.input.relative = true then x.integ + (u : Rat) else x.integ }
  else if x.st = 0 then { x with heldRate := x.heldRate + u }
  else if x.steer then { x with hostTarget := x.hostTarget.map (· + u), heldRate := x.heldRate + u }
  else { x with integ := x.integ + (u : Rat) }

/-- Mode changes of the EFC output come into force (R252). Away from PRIMARY, and while the modulator fault
holds, the output holds its last code and the mode stays where it is (04 R141). -/
def State.efcMode (s : State) (h : Half) : State :=
  let mode := s.efcCfg h 1 0
  let code := s.fieldAt pgCis (0x05C + 4 * h.ix.val) 23 0
  let x := s.half h
  if s.efcFree h = false then s
  else if mode = x.efcMode then
    (if mode = 1 ∧ x.efcCode ≠ code then s.modHalf h (fun y => { y with efcCode := code }) else s)
  else
    s.modHalf h (fun y =>
      { y with efcMode := mode, efcTarget := none, efcFrac := 0, efcLimit := false,
               efcCode := if mode = 0 then y.efcCode else if mode = 1 ∨ y.efcMode = 0 then code else y.efcCode })

/-- A target falls once the steering domain has left LOCKED (R256); while the Lath is away from PRIMARY it is held (04 R141; log
entry 192). -/
def State.efcDrop (s : State) (h : Half) : State :=
  if (s.dom h (s.efcDom h)).st = 2 then s else s.modHalf h (fun y => { y with efcTarget := none })

/-- One beat of the EFC ramp with its feedforward (R254; 04 R141). -/
def State.efcBeat (s0 : State) (h : Half) : State :=
  let s := (s0.efcMode h).efcDrop h
  let x := s.half h
  let g := s.efcGain h
  if x.efcMode = 2 ∧ g ≠ 0 ∧ s.efcFree h = true ∧ (s.dom h (s.efcDom h)).st = 2 then
    match x.efcTarget with
    | none => s
    | some t =>
      let allow := s.efcSlope h / (1024 * absQ ((g : Rat) * tenth 18)) + x.efcFrac
      let whole := allow.floor
      let dc := clampI ((t : Int) - (x.efcCode : Int)) (-whole) whole
      let u := nearQ (-(g : Rat) * tenth 18 * (dc : Rat) * (rateUnit : Rat))
      let el := s.el0 h
      s.modHalf h (fun y =>
        { y with efcCode := ((y.efcCode : Int) + dc).toNat, efcFrac := allow - (whole : Rat),
                 efcLog := if u = 0 then y.efcLog else
                   (u, el) :: y.efcLog.filter (fun p => decide (el < p.2 + 1024 * secondT)),
                 doms := y.doms.map (fun z => z.feed u) })
  else s

/-! ## Detections (R259) -/

/-- The effect of a Cistern detection on the half it names. -/
def cisternEffect (det : Nat) (s : State) : State :=
  let h : Half := if det < 4 then .A else .B
  match det % 4 with
  | 0 => allDoms.foldl (fun a d =>
      let was := (a.dom h d).ready
      (a.modDom h d (fun x => { x with
        ready := false, cleanRun := 0
        hist := x.hist.map (fun e => { e with clean := false }), hist64 := x.hist64.map (fun e => { e with clean := false }) })).evtIf
          (was && a.shows h) pgCis (evReadyDown d)) s
  | 1 => s.modHalf h (fun x =>
      { x with moscBad := true, xoBad := true
               doms := x.doms.map (fun y => { y with hold := y.hold.map (fun k => { k with modelBad := true }) }) })
  | 2 => sensorLost h 0 s
  | _ => s.modHalf h (fun x => { x with efcHeld := true })

def cisternDetection (det : Byte) (s : State) : State :=
  let d := det.toNat
  let h : Half := if d < 4 then .A else .B
  if d < 8 ∧ s.halfOn h = true then
    let kind := (detKind .cis d).getD kEcc
    (cisternEffect d s).fault (placeOf h) pgCis kind (if d % 4 = 2 then sevWarning else kindSev kind) det
        (s.locFor pgCis kind det)
  else s

/-- The 1 s means of the external thermometer and the half's own die, and of the common die, are taken by sensor number (R241,
R245). -/
def execCisternSecond (h : Half) (d : Dom) (own : Vector Int 7) (common : Vector Int 6) (s : State) : Host.Outcome State Fault Refusal :=
  .next (cisternSecond h d (own.toList ++ common.toList) s)
def execSensorLost (h : Half) (k : Fin 13) (s : State) : Host.Outcome State Fault Refusal := .next (sensorLost h k s)
def execSensorPresent (h : Half) (k : Fin 13) (s : State) : Host.Outcome State Fault Refusal := .next (sensorPresent h k s)
def execModelInst (h : Half) (o : Osc) (s : State) : Host.Outcome State Fault Refusal := .next (modelInst h o s)
def execModelPersist (h : Half) (o : Osc) (s : State) : Host.Outcome State Fault Refusal := .next (modelPersist h o s)
def execLearningPass (h : Half) (o : Osc) (s : State) : Host.Outcome State Fault Refusal := .next (learningPass h o s)
def execEfcTarget (h : Half) (s : State) : Host.Outcome State Fault Refusal := .next (efcTarget h s)
def execCisternDetection (det : Byte) (s : State) : Host.Outcome State Fault Refusal := .next (cisternDetection det s)

end Sys2Proof.Machine
end

