-- ==== Sys2Proof/Machine/Conf.lean ====
section
/-!
DEFINITION. Selection and the Confluence (05 R168 to R175): the selected slot, weights, estimates and the
contributions reported to the Spirit Level.
-/

namespace Sys2Proof.Machine

def State.ensemble (s : State) (d : Dom) : Bool := s.bitAt (pgTd d) 0x0C0 0

/-- PRIO order, ties to the lower number (R168). -/
def State.best (s : State) (l : List SlotNo) : Option SlotNo :=
  l.foldl (fun b n => match b with
    | none => some n
    | some m => if s.slotPrio n < s.slotPrio m then some n else some m) none

/-- Slots that steer a domain and carry time, and those that carry frequency only. -/
def State.timeSteer (s : State) (h : Half) (d : Dom) : List SlotNo := (s.steering h d).filter (fun n => s.slotClass n != 2)
def State.freqSteer (s : State) (h : Half) (d : Dom) : List SlotNo := (s.steering h d).filter (fun n => s.slotClass n == 2)

/-- Members that carry time, and those that carry frequency only; FORCE_HOLD leaves them (R170, 06 R201). -/
def State.timeServe (s : State) (h : Half) (d : Dom) : List SlotNo := (s.serving h d).filter (fun n => s.slotClass n != 2)
def State.freqServe (s : State) (h : Half) (d : Dom) : List SlotNo := (s.serving h d).filter (fun n => s.slotClass n == 2)

/-- The slot that R168 prefers. -/
def State.preferred (s : State) (h : Half) (d : Dom) : Option SlotNo :=
  match s.best (s.timeServe h d) with
  | some n => some n
  | none => s.best (s.freqServe h d)

/-- Whether the selected slot may stay: it is a member, and no FREQ slot while there is a time member (R168, R169). -/
def State.selStays (s : State) (h : Half) (d : Dom) (n : SlotNo) : Bool :=
  s.serves h n d && (s.slotClass n != 2 || (s.timeServe h d).isEmpty)

/-- The selection at a boundary (R169): a better slot replaces the selected one once it has been QUALIFIED for SEL_HOLD. -/
def State.selectBeat (s : State) (h : Half) (d : Dom) : State :=
  let x := s.dom h d
  let p := s.preferred h d
  let kept := match x.sel with
    | some n => if s.selStays h d n then some n else none
    | none => none
  match kept with
  | none => s.modDom h d (fun y => { y with sel := p, better := none, selDone := false })
  | some n =>
    match p.filter (fun b => b != n) with
    | some b =>
      if x.selDone && s.bitAt (pgTd d) 0x0C0 1 && decide (s.fieldAt (pgTd d) 0x0C0 15 8 * 1024 ≤ (s.slot h b).inBeats) then
        s.modDom h d (fun y => { y with sel := some b, better := none, selDone := false })
      else s.modDom h d (fun y => { y with better := some b, selDone := false })
    | none => s.modDom h d (fun y => { y with better := none, selDone := false })

/-- SEL_HOLD elapses for a better slot: it replaces the selected one at the following boundary (R169). -/
def selHoldElapsed (h : Half) (d : Dom) (s : State) : State :=
  if s.gridOn h && (s.dom h d).better.isSome then s.modDom h d (fun y => { y with selDone := true }) else s

/-! ## Weights (R170, R171) -/

/-- s_j² in ps² (R170). -/
def State.slotS2 (s : State) (h : Half) (n : SlotNo) (d : Dom) : Rat :=
  let q := s.sd h n d
  let pts := ((q.window (s.dom h d).el 1024).filter (fun o => decide (q.startEl ≤ o.el))).map (fun o => (secQ o.el, s.devNow h n d o))
  if pts.length < 3 then s.dlimPs n * s.dlimPs n else residSq pts / ((pts.length - 2 : Nat) : Rat)

/-- σ_j² (R170). -/
def State.slotSigma2 (s : State) (h : Half) (n : SlotNo) (d : Dom) : Rat :=
  let ys := (s.sd h n d).ys64
  let v := if ys.length < 2 then s.flimAt n 19 10 * s.flimAt n 19 10 else devSq ys / ((ys.length - 1 : Nat) : Rat)
  maxQ v (tenth 30)

/-- Weights in proportion to `l`, none above `cap`: the excess is shared among the others in proportion (R170). -/
def capWeights (cap : Rat) : Nat → List (Rat × Bool) → List Rat
  | 0, l => l.map (·.1)
  | n + 1, l =>
    let fixed := sumQ ((l.filter (·.2)).map (·.1))
    let free := sumQ ((l.filter (fun p => !p.2)).map (·.1))
    let m := l.map (fun p => if p.2 || decide (free = 0) then p else (p.1 * (1 - fixed) / free, false))
    if m.all (fun p => decide (p.1 ≤ cap)) then m.map (·.1)
    else capWeights cap n (m.map (fun p => if cap ≤ p.1 then (cap, true) else p))

/-- Normalised and capped weights of members with raw weights. -/
def shareWeights (cap : Rat) (l : List (SlotNo × Rat)) : List (SlotNo × Rat) :=
  match l with
  | [(n, _)] => [(n, 1)]
  | _ => (l.map (·.1)).zip (capWeights cap l.length (l.map (fun p => (p.2, false))))

def wmaxOf (v : Nat) : Rat := ((max 128 v : Nat) : Rat) / 256

/-- The members of a domain: its QUALIFIED assigned slots with ROLE STEER (R170). -/
def State.membersNow (s : State) (h : Half) (d : Dom) : List SlotNo := s.serving h d

/-- Raw weights, shares of 1 each where all of them are 0: where every stated uncertainty is unbounded (log entry 184). -/
def evenOut (l : List (SlotNo × Rat)) : List (SlotNo × Rat) :=
  if sumQ (l.map (·.2)) = 0 then l.map (fun p => (p.1, 1)) else l

/-- Target phase and frequency weights of the members (R170, R171); an unbounded u_j gives weight 0. -/
def State.targets (s : State) (h : Half) (d : Dom) (ms : List SlotNo) : List (SlotNo × Rat) × List (SlotNo × Rat) :=
  let cap := wmaxOf (s.fieldAt (pgTd d) 0x0C0 23 16)
  let ph := ms.filter (fun n => s.slotClass n != 2)
  (shareWeights cap (evenOut (ph.map (fun n => (n, (s.slotU h n).elim 0 (fun u => 1 / (s.slotS2 h n d + u * u)))))),
   shareWeights cap (ms.map (fun n => (n, 1 / s.slotSigma2 h n d))))

def weightOf (l : List (SlotNo × Rat)) (n : SlotNo) : Rat :=
  match l.find? (fun p => p.1 == n) with
  | some p => p.2
  | none => 0

/-- Weights in use of the members that stay, scaled to sum to 1 (R171); where all are 0, the targets stand for them. -/
def rescaleWeights (l tgt : List (SlotNo × Rat)) : List (SlotNo × Rat) :=
  let t := sumQ (l.map (·.2))
  if t = 0 then tgt else l.map (fun p => (p.1, p.2 / t))

/-- A ramp starts from the weights in use to new targets; without a member in use they are taken at once (R171). -/
def State.startRamp (s : State) (h : Half) (d : Dom) (ms : List SlotNo) : State :=
  let (tw, tv) := s.targets h d ms
  let stay := ms.filter (fun n => (s.dom h d).members.contains n)
  let w0 := rescaleWeights ((stay.filter (fun n => s.slotClass n != 2)).map (fun n => (n, s.wUse h n d))) tw
  let v0 := rescaleWeights (stay.map (fun n => (n, s.vUse h n d))) tv
  let s1 := allSlots.foldl (fun a n => a.modSd h n d (fun z =>
    { z with w0 := weightOf w0 n, w1 := weightOf tw n, v0 := weightOf v0 n, v1 := weightOf tv n })) s
  s1.modDom h d (fun x => { x with ramp := 0, members := ms })

/-- Every 65,536th beat new targets are computed (R171). -/
def weightUpdate (h : Half) (d : Dom) (s : State) : State :=
  if s.gridOn h then s.startRamp h d (s.membersNow h d) else s

/-- The members and weights at a boundary (R171): the ramp goes on by the beat, and a change of members starts a new one. -/
def State.memberBeat (s : State) (h : Half) (d : Dom) : State :=
  let ms := s.membersNow h d
  let s1 := s.modDom h d (fun x => { x with ramp := min 65536 (x.ramp + 1) })
  if ms = (s.dom h d).members then s1 else s1.startRamp h d ms

/-- The phase and frequency weights that count: those of the Confluence in ensemble mode, else 1 on the selected
slot (R172). RS_W01 and RS_W23 show the phase weight, which a FREQ slot has not: 0 (log entry 204). -/
def State.effW (s : State) (h : Half) (d : Dom) (n : SlotNo) : Rat :=
  if s.slotClass n = 2 then 0
  else if s.ensemble d then s.wUse h n d else if (s.dom h d).sel = some n then 1 else 0
def State.effV (s : State) (h : Half) (d : Dom) (n : SlotNo) : Rat :=
  if s.ensemble d then s.vUse h n d else if (s.dom h d).sel = some n then 1 else 0

/-- The slots that make up a domain's phase estimate. -/
def State.phaseUsers (s : State) (h : Half) (d : Dom) : List SlotNo :=
  if s.ensemble d then s.timeServe h d
  else match (s.dom h d).sel with
    | some n => if s.slotClass n = 2 then [] else [n]
    | none => []
def State.freqUsers (s : State) (h : Half) (d : Dom) : List SlotNo :=
  if s.ensemble d then s.serving h d else (s.dom h d).sel.toList

/-- The estimates E in ps and F as a fraction, formed at each beat (R170). -/
def State.estimateBeat (s : State) (h : Half) (d : Dom) : State :=
  let e := sumQ ((s.phaseUsers h d).map (fun n => s.effW h d n * s.latestX h n d))
  let f := sumQ ((s.freqUsers h d).map (fun n => s.effV h d n * (s.sd h n d).y64))
  s.modDom h d (fun x => { x with confE := e, confF := f })

/-! ## Contributions (R172, R175; 08 R262) -/

/-- C1_j: 1 ps of quantisation plus the residual of the pad's front end; 0 for a PTP slot (08 R262). -/
def State.slotC1 (s : State) (h : Half) (n : SlotNo) : Option Rat :=
  if isPtp n then some 0
  else
    let e := if n.val < 8 then n.val else if n.val = 30 then 8 else s.fieldAt (pgRs n) 0x070 6 4
    (openCode (Config.frontResid h.ix.val e)).map (1 + ·)

/-- The lane in use by a port: its path A's, or path B's while that serves (12 R382, R384). -/
def State.laneInUse (s : State) (p : PortNo) : LaneNo :=
  s.refLane p (if (s.port p).onB && s.paired p then .B else .A)

/-- The lane timestamp residual of level 2 for a PTP slot, with the stated asymmetries and the lane's latency variation
(08 R262, 10 R324). -/
def State.slotC2 (s : State) (n : SlotNo) : Option Rat :=
  if isPtp n then
    let pg := pgLane (s.laneInUse (Fin.ofNat 16 (s.fieldAt pgPtp (0x300 + 0x40 * (n.val - 26)) 11 8)))
    match s.codeQ pg 0x414 31 16, s.codeQ pg 0x410 31 16, s.codeQ pg 0x414 15 0, s.codeQ pg 0x410 15 0, s.codeQ pg 0x418 15 0 with
    | some a, some b, some c, some d, some f => some (((ceilQ ((a + b + c + d) / 2) : Int) : Rat) + f)
    | _, _, _, _, _ => none
  else some 0

/-- Adoption term: the adopted slot's |mean offset| (R175). -/
def State.adoptTerm (s : State) (h : Half) (d : Dom) : Rat :=
  sumQ (((s.timeServe h d).filter (fun n => (s.slot h n).adopting)).map (fun n =>
    absQ (((s.sd h n d).mean16).getD 0)))

/-- A weighted sum of contributions: unbounded where one of weight above 0 is (R172; 00 R11). -/
def weighed (l : List (Rat × Option Rat)) : Option Rat :=
  l.foldl (fun a p => if p.1 = 0 then a else match a, p.2 with
    | some x, some v => some (x + p.1 * v)
    | _, _ => none) (some 0)

/-- Computed levels 1 to 5 of a domain, in ps (08 R262; R172). -/
def State.compLevels (s : State) (h : Half) (d : Dom) : List (Option Rat) :=
  let w (f : SlotNo → Option Rat) : Option Rat := weighed ((s.phaseUsers h d).map (fun n => (s.effW h d n, f n)))
  [w (s.slotC1 h), w s.slotC2, w (s.slotP h), w (fun n => (s.slotU h n).map (· + s.slotT h n d)),
   (w (fun n => some (absQ (((s.sd h n d).mean16).getD (s.latestX h n d) - (s.dom h d).confE)))).map (· + s.adoptTerm h d)]

/-- u_j of a FREQ slot, as a fraction (R183). -/
def State.freqU (s : State) (n : SlotNo) : Option Rat := (s.codeQ (pgRs n) 0x04C 15 0).map (· * tenth 18)

/-- Level 4 for rate over the FREQ members (R172, R183). -/
def State.freqLevel4 (s : State) (h : Half) (d : Dom) : Option Rat :=
  weighed (((s.freqUsers h d).filter (fun n => s.slotClass n == 2)).map (fun n =>
    (s.effV h d n, (s.freqU n).map (· + s.flimAt n 29 20))))

def execSelHoldElapsed (h : Half) (d : Dom) (s : State) : Host.Outcome State Fault Refusal := .next (selHoldElapsed h d s)
def execWeightUpdate (h : Half) (d : Dom) (s : State) : Host.Outcome State Fault Refusal := .next (s.halvesIn h (weightUpdate h d))

end Sys2Proof.Machine
end

