-- ==== Sys2Proof/Machine/Domains.lean ====
section
/-!
DEFINITION. Time domains (06): loop input, bandwidth and gains, the loop through the Weir, states, coats and dwells,
the Trowel, host steering and domain reset.
-/

namespace Sys2Proof.Machine

/-- Event bits of a domain page (R231). -/
def evTdState : Nat := 0
def evTdCoat : Nat := 1
def evTdStepped : Nat := 2
def evTdRefused : Nat := 3
def evTdLocked : Nat := 4
def evTdHoldover : Nat := 5
def evTdLost : Nat := 6
def evTdWeir : Nat := 7
def evTdForced : Nat := 8
def evTdClip : Nat := 9
def evTdReset : Nat := 10

/-! ## Bandwidth and gains (R203, R204, R207, R208) -/

/-- Bandwidth of a code in Hz (R203). -/
def bwHz (c : Nat) : Rat :=
  match c with
  | 0 => 1 / 1000 | 1 => 2 / 1000 | 2 => 5 / 1000 | 3 => 1 / 100 | 4 => 2 / 100 | 5 => 5 / 100 | 6 => 1 / 10
  | 7 => 2 / 10 | 8 => 5 / 10 | 9 => 1 | 10 => 2 | 11 => 5 | 12 => 10 | 13 => 20 | 14 => 50 | 15 => 100 | 16 => 200
  | 17 => 500 | _ => 2000

def clampN (v lo hi : Nat) : Nat := if v < lo then lo else if hi < v then hi else v

/-- The code a coat uses: 1 Scratch, 2 Float, 3 Finish (R204). -/
def State.coatCode (s : State) (d : Dom) (coat : Nat) : Nat :=
  if coat = 1 then clampN (s.fieldAt (pgTd d) 0x044 4 0) 9 18
  else if coat = 2 then clampN (s.fieldAt (pgTd d) 0x044 12 8) 3 9
  else clampN (s.fieldAt (pgTd d) 0x044 20 16) 0 3

/-- Observation rate of a slot in Hz: 1 for pulses and labelled seconds, one per beat for clocks, and for a PTP slot
that of its exchanges in the latest 64 s (R207; 05 R149). -/
def State.obsRate (s : State) (h : Half) (n : SlotNo) (d : Dom) : Rat :=
  if s.slotClass n = 2 then 1024
  else if 26 ≤ n.val ∧ n.val < 30 then ((((s.sd h n d).window (s.dom h d).el 64).length : Nat) : Rat) / 64
  else 1

/-- The lowest observation rate of a loop input (R207). -/
def State.inputRate (s : State) (h : Half) (d : Dom) : LoopIn → Rat
  | .none => 1024
  | .slot n => s.obsRate h n d
  | .step n => s.obsRate h n d
  | .freq _ => 65536
  | .conf => (s.timeSteer h d).foldl (fun m n => minQ m (s.obsRate h n d)) 1024
  | .freqConf => 1024

/-- The largest code no greater than a coat's code and than a tenth of the observation rate (R207). -/
def effCode (code : Nat) (rate : Rat) : Nat :=
  ((List.range (code + 1)).filter (fun c => decide (bwHz c ≤ rate / 10))).foldl max 0

/-- kp in 1/s and ki in 1/s² for a bandwidth code and DAMP (R208). -/
def gains (code damp : Nat) : Rat × Rat :=
  let z : Rat := if damp = 0 then 707 / 1000 else if damp = 1 then 1 else 2
  let k : Rat := if damp = 0 then 2058 / 1000 else if damp = 1 then 2482 / 1000 else 4249 / 1000
  let wn := 2 * piQ * bwHz code / k
  (2 * z * wn, wn * wn)

def State.damp (s : State) (d : Dom) : Nat := s.fieldAt (pgTd d) 0x040 5 4

/-! ## Loop input (R205, R206, R200) -/

/-- The step slot: the QUALIFIED TIME slot that steers with the lowest PRIO (R213). -/
def State.stepSlots (s : State) (h : Half) (d : Dom) : List SlotNo := (s.steering h d).filter (fun n => s.slotClass n == 0)
def State.stepSlot (s : State) (h : Half) (d : Dom) : Option SlotNo := s.best (s.stepSlots h d)

def State.inputNow (s : State) (h : Half) (d : Dom) : LoopIn :=
  let x := s.dom h d
  if x.st = 1 ∧ x.stepped = false then
    match s.stepSlot h d with
    | some n => .step n
    | none => .none
  else if x.forcedOff then .none
  else if s.ensemble d then
    (if !(s.timeSteer h d).isEmpty then .conf else if !(s.freqSteer h d).isEmpty then .freqConf else .none)
  else match x.sel with
    | some n => if s.slotClass n = 2 then .freq n else .slot n
    | none => .none

/-- The value of an input before φ0 is taken off, ps. Where FREQ members alone make it up, a change of members or weights keeps φ0, so
that their phases enter with the new weights; the spec does not say what becomes of φ0 there (log entry 205). -/
def State.rawInput (s : State) (h : Half) (d : Dom) : LoopIn → Rat
  | .none => 0
  | .slot n => s.latestX h n d
  | .conf => (s.dom h d).confE
  | .freq n => s.latestX h n d
  | .step n => s.latestX h n d
  | .freqConf => sumQ ((s.freqSteer h d).map (fun n => s.vUse h n d * s.latestX h n d))

def State.inputVal (s : State) (h : Half) (d : Dom) (i : LoopIn) (phi0 : Rat) : Rat :=
  if i.relative then s.rawInput h d i - phi0 else s.rawInput h d i

/-- A new observation of the input came since the previous boundary; one that the Confluence forms, it forms at every
beat (R207, 05 R170). -/
def State.inputFresh (s : State) (h : Half) (d : Dom) : LoopIn → Bool
  | .none => false
  | .slot n | .freq n | .step n => (s.sd h n d).fresh
  | .conf | .freqConf => true

/-- ē: the mean of e over the latest second, or its latest value (R200, R598). -/
def DomSt.eBar (x : DomSt) : Rat :=
  let l := (x.eObs.filter (fun p => decide (x.el < p.2 + secondT))).map (·.1)
  if l.isEmpty then x.e else meanQ l

/-- The loop sets the rate word (R196, R198, R202, R226): in ACQUIRING and LOCKED without host steering, and the
frequency loop in HOLDOVER while a FREQ slot steers. -/
def DomSt.loops (x : DomSt) : Bool :=
  ((x.st == 1 || x.st == 2) && !x.steer) || (x.st == 3 && x.input.relative)

/-- The bandwidth code of the loop now (R198, R207). -/
def State.bwNow (s : State) (h : Half) (d : Dom) (i : LoopIn) : Nat :=
  let x := s.dom h d
  effCode (s.coatCode d (if x.st = 3 then 3 else if x.coat = 0 then 3 else x.coat)) (s.inputRate h d i)

/-- i = r − kp e, with e in ps (R209). -/
def reload (rate : Int) (kp e : Rat) : Rat := (rate : Rat) - unitsQ (kp * e / (10 ^ 12 : Nat))

/-- The magnitude of the least-squares slope of e over the latest 64 s, as a fraction; y from before a change of
input while fewer than 2 samples of the new one are held (08 R266, R598). -/
def DomSt.yLoop (x : DomSt) : Rat :=
  let l := x.eObs.filter (fun p => decide (x.el < p.2 + 64 * secondT))
  if l.length < 2 then x.yKeep else absQ (slopeQ (l.map (fun p => (secQ p.2, p.1)))) / (10 ^ 12 : Nat)

/-- The longest interval between successive observations of the input in the latest 64 s (08 R266, R598). -/
def gapsOf : List Nat → Nat
  | a :: b :: r => max (a - b) (gapsOf (b :: r))
  | _ => 0
def DomSt.tauObs (x : DomSt) : Nat :=
  let l := (x.eObs.filter (fun p => decide (x.el < p.2 + 64 * secondT))).map (·.2)
  if l.length < 2 then max x.tauKeep (x.el - x.eObs.head?.elim x.el (·.2)) else gapsOf l

/-- The domain's elapsed time at the latest observation of an input, where there is one (R207). -/
def State.inputEl (s : State) (h : Half) (d : Dom) : LoopIn → Option Nat
  | .none => none
  | .slot n | .freq n | .step n => ((s.sd h n d).obs.head?).map (·.el)
  | .conf | .freqConf => some (s.dom h d).el

/-- The input, the effective bandwidth and the integrator at a boundary (R198, R207, R209, R598). The Trowel's step leaves the
integrator as it is (R215). -/
def State.retune (s : State) (h : Half) (d : Dom) (coatChanged : Bool) : State :=
  let x := s.dom h d
  let i := s.inputNow h d
  let newIn := i != x.input
  let phi0 := if newIn then s.rawInput h d i else x.phi0
  let e := s.inputVal h d i phi0
  let x1 := if newIn then
      (let y := { x with input := i, phi0 := phi0, eObs := [], yKeep := x.yLoop, tauKeep := x.tauObs }
       if i = .none then y else { y with e := e, eObs := (s.inputEl h d i).toList.map (fun t => (e, t)) })
    else x
  let s1 := s.modDom h d (fun _ => x1)
  let bw := s1.bwNow h d i
  let integ := if x.stepBeat then x1.integ
    else if x1.st = 3 ∧ newIn = true ∧ i.relative = true ∧ x.input.relative = false then
      (match x1.hold with
       | some k => s.holdRate h k
       | none => (x.rate : Rat))
    else if x1.loops ∧ (coatChanged ∨ newIn ∨ bw ≠ x.bwEff) then reload x.rate (gains bw (s.damp d)).1 x1.e
    else x1.integ
  s1.modDom h d (fun y => { y with bwEff := bw, integ := integ })

/-- The latest value of the input at a boundary, kept for 64 s when it is a new observation. -/
def State.sampleInput (s : State) (h : Half) (d : Dom) : State :=
  let x := s.dom h d
  if s.inputFresh h d x.input then
    let e := s.inputVal h d x.input x.phi0
    s.modDom h d (fun y =>
      { y with e := e, eObs := (e, (s.inputEl h d x.input).getD y.el) :: y.eObs.filter (fun p => decide (y.el < p.2 + 64 * secondT)) })
  else s

/-! ## The Weir and the loop update (R208 to R223, R239) -/

def excUnits (v : Nat) : Int := (unitsQ (((min v 122070 : Nat) : Rat) * tenth 9)).floor

/-- One passage through the Weir: the rate word, the carried fraction, and whether slope or excursion holds it
(R220 to R223). The excursion limit holds the word once the word stands at that limit or beyond it, not while the slope
limit alone still keeps it away (DEDUCED, log entry 206). -/
def weirPass (rate want centre exc : Int) (slope carry : Rat) : Int × Rat × Bool × Bool :=
  let allow := unitsQ (slope / 65536) + carry
  let whole := allow.floor
  let tgt := clampI want (centre - exc) (centre + exc)
  let d := clampI (tgt - rate) (-whole) whole
  (satRate (rate + d), allow - (whole : Rat), decide (d ≠ tgt - rate),
    decide ((centre + exc < want ∧ centre + exc ≤ rate + d) ∨ (want < centre - exc ∧ rate + d ≤ centre - exc)))

/-- What the rate source asks for, in whole units (R196, R198, R208, R226, R239). -/
def State.wanted (s : State) (h : Half) (d : Dom) : Int :=
  let x := s.dom h d
  if x.loops then openQ (x.integ + unitsQ ((gains x.bwEff (s.damp d)).1 * x.e / (10 ^ 12 : Nat)))
  else if x.st = 3 ∨ x.st = 4 then
    match x.hold with
    | some k => if k.fromOther then x.heldRate else openQ (s.holdRate h k)
    | none => x.heldRate
  else if x.st = 0 then x.heldRate
  else x.hostTarget.getD x.heldRate

/-- One loop update of a domain, 1/65,536 s of its time (R207, R208, R210, R220, R223). -/
def loopUpdate (h : Half) (d : Dom) (phase : Option Int) (s : State) : State :=
  if !s.gridOn h then s
  else
    let s0 := match phase with
      | none => s
      | some p => s.modDom h d (fun y => match y.input with
          | .freq n => { y with e := ((p + s.sfieldAt (pgRs n) 0x048 31 0 : Int) : Rat) - y.phi0 }
          | _ => y)
    let x := s0.dom h d
    let want := s0.wanted h d
    let (r, carry, sl, ex) := weirPass x.rate want x.centre (excUnits (s.fieldAt (pgTd d) 0x058 16 0)) (s.weirSlope d x.st) x.carry
    let (kp, ki) := gains x.bwEff (s.damp d)
    let held := decide (r ≠ want)
    let integ := if x.loops then
        (if held then reload r kp x.e else x.integ + unitsQ (ki * x.e / (10 ^ 12 : Nat) / 65536))
      else x.integ
    let s1 := s0.modDom h d (fun y =>
      { y with rate := r, carry := carry, wSlope := sl, wExc := ex, aw := x.loops && held, integ := integ,
               weirSec := y.weirSec || sl || ex, secRates := r :: y.secRates })
    s1.evtIf (s.shows h && ((sl && !x.wSlope) || (ex && !x.wExc))) (pgTd d) evTdWeir

/-! ## Transitions (R197 to R202, R211, R224, R225) -/

/-- Entry to a state with a coat: events, counters, timers (R197, R231; 19 R588). -/
def State.enterDom (s : State) (h : Half) (d : Dom) (st coat : Nat) : State :=
  let x := s.dom h d
  let s1 := s.modDom h d (fun y =>
    { y with st := st, coat := coat, stateBeats := 0, lock := 0, unlock := 0,
             adv := if coat = y.coat then y.adv else 0, fall := if coat = y.coat then y.fall else 0,
             hold := if st = 3 ∨ st = 4 then y.hold else none })
  let s2 := (s1.count (cntHalf h d.val) 1).evtH h (pgTd d) evTdState
  let s3 := s2.evtIf (s.shows h && st == 2) (pgTd d) evTdLocked
  let s4 := (s3.evtIf (s.shows h && st == 3) (pgTd d) evTdHoldover).evtIf (s.shows h && st == 4) (pgTd d) evTdLost
  if coat = x.coat then s4 else (s4.count (cntHalf h (4 + d.val)) 1).evtH h (pgTd d) evTdCoat

/-- A coat change within a state (R211, R231). -/
def State.enterCoat (s : State) (h : Half) (d : Dom) (coat : Nat) : State :=
  ((s.modDom h d (fun y => { y with coat := coat, adv := 0, fall := 0, lock := 0, unlock := 0 })).count
    (cntHalf h (4 + d.val)) 1).evtH h (pgTd d) evTdCoat

/-- The coat for a state without host steering, or none with it (R202, R212). -/
def DomSt.coatFor (x : DomSt) (c : Nat) : Nat := if x.steer then 0 else c

/-- L6_loop of 08 R266, in ps: max |e| over the latest second, and the rate term over τ_obs and 2 beats. -/
def State.l6Loop (s : State) (h : Half) (d : Dom) : Rat :=
  let x := s.dom h d
  let l := (x.eObs.filter (fun p => decide (x.el < p.2 + secondT))).map (·.1)
  let m := if l.isEmpty then absQ x.e else maxAbsQ l
  let y := maxQ x.yLoop (flimQ (s.fieldAt pgSl 0x040 25 16))
  m + y * (secQ x.tauObs + 2 / 1024) * (10 ^ 12 : Nat)

/-- Levels 1 to 5 that an entry to HOLDOVER or LOST holds: as published, or as computed last while nothing is published (08 R267,
R272; log entry 207). -/
def DomSt.heldLevels (x : DomSt) : List Nat :=
  (x.levels.toList.take 5).map (fun l => if x.unb = 0 ∨ x.unb = 4 then l.pub else l.comp)

/-- Entry to HOLDOVER (R197, R198; 07 R238; 08 R267). -/
def State.toHoldover (s : State) (h : Half) (d : Dom) : State :=
  let k := { s.holdValues h d with l6 := s.l6Loop h d, held := (s.dom h d).heldLevels }
  (s.modDom h d (fun y => { y with hold := some k, entryCode := y.bound })).enterDom h d 3 (s.dom h d).coat

/-- Entry to LOST from a state other than HOLDOVER: the rate is held at its mean over the 64 s before, or since the
step (R197, R198; 07 R249). -/
def State.toLost (s : State) (h : Half) (d : Dom) : State :=
  let x := s.dom h d
  let r := openQ (x.meanRate (min 65536 (x.nb - x.stepNb)))
  let k := { s.holdValues h d with
    fromOther := true, rBase := (r : Rat), l6 := s.l6Loop h d, held := x.heldLevels }
  (s.modDom h d (fun y => { y with hold := some k, heldRate := r, entryCode := y.bound })).enterDom h d 4 x.coat

def State.timeRef (s : State) (h : Half) (d : Dom) : Bool := !(s.timeSteer h d).isEmpty

def State.winPs (s : State) (d : Dom) (off hi lo : Nat) : Rat := ((s.fieldAt (pgTd d) off hi lo * 1000 : Nat) : Rat)

/-- No coat condition holds while a steering slot adopts (R225). -/
def State.adoptingNow (s : State) (h : Half) (d : Dom) : Bool := (s.steering h d).any (fun n => (s.slot h n).adopting)

/-- The window conditions of R197 and R211 count whole beats for which they held (R199, R200). -/
def State.dwellBeat (s : State) (h : Half) (d : Dom) : State :=
  let x := s.dom h d
  let e := absQ x.eBar
  let live := x.stepped && (x.st == 1 || x.st == 2)
  let coats := live && !x.steer && !s.adoptingNow h d
  let scr := s.winPs d 0x04C 15 0
  let flt := s.winPs d 0x04C 31 16
  let lockW := s.winPs d 0x050 15 0
  let adv := coats && ((x.coat == 1 && decide (e ≤ scr) && !x.aw) || (x.coat == 2 && decide (e ≤ flt)))
  let fall := coats && ((x.coat == 3 && decide (flt < e)) || (x.coat == 2 && decide (scr < e)))
  let lock := live && x.st == 1 && (x.coat == 3 || x.steer) && decide (e ≤ lockW)
  let unlock := live && x.st == 2 && decide (lockW < e)
  s.modDom h d (fun y =>
    { y with adv := if adv then y.adv + 1 else 0, fall := if fall then y.fall + 1 else 0,
             lock := if lock then y.lock + 1 else 0, unlock := if unlock then y.unlock + 1 else 0 })

/-- Seconds of a dwell field in beats; 0 acts as 1. -/
def State.dwellOf (s : State) (d : Dom) (off hi lo : Nat) : Nat := max 1 (s.fieldAt (pgTd d) off hi lo) * 1024

/-- The coat and lock changes whose dwell is complete (R197, R211, R228). -/
def State.dwellAct (s : State) (h : Half) (d : Dom) : State :=
  let x := s.dom h d
  if s.dwellOf d 0x048 23 16 ≤ x.fall then
    (if x.coat = 3 then (if x.st = 2 then s.enterDom h d 1 2 else s.enterCoat h d 2) else s.enterCoat h d 1)
  else if x.st = 2 ∧ s.dwellOf d 0x048 31 24 ≤ x.unlock then s.enterDom h d 1 (x.coatFor 3)
  else if x.coat = 1 ∧ s.dwellOf d 0x048 7 0 ≤ x.adv then s.enterCoat h d 2
  else if x.coat = 2 ∧ s.dwellOf d 0x048 15 8 ≤ x.adv then s.enterCoat h d 3
  else if x.st = 1 ∧ s.dwellOf d 0x050 31 16 ≤ x.lock then s.enterDom h d 2 (x.coatFor 3)
  else s

/-- A coat, lock or unlock dwell completes: the change takes effect at the domain's coming boundary (R199, R211). -/
def dwellExpiry (h : Half) (d : Dom) (s : State) : State :=
  if s.gridOn h then s.modDom h d (fun y => { y with dwellDone := true }) else s

/-- A domain comes back to ACQUIRING; under host steering its rate word is held at its value, where no RATE_SET stands (R197,
R202). -/
def State.regain (s : State) (h : Half) (d : Dom) (coat : Nat) : State :=
  (s.modDom h d (fun y => if y.steer then { y with heldRate := y.rate } else y)).enterDom h d 1 ((s.dom h d).coatFor coat)

/-- The condition-driven transition of a domain at a boundary, the Trowel apart (R197, R198, R201, R224, R225). -/
def State.domNext (s : State) (h : Half) (d : Dom) : State :=
  let x := s.dom h d
  let ref := s.timeRef h d
  if x.st = 0 then
    (if (s.stepSlot h d).isSome then s.enterDom h d 1 (x.coatFor 1) else s)
  else if x.st = 1 ∧ x.stepped = false then
    (if (s.stepSlot h d).isSome then s
     else (s.modDom h d (fun y => { y with heldRate := y.rate })).enterDom h d 0 0)
  else if x.st = 1 then
    (if !ref then s.toLost h d
     else if x.adopted && s.adoptingNow h d && x.coat != 1 && !x.steer then s.enterCoat h d 1
     else if x.dwellDone then s.dwellAct h d else s)
  else if x.st = 2 then
    (if !ref then (if x.ready then s.toHoldover h d else s.toLost h d)
     else if x.adopted && s.adoptingNow h d then s.enterDom h d 1 (x.coatFor 1)
     else if x.dwellDone then s.dwellAct h d else s)
  else if x.st = 3 then
    (if ref then s.regain h d (if x.adopted then 1 else 2)
     else if !x.forced && decide (s.fieldAt (pgTd d) 0x05C 15 0 < x.bound.toNat) then s.enterDom h d 4 x.coat else s)
  else (if ref then s.regain h d 1 else s)

/-! ## The Trowel (R212 to R218) -/

/-- A half that waits for a load of its domains makes no step of its own once its peer has made it (01 R40): a step that the
two halves make at one boundary, the peer's beat being dealt with first, is no such step. -/
def State.mayStep (s : State) (h : Half) (d : Dom) : Bool :=
  match (s.half h).role with
  | .test | .loading => !(s.dom h.peer d).stepped || (s.dom h.peer d).stepBeat
  | _ => true

/-- The conditions of the step (R214). -/
def State.stepDue (s : State) (h : Half) (d : Dom) : Option SlotNo :=
  let x := s.dom h d
  let w := s.reg (pgTd d) 0x060
  let need := let m := bits w 10 8; if m = 0 then 1 else min 4 m
  match s.stepSlot h d with
  | none => none
  | some n =>
    if !x.stepped && s.mayStep h d && bit w 0 && decide (need ≤ (s.stepSlots h d).length) && (need < 2 || s.majority h n d) then some n
    else none

/-- Δ in units of 2^-32 ns: the step slot's latest offset extrapolated to the boundary (R215). -/
def State.stepSize (s : State) (h : Half) (n : SlotNo) (d : Dom) : Int :=
  let q := s.sd h n d
  let el := (s.dom h d).el
  let l1 := q.window el 1
  let use := if 2 ≤ l1.length then l1 else (q.obs.take q.nSince).take 2
  let sl : Rat := if q.nSince < 2 then 0 else slopeQ (use.map Obs.pt)
  let ps : Rat := match q.obs with
    | [] => 0
    | o :: _ => (o.x : Rat) + sl * secQ (el - o.el)
  nearQ (ps * (2 ^ 32 : Nat) / 1000)

/-- The step takes the domain forward by Δ, its slots' pulses and stamps with it, and every slot's held observations, those of a PHASE slot reduced anew (R153,
R156, R215, R217, R218). -/
def State.makeStep (s : State) (h : Half) (n : SlotNo) (d : Dom) (delta : Nat) : State :=
  let du := delta * 2 ^ 30
  let dps : Rat := (delta : Rat) * 1000 / ((2 ^ 32 : Nat) : Rat)
  let shift (red : Bool) (o : Obs) : Obs :=
    let x := if red then reducePhase (o.x - nearQ dps) else o.x - nearQ dps
    { o with x := x, coast := o.coast + ((x - o.x : Int) : Rat) }
  let mark (m : PulseMark) : PulseMark := { m with t := m.t + nearQ dps }
  let s1 := allSlots.foldl (fun a m => (a.modSd h m d (fun z =>
    { z with obs := z.obs.map (shift (s.slotClass m == 1)), clk := z.clk.map (shift false) })).modSlot h m (fun z =>
      { z with pulse := modAt z.pulse d (fun p => p.map mark) })) s
  let s2 := (s1.modStamps h d (fun t => t.map (· + nearQ dps))).modDom h d (fun y =>
    { y with t := y.t + du, off := y.off + du, done := (y.t + du) / beatT, stepped := true, stepRec := some (delta, n), stepBeat := true,
             stepSec := true, stepNb := y.nb })
  ((s2.enterDom h d 1 (if (s.dom h d).steer then 0 else 1)).evtH h (pgTd d) evTdStepped).reachStep 9

/-- The Trowel at a boundary, then the other transitions (R197, R214, R216, R230). The Confluence's estimate is of the slots'
observations as the step leaves them (R205). -/
def State.trowelBeat (s : State) (h : Half) (d : Dom) : State :=
  match s.stepDue h d with
  | some n =>
    let k := s.stepSize h n d
    if 0 < k then (s.makeStep h n d k.toNat).estimateBeat h d else (s.evtH h (pgTd d) evTdRefused).domNext h d
  | none => s.domNext h d

/-! ## Host steering and FORCE_HOLD in force (R201, R202, R226 to R228) -/

/-- FORCE_HOLD and STEER take effect at a boundary; a domain under host steering has no coat (R201, R202, R211). -/
def State.modesBeat (s : State) (h : Half) (d : Dom) : State :=
  let x := s.dom h d
  let f := s.bitAt (pgTd d) 0x064 0
  let st := s.bitAt (pgTd d) 0x040 0
  let s1 := (s.modDom h d (fun y => { y with forced := f })).evtIf (s.shows h && f && !x.forced) (pgTd d) evTdForced
  if st = x.steer then s1
  else if st then
    let s2 := s1.modDom h d (fun y =>
      { y with steer := true, hostTarget := none, heldRate := if y.st = 3 ∨ y.st = 4 then y.heldRate else y.rate })
    if x.coat ≠ 0 then s2.enterCoat h d 0 else s2
  else
    let c := if x.st = 1 then (if x.stepped then 2 else 1) else if x.st = 2 then 3 else 0
    let s2 := s1.modDom h d (fun y => { y with steer := false, hostTarget := none })
    if c = x.coat then s2 else s2.enterCoat h d c

/-- A target within the excursion limits of a domain (R227). -/
def State.clipRate (s : State) (h : Half) (d : Dom) (t : Int) : Int :=
  let c := (s.dom h d).centre
  let exc := excUnits (s.fieldAt (pgTd d) 0x058 16 0)
  clampI t (c - exc) (c + exc)

/-- Host targets may act: the domain is host-steered, in ACQUIRING after the step or in LOCKED (R226, R228). -/
def DomSt.hosted (x : DomSt) : Bool := x.steer && x.stepped && (x.st == 1 || x.st == 2)

/-- One target at a boundary: the next stage of one that waited, none of one dealt with before. -/
def State.reqBeat (s : State) (h : Half) (d : Dom) (r : RateReq) : Option RateReq :=
  let c := s.clipRate h d r.rate
  if r.stage = 0 then some { r with rate := c, stage := if !(s.dom h d).hosted then 4 else if c = r.rate then 2 else 3 }
  else if r.stage = 1 then some { r with stage := 0 }
  else none

/-- The RATE_SET targets that joined this boundary come into force in their order, each clipped to the excursion limits (R227,
R228): the last one stands. -/
def State.targetBeat (s : State) (h : Half) (d : Dom) : State :=
  let rs := (s.dom h d).hostPend.filterMap (s.reqBeat h d)
  let now := rs.filter (fun r => r.stage == 2 || r.stage == 3)
  (s.modDom h d (fun y =>
    { y with hostPend := rs, hostTarget := match now.getLast? with
        | some r => some r.rate
        | none => y.hostTarget })).evtIf (s.shows h && now.any (fun r => r.stage == 3)) (pgTd d) evTdClip

/-! ## Domain reset (R194, R195, R236, R280) -/

/-- A domain as after a reset: FREE_RUN at time 0, rate at the Weir centre, its bound unbounded for a cause (R194, R195). -/
def DomSt.reset (x : DomSt) (unb : Nat) : DomSt :=
  { rate := x.centre, centre := x.centre, heldRate := x.centre, steer := x.steer, forced := x.forced, dTerm := x.dTerm,
    unb := unb, marred := x.marred && unb != 1, resetBeat := true }

/-- What holds a bound unbounded through a domain reset: an awaited load, and a detection until the reload, save on a half in SOLO
that has no peer to reload from (R232; 08 R272, 09 R310). -/
def State.unbAfter (s : State) (h : Half) (d : Dom) : Nat :=
  let x := s.dom h d
  if x.unb = 3 then 3 else if x.marred = true ∧ ((s.half h).role == .solo && s.peerAway h) = false then 2 else 1

/-- The slots' views of a domain that starts anew: its observations and windows go with its time. -/
def SlotDom.restart (q : SlotDom) : SlotDom := { per := q.per + 1 }

/-- A domain of one half and the slots' views of it start anew, and its half's bus carries the new sequence at once (R194;
08 R261). -/
def State.startDom (s : State) (h : Half) (d : Dom) (unb : Nat) : State :=
  (allSlots.foldl (fun a n => (a.modSd h n d SlotDom.restart).modSlot h n (fun z => { z with pulse := setAt z.pulse d none }))
    ((s.modStamps h d (fun _ => none)).modDom h d (fun x => x.reset unb))).busNote h d

/-- The effect of a domain reset on one half, with the events of the transition to FREE_RUN without a coat (R197, R231;
19 R588). -/
def State.resetDom (s : State) (h : Half) (d : Dom) : State :=
  let was := s.dom h d
  let s1 := (takeLate h d none s).startDom h d (s.unbAfter h d)
  let s2 := if was.st = 0 then s1 else (s1.count (cntHalf h d.val) 1).evtH h (pgTd d) evTdState
  let s3 := if was.coat = 0 then s2 else (s2.count (cntHalf h (4 + d.val)) 1).evtH h (pgTd d) evTdCoat
  let s4 := s3.evtIf (s.shows h && was.ready) pgCis (evReadyDown d)
  s4.evtIf (s.shows h && was.bound != 0xFFFF) pgSl (evUnbounded d)

/-- Operations that a new sequence of a domain's time values ends (R195). -/
def Op.onTime (o : Op) : Bool :=
  o.domain?.isSome && (o.opcode == 0x10 || o.opcode == 0x21 || o.opcode == 0x12 || (o.opcode == 0x11 && bits (o.word 1) 9 8 == 1))

/-- A domain reset acts on every powered half at one boundary; operations on the domain in flight end (R194, R195), and the
step that the outputs have followed is none of the new sequence. -/
def domainReset (d : Dom) (s : State) : State :=
  let s1 := allHalves.foldl (fun a h => if a.halfOn h then a.resetDom h d else a) s
  let s2 := s1.abortOps (fun o => o.domain? == some d.val && s.inFlight o && o.onTime) stAbortReset
  { s2 with arb := { s2.arb with last := setAt s2.arb.last d none, seen := setAt s2.arb.seen d false } }.setEvt (pgTd d) evTdReset

/-! ## Commands -/

/-- Detections of a domain page (R232). -/
def domainDetection (d : Dom) (det : Byte) (s : State) : State :=
  let h : Half := if det.toNat < 8 then .A else .B
  match detKind (.td d) det.toNat with
  | some k => if s.halfOn h then (s.promptUnbound h d).fault (placeOf h) (pgTd d) k (kindSev k) det (s.locFor (pgTd d) k det) else s
  | none => s

/-- The target of a RATE_SET: dwords 2 and 3, signed 48 bits (15 R482). -/
def Op.targetRate (o : Op) : Int := (BitVec.ofNat 48 ((o.word 2).toNat + 2 ^ 32 * bits (o.word 3) 15 0)).toInt

/-- RATE_SET is dispatched (15 R481; R226 to R228). Its target joins the coming boundary of its domain, or the one after where
it came past the 2-cycle point (`late`) or past the point at which the page was captured (R227, 02 R56). -/
def rateSetDispatch (o : Op) (t : Tag) (late : Bool) (s : State) : State :=
  let d : Dom := ⟨bits (o.word 1) 1 0 % 4, by omega⟩
  if !s.owns o.part (pgTd d) then s.finish t stAccessRefused
  else
    if !(s.busHalf.any (fun h => (s.dom h d).hosted)) then s.finish t stRefusedState
    else
      let r : RateReq := { tag := t, rate := o.targetRate, stage := if late || (s.page (pgTd d)).captured.isSome then 1 else 0 }
      (allHalves.foldl (fun a h => if a.gridOn h then a.modDom h d (fun y =>
        { y with hostPend := y.hostPend ++ [r] }) else a) s).phase t .waiting

/-- A RATE_SET whose target the boundary has dealt with completes with the target in force, or refused where no host target may
act (R227, R228; 15 R488). -/
def State.rateSetOne (s : State) (r : RateReq) : State :=
  let cn := (BitVec.ofInt 48 r.rate).toNat
  let res : Vector Word 6 := #v[BitVec.ofNat 32 cn, BitVec.ofNat 32 (cn / 2 ^ 32), 0, 0, 0, flagAt (r.stage == 3) 11]
  if r.stage = 2 ∨ r.stage = 3 then s.finish r.tag stOk res
  else if r.stage = 4 then s.finish r.tag stRefusedState
  else s

/-- RATE_SET operations complete after the boundary of the followed half (R227, R228). -/
def State.rateSetDone (s : State) (h : Half) (d : Dom) : State := (s.dom h d).hostPend.foldl State.rateSetOne s

def execLoopUpdate (h : Half) (d : Dom) (phase : Option Int) (s : State) : Host.Outcome State Fault Refusal :=
  .next (s.inView h (loopUpdate h d phase))
def execDwellExpiry (h : Half) (d : Dom) (s : State) : Host.Outcome State Fault Refusal := .next (dwellExpiry h d s)
def execDomainDetection (d : Dom) (det : Byte) (s : State) : Host.Outcome State Fault Refusal := .next (domainDetection d det s)

end Sys2Proof.Machine
end

