-- ==== Sys2Proof/Machine/Spirit.lean ====
section
/-!
DEFINITION. The Spirit Level (08): the levels of a domain at a beat, their rise and fall, Lath terms, holdover growth,
divergence and delay-step terms.
-/

namespace Sys2Proof.Machine

def psec : Rat := ((10 ^ 12 : Nat) : Rat)

/-- T_s in seconds for a bandwidth code (R268). -/
def settleS (code : Nat) : Rat := 1 / (2 * piQ * bwHz code)

/-- The open Lath terms of a domain in ps (R268), with that of COAST and FAIL. -/
def State.lathTermPs (s : State) (h : Half) (d : Dom) : Rat :=
  let x := s.dom h d
  let l := (s.half h).lath
  let term (t : LathTerm) : Rat :=
    let tau := secQ (x.el - t.tc)
    if t.closed then 0
    else if x.st = 3 ∨ x.st = 4 then t.rho + t.unc * tau * psec
    else if settleS x.bwEff < tau then 0
    else t.rho + t.unc * tau * psec
  let away : Rat :=
    if l.st = .coast ∨ l.st = .fail then 20 * tenth 6 * secQ (s.el0 h - l.awayAt) * psec else 0
  sumQ (x.lathTerms.map term) + away

/-- Terms past T_s end in ACQUIRING and LOCKED and are not reopened (R268). -/
def DomSt.closeTerms (x : DomSt) : DomSt :=
  if x.st = 3 ∨ x.st = 4 then x
  else { x with lathTerms := x.lathTerms.filter (fun t => !t.closed && decide (secQ (x.el - t.tc) ≤ settleS x.bwEff)) }

/-- A Lath change of source opens a term on a bounded domain (R268). -/
def DomSt.openTerm (x : DomSt) (rho unc : Rat) : DomSt :=
  if x.stepped then { x with lathTerms := { rho := rho, unc := unc, tc := x.el } :: x.lathTerms } else x

/-- The growth of R248 at a time in seconds after entry, taken 2 beats later (R269), ps. -/
def DomSt.growthAt (x : DomSt) (t : Rat) : Rat :=
  let u := t + 2 / 1024
  ((x.ur + x.ut) * u + x.ua * u * u / 2) * psec

/-- G and the holdover record after this beat (R269, R270); an unbounded u_f makes it unbounded. -/
def State.growthBeat (s : State) (h : Half) (d : Dom) (k : Hold) : Rat × Hold :=
  let x := s.dom h d
  let t := secQ (x.el - k.entryEl)
  let base := x.growthAt t + k.extra
  let uf := contribPs ((s.freqLevel4 h d).map (· + maxQ x.yLoop (flimQ (s.fieldAt pgSl 0x040 25 16))))
  let grown (tf : Nat) (g u : Rat) : Rat := g + (if (unboundedPs : Rat) ≤ u then u else u * secQ (x.el - tf) * psec)
  if x.st = 3 ∧ x.input.relative = true then
    match k.freqAt with
    | none => (grown x.el base uf, { k with freqAt := some (x.el, base, uf) })
    | some (tf, g, u) =>
      let m := maxQ u uf
      (grown tf g m, { k with freqAt := some (tf, g, m) })
  else
    match k.freqAt with
    | none => (base, k)
    | some (tf, g, u) =>
      let now := grown tf g u
      (now, { k with freqAt := none, extra := now - x.growthAt t })

/-- The divergence term D of a half in ps (09 R309). -/
def State.divPs (s : State) (h : Half) : Rat :=
  match (s.half h).divAt with
  | none => 0
  | some t =>
    ((s.fieldAt pgHalf 0x044 15 0 : Nat) : Rat) + flimQ (s.fieldAt pgHalf 0x048 9 0) * secQ (s.el0 h - t) * psec

/-- Levels that have evidence at this boundary (R274). -/
def State.evidence (s : State) (h : Half) (d : Dom) : List Bool :=
  let x := s.dom h d
  if x.st = 3 ∨ x.st = 4 then List.replicate 6 false
  else
    let us := s.phaseUsers h d
    let used (n : SlotNo) : Bool := s.effW h d n != 0
    let ptp := us.any (fun n => used n && isPtp n && (s.sd h n d).freshEx)
    let any := (s.steering h d).any (fun n => (s.sd h n d).fresh)
    [us.any (fun n => used n && !isPtp n && (s.sd h n d).fresh), ptp, ptp, any, any, x.stepped && s.inputFresh h d x.input]

/-- One level at a beat (R273): the computed value, or the floor the fall rule leaves. -/
def levelBeat (l : Level) (comp el fallRel : Nat) (ev : Bool) : Level :=
  let dt := minQ 64 (secQ (el - l.at_))
  let keep := maxQ 0 (1 - (fallRel : Rat) * dt / 1024)
  let floor := if ev then (ceilQ ((l.pub : Rat) * keep)).toNat else l.pub
  { pub := max comp floor, comp := comp, at_ := if ev ∨ l.pub < comp then el else l.at_ }

/-- The computed levels 1 to 6 of a bounded domain, each sum formed exactly and then rounded up to whole ps (R262, R263, R266,
R267). -/
def State.computed (s : State) (h : Half) (d : Dom) (g : Rat) : List Nat :=
  let x := s.dom h d
  let up (q : Rat) : Nat := (ceilQ q).toNat
  match x.hold with
  | some k => k.held ++ [up (k.l6 + g + s.lathTermPs h d + s.divPs h)]
  | none =>
    (s.compLevels h d).map (fun v => up (contribPs v)) ++ [up (s.l6Loop h d + s.lathTermPs h d + s.divPs h)]

/-- The Spirit Level of a domain at its boundary (R264, R272, R273, R282). -/
def State.spiritBeat (s : State) (h : Half) (d : Dom) : State :=
  let x0 := s.dom h d
  let (g, hold) := match x0.hold with
    | some k => let r := s.growthBeat h d k; (r.1, some r.2)
    | none => (0, none)
  let s1 := s.modDom h d (fun x => { x.closeTerms with hold := hold, gTerm := g, dTerm := s.divPs h })
  let x := s1.dom h d
  let unbStepped := !x.stepped || x.stepBeat
  let comps := s1.computed h d g
  let s2 :=
    if x.unb = 2 ∨ x.unb = 3 ∨ unbStepped = true then s1.modDom h d (fun y =>
      { y.unbound (if x.unb = 2 ∨ x.unb = 3 then x.unb else 1) with
        levels := Vector.ofFn (fun i : Fin 6 => { comp := if x.stepped then comps.getD i.val 0 else 0 }) })
    else
      let ev := s1.evidence h d
      let rel := s1.fieldAt pgSl 0x040 7 0
      let free := x.unb == 1
      s1.modDom h d (fun y =>
        { y with
          unb := if free then 0 else y.unb
          levels := Vector.ofFn (fun i : Fin 6 =>
            let c := comps.getD i.val 0
            if free then { pub := c, comp := c, at_ := y.el }
            else levelBeat (y.levels.get i) c y.el rel (ev.getD i.val false)) }.encode)
  let b := (s2.dom h d).bound
  (s2.evtIf (s.shows h && x0.bound == 0xFFFF && b != 0xFFFF) pgSl (evBounded d)).evtIf
    (s.shows h && x0.bound != 0xFFFF && b == 0xFFFF) pgSl (evUnbounded d)

/-- The marks of new observations are taken off once the boundary has used them. -/
def State.clearFresh (s : State) (h : Half) (d : Dom) : State :=
  allSlots.foldl (fun a n => a.modSd h n d (fun z => { z with fresh := false, freshEx := false })) s

/-! ## Commands -/

def clSlot (k : ClNo) : SlotNo := ⟨26 + k.val, by omega⟩

/-- SL_PDS_CLR in force: the held delay-step terms named become 0 on every powered half (R275). -/
def slPdsClr (mask : BitVec 4) (s : State) : State :=
  ([0, 1, 2, 3] : List ClNo).foldl (fun a k =>
    if mask.getLsbD k.val then
      allHalves.foldl (fun b h => if b.halfOn h then b.modSlot h (clSlot k) (fun z => { z with held := 0, heldBeats := 0 }) else b) a
    else a) s

/-- Majority agreement has held for AGREE_DWELL since the latest step: the held term becomes 0 (R275). -/
def pdsAgreeDwellElapsed (h : Half) (k : ClNo) (s : State) : State :=
  let n := clSlot k
  if s.gridOn h && decide (0 < (s.slot h n).held) &&
      decide (s.fieldAt (pgRs n) 0x05C 23 16 * 1024 ≤ (s.slot h n).heldBeats) then
    s.modSlot h n (fun z => { z with held := 0, heldBeats := 0 })
  else s

/-- A detection on the Spirit Level page makes B unbounded for every domain of its half (R283). -/
def slDetection (det : Byte) (s : State) : State :=
  let h : Half := if det.toNat < 8 then .A else .B
  match detKind .sl det.toNat with
  | some k =>
    if s.halfOn h then
      (allDoms.foldl (fun a d => a.promptUnbound h d) s).fault (placeOf h) pgSl k (kindSev k) det (s.locFor pgSl k det)
    else s
  | none => s

def execSlPdsClr (mask : BitVec 4) (s : State) : Host.Outcome State Fault Refusal := .next (slPdsClr mask s)
def execPdsAgreeDwellElapsed (h : Half) (k : ClNo) (s : State) : Host.Outcome State Fault Refusal := .next (pdsAgreeDwellElapsed h k s)
def execSlDetection (det : Byte) (s : State) : Host.Outcome State Fault Refusal := .next (slDetection det s)

end Sys2Proof.Machine
end

