-- ==== Sys2Proof/Machine/Ptp.lean ====
section
/-!
DEFINITION. The PTP engine: master ports, messages, unicast sessions, authentication and client instances (13).
-/

namespace Sys2Proof.Machine

/-! ## Events (R427) -/

def evForeignAnn : Nat := 0
def evGrantDeny : Nat := 1
def evBucketFull : Nat := 2
def evAuthFail : Nat := 3
def evSaBad : Nat := 4
def evServeStop : Nat := 5
def evDreqLimit : Nat := 6
def evSyncLate : Nat := 7
def evClMaster (k : ClNo) : Nat := 8 + k.val
def evClLoss (k : ClNo) : Nat := 12 + k.val

/-! ## Profiles and configuration (R393, R394) -/

def defaultLog (g : GrantType) (prof : Nat) : Int :=
  match g with
  | .announce => if prof = 3 then -3 else if prof = 4 then 0 else 1
  | _ => if prof = 3 ∨ prof = 4 then -4 else 0

/-- A LOG field as it acts: −8 is the profile default, other values act as the nearer limit. -/
def legalLog (g : GrantType) (prof : Nat) (v : Int) : Int :=
  if v = -8 then defaultLog g prof else clampI v (if g = .announce then -3 else -7) 4

/-- A TRANSPORT value as it acts: 0 L2, 1 UDP/IPv4, 2 UDP/IPv6. -/
def legalTransport (prof v : Nat) : Nat :=
  if prof = 3 then 0 else if prof = 4 then (if v = 2 then 2 else 1) else if v = 3 then 0 else v

def legalUnicast (prof : Nat) (b : Bool) : Bool := if prof = 3 then false else if prof = 4 then true else b

def mpBase (p : PortNo) : Nat := 0x100 + 0x20 * p.val
def clBase (k : ClNo) : Nat := 0x300 + 0x40 * k.val
def allClients : List ClNo := [0, 1, 2, 3]

def State.mpProf (s : State) (p : PortNo) : Nat := s.pf p pgPtp (mpBase p) 2 0
def State.mpDom (s : State) (p : PortNo) : Dom := opDom (s.portReg p pgPtp (mpBase p)) 8
def State.mpAuth (s : State) (p : PortNo) : Nat := min 2 (s.pf p pgPtp (mpBase p) 13 12)
def State.mpSa (s : State) (p : PortNo) : Fin 16 := Fin.ofNat 16 (s.pf p pgPtp (mpBase p) 19 16)
def State.mpTransport (s : State) (p : PortNo) : Nat := legalTransport (s.mpProf p) (s.pf p pgPtp (mpBase p) 5 4)
def State.mpUnicast (s : State) (p : PortNo) : Bool := legalUnicast (s.mpProf p) (s.pb p pgPtp (mpBase p) 7)
def logLo : GrantType → Nat
  | .sync => 0
  | .announce => 4
  | .delayResp => 8
def State.mpLog (s : State) (p : PortNo) (g : GrantType) : Int :=
  legalLog g (s.mpProf p) (s.psf p pgPtp (mpBase p + 4) (logLo g + 3) (logLo g))

/-- The map of clockClass and clockAccuracy in use (R401). -/
def State.mpMap (s : State) (p : PortNo) : Nat := if s.mpProf p ≤ 2 then 0 else 1

def State.clPort (s : State) (k : ClNo) : PortNo := Fin.ofNat 16 (s.fieldAt pgPtp (clBase k) 11 8)
def State.clf (s : State) (k : ClNo) (off hi lo : Nat) : Nat := s.pf (s.clPort k) pgPtp (clBase k + off) hi lo
def State.clProf (s : State) (k : ClNo) : Nat := s.clf k 0 2 0
def State.clUnicast (s : State) (k : ClNo) : Bool := legalUnicast (s.clProf k) (s.pb (s.clPort k) pgPtp (clBase k) 7)
def State.clTransport (s : State) (k : ClNo) : Nat := legalTransport (s.clProf k) (s.clf k 0 5 4)
def State.clAuth (s : State) (k : ClNo) : Nat := min 2 (s.clf k 0 13 12)
def State.clLog (s : State) (k : ClNo) (g : GrantType) : Int :=
  legalLog g (s.clProf k) (s.psf (s.clPort k) pgPtp (clBase k + 4) (logLo g + 3) (logLo g))

/-- An interval of 2^log seconds in CLK_CORE cycles. -/
def logCycles (log : Int) : Nat := if 0 ≤ log then 800000000 * 2 ^ log.toNat else 800000000 / 2 ^ (-log).toNat

/-! ## What the engine consumes (R395, R396) -/

/-- A frame meets a VLAN rule: the port's tag, or none (R396). -/
def vlanOk (w : Word) (v : Option (BitVec 12)) : Bool :=
  match v with
  | some n => bit w 28 && bits w 27 16 == n.toNat
  | none => !bit w 28

/-- The message types the engine supports (R395). -/
def ptpTypes : List Nat := [0x0, 0x1, 0x8, 0x9, 0xB, 0xC]

/-- Version and tag of a message are those that a port consumes, in a module that is not SEALED (R395, R396, R424). -/
def State.headOk (s : State) (p : PortNo) (h : PtpHead) : Bool :=
  s.pwr.state != .sealed && h.version == 2 && (h.minor == 0 || h.minor == 1) && vlanOk (s.portReg p pgPtp (mpBase p + 4)) h.vlan

/-- The domainNumber of a master port, and of a client instance. -/
def State.mpDomNum (s : State) (p : PortNo) : Nat := s.pf p pgPtp (mpBase p) 31 24
def State.clDomNum (s : State) (k : ClNo) : Nat := s.clf k 0 31 24

/-- A message is one for a port's master port, and one for a client instance on it. -/
def State.mpTakes (s : State) (p : PortNo) (h : PtpHead) : Bool :=
  s.headOk p h && s.mpProf p != 0 && s.mpDomNum p == h.domainNum.toNat
def State.clTakes (s : State) (p : PortNo) (k : ClNo) (h : PtpHead) : Bool :=
  s.headOk p h && s.clPort k == p && s.clProf k != 0 && s.clDomNum k == h.domainNum.toNat

/-- The engine consumes a message of a type on a port (R395). -/
def State.ptpConsumes (s : State) (p : PortNo) (typ : Nat) (h : PtpHead) : Bool :=
  ptpTypes.contains typ && (s.mpTakes p h || allClients.any (fun k => s.clTakes p k h))

/-! ## The engine's tables -/

def State.ptpPort (s : State) (p : PortNo) : PtpPort := s.ptp.ports.get p
def State.modPtpPort (s : State) (p : PortNo) (f : PtpPort → PtpPort) : State :=
  { s with ptp := { s.ptp with ports := modAt s.ptp.ports p f } }
def State.client (s : State) (k : ClNo) : Client := s.ptp.clients.get k
def State.modClient (s : State) (k : ClNo) (f : Client → Client) : State :=
  { s with ptp := { s.ptp with clients := modAt s.ptp.clients k f } }
def sessReset (_ : Nat) : Option PtpSess := none
def State.sess? (s : State) (i : Nat) : Option PtpSess := look sessReset s.ptp.sessions i
def State.setSess (s : State) (i : Nat) (x : Option PtpSess) : State :=
  { s with ptp := { s.ptp with sessions := put sessReset s.ptp.sessions i x } }
def State.modSess (s : State) (i : Nat) (f : PtpSess → PtpSess) : State := s.setSess i ((s.sess? i).map f)
def State.sessList (s : State) : List (Nat × PtpSess) := s.ptp.sessions.filterMap (fun e => e.2.map (fun x => (e.1, x)))

/-- The session of a client on a port (R411). -/
def State.sessOf (s : State) (p : PortNo) (c : UniClient) : Option (Nat × PtpSess) :=
  s.sessList.find? (fun e => e.2.lp == p && e.2.client.transport == c.transport && e.2.client.addr == c.addr &&
    e.2.client.clockId == c.clockId && e.2.client.portNum == c.portNum)

/-! ## Serving (R397, R424; 01 R41, 06 R204) -/

/-- TDn_STAT.SERVE_OK. -/
def State.serveOk (s : State) (d : Dom) : Bool :=
  let st := s.busState d
  s.busStepped d && s.busBound d != 0xFFFF && (if s.bitAt (pgTd d) 0x040 8 then st == 2 else st != 0)

/-- The builder of a port is in service (R424, R428). -/
def State.builderOk (s : State) (p : PortNo) : Bool := !s.unitBusy pgPtp (BitVec.ofNat 8 (1 + p.val))

def State.powered (s : State) : Bool := s.pwr.state == .run || s.pwr.state == .reduced

/-- A master port may transmit (R397). -/
def State.mayServe (s : State) (p : PortNo) : Bool :=
  s.portUp p && s.mpProf p != 0 && s.serveOk (s.mpDom p) && s.tsOk p (s.activePath p) && s.builderOk p && s.powered

/-- The messages that a port sends only while it serves. -/
def PtpKind.served : PtpKind → Bool
  | .sync _ | .delayResp | .announce => true
  | _ => false

/-- The conditions of R397 at a packet boundary of the port. -/
def serveBoundary (p : PortNo) (s : State) : State :=
  let on := s.mayServe p
  let s1 := (s.modPtpPort p (fun x => { x with serving := on })).evtIf ((s.ptpPort p).serving && !on) pgPtp evServeStop
  if on then s1.reachStep 10 else s1.modPort p (fun x => { x with msgs := x.msgs.filter (fun m => !m.kind.served) })

/-! ## Authentication (R415 to R417) -/

def State.saWord (s : State) (p : PortNo) (k : Fin 16) : Word := s.portReg p pgPtp (0x080 + 8 * k.val)

/-- The key slot permits HMAC, belongs to the owner of the PTP page, and is usable (R416). -/
def State.hmacSlot (s : State) (w : Word) : Bool :=
  let n : KeyNo := Fin.ofNat 64 (bits w 13 8)
  let x := s.slotKey n
  s.keyUsable n && attrHmac x.curBank.attr && attrOwner x.curBank.attr == (s.page pgPtp).owner.toNat

def State.saUsable (s : State) (p : PortNo) (k : Fin 16) : Bool := bit (s.saWord p k) 31 && s.hmacSlot (s.saWord p k)

/-- The HMAC check is in service (R428). -/
def State.hmacOk (s : State) : Bool := !s.unitBusy pgPtp 17

/-- An association may be sent with. -/
def State.saSends (s : State) (p : PortNo) (k : Fin 16) : Bool := s.saUsable p k && bit (s.saWord p k) 30 && s.hmacOk

/-- A message fails R417. -/
def authFailed (s : State) : State :=
  ({ s with ptp := { s.ptp with authFail := s.ptp.authFail + 1 } }.setEvt pgPtp evAuthFail).count 336 1

/-- The ICV of an association over a message's octets up to it: keyed with the whole material of its slot, correctionField taken
as 0 (R415, R416). -/
def State.icv (s : State) (p : PortNo) (k : Fin 16) (octets : List Byte) : BitVec 128 :=
  Config.hmac256 ((s.slotKey (Fin.ofNat 64 (bits (s.saWord p k) 13 8))).cur.getD []) (zeroCorr octets)

/-- The usable association whose SPP and KEY_ID are those of a TLV (R417). -/
def State.saFor (s : State) (p : PortNo) (v : AuthTlv) : Option (Fin 16) :=
  (List.finRange 16).find? (fun k => s.saUsable p k && bits (s.saWord p k) 7 0 == v.spp.toNat &&
    s.portReg p pgPtp (0x084 + 8 * k.val) == v.keyId)

/-- The association that verifies a TLV: its ICV is that of the message (R417, R428). -/
def State.verified (s : State) (p : PortNo) (v : AuthTlv) : Option (Fin 16) :=
  (s.saFor p v).filter (fun k => s.hmacOk && s.icv p k v.octets == v.icv)

/-- A received message under an AUTH field: whether it is consumed, and the association that verified it. -/
def authCheck (p : PortNo) (mode : Nat) (v : Option AuthTlv) (s : State) : Bool × Option (Fin 16) × State :=
  if mode = 0 then (true, none, s)
  else match v with
    | some a => match s.verified p a with
      | some k => (true, some k, s.count 328 1)
      | none => (false, none, authFailed s)
    | none => if mode = 2 then (false, none, authFailed s) else (true, none, s)

/-- SA_BAD of the associations in use (R416). -/
def State.saBadNow (s : State) : BitVec 16 :=
  BitVec.ofNat 16 ((List.finRange 16).foldl (fun a k =>
    let w := s.reg pgPtp (0x080 + 8 * k.val)
    if bit w 31 && !s.hmacSlot w then a + 2 ^ k.val else a) 0)

def saRefresh (s : State) : State :=
  let b := s.saBadNow
  { s with ptp := { s.ptp with saBad := b } }.evtIf (b &&& ~~~s.ptp.saBad != 0) pgPtp evSaBad

/-- Whether a message of a master port carries the TLV (R417). -/
def State.withTlv (s : State) (p : PortNo) (multicast : Bool) (x : Option PtpSess) : Bool :=
  s.mpAuth p == 2 || (s.mpAuth p == 1 && (multicast || ((x.map (·.auth)).getD false)))

/-! ## Building messages (R398 to R400, R413) -/

/-- Queue a message on its port; one whose association is unusable is not sent (R416). -/
def queueMsg (p : PortNo) (m : PtpMsg) (s : State) : State :=
  if (match m.sa with | some k => s.saSends p k | none => true) then s.modPort p (fun x => { x with msgs := x.msgs ++ [m] })
  else s

def State.mpSaIf (s : State) (p : PortNo) (tlv : Bool) : Option (Fin 16) := if tlv then some (s.mpSa p) else none

/-- Build a Sync or an Announce of a port, multicast or of a session. -/
def buildMsg (p : PortNo) (i : Option Nat) (sync : Bool) (s : State) : State :=
  let d := s.mpDom p
  let two := !s.pb p pgPtp (mpBase p) 6
  let kind : PtpKind := if sync then .sync two else .announce
  match i with
  | none =>
    let x := s.ptpPort p
    let m : PtpMsg := { kind := kind, domNum := BitVec.ofNat 8 (s.mpDomNum p), seq := if sync then x.syncSeq else x.annSeq
                        log := s.mpLog p (if sync then .sync else .announce), dom := d, sa := s.mpSaIf p (s.withTlv p true none) }
    (queueMsg p m s).modPtpPort p (fun y =>
      if sync then { y with syncSeq := y.syncSeq + 1 } else { y with annSeq := y.annSeq + 1 })
  | some j =>
    match s.sess? j with
    | none => s
    | some x =>
      let m : PtpMsg := { kind := kind, sess := some j, unicast := true, domNum := BitVec.ofNat 8 (s.mpDomNum p)
                          seq := if sync then x.syncSeq else x.annSeq, log := if sync then x.sync.log else x.ann.log, dom := d
                          sa := s.mpSaIf p (s.withTlv p false (some x)) }
      (queueMsg p m s).modSess j (fun y =>
        if sync then { y with syncSeq := y.syncSeq + 1 } else { y with annSeq := y.annSeq + 1 })

/-- Beats between messages of an interval. -/
def beatsOf (log : Int) : Nat := if 0 ≤ log then 1024 * 2 ^ log.toNat else 1024 / 2 ^ (-log).toNat

/-- A message of an interval falls due at beat `n` at table index `i`, 0 for multicast (R398). -/
def dueAt (n : Nat) (log : Int) (i : Nat) : Bool := n % beatsOf log == i % beatsOf log

/-- The Sync or the Announce messages due at beat `n` of a domain. -/
def State.dueMsgs (s : State) (d : Dom) (n : Nat) (sync : Bool) : List (PortNo × Option Nat × Bool) :=
  let g : GrantType := if sync then .sync else .announce
  let ports := allPorts.filter (fun p => (s.ptpPort p).serving && s.mpProf p != 0 && s.mpDom p == d && s.serveOk d)
  (ports.filter (fun p => s.mpProf p != 4 && dueAt n (s.mpLog p g) 0)).map (fun p => (p, none, sync)) ++
    (s.sessList.filter (fun e =>
      let gr := if sync then e.2.sync else e.2.ann
      ports.contains e.2.lp && gr.active && dueAt n gr.log e.1)).map (fun e => (e.2.lp, some e.1, sync))

/-- Sync and Announce messages are built at a beat of a domain, Syncs first, 16,400 of each (R398, R413). -/
def ptpBuild (d : Dom) (s : State) : State :=
  let n := s.busTime d / beatT
  let old := s.ptp.late.get d
  let pick (sync : Bool) : List (PortNo × Option Nat × Bool) :=
    old.filter (fun (e : PortNo × Option Nat × Bool) => e.2.2 == sync) ++ s.dueMsgs d n sync
  let now := (pick true).take 16400 ++ (pick false).take 16400
  let rest := (pick true).drop 16400 ++ (pick false).drop 16400
  let k := rest.length
  let s1 := { s with ptp := { s.ptp with late := setAt s.ptp.late d rest, syncLate := s.ptp.syncLate + BitVec.ofNat 32 k } }
  let s2 := (s1.evtIf (decide (0 < k)) pgPtp evSyncLate).count 337 k
  now.foldl (fun a e => buildMsg e.1 e.2.1 e.2.2 a) s2

/-- A Follow_Up is built for the oldest Sync that left in two-step operation (R399). -/
def followUpBuild (p : PortNo) (s : State) : State :=
  match (s.port p).follow with
  | [] => s
  | m :: r => queueMsg p m (s.modPort p (fun x => { x with follow := r }))

/-! ## The BOUND TLV and the Announce's fields (R401 to R407) -/

/-- The BOUND TLV's fields at an instant: `total` as issued, level 7 in ps (R406, R428). -/
def State.boundTlv (s : State) (d : Dom) (total : Code) (level7 : Rat) : BoundTlv :=
  { total := if s.unitBusy pgPtp 18 then 0xFFFF else total
    levels := match s.busHalf with
      | some h => ((s.half h).bus.get d).levels
      | none => Vector.replicate 6 0xFFFF
    level7 := encodePs level7
    flags := BitVec.ofNat 8 ((if s.busAdd d = 0 then 0 else 16) + 8 * s.followHalf.ix.val + s.busState d) }

/-- Its octets. -/
def BoundTlv.bytes (b : BoundTlv) (org : Nat) : List Byte :=
  beBytes 2 0x8000 ++ beBytes 2 26 ++ beBytes 3 org ++ beBytes 3 1 ++ [1, b.flags] ++ beBytes 2 b.total.toNat ++
    b.levels.toList.flatMap (fun c => beBytes 2 c.toNat) ++ beBytes 2 b.level7.toNat ++ beBytes 2 0

/-- Limit of the clockAccuracy enumeration 0x17 + k, ps (R403). -/
def accLimit (k : Nat) : Rat := if k % 2 = 0 then ((10 ^ (k / 2) : Nat) : Rat) else ((25 * 10 ^ (k / 2) : Nat) : Rat) / 10

/-- clockAccuracy of a bound with ACC_MODE at 0. -/
def accuracyOf (c : Code) : Nat :=
  if c = 0xFFFF then 0xFE
  else (((List.range 25).find? (fun k => decide (codePs c ≤ accLimit k))).map (0x17 + ·)).getD 0xFE

/-- The bound that an Announce's clockAccuracy stands for (R408). -/
def accuracyBound (a : Nat) : Code := if 0x17 ≤ a ∧ a < 0x30 then encodePs (accLimit (a - 0x17)) else 0xFFFF

def slotTimeSource (n : SlotNo) : Nat :=
  if n.val = 8 ∨ n.val = 9 then 0x20 else if n.val = 30 then 0x10 else if 26 ≤ n.val then 0x40 else 0x90

/-- The slot of the largest weight, ties going to the lower number. -/
def largest (w : SlotNo → Rat) : Option SlotNo :=
  allSlots.foldl (fun best n => match best with
    | none => if 0 < w n then some n else none
    | some b => if w b < w n then some n else some b) none

/-- The slot that carries the largest weight in a domain: of phase, or of frequency where no slot has a phase weight. -/
def State.heaviest (s : State) (d : Dom) : Option SlotNo :=
  match s.busHalf with
  | none => none
  | some h => match largest (s.effW h d) with
    | some n => some n
    | none => largest (s.effV h d)

/-- timeSource (R404); with no slot in use the spec states none, and it is a free value. -/
def State.timeSource (s : State) (d : Dom) : Nat × State :=
  if s.busState d = 3 ∨ s.busState d = 4 then (0xA0, s)
  else match s.heaviest d with
    | some n => (slotTimeSource n, s)
    | none => s.draw 256

/-- UTC offset, its validity, and leap61 and leap59 (R405). -/
def State.utcFields (s : State) (p : PortNo) : Nat × Bool × Bool × Bool :=
  let w := s.portReg p pgPtp 0x050
  let f := bits w 21 20
  if f = 1 ∨ f = 2 then
    let n : SlotNo := if f = 1 then 8 else 9
    let x := s.slot s.followHalf n
    (x.taiUtc, s.bitAt (pgRs n) 0x074 8, x.leapPend == 1, x.leapPend == 2)
  else (bits w 15 0, bit w 16, bit w 17, bit w 18)

/-- clockIdentity of the device, and the portNumber of a master port (R401). -/
def State.clockId (s : State) (p : PortNo) : BitVec 64 :=
  BitVec.ofNat 64 ((s.portReg p pgPtp 0x040).toNat + 2 ^ 32 * (s.portReg p pgPtp 0x044).toNat)
def mpNumber (p : PortNo) : BitVec 16 := BitVec.ofNat 16 (p.val + 1)

/-- The dataset fields of an Announce with its bound and the interval in force for it (R401 to R405). -/
def State.announceSet (s : State) (p : PortNo) (b : Code) (log : Int) : AnnounceSet × State :=
  let d := s.mpDom p
  let st := s.busState d
  let m := 4 * s.mpMap p
  let cc := s.portReg p pgPtp (0x054 + m)
  let acc := s.portReg p pgPtp (0x05C + m)
  let within := decide (b.toNat ≤ s.pf p pgPtp 0x064 15 0)
  let trace := st == 2 || (st == 3 && within)
  let pr := s.timeSource d
  let src := pr.1
  let s1 := pr.2
  let (off, valid, l61, l59) := s.utcFields p
  ({ clockClass := if st = 2 then bits cc 7 0 else if st = 1 then bits cc 15 8
       else if st = 3 ∧ within = true then bits cc 23 16 else bits cc 31 24
     accuracy := if s.unitBusy pgPtp 18 then 0xFE
       else if bit acc 0 then (if st = 2 then bits acc 15 8 else 0xFE) else accuracyOf b
     variance := if st = 2 then bits acc 31 16 else 0xFFFF
     timeSource := src, utcOffset := off, utcValid := valid, leap61 := l61, leap59 := l59
     timeTraceable := trace, freqTraceable := trace || (st == 1 && s.busStepped d)
     gmId := s.clockId p, portNum := mpNumber p, prio1 := s.pf p pgPtp 0x048 7 0, prio2 := s.pf p pgPtp 0x048 15 8
     stepsRemoved := 0, ptpTimescale := true, logInterval := log }, s1)

/-! ## Messages as octets (R396, R399 to R401, R406, R407, R409, R415, R423) -/

def grantCode : GrantType → Nat
  | .announce => 0xB
  | .sync => 0x0
  | .delayResp => 0x9

/-- The TLV of a Signaling message; `free` fills what of L1_SYNC the spec leaves open. -/
def SigTlv.octets (v : SigTlv) (free : Nat) : List Byte :=
  match v with
  | .request g log dur => beBytes 2 0x0004 ++ beBytes 2 6 ++ [BitVec.ofNat 8 (16 * grantCode g), BitVec.ofInt 8 log] ++ beBytes 4 dur
  | .grant g log dur => beBytes 2 0x0005 ++ beBytes 2 8 ++ [BitVec.ofNat 8 (16 * grantCode g), BitVec.ofInt 8 log] ++ beBytes 4 dur ++
      [0, if dur = 0 then 0 else 1]
  | .cancel g => beBytes 2 0x0006 ++ beBytes 2 2 ++ [BitVec.ofNat 8 (16 * grantCode g), 0]
  | .ackCancel g => beBytes 2 0x0007 ++ beBytes 2 2 ++ [BitVec.ofNat 8 (16 * grantCode g), 0]
  | .l1sync tcr rcr cr => beBytes 2 0x8001 ++ beBytes 2 2 ++
      [BitVec.ofNat 8 (tcr.toNat + 2 * rcr.toNat + 4 * cr.toNat), BitVec.ofNat 8 (free % 8)]

def PtpKind.typ : PtpKind → Nat
  | .sync _ => 0x0
  | .delayReq => 0x1
  | .followUp => 0x8
  | .delayResp => 0x9
  | .announce => 0xB
  | .signaling _ => 0xC

/-- Event messages, which go to UDP port 319. -/
def PtpKind.event : PtpKind → Bool
  | .sync _ | .delayReq => true
  | _ => false

/-- controlField, and logMessageInterval of a message whose interval is `log`. -/
def PtpKind.ctl : PtpKind → Nat
  | .sync _ => 0
  | .delayReq => 1
  | .followUp => 2
  | .delayResp => 3
  | _ => 5
def PtpMsg.logField (m : PtpMsg) : Int :=
  match m.kind with
  | .announce => m.log
  | .delayReq | .signaling _ => 0x7F
  | _ => if m.unicast then 0x7F else m.log

/-- flagField: twoStepFlag and unicastFlag, and of an Announce its time flags. -/
def PtpMsg.flags (m : PtpMsg) (ann : Option AnnounceSet) : Nat :=
  (if m.kind = .sync true then 0x200 else 0) + (if m.unicast then 0x400 else 0) +
    ann.elim 0 (fun a => a.leap61.toNat + 2 * a.leap59.toNat + 4 * a.utcValid.toNat + 8 * a.ptpTimescale.toNat +
      16 * a.timeTraceable.toNat + 32 * a.freqTraceable.toNat)

/-- A timestamp's seconds and nanoseconds. -/
def stampOctets (t : Nat) : List Byte := beBytes 6 (secOf t) ++ beBytes 4 (nsOf t)

/-- The message types that carry the BOUND TLV (R407). -/
def PtpKind.bounded : PtpKind → Bool
  | .sync two => !two
  | .followUp | .delayResp | .announce => true
  | _ => false

def State.orgId (s : State) (p : PortNo) : Nat := s.pf p pgPtp 0x04C 23 0

def State.hasBound (s : State) (p : PortNo) (m : PtpMsg) : Bool := m.kind.bounded && s.orgId p != 0

/-- The client that a message goes to: its session's, with the MAC of its latest message, or the one it names. -/
def State.msgTo (s : State) (m : PtpMsg) : Option UniClient :=
  match m.sess.bind s.sess? with
  | some x => some x.client
  | none => m.dest

/-- requestingPortIdentity and targetPortIdentity. -/
def State.toIdentity (s : State) (m : PtpMsg) : List Byte :=
  match s.msgTo m with
  | some c => beBytes 8 c.clockId.toNat ++ beBytes 2 c.portNum.toNat
  | none => List.replicate 10 0xFF

/-- What stands between the header and the TLVs common to all messages; `free` fills the timestamps that the spec leaves open. -/
def State.ptpBodyOf (s : State) (m : PtpMsg) (ann : Option AnnounceSet) (free : Nat) : List Byte :=
  match m.kind with
  | .sync _ | .followUp => stampOctets m.t
  | .delayReq => beBytes 10 (free / 2 ^ 64)
  | .delayResp => stampOctets m.t ++ s.toIdentity m
  | .signaling v => s.toIdentity m ++ v.octets free
  | .announce => beBytes 10 (free / 2 ^ 64) ++ ann.elim [] (fun a =>
      beBytes 2 a.utcOffset ++ [0, BitVec.ofNat 8 a.prio1, BitVec.ofNat 8 a.clockClass, BitVec.ofNat 8 a.accuracy] ++ beBytes 2 a.variance ++
        [BitVec.ofNat 8 a.prio2] ++ beBytes 8 a.gmId.toNat ++ beBytes 2 a.stepsRemoved ++ [BitVec.ofNat 8 a.timeSource])

/-- sourcePortIdentity's portNumber: that of a client instance is the spec's to state and it states none (log entry 216). -/
def PtpMsg.number (p : PortNo) (m : PtpMsg) : BitVec 16 :=
  match m.client with
  | some k => Config.clNumber k.val
  | none => mpNumber p

def State.ptpHdr (s : State) (p : PortNo) (m : PtpMsg) (ann : Option AnnounceSet) : PtpHdr :=
  { typ := m.kind.typ, domainNum := m.domNum, flags := m.flags ann, corr := m.corr, clockId := s.clockId p, portNum := m.number p
    seq := m.seq, ctl := m.kind.ctl, log := m.logField }

/-- The AUTHENTICATION TLV short of its ICV (R415). -/
def State.authHead (s : State) (p : PortNo) (k : Fin 16) : List Byte :=
  beBytes 2 0x8009 ++ beBytes 2 22 ++ [BitVec.ofNat 8 (bits (s.saWord p k) 7 0), 0] ++
    beBytes 4 (s.portReg p pgPtp (0x084 + 8 * k.val)).toNat

/-- A whole message: the BOUND TLV after every other TLV but the AUTHENTICATION TLV, whose ICV covers all that is before it (R407,
R415). -/
def State.ptpOctets (s : State) (p : PortNo) (m : PtpMsg) (ann : Option AnnounceSet) (free : Nat) : List Byte :=
  let body := s.ptpBodyOf m ann free ++ (if s.hasBound p m then m.bound.bytes (s.orgId p) else [])
  match m.sa with
  | none => (s.ptpHdr p m ann).octets body 0
  | some k =>
    let b := (s.ptpHdr p m ann).octets (body ++ s.authHead p k) 16
    b ++ beBytes 16 (s.icv p k b).toNat

/-- A 128-bit address held in four words, the highest first. -/
def State.addrAt (s : State) (p : PortNo) (pg off : Nat) : BitVec 128 :=
  BitVec.ofNat 128 ([0, 4, 8, 12].foldl (fun a i => a * 2 ^ 32 + (s.portReg p pg (off + i)).toNat) 0)

/-- The tag of a port's frames, by its interval or configuration word: PCP and VLAN_ID (R396). -/
def tagOf (w : Word) : Option Nat := if bit w 28 then some (bits w 31 29 * 2 ^ 13 + bits w 27 16) else none

/-- Transport of a message, and of a unicast one the MAC and the address that it goes to: a client instance's master through its
next hop (R396, R420). -/
def State.ptpWay (s : State) (p : PortNo) (m : PtpMsg) : Nat × Option (BitVec 48 × BitVec 128) :=
  match m.client with
  | some k => (s.clTransport k, if m.unicast then
      some (BitVec.ofNat 48 ((s.portReg p pgPtp (clBase k + 0x20)).toNat + 2 ^ 32 * (s.portReg p pgPtp (clBase k + 0x24)).toNat),
        s.addrAt p pgPtp (clBase k + 0x0C)) else none)
  | none => match (if m.unicast then s.msgTo m else none) with
    | some c => (c.transport.toNat, some (c.dmac, c.addr))
    | none => (s.mpTransport p, none)

/-- The multicast MAC of a transport (R396; log entry 214). -/
def groupMac (transport : Nat) (alt : Bool) : BitVec 48 :=
  if transport = 1 then 0x01005E000181 else if transport = 2 then 0x333300000181 else if alt then 0x0180C200000E else 0x011B19000000

/-- How a PTP message is carried (R396); hop limits are open, and `free` fills them. -/
def State.ptpLink (s : State) (p : PortNo) (m : PtpMsg) (free : Nat) : LinkHdr :=
  let way := s.ptpWay p m
  let port := if m.kind.event then 319 else 320
  let ttl := 1 + free / 2 ^ 32 % 255
  { dst := way.2.elim (groupMac way.1 (s.pb p pgPtp (mpBase p) 10)) (·.1)
    src := s.lpMac p
    tci := tagOf (s.portReg p pgPtp (mpBase p + 4))
    net := if way.1 = 1 then .udp4 (s.portReg p pgPtp (mpBase p + 8)) (way.2.elim 0xE0000181 (fun d => d.2.setWidth 32)) port port ttl false
      else if way.1 = 2 then
        .udp6 (s.addrAt p pgPtp (mpBase p + 0x0C)) (way.2.elim (0xFF0E0000000000000000000000000181) (·.2)) port port ttl
      else .l2 0x88F7 }

/-- The frame of a message, short of its FCS. -/
def State.ptpFrame (s : State) (p : PortNo) (m : PtpMsg) (ann : Option AnnounceSet) (free : Nat) : List Byte :=
  (s.ptpLink p m free).frame free (s.ptpOctets p m ann free)

/-! ## Messages leaving (R383, R399, R407) -/

/-- A timestamp's fraction below 1 ns in a correctionField, units of 2^-16 ns (R399). -/
def corrOf (t : Nat) : Int := nearQ (((t % 2 ^ 62 : Nat) : Rat) / ((2 ^ 46 : Nat) : Rat))

def kindCounter : PtpKind → Option Nat
  | .sync _ => some 320
  | .followUp => some 322
  | .delayResp => some 324
  | .announce => some 330
  | .signaling _ => some 331
  | .delayReq => none

/-- Timestamp, bound and state after a message's egress: a Sync or Delay_Req is stamped as it leaves, the others carry the
time they were built with. -/
def ptpStamp (p : PortNo) (a : PathAB) (m : PtpMsg) (sub fec : Nat) (s : State) : Nat × Code × State :=
  match m.kind with
  | .sync _ | .delayReq => s.egress p a m.dom sub fec
  | _ => (m.t, s.present m.dom (s.txLevel7 (s.refLane p a)), s)

/-- The message as it leaves, with the time and the bound of its egress: a one-step Sync carries both, a two-step Sync neither (R399,
R407). -/
def PtpMsg.stamped (m : PtpMsg) (t : Nat) (tlv : BoundTlv) : PtpMsg :=
  match m.kind with
  | .sync false => { m with t := t, corr := corrOf t, bound := tlv }
  | .announce => { m with bound := tlv }
  | _ => m

/-- The Follow_Up of a two-step Sync that left at a time with a bound (R399). -/
def PtpMsg.followed (m : PtpMsg) (t : Nat) (tlv : BoundTlv) : PtpMsg :=
  { m with kind := .followUp, t := t, corr := corrOf t, bound := tlv }

/-- The data of an Announce as it leaves. -/
def ptpAnnounce (p : PortNo) (m : PtpMsg) (b : Code) (s : State) : Option AnnounceSet × State :=
  if m.kind = .announce then (some (s.announceSet p b m.log).1, (s.announceSet p b m.log).2) else (none, s)

/-- The counter of a message's kind. -/
def countKind (m : PtpMsg) (s : State) : State :=
  match kindCounter m.kind with
  | some c => s.count c 1
  | none => s

/-- What a message leaves to be done after it: the Follow_Up of a two-step Sync, the Announce data as shown. -/
def afterSend (p : PortNo) (m : PtpMsg) (t : Nat) (tlv : BoundTlv) (ann : Option AnnounceSet) (s : State) : State :=
  match m.kind with
  | .sync true => s.modPort p (fun x => { x with follow := x.follow ++ [m.followed t tlv] })
  | .announce => s.modPtpPort p (fun x => { x with ann := ann })
  | _ => s

/-- A Delay_Req of an instance leaves: each half's bus times it, and it pairs with the latest Sync so far (R421; 01 R20, R27). -/
def noteDreq (p : PortNo) (a : PathAB) (m : PtpMsg) (sub fec : Nat) (s : State) : State :=
  match m.kind, m.client with
  | .delayReq, some k =>
    let t := s.stamps ((sub : Int) + s.txCorr (s.refLane p a) fec)
    s.modClient k (fun y => { y with outstanding := y.outstanding.map (fun q =>
      if q.seq == m.seq then { q with sync := y.syncAt, left := some t } else q) })
  | _, _ => s

/-- The oldest message of a port leaves on its active path. -/
def sendPtp (p : PortNo) (a : PathAB) (m : PtpMsg) (sub fec : Nat) (s : State) : State :=
  let n := s.refLane p a
  let pr := ptpStamp p a m sub fec s
  let s1 := noteDreq p a m sub fec pr.2.2
  let tlv := s1.boundTlv m.dom pr.2.1 (s1.txLevel7 n)
  let m1 := m.stamped pr.1 tlv
  let an := ptpAnnounce p m pr.2.1 s1
  let fr := an.2.draw (2 ^ 160)
  let bytes := s.ptpFrame p m1 an.1 fr.1
  let s3 := (fr.2.emit (.frame p a (.ptp m1 pr.1 an.1 bytes))).countFrame p true (bytes.length + 4)
  let s5 := countKind m (s3.count (cntPort p 12) 1)
  afterSend p m pr.1 tlv an.1 (if m.sa.isSome then s5.count 326 1 else s5)

/-- The oldest message of a port can leave a path: the path runs and is in service, and the builder with it (R381, R397, R424). -/
def State.ptpPathOk (s : State) (p : PortNo) (a : PathAB) (m : PtpMsg) : Bool :=
  s.pathUp p a && (s.path p a).link && !s.schedBusy p a && s.builderOk p && s.pwr.state != .sealed && (m.kind == .followUp || s.tsOk p a)

/-- The oldest message of a port leaves a path. Both paths build it, and the standby path's is discarded (R383). -/
def ptpLeaves (p : PortNo) (a : PathAB) (sub fec : Nat) (s : State) : State :=
  match (s.port p).msgs with
  | [] => s
  | m :: r =>
    if !s.ptpPathOk p a m then s
    else if a != s.activePath p then
      (s.modPort p (fun x => { x with stbyDisc := x.stbyDisc + 1 })).count (cntPort p 15) 1
    else
      let s0 := s.modPort p (fun x => { x with msgs := r })
      let saOk := match m.sa with | some k => s.saSends p k | none => true
      if !saOk || (m.kind.served && !(s.ptpPort p).serving) then s0 else sendPtp p a m sub fec s0

/-- A Delay_Req that is not answered. -/
def dreqRefused (s : State) : State := (s.count 333 1).setEvt pgPtp evDreqLimit

/-- The token bucket of a session after the time since its latest use (R414). -/
def PtpSess.refill (x : PtpSess) (now : Nat) : Rat :=
  minQ 4 (x.tokens + ((now - x.tokenAt : Nat) : Rat) / ((logCycles x.dresp.log : Nat) : Rat))

/-- The Delay_Resp to a Delay_Req. -/
def answerDreq (p : PortNo) (a : PathAB) (m : DelayReq) (i : Option Nat) (tlv : Bool) (s : State) : State :=
  let d := s.mpDom p
  let pr := s.ingress p a d m.pt
  let t := pr.1
  let b := pr.2.1
  let s1 := pr.2.2
  queueMsg p { kind := .delayResp, sess := i, dest := some m.client, unicast := m.unicast, domNum := m.head.domainNum, seq := m.seqId
               log := s.mpLog p .delayResp, dom := d, t := t, corr := m.correction - corrOf t, bound := s1.boundTlv d b (s1.rxLevel7 (s1.refLane p a))
               sa := s1.mpSaIf p tlv } s1

/-- The latest message of a session's client (R396, R412). -/
def touchSess (i : Nat) (d : Dom) (c : UniClient) (s : State) : State :=
  s.modSess i (fun x => { x with lastRx := BitVec.ofNat 32 (secOf (s.busTime d)), client := { x.client with dmac := c.dmac } })

def delayReqReceived (p : PortNo) (a : PathAB) (m : DelayReq) (s : State) : State :=
  let d := s.mpDom p
  let prof := s.mpProf p
  if !s.pathUp p a || !(s.path p a).link || !s.mpTakes p m.head then s
  else
    let pr := authCheck p (s.mpAuth p) m.auth s
    let ok := pr.1
    let s1 := pr.2.2
    if !ok then s1
    else
      let s2 := s1.count 332 1
      match (if m.unicast then s2.sessOf p m.client else none) with
      | some (i, x) =>
        let s3 := touchSess i d m.client s2
        let k := x.refill s.now
        if !(s.ptpPort p).serving then s3.count 333 1
        else if x.dresp.active ∧ 1 ≤ k then
          (answerDreq p a m (some i) (s.withTlv p false (some x)) s3).modSess i (fun y =>
            { y with tokens := k - 1, tokenAt := s.now, dreqCnt := y.dreqCnt + 1 })
        else (dreqRefused s3).modSess i (fun y =>
          { y with tokens := if x.dresp.active then k else y.tokens
                   tokenAt := if x.dresp.active then s.now else y.tokenAt, dreqDrop := y.dreqDrop + 1 })
      | none =>
        let sec := secOf (s.busTime d)
        let x := s2.ptpPort p
        let used := if x.dreqAt = sec then x.dreqSec else 0
        if !x.serving then s2.count 333 1
        else if m.unicast ∧ (prof = 3 ∨ prof = 4) ∨ ¬m.unicast ∧ prof = 4 then s2.count 333 1
        else if s.pf p pgPtp (mpBase p + 0x1C) 31 16 ≤ used then
          (dreqRefused s2).modPtpPort p (fun y => { y with dreqAt := sec, dreqSec := used, dreqLimit := y.dreqLimit + 1 })
        else
          (answerDreq p a m none (s.withTlv p (!m.unicast) none) s2).modPtpPort p (fun y =>
            { y with dreqAt := sec, dreqSec := used + 1 })

/-- An Announce from another clock on a master port (R393). -/
def foreignAnn (p : PortNo) (s : State) : State :=
  if s.portUp p && s.mpProf p != 0 && s.pwr.state != .sealed then
    (s.modPtpPort p (fun x => { x with foreign := x.foreign + 1, foreignAt := some s.now })).setEvt pgPtp evForeignAnn
  else s

/-! ## Unicast negotiation (R409 to R411) -/

def PtpSess.grant (x : PtpSess) : GrantType → Grant
  | .announce => x.ann
  | .sync => x.sync
  | .delayResp => x.dresp
def PtpSess.setGrant (x : PtpSess) (g : GrantType) (v : Grant) : PtpSess :=
  match g with
  | .announce => { x with ann := v }
  | .sync => { x with sync := v }
  | .delayResp => { x with dresp := v }

def allGrants : List GrantType := [.announce, .sync, .delayResp]

/-- The two buckets of a session key (R411). -/
def sessBuckets (p : PortNo) (c : UniClient) : Nat × Nat :=
  let h := crc32c ([BitVec.ofNat 8 p.val, BitVec.ofNat 8 c.transport.toNat] ++ beBytes 16 c.addr.toNat ++
    beBytes 8 c.clockId.toNat ++ beBytes 2 c.portNum.toNat)
  let b1 := h % 2 ^ 14
  let b2 := h / 2 ^ 14 % 2 ^ 14
  (b1, if b2 = b1 then b1 ^^^ 1 else b2)

def State.freeIn (s : State) (b : Nat) : List Nat := ((List.range 8).map (b * 8 + ·)).filter (fun i => (s.sess? i).isNone)

/-- The table entry a new session takes. -/
def State.sessPlace (s : State) (p : PortNo) (c : UniClient) : Option Nat :=
  let (b1, b2) := sessBuckets p c
  let f1 := s.freeIn b1
  let f2 := s.freeIn b2
  if f1.length < f2.length then f2.head? else f1.head?

/-- A Signaling message of a master port to a client, in its session or outside one. -/
def signal (p : PortNo) (i : Option Nat) (c : UniClient) (tlv : SigTlv) (s : State) : State :=
  let x := i.bind s.sess?
  let seq := match x with
    | some y => y.sigSeq
    | none => (s.ptpPort p).sigSeq
  let m : PtpMsg := { kind := .signaling tlv, sess := i, dest := some c, unicast := true, domNum := BitVec.ofNat 8 (s.mpDomNum p)
                      seq := seq, dom := s.mpDom p, sa := s.mpSaIf p (s.withTlv p false x) }
  let s1 := queueMsg p m s
  match i with
  | some j => if x.isSome then s1.modSess j (fun y => { y with sigSeq := y.sigSeq + 1 }) else s1
  | none => s1.modPtpPort p (fun y => { y with sigSeq := y.sigSeq + 1 })

/-- A request is denied. -/
def denyRequest (p : PortNo) (i : Option Nat) (c : UniClient) (g : GrantType) (log : Int) (s : State) : State :=
  (((signal p i c (.grant g log 0) s).setEvt pgPtp evGrantDeny).count 335 1 |>
    fun a => { a with ptp := { a.ptp with denied := a.ptp.denied + 1 } })

def State.minLog (s : State) (p : PortNo) : GrantType → Int
  | .announce => s.psf p pgPtp 0x06C 11 8
  | .delayResp => s.psf p pgPtp 0x06C 7 4
  | .sync => s.psf p pgPtp 0x06C 3 0

/-- A message of negotiation reaches a master port that negotiates, which consumes it (R395, R409). -/
def State.negotiates (s : State) (p : PortNo) (m : UniMsg) : Bool :=
  s.portUp p && s.mpTakes p m.head && s.mpUnicast p && m.client.transport.toNat == s.mpTransport p

/-- REQUEST_UNICAST_TRANSMISSION (R409 to R411, R417). -/
def unicastRequest (p : PortNo) (m : UniMsg) (g : GrantType) (log : Int) (duration : Nat) (s : State) : State :=
  if !s.negotiates p m then s
  else
    let c := m.client
    let d := s.mpDom p
    let pr := authCheck p (s.mpAuth p) m.auth s
    let ok := pr.1
    let sa := pr.2.1
    let s1 := pr.2.2
    if !ok && m.auth.isSome then s1
    else
      let old := s1.sessOf p c
      let i := old.map (·.1)
      let spot := s1.sessPlace p c
      let full := old.isNone && spot.isNone
      let s2 := if full then
          { s1 with ptp := { s1.ptp with bucketFull := s1.ptp.bucketFull + 1 } }.setEvt pgPtp evBucketFull
        else s1
      let most := s.pf p pgPtp (mpBase p + 0x1C) 15 0
      let room := old.isSome || (spot.isSome &&
        (most == 0 || decide ((s.sessList.filter (fun e => e.2.lp == p)).length < most)))
      if ok && (s.ptpPort p).serving && decide (s.minLog p g ≤ log) && decide (log ≤ s.psf p pgPtp 0x06C 15 12) &&
          decide (s.pf p pgPtp 0x068 9 0 ≤ duration) && room then
        match (match i with | some j => some j | none => spot) with
        | none => s2
        | some j =>
          let dur := min duration (s.pf p pgPtp 0x068 25 16)
          let fresh : PtpSess := { lp := p, auth := sa.isSome, client := c, tokenAt := s.now
                                   key := match sa with | some k => bits (s.saWord p k) 13 8 | none => 0 }
          let x := (s2.sess? j).getD fresh
          let s3 := s2.setSess j (some (x.setGrant g { active := true, log := log, remain := dur }))
          (signal p (some j) c (.grant g log dur) (touchSess j d c s3)).count 334 1
      else denyRequest p i c g log (match i with | some j => touchSess j d c s2 | none => s2)

/-- A session whose grants have all ended is freed (R410). -/
def freeEnded (i : Nat) (s : State) : State :=
  match s.sess? i with
  | some x => if allGrants.any (fun g => (x.grant g).active) then s else s.setSess i none
  | none => s

/-- CANCEL_UNICAST_TRANSMISSION from a client (R410). -/
def unicastCancel (p : PortNo) (m : UniMsg) (g : GrantType) (s : State) : State :=
  if !s.negotiates p m then s
  else
    let c := m.client
    let pr := authCheck p (s.mpAuth p) m.auth s
    let ok := pr.1
    let s1 := pr.2.2
    match (if ok then s1.sessOf p c else none) with
    | none => s1
    | some (i, _) =>
      let s2 := touchSess i (s.mpDom p) c (s1.modSess i (fun x => x.setGrant g {}))
      freeEnded i (signal p (some i) c (.ackCancel g) s2)

/-- A whole second of a domain: REMAIN counts down (R410). -/
def grantCountdown (d : Dom) (s : State) : State :=
  (s.sessList.filter (fun e => s.mpDom e.2.lp == d)).foldl (fun a e =>
    freeEnded e.1 (a.modSess e.1 (fun x => allGrants.foldl (fun y g =>
      let v := y.grant g
      if v.active then y.setGrant g (if v.remain ≤ 1 then {} else { v with remain := v.remain - 1 }) else y) x))) s

/-- PTP_CMD.CANCEL in force: CANCEL for each active grant, and the entry is freed (R410). -/
def ptpCancel (i : Nat) (s : State) : State :=
  match s.sess? i with
  | none => s
  | some x =>
    ((allGrants.filter (fun g => (x.grant g).active)).foldl (fun a g => signal x.lp (some i) x.client (.cancel g) a) s).setSess
      i none

def execFollowUpBuild (p : PortNo) (s : State) : Host.Outcome State Fault Refusal := .next (followUpBuild p s)
def execDelayReqReceived (p : PortNo) (path : PathAB) (m : DelayReq) (s : State) : Host.Outcome State Fault Refusal :=
  .next (delayReqReceived p path m s)
def execForeignAnn (p : PortNo) (s : State) : Host.Outcome State Fault Refusal := .next (foreignAnn p s)
def execUnicastRequest (p : PortNo) (c : UniMsg) (g : GrantType) (logPeriod : Int) (duration : Nat) (s : State) :
    Host.Outcome State Fault Refusal := .next (unicastRequest p c g logPeriod duration s)
def execUnicastCancel (p : PortNo) (c : UniMsg) (g : GrantType) (s : State) : Host.Outcome State Fault Refusal :=
  .next (unicastCancel p c g s)
def execGrantCountdown (d : Dom) (s : State) : Host.Outcome State Fault Refusal := .next (grantCountdown d s)
def execPtpCancel (index : Nat) (s : State) : Host.Outcome State Fault Refusal := .next (ptpCancel index s)

end Sys2Proof.Machine
end

