-- ==== Sys2Proof/Machine/Clients.lean ====
section
/-!
DEFINITION. The client instances of the PTP engine, L1 synchronisation and the engine's detections (13).
-/

namespace Sys2Proof.Machine

/-! ## Client instances (R417 to R422) -/

/-- The instance is not DISABLED (R418). -/
def State.clUp (s : State) (k : ClNo) : Bool :=
  let p := s.clPort k
  let a := s.activePath p
  s.clProf k != 0 && s.pathUp p a && (s.path p a).link && s.tsOk p a && s.pwr.state != .sealed

def grantIx : GrantType → Fin 3
  | .announce => 0
  | .sync => 1
  | .delayResp => 2

/-- A grant has run for a time, in CLK_CORE cycles. -/
def ClGrant.ran (g : ClGrant) (now : Nat) : Nat := now - g.since

/-- An instance holds a grant of a message type (R420). -/
def State.clHolds (s : State) (k : ClNo) (g : GrantType) : Bool :=
  ((s.client k).grants.get (grantIx g)).any (fun x => decide (x.ran s.now < x.dur * 800000000))

/-- A unicast instance wants a grant (R418). -/
def State.clPending (s : State) (k : ClNo) : Bool := s.clUnicast k && !(allGrants.all (fun g => s.clHolds k g))

/-- STATE of an instance: DISABLED, LISTENING, REQUESTING, CLIENT (R418). -/
def State.clState (s : State) (k : ClNo) : Nat :=
  if !s.clUp k then 0
  else if s.clUnicast k && !s.clHolds k .announce then 1
  else if (s.client k).master.isSome && !s.clPending k then 3
  else if s.clUnicast k then 2 else 1

/-- The instances among `ks` that consume a message under their AUTH fields, its check counted once (R417). -/
def clientsPass (p : PortNo) (ks : List ClNo) (v : Option AuthTlv) (s : State) : List ClNo × State :=
  let by_ := v.bind (fun a => s.verified p a)
  let pass (k : ClNo) : Bool := s.clAuth k == 0 || (if v.isSome then by_.isSome else s.clAuth k == 1)
  let s1 := if by_.isSome && ks.any (fun k => s.clAuth k != 0) then s.count 328 1 else s
  (ks.filter pass, if ks.all pass then s1 else authFailed s1)

/-- The instance reports loss of its master to its slot, and abandons its exchanges (R418, R422, R425). -/
def reportLoss (k : ClNo) (s : State) : State :=
  ((s.modClient k (fun x => { x with loss := true, since := 0, outstanding := [] })).evtIf (!(s.client k).loss) pgPtp
    (evClLoss k)).loseSlot (clSlot k)

def sameMaster (a b : AnnounceMsg) : Bool := a.sender == b.sender && a.senderPort == b.senderPort

/-- The fields compared, in order, the least first: IEEE 1588-2019 clause 9.3.4, and the alternate comparison of
G.8275.1 and G.8275.2 (R419). -/
def compareKey (alt : Bool) (m : AnnounceMsg) : List Nat :=
  let q := [m.gmClass.toNat, m.gmAccuracy.toNat, m.gmVariance.toNat, m.gmPrio2.toNat]
  (if alt then q ++ (if 127 < m.gmClass.toNat then [m.gmId.toNat] else []) else m.gmPrio1.toNat :: q ++ [m.gmId.toNat]) ++
    [m.stepsRemoved.toNat, m.sender.toNat, m.senderPort.toNat]

def lessKey : List Nat → List Nat → Bool
  | x :: r, y :: t => if x < y then true else if y < x then false else lessKey r t
  | _, _ => false

/-- The best master of a list. -/
def bestMaster (alt : Bool) (l : List AnnounceMsg) : Option AnnounceMsg :=
  l.foldl (fun b m => match b with
    | none => some m
    | some x => if lessKey (compareKey alt m) (compareKey alt x) then some m else some x) none

/-- 4 announce intervals of a master, as its Announce gives the interval (R419). -/
def announceWindow (m : AnnounceMsg) : Nat := 4 * logCycles m.logInterval

/-- The masters that an instance may accept: heard twice within 4 of their announce intervals, or accepted and not lost since
(R419). -/
def State.acceptable (s : State) (k : ClNo) : List AnnounceMsg :=
  ((s.client k).foreigns.filter (fun f =>
    ((s.client k).master.any (sameMaster f.ann) ||
      decide (2 ≤ (f.at_.filter (fun t => decide (s.now ≤ t + announceWindow f.ann))).length)) &&
      decide (f.ann.gmClass.toNat ≤ s.clf k 4 23 16))).map (·.ann)

/-- The instance takes the master that its selection names, or none (R419, R422). -/
def takeMaster (k : ClNo) (m : Option AnnounceMsg) (s : State) : State :=
  match (s.client k).master, m with
  | none, none => s
  | none, some x =>
    (s.modClient k (fun y => { y with master := some x, loss := y.loss && (y.changed || s.clPending k), since := 0 })).setEvt pgPtp (evClMaster k)
  | some _, none => (reportLoss k s).modClient k (fun y => { y with master := none, changed := false })
  | some o, some x =>
    if sameMaster o x then s.modClient k (fun y => { y with master := some x })
    else (s.modClient k (fun y => { y with master := some x, changed := true, since := 0, syncAt := none, outstanding := [] })).setEvt pgPtp
      (evClMaster k)

/-- Selection among the masters heard. -/
def selectMaster (k : ClNo) (s : State) : State := takeMaster k (bestMaster (decide (3 ≤ s.clProf k)) (s.acceptable k)) s

/-- An instance hears an Announce that it consumes (R419). -/
def heardAnnounce (k : ClNo) (m : AnnounceMsg) (s : State) : State :=
  if s.clUnicast k then
    if !s.clHolds k .announce then s
    else takeMaster k (if m.gmClass.toNat ≤ s.clf k 4 23 16 then some m else none) s
  else
    let old := (s.client k).foreigns
    let prev := ((old.find? (fun f => sameMaster f.ann m)).map (·.at_)).getD []
    let f : Foreign := { ann := m, at_ := s.now :: prev.filter (fun t => decide (s.now ≤ t + announceWindow m)) }
    selectMaster k (s.modClient k (fun y => { y with foreigns := f :: old.filter (fun g => !sameMaster g.ann m) }))

/-- An Announce reaches an instance (R395, R417, R419). -/
def clientAnnounce (k : ClNo) (m : AnnounceMsg) (s : State) : State :=
  if !s.clUp k || !s.clTakes (s.clPort k) k m.head then s
  else
    let pr := authCheck (s.clPort k) (s.clAuth k) m.auth s
    if pr.1 then heardAnnounce k { m with auth := none } pr.2.2 else pr.2.2

/-- No Announce from the master within ANN_TO intervals (R419). -/
def masterLost (k : ClNo) (s : State) : State :=
  match (s.client k).master with
  | none => s
  | some m =>
    let s1 := s.modClient k (fun y => { y with foreigns := y.foreigns.filter (fun f => !sameMaster f.ann m) })
    if s.clUnicast k then takeMaster k none s1 else selectMaster k s1

/-- A message of a client instance on its port; unicast messages carry the TLV as multicast ones do (R417). -/
def clientMsg (k : ClNo) (kind : PtpKind) (seq : BitVec 16) (s : State) : State :=
  let p := s.clPort k
  let sa : Option (Fin 16) := if s.clAuth k = 0 then none else some (Fin.ofNat 16 (s.clf k 0 19 16))
  queueMsg p { kind := kind, client := some k, unicast := s.clUnicast k, domNum := BitVec.ofNat 8 (s.clDomNum k), seq := seq
               dom := s.mpDom p, sa := sa } s

/-- A request of an instance fails: it waits, 1 s at first, doubling up to 64 s (R420). -/
def requestFails (k : ClNo) (s : State) : State :=
  s.modClient k (fun x => { x with wait := if x.wait = 0 then 1 else min 64 (2 * x.wait), failedAt := s.now })

/-- A grant is to be requested: it is not held, or three quarters of its duration have elapsed (R420). -/
def State.grantDue (s : State) (k : ClNo) (g : GrantType) : Bool :=
  match (s.client k).grants.get (grantIx g) with
  | some x => decide (3 * x.dur * 800000000 ≤ 4 * x.ran s.now)
  | none => true

/-- One request of an instance. -/
def requestGrant (k : ClNo) (dur : Nat) (s : State) (g : GrantType) : State :=
  (clientMsg k (.signaling (.request g (s.clLog k g) dur)) (s.client k).sigSeq s).modClient k (fun x => { x with sigSeq := x.sigSeq + 1 })

/-- A unicast instance requests the grants that it lacks and renews those that are due, once its wait after a failure is over; or a
denial or 1 s without a grant fails its request (R420). -/
def grantRequest (k : ClNo) (failed : Bool) (s : State) : State :=
  let x := s.client k
  if !s.clUp k || !s.clUnicast k then s
  else if failed then requestFails k s
  else if s.now < x.failedAt + x.wait * 800000000 then s
  else (allGrants.filter (fun g => s.grantDue k g)).foldl (requestGrant k (s.clf k 8 9 0)) s

/-- A GRANT reaches an instance: it holds the grant, or its request was denied (R409, R420). -/
def grantArrives (k : ClNo) (g : GrantType) (dur : Nat) (s : State) : State :=
  if dur = 0 then requestFails k s
  else s.modClient k (fun x => { x with grants := setAt x.grants (grantIx g) (some { dur := dur, since := s.now }), wait := 0 })

/-- The longer of the instance's own interval of Delay_Req and the master's (R421). -/
def State.dreqLog (s : State) (k : ClNo) : Int := ((s.client k).minDreq).elim (s.clLog k .delayResp) (fun m => max m (s.clLog k .delayResp))

/-- A Delay_Req of an instance, no faster than its interval (R421). -/
def clientDelayReq (k : ClNo) (s : State) : State :=
  let x := s.client k
  if s.clState k = 3 ∧ x.dreqAt.all (fun t => decide (t + logCycles (s.dreqLog k) ≤ s.now)) = true then
    (clientMsg k .delayReq x.dreqSeq s).modClient k (fun y =>
      { y with dreqSeq := y.dreqSeq + 1, dreqAt := some s.now, outstanding := y.outstanding ++ [{ seq := y.dreqSeq }] })
  else s

/-- The instance that a message on a port is for has the message's sender as its master. -/
def Client.from_ (c : Client) (m : List Byte) : Bool :=
  c.master.any (fun a => a.sender.toNat == numAt m 20 8 && a.senderPort.toNat == numAt m 28 2)

/-- A Sync reaches the instances of its port and domain number that it comes to from their master on the active path: each half's
bus times it (R417, R421; 01 R20, R27; 12 R384). -/
def noteSync (p : PortNo) (a : PathAB) (f : Parsed) (m : List Byte) (pt : RxPoint) (s : State) : State :=
  if a != s.activePath p then s
  else
    let t := s.stamps ((pt.sub : Int) - s.rxCorr p a pt)
    let pr := clientsPass p (allClients.filter (fun k => s.clTakes p k (ptpHead f.vlan m) && (s.client k).from_ m)) (ptpAuth m) s
    pr.1.foldl (fun b k => b.modClient k (fun y => { y with syncAt := some t })) pr.2

/-- The message type that a TLV of negotiation names, in the high half of its first octet. -/
def grantOf (n : Nat) : Option GrantType := [GrantType.announce, .sync, .delayResp].find? (fun g => grantCode g == n / 16)

/-- A message comes from the master that PTP_CLk_MADDR names, on L2 from the MAC of PTP_CLk_NH (R420). -/
def State.fromMaster (s : State) (k : ClNo) (f : Parsed) : Bool :=
  let way := s.ptpWay (s.clPort k) { kind := .delayReq, client := some k, unicast := true, domNum := 0, seq := 0, dom := 0 }
  f.transport == way.1 && way.2.any (fun d => f.src == (if way.1 = 0 then d.1.setWidth 128 else d.2))

/-- The TLVs of a Signaling message that have no command of their own: a GRANT for an instance, L1_SYNC for the port (R420, R423). -/
def signalingTlv (p : PortNo) (ks : List ClNo) (s : State) (e : Nat × List Byte) : State :=
  if e.1 = 0x0005 then
    match grantOf (octAt e.2 0) with
    | some g => ks.foldl (fun b k => grantArrives k g (numAt e.2 2 4) b) s
    | none => s
  else if e.1 = 0x8001 ∧ s.mpProf p = 2 then
    let b := octAt e.2 0
    s.modPtpPort p (fun x => { x with peer := BitVec.ofNat 3 (4 * (b % 2) + 2 * (b / 2 % 2) + b / 4 % 2) })
  else s

/-- A Signaling message that the engine consumes (R417, R420, R423). -/
def signalingIn (p : PortNo) (f : Parsed) (m : List Byte) (s : State) : State :=
  let pr := clientsPass p (allClients.filter (fun k => s.clTakes p k (ptpHead f.vlan m) && s.clUp k && s.clUnicast k && s.fromMaster k f))
    (ptpAuth m) s
  (ptpTlvs m).foldl (signalingTlv p pr.1) pr.2

/-- LPn_TS_ASYM of the path in use, ps (10 R326, 12 R384). -/
def State.pathAsym (s : State) (p : PortNo) : Int :=
  match s.activePath p with
  | .A => s.sfieldAt (pgLp p) 0x404 31 0
  | .B => s.sfieldAt (pgLp p) 0x054 31 0

/-- t2 and t3 of an exchange on a half's own bus, where it took both (01 R20, R27). -/
def DreqSent.stamps (q : DreqSent) (h : Half) (d : Dom) : Option (Int × Int) :=
  match q.sync.bind (fun v => v.get (stampIx h d)), q.left.bind (fun v => v.get (stampIx h d)) with
  | some a, some b => some (a, b)
  | _, _ => none

/-- t1 and t4 of an exchange in ps, with the correction fields of its messages under clause 11.3 of IEEE 1588 (R421). -/
def exT1 (x : Exchange) : Rat := (x.t1 : Rat) * 1000 + ((x.corrSync + x.corrFollow : Int) : Rat) * 1000 / 65536
def exT4 (x : Exchange) : Rat := (x.t4 : Rat) * 1000 - (x.corrResp : Rat) * 1000 / 65536

/-- x of an exchange on a half against a domain, and its mean path delay, ps (05 R153, 10 R326). -/
def exOffset (x : Exchange) (asym : Int) (t : Int × Int) : Int :=
  openQ ((exT1 x - (t.1 : Rat) + (exT4 x - (t.2 : Rat))) / 2) + asym
def exDelay (x : Exchange) (t : Int × Int) : Rat := ((t.1 : Rat) - exT1 x + (exT4 x - (t.2 : Rat))) / 2

/-- The total of a received BOUND TLV that a port accepts (R408). -/
def State.boundOf (s : State) (p : PortNo) (b : Option BoundRx) : Option Code :=
  match b with
  | some v => if s.orgId p ≠ 0 ∧ v.org.toNat = s.orgId p ∧ v.sub = 1 ∧ v.version = 1 then some v.total else none
  | none => none

/-- The master's bound of an exchange (R408). -/
def State.exchangeBound (s : State) (k : ClNo) (x : Exchange) : Code × Bool :=
  let l := [x.boundSync, x.boundResp].filterMap (s.boundOf (s.clPort k))
  match l with
  | [] => (accuracyBound (((s.client k).master.map (fun m => m.gmAccuracy.toNat)).getD 0), false)
  | c :: r => (r.foldl (fun a b => if a.toNat < b.toNat then b else a) c, true)

def exchangeIn (h : Half) (n : SlotNo) (x : Exchange) (asym : Int) (t : Option (Int × Int)) (d : Dom) (s : State) : State :=
  match t with
  | some v => observeIn h n d (s.dom h d).mark (exOffset x asym v) s
  | none => s

/-- The offsets of an exchange as a half measures it, against each domain its slot is observed against (05 R153). -/
def observeExchange (h : Half) (n : SlotNo) (x : Exchange) (asym : Int) (q : DreqSent) (s : State) : State :=
  if s.observing h n then
    ((s.slotDoms n).foldl (fun a d => exchangeIn h n x asym (q.stamps h d) d a) s).adoptDone h n
  else s

/-- The mean path delay of an exchange, where the half took both stamps. -/
def delayIn (h : Half) (n : SlotNo) (x : Exchange) (t : Option (Int × Int)) (s : State) : State :=
  match t with
  | some v => pathDelay h n (exDelay x v) s
  | none => s

/-- One half takes an exchange: the master's bound, the path-delay monitor and the observations (05 R153, R164, R184, R185). -/
def takeExchange (h : Half) (n : SlotNo) (x : Exchange) (asym : Int) (b : Code) (q : DreqSent) (s : State) : State :=
  let s1 := s.modSlot h n (fun z => { z with masterUnc := b })
  if (s1.slot h n).st = 0 then s1
  else observeExchange h n x asym q (delayIn h n x (q.stamps h ((s.slotDoms n).headD 0)) s1)

/-- The Delay_Req that a response answers, once it has left after a Sync. -/
def Client.answered (c : Client) (seq : BitVec 16) : Option DreqSent :=
  c.outstanding.find? (fun q => q.seq == seq && q.sync.isSome && q.left.isSome)

/-- A completed exchange goes to both halves, each with the stamps of its own bus, and into the instance's status. -/
def exchanged (k : ClNo) (x : Exchange) (q : DreqSent) (s : State) : State :=
  let n := clSlot k
  let asym := s.pathAsym (s.clPort k)
  let (b, accepted) := s.exchangeBound k x
  let own := q.stamps s.followHalf ((s.slotDoms n).headD 0)
  let s1 := allHalves.foldl (fun a h => if a.gridOn h then a.inView h (takeExchange h n x asym b q) else a) s
  (s1.modClient k (fun y =>
    { y with outstanding := y.outstanding.filter (fun r => r.seq != x.seqId), mpd := own.elim y.mpd (fun t => openQ (exDelay x t))
             mbound := b, boundAt := if accepted then some s.now else y.boundAt
             minDreq := if x.logMin = 0x7F then y.minDreq else some x.logMin
             exch := y.exch + 1, since := y.since + 1 })).count (338 + k.val) 1

/-- The Delay_Resp answers a Delay_Req that was sent, or none. -/
def exchangeOf (k : ClNo) (x : Exchange) (q : Option DreqSent) (s : State) : State :=
  match q with
  | some r => exchanged k x r s
  | none => s

/-- The Follow_Up and the Delay_Resp of an exchange pass the instance's AUTH field (R417). -/
def exchangePass (k : ClNo) (x : Exchange) (s : State) : Bool × State :=
  let check (v : Option AuthTlv) (b : State) : Bool × Option (Fin 16) × State := authCheck (s.clPort k) (s.clAuth k) v b
  let f := match x.follow with
    | some v => check v s
    | none => (true, none, s)
  let d := check x.auth f.2.2
  (f.1 && d.1, d.2.2)

/-- An exchange completes on the Delay_Resp to a Delay_Req that left after a Sync (R395, R417, R421; 01 R20, R27). -/
def exchangeComplete (k : ClNo) (x : Exchange) (s : State) : State :=
  if !s.clUp k || (s.client k).master.isNone || !s.clTakes (s.clPort k) k x.head then s
  else
    let pr := exchangePass k x s
    if pr.1 then exchangeOf k x ((pr.2.client k).answered x.seqId) pr.2 else pr.2

/-- A Delay_Req is abandoned after 1 s without its response (R421). -/
def delayRespTimeout (k : ClNo) (s : State) : State := s.modClient k (fun x => { x with outstanding := x.outstanding.drop 1 })

/-- An instance at a beat: loss while it is disabled or wants a grant, and the loss that a change of master reports for a beat
(R418, R422). -/
def clientBeat (k : ClNo) (s : State) : State :=
  let x := s.client k
  if !s.clUp k then
    if x.loss && x.master.isNone then s
    else (reportLoss k s).modClient k (fun y =>
      { y with master := none, foreigns := [], grants := Vector.replicate 3 none, changed := false })
  else if x.changed then (reportLoss k s).modClient k (fun y => { y with changed := false })
  else if !x.loss && s.clState k != 3 then reportLoss k s
  else if x.loss && s.clState k == 3 then s.modClient k (fun y => { y with loss := false })
  else s

/-- The instances at a beat of the half that the bus carries. -/
def clientsBeat (d : Dom) (s : State) : State :=
  allClients.foldl (fun a k => if a.slotBeat (clSlot k) = d then clientBeat k a else a) s

/-! ## L1 synchronisation (R423) -/

def l1SyncSend (p : PortNo) (s : State) : State :=
  if s.portUp p && s.pwr.state != .sealed && (s.mpProf p == 2 || allClients.any (fun k => s.clPort k == p && s.clProf k == 2)) then
    let tcr := s.bitAt (pgLp p) 0x058 0 && s.syncDom p == s.mpDom p
    let rcr := match s.busHalf with
      | some h => s.steers h (laneSlot (s.refLane p .A)) (s.mpDom p)
      | none => false
    let m : PtpMsg := { kind := .signaling (.l1sync tcr rcr (tcr && rcr)), domNum := BitVec.ofNat 8 (s.mpDomNum p), seq := (s.ptpPort p).sigSeq, dom := s.mpDom p
                        sa := s.mpSaIf p (s.withTlv p true none) }
    (queueMsg p m s).modPtpPort p (fun y => { y with sigSeq := y.sigSeq + 1 })
  else s

/-! ## Detections (R428) -/

def ptpDetection (det : Byte) (index : Nat) (s : State) : State :=
  match detKind .ptp det.toNat with
  | none => s
  | some k =>
    let s1 := s.fault 0 pgPtp k (kindSev k) det (if det = 0 then BitVec.ofNat 24 index else s.locFor pgPtp k det)
    if det = 0 then s1.setSess index none
    else if det = 19 then
      reportLoss (Fin.ofNat 4 index) s1
    else s1

def execClientAnnounce (k : ClNo) (m : AnnounceMsg) (s : State) : Host.Outcome State Fault Refusal := .next (clientAnnounce k m s)
def execMasterLost (k : ClNo) (s : State) : Host.Outcome State Fault Refusal := .next (masterLost k s)
def execGrantRequest (k : ClNo) (failed : Bool) (s : State) : Host.Outcome State Fault Refusal := .next (grantRequest k failed s)
def execClientDelayReq (k : ClNo) (s : State) : Host.Outcome State Fault Refusal := .next (clientDelayReq k s)
def execExchangeComplete (k : ClNo) (x : Exchange) (s : State) : Host.Outcome State Fault Refusal := .next (exchangeComplete k x s)
def execDelayRespTimeout (k : ClNo) (s : State) : Host.Outcome State Fault Refusal := .next (delayRespTimeout k s)
def execL1SyncSend (p : PortNo) (s : State) : Host.Outcome State Fault Refusal := .next (l1SyncSend p s)
def execPtpDetection (det : Byte) (index : Nat) (s : State) : Host.Outcome State Fault Refusal := .next (ptpDetection det index s)

end Sys2Proof.Machine
end

