-- ==== Sys2Proof/Machine/Ftn.lean ====
section
/-!
DEFINITION. The Fountain: where it serves, NTP and NTS responses, UTC and smear, cookies, rate limiting (14).
-/

namespace Sys2Proof.Machine

/-! ## Events (R465) and counters (19 R588) -/

def evFtnStop : Nat := 0
def evFtnStart : Nat := 1
def evNtsDown : Nat := 2
def evGenFlip : Nat := 3
def evLeapDone : Nat := 5
def evSmearStart : Nat := 6
def evSmearEnd : Nat := 7
def evFtnBusy : Nat := 8
def evFtnLate : Nat := 9

/-- Position of a counter among FTN_NTP_RESP to FTN_REPLAY, and the event counter of the same units. -/
def FtnCnt.ix : FtnCnt → Fin 12
  | .ntpResp => 0
  | .ntsResp => 1
  | .minted => 2
  | .kod => 3
  | .nak => 4
  | .evict => 5
  | .dropRl => 6
  | .dropBusy => 7
  | .dropLate => 8
  | .dropBad => 9
  | .dropNoserve => 10
  | .replay => 11
def FtnCnt.event : FtnCnt → Nat
  | .ntpResp => 258
  | .ntsResp => 260
  | .minted => 264
  | .kod => 262
  | .nak => 263
  | .evict => 271
  | .dropRl => 266
  | .dropBusy => 267
  | .dropLate => 268
  | .dropBad => 269
  | .dropNoserve => 270
  | .replay => 265

/-- A unit of one of the Fountain's counts, with the event that goes with it. -/
def State.ftnCount (s : State) (c : FtnCnt) (n : Nat) : State :=
  let s1 := { s with ftn := { s.ftn with counts := modAt s.ftn.counts c.ix (· + BitVec.ofNat 32 n) } }.count c.event n
  match c with
  | .dropBusy => s1.setEvt pgFtn evFtnBusy
  | .dropLate => s1.setEvt pgFtn evFtnLate
  | _ => s1

def State.ftnPort (s : State) (p : PortNo) : FtnPort := s.ftn.ports.get p
def State.modFtnPort (s : State) (p : PortNo) (f : FtnPort → FtnPort) : State :=
  { s with ftn := { s.ftn with ports := modAt s.ftn.ports p f } }

/-! ## Configuration of a port -/

def fnBase (p : PortNo) : Nat := 0x100 + 0x20 * p.val
def State.fb (s : State) (p : PortNo) (i : Nat) : Bool := s.pb p pgFtn (fnBase p) i
def State.fnDom (s : State) (p : PortNo) : Dom := opDom (s.portReg p pgFtn (fnBase p)) 4
def State.killed (s : State) : Bool := s.bitAt pgFtn 0x058 0

/-- LAUNCH_DLY in ns and LAUNCH_TOL in ps (R449). -/
def State.launchNs (s : State) (p : PortNo) : Nat := max 10 (s.pf p pgFtn 0x040 31 16) * 1000
def State.launchTol (s : State) (p : PortNo) : Nat := max 1 (s.pf p pgFtn 0x040 15 8) * 100000

/-! ## The master key (R451 to R453) -/

def State.masterSlot (s : State) : KeyNo := Fin.ofNat 64 (s.fieldAt pgFtn 0x054 5 0)

/-- The master-key slot is usable (R451). -/
def State.masterOk (s : State) : Bool :=
  let a := (s.slotKey s.masterSlot).curBank.attr
  s.keyUsable s.masterSlot && attrSiv a && attrLen a == 32 && bit a 9 && attrOwner a == (s.page pgFtn).owner.toNat

/-- The mint epoch is in use and not exhausted, for `n` cookies (R453). -/
def State.epochOk (s : State) (n : Nat) : Bool :=
  match s.ftn.epoch with
  | none => false
  | some e => decide (s.ftn.seq + n ≤ 2 ^ 40) || s.ftn.stored != e

/-- Cookies are minted: the mint counter check has not stopped it either (R466). -/
def State.canMint (s : State) (n : Nat) : Bool := s.epochOk n && !s.ftn.mintBad

/-- NTS_READY as its conditions stand, the master-key slot apart; and with it (R453). -/
def State.ntsRest (s : State) : Bool := s.epochOk 1 && !s.unitBusy pgFtn 14 && (s.page pgFtn).en && s.pwr.state != .sealed
def State.ntsReadyNow (s : State) : Bool := s.masterOk && s.ntsRest

/-- The master-key slot is zeroised or BADSLOT (R463). -/
def State.masterLost (s : State) : Bool :=
  (s.slotKey s.masterSlot).stateCode == 2 || (s.slotKey s.masterSlot).stateCode == 3

/-! ## Serving (R431) -/

/-- The conditions of R431 that plain and NTS requests share. -/
def State.fnCommon (s : State) (p : PortNo) : Bool :=
  s.portUp p && (s.page pgFtn).en && s.serveOk (s.fnDom p) && s.tsOk p (s.activePath p) && s.pb p pgFtn 0x044 16 && !s.killed &&
    s.powered

def State.servesPlain (s : State) (p : PortNo) : Bool := s.fnCommon p && s.fb p 0
def State.servesNts (s : State) (p : PortNo) : Bool := s.fnCommon p && s.fb p 1 && s.ntsReadyNow

/-- TAI time of the leap T_L, of the smear's start T_a, in units of 2^-62 ns, and the direction d (R438, R441). -/
def State.leapAt (s : State) (p : PortNo) : Nat :=
  ((s.portReg p pgFtn 0x048).toNat + 2 ^ 32 * s.pf p pgFtn 0x04C 15 0) * secondT
def State.leapDir (s : State) (p : PortNo) : Int :=
  let d := s.pf p pgFtn 0x04C 17 16
  if d = 1 then 1 else if d = 2 then -1 else 0
def State.smearFrom (s : State) (p : PortNo) : Int :=
  (s.leapAt p : Int) - 86400 * (secondT : Int) + 3600 * (secondT : Int) * (min 24 (s.pf p pgFtn 0x04C 28 24) : Nat)

/-- A smeared port lies inside its window at a time (R441). -/
def State.inSmear (s : State) (p : PortNo) (t : Nat) : Bool :=
  s.fb p 2 && s.leapDir p != 0 && decide (s.smearFrom p ≤ (t : Int)) && decide ((t : Int) < s.smearFrom p + 86400 * (secondT : Int))

/-- FTN_LEAP in force: T_L in seconds of TAI, and DIR. -/
def State.leapTl (s : State) : Nat := (s.reg pgFtn 0x048).toNat + 2 ^ 32 * bits (s.reg pgFtn 0x04C) 15 0
def State.leapDirNow (s : State) : Nat := bits (s.reg pgFtn 0x04C) 17 16

/-- A word of FTN_LEAP comes into force: its leap may be past already (R439). -/
def noteLeap (s : State) : State :=
  let v := s.wideAt pgFtn 0x048
  if v = s.ftn.leapSeen then s
  else { s with ftn := { s.ftn with leapSeen := v, leapPast := decide (s.leapTl * secondT ≤ s.busTime 0) } }

/-- The master-key generation, NTS_READY and the ports' serving are brought in line, with their events (R465). -/
def settleFtn (s0 : State) : State :=
  let s := noteLeap s0
  let r := s.ntsReadyNow
  let g := (s.slotKey s.masterSlot).gen
  let s1 := ({ s with ftn := { s.ftn with ready := r, gen := g } }.evtIf (s.ftn.ready && !r) pgFtn evNtsDown).evtIf
    (g != s.ftn.gen) pgFtn evGenFlip
  allPorts.foldl (fun a p =>
    let on := a.servesPlain p || a.servesNts p
    let x := a.ftnPort p
    let b := (((if on then a.reachStep 10 else a).modFtnPort p (fun y => { y with serving := on })).evtIf (x.serving && !on) pgFtn evFtnStop).evtIf
      (!x.serving && on) pgFtn evFtnStart
    let w := a.inSmear p (a.busTime (a.fnDom p))
    ((b.modFtnPort p (fun y => { y with smearing := w })).evtIf (!x.smearing && w) pgFtn evSmearStart).evtIf
      (x.smearing && !w) pgFtn evSmearEnd) s1

/-! ## UTC, leap and smear (R434, R438 to R441) -/

/-- P(t) of a port, in units of 2^-62 ns. -/
def State.shown (s : State) (p : PortNo) (t : Nat) : Rat :=
  let o := s.psf p pgFtn 0x044 15 0
  let d := s.leapDir p
  let sec : Int := (secondT : Nat)
  let tl : Int := (s.leapAt p : Nat)
  let base : Int := (t : Int) - o * sec
  if d = 0 then (base : Rat)
  else if s.fb p 2 then
    let x := minQ 1 (maxQ 0 ((((t : Int) - s.smearFrom p : Int) : Rat) / ((86400 * sec : Int) : Rat)))
    (base : Rat) - (d : Rat) * x * (sec : Rat)
  else if d = 1 then (if (t : Int) < tl - sec then (base : Rat) else ((base - sec : Int) : Rat))
  else (if (t : Int) < tl then (base : Rat) else ((base + sec : Int) : Rat))

/-- The NTP timestamp of a presented time (R434). -/
def ntpStamp (q : Rat) : Nat :=
  let x := q / (secondT : Rat)
  let w := x.floor
  let f := nearQ ((x - (w : Rat)) * ((2 ^ 32 : Nat) : Rat))
  (((w + 2208988800) * (2 ^ 32 : Nat) + f) % (2 ^ 64 : Nat)).toNat

/-- The check of LI and dispersion against the bus is out of service (R466). -/
def State.liBad (s : State) : Bool := s.unitBusy pgFtn 15

/-- LI of a response at T3 (R433, R440). -/
def State.ntpLi (s : State) (p : PortNo) (t3 : Nat) : Nat :=
  if s.busState (s.fnDom p) = 4 ∨ s.liBad = true then 3
  else
    let d := s.leapDir p
    let tl := s.leapAt p
    if !s.fb p 2 && d != 0 && decide (tl ≤ t3 + 86400 * secondT) && decide (t3 < tl) then (if d = 1 then 1 else 2) else 0

/-- Root Dispersion of a bound with X in ps (R435). -/
def State.ntpDisp (s : State) (b : Code) (x : Nat) : Nat :=
  if b = 0xFFFF ∨ s.liBad = true then 0xFFFFFFFF
  else (ceilQ ((codePs b + 117 + (x : Rat)) * 65536 / ((10 ^ 12 : Nat) : Rat))).toNat

/-- Reference ID (R436); with no slot in use the spec states none, and it is a free value. -/
def State.ntpRef (s : State) (d : Dom) : Nat × State :=
  if s.busState d = 3 ∨ s.busState d = 4 then (0x484F4C44, s)
  else match s.heaviest d with
    | some n =>
      (if n.val = 8 ∨ n.val = 9 then 0x474E5353 else if n.val = 30 then 0x41544F4D else if 26 ≤ n.val then 0x50545000
       else if n.val < 8 then 0x50505300 else 0x53594E43, s)
    | none => s.draw (2 ^ 32)

/-- Reference Timestamp of a beat as a port presents it; and that of a port's domain, 0 where no time reference has steered it since
its reset (R437). -/
def State.refTimeAt (s : State) (p : PortNo) (t : Nat) : Nat :=
  ntpStamp ((((s.shown p t) / (secondT : Rat)).floor * (secondT : Int) : Int) : Rat)
def State.ntpRefTime (s : State) (p : PortNo) : Nat :=
  if s.busHalf.any (fun h => ((s.half h).doms.get (s.fnDom p)).refSince) then (s.ftnPort p).refTime.get (s.fnDom p) else 0

def isKod : NtpKind → Bool
  | .rate | .authRate => true
  | _ => false

/-- The NTP header of a response (R433). -/
def State.ntpHeader (s : State) (p : PortNo) (r : NtpResp) (t3 : Nat) (b : Code) (x : Nat) : NtpHeader × State :=
  let d := s.fnDom p
  let lost := s.busState d == 4
  let kod := isKod r.kind
  let nak := r.kind == .nak
  let pr := if kod then (0x52415445, s) else if nak then (0x4E54534E, s) else s.ntpRef d
  let rid := pr.1
  let s1 := pr.2
  ({ li := if kod || nak then 3 else s.ntpLi p t3
     vn := if nak then 4 else ntpVersion r.req
     stratum := if kod || nak then 0 else if lost then 16 else 1
     poll := if kod then max (ntpPoll r.req) (max 4 (s.pf p pgFtn 0x050 27 24)) else ntpPoll r.req
     disp := s.ntpDisp b x, refId := rid, ref := if nak then 0 else s.ntpRefTime p, org := ntpXmit r.req
     t2 := r.p2, t3 := ntpStamp (s.shown p t3) }, s1)

/-- The 48 octets of a header: mode 4, precision −32, root delay 0. -/
def NtpHeader.bytes (h : NtpHeader) : List Byte :=
  [BitVec.ofNat 8 (h.li * 64 + h.vn * 8 + 4), BitVec.ofNat 8 h.stratum, BitVec.ofNat 8 h.poll, 0xE0] ++ beBytes 4 0 ++
    beBytes 4 h.disp ++ beBytes 4 h.refId ++ beBytes 8 h.ref ++ beBytes 8 h.org.toNat ++ beBytes 8 h.t2 ++ beBytes 8 h.t3

/-! ## Units and load (R450, R462) -/

/-- A unit in service among pipelines 0 to 7 or builders 8 to 11; which one a request takes is a free choice. -/
def State.ftnUnit (s : State) (first n : Nat) : Option Nat × State :=
  let ok := (List.range n).filter (fun k => !s.unitBusy pgFtn (BitVec.ofNat 8 (first + k)))
  if ok.isEmpty then (none, s)
  else
    let pr := s.draw ok.length
    let k := pr.1
    let s1 := pr.2
    (ok[k]?, s1)

/-- Work of the latest second, for FTN_UTIL. -/
def State.ftnWork (s : State) (nb ops : Nat) : State :=
  { s with ftn := { s.ftn with util := (s.now, nb, ops) :: s.ftn.util.filter (fun (u : Nat × Nat × Nat) =>
    decide (s.now < u.1 + 800000000)) } }

/-- A unit works on something until a time that the spec does not state: a free value (R462). -/
def onUnit (det : Nat) (s : State) : (Nat × Nat) × State :=
  let pr := s.draw (2 ^ 16)
  ((det, s.now + pr.1), pr.2)

/-- A request is handled by a builder, which is given with the time until which it works on it; none without one in service. -/
def useBuilder (s : State) : Option ((Nat × Nat) × State) :=
  (s.ftnUnit 8 4).1.map (fun k => onUnit (8 + k) (((s.ftnUnit 8 4).2.count (288 + 2 * k) 1).ftnWork 1 0))

/-- AES block operations on a pipeline. -/
def useAes (ops : Nat) (s : State) : Option ((Nat × Nat) × State) :=
  (s.ftnUnit 0 8).1.map (fun k => onUnit k (((s.ftnUnit 0 8).2.count (272 + 2 * k) ops).ftnWork 0 ops))

def blocks16 (n : Nat) : Nat := (n + 15) / 16

/-! ## Cookies (R444, R445, R452) -/

/-- W of a sealing key. -/
def ivKey (key : List Byte) : BitVec 128 :=
  BitVec.ofNat 128 (ofBe ((Config.aes256 key (1 :: List.replicate 15 0)).take 16))

/-- A round of the Feistel permutation. -/
def feistelRound (w : BitVec 128) (x : Nat × Nat) (i : Nat) : Nat × Nat :=
  let f := (Config.sipHash w (BitVec.ofNat 8 (Config.firstRound + i) :: beBytes 4 x.2)).toNat % 2 ^ 32
  (x.2, x.1 ^^^ f)

/-- The IV of the mint epoch and sequence (R445). -/
def mintIv (key : List Byte) (epoch : BitVec 24) (seq : Nat) : BitVec 64 :=
  let x := epoch.toNat * 2 ^ 40 + seq
  let (l, r) := (List.range 4).foldl (feistelRound (ivKey key)) (x / 2 ^ 32, x % 2 ^ 32)
  BitVec.ofNat 64 (l * 2 ^ 32 + r)

/-- A cookie under a generation's sealing key (R444). -/
def cookieBytes (key : List Byte) (gen : Word) (iv : BitVec 64) (c2s s2c : List Byte) : List Byte :=
  let head := 1 :: beBytes 3 (gen.toNat % 2 ^ 24)
  head ++ beBytes 8 iv.toNat ++ Config.gcmSeal key iv head (c2s ++ s2c)

/-- Mint one cookie under the generation in force; at sequence 2^40 the Fountain moves to the next epoch (R445, R453). -/
def mint (c2s s2c : List Byte) (s : State) : List Byte × State :=
  let s0 := if s.ftn.seq = 2 ^ 40 then useEpoch s else s
  let k := s0.slotKey s0.masterSlot
  let key := k.cur.getD []
  let c := cookieBytes key k.gen (mintIv key (s0.ftn.epoch.getD 0) s0.ftn.seq) c2s s2c
  (c, ({ s0 with ftn := { s0.ftn with seq := s0.ftn.seq + 1 } }).ftnCount .minted 1)

def mintN (c2s s2c : List Byte) : Nat → State → List (List Byte) × State
  | 0, s => ([], s)
  | n + 1, s =>
    let pr := mint c2s s2c s
    let c := pr.1
    let s1 := pr.2
    let pr := mintN c2s s2c n s1
    let r := pr.1
    let s2 := pr.2
    (c :: r, s2)

/-- C2S and S2C from a cookie of an accepted generation (R447, R452). -/
def State.openCookie (s : State) (c : List Byte) : Option (List Byte × List Byte) :=
  let k := s.slotKey s.masterSlot
  let gen := ofBe ((c.drop 1).take 3)
  let key := if gen = k.gen.toNat % 2 ^ 24 then k.cur else if gen = (k.gen - 1).toNat % 2 ^ 24 then k.prev else none
  if c.length = 92 ∧ c.head? = some 1 then
    (key.bind (fun y => Config.gcmOpen y (BitVec.ofNat 64 (ofBe ((c.drop 4).take 8))) (c.take 4) (c.drop 12))).map
      (fun p => (p.take 32, p.drop 32))
  else none

/-- Milondino's part: the next epoch is committed at sequence 2^39 or for want of a good one, and taken into use where
none is in use (R453, R466). -/
def epochAdv (s : State) : State :=
  if !s.mgt.running || s.pwr.state == .sealed || s.pwr.startStep < 6 then s
  else settleFtn (match s.ftn.epoch with
    | none => if s.ftn.stored = 0xFFFFFF then s else useEpoch (commitEpoch s)
    | some e =>
      if s.ftn.mintBad then (if s.ftn.stored = 0xFFFFFF then s else useEpoch (commitEpoch s))
      else
        let s1 := if 2 ^ 39 ≤ s.ftn.seq ∧ s.ftn.stored = e then commitEpoch s else s
        if 2 ^ 40 ≤ s1.ftn.seq ∧ s1.ftn.stored ≠ e then useEpoch s1 else s1)

/-- COOKIE_MINT (R443; 15 R482, R488, R492). -/
def opCookieMint (t : Tag) (keys : HostRead) (s : State) : State :=
  match dispatchable s t 0x32 with
  | none => s
  | some o =>
    let n := bits (o.word 1) 3 0
    let s0 := (s.served o).count (cntPart o.part 6) 1
    if s.pwr.state = .sealed then s0.finish t stTamper
    else if bits (o.word 1) 15 8 ≠ 15 ∨ n = 0 ∨ 8 < n then s0.finish t stInvalidField
    else if !s.owns o.part pgFtn then s0.finish t stAccessRefused
    else if !s.ntsReadyNow || !s.canMint n then s0.finish t stRefusedState
    else match keys with
      | none => s0.finish t stHostMemory
      | some b =>
        match useAes (5 * n) s0 with
        | none => s
        | some (_, s1) =>
          let g := (s.slotKey s.masterSlot).gen
          let pr := mintN (b.take 32) ((b.drop 32).take 32) n s1
          let cs := pr.1
          let s2 := pr.2
          let s3 := s2.emit (.hostMem o.part (o.addr + 64) cs.flatten)
          settleFtn (s3.finish t stOk (((noResult.set 0 (BitVec.ofNat 32 n)).set 1 (BitVec.ofNat 32 (g.toNat % 2 ^ 24))).set 2
            (BitVec.ofNat 32 (s2.ftn.epoch.getD 0).toNat)))

/-! ## The client table (R455 to R459) -/

structure ClientEnt where
  tag : Nat
  last : Nat
  tokens : Nat
  ovr : Nat
  nts : Bool
deriving DecidableEq, Repr

def tableReset (_ : Nat) : BitVec 64 := 0

/-- An entry from its word; none when it is free (R456). -/
def ClientEnt.ofWord (w : BitVec 64) : Option ClientEnt :=
  let n := w.toNat
  if n % 2 = 0 then none
  else some { tag := n / 2 ^ 48, last := n / 2 ^ 28 % 2 ^ 20, tokens := n / 2 ^ 16 % 2 ^ 12, ovr := n / 2 ^ 8 % 2 ^ 8
              nts := n / 2 % 2 == 1 }
def ClientEnt.word (e : ClientEnt) : BitVec 64 :=
  BitVec.ofNat 64 (e.tag * 2 ^ 48 + e.last * 2 ^ 28 + e.tokens * 2 ^ 16 + e.ovr * 2 ^ 8 + (if e.nts then 2 else 0) + 1)

def State.clientEnt (s : State) (i : Nat) : Option ClientEnt := ClientEnt.ofWord (look tableReset s.ftn.table i)
def State.setClientEnt (s : State) (i : Nat) (e : Option ClientEnt) : State :=
  { s with ftn := { s.ftn with table := put tableReset s.ftn.table i ((e.map ClientEnt.word).getD 0) } }

/-- Common time in units of 1/64 s (R457). -/
def State.now64 (s : State) : Nat := s.now / 12500000

/-- The index and the tag of a source address, under V6_PFX as it is in force on the port (R455; 02 R55). -/
def State.srcHash (s : State) (p : PortNo) (r : NtpReq) : Nat × Nat :=
  let a := beBytes 16 r.srcAddr.toNat
  let d := if r.srcIs6 then (if s.pb p pgFtn 0x040 1 then a.take 8 else a) else a.drop 12
  let h := (Config.sipHash (s.ftn.hash.elim 0 Config.hashKey) d).toNat
  (h % 2 ^ 20, h / 2 ^ 20 % 2 ^ 16)

/-- BURST in units of 1/16 request, and RATE. -/
def State.rlBurst (s : State) (p : PortNo) : Nat := 16 * max 1 (s.pf p pgFtn 0x050 15 8)
def State.rlRate (s : State) (p : PortNo) : Nat := max 1 (s.pf p pgFtn 0x050 7 0)

/-- Time since an entry's latest request, units of 1/64 s. -/
def State.sinceLast (s : State) (e : ClientEnt) : Nat := (s.now64 + 2 ^ 20 - e.last) % 2 ^ 20

/-- Tokens after the time since the latest request, where R457's quotient is not whole rounded freely. -/
def State.refillEnt (s : State) (burst rate : Nat) (e : ClientEnt) : Nat :=
  min burst (e.tokens + (openQ (((rate * s.sinceLast e : Nat) : Rat) / 64)).toNat)

/-- The lookup of R457; the entry stands in the table as it answers. -/
def lookup (p : PortNo) (r : NtpReq) (nts : Bool) (s : State) : Nat × ClientEnt × State :=
  let (i, tag) := s.srcHash p r
  let fresh : ClientEnt := { tag := tag, last := s.now64 % 2 ^ 20, tokens := s.rlBurst p, ovr := 0, nts := nts }
  let e := match s.clientEnt i with
    | none => fresh
    | some e => if e.tag = tag then e else fresh
  let s1 := match s.clientEnt i with
    | none => s
    | some e => if e.tag = tag then s else s.ftnCount .evict 1
  let e1 : ClientEnt := { e with tokens := s.refillEnt (s.rlBurst p) (s.rlRate p) e, last := s.now64 % 2 ^ 20, nts := nts }
  (i, e1, s1.setClientEnt i (some e1))

/-- A request is charged (R457). -/
def charge (i : Nat) (e : ClientEnt) (s : State) : State :=
  s.setClientEnt i (some { e with tokens := e.tokens - 16, ovr := 0 })

/-- A NAK's charge where fewer than 16 tokens are left: the spec states no result of that subtraction, and it is a free
value (R447, R463). -/
def chargeShort (i : Nat) (e : ClientEnt) (s : State) : State :=
  let pr := s.draw (2 ^ 12)
  let k := pr.1
  let s1 := pr.2
  s1.setClientEnt i (some { e with tokens := k, ovr := 0 })

/-- An over-limit request is noted; whether the action of FTN_RL applies to it (R458). -/
def overLimit (i : Nat) (e : ClientEnt) (s : State) : Bool × State :=
  let n := min 255 (e.ovr + 1)
  (n == 1 || n % 16 == 0, s.setClientEnt i (some { e with ovr := n }))

def State.rlAction (s : State) (p : PortNo) : Nat := min 2 (s.pf p pgFtn 0x050 31 30)

/-- The sweeper visits an entry (R459). -/
def sweeperVisit (i : Nat) (s : State) : State :=
  match s.clientEnt i with
  | none => s
  | some e =>
    let burst := 16 * max 1 (s.fieldAt pgFtn 0x050 15 8)
    let rate := max 1 (s.fieldAt pgFtn 0x050 7 0)
    if burst ≤ s.refillEnt burst rate e ∨ 8192 * 64 ≤ s.sinceLast e then s.setClientEnt i none else s

/-! ## Requests (R429 to R433, R446, R447, R461) -/

/-- The Fountain consumes a frame on a path of a port (R429; 02 R595). -/
def State.fnConsumes (s : State) (p : PortNo) (a : PathAB) : Bool :=
  s.pathUp p a && (s.path p a).link && (s.page pgFtn).en && s.powered

/-- A datagram to port 123 is the Fountain's on a port: its address, its tag and mode 3 (R429). -/
def State.fnAddressed (s : State) (p : PortNo) (vlan : Option (BitVec 12)) (is6 : Bool) (dst : BitVec 128) (mode : Nat) : Bool :=
  (dst == if is6 then s.addrAt p pgFtn (fnBase p + 8) else (s.portReg p pgFtn (fnBase p + 4)).setWidth 128) &&
    vlanOk (s.portReg p pgFtn (fnBase p)) vlan && mode == 3

/-- The Fountain consumes a request (R429). -/
def State.fnTakes (s : State) (p : PortNo) (a : PathAB) (r : NtpReq) : Bool :=
  s.fnConsumes p a && r.framed && s.fnAddressed p r.vlan r.srcIs6 r.dstAddr (ntpMode r)

/-- A response that is not sealed is queued on its port. -/
def queueNtp (p : PortNo) (r : NtpResp) (s : State) : State := s.modPort p (fun x => { x with ntp := x.ntp ++ [r] })

/-- The conditions of R431 when a response is built. -/
def served (p : PortNo) (nts : Bool) (k : State → State) (s : State) : State :=
  if (if nts then s.servesNts p else s.servesPlain p) then k s else s.ftnCount .dropNoserve 1

/-- A response of a kind to a request, timestamped at its ingress and queued unsealed (R433, R447, R458). -/
def answerNtp (p : PortNo) (a : PathAB) (r : NtpReq) (d : Dom) (kind : NtpKind) (uid : List Byte) (u : Nat × Nat) (s : State) : State :=
  let pr := s.ingress p a d r.pt
  queueNtp p { kind := kind, req := r, dom := d, t2 := pr.1, p2 := ntpStamp (s.shown p pr.1), units := [u], uid := uid } pr.2.2

/-- A plain request (R430, R433, R457, R458, R461). -/
def ntpRequest (p : PortNo) (a : PathAB) (r : NtpReq) (s : State) : State :=
  if !s.fnTakes p a r then s
  else
    let s1 := s.count 256 1
    if (ntpVersion r != 3 && ntpVersion r != 4) || r.hasMac then s1.ftnCount .dropBad 1
    else
      match (if r.buildersFull then none else useBuilder s1) with
      | none => s1.ftnCount .dropBusy 1
      | some (u, s2) =>
        let pr := lookup p r false s2
        let i := pr.1
        let e := pr.2.1
        let s3 := pr.2.2
        let d := s.fnDom p
        if e.tokens < 16 then
          let pr := overLimit i e s3
          let acts := pr.1
          let s4 := pr.2
          if acts && s.rlAction p != 0 then served p false (answerNtp p a r d .rate [] u) s4 else s4.ftnCount .dropRl 1
        else served p false (answerNtp p a r d .plain [] u) (charge i e s3)

/-- A 16-octet nonce from the random source. -/
def freshNonce (s : State) : List Byte × State :=
  let pr := s.draw (2 ^ 128)
  let n := pr.1
  let s1 := pr.2
  (beBytes 16 n, s1)

/-- AES block operations of an exchange with `n` cookies sealed (R450). -/
def exchangeOps (n : NtsParts) (cookies uidLen : Nat) : Nat :=
  5 + (3 + blocks16 n.assoc.length + blocks16 n.nonce.length) + 5 * cookies + 1 +
    (3 + blocks16 (48 + uidLen) + 12 * cookies)

/-- An authenticated response sealed with fresh cookies and a fresh nonce for the launch instant it has (R448, R449). -/
def sealResp (p : PortNo) (r : NtpResp) (s : State) : NtpResp × State :=
  let t3 := r.t3
  let pr := mintN r.keys.1 r.keys.2 r.cookies s
  let cs := pr.1
  let s1 := pr.2
  let b := s1.present r.dom (s1.txLevel7 (s1.refLane p (s1.activePath p)))
  let pr := s1.ntpHeader p r t3 b (s.launchTol p)
  let h := pr.1
  let s2 := pr.2
  let pr := freshNonce s2
  let nonce := pr.1
  let s3 := pr.2
  let plain := cs.flatMap (extField 0x0204)
  let ct := Config.aeadSeal r.keys.2 nonce (h.bytes ++ uidField r.uid) plain
  let box := extField 0x0404 (beBytes 2 nonce.length ++ beBytes 2 ct.length ++ nonce ++ ct)
  ({ r with hdr := h, box := box }, s3)

/-- A sealed response waits for its launch on its port. -/
def queueSealed (p : PortNo) (x : NtpResp × State) : State := x.2.modPort p (fun y => { y with sealed := y.sealed ++ [x.1] })

/-- An authenticated answer with fresh cookies, sealed before its launch or dropped as busy (R447, R449, R461). -/
def sealNts (p : PortNo) (a : PathAB) (r : NtpReq) (inTime : Bool) (n : NtsParts) (d : Dom) (kind : NtpKind) (k : List Byte × List Byte)
    (u : Nat × Nat) (s : State) : State :=
  let count := 1 + min 7 n.placeholders
  match (if inTime && s.canMint count then useAes (exchangeOps n count (uidField n.uid).length) s else none) with
  | none => s.ftnCount .dropBusy 1
  | some (v, s1) =>
    let pr := s1.ingress p a d r.pt
    let x : NtpResp :=
      { kind := kind, req := r, dom := d, t2 := pr.1, p2 := ntpStamp (s.shown p pr.1), units := [u, v], uid := n.uid, keys := k
        cookies := count, t3 := pr.1 + s1.launchNs p * 2 ^ 62 }
    settleFtn (queueSealed p (sealResp p x pr.2.2))

/-- An NTS request (R430, R446, R447, R458, R461). -/
def ntsRequest (p : PortNo) (a : PathAB) (r : NtpReq) (n : NtsReq) (s : State) : State :=
  if !s.fnTakes p a r then s
  else
    let s1 := s.count 256 1
    match (if ntpVersion r = 4 ∧ r.hasMac = false then ntsParts r n else none) with
    | none => s1.ftnCount .dropBad 1
    | some q =>
      match (if r.buildersFull then none else useBuilder s1) with
      | none => s1.ftnCount .dropBusy 1
      | some (u, s2) =>
        let pr := lookup p r true s2
        let i := pr.1
        let e := pr.2.1
        let s3 := pr.2.2
        let d := s.fnDom p
        let opened := (s.openCookie q.cookie).bind (fun k =>
          if (Config.aeadOpen k.1 q.nonce q.assoc q.cipher).isSome then some k else none)
        let ovr := decide (e.tokens < 16)
        let pr := if ovr then overLimit i e s3 else (false, s3)
        let acts := pr.1
        let s4 := pr.2
        if ovr && !(acts && s.rlAction p == 2) then s4.ftnCount .dropRl 1
        else match opened with
          | none => served p true (answerNtp p a r d .nak q.uid u) (if ovr then chargeShort i e s3 else charge i e s3)
          | some k => served p true (sealNts p a r n.sealInTime q d (if ovr then .authRate else .auth) k u) (if ovr then s4 else charge i e s3)

/-! ## Responses leaving (R432 to R435, R449) -/

/-- How a response is carried: to the source of its request, its addresses and ports swapped, the checksum computed (R432). -/
def State.ntpLink (s : State) (p : PortNo) (r : NtpReq) : LinkHdr :=
  { dst := r.srcMac, src := s.lpMac p, tci := tagOf (s.portReg p pgFtn (fnBase p))
    net := if r.srcIs6 then .udp6 r.dstAddr r.srcAddr 123 r.srcPort.toNat 64
      else .udp4 (r.dstAddr.setWidth 32) (r.srcAddr.setWidth 32) 123 r.srcPort.toNat 64 true }

/-- A response is sent. -/
def sendNtp (p : PortNo) (a : PathAB) (r : NtpResp) (h : NtpHeader) (ext : List Byte) (s : State) : State :=
  let fr := s.draw (2 ^ 32)
  let bytes := (s.ntpLink p r.req).frame fr.1 (h.bytes ++ ext)
  let s1 := ((fr.2.emit (.frame p a (.ntp r.kind h bytes))).countFrame p true (bytes.length + 4)).count (cntPort p 13) 1
  let s2 := s1.modFtnPort p (fun x => { x with stratum := h.stratum, li := h.li, disp := h.disp, refId := h.refId })
  s2.ftnCount (match r.kind with
    | .plain => .ntpResp
    | .auth => .ntsResp
    | .nak => .nak
    | _ => .kod) 1

/-- The path can send a response. -/
def State.ntpPathOk (s : State) (p : PortNo) (a : PathAB) : Bool :=
  s.pathUp p a && (s.path p a).link && s.tsOk p a && !s.schedBusy p a && (s.page pgFtn).en

/-- The oldest response that is not sealed leaves a path; the standby path's is discarded (12 R383). -/
def ntpLeaves (p : PortNo) (a : PathAB) (sub fec : Nat) (s : State) : State :=
  match (s.port p).ntp with
  | [] => s
  | r :: rest =>
    if !s.ntpPathOk p a then s
    else if a != s.activePath p then
      (s.modPort p (fun x => { x with stbyDisc := x.stbyDisc + 1 })).count (cntPort p 15) 1
    else
      let s0 := s.modPort p (fun x => { x with ntp := rest })
      let pr := s0.egress p a r.dom sub fec
      let t3 := pr.1
      let b := pr.2.1
      let s1 := pr.2.2
      let pr := s1.ntpHeader p r t3 b 0
      let h := pr.1
      let s2 := pr.2
      sendNtp p a r h (if r.kind = .nak then uidField r.uid else []) s2

/-- The conditions of R431 at a launch: the loss of the master-key slot alone does not hold a sealed response back (R449, R463). -/
def State.launches (s : State) (p : PortNo) : Bool := s.fnCommon p && s.fb p 1 && s.ntsRest && (s.masterOk || s.masterLost)

/-- The copy of a launched response that was built for a running standby path is discarded and counted (12 R383). -/
def standbyCopy (p : PortNo) (s : State) : State :=
  let b := (s.activePath p).other
  if s.pathUp p b && (s.path p b).link then
    (s.modPort p (fun x => { x with stbyDisc := x.stbyDisc + 1 })).count (cntPort p 15) 1
  else s

/-- The oldest sealed response reaches its launch instant, its timestamp point crossing `crossPs` after T3 (R449). -/
def ntsLaunch (p : PortNo) (crossPs : Nat) (s : State) : State :=
  match (s.port p).sealed with
  | [] => s
  | r :: rest =>
    let a := s.activePath p
    if !s.pathUp p a || !(s.path p a).link || s.schedBusy p a then s
    else
      let s0 := s.modPort p (fun x => { x with sealed := rest })
      let b := s.present r.dom (s.txLevel7 (s.refLane p a))
      let li := if isKod r.kind then 3 else s.ntpLi p r.t3
      if !s.launches p then s0.ftnCount .dropNoserve 1
      else if s.launchTol p < crossPs ∨ li ≠ r.hdr.li ∨ s.ntpDisp b (s.launchTol p) ≠ r.hdr.disp then s0.ftnCount .dropLate 1
      else sendNtp p a r r.hdr (uidField r.uid ++ r.box) (standbyCopy p s0)

/-- FTN_KILL takes a value: a 1 discards what is queued or sealed (R463). -/
def doFtnKill (v : Word) (s : State) : State :=
  let s1 := s.setReg pgFtn 0x058 (v &&& 1)
  settleFtn (if bit v 0 then { s1 with ports := s1.ports.map (fun (x : PortSt) => { x with ntp := [], sealed := [] }) } else s1)

/-- PAGE_CTL.EN of the Fountain's page falls or rises (02 R595, R455). -/
def ftnEnable (on : Bool) (s : State) : State :=
  let was := (s.page pgFtn).en
  let s1 := s.modPage pgFtn (fun p => { p with en := on })
  settleFtn (if on && !was then { s1 with ftn := { s1.ftn with table := [], hashNo := s1.ftn.hashNo + 1, hash := some (s1.ftn.hashNo + 1) } }
    else if on then s1
    else { s1 with ports := s1.ports.map (fun (x : PortSt) => { x with ntp := [], sealed := [] }) })

/-! ## Beats (R437, R439) -/

/-- The hardware's update at a leap, at a TD0 beat boundary: at the later of T_L and the end of the smear, at once where T_L was past
as DIR came into force (R439). -/
def leapBeat (s0 : State) : State :=
  let s := noteLeap s0
  let w := s.reg pgFtn 0x04C
  let dir := s.leapDirNow
  let tl := s.leapTl
  let ta1 := tl + 3600 * min 24 (bits w 28 24)
  if (dir = 1 ∨ dir = 2) ∧ (s.ftn.leapPast = true ∨ max tl ta1 * secondT ≤ s.busTime 0) then
    let o := s.sfieldAt pgFtn 0x044 15 0 + (if dir = 1 then 1 else -1)
    let s1 := s.setReg pgFtn 0x044 (mergeMask (s.reg pgFtn 0x044) (BitVec.ofInt 32 o) 0xFFFF)
    (s1.setReg pgFtn 0x04C (mergeMask w 0 (maskOf 17 16))).setEvt pgFtn evLeapDone
  else s

/-- The Fountain at a beat of the half that the bus carries: with a time reference steering, each port's Reference Timestamp of the
domain (R437). -/
def ftnBeat (h : Half) (d : Dom) (s : State) : State :=
  settleFtn (if s.timeRef h d then
    allPorts.foldl (fun a p => a.modFtnPort p (fun x =>
      { x with refTime := setAt x.refTime d (s.refTimeAt p (s.busTime d / beatT * beatT)) })) s
  else s)

/-! ## Detections and replay (R462, R466) -/

def NtpKind.sealed : NtpKind → Bool
  | .auth | .authRate => true
  | _ => false

/-- A unit still works on a response. -/
def NtpResp.onUnit (r : NtpResp) (u now : Nat) : Bool := r.units.any (fun e => e.1 == u && decide (now < e.2))

/-- The units a replay takes: a builder, and for a sealed response a pipeline. -/
def replayUnits (r : NtpResp) (s : State) : Option (List (Nat × Nat) × State) :=
  match useBuilder s with
  | none => none
  | some (u, s1) =>
    if r.kind.sealed then
      (if s1.canMint r.cookies then useAes (5 + 5 * r.cookies + 12 * r.cookies + 1) s1 else none).map (fun v => ([u, v.1], v.2))
    else some ([u], s1)

/-- A response on a unit that has failed is replayed on the others with its T2 and its launch instant, sealed anew; without a unit it
is dropped as busy (R462). -/
def replayResp (p : PortNo) (u : Nat) (r : NtpResp) (s : State) : Option NtpResp × State :=
  if !r.onUnit u s.now then (some r, s)
  else match replayUnits r s with
    | none => (none, s.ftnCount .dropBusy 1)
    | some (us, s1) =>
      let x : NtpResp × State := if r.kind.sealed then sealResp p { r with units := us } s1 else ({ r with units := us }, s1)
      (some x.1, x.2.ftnCount .replay 1)

/-- The responses of a list after the replay of those on a unit. -/
def replayList (p : PortNo) (u : Nat) : List NtpResp → State → List NtpResp × State
  | [], s => ([], s)
  | r :: l, s =>
    let x := replayResp p u r s
    let y := replayList p u l x.2
    (x.1.toList ++ y.1, y.2)

/-- The work in flight on a unit, a pipeline or a builder, is taken up again before anything else (R461, R462). -/
def replayUnit (u : Nat) (s : State) : State :=
  allPorts.foldl (fun a p =>
    let x := replayList p u (a.port p).ntp a
    let y := replayList p u (a.port p).sealed x.2
    y.2.modPort p (fun z => { z with ntp := x.1, sealed := y.1 })) s

def ftnDetection (det : Byte) (index : Nat) (s : State) : State :=
  match detKind .ftn det.toNat with
  | none => s
  | some k =>
    let s1 := s.fault 0 pgFtn k (kindSev k) det (if det = 12 then BitVec.ofNat 24 (index % 2 ^ 20) else s.locFor pgFtn k det)
    settleFtn (if det = 12 then s1.setClientEnt (index % 2 ^ 20) none
      else if det = 13 then { s1 with ftn := { s1.ftn with mintBad := true } }
      else if det.toNat < 12 then replayUnit det.toNat s1 else s1)

/-! ## Key operations, whose generation the Fountain shows (R454, R463) -/

def execKeyDerive (t : Tag) (label : HostRead) (s : State) : Host.Outcome State Fault Refusal :=
  .next (settleFtn (saRefresh (opKeyDerive t label s)))
def execKeyReplace (t : Tag) (key : HostRead) (s : State) : Host.Outcome State Fault Refusal :=
  .next (settleFtn (saRefresh (opKeyReplace t key s)))
def execCookieMint (t : Tag) (keys : HostRead) (s : State) : Host.Outcome State Fault Refusal := .next (opCookieMint t keys s)
def execNtpRequest (p : PortNo) (path : PathAB) (r : NtpReq) (s : State) : Host.Outcome State Fault Refusal :=
  .next (ntpRequest p path r s)
def execNtsRequest (p : PortNo) (path : PathAB) (r : NtpReq) (n : NtsReq) (s : State) : Host.Outcome State Fault Refusal :=
  .next (ntsRequest p path r n s)
def execNtsLaunch (p : PortNo) (crossPs : Nat) (s : State) : Host.Outcome State Fault Refusal := .next (ntsLaunch p crossPs s)
def execSweeperVisit (index : Fin 1048576) (s : State) : Host.Outcome State Fault Refusal := .next (sweeperVisit index.val s)
def execEpochAdv (s : State) : Host.Outcome State Fault Refusal := .next (epochAdv s)
def execFtnDetection (det : Byte) (index : Nat) (s : State) : Host.Outcome State Fault Refusal := .next (ftnDetection det index s)

end Sys2Proof.Machine
end

