-- ==== Sys2Proof/Machine/Lath.lean ====
section
/-!
DEFINITION. The Lath (04): start-up, MOSC classification, loss and handover, qualification and return.
-/

namespace Sys2Proof.Machine

def State.lath (s : State) (h : Half) : Lath := (s.half h).lath

/-! ## Start-up (R118 to R122) -/

/-- MOSC_FREQ of a half. -/
def State.moscFreq (s : State) (h : Half) : Nat := s.fieldAt pgLath (0x040 + 4 * h.ix.val) 2 0

/-- A frequency within a tolerance of `num` in `den` about a nominal one. -/
def nearHz (hz nom num den : Nat) : Bool :=
  let d := if hz ≤ nom then nom - hz else hz - nom
  decide (d * den ≤ nom * num)

/-- The class of a measured MOSC (R118, R122): 0 absent, 1 10 MHz, 2 25 MHz, 3 100 MHz. -/
def classOf (hz num den : Nat) : Nat :=
  if nearHz hz 10000000 num den then 1 else if nearHz hz 25000000 num den then 2
  else if nearHz hz 100000000 num den then 3 else 0

/-- The class taken under LATH_CFG.MOSC_FREQ. It is taken at a classification: a setting that changes while MOSC is classified leaves
class and source as they are until the next loss (log entry 203). -/
def State.moscClass (s : State) (h : Half) (hz : Nat) : Nat :=
  let c := if (s.lath h).standbyLock then classOf hz 200 1000000 else classOf hz 15 100
  match s.moscFreq h with
  | 0 => c
  | 7 => 0
  | n => if c = n then c else 0

/-- XO_OK follows its conditions upward; only a fall is an event (R124). -/
def Lath.xoGood (l : Lath) : Bool :=
  l.standbyLock && (match l.xoY with
    | some y => decide (absQ (rateQ (y : Rat)) ≤ 50 * tenth 6)
    | none => false)

def standbyLineLock (h : Half) (s : State) : State :=
  if s.halfOn h && !(s.lath h).standbyLock then
    s.modLath h (fun l =>
      let l1 := { l with standbyLock := true, xoPrev := none, src := if l.src = 0 then 2 else l.src }
      { l1 with xoOk := l1.xoGood })
  else s

def xoLockTimeout (h : Half) (s : State) : State :=
  let l := s.lath h
  if s.halfOn h && l.st == .acquire && !l.standbyLock && !l.xoTimeout then
    ((s.modLath h (fun x => { x with xoTimeout := true, xoOk := false })).lathEvt h evXoBad).lathFault h (4 + h.ix.val)
  else s

def moscClassify (h : Half) (hz : Nat) (s : State) : State :=
  let l := s.lath h
  if s.halfOn h && l.st == .acquire && (l.standbyLock || l.xoTimeout) then
    s.modLath h (fun x => { x with cls := s.moscClass h hz, classified := true, lossInj := false })
  else s

/-- MOSC is classified again every 100 µs in STANDBY (R121). -/
def moscReclassify (h : Half) (hz : Nat) (s : State) : State :=
  let l := s.lath h
  if s.halfOn h && l.st == .standby && l.cls == 0 then
    s.modLath h (fun x => { x with cls := s.moscClass h hz, classified := true, lossInj := false })
  else s

/-- The primary line locks (R120, R121, R126): at start-up the grid selects PRIMARY when the sequence ends; in
STANDBY the Lath enters RETURNING. -/
def primaryLineLock (h : Half) (s : State) : State :=
  let l := s.lath h
  if s.halfOn h && l.cls != 0 && !l.primaryLock then
    match l.st with
    | .acquire =>
      let pr := s.draw 65536
      let c := pr.1
      let s1 := pr.2
      s1.modLath h (fun x => { x with primaryLock := true, ctrl := BitVec.ofNat 16 c })
    | .standby =>
      s.modLath h (fun x =>
        { x with primaryLock := true, st := .returning, moscWin := 0, qualWin := 0, qualified := false, returnOk := false, windows := [] })
    | _ => s
  else s

/-- A half at its first lock: domains at 0 in FREE_RUN, slots ABSENT, its configuration as it is in force (R193; 01 R25). -/
def newHalf (s : State) (h : Half) : State :=
  s.modHalf h (fun x =>
    { x with
      doms := Vector.ofFn (fun d : Fin 4 =>
        { steer := s.bitAt (pgTd d) 0x040 0, resetBeat := true })
      slots := Vector.ofFn (fun n : Fin 32 =>
        { taiUtc := s.fieldAt (pgRs n) 0x074 7 0, leapPend := s.fieldAt (pgRs n) 0x074 10 9 })
      efcMode := s.fieldAt pgCis (0x048 + 4 * h.ix.val) 1 0
      efcCode := s.fieldAt pgCis (0x05C + 4 * h.ix.val) 23 0
      })

/-- A new sequence of time values begins with a half that starts afresh while no half publishes: operations on its domains in
flight end, and the switch to it holds against no T_last (R195, R601; 09 R294). -/
def State.newSequence (s : State) : State :=
  let s1 := s.abortOps Op.onTime stAbortReset
  { s1 with arb := { s1.arb with fresh := true } }

/-- A half that locks without a publishing peer starts its domains afresh and takes its configuration from the common
die's copy, its edge engines with them (R193, R601; 01 R25; 11 R371). -/
def freshStart (s : State) (h : Half) : State :=
  let s1 := (newHalf s h).newSequence
  allJets.foldl (fun a j => a.modJet j (fun x => { x with bad := x.bad.set h false })) s1

/-- A half that runs and loaded nothing, or not wholly, starts its domains afresh: each as after a domain reset, its configuration
that of the copy. Slots and oscillator state go on (R194, R601; 09 R303). A detection still keeps a bound unbounded, unless the peer
is off, in LATH or in TEST (R232; 08 R272; 09 R310). -/
def restartHalf (s : State) (h : Half) : State :=
  let s1 := allDoms.foldl (fun a d => a.startDom h d (if (s.dom h d).marred && !s.peerAway h then 2 else 1)) (s.modHalf h (fun x => { x with late := [], early := [] }))
  let s2 := s1.modHalf h (fun x => { x with doms := Vector.ofFn (fun d : Fin 4 =>
    { x.doms.get d with steer := s.bitAt (pgTd d) 0x040 0, forced := false }) })
  if s.publishing h.peer then s2 else s2.newSequence

/-- The role on Lath lock (09 R285). A half in TEST waits for a load of its domains (08 R272); one that enters SOLO beside
a publishing peer with no stepped domain loads nothing (09 R307). -/
def lockRole (s : State) (h : Half) : State :=
  let peer := s.publishing h.peer
  let s1 := if peer then newHalf s h else freshStart s h
  if s.established h.peer then
    s1.modHalf h (fun x => { x with role := .test, doms := x.doms.map (fun d => { d with unb := 3 }) })
  else s1.modHalf h (fun x => { x with role := .solo })

/-- The common die moves from its boot oscillator to the Lath clocks at the first lock: jets may start and ports run
(01 R39, 11 R368). -/
def State.commonClock (s : State) (h : Half) : State :=
  if s.pwr.lathClock then s
  else settlePorts (jetsOn { s with pwr := { s.pwr with lathClock := true }, arb := { s.arb with clock := some h } })

/-- The R120 sequence ends with a source (R120, R122, R126). -/
def lathLock (h : Half) (s : State) : State :=
  let l := s.lath h
  let prim := l.primaryLock && l.cls != 0
  if s.halfOn h && l.st == .acquire && !l.locked && (prim || (l.standbyLock && l.classified && l.cls == 0)) then
    let s1 := s.modLath h (fun x =>
      { x with locked := true, st := if prim then .primary else .standby, src := if prim then 1 else 2
               xoPrev := if prim && x.standbyLock then some 0 else none })
    ((lockRole s1 h).commonClock h).reachStep 7
  else s

/-- With no usable source the sequence is repeated every 10 ms (R122). -/
def lathAcquireRetry (h : Half) (s : State) : State :=
  let l := s.lath h
  if s.halfOn h && l.st == .acquire && !l.locked && !l.standbyLock && l.classified && l.cls == 0 then
    (s.modLath h (fun x => { x with classified := false, primaryLock := false })).fault (placeOf h) pgLath kClock
      (kindSev kClock) (Config.detectorOf pgLath kClock) 0
  else s

/-! ## Loss (R126 to R128, R132, R134) -/

/-- The Lath enters FAIL (R134, R146, R147; 08 R276). -/
def lathFail (h : Half) (s : State) : State :=
  let e := s.el0 h
  let s1 := s.modLath h (fun x => { x with st := .fail, frozen := true, awayAt := if x.st = .coast then x.awayAt else e })
  let s2 := (s1.lathEvt h evLathFail).fault (placeOf h) pgLath kClock (kindSev kClock) (Config.detectorOf pgLath kClock) 0
  allDoms.foldl (fun a d => a.promptRise h d (20 * tenth 6 * 976562500)) s2

/-- Where the Lath goes from a state when it loses its primary source (R127, R128, R134). -/
def afterLoss (h : Half) (l : Lath) (s : State) : State :=
  match l.st with
  | .returning => s.modLath h (fun x => { x with st := .standby })
  | .primary =>
    if l.xoOk then s.modLath h (fun x => { x with st := .coast, frozen := true, awayAt := s.el0 h, xoPrev := none })
    else lathFail h s
  | _ => s

/-- A loss of MOSC or of primary lock, with its event and detector, in whatever state MOSC was seen or the line locked (R126 to
R128, R145; 08 R276); `inj` that it is injected. A MOSC lost by an injection alone can still be lost in fact (R148). -/
def loseMosc (h : Half) (ev det : Nat) (inj : Bool) (s : State) : State :=
  let l := s.lath h
  let seen := l.cls != 0 || (l.lossInj && !inj)
  if s.halfOn h && (if ev = evLockLost then l.primaryLock else seen) then
    let s1 := (s.lathEvt h ev).lathFault h (det + h.ix.val)
    let s2 := if s.gridOn h && (l.cls != 0 || ev == evLockLost) then allDoms.foldl (fun a d => a.promptRise h d 10) s1 else s1
    afterLoss h l (s2.modLath h (fun x =>
      { x with cls := 0, lossInj := if ev = evLockLost then true else inj, classified := false, primaryLock := false, qualWin := 0, qualified := false, returnOk := false, windows := [] }))
  else s

def moscLost (h : Half) (s : State) : State := loseMosc h evMoscLost 0 false s
def lockLost (h : Half) (s : State) : State := loseMosc h evLockLost 2 false s

/-- XO_OK falls from 1 to 0 (R124, R126). -/
def xoFalls (h : Half) (s : State) : State :=
  let l := s.lath h
  let s1 := ((s.modLath h (fun x => { x with xoOk := false })).lathEvt h evXoBad).lathFault h (4 + h.ix.val)
  if l.st = .coast ∨ l.st = .standby ∨ l.st = .returning then lathFail h s1 else s1

/-- The standby line loses lock (R124). -/
def xoBad (h : Half) (s : State) : State :=
  if s.halfOn h && (s.lath h).standbyLock then
    let s1 := s.modLath h (fun x => { x with standbyLock := false, xoPrev := none })
    if (s.lath h).xoOk then xoFalls h s1 else s1
  else s

/-! ## Change of source (R129 to R133, R138, R240) -/

/-- Every rate-bearing value of a domain replaced at a change of source (R131, R221; 07 R240). -/
def DomSt.replaceRates (x : DomSt) (y : Int) : DomSt :=
  { x with
    rate := satRate (rescale x.rate y)
    integ := rescaleQ x.integ (y : Rat)
    heldRate := rescale x.heldRate y
    hostTarget := x.hostTarget.map (fun r => rescale r y)
    hostPend := x.hostPend.map (fun r => { r with rate := rescale r.rate y })
    centre := satRate (rescale x.centre y)
    rates := x.rates.map (fun r => rescale r y)
    secRates := x.secRates.map (fun r => rescale r y)
    secClean := false }

/-- A comparison period goes on across a change of grid: its mean rate word is converted as the rate words are, and
what the domain has gained on the coast scale stands (R131, 05 R163, 09 R302). -/
def SlotDom.convert (q : SlotDom) (x : DomSt) (y : Int) : SlotDom :=
  let n : Rat := ((x.nb - q.perNb : Nat) : Rat)
  let g := ((x.acc - q.perAcc : Int) : Rat) - q.perRate * n
  let r := rescaleQ q.perRate (y : Rat)
  { q with perRate := r, perAcc := x.acc - openQ (g + r * n) }

/-- A pulse that waits for its label stands for the same gain on the converted coast scale. -/
def PulseMark.convert (m : PulseMark) (q q' : SlotDom) : PulseMark :=
  let n : Rat := (((m.nb : Int) - (q.perNb : Int) : Int) : Rat)
  { m with acc := q'.perAcc + openQ (((m.acc - q.perAcc : Int) : Rat) + (q'.perRate - q.perRate) * n) }

/-- Made in the running beat of a domain. -/
def DomSt.thisBeat (x : DomSt) (el : Nat) : Bool := decide (x.done * beatT < el + x.off)

/-- The observations already made in the running beat are discarded with the rest of the beat's (05 R156). -/
def SlotDom.dropBeat (q : SlotDom) (x : DomSt) : SlotDom :=
  let kept := q.obs.filter (fun o => !x.thisBeat o.el)
  let k := q.obs.length - kept.length
  { q with obs := kept, clk := q.clk.filter (fun o => !x.thisBeat o.el), nSince := q.nSince - k, exceed := q.exceed - k, fresh := false }

/-- Conditions that the discarded observations raised fall with them. -/
def SlotPend.dropBeat (p : SlotPend) : SlotPend := { p with pstep := false, ph := none }

/-- A slot at a change of its half's grid (05 R156; R131): the observations and pulses of the beat are discarded, and what remains
is converted. -/
def SlotSt.newGrid (z : SlotSt) (doms : Vector DomSt 4) (y : Int) : SlotSt :=
  let conv (d : Fin 4) : SlotDom := (z.dom.get d).convert (doms.get d) y
  { z with
    skip := true, pend := z.pend.dropBeat
    pulse := Vector.ofFn (fun d : Fin 4 =>
      ((z.pulse.get d).filter (fun m => !(doms.get d).thisBeat m.el)).map (fun m => m.convert (z.dom.get d) (conv d)))
    dom := Vector.ofFn (fun d : Fin 4 => (conv d).dropBeat (doms.get d)) }

/-- A domain's rate word would leave its range (R133). -/
def DomSt.wouldSaturate (x : DomSt) (y : Int) : Bool :=
  decide (rescale x.rate y < rateMin) || decide (rateMax < rescale x.rate y)

/-- The grid changes source: rates replaced, holdover rebased, Lath terms opened, observations of the beat discarded,
and the record of R146 (R129 to R133, R138; 05 R156; 08 R268). -/
def changeSource (h : Half) (y : Int) (unc : Rat) (coastNs : Nat) (offset : BitVec 10) (toPrim : Bool) (s : State) : State :=
  let rho : Rat := 5 + 20 * tenth 6 * ((coastNs * 1000 : Nat) : Rat)
  let sat := allDoms.any (fun d => (s.dom h d).wouldSaturate y)
  let was := s
  let s1 := s.modLath h (fun l =>
    { l with src := if toPrim then 1 else 2, st := if toPrim then .primary else .standby, frozen := false,
             swCnt := l.swCnt + 1, lastDir := toPrim, resid := min 255 (ceilQ rho).toNat, offset := offset, ratio := y,
             samples := [], xoPrev := if toPrim && l.standbyLock then some 0 else none, windows := [], qualified := false, returnOk := false, qualWin := 0 })
  let s2 := allDoms.foldl (fun a d =>
    let a1 := a.modDom h d (fun x => (x.replaceRates y).openTerm rho unc)
    a1.modDom h d (fun x => { x with hold := x.hold.map (fun k =>
      a1.rebaseHold h k (rescaleQ (if k.fromOther then ((was.dom h d).heldRate : Rat) else was.holdRate h k) (y : Rat))) })) s1
  let s3 := s2.modHalf h (fun v =>
    { v with slots := v.slots.map (fun z => z.newGrid v.doms y), grid := v.grid * (1 + rateQ (y : Rat)) })
  let s4 := (s3.lathEvt h (if toPrim then evToPrimary else evToStandby)).count (cntHalf h 50) 1
  if sat then lathFail h s4 else s4

/-- The handover to the standby line (R129). -/
def toStandby (h : Half) (coastNs : Nat) (offset : BitVec 10) (s : State) : State :=
  let l := s.lath h
  if s.gridOn h && l.st == .coast && l.xoOk then
    changeSource h (l.xoY.getD 0) ((l.xoUnc.toNat : Rat) * tenth 15) coastNs offset false s
  else s

/-! ## Return (R136 to R139) -/

/-- A qualification window ends with the raw offset `y` of MOSC against the grid, units of 2^-60 (R136, R137). -/
def moscQualWindow (h : Half) (y : Int) (s : State) : State :=
  let l := s.lath h
  if s.gridOn h && l.st == .returning then
    let corr (v : Int) : Rat := (1 + rateQ (v : Rat)) * (1 + rateQ ((l.xoY.getD 0 : Int) : Rat)) - 1
    let tol : Rat := ((s.fieldAt pgLath 0x048 15 8 : Nat) : Rat) * tenth 7
    let stab : Rat := ((s.fieldAt pgLath 0x048 23 16 : Nat) : Rat) * tenth 11
    let win := openQ (unitsQ (corr y))
    let near := match l.windows with
      | [] => true
      | w :: _ => decide (absQ (corr y - corr w) ≤ stab)
    if decide (absQ (corr y) ≤ tol) && near then
      let need := s.fieldAt pgLath 0x048 5 0 + 1
      let ws := (y :: l.windows).take need
      let pr := s.draw (2 ^ 32)
      let u := pr.1
      let s1 := pr.2
      if need ≤ ws.length then
        s1.modLath h (fun x =>
          { x with windows := ws, qualWin := satN 8 (x.qualWin + 1), qualified := true, moscWin := win,
                   moscY := if l.qualified then x.moscY else openQ (meanI ws),
                   moscUnc := if l.qualified then x.moscUnc else (u : Rat) * tenth 15 })
      else s.modLath h (fun x => { x with windows := ws, qualWin := satN 8 (x.qualWin + 1), moscWin := win })
    else
      (s.modLath h (fun x => { x with windows := [], qualWin := 0, qualified := false, returnOk := false, moscWin := win })).lathEvt h evQualFail
  else s

/-- The return to primary (R126, R137, R138). -/
def toPrimary (h : Half) (offset : BitVec 10) (s : State) : State :=
  let l := s.lath h
  let mode := s.bitAt pgLath (0x040 + 4 * h.ix.val) 4
  if s.gridOn h && l.st == .returning && l.qualified && (!mode || l.returnOk) then
    changeSource h l.moscY l.moscUnc 0 offset true s
  else s

/-- RETURN_x comes into force: without a passed qualification it has no effect (R137, R139). -/
def lathReturnCmd (h : Half) (s : State) : State :=
  let l := s.lath h
  if s.gridOn h && l.st == .returning && l.qualified then s.modLath h (fun x => { x with returnOk := true }) else s

/-! ## XO measurement at a TD0 beat (R123, R124) -/

/-- The frequency samples as points, oldest at 1, fractions against the beat's number; beats without a measurement give none. -/
def xoPts (samples : List (Option Int)) : List (Rat × Rat) :=
  let n := samples.length
  ((List.range n).zip samples).filterMap (fun p => p.2.map (fun v => (((n - p.1 : Nat) : Rat), (v : Rat) / 976562500)))

/-- XO_Y from the samples: a line through the frequency samples, taken at the latest (R123). -/
def xoFit (samples : List (Option Int)) : Int := openQ (unitsQ (lineAt (xoPts samples) (samples.length : Rat)))

/-- XO_UNC: no less than the fit's residual, in units of 10^-15 (R123). -/
def xoUncOf (samples : List (Option Int)) (rest : Word) : Word :=
  let r := (ceilQ (rootQ (residSq (xoPts samples) / ((max 1 (xoPts samples).length : Nat) : Rat)) (10 ^ 15) * (10 ^ 15 : Nat))).toNat
  BitVec.ofNat 32 (max rest.toNat (satN 32 r))

/-- The measurement of a TD0 beat on PRIMARY (R123). Phases count from where the grid took the primary line, so that the first
beat gives a sample; a standby line that locks later, or again, gives its first sample at the second beat, and has a free first
value where none stands (log entry 186). -/
def Lath.measure (l : Lath) (phase : Int) (win : Nat) (first : Int) (rest : Word) : Lath :=
  let ss := ((l.xoPrev.map (fun p => phase - p)) :: l.samples).take win
  { l with xoPrev := some phase, samples := ss
           xoY := some (if (xoPts ss).isEmpty then l.xoY.getD first else xoFit ss), xoUnc := xoUncOf ss rest }

def xoBeat (h : Half) (phase : Int) (s : State) : State :=
  let l := s.lath h
  let win := 2 ^ min 10 (s.fieldAt pgLath 0x04C 3 0) * 1024
  if l.st = .primary ∧ l.standbyLock = false then s.modLath h (fun x => { x with samples := (none :: x.samples).take win })
  else if l.st = .primary then
    let l1 := l.measure phase win (Config.xoFirst h.ix.val s.fresh)
      (Config.xoUnc h.ix.val s.fresh)
    let s1 := { s with fresh := s.fresh + 1 }.modLath h (fun _ => { l1 with xoOk := if l1.xoGood then true else l.xoOk })
    if l.xoOk && !l1.xoGood then xoFalls h s1 else s1
  else s

/-! ## Half reset (09 R285, R311) -/

def evHrstDone : Nat := 12

/-- A powered half is reset: it passes to OFF and is held until its reset ends. -/
def resetHalf (h : Half) (s : State) : State :=
  match s.pwr.half.of h with
  | .on =>
    let s1 := s.dropHalf h
    settleCopy ({ s1 with pwr := { s1.pwr with half := s1.pwr.half.set h .held } }).settleDown
  | _ => s

/-- HALF_CMD.HRST_x in force. -/
def halfResetCmd (h : Half) (s : State) : State :=
  if s.pwr.half.of h == .on then (resetHalf h s).setEvt pgHalf evHrstDone else s

/-- 1 s after Lath FAIL with AUTO_RST set. -/
def autoRst (h : Half) (s : State) : State :=
  if s.pwr.half.of h == .on && (s.lath h).st == .fail && s.bitAt pgHalf 0x040 28 then (resetHalf h s).setEvt pgHalf evHrstDone else s

/-- A half leaves reset (R119, R120, 09 R285): ACQUIRE and LATH, with its models from the Belrex store (07 R247). -/
def halfResetEnd (h : Half) (s : State) : State :=
  match s.pwr.half.of h with
  | .held =>
    if s.pwr.resetLow then s
    else
      let load (t : ModelTab) : ModelTab := { t with words := t.stored, pend := [] }
      let s1 := { s with
        pwr := { s.pwr with half := s.pwr.half.set h .on }
        halves := s.halves.set h { role := .lath }
        mgt := { s.mgt with dieRead := s.mgt.dieRead.set h true }
        models := modAt (modAt s.models (tabIx h .mosc) load) (tabIx h .xo) load }
      s1.settleUp.evtIf (sensorBad (s1.model h .mosc) || sensorBad (s1.model h .xo)) pgCis (evSensorLost h)
  | _ => s

def execHalfResetEnd (h : Half) (s : State) : Host.Outcome State Fault Refusal := .next (halfResetEnd h s)
def execStandbyLineLock (h : Half) (s : State) : Host.Outcome State Fault Refusal := .next (standbyLineLock h s)
def execXoLockTimeout (h : Half) (s : State) : Host.Outcome State Fault Refusal := .next (xoLockTimeout h s)
def execMoscClassify (h : Half) (hz : Nat) (s : State) : Host.Outcome State Fault Refusal := .next (moscClassify h hz s)
def execPrimaryLineLock (h : Half) (s : State) : Host.Outcome State Fault Refusal := .next (primaryLineLock h s)
def execLathLock (h : Half) (s : State) : Host.Outcome State Fault Refusal := .next (lathLock h s)
def execLathAcquireRetry (h : Half) (s : State) : Host.Outcome State Fault Refusal := .next (lathAcquireRetry h s)
def execMoscLost (h : Half) (s : State) : Host.Outcome State Fault Refusal := .next (moscLost h s)
def execLockLost (h : Half) (s : State) : Host.Outcome State Fault Refusal := .next (lockLost h s)
def execToStandby (h : Half) (coastNs : Nat) (offset : BitVec 10) (s : State) : Host.Outcome State Fault Refusal := .next (toStandby h coastNs offset s)
def execXoBad (h : Half) (s : State) : Host.Outcome State Fault Refusal := .next (xoBad h s)
def execMoscReclassify (h : Half) (hz : Nat) (s : State) : Host.Outcome State Fault Refusal := .next (moscReclassify h hz s)
def execMoscQualWindow (h : Half) (y : Int) (s : State) : Host.Outcome State Fault Refusal := .next (moscQualWindow h y s)
def execToPrimary (h : Half) (offset : BitVec 10) (s : State) : Host.Outcome State Fault Refusal := .next (toPrimary h offset s)
def execLathReturnCmd (h : Half) (s : State) : Host.Outcome State Fault Refusal := .next (lathReturnCmd h s)
def execAutoRst (h : Half) (s : State) : Host.Outcome State Fault Refusal := .next (autoRst h s)
def execHalfResetCmd (h : Half) (s : State) : Host.Outcome State Fault Refusal := .next (halfResetCmd h s)

end Sys2Proof.Machine
end

