-- ==== Sys2Proof/Machine/Claims.lean ====
section
/-!
DEFINITION. Claims, the arbiters that act on them, and the switches of the time bus and of the common-die clocks
(09 R286 to R297, 04 R142, R144).
-/

namespace Sys2Proof.Machine

/-- Event bits of the halves page (R314). -/
def evHSwitch : Nat := 0
def evNoClaim : Nat := 1
def evStepDiverge : Nat := 2
def evBusDiverge : Nat := 3
def evLinkLost : Nat := 4
def evLinkUp : Nat := 5
def evResyncStart : Nat := 6
def evResyncDone : Nat := 7
def evJoined : Nat := 8
def evPaired : Nat := 9
def evTestFail (h : Half) : Nat := 10 + h.ix.val

/-- The half's time bus carries its domains: it runs, and waits for no load of them (R26, R284, R296). -/
def State.drivesBus (s : State) (h : Half) : Bool :=
  s.gridOn h && (match (s.half h).role with
    | .solo | .verify | .holdoff | .peer | .split => true
    | _ => false)

/-- LOCK_OK (R287). -/
def State.lockOk (s : State) (h : Half) : Bool :=
  let l := (s.half h).lath
  let m := s.fieldAt pgHalf 0x040 27 24
  let mask := if m = 0 then 1 else m
  (l.st == .primary || l.st == .coast || l.st == .standby || l.st == .returning) &&
    allDoms.all (fun d => !(Nat.testBit mask d.val) || (s.dom h d).bound != 0xFFFF)

def State.prioOf (s : State) (h : Half) : Nat :=
  match h with
  | .A => s.fieldAt pgHalf 0x040 3 0
  | .B => s.fieldAt pgHalf 0x040 7 4

/-- The claim number of a half (R286). -/
def State.claimNum (s : State) (h : Half) : BitVec 8 :=
  let x := s.half h
  BitVec.ofNat 8 (s.prioOf h * 16 + (if s.lockOk h then 8 else 0) + (if x.selftestOk then 4 else 0) +
    (if x.peerOk then 2 else 0) + (match h with | .A => 1 | .B => 0))

/-- The claim a half publishes, when it publishes one (R284, R289; 03 R97). -/
def State.claimOf (s : State) (h : Half) : Option (BitVec 8) :=
  if s.publishing h then some (s.claimNum h) else none

/-- The claim number that the half's bus carries from a TD0 beat on (01 R26). -/
def State.noteClaim (s : State) (h : Half) : State := s.modHalf h (fun x => { x with busClaim := s.claimOf h })

/-- The claim of a half that the arbiters would see now: none while its claim lines show a parity error (R291). -/
def State.seenClaim (s : State) (h : Half) : Option (BitVec 8) := if s.arb.parity.of h then none else s.claimOf h

/-- The claims differ in PEER_OK alone (R290). -/
def peerOnly (x y : Option (BitVec 8)) : Bool :=
  match x, y with
  | none, none => true
  | some a, some b => (a &&& 0xFD) == (b &&& 0xFD)
  | _, _ => false

/-- LAST_CAUSE of a change of claims from `o` to `n` that makes the arbiters leave half `h` (R314 HALF_ARB). -/
def causeOf (o n : Pair (Option (BitVec 8))) (h : Half) (parity peer : Bool) : Nat :=
  match n.of h with
  | none => if parity then 6 else 1
  | some _ =>
    if peer then 4
    else if (o.of h.peer).isNone then 5
    else
      let prio (a b : Option (BitVec 8)) : Bool := match a, b with
        | some x, some y => (x >>> 4) != (y >>> 4)
        | _, _ => false
      if prio (o.of .A) (n.of .A) || prio (o.of .B) (n.of .B) then 3 else 2

/-- With no claim left the arbiters follow nothing: T_last of each domain is kept, and the common die returns to its
boot oscillator, on which ports, PTP engine, Fountain and jets stand still (R294, R314; 04 R144). -/
def State.noClaim (s : State) : State :=
  if s.busHalf.isNone && !s.pwr.lathClock then s
  else
    let last := if s.busHalf.isSome then Vector.ofFn (fun d : Fin 4 => some (s.busTime d)) else s.arb.last
    let s1 := { s with arb := { s.arb with active := none, clock := none, last := last, add := Vector.replicate 4 0,
                                           held := Vector.replicate 4 0, tdiff := Vector.replicate 4 none }
                       pwr := { s.pwr with lathClock := false } }
    let s2 := portsOff (jetsOff s1)
    let s3 := settleFtn (allPorts.foldl (fun a p => serveBoundary p a) s2)
    (s3.setEvt pgHalf evNoClaim).setEvt pgLath evBootOsc

/-- The arbiters act on the claims they see (R290). -/
def State.actClaims (s : State) (peer : Bool) : State :=
  let o := s.arb.acted
  let n := s.arb.claims
  let c := match s.busHalf with
    | some h => if winner n = some h then s.arb.cause else causeOf o n h (s.arb.parity.of h) peer
    | none => s.arb.cause
  { s with arb := { s.arb with acted := n, persist := false, cause := c } }

/-- The arbiters see no claim, and none is on its way to them (R291; 04 R144). -/
def State.noneLeft (s : State) : Bool :=
  (winner s.arb.claims).isNone && (s.seenClaim .A).isNone && (s.seenClaim .B).isNone

/-- A change of the claims that reach the arbiters: acted on at once, unless PEER_OK alone changed (R290). -/
def State.newClaims (s : State) (h : Half) (c : Option (BitVec 8)) : State :=
  let cs := s.arb.claims.set h c
  let s1 := { s with arb := { s.arb with claims := cs } }
  let s2 :=
    if cs = s.arb.acted then { s1 with arb := { s1.arb with persist := false } }
    else if peerOnly (cs.of .A) (s.arb.acted.of .A) && peerOnly (cs.of .B) (s.arb.acted.of .B) then
      { s1 with arb := { s1.arb with persist := true } }
    else s1.actClaims false
  if s2.noneLeft then s2.noClaim else s2

/-- The half's peer ceases to publish (R285, R288, R303, R304, R309, R313). -/
def peerGone (h : Half) (s : State) : State :=
  if !s.halfOn h then s
  else
    let s1 := (s.modHalf h (fun x => { x with peerOk := false, matchRun := 0 })).setDiv h none
    let solo (a : State) : State := a.modHalf h (fun x => { x with role := .solo, load := none })
    match (s.half h).role with
    | .test | .loading => solo (restartHalf s1 h)
    | .verify | .peer | .split => solo s1
    | .holdoff => (solo s1).setEvt pgHalf evJoined
    | _ => s1

/-- A half changes its claim or its VALID flag (R289). Its peer learns that it ceased to publish whatever the arbiters made of
its claim lines (R288, R291). -/
def claimChange (h : Half) (s : State) : State :=
  let pub := (s.claimOf h).isSome
  let s0 := { s with arb := { s.arb with pub := s.arb.pub.set h pub } }
  let s1 := if s.arb.pub.of h && !pub then (peerGone h.peer s0).modHalf h (fun x => { x with peerOk := false }) else s0
  s1.newClaims h (s1.seenClaim h)

/-- The common die withdraws a half's claim at every arbiter, and its peer sees no claim of it (03 R97). -/
def withdrawClaim (h : Half) (s : State) : State :=
  let s0 := { s with arb := { s.arb with pub := s.arb.pub.set h false } }
  ((peerGone h.peer s0).modHalf h (fun x => { x with peerOk := false })).newClaims h none

/-- PEER_OK alone has differed for 2 ms (R290). -/
def peerOkPersist (s : State) : State := if s.arb.persist then s.actClaims true else s

/-- A parity error on claim lines: the half counts as publishing no claim (R291, R315). -/
def claimParityError (h : Half) (s : State) : State :=
  if s.arb.parity.of h then s
  else
    let s1 := { s with arb := { s.arb with parity := s.arb.parity.set h true } }
    let s2 := s1.newClaims h none
    s2.fault 0 pgHalf kParity (kindSev kParity) (BitVec.ofNat 8 (6 + h.ix.val)) 0

def claimParityClear (h : Half) (s : State) : State :=
  if s.arb.parity.of h then
    let s1 := { s with arb := { s.arb with parity := s.arb.parity.set h false } }
    s1.newClaims h (s1.claimOf h)
  else s

/-- The outputs learn at a switch what the new half's times have that they have not followed: a new sequence of every domain, or
the step that a domain has made (01 R43; 06 R195, R230; 11 R355). -/
def tellJets (told : Fin 4 → Nat) (x : HalfSt) (s : State) : State :=
  allJets.foldl (fun a j =>
    let d := a.jetDomNow j
    let t := x.timeOf d
    if s.arb.fresh then jetStep j t ((t : Int) - (told d : Int)) true a
    else if (x.doms.get d).stepped && !(s.arb.seen.get d) then jetStep j t (((x.doms.get d).off : Nat) : Int) false a
    else a) s

/-- One domain at a switch: T_last to hold against, if the new half is behind it; ps of hold, ps of forward move, ps
added to the total until the new half's first TD0 beat (R279, R294, R297). -/
def switchDom (tlast : Option Nat) (tnew : Nat) (fromHalf : Bool) : Option Nat × Nat × Nat × Nat :=
  match tlast with
  | none => (none, 0, 0, 100)
  | some t =>
    if tnew < t then
      let h := (ceilQ (psQ ((t - tnew : Nat) : Int))).toNat
      (some t, h, 0, 100 + if 100 < h && fromHalf then h else 0)
    else
      let j := (ceilQ (psQ ((tnew - t : Nat) : Int))).toNat
      (none, 0, j, 100 + if 100 < j && fromHalf then j else 0)

/-- A Follow_Up that waits over a switch of the bus keeps the timestamp of its Sync; its bound takes what the arbiter now adds, and
SWITCH (13 R425). -/
def PtpMsg.switched (m : PtpMsg) (add : Nat) : PtpMsg :=
  if m.kind = .followUp then { m with bound := { m.bound with total := addBound m.bound.total (add : Rat), flags := m.bound.flags ||| 16 } } else m

def switchFollows (s : State) : State :=
  let go (l : List PtpMsg) : List PtpMsg := l.map (fun m => m.switched (s.busAdd m.dom))
  { s with ports := s.ports.map (fun x => { x with msgs := go x.msgs, follow := go x.follow }) }

/-- The time bus arbiter switches (R293 to R297). No hold applies against a half that has started afresh (R294). Sets that the new
half took before the old one are decided with it. -/
def switchBus (s : State) : State :=
  match s.followed with
  | none => s
  | some h =>
    if s.busHalf = some h then s
    else
      let fromHalf := s.busHalf.isSome
      let x := s.half h
      let tlast (d : Fin 4) : Option Nat := if fromHalf then some (s.busTime d) else s.arb.last.get d
      let one (d : Fin 4) : Option Nat × Nat × Nat × Nat :=
        switchDom (if s.arb.fresh then none else tlast d) (x.timeOf d) fromHalf
      let top (f : Option Nat × Nat × Nat × Nat → Nat) : Nat := allDoms.foldl (fun m d => max m (f (one d))) 0
      let s0 := if fromHalf then tellJets (fun d => (tlast d).getD 0) x s else s
      let s1 := { s0 with arb := { s0.arb with
        active := some h
        fresh := false
        seen := Vector.ofFn (fun d : Fin 4 => (x.doms.get d).stepped)
        last := Vector.ofFn (fun d => (one d).1)
        add := Vector.ofFn (fun d => (one d).2.2.2)
        held := Vector.ofFn (fun d => if fromHalf then 0 else (one d).2.1)
        recHold := satN 16 (top (fun r => r.2.1))
        recJump := satN 16 (top (fun r => r.2.2.1))
        swCnt := s.arb.swCnt + 1
        lastCause := if fromHalf then s.arb.cause else s.arb.lastCause } }
      (settleEarly h (switchFollows (if fromHalf then s1 else jetsOn s1))).setEvt pgHalf evHSwitch

/-- The common-die clock arbiter switches (04 R142, R143, R146). -/
def clkArbSwitch (s : State) : State :=
  match s.followed with
  | none => s
  | some h =>
    if s.pwr.lathClock && s.arb.clock != some h then
      { s with arb := { s.arb with clock := some h } }.setEvt pgLath evClkArbSwitch
    else s

def execClaimChange (h : Half) (s : State) : Host.Outcome State Fault Refusal := .next (claimChange h s)
def execPeerOkPersist (s : State) : Host.Outcome State Fault Refusal := .next (peerOkPersist s)
def execClaimParityError (h : Half) (s : State) : Host.Outcome State Fault Refusal := .next (claimParityError h s)
def execClaimParityClear (h : Half) (s : State) : Host.Outcome State Fault Refusal := .next (claimParityClear h s)
def execSwitch (s : State) : Host.Outcome State Fault Refusal := .next (switchBus s)
def execClkArbSwitch (s : State) : Host.Outcome State Fault Refusal := .next (clkArbSwitch s)

end Sys2Proof.Machine
end

