-- ==== Sys2Proof/Machine/Resync.lean ====
section
/-!
DEFINITION. Halves in step (09 R298 to R315): digests, divergence, loading, heartbeats and the Ndofort link.
-/

namespace Sys2Proof.Machine

/-! ## Digests (R298, R299) -/

def bBit (b : Bool) : Byte := if b then 1 else 0

/-- Pages whose configuration is delivered to the halves under 01 R22: slots, domains, Cistern, halves and Spirit Level pages, and
the jets, whose edge engines take it (11 R367). -/
def deliveredPages : List Nat :=
  (List.range 32).map (· + 0x20) ++ [0x40, 0x41, 0x42, 0x43, 0x44, 0x50, 0x52] ++ allJets.map pgJet

/-- The digest's bytes, in the order of the table of R298 (log entry 20: the packing is the model's), from a state seen under the
half's own configuration: its APPLY_SEQ counts the sets it has itself in force. -/
def digestBytes (s : State) (h : Half) : List Byte :=
  let x0 := s.dom h 0
  let beat := leBytes 2 (x0.done / 1024) ++ leBytes 2 (x0.done % 1024)
  let x := s.half h
  let cfg := deliveredPages.flatMap (fun pg =>
    let seq := (s.page pg).applySeq.toNat + (x.early.filter (fun c => c.page == pg)).length + 65536 -
      (x.late.filter (fun c => c.page == pg)).length
    leBytes 2 (seq % 65536) ++
      (s.page pg).regs.flatMap (fun e => leBytes 2 e.1 ++ leBytes 4 e.2.toNat))
  let slots := (allSlots.take 31).flatMap (fun n =>
    let z := s.slot h n
    [BitVec.ofNat 8 z.st, BitVec.ofNat 8 z.cause, bBit z.latch, bBit z.adopting] ++ allDoms.map (fun d => bBit (s.steers h n d)))
  let doms := allDoms.flatMap (fun d =>
    let y := s.dom h d
    let rec_ := match y.stepRec with
      | some (k, n) => leBytes 8 (k / 2 ^ 32 / 1000000000) ++ [BitVec.ofNat 8 n.val]
      | none => leBytes 9 0
    let sel := match y.sel with
      | some n => BitVec.ofNat 8 n.val
      | none => (0xFF : Byte)
    [BitVec.ofNat 8 y.st, BitVec.ofNat 8 y.coat, bBit y.stepped,
     bBit (!y.stepped && s.bitAt (pgTd d) 0x060 0), bBit y.forced, bBit y.steer] ++ rec_ ++ [sel] ++
    (y.members.map (fun n => BitVec.ofNat 8 n.val)))
  let cis := allDoms.flatMap (fun d => [bBit (s.dom h d).ready, bBit (s.dom h d).inHold])
  beat ++ cfg ++ slots ++ doms ++ cis

def Role.digests : Role → Bool
  | .solo | .loading | .verify | .holdoff | .peer => true
  | _ => false

/-- Comparison is suspended while a half whose LASTING result caused it has not been reset (R301). -/
def State.suspended (s : State) : Bool := (s.half .A).suspended || (s.half .B).suspended

/-- Both halves hold states to compare: none is still loading, and two halves in SOLO compare only with no stepped
domain on either (R301, R307; log entry 21). -/
def State.comparing (s : State) : Bool :=
  let ok (r : Role) : Bool := r.digests && r != .loading
  let a := (s.half .A).role
  let b := (s.half .B).role
  let stepped (h : Half) : Bool := allDoms.any (fun d => (s.dom h d).stepped)
  s.halfOn .A && s.halfOn .B && ok a && ok b && !s.suspended && (s.half .A).linkUp && (s.half .B).linkUp &&
    (a != .solo || b != .solo || (!stepped .A && !stepped .B))

/-- A half forms its digest at its TD0 beat boundary (R298). -/
def digestBeat (h : Half) (s : State) : State :=
  s.modHalf h (fun x => { x with digest := if x.role.digests then some (crc64 (digestBytes s h)) else none })

/-- A divergence, by digests or by the time bus comparator (R300, R309, R314): both halves clear PEER_OK, count D, send
a message of kind STEP and test their datapaths; the claims before it are kept. -/
def diverge (ev : Nat) (detOf : Half → Nat) (s : State) : State :=
  let alone (h : Half) : Bool := !s.halfOn h.peer || (s.half h.peer).role == .lath || (s.half h.peer).role == .test
  let busy := (s.half .A).divTest == .running || (s.half .B).divTest == .running
  let claims : Pair (Option (BitVec 8)) := ⟨s.claimOf .A, s.claimOf .B⟩
  let s1 := (s.setEvt pgHalf ev).evtIf (allHalves.any (fun h => s.halfOn h && (s.half h).role == .verify)) pgHalf evResyncStart
  allHalves.foldl (fun a h =>
    if a.halfOn h then
      let a1 := a.modHalf h (fun x =>
        { x with peerOk := false, matchRun := 0, divTest := .running,
                 divClaim := if busy then x.divClaim else claims.of h,
                 load := if x.role = .loading ∨ x.role = .verify then some {} else x.load,
                 role := if x.role = .verify then .loading else x.role })
      let a2 := if alone h || (a1.half h).divAt.isSome then a1 else a1.setDiv h (some (a1.el0 h))
      a2.fault (placeOf h) pgHalf kStep (kindSev kStep) (BitVec.ofNat 8 (detOf h)) 0
    else a) s1

def stepDiverge (s : State) : State := diverge evStepDiverge (fun h => h.ix.val) s
def busDiverge (s : State) : State := diverge evBusDiverge (fun _ => 8) s

/-- The peer's digest arrives at a half (R299; 19 R588). -/
def digestReceived (h : Half) (peer : BitVec 64) (s : State) : State :=
  match (s.half h).digest with
  | none => s
  | some own =>
    if !s.comparing then s
    else if own = peer then
      (s.modHalf h (fun x => { x with matchRun := satN 16 (x.matchRun + 1) })).count (cntHalf h 48) 1
    else
      let s1 := (s.modHalf h (fun x => { x with mismatch := x.mismatch + 1, matchRun := 0 })).count (cntHalf h 49) 1
      stepDiverge s1

/-- The time bus comparator at a TD0 beat of the half with the higher claim (R296). -/
def compareBuses (s : State) : State :=
  if s.drivesBus .A && s.drivesBus .B then
    let diff (d : Dom) : Int := openQ (psQ (((s.half .A).timeOf d : Int) - ((s.half .B).timeOf d : Int)))
    let tol : Int := ((min 100 (s.fieldAt pgHalf 0x044 23 16) : Nat) : Int)
    let far := allDoms.any (fun d => decide (tol < (diff d).natAbs))
    let ovr := if far then s.arb.ovr + 1 else 0
    let within := if far then 0 else s.arb.within + 1
    let declare := decide (2 ≤ ovr) && !s.arb.diverged
    let s1 := { s with arb := { s.arb with
      tdiff := Vector.ofFn (fun d : Fin 4 => some (satI 32 (diff d)))
      ovr := ovr, within := within
      diverged := declare || (s.arb.diverged && decide (within < 2)) } }
    if declare then busDiverge s1 else s1
  else { s with arb := { s.arb with tdiff := Vector.replicate 4 none, ovr := 0 } }

/-! ## PEER_OK and HOLDOFF (R285, R288, R304, R307) -/

/-- A half runs apart from its publishing peer: D counts from the beat of the link loss (R285, R308, R309). -/
def enterSplit (h : Half) (s : State) : State :=
  let s1 := s.modHalf h (fun x => { x with role := .split })
  if (s.half h).divAt.isNone then s1.setDiv h (some ((s.half h).lossAt.getD (s.el0 h))) else s1

/-- A half that publishes after HOLDOFF; with the link lost its peer has a publishing peer now too, and both are in SPLIT (R285,
R304, R308, R309). -/
def joinPeer (h : Half) (s : State) : State :=
  let split := !(s.half h).linkUp && s.publishing h.peer
  let s1 :=
    if split then
      let a := enterSplit h s
      if (s.half h.peer).role == .peer && !(s.half h.peer).linkUp then enterSplit h.peer a else a
    else s.modHalf h (fun x => { x with role := .peer })
  s1.setEvt pgHalf evJoined

/-- 1,024 successive matching digests on both halves raise PEER_OK (R288). -/
def peerOkRise (s : State) : State :=
  if s.comparing && decide (1024 ≤ (s.half .A).matchRun) && decide (1024 ≤ (s.half .B).matchRun) &&
      !((s.half .A).peerOk && (s.half .B).peerOk) then
    let cold := (s.half .A).role == .solo && (s.half .B).role == .solo
    let after := (s.half .A).role == .verify || (s.half .B).role == .verify
    let s1 := allHalves.foldl (fun a h =>
      let a1 := (a.modHalf h (fun x =>
        { x with peerOk := true, holdBeats := if x.role = .verify then 0 else x.holdBeats, divTest := .none,
                 role := if x.role = .solo then .peer else if x.role = .verify then .holdoff else x.role })).setDiv h none
      if (a.half h).role = .verify ∧ s.fieldAt pgHalf 0x040 23 16 = 0 then joinPeer h a1 else a1) s
    (s1.evtIf after pgHalf evResyncDone).evtIf cold pgHalf evPaired
  else s

/-- HOLDOFF seconds have elapsed (R304). -/
def holdoffElapsed (h : Half) (s : State) : State :=
  let x := s.half h
  if s.halfOn h && x.role == .holdoff && decide (s.fieldAt pgHalf 0x040 23 16 * 1024 ≤ x.holdBeats) then joinPeer h s else s

/-! ## Self-tests and the resync order (R287, R300, R301) -/

/-- The power-up self-test ends (R285, R287, R314). -/
def powerupSelftest (h : Half) (pass : Bool) (s : State) : State :=
  let x := s.half h
  if s.gridOn h && !x.selftestDone then
    let s1 := s.modHalf h (fun y =>
      { y with selftestDone := true, selftestOk := pass && !y.failed, testRes := if pass then 1 else 2 })
    if pass then s1
    else (s1.setEvt pgHalf (evTestFail h)).testFailed (placeOf h) pgHalf
  else s

def DivTest.known : DivTest → Bool
  | .transient | .failed | .escalated => true
  | _ => false
def DivTest.lasting : DivTest → Bool
  | .failed | .escalated => true
  | _ => false

/-- The half of the order that loads, none where comparison is suspended, from the results of the higher and the lower
half (R301). -/
def loaderOf (hi lo : Half) (rh rl : DivTest) : Option Half :=
  match rh, rl with
  | .transient, .transient => some lo
  | .transient, .escalated => some lo
  | .escalated, .transient => some hi
  | _, _ => none

/-- The resync order at the first TD0 beat after both results (R300, R301, R313). -/
def resyncOrder (s : State) : State :=
  let a := s.half .A
  let b := s.half .B
  let known (h : Half) : Bool := !s.halfOn h || (s.half h).divTest.known
  if !(s.halfOn .A && s.halfOn .B) then
    (if known .A && known .B then
      allHalves.foldl (fun z h => z.modHalf h (fun x => { x with divTest := .none, divClaim := none })) s
     else s)
  else if a.divTest.known && b.divTest.known then
    let hi : Half := match winner ⟨a.divClaim, b.divClaim⟩ with
      | some h => h
      | none => .A
    let lo := hi.peer
    let tgt := loaderOf hi lo (s.half hi).divTest (s.half lo).divTest
    let linked := a.linkUp && b.linkUp
    let solo (r : Role) : Bool := r == .peer || r == .split || r == .verify || r == .holdoff || r == .loading
    let s1 := allHalves.foldl (fun z h =>
      let z1 := if tgt.isNone && (z.half h).role == .loading then restartHalf z h else z
      z1.modHalf h (fun x =>
        { x with divTest := .none, divClaim := none,
                 suspended := x.suspended || (tgt.isNone && x.divTest.lasting),
                 load := if tgt.isNone then none else x.load,
                 role := if tgt.isNone && solo x.role then .solo else x.role })) s
    match tgt with
    | some h =>
      let may (r : Role) : Bool := r == .solo || r == .peer || r == .loading || r == .holdoff
      if linked && may (s1.half h).role then
        (s1.modHalf h (fun x => { x with role := .loading, load := some {} })).evtIf ((s1.half h).role != .loading) pgHalf evResyncStart
      else s1
    | none => s1.evtIf (a.role == .holdoff || b.role == .holdoff) pgHalf evJoined
  else s

/-! ## Loading (R285, R302, R303) -/

/-- A half enters LOADING from a TD0 beat boundary of the peer and takes the peer's configuration and state (R302): one
that joins, one under a resync order, or one that holds a bound unbounded after a detection until it has reloaded
(06 R232, 08 R283; log entry 158). -/
def resyncStart (h : Half) (s : State) : State :=
  let x := s.half h
  let peer := s.gridOn h.peer && (s.half h.peer).publishes
  let fromTest := x.role == .test && x.selftestOk
  let again := x.role == .loading && (x.load.elim true (fun l => !l.started)) && x.divTest != .running
  let marred := (x.role == .peer || x.role == .solo) && allDoms.any (fun d => (s.dom h d).unb == 2) && x.divTest != .running
  if s.gridOn h && x.linkUp && peer && (fromTest || again || marred) then
    let s1 := s.modHalf h (fun y => { y with
      role := .loading, load := some { started := true }, peerOk := y.peerOk && !marred, matchRun := if marred then 0 else y.matchRun })
    let s2 := allDoms.foldl (fun a d => a.modDom h d (fun y => y.unbound 3)) s1
    s2.evtIf (x.role != .loading) pgHalf evResyncStart
  else s

/-- The peer's state for one of the following 32 boundaries arrives (R302). -/
def loadStateReceived (h : Half) (s : State) : State :=
  let x := s.half h
  match x.role, x.load with
  | .loading, some l =>
    if s.gridOn h && l.started && l.got < 32 then s.modHalf h (fun y => { y with load := some { l with got := l.got + 1 } })
    else s
  | _, _ => s

/-- Half `h`'s offset from its peer's grid as the formula of 04 R131 takes it, units of 2^-60: of the observations of RS31, the slope
against the half's own grid; a free value while there are fewer than two (R302; 05 R151; log entry 187). -/
def State.gridOffset (s : State) (h : Half) : Int :=
  let d := (s.slotDoms 31).headD 0
  let w := (s.sd h 31 d).window (s.dom h d).el 64
  let p : Rat := if w.length < 2 then (Config.gridOffset h.ix.val s.fresh : Rat) else unitsQ (slopeQ (w.map Obs.gridPt) / (10 ^ 12 : Nat))
  nearQ (rescaleQ 0 p)

/-- A domain as the loading half takes it from its peer: rates converted, histories with the half's own first
temperature reading, its own model for the grid in force, no Lath terms; its published levels are none yet (R302; 07 R255). -/
def loadDom (s : State) (h : Half) (y : Int) (x : DomSt) : DomSt :=
  let v := s.half h
  let o := v.lath.osc
  let m := s.model h o
  let temp := v.tempFor m (v.oscTemp o)
  let conv (e : HistEnt) : HistEnt :=
    { e with rate := rescale (openQ ((s.half h.peer).lath.convert e)) y, temp := temp, efc := v.efcCode, standby := o == .xo }
  let z := x.replaceRates y
  { z with
    secClean := x.secClean
    hist := x.hist.map conv, hist64 := x.hist64.map conv
    lathTerms := [], unb := 1, marred := false, bound := 0xFFFF, codes := Vector.replicate 6 0xFFFF, levels := Vector.replicate 6 {}
    hold := x.hold.map (fun k =>
      { k with rBase := rescaleQ k.rBase (y : Rat), thRef := (temp : Rat), aRef := ((s.age m : Int) : Rat), osc := o, thLast := temp,
               model := m, modelBad := v.tabBad o }) }

/-- A slot as the loading half takes it: its windows converted, and its own pulses to come (R302). -/
def slotLoaded (doms : Vector DomSt 4) (y : Int) (z : SlotSt) : SlotSt :=
  { z with pend := {}, pulse := Vector.replicate 4 none, nextSec := none
           dom := Vector.ofFn (fun d : Fin 4 => (z.dom.get d).convert (doms.get d) y) }

/-- At boundary k + 32 the loaded state comes into force, the configuration as the peer has it in force with it (R285, R302; 01 R24;
06 R193; 08 R272; 11 R371, R600). `temps` are the 1 s means of the half's sensors. -/
def loadInForce (h : Half) (temps : List Int) (s : State) : State :=
  let x := s.half h
  if s.gridOn h && x.role == .loading && (x.load.elim false (fun l => l.started && decide (32 ≤ l.got))) && s.gridOn h.peer then
    let s0 := s.takeTemps h temps
    let y := s0.gridOffset h
    let p := s0.half h.peer
    let s1 := s0.modHalf h (fun v =>
      { v with
        grid := p.grid * (1 + rateQ (y : Rat)), gphase := p.gphase
        doms := p.doms.map (loadDom s0 h y), late := p.late, early := p.early
        slots := setAt (p.slots.map (slotLoaded p.doms y)) 31 (v.slots.get 31)
        role := if s.suspended then .solo else .verify, load := none, matchRun := 0, digest := none
        resyncCnt := v.resyncCnt + 1 })
    let s2 : State := { s1 with fresh := s1.fresh + 1, jets := s1.jets.map (fun j => { j with bad := j.bad.set h (j.bad.of h.peer) }) }
    (allDoms.foldl (fun a d => if (a.dom h d).stepped then a.spiritBeat h d else a) s2).busNotes h
  else s

/-! ## The Ndofort link (R305, R306, R308, R309) -/

def heartbeatSend (h : Half) (s : State) : State :=
  if s.gridOn h then s.modHalf h (fun x => { x with hbSent := x.hbSent + 1 }) else s

/-- A valid heartbeat: one that did not arrive since the last breaks the run (R306). -/
def heartbeatReceived (h : Half) (s : State) : State :=
  let sent := (s.half h.peer).hbSent
  if s.gridOn h && s.halfOn h.peer then
    s.modHalf h (fun x => { x with hbGood := if x.hbAt + 1 < sent then 1 else satN 16 (x.hbGood + 1), hbAt := sent })
  else s

/-- What the loss of the link does to one half (R285, R303, R309; 08 R276). -/
def linkLostHalf (h : Half) (s : State) : State :=
  let x := s.half h
  let peerPub := s.publishing h.peer
  let first : Rat := ((s.fieldAt pgHalf 0x044 15 0 : Nat) : Rat) + flimQ (s.fieldAt pgHalf 0x048 9 0) * (1 / 1024) * psec
  let s1 := (s.modHalf h (fun y =>
    { y with linkUp := false, hbGood := 0, lossCnt := y.lossCnt + 1, splitBeats := 0, peerOk := false, matchRun := 0,
             lossAt := some (s.el0 h) })).count (cntHalf h 51) 3
  let s2 := (s1.modPend h 31 (fun p => { p with lost := p.lost || (s.slot h 31).st != 0, present := false }))
  let s3 := s2.fault (placeOf h) pgHalf kLink (kindSev kLink) (BitVec.ofNat 8 (2 + h.ix.val)) 0
  match x.role with
  | .peer =>
    if peerPub then
      allDoms.foldl (fun a d => a.promptRise h d first) (enterSplit h s3)
    else s3
  | .loading => (restartHalf s3 h).modHalf h (fun y => { y with role := .solo, load := none })
  | .verify => s3.modHalf h (fun y => { y with role := .solo, load := none })
  | _ => s3

/-- No valid heartbeat for 3 periods while the peer is powered and out of reset (R305). -/
def linkLost (s : State) : State :=
  if s.halfOn .A && s.halfOn .B && ((s.half .A).linkUp || (s.half .B).linkUp) then
    (linkLostHalf .B (linkLostHalf .A s)).setEvt pgHalf evLinkLost
  else s

/-- The link's return finds two timelines: both halves publish, one of them in SPLIT, or with a stepped domain
while comparison is not suspended (R306, R307; log entry 102). -/
def State.apart (s : State) : Bool :=
  let own (h : Half) : Bool := (s.half h).role == .split || (s.half h).role == .solo || (s.half h).role == .peer
  let old (h : Half) : Bool := (s.half h).role == .split || (!s.suspended && allDoms.any (fun d => (s.dom h d).stepped))
  own .A && own .B && (old .A || old .B)

/-- 16 successive valid heartbeats declare the link back; of two halves that run apart the one with the lower claim
loads, and a half in SPLIT that does not load is in SOLO. D goes on until PEER_OK rises (R285, R306, R309; 01 R34; 08 R271). -/
def linkUp (s : State) : State :=
  if s.halfOn .A && s.halfOn .B && !((s.half .A).linkUp && (s.half .B).linkUp) &&
      decide (16 ≤ (s.half .A).hbGood) && decide (16 ≤ (s.half .B).hbGood) then
    let hi := winner ⟨s.claimOf .A, s.claimOf .B⟩
    let s1 := allHalves.foldl (fun a h =>
      a.modHalf h (fun x =>
        { x with linkUp := true, splitBeats := 0, lossAt := none,
                 load := if s.apart && hi != some h then some {} else x.load,
                 role := if s.apart then (if hi = some h then .solo else .loading)
                         else if x.role = .split then .solo else x.role })) s
    (s1.setEvt pgHalf evLinkUp).evtIf s.apart pgHalf evResyncStart
  else s

/-! ## Detections (R315) -/

def halfDetection (det : Byte) (s : State) : State :=
  let d := det.toNat
  let h : Half := if d % 2 = 0 then .A else .B
  if d < 2 then (if s.halfOn h then stepDiverge (s.modHalf h (fun x => { x with mismatch := x.mismatch + 1 })) else s)
  else if d < 4 then linkLost s
  else if d < 6 then
    (if s.halfOn h then s.fault (placeOf h) pgHalf kCrc (kindSev kCrc) det (s.locFor pgHalf kCrc det) else s)
  else if d < 8 then claimParityError h s
  else if d = 8 then busDiverge { s with arb := { s.arb with diverged := true, within := 0 } }
  else s

def execDigestReceived (h : Half) (peerDigest : BitVec 64) (s : State) : Host.Outcome State Fault Refusal := .next (digestReceived h peerDigest s)
def execResyncOrder (s : State) : Host.Outcome State Fault Refusal := .next (resyncOrder s)
def execPeerOkRise (s : State) : Host.Outcome State Fault Refusal := .next (peerOkRise s)
def execPowerupSelftest (h : Half) (pass : Bool) (s : State) : Host.Outcome State Fault Refusal := .next (powerupSelftest h pass s)
def execResyncStart (h : Half) (s : State) : Host.Outcome State Fault Refusal := .next (resyncStart h s)
def execLoadStateReceived (h : Half) (s : State) : Host.Outcome State Fault Refusal := .next (loadStateReceived h s)
/-- The readings of the external thermometer, the half's own die and the common die are taken by sensor number (07 R241, R245). -/
def execLoadInForce (h : Half) (ext : Int) (die common : Vector Int 6) (s : State) : Host.Outcome State Fault Refusal :=
  .next (loadInForce h (ext :: (die.toList ++ common.toList)) s)
def execHoldoffElapsed (h : Half) (s : State) : Host.Outcome State Fault Refusal := .next (holdoffElapsed h s)
def execHeartbeatSend (h : Half) (s : State) : Host.Outcome State Fault Refusal := .next (heartbeatSend h s)
def execHeartbeatReceived (h : Half) (s : State) : Host.Outcome State Fault Refusal := .next (heartbeatReceived h s)
def execLinkLost (s : State) : Host.Outcome State Fault Refusal := .next (linkLost s)
def execLinkUp (s : State) : Host.Outcome State Fault Refusal := .next (linkUp s)
def execHalfDetection (det : Byte) (s : State) : Host.Outcome State Fault Refusal := .next (halfDetection det s)

end Sys2Proof.Machine
end

