-- ==== Sys2Proof/Machine/Beats.lean ====
section
/-!
DEFINITION. The passing of common time, and what a half does at a beat boundary of one of its domains.
-/

namespace Sys2Proof.Machine

/-! ## Time (06 R191, R192; 04 R116; 19 R588) -/

/-- A half over a number of its CLK_CORE edges: its domains advance, its cycle index counts, and its time goes on (06 R191;
04 R114). -/
def HalfSt.edges (x : HalfSt) (n : Nat) : HalfSt :=
  { x with doms := x.doms.map (fun y => { y with t := y.t + n * tickT y.rate })
           edge := x.edge + BitVec.ofNat 5 n, up := x.up + n * tickT (x.doms.get 0).rate }

/-- A half over `n` nominal cycles of common time (log entry 4). -/
def HalfSt.advance (x : HalfSt) (n : Nat) : HalfSt :=
  let total := x.gphase + (n : Rat) * x.grid
  let k := total.floor
  { (x.edges k.toNat) with gphase := total - (k : Rat) }

/-- A half whose grid has a source and whose Lath has not reached lock: its cycle index counts from the grid's first lock on
(04 R114, R120). -/
def HalfSt.preLock (x : HalfSt) (n : Nat) : HalfSt :=
  let total := x.gphase + (n : Rat) * x.grid
  { x with edge := x.edge + BitVec.ofNat 5 total.floor.toNat, gphase := total - (total.floor : Rat) }

/-- Milondino samples the temperature sensors, each ms (18 R575): those of a half die and of its oscillator while the half is on.
What a sensor reads is free. -/
def sampleSensors (ms : Nat) (s : State) : State :=
  if s.mgt.running then
    let read (k : Nat) : Int := (Config.sensorTemp k ms).toInt
    let die (h : Half) (base : Nat) (old : Vector Int 6) : Vector Int 6 :=
      if s.halfOn h then Vector.ofFn (fun i => read (base + i.val)) else old
    let ots (h : Half) (k : Nat) : Int := if s.halfOn h then read k else s.mgt.ots.of h
    { s with mgt := { s.mgt with tempA := die .A 0 s.mgt.tempA, tempB := die .B 6 s.mgt.tempB
                                 tempC := Vector.ofFn (fun i => read (12 + i.val)), ots := ⟨ots .A 24, ots .B 25⟩ } }
  else s

/-- `n` cycles of CLK_CORE pass: domains, the RTC, the counters' time base, and the samples of a ms that ends. -/
def advance (n : Nat) (s : State) : State :=
  let s1 := allHalves.foldl (fun a h =>
    if a.gridOn h then a.modHalf h (fun x => x.advance n)
    else if a.halfOn h && (a.lath h).src != 0 then a.modHalf h (fun x => x.preLock n) else a) s
  let rt := s1.pwr.rtcFrac + n
  let s2 := { s1 with
    now := s1.now + n
    pwr := { s1.pwr with rtcFrac := rt % 800000000, rtcSec := s1.pwr.rtcSec + BitVec.ofNat 32 (rt / 800000000) } }
  if s2.pwr.state = .standby then s2
  else
    let f := s2.cnt.frac + n
    let s3 := ({ s2 with cnt := { s2.cnt with frac := f % 800 } }).count 684 (f / 800)
    if s.now / 800000 < s3.now / 800000 then sampleSensors (s3.now / 800000) s3 else s3

/-- Cycles of common time until a half has made `m` more edges. -/
def HalfSt.cyclesFor (x : HalfSt) (m : Nat) : Nat :=
  if x.grid ≤ 0 then m else (ceilQ (((m : Rat) - x.gphase) / x.grid)).toNat

/-- Cycles until a domain's next boundary; 0 when it has been reached already. -/
def State.cyclesToBeat (s : State) (h : Half) (d : Dom) : Nat :=
  let x := s.dom h d
  let target := (x.done + 1) * beatT
  if target ≤ x.t then 0
  else
    let step := tickT x.rate
    if step = 0 then 0 else (s.half h).cyclesFor ((target - x.t + step - 1) / step)

/-! ## Configuration that comes into force (02 R55 to R57, 01 R22) -/

/-- What a page's registers that act when they come into force do, with the words that came into force (04 R139,
08 R275, 09 R311); their bits then read 0. -/
def applied (pg : Nat) (ws : KMap Word) (s : State) : State :=
  let w (off : Nat) : Word := look (fun _ => 0) ws off
  let listed (off : Nat) : Bool := ws.any (fun e => e.1 == off)
  match pageKind pg with
  | some .lath =>
    let c := w 0x050
    let s1 := if listed 0x050 then s.setReg pg 0x050 0 else s
    let s2 := if bit c 0 then lathReturnCmd .A s1 else s1
    if bit c 1 then lathReturnCmd .B s2 else s2
  | some .half =>
    let c := w 0x04C
    let s1 := if listed 0x04C then s.setReg pg 0x04C 0 else s
    let s2 := if bit c 0 then halfResetCmd .A s1 else s1
    if bit c 1 then halfResetCmd .B s2 else s2
  | some .sl =>
    let c := w 0x044
    let s1 := if listed 0x044 then s.setReg pg 0x044 0 else s
    slPdsClr (c.extractLsb' 0 4) s1
  | _ => s

/-- A page's boundary at beat `n` of a domain of the half it is decided with, with what its words do on coming into force (01 R22;
02 R55 to R57). -/
def applyPage (h : Half) (d : Dom) (n pg : Nat) (s : State) : State :=
  if forwarded pg then commitSet h d n pg s
  else
    let ws := (s.page pg).dueWords
    applied pg ws (boundary s pg)

/-- Beat `n` of a domain on this half decides what comes into force: the half that the arbiters follow, the survivor once that one
is lost, and with none followed the first half to reach the beat (01 R43; 02 R57; log entry 17). -/
def State.decides (s : State) (h : Half) (d : Dom) (n : Nat) : Bool :=
  s.busHalf == some h || (s.shows h && !(s.gridOn h.peer && (s.dom h.peer d).done == n))

/-- The half that the arbiters follow has this beat yet to come: configuration due then is captured for it already. -/
def State.ahead (s : State) (d : Dom) (n : Nat) : Bool :=
  match s.busHalf with
  | some k => s.gridOn k && (s.dom k d).done + 1 == n
  | none => false

/-- Configuration at beat `n` of a domain of one half: the sets tagged with it, and those decided now (R56, R57). -/
def takeConfig (h : Half) (d : Dom) (n : Nat) (s : State) : State :=
  let s1 := takeLate h d (some n) s
  if s1.decides h d n then (s1.beatPages d).foldl (fun a pg => applyPage h d n pg a) s1
  else if s1.ahead d n then (s1.beatPages d).foldl (fun a pg => takeEarly h d n pg a) s1
  else s1

/-! ## A half at a boundary -/

/-- The domain's own bookkeeping of a beat. -/
def DomSt.count (y : DomSt) : DomSt :=
  { y with done := y.done + 1, nb := y.nb + 1, acc := y.acc + y.rate, rates := (y.rate :: y.rates).take 65536,
           stateBeats := y.stateBeats + 1, stepBeat := false, resetBeat := false,
           secClean := y.secClean && y.st == 2 }

/-- The domain's work at its boundary (06 R199): slots, selection, Confluence, HOLD_READY, host modes, dwells, Trowel and
transitions, loop input, Cistern terms, Spirit Level. -/
def domainBeat (h : Half) (d : Dom) (s : State) : State :=
  let weir := (s.dom h d).wSlope || (s.dom h d).wExc
  let s1 := s.modDom h d DomSt.count
  let s2 := if weir then s1.count (cntHalf h (8 + d.val)) 1 else s1
  let coat := (s.dom h d).coat
  let s3 := slotsBoundary h d s2
  let s4 := ((s3.modesBeat h d).readyBeat h d)
  let s5 := ((s4.selectBeat h d).memberBeat h d).estimateBeat h d
  let s6 := (s5.sampleInput h d).dwellBeat h d
  let s7 := ((s6.trowelBeat h d).targetBeat h d).modDom h d (fun y => { y with dwellDone := false, adopted := false })
  let s8 := s7.retune h d ((s7.dom h d).coat != coat)
  ((s8.reportTerms h d).spiritBeat h d).clearFresh h d

/-- What a half does at a TD0 beat besides: EFC, XO measurement, timers, digest. -/
def td0Beat (h : Half) (xoPhase : Int) (s : State) : State :=
  let s1 := xoBeat h xoPhase (s.efcBeat h)
  let s2 := s1.modHalf h (fun x =>
    { x with holdBeats := if x.role = .holdoff then x.holdBeats + 1 else x.holdBeats,
             splitBeats := if x.lossAt.isSome then x.splitBeats + 1 else 0 })
  digestBeat h s2

/-- A beat at which a time reference steers the domain (14 R437). -/
def State.noteRef (s : State) (h : Half) (d : Dom) : State :=
  s.modDom h d (fun y => { y with refSince := y.refSince || s.timeRef h d })

/-- A half's own work at a beat, under its own configuration; at a TD0 beat its bus takes the codes of every domain (01 R26; 06 R199;
08 R264). -/
def beatWork (h : Half) (d : Dom) (xoPhase : Int) (s : State) : State :=
  let s1 := (domainBeat h d s).noteRef h d
  if d = 0 then td0Beat h xoPhase ((s1.busNotes h).noteClaim h) else s1

/-- The arbiter's work at a TD0 beat of the half it follows: the additions of a switch end, and each hold that is over
(08 R279; 09 R294, R296). -/
def arbiterBeat (h : Half) (s : State) : State :=
  compareBuses { s with arb := { s.arb with
    add := Vector.replicate 4 0
    last := Vector.ofFn (fun k : Fin 4 => match s.arb.last.get k with
      | some t => if (s.half h).timeOf k ≤ t then some t else none
      | none => none) } }

/-- A half reaches a beat boundary of a domain: time advances to it, configuration comes into force, and the half's and the
arbiter's work of the beat is done (02 R57; 06 R199, R227). -/
def halfBeat (h : Half) (d : Dom) (xoPhase : Int) (s : State) : State :=
  if s.gridOn h then
    let s1 := advance (s.cyclesToBeat h d) s
    let s2 := takeConfig h d ((s1.dom h d).done + 1) s1
    if s2.gridOn h then
      let s3 := s2.inView h (beatWork h d xoPhase)
      let s4 := if s3.shows h && s3.busHalf.isSome then s3.rateSetDone h d else s3
      if s4.busHalf = some h ∧ d = 0 then arbiterBeat h s4 else s4
    else s2
  else s

end Sys2Proof.Machine
end

