-- ==== Sys2Proof/Machine/Boundaries.lean ====
section
/-!
DEFINITION. Beat boundaries and packet boundaries with what the common die does at them, frames received and sent, and
RATE_SET.
-/

namespace Sys2Proof.Machine

/-! ## Configuration of the PTP engine and the Fountain (02 R55, 13 R410) -/

/-- PTP_CMD as it comes into force: CANCEL acts and reads 0 (13 R410). -/
def ptpCommand (s : State) : State :=
  let w := s.reg pgPtp 0x070
  if bit w 31 then ptpCancel (bits w 16 0) (s.setReg pgPtp 0x070 (w &&& 0x1FFFF)) else s

/-- Words of the two pages that every port has taken are in force. -/
def commitServing (s : State) : State := ptpCommand ((s.settleServe pgPtp).settleServe pgFtn)

/-- A port's packet boundary (02 R55, 12 R373, 13 R397). -/
def packetBoundary (p : PortNo) (s : State) : State :=
  let s1 := portBoundary p s
  let s2 := commitServing ((s1.portPasses p pgPtp).portPasses p pgFtn)
  settleFtn (serveBoundary p (saRefresh s2))

/-! ## Beats (06 R199; 10 R344; 11 R355, R357; 12 R388; 13 R398; 14 R439) -/

/-- The work of the common die at a beat of the half that the bus carries; `moved` is the step the domain has made. The hardware's leap
update comes before the host's words (14 R463). -/
def commonBeat (h : Half) (d : Dom) (moved : Option (Int × Bool)) (s : State) : State :=
  let s1 := jetsBeat h d moved s
  let s2 := if d = 0 then saRefresh (commitServing (leapBeat (allPorts.foldl (fun a p => qlBeat p a) (jetsTd0 s1)))) else s1
  let s3 := allLanes.foldl (fun a n => calMark d n a) s2
  ftnBeat h d (ptpBuild d s3)

/-- A half reaches a beat boundary of a domain. -/
def beatBoundary (h : Half) (d : Dom) (xoPhase : Int) (s : State) : State :=
  if !s.gridOn h then s
  else if s.busHalf = some h then
    let off := (s.dom h d).off
    let s1 := halfBeat h d xoPhase (clientsBeat d s)
    if s1.busHalf = some h && s1.gridOn h then
      let y := s1.dom h d
      let tells := y.stepBeat && !(s1.arb.seen.get d)
      commonBeat h d (if tells then some (((y.off : Nat) : Int) - (off : Int), false) else none)
        { s1 with arb := { s1.arb with seen := setAt s1.arb.seen d (s1.arb.seen.get d || y.stepBeat) } }
    else s1
  else halfBeat h d xoPhase s

/-- RATE_SET (15 R481, 06 R226 to R228). -/
def opRateSet (r : RateWrite) (s : State) : State :=
  match dispatchable s r.tag 0x21 with
  | none => s
  | some o => rateSetDispatch o r.tag r.late (s.served o)

/-! ## Frames (12 R375, R378, R380, R381) -/

/-- Frame and path as the MAC takes them: lengths of R375, RS-FEC codewords since the frame before, and on 100GBASE-R4 the skew of the
lane that delivered the point (10 R320; R391; 19 R588; log entries 209, 219). -/
def State.rxLane (s : State) (p : PortNo) (a : PathAB) (f : RxFrame) : State :=
  let n := s.refLane p a
  let s1 := if s.speed p = 3 ∧ f.pt.lane ≠ 0 then
      s.modLane (Fin.ofNat 16 (n.val + f.pt.lane.val)) (fun y => { y with skew := BitVec.ofInt 32 f.pt.skew })
    else s
  if (s.lane n).fec then
    let s2 := (s1.count (cntLane n 0) f.corr).count (cntLane n 1) f.uncorr
    (s2.modLane n (fun y => { y with corr := y.corr + BitVec.ofNat 16 f.corr, uncorr := y.uncorr + BitVec.ofNat 16 f.uncorr })).evtIf
      (decide (0 < f.uncorr)) (pgLane n) evFecUncorr
  else s1

/-- The MAC drops a frame: a bad FCS, or a length that it does not accept (R375). -/
def State.macDrops (s : State) (p : PortNo) (f : RxFrame) : Bool :=
  !f.fcsOk || decide (f.bytes.length + 4 < 64) || decide ((if s.bitAt (pgLp p) 0x040 16 then 9216 else 1522) < f.bytes.length + 4)

/-- A frame is consumed by an engine, or is for the host (R378, R389). -/
def frameIn (p : PortNo) (a : PathAB) (f : RxFrame) (entry : Option RingEntry) (s : State) : State :=
  let g := parseFrame f.bytes
  let s1 := s.countFrame p false (f.bytes.length + 4)
  match g.kind with
  | .macControl => s1.count (cntPort p 7) 1
  | .esmc => s1.count (cntPort p 11) 1
  | .ptp m =>
    let typ := octAt m 0 % 16
    if s.ptpConsumes p typ (ptpHead g.vlan m) then
      (if typ = 0 then noteSync p a g m f.pt s1 else if typ = 0xC then signalingIn p g m s1 else s1).count (cntPort p 9) 1
    else toHost p a f g.dst entry s
  | .ntp mode is6 dst =>
    if s.fnConsumes p a && s.fnAddressed p g.vlan is6 dst mode then s1.count (cntPort p 10) 1 else toHost p a f g.dst entry s
  | .other => toHost p a f g.dst entry s

/-- A frame received on a path, of any kind: the partner is heard (R381), and the frame is dropped by the MAC or goes on. -/
def frameReceived (p : PortNo) (a : PathAB) (f : RxFrame) (entry : Option RingEntry) (s : State) : State :=
  if !s.pathUp p a || !(s.path p a).link then s
  else
    let s1 := ((s.rxLane p a f).modPath p a (fun y => { y with partner := true })).settlePath p a
    if s.macDrops p f then s1.count (cntPort p 6) 1 else frameIn p a f entry s1

/-- Frames of class 0, and of class 1, that wait for a path and can leave it (R376): the oldest of each kind, and a due event PDU. -/
def State.class0Waits (s : State) (p : PortNo) (a : PathAB) : Bool :=
  (a == s.activePath p && ((s.port p).msgs.head?).any (fun m => s.ptpPathOk p a m)) || ((s.path p a).eventDue && s.esmcMay p a)
def State.class1Waits (s : State) (p : PortNo) (a : PathAB) : Bool :=
  a == s.activePath p && !(s.port p).ntp.isEmpty && s.ntpPathOk p a

/-- A frame leaves a path: no frame of a lower class while one of a higher class waits (10 R321, 12 R376 to R383). Only a host frame
can be discarded by its own entry (12 R377). -/
def frameTransmitted (p : PortNo) (a : PathAB) (k : TxKind) (sub fec : Nat) (discarded : Bool) (s : State) : State :=
  match k with
  | .host i => if !discarded && (s.class0Waits p a || s.class1Waits p a) then s else hostLeaves p a i sub fec discarded s
  | .ptp => ptpLeaves p a sub fec s
  | .ntp => if s.class0Waits p a then s else ntpLeaves p a sub fec s
  | .esmc => sendEvent p a s

def execPacketBoundary (p : PortNo) (s : State) : Host.Outcome State Fault Refusal := .next (packetBoundary p s)
def execBeatBoundary (h : Half) (d : Dom) (xoPhase : Int) (s : State) : Host.Outcome State Fault Refusal :=
  .next (beatBoundary h d xoPhase s)
def execRateSet (r : RateWrite) (s : State) : Host.Outcome State Fault Refusal := .next (opRateSet r s)
def execFrameReceived (p : PortNo) (path : PathAB) (f : RxFrame) (entry : Option RingEntry) (s : State) :
    Host.Outcome State Fault Refusal := .next (frameReceived p path f entry s)
def execFrameTransmitted (p : PortNo) (path : PathAB) (k : TxKind) (sub fec : Nat) (discarded : Bool) (s : State) :
    Host.Outcome State Fault Refusal := .next (frameTransmitted p path k sub fec discarded s)

end Sys2Proof.Machine
end

