-- ==== Sys2Proof/Machine/Mgmt.lean ====
section
/-!
DEFINITION. Milondino: mailboxes, policies, updates, lifecycle, restart, event log writes and rails (18).
-/

namespace Sys2Proof.Machine

/-! ## Event log ring (R577, R580) -/

/-- Append records to the ring in the Belrex store. -/
def ringAppend (s : State) (rs : List LogRec) : State := rs.foldl State.storeRec s

/-- The 64 bits of a fault message (17 R530). -/
def msgBits (src kind sev det loc seq : Nat) : Nat :=
  src * 2 ^ 54 + kind * 2 ^ 48 + sev * 2 ^ 46 + det * 2 ^ 38 + loc * 2 ^ 14 + seq

/-- A queued record is written; drops are told first, by a FAULT record of kind OVERFLOW with their count (R580). No collector has
accepted that message, and its SEQ reads 0 (log entry 229). -/
def logRecordWrite (s : State) : State :=
  match s.mgt.logQ with
  | [] => s
  | r :: rest =>
    if !s.mgt.running then s
    else
      let ovr : List LogRec :=
        if s.mgt.logDropped = 0 then []
        else [{ r with typ := 0x0001, injected := false
                       data := BitVec.ofNat 64 (msgBits pgMgt kOverflow sevWarning (Config.detectorOf pgMgt kOverflow).toNat
                         (s.mgt.logDropped % 2 ^ 16) 0) }]
      ringAppend { s with mgt := { s.mgt with logQ := rest, logDropped := 0, wdogOnce := false } } (ovr ++ [r])

/-! ## Transports (R565 to R569) -/

/-- A privileged command is accepted from the management Ethernet, from SMBus with SMB_PRIV, and from the
administrator's mailbox (R565). -/
def privileged (s : State) : Transport → Bool
  | .part p => s.mgt.admin == some p
  | .smbus => s.mgt.smbPriv
  | .eth => true

def transportCode : Transport → Nat
  | .part _ => 0
  | .smbus => 1
  | .eth => 2

def mbOk : Nat := 0
def mbUnknown : Nat := 1
def mbDenied : Nat := 2
def mbBadLength : Nat := 3
def mbBadState : Nat := 4
def mbBadImage : Nat := 5
def mbRollback : Nat := 6
def mbRestarted : Nat := 7

def commands : List Nat :=
  [0x01, 0x02, 0x03, 0x10, 0x11, 0x12, 0x13, 0x20, 0x21, 0x22, 0x23, 0x24, 0x30, 0x31]

def removeReq (l : List MbxReq) (src : Transport) : List MbxReq :=
  match findIx (fun r => r.src == src) l with
  | none => l
  | some (i, _) => l.eraseIdx i

/-- The key slot of the management Ethernet, MGT_ETH.KEY (R567). -/
def ethKey (s : State) : KeyNo := Fin.ofNat 64 (s.fieldAt pgMgt 0x104 5 0)

/-- The slot permits HMAC and belongs to management alone, and its material may be used (R567). -/
def ethKeyOk (s : State) : Bool :=
  let k := s.slotKey (ethKey s)
  s.keyUsable (ethKey s) && attrHmac k.curBank.attr && attrOwner k.curBank.attr == 4

/-- The ICV of the management Ethernet: HMAC-SHA256-128 over the sequence number and the message (R567). -/
def ethIcv (s : State) (seq : BitVec 64) (body : List Byte) : BitVec 128 :=
  Config.hmac256 ((s.slotKey (ethKey s)).cur.getD []) (beBytes 8 seq.toNat ++ body)

/-- An answer on the management Ethernet: to the MAC that asked, under a sequence number of its own (R567). Its payload of `n`
octets is free; without a usable key none is sent (log entries 58, 225). -/
def ethAnswer (dst : BitVec 48) (cmd : Nat) (tag : BitVec 16) (status n : Nat) (s : State) : State :=
  if ethKeyOk s then
    let body := beBytes 2 cmd ++ beBytes 2 n ++ beBytes 2 tag.toNat ++ beBytes 2 status ++
      (List.range n).map (fun i => BitVec.ofNat 8 (Config.free (s.fresh + i)))
    let seq := s.mgt.ethTx
    { s with fresh := s.fresh + n, mgt := { s.mgt with ethTx := seq + 1 } }.emit (.ethAnswer dst seq body (ethIcv s seq body))
  else s

/-- Answer a request on its transport (R567): in a partition mailbox the answer replaces the request, DONE and
MBX_DONE are set; on SMBus the alert is asserted, and on the management Ethernet a frame leaves. The layout of an answer's payload
is not stated: those words are free. -/
def answer (src : Transport) (cmd : Nat) (tag : BitVec 16) (status : Nat) (vals : List Nat) (s : State) : State :=
  let mac := ((s.mgt.held.find? (fun r => r.src == src)).map (fun r => r.mac)).getD 0
  let s1 := { s with mgt := { s.mgt with held := removeReq s.mgt.held src, wdogOnce := false } }
  let s2 := s1.emit (.mailbox src cmd tag status vals)
  let s3 := match src with
    | .part p =>
      let len := if vals.isEmpty then 0 else 4 + Config.free s2.fresh % 245
      let a := (s2.setReg (pgHp p) 0x500 (fld cmd 0 ||| fld len 16)).setReg (pgHp p) 0x504 (fld tag.toNat 0 ||| fld status 16)
      let b := if vals.isEmpty then a
        else (List.range 62).foldl (fun x i => x.setReg (pgHp p) (0x508 + 4 * i) (BitVec.ofNat 32 (Config.free (s2.fresh + 1 + i)))) a
      ({ b with fresh := s2.fresh + 63 }.modPart p (fun x => { x with mbxDone := true })).setEvt (pgHp p) evMbxDone
    | .smbus => { s2 with mgt := { s2.mgt with smbAlert := true } }
    | .eth =>
      let pr := s2.draw 245
      ethAnswer mac cmd tag status (if vals.isEmpty then 0 else 4 + pr.1) pr.2
  s3.logRec 0x0009 (cmd + 2 ^ 16 * status + 2 ^ 32 * transportCode src)

/-- Requests with an unlisted command at the head of the order of arrival are answered UNKNOWN. -/
def drainUnknown : Nat → State → State
  | 0, s => s
  | n + 1, s =>
    match s.mgt.held with
    | [] => s
    | r :: _ =>
      if commands.contains r.cmd || !s.mgt.running then s
      else drainUnknown n (answer r.src r.cmd r.tag mbUnknown [] s)

/-- The held request that a command row answers: the first to arrive; an SMBus request arrives with the row itself. -/
def reqFront (s : State) (src : Transport) (cmd : Nat) (tag : BitVec 16) : Option MbxReq :=
  match s.mgt.held with
  | [] => if src = .smbus then some { src := .smbus, cmd := cmd, tag := tag, len := 0 } else none
  | r :: _ =>
    if r.src == src && r.cmd == cmd && r.tag == tag then some r
    else if src = .smbus ∧ s.mgt.image = .recovery then some { src := .smbus, cmd := cmd, tag := tag, len := 0 }
    else none

/-- An SMBus request that arrives while others are held waits behind them; one that meets a held SMBus request is NACKed (R566). -/
def smbWait (cmd : Nat) (tag : BitVec 16) (s : State) : State :=
  if s.mgt.running && !s.mgt.held.any (fun r => r.src == .smbus) then
    { s with mgt := { s.mgt with held := s.mgt.held ++ [{ src := .smbus, cmd := cmd, tag := tag, len := 0 }] } }
  else s

/-- LENGTH fits the command: at most 248, and 0 where the command carries nothing (R565, R568, R570). -/
def lengthOk (cmd len : Nat) : Bool :=
  if [0x01, 0x02, 0x03, 0x11, 0x12, 0x13, 0x22, 0x23, 0x24, 0x31].contains cmd then len == 0 else decide (len ≤ 248)

/-- Carry out a mailbox command: `body` gives the state, STATUS and values answered, `after` what follows the answer.
In recovery only SMBus answers, and only update commands, without the rule of R565 (R561). -/
def mailbox (src : Transport) (cmd : Nat) (tag : BitVec 16) (priv : Bool) (body : State → State × Nat × List Nat)
    (after : State → State := id) (s : State) : State :=
  match reqFront s src cmd tag with
  | none => if src = .smbus then smbWait cmd tag s else s
  | some r =>
    let recov := s.mgt.image == .recovery
    let upd := decide (0x20 ≤ cmd) && decide (cmd ≤ 0x22)
    if !recov && !s.mgt.running then s
    else if recov && !(src == .smbus && upd) then s
    else if !lengthOk cmd r.len then drainUnknown 8 (answer src cmd tag mbBadLength [] s)
    else if priv && !recov && !privileged s src then drainUnknown 8 (answer src cmd tag mbDenied [] s)
    else
      let pr := body s
      let s1 := pr.1
      let st := pr.2.1
      let vals := pr.2.2
      let s2 := drainUnknown 8 (answer src cmd tag st vals s1)
      if st = mbOk then after s2 else s2

/-- A write of 1 to MBX_CTL.GO (R566, R567): ignored while the mailbox holds a request. -/
def doMbxGo (s : State) (p : Part) : State :=
  if s.mgt.held.any (fun r => r.src == .part p) then s
  else
    let w0 := s.reg (pgHp p) 0x500
    let w1 := s.reg (pgHp p) 0x504
    let r : MbxReq := { src := .part p, cmd := bits w0 15 0, tag := BitVec.ofNat 16 (bits w1 15 0), len := bits w0 31 16 }
    let s1 := (s.modPart p (fun x => { x with mbxDone := false })).count (cntPart p 12) 1
    drainUnknown 1 { s1 with mgt := { s1.mgt with held := s1.mgt.held ++ [r] } }

/-- A frame on the management Ethernet (R566, R567): dropped and counted on a bad ICV, a sequence number not above
the last, or a request already held. -/
def mgtEthFrame (srcMac : BitVec 48) (seq : BitVec 64) (body : List Byte) (icv : BitVec 128) (s : State) : State :=
  let good := ethKeyOk s && icv == ethIcv s seq body &&
    (match s.mgt.ethSeq with | some q => decide (q.toNat < seq.toNat) | none => true)
  if !s.mgt.running then s
  else if good then
    let s1 := { s with mgt := { s.mgt with ethSeq := some seq } }
    if s1.mgt.held.any (fun r => r.src == .eth) then { s1 with mgt := { s1.mgt with ethDrop := s1.mgt.ethDrop + 1 } }
    else
      let r : MbxReq := { src := .eth, cmd := ofBe (body.take 2), tag := BitVec.ofNat 16 (ofBe ((body.drop 4).take 2)),
                          len := ofBe ((body.drop 2).take 2), mac := srcMac }
      drainUnknown 1 { s1 with mgt := { s1.mgt with held := s1.mgt.held ++ [r] } }
  else { s with mgt := { s.mgt with ethDrop := s.mgt.ethDrop + 1 } }

/-- A Milondino restart (17 R549, R569, R580, R571): held requests are answered RESTARTED, the update session and
the record queue are lost, and the first record after it is of type MGMT with command 0x0013. -/
def restartMgt (lockstep : Bool) (s : State) : State :=
  let s1 := s.mgt.held.foldl (fun a r => answer r.src r.cmd r.tag mbRestarted [] a) s
  let m := s1.mgt
  let s2 : State := { s1 with
    mgt := { m with restarts := m.restarts + 1, lockstepRun := if lockstep then m.lockstepRun + 1 else 0,
                    wdogOnce := false, session := none, nonce := none, decom := none, logQ := [], logDropped := 0 }
    flt := { s1.flt with nmiHeld := false } }
  (s2.logRec 0x0009 0x0013).setEvt pgMgt evRestart

/-! ## Commands (R570 to R574) -/

/-- Words that GET_INFO answers with. -/
def infoVals (s : State) : List Nat :=
  [Config.serial.toNat, s.mgt.version.toNat, s.mgt.svn, s.keys.fuse.rollback, s.lifecycle,
   (if s.mgt.bootCtl.preferB then 1 else 0), (if s.mgt.bootCtl.trial then 1 else 0), s.mgt.bootCtl.tries]

/-- Values that GET_SENSORS answers with, temperatures as 16-bit two's complement. -/
def sensorVals (s : State) : List Nat :=
  (s.mgt.tempA.toList ++ s.mgt.tempB.toList ++ s.mgt.tempC.toList ++ [s.mgt.ots.a, s.mgt.ots.b]).map (fun t => (t % 65536).toNat) ++
  s.mgt.rails.toList ++ [s.pwr.feeds.a.mv, s.pwr.feeds.b.mv]

def nonceOf (s : State) : List Byte := (List.range 32).map (fun i => BitVec.ofNat 8 (Config.free (s.fresh + i)))

def doPolicy (r : PolicyRec) (s : State) : State :=
  let s1 := match r with
    | .partition pages keys admin smb =>
      applyOwners { s with mgt := { s.mgt with policy := some ⟨pages, keys, admin, smb⟩ } }
    | .startup tr ini => { s with mgt := { s.mgt with startup := some ⟨tr, ini⟩ } }
    | .tamper cfg =>
      { s with
        mgt := { s.mgt with tamperRec := some (cfg &&& 0x0F03FFFF) }
        keys := { s.keys with tampCfg := cfg &&& 0x0F03FFFF } }
  (s1.setEvt pgMgt evPolicy).count 681 1

/-- Lifecycle change (16 R501, R526; 18 R574): key operations end with TAMPER, every slot is zeroised, then the fuse
is blown. -/
def lifecycleTo (n : Nat) (s : State) : State :=
  let s1 := s.abortOps (fun o => o.isKey || o.isMint) stTamper
  let s2 := allKeys.foldl zeroiseSlot s1
  { s2 with keys := { s2.keys with fuse := { s2.keys.fuse with lifecycle := n } } }

def eraseRegion (r : Bool) (f : KMap Byte) : KMap Byte :=
  f.filter (fun e => decide (e.1 < regionBase r) || decide (regionBase r + 0x80000 ≤ e.1))

def updateBegin (bodyLen : Nat) (s : State) : State × Nat × List Nat :=
  if s.mgt.session.isSome then (s, mbBadState, [])
  else if bodyLen < 4096 ∨ 393216 < bodyLen then (s, mbBadLength, [])
  else
    let r := s.mgt.image == .regionA
    ({ s with mgt := { s.mgt with session := some ⟨r, bodyLen⟩, flash := eraseRegion r s.mgt.flash } }, mbOk, [])

def updateData (offset : Nat) (data : List Byte) (s : State) : State × Nat × List Nat :=
  match s.mgt.session with
  | none => (s, mbBadState, [])
  | some u =>
    if 240 < data.length then (s, mbBadLength, [])
    else if offset + data.length ≤ 512 ∨ (4096 ≤ offset ∧ offset + data.length ≤ 4096 + u.bodyLen) then
      let f := (List.range data.length).foldl (fun m i =>
        put flashReset m (regionBase u.regionB + offset + i) (data.getD i 0xFF)) s.mgt.flash
      ({ s with mgt := { s.mgt with flash := f } }, mbOk, [])
    else (s, mbBadState, [])

def updateEnd (s : State) : State × Nat × List Nat :=
  match s.mgt.session with
  | none => (s, mbBadState, [])
  | some u =>
    if !imageGood s u.regionB then (s, mbBadImage, [])
    else if imgSvn s u.regionB < s.keys.fuse.rollback then (s, mbRollback, [])
    else
      let s1 : State := { s with mgt := { s.mgt with
        bootCtl := { preferB := u.regionB, trial := true, tries := 3 }, session := none } }
      ((s1.setEvt pgMgt evUpdateReady).count 681 1, mbOk, [])

def confirmImage (s : State) : State × Nat × List Nat :=
  if s.mgt.trialImage then
    let s1 : State := { s with mgt := { s.mgt with bootCtl := { s.mgt.bootCtl with trial := false }, trialImage := false } }
    (s1.count 681 1, mbOk, [])
  else (s, mbBadState, [])

def svnCommit (s : State) : State × Nat × List Nat :=
  if s.mgt.trialImage then (s, mbBadState, [])
  else ({ s with keys := { s.keys with fuse := { s.keys.fuse with rollback := max s.keys.fuse.rollback s.mgt.svn } } }, mbOk, [])

/-- Ten and sixty seconds in CLK_CORE cycles. -/
def cyc10s : Nat := 8000000000
def cyc60s : Nat := 48000000000

def enterRma (sig : List Byte) (s : State) : State × Nat × List Nat :=
  if sig.length ≠ 96 then (s, mbBadLength, [])
  else
    let ok := match s.mgt.nonce with
      | some (n, t) => decide (s.now ≤ t + cyc60s) && Config.ecdsaOk Config.dalnalKey (beBytes 8 Config.serial.toNat ++ n) sig
      | none => false
    let s1 : State := { s with mgt := { s.mgt with nonce := none } }
    if !ok then (s1, mbDenied, [])
    else if 2 ≤ s.lifecycle then (s1, mbBadState, [])
    else (lifecycleTo 2 s1, mbOk, [])

/-- Whether a DECOMMISSION repeats an earlier one with its TAG within 10 s (R574). -/
def decomSecond (tag : BitVec 16) (s : State) : Bool :=
  match s.mgt.decom with
  | some (t, at0) => t == tag && decide (s.now ≤ at0 + cyc10s)
  | none => false

/-- DECOMMISSION: the second carries it out; the STATUS of the first is not stated, a free value. -/
def decommission (tag : BitVec 16) (s : State) : State × Nat × List Nat :=
  if decomSecond tag s then (lifecycleTo 3 s, mbOk, [])
  else
    let pr := s.draw 8
    let v := pr.1
    let s1 := pr.2
    ({ s1 with mgt := { s1.mgt with decom := some (tag, s.now) } }, v, [])

def execLogRecordWrite (s : State) : Host.Outcome State Fault Refusal := .next (logRecordWrite s)
def execMgtEthFrame (srcMac : BitVec 48) (seq : BitVec 64) (body : List Byte) (icv : BitVec 128) (s : State) :
    Host.Outcome State Fault Refusal := .next (mgtEthFrame srcMac seq body icv s)

def execGetInfo (src : Transport) (tag : BitVec 16) (s : State) : Host.Outcome State Fault Refusal :=
  .next (mailbox src 0x01 tag false (fun x => (x, mbOk, infoVals x)) id s)

def execGetSensors (src : Transport) (tag : BitVec 16) (s : State) : Host.Outcome State Fault Refusal :=
  .next (mailbox src 0x02 tag false (fun x => (x, mbOk, sensorVals x)) id s)

/-- GET_CHALLENGE: 32 octets drawn fresh. -/
def execGetChallenge (src : Transport) (tag : BitVec 16) (s : State) : Host.Outcome State Fault Refusal :=
  .next (mailbox src 0x03 tag false (fun x =>
    ({ x with mgt := { x.mgt with nonce := some (nonceOf x, x.now) }, fresh := x.fresh + 32 }, mbOk, [ofBe (nonceOf x)])) id s)

def execSetPolicy (src : Transport) (tag : BitVec 16) (r : PolicyRec) (s : State) : Host.Outcome State Fault Refusal :=
  .next (mailbox src 0x10 tag true (fun x => (doPolicy r x, mbOk, [])) id s)

/-- CLEAR_LATCH (16 R525): sources still asserting stay latched; in DECOMMISSIONED nothing is cleared. -/
def execClearLatch (src : Transport) (tag : BitVec 16) (live : BitVec 9) (s : State) : Host.Outcome State Fault Refusal :=
  .next (mailbox src 0x11 tag true (fun x =>
    if x.lifecycle = 3 then ({ x with keys := { x.keys with raw := live } }, mbBadState, [])
    else ({ x with keys := { x.keys with raw := live, latch := x.keys.latch &&& live } }, mbOk, [])) id s)

def execChipReset (src : Transport) (tag : BitVec 16) (s : State) : Host.Outcome State Fault Refusal :=
  .next (mailbox src 0x12 tag true (fun x => (x, mbOk, [])) (fun x => x.chipReset 5) s)

def execRestartMgt (src : Transport) (tag : BitVec 16) (s : State) : Host.Outcome State Fault Refusal :=
  .next (mailbox src 0x13 tag true (fun x => (x, mbOk, [])) (restartMgt false) s)

def execUpdateBegin (src : Transport) (tag : BitVec 16) (bodyLen : Nat) (s : State) : Host.Outcome State Fault Refusal :=
  .next (mailbox src 0x20 tag true (updateBegin bodyLen) id s)

def execUpdateData (src : Transport) (tag : BitVec 16) (offset : Nat) (data : List Byte) (s : State) :
    Host.Outcome State Fault Refusal :=
  .next (mailbox src 0x21 tag true (updateData offset data) id s)

/-- UPDATE_END; in recovery a valid image is booted by chip reset (R561). -/
def execUpdateEnd (src : Transport) (tag : BitVec 16) (s : State) : Host.Outcome State Fault Refusal :=
  .next (mailbox src 0x22 tag true updateEnd (fun x => if s.mgt.image = .recovery then x.chipReset 5 else x) s)

def execConfirm (src : Transport) (tag : BitVec 16) (s : State) : Host.Outcome State Fault Refusal :=
  .next (mailbox src 0x23 tag true confirmImage id s)

def execSvnCommit (src : Transport) (tag : BitVec 16) (s : State) : Host.Outcome State Fault Refusal :=
  .next (mailbox src 0x24 tag true svnCommit id s)

def execEnterRma (src : Transport) (tag : BitVec 16) (sig : List Byte) (s : State) : Host.Outcome State Fault Refusal :=
  .next (mailbox src 0x30 tag true (enterRma sig) (fun x => x.chipReset 5) s)

def execDecommission (src : Transport) (tag : BitVec 16) (s : State) : Host.Outcome State Fault Refusal :=
  .next (mailbox src 0x31 tag true (decommission tag) (fun x => if decomSecond tag s then x.chipReset 5 else x) s)

/-! ## Sensors and detectors (R576, R584) -/

def railNominal : Vector Nat 8 := #v[750, 750, 750, 1800, 900, 1800, 3300, 1200]

/-- Outside ±5 % of nominal. -/
def railOut (rail : Fin 8) (mv : Nat) : Bool :=
  let n := railNominal.get rail
  decide (mv * 100 < n * 95) || decide (n * 105 < mv * 100)

/-- A rail is measured; a crossing of ±5 % in either direction sends a VOLTAGE message (R576). -/
def railCrossing (rail : Fin 8) (mv : Nat) (s : State) : State :=
  let bad := railOut rail mv
  let was := s.mgt.railBad.get rail
  let s1 := { s with mgt := { s.mgt with rails := setAt s.mgt.rails rail mv, railBad := setAt s.mgt.railBad rail bad } }
  if bad = was ∨ s.pwr.state = .standby then s1
  else s1.fault 0 pgMgt kVoltage sevWarning (Config.detectorOf pgMgt kVoltage) (BitVec.ofNat 24 rail.val)

/-- A management page detector fires (R584). -/
def mgtDetection (det : Byte) (correctable : Bool) (s : State) : State :=
  match detKind .mgt det.toNat with
  | none => s
  | some k =>
    let s1 := s.fault 0 pgMgt k (if k = kEcc ∧ correctable then sevWarning else kindSev k) det (s.locFor pgMgt k det)
    if det = 0 then restartMgt true s1
    else if det = 1 then (if correctable then s1 else restartMgt false s1)
    else if det = 3 then
      let n := s1.mgt.log.length
      if n = 0 then s1
      else
        let pr := s1.draw n
        let i := pr.1
        let s2 := pr.2
        { s2 with mgt := { s2.mgt with log := s2.mgt.log.modify i (fun r => { r with crcOk := false }) } }
    else s1

/-- The management watchdog expires (17 R545, R549): the first expiry goes to the NMI, a second restarts Milondino
with a RECOVERY message of level 3. -/
def mgtWdog (s : State) : State :=
  if !s.mgt.running then s
  else
    let id0 := s.ident
    let s1 := (s.fault 0 pgMgt kTimeout (kindSev kTimeout) 0xFF 0).setEvt pgFlt evMgtWdog
    if s.mgt.wdogOnce then restartMgt false (s1.recovery 0 pgMgt 3 id0)
    else { s1 with mgt := { s1.mgt with wdogOnce := true } }

def execRailCrossing (rail : Fin 8) (mv : Nat) (s : State) : Host.Outcome State Fault Refusal := .next (railCrossing rail mv s)
def execMgtDetection (det : Byte) (correctable : Bool) (s : State) : Host.Outcome State Fault Refusal :=
  .next (mgtDetection det correctable s)
def execMgtWdog (s : State) : Host.Outcome State Fault Refusal := .next (mgtWdog s)

end Sys2Proof.Machine
end

