-- ==== Sys2Proof/Machine/Faults.lean ====
section
/-!
DEFINITION. The fault collector: messages and reactions, self-tests, fences and retests, watchdogs, crossing flushes,
ALIVE, and the detections of the partition, key, collector and counter pages (17).
-/

namespace Sys2Proof.Machine

/-- Ports, PTP engine and Fountain follow the health of their units. -/
def settleAll (s : State) : State := settleFtn (saRefresh (settlePorts s))

def allParts : List Part := [0, 1, 2, 3]

/-! ## Operations and the engines that serve them (15 R490, 17 R545) -/

/-- Dispatched operations of a page's engine, short of completion. -/
def engineOps (s : State) (pg : Nat) : List (Tag × Op) := s.opList.filter (fun e => s.inFlight e.2 && e.2.enginePage == pg)

/-- Operations of a page's engine end with a status; frames of theirs are not sent (15 R481). -/
def abortEngine (pg : Nat) (st : Byte) (s : State) : State :=
  (engineOps s pg).foldl (fun a e =>
    if e.2.committed then a else dropTagged e.1 (((keyCut e.2 a).finish e.1 st).disarmTag e.1)) s

/-- The operation under a tag ends short of its flip (16 R513). -/
def cutTag (g : Tag) (s : State) : State :=
  match s.op? g with
  | some o => keyCut o s
  | none => s

/-- The operation that an engine works on ends with TIMEOUT (R545; 15 R493). -/
def timeOut (t : Option Tag) (s : State) : State :=
  match t with
  | some g => dropTagged g (((cutTag g s).finish g stTimeout).disarmTag g)
  | none => s

/-! ## Block reset (R538) -/

/-- The lane's link ends; its state machines start anew. -/
def resetLane (n : LaneNo) (s : State) : State :=
  let s1 := match s.laneOwner n with
    | some (p, a) => s.dropLink p a
    | none => s
  s1.modLane n (fun y => { mode := y.mode, ready := y.ready, skew := y.skew, corr := y.corr, uncorr := y.uncorr })

/-- A capture input is disarmed and its FIFO emptied. -/
def resetCap (c : CapNo) (s : State) : State := s.modCap c (fun y => { y with mode := 0, tag := none, fifo := [] })

/-- What waits on a port to be sent is discarded. -/
def clearPort (p : PortNo) (s : State) : State :=
  (s.discardFrames p (fun _ => true)).modPort p (fun x => { x with msgs := [], follow := [], ntp := [], sealed := [] })

/-- A block reset of a page's block on the common die: its operations complete with ABORT_RESET, its engines and buffers
return to their reset state, its registers and tables stay. -/
def resetBlock (pg : Nat) (s : State) : State :=
  let s1 := abortEngine pg stAbortReset s
  match pageKind pg with
  | some (.hp n) => partitionReset (Fin.ofNat 4 n) s
  | some (.jet n) => stopJet (Fin.ofNat 16 n) true s1
  | some (.cap n) => resetCap (Fin.ofNat 8 n) s1
  | some (.lp n) => (clearPort (Fin.ofNat 16 n) s1).modPort (Fin.ofNat 16 n) (fun x => { x with txq := [] })
  | some (.lane n) => resetLane (Fin.ofNat 16 n) s1
  | some .ptp =>
    { s1 with
      ptp := { s1.ptp with clients := Vector.replicate 4 {}, late := Vector.replicate 4 [] }
      ports := s1.ports.map (fun (x : PortSt) => { x with msgs := [], follow := [] }) }
  | some .ftn => { s1 with ports := s1.ports.map (fun (x : PortSt) => { x with ntp := [], sealed := [] }) }
  | some .cnt => s1
  | _ => s

/-- The BRST reaction of a source: on a half die a half reset; on the FLT, KEY and MGT pages none. -/
def blockReset (src : Nat) (s : State) : State :=
  match src / 256 with
  | 1 => halfResetCmd .A s
  | 2 => halfResetCmd .B s
  | _ => settleAll (resetBlock (src % 256) s)

/-! ## Acceptance (R533 to R539) -/

/-- A detection's message has its SEQ: it goes into the bus-error logs, the units and the messages that name it. -/
def noteSeq (ident : Nat) (seq : BitVec 14) (s : State) : State :=
  let fixMsg (m : Msg) : Msg := match m.ref with
    | some (i, lo) => if i = ident then { m with loc := m.loc ||| BitVec.ofNat 24 (seq.toNat * 2 ^ lo), ref := none } else m
    | none => m
  let fixUnit (u : TestUnit) : TestUnit :=
    { u with startSeq := if u.testing = some ident then some seq else u.startSeq
             resSeq := if u.resIdent = some ident then some seq else u.resSeq }
  { s with
    parts := s.parts.map (fun (x : PartSt) =>
      { x with busLog := x.busLog.map (fun e => if e.ident = ident then { e with seq := some seq } else e) })
    flt := { s.flt with bufs := s.flt.bufs.map (fun e => (e.1, e.2.map fixMsg))
                        units := s.flt.units.map (fun e => (e.1, fixUnit e.2)) } }

/-- The severity the collector gives a message (R533, R554). -/
def raisedSev (s : State) (m : Msg) : Nat :=
  let own := m.src.toNat = pgFlt ∧ m.kind.toNat = detKind .flt m.det.toNat ∧ (m.det = 0 ∨ m.det = 2)
  let mgt := m.src.toNat = pgMgt ∧ m.kind.toNat = kLockstep ∧ 3 ≤ s.mgt.lockstepRun
  if own ∨ mgt then sevFatal else m.sev.toNat

/-- An entry for the log ring, or its loss (R536, R553). -/
def logMsg (m : BitVec 64) (inj : Bool) (s : State) : State :=
  let f := s.flt
  if f.log.length < 256 then
    let pr := s.issue 0 0
    let t := pr.1
    let s1 := pr.2
    let e : LogEnt := { msg := m, sec := BitVec.ofNat 32 (secOf t), ns := BitVec.ofNat 32 (nsOf t), injected := inj
                        lost := min 255 f.logLost }
    { s1 with flt := { f with log := f.log ++ [e], logLost := 0 } }
  else { s with flt := { f with logLost := f.logLost + 1, lostTotal := f.lostTotal + 1 } }.setEvt pgFlt evLogOvf

def countReset (_ : Nat) : Word := 0

/-- ALIVE freezes at its level (R550). -/
def freezeAlive (s : State) : State :=
  { s with flt := { s.flt with frozen := true } }.evtIf (!s.flt.frozen) pgFlt evFrozen

/-- The reactions of a message of a source, reporting page and severity (R537, R539, R550, R551). -/
def react (src pg sev : Nat) (s : State) : State :=
  let w := look reactReset s.flt.react src
  let takes (b : Nat) : Bool := decide (bits w 9 8 ≤ sev) && bit w b
  let fatal := sev == sevFatal
  let s1 := if takes 0 then s.irqPage pg else s
  let s2 := if (takes 1 || fatal) && !s1.mgt.running then { s1 with flt := { s1.flt with nmiHeld := true } } else s1
  let s3 := if takes 4 || fatal then
      freezeAlive (s2.modPage pg (fun p => { p with fault := { p.fault with errpin := p.fault.errpin || decide (sevError ≤ sev) } }))
    else s2
  let s4 := if takes 2 then blockReset src s3 else s3
  if takes 3 then s4.chipReset 4 else s4

/-- It is a source's turn: of those with messages, the next after the one accepted last (R534, R551). -/
def State.sourceTurn (s : State) (k : Nat) : Bool :=
  s.flt.bufs.all (fun e => e.2.isEmpty || decide (roundPlace 1024 s.flt.turn k ≤ roundPlace 1024 s.flt.turn e.1))

/-- The collector accepts the oldest message of a source, in its turn (R534, R536). A message after an input parity detection is
logged with SOURCE 0x0C0 (R554). -/
def acceptMsg (k : Nat) (s : State) : State :=
  match (if s.sourceTurn k then look bufReset s.flt.bufs k else []) with
  | [] => s
  | m :: rest =>
    let seq := s.flt.nextSeq
    let sev := raisedSev s m
    let pg := k % 256
    let swap := s.flt.badInput && k != pgFlt
    let val (src : Nat) : Nat := msgBits src m.kind.toNat sev m.det.toNat m.loc.toNat seq.toNat
    let s1 : State := { s with flt := { s.flt with
      bufs := put bufReset s.flt.bufs k rest, turn := k, nextSeq := seq + 1, badInput := s.flt.badInput && !swap
      counts := put countReset s.flt.counts k ((look countReset s.flt.counts k + 1) &&& 0xFFFF)
      fatal := s.flt.fatal || sev == sevFatal } }
    let s2 := (noteSeq m.ident seq s1).count (672 + sev) 1
    let s3 := logMsg (BitVec.ofNat 64 (val (if swap then pgFlt else k))) m.injected s2
    let warn := decide (sevWarning ≤ sev)
    let s4 := if warn then
        s3.modPage pg (fun p => { p with fault :=
          { p.fault with
            seq := seq, kind := m.kind, sev := BitVec.ofNat 2 sev, active := p.fault.active || decide (sevError ≤ sev)
            by_ := if sevError ≤ sev ∧ !p.fault.by_.contains (k / 256, m.kind.toNat, m.det)
              then p.fault.by_ ++ [(k / 256, m.kind.toNat, m.det)] else p.fault.by_ } })
      else s3
    let s5 := if warn then (s4.setEvt pgFlt evMsg).logRec 0x0001 (val k) m.injected else s4
    let s6 := (s5.evtIf (sev == sevFatal) pgFlt evFatal).evtIf (m.kind.toNat == kRecovery) pgFlt evRecovery
    let s7 := if m.kind.toNat = kRecovery then s6.count 678 1 else s6
    react k pg sev s7

/-- A block with a free place in its buffer tells how many messages it dropped (R535). -/
def overflowMsg (k : Nat) (s : State) : State :=
  let n := look dropReset s.flt.dropped k
  if n = 0 ∨ 4 ≤ (look bufReset s.flt.bufs k).length ∨ s.canSend (k / 256) = false then s
  else
    let m : Msg := { src := BitVec.ofNat 10 k, kind := BitVec.ofNat 6 kOverflow, sev := BitVec.ofNat 2 sevWarning
                     det := Config.detectorOf (k % 256) kOverflow, loc := BitVec.ofNat 24 (n % 2 ^ 16), injected := false, ident := s.ident }
    ({ s with ident := s.ident + 1, flt := { s.flt with dropped := put dropReset s.flt.dropped k 0 } }.enqueueMsg m).countSent (k / 256)

/-! ## Self-test results (R541 to R543) -/

/-- A SELFTEST message of a unit; `start` is the SEQ its location carries, or the detection that will have it. -/
def selftestMsg (k : Nat) (det : Byte) (lasting : Bool) (sev : Nat) (start : Option (BitVec 14)) (ofIdent : Option Nat) (s : State) :
    State :=
  if s.canSend (k / 256) then
    let base : Nat := (if lasting then 2 ^ 23 else 0) + (start.getD 0).toNat
    let m : Msg := { src := BitVec.ofNat 10 k, kind := BitVec.ofNat 6 kSelftest, sev := BitVec.ofNat 2 sev, det := det
                     loc := BitVec.ofNat 24 base, injected := false, ident := s.ident
                     ref := if start.isSome then none else ofIdent.map (fun i => (i, 0)) }
    ({ s with ident := s.ident + 1 }.enqueueMsg m).countSent (k / 256)
  else s

/-- FLT_ESCAL: WINDOW in ns and COUNT. -/
def escalWindow (s : State) : Nat := max 1 (s.fieldAt pgFlt 0x048 19 8) * 1000000
def escalCount (s : State) : Nat := max 2 (s.fieldAt pgFlt 0x048 3 0)

/-- The unit is an SRAM bank of the common die, which a spare may replace (R540, R542). -/
def isBank (k : Nat) (det : Byte) : Bool := k < 256 && (pageKind k).any (fun q => detKind q det.toNat == some kEcc)

/-- A LASTING result on a unit that has no spare is FATAL (R533). -/
def noSpare (s : State) (k : Nat) (det : Byte) : Bool :=
  match pageKind k with
  | some (.hp _) => det == 0 || (isBank k det && decide (2 ≤ s.flt.spares))
  | some .flt => true
  | some .half => k < 256
  | _ => isBank k det && decide (2 ≤ s.flt.spares)

/-- The entries of a fenced bank are lost, as by an uncorrected error (R542; 10 R348, 12 R392, 13 R428, 14 R466, 16 R529,
R554, 18 R584). A bank of 512 KiB holds a sixteenth of the session or client table; which one failed is a free value. -/
def loseBank (k : Nat) (det : Byte) (s : State) : State :=
  match pageKind k with
  | some (.cap n) => s.modCap (Fin.ofNat 8 n) (fun y => { y with fifo := y.fifo.map (fun e => { e with bound := 0xFFFF }) })
  | some (.lp n) =>
    if det = 0 then s.modPort (Fin.ofNat 16 n) (fun x => { x with txq := x.txq.map (fun e => { e with bound := 0xFFFF }) })
    else abortSends (Fin.ofNat 16 n) stRetry
      (s.dropFrames (Fin.ofNat 16 n) (fun f => f.tag.isNone) (fun _ b => b))
  | some .ptp =>
    let pr := s.draw 16
    let b := pr.1
    let s1 := pr.2
    { s1 with ptp := { s1.ptp with sessions := s1.ptp.sessions.filter (fun e => e.1 / 8192 != b) } }
  | some .ftn =>
    let pr := s.draw 16
    let b := pr.1
    let s1 := pr.2
    { s1 with ftn := { s1.ftn with table := s1.ftn.table.filter (fun e => e.1 / 65536 != b) } }
  | some .key => allKeys.foldl loadSlot s
  | some .flt =>
    if det = 1 then { s with flt := { s.flt with log := s.flt.log.map (fun e => { e with msg := 0 }) } }
    else { s with flt := { s.flt with react := [] } }
  | some .mgt => restartMgt false s
  | _ => s

/-- What a unit's return to service or its fence does in its block (10 R325, 11 R371, 12 R392, 14 R466, 15 R498). -/
def unitResult (k : Nat) (det : Byte) (lasting : Bool) (s : State) : State :=
  match pageKind k with
  | some (.hp n) => if det = 0 ∧ lasting = false then s.modPart (Fin.ofNat 4 n) (fun x => { x with paused := false }) else s
  | some (.lp n) =>
    if det = 3 ∧ lasting = false then
      let off (x : PathSt) : PathSt := { x with claimBad := false }
      s.modPort (Fin.ofNat 16 n) (fun x => { x with paths := ⟨off x.paths.a, off x.paths.b⟩ })
    else s
  | some (.jet n) => if det = 4 ∧ lasting then stopJet (Fin.ofNat 16 n) false s else s
  | some .ftn => s.evtIf (lasting && decide (det.toNat < 12)) pgFtn 10
  | _ => s

/-- A LASTING result on a half die: SELFTEST_OK falls until half reset (09 R287, R314; R542). -/
def halfLasting (h : Half) (s : State) : State :=
  ((s.modHalf h (fun x => { x with selftestOk := false, testRes := 3, failed := true })).setEvt pgHalf (evTestFail h)).testFailed (placeOf h) pgHalf

/-- What a test's result does to the half it ran on (17 R541). A divergence waits for the test of the half's digest comparator or of
the time bus comparator, no other of the page (09 R300, R315). -/
def halfTested (o : Option Half) (k : Nat) (det : Byte) (lasting pass : Bool) (s : State) : State :=
  match o with
  | none => s
  | some h =>
    let a := if lasting then halfLasting h s else s.modHalf h (fun x => { x with testRes := 1 })
    if k % 256 = pgHalf ∧ (det.toNat = h.ix.val ∨ det = 8) ∧ (a.half h).divTest = .running then
      a.modHalf h (fun x => { x with divTest := if !lasting then .transient else if pass then .escalated else .failed })
    else a

/-- The half a source lies on. -/
def halfOfPlace (place : Nat) : Option Half := if place = 1 then some .A else if place = 2 then some .B else none

/-- A page's LASTING bit, its event and its counter. -/
def noteLasting (k : Nat) (s : State) : State :=
  ((s.modPage (k % 256) (fun p => { p with fault := { p.fault with lasting := true } })).setEvt pgFlt evLasting).count 677 1

/-- The unit under test gives its result (R541, R542); a divergence's test also decides the resync order (09 R300). -/
def selftestResult (k : Nat) (det : Byte) (pass : Bool) (s : State) : State :=
  let u := s.unit k det
  match u.testing with
  | none => s
  | some ident =>
    let recent := if pass then s.nowNs :: u.transients.filter (fun t => decide (s.nowNs ≤ t + escalWindow s)) else u.transients
    let lasting := !pass || decide (escalCount s ≤ recent.length)
    let place := k / 256
    let half := halfOfPlace place
    let bank := lasting && half.isNone && isBank k det
    let spare := bank && decide (s.flt.spares < 2)
    let sev := if !lasting then sevInfo else if half.isNone && noSpare s k det then sevFatal else sevError
    let s1 := s.setUnit k det { u with
      testing := none, startSeq := none, transients := recent, spare := spare
      fenced := (u.fenced || lasting) && half.isNone
      resIdent := if lasting then some s.ident else u.resIdent
      resSeq := if lasting then none else u.resSeq }
    let s2 := selftestMsg k det lasting sev u.startSeq (some ident) s1
    let s3 := halfTested half k det lasting pass s2
    let s4 := if lasting then noteLasting k s3 else s3
    let s5 := if spare then { s4 with flt := { s4.flt with spares := s4.flt.spares + 1 } } else s4
    let s6 := if bank then loseBank k det s5 else s5
    settleAll (unitResult k det lasting s6)

/-- FLT_RETEST (R543): the test of a fenced unit of the common die or the Belrex store, run again. -/
def retestUnit (k : Nat) (det : Byte) (pass : Bool) (s : State) : State :=
  let u := s.unit k det
  if !u.fenced || u.testing.isSome || k / 256 == 1 || k / 256 == 2 then s
  else
    let s1 := s.count 676 1
    if pass then
      let s2 := s1.setUnit k det { u with fenced := false, spare := false }
      let s3 := s2.modPage (k % 256) (fun p => { p with fault := { p.fault with lasting := false } })
      let s4 := (selftestMsg k det false sevInfo u.resSeq u.resIdent s3).setEvt pgFlt evUnfenced
      settleAll (unitResult k det false s4)
    else s1

/-! ## Watchdogs and timeouts (R545 to R547; 15 R493) -/

/-- The engine of a page is reset; its operation `t` ends with TIMEOUT, the others with ABORT_RESET. An engine of a half
die is not reset (R546), and the KEY and MGT pages' engines lose their operations alone (R538). -/
def resetEngine (k : Nat) (t : Option Tag) (s : State) : State :=
  let s1 := timeOut t s
  if k / 256 ≠ 0 then s1
  else match pageKind k with
    | some (.hp _) => s1
    | some (.td _) => s1
    | some .key => abortEngine k stAbortReset s1
    | some .mgt => abortEngine k stAbortReset s1
    | _ => resetBlock k s1

/-- The operation an engine works on: on a port the one whose frame is first, else the first dispatched. -/
def workingOp (s : State) (pg : Nat) : Option Tag :=
  let ops := (engineOps s pg).filter (fun e => !e.2.committed)
  let first : Option Tag := match pageKind pg with
    | some (.lp n) => (s.port (Fin.ofNat 16 n)).hosts.findSome? (fun f => f.tag)
    | _ => none
  match first with
  | some t => some t
  | none => (oldestOp ops).map (fun e => e.1)

/-- An engine makes no progress: TIMEOUT, an engine reset with its RECOVERY message, and the test of the engine; within
WINDOW of its latest reset the test alone (R545, R546). -/
def engineWatchdog (k : Nat) (s : State) : State :=
  let pg := k % 256
  if (pageKind pg).isNone || !s.canSend (k / 256) then s
  else
    let u := s.unit k 0xFF
    let again := u.lastReset.any (fun t => decide (s.nowNs ≤ t + escalWindow s))
    let id0 := s.ident
    let t := workingOp s pg
    let s1 := s.fault (k / 256) pg kTimeout (kindSev kTimeout) 0xFF 0
    if again then
      settleAll (timeOut t s1)
    else
      let s2 := s1.setUnit k 0xFF { (s1.unit k 0xFF) with lastReset := some s.nowNs }
      settleAll ((resetEngine k t s2).recovery (k / 256) pg 2 id0)

/-- The queue-operation timeout runs on an operation: dispatched, not waiting for an alarm or an edge, and, a FENCE, with
nothing earlier left to wait for (10 R338, 15 R493). -/
def timeoutRuns (s : State) (o : Op) : Bool :=
  s.inFlight o && !o.committed && !(o.phase == .waiting && o.isWait) &&
    (o.opcode != 0x01 || (queueOps s o.part o.q).all (fun e => decide (o.order ≤ e.2.order)))

/-- HPn_QTO expires on an operation (15 R493, R545). -/
def queueOpTimeout (t : Tag) (s : State) : State :=
  match s.op? t with
  | none => s
  | some o =>
    if timeoutRuns s o then
      let pg := o.enginePage
      let id0 := s.ident
      let s1 := s.fault 0 pg kTimeout (kindSev kTimeout) 0xFF 0
      settleAll ((resetEngine pg (some t) s1).recovery 0 pg 2 id0)
    else s

/-- An operation put into a list by its place in the order of fetching. -/
def insertOp (l : List (Tag × Op)) (e : Tag × Op) : List (Tag × Op) :=
  match l with
  | [] => [e]
  | x :: r => if e.2.order < x.2.order then e :: x :: r else x :: insertOp r e

/-- A partition's crossing is resynchronised (02 R86): of its `lost` entries those that carry operations, which ones the event
does not say (any of the partition's fetched operations, `lost` of them at most; log entry 149), end these with ABORT_FLUSH, in
the order of their fetching; the message carries the count in its location field (log entry 176). -/
def flushCrossing (p : Part) (lost : Nat) (s : State) : State :=
  let mine := s.opList.filter (fun e => e.2.part == p && e.2.phase == .fetched)
  let pr := s.draw (2 ^ mine.length)
  let s1 := pr.2
  let hit := (mine.zipIdx.filter (fun e => pr.1.testBit e.2)).map (fun e => e.1)
  let gone := (hit.take lost).foldl insertOp []
  let s2 := gone.foldl (fun a e => a.finish e.1 stAbortFlush) s1
  s2.fault 0 (pgHp p) kXingFlush sevWarning 2 (BitVec.ofNat 24 lost)

/-- A crossing handshake times out (R545). -/
def crossingTimeout (p : Part) (lost : Nat) (s : State) : State :=
  if s.hostUp p then
    let s1 := flushCrossing p lost s
    s1.recovery 0 (pgHp p) 1 s.ident
  else s

/-! ## ALIVE (R550) -/

def aliveToggle (s : State) : State :=
  if s.flt.aliveOn && !s.flt.frozen then
    ({ s with flt := { s.flt with alive := !s.flt.alive } }.emit (.alive (!s.flt.alive))).count 683 1
  else s

/-- FLT_ALIVE.RESUME: no page whose fault state an ERRPIN message set still holds ACTIVE. -/
def resumeAlive (s : State) : State :=
  if s.pages.any (fun e => e.2.fault.active && e.2.fault.errpin) then s
  else { s with flt := { s.flt with frozen := false } }

/-! ## Detections of the partition, key, collector and counter pages -/

def hpDetection (p : Part) (det : Byte) (s : State) : State :=
  match detKind (.hp p.val) det.toNat with
  | none => s
  | some k =>
    let s1 := s.fault 0 (pgHp p) k (kindSev k) det (s.locFor (pgHp p) k det)
    if det = 0 then s1.modPart p (fun x => { x with paused := true })
    else if det = 2 then
      let pr := s1.draw 65
      let n := pr.1
      let s2 := pr.2
      flushCrossing p n s2
    else s1

/-- A key operation ended by a detection before its flip: RETRY, `how` far it had come (16 R513, R515; 15 R481). -/
def retryKey (t : Tag) (o : Op) (how : Nat) (s : State) : State := (keyCutAt how o s).finish t stRetry

/-- A key page detector fires; `slot` is the slot of detectors 2 and 3, and of the operation at step 5 (16 R529). -/
def keyDetection (det : Byte) (slot : KeyNo) (s : State) : State :=
  match detKind .key det.toNat with
  | none => s
  | some k =>
    let loc : BitVec 24 := if det.toNat < 2 then s.locFor pgKey k det else BitVec.ofNat 24 slot.val
    let s1 := s.fault (if det = 3 then 3 else 0) pgKey k (kindSev k) det loc
    let ops := (engineOps s pgKey).filter (fun e => e.2.isKey)
    let s2 :=
      if det.toNat < 2 then
        (ops.filter (fun e => keyUnitOf s e.1 == det.toNat)).foldl (fun a e =>
          let pr := a.draw 3
          retryKey e.1 e.2 pr.1 pr.2) s1
      else if det = 2 then loadSlot s1 slot
      else if det = 3 then
        let x := s1.slotKey slot
        if x.stateCode = 1 then
          ((s1.setSlotKey slot { x with badslot := true, loaded := false, cur := none, prev := none }).setEvt pgKey evBadslot).logKey
            slot evBadslot x.gen
        else s1
      else match oldestOp (ops.filter (fun e => e.2.keySlot == slot.val)) with
        | some e => retryKey e.1 e.2 2 s1
        | none => s1
    settleFtn (saRefresh s2)

/-- A collector detector fires; `loc` names the source whose reaction entry failed (R554). -/
def fltDetection (det : Byte) (loc : BitVec 24) (s : State) : State :=
  match detKind .flt det.toNat with
  | none => s
  | some k =>
    let s1 := s.fault 0 pgFlt k (kindSev k) det loc
    let f := s1.flt
    if det = 0 then { s1 with flt := { f with badInput := true } }
    else if det = 1 then
      { s1 with flt := { f with lostTotal := if f.log.isEmpty then f.lostTotal else f.lostTotal + 1
                                log := match f.log with
                                  | [] => []
                                  | e :: r => { e with msg := 0, lost := min 255 (e.lost + 1) } :: r } }
    else if det = 2 then { s1 with flt := { f with react := drop f.react (loc.toNat % 1024) } }
    else (freezeAlive { s1 with flt := { f with alive := false } }).emit (.alive false)

def cntDetection (c : Nat) (s : State) : State :=
  (s.fault 0 pgCnt kParity (kindSev kParity) 0 (BitVec.ofNat 24 c)).setCnt c 0

/-! ## Any page's detectors (R548) -/

/-- An XO fault clears XO_OK; the monitors of the Lath page (04 R148). -/
def lathDetection (det : Nat) (s : State) : State :=
  let h : Half := if det % 2 = 0 then .A else .B
  let inj := (s.page pgLath).injArm && (s.page pgLath).injDet == BitVec.ofNat 8 det
  if det < 2 then loseMosc h evMoscLost 0 inj s
  else if det < 4 then loseMosc h evLockLost 2 inj s
  else if det < 6 then (if s.halfOn h && (s.lath h).xoOk then xoFalls h s else s)
  else if det = 6 then s.fault 0 pgLath kClock (kindSev kClock) 6 0
  else s

/-- A detector of a page fires, `loc` naming the part where the detector's effect needs one. -/
def detect (pg : Nat) (det : Byte) (loc : Nat) (s : State) : State :=
  match pageKind pg with
  | some (.hp n) => hpDetection (Fin.ofNat 4 n) det s
  | some (.rs n) => slotMonitor (Fin.ofNat 32 n) det.toNat s
  | some (.td n) => domainDetection (Fin.ofNat 4 n) det s
  | some .cis => cisternDetection det s
  | some (.cap n) => captureDetection (Fin.ofNat 8 n) det s
  | some .half => halfDetection det s
  | some .lath => lathDetection det.toNat s
  | some .sl => slDetection det s
  | some (.jet n) => jetDetection (Fin.ofNat 16 n) det s
  | some (.lp n) => settleAll (portDetection (.lp (Fin.ofNat 16 n)) det s)
  | some (.lane n) => settleAll (portDetection (.lane (Fin.ofNat 16 n)) det s)
  | some .ptp => ptpDetection det loc s
  | some .ftn => ftnDetection det loc s
  | some .key => keyDetection det (Fin.ofNat 64 loc) s
  | some .flt => fltDetection det (BitVec.ofNat 24 loc) s
  | some .cnt => if det = 0 then cntDetection (loc % 1024) s else s
  | some .mgt =>
    let pr := s.draw 2
    let b := pr.1
    let s1 := pr.2
    mgtDetection det (b == 0) s1
  | _ => s

/-- The place of a page's detector (17 R530). -/
def detPlace (k : PageKind) (d : Nat) : Nat :=
  let half (b : Bool) : Nat := if b then 1 else 2
  match k with
  | .td _ => half (decide (d < 8))
  | .sl => half (decide (d < 8))
  | .cis => half (decide (d < 4))
  | .half => if d < 6 then half (d % 2 == 0) else 0
  | .lath => if d < 6 then half (d % 2 == 0) else 0
  | .jet _ => if d < 2 then half (d == 0) else 0
  | .key => if d = 3 then 3 else 0
  | _ => 0

def placeCode : Place → Nat
  | .common => 0
  | .halfA => 1
  | .halfB => 2
  | .belrex => 3

/-- A detector fires at its place, with the location its message names (R534, R535). Whether an ECC error was corrected, which is a
message of WARNING alone, is free (R532; log entry 228). -/
def faultDetection (pl : Place) (pg : Nat) (det : Byte) (loc : BitVec 24) (s : State) : State :=
  match pageKind pg with
  | none => s
  | some k =>
    if (detKind k det.toNat).isSome && detPlace k det.toNat == placeCode pl then
      let pr := s.draw 2
      let t := if detKind k det.toNat = some kEcc ∧ k ≠ .mgt ∧ pr.1 = 1 then pr.2.fault (placeCode pl) pg kEcc sevWarning det loc
        else detect pg det loc.toNat s
      let fix (m : Msg) : Msg := if m.ident = s.ident then { m with loc := loc } else m
      { t with flt := { t.flt with bufs := t.flt.bufs.map (fun e => (e.1, e.2.map fix)) } }
    else s

def execFaultDetection (pl : Place) (pg : PageNo) (det : Byte) (loc : BitVec 24) (s : State) : Host.Outcome State Fault Refusal :=
  .next (faultDetection pl pg.val det loc s)
def execFaultMessageAccepted (source : BitVec 10) (s : State) : Host.Outcome State Fault Refusal := .next (acceptMsg source.toNat s)
def execOverflowMessage (source : BitVec 10) (s : State) : Host.Outcome State Fault Refusal := .next (overflowMsg source.toNat s)
def execSelftestResult (source : BitVec 10) (det : Byte) (pass : Bool) (s : State) : Host.Outcome State Fault Refusal :=
  .next (selftestResult source.toNat det pass s)
def execEngineWatchdog (source : BitVec 10) (s : State) : Host.Outcome State Fault Refusal := .next (engineWatchdog source.toNat s)
def execCrossingTimeout (p : Part) (lost : Nat) (s : State) : Host.Outcome State Fault Refusal := .next (crossingTimeout p lost s)
def execQueueOpTimeout (t : Tag) (s : State) : Host.Outcome State Fault Refusal := .next (queueOpTimeout t s)
def execAliveToggle (s : State) : Host.Outcome State Fault Refusal := .next (aliveToggle s)
def execHpDetection (p : Part) (det : Byte) (s : State) : Host.Outcome State Fault Refusal := .next (hpDetection p det s)
def execKeyDetection (det : Byte) (slot : KeyNo) (s : State) : Host.Outcome State Fault Refusal := .next (keyDetection det slot s)
def execFltDetection (det : Byte) (loc : BitVec 24) (s : State) : Host.Outcome State Fault Refusal := .next (fltDetection det loc s)
def execCntDetection (c : Fin 1024) (s : State) : Host.Outcome State Fault Refusal := .next (cntDetection c.val s)
/-- BAR2 at its reset values, which every reset but the page's own soft reset brings about (log entry 223). -/
def resetBar (p : Part) (s : State) : State := s.modBar p (fun _ => {})

/-- An FLR, a hot reset, PERST#, a link-down or a soft reset of a partition: the same reset (15 R468, R491), once its endpoint is
up. A link that went down can train again, which resets nothing (log entry 224). -/
def partitionResetBy (p : Part) (k : PartReset) (s : State) : State :=
  if s.pwr.pcieUp then
    match k with
    | .soft => partitionReset p s
    | .linkDown => (resetBar p (partitionReset p s)).modPart p (fun x => { x with linkUp := false })
    | .linkUp => s.modPart p (fun x => { x with linkUp := true })
    | _ => resetBar p (partitionReset p s)
  else s

def execPartitionReset (p : Part) (k : PartReset) (s : State) : Host.Outcome State Fault Refusal :=
  .next (partitionResetBy p k s)

end Sys2Proof.Machine
end

