-- ==== Sys2Proof/Machine/Power.lean ====
section
/-!
DEFINITION. Feeds, breakers, reset, thermal and battery events (03).
-/

namespace Sys2Proof.Machine

def modFeed (s : State) (f : Half) (g : Feed → Feed) : State :=
  { s with pwr := { s.pwr with feeds := s.pwr.feeds.set f (g (s.pwr.feeds.of f)) } }

/-- A message of kind POWER or THERMAL from the power page (17 R532), `place` being where its monitor stands (17 R530). -/
def powerMsg (s : State) (kind sev : Nat) (place : Nat := 0) : State :=
  s.fault place pgPwr kind sev (Config.detectorOf pgPwr kind) 0

/-- The place of a die's sensors (17 R530). -/
def diePlace : Die → Nat
  | .A => 1
  | .B => 2
  | .C => 0

/-- A feed stays above 5.6 V for 500 µs (R96, R106, R108): from STANDBY start-up begins; during steps 2 to 5 the
feed is noted; after step 5 its half is powered at once, save during the 10 ms of R98. On a set latch the module enters SEALED,
and PCIe trains (R107). -/
def feedDetected (f : Half) (mv : Nat) (s : State) : State :=
  if (s.pwr.feeds.of f).detected || (s.pwr.feeds.of f).tripped || mv ≤ 5600 then s
  else
    let ret := (s.pwr.feeds.of f).lostOnce
    let s1 := modFeed { s with fresh := s.fresh + 1 } f (fun x => { x with detected := true, mv := mv, ma := s.fresh })
    let s2 := s1.evtIf ret pgPwr (evFeedRet f)
    match s2.pwr.state with
    | .standby =>
      let shut := s2.keys.latch != 0
      { s2 with pwr := { s2.pwr with state := if shut then .sealed else .boot, startStep := 2, pcieUp := shut }
                parts := if shut then s2.parts.map (fun p => { p with linkUp := true, bme := true }) else s2.parts }
    | _ => if s2.mayPower f && !s2.pwr.waitOff.of f && s2.pwr.half.of f == .off then s2.powerHalf f else s2

/-- Power-fail of a half (R97): it still runs, and the common die withdraws its claim at every arbiter. One that was held in
reset is unpowered at once (R106). -/
def powerFail (s : State) (h : Half) : State :=
  let s1 := { s with pwr := { s.pwr with waitOff := s.pwr.waitOff.set h true } }
  match s.pwr.half.of h with
  | .on => withdrawClaim h { s1 with pwr := { s1.pwr with half := s1.pwr.half.set h .failing } }
  | .failing => s
  | _ =>
    let s2 := s1.dropHalf h
    settleCopy ({ s2 with pwr := { s2.pwr with half := s2.pwr.half.set h .off } }).settleDown

/-- A detected feed is lost (R96, R97, R100, R106): its half gets power-fail; with the other feed absent too, the
module goes to STANDBY. The lost feed's voltage reads 0 (log entry 177). -/
def feedLost (f : Half) (s : State) : State :=
  if (s.pwr.feeds.of f).detected then
    let s1 := modFeed s f (fun x => { x with detected := false, mv := 0, lostOnce := true })
    let s2 := powerMsg (s1.setEvt pgPwr (evFeedLost f)) kPower sevWarning
    if (s2.pwr.feeds.of f.peer).detected then powerFail s2 f else s2.toStandby
  else s

/-- 10 µs after power-fail: the half is held in reset and unpowered, and the module is REDUCED (R97, R106). -/
def halfHeldInReset (h : Half) (s : State) : State :=
  match s.pwr.half.of h with
  | .failing =>
    let s1 := s.dropHalf h
    settleCopy ({ s1 with pwr := { s1.pwr with half := s1.pwr.half.set h .off } }).settleDown
  | _ => s

/-- A half whose feed is detected powers up again after at least 10 ms (R98, R110). -/
def halfRepower (h : Half) (s : State) : State :=
  if s.mayPower h && s.pwr.half.of h == .off && s.pwr.state != .standby && s.pwr.state != .boot then s.powerHalf h
  else s

/-- A draw above 10 A for 1 ms: the breaker event, and the feed is lost (R99). -/
def breakerTrip (f : Half) (s : State) : State :=
  if (s.pwr.feeds.of f).detected then
    let s1 := powerMsg (s.setEvt pgPwr (evBreaker f)) kPower sevWarning
    feedLost f (modFeed s1 f (fun x => { x with tripped := true }))
  else s

/-- The input switch closes 1 s after a trip; the feed is then detected under R96 (R99). -/
def breakerReclose (f : Half) (s : State) : State := modFeed s f (fun x => { x with tripped := false })

/-- RESET_N (R94, R106): held low it resets everything but the island; on release start-up resumes at step 3. -/
def resetN (low : Bool) (s : State) : State :=
  if low then
    let t := if s.pwr.state = .standby then s else s.chipReset 2
    { t with pwr := { t.pwr with resetLow := true } }
  else { s with pwr := { s.pwr with resetLow := false } }

/-- A die passes 108 °C (R110). -/
def thermWarn (d : Die) (s : State) : State :=
  if s.pwr.state = .standby then s
  else
    let s1 := powerMsg (s.setEvt pgPwr evThermWarn) kThermal sevInfo (diePlace d)
    { s1 with pwr := { s1.pwr with warned := if s1.pwr.warned.contains d then s1.pwr.warned else s1.pwr.warned ++ [d] } }

/-- A half die reaches 125 °C: power-fail of that half (R110). -/
def thermTrip (h : Half) (s : State) : State :=
  if s.pwr.half.of h = .off then s
  else
    let s1 := powerMsg (s.setEvt pgPwr (evThermTrip h)) kThermal sevError (placeOf h)
    powerFail { s1 with pwr := { s1.pwr with halfHot := s1.pwr.halfHot.set h true } } h

/-- The common die reaches 125 °C: halves and common die shut down (R106, R110). -/
def thermCommon (s : State) : State :=
  if s.pwr.state = .standby then s
  else
    let t := s.chipReset 3
    { t with pwr := { t.pwr with commonHot := true } }

/-- A junction is below 100 °C again (R110): a tripped half may be repowered, or start-up may resume. -/
def thermRecover (d : Die) (s : State) : State :=
  let s1 := { s with pwr := { s.pwr with warned := s.pwr.warned.filter (· != d) } }
  match d with
  | .A => { s1 with pwr := { s1.pwr with halfHot := s1.pwr.halfHot.set .A false } }
  | .B => { s1 with pwr := { s1.pwr with halfHot := s1.pwr.halfHot.set .B false } }
  | .C => { s1 with pwr := { s1.pwr with commonHot := false } }

/-- VBAT is measured; below 2.1 V VBAT_LOW is set (R103, R112). -/
def vbatLow (mv : Nat) (s : State) : State :=
  let low := decide (mv < 2100)
  let rise := low && !s.pwr.vbatLow && s.pwr.state != .standby
  let s1 := { s with pwr := { s.pwr with vbatMv := mv, vbatLow := low } }
  if rise then powerMsg (s1.setEvt pgPwr evVbatLow) kPower sevWarning else s1

/-- An overload folds VAUX_3V3 back and does nothing else (R93). -/
def vauxOverload (s : State) : State := { s with pwr := { s.pwr with vauxFold := s.pwr.vaux } }

/-- Start-up step 3 completes (R93, R104): VAUX_3V3 comes up; a lost retention pattern means the island's state
is new and marks the RTC invalid; its seconds run on, and a module in SEALED stays there (log entries 179, 180). -/
def preRegulatorsUp (retained : Bool) (s : State) : State :=
  if s.pwr.startStep = 2 ∧ (s.pwr.state = .boot ∨ s.pwr.state = .sealed) ∧ s.pwr.resetLow = false ∧
      s.pwr.commonHot = false ∧ ((s.pwr.feeds.a).detected ∨ (s.pwr.feeds.b).detected) then
    let s1 := { s with pwr := { s.pwr with startStep := 3, vaux := true, retentionLost := !retained } }
    if retained then s1
    else
      { s1 with
        pwr := { s1.pwr with rtcValid := false, lastCause := 0 }
        keys := { s1.keys with latch := 0, tampTime := 0, erasePend := false, tampCfg := 0x0202A900 } }
  else s

def execFeedDetected (f : Half) (mv : Nat) (s : State) : Host.Outcome State Fault Refusal := .next (feedDetected f mv s)
def execFeedLost (f : Half) (s : State) : Host.Outcome State Fault Refusal := .next (feedLost f s)
def execHalfHeldInReset (h : Half) (s : State) : Host.Outcome State Fault Refusal := .next (halfHeldInReset h s)
def execHalfRepower (h : Half) (s : State) : Host.Outcome State Fault Refusal := .next (halfRepower h s)
def execBreakerTrip (f : Half) (s : State) : Host.Outcome State Fault Refusal := .next (breakerTrip f s)
def execBreakerReclose (f : Half) (s : State) : Host.Outcome State Fault Refusal := .next (breakerReclose f s)
def execResetN (low : Bool) (s : State) : Host.Outcome State Fault Refusal := .next (resetN low s)
def execThermWarn (d : Die) (s : State) : Host.Outcome State Fault Refusal := .next (thermWarn d s)
def execThermTrip (h : Half) (s : State) : Host.Outcome State Fault Refusal := .next (thermTrip h s)
def execThermCommon (s : State) : Host.Outcome State Fault Refusal := .next (thermCommon s)
def execThermRecover (d : Die) (s : State) : Host.Outcome State Fault Refusal := .next (thermRecover d s)
def execVbatLow (mv : Nat) (s : State) : Host.Outcome State Fault Refusal := .next (vbatLow mv s)
def execVauxOverload (s : State) : Host.Outcome State Fault Refusal := .next (vauxOverload s)
def execPreRegulatorsUp (retained : Bool) (s : State) : Host.Outcome State Fault Refusal := .next (preRegulatorsUp retained s)

end Sys2Proof.Machine
end

