-- ==== Sys2Proof/Machine/Views.lean ====
section
/-!
DEFINITION. What the indirect tables show (02 R62 to R69): the words of an entry as a partition's read gives them.
-/

namespace Sys2Proof.Machine

/-- The half that answers a partition's reads of slot, domain and Cistern status: the one HPn_VIEW selects, else the one
with the higher claim; none while that half is off or no half publishes a claim (01 R23, 07 R257, 15 R495). -/
def State.viewHalf (s : State) (p : Part) : Option Half :=
  let pick : Option Half := match s.fieldAt (pgHp p) 0x048 1 0 with
    | 1 => some .A
    | 2 => some .B
    | _ => winner s.arb.claims
  pick.bind (fun h => if s.halfOn h then some h else none)

/-- The four words of a history entry (07 R257). -/
def HistEnt.words (e : HistEnt) : List Word :=
  let r := BitVec.ofInt 48 e.rate
  [r.setWidth 32, flagAt e.clean 31 ||| flagAt e.standby 30 ||| fld (r.toNat / 2 ^ 32) 0,
   fld (BitVec.ofInt 16 e.temp).toNat 0, fld (e.efc % 2 ^ 24) 0]

/-- One grant of a session entry (13 R412). -/
def Grant.word (g : Grant) : Word := flagAt g.active 31 ||| fld (BitVec.ofInt 4 g.log).toNat 24 ||| fld (satN 16 g.remain) 0

/-- The sixteen words of a session entry (13 R412). -/
def PtpSess.words (x : PtpSess) : List Word :=
  let c := x.client
  [flagAt true 31 ||| flagAt x.auth 30 ||| fld c.transport.toNat 28 ||| fld x.lp.val 24 ||| fld (x.key % 64) 18 ||| fld c.portNum.toNat 0,
   c.clockId.extractLsb' 32 32, c.clockId.extractLsb' 0 32,
   c.addr.extractLsb' 96 32, c.addr.extractLsb' 64 32, c.addr.extractLsb' 32 32, c.addr.extractLsb' 0 32,
   fld (c.dmac.toNat / 2 ^ 32) 0, c.dmac.extractLsb' 0 32,
   x.ann.word, x.sync.word, x.dresp.word,
   fld x.annSeq.toNat 16 ||| fld x.syncSeq.toNat 0, fld x.sigSeq.toNat 16 ||| fld x.dreqDrop.toNat 0, x.lastRx, x.dreqCnt]

/-- The four words of a slot record (16 R527). -/
def KeySlot.words (k : KeySlot) : List Word :=
  [k.curBank.attr, k.gen, fld k.stateCode 0 ||| flagAt k.prev.isSome 3 ||| flagAt k.loaded 4, k.commitSec]

/-- The twelve words of a measurement: octet 4k of the digest in bits 7 to 0 of word k (16 R527). -/
def measWords (m : BitVec 384) : List Word :=
  (List.range 12).map (fun i => BitVec.ofNat 32 (ofLe ((measBytes m).drop (4 * i) |>.take 4)))

/-- A model as its table shows it: a completed entry from its last write on, with GEN and LEARNED in force (02 R68, 07 R246). -/
def ModelTab.shown (t : ModelTab) : Vector Word 16 :=
  match t.pend.getLast? with
  | some (w, _) => setAt w 15 (t.words.get 15)
  | none => t.words


/-- The words of entry `e` of table `t` of a page, as a read by a partition finds them; none where they all read 0. -/
def tableEntry (s : State) (p : Part) (pg t e : Nat) : List Word :=
  match pageKind pg with
  | some .cis =>
    if h : t < 4 then (s.models.get ⟨t, h⟩).shown.toList
    else match s.viewHalf p with
      | none => []
      | some h =>
        let x := s.dom h (Fin.ofNat 4 t)
        (((if t < 8 then x.hist else x.hist64)[e]?).map HistEnt.words).getD []
  | some .sl => if e ≤ 8 then [(Config.frontResid t e).setWidth 32] else []
  | some .ptp => ((s.sess? e).map PtpSess.words).getD []
  | some .ftn => let x := look tableReset s.ftn.table e; [x.extractLsb' 0 32, x.extractLsb' 32 32]
  | some (.hp n) => [look vecReset (s.part (Fin.ofNat 4 n)).vecMap e]
  | some .key => if t = 0 then (s.slotKey (Fin.ofNat 64 e)).words else measWords (s.keys.meas.get (Fin.ofNat 8 e))
  | some .flt => [if t = 0 then look reactReset s.flt.react e else look countReset s.flt.counts e]
  | some .cnt => [s.cntVal e]
  | _ => []

/-- One live word of a table. -/
def tableWord (s : State) (p : Part) (pg t : Nat) (tab : IndTable) (addr : Nat) : Word :=
  ((tableEntry s p pg t (addr / tab.words))[addr % tab.words]?).getD 0

end Sys2Proof.Machine
end

