-- ==== Sys2Proof/Machine/Registers.lean ====
section
/-!
DEFINITION. Host accesses to the register pages: which are bus errors, what each write does, the indirect ports, the
registers that pop, locks, clears, injection and page soft resets (02).
-/

namespace Sys2Proof.Machine

/-! ## Page soft reset (R51, R52; 15 R490) -/

/-- Operations short of their commit point end with ABORT_RESET. -/
def abortReset (pg : Nat) (s : State) : State := abortEngine pg stAbortReset s

/-- A time-domain page reset: a domain reset on every powered half; the captures, the latched views and the jets of the
domain with it (06 R195, R230; 10 R332, 11 R355). -/
def resetTd (d : Dom) (s : State) : State :=
  let t : Int := (s.busTime d : Int)
  let s1 := disarmDomain d (domainReset d s)
  let s2 := allJets.foldl (fun a j => if a.jetDomNow j = d then jetStep j 0 (-t) true a else a) s1
  { s2 with parts := s2.parts.map (fun (x : PartSt) => { x with nowView := setAt x.nowView d {} }) }

/-- What reads of a page's pop register left held goes back to reset, for every partition. -/
def State.dropHeld (s : State) (f : PartSt → PartSt) : State := { s with parts := s.parts.map f }

/-- What a page soft reset does beyond the page's registers: what its status registers count, record or queue returns to reset with
them, and what they show of a condition that lasts goes on showing it (log entry 35). -/
def resetBeyond (pg : Nat) (s : State) : State :=
  match pageKind pg with
  | some (.td n) => resetTd (Fin.ofNat 4 n) s
  | some (.hp n) => (partitionReset (Fin.ofNat 4 n) s).modPage pg (fun p => { p with evtCnt := (s.page pg).evtCnt })
  | some (.jet n) => resetJet (Fin.ofNat 16 n) s
  | some (.cap n) =>
    ((abortReset pg s).modCap (Fin.ofNat 8 n) (fun (y : CapSt) =>
      { y with mode := 0, dom := 0, tag := none, fifo := [], lost := 0, lostPend := 0, ovf := false, missed := 0, seq := 0 })).dropHeld
      (fun x => { x with capHold := drop x.capHold n })
  | some (.lp n) =>
    let p : PortNo := Fin.ofNat 16 n
    settleAll (((withdrawPaths p (stopPort p (abortReset pg s))).modPort p (fun (x : PortSt) =>
      { x with txq := [], txSpill := 0, txLost := 0, txOvf := false, swCnt := 0, stbyDisc := 0, hrxHead := 0
               win := Vector.replicate 4 0, read := Vector.replicate 4 0, bwSeq := 0 })).dropHeld
      (fun x => { x with txHold := drop x.txHold n }))
  | some (.lane n) =>
    let l : LaneNo := Fin.ofNat 16 n
    let m := (s.lane l).mode
    settleAll ((s.modLane l (fun y => { y with skew := 0, corr := 0, uncorr := 0 })).setReg pg 0x414 (laneFactory n m 0x414) |>.setReg pg 0x418
      (laneFactory n m 0x418))
  | some .ptp =>
    settleAll { s with
      ports := s.ports.map (fun (x : PortSt) => { x with overP := [], waitP := {} })
      ptp := { s.ptp with bucketFull := 0, denied := 0, authFail := 0, saBad := 0, syncLate := 0
                          ports := s.ptp.ports.map (fun (x : PtpPort) => { x with dreqLimit := 0, foreign := 0, peer := 0, ann := none })
                          clients := s.ptp.clients.map (fun (x : Client) => { x with exch := 0, mpd := 0, mbound := 0, boundAt := none }) } }
  | some .ftn =>
    let a := abortReset pg s
    settleFtn { a with ports := a.ports.map (fun (x : PortSt) => { x with overF := [], waitF := {} })
                       ftn := { a.ftn with counts := Vector.replicate 12 0 } }
  | some .key => abortReset pg s
  | some .cnt => let a := abortReset pg s; { a with cnt := { a.cnt with snapSeq := 0 } }
  | some .flt =>
    { s with flt := { s.flt with log := [], logLost := 0, lostTotal := 0 }, parts := s.parts.map (fun (x : PartSt) => { x with fltHold := [0, 0, 0] }) }
  | some .lath =>
    allHalves.foldl (fun a h => a.modLath h (fun (l : Lath) => { l with swCnt := 0, lastDir := false, resid := 0 })) s
  | some .half =>
    let a := allHalves.foldl (fun a h => a.modHalf h (fun (x : HalfSt) => { x with mismatch := 0, lossCnt := 0, resyncCnt := 0 })) s
    { a with arb := { a.arb with swCnt := 0, lastCause := 0, recHold := 0, recJump := 0 } }
  | some .cis => allHalves.foldl (fun a h => a.modHalf h (fun (x : HalfSt) => { x with learnRes := 0, learnCnt := 0, efcHeld := false })) s
  | some (.rs n) =>
    allHalves.foldl (fun a h => a.modSlot h (Fin.ofNat 32 n) (fun (z : SlotSt) =>
      { z with lateCnt := 0, errCnt := 0, taiUtc := 0, leapPend := 0, leapDue := false, pend := { z.pend with inj := [] } })) s
  | _ => s

/-- A page soft reset takes place. EN of the Fountain rises with it where it was 0 (R595, 14 R455). -/
def softReset (pg : Nat) (s : State) : State :=
  let s1 := resetBeyond pg (dropSets pg (resetPageRegs s pg))
  if pg = pgFtn && !(s.page pg).en then ftnEnable true (s1.modPage pg (fun p => { p with en := false })) else s1

/-- A page soft reset is requested: at once where the page takes it so, else at its boundary (R51, 01 R25). -/
def requestReset (pg : Nat) (s : State) : State :=
  if immediateNow s pg 0x00C then softReset pg s else s.modPage pg (fun p => { p with srst := true })

/-- The boundary at which a requested page soft reset takes place, and its completion on pages without one. -/
def pageSoftReset (pg : Nat) (s : State) : State := if (s.page pg).srst then softReset pg s else s

/-! ## PAGE_CTL (R50, R595) -/

/-- A write of EN. A jet that EN at 0 has told to stop starts again from the falling edge it stops at. -/
def writeEn (pg : Nat) (on : Bool) (s : State) : State :=
  let was := (s.page pg).en
  let put1 (a : State) : State := a.modPage pg (fun p => { p with en := on })
  match pageKind pg with
  | some (.rs _) => put1 s
  | some (.jet n) =>
    let j : JetNo := Fin.ofNat 16 n
    let a := put1 s
    if on && !was then
      (if (a.jet j).phase == .run && (a.jet j).stop then a.modJet j (fun x => { x with again := true }) else startJet j a)
    else if on || !was then a
    else if (a.jet j).phase = .off then settleLevel j a
    else stopJet j false a
  | some (.lp n) => if on = was then s else settleAll (if on then put1 s else stopPort (Fin.ofNat 16 n) (put1 s))
  | some .ftn => ftnEnable on s
  | _ => s

def writeCtl (pg : Nat) (v : Word) (s : State) : State :=
  let s1 := writeEn pg (bit v 0) s
  let s2 := if bit v 31 then s1.modPage pg (fun p => { p with lock := true }) else s1
  if bit v 1 then requestReset pg s2 else s2

/-! ## PAGE_FAULT and PAGE_INJ (R82; 17 R544, R548) -/

/-- The half of a pair of detectors, the even one half A's. -/
def detHalf (det : Byte) : Half := if det.toNat % 2 = 0 then .A else .B

/-- A level detector still reports its condition (17 R544): oscillators and locks (04 R148), heartbeats, claim lines and the
comparison of the time buses (09 R315), thermometers (07 R259), thermal trips (03 R110), lane CDRs (12 R392) and tamper
sources (16 R519). -/
def levelReports (s : State) (pg : Nat) (e : Nat × Nat × Byte) : Bool :=
  let det := e.2.2
  let h := detHalf det
  let l := s.lath h
  match pageKind pg with
  | some .lath =>
      (match det.toNat / 2 with
       | 0 => s.halfOn h && l.cls == 0 && !l.lossInj
       | 1 => s.halfOn h && !l.primaryLock
       | 2 => s.halfOn h && !l.xoGood
       | _ => det == 6 && s.arb.clock.any (fun k => !s.gridOn k))
  | some .half =>
    (match det.toNat with
     | 2 | 3 => s.halfOn h && !(s.half h).linkUp
     | 6 | 7 => s.arb.parity.of h
     | 8 => s.arb.diverged
     | _ => false)
  | some .cis =>
    let g : Half := if det.toNat < 4 then .A else .B
    det.toNat % 4 == 2 && ((s.half g).temps.get 0).lost
  | some .pwr => e.2.1 == kThermal && (match e.1 with
      | 1 => s.pwr.halfHot.a
      | 2 => s.pwr.halfHot.b
      | _ => s.pwr.commonHot)
  | some (.lane n) => det == 2 && !(s.lane (Fin.ofNat 16 n)).cdr
  | some .key => e.2.1 == kTamper && s.keys.raw != 0
  | _ => false

/-- The cause of a page's fault state remains (17 R544). -/
def causeRemains (pg : Nat) (s : State) : Bool :=
  s.flt.units.any (fun e => e.1 / 256 % 256 == pg && (e.2.fenced || e.2.testing.isSome)) ||
    ((s.page pg).injArm && (s.page pg).injCont) || (s.page pg).fault.by_.any (levelReports s pg)

/-- A write of 1 to PAGE_FAULT.ACTIVE (R82; 07 R259, 11 R371). -/
def clearFault (pg : Nat) (s : State) : State :=
  if causeRemains pg s then s
  else
    let s1 := s.modPage pg (fun p => { p with fault := { p.fault with active := false, errpin := false, by_ := [] } })
    match pageKind pg with
    | some (.jet n) => jetDriverBack (Fin.ofNat 16 n) s1
    | some .cis => allHalves.foldl (fun a h => a.modHalf h (fun x => { x with efcHeld := false })) s1
    | _ => s1

/-- A write of PAGE_INJ: ARM at 1 injects into the detector, once or until ARM is 0 (17 R548). On a slot page it waits for a beat of
the halves that run (05 R190). -/
def writeInj (pg : Nat) (v : Word) (s : State) : State :=
  let arm := bit v 9
  let cont := bit v 8
  let s1 := s.modPage pg (fun p => { p with injDet := BitVec.ofNat 8 (bits v 7 0), injCont := cont, injArm := arm })
  if arm then
    let pr := s1.draw (2 ^ 20)
    let loc := pr.1
    let s2 := pr.2
    let slot := match pageKind pg with
      | some (.rs n) => some (Fin.ofNat 32 n)
      | _ => none
    let s3 := if cont && slot.isSome then s2 else detect pg (BitVec.ofNat 8 (bits v 7 0)) loc s2
    let waits := slot.any (fun n => !(s3.slot .A n).pend.inj.isEmpty || !(s3.slot .B n).pend.inj.isEmpty)
    if cont || waits then s3 else s3.modPage pg (fun p => { p with injArm := false })
  else s1

/-- What words do that have come into force at once, from `s` to `s1`. -/
def nowInForce (pg : Nat) (ws : KMap Word) (s s1 : State) : State :=
  match pageKind pg with
  | some (.lp n) => settleAll (settlePorts (portChanged (Fin.ofNat 16 n) s s1))
  | some (.lane _) => settleAll s1
  | some .ptp => settleAll (ptpCommand s1)
  | some .ftn => settleFtn s1
  | _ => applied pg ws s1

/-- A write of PAGE_APPLY (R59, R60). Words that a clear of HOLD frees where no boundary is waited for are in force at once; on
the PTP and Fountain pages holdPage has put them in force on the ports that do not run. -/
def writeApply (pg : Nat) (v : Word) (a : Access) (s : State) : State :=
  let s0 := if bit v 1 then discardPage s pg a else s
  let s1 := holdPage s0 pg (bit v 0) a
  let ws := (s0.page pg).waiting
  if (s.page pg).hold && !ws.isEmpty && putAtOnce s1 pg (ws.map (fun e => (e.1, e.2, allOnes))) then
    (if servePage pg then nowInForce pg ws s0 (s1.modPage pg (fun p => { p with applySeq := p.applySeq + 1 }))
     else nowInForce pg ws s1 (flushWords s1 pg))
  else s1

/-! ## The indirect port (R62 to R69) -/

def State.trio (s : State) (p : Part) (pg : Nat) : Trio := (s.page pg).trio.get p

def State.modTrio (s : State) (p : Part) (pg : Nat) (f : Trio → Trio) : State :=
  s.modPage pg (fun x => { x with trio := modAt x.trio p f })

/-- The table that a partition has selected on a page. -/
def State.tableOf (s : State) (p : Part) (pg : Nat) : Option IndTable :=
  (pageKind pg).bind (fun k => indTable? k (s.trio p pg).table.toNat)

/-- Words in a table. -/
def IndTable.size (t : IndTable) : Nat := t.words * t.entries

/-- Staged words are discarded, and TORN is set (R66). -/
def Trio.discard (t : Trio) : Trio := if t.staged.isSome then { t with staged := none, torn := true } else t

def writeIndAddr (p : Part) (pg : Nat) (v : Word) (s : State) : State := s.modTrio p pg (fun t => { t.discard with addr := v })

/-- A write of IND_CTL: the set of TORN by a discard wins over its clear (R66). -/
def writeIndCtl (p : Part) (pg : Nat) (v : Word) (s : State) : State :=
  s.modTrio p pg (fun t =>
    let kept := { t with torn := t.torn && !bit v 24 }.discard
    { kept with autoinc := bit v 8, table := BitVec.ofNat 8 (bits v 7 0)
                snap := if bits v 7 0 = t.table.toNat then t.snap else none })

/-- IND_CTL as it reads. -/
def State.indCtl (s : State) (p : Part) (pg : Nat) : Word :=
  let t := s.trio p pg
  flagAt t.torn 24 ||| fld (((s.tableOf p pg).map (fun x => x.words)).getD 0) 16 ||| flagAt t.autoinc 8 ||| fld t.table.toNat 0

def Trio.next (t : Trio) : Trio := if t.autoinc then { t with addr := t.addr + 1 } else t

/-- The word a read of IND_DATA returns, and the trio after it (R67). -/
def readInd (p : Part) (pg : Nat) (s : State) : Word × State :=
  let t := s.trio p pg
  match s.tableOf p pg with
  | none => (0, s)
  | some tab =>
    let e := t.addr.toNat / tab.words
    let k := t.addr.toNat % tab.words
    let taken : Option (List Word) := match t.snap with
      | some (e', n, ws) => if 0 < k ∧ e' = e ∧ n = k then some ws else none
      | none => none
    if tab.words = 1 then (tableWord s p pg t.table.toNat tab t.addr.toNat, s.modTrio p pg Trio.next)
    else if k = 0 then
      let ws := tableEntry s p pg t.table.toNat e
      (ws.headD 0, s.modTrio p pg (fun x => { x.next with snap := some (e, 1, ws) }))
    else match taken with
      | some ws => ((ws[k]?).getD 0, s.modTrio p pg (fun x => { x.next with snap := some (e, k + 1, ws) }))
      | none => (tableWord s p pg t.table.toNat tab t.addr.toNat, s.modTrio p pg (fun x => { x.next with snap := none }))

/-- Writable bits of a word of a table (07 R245, 14 R456, 15 R496, 17 R552). -/
def tableMask (k : PageKind) (w : Nat) : Word :=
  match k with
  | .cis => if w = 0 then 0x8000071F else if w = 15 then 0 else allOnes
  | .ftn => if w = 0 then 0xFFFFFF03 else allOnes
  | .hp _ => 0x1F
  | .flt => 0x31F
  | _ => 0

/-- A whole entry comes into force in its table (R66, R68; 07 R246). -/
def writeEntry (pg t e : Nat) (ws : List Word) (s : State) : State :=
  let w (i : Nat) : Word := (ws[i]?).getD 0
  match pageKind pg with
  | some .cis =>
    if h : t < 4 then
      { s with models := modAt s.models ⟨t, h⟩ (fun m => { m with pend := m.pend ++ [(Vector.ofFn (fun (i : Fin 16) => w i.val), false)] }) }
    else s
  | some .ftn => { s with ftn := { s.ftn with table := put tableReset s.ftn.table e (w 1 ++ w 0) } }
  | some (.hp n) => s.modPart (Fin.ofNat 4 n) (fun x => { x with vecMap := put vecReset x.vecMap e (w 0) })
  | some .flt => { s with flt := { s.flt with react := put reactReset s.flt.react e (w 0) } }
  | _ => s

/-- A write of IND_DATA: a word of a one-word entry at once; else it is staged, and the entry comes into force with its
last word, words not staged keeping what the table holds (R66). -/
def writeIndData (p : Part) (pg : Nat) (v : Word) (s : State) : State :=
  match s.tableOf p pg, pageKind pg with
  | some tab, some kind =>
    let t := s.trio p pg
    let e := t.addr.toNat / tab.words
    let k := t.addr.toNat % tab.words
    let old (i : Nat) : Word := tableWord s p pg t.table.toNat tab (e * tab.words + i)
    let same := match t.staged with
      | some (e', _) => e' == e
      | none => true
    let t1 := if same then t else t.discard
    let st : List (Nat × Word) := (match t1.staged with
      | some (_, l) => l.filter (fun x => x.1 != k)
      | none => []) ++ [(k, v)]
    if k + 1 = tab.words then
      let word (i : Nat) : Word := match st.find? (fun x => x.1 == i) with
        | some x => mergeMask (old i) x.2 (tableMask kind i)
        | none => old i
      (writeEntry pg t.table.toNat e ((List.range tab.words).map word) s).modTrio p pg (fun _ => { t1 with staged := none }.next)
    else s.modTrio p pg (fun _ => { t1 with staged := some (e, st) }.next)
  | _, _ => s

def noHold (_ : Nat) : HoldSet := []

/-! ## Causes of bus errors (R70 to R80, R596) -/

/-- One word of a write is exempt from the lock (R80). -/
def lockExempt (k : PageKind) (o : Nat) : Bool :=
  o == 0x014 || o == 0x018 || o == 0x01C || o == 0x028 || o == 0x030 ||
  (match k with
   | .td _ => o == 0x064
   | .jet _ => o == 0x064
   | .ftn => o == 0x058
   | .key => o == 0x044
   | _ => false)

/-- The causes that one word of a write meets: its offset in BAR0 and its value. -/
def wordCauses (s : State) (p : Part) (addr : Nat) (v : Word) : List Cause :=
  let pg := addr / 4096
  let o := addr % 4096
  match pageKind pg with
  | none => [.reserved]
  | some k =>
    let x := s.page pg
    let shadow := decide (0x800 ≤ o)
    let r := regRow? k (if shadow then o - 0x800 else o)
    let t := s.trio p pg
    let tab := s.tableOf p pg
    if !s.visible p pg then [.absent]
    else match r with
    | none => [.reserved]
    | some row =>
      if shadow && row.rwb == 0 then [.reserved]
      else
        (if shadow then [.shadowWrite] else []) ++
        (if (!s.owns p pg && o != 0x028 && o != 0x030) || row.writable == 0 || (o == 0x02C && tab.any (fun q => !q.writable))
          then [.readOnly] else []) ++
        (if x.lock && !lockExempt k o then [.lockViol] else []) ++
        (if row.wo != 0 && x.woDone.contains o then [.woViol] else []) ++
        (if o = 0x030 ∧ indTable? k (bits v 7 0) = none then [.indTable] else []) ++
        (if o = 0x02C ∧ ((tab.map IndTable.size).getD 0) ≤ t.addr.toNat then [.indRange] else [])

/-- Every byte of the access is enabled. -/
def fullBe (a : Access) : Bool := (List.range (min 8 a.width)).all (fun i => a.be.getLsbD i)

/-- The causes of a write as a whole. -/
def sizeCauses (a : Access) (off : Nat) : List Cause :=
  (if 8 < a.width then [.oversize] else []) ++
  (if (a.width = 2 ∨ a.width = 4 ∨ a.width = 8) ∧ off % a.width ≠ 0 then [.unaligned] else []) ++
  (if (a.width ≠ 4 ∧ a.width ≠ 8) ∨ !fullBe a then [.narrowWrite] else [])

/-! ## What one word of a write does (R54) -/

/-- What a write's row tells beside the word: PAGE_EVT bits set by hardware in the same cycle (R81), and the result of a
retest (17 R543). -/
structure Beside where
  coin : Word := 0
  pass : Option Bool := none
deriving DecidableEq, Repr

/-- A buffered write, and what its words do where they are in force at once. -/
def writeBuffered (pg : Nat) (ws : List (Nat × Word × Word)) (a : Access) (s : State) : State :=
  let s1 := bufferWords s pg ws a
  if putAtOnce s pg ws then
    nowInForce pg (ws.map (fun e => (e.1, e.2.1 &&& e.2.2))) s s1
  else s1

/-- A write-once register (R79); in the copy of 01 R25 it counts as a write put in force at once. -/
def writeOnce (pg o : Nat) (v : Word) (s : State) : State :=
  s.modPage pg (fun x => { (x.setReg pg o v) with
    woDone := x.woDone ++ [o], applySeq := if s.copyOnly pg then x.applySeq + 1 else x.applySeq })

/-- Writes of the partition page's own registers (15 R473, R474, R477; 18 R566). -/
def writeHp (p : Part) (o : Nat) (v m : Word) (s : State) : State :=
  let q : QNo := Fin.ofNat 8 ((o - 0x100) / 0x40)
  let b := (o - 0x100) % 0x40
  if 0x100 ≤ o ∧ o < 0x300 then
    (if b < 0x10 then doQBase s p q o v m else if b = 0x10 then doQCfg s p q v else if b = 0x14 then doSqTail s p q v
     else if b = 0x18 then doCqHead s p q v else s.setReg (pgHp p) o (mergeMask (s.reg (pgHp p) o) v m))
  else if o = 0x600 then (if bit v 0 then doMbxGo s p else s)
  else s.setReg (pgHp p) o (mergeMask (s.reg (pgHp p) o) v m)

/-- Writes of the collector page's own registers (17 R543, R547, R550). -/
def writeFlt (o : Nat) (v m : Word) (x : Beside) (s : State) : State :=
  if o = 0x044 then (if bit v 0 then resumeAlive s else s)
  else if o = 0x05C then
    let s1 := s.setReg pgFlt o (v &&& 0x03FF00FF)
    if bit v 31 then
      match x.pass with
      | some b => retestUnit (bits v 25 16) (BitVec.ofNat 8 (bits v 7 0)) b s1
      | none =>
        let pr := s1.draw 2
        let n := pr.1
        let s2 := pr.2
        retestUnit (bits v 25 16) (BitVec.ofNat 8 (bits v 7 0)) (n == 1) s2
    else s1
  else if o = 0x060 then
    let s1 := s.setReg pgFlt o (v &&& 0x3FF)
    if bit v 31 then engineWatchdog (bits v 9 0) s1 else s1
  else s.setReg pgFlt o (mergeMask (s.reg pgFlt o) v m)

/-- A write of a header register (R50). -/
def writeHeader (a : Access) (pg o : Nat) (v : Word) (x : Beside) (s : State) : State :=
  if o = 0x00C then writeCtl pg v s
  else if o = 0x014 then s.modPage pg (fun y => { y with evt := y.evt &&& ~~~(v &&& ~~~x.coin) })
  else if o = 0x018 then s.modPage pg (fun y => { y with evtEn := v })
  else if o = 0x01C then (if bit v 0 then clearFault pg s else s)
  else if o = 0x020 then writeInj pg v s
  else if o = 0x024 then writeApply pg v a s
  else if o = 0x028 then writeIndAddr a.part pg v s
  else if o = 0x02C then writeIndData a.part pg v s
  else if o = 0x030 then writeIndCtl a.part pg v s
  else s

/-- One word of a write that is no bus error. -/
def writeWord (a : Access) (x : Beside) (addr : Nat) (v : Word) (s : State) : State :=
  let pg := addr / 4096
  let o := addr % 4096
  match pageKind pg with
  | none => s
  | some k =>
    match regRow? k o with
    | none => s
    | some r =>
      if o < 0x040 then writeHeader a pg o v x s
      else if r.rwb != 0 then writeBuffered pg [(o, v, r.rwb)] a s
      else if r.wo != 0 then writeOnce pg o (v &&& r.wo) s
      else match k with
        | .hp n => writeHp (Fin.ofNat 4 n) o v r.rw s
        | .cap n => if bit v 15 then s.modCap (Fin.ofNat 8 n) (fun y => { y with ovf := false }) else s
        | .lp n =>
          if o = 0x408 then (if bit v 15 then s.modPort (Fin.ofNat 16 n) (fun y => { y with txOvf := false }) else s)
          else s.setReg pg o (mergeMask (s.reg pg o) v r.rw)
        | .jet n => killJet (Fin.ofNat 16 n) (bits v 1 0) s
        | .ftn => doFtnKill v s
        | .key => settleFtn (saRefresh (if bit v 8 then zeroiseAll s else zeroiseOne s (Fin.ofNat 64 (bits v 5 0))))
        | .flt => writeFlt o v r.rw x s
        | _ => s.setReg pg o (mergeMask (s.reg pg o) v r.rw)

/-- The two words of a 64-bit write form a buffered wide pair, which comes into force together (R72). -/
def widePair? (addr : Nat) : Option (Word × Word) :=
  match regAt? (addr / 4096) (addr % 4096), regAt? (addr / 4096) (addr % 4096 + 4) with
  | some lo, some hi => if lo.pair = 1 ∧ hi.pair = 2 ∧ lo.rwb ≠ 0 then some (lo.rwb, hi.rwb) else none
  | _, _ => none

/-- A write by a partition: a bus error of the first cause in the order of R596, or its words in ascending order (R62,
R73, R75). -/
def hostWrite (a : Access) (off : Nat) (v : BitVec 64) (x : Beside) (s : State) : State :=
  if !s.hostUp a.part || decide (2 ^ 20 ≤ off) then s
  else
    let lo := v.extractLsb' 0 32
    let hi := v.extractLsb' 32 32
    let w0 := off / 4 * 4
    let two := decide (w0 + 4 < off + a.width)
    let size := sizeCauses a off
    let c0 := wordCauses s a.part w0 lo
    let s1 := if size.isEmpty && c0.isEmpty then writeWord a x w0 lo s else s
    let c1 := if two then wordCauses s1 a.part (w0 + 4) hi else []
    match firstCause (size ++ c0 ++ c1) with
    | some c => busError s a.part c true off a.be
    | none =>
      if two then
        match widePair? off with
        | some (ml, mh) => writeBuffered (off / 4096) [(off % 4096, lo, ml), (off % 4096 + 4, hi, mh)] a s
        | none => writeWord a x (w0 + 4) hi s1
      else s1

/-- A write of a register that has a row of its own; a 64-bit one writes 0 to the word above it. -/
def rowWrite (a : Access) (pg o : Nat) (v : Word) (s : State) (x : Beside := {}) : State :=
  hostWrite a (pg * 4096 + o) (v.setWidth 64) x s

/-! ## Commands -/

def execTrowelArm (a : Access) (d : Dom) (v : Word) (s : State) : Host.Outcome State Fault Refusal := .next (rowWrite a (pgTd d) 0x060 v s)
def execForceHold (a : Access) (d : Dom) (v : Word) (s : State) : Host.Outcome State Fault Refusal := .next (rowWrite a (pgTd d) 0x064 v s)
def execJetKill (a : Access) (j : JetNo) (v : Word) (s : State) : Host.Outcome State Fault Refusal := .next (rowWrite a (pgJet j) 0x064 v s)
def execHrxTail (a : Access) (p : PortNo) (v : Word) (s : State) : Host.Outcome State Fault Refusal := .next (rowWrite a (pgLp p) 0x06C v s)
def execFtnKill (a : Access) (v : Word) (s : State) : Host.Outcome State Fault Refusal := .next (rowWrite a pgFtn 0x058 v s)
def execSqTail (a : Access) (q : QNo) (v : Word) (s : State) : Host.Outcome State Fault Refusal :=
  .next (rowWrite a (pgHp a.part) (qBase q + 0x14) v s)
def execCqHead (a : Access) (q : QNo) (v : Word) (s : State) : Host.Outcome State Fault Refusal :=
  .next (rowWrite a (pgHp a.part) (qBase q + 0x18) v s)
def execQueueEnable (a : Access) (q : QNo) (v : Word) (s : State) : Host.Outcome State Fault Refusal :=
  .next (rowWrite a (pgHp a.part) (qBase q + 0x10) (v ||| 0x80000000) s)
def execQueueDisable (a : Access) (q : QNo) (v : Word) (s : State) : Host.Outcome State Fault Refusal :=
  .next (rowWrite a (pgHp a.part) (qBase q + 0x10) (v &&& 0x7FFFFFFF) s)
def execMbxGo (a : Access) (v : Word) (s : State) : Host.Outcome State Fault Refusal := .next (rowWrite a (pgHp a.part) 0x600 v s)
def execKeyZeroise (a : Access) (slot : KeyNo) (s : State) : Host.Outcome State Fault Refusal :=
  .next (rowWrite a pgKey 0x044 (BitVec.ofNat 32 slot.val) s)
def execKeyZeroiseAll (a : Access) (s : State) : Host.Outcome State Fault Refusal := .next (rowWrite a pgKey 0x044 0x100 s)
def execFltResume (a : Access) (v : Word) (s : State) : Host.Outcome State Fault Refusal := .next (rowWrite a pgFlt 0x044 v s)
def execFltRetest (a : Access) (v : Word) (pass : Bool) (s : State) : Host.Outcome State Fault Refusal :=
  .next (rowWrite a pgFlt 0x05C v s { pass := some pass })
def execFltInjWdog (a : Access) (v : Word) (s : State) : Host.Outcome State Fault Refusal := .next (rowWrite a pgFlt 0x060 v s)
def execChainWrite (a : Access) (w : Fin 16) (v : Word) (s : State) : Host.Outcome State Fault Refusal :=
  .next (rowWrite a pgCnt (0x080 + 4 * w.val) v s)
def execPageLock (a : Access) (pg : PageNo) (s : State) : Host.Outcome State Fault Refusal :=
  .next (rowWrite a pg.val 0x00C (0x80000000 ||| flagAt (s.page pg.val).en 0) s)
def execPageEnable (a : Access) (pg : PageNo) (en : Bool) (s : State) : Host.Outcome State Fault Refusal :=
  .next (rowWrite a pg.val 0x00C (flagAt en 0) s)
def execSrst (a : Access) (pg : PageNo) (s : State) : Host.Outcome State Fault Refusal :=
  .next (rowWrite a pg.val 0x00C (0x2 ||| flagAt (s.page pg.val).en 0) s)
def execPageSoftReset (pg : PageNo) (s : State) : Host.Outcome State Fault Refusal := .next (pageSoftReset pg.val s)
def execEventClear (a : Access) (pg : PageNo) (v : Word) (coincident : Word) (s : State) : Host.Outcome State Fault Refusal :=
  .next (rowWrite a pg.val 0x014 v s { coin := coincident })
def execFaultClear (a : Access) (pg : PageNo) (s : State) : Host.Outcome State Fault Refusal := .next (rowWrite a pg.val 0x01C 1 s)
def execInject (a : Access) (pg : PageNo) (det : Byte) (continuous : Bool) (s : State) : Host.Outcome State Fault Refusal :=
  .next (rowWrite a pg.val 0x020 (0x200 ||| flagAt continuous 8 ||| det.setWidth 32) s)
def execApplyHold (a : Access) (pg : PageNo) (s : State) : Host.Outcome State Fault Refusal := .next (rowWrite a pg.val 0x024 1 s)
def execApplyRelease (a : Access) (pg : PageNo) (s : State) : Host.Outcome State Fault Refusal := .next (rowWrite a pg.val 0x024 0 s)
def execDiscard (a : Access) (pg : PageNo) (s : State) : Host.Outcome State Fault Refusal :=
  .next (rowWrite a pg.val 0x024 (0x2 ||| flagAt (s.page pg.val).hold 0) s)
def execIndAddrWrite (a : Access) (pg : PageNo) (v : Word) (s : State) : Host.Outcome State Fault Refusal :=
  .next (rowWrite a pg.val 0x028 v s)
def execIndCtlWrite (a : Access) (pg : PageNo) (v : Word) (s : State) : Host.Outcome State Fault Refusal :=
  .next (rowWrite a pg.val 0x030 v s)
def execIndDataWrite (a : Access) (pg : PageNo) (v : Word) (s : State) : Host.Outcome State Fault Refusal :=
  .next (rowWrite a pg.val 0x02C v s)

end Sys2Proof.Machine
end

