-- ==== Sys2Proof/Machine/Status.lean ====
section
/-!
DEFINITION. What reads of registers return: the header, the status registers of every page as the hardware's state
gives them, the shadow mirror (02 R50, R58; the registers of 03 to 19).
-/

namespace Sys2Proof.Machine

/-! ## Small forms -/

/-- A signed whole number of 32 bits, saturating. -/
def sat32 (q : Rat) : Word := wordI (satI 32 (openQ q))

/-- Two halves of a word. -/
def two16 (hi lo : Nat) : Word := fld (hi % 65536) 16 ||| fld (lo % 65536) 0

def low16 (n : Nat) : Word := fld (n % 65536) 0

/-- The low or the high word of a signed number of `n` bits, at most 64. -/
def wideWord (n : Nat) (v : Int) (high : Bool) : Word :=
  let w := (BitVec.ofInt n v).toNat
  BitVec.ofNat 32 (if high then w / 2 ^ 32 else w)

/-- The low or the high word of a 64-bit number. -/
def pairWord (v : Nat) (high : Bool) : Word := BitVec.ofNat 32 (if high then v / 2 ^ 32 else v)

def codeWord (c : Code) : Word := c.setWidth 32

/-! ## Headers (02 R50) -/

/-- PAGE_ID: region, subtype, instance, page number. -/
def pageId (pg : Nat) (k : PageKind) : Word :=
  let sub : Nat := match k with
    | .cis => 1 | .lath => 1 | .sl => 2 | .cap _ => 2 | .lane _ => 1 | _ => 0
  let n : Nat := match k with
    | .hp n | .rs n | .td n | .cap n | .jet n | .lp n | .lane n => n
    | _ => 0
  fld (pg / 16) 28 ||| fld sub 20 ||| fld n 8 ||| fld pg 0

def pageCap (k : PageKind) : Word :=
  let rows := blockRows k
  flagAt (rows.any (fun r => r.rwb != 0)) 31 ||| flagAt ((indTable? k 0).isSome) 30 ||| flagAt (rows.any (fun r => r.pop)) 29 |||
    flagAt (rows.any (fun r => r.pair != 0)) 28 ||| fld (boundaryOf k) 24

/-! ## Power, device and management (03, 18) -/

def PwrState.code : PwrState → Nat
  | .run => 0
  | .reduced => 1
  | .sealed => 2
  | .standby => 3
  | .boot => 4

def pwrStatus (s : State) (o : Nat) : Word :=
  let w := s.pwr
  let ma (f : Feed) : Nat := if f.detected then (Config.feedMa f.ma (s.now / 800000)).toNat else 0
  let feed (f : Feed) : Word := two16 (ma f) f.mv
  let uw := w.feeds.a.mv * ma w.feeds.a + w.feeds.b.mv * ma w.feeds.b
  match o with
  | 0x040 => fld w.startStep 16 ||| flagAt w.rtcValid 13 ||| flagAt w.vbatLow 12 ||| flagAt w.feeds.b.detected 9 |||
      flagAt w.feeds.a.detected 8 ||| flagAt (s.halfOn .B) 5 ||| flagAt (s.halfOn .A) 4 ||| fld w.state.code 0
  | 0x044 => feed w.feeds.a
  | 0x048 => feed w.feeds.b
  | 0x04C => low16 w.vbatMv
  | 0x050 => low16 ((uw + Config.powerRound (s.now / 800000) % 10000) / 10000)
  | 0x054 => fld w.lastCause 0
  | _ => 0

def devStatus (s : State) (o : Nat) : Word :=
  let die (d : Nat) (ok : Bool) (high : Bool) : Word := pairWord ((Config.dieId d).toNat + if ok then 2 ^ 57 else 0) high
  match o with
  | 0x040 => 0x97400000 ||| fld Config.revision.toNat 8
  | 0x048 => pairWord Config.serial.toNat false
  | 0x04C => pairWord Config.serial.toNat true
  | 0x050 => die 0 (decide (4 ≤ s.pwr.startStep)) false
  | 0x054 => die 0 (decide (4 ≤ s.pwr.startStep)) true
  | 0x058 => die 1 s.mgt.dieRead.a false
  | 0x05C => die 1 s.mgt.dieRead.a true
  | 0x060 => die 2 s.mgt.dieRead.b false
  | 0x064 => die 2 s.mgt.dieRead.b true
  | 0x068 => flagAt (s.mgt.image == .regionB) 31 ||| flagAt s.mgt.trialImage 30 ||| fld (s.mgt.bootCtl.tries % 4) 28 |||
      flagAt s.mgt.dalnalKey 27 ||| fld (s.keys.fuse.rollback % 128) 16 ||| fld (s.mgt.svn % 256) 0
  | _ => 0

def mgtStatus (s : State) (o : Nat) : Word :=
  let m := s.mgt
  let t (l : List Int) (k : Nat) : Nat := (((l[k]?).getD 0) % 65536).toNat
  let pairT (l : List Int) (k : Nat) : Word := two16 (t l (2 * k + 1)) (t l (2 * k))
  if o = 0x040 then two16 m.restarts.toNat 0 ||| fld (min 255 m.lockstepRun) 8 ||| flagAt m.running 0
  else if o = 0x044 then m.version
  else if 0x080 ≤ o ∧ o < 0x090 then pairT m.tempA.toList ((o - 0x080) / 4)
  else if 0x090 ≤ o ∧ o < 0x0A0 then pairT m.tempB.toList ((o - 0x090) / 4)
  else if 0x0A0 ≤ o ∧ o < 0x0B8 then pairT m.tempC.toList ((o - 0x0A0) / 4)
  else if o = 0x0B8 then two16 (t [m.ots.b] 0) (t [m.ots.a] 0)
  else if 0x0C0 ≤ o ∧ o < 0x0E0 then low16 (m.rails.get (Fin.ofNat 8 ((o - 0x0C0) / 4)))
  else if o = 0x100 then s.reg pgMgt o ||| flagAt m.smbPriv 7
  else if o = 0x104 then s.reg pgMgt o ||| two16 m.ethDrop.toNat 0
  else 0

/-! ## Lath, Cistern, Spirit Level and halves (04, 07, 08, 09) -/

def LathMode.code : LathMode → Nat
  | .acquire => 0
  | .primary => 1
  | .coast => 2
  | .standby => 3
  | .returning => 4
  | .fail => 5

def lathStatus (s : State) (o : Nat) : Word :=
  let l := s.lath (if o < 0x0C0 then .A else .B)
  match o % 0x40 with
  | 0x00 => fld (min 255 l.qualWin) 24 ||| flagAt l.xoOk 11 ||| flagAt (l.cls != 0) 10 ||| fld l.cls 8 ||| fld l.src 4 ||| fld l.st.code 0
  | 0x08 => wideWord 48 (l.xoY.getD 0) false
  | 0x0C => wideWord 48 (l.xoY.getD 0) true
  | 0x10 => l.xoUnc
  | 0x14 => sat32 (rateQ ((if l.st = .returning then l.moscWin else l.moscY : Int) : Rat) * (10 ^ 12 : Nat))
  | 0x18 => fld (min 255 l.resid) 24 ||| flagAt l.lastDir 16 ||| fld l.swCnt.toNat 0
  | 0x1C => flagAt l.frozen 31 ||| fld l.offset.toNat 16 ||| fld l.ctrl.toNat 0
  | _ => 0

/-- Status of the Cistern page: per domain from the half that answers the partition, per half from each half (07 R256). -/
def cisStatus (s : State) (p : Part) (o : Nat) : Word :=
  if o < 0x200 then
    let d : Dom := Fin.ofNat 4 ((o - 0x100) / 0x20)
    match s.viewHalf p with
    | none => if o % 0x20 = 0x1C then 0xFFFF else 0
    | some h =>
      let x := s.dom h d
      let (o', m, mb) := s.modelUsed h d
      match o % 0x20 with
      | 0x00 => flagAt x.ready 31 ||| flagAt x.inHold 30 |||
          fld (if !modelValid m mb then 0 else if o' = .xo then 2 else 1) 28 ||| low16 (satN 16 x.cleanRun)
      | 0x08 => wideWord 48 (match x.hold with | some k => openQ k.rBase | none => 0) false
      | 0x0C => wideWord 48 (match x.hold with | some k => openQ k.rBase | none => 0) true
      | 0x10 => BitVec.ofNat 32 (satN 32 (openQ (x.ur * (10 ^ 15 : Nat))).toNat)
      | 0x14 => BitVec.ofNat 32 (satN 32 (openQ (x.ua * (10 ^ 21 : Nat))).toNat)
      | 0x18 => BitVec.ofNat 32 (satN 32 (openQ (x.ut * (10 ^ 15 : Nat))).toNat)
      | 0x1C => codeWord x.g1024
      | _ => 0
  else
    let h : Half := if o < 0x240 then .A else .B
    let x := s.half h
    match o % 0x40 with
    | 0x00 => flagAt (s.halfOn h && !x.sensorGone (s.model h x.lath.osc)) 31 ||| low16 (x.oscTemp x.lath.osc % 65536).toNat
    | 0x04 => flagAt (x.efcMode == 2) 31 ||| flagAt x.efcLimit 30 |||
        fld (if x.efcMode = 0 ∨ s.halfOn h = false then 0 else x.efcCode % 2 ^ 24) 0
    | 0x08 => two16 (bits ((s.model h .xo).get 15) 15 0) (bits ((s.model h .mosc).get 15) 15 0)
    | 0x0C => fld (x.learnRes % 256) 16 ||| fld x.learnCnt.toNat 0
    | _ => 0

/-- Status of the Spirit Level page: base 0x100 for half A, 0x200 for half B (08 R280). -/
def slStatus (s : State) (o : Nat) : Word :=
  let h : Half := if o < 0x200 then .A else .B
  let d : Dom := Fin.ofNat 4 (o % 0x100 / 0x20)
  let x := s.dom h d
  let lv (i : Fin 6) : Nat := (x.codes.get i).toNat
  let held := (s.slot h (Fin.ofNat 32 (26 + o % 0x10 / 4))).held
  if !s.halfOn h then resetWord pgSl o
  else if 0x80 ≤ o % 0x100 then (if held = 0 then 0 else codeWord (encodePs held))
  else match o % 0x20 with
    | 0x00 => two16 (lv 1) (lv 0)
    | 0x04 => two16 (lv 3) (lv 2)
    | 0x08 => two16 (lv 5) (lv 4)
    | 0x0C => fld x.unb 20 ||| flagAt (x.unb != 0) 19 ||| flagAt (decide (s.divPs h ≠ 0)) 18 |||
        flagAt (decide (x.gTerm ≠ 0) && (x.st == 3 || x.st == 4)) 17 ||| flagAt (x.levels.toList.any (fun l => decide (l.comp < l.pub))) 16 |||
        codeWord x.bound
    | 0x10 => two16 (encodePs (s.lathTermPs h d)).toNat (encodePs x.gTerm).toNat
    | 0x14 => codeWord (encodePs (s.divPs h))
    | 0x18 => codeWord x.entryCode
    | 0x1C => if x.unb = 1 ∨ x.unb = 2 ∨ x.unb = 3 then 0xFFFF else codeWord (encodeB (x.levels.foldl (fun a l => a + l.comp) 0))
    | _ => 0

def Role.code : Role → Nat
  | .off => 0
  | .lath => 1
  | .test => 2
  | .solo => 3
  | .loading => 4
  | .verify => 5
  | .holdoff => 6
  | .peer => 7
  | .split => 8

def halfStatus (s : State) (o : Nat) : Word :=
  let claim (c : Option (BitVec 8)) (lo : Nat) : Word := fld ((c.getD 0).toNat) lo ||| flagAt c.isSome (lo + 8)
  if o = 0x080 then fld s.arb.swCnt.toNat 16 ||| fld (s.arb.lastCause % 16) 8 ||| flagAt s.busHalf.isNone 1 ||| flagAt (s.busHalf == some .B) 0
  else if o = 0x084 then claim s.arb.claims.b 16 ||| claim s.arb.claims.a 0
  else if o = 0x088 then two16 (satN 16 s.arb.recHold) (satN 16 s.arb.recJump)
  else if 0x090 ≤ o ∧ o < 0x0A0 then
    (match s.arb.tdiff.get (Fin.ofNat 4 ((o - 0x090) / 4)), s.drivesBus .A && s.drivesBus .B with
     | some v, true => wordI (satI 32 v)
     | _, _ => 0x80000000)
  else
    let h : Half := if o < 0x140 then .A else .B
    let x := s.half h
    let left := s.fieldAt pgHalf 0x040 23 16 - x.holdBeats / 1024
    match o % 0x40 with
    | 0x00 => fld (if x.role = .holdoff then left else 0) 24 ||| fld ((s.claimOf h).getD 0).toNat 16 ||| flagAt (s.claimOf h).isSome 12 |||
        flagAt x.linkUp 11 ||| flagAt x.peerOk 10 ||| flagAt x.selftestOk 9 ||| flagAt (s.lockOk h) 8 ||| fld x.role.code 0
    | 0x04 => two16 x.mismatch.toNat (satN 16 x.matchRun)
    | 0x08 => two16 x.lossCnt.toNat (satN 16 (x.splitBeats / 1024))
    | 0x0C => fld (x.testRes % 4) 18 ||| flagAt x.suspended 17 ||| fld x.resyncCnt.toNat 0
    | _ => 0

/-! ## Slots and domains (05 R188, 06 R229, R230) -/

/-- Status of a slot on one half. Frequencies, drift slope, phase deviation and stability are those against the lowest-numbered assigned
domain, where the tables name none (log entry 83). -/
def slotStatus (s : State) (h : Half) (n : SlotNo) (o : Nat) : Word :=
  let x := s.slot h n
  let d := s.slotShown n
  let q := s.sd h n d
  let l4 (i : Dom) : Option Rat :=
    if s.slotClass n = 2 then (s.freqU n).map (fun u => (u + s.flimAt n 29 20) * (10 ^ 18 : Nat))
    else (s.slotU h n).map (· + s.slotT h n i)
  let hold := s.fieldAt (pgRs n) 0x050 31 16 - x.holdBeats / 1024
  let w (i : Dom) : Nat := (nearQ (s.effW h i n * (2 ^ 15 : Nat))).toNat
  let use (i : Dom) : Word := flagAt (s.steers h n i) (28 + i.val)
  if o = 0x100 then use 0 ||| use 1 ||| use 2 ||| use 3 ||| fld (x.cause % 16) 16 ||| flagAt x.latch 10 ||| flagAt x.adopting 9 |||
    flagAt x.present 8 ||| fld x.st 0
  else if o = 0x104 then two16 (if x.st = 5 then hold else 0) (satN 16 (x.qualBeats / 1024))
  else if 0x108 ≤ o ∧ o < 0x128 then
    let i : Dom := Fin.ofNat 4 ((o - 0x108) / 8)
    let v : Int := if s.slotClass n = 2 ∨ !(s.slotMask n).contains i then 0 else (s.sd h n i).latest.getD 0
    wideWord 64 (satI 64 v) (decide (o % 8 = 4))
  else match o with
    | 0x128 => sat32 (q.y1 * (10 ^ 15 : Nat))
    | 0x12C => sat32 (q.y64 * (10 ^ 15 : Nat))
    | 0x130 => sat32 (q.y1024 * (10 ^ 15 : Nat))
    | 0x134 => sat32 (q.slope * (10 ^ 18 : Nat))
    | 0x138 => sat32 q.phMean
    | 0x13C => if q.obs.isEmpty then 0 else BitVec.ofNat 32 (satN 32 (nearQ (rootQ (s.slotS2 h n d) 1)).toNat)
    | 0x140 => two16 (w 1) (w 0)
    | 0x144 => two16 (w 3) (w 2)
    | 0x148 => two16 (if isPtp n then (encodeOpen (s.slotP h n)).toNat else 0)
        (if (s.slotMask n).isEmpty then 0xFFFF else (encodeOpen (l4 d)).toNat)
    | 0x14C => wordI (satI 32 x.delta)
    | 0x150 =>
      if n.val = 30 then fld (x.atomUnc % 2 ^ 24) 8 ||| fld x.atomStatus 0
      else flagAt x.utcMismatch 17 ||| flagAt x.fixValid 16 ||| fld x.lateCnt.toNat 8 ||| fld x.errCnt.toNat 0
    | 0x154 => x.todSec
    | _ => 0

/-- SERVE_OK as a half gives it (01 R23): that of the arbitrated bus for the half it carries, and for the other the same conditions on
its own values. -/
def State.serveOkOf (s : State) (h : Half) (d : Dom) : Bool :=
  let x := s.dom h d
  if s.busHalf = some h then s.serveOk d
  else x.stepped && x.bound != 0xFFFF && (if s.bitAt (pgTd d) 0x040 8 then x.st == 2 else x.st != 0)

def domStatus (s : State) (h : Half) (d : Dom) (o : Nat) : Word :=
  let x := s.dom h d
  let pg := pgTd d
  let step : Nat × SlotNo := x.stepRec.getD (0, 0)
  match o with
  | 0x0C4 => fld ((s.membersNow h d).length % 64) 8 ||| (match x.sel with
      | some n => if s.ensemble d then 0 else flagAt true 5 ||| fld n.val 0
      | none => 0)
  | 0x0C8 => wideWord 64 (satI 64 (openQ x.confE)) false
  | 0x0CC => wideWord 64 (satI 64 (openQ x.confE)) true
  | 0x100 => fld (x.bwEff % 32) 24 ||| flagAt (s.serveOkOf h d) 16 ||| flagAt x.ready 15 ||| flagAt x.forced 14 ||| flagAt x.aw 13 |||
      flagAt x.wExc 12 ||| flagAt x.wSlope 11 ||| flagAt x.steer 10 ||| flagAt (s.bitAt pg 0x060 0 && !x.stepped) 9 |||
      flagAt x.stepped 8 ||| fld x.coat 4 ||| fld x.st 0
  | 0x104 => codeWord x.bound
  | 0x108 => if x.stepped then sat32 x.eBar else 0
  | 0x10C => BitVec.ofNat 32 (satN 32 (x.stateBeats / 1024))
  | 0x110 => wideWord 48 x.rate false
  | 0x114 => wideWord 48 x.rate true
  | 0x118 => wideWord 48 x.centre false
  | 0x11C => wideWord 48 x.centre true
  | 0x120 => pairWord (step.1 / (1000000000 * 2 ^ 32)) false
  | 0x124 => pairWord (step.1 / (1000000000 * 2 ^ 32)) true
  | 0x128 => flagAt x.stepRec.isSome 31 ||| fld (step.1 / 2 ^ 32 % 1000000000) 0
  | 0x12C => fld step.2.val 0
  | _ => 0

/-- The latched live view of a domain (06 R229). -/
def nowWord (v : NowView) (o : Nat) : Word :=
  match o with
  | 0x130 => BitVec.ofNat 32 (fracOf v.t)
  | 0x134 => BitVec.ofNat 32 (nsOf v.t)
  | 0x138 => BitVec.ofNat 32 (secOf v.t)
  | 0x13C => low16 (secOf v.t / 2 ^ 32)
  | 0x140 => codeWord v.bound ||| fld v.state 16
  | _ => 0

/-! ## Captures, jets, lanes and ports (10 R346, 11 R369, 12 R390) -/

def holdWord (l : HoldSet) (i : Nat) (high : Bool) : Word := pairWord ((l[i]?).getD 0).toNat high

def capStatus (s : State) (p : Part) (n : CapNo) (o : Nat) : Word :=
  let x := s.cap n
  let l := look noHold (s.part p).capHold n.val
  match o with
  | 0x04C => fld x.lost.toNat 16 ||| flagAt x.ovf 15 ||| fld x.mode 10 ||| fld x.dom.val 8 ||| fld x.fifo.length 0
  | 0x050 => x.missed
  | 0x068 => holdWord l 0 false
  | 0x06C => holdWord l 0 true
  | 0x070 => holdWord l 1 false
  | 0x074 => holdWord l 2 false
  | _ => 0

def jetStatus (s : State) (j : JetNo) (o : Nat) : Word :=
  let x := s.jet j
  match o with
  | 0x100 => fld x.swCnt.toNat 16 ||| flagAt x.planeSet 8 ||| flagAt s.busHalf.isNone 7 ||| flagAt (x.half == some .B) 6 ||| flagAt x.ramp.isSome 5 |||
      flagAt x.aligned 4 ||| flagAt (s.jetKillVal j != 0) 3 ||| flagAt x.sq 2 ||| flagAt (x.phase == .wait || x.phase == .forStep) 1 |||
      flagAt (x.phase == .run && !x.sq) 0
  | 0x104 => codeWord x.bound
  | 0x108 => pairWord (satN 40 x.align) false
  | 0x10C => pairWord (satN 40 x.align) true
  | 0x110 => fld x.delayed.toNat 16 ||| fld x.hold.toNat 0
  | _ => 0

def laneStatus (s : State) (n : LaneNo) (o : Nat) : Word :=
  let x := s.lane n
  match o with
  | 0x100 => (match s.laneOwner n with
      | some (p, _) => flagAt true 16 ||| fld p.val 12
      | none => 0) ||| flagAt x.hiBer 5 ||| flagAt x.lt 4 ||| flagAt x.an 3 ||| flagAt x.aligned 2 ||| flagAt x.block 1 ||| flagAt x.cdr 0
  | 0x104 => two16 x.uncorr.toNat x.corr.toNat
  | 0x400 => Config.laneLat n.val x.mode
  | 0x420 => x.skew
  | 0x424 => flagAt (s.unitBusy (pgLane n) 0 || s.unitBusy (pgLane n) 1) 2 ||| flagAt x.fec 1 ||| flagAt x.ready 0
  | _ => 0

def portStatus (s : State) (p : Part) (n : PortNo) (o : Nat) : Word :=
  let x := s.port n
  let l := look noHold (s.part p).txHold n.val
  let rd (i : Fin 4) : Nat := x.read.get i
  let path (a : PathAB) : PathSt := s.path n a
  let rx := s.bitAt (pgLp n) 0x058 1
  match o with
  | 0x070 => fld (x.hrxHead % 4096) 0
  | 0x084 => fld x.bwSeq.toNat 0
  | 0x088 => pairWord (rd 0) false
  | 0x08C => pairWord (rd 0) true
  | 0x090 => pairWord (rd 1) false
  | 0x094 => pairWord (rd 1) true
  | 0x098 => BitVec.ofNat 32 (rd 2)
  | 0x09C => BitVec.ofNat 32 (rd 3)
  | 0x100 => flagAt x.conflict 5 ||| flagAt (s.pathUp n .B && s.tsOk n .B) 4 ||| flagAt (s.pathUp n .A && s.tsOk n .A) 3 ||| flagAt (s.portUp n && s.activePath n == .B) 2 |||
      flagAt (path .B).link 1 ||| flagAt (path .A).link 0
  | 0x104 => fld x.swCnt.toNat 16 ||| fld ((s.pathClaim n .B).getD 0).toNat 8 ||| fld ((s.pathClaim n .A).getD 0).toNat 0
  | 0x108 => x.stbyDisc
  | 0x10C => flagAt x.dnuLoop 20 ||| fld x.qlTx.toNat 16 ||| flagAt (rx && (path .B).esmcValid) 12 ||| fld (path .B).ql.toNat 8 |||
      flagAt (rx && (path .A).esmcValid) 4 ||| fld (path .A).ql.toNat 0
  | 0x408 => fld x.txSpill.toNat 16 ||| flagAt x.txOvf 15 ||| fld x.txq.length 0
  | 0x418 => holdWord l 0 false
  | 0x41C => holdWord l 0 true
  | 0x420 => holdWord l 1 false
  | 0x424 => holdWord l 2 false
  | _ => 0

/-! ## PTP engine and Fountain (13 R425, 14 R463) -/

/-- An announce interval of a client instance, in CLK_CORE cycles, times ANN_TO. -/
def State.annTo (s : State) (k : ClNo) : Nat := s.clf k 4 15 12 * logCycles (s.clLog k .announce)

def ptpStatus (s : State) (o : Nat) : Word :=
  if o = 0x400 then fld s.sessList.length 0
  else if o = 0x404 then two16 s.ptp.bucketFull.toNat s.ptp.denied.toNat
  else if o = 0x408 then two16 s.ptp.authFail.toNat s.ptp.saBad.toNat
  else if o = 0x40C then s.ptp.syncLate
  else if 0x500 ≤ o ∧ o < 0x600 then
    let n : PortNo := Fin.ofNat 16 ((o - 0x500) / 0x10)
    let x := s.ptpPort n
    let heard := x.foreignAt.any (fun t => decide (s.now < t + 16 * 800000000))
    match o % 0x10 with
    | 0x0 => (match x.ann with
        | some a => fld (a.clockClass % 256) 24 ||| fld (a.accuracy % 256) 16 ||| fld (a.timeSource % 256) 8
        | none => 0) ||| fld x.peer.toNat 3 ||| flagAt heard 2 |||
        flagAt (s.unit pgPtp (BitVec.ofNat 8 (1 + n.val))).fenced 1 ||| flagAt x.serving 0
    | 0x4 => fld (s.sessList.filter (fun e => e.2.lp == n)).length 0
    | 0x8 => two16 x.dreqLimit.toNat x.foreign.toNat
    | _ => 0
  else if 0x600 ≤ o ∧ o < 0x700 then
    let k : ClNo := Fin.ofNat 4 ((o - 0x600) / 0x40)
    let x := s.client k
    let st := s.clState k
    match o % 0x40 with
    | 0x00 => (match x.master with
        | some m => fld m.timeSource.toNat 24 ||| fld m.gmAccuracy.toNat 16 ||| fld m.gmClass.toNat 8
        | none => 0) ||| flagAt (x.boundAt.any (fun t => decide (s.now < t + s.annTo k))) 4 ||| flagAt x.loss 3 ||| fld st 0
    | 0x08 => pairWord ((x.master.map (fun m => m.sender.toNat)).getD 0) false
    | 0x0C => pairWord ((x.master.map (fun m => m.sender.toNat)).getD 0) true
    | 0x10 => wideWord 64 x.mpd false
    | 0x14 => wideWord 64 x.mpd true
    | 0x18 => two16 ((x.master.map (fun m => m.senderPort.toNat)).getD 0) x.mbound.toNat
    | 0x1C => x.exch
    | _ => 0
  else 0

/-- A load per mille: the work of the latest second against the capacity in service. -/
def perMille (work cap : Nat) : Nat := if cap = 0 then 0 else min 1000 (work * 1000 / cap)

def ftnStatus (s : State) (o : Nat) : Word :=
  let ok (first n : Nat) : List Nat := (List.range n).filter (fun k => !s.unitBusy pgFtn (BitVec.ofNat 8 (first + k)))
  let mask (l : List Nat) : Nat := l.foldl (fun a k => a + 2 ^ k) 0
  if o = 0x400 then fld (mask (ok 0 8)) 16 ||| fld (mask (ok 8 4)) 8 ||| flagAt (allPorts.any (fun p => (s.ftnPort p).smearing)) 3 |||
    flagAt (allPorts.any (fun p => decide (s.leapDir p ≠ 0))) 2 ||| flagAt s.ntsReadyNow 1 ||| flagAt s.killed 0
  else if o = 0x404 then s.ftn.gen &&& 0xFFFFFF
  else if o = 0x408 then (s.ftn.epoch.getD 0).setWidth 32
  else if o = 0x40C then
    let live := s.ftn.util.filter (fun (u : Nat × Nat × Nat) => decide (s.now < u.1 + 800000000))
    let nb := live.foldl (fun a u => a + u.2.1) 0
    let ops := live.foldl (fun a u => a + u.2.2) 0
    fld (perMille nb (120000000 * (ok 8 4).length)) 16 ||| fld (perMille ops (800000000 * (ok 0 8).length)) 0
  else if 0x410 ≤ o ∧ o < 0x440 then s.ftn.counts.get (Fin.ofNat 12 ((o - 0x410) / 4))
  else if 0x500 ≤ o ∧ o < 0x600 then
    let n : PortNo := Fin.ofNat 16 ((o - 0x500) / 0x10)
    let x := s.ftnPort n
    match o % 0x10 with
    | 0x0 => fld (x.stratum % 256) 24 ||| fld (x.li % 4) 14 ||| flagAt (s.servesNts n) 1 ||| flagAt x.serving 0
    | 0x4 => BitVec.ofNat 32 x.disp
    | 0x8 => BitVec.ofNat 32 x.refId
    | _ => 0
  else 0

/-! ## Partitions, keys, collector, counters (15 R495, 16, 17, 19) -/

def hpStatus (s : State) (p : Part) (o : Nat) : Word :=
  let x := s.part p
  if o = 0x040 then
    let held := (s.opList.filter (fun e => e.2.part == p)).length
    let sharedHeld := (s.opList.filter (fun e => e.2.shared)).length
    fld held 16 ||| fld (if s.pwr.pcieUp then min 255 (256 - sharedHeld) else 0) 8 ||| flagAt x.bme 1 ||| flagAt x.linkUp 0
  else if 0x100 ≤ o ∧ o < 0x300 then
    let q : QNo := Fin.ofNat 8 ((o - 0x100) / 0x40)
    let y := s.queue p q
    let n := (queueOps s p q).length
    match (o - 0x100) % 0x40 with
    | 0x14 => fld (y.sqTail % 4096) 0
    | 0x18 => fld (y.cqHead % 4096) 0
    | 0x1C => fld (y.sqHead % 4096) 16 ||| fld n 8 ||| flagAt y.error 2 ||| flagAt (!qEn s p q && n != 0) 1 ||| flagAt y.running 0
    | 0x24 => fld (y.errCause % 16) 12 ||| fld (y.errVal % 4096) 0
    | _ => s.reg (pgHp p) o
  else if o = 0x600 then flagAt x.mbxDone 1
  else s.reg (pgHp p) o

/-- A key unit is in service: from the end of start-up step 4 on, when the internal keys have been derived (16 KEY_STAT; log entry
230). -/
def State.unitServes (s : State) (u : Nat) : Bool := decide (4 ≤ s.pwr.startStep) && keyUnitOk s u

def keyStatus (s : State) (o : Nat) : Word :=
  let k := s.keys
  match o with
  | 0x040 => fld s.lifecycle 8 ||| flagAt (s.unitServes 0) 4 ||| flagAt (s.unitServes 1) 5 ||| flagAt k.erasePend 3 ||| flagAt k.measLocked 2 |||
      flagAt (s.pwr.state == .sealed) 1 ||| flagAt k.storeLoaded 0
  | 0x048 => k.tampCfg
  | 0x04C => flagAt (k.latch != 0) 31 ||| fld k.latch.toNat 0
  | 0x050 => fld k.raw.toNat 0
  | 0x054 => k.tampTime
  | _ => 0

def fltStatus (s : State) (p : Part) (o : Nat) : Word :=
  let l := (s.part p).fltHold
  match o with
  | 0x040 => flagAt s.flt.fatal 17 ||| flagAt s.flt.frozen 16 ||| fld s.flt.nextSeq.toNat 0
  | 0x088 => holdWord l 0 false
  | 0x08C => holdWord l 1 false
  | 0x090 => holdWord l 2 false
  | 0x094 => fld s.flt.lostTotal.toNat 16 ||| fld (min 256 s.flt.log.length) 0
  | _ => s.reg pgFlt o

/-! ## Any register -/

/-- PAGE_STAT.BLOCK_STAT (05, 06, 11). -/
def blockStat (s : State) (p : Part) (k : PageKind) : Nat :=
  match k with
  | .rs n => match s.viewHalf p with
    | some h => (s.slot h (Fin.ofNat 32 n)).st
    | none => 0
  | .td n => match s.viewHalf p with
    | some h => (s.dom h (Fin.ofNat 4 n)).st + 16 * (s.dom h (Fin.ofNat 4 n)).coat
    | none => 0
  | .jet n => bits (jetStatus s (Fin.ofNat 16 n) 0x100) 4 0
  | _ => 0

/-- A page's block runs (02 R50, R595): with EN where EN acts; the blocks of the halves once a half is out of reset, and the
domains' once its grid runs; the blocks on Lath clocks once the common die has them (01 R39); Milondino once started. -/
def blockRuns (s : State) (pg : Nat) (k : PageKind) : Bool :=
  match k with
  | .rs _ | .jet _ | .lp _ | .ftn => (s.page pg).en
  | .half | .lath => s.anyHalfOn
  | .td _ | .cis | .sl => allHalves.any (fun h => s.gridOn h)
  | .cap _ | .lane _ | .ptp => s.pwr.lathClock
  | .mgt => s.mgt.running
  | _ => true

/-- The header of a page as a partition reads it. -/
def headerWord (s : State) (p : Part) (pg : Nat) (k : PageKind) (o : Nat) : Word :=
  let x := s.page pg
  let t := s.trio p pg
  match o with
  | 0x000 => pageId pg k
  | 0x004 => 0x00010000
  | 0x008 => pageCap k
  | 0x00C => flagAt x.lock 31 ||| flagAt x.srst 1 ||| flagAt x.en 0
  | 0x010 => fld x.evtCnt.toNat 16 ||| fld (blockStat s p k) 8 ||| flagAt x.lock 4 ||| flagAt x.fault.active 3 |||
      flagAt (s.flt.units.any (fun e => e.1 / 256 % 256 == pg && e.2.fenced)) 2 ||| flagAt x.srst 1 ||| flagAt (blockRuns s pg k) 0
  | 0x014 => x.evt
  | 0x018 => x.evtEn
  | 0x01C => fld x.fault.seq.toNat 16 ||| fld x.fault.kind.toNat 10 ||| fld x.fault.sev.toNat 8 ||| flagAt x.fault.lasting 1 ||| flagAt x.fault.active 0
  | 0x020 => flagAt x.injArm 9 ||| flagAt x.injCont 8 ||| fld x.injDet.toNat 0
  | 0x024 => fld x.applySeq.toNat 16 ||| flagAt x.late 3 ||| flagAt x.pend 2 ||| flagAt x.hold 0
  | 0x028 => t.addr
  | 0x030 => s.indCtl p pg
  | 0x034 => flagAt x.vis 4 ||| fld x.owner.toNat 0
  | _ => 0

/-- A status register of a page as a partition reads it (01 R23). -/
def statusWord (s : State) (p : Part) (pg : Nat) (k : PageKind) (o : Nat) : Word :=
  let ofView (f : Half → Word) : Word := match s.viewHalf p with
    | some h => f h
    | none => resetWord pg o
  match k with
  | .dev => devStatus s o
  | .hp n => hpStatus s (Fin.ofNat 4 n) o
  | .rs n => ofView (fun h => slotStatus s h (Fin.ofNat 32 n) o)
  | .td n =>
    if 0x130 ≤ o ∧ o < 0x144 then nowWord ((s.part p).nowView.get (Fin.ofNat 4 n)) o
    else ofView (fun h => domStatus s h (Fin.ofNat 4 n) o)
  | .cis => cisStatus s p o
  | .cap n => capStatus s p (Fin.ofNat 8 n) o
  | .half => halfStatus s o
  | .lath => lathStatus s o
  | .sl => slStatus s o
  | .jet n => jetStatus s (Fin.ofNat 16 n) o
  | .lp n => portStatus s p (Fin.ofNat 16 n) o
  | .lane n => laneStatus s (Fin.ofNat 16 n) o
  | .ptp => ptpStatus s o
  | .ftn => ftnStatus s o
  | .key => keyStatus s o
  | .flt => fltStatus s p o
  | .cnt => s.cnt.snapSeq
  | .mgt => mgtStatus s o
  | .pwr => pwrStatus s o

/-- RS_CFG.CLASS as MODE in force makes it (05 R149, R188). -/
def withClass (s : State) (k : PageKind) (o : Nat) (w : Word) : Word :=
  match k with
  | .rs n => if o = 0x040 then mergeMask w (fld (s.slotClass (Fin.ofNat 32 n)) 4) 0x30 else w
  | _ => w

/-- What a read of the register at an offset of a page returns; none where no register answers without a bus error or a
pop (02 R47, R58, R71). The value in force of a register with buffered or write-once fields is its word. -/
def readWord (s : State) (p : Part) (pg off : Nat) : Option Word :=
  let o := if 0x800 ≤ off then off - 0x800 else off
  match pageKind pg with
  | none => none
  | some k =>
    match regRow? k o with
    | none => none
    | some r =>
      if !s.visible p pg || r.pop || (decide (0x800 ≤ off) && r.rwb == 0) then none
      else if o < 0x040 then some (headerWord s p pg k o)
      else if r.rwb != 0 then some (withClass s k o (if 0x800 ≤ off then s.shadowReg pg o else s.reg pg o))
      else if r.wo != 0 || (r.rw != 0 && (match k with | .hp _ | .mgt => false | _ => true)) then some (s.reg pg o)
      else some (statusWord s p pg k o)

end Sys2Proof.Machine
end

