-- ==== Sys2Proof/Machine/Reads.lean ====
section
/-!
DEFINITION. Reads by a partition: which are bus errors, what those do that pop, latch or step an address, and the data they
return (02 R46, R48, R67, R71 to R78; 06 R229; 10 R331, R336; 17 R551).
-/

namespace Sys2Proof.Machine

def State.answer64 (s : State) (p : Part) (v : BitVec 64) : State := s.emit (.readData p (some v))

/-! ## Registers that pop -/

/-- The parts of a time in a holding set: seconds, nanoseconds, fraction. -/
def timeSet (t : Nat) : HoldSet := [BitVec.ofNat 64 (secOf t % 2 ^ 48), BitVec.ofNat 64 (nsOf t), BitVec.ofNat 64 (fracOf t)]

/-- The word pair of a popped entry: VALID, domain, flags in bits 60 and 59, LOST, identifier and bound. -/
def popWord (d : Dom) (b60 b59 : Bool) (lost : Nat) (id : BitVec 16) (bound : Code) : BitVec 64 :=
  BitVec.ofNat 64 (2 ^ 63 + d.val * 2 ^ 61 + (if b60 then 2 ^ 60 else 0) + (if b59 then 2 ^ 59 else 0) +
    min 255 lost * 2 ^ 48 + id.toNat * 2 ^ 32 + bound.toNat)

/-- The oldest entry of a TX timestamp queue leaves it, its time held for the reader; 0 from an empty queue. -/
def takeTxts (p : Part) (n : PortNo) (s : State) : State :=
  match (s.port n).txq with
  | [] => s.answer64 p 0
  | e :: r =>
    ((s.modPort n (fun y => { y with txq := r })).modPart p (fun y =>
      { y with txHold := put noHold y.txHold n.val (timeSet e.t) })).answer64 p
      (popWord e.dom e.noSend e.mark e.lost e.id e.bound)

/-- The oldest entry of a capture FIFO leaves it, its time held for the reader; 0 from an empty FIFO. -/
def takeCap (p : Part) (n : CapNo) (s : State) : State :=
  match (s.cap n).fifo with
  | [] => s.answer64 p 0
  | e :: r =>
    ((s.modCap n (fun y => { y with fifo := r })).modPart p (fun y =>
      { y with capHold := put noHold y.capHold n.val (timeSet e.t) })).answer64 p
      (popWord e.dom e.rising false e.lost e.seq e.bound)

/-- The oldest entry of the fault log leaves it, its other words held for the reader; 0 from an empty log. -/
def takeFltLog (p : Part) (s : State) : State :=
  match s.flt.log with
  | [] => s.answer64 p 0
  | e :: r =>
    let s1 : State := { s with flt := { s.flt with log := r } }
    let info : BitVec 64 := BitVec.ofNat 64 (2 ^ 31 + (if e.injected then 2 ^ 16 else 0) + min 255 e.lost * 2 ^ 8)
    (s1.modPart p (fun y => { y with fltHold := [e.sec.setWidth 64, e.ns.setWidth 64, info] })).answer64 p e.msg

/-- An entry of HPn_BUSERR_LOG as it is read (R77). -/
def BusErr.word (e : BusErr) : BitVec 64 :=
  BitVec.ofNat 64 (2 ^ 63 + e.cause.code * 2 ^ 59 + (if e.isWrite then 2 ^ 58 else 0) + min 31 e.lost * 2 ^ 53 +
    (e.seq.getD 0).toNat * 2 ^ 32 + e.be.toNat * 2 ^ 28 + e.off.toNat)

/-- The oldest entry of a partition's bus-error log leaves it; 0 from an empty log (R78). -/
def takeBusLog (p : Part) (s : State) : State :=
  match (s.part p).busLog with
  | [] => s.answer64 p 0
  | e :: r => (s.modPart p (fun y => { y with busLog := r })).answer64 p e.word

/-- The POP wide pair of a page is read. -/
def popPair (p : Part) (pg : Nat) (s : State) : State :=
  match pageKind pg with
  | some (.hp _) => takeBusLog p s
  | some (.lp n) => takeTxts p (Fin.ofNat 16 n) s
  | some (.cap n) => takeCap p (Fin.ofNat 8 n) s
  | some .flt => takeFltLog p s
  | _ => s.answer64 p 0

/-! ## Causes of bus errors (R46, R48, R65, R71, R73, R75, R76, R78) -/

/-- The words of 32 bits that an access touches, by rising address: one of 8 bytes not aligned to 4 touches three (R73 speaks of
two 32-bit accesses; log entry 202). -/
def wordsOf (off width : Nat) : List Nat := (List.range ((off % 4 + width + 3) / 4)).map (fun i => off / 4 * 4 + 4 * i)

/-- The access covers a word, every byte enabled. -/
def covers (a : Access) (off w : Nat) : Bool :=
  decide (off ≤ w) && decide (w + 4 ≤ off + a.width) && (List.range 4).all (fun i => a.be.getLsbD (w - off + i))

/-- The causes that one word of a read meets. -/
def readCauses (s : State) (a : Access) (off w : Nat) : List Cause :=
  let pg := w / 4096
  let o := w % 4096
  match pageKind pg with
  | none => [.reserved]
  | some k =>
    if !s.visible a.part pg then [.absent]
    else match regRow? k (if 0x800 ≤ o then o - 0x800 else o) with
    | none => [.reserved]
    | some r =>
      if decide (0x800 ≤ o) && r.rwb == 0 then [.reserved]
      else if !r.pop then []
      else if o = 0x02C then
        (if covers a off w then [] else [.narrowPop]) ++
        (if ((s.tableOf a.part pg).map IndTable.size).getD 0 ≤ (s.trio a.part pg).addr.toNat then [.indRange] else [])
      else
        (if a.width = 8 ∧ off % 8 = 0 ∧ fullBe a then [] else [.narrowPop]) ++ (if s.owns a.part pg then [] else [.readOnly])

/-- The causes of a read: of its size, and of every word it touches. -/
def allReadCauses (s : State) (a : Access) (off : Nat) : List Cause :=
  (if 8 < a.width then [.oversize] else []) ++
  (if a.width < 8 ∧ off / 4 ≠ (off + a.width - 1) / 4 then [.spanning] else []) ++
  (wordsOf off a.width).flatMap (readCauses s a off)

/-! ## The data of a read -/

/-- A domain's time, bound and state are latched for a partition; free values while no half publishes (06 R229). -/
def latchNow (p : Part) (d : Dom) (s : State) : State :=
  let pr : Nat × State := match s.busHalf with
    | some _ => (s.busTime d, s)
    | none => s.draw (2 ^ 48 * secondT)
  let t := pr.1
  let s1 := pr.2
  s1.modPart p (fun x => { x with nowView := setAt x.nowView d { t := t, bound := s.busBound d, state := s.busState d } })

/-- One word of a read that is no bus error, and the state after it: TDn_NOW_SEC_HI, read as a whole, latches the live view, and
IND_DATA advances the address (R67, R71, 06 R229). -/
def readStep (a : Access) (off w : Nat) (s : State) : Word × State :=
  let pg := w / 4096
  let o := w % 4096
  if o = 0x02C then readInd a.part pg s
  else
    let s1 := match pageKind pg with
      | some (.td n) => if o = 0x13C && covers a off w then latchNow a.part (Fin.ofNat 4 n) s else s
      | _ => s
    ((readWord s1 a.part pg o).getD 0, s1)

/-- The words of a read in ascending order, each after what the one before it did (R62, R73). -/
def readWords (a : Access) (off : Nat) : List Nat → State → List Word × State
  | [], s => ([], s)
  | w :: r, s =>
    let x := readStep a off w s
    let y := readWords a off r x.2
    (x.1 :: y.1, y.2)

/-- The bytes of an access out of the words it touches. -/
def cutRead (off width : Nat) (ws : List Word) : BitVec 64 :=
  BitVec.ofNat 64 ((ws.foldr (fun w n => w.toNat + 2 ^ 32 * n) 0) / 2 ^ (8 * (off % 4)) % 2 ^ (8 * width))

/-- A read of a POP wide pair as a whole. -/
def readsPair (off : Nat) : Bool := (regAt? (off / 4096) (off % 4096)).any (fun r => r.pop && r.pair == 1)

/-- A read by a partition: a Completer Abort with the first cause in the order of R596, or the entry popped, or the bytes of
its words. -/
def hostRead (a : Access) (off : Nat) (s : State) : State :=
  if !s.hostUp a.part || decide (2 ^ 20 ≤ off) then s
  else match firstCause (allReadCauses s a off) with
    | some c => busError (s.emit (.readData a.part none)) a.part c false off a.be
    | none =>
      if readsPair off then popPair a.part (off / 4096) s
      else
        let r := readWords a off (wordsOf off a.width) s
        r.2.answer64 a.part (cutRead off a.width r.1)

/-- An access to BAR2 (15 R467), in aligned words of 4 or 8 bytes; what a read of another shape gives is a free value, and such a
write has no effect (log entry 223). -/
def barAccess (a : Access) (off : Nat) (v : Option (BitVec 64)) (s : State) : State :=
  if !s.hostUp a.part || decide (2 ^ 14 ≤ off) then s
  else
    let whole := (a.width == 4 || a.width == 8) && off % a.width == 0
    match v with
    | some w =>
      if whole then
        let s1 := s.setBarWord a.part off (w.setWidth 32)
        if a.width = 8 then s1.setBarWord a.part (off + 4) ((w >>> 32).setWidth 32) else s1
      else s
    | none =>
      if whole then
        let hi := if a.width = 8 then (s.barWord a.part (off + 4)).toNat else 0
        s.answer64 a.part (BitVec.ofNat 64 ((s.barWord a.part off).toNat + 2 ^ 32 * hi))
      else
        let pr := s.draw (2 ^ (8 * a.width))
        pr.2.answer64 a.part (BitVec.ofNat 64 pr.1)

/-- An access to any register: a write, or, without data, a read; in BAR0, the register map, or in BAR2. -/
def hostAccess (a : Access) (off : Nat) (v : Option (BitVec 64)) (s : State) : State :=
  if a.bar2 then barAccess a off v s
  else match v with
  | some w => hostWrite a off w {} s
  | none => hostRead a off s

/-- A whole 32-bit read. -/
def read32 (p : Part) : Access := { part := p, width := 4, be := 0xF, late := false }

/-! ## Commands -/

def execNowLatch (p : Part) (d : Dom) (s : State) : Host.Outcome State Fault Refusal :=
  .next (hostRead (read32 p) (pgTd d * 4096 + 0x13C) s)
def execTxtsPop (a : Access) (p : PortNo) (s : State) : Host.Outcome State Fault Refusal := .next (hostRead a (pgLp p * 4096 + 0x410) s)
def execCapPop (a : Access) (c : CapNo) (s : State) : Host.Outcome State Fault Refusal := .next (hostRead a (pgCap c * 4096 + 0x060) s)
def execFltLogPop (a : Access) (s : State) : Host.Outcome State Fault Refusal := .next (hostRead a (pgFlt * 4096 + 0x080) s)
def execIndDataRead (a : Access) (pg : PageNo) (s : State) : Host.Outcome State Fault Refusal := .next (hostRead a (pg.val * 4096 + 0x02C) s)
def execBuserrLogPop (a : Access) (s : State) : Host.Outcome State Fault Refusal := .next (hostRead a (pgHp a.part * 4096 + 0x7C0) s)
def execRegisterWrite (a : Access) (off : Nat) (v : Option (BitVec 64)) (s : State) : Host.Outcome State Fault Refusal :=
  .next (hostAccess a off v s)

end Sys2Proof.Machine
end

