-- ==== Sys2Proof/Machine/Dispatch.lean ====
section
/-!
DEFINITION. The dispatch: one arm per command, each a direct call of its meaning.
-/

namespace Sys2Proof.Machine

def exec (i : Instr) (s : State) : Host.Outcome State Fault Refusal :=
  match i with
  | .feedDetected f mv => Sys2Proof.Machine.execFeedDetected f mv s
  | .feedLost f => Sys2Proof.Machine.execFeedLost f s
  | .halfHeldInReset h => Sys2Proof.Machine.execHalfHeldInReset h s
  | .halfRepower h => Sys2Proof.Machine.execHalfRepower h s
  | .breakerTrip f => Sys2Proof.Machine.execBreakerTrip f s
  | .breakerReclose f => Sys2Proof.Machine.execBreakerReclose f s
  | .resetN low => Sys2Proof.Machine.execResetN low s
  | .thermWarn d => Sys2Proof.Machine.execThermWarn d s
  | .thermTrip h => Sys2Proof.Machine.execThermTrip h s
  | .thermCommon => Sys2Proof.Machine.execThermCommon s
  | .thermRecover d => Sys2Proof.Machine.execThermRecover d s
  | .vbatLow mv => Sys2Proof.Machine.execVbatLow mv s
  | .vauxOverload => Sys2Proof.Machine.execVauxOverload s
  | .preRegulatorsUp retained => Sys2Proof.Machine.execPreRegulatorsUp retained s
  | .bootRomStart fuseOk => Sys2Proof.Machine.execBootRomStart fuseOk s
  | .measuredBoot => Sys2Proof.Machine.execMeasuredBoot s
  | .measExtend ix digest => Sys2Proof.Machine.execMeasExtend ix digest s
  | .measLock => Sys2Proof.Machine.execMeasLock s
  | .measLockTimeout => Sys2Proof.Machine.execMeasLockTimeout s
  | .step5Complete => Sys2Proof.Machine.execStep5Complete s
  | .bootRestart step reason => Sys2Proof.Machine.execBootRestart step reason s
  | .halfResetEnd h => Sys2Proof.Machine.execHalfResetEnd h s
  | .standbyLineLock h => Sys2Proof.Machine.execStandbyLineLock h s
  | .xoLockTimeout h => Sys2Proof.Machine.execXoLockTimeout h s
  | .moscClassify h hz => Sys2Proof.Machine.execMoscClassify h hz s
  | .primaryLineLock h => Sys2Proof.Machine.execPrimaryLineLock h s
  | .lathLock h => Sys2Proof.Machine.execLathLock h s
  | .lathAcquireRetry h => Sys2Proof.Machine.execLathAcquireRetry h s
  | .moscLost h => Sys2Proof.Machine.execMoscLost h s
  | .lockLost h => Sys2Proof.Machine.execLockLost h s
  | .toStandby h coastNs offset => Sys2Proof.Machine.execToStandby h coastNs offset s
  | .xoBad h => Sys2Proof.Machine.execXoBad h s
  | .moscReclassify h hz => Sys2Proof.Machine.execMoscReclassify h hz s
  | .moscQualWindow h y => Sys2Proof.Machine.execMoscQualWindow h y s
  | .toPrimary h offset => Sys2Proof.Machine.execToPrimary h offset s
  | .lathReturnCmd h => Sys2Proof.Machine.execLathReturnCmd h s
  | .autoRst h => Sys2Proof.Machine.execAutoRst h s
  | .claimChange h => Sys2Proof.Machine.execClaimChange h s
  | .peerOkPersist => Sys2Proof.Machine.execPeerOkPersist s
  | .switch => Sys2Proof.Machine.execSwitch s
  | .clkArbSwitch => Sys2Proof.Machine.execClkArbSwitch s
  | .jetSwitch j holdPs sub devLast devNext => Sys2Proof.Machine.execJetSwitch j holdPs sub devLast devNext s
  | .claimParityError h => Sys2Proof.Machine.execClaimParityError h s
  | .claimParityClear h => Sys2Proof.Machine.execClaimParityClear h s
  | .beatBoundary h d xoPhase => Sys2Proof.Machine.execBeatBoundary h d xoPhase s
  | .digestReceived h peerDigest => Sys2Proof.Machine.execDigestReceived h peerDigest s
  | .resyncOrder => Sys2Proof.Machine.execResyncOrder s
  | .peerOkRise => Sys2Proof.Machine.execPeerOkRise s
  | .powerupSelftest h pass => Sys2Proof.Machine.execPowerupSelftest h pass s
  | .resyncStart h => Sys2Proof.Machine.execResyncStart h s
  | .loadStateReceived h => Sys2Proof.Machine.execLoadStateReceived h s
  | .loadInForce h ext die common => Sys2Proof.Machine.execLoadInForce h ext die common s
  | .holdoffElapsed h => Sys2Proof.Machine.execHoldoffElapsed h s
  | .heartbeatSend h => Sys2Proof.Machine.execHeartbeatSend h s
  | .heartbeatReceived h => Sys2Proof.Machine.execHeartbeatReceived h s
  | .linkLost => Sys2Proof.Machine.execLinkLost s
  | .linkUp => Sys2Proof.Machine.execLinkUp s
  | .halfResetCmd h => Sys2Proof.Machine.execHalfResetCmd h s
  | .slotObservation h n r => Sys2Proof.Machine.execSlotObservation h n r s
  | .freqMonitorEval h n m => Sys2Proof.Machine.execFreqMonitorEval h n m s
  | .signalLost h n => Sys2Proof.Machine.execSignalLost h n s
  | .signalPresent h n => Sys2Proof.Machine.execSignalPresent h n s
  | .qualTimeElapsed h n => Sys2Proof.Machine.execQualTimeElapsed h n s
  | .disqHoldElapsed h n => Sys2Proof.Machine.execDisqHoldElapsed h n s
  | .agreeDwellElapsed h n => Sys2Proof.Machine.execAgreeDwellElapsed h n s
  | .adopt n => Sys2Proof.Machine.execAdopt n s
  | .requal n => Sys2Proof.Machine.execRequal n s
  | .todMessage h k rx => Sys2Proof.Machine.execTodMessage h k rx s
  | .atomTelemetry h line gapNs => Sys2Proof.Machine.execAtomTelemetry h line gapNs s
  | .weightUpdate h d => Sys2Proof.Machine.execWeightUpdate h d s
  | .comparisonPeriodStart h d => Sys2Proof.Machine.execComparisonPeriodStart h d s
  | .loopUpdate h d phase => Sys2Proof.Machine.execLoopUpdate h d phase s
  | .dwellExpiry h d => Sys2Proof.Machine.execDwellExpiry h d s
  | .trowelArm a d v => Sys2Proof.Machine.execTrowelArm a d v s
  | .forceHold a d v => Sys2Proof.Machine.execForceHold a d v s
  | .nowLatch p d => Sys2Proof.Machine.execNowLatch p d s
  | .cisternSecond h d own common => Sys2Proof.Machine.execCisternSecond h d own common s
  | .sensorLost h k => Sys2Proof.Machine.execSensorLost h k s
  | .sensorPresent h k => Sys2Proof.Machine.execSensorPresent h k s
  | .modelInst h o => Sys2Proof.Machine.execModelInst h o s
  | .modelPersist h o => Sys2Proof.Machine.execModelPersist h o s
  | .learningPass h o => Sys2Proof.Machine.execLearningPass h o s
  | .efcTarget h => Sys2Proof.Machine.execEfcTarget h s
  | .slPdsClr mask => Sys2Proof.Machine.execSlPdsClr mask s
  | .frameReceived p path f entry => Sys2Proof.Machine.execFrameReceived p path f entry s
  | .frameTransmitted p path k sub fec discarded => Sys2Proof.Machine.execFrameTransmitted p path k sub fec discarded s
  | .txtsPop a p => Sys2Proof.Machine.execTxtsPop a p s
  | .captureEdge c rising sub sinceNs => Sys2Proof.Machine.execCaptureEdge c rising sub sinceNs s
  | .capPop a c => Sys2Proof.Machine.execCapPop a c s
  | .alarmFire t => Sys2Proof.Machine.execAlarmFire t s
  | .jetStart j => Sys2Proof.Machine.execJetStart j s
  | .started j => Sys2Proof.Machine.execStarted j s
  | .jetPeriodEdge j sub => Sys2Proof.Machine.execJetPeriodEdge j sub s
  | .jetKill a j v => Sys2Proof.Machine.execJetKill a j v s
  | .jetRestart j => Sys2Proof.Machine.execJetRestart j s
  | .rampDone j sub => Sys2Proof.Machine.execRampDone j sub s
  | .packetBoundary p => Sys2Proof.Machine.execPacketBoundary p s
  | .linkDown p path => Sys2Proof.Machine.execLinkDown p path s
  | .portLinkUp p path => Sys2Proof.Machine.execPortLinkUp p path s
  | .pathHoldoffElapsed p path => Sys2Proof.Machine.execPathHoldoffElapsed p path s
  | .partnerTimeout p path => Sys2Proof.Machine.execPartnerTimeout p path s
  | .pathSwitch p => Sys2Proof.Machine.execPathSwitch p s
  | .esmcPdu p path pdu parseOk => Sys2Proof.Machine.execEsmcPdu p path pdu parseOk s
  | .esmcTo p path => Sys2Proof.Machine.execEsmcTo p path s
  | .esmcInfoSend p path => Sys2Proof.Machine.execEsmcInfoSend p path s
  | .hrxTail a p v => Sys2Proof.Machine.execHrxTail a p v s
  | .bwWindow p => Sys2Proof.Machine.execBwWindow p s
  | .followUpBuild p => Sys2Proof.Machine.execFollowUpBuild p s
  | .delayReqReceived p path m => Sys2Proof.Machine.execDelayReqReceived p path m s
  | .foreignAnn p => Sys2Proof.Machine.execForeignAnn p s
  | .unicastRequest p c g logPeriod duration => Sys2Proof.Machine.execUnicastRequest p c g logPeriod duration s
  | .unicastCancel p c g => Sys2Proof.Machine.execUnicastCancel p c g s
  | .grantCountdown d => Sys2Proof.Machine.execGrantCountdown d s
  | .ptpCancel index => Sys2Proof.Machine.execPtpCancel index s
  | .clientAnnounce k m => Sys2Proof.Machine.execClientAnnounce k m s
  | .masterLost k => Sys2Proof.Machine.execMasterLost k s
  | .grantRequest k failed => Sys2Proof.Machine.execGrantRequest k failed s
  | .clientDelayReq k => Sys2Proof.Machine.execClientDelayReq k s
  | .exchangeComplete k x => Sys2Proof.Machine.execExchangeComplete k x s
  | .delayRespTimeout k => Sys2Proof.Machine.execDelayRespTimeout k s
  | .l1SyncSend p => Sys2Proof.Machine.execL1SyncSend p s
  | .ntpRequest p path r => Sys2Proof.Machine.execNtpRequest p path r s
  | .ntsRequest p path r n => Sys2Proof.Machine.execNtsRequest p path r n s
  | .ntsLaunch p crossPs => Sys2Proof.Machine.execNtsLaunch p crossPs s
  | .sweeperVisit index => Sys2Proof.Machine.execSweeperVisit index s
  | .epochAdv => Sys2Proof.Machine.execEpochAdv s
  | .ftnKill a v => Sys2Proof.Machine.execFtnKill a v s
  | .sqTail a q v => Sys2Proof.Machine.execSqTail a q v s
  | .entryFetch p q entry => Sys2Proof.Machine.execEntryFetch p q entry s
  | .nop t => Sys2Proof.Machine.execNop t s
  | .fence t => Sys2Proof.Machine.execFence t s
  | .fenceComplete t => Sys2Proof.Machine.execFenceComplete t s
  | .timeRead t => Sys2Proof.Machine.execTimeRead t s
  | .eventArm t => Sys2Proof.Machine.execEventArm t s
  | .alarmSet t => Sys2Proof.Machine.execAlarmSet t s
  | .alarmCancel t => Sys2Proof.Machine.execAlarmCancel t s
  | .ptpSend t frame => Sys2Proof.Machine.execPtpSend t frame s
  | .rateSet r => Sys2Proof.Machine.execRateSet r s
  | .keyDerive t label => Sys2Proof.Machine.execKeyDerive t label s
  | .keyReplace t key => Sys2Proof.Machine.execKeyReplace t key s
  | .cookieMint t keys => Sys2Proof.Machine.execCookieMint t keys s
  | .statsSnapshot t => Sys2Proof.Machine.execStatsSnapshot t s
  | .logRead t => Sys2Proof.Machine.execLogRead t s
  | .completionWrite p q => Sys2Proof.Machine.execCompletionWrite p q s
  | .cqHead a q v => Sys2Proof.Machine.execCqHead a q v s
  | .irqCoalesceTimeout p q => Sys2Proof.Machine.execIrqCoalesceTimeout p q s
  | .queueEnable a q v => Sys2Proof.Machine.execQueueEnable a q v s
  | .queueDisable a q v => Sys2Proof.Machine.execQueueDisable a q v s
  | .qStopped p q => Sys2Proof.Machine.execQStopped p q s
  | .partitionReset p k => Sys2Proof.Machine.execPartitionReset p k s
  | .queueOpTimeout t => Sys2Proof.Machine.execQueueOpTimeout t s
  | .mbxGo a v => Sys2Proof.Machine.execMbxGo a v s
  | .keyZeroise a slot => Sys2Proof.Machine.execKeyZeroise a slot s
  | .keyZeroiseAll a => Sys2Proof.Machine.execKeyZeroiseAll a s
  | .tamper src => Sys2Proof.Machine.execTamper src s
  | .eraseComplete => Sys2Proof.Machine.execEraseComplete s
  | .faultDetection pl pg det loc => Sys2Proof.Machine.execFaultDetection pl pg det loc s
  | .faultMessageAccepted source => Sys2Proof.Machine.execFaultMessageAccepted source s
  | .overflowMessage source => Sys2Proof.Machine.execOverflowMessage source s
  | .selftestResult source det pass => Sys2Proof.Machine.execSelftestResult source det pass s
  | .engineWatchdog source => Sys2Proof.Machine.execEngineWatchdog source s
  | .crossingTimeout p lost => Sys2Proof.Machine.execCrossingTimeout p lost s
  | .mgtWdog => Sys2Proof.Machine.execMgtWdog s
  | .aliveToggle => Sys2Proof.Machine.execAliveToggle s
  | .fltResume a v => Sys2Proof.Machine.execFltResume a v s
  | .fltRetest a v pass => Sys2Proof.Machine.execFltRetest a v pass s
  | .fltInjWdog a v => Sys2Proof.Machine.execFltInjWdog a v s
  | .fltLogPop a => Sys2Proof.Machine.execFltLogPop a s
  | .domainDetection d det => Sys2Proof.Machine.execDomainDetection d det s
  | .cisternDetection det => Sys2Proof.Machine.execCisternDetection det s
  | .slDetection det => Sys2Proof.Machine.execSlDetection det s
  | .halfDetection det => Sys2Proof.Machine.execHalfDetection det s
  | .captureDetection c det => Sys2Proof.Machine.execCaptureDetection c det s
  | .tdcCalDetection pt => Sys2Proof.Machine.execTdcCalDetection pt s
  | .jetDetection j det => Sys2Proof.Machine.execJetDetection j det s
  | .portDetection pg det => Sys2Proof.Machine.execPortDetection pg det s
  | .ptpDetection det index => Sys2Proof.Machine.execPtpDetection det index s
  | .ftnDetection det index => Sys2Proof.Machine.execFtnDetection det index s
  | .hpDetection p det => Sys2Proof.Machine.execHpDetection p det s
  | .keyDetection det slot => Sys2Proof.Machine.execKeyDetection det slot s
  | .fltDetection det loc => Sys2Proof.Machine.execFltDetection det loc s
  | .mgtDetection det correctable => Sys2Proof.Machine.execMgtDetection det correctable s
  | .cntDetection c => Sys2Proof.Machine.execCntDetection c s
  | .railCrossing rail mv => Sys2Proof.Machine.execRailCrossing rail mv s
  | .logRecordWrite => Sys2Proof.Machine.execLogRecordWrite s
  | .getInfo src tag => Sys2Proof.Machine.execGetInfo src tag s
  | .getSensors src tag => Sys2Proof.Machine.execGetSensors src tag s
  | .getChallenge src tag => Sys2Proof.Machine.execGetChallenge src tag s
  | .setPolicy src tag r => Sys2Proof.Machine.execSetPolicy src tag r s
  | .clearLatch src tag live => Sys2Proof.Machine.execClearLatch src tag live s
  | .chipReset src tag => Sys2Proof.Machine.execChipReset src tag s
  | .restartMgt src tag => Sys2Proof.Machine.execRestartMgt src tag s
  | .updateBegin src tag bodyLen => Sys2Proof.Machine.execUpdateBegin src tag bodyLen s
  | .updateData src tag offset data => Sys2Proof.Machine.execUpdateData src tag offset data s
  | .updateEnd src tag => Sys2Proof.Machine.execUpdateEnd src tag s
  | .confirm src tag => Sys2Proof.Machine.execConfirm src tag s
  | .svnCommit src tag => Sys2Proof.Machine.execSvnCommit src tag s
  | .enterRma src tag sig => Sys2Proof.Machine.execEnterRma src tag sig s
  | .decommission src tag => Sys2Proof.Machine.execDecommission src tag s
  | .chainWrite a w v => Sys2Proof.Machine.execChainWrite a w v s
  | .pageLock a pg => Sys2Proof.Machine.execPageLock a pg s
  | .pageEnable a pg en => Sys2Proof.Machine.execPageEnable a pg en s
  | .srst a pg => Sys2Proof.Machine.execSrst a pg s
  | .pageSoftReset pg => Sys2Proof.Machine.execPageSoftReset pg s
  | .eventClear a pg v coincident => Sys2Proof.Machine.execEventClear a pg v coincident s
  | .faultClear a pg => Sys2Proof.Machine.execFaultClear a pg s
  | .inject a pg det continuous => Sys2Proof.Machine.execInject a pg det continuous s
  | .applyHold a pg => Sys2Proof.Machine.execApplyHold a pg s
  | .applyRelease a pg => Sys2Proof.Machine.execApplyRelease a pg s
  | .discard a pg => Sys2Proof.Machine.execDiscard a pg s
  | .indAddrWrite a pg v => Sys2Proof.Machine.execIndAddrWrite a pg v s
  | .indCtlWrite a pg v => Sys2Proof.Machine.execIndCtlWrite a pg v s
  | .indDataRead a pg => Sys2Proof.Machine.execIndDataRead a pg s
  | .indDataWrite a pg v => Sys2Proof.Machine.execIndDataWrite a pg v s
  | .buserrLogPop a => Sys2Proof.Machine.execBuserrLogPop a s
  | .registerWrite a off v => Sys2Proof.Machine.execRegisterWrite a off v s
  | .selHoldElapsed h d => Sys2Proof.Machine.execSelHoldElapsed h d s
  | .pdsAgreeDwellElapsed h k => Sys2Proof.Machine.execPdsAgreeDwellElapsed h k s
  | .jetFallingEdge j => Sys2Proof.Machine.execJetFallingEdge j s
  | .pcieCompletionTimeout t => Sys2Proof.Machine.execPcieCompletionTimeout t s
  | .hiBer n => Sys2Proof.Machine.execHiBer n s
  | .mgtEthFrame srcMac seq body icv => Sys2Proof.Machine.execMgtEthFrame srcMac seq body icv s

end Sys2Proof.Machine
end

