-- ==== Sys2Proof/Safety.lean ====
section
/-!
DEFINITION. The terms in which claims are stated: what a command gives, the fuses' one-way rule, and which areas of
the state a command may change.
-/

namespace Sys2Proof.Machine

/-- The command runs and its next state satisfies `P`. -/
def Gives (c : Instr) (s : State) (P : State → Prop) : Prop := ∃ t, exec c s = .next t ∧ P t

/-- Firmware runs and a mailbox command waits as the oldest request, of a length its command takes, from a transport that may give it
(18 R565 to R567). -/
def Requested (s : State) (src : Transport) (cmd : Nat) (tag : BitVec 16) (priv : Bool) : Prop :=
  ∃ r, reqFront s src cmd tag = some r ∧ lengthOk cmd r.len = true ∧ s.mgt.running = true ∧ s.mgt.image ≠ .recovery ∧
    (priv = true → privileged s src = true)

/-- A bit of a page's PAGE_EVT (02 R81). -/
def State.evtBit (s : State) (pg b : Nat) : Bool := evtOf s.pages pg b

/-- A host's whole 32-bit write of a register meets no cause of a bus error (02 R70 to R80). -/
def Allowed (a : Access) (pg o : Nat) (v : Word) (s : State) : Prop :=
  s.hostUp a.part = true ∧ a.width = 4 ∧ fullBe a = true ∧ wordCauses s a.part (pg * 4096 + o) v = []

/-- A host's read meets no cause of a bus error (02 R46, R48, R70 to R76). -/
def ReadAllowed (a : Access) (off : Nat) (s : State) : Prop :=
  s.hostUp a.part = true ∧ off < 2 ^ 20 ∧ allReadCauses s a off = []

/-- The command completes the operation of a tag with a status, and its result and the next state satisfy `P`. -/
def Completes (c : Instr) (s : State) (t : Tag) (st : Byte) (P : Vector Word 6 → State → Prop) : Prop :=
  Gives c s (fun u => ∃ o, u.op? t = some o ∧ o.phase = .done st ∧ P o.result u)

/-- A message of a source, kind, severity and detector went out between two states, where its block's buffer of 4 had a
free place (17 R534, R535). -/
def Reported (src kind sev : Nat) (det : Byte) (s t : State) : Prop :=
  (look bufReset s.flt.bufs src).length < 4 →
    ∃ m ∈ look bufReset t.flt.bufs src, s.ident ≤ m.ident ∧ m.kind = BitVec.ofNat 6 kind ∧ m.sev = BitVec.ofNat 2 sev ∧ m.det = det

/-- A mailbox command has been answered on its transport (18 R565, R567). -/
def Answered (src : Transport) (cmd : Nat) (tag : BitVec 16) (status : Nat) (vals : List Nat) (t : State) : Prop :=
  .mailbox src cmd tag status vals ∈ t.outs

/-- The blown fuses stand no lower than an anti-rollback count and a lifecycle, which is one of the four states (16 R500,
R501; 18 R573). -/
def fusesAtLeast (r l : Nat) (s : State) : Prop :=
  r ≤ s.keys.fuse.rollback ∧ l ≤ s.keys.fuse.lifecycle ∧ s.keys.fuse.lifecycle ≤ 3

/-! ## Areas of the state and the commands that may change them -/

/-- An area of the state: its fields but the queue, and the words in force of the register file apart from the rest of
its pages (enables, events, locks). -/
inductive Area where
  | now | pwr | arb | halves | models | parts | ops | caps | jets | lanes | ports | ptp | ftn | keys | flt | ident | mgt
  | cnt | regs | pages | bars | outs | fresh
deriving DecidableEq, Repr

/-- Two states agree in an area. -/
def Area.same : Area → State → State → Prop
  | .now, s, t => t.now = s.now
  | .pwr, s, t => t.pwr = s.pwr
  | .arb, s, t => t.arb = s.arb
  | .halves, s, t => t.halves = s.halves
  | .models, s, t => t.models = s.models
  | .parts, s, t => t.parts = s.parts
  | .ops, s, t => t.ops = s.ops
  | .caps, s, t => t.caps = s.caps
  | .jets, s, t => t.jets = s.jets
  | .lanes, s, t => t.lanes = s.lanes
  | .ports, s, t => t.ports = s.ports
  | .ptp, s, t => t.ptp = s.ptp
  | .ftn, s, t => t.ftn = s.ftn
  | .keys, s, t => t.keys = s.keys
  | .flt, s, t => t.flt = s.flt
  | .ident, s, t => t.ident = s.ident
  | .mgt, s, t => t.mgt = s.mgt
  | .cnt, s, t => t.cnt = s.cnt
  | .regs, s, t => ∀ pg off, t.reg pg off = s.reg pg off
  | .pages, s, t => t.pages = s.pages
  | .bars, s, t => t.bars = s.bars
  | .outs, s, t => t.outs = s.outs
  | .fresh, s, t => t.fresh = s.fresh

def Area.all : List Area :=
  [.now, .pwr, .arb, .halves, .models, .parts, .ops, .caps, .jets, .lanes, .ports, .ptp, .ftn, .keys, .flt, .ident, .mgt,
   .cnt, .regs, .pages, .bars, .outs, .fresh]

/-- Events, their counters, and their interrupts or what masked vectors leave pending (02 R81; 15 R467, R479). -/
def Area.signal : List Area := [.pages, .cnt, .bars, .outs]

def Area.allBut (l : List Area) : List Area := Area.all.filter (fun a => !l.contains a)

/-- The areas that a command of each row may change; the others it leaves as they are. -/
def writesOf : Instr → List Area
  | .peerOkPersist .. => [.arb]
  | .sweeperVisit .. => [.ftn]
  | .standbyLineLock .. | .moscClassify .. | .moscReclassify .. | .lathReturnCmd .. | .loadStateReceived ..
  | .heartbeatSend .. | .heartbeatReceived .. | .freqMonitorEval .. | .signalLost .. | .signalPresent ..
  | .qualTimeElapsed .. | .disqHoldElapsed .. | .agreeDwellElapsed .. | .weightUpdate ..
  | .comparisonPeriodStart .. | .dwellExpiry .. | .cisternSecond .. | .sensorPresent .. | .slPdsClr ..
  | .selHoldElapsed .. | .pdsAgreeDwellElapsed .. => [.halves]
  | .pathHoldoffElapsed .. | .partnerTimeout .. | .followUpBuild .. => [.ports]
  | .grantCountdown .. | .delayRespTimeout .. => [.ptp]
  | .halfRepower .. | .breakerReclose .. | .thermRecover .. | .vauxOverload .. => [.pwr]
  | .primaryLineLock .. => [.halves, .fresh]
  | .logRecordWrite .. => [.mgt, .cnt]
  | .modelPersist .. => [.models, .cnt]
  | .ptpCancel .. | .grantRequest .. | .clientDelayReq .. | .l1SyncSend .. => [.ports, .ptp]
  | .preRegulatorsUp .. => [.pwr, .keys]
  | .irqCoalesceTimeout .. => [.cnt, .bars, .outs]
  | .aliveToggle .. => [.flt, .cnt, .outs]
  | .overflowMessage .. => [.flt, .ident, .cnt]
  | .esmcInfoSend .. => [.ports, .cnt, .outs]
  | .bootRestart .. => [.pwr, .mgt, .cnt]
  | .cntDetection .. => [.flt, .ident, .cnt, .pages]
  | .clkArbSwitch .. => Area.signal ++ [.arb]
  | .captureDetection .. => [.caps, .flt, .ident, .cnt, .pages]
  | .railCrossing .. => [.flt, .ident, .mgt, .cnt, .pages]
  | .peerOkRise .. | .resyncStart .. | .holdoffElapsed .. | .linkUp .. | .loopUpdate .. | .sensorLost ..
  | .efcTarget .. => Area.signal ++ [.halves]
  | .lathAcquireRetry .. => [.halves, .flt, .ident, .cnt, .pages]
  | .rampDone .. => Area.signal ++ [.jets]
  | .hiBer .. => Area.signal ++ [.lanes]
  | .qStopped .. => Area.signal ++ [.parts]
  | .completionWrite .. => [.parts, .ops, .cnt, .bars, .outs]
  | .pathSwitch .. | .bwWindow .. => Area.signal ++ [.ports]
  | .fltDetection .. => Area.signal ++ [.flt, .ident]
  | .modelInst .. | .learningPass .. => Area.signal ++ [.halves, .models]
  | .esmcPdu .. | .esmcTo .. => Area.signal ++ [.halves, .ports]
  | .clientAnnounce .. | .masterLost .. => Area.signal ++ [.halves, .ptp]
  | .measExtend .. | .measLock .. | .measLockTimeout .. | .eraseComplete .. => Area.signal ++ [.keys, .mgt]
  | .jetStart .. | .started .. | .jetRestart .. | .jetFallingEdge .. => Area.signal ++ [.ops, .jets]
  | .alarmFire .. | .nop .. | .fence .. | .fenceComplete .. | .timeRead .. | .alarmSet .. | .alarmCancel ..
  | .statsSnapshot .. | .pcieCompletionTimeout .. => Area.signal ++ [.parts, .ops]
  | .foreignAnn .. | .unicastRequest .. | .unicastCancel .. => Area.signal ++ [.ports, .ptp]
  | .digestReceived .. | .powerupSelftest .. | .domainDetection .. | .cisternDetection .. | .slDetection .. =>
    Area.signal ++ [.halves, .flt, .ident]
  | .loadInForce .. => Area.signal ++ [.halves, .jets, .fresh]
  | .moscQualWindow .. | .slotObservation .. | .atomTelemetry .. => Area.signal ++ [.halves, .mgt, .fresh]
  | .rateSet .. => Area.signal ++ [.halves, .parts, .ops]
  | .jetDetection .. => Area.signal ++ [.jets, .flt, .ident]
  | .portLinkUp .. => Area.signal ++ [.lanes, .ports, .fresh]
  | .eventArm .. => Area.signal ++ [.parts, .ops, .caps]
  | .entryFetch .. | .logRead .. => Area.signal ++ [.parts, .ops, .fresh]
  | .ptpSend .. => Area.signal ++ [.parts, .ops, .ports]
  | .ntpRequest .. | .ntsLaunch .. => Area.signal ++ [.ports, .ftn, .fresh]
  | .delayReqReceived .. => Area.signal ++ [.ports, .ptp, .fresh]
  | .thermWarn .. | .vbatLow .. => Area.signal ++ [.pwr, .flt, .ident]
  | .adopt .. | .requal .. => Area.signal ++ [.pwr, .halves, .mgt]
  | .feedDetected .. => Area.signal ++ [.pwr, .parts, .fresh]
  | .epochAdv .. => Area.signal ++ [.pwr, .ports, .ftn]
  | .xoLockTimeout .. | .moscLost .. | .lockLost .. | .toStandby .. | .xoBad .. | .toPrimary .. =>
    Area.signal ++ [.halves, .flt, .ident, .mgt]
  | .linkDown .. => Area.signal ++ [.halves, .lanes, .ports, .fresh]
  | .todMessage .. => Area.signal ++ [.halves, .mgt, .regs, .fresh]
  | .ptpDetection .. => Area.signal ++ [.halves, .ptp, .flt, .ident]
  | .exchangeComplete .. => Area.signal ++ [.halves, .ptp, .mgt, .fresh]
  | .frameReceived .. => Area.signal ++ [.lanes, .ports, .ptp, .fresh]
  | .jetSwitch .. | .jetPeriodEdge .. => Area.signal ++ [.ops, .jets, .regs, .fresh]
  | .getInfo .. | .getSensors .. | .getChallenge .. | .updateBegin .. | .updateData .. | .confirm ..
  | .mgtEthFrame .. => Area.signal ++ [.parts, .mgt, .regs, .fresh]
  | .captureEdge .. => Area.signal ++ [.parts, .ops, .caps, .fresh]
  | .halfResetEnd .. => Area.signal ++ [.pwr, .halves, .models, .mgt]
  | .ntsRequest .. => Area.signal ++ [.pwr, .ports, .ftn, .fresh]
  | .measuredBoot .. => Area.signal ++ [.ops, .jets, .keys, .mgt, .regs]
  | .restartMgt .. => Area.signal ++ [.parts, .flt, .mgt, .regs, .fresh]
  | .setPolicy .. | .clearLatch .. | .svnCommit .. => Area.signal ++ [.parts, .keys, .mgt, .regs, .fresh]
  | .crossingTimeout .. | .hpDetection .. => Area.signal ++ [.parts, .ops, .flt, .ident, .fresh]
  | .halfHeldInReset .. | .autoRst .. | .halfResetCmd .. => Area.signal ++ [.pwr, .arb, .halves, .flt, .regs]
  | .step5Complete .. => Area.signal ++ [.pwr, .parts, .lanes, .ftn, .regs]
  | .nowLatch .. | .txtsPop .. | .capPop .. | .fltLogPop .. | .indDataRead .. | .buserrLogPop .. =>
    Area.signal ++ [.parts, .caps, .ports, .flt, .ident, .fresh]
  | .mgtWdog .. | .mgtDetection .. => Area.signal ++ [.parts, .flt, .ident, .mgt, .regs, .fresh]
  | .frameTransmitted .. => Area.signal ++ [.parts, .ops, .ports, .ptp, .ftn, .fresh]
  | .cookieMint .. => Area.signal ++ [.pwr, .parts, .ops, .ports, .ftn, .fresh]
  | .ftnDetection .. => Area.signal ++ [.pwr, .ports, .ftn, .flt, .ident, .fresh]
  | .switch .. => Area.signal ++ [.arb, .halves, .ops, .jets, .ports, .regs, .fresh]
  | .resyncOrder .. => Area.signal ++ [.arb, .halves, .parts, .ops, .caps, .ptp, .fresh]
  | .tdcCalDetection .. => Area.signal ++ [.halves, .parts, .ops, .lanes, .ports, .flt, .ident, .regs]
  | .keyDerive .. | .keyReplace .. => Area.signal ++ [.pwr, .parts, .ops, .ports, .ptp, .ftn, .keys, .mgt]
  | .linkLost .. => Area.signal ++ [.arb, .halves, .parts, .ops, .caps, .ptp, .flt, .ident, .fresh]
  | .portDetection .. => Area.signal ++ [.halves, .parts, .ops, .lanes, .ports, .flt, .ident, .regs, .fresh]
  | .partitionReset .. => Area.signal ++ [.parts, .ops, .caps, .ports, .keys, .flt, .ident, .regs, .fresh]
  | .claimParityClear .. => Area.signal ++ [.pwr, .arb, .halves, .parts, .ops, .jets, .ports, .ptp, .ftn]
  | .packetBoundary .. => Area.signal ++ [.pwr, .halves, .parts, .ops, .lanes, .ports, .ptp, .ftn, .regs]
  | .lathLock .. => Area.signal ++ [.pwr, .arb, .halves, .parts, .ops, .caps, .jets, .lanes, .ports, .regs, .fresh]
  | .claimChange .. => Area.signal ++ [.pwr, .arb, .halves, .parts, .ops, .caps, .jets, .ports, .ptp, .ftn, .fresh]
  | .claimParityError .. =>
    Area.signal ++ [.pwr, .arb, .halves, .parts, .ops, .jets, .ports, .ptp, .ftn, .flt, .ident]
  | .keyDetection .. => Area.signal ++ [.pwr, .parts, .ops, .ports, .ptp, .ftn, .keys, .flt, .ident, .mgt, .fresh]
  | .bootRomStart .. | .tamper .. => Area.allBut [.now, .arb, .halves, .models, .jets, .lanes, .regs]
  | .halfDetection .. => Area.allBut [.now, .models, .lanes, .keys, .mgt, .regs]
  | .thermTrip .. => Area.allBut [.now, .models, .lanes, .keys, .mgt]
  | .beatBoundary .. => Area.allBut [.models, .caps, .lanes, .keys]
  | .queueOpTimeout .. | .engineWatchdog .. => Area.allBut [.now, .arb, .models, .mgt]
  | .pageSoftReset .. => Area.allBut [.now, .models, .mgt]
  | .selftestResult .. => Area.allBut [.now, .arb, .models]
  | .faultDetection .. => Area.allBut [.now, .models]
  | .trowelArm .. | .forceHold .. | .jetKill .. | .hrxTail .. | .ftnKill .. | .sqTail .. | .cqHead ..
  | .queueEnable .. | .queueDisable .. | .mbxGo .. | .keyZeroise .. | .keyZeroiseAll .. | .fltResume ..
  | .fltRetest .. | .fltInjWdog .. | .chainWrite .. | .pageLock .. | .pageEnable .. | .srst .. | .eventClear ..
  | .faultClear .. | .inject .. | .applyHold .. | .applyRelease .. | .discard .. | .indAddrWrite ..
  | .indCtlWrite .. | .indDataWrite .. | .registerWrite .. => Area.allBut [.now]
  | .feedLost .. | .breakerTrip .. | .resetN .. | .thermCommon .. | .faultMessageAccepted .. | .chipReset ..
  | .updateEnd .. | .enterRma .. | .decommission .. => Area.all

end Sys2Proof.Machine
end

