-- ==== Sys2Proof/Certificates/Slice0/Obligations.lean ====
section
/-!
DEFINITION. The statements: what every command does where it has its effect, what it leaves, and what every step keeps.
`Gives c s P` says that the command answers a next state that satisfies `P`.
-/

open Sys2Proof Sys2Proof.Machine

/-- A step takes the command at the front of the queue and runs it on the state with the queue's rest (the queue is
the model's own, not the spec's). -/
def Obligations.StepRunsTheFrontCommand : Prop :=
  ∀ (c : Instr) (s : State), step { s with pending := c :: s.pending } = exec c s

/-- On an empty queue a step lets one CLK_CORE cycle of common time pass (log entry 3, the model's choice): every half
whose grid runs moves its own edges on, and a powered half whose grid has selected a clock but is not locked its index
of the fine grid alone; the RTC and the counters' time base move on; at each millisecond of running firmware the sensors are sampled (log entry 46);
and nothing else changes. -/
def Obligations.IdleStepsAreCycles : Prop :=
  ∀ s : State, s.pending = [] → ∃ t, step s = .next t ∧ t.now = s.now + 1 ∧ t.pending = [] ∧
    (∀ h, s.gridOn h = true → t.half h = (s.half h).advance 1) ∧
    (∀ h, s.gridOn h = false → s.halfOn h = true → (s.lath h).src ≠ 0 → t.half h = (s.half h).preLock 1) ∧
    (∀ h, s.gridOn h = false → s.halfOn h = false ∨ (s.lath h).src = 0 → t.half h = s.half h) ∧
    t.pages = s.pages ∧ t.ops = s.ops ∧ t.ports = s.ports ∧ t.jets = s.jets ∧ t.ptp = s.ptp ∧ t.ftn = s.ftn ∧
    t.keys = s.keys ∧ t.flt = s.flt ∧ t.outs = s.outs ∧
    (∃ ta tb tc ot, t.mgt = { s.mgt with tempA := ta, tempB := tb, tempC := tc, ots := ot }) ∧
    ((s.now + 1) % 800000 ≠ 0 ∨ s.mgt.running = false → t.mgt = s.mgt)

/-- Every command answers a next state, and none touches the queue of waiting commands. A command of each row leaves
as they are the queue of waiting commands and every area of the state that its row does not change; every command
answers a next state. -/
def Obligations.CommandsWriteOnlyTheirAreas : Prop :=
  (∀ (c : Instr) (s : State), Gives c s (fun t => t.pending = s.pending)) ∧
  (∀ (c : Instr) (s t : State) (a : Area), exec c s = .next t → (writesOf c).contains a = false → a.same s t)

/-- 02 R51, 03 R106, 06 R193, 07 R252, 09 R305, 15 R477, 17 R550, 18 R557: the state after reset. The values named are
the spec's: STANDBY, no half powered, domain counters and rate words 0, bounds without a value, EFC codes at
mid-scale, queues not running with phase 1, every register at its reset value, no event, no fault, no key material.
The tables hold their canonical form, and the fuses a legal state, right after reset. -/
def Obligations.ResetIsAsTheSpecSays : Prop :=
  (State.reset.pwr.state = .standby ∧ State.reset.pending = [] ∧
   (∀ h, State.reset.halfOn h = false ∧ (State.reset.half h).efcCode = 0x800000) ∧
   (∀ h d, (State.reset.dom h d).t = 0 ∧ (State.reset.dom h d).rate = 0 ∧ (State.reset.dom h d).centre = 0 ∧
     (State.reset.dom h d).st = 0 ∧ (State.reset.dom h d).bound = 0xFFFF ∧ (State.reset.dom h d).stepped = false) ∧
   (∀ p q, (State.reset.queue p q).running = false ∧ (State.reset.queue p q).phase = true) ∧
   (∀ pg o, State.reset.reg pg o = resetWord pg o) ∧
   (∀ pg, (State.reset.page pg).evt = 0 ∧ (State.reset.page pg).fault.active = false ∧ (State.reset.page pg).lock = false ∧
     (State.reset.page pg).hold = false ∧ (State.reset.page pg).shadow = []) ∧
   (∀ n, (State.reset.slotKey n).cur = none ∧ (State.reset.slotKey n).prev = none) ∧
   (∀ t, State.reset.op? t = none) ∧ State.reset.mgt.running = false ∧ State.reset.busHalf = none) ∧
  (KMap.wf opReset State.reset.ops = true ∧ KMap.wf flashReset State.reset.mgt.flash = true ∧
     fusesAtLeast 0 0 State.reset)

/-- 16 R499 to R501; 18 R573, R574: no step lowers a fuse: what the anti-rollback count and the lifecycle fuse have
reached stays reached, through every command, reset and loss of power, and the lifecycle stays one of the four states.
-/
def Obligations.FusesNeverFall : Prop :=
  ∀ (r l : Nat) (s t : State), fusesAtLeast r l s → step s = .next t → fusesAtLeast r l t

/-- The table of operations keeps its canonical form through every step: tags strictly rising, no entry without an
operation, so that equal tables are equal data (the model's own form). The boot flash, the block's addressed memory,
keeps its canonical form through every step: addresses strictly rising, no entry equal to what an unlisted address
reads as (log entry 7). -/
def Obligations.TablesStayCanonical : Prop :=
  (∀ (s t : State), KMap.wf opReset s.ops = true → step s = .next t → KMap.wf opReset t.ops = true) ∧
  (∀ (s t : State), KMap.wf flashReset s.mgt.flash = true → step s = .next t → KMap.wf flashReset t.mgt.flash = true)

/-- 00 R10 to R13: a code stands for (2048 + m) × 2^e / 2048 ps of its exponent and mantissa, 0xFFFF for an
unbounded error, and codes order as the bounds they stand for; a bound is encoded as the smallest code whose value is at least the bound, one below 1 ps as
0x0000 and one above the value of 0xFFFE as 0xFFFF. -/
def Obligations.BoundCodesRoundUp : Prop :=
  (∀ c : Code, openCode c = if c = 0xFFFF then none else some (codePs c)) ∧
  (∀ c : Code, codePs c = ((2048 + (c.extractLsb' 0 11).toNat) * 2 ^ (c.extractLsb' 11 5).toNat : Nat) / 2048) ∧
  (∀ c d : Code, codePs c < codePs d ↔ c.toNat < d.toNat) ∧
  (∀ c : Code, encodePs (codePs c) = c) ∧
  (∀ q : Rat,
    (∀ c : Code, q ≤ codePs c → (encodePs q).toNat ≤ c.toNat) ∧ (q ≤ codePs 0xFFFE → q ≤ codePs (encodePs q)) ∧
    (codePs 0xFFFE < q → encodePs q = 0xFFFF) ∧ (q ≤ 1 → encodePs q = 0))

/-- 06 R192, R219 to R222: one pass of the Weir moves a rate word by no more than the whole units of its allowance,
keeps it in the range of the rate word, ends on the wanted rate unless one of its two limits acts, and carries less
than one unit of allowance on. -/
def Obligations.WeirBoundsEveryMove : Prop :=
  ∀ (rate want centre exc : Int) (slope carry : Rat), 0 ≤ slope → 0 ≤ carry → rateMin ≤ rate → rate ≤ rateMax →
    rateMin ≤ (weirPass rate want centre exc slope carry).1 ∧ (weirPass rate want centre exc slope carry).1 ≤ rateMax ∧
    (weirPass rate want centre exc slope carry).1 - rate ≤ (unitsQ (slope / 65536) + carry).floor ∧
    rate - (weirPass rate want centre exc slope carry).1 ≤ (unitsQ (slope / 65536) + carry).floor ∧
    0 ≤ (weirPass rate want centre exc slope carry).2.1 ∧ (weirPass rate want centre exc slope carry).2.1 < 1 ∧
    (rateMin ≤ want → want ≤ rateMax → (weirPass rate want centre exc slope carry).2.2.1 = false →
      (weirPass rate want centre exc slope carry).2.2.2 = false → (weirPass rate want centre exc slope carry).1 = want)

/-- 06 R11, R191: the cycles that BEAT_BOUNDARY lets pass, whose count is the model's own (log entry 4), are the fewest
after which the domain's counter has reached its next boundary. -/
def Obligations.BoundariesComeWhenDue : Prop :=
  ∀ (s : State) (h : Half) (d : Dom), s.gridOn h = true → 0 < (s.half h).grid → 0 ≤ (s.half h).gphase → (s.half h).gphase < 1 →
    0 < tickT (s.dom h d).rate →
    ((s.dom h d).done + 1) * beatT ≤ ((advance (s.cyclesToBeat h d) s).dom h d).t ∧
    (∀ n, n < s.cyclesToBeat h d → ((advance n s).dom h d).t < ((s.dom h d).done + 1) * beatT) ∧
    Gives (.beatBoundary h d 0) s (fun t => t.now = s.now + s.cyclesToBeat h d)

/-- 02 R79: a write-once register takes its first write after page reset, and every later write is a bus error of
cause WO_VIOL that leaves its value; no register holds write-once bits beside other writable ones. -/
def Obligations.WriteOnceRegistersTakeOneWrite : Prop :=
  ∀ (s : State) (a : Access) (d : Dom) (v : Word),
    (Allowed a (pgTd d) 0x060 v s →
      Gives (.trowelArm a d v) s (fun t => t.reg (pgTd d) 0x060 = v &&& 0x701 ∧
        (t.page (pgTd d)).woDone.contains 0x060 = true ∧
        (∀ q o, q ≠ pgTd d ∨ o ≠ 0x060 → t.reg q o = s.reg q o))) ∧
    (s.hostUp a.part = true → a.width = 4 → fullBe a = true → s.owns a.part (pgTd d) = true →
      (s.page (pgTd d)).lock = false → (s.page (pgTd d)).woDone.contains 0x060 = true →
      Gives (.trowelArm a d v) s (fun t => (∀ q o, t.reg q o = s.reg q o) ∧
        t = busError s a.part .woViol true (pgTd d * 4096 + 0x060) a.be)) ∧
    (∀ pg o r, regAt? pg o = some r → r.wo ≠ 0 → r.rw = 0 ∧ r.rwb = 0 ∧ r.w1c = 0)

/-- 02 R596: of the causes that an access meets, the one logged is the first in the order OVERSIZE, ABSENT, RESERVED,
UNALIGNED, NARROW_WRITE, SPANNING, NARROW_POP, SHADOW_WRITE, READ_ONLY, LOCK_VIOL, WO_VIOL, IND_TABLE, IND_RANGE. -/
def Obligations.FirstCauseInOrder : Prop :=
  ∀ (l : List Cause) (c : Cause),
    (firstCause l = none ↔ l = []) ∧
    (firstCause l = some c → c ∈ l ∧ ∀ d ∈ l,
      ([Cause.oversize, .absent, .reserved, .unaligned, .narrowWrite, .spanning, .narrowPop, .shadowWrite, .readOnly,
        .lockViol, .woViol, .indTable, .indRange] : List Cause).idxOf c ≤
      ([Cause.oversize, .absent, .reserved, .unaligned, .narrowWrite, .spanning, .narrowPop, .shadowWrite, .readOnly,
        .lockViol, .woViol, .indTable, .indRange] : List Cause).idxOf d)

/-- 02 R76, R80, R596: a write of one word, and a read of any width, that meets a cause changes no register; it sets
ACCESS_EVT on a page that is visible, goes with the first cause met to the partition's bus-error log while it has room,
and counts; a read answers without data; a locked page refuses every write of a register that is not exempt. -/
def Obligations.BusErrorsChangeNoRegister : Prop :=
  ∀ (s : State) (a : Access) (off : Nat) (v : BitVec 64) (c : Cause),
    a.bar2 = false →
    (s.hostUp a.part = true → off < 2 ^ 20 → off % 4 + a.width ≤ 4 →
      firstCause (sizeCauses a off ++ wordCauses s a.part (off / 4 * 4) (v.extractLsb' 0 32)) = some c →
      Gives (.registerWrite a off (some v)) s (fun t =>
        (∀ pg o, t.reg pg o = s.reg pg o) ∧
        ((pageKind (off / 4096)).isSome = true → s.visible a.part (off / 4096) = true →
          t.evtBit (off / 4096) evAccess = true) ∧
        ((s.part a.part).busLog.length < 16 →
          (t.part a.part).busLog = (s.part a.part).busLog ++
            [{ cause := c, isWrite := true, lost := min 31 (s.part a.part).busLost, seq := none,
               be := a.be.extractLsb' 0 4, off := BitVec.ofNat 20 off, ident := s.ident }]) ∧
        ((s.part a.part).busLog.length ≥ 16 → (t.part a.part).busLost = (s.part a.part).busLost + 1 ∧
          (t.part a.part).busLog = (s.part a.part).busLog))) ∧
    (s.hostUp a.part = true → off < 2 ^ 20 → firstCause (allReadCauses s a off) = some c →
      Gives (.registerWrite a off none) s (fun t =>
        (∀ pg o, t.reg pg o = s.reg pg o) ∧ .readData a.part none ∈ t.outs ∧
        ((pageKind (off / 4096)).isSome = true → s.visible a.part (off / 4096) = true →
          t.evtBit (off / 4096) evAccess = true) ∧
        ((s.part a.part).busLog.length < 16 →
          (t.part a.part).busLog = (s.part a.part).busLog ++
            [{ cause := c, isWrite := false, lost := min 31 (s.part a.part).busLost, seq := none,
               be := a.be.extractLsb' 0 4, off := BitVec.ofNat 20 off, ident := s.ident }]) ∧
        ((s.part a.part).busLog.length ≥ 16 → (t.part a.part).busLost = (s.part a.part).busLost + 1 ∧
          (t.part a.part).busLog = (s.part a.part).busLog))) ∧
    (off % 4 + a.width ≤ 4 → (s.page (off / 4096)).lock = true → s.visible a.part (off / 4096) = true →
      (∃ k r, pageKind (off / 4096) = some k ∧ regRow? k (off / 4 * 4 % 4096) = some r ∧ off % 4096 < 0x800 ∧
        lockExempt k (off / 4 * 4 % 4096) = false) →
      Gives (.registerWrite a off (some v)) s (fun t => ∀ pg o, t.reg pg o = s.reg pg o))

/-- 02 R62, R72, R73; 19 R587: a write of CHAIN changes the chained counters' bits and leaves every counter's value; a
64-bit write of two registers is their two 32-bit writes in ascending order; the two words of a buffered wide register
come into force together. 15 R467: in BAR2, whose entries'
layout is the model's (log entry 223), a word written is a word of the partition's interrupt table, and changes no register. -/
def Obligations.WritesOfOneAndTwoWords : Prop :=
  ∀ (s : State) (a : Access) (w : Fin 16) (v : Word) (off : Nat) (x : BitVec 64),
    (Allowed a pgCnt (0x080 + 4 * w.val) v s →
      Gives (.chainWrite a w v) s (fun t => 
        t.reg pgCnt (0x080 + 4 * w.val) &&& chainUsed w.val = v &&& chainUsed w.val ∧
        t.reg pgCnt (0x080 + 4 * w.val) &&& ~~~(chainUsed w.val) = s.reg pgCnt (0x080 + 4 * w.val) &&& ~~~(chainUsed w.val) ∧
        t.cnt = s.cnt)) ∧
    (a.bar2 = false → s.hostUp a.part = true → a.width = 4 → fullBe a = true → off < 2 ^ 20 → off % 4 = 0 →
      wordCauses s a.part off (x.extractLsb' 0 32) = [] →
      Gives (.registerWrite a off (some x)) s (fun t => t = writeWord a {} off (x.extractLsb' 0 32) s)) ∧
    (a.bar2 = true → s.hostUp a.part = true → a.width = 4 → off < 2 ^ 14 → off % 4 = 0 →
      Gives (.registerWrite a off (some x)) s (fun t => t = s.setBarWord a.part off (x.extractLsb' 0 32) ∧ t.pages = s.pages)) ∧
    (a.bar2 = false → s.hostUp a.part = true → a.width = 8 → fullBe a = true → off < 2 ^ 20 → off % 8 = 0 →
      wordCauses s a.part off (x.extractLsb' 0 32) = [] →
      wordCauses (writeWord a {} off (x.extractLsb' 0 32) s) a.part (off + 4) (x.extractLsb' 32 32) = [] →
      (widePair? off = none → Gives (.registerWrite a off (some x)) s (fun t =>
        t = writeWord a {} (off + 4) (x.extractLsb' 32 32) (writeWord a {} off (x.extractLsb' 0 32) s))) ∧
      (∀ m n, widePair? off = some (m, n) → Gives (.registerWrite a off (some x)) s (fun t =>
        t = writeBuffered (off / 4096) [(off % 4096, x.extractLsb' 0 32, m), (off % 4096 + 4, x.extractLsb' 32 32, n)]
          a s)))

/-- 02 R50, R51, R80, R595: LOCK stays at 1 once written; EN is written on reference-slot pages, starts and stops the
engine of jet, port and Fountain pages, and is without effect on any other page; a soft reset of a page takes place at
once or at the page's boundary, and leaves its registers at their reset values, its owner and its lock; the Fountain's
page, enabled again by it, starts anew. -/
def Obligations.PageControlWrites : Prop :=
  ∀ (s : State) (a : Access) (pg : PageNo) (en : Bool),
    (Allowed a pg.val 0x00C (0x80000000 ||| flagAt (s.page pg.val).en 0) s →
      Gives (.pageLock a pg) s (fun t => (t.page pg.val).lock = true)) ∧
    (Allowed a pg.val 0x00C (flagAt en 0) s →
      Gives (.pageEnable a pg en) s (fun t =>
        (∀ n, pageKind pg.val = some (.rs n) → t = s.modPage pg.val (fun p => { p with en := en })) ∧
        (∀ n, pageKind pg.val = some (.jet n) → en = true → (s.page pg.val).en = false →
          (s.jet (Fin.ofNat 16 n)).phase = .run → (s.jet (Fin.ofNat 16 n)).stop = true →
          t = (s.modPage pg.val (fun p => { p with en := true })).modJet (Fin.ofNat 16 n) (fun x => { x with again := true })) ∧
        (∀ n, pageKind pg.val = some (.jet n) → en = true → (s.page pg.val).en = false →
          ((s.jet (Fin.ofNat 16 n)).phase ≠ .run ∨ (s.jet (Fin.ofNat 16 n)).stop = false) →
          t = startJet (Fin.ofNat 16 n) (s.modPage pg.val (fun p => { p with en := true }))) ∧
        (∀ n, pageKind pg.val = some (.jet n) → (en = true ∧ (s.page pg.val).en = true ∨ (s.page pg.val).en = false ∧ en = false) →
          t = s.modPage pg.val (fun p => { p with en := en })) ∧
        (∀ n, pageKind pg.val = some (.jet n) → en = false → (s.page pg.val).en = true →
          (s.jet (Fin.ofNat 16 n)).phase = .off →
          t = settleLevel (Fin.ofNat 16 n) (s.modPage pg.val (fun p => { p with en := false }))) ∧
        (∀ n, pageKind pg.val = some (.jet n) → en = false → (s.page pg.val).en = true →
          (s.jet (Fin.ofNat 16 n)).phase ≠ .off →
          t = stopJet (Fin.ofNat 16 n) false (s.modPage pg.val (fun p => { p with en := false }))) ∧
        (∀ n, pageKind pg.val = some (.lp n) → en = false → (s.page pg.val).en = true →
          t = settleAll (stopPort (Fin.ofNat 16 n) (s.modPage pg.val (fun p => { p with en := false })))) ∧
        (∀ n, pageKind pg.val = some (.lp n) → en = true → (s.page pg.val).en = false →
          t = settleAll (s.modPage pg.val (fun p => { p with en := true }))) ∧
        (∀ n, pageKind pg.val = some (.lp n) → en = (s.page pg.val).en → t = s) ∧
        (pageKind pg.val = some .ftn → t = ftnEnable en s) ∧
        ((∀ n, pageKind pg.val ≠ some (.rs n) ∧ pageKind pg.val ≠ some (.jet n) ∧ pageKind pg.val ≠ some (.lp n)) →
          pageKind pg.val ≠ some .ftn → t = s))) ∧
    (∀ u, Allowed a pg.val 0x00C (0x2 ||| flagAt (s.page pg.val).en 0) s → u = writeEn pg.val (s.page pg.val).en s →
      Gives (.srst a pg) s (fun t =>
        if immediateNow u pg.val 0x00C then t = softReset pg.val u
        else t = u.modPage pg.val (fun p => { p with srst := true }))) ∧
    ((s.page pg.val).srst = true →
      Gives (.pageSoftReset pg) s (fun t => t = softReset pg.val s)) ∧
    (pg.val ≠ pgFtn ∨ (s.page pg.val).en = true →
      softReset pg.val s = resetBeyond pg.val (dropSets pg.val (resetPageRegs s pg.val))) ∧
    (pg.val = pgFtn → (s.page pg.val).en = false → softReset pg.val s = ftnEnable true
      ((resetBeyond pg.val (dropSets pg.val (resetPageRegs s pg.val))).modPage pg.val (fun p => { p with en := false }))) ∧
    (∀ o, (resetPageRegs s pg.val).reg pg.val o = resetWord pg.val o) ∧
    ((resetPageRegs s pg.val).page pg.val).owner = (s.page pg.val).owner ∧
    ((resetPageRegs s pg.val).page pg.val).lock = (s.page pg.val).lock ∧
    ((resetPageRegs s pg.val).page pg.val).shadow = [] ∧ ((resetPageRegs s pg.val).page pg.val).hold = false ∧
    ((resetPageRegs s pg.val).page pg.val).woDone = []

/-- 02 R81, R82: a write of 1 to a bit of PAGE_EVT clears it unless hardware sets it in the same cycle, and a write of
0 leaves it; every hardware set counts in EVT_CNT, whether or not the bit was already 1; a clear of PAGE_FAULT.ACTIVE
while its cause remains is lost, with no further effect. 17 R548: a one-shot injection fires its detector once and is
disarmed; a continuous one stays armed before the detector fires; either names the detector that is written. On a
slot's page a one-shot one that waits for the slot's boundary stays armed until then, and a continuous one acts at
every boundary. Which of a page's parts it falls on is free (log entry 11). -/
def Obligations.EventsAndInjections : Prop :=
  (∀ (s : State) (a : Access) (pg : PageNo) (v coin : Word),
     (Allowed a pg.val 0x014 v s →
       Gives (.eventClear a pg v coin) s (fun t =>
         (∀ b, b < 32 → t.evtBit pg.val b = (s.evtBit pg.val b && (!bit v b || bit coin b))) ∧
         (t.page pg.val).evtCnt = (s.page pg.val).evtCnt ∧ (∀ q, q ≠ pg.val → t.page q = s.page q))) ∧
     (∀ b, b < 32 → (s.setEvt pg.val b).evtBit pg.val b = true ∧
       ((s.setEvt pg.val b).page pg.val).evtCnt = (s.page pg.val).evtCnt + 1) ∧
     (Allowed a pg.val 0x01C 1 s →
       (causeRemains pg.val s = true → Gives (.faultClear a pg) s (fun t => t = s)) ∧
       (causeRemains pg.val s = false →
         Gives (.faultClear a pg) s (fun t => (t.page pg.val).fault.active = false ∧
           (t.page pg.val).fault.seq = (s.page pg.val).fault.seq)))) ∧
  (∀ (s : State) (a : Access) (pg : PageNo) (det : Byte) (cont : Bool) (loc : Nat) (armed u : State),
     (armed = s.modPage pg.val (fun p => { p with injDet := det, injCont := cont, injArm := true })) →
     (loc = (armed.draw (2 ^ 20)).1) → (u = (armed.draw (2 ^ 20)).2) →
     Allowed a pg.val 0x020 (0x200 ||| flagAt cont 8 ||| det.setWidth 32) s →
     ((∀ n, pageKind pg.val ≠ some (.rs n)) →
       (cont = false → Gives (.inject a pg det cont) s (fun t => (t.page pg.val).injArm = false ∧
         t = (detect pg.val det loc u).modPage pg.val (fun p => { p with injArm := false }))) ∧
       (cont = true → Gives (.inject a pg det cont) s (fun t => t = detect pg.val det loc u))) ∧
     (∀ n, pageKind pg.val = some (.rs n) →
       (cont = true → Gives (.inject a pg det cont) s (fun t => t = u)) ∧
       (cont = false →
         ((∀ h, ((detect pg.val det loc u).slot h (Fin.ofNat 32 n)).pend.inj = []) →
           Gives (.inject a pg det cont) s (fun t => (t.page pg.val).injArm = false ∧
             t = (detect pg.val det loc u).modPage pg.val (fun p => { p with injArm := false }))) ∧
         ((∃ h, ((detect pg.val det loc u).slot h (Fin.ofNat 32 n)).pend.inj ≠ []) →
           Gives (.inject a pg det cont) s (fun t => t = detect pg.val det loc u)))))

/-- 02 R59, R60: HOLD at 1 keeps the shadow as it is, or captures it for the coming boundary when the write comes
after the capture point; HOLD back at 0 keeps it too where a word of it has a boundary to wait for, and puts its words in
force where none has; DISCARD empties the shadow and clears PENDING and LATE, and
leaves what is captured, a shadow that it finds after the capture point included; the words in force stay as they are. On
the PTP and Fountain pages the same holds of each port's own words, by that port's capture point. -/
def Obligations.ApplyHoldsAndDiscards : Prop :=
  ∀ (s : State) (a : Access) (pg : PageNo),
    (Allowed a pg.val 0x024 1 s →
      (servePage pg.val = false → Gives (.applyHold a pg) s (fun t =>
        (t.page pg.val).hold = true ∧ (t.page pg.val).regs = (s.page pg.val).regs ∧
        (a.late = false ∨ (s.page pg.val).hold = true ∨ (s.page pg.val).captured ≠ none →
          (t.page pg.val).shadow = (s.page pg.val).shadow ∧ (t.page pg.val).captured = (s.page pg.val).captured) ∧
        (a.late = true → (s.page pg.val).hold = false → (s.page pg.val).captured = none →
          (t.page pg.val).shadow = [] ∧ (t.page pg.val).captured = some (s.page pg.val).shadow))) ∧
      (servePage pg.val = true → Gives (.applyHold a pg) s (fun t =>
        (t.page pg.val).hold = true ∧ (t.page pg.val).regs = (s.page pg.val).regs ∧
        (t.page pg.val).shadow = (s.page pg.val).shadow ∧
        ∀ p, (t.port p).waits pg.val =
          (if s.missed a p = true ∧ (s.page pg.val).hold = false ∧ ((s.port p).waits pg.val).wait ≠ []
           then ((s.port p).waits pg.val).capture (s.page pg.val).bufCnt else (s.port p).waits pg.val)))) ∧
    (Allowed a pg.val 0x024 0 s → servePage pg.val = false →
      ((s.page pg.val).hold = false ∨ (s.page pg.val).waiting = [] ∨
          (∃ e ∈ (s.page pg.val).waiting, immediateNow s pg.val e.1 = false) →
        Gives (.applyRelease a pg) s (fun t => (t.page pg.val).hold = false ∧
          (t.page pg.val).shadow = (s.page pg.val).shadow ∧ (t.page pg.val).regs = (s.page pg.val).regs ∧
          ((s.page pg.val).captured ≠ none → (t.page pg.val).captured = (s.page pg.val).captured))) ∧
      ((s.page pg.val).hold = true → (s.page pg.val).waiting ≠ [] →
          (∀ e ∈ (s.page pg.val).waiting, immediateNow s pg.val e.1 = true) →
        Gives (.applyRelease a pg) s (fun t =>
          t = nowInForce pg.val (s.page pg.val).waiting (holdPage s pg.val false a)
            (flushWords (holdPage s pg.val false a) pg.val)))) ∧
    (∀ u, Allowed a pg.val 0x024 0 s → servePage pg.val = true → u = s.holdServe pg.val false a →
      ((s.page pg.val).hold = false ∨ (s.page pg.val).waiting = [] ∨
          (∃ e ∈ (s.page pg.val).waiting, immediateNow u pg.val e.1 = false) →
        Gives (.applyRelease a pg) s (fun t => (t.page pg.val).hold = false ∧ t = u)) ∧
      ((s.page pg.val).hold = true → (s.page pg.val).waiting ≠ [] →
          (∀ e ∈ (s.page pg.val).waiting, immediateNow u pg.val e.1 = true) →
        Gives (.applyRelease a pg) s (fun t => t = nowInForce pg.val (s.page pg.val).waiting s
          (u.modPage pg.val (fun p => { p with applySeq := p.applySeq + 1 }))))) ∧
    (Allowed a pg.val 0x024 (0x2 ||| flagAt (s.page pg.val).hold 0) s →
      (servePage pg.val = false → Gives (.discard a pg) s (fun t =>
        (t.page pg.val).shadow = [] ∧ (t.page pg.val).pend = false ∧
        (t.page pg.val).late = false ∧ (t.page pg.val).hold = (s.page pg.val).hold ∧
        (t.page pg.val).captured = (if a.late = true ∧ (s.page pg.val).hold = false ∧ (s.page pg.val).captured = none
          then some (s.page pg.val).shadow else (s.page pg.val).captured) ∧
        (t.page pg.val).regs = (s.page pg.val).regs)) ∧
      (servePage pg.val = true → Gives (.discard a pg) s (fun t =>
        (t.page pg.val).hold = (s.page pg.val).hold ∧ ∀ p, ((t.port p).waits pg.val).wait = [])))

/-- 02 R63, R66: a write of IND_ADDR or IND_CTL discards staged words and sets TORN, whatever it writes to TORN, and
moves no other partition's trio; a write of a word that is not the last of its entry stages it, and no table changes;
a word of a one-word entry comes into force at once, as a partition's vector map shows. 02 R67: a read of IND_DATA
that meets no cause returns one word and advances the address with AUTOINC, and no table and no register changes. -/
def Obligations.IndirectAccessStagesAndAdvances : Prop :=
  (∀ (s : State) (a : Access) (pg : PageNo) (v : Word),
     (Allowed a pg.val 0x028 v s →
       Gives (.indAddrWrite a pg v) s (fun t =>
         (t.trio a.part pg.val).addr = v ∧ (t.trio a.part pg.val).staged = none ∧
         (t.trio a.part pg.val).torn = ((s.trio a.part pg.val).torn || (s.trio a.part pg.val).staged.isSome) ∧
         (∀ p, p ≠ a.part → t.trio p pg.val = s.trio p pg.val))) ∧
     (Allowed a pg.val 0x030 v s →
       Gives (.indCtlWrite a pg v) s (fun t =>
         (t.trio a.part pg.val).table = BitVec.ofNat 8 (bits v 7 0) ∧ (t.trio a.part pg.val).autoinc = bit v 8 ∧
         (t.trio a.part pg.val).addr = (s.trio a.part pg.val).addr ∧ (t.trio a.part pg.val).staged = none ∧
         (t.trio a.part pg.val).torn =
           (((s.trio a.part pg.val).torn && !bit v 24) || (s.trio a.part pg.val).staged.isSome) ∧
         (∀ p, p ≠ a.part → t.trio p pg.val = s.trio p pg.val))) ∧
     (∀ tab, Allowed a pg.val 0x02C v s → s.tableOf a.part pg.val = some tab →
       (s.trio a.part pg.val).addr.toNat % tab.words + 1 ≠ tab.words →
       Gives (.indDataWrite a pg v) s (fun t =>
         (∃ l, (t.trio a.part pg.val).staged = some ((s.trio a.part pg.val).addr.toNat / tab.words, l) ∧
           ((s.trio a.part pg.val).addr.toNat % tab.words, v) ∈ l) ∧
         (t.trio a.part pg.val).addr = (s.trio a.part pg.val).addr + (if (s.trio a.part pg.val).autoinc then 1 else 0) ∧
         t.models = s.models ∧ t.ftn = s.ftn ∧ t.parts = s.parts ∧ t.flt = s.flt)) ∧
     (Allowed a (pgHp a.part) 0x02C v s → (s.trio a.part (pgHp a.part)).table = 0 →
       Gives (.indDataWrite a (Fin.ofNat 256 (pgHp a.part)) v) s (fun t =>
         look vecReset (t.part a.part).vecMap (s.trio a.part (pgHp a.part)).addr.toNat =
           mergeMask (look vecReset (s.part a.part).vecMap (s.trio a.part (pgHp a.part)).addr.toNat) v 0x1F ∧
         (∀ p, p ≠ a.part → t.part p = s.part p)))) ∧
  (∀ (s : State) (a : Access) (pg : PageNo) (k : PageKind) (tab : IndTable), ReadAllowed a (pg.val * 4096 + 0x02C) s →
     pageKind pg.val = some k → s.tableOf a.part pg.val = some tab →
     Gives (.indDataRead a pg) s (fun t =>
       (t.trio a.part pg.val).addr = (s.trio a.part pg.val).addr + (if (s.trio a.part pg.val).autoinc then 1 else 0) ∧
       (t.trio a.part pg.val).staged = (s.trio a.part pg.val).staged ∧
       (∃ w, t.outs = s.outs ++ [.readData a.part (some w)]) ∧
       (∀ q o, t.reg q o = s.reg q o) ∧ t.models = s.models ∧ t.ftn = s.ftn ∧ t.parts = s.parts ∧ t.flt = s.flt))

/-- 10 R331, R336; 17 R551; 02 R78: a read that pops returns the oldest entry and takes it away, and returns 0 from an
empty queue; 06 R229: the read of TDn_NOW_SEC_HI latches the domain's time, bound and state. 02 R71, R73: any other read
that meets no cause answers the words it touches in ascending order, and a whole word of a register neither of the
indirect port nor of a live view changes nothing. 15 R467: in BAR2 (log entry 223) a word read is answered as it stands. -/
def Obligations.PopsTakeTheOldestEntry : Prop :=
  ∀ (s : State) (a : Access) (p : PortNo) (c : CapNo) (d : Dom) (off : Nat),
    (a.bar2 = false → ReadAllowed a off s → readsPair off = false →
      Gives (.registerWrite a off none) s (fun t =>
        t = (readWords a off (wordsOf off a.width) s).2.answer64 a.part
          (cutRead off a.width (readWords a off (wordsOf off a.width) s).1)) ∧
      (a.width = 4 → off % 4 = 0 → off % 4096 ≠ 0x02C →
        ((∀ n, pageKind (off / 4096) ≠ some (.td n)) ∨ off % 4096 ≠ 0x13C) →
        Gives (.registerWrite a off none) s (fun t =>
          t = s.emit (.readData a.part (some (((readWord s a.part (off / 4096) (off % 4096)).getD 0).setWidth 64)))))) ∧
    (a.bar2 = true → s.hostUp a.part = true → a.width = 4 → off < 2 ^ 14 → off % 4 = 0 →
      Gives (.registerWrite a off none) s (fun t => t = s.answer64 a.part ((s.barWord a.part off).setWidth 64))) ∧
    (ReadAllowed a (pgLp p * 4096 + 0x410) s →
      (∀ e r, (s.port p).txq = e :: r →
        Gives (.txtsPop a p) s (fun t => (t.port p).txq = r ∧
          t.outs = s.outs ++ [.readData a.part (some (popWord e.dom e.noSend e.mark e.lost e.id e.bound))])) ∧
      ((s.port p).txq = [] → Gives (.txtsPop a p) s (fun t => t = s.emit (.readData a.part (some 0))))) ∧
    (ReadAllowed a (pgCap c * 4096 + 0x060) s →
      (∀ e r, (s.cap c).fifo = e :: r →
        Gives (.capPop a c) s (fun t => (t.cap c).fifo = r ∧
          t.outs = s.outs ++ [.readData a.part (some (popWord e.dom e.rising false e.lost e.seq e.bound))])) ∧
      ((s.cap c).fifo = [] → Gives (.capPop a c) s (fun t => t = s.emit (.readData a.part (some 0))))) ∧
    (ReadAllowed a (pgFlt * 4096 + 0x080) s →
      (∀ e r, s.flt.log = e :: r →
        Gives (.fltLogPop a) s (fun t => t.flt.log = r ∧ t.outs = s.outs ++ [.readData a.part (some e.msg)])) ∧
      (s.flt.log = [] → Gives (.fltLogPop a) s (fun t => t = s.emit (.readData a.part (some 0))))) ∧
    (ReadAllowed a (pgHp a.part * 4096 + 0x7C0) s →
      (∀ e r, (s.part a.part).busLog = e :: r →
        Gives (.buserrLogPop a) s (fun t => (t.part a.part).busLog = r ∧
          t.outs = s.outs ++ [.readData a.part (some e.word)])) ∧
      ((s.part a.part).busLog = [] → Gives (.buserrLogPop a) s (fun t => t = s.emit (.readData a.part (some 0))))) ∧
    (s.hostUp a.part = true → s.visible a.part (pgTd d) = true → s.busHalf ≠ none →
      Gives (.nowLatch a.part d) s (fun t =>
        (t.part a.part).nowView.get d = { t := s.busTime d, bound := s.busBound d, state := s.busState d } ∧
        (∀ e, e ≠ d → (t.part a.part).nowView.get e = (s.part a.part).nowView.get e)))

/-- 03 R96, R97, R99, R106, R107: a feed that is detected starts the module from STANDBY, and PCIe trains where it enters
SEALED; one that is lost puts its half into power-fail while the other feed stands, its claim withdrawn at the arbiters,
and the module into STANDBY otherwise; a breaker trip sets its event and
loses the feed; the input switch closes again. 03 R94, R106, R110, R537: RESET_N held low, and the common die at 125
°C, restart the module at start-up step 3 with the island as it was; both write the cause of the reset; release of
RESET_N and cooling clear what held start-up. -/
def Obligations.PowerOnAndResets : Prop :=
  (∀ (s : State) (f : Half) (mv : Nat),
     ((s.pwr.feeds.of f).detected = false → (s.pwr.feeds.of f).tripped = false → 5600 < mv → s.pwr.state = .standby →
       Gives (.feedDetected f mv) s (fun t =>
         (t.pwr.feeds.of f).detected = true ∧ (t.pwr.feeds.of f).mv = mv ∧ t.pwr.feeds.of f.peer = s.pwr.feeds.of f.peer ∧
         t.pwr.startStep = 2 ∧ t.pwr.state = (if s.keys.latch = 0 then .boot else .sealed) ∧
         (t.pwr.pcieUp = true ↔ s.keys.latch ≠ 0))) ∧
     ((s.pwr.feeds.of f).detected = true → (s.pwr.feeds.of f.peer).detected = true → s.pwr.half.of f = .on →
       Gives (.feedLost f) s (fun t =>
         (t.pwr.feeds.of f).detected = false ∧ t.pwr.half.of f = .failing ∧ t.pwr.half.of f.peer = s.pwr.half.of f.peer ∧
         t.halfOn f = true ∧ t.claimOf f = none ∧ t.arb.claims.of f = none ∧
         t.evtBit pgPwr (evFeedLost f) = true)) ∧
     ((s.pwr.feeds.of f).detected = true → (s.pwr.feeds.of f.peer).detected = false →
       Gives (.feedLost f) s (fun t => t.pwr.state = .standby ∧ t.pwr.startStep = 1 ∧ t.keys.latch = s.keys.latch)) ∧
     ((s.pwr.feeds.of f).detected = true → (s.pwr.feeds.of f.peer).detected = true →
       Gives (.breakerTrip f) s (fun t =>
         (t.pwr.feeds.of f).detected = false ∧ (t.pwr.feeds.of f).tripped = true ∧
         t.evtBit pgPwr (evBreaker f) = true ∧ t.evtBit pgPwr (evFeedLost f) = true)) ∧
     Gives (.breakerReclose f) s (fun t =>
       (t.pwr.feeds.of f).tripped = false ∧ (t.pwr.feeds.of f).detected = (s.pwr.feeds.of f).detected ∧
       t.pwr.feeds.of f.peer = s.pwr.feeds.of f.peer ∧ t.pages = s.pages ∧ t.halves = s.halves ∧ t.keys = s.keys)) ∧
  (∀ (s : State),
     (s.pwr.state ≠ .standby →
       Gives (.resetN true) s (fun t =>
         t.pwr.resetLow = true ∧ t.pwr.startStep = 2 ∧ t.pwr.lastCause = 2 ∧ t.pwr.half = ⟨.off, .off⟩ ∧
         t.keys.latch = s.keys.latch ∧ t.keys.tampCfg = s.keys.tampCfg ∧ t.keys.fuse = s.keys.fuse ∧
         t.pwr.rtcSec = s.pwr.rtcSec ∧ t.mgt.flash = s.mgt.flash ∧ t.pages = [] ∧ t.ops = [])) ∧
     Gives (.resetN false) s (fun t => t.pwr.resetLow = false ∧ t.pages = s.pages ∧ t.keys = s.keys) ∧
     (s.pwr.state ≠ .standby →
       Gives .thermCommon s (fun t =>
         t.pwr.commonHot = true ∧ t.pwr.lastCause = 3 ∧ t.pwr.startStep = 2 ∧ t.pwr.half = ⟨.off, .off⟩ ∧
         t.keys.latch = s.keys.latch ∧ t.pwr.rtcSec = s.pwr.rtcSec)) ∧
     Gives (.thermRecover .C) s (fun t => t.pwr.commonHot = false ∧ Die.C ∉ t.pwr.warned ∧ t.pwr.halfHot = s.pwr.halfHot) ∧
     Gives (.thermRecover .A) s (fun t => t.pwr.halfHot.a = false ∧ Die.A ∉ t.pwr.warned ∧ t.pwr.halfHot.b = s.pwr.halfHot.b) ∧
     Gives (.thermRecover .B) s (fun t => t.pwr.halfHot.b = false ∧ Die.B ∉ t.pwr.warned ∧ t.pwr.halfHot.a = s.pwr.halfHot.a))

/-- 03 R97, R98, R105, R106, R110: a half in power-fail is held in reset and unpowered, with nothing of its state left,
and times on the bus stand; a half whose feed is detected powers up again held in reset; a thermal trip puts a running
half into power-fail, marks it hot and withdraws its claim, and one still held in reset is unpowered at once. 03 R93, R103, R104, R110, R112: a die over 108 °C is noted and its event set; VBAT is measured and a
fall below 2.1 V sets VBAT_LOW; an overload folds VAUX_3V3 back; with the pre-regulators up start-up reaches step 3,
and a lost retention pattern makes the RTC invalid and the island's tamper state new. -/
def Obligations.HalvesArePoweredAndWatched : Prop :=
  (∀ (s : State) (h : Half),
     (s.pwr.half.of h = .failing →
       Gives (.halfHeldInReset h) s (fun t =>
         t.pwr.half.of h = .off ∧ t.half h = {} ∧ t.pwr.half.of h.peer = s.pwr.half.of h.peer ∧
         t.half h.peer = (if (s.half h.peer).role = .solo then { s.half h.peer with divAt := none } else s.half h.peer) ∧
         (∀ d, t.busTime d = s.busTime d) ∧
         t.pwr.state = (if s.pwr.state = .run then .reduced else s.pwr.state))) ∧
     (s.mayPower h = true → s.pwr.half.of h = .off → s.pwr.state ≠ .standby → s.pwr.state ≠ .boot →
       Gives (.halfRepower h) s (fun t =>
         t.pwr.half.of h = .held ∧ t.pwr.half.of h.peer = s.pwr.half.of h.peer ∧ t.halves = s.halves)) ∧
     (s.pwr.half.of h = .on →
       Gives (.thermTrip h) s (fun t =>
         t.pwr.half.of h = .failing ∧ t.pwr.halfHot.of h = true ∧ t.evtBit pgPwr (evThermTrip h) = true ∧
         (t.half h).peerOk = false ∧ (t.half h).doms = (s.half h).doms ∧ (t.half h).role = (s.half h).role ∧
         t.pwr.half.of h.peer = s.pwr.half.of h.peer ∧ t.arb.claims.of h = none)) ∧
     (s.pwr.half.of h = .held →
       Gives (.thermTrip h) s (fun t =>
         t.pwr.half.of h = .off ∧ t.pwr.halfHot.of h = true ∧ t.evtBit pgPwr (evThermTrip h) = true ∧
         t.pwr.state = (if s.pwr.state = .run then .reduced else s.pwr.state))) ∧
     (s.mayPower h = true → s.pwr.halfHot.of h = false)) ∧
  (∀ (s : State) (d : Die) (mv : Nat),
     (s.pwr.state ≠ .standby →
       Gives (.thermWarn d) s (fun t => d ∈ t.pwr.warned ∧ t.evtBit pgPwr evThermWarn = true ∧ t.pwr.state = s.pwr.state)) ∧
     (s.pwr.state ≠ .standby → mv < 2100 → s.pwr.vbatLow = false →
       Gives (.vbatLow mv) s (fun t => t.pwr.vbatMv = mv ∧ t.pwr.vbatLow = true ∧ t.evtBit pgPwr evVbatLow = true)) ∧
     (2100 ≤ mv → Gives (.vbatLow mv) s (fun t => t.pwr.vbatMv = mv ∧ t.pwr.vbatLow = false ∧ t.pages = s.pages)) ∧
     (s.pwr.vaux = true → Gives .vauxOverload s (fun t => t.pwr.vauxFold = true ∧ t.pages = s.pages ∧ t.halves = s.halves)) ∧
     (s.pwr.startStep = 2 → s.pwr.state = .boot → s.pwr.resetLow = false → s.pwr.commonHot = false →
       s.pwr.feeds.a.detected = true →
       Gives (.preRegulatorsUp true) s (fun t => t.pwr.startStep = 3 ∧ t.pwr.vaux = true ∧ t.keys = s.keys ∧
         t.pwr.rtcValid = s.pwr.rtcValid) ∧
       Gives (.preRegulatorsUp false) s (fun t => t.pwr.startStep = 3 ∧ t.pwr.vaux = true ∧ t.pwr.retentionLost = true ∧
         t.pwr.rtcValid = false ∧ t.keys.latch = 0 ∧ t.keys.fuse = s.keys.fuse)))

/-- 16 R502, R503, R511: an extend hashes the digest into one register until the measurements are locked, and is
refused and logged from then on; the lock, at the firmware's request or after 100 ms, locks them and loads the key
store. 18 R561, R563; 16 R500; 03 R106 to R108: boot ROM start takes start-up to step 4; a measured image starts the
firmware; the end of step 5 opens PCIe, powers the halves whose feeds are detected and that are not hot, held in reset, and leaves
RUN with both or REDUCED; a failure restarts step 4, START_STEP standing, and the fourth enters recovery. -/
def Obligations.StartUpMeasuresAndRuns : Prop :=
  (∀ (s : State) (i : Fin 8) (d : BitVec 384), s.mgt.running = true →
     (s.keys.measLocked = false →
       Gives (.measExtend i d) s (fun t =>
         t.keys.meas.get i = Config.sha384 (measBytes (s.keys.meas.get i) ++ measBytes d) ∧
         (∀ j, j ≠ i → t.keys.meas.get j = s.keys.meas.get j) ∧ t.keys.measLocked = false ∧ t.pages = s.pages)) ∧
     (s.keys.measLocked = true → Gives (.measExtend i d) s (fun t => t.keys = s.keys ∧ t = s.logRec 0x0009 0)) ∧
     (s.keys.measLocked = false → s.pwr.state ≠ .sealed →
       Gives .measLock s (fun t => t.keys.measLocked = true ∧ t.keys.storeLoaded = true ∧ t.evtBit pgKey evStoreLoaded = true ∧
         t.keys.meas = s.keys.meas) ∧
       Gives .measLockTimeout s (fun t => t.keys.measLocked = true ∧ t.keys.storeLoaded = true ∧
         t.evtBit pgKey evStoreLoaded = true ∧ t.keys.meas = s.keys.meas))) ∧
  (∀ (s : State) (fuseOk : Bool) (step reason : Byte),
     (s.pwr.startStep = 3 → s.pwr.resetLow = false →
       Gives (.bootRomStart fuseOk) s (fun t => t.pwr.startStep = 4 ∧ t.keys.fuse = s.keys.fuse ∧ t.flt.aliveOn = true ∧
         (t.mgt.image = .recovery → t.keys.kint = none ∧ t.keys.kwrap = none))) ∧
     (s.pwr.startStep = 4 → s.mgt.running = false → s.mgt.image = .regionA →
       Gives .measuredBoot s (fun t => t.mgt.running = true ∧ t.mgt.svn = imgSvn s false)) ∧
     (s.pwr.startStep = 4 → s.keys.measLocked = true → s.keys.storeLoaded = true → s.pwr.state = .boot →
       s.mgt.image ≠ .none → Gives .step5Complete s (fun t => t.pwr.startStep = 6 ∧ t.pwr.pcieUp = true ∧
         t.pwr.state = (if (s.pwr.feeds.a.detected = true ∧ s.pwr.halfHot.a = false) ∧ s.pwr.feeds.b.detected = true ∧ s.pwr.halfHot.b = false
           then .run else .reduced) ∧
         (∀ h, t.pwr.half.of h =
           if (s.pwr.feeds.of h).detected = true ∧ s.pwr.halfHot.of h = false then .held else s.pwr.half.of h))) ∧
     (s.pwr.startStep = 4 → s.pwr.state = .boot → s.mgt.image ≠ .recovery →
       Gives (.bootRestart step reason) s (fun t =>
         if s.mgt.bootFails < 3 then t.pwr.startStep = 4 ∧ t.mgt.image = .none ∧ t.mgt.bootFails = s.mgt.bootFails + 1 ∧ t.mgt.running = false
         else t.mgt.image = .recovery ∧ t.mgt.running = false ∧ t.pwr.startStep = 4)))

/-- 16 R519 to R524: a source whose response is SEAL or ERASE latches, and with a feed present the module is SEALED:
no key is left in the key store, and the serving engines hold no session, no client and no table; in STANDBY the
source is latched and nothing else goes; a source that is OFF latches nothing; the erase that ERASE starts leaves
every slot ZEROISED. 16 R517, R526: KEY_ZEROISE of a slot leaves it ZEROISED, with its generation, and no other slot
changed; with ALL at 1 it leaves every slot ZEROISED. -/
def Obligations.KeysAreErasedOnTamperAndCommand : Prop :=
  (∀ (s : State) (src : Fin 9),
     (s.pwr.state ≠ .standby → (s.pwr.feeds.a.detected || s.pwr.feeds.b.detected) = true → 2 ≤ tampResp s src →
       Gives (.tamper src) s (fun t =>
         t.pwr.state = .sealed ∧ t.keys.latch = s.keys.latch ||| BitVec.ofNat 9 (2 ^ src.val) ∧ t.keys.kint = none ∧
         t.keys.kwrap = none ∧ t.keys.storeLoaded = false ∧
         (∀ n, (t.slotKey n).loaded = false ∧ (t.slotKey n).cur = none ∧ (t.slotKey n).prev = none ∧
           (t.slotKey n).gen = (s.slotKey n).gen) ∧
         t.ptp.sessions = [] ∧ t.ftn.table = [] ∧ t.keys.erasing = (s.keys.erasing || tampResp s src == 3) ∧
         t.keys.fuse = s.keys.fuse)) ∧
     (s.pwr.state = .standby → islandSrc src = true → 2 ≤ tampResp s src →
       Gives (.tamper src) s (fun t =>
         t.keys.latch = s.keys.latch ||| BitVec.ofNat 9 (2 ^ src.val) ∧ t.pwr = s.pwr ∧ t.keys.slots = s.keys.slots ∧
         t.keys.erasePend = (s.keys.erasePend || tampResp s src == 3) ∧ t.pages = s.pages)) ∧
     (tampResp s src = 0 → Gives (.tamper src) s (fun t => t.keys.latch = s.keys.latch ∧ t.keys.slots = s.keys.slots ∧
       t.pwr = s.pwr ∧ t.pages = s.pages)) ∧
     (s.keys.erasing = true → Gives .eraseComplete s (fun t => t.keys.erasing = false ∧ t.keys.erasePend = false ∧
       ∀ n, (t.slotKey n).stateCode = 2 ∧ (t.slotKey n).cur = none ∧ (t.slotKey n).gen = (s.slotKey n).gen))) ∧
  (∀ (s : State) (a : Access) (n : KeyNo),
     (Allowed a pgKey 0x044 (BitVec.ofNat 32 n.val) s →
       Gives (.keyZeroise a n) s (fun t =>
         (t.slotKey n).stateCode = 2 ∧ (t.slotKey n).loaded = false ∧ (t.slotKey n).cur = none ∧ (t.slotKey n).prev = none ∧
         (t.slotKey n).gen = (s.slotKey n).gen ∧ (∀ m, m ≠ n → t.slotKey m = s.slotKey m) ∧ t.keys.fuse = s.keys.fuse)) ∧
     (Allowed a pgKey 0x044 0x100 s →
       Gives (.keyZeroiseAll a) s (fun t =>
         ∀ m, (t.slotKey m).stateCode = 2 ∧ (t.slotKey m).cur = none ∧ (t.slotKey m).gen = (s.slotKey m).gen)))

/-- 04 R118 to R122; 09 R285: a half that leaves reset locks its standby line, or times out without it, classifies
MOSC, and locks on PRIMARY when MOSC is present and the primary line has locked, else on STANDBY; a half that locks
joins by a test when its peer is established, else publishes alone. -/
def Obligations.LathStartsInOrder : Prop :=
  ∀ (s : State) (h : Half) (hz : Nat),
    (s.pwr.half.of h = .held → s.pwr.resetLow = false →
      Gives (.halfResetEnd h) s (fun t => t.pwr.half.of h = .on ∧ t.half h = { role := .lath } ∧
        t.half h.peer = s.half h.peer ∧ t.pwr.half.of h.peer = s.pwr.half.of h.peer)) ∧
    (s.halfOn h = true → (s.lath h).standbyLock = false →
      Gives (.standbyLineLock h) s (fun t => (t.lath h).standbyLock = true ∧ (t.lath h).st = (s.lath h).st ∧
        (t.lath h).src = (if (s.lath h).src = 0 then 2 else (s.lath h).src) ∧ t.half h.peer = s.half h.peer)) ∧
    (s.halfOn h = true → (s.lath h).st = .acquire → (s.lath h).standbyLock = false → (s.lath h).xoTimeout = false →
      Gives (.xoLockTimeout h) s (fun t => (t.lath h).xoTimeout = true ∧ (t.lath h).xoOk = false ∧
        t.evtBit pgLath (lathBit h evXoBad) = true)) ∧
    (s.halfOn h = true → (s.lath h).st = .acquire → ((s.lath h).standbyLock = true ∨ (s.lath h).xoTimeout = true) →
      Gives (.moscClassify h hz) s (fun t => (t.lath h).cls = s.moscClass h hz ∧ (t.lath h).classified = true ∧
        (t.lath h).st = .acquire)) ∧
    (s.halfOn h = true → (s.lath h).st = .standby → (s.lath h).cls = 0 →
      Gives (.moscReclassify h hz) s (fun t => (t.lath h).cls = s.moscClass h hz ∧ (t.lath h).st = .standby)) ∧
    (s.halfOn h = true → (s.lath h).cls ≠ 0 → (s.lath h).primaryLock = false →
      Gives (.primaryLineLock h) s (fun t =>
        ((s.lath h).st = .acquire → (t.lath h).primaryLock = true ∧ (t.lath h).st = .acquire) ∧
        ((s.lath h).st = .standby → (t.lath h).primaryLock = true ∧ (t.lath h).st = .returning ∧
          (t.lath h).qualified = false))) ∧
    (s.halfOn h = true → (s.lath h).st = .acquire → (s.lath h).locked = false →
      ((s.lath h).cls ≠ 0 ∧ (s.lath h).primaryLock = true ∨
        (s.lath h).cls = 0 ∧ (s.lath h).classified = true ∧ (s.lath h).standbyLock = true) →
      Gives (.lathLock h) s (fun t => (t.lath h).locked = true ∧
        (t.lath h).st = (if (s.lath h).cls = 0 then .standby else .primary) ∧
        (t.lath h).src = (if (s.lath h).cls = 0 then 2 else 1) ∧
        (t.half h).role = (if s.established h.peer then .test else .solo))) ∧
    (s.halfOn h = true → (s.lath h).st = .acquire → (s.lath h).locked = false → (s.lath h).standbyLock = false →
      (s.lath h).classified = true → (s.lath h).cls = 0 →
      Gives (.lathAcquireRetry h) s (fun t => (t.lath h).classified = false ∧ (t.lath h).primaryLock = false ∧
        (t.lath h).st = .acquire ∧ (t.lath h).locked = false))

/-- 04 R124, R126 to R129, R131, R137 to R139: a loss of MOSC or of primary lock is told in every state and clears what was
seen; it takes PRIMARY to COAST when XO is usable and to FAIL when it is not, and RETURNING to STANDBY, and ends in no other
state; the handover and the return change the source once each
and replace every rate word by R131, so that no domain's time moves; a return asked for before qualification is not
remembered. -/
def Obligations.LathLosesAndReturns : Prop :=
  ∀ (s : State) (h : Half) (coastNs : Nat) (offset : BitVec 10),
    (s.halfOn h = true → (s.lath h).cls ≠ 0 ∨ (s.lath h).lossInj = true →
      Gives (.moscLost h) s (fun t => t.evtBit pgLath (lathBit h evMoscLost) = true ∧ (t.lath h).cls = 0 ∧
        (t.lath h).primaryLock = false ∧ (t.lath h).qualified = false ∧
        (t.lath h).st = (match (s.lath h).st with
          | .primary => if (s.lath h).xoOk then .coast else .fail
          | .returning => .standby
          | x => x) ∧
        (∀ d, (t.dom h d).t = (s.dom h d).t ∧ (t.dom h d).rate = (s.dom h d).rate))) ∧
    (s.halfOn h = true → (s.lath h).primaryLock = true →
      Gives (.lockLost h) s (fun t => t.evtBit pgLath (lathBit h evLockLost) = true ∧ (t.lath h).cls = 0 ∧
        (t.lath h).primaryLock = false ∧
        (t.lath h).st = (match (s.lath h).st with
          | .primary => if (s.lath h).xoOk then .coast else .fail
          | .returning => .standby
          | x => x) ∧
        ((s.lath h).st = .primary → (t.lath h).frozen = true))) ∧
    ((s.lath h).cls = 0 → (s.lath h).lossInj = false → Gives (.moscLost h) s (fun t => t = s)) ∧
    (s.halfOn h = true → (s.lath h).standbyLock = true → (s.lath h).xoOk = true →
      Gives (.xoBad h) s (fun t => (t.lath h).standbyLock = false ∧ (t.lath h).xoOk = false ∧
        (t.lath h).st = (if (s.lath h).st = .coast ∨ (s.lath h).st = .standby ∨ (s.lath h).st = .returning then .fail
          else (s.lath h).st))) ∧
    (s.gridOn h = true → (s.lath h).st = .coast → (s.lath h).xoOk = true →
      (∀ d, (s.dom h d).wouldSaturate ((s.lath h).xoY.getD 0) = false) →
      Gives (.toStandby h coastNs offset) s (fun t => (t.lath h).st = .standby ∧ (t.lath h).src = 2 ∧
        (t.lath h).swCnt = (s.lath h).swCnt + 1 ∧ (t.lath h).offset = offset ∧
        (∀ d, (t.dom h d).t = (s.dom h d).t ∧
          (t.dom h d).rate = satRate (rescale (s.dom h d).rate ((s.lath h).xoY.getD 0))))) ∧
    (s.gridOn h = true → (s.lath h).st = .returning → (s.lath h).qualified = true →
      (s.bitAt pgLath (0x040 + 4 * h.ix.val) 4 = true → (s.lath h).returnOk = true) →
      (∀ d, (s.dom h d).wouldSaturate (s.lath h).moscY = false) →
      Gives (.toPrimary h offset) s (fun t => (t.lath h).st = .primary ∧ (t.lath h).src = 1 ∧
        (t.lath h).swCnt = (s.lath h).swCnt + 1 ∧
        (∀ d, (t.dom h d).t = (s.dom h d).t ∧
          (t.dom h d).rate = satRate (rescale (s.dom h d).rate (s.lath h).moscY)))) ∧
    (s.gridOn h = true → (s.lath h).st = .returning → (s.lath h).qualified = true →
      Gives (.lathReturnCmd h) s (fun t => (t.lath h).returnOk = true)) ∧
    ((s.lath h).qualified = false ∨ (s.lath h).st ≠ .returning → Gives (.lathReturnCmd h) s (fun t => t = s))

/-- 04 R136, R137: a window of the returning MOSC whose frequency, corrected by XO's, lies outside the tolerance, or
further from the window before it than the stability limit, restarts qualification and sets QUAL_FAIL; one inside both
limits counts, and once the latest QUAL_TIME + 1 windows are all inside, MOSC is qualified; in no other state does a
window change anything. 09 R285, R311; 03 R106: a half that is reset, by command or by AUTO_RST after Lath FAIL, is held
in reset with all its state lost and sets HRST_DONE; RUN becomes REDUCED; the other half keeps its power and its state,
but that a half in SOLO drops its divergence term; and the times on the bus stand until the arbiters switch. A half that
is not powered is not reset, nor one whose AUTO_RST is 0 or whose Lath is not in FAIL. -/
def Obligations.QualificationAndHalfResets : Prop :=
  ∀ (s : State) (h : Half) (y : Int) (corr : Int → Rat) (tol stab : Rat) (near : Bool),
    (corr = fun v : Int => (1 + rateQ (v : Rat)) * (1 + rateQ (((s.lath h).xoY.getD 0 : Int) : Rat)) - 1) →
    tol = ((s.fieldAt pgLath 0x048 15 8 : Nat) : Rat) * tenth 7 →
    stab = ((s.fieldAt pgLath 0x048 23 16 : Nat) : Rat) * tenth 11 →
    near = (s.lath h).windows.head?.all (fun w => decide (absQ (corr y - corr w) ≤ stab)) →
    (s.gridOn h = true → (s.lath h).st = .returning → tol < absQ (corr y) ∨ near = false →
      Gives (.moscQualWindow h y) s (fun t => (t.lath h).qualWin = 0 ∧ (t.lath h).windows = [] ∧
        (t.lath h).qualified = false ∧ (t.lath h).returnOk = false ∧ (t.lath h).st = .returning ∧
        t.evtBit pgLath (lathBit h evQualFail) = true ∧ t.half h.peer = s.half h.peer)) ∧
    (s.gridOn h = true → (s.lath h).st = .returning → absQ (corr y) ≤ tol → near = true →
      Gives (.moscQualWindow h y) s (fun t =>
        (t.lath h).windows = (y :: (s.lath h).windows).take (s.fieldAt pgLath 0x048 5 0 + 1) ∧
        (t.lath h).qualWin = satN 8 ((s.lath h).qualWin + 1) ∧ (t.lath h).st = .returning ∧
        (t.lath h).qualified =
          ((s.lath h).qualified || decide (s.fieldAt pgLath 0x048 5 0 ≤ (s.lath h).windows.length)) ∧
        (t.lath h).returnOk = (s.lath h).returnOk ∧ t.half h.peer = s.half h.peer ∧ t.pages = s.pages)) ∧
    (s.gridOn h = false ∨ (s.lath h).st ≠ .returning → Gives (.moscQualWindow h y) s (fun t => t = s)) ∧
    (s.pwr.half.of h = .on →
      Gives (.halfResetCmd h) s (fun t => t.pwr.half.of h = .held ∧ t.half h = {} ∧ t.evtBit pgHalf evHrstDone = true ∧
        t.pwr.state = (if s.pwr.state = .run then .reduced else s.pwr.state) ∧
        t.half h.peer = (if (s.half h.peer).role = .solo then { s.half h.peer with divAt := none } else s.half h.peer) ∧
        t.pwr.half.of h.peer = s.pwr.half.of h.peer ∧ (∀ d, t.busTime d = s.busTime d))) ∧
    (s.pwr.half.of h = .on → (s.lath h).st = .fail → s.bitAt pgHalf 0x040 28 = true →
      Gives (.autoRst h) s (fun t => t.pwr.half.of h = .held ∧ t.half h = {} ∧ t.evtBit pgHalf evHrstDone = true ∧
        t.pwr.state = (if s.pwr.state = .run then .reduced else s.pwr.state) ∧
        t.half h.peer = (if (s.half h.peer).role = .solo then { s.half h.peer with divAt := none } else s.half h.peer) ∧
        t.pwr.half.of h.peer = s.pwr.half.of h.peer ∧ (∀ d, t.busTime d = s.busTime d))) ∧
    (s.pwr.half.of h ≠ .on → Gives (.halfResetCmd h) s (fun t => t = s)) ∧
    (s.pwr.half.of h ≠ .on ∨ (s.lath h).st ≠ .fail ∨ s.bitAt pgHalf 0x040 28 = false →
      Gives (.autoRst h) s (fun t => t = s))

/-- 09 R289, R290, R291: the arbiters see a half's claim, none while its lines fail parity; they act at once on a
change unless PEER_OK alone has changed, and then once it has lasted. 01 R26, R27; 09 R290, R293, R294, R295; 04 R142:
the arbiters follow the half with the higher claim; a switch of the time bus takes it to that half and counts, and
takes no domain's arbitrated time back, save where the half has begun a new sequence of values, and moves no half's time; a
switch of the clocks moves no time. -/
def Obligations.ClaimsDriveTheArbiters : Prop :=
  (∀ (s : State) (h : Half) (c : BitVec 8),
     (s.arb.parity.of h = false → s.claimOf h = some c → s.arb.claims.set h (some c) ≠ s.arb.acted →
       Gives (.claimChange h) s (fun t =>
         t.arb.claims = s.arb.claims.set h (some c) ∧
         (if peerOnly ((s.arb.claims.set h (some c)).of .A) (s.arb.acted.of .A) = true ∧
             peerOnly ((s.arb.claims.set h (some c)).of .B) (s.arb.acted.of .B) = true
          then t.arb.acted = s.arb.acted ∧ t.arb.persist = true
          else t.arb.acted = t.arb.claims ∧ t.arb.persist = false))) ∧
     (s.arb.persist = true →
       Gives .peerOkPersist s (fun t => t.arb.acted = s.arb.claims ∧ t.arb.persist = false ∧ t.arb.claims = s.arb.claims)) ∧
     (s.arb.parity.of h = false →
       Gives (.claimParityError h) s (fun t => t.arb.parity.of h = true ∧ t.arb.claims = s.arb.claims.set h none ∧
         t.arb.parity.of h.peer = s.arb.parity.of h.peer)) ∧
     (s.arb.parity.of h = true →
       Gives (.claimParityClear h) s (fun t => t.arb.parity.of h = false ∧ t.arb.claims = s.arb.claims.set h (s.claimOf h)))) ∧
  ((∀ x y : BitVec 8, y.toNat < x.toNat → winner ⟨some x, some y⟩ = some .A ∧ winner ⟨some y, some x⟩ = some .B) ∧
   (∀ x : BitVec 8, winner ⟨some x, none⟩ = some .A ∧ winner ⟨none, some x⟩ = some .B) ∧ winner ⟨none, none⟩ = none ∧
   ∀ (s : State) (h : Half), s.followed = some h →
     (s.busHalf ≠ some h →
       Gives .switch s (fun t => t.busHalf = some h ∧ t.arb.swCnt = s.arb.swCnt + 1 ∧ t.evtBit pgHalf evHSwitch = true ∧
         t.arb.fresh = false ∧ (s.arb.fresh = false → ∀ d, s.busTime d ≤ t.busTime d) ∧
         (s.arb.fresh = true → ∀ d, t.busTime d = (s.half h).timeOf d) ∧ (∀ d, (s.half h).timeOf d ≤ t.busTime d) ∧
         (∀ k, (t.half k).doms = (s.half k).doms ∧ (t.half k).role = (s.half k).role) ∧
         ((s.half h).early = [] → t.halves = s.halves))) ∧
     (s.busHalf = some h → Gives .switch s (fun t => t = s)) ∧
     (s.pwr.lathClock = true → s.arb.clock ≠ some h →
       Gives .clkArbSwitch s (fun t => t.arb.clock = some h ∧ t.evtBit pgLath evClkArbSwitch = true ∧
         (∀ d, t.busTime d = s.busTime d) ∧ t.halves = s.halves)))

/-- 09 R288, R299, R300, R301, R287: digests that match count toward PEER_OK, which rises on both halves after 1,024
of them; a mismatch clears PEER_OK on both and starts their self-tests; two TRANSIENT results make the half with the
lower claim load; the power-up self-test sets its health bit, which a targeted test that has failed since reset keeps at 0. 09 R305, R306, R309: each heartbeat sent or received
counts; with the link lost both halves clear PEER_OK and publishing halves pass to SPLIT, D counting from the loss; the link is
back after 16 successive good heartbeats, and of two halves in SPLIT the one with the lower claim loads, D going on. -/
def Obligations.DigestsAndTheLinkKeepStep : Prop :=
  (∀ (s : State) (h : Half) (peer own : BitVec 64) (pass : Bool),
     ((s.half h).digest = some own → s.comparing = true → own = peer →
       Gives (.digestReceived h peer) s (fun t => (t.half h).matchRun = satN 16 ((s.half h).matchRun + 1) ∧
         (t.half h).peerOk = (s.half h).peerOk ∧ (t.half h).role = (s.half h).role ∧ t.half h.peer = s.half h.peer)) ∧
     ((s.half h).digest = some own → s.comparing = true → own ≠ peer →
       Gives (.digestReceived h peer) s (fun t => t.evtBit pgHalf evStepDiverge = true ∧
         (t.half h).mismatch = (s.half h).mismatch + 1 ∧
         ∀ k, (t.half k).peerOk = false ∧ (t.half k).matchRun = 0 ∧ (t.half k).divTest = .running)) ∧
     ((s.half h).digest = none ∨ s.comparing = false → Gives (.digestReceived h peer) s (fun t => t = s)) ∧
     (s.comparing = true → 1024 ≤ (s.half .A).matchRun → 1024 ≤ (s.half .B).matchRun →
       ((s.half .A).peerOk = false ∨ (s.half .B).peerOk = false) →
       Gives .peerOkRise s (fun t => ∀ k, (t.half k).peerOk = true ∧ ((s.half k).role = .solo → (t.half k).role = .peer) ∧
         ((s.half k).role = .peer → (t.half k).role = .peer))) ∧
     (s.halfOn .A = true → s.halfOn .B = true → (s.half .A).divTest = .transient → (s.half .B).divTest = .transient →
       (s.half .A).linkUp = true → (s.half .B).linkUp = true → winner ⟨(s.half .A).divClaim, (s.half .B).divClaim⟩ = some h →
       (s.half h.peer).role = .peer →
       Gives .resyncOrder s (fun t => (t.half h.peer).role = .loading ∧ (t.half h).role = (s.half h).role ∧
         ∀ k, (t.half k).divTest = .none ∧ (t.half k).suspended = (s.half k).suspended)) ∧
     (s.gridOn h = true → (s.half h).selftestDone = false →
       Gives (.powerupSelftest h pass) s (fun t => (t.half h).selftestOk = (pass && !(s.half h).failed) ∧ (t.half h).selftestDone = true ∧
         (pass = false → t.evtBit pgHalf (evTestFail h) = true)))) ∧
  (∀ (s : State) (h : Half),
     (s.gridOn h = true → Gives (.heartbeatSend h) s (fun t => (t.half h).hbSent = (s.half h).hbSent + 1 ∧
       t.half h.peer = s.half h.peer)) ∧
     (s.gridOn h = true → s.halfOn h.peer = true →
       Gives (.heartbeatReceived h) s (fun t => (t.half h).hbAt = (s.half h.peer).hbSent ∧
         ((s.half h.peer).hbSent ≤ (s.half h).hbAt + 1 → (t.half h).hbGood = satN 16 ((s.half h).hbGood + 1)) ∧
         ((s.half h).hbAt + 1 < (s.half h.peer).hbSent → (t.half h).hbGood = 1))) ∧
     (s.halfOn .A = true → s.halfOn .B = true → (s.half h).linkUp = true →
       Gives .linkLost s (fun t => t.evtBit pgHalf evLinkLost = true ∧
         (∀ k, (t.half k).linkUp = false ∧ (t.half k).peerOk = false ∧ (t.half k).lossCnt = (s.half k).lossCnt + 1 ∧
           (t.half k).hbGood = 0) ∧
         ((s.half .A).role = .peer → (s.half .B).role = .peer → s.pwr.half.a = .on → s.pwr.half.b = .on →
           ∀ k, (t.half k).role = .split ∧ (t.half k).divAt = some ((s.half k).divAt.getD (s.el0 k))))) ∧
     (s.halfOn .A = true → s.halfOn .B = true → (s.half h).linkUp = false → 16 ≤ (s.half .A).hbGood →
       16 ≤ (s.half .B).hbGood →
       Gives .linkUp s (fun t => t.evtBit pgHalf evLinkUp = true ∧ (∀ k, (t.half k).linkUp = true) ∧
         (winner ⟨s.claimOf .A, s.claimOf .B⟩ = some h → (s.half .A).role = .split → (s.half .B).role = .split →
           (t.half h).role = .solo ∧ (t.half h.peer).role = .loading ∧ ∀ k, (t.half k).divAt = (s.half k).divAt))))

/-- 09 R302, R304: a half that may load starts from a boundary of its publishing peer with every bound unbounded,
takes the peer's domains, and the configuration as the peer has it in force, 32 boundaries later and goes to VERIFY, and
publishes after HOLDOFF. -/
def Obligations.HalvesLoadAndJoin : Prop :=
  ∀ (s : State) (h : Half) (ext : Int) (die common : Vector Int 6),
    (s.gridOn h = true → (s.half h).linkUp = true → s.gridOn h.peer = true → (s.half h.peer).publishes = true →
      (s.half h).role = .test → (s.half h).selftestOk = true →
      Gives (.resyncStart h) s (fun t => (t.half h).role = .loading ∧ (t.half h).load = some { started := true } ∧
        (∀ d, (t.dom h d).bound = 0xFFFF ∧ (t.dom h d).unb = 3) ∧ t.half h.peer = s.half h.peer ∧
        t.evtBit pgHalf evResyncStart = true)) ∧
    (∀ l, (s.half h).role = .loading → (s.half h).load = some l → l.started = true → l.got < 32 → s.gridOn h = true →
      Gives (.loadStateReceived h) s (fun t => (t.half h).load = some { l with got := l.got + 1 } ∧
        (t.half h).role = .loading)) ∧
    (∀ l, s.gridOn h = true → s.gridOn h.peer = true → (s.half h).role = .loading → (s.half h).load = some l →
      l.started = true → 32 ≤ l.got → s.suspended = false →
      Gives (.loadInForce h ext die common) s (fun t => (t.half h).role = .verify ∧ (t.half h).load = none ∧
        (t.half h).late = (s.half h.peer).late ∧ (t.half h).early = (s.half h.peer).early ∧
        (t.half h).resyncCnt = (s.half h).resyncCnt + 1 ∧ t.half h.peer = s.half h.peer ∧
        (∀ d, (t.dom h d).t = (s.dom h.peer d).t ∧ (t.dom h d).done = (s.dom h.peer d).done ∧
          (t.dom h d).stepped = (s.dom h.peer d).stepped))) ∧
    (s.halfOn h = true → (s.half h).role = .holdoff →
      s.fieldAt pgHalf 0x040 23 16 * 1024 ≤ (s.half h).holdBeats →
      Gives (.holdoffElapsed h) s (fun t => t.evtBit pgHalf evJoined = true ∧
        (t.half h).role = (if (s.half h).linkUp = false ∧ s.publishing h.peer = true then .split else .peer) ∧
        ((s.half h).linkUp = false → s.publishing h.peer = true → (t.half h).divAt.isSome = true ∧
          ((s.half h.peer).role = .peer → (s.half h.peer).linkUp = false →
            (t.half h.peer).role = .split ∧ (t.half h.peer).divAt.isSome = true))))

/-- 05 R149, R153, R155, R163, R177; 02 R57: under the configuration that its half has in force, an observation of a present
slot is held against each domain it is observed against, with RS_DELAY added, and a PHASE offset reduced into half a
second; the pulse of a slot that a message labels waits for its label; a reading of ATOM_CLK goes to the frequency of RS30
alone; a comparison period starts from the domain's mean rate. -/
def Obligations.ObservationsAreHeld : Prop :=
  ∀ (s : State) (h : Half) (n : SlotNo) (raw : List Int) (d : Dom),
    (∀ r, isPtp n = false → (s.view h).labelled n = false → s.gridOn h = true → (s.slot h n).st ≠ 0 →
      (s.slot h n).skip = false → d ∈ (s.view h).slotDoms n → raw[d.val]? = some r →
      Gives (.slotObservation h n ⟨false, raw⟩) s (fun t =>
        (t.sd h n d).latest = some (if (s.view h).slotClass n = 1 then reducePhase (r + (s.view h).sfieldAt (pgRs n) 0x048 31 0)
          else r + (s.view h).sfieldAt (pgRs n) 0x048 31 0) ∧
        (t.sd h n d).nSince = (s.sd h n d).nSince + 1 ∧ (t.slot h n).st = (s.slot h n).st ∧
        t.half h.peer = s.half h.peer)) ∧
    (∀ r, isPtp n = false → (s.view h).labelled n = true → s.gridOn h = true → (s.slot h n).skip = false →
      (s.slot h n).nextSec = none → d ∈ (s.view h).slotDoms n → raw[d.val]? = some r →
      Gives (.slotObservation h n ⟨false, raw⟩) s (fun t =>
        (t.slot h n).pulse.get d = some ((s.dom h d).pulseAt r) ∧ (t.slot h n).dom = (s.slot h n).dom)) ∧
    (∀ r, n = 30 → (s.view h).bitAt (pgRs n) 0x070 4 = true → s.gridOn h = true → (s.slot h n).st ≠ 0 →
      (s.slot h n).skip = false → d ∈ (s.view h).slotDoms n → raw[d.val]? = some r →
      Gives (.slotObservation h n ⟨true, raw⟩) s (fun t =>
        (t.sd h n d).obs = (s.sd h n d).obs ∧
        ((t.sd h n d).clk.head?).map (fun o => o.x) = some (r + (s.view h).sfieldAt (pgRs n) 0x048 31 0))) ∧
    (isPtp n = true → ∀ c, Gives (.slotObservation h n ⟨c, raw⟩) s (fun t => t.halves = s.halves)) ∧
    (s.gridOn h = true → d ∈ s.slotDoms n →
      Gives (.comparisonPeriodStart h d) s (fun t => (t.sd h n d).per = (s.sd h n d).per + 1 ∧
        (t.sd h n d).perAcc = (s.dom h d).acc ∧ (t.sd h n d).perNb = (s.dom h d).nb ∧
        (t.sd h n d).perRate = (s.dom h d).meanRate 65536 ∧ t.half h.peer = s.half h.peer))

/-- 05 R158, R159, R160: what happens to a slot between boundaries waits for its boundary, and changes neither its
state nor another slot. 05 R159, R173; 08 R275: ADOPT makes a DISAGREEING slot QUALIFIED and adopting on every half
that runs, REQUAL takes a DISQUALIFIED slot to QUALIFYING with its latch cleared, and clearing a delay-step term makes
it 0. -/
def Obligations.SlotEventsAndCommandsAct : Prop :=
  (∀ (s : State) (h : Half) (n : SlotNo),
     (s.halfOn h = true → (s.slot h n).st ≠ 0 →
       Gives (.signalLost h n) s (fun t => (t.slot h n).pend.lost = true ∧ (t.slot h n).st = (s.slot h n).st ∧
         ∀ m, m ≠ n → t.slot h m = s.slot h m)) ∧
     (s.gridOn h = true → (s.page (pgRs n)).en = true → (s.slot h n).present = false → s.presenceOk h n = true →
       Gives (.signalPresent h n) s (fun t => (t.slot h n).pend.present = true ∧ (t.slot h n).st = (s.slot h n).st ∧
         ∀ m, m ≠ n → t.slot h m = s.slot h m)) ∧
     (s.gridOn h = true → (s.slot h n).st = 2 →
       Gives (.qualTimeElapsed h n) s (fun t => (t.slot h n).pend.qual = true ∧ (t.slot h n).st = 2 ∧
         ∀ m, m ≠ n → t.slot h m = s.slot h m)) ∧
     (s.gridOn h = true → (s.slot h n).st = 5 →
       Gives (.disqHoldElapsed h n) s (fun t => (t.slot h n).pend.hold = true ∧ (t.slot h n).st = 5 ∧
         ∀ m, m ≠ n → t.slot h m = s.slot h m)) ∧
     (s.gridOn h = true → (s.slot h n).st = 4 →
       Gives (.agreeDwellElapsed h n) s (fun t => (t.slot h n).pend.agree = true ∧ (t.slot h n).st = 4 ∧
         ∀ m, m ≠ n → t.slot h m = s.slot h m))) ∧
  (∀ (s : State) (h : Half) (n : SlotNo) (k : ClNo) (mask : BitVec 4),
     (s.gridOn h = true → (s.slot h n).st = 4 →
       Gives (.adopt n) s (fun t => (t.slot h n).st = 3 ∧ (t.slot h n).adopting = true)) ∧
     (s.gridOn h = true → (s.slot h n).st = 5 →
       Gives (.requal n) s (fun t => (t.slot h n).st = 2 ∧ (t.slot h n).latch = false)) ∧
     (s.halfOn h = true → mask.getLsbD k.val = true →
       Gives (.slPdsClr mask) s (fun t => (t.slot h (clSlot k)).held = 0)) ∧
     (s.halfOn h = true → mask.getLsbD k.val = false →
       Gives (.slPdsClr mask) s (fun t => (t.slot h (clSlot k)).held = (s.slot h (clSlot k)).held)) ∧
     (s.gridOn h = true → 0 < (s.slot h (clSlot k)).held →
       s.fieldAt (pgRs (clSlot k)) 0x05C 23 16 * 1024 ≤ (s.slot h (clSlot k)).heldBeats →
       Gives (.pdsAgreeDwellElapsed h k) s (fun t => (t.slot h (clSlot k)).held = 0 ∧
         ∀ m, m ≠ clSlot k → t.slot h m = s.slot h m)))

/-- 05 R164, R165, R168, R178; 02 R57: under the configuration that its half has in force, a frequency window that may be
evaluated gives its frequency against C; one that leaves its
limit fails a slot that may still fail, with the monitor's cause, at its boundary. -/
def Obligations.MonitorsEvaluateWindows : Prop :=
  ∀ (s : State) (h : Half) (n : SlotNo) (d : Dom), s.gridOn h = true → (s.slot h n).st ≠ 0 →
    (s.view h).taiSet n = true → (s.view h).slotDoms n = [d] →
    ((s.view h).windowReady h n d 1 = true →
      Gives (.freqMonitorEval h n .w1) s (fun t => (t.sd h n d).y1 = (s.view h).freqOver h n d 1 ∧
        ((s.view h).flimAt n 9 0 ≠ 0 → (s.view h).flimAt n 9 0 < absQ ((s.view h).freqOver h n d 1) → (s.slot h n).live = true →
          (s.slot h n).pend.fail = none → (t.slot h n).pend.fail = some 2 ∧ (t.sd h n d).fail1 = true))) ∧
    ((s.view h).windowReady h n d 64 = true →
      Gives (.freqMonitorEval h n .w64) s (fun t => (t.sd h n d).y64 = (s.view h).freqOver h n d 64 ∧
        ((s.view h).flimAt n 19 10 ≠ 0 → (s.view h).flimAt n 19 10 < absQ ((s.view h).freqOver h n d 64) → (s.slot h n).live = true →
          (s.slot h n).pend.fail = none → (t.slot h n).pend.fail = some 3 ∧ (t.sd h n d).fail64 = true))) ∧
    ((s.view h).windowReady h n d 1024 = true →
      Gives (.freqMonitorEval h n .w1024) s (fun t => (t.sd h n d).y1024 = (s.view h).freqOver h n d 1024 ∧
        ((s.view h).flimAt n 29 20 ≠ 0 → (s.view h).flimAt n 29 20 < absQ ((s.view h).freqOver h n d 1024) → (s.slot h n).live = true →
          (s.slot h n).pend.fail = none → (t.slot h n).pend.fail = some 4 ∧ (t.sd h n d).fail1024 = true)))

/-- 05 R176 to R179, R181: a time-of-day message that fails its check or comes late is counted and leaves no fix. In
format 0 a second stands once both sentences give the same label; the first of them waits. A valid second other than a
leap's gives the TAI second of its label under the offset in force; the label 23:59:60 of an announced insert keeps the
offset and the next label brings offset + 1, on the register too where the half shows; a 00:00:00 directly after 23:59:58
of the day before brings offset - 1 of an announced delete. A telemetry line that can be read in time gives status and
uncertainty, and any other changes nothing of the slot. -/
def Obligations.TimeOfDayAndTelemetry : Prop :=
  ∀ (s : State) (h : Half) (k : Fin 2) (m : TodMsg) (line : List Byte) (gapNs : Nat) (z good : Bool) (l : TodLabel)
    (lab : Option TodLabel) (v : State) (x : SlotSt) (fmt : Nat) (late : Bool),
    s.gridOn h = true → v = s.view h → x = s.slot h (todSlot k) → fmt = v.fieldAt (pgRs (todSlot k)) 0x070 1 0 →
    late = (if v.bitAt (pgRs (todSlot k)) 0x070 9 then decide (gapNs < 10000000) else decide (900000000 < gapNs)) →
    (todCarries fmt m = some (z, false, good, lab) → Gives (.todMessage h k ⟨m, gapNs⟩) s (fun t =>
      (t.slot h (todSlot k)).errCnt = x.errCnt + 1 ∧ (t.slot h (todSlot k)).fixValid = false ∧
      (s.shows h = true → t.evtBit (pgRs (todSlot k)) evRsTodErr = true))) ∧
    (todCarries fmt m = some (z, true, good, lab) → late = true → Gives (.todMessage h k ⟨m, gapNs⟩) s (fun t =>
      (t.slot h (todSlot k)).lateCnt = x.lateCnt + 1 ∧ (t.slot h (todSlot k)).fixValid = false)) ∧
    (todCarries 0 m = some (z, true, true, some l) → fmt = 0 → late = false → x.todHalf ≠ some (!z, l) →
      Gives (.todMessage h k ⟨m, gapNs⟩) s (fun t => t.slot h (todSlot k) = { x with
        todHalf := some (z, l), todLabel := if x.todHalf.any (fun q => q.2 != l) then none else x.todLabel })) ∧
    (todCarries fmt m = some (z, true, true, some l) → (fmt = 0 → x.todHalf = some (!z, l)) → late = false →
      v.taiSet (todSlot k) = true →
      (l.sec ≠ 60 → x.leapDue = false → x.leapPend ≠ 2 → Gives (.todMessage h k ⟨m, gapNs⟩) s (fun t =>
        (t.slot h (todSlot k)).fixValid = true ∧
        (t.slot h (todSlot k)).todSec = BitVec.ofNat 32 (labelSec l + x.taiUtc) ∧
        (t.slot h (todSlot k)).taiUtc = x.taiUtc)) ∧
      (leapLabel l = true → x.leapPend = 1 → Gives (.todMessage h k ⟨m, gapNs⟩) s (fun t =>
        (t.slot h (todSlot k)).fixValid = true ∧ (t.slot h (todSlot k)).leapDue = true ∧
        (t.slot h (todSlot k)).leapPend = 1 ∧ (t.slot h (todSlot k)).taiUtc = x.taiUtc)) ∧
      (l.sec ≠ 60 → x.leapDue = true → x.leapPend = 1 → Gives (.todMessage h k ⟨m, gapNs⟩) s (fun t =>
        (t.slot h (todSlot k)).leapPend = 0 ∧ (t.slot h (todSlot k)).taiUtc = (x.taiUtc + 1) % 256 ∧
        (t.slot h (todSlot k)).todSec = BitVec.ofNat 32 (labelSec l + x.taiUtc + 1) ∧
        (s.shows h = true → x.taiUtc < 255 → t.fieldAt (pgRs (todSlot k)) 0x074 7 0 = x.taiUtc + 1))) ∧
      (∀ d, l = ⟨d + 1, 0, 0, 0⟩ → x.todLabel = some ⟨d, 23, 59, 58⟩ → x.leapPend = 2 →
        Gives (.todMessage h k ⟨m, gapNs⟩) s (fun t =>
          (t.slot h (todSlot k)).leapPend = 0 ∧ (t.slot h (todSlot k)).taiUtc = (x.taiUtc + 255) % 256 ∧
          (t.slot h (todSlot k)).todSec = BitVec.ofNat 32 (labelSec l + x.taiUtc - 1)))) ∧
    (∀ c u sec, parseAtom line = some (c, u, sec) → gapNs ≤ 900000000 →
      (v.bitAt (pgRs 30) 0x040 0 = true → sec ≠ none) →
      Gives (.atomTelemetry h line gapNs) s (fun t => (t.slot h 30).atomUnc = u ∧
        (t.slot h 30).atomStatus = (if c = 0x4C then 1 else if c = 0x48 then 2 else 3))) ∧
    (parseAtom line = none ∨ 900000000 < gapNs →
      Gives (.atomTelemetry h line gapNs) s (fun t => t.slot h 30 = s.slot h 30))

/-- 06 R207, R208, R219, R220: a loop update moves the rate word by what the Weir lets through under the half's own
configuration in force, carries the remainder
of its allowance, and moves no other domain; what a dwell, a member change or a selection waits for is noted until the
boundary; FORCE_HOLD takes effect as a condition of the next boundary. -/
def Obligations.LoopsMoveTheRateThroughTheWeir : Prop :=
  ∀ (s : State) (h : Half) (d : Dom) (a : Access) (v : Word),
    (s.gridOn h = true →
      Gives (.loopUpdate h d none) s (fun t =>
        (t.dom h d).rate = (weirPass (s.dom h d).rate ((s.view h).wanted h d) (s.dom h d).centre
          (excUnits ((s.view h).fieldAt (pgTd d) 0x058 16 0)) ((s.view h).weirSlope d (s.dom h d).st) (s.dom h d).carry).1 ∧
        (t.dom h d).carry = (weirPass (s.dom h d).rate ((s.view h).wanted h d) (s.dom h d).centre
          (excUnits ((s.view h).fieldAt (pgTd d) 0x058 16 0)) ((s.view h).weirSlope d (s.dom h d).st) (s.dom h d).carry).2.1 ∧
        (t.dom h d).t = (s.dom h d).t ∧ (t.dom h d).st = (s.dom h d).st ∧ (∀ e, e ≠ d → t.dom h e = s.dom h e) ∧
        t.half h.peer = s.half h.peer)) ∧
    (s.gridOn h = true →
      Gives (.dwellExpiry h d) s (fun t => (t.dom h d).dwellDone = true ∧ (t.dom h d).coat = (s.dom h d).coat ∧
        (∀ e, e ≠ d → t.dom h e = s.dom h e) ∧ t.half h.peer = s.half h.peer)) ∧
    (s.gridOn h = true → (s.dom h d).better ≠ none →
      Gives (.selHoldElapsed h d) s (fun t => (t.dom h d).selDone = true ∧ (t.dom h d).sel = (s.dom h d).sel ∧
        (∀ e, e ≠ d → t.dom h e = s.dom h e) ∧ t.half h.peer = s.half h.peer)) ∧
    (s.gridOn h = true →
      Gives (.weightUpdate h d) s (fun t => (t.dom h d).members = (s.view h).membersNow h d ∧ (t.dom h d).ramp = 0 ∧
        (∀ e, e ≠ d → t.dom h e = s.dom h e) ∧ t.half h.peer = s.half h.peer)) ∧
    (Allowed a (pgTd d) 0x064 v s →
      Gives (.forceHold a d v) s (fun t => t.bitAt (pgTd d) 0x064 0 = bit v 0 ∧ t.halves = s.halves)) ∧
    ((s.modesBeat h d).dom h d).forced = s.bitAt (pgTd d) 0x064 0

/-- 07 R233, R234, R241: at each second of a domain an entry joins its history as the latest, with no more than 3,600
kept, the flags of the second start afresh, and each sensor that is not
lost takes its reading; a sensor that is lost sets SENSOR_LOST once, and one that gives readings again is no longer lost. -/
def Obligations.CisternRecordsHistory : Prop :=
  ∀ (s : State) (h : Half) (d : Dom) (k : Fin 13) (own : Vector Int 7) (common : Vector Int 6),
    (s.gridOn h = true →
      Gives (.cisternSecond h d own common) s (fun t =>
        (∃ e, (t.dom h d).hist = (e :: (s.dom h d).hist).take 3600 ∧ e.efc = (s.half h).efcCode ∧
          e.standby = ((s.half h).lath.src == 2) ∧
          e.clean = ((s.dom h d).secClean && !(s.dom h d).stepSec && !(s.dom h d).weirSec) ∧
          (t.dom h d).cleanRun = (if e.clean then satN 16 ((s.dom h d).cleanRun + 1) else 0)) ∧
        (t.dom h d).secClean = true ∧ (t.dom h d).stepSec = false ∧ (t.dom h d).weirSec = false ∧
        ((t.half h).temps.get k).temp = (if ((s.half h).temps.get k).lost then ((s.half h).temps.get k).temp
          else ((own.toList ++ common.toList)[k.val]?).getD ((s.half h).temps.get k).temp) ∧
        (t.dom h d).rate = (s.dom h d).rate ∧ (∀ e, e ≠ d → t.dom h e = s.dom h e) ∧ t.half h.peer = s.half h.peer)) ∧
    (s.halfOn h = true → ((s.half h).temps.get k).lost = false →
      Gives (.sensorLost h k) s (fun t => ((t.half h).temps.get k).lost = true ∧
        ((t.half h).temps.get k).temp = ((s.half h).temps.get k).temp ∧ t.evtBit pgCis (evSensorLost h) = true ∧
        t.half h.peer = s.half h.peer)) ∧
    (s.halfOn h = true → ((s.half h).temps.get k).lost = true →
      Gives (.sensorPresent h k) s (fun t => ((t.half h).temps.get k).lost = false ∧ t.half h.peer = s.half h.peer))

/-- 07 R245 to R247: the completed models that wait are installed in their order, with MODEL_INST, each with its
generation counted on and its LEARNED bit as made, and no other model changes; persisting makes the store hold what is in
force. 07 R251: a learning pass of a half that runs, with learning enabled, counts: without 1,008 clean entries it is
rejected with code 2 and makes no model; else either it is rejected with code 4 and makes none, or the model it has
learned waits last to be installed, with code 1, or with 3 where it changed no temperature term; every code but 1 sets
LEARN_REJECT, and no pass changes the models in force. 07 R253: at each 65,536th beat of its domain in LOCKED, a steered
EFC's new target is its code moved by the mean rate, the share of FRAC and the gain, clipped to the code's range, and a
target that is clipped sets EFC_LIMIT; the code itself moves later. -/
def Obligations.ModelsAreLearnedInstalledAndKept : Prop :=
  ∀ (s : State) (h : Half) (o : Osc) (w : Model) (learned : Bool),
    Gives (.modelInst h o) s (fun t =>
      (t.models.get (tabIx h o)).words = (s.models.get (tabIx h o)).pend.foldl (fun m e => installWords m e.1 e.2)
        (s.models.get (tabIx h o)).words ∧
      (t.models.get (tabIx h o)).pend = [] ∧ (t.models.get (tabIx h o)).stored = (s.models.get (tabIx h o)).stored ∧
      ((s.models.get (tabIx h o)).pend ≠ [] → t.evtBit pgCis evModelInst = true) ∧
      ∀ i, i ≠ tabIx h o → t.models.get i = s.models.get i) ∧
    bits ((installWords (s.models.get (tabIx h o)).words w learned).get 15) 15 0 =
      (bits ((s.models.get (tabIx h o)).words.get 15) 15 0 + 1) % 65536 ∧
    bit ((installWords (s.models.get (tabIx h o)).words w learned).get 15) 31 = learned ∧
    Gives (.modelPersist h o) s (fun t =>
      (t.models.get (tabIx h o)).stored = (s.models.get (tabIx h o)).words ∧
      (t.models.get (tabIx h o)).words = (s.models.get (tabIx h o)).words ∧
      ∀ i, i ≠ tabIx h o → t.models.get i = s.models.get i) ∧
    (s.halfOn h = true → s.bitAt pgCis 0x044 16 = true →
      Gives (.learningPass h o) s (fun t => (t.half h).learnCnt = (s.half h).learnCnt + 1 ∧
        (t.models.get (tabIx h o)).words = (s.models.get (tabIx h o)).words ∧
        ((((s.half h).doms.getD (s.fieldAt pgCis 0x044 13 12) {}).hist64.filter (·.clean)).length < 1008 →
          (t.half h).learnRes = 2 ∧ t.models = s.models ∧ t.evtBit pgCis evLearnReject = true) ∧
        (1008 ≤ (((s.half h).doms.getD (s.fieldAt pgCis 0x044 13 12) {}).hist64.filter (·.clean)).length →
          ((t.half h).learnRes = 4 ∧ t.models = s.models ∧ t.evtBit pgCis evLearnReject = true) ∨
          (∃ m, (t.models.get (tabIx h o)).pend = (s.models.get (tabIx h o)).pend ++ [(m, true)] ∧
            ((t.half h).learnRes = 1 ∨ (t.half h).learnRes = 3 ∧ t.evtBit pgCis evLearnReject = true))) ∧
        (∀ i, i ≠ tabIx h o → t.models.get i = s.models.get i) ∧ t.half h.peer = s.half h.peer)) ∧
    (s.halfOn h = false ∨ s.bitAt pgCis 0x044 16 = false → Gives (.learningPass h o) s (fun t => t = s)) ∧
    (s.gridOn h = true → s.efcCfg h 1 0 = 2 → s.efcGain h ≠ 0 → (s.dom h (s.efcDom h)).st = 2 → s.efcFree h = true →
      ((s.dom h (s.efcDom h)).t / beatT) % 65536 = 0 →
      ∀ tgt : Int, tgt = ((s.half h).efcCode : Int) + nearQ (rateQ ((s.dom h (s.efcDom h)).meanRate 65536) /
          ((2 ^ s.efcCfg h 10 8 : Nat) : Rat) / ((s.efcGain h : Rat) * tenth 18)) →
      Gives (.efcTarget h) s (fun t =>
        (t.half h).efcTarget = some (if tgt < 0 then 0 else if 0xFFFFFF < tgt then 0xFFFFFF else tgt.toNat) ∧
        (t.half h).efcLimit = (decide (tgt < 0) || decide (0xFFFFFF < tgt)) ∧
        ((t.half h).efcLimit = true → t.evtBit pgCis (evEfcLimit h) = true) ∧
        (t.half h).efcCode = (s.half h).efcCode ∧ t.half h.peer = s.half h.peer ∧ t.models = s.models)) ∧
    (s.gridOn h = false ∨ s.efcCfg h 1 0 ≠ 2 ∨ (s.dom h (s.efcDom h)).st ≠ 2 →
      Gives (.efcTarget h) s (fun t => t = s))

/-- 10 R333 to R337, R339, R343: an edge that an armed, unfenced input selects is stored with the issued time,
numbered one on, while the FIFO holds fewer than 64; one more is dropped and counted; an edge within the dead time of
10 ns is missed, and an unselected or unarmed one changes nothing. An alarm whose target the bus has reached
completes. -/
def Obligations.EdgesAreCapturedAndAlarmsFire : Prop :=
  ∀ (s : State) (c : CapNo) (rising : Bool) (sub sinceNs : Nat) (t : Tag) (o : Op),
    ((s.cap c).mode = 2 → (s.unit (pgCap c) 0).fenced = false →
      (s.cap c).selects (rising != s.bitAt (pgCap c) 0x040 0) = true →
      (((s.cap c).edged = true → 10 ≤ sinceNs) →
        ((s.cap c).fifo.length < 64 →
          Gives (.captureEdge c rising sub sinceNs) s (fun u =>
            ∃ e, (u.cap c).fifo = (s.cap c).fifo ++ [e] ∧ e.seq = (s.cap c).seq + 1 ∧ e.dom = (s.cap c).dom ∧
              e.rising = (rising != s.bitAt (pgCap c) 0x040 0) ∧
              e.t = (s.issue (s.cap c).dom ((sub : Int) - s.sfieldAt (pgCap c) 0x044 31 0)).1 ∧
              (u.cap c).seq = (s.cap c).seq + 1 ∧ ∀ k, k ≠ c → u.cap k = s.cap k)) ∧
        (64 ≤ (s.cap c).fifo.length →
          Gives (.captureEdge c rising sub sinceNs) s (fun u =>
            (u.cap c).fifo = (s.cap c).fifo ∧ (u.cap c).ovf = true ∧ (u.cap c).lost = (s.cap c).lost + 1 ∧
            u.evtBit (pgCap c) evCapOvf = true))) ∧
      ((s.cap c).edged = true → sinceNs < 10 →
        Gives (.captureEdge c rising sub sinceNs) s (fun u =>
          (u.cap c).fifo = (s.cap c).fifo ∧ (u.cap c).missed = (s.cap c).missed + 1 ∧ (u.cap c).seq = (s.cap c).seq ∧
          u.evtBit (pgCap c) evMissed = true))) ∧
    ((s.cap c).mode = 0 ∨ (s.unit (pgCap c) 0).fenced = true ∨
        (s.cap c).selects (rising != s.bitAt (pgCap c) 0x040 0) = false →
      Gives (.captureEdge c rising sub sinceNs) s (fun u => u = s)) ∧
    (s.op? t = some o → o.opcode = 0x12 → o.phase = .waiting → s.busHalf.isSome = true →
      (reached s o = true →
        Gives (.alarmFire t) s (fun u => u = fireAlarm t o false s ∧ (u.op? t).map (·.phase) = some (.done stOk))) ∧
      (reached s o = false → Gives (.alarmFire t) s (fun u => u = s)))

/-- 11 R352: a jet that may start, and does not wait for its domain's step, waits for the first whole second at least
one beat away, at its squelch level, and runs when that second is reached; with START AT_STEP it waits for the step. 11
R351, R357, R359: a rising edge of the stream that is due drives a running jet's output high, unless it ends a phase
shorter than the guard, and names the falling edge that follows; a falling edge that is due drives it low, and carries out
a pending stop or squelch; an edge that is not due changes nothing; an unsquelch takes effect at a rising edge. 11 R358,
R360: a restart, and a kill of value 1, of a running jet wait for its falling edge; a kill of value 2 or 3 acts at once;
taking a kill back starts the jet. 11 R361: the end of a ramp sets its event and shows the offset against the new
frequency's edges. 11 R292, R362: a switch goes to the half the jet is to follow and counts. -/
def Obligations.JetsStartAndDrive : Prop :=
  (∀ (s : State) (j : JetNo),
     ((s.jet j).phase = .off → s.jetReady j = true →
       (s.bitAt (pgJet j) 0x040 12 = false ∨ s.busStepped (s.jetDom j) = true) →
       Gives (.jetStart j) s (fun t =>
         (t.jet j).phase = .wait ∧ (t.jet j).o = ((ceilSec (s.busTime (s.jetDom j) + beatT) : Nat) : Rat) ∧
         ceilSec (s.busTime (s.jetDom j) + beatT) % secondT = 0 ∧ (t.jet j).aligned = false ∧
         (t.jet j).level = (if (s.jet j).driverBad then .hiz else s.sqlLevel j) ∧
         (t.jet j).half = s.jetWant j ∧ (∀ k, k ≠ j → t.jet k = s.jet k))) ∧
     ((s.jet j).phase = .off → s.jetReady j = true → s.bitAt (pgJet j) 0x040 12 = true → s.busStepped (s.jetDom j) = false →
       Gives (.jetStart j) s (fun t => (t.jet j).phase = .forStep ∧ (∀ k, k ≠ j → t.jet k = s.jet k))) ∧
     ((s.jet j).phase = .wait → (s.jet j).o ≤ s.jetTime j 1250 →
       Gives (.started j) s (fun t => (t.jet j).phase = .run ∧ (t.jet j).aligned = true ∧ (t.jet j).align = 0 ∧
         (t.jet j).sq = (s.jet j).sqWant ∧ t.evtBit (pgJet j) evStarted = true ∧ (∀ k, k ≠ j → t.jet k = s.jet k))) ∧
     ((s.jet j).phase ≠ .wait ∨ s.jetTime j 1250 < (s.jet j).o → Gives (.started j) s (fun t => t = s))) ∧
  (∀ (s : State) (j : JetNo) (sub : Nat) (k : Int) (e : Rat) (long : Bool),
     (long = true ↔ ∀ l, (s.jet j).lastAt = some l → psUnits (s.jetGuard j) ≤ e - l) → (s.jet j).driverBad = false →
     (s.jetStream j = true → s.riseDue j (s.jetTime j (sub : Rat)) = some (k, e) →
       (s.page (pgJet j)).captured = none → (s.page (pgJet j)).shadow = [] →
       ((s.jet j).sq = false →
         ((s.jet j).level ≠ .high → long = true → Gives (.jetPeriodEdge j sub) s (fun t =>
           (t.jet j).level = .high ∧ (t.jet j).lastAt = some e ∧ (t.jet j).next = k + 1 ∧
           (t.jet j).fallAt = some (s.jetFall j k e) ∧ (t.jet j).phase = .run)) ∧
         ((s.jet j).level = .high ∨ long = false → Gives (.jetPeriodEdge j sub) s (fun t =>
           (t.jet j).level = (s.jet j).level ∧ (t.jet j).lastAt = (s.jet j).lastAt ∧ (t.jet j).next = k + 1 ∧ t.pages = s.pages))) ∧
       ((s.jet j).sq = true →
         ((s.jet j).sqWant = true → Gives (.jetPeriodEdge j sub) s (fun t => (t.jet j).sq = true ∧
           (t.jet j).level = s.sqlLevel j ∧ (t.jet j).next = k + 1)) ∧
         ((s.jet j).sqWant = false → Gives (.jetPeriodEdge j sub) s (fun t => (t.jet j).sq = false ∧
           t.evtBit (pgJet j) evUnsquelch = true ∧ (t.jet j).next = k + 1)))) ∧
     (s.jetStream j = false ∨ s.riseDue j (s.jetTime j (sub : Rat)) = none →
       Gives (.jetPeriodEdge j sub) s (fun t => t = s)) ∧
     (s.jetStream j = true → (s.jet j).fallAt = some e → e ≤ s.jetTime j 1250 →
       ((s.jet j).sq = false → (s.jet j).level = .high → long = false → Gives (.jetFallingEdge j) s (fun t =>
         (t.jet j).level = .high ∧ (t.jet j).fallAt = none ∧ (t.jet j).stop = (s.jet j).stop ∧ t.pages = s.pages)) ∧
       ((s.jet j).sq = true ∨ (s.jet j).level ≠ .high ∨ long = true →
         ((s.jet j).stop = false → (s.jet j).sq = false → (s.jet j).sqWant = true → Gives (.jetFallingEdge j) s (fun t =>
           (t.jet j).sq = true ∧ (t.jet j).level = s.sqlLevel j ∧ t.evtBit (pgJet j) evSquelch = true)) ∧
         ((s.jet j).stop = false → (s.jet j).sq = false → (s.jet j).sqWant = false → (s.jet j).level = .high →
           Gives (.jetFallingEdge j) s (fun t => (t.jet j).level = .low ∧ (t.jet j).lastAt = some e ∧
             (t.jet j).fallAt = none ∧ (t.jet j).phase = .run ∧ t.pages = s.pages)) ∧
         ((s.jet j).stop = true → (s.jet j).again = false → Gives (.jetFallingEdge j) s (fun t =>
           (t.jet j).level = s.restLevel j ∧ (t.jet j).phase = .off)))) ∧
     (s.jetStream j = false ∨ (s.jet j).fallAt = none ∨ (∀ f, (s.jet j).fallAt = some f → s.jetTime j 1250 < f) →
       Gives (.jetFallingEdge j) s (fun t => t = s))) ∧
  (∀ (s : State) (j : JetNo) (sub : Nat) (a : Access) (r : JetRamp) (u : State),
     ((s.jet j).phase = .run → Gives (.jetRestart j) s (fun t =>
       (t.jet j).phase = .run ∧ (t.jet j).stop = true ∧ (t.jet j).again = true ∧ (t.jet j).level = (s.jet j).level)) ∧
     ((s.jet j).ramp = some r →
       (s.jetStream j = true → r.t0 + r.span * (secondT : Rat) ≤ s.jetTime j (sub : Rat) →
         Gives (.rampDone j sub) s (fun t => (t.jet j).ramp = none ∧ (t.jet j).align = s.jetOffset j (t.jet j).o ∧
           t.evtBit (pgJet j) evRampDone = true)) ∧
       (s.jetStream j = false ∨ s.jetTime j (sub : Rat) < r.t0 + r.span * (secondT : Rat) →
         Gives (.rampDone j sub) s (fun t => t = s))) ∧
     (Allowed a (pgJet j) 0x064 0 s → s.jetKillVal j ≠ 0 → (s.jet j).phase = .off → u = s.setReg (pgJet j) 0x064 0 →
       Gives (.jetKill a j 0) s (fun t => t = startJet j u ∧ t.jetKillVal j = 0)) ∧
     (Allowed a (pgJet j) 0x064 1 s → (s.jet j).phase = .run →
       Gives (.jetKill a j 1) s (fun t => (t.jet j).phase = .run ∧ (t.jet j).stop = true ∧ (t.jet j).again = false ∧
         (t.jet j).level = (s.jet j).level ∧ t.jetKillVal j = 1)) ∧
     (Allowed a (pgJet j) 0x064 2 s → (s.jet j).driverBad = false →
       Gives (.jetKill a j 2) s (fun t => (t.jet j).level = .low ∧ (t.jet j).phase = .off ∧ t.jetKillVal j = 2)) ∧
     (Allowed a (pgJet j) 0x064 3 s →
       Gives (.jetKill a j 3) s (fun t => (t.jet j).level = .hiz ∧ (t.jet j).phase = .off ∧ t.jetKillVal j = 3)) ∧
     (∀ h k holdPs devLast devNext, (s.jet j).half = some h → s.jetWant j = some k → h ≠ k →
       Gives (.jetSwitch j holdPs sub devLast devNext) s (fun t => (t.jet j).half = some k ∧
         (t.jet j).swCnt = (s.jet j).swCnt + 1 ∧ (t.jet j).hold = BitVec.ofNat 16 (satN 16 holdPs) ∧
         t.evtBit (pgJet j) evJetSwitch = true ∧ (∀ i, i ≠ j → t.jet i = s.jet i))))

/-- 12 R375, R378, R379, R381, R395, R429: a frame of any kind refreshes PARTNER_OK; one that is too short, too long or
fails its check is counted and dropped; MAC control, ESMC and the engines' frames are consumed, and never reach the host;
one for the host takes the next posted entry, is written to that entry's buffer as far as it has room, and sets RX_AVAIL;
with no entry posted it is dropped with RX_NOBUF; one that the address filter does not pass, or with host reception off,
is dropped alone. -/
def Obligations.ReceivedFramesAreSorted : Prop :=
  ∀ (s u : State) (p : PortNo) (a : PathAB) (f : RxFrame) (g : Parsed) (buf : Option RingEntry),
    s.pathUp p a = true → (s.path p a).link = true → g = parseFrame f.bytes →
    u = ((s.rxLane p a f).modPath p a (fun y => { y with partner := true })).settlePath p a →
    (f.fcsOk = false ∨ f.bytes.length + 4 < 64 ∨ (if s.bitAt (pgLp p) 0x040 16 then 9216 else 1522) < f.bytes.length + 4 →
      Gives (.frameReceived p a f buf) s (fun t => (t.path p a).partner = true ∧ t = u.count (cntPort p 6) 1)) ∧
    (f.fcsOk = true → 64 ≤ f.bytes.length + 4 →
      f.bytes.length + 4 ≤ (if s.bitAt (pgLp p) 0x040 16 then 9216 else 1522) →
      (g.kind = .macControl ∨ g.kind = .esmc → Gives (.frameReceived p a f buf) s (fun t =>
        (t.path p a).partner = true ∧ t.outs = s.outs ∧ (t.port p).hrxHead = (s.port p).hrxHead)) ∧
      (∀ m, g.kind = .ptp m → u.ptpConsumes p (octAt m 0 % 16) (ptpHead g.vlan m) = true →
        Gives (.frameReceived p a f buf) s (fun t => (t.path p a).partner = true ∧ (t.port p).hrxHead = (s.port p).hrxHead)) ∧
      (∀ mode is6 dst, g.kind = .ntp mode is6 dst → u.fnConsumes p a = true → u.fnAddressed p g.vlan is6 dst mode = true →
        Gives (.frameReceived p a f buf) s (fun t =>
          (t.path p a).partner = true ∧ t.outs = s.outs ∧ (t.port p).hrxHead = (s.port p).hrxHead)) ∧
      (g.kind = .other ∨
          (∃ m, g.kind = .ptp m ∧ u.ptpConsumes p (octAt m 0 % 16) (ptpHead g.vlan m) = false) ∨
          (∃ mode is6 dst, g.kind = .ntp mode is6 dst ∧ (u.fnConsumes p a && u.fnAddressed p g.vlan is6 dst mode) = false) →
        (s.macPasses p g.dst = false ∨ s.bitAt (pgLp p) 0x068 8 = false → Gives (.frameReceived p a f buf) s (fun t =>
          (t.path p a).partner = true ∧ t.outs = s.outs ∧ (t.port p).hrxHead = (s.port p).hrxHead)) ∧
        (∀ h e, s.macPasses p g.dst = true → s.bitAt (pgLp p) 0x068 8 = true → s.ownerOf (pgLp p) = some h → buf = some e →
          (s.port p).hrxHead % s.ringDepth p ≠ s.fieldAt (pgLp p) 0x06C 11 0 % s.ringDepth p →
          Gives (.frameReceived p a f buf) s (fun t => (t.path p a).partner = true ∧
            (t.port p).hrxHead = ((s.port p).hrxHead % s.ringDepth p + 1) % s.ringDepth p ∧
            .hostMem h e.addr (f.bytes.take e.len) ∈ t.outs ∧ t.evtBit (pgLp p) evRxAvail = true)) ∧
        (s.macPasses p g.dst = true → s.bitAt (pgLp p) 0x068 8 = true →
          (s.port p).hrxHead % s.ringDepth p = s.fieldAt (pgLp p) 0x06C 11 0 % s.ringDepth p →
          Gives (.frameReceived p a f buf) s (fun t => (t.path p a).partner = true ∧ t.outs = s.outs ∧
            (t.port p).hrxHead = (s.port p).hrxHead ∧ t.evtBit (pgLp p) evRxNobuf = true))))

/-- 10 R321, R327 to R329; 12 R376, R377, R381: a host frame leaves on its path while its link is up and no frame of a
class before it waits there, taken from the queue, with its one-step timestamp laid in; its timestamp goes to the TX
timestamp queue under QUEUE, and its operation completes; one discarded before egress, or due on a path whose TS_OK is 0,
leaves an entry with NOSEND, or completes its operation with the discard told. -/
def Obligations.HostFramesLeave : Prop :=
  ∀ (s : State) (p : PortNo) (a : PathAB) (i sub fec : Nat) (f : HostFrame) (waits up : Bool),
    (s.port p).hosts[i]? = some f → a = s.sendPath p f.path → waits = (s.class0Waits p a || s.class1Waits p a) →
    up = (s.pathUp p a && (s.path p a).link && !s.schedBusy p a) →
    (waits = true → Gives (.frameTransmitted p a (.host i) sub fec false) s (fun t => t = s)) ∧
    (waits = false → up = true → f.dest = 0 ∨ s.tsOk p a = true →
      Gives (.frameTransmitted p a (.host i) sub fec false) s (fun t =>
        (t.port p).hosts = (s.port p).hosts.eraseIdx i ∧
        .frame p a (.host (f.leaving (s.egress p a f.dom sub fec).1) (f.oneAt.map (fun _ => (s.egress p a f.dom sub fec).1)))
          ∈ t.outs)) ∧
    (f.dest = 2 → (s.port p).txq.length < 32 →
      (waits = false → up = true → s.tsOk p a = true →
        Gives (.frameTransmitted p a (.host i) sub fec false) s (fun t =>
          ∃ e, (t.port p).txq = (s.port p).txq ++ [e] ∧ e.noSend = false ∧ e.id = f.id ∧ e.dom = f.dom ∧
            e.t = (s.egress p a f.dom sub fec).1 ∧ e.bound = (s.egress p a f.dom sub fec).2.1)) ∧
      (∀ lost, lost = true ∨ (waits = false ∧ s.tsOk p a = false) →
        Gives (.frameTransmitted p a (.host i) sub fec lost) s (fun t =>
          (t.port p).hosts = (s.port p).hosts.eraseIdx i ∧
          ∃ e, (t.port p).txq = (s.port p).txq ++ [e] ∧ e.noSend = true ∧ e.id = f.id ∧ e.t = 0))) ∧
    (∀ tag o, f.dest = 1 → f.tag = some tag → s.op? tag = some o → o.phase = .running →
      (waits = false → up = true → s.tsOk p a = true →
        Gives (.frameTransmitted p a (.host i) sub fec false) s (fun t => (t.port p).txq = (s.port p).txq ∧
          ∃ u, t.op? tag = some u ∧ u.phase = .done stOk ∧ u.result = timeResult (s.egress p a f.dom sub fec).1
            (s.busState f.dom) (s.egress p a f.dom sub fec).2.1 f.dom s.followHalf 0)) ∧
      (∀ lost, lost = true ∨ (waits = false ∧ s.tsOk p a = false) →
        Gives (.frameTransmitted p a (.host i) sub fec lost) s (fun t =>
          (t.port p).hosts = (s.port p).hosts.eraseIdx i ∧ (t.port p).txq = (s.port p).txq ∧
          ∃ u, t.op? tag = some u ∧ u.phase = .done stOk ∧ u.result = noResult.set 5 (flagAt true 10))))

/-- 12 R374, R381, R382, R391: a link that goes down or comes up is told on the port, and one that is up changes
nothing when it is declared up again; health bits that have risen are published when HOLDOFF has elapsed; a path with
no frame for PARTNER_TO loses PARTNER_OK at once; the arbiter takes the path of the higher claim and counts the
switch. -/
def Obligations.PathsFollowTheirHealth : Prop :=
  ∀ (s : State) (p : PortNo) (a : PathAB),
    ((s.path p a).link = true →
      Gives (.linkDown p a) s (fun t => (t.path p a).link = false ∧ (t.path p a).pub.get 0 = false ∧
        t.evtBit (pgLp p) (evLpLinkDown a) = true)) ∧
    (s.pathUp p a = true → (s.path p a).link = false →
      Gives (.portLinkUp p a) s (fun t => (t.path p a).link = true ∧ t.evtBit (pgLp p) (evLpLinkUp a) = true)) ∧
    (s.pathUp p a = true → (s.path p a).link = true → Gives (.portLinkUp p a) s (fun t => t = s)) ∧
    (∀ r l, (s.path p a).rising = r :: l →
      Gives (.pathHoldoffElapsed p a) s (fun t =>
        (∀ q ∈ r :: l, q.2 = r.2 → (t.path p a).pub.get q.1 = true) ∧ (∀ q ∈ (t.path p a).rising, q.2 ≠ r.2))) ∧
    Gives (.partnerTimeout p a) s (fun t => (t.path p a).partner = false ∧ (t.path p a).pub.get 2 = false) ∧
    (∀ x y, s.pathClaim p .A = some x → s.pathClaim p .B = some y →
      (y < x → Gives (.pathSwitch p) s (fun t => (t.port p).onB = false ∧
        (t.port p).swCnt = (s.port p).swCnt + (if (s.port p).onB then 1 else 0))) ∧
      (x < y → Gives (.pathSwitch p) s (fun t => (t.port p).onB = true ∧
        (t.port p).swCnt = (s.port p).swCnt + (if (s.port p).onB then 0 else 1)))) ∧
    Gives (.packetBoundary p) s (fun t => (t.ptpPort p).serving = t.mayServe p)

/-- 12 R378, R385 to R389: a valid ESMC PDU gives the path its QL and its enhanced SSM TLV, and one worse than the
minimum loses the lane's slot; with none for 5 s the path has no valid QL and loses the slot; an information PDU leaves
with the QL of R388, at most 10 of all PDUs in a second on a path, and an event PDU where one is due; the receive ring's
tail is the host's; a bandwidth window closes with its counts shown and new ones at 0; high BER is told once. -/
def Obligations.SynceMessagesAndWindows : Prop :=
  ∀ (s : State) (p : PortNo) (a : PathAB) (pdu : EsmcPdu) (n : LaneNo) (acc : Access) (v : Word) (sub fec : Nat) (gone : Bool),
    (s.pathUp p a = true → (s.path p a).link = true → s.bitAt (pgLp p) 0x058 1 = true →
      Gives (.esmcPdu p a pdu true) s (fun t => (t.path p a).esmcValid = true ∧ (t.path p a).ql = pdu.ql ∧
        (t.path p a).enhanced = pdu.enhanced ∧
        (qlRank (s.bitAt (pgLp p) 0x058 8) pdu.ql.toNat < qlRank (s.bitAt (pgLp p) 0x058 8) (s.fieldAt (pgLp p) 0x058 7 4) →
          ∀ h, s.halfOn h = true → (s.slot h (laneSlot (s.refLane p a))).st ≠ 0 →
            (t.slot h (laneSlot (s.refLane p a))).pend.lost = true)) ∧
      Gives (.esmcTo p a) s (fun t => (t.path p a).esmcValid = false ∧ t.evtBit (pgLp p) evEsmcTo = true ∧
        ∀ h, s.halfOn h = true → (s.slot h (laneSlot (s.refLane p a))).st ≠ 0 →
          (t.slot h (laneSlot (s.refLane p a))).pend.lost = true)) ∧
    (s.pathUp p a = false ∨ s.bitAt (pgLp p) 0x058 1 = false →
      Gives (.esmcPdu p a pdu true) s (fun t => t = s) ∧ Gives (.esmcTo p a) s (fun t => t = s)) ∧
    Gives (.esmcPdu p a pdu false) s (fun t => t = s) ∧
    (s.pathUp p a = true → (s.path p a).link = true → s.bitAt (pgLp p) 0x058 2 = true → s.schedBusy p a = false →
      (s.esmcLately p a).length < 10 →
      Gives (.esmcInfoSend p a) s (fun t => (t.path p a).esmcAt = s.now :: s.esmcLately p a ∧
        t.outs = s.outs ++ [.frame p a (.esmc (s.qlOf p a) false (esmcFrame (s.lpMac p) false (s.qlOf p a)))]) ∧
      ((s.path p a).eventDue = true → Gives (.frameTransmitted p a .esmc sub fec gone) s (fun t =>
        (t.path p a).eventDue = false ∧
        t.outs = s.outs ++ [.frame p a (.esmc (s.qlOf p a) true (esmcFrame (s.lpMac p) true (s.qlOf p a)))]))) ∧
    (10 ≤ (s.esmcLately p a).length → Gives (.esmcInfoSend p a) s (fun t => t = s)) ∧
    (Allowed acc (pgLp p) 0x06C v s →
      Gives (.hrxTail acc p v) s (fun t => t.fieldAt (pgLp p) 0x06C 11 0 = bits v 11 0 ∧ t.ports = s.ports)) ∧
    Gives (.bwWindow p) s (fun t => (t.port p).read = (s.port p).win ∧ (t.port p).win = Vector.replicate 4 0 ∧
      (t.port p).bwSeq = (s.port p).bwSeq + 1 ∧ t.evtBit (pgLp p) evBwWindow = true) ∧
    ((s.lane n).hiBer = false →
      Gives (.hiBer n) s (fun t => (t.lane n).hiBer = true ∧ t.evtBit (pgLane n) evHiBer = true)) ∧
    ((s.lane n).hiBer = true → Gives (.hiBer n) s (fun t => t = s))

/-- 13 R393, R399, R400: a Follow_Up is built for the oldest Sync of a two-step port; a Delay_Req that may be answered
gets one Delay_Resp with its sequenceId and its correction less that of the ingress timestamp; past the port's limit
it is refused and counted; one whose head the port does not take, by version, domain or VLAN, changes nothing; an
Announce from another clock is told. -/
def Obligations.MastersAnswer : Prop :=
  ∀ (s : State) (p : PortNo) (a : PathAB) (m : DelayReq) (f : PtpMsg) (r : List PtpMsg),
    ((s.port p).follow = f :: r → f.sa = none →
      Gives (.followUpBuild p) s (fun t => (t.port p).follow = r ∧ (t.port p).msgs = (s.port p).msgs ++ [f])) ∧
    (s.pathUp p a = true → (s.path p a).link = true → s.mpTakes p m.head = true → s.mpProf p ≠ 4 → s.mpAuth p = 0 →
      m.unicast = false → (s.ptpPort p).serving = true →
      (s.ptpPort p).dreqAt = secOf (s.busTime (s.mpDom p)) →
      ((s.ptpPort p).dreqSec < s.pf p pgPtp (mpBase p + 0x1C) 31 16 →
        Gives (.delayReqReceived p a m) s (fun t =>
          (∃ x, (t.port p).msgs = (s.port p).msgs ++ [x] ∧ x.kind = .delayResp ∧ x.seq = m.seqId ∧
            x.dest = some m.client ∧ x.unicast = false ∧ x.domNum = m.head.domainNum ∧
            x.t = (s.ingress p a (s.mpDom p) m.pt).1 ∧ x.corr = m.correction - corrOf x.t) ∧
          (t.ptpPort p).dreqSec = (s.ptpPort p).dreqSec + 1)) ∧
      (s.pf p pgPtp (mpBase p + 0x1C) 31 16 ≤ (s.ptpPort p).dreqSec →
        Gives (.delayReqReceived p a m) s (fun t => (t.port p).msgs = (s.port p).msgs ∧
          (t.ptpPort p).dreqLimit = (s.ptpPort p).dreqLimit + 1 ∧ t.evtBit pgPtp evDreqLimit = true))) ∧
    (s.mpTakes p m.head = false → Gives (.delayReqReceived p a m) s (fun t => t = s)) ∧
    (s.portUp p = true → s.mpProf p ≠ 0 → s.pwr.state ≠ .sealed →
      Gives (.foreignAnn p) s (fun t => (t.ptpPort p).foreign = (s.ptpPort p).foreign + 1 ∧
        (t.ptpPort p).foreignAt = some s.now ∧ t.evtBit pgPtp evForeignAnn = true ∧ t.ports = s.ports))

/-- 13 R409 to R412: a request that keeps within the limits makes a session with that grant, its duration cut to the
longest allowed, and is answered; one outside them is denied with a duration of 0; a CANCEL ends the grant and a
session without grants is freed; at each second of its domain a grant's remaining time falls by one, and at its end
the grant goes; a host's cancel sends CANCEL for each grant and frees the entry. -/
def Obligations.GrantsAreGivenAndEnd : Prop :=
  ∀ (s : State) (p : PortNo) (u : UniMsg) (c : UniClient) (g : GrantType) (log : Int) (dur i : Nat) (x : PtpSess) (d : Dom),
    c = u.client →
    (s.negotiates p u = false → Gives (.unicastRequest p u g log dur) s (fun t => t = s) ∧
      Gives (.unicastCancel p u g) s (fun t => t = s)) ∧
    (s.negotiates p u = true → s.mpAuth p = 0 → s.sessOf p c = none →
      ((s.ptpPort p).serving = true → s.minLog p g ≤ log → log ≤ s.psf p pgPtp 0x06C 15 12 →
        s.pf p pgPtp 0x068 9 0 ≤ dur → s.pf p pgPtp (mpBase p + 0x1C) 15 0 = 0 → s.sessPlace p c = some i →
        Gives (.unicastRequest p u g log dur) s (fun t =>
          (∃ y, t.sess? i = some y ∧ y.lp = p ∧ y.client = c ∧
            y.grant g = { active := true, log := log, remain := min dur (s.pf p pgPtp 0x068 25 16) } ∧
            ∀ k, k ≠ g → (y.grant k).active = false) ∧
          (∀ j, j ≠ i → t.sess? j = s.sess? j) ∧
          ∃ m, (t.port p).msgs = (s.port p).msgs ++ [m] ∧ m.dest = some c ∧
            m.kind = .signaling (.grant g log (min dur (s.pf p pgPtp 0x068 25 16))))) ∧
      ((s.ptpPort p).serving = false ∨ log < s.minLog p g ∨ s.psf p pgPtp 0x06C 15 12 < log ∨ dur < s.pf p pgPtp 0x068 9 0 →
        Gives (.unicastRequest p u g log dur) s (fun t => t.ptp.sessions = s.ptp.sessions ∧
          t.ptp.denied = s.ptp.denied + 1 ∧ t.evtBit pgPtp evGrantDeny = true ∧
          ∃ m, (t.port p).msgs = (s.port p).msgs ++ [m] ∧ m.kind = .signaling (.grant g log 0)))) ∧
    (s.negotiates p u = true → s.mpAuth p = 0 → s.sessOf p c = some (i, x) → s.sess? i = some x →
      Gives (.unicastCancel p u g) s (fun t =>
        (∀ y, t.sess? i = some y → (y.grant g).active = false ∧ ∀ k, k ≠ g → y.grant k = x.grant k) ∧
        ((∀ k, k ≠ g → (x.grant k).active = false) → t.sess? i = none) ∧ ∀ j, j ≠ i → t.sess? j = s.sess? j)) ∧
    (KMap.wf sessReset s.ptp.sessions = true → s.sess? i = some x →
      (s.mpDom x.lp = d → Gives (.grantCountdown d) s (fun t =>
        (∀ y, t.sess? i = some y → ∀ k, y.grant k =
          (if (x.grant k).active then (if (x.grant k).remain ≤ 1 then {} else { x.grant k with remain := (x.grant k).remain - 1 })
           else x.grant k)) ∧
        (t.sess? i = none ↔ ∀ k, (x.grant k).active = true → (x.grant k).remain ≤ 1))) ∧
      (s.mpDom x.lp ≠ d → Gives (.grantCountdown d) s (fun t => t.sess? i = some x))) ∧
    (s.sess? i = some x →
      Gives (.ptpCancel i) s (fun t => t.sess? i = none ∧ (∀ j, j ≠ i → t.sess? j = s.sess? j) ∧
        (s.mpAuth x.lp = 0 → (t.port x.lp).msgs.map PtpMsg.kind = (s.port x.lp).msgs.map PtpMsg.kind ++
          (allGrants.filter (fun k => (x.grant k).active)).map (fun k => .signaling (.cancel k)))))

/-- 13 R418 to R423: a client instance hears an Announce of its domain; with no Announce in time its master goes, and
a unicast instance reports the loss to its slot; a failed grant request makes it wait, twice as long each time up to
64 s, and after the wait it asks for each grant it does not hold or has held for 3/4 of its duration; a Delay_Req leaves
at its pace of an instance that follows its master, and is outstanding until its exchange completes or its response
fails to come; an L1_SYNC message tells TCR, RCR and their congruence. -/
def Obligations.ClientsFollowTheirMaster : Prop :=
  ∀ (s : State) (k : ClNo) (m o : AnnounceMsg) (x : Exchange) (p : PortNo) (q : DreqSent),
    (s.clUp k = true → s.clTakes (s.clPort k) k m.head = true → s.clAuth k = 0 → m.auth = none →
      (s.clUnicast k = false → Gives (.clientAnnounce k m) s (fun t =>
        ∃ f ∈ (t.client k).foreigns, f.ann = m ∧ s.now ∈ f.at_)) ∧
      (s.clUnicast k = true → s.clHolds k .announce = true → m.gmClass.toNat ≤ s.clf k 4 23 16 → (s.client k).master = none →
        Gives (.clientAnnounce k m) s (fun t => (t.client k).master = some m ∧ t.evtBit pgPtp (evClMaster k) = true))) ∧
    (s.clUp k = false ∨ s.clTakes (s.clPort k) k m.head = false → Gives (.clientAnnounce k m) s (fun t => t = s)) ∧
    ((s.client k).master = some o →
      (s.clUnicast k = true → Gives (.masterLost k) s (fun t => (t.client k).master = none ∧ (t.client k).loss = true ∧
        (t.client k).outstanding = [] ∧
        ∀ h, s.halfOn h = true → (s.slot h (clSlot k)).st ≠ 0 → (t.slot h (clSlot k)).pend.lost = true)) ∧
      (s.clUnicast k = false → Gives (.masterLost k) s (fun t =>
        ∀ f ∈ (t.client k).foreigns, sameMaster f.ann o = false))) ∧
    (s.clUp k = true → s.clUnicast k = true →
      Gives (.grantRequest k true) s (fun t => (t.client k).failedAt = s.now ∧ (t.client k).grants = (s.client k).grants ∧
        (t.client k).wait = (if (s.client k).wait = 0 then 1 else min 64 (2 * (s.client k).wait))) ∧
      (s.clAuth k = 0 → (s.client k).failedAt + (s.client k).wait * 800000000 ≤ s.now →
        Gives (.grantRequest k false) s (fun t =>
          (t.port (s.clPort k)).msgs.map PtpMsg.kind = (s.port (s.clPort k)).msgs.map PtpMsg.kind ++
            (allGrants.filter (fun g => s.grantDue k g)).map (fun g => .signaling (.request g (s.clLog k g) (s.clf k 8 9 0))))) ∧
      (s.now < (s.client k).failedAt + (s.client k).wait * 800000000 → Gives (.grantRequest k false) s (fun t => t = s))) ∧
    (s.clState k = 3 → (∀ u, (s.client k).dreqAt = some u → u + logCycles (s.dreqLog k) ≤ s.now) → s.clAuth k = 0 →
      Gives (.clientDelayReq k) s (fun t => (t.client k).dreqAt = some s.now ∧ (t.client k).outstanding = (s.client k).outstanding ++ [{ seq := (s.client k).dreqSeq }] ∧
        (t.client k).dreqSeq = (s.client k).dreqSeq + 1 ∧
        ∃ q, (t.port (s.clPort k)).msgs = (s.port (s.clPort k)).msgs ++ [q] ∧ q.kind = .delayReq ∧ q.seq = (s.client k).dreqSeq)) ∧
    (s.clState k ≠ 3 → Gives (.clientDelayReq k) s (fun t => t = s)) ∧
    (s.clUp k = true → (s.client k).master ≠ none → s.clTakes (s.clPort k) k x.head = true → s.clAuth k = 0 →
      (s.client k).answered x.seqId = some q →
      Gives (.exchangeComplete k x) s (fun t => (t.client k).exch = (s.client k).exch + 1 ∧
        (t.client k).outstanding = (s.client k).outstanding.filter (fun r => r.seq != x.seqId) ∧
        (t.client k).mbound = (s.exchangeBound k x).1)) ∧
    (s.clAuth k = 0 → (s.client k).answered x.seqId = none → Gives (.exchangeComplete k x) s (fun t => t = s)) ∧
    Gives (.delayRespTimeout k) s (fun t => (t.client k).outstanding = (s.client k).outstanding.drop 1 ∧
      (t.client k).master = (s.client k).master ∧ t.halves = s.halves) ∧
    (s.portUp p = true → s.pwr.state ≠ .sealed → s.mpProf p = 2 → s.mpAuth p = 0 →
      Gives (.l1SyncSend p) s (fun t => (t.ptpPort p).sigSeq = (s.ptpPort p).sigSeq + 1 ∧
        ∃ q tcr rcr, (t.port p).msgs = (s.port p).msgs ++ [q] ∧ q.kind = .signaling (.l1sync tcr rcr (tcr && rcr)) ∧
          (tcr = true ↔ s.bitAt (pgLp p) 0x058 0 = true ∧ s.syncDom p = s.mpDom p)))

/-- 14 R430, R431, R433, R446, R447, R457, R458, R461: a malformed request is only counted; one that finds the builders full
is dropped as busy; one over its limit is dropped where that is the action; else it takes a token and a plain response
waits on the port; an authenticated request whose cookie and authenticator open is sealed for its launch, with as many
cookies as it has room for, and one of whose two does not open gets a NAK. -/
def Obligations.RequestsAreAnsweredOrDropped : Prop :=
  ∀ (s : State) (p : PortNo) (a : PathAB) (r : NtpReq) (n : NtsReq), s.fnTakes p a r = true →
    (r.hasMac = true ∨ (ntpVersion r ≠ 3 ∧ ntpVersion r ≠ 4) →
      Gives (.ntpRequest p a r) s (fun t => t = (s.count 256 1).ftnCount .dropBad 1)) ∧
    (r.hasMac = true ∨ ntpVersion r ≠ 4 ∨ ntsParts r n = none →
      Gives (.ntsRequest p a r n) s (fun t => t = (s.count 256 1).ftnCount .dropBad 1)) ∧
    (r.hasMac = false → ntpVersion r = 3 ∨ ntpVersion r = 4 →
      (r.buildersFull = true → Gives (.ntpRequest p a r) s (fun t => t = (s.count 256 1).ftnCount .dropBusy 1)) ∧
      (r.buildersFull = false → (useBuilder (s.count 256 1)).isSome = true → (lookup p r false s).2.1.tokens < 16 → s.rlAction p = 0 →
        Gives (.ntpRequest p a r) s (fun t => t.ports = s.ports ∧
          t.ftn.counts.get 6 = s.ftn.counts.get 6 + 1)) ∧
      (r.buildersFull = false → (useBuilder (s.count 256 1)).isSome = true → 16 ≤ (lookup p r false s).2.1.tokens → s.servesPlain p = true →
        Gives (.ntpRequest p a r) s (fun t =>
          (∃ x, (t.port p).ntp = (s.port p).ntp ++ [x] ∧ x.kind = .plain ∧ x.req = r ∧ x.dom = s.fnDom p) ∧
          ∃ e, t.clientEnt (s.srcHash p r).1 = some e ∧ e.tokens = (lookup p r false s).2.1.tokens - 16 ∧ e.ovr = 0)) ∧
      (∀ q, ntpVersion r = 4 → ntsParts r n = some q → r.buildersFull = true →
        Gives (.ntsRequest p a r n) s (fun t => t = (s.count 256 1).ftnCount .dropBusy 1)) ∧
      (∀ q, ntpVersion r = 4 → ntsParts r n = some q → r.buildersFull = false →
        (useBuilder (s.count 256 1)).isSome = true → 16 ≤ (lookup p r true s).2.1.tokens → s.servesNts p = true →
        (∀ k, s.openCookie q.cookie = some k → (Config.aeadOpen k.1 q.nonce q.assoc q.cipher).isSome = true →
          n.sealInTime = true → s.canMint (1 + min 7 q.placeholders) = true → (s.ftnUnit 0 8).1.isSome = true →
          Gives (.ntsRequest p a r n) s (fun t => (t.port p).ntp = (s.port p).ntp ∧
            ∃ x, (t.port p).sealed = (s.port p).sealed ++ [x] ∧ x.kind = .auth ∧ x.req = r ∧ x.uid = q.uid ∧
              x.cookies = 1 + min 7 q.placeholders ∧ x.t3 = x.t2 + s.launchNs p * 2 ^ 62)) ∧
        (s.openCookie q.cookie = none ∨
            (∃ k, s.openCookie q.cookie = some k ∧ Config.aeadOpen k.1 q.nonce q.assoc q.cipher = none) →
          Gives (.ntsRequest p a r n) s (fun t => (t.port p).sealed = (s.port p).sealed ∧
            ∃ x, (t.port p).ntp = (s.port p).ntp ++ [x] ∧ x.kind = .nak ∧ x.req = r ∧ x.uid = q.uid))))

/-- 14 R449, R453, R459, R463: a sealed response leaves at its launch as it was sealed, while LI and dispersion still
agree, and is dropped as late past its tolerance; the sweeper frees an entry that is full or has long been quiet and
no other; a new mint epoch is committed and taken into use; the kill switch empties what waits. -/
def Obligations.LaunchesEpochsAndTheKillSwitch : Prop :=
  ∀ (s : State) (p : PortNo) (cross : Nat) (r : NtpResp) (rest : List NtpResp) (i : Fin 1048576) (acc : Access) (v : Word),
    ((s.port p).sealed = r :: rest → s.pathUp p (s.activePath p) = true → (s.path p (s.activePath p)).link = true →
      s.schedBusy p (s.activePath p) = false →
      (s.launches p = false → Gives (.ntsLaunch p cross) s (fun t => (t.port p).sealed = rest ∧ t.outs = s.outs ∧
        t = (s.modPort p (fun x => { x with sealed := rest })).ftnCount .dropNoserve 1)) ∧
      (s.launches p = true → cross ≤ s.launchTol p → r.kind = .auth → s.ntpLi p r.t3 = r.hdr.li →
        s.ntpDisp (s.present r.dom (s.txLevel7 (s.refLane p (s.activePath p)))) (s.launchTol p) = r.hdr.disp →
        Gives (.ntsLaunch p cross) s (fun t => (t.port p).sealed = rest ∧
          (∃ fr, t.outs = s.outs ++ [.frame p (s.activePath p) (.ntp .auth r.hdr
            ((s.ntpLink p r.req).frame fr (r.hdr.bytes ++ (uidField r.uid ++ r.box))))]) ∧
          t.ftn.counts.get 1 = s.ftn.counts.get 1 + 1)) ∧
      (s.launches p = true → s.launchTol p < cross →
        Gives (.ntsLaunch p cross) s (fun t => (t.port p).sealed = rest ∧
          t.ftn.counts.get 8 = s.ftn.counts.get 8 + 1 ∧ t.evtBit pgFtn evFtnLate = true))) ∧
    (∀ e, s.clientEnt i.val = some e →
      16 * max 1 (s.fieldAt pgFtn 0x050 15 8) ≤
          s.refillEnt (16 * max 1 (s.fieldAt pgFtn 0x050 15 8)) (max 1 (s.fieldAt pgFtn 0x050 7 0)) e ∨
        8192 * 64 ≤ s.sinceLast e →
      Gives (.sweeperVisit i) s (fun t => t.clientEnt i.val = none ∧ ∀ j, j ≠ i.val → t.clientEnt j = s.clientEnt j)) ∧
    (s.mgt.running = true → s.pwr.state ≠ .sealed → 6 ≤ s.pwr.startStep → s.ftn.epoch = none → s.ftn.stored ≠ 0xFFFFFF →
      Gives .epochAdv s (fun t => t.ftn.epoch = some (s.ftn.stored + 1) ∧ t.ftn.stored = s.ftn.stored + 1 ∧ t.ftn.seq = 0 ∧
        t.evtBit pgFtn evEpochAdv = true)) ∧
    (∀ e, s.mgt.running = true → s.pwr.state ≠ .sealed → 6 ≤ s.pwr.startStep → s.ftn.epoch = some e → s.ftn.mintBad = false →
      2 ^ 39 ≤ s.ftn.seq → s.ftn.seq < 2 ^ 40 → s.ftn.stored = e → e ≠ 0xFFFFFF →
      Gives .epochAdv s (fun t => t.ftn.epoch = some e ∧ t.ftn.stored = e + 1 ∧ t.ftn.seq = s.ftn.seq)) ∧
    (Allowed acc pgFtn 0x058 v s →
      Gives (.ftnKill acc v) s (fun t => t.killed = bit v 0 ∧
        (bit v 0 = true → ∀ q, (t.port q).ntp = [] ∧ (t.port q).sealed = []) ∧ (bit v 0 = false → t.ports = s.ports)))

/-- 15 R473, R474, R476, R477: a submission doorbell inside the queue's depth moves the tail, any other and a
completion doorbell that returns a slot not written are doorbell errors that leave both indexes; EN starts a queue
that does not run with the sizes written, and clearing it leaves the queue running until it has stopped, its alarms and
its ONCE captures cancelled and its other operations as they were. -/
def Obligations.DoorbellsMoveOrFail : Prop :=
  ∀ (s : State) (a : Access) (q : QNo) (v : Word),
    (Allowed a (pgHp a.part) (qBase q + 0x14) v s →
      (bits v 11 0 < sqDepth s a.part q →
        Gives (.sqTail a q v) s (fun t => (t.queue a.part q).sqTail = bits v 11 0 ∧
          (t.queue a.part q).sqHead = (s.queue a.part q).sqHead ∧ (t.queue a.part q).error = (s.queue a.part q).error)) ∧
      (sqDepth s a.part q ≤ bits v 11 0 →
        Gives (.sqTail a q v) s (fun t => (t.queue a.part q).sqTail = (s.queue a.part q).sqTail ∧
          (t.queue a.part q).error = true ∧ (t.queue a.part q).errCause = 1 ∧ t.evtBit (pgHp a.part) (evQError q) = true))) ∧
    (Allowed a (pgHp a.part) (qBase q + 0x18) v s →
      (bits v 11 0 < cqDepth s a.part q → (s.queue a.part q).cqHead < cqDepth s a.part q →
        (bits v 11 0 + cqDepth s a.part q - (s.queue a.part q).cqHead) % cqDepth s a.part q ≤
          ((s.queue a.part q).cqTail + cqDepth s a.part q - (s.queue a.part q).cqHead) % cqDepth s a.part q →
        Gives (.cqHead a q v) s (fun t => (t.queue a.part q).cqHead = bits v 11 0 ∧
          (t.queue a.part q).cqTail = (s.queue a.part q).cqTail)) ∧
      (cqDepth s a.part q ≤ bits v 11 0 ∨
        ((s.queue a.part q).cqTail + cqDepth s a.part q - (s.queue a.part q).cqHead) % cqDepth s a.part q <
          (bits v 11 0 + cqDepth s a.part q - (s.queue a.part q).cqHead) % cqDepth s a.part q →
        Gives (.cqHead a q v) s (fun t => (t.queue a.part q).cqHead = (s.queue a.part q).cqHead ∧
          (t.queue a.part q).error = true ∧ (t.queue a.part q).errCause = 2 ∧ t.evtBit (pgHp a.part) (evQError q) = true))) ∧
    (Allowed a (pgHp a.part) (qBase q + 0x10) (v ||| 0x80000000) s → qEn s a.part q = false →
      (s.queue a.part q).running = false →
      Gives (.queueEnable a q v) s (fun t => qEn t a.part q = true ∧ (t.queue a.part q).running = true ∧
        (t.queue a.part q).error = false ∧ bits (qCfg t a.part q) 7 0 = bits v 7 0)) ∧
    (Allowed a (pgHp a.part) (qBase q + 0x10) (v &&& 0x7FFFFFFF) s → qEn s a.part q = true →
      (s.queue a.part q).running = true → KMap.wf opReset s.ops = true →
      Gives (.queueDisable a q v) s (fun t => qEn t a.part q = false ∧ (t.queue a.part q).running = true ∧
        bits (qCfg t a.part q) 7 0 = bits (qCfg s a.part q) 7 0 ∧
        ∀ r o, s.op? r = some o → o.part = a.part → o.q = q →
          (t.op? r).map Op.phase = some (if s.inFlight o = true ∧ o.committed = false ∧ o.isWait = true
            then .done stCancelled else o.phase)))

/-- 15 R471, R473 to R475, R477, R479, R480: an entry that may be fetched takes a free tag and moves the head; the
completion that was ready first is written to host memory, gives its tag back, and moves the tail; a vector follows
when completions have waited unacknowledged; a disabled queue stops once it holds no tag. 15 R478: a queue whose turn in
the round robin it is not fetches nothing (log entry 235). -/
def Obligations.QueuesFetchAndComplete : Prop :=
  ∀ (s : State) (p : Part) (q : QNo) (w : Vector Word 16) (t : Tag) (o : Op),
    (s.hostUp p = true → (s.part p).paused = false → qEn s p q = true → (s.queue p q).running = true →
      (s.queue p q).error = false → (s.queue p q).sqHead ≠ (s.queue p q).sqTail → (queueOps s p q).length < 64 →
      (s.opList.filter (fun e => e.2.part == p && !e.2.shared)).length < 64 →
      (queueTurn s p q = false → Gives (.entryFetch p q w) s (fun u => u = s)) ∧
      (queueTurn s p q = true → freeTag s = some t → Gives (.entryFetch p q w) s (fun u => (u.queue p q).sqHead = ((s.queue p q).sqHead + 1) % sqDepth s p q ∧
        ∃ x, u.op? t = some x ∧ x.part = p ∧ x.q = q ∧ x.words = w ∧ x.shared = false ∧
          x.phase = (if knownOpcode x.opcode then .fetched else .done stInvalidOp) ∧ ∀ r, r ≠ t → u.op? r = s.op? r))) ∧
    (nextReadyOp s p q = some (t, o) → s.hostUp p = true → (s.queue p q).running = true →
      ((s.queue p q).cqTail + 1) % cqDepth s p q ≠ (s.queue p q).cqHead →
      Gives (.completionWrite p q) s (fun u => u.op? t = none ∧
        (u.queue p q).cqTail = ((s.queue p q).cqTail + 1) % cqDepth s p q ∧
        (u.queue p q).phase = (if ((s.queue p q).cqTail + 1) % cqDepth s p q = 0 then !(s.queue p q).phase else (s.queue p q).phase) ∧
        .hostMem p (s.wideAt (pgHp p) (qBase q + 0x08) + (s.queue p q).cqTail * 32) (completionEntry (s.queue p q) q t o) ∈ u.outs ∧
        ∀ r, r ≠ t → u.op? r = s.op? r)) ∧
    (nextReadyOp s p q = none ∨ ((s.queue p q).cqTail + 1) % cqDepth s p q = (s.queue p q).cqHead →
      Gives (.completionWrite p q) s (fun u => u = s)) ∧
    (bit (qCfg s p q) 16 = true → 0 < (s.queue p q).unacked →
      Gives (.irqCoalesceTimeout p q) s (fun u => u = s.msix p (bits (qCfg s p q) 12 8))) ∧
    (qEn s p q = false → (s.queue p q).running = true → (queueOps s p q).isEmpty = true →
      Gives (.qStopped p q) s (fun u => (u.queue p q).running = false ∧ (u.queue p q).sqHead = 0 ∧ (u.queue p q).cqTail = 0 ∧
        (u.queue p q).phase = true ∧ u.evtBit (pgHp p) (evQStopped q) = true))

/-- 10 R335, R339 to R342; 15 R481, R483 to R485: NOP completes at dispatch; a FENCE waits for what came before it,
with APPLY for the page's buffered writes, and is refused by HOLD; TIME_READ takes the arbitrated time; EVENT_ARM arms
its input and completes, in ONCE mode it waits; an alarm waits for its target or is refused, and its cancel ends it
unless its target has been reached, when the fire wins. -/
def Obligations.TimeOperationsComplete : Prop :=
  ∀ (s : State) (t : Tag) (o : Op),
    (dispatchable s t 0x00 = some o → Completes (.nop t) s t stOk (fun _ _ => True)) ∧
    (dispatchable s t 0x01 = some o → bit (o.word 1) 0 = false →
      Gives (.fence t) s (fun u => u.op? t = some { o with phase := .waiting })) ∧
    (dispatchable s t 0x01 = some o → bit (o.word 1) 0 = true → (pageKind (bits (o.word 1) 15 8)).isSome = true →
      s.visible o.part (bits (o.word 1) 15 8) = true →
      Gives (.fence t) s (fun u => u.op? t = some { o with phase := .waiting })) ∧
    (s.op? t = some o → o.opcode = 1 → o.phase = .waiting → (∀ e ∈ queueOps s o.part o.q, o.order ≤ e.2.order) →
      (o.fenceWait = none → Completes (.fenceComplete t) s t stOk (fun _ _ => True)) ∧
      (∀ n, o.fenceWait = some n → (s.page (bits (o.word 1) 15 8)).hold = true ∨ o.heldSeen = true →
        Completes (.fenceComplete t) s t stRefusedState (fun _ _ => True)) ∧
      (∀ n, o.fenceWait = some n → (s.page (bits (o.word 1) 15 8)).hold = false → o.heldSeen = false →
        n ≤ (s.page (bits (o.word 1) 15 8)).doneMark → Completes (.fenceComplete t) s t stOk (fun r _ =>
          r.get 0 = BitVec.ofNat 32 (s.page (bits (o.word 1) 15 8)).applySeq.toNat))) ∧
    (∀ h, dispatchable s t 0x10 = some o → s.visible o.part (pgTd (opDom (o.word 1) 0)) = true → s.busHalf = some h →
      timeUnitFree s o.part = true →
      (∀ e ∈ queueOps s o.part o.q, e.2.opcode ≠ 0x10 ∨ e.2.isDone = true ∨ o.order ≤ e.2.order) →
      Completes (.timeRead t) s t stOk (fun r _ => r = timeResult (s.busTime (opDom (o.word 1) 0))
        (s.busState (opDom (o.word 1) 0)) (s.busBound (opDom (o.word 1) 0)) (opDom (o.word 1) 0) h 0)) ∧
    (∀ c : CapNo, dispatchable s t 0x11 = some o → c = Fin.ofNat 8 (bits (o.word 1) 2 0) → s.owns o.part (pgCap c) = true →
      s.visible o.part (pgTd (opDom (o.word 1) 4)) = true → bits (o.word 1) 13 12 ≠ 3 → (s.cap c).tag = none →
      (bits (o.word 1) 9 8 = 2 → Completes (.eventArm t) s t stOk (fun _ u => (u.cap c).mode = 2 ∧
        (u.cap c).dom = opDom (o.word 1) 4 ∧ (u.cap c).edge = bits (o.word 1) 13 12)) ∧
      (bits (o.word 1) 9 8 = 1 → Gives (.eventArm t) s (fun u => u.op? t = some { o with phase := .waiting } ∧
        (u.cap c).mode = 1 ∧ (u.cap c).tag = some t)) ∧
      (bits (o.word 1) 9 8 = 0 → Completes (.eventArm t) s t stOk (fun _ u => (u.cap c).mode = 0))) ∧
    (dispatchable s t 0x12 = some o → bit (o.word 1) 8 = false → s.visible o.part (pgTd o.alarmDom) = true →
      (s.busStepped o.alarmDom = false → Completes (.alarmSet t) s t stRefusedState (fun _ _ => True)) ∧
      (s.busStepped o.alarmDom = true → 16 ≤ (alarmsOf s o.part).length →
        Completes (.alarmSet t) s t stResource (fun _ _ => True)) ∧
      (s.busStepped o.alarmDom = true → (alarmsOf s o.part).length < 16 →
        (reached s o = false → Gives (.alarmSet t) s (fun u => u.op? t = some { o with phase := .waiting })) ∧
        (reached s o = true → Completes (.alarmSet t) s t stOk (fun r _ => r = timeResult (s.busTime o.alarmDom)
          (s.busState o.alarmDom) (s.busBound o.alarmDom) o.alarmDom s.followHalf (flagAt true 8))))) ∧
    (∀ e, dispatchable s t 0x12 = some o → bit (o.word 1) 8 = true →
      oldestOp ((alarmsOf s o.part).filter (fun e => e.2.q.val == bits (o.word 1) 12 10 && e.2.cid == bits (o.word 1) 31 16)) = e →
      (e = none → Completes (.alarmCancel t) s t stNotFound (fun _ _ => True)) ∧
      (∀ x, e = some x → x.1 ≠ t → s.op? x.1 = some x.2 → x.2.isDone = false →
        (s.busHalf.isSome = false ∨ reached s x.2 = false →
          Completes (.alarmCancel t) s t stOk (fun _ u => (u.op? x.1).map Op.phase = some (.done stCancelled))) ∧
        (s.busHalf.isSome = true → reached s x.2 = true →
          Completes (.alarmCancel t) s t stNotFound (fun _ u => (u.op? x.1).map Op.phase = some (.done stOk)))))

/-- 10 R327; 14 R443; 15 R481, R482, R488; 16 R512, R513; 18 R581; 19 R589: a frame that may be sent waits on its
port; a rate target waits on every half that runs for its boundary, one that comes after the capture point for the
following one; a derived or replaced key comes into force with
the next generation; cookies, counters and records are written to the operation's buffer; a host-memory read that
fails ends the operation. -/
def Obligations.EngineOperationsComplete : Prop :=
  ∀ (s : State) (t : Tag) (o : Op) (b : List Byte),
    (∀ p : PortNo, dispatchable s t 0x20 = some o → p = Fin.ofNat 16 (bits (o.word 1) 3 0) → s.owns o.part (pgLp p) = true →
      (sendInvalid o (s.bitAt (pgLp p) 0x040 16) = true →
        Completes (.ptpSend t (some b)) s t stInvalidField (fun _ u => u.ports = s.ports)) ∧
      (sendInvalid o (s.bitAt (pgLp p) 0x040 16) = false →
        Completes (.ptpSend t none) s t stHostMemory (fun _ u => u.ports = s.ports) ∧
        (s.unitBusy (pgLp p) 1 = true → Completes (.ptpSend t (some b)) s t stRetry (fun _ u => u.ports = s.ports)) ∧
        (s.unitBusy (pgLp p) 1 = false →
          s.schedBusy p (s.sendPath p (if s.paired p then bits (o.word 1) 5 4 else 0)) = false → s.portUp p = true →
          Gives (.ptpSend t (some b)) s (fun u => (∃ f, (u.port p).hosts = (s.port p).hosts ++ [f] ∧
              f.dest = bits (o.word 1) 9 8 ∧ f.bytes = sendBytes (some b) (bits (o.word 2) 15 0) ∧
              f.bytes.length = bits (o.word 2) 15 0 ∧
              f.oneAt = (if bit (o.word 1) 16 then some (bits (o.word 3) 15 0) else none) ∧ f.dom = opDom (o.word 1) 12 ∧
              f.id = BitVec.ofNat 16 (bits (o.word 2) 31 16)) ∧
            (u.op? t).map Op.phase = some (if bits (o.word 1) 9 8 = 2 then .done stOk else .running))))) ∧
    (∀ (d : Dom) (late : Bool), dispatchable s t 0x21 = some o → d.val = bits (o.word 1) 1 0 → s.owns o.part (pgTd d) = true →
      (∀ h, s.busHalf = some h → (s.dom h d).steer = true → (s.dom h d).stepped = true →
        ((s.dom h d).st = 1 ∨ (s.dom h d).st = 2) →
        Gives (.rateSet ⟨t, late⟩) s (fun u => u.op? t = some { o with phase := .waiting } ∧
          ∀ g, s.gridOn g = true → (u.dom g d).hostPend = (s.dom g d).hostPend ++
            [{ tag := t, rate := o.targetRate, stage := if late || (s.page (pgTd d)).captured.isSome then 1 else 0 }] ∧ (u.dom g d).rate = (s.dom g d).rate)) ∧
      (∀ h, s.busHalf = some h → (s.dom h d).steer = false → Completes (.rateSet ⟨t, late⟩) s t stRefusedState (fun _ _ => True))) ∧
    (∀ n : KeyNo, n = Fin.ofNat 64 o.keySlot →
      (dispatchable s t 0x30 = some o →
        (∀ e, keyRequire (s.count (cntPart o.part 5) 1) o.part n (o.word 2) false (bits (o.word 3) 6 0) = some e →
          Completes (.keyDerive t (some b)) s t e (fun _ u => u.keys = s.keys)) ∧
        (keyRequire (s.count (cntPart o.part 5) 1) o.part n (o.word 2) false (bits (o.word 3) 6 0) = none →
          Completes (.keyDerive t none) s t stHostMemory (fun _ u => u.keys = s.keys) ∧
          Completes (.keyDerive t (some b)) s t stOk (fun r u => (u.slotKey n).gen = (s.slotKey n).gen + 1 ∧
            (u.slotKey n).prev = (s.slotKey n).cur ∧ (u.slotKey n).loaded = true ∧ r.get 0 = (s.slotKey n).gen + 1 ∧
            r.get 1 = BitVec.ofNat 32 n.val ∧ ∀ m, m ≠ n → u.slotKey m = s.slotKey m))) ∧
      (dispatchable s t 0x31 = some o →
        (∀ e, keyRequire (s.count (cntPart o.part 5) 1) o.part n (o.word 2) true (bits (o.word 3) 6 0) = some e →
          Completes (.keyReplace t (some b)) s t e (fun _ u => u.keys = s.keys)) ∧
        (keyRequire (s.count (cntPart o.part 5) 1) o.part n (o.word 2) true (bits (o.word 3) 6 0) = none →
          Completes (.keyReplace t none) s t stHostMemory (fun _ u => u.keys = s.keys) ∧
          Completes (.keyReplace t (some b)) s t stOk (fun r u => (u.slotKey n).gen = (s.slotKey n).gen + 1 ∧
            (u.slotKey n).prev = (s.slotKey n).cur ∧ (u.slotKey n).loaded = true ∧ r.get 0 = (s.slotKey n).gen + 1 ∧
            r.get 1 = BitVec.ofNat 32 n.val ∧ ∀ m, m ≠ n → u.slotKey m = s.slotKey m)))) ∧
    (dispatchable s t 0x32 = some o → s.pwr.state ≠ .sealed → bits (o.word 1) 15 8 = 15 → 0 < bits (o.word 1) 3 0 →
      bits (o.word 1) 3 0 ≤ 8 → s.owns o.part pgFtn = true → s.ntsReadyNow = true → s.canMint (bits (o.word 1) 3 0) = true →
      (s.ftnUnit 0 8).1.isSome = true →
      Completes (.cookieMint t (some b)) s t stOk (fun r u => r.get 0 = BitVec.ofNat 32 (bits (o.word 1) 3 0) ∧
        ∃ cs, .hostMem o.part (o.addr + 64) cs ∈ u.outs)) ∧
    (dispatchable s t 0x40 = some o → s.visible o.part pgCnt = true → 0 < bits (o.word 2) 10 0 → bits (o.word 2) 10 0 ≤ 1024 →
      bits (o.word 1) 9 0 + bits (o.word 2) 10 0 ≤ 1024 →
      Completes (.statsSnapshot t) s t stOk (fun r u => r.get 0 = BitVec.ofNat 32 (bits (o.word 2) 10 0) ∧
        r.get 1 = s.cnt.snapSeq + 1 ∧ u.cnt.snapSeq = s.cnt.snapSeq + 1 ∧ u.evtBit pgCnt evSnapshot = true ∧
        .hostMem o.part o.addr ((List.range (bits (o.word 2) 10 0)).flatMap (fun i =>
          leBytes 4 (s.cntVal (bits (o.word 1) 9 0 + i)).toNat)) ∈ u.outs)) ∧
    (dispatchable s t 0x41 = some o → s.visible o.part pgMgt = true → 64 ≤ bits (o.word 2) 18 0 →
      bits (o.word 2) 18 0 ≤ 262144 →
      Completes (.logRead t) s t stOk (fun r u =>
        r.get 0 = BitVec.ofNat 32 ((logSlice s (o.word 1) (bits (o.word 2) 18 0)).flatMap recordBytes).length ∧
        (logSlice s (o.word 1) (bits (o.word 2) 18 0) ≠ [] →
          .hostMem o.part o.addr ((logSlice s (o.word 1) (bits (o.word 2) 18 0)).flatMap recordBytes) ∈ u.outs))) ∧
    (s.op? t = some o → o.opcode ∈ [0x20, 0x30, 0x31, 0x32] → o.phase = .fetched → fenced s o = false →
      Completes (.pcieCompletionTimeout t) s t stHostMemory (fun _ _ => True))

/-- 02 R86; 15 R491, R493; 17 R545: an operation that its engine does not end in time is completed with TIMEOUT and a
message; a partition reset, a link that goes down among its kinds, ends the partition's operations and queues and leaves
the other partitions' operations; its interrupt table stands only through a soft reset (log entry 223); a link that comes
up again resets nothing (log entry 224); a crossing that times out is flushed with a message. -/
def Obligations.OperationsEndByTimeoutAndReset : Prop :=
  ∀ (s : State) (t : Tag) (o : Op) (p : Part) (k : PartReset) (lost n : Nat),
    (s.op? t = some o → timeoutRuns s o = true → pageKind o.enginePage = some (.hp n) →
      Gives (.queueOpTimeout t) s (fun u => (u.op? t).map Op.phase = some (.done stTimeout) ∧
        Reported o.enginePage kTimeout (kindSev kTimeout) 0xFF s u)) ∧
    (s.op? t = some o → timeoutRuns s o = false → Gives (.queueOpTimeout t) s (fun u => u = s)) ∧
    (s.pwr.pcieUp = true → k = .linkUp → Gives (.partitionReset p k) s (fun u => (u.part p).linkUp = true ∧
      u.ops = s.ops ∧ u.pages = s.pages ∧ ∀ r, r ≠ p → u.part r = s.part r)) ∧
    (s.pwr.pcieUp = true → k ≠ .linkUp → KMap.wf opReset s.ops = true →
      Gives (.partitionReset p k) s (fun u =>
        (∀ r x, s.op? r = some x → x.part = p → u.op? r = none) ∧
        (∀ r x, s.op? r = some x → x.part ≠ p → u.op? r = some x) ∧
        (∀ q, u.queue p q = {}) ∧ (∀ r, r ≠ p → u.part r = s.part r) ∧ (u.part p).linkUp = (if k = .linkDown then false else (s.part p).linkUp) ∧
        (k ≠ .soft → u.bar p = {}) ∧ (u.part p).busLog = (s.part p).busLog ∧ (∀ d, ((u.part p).nowView.get d) = ((s.part p).nowView.get d)) ∧
        Reported (pgHp p) kXingFlush sevWarning 2 s u)) ∧
    (s.pwr.pcieUp = false → Gives (.partitionReset p k) s (fun u => u = s)) ∧
    (s.hostUp p = true → Gives (.crossingTimeout p lost) s (fun u => Reported (pgHp p) kXingFlush sevWarning 2 s u)) ∧
    (s.hostUp p = false → Gives (.crossingTimeout p lost) s (fun u => u = s))

/-- 17 R534, R535, R530; 10 R348, R325; 11 R371; 12 R392; 13 R428; 14 R466; 15 R498; 16 R529; 18 R576, R584; 19 R594:
a detector that fires sends one message with its source, the kind of its table, the severity of that kind and its
number. -/
def Obligations.DetectorsReport : Prop :=
  ∀ (s : State) (det : Byte) (k : Nat) (d : Dom) (h : Half) (c : CapNo) (j : JetNo) (n : Nat) (p : Part) (slot : KeyNo),
    (detKind (.td d.val) det.toNat = some k → h = (if det.toNat < 8 then .A else .B) → s.halfOn h = true →
      Gives (.domainDetection d det) s (fun t => ((s.dom h d).unb ≠ 3 → (t.dom h d).bound = 0xFFFF ∧ (t.dom h d).unb = 2) ∧
        Reported (placeOf h * 256 + pgTd d) k (kindSev k) det s t)) ∧
    (detKind .cis det.toNat = some k → h = (if det.toNat < 4 then .A else .B) → s.halfOn h = true →
      Gives (.cisternDetection det) s (fun t =>
        Reported (placeOf h * 256 + pgCis) k (if det.toNat % 4 = 2 then sevWarning else kindSev k) det s t)) ∧
    (detKind .sl det.toNat = some k → h = (if det.toNat < 8 then .A else .B) → s.halfOn h = true →
      Gives (.slDetection det) s (fun t => (∀ e, (s.dom h e).unb ≠ 3 → (t.dom h e).bound = 0xFFFF ∧ (t.dom h e).unb = 2) ∧
        Reported (placeOf h * 256 + pgSl) k (kindSev k) det s t)) ∧
    ((det = 4 ∨ det = 5) → h = (if det = 4 then .A else .B) → s.halfOn h = true →
      Gives (.halfDetection det) s (fun t => Reported (placeOf h * 256 + pgHalf) kCrc (kindSev kCrc) det s t)) ∧
    (detKind (.cap c.val) det.toNat = some k →
      Gives (.captureDetection c det) s (fun t => Reported (pgCap c) k (kindSev k) det s t)) ∧
    Gives (.tdcCalDetection (.cap c)) s (fun t => Reported (pgCap c) kClock (kindSev kClock) 0 s t) ∧
    (∀ l : LaneNo, Gives (.tdcCalDetection (.laneTx l)) s (fun t => Reported (pgLane l) kClock (kindSev kClock) 0 s t) ∧
      Gives (.tdcCalDetection (.laneRx l)) s (fun t => Reported (pgLane l) kClock (kindSev kClock) 1 s t)) ∧
    (detKind (.jet j.val) det.toNat = some k → 2 ≤ det.toNat →
      Gives (.jetDetection j det) s (fun t => Reported (pgJet j) k (kindSev k) det s t ∧
        (det = 3 → (t.jet j).level = .hiz ∧ t.evtBit (pgJet j) evDriver = true))) ∧
    (detKind (.jet j.val) det.toNat = some k → det.toNat < 2 → h = (if det = 0 then .A else .B) → s.halfOn h = true →
      Gives (.jetDetection j det) s (fun t => Reported (placeOf h * 256 + pgJet j) k (kindSev k) det s t ∧
        (t.jet j).bad.of h = true ∧ (t.jet j).bad.of h.peer = (s.jet j).bad.of h.peer)) ∧
    (∀ l : LaneNo, detKind (.lane l.val) det.toNat = some k →
      Gives (.portDetection (.lane l) det) s (fun t => Reported (pgLane l) k (kindSev k) det s t)) ∧
    (∀ q : PortNo, detKind (.lp q.val) det.toNat = some k →
      Gives (.portDetection (.lp q) det) s (fun t => Reported (pgLp q) k (kindSev k) det s t)) ∧
    (detKind .ptp det.toNat = some k →
      Gives (.ptpDetection det n) s (fun t => Reported pgPtp k (kindSev k) det s t ∧ (det = 0 → t.sess? n = none))) ∧
    (detKind .ftn det.toNat = some k →
      Gives (.ftnDetection det n) s (fun t => Reported pgFtn k (kindSev k) det s t ∧
        (det = 12 → t.clientEnt (n % 2 ^ 20) = none))) ∧
    (detKind (.hp p.val) det.toNat = some k →
      Gives (.hpDetection p det) s (fun t => Reported (pgHp p) k (kindSev k) det s t ∧
        (det = 0 → (t.part p).paused = true))) ∧
    (detKind .key det.toNat = some k → det ≠ 3 →
      Gives (.keyDetection det slot) s (fun t => Reported pgKey k (kindSev k) det s t)) ∧
    (detKind .flt det.toNat = some k →
      Gives (.fltDetection det 0) s (fun t => Reported pgFlt k (kindSev k) det s t)) ∧
    (detKind .mgt det.toNat = some k →
      Gives (.mgtDetection det false) s (fun t => Reported pgMgt k (kindSev k) det s t) ∧
      (k = kEcc → Gives (.mgtDetection det true) s (fun t => Reported pgMgt k sevWarning det s t))) ∧
    (∀ i : Fin 1024, Gives (.cntDetection i) s (fun t => Reported pgCnt kParity (kindSev kParity) 0 s t ∧ t.cntVal i.val = 0)) ∧
    (∀ (r : Fin 8) (mv : Nat), Gives (.railCrossing r mv) s (fun t => t.mgt.rails.get r = mv ∧
      (railOut r mv ≠ s.mgt.railBad.get r → s.pwr.state ≠ .standby →
        Reported pgMgt kVoltage sevWarning (Config.detectorOf pgMgt kVoltage) s t))) ∧
    (det.toNat = 0 → Gives (.faultDetection .common ⟨pgCnt, by decide⟩ det (BitVec.ofNat 24 n)) s (fun t =>
      Reported pgCnt kParity (kindSev kParity) det s t ∧ t.cntVal (n % 2 ^ 24 % 1024) = 0))

/-- 17 R533 to R537: the collector accepts the oldest message of the source whose turn it is, and of no other: it takes the next SEQ, counts for its
source, is logged while the ring has room, and stands in its page's PAGE_FAULT from WARNING up. A block that dropped
messages tells their number once it has room. -/
def Obligations.MessagesAreAcceptedInOrder : Prop :=
  ∀ (s : State) (src : BitVec 10) (m : Msg) (rest : List Msg),
    (look bufReset s.flt.bufs src.toNat = m :: rest → s.sourceTurn src.toNat = true →
      bit (look reactReset s.flt.react src.toNat) 2 = false → bit (look reactReset s.flt.react src.toNat) 3 = false →
      Gives (.faultMessageAccepted src) s (fun t =>
        (look bufReset t.flt.bufs src.toNat).length = rest.length ∧ t.flt.nextSeq = s.flt.nextSeq + 1 ∧
        look countReset t.flt.counts src.toNat = (look countReset s.flt.counts src.toNat + 1) &&& 0xFFFF ∧
        (s.flt.log.length < 256 → t.flt.log.length = s.flt.log.length + 1) ∧
        (sevWarning ≤ raisedSev s m → (t.page (src.toNat % 256)).fault.seq = s.flt.nextSeq ∧
          (t.page (src.toNat % 256)).fault.kind = m.kind ∧ t.evtBit pgFlt evMsg = true) ∧
        (sevError ≤ raisedSev s m → (t.page (src.toNat % 256)).fault.active = true) ∧
        (raisedSev s m = sevFatal → t.flt.fatal = true ∧ t.flt.frozen = true ∧ t.evtBit pgFlt evFatal = true))) ∧
    (look bufReset s.flt.bufs src.toNat = [] ∨ s.sourceTurn src.toNat = false →
      Gives (.faultMessageAccepted src) s (fun t => t = s)) ∧
    (look dropReset s.flt.dropped src.toNat ≠ 0 → (look bufReset s.flt.bufs src.toNat).length < 4 →
      s.canSend (src.toNat / 256) = true →
      Gives (.overflowMessage src) s (fun t => look dropReset t.flt.dropped src.toNat = 0 ∧
        ∃ x, look bufReset t.flt.bufs src.toNat = look bufReset s.flt.bufs src.toNat ++ [x] ∧
          x.kind = BitVec.ofNat 6 kOverflow ∧ x.loc = BitVec.ofNat 24 (look dropReset s.flt.dropped src.toNat % 2 ^ 16)))

/-- 17 R541 to R543: a test that passes with few passes before it leaves its unit in service; one that fails fences a
unit of the common die, for good but for FLT_RETEST, whose passing test puts the unit back and whose failing test does
not. -/
def Obligations.TestsDecideOnUnits : Prop :=
  ∀ (s : State) (src : BitVec 10) (det : Byte) (i : Nat) (a : Access) (v : Word) (pass : Bool),
    ((s.unit src.toNat det).testing = some i →
      ((s.unit src.toNat det).transients.length + 1 < escalCount s →
        Gives (.selftestResult src det true) s (fun t => (t.unit src.toNat det).testing = none ∧
          (t.unit src.toNat det).fenced =
            ((s.unit src.toNat det).fenced && (halfOfPlace (src.toNat / 256)).isNone))) ∧
      (halfOfPlace (src.toNat / 256) = none → isBank src.toNat det = false → (∀ n, pageKind src.toNat ≠ some (.jet n)) →
        Gives (.selftestResult src det false) s (fun t => (t.unit src.toNat det).testing = none ∧
          (t.unit src.toNat det).fenced = true ∧ (t.page (src.toNat % 256)).fault.lasting = true ∧
          t.evtBit pgFlt evLasting = true))) ∧
    ((s.unit src.toNat det).testing = none → Gives (.selftestResult src det pass) s (fun t => t = s)) ∧
    (Allowed a pgFlt 0x05C v s → bit v 31 = true → (s.unit (bits v 25 16) (BitVec.ofNat 8 (bits v 7 0))).fenced = true →
      (s.unit (bits v 25 16) (BitVec.ofNat 8 (bits v 7 0))).testing = none → halfOfPlace (bits v 25 16 / 256) = none →
      Gives (.fltRetest a v true) s (fun t => (t.unit (bits v 25 16) (BitVec.ofNat 8 (bits v 7 0))).fenced = false ∧
        t.evtBit pgFlt evUnfenced = true) ∧
      Gives (.fltRetest a v false) s (fun t => (t.unit (bits v 25 16) (BitVec.ofNat 8 (bits v 7 0))).fenced = true))

/-- 17 R545 to R547, R549, R550: an engine that makes no progress reports TIMEOUT, also where software injects the
expiry, and is reset, unless its latest reset lies within the escalation's window; Milondino's watchdog reports the first expiry and restarts Milondino at the second; ALIVE toggles unless it is
frozen, and resumes only with no page holding an error that froze it. -/
def Obligations.WatchdogsAndAlive : Prop :=
  ∀ (s : State) (src : BitVec 10) (a : Access) (v : Word),
    ((pageKind (src.toNat % 256)).isSome = true → s.canSend (src.toNat / 256) = true →
      Gives (.engineWatchdog src) s (fun t => Reported src.toNat kTimeout (kindSev kTimeout) 0xFF s t ∧
        (t.unit src.toNat 0xFF).lastReset =
          (if (s.unit src.toNat 0xFF).lastReset.any (fun r => decide (s.nowNs ≤ r + escalWindow s)) = true
           then (s.unit src.toNat 0xFF).lastReset else some s.nowNs))) ∧
    ((pageKind (src.toNat % 256)).isSome = false ∨ s.canSend (src.toNat / 256) = false →
      Gives (.engineWatchdog src) s (fun t => t = s)) ∧
    (Allowed a pgFlt 0x060 v s → bit v 31 = true →
      Gives (.fltInjWdog a v) s (fun t => t = engineWatchdog (bits v 9 0) (s.setReg pgFlt 0x060 (v &&& 0x3FF)))) ∧
    (s.mgt.running = false → Gives .mgtWdog s (fun t => t = s)) ∧
    (s.mgt.running = true →
      (s.mgt.wdogOnce = false → Gives .mgtWdog s (fun t => t.mgt.wdogOnce = true ∧ t.mgt.restarts = s.mgt.restarts ∧
        t.evtBit pgFlt evMgtWdog = true ∧ Reported pgMgt kTimeout (kindSev kTimeout) 0xFF s t)) ∧
      (s.mgt.wdogOnce = true → Gives .mgtWdog s (fun t => t.mgt.wdogOnce = false ∧ t.mgt.restarts = s.mgt.restarts + 1 ∧
        t.mgt.session = none ∧ t.evtBit pgMgt evRestart = true ∧ Reported pgMgt kTimeout (kindSev kTimeout) 0xFF s t))) ∧
    (s.flt.aliveOn = true → s.flt.frozen = false →
      Gives .aliveToggle s (fun t => t.flt.alive = !s.flt.alive ∧ t.outs = s.outs ++ [.alive (!s.flt.alive)])) ∧
    (s.flt.aliveOn = false ∨ s.flt.frozen = true → Gives .aliveToggle s (fun t => t = s)) ∧
    (Allowed a pgFlt 0x044 v s → bit v 0 = true →
      Gives (.fltResume a v) s (fun t => t.flt.frozen =
        (s.flt.frozen && s.pages.any (fun e => e.2.fault.active && e.2.fault.errpin)) ∧ t.pages = s.pages))

/-- 18 R565 to R567, R570, R574; 16 R525: a request that may be given is answered on its transport with its command
and tag: GET_INFO, GET_SENSORS and GET_CHALLENGE with their values, CLEAR_LATCH clears what no longer asserts, but in
DECOMMISSIONED nothing, a policy is stored; an unprivileged request of a privileged command is denied and changes no
fuse and no policy. 18 R568: a request whose LENGTH its command does not take is answered BAD_LENGTH and does nothing else. -/
def Obligations.MailboxCommandsAnswer : Prop :=
  ∀ (s : State) (src : Transport) (tag : BitVec 16) (r : PolicyRec) (live : BitVec 9) (cfg : Word),
    (Requested s src 0x01 tag false → Gives (.getInfo src tag) s (fun t => Answered src 0x01 tag mbOk (infoVals s) t)) ∧
    (Requested s src 0x02 tag false → Gives (.getSensors src tag) s (fun t => Answered src 0x02 tag mbOk (sensorVals s) t)) ∧
    (Requested s src 0x03 tag false → Gives (.getChallenge src tag) s (fun t =>
      t.mgt.nonce = some (nonceOf s, s.now) ∧ Answered src 0x03 tag mbOk [ofBe (nonceOf s)] t)) ∧
    (Requested s src 0x10 tag true →
      Gives (.setPolicy src tag r) s (fun t => t.evtBit pgMgt evPolicy = true ∧ Answered src 0x10 tag mbOk [] t) ∧
      Gives (.setPolicy src tag (.tamper cfg)) s (fun t => t.mgt.tamperRec = some (cfg &&& 0x0F03FFFF) ∧
        t.keys.tampCfg = cfg &&& 0x0F03FFFF)) ∧
    (Requested s src 0x11 tag true →
      (s.lifecycle ≠ 3 → Gives (.clearLatch src tag live) s (fun t => t.keys.latch = s.keys.latch &&& live ∧
        t.keys.raw = live ∧ Answered src 0x11 tag mbOk [] t)) ∧
      (s.lifecycle = 3 → Gives (.clearLatch src tag live) s (fun t => t.keys.latch = s.keys.latch ∧
        Answered src 0x11 tag mbBadState [] t))) ∧
    (Requested s src 0x10 tag false → privileged s src = false →
      Gives (.setPolicy src tag r) s (fun t => t.mgt.policy = s.mgt.policy ∧ t.mgt.tamperRec = s.mgt.tamperRec ∧
        t.keys = s.keys ∧ Answered src 0x10 tag mbDenied [] t)) ∧
    (∀ q, reqFront s src 0x11 tag = some q → s.mgt.running = true → s.mgt.image ≠ .recovery → 0 < q.len →
      Gives (.clearLatch src tag live) s (fun t => t.keys = s.keys ∧ Answered src 0x11 tag mbBadLength [] t)) ∧
    (Requested s src 0x12 tag true → s.pwr.state = .run →
      Gives (.chipReset src tag) s (fun t => t.pwr.state = .boot ∧ t.pwr.lastCause = 5 ∧ t.mgt.running = false ∧
        t.keys.fuse = s.keys.fuse ∧ Answered src 0x12 tag mbOk [] t)) ∧
    (Requested s src 0x13 tag true →
      Gives (.restartMgt src tag) s (fun t => t.mgt.restarts = s.mgt.restarts + 1 ∧ t.mgt.session = none ∧ t.mgt.nonce = none ∧
        t.evtBit pgMgt evRestart = true ∧ Answered src 0x13 tag mbOk [] t))

/-- 18 R571 to R573, R560: an update session erases the region that does not run, takes data at the header and body
positions, and ends with the region preferred and on trial where its image is valid and not rolled back; CONFIRM ends
the trial. -/
def Obligations.UpdatesReplaceTheOtherRegion : Prop :=
  ∀ (s : State) (src : Transport) (tag : BitVec 16) (len off : Nat) (data : List Byte) (u : Session),
    (Requested s src 0x20 tag true → s.mgt.session = none →
      (4096 ≤ len → len ≤ 393216 → Gives (.updateBegin src tag len) s (fun t =>
        t.mgt.session = some ⟨s.mgt.image == .regionA, len⟩ ∧
        (∀ a, regionBase (s.mgt.image == .regionA) ≤ a → a < regionBase (s.mgt.image == .regionA) + 0x80000 →
          look flashReset t.mgt.flash a = flashReset a) ∧ Answered src 0x20 tag mbOk [] t)) ∧
      (len < 4096 ∨ 393216 < len → Gives (.updateBegin src tag len) s (fun t =>
        t.mgt.session = none ∧ t.mgt.flash = s.mgt.flash ∧ Answered src 0x20 tag mbBadLength [] t))) ∧
    (Requested s src 0x21 tag true → s.mgt.session = some u → data.length ≤ 240 →
      4096 ≤ off → off + data.length ≤ 4096 + u.bodyLen →
      Gives (.updateData src tag off data) s (fun t => Answered src 0x21 tag mbOk [] t ∧ t.mgt.session = some u ∧
        (∀ i, i < data.length → look flashReset t.mgt.flash (regionBase u.regionB + off + i) = data.getD i 0xFF) ∧
        (∀ a, a < regionBase u.regionB + off ∨ regionBase u.regionB + off + data.length ≤ a →
          look flashReset t.mgt.flash a = look flashReset s.mgt.flash a))) ∧
    (Requested s src 0x22 tag true → s.mgt.session = some u →
      (imageGood s u.regionB = false → Gives (.updateEnd src tag) s (fun t =>
        t.mgt.bootCtl = s.mgt.bootCtl ∧ t.mgt.session = some u ∧ Answered src 0x22 tag mbBadImage [] t)) ∧
      (imageGood s u.regionB = true → imgSvn s u.regionB < s.keys.fuse.rollback → Gives (.updateEnd src tag) s (fun t =>
        t.mgt.bootCtl = s.mgt.bootCtl ∧ Answered src 0x22 tag mbRollback [] t)) ∧
      (imageGood s u.regionB = true → s.keys.fuse.rollback ≤ imgSvn s u.regionB → Gives (.updateEnd src tag) s (fun t =>
        t.mgt.bootCtl.preferB = u.regionB ∧ t.mgt.bootCtl.trial = true ∧ t.mgt.bootCtl.tries = 3 ∧ t.mgt.session = none ∧
        t.evtBit pgMgt evUpdateReady = true ∧ Answered src 0x22 tag mbOk [] t))) ∧
    (Requested s src 0x23 tag true →
      (s.mgt.trialImage = true → Gives (.confirm src tag) s (fun t => t.mgt.bootCtl.trial = false ∧
        t.mgt.trialImage = false ∧ Answered src 0x23 tag mbOk [] t)) ∧
      (s.mgt.trialImage = false → Gives (.confirm src tag) s (fun t => t.mgt.bootCtl = s.mgt.bootCtl ∧
        Answered src 0x23 tag mbBadState [] t)))

/-- 16 R501, R526; 18 R573, R574: SVN_COMMIT raises the anti-rollback count to the running image's SVN and never
lowers it; ENTER_RMA with a good signature over a fresh nonce, and a DECOMMISSION received twice with one tag within
10 s, blow the lifecycle fuse, leave no key material and reset the chip; a bad signature is denied and blows nothing.
-/
def Obligations.FusesAreBlownOnCommand : Prop :=
  ∀ (s : State) (src : Transport) (tag : BitVec 16) (sig n : List Byte) (at0 : Nat),
    (Requested s src 0x24 tag true →
      (s.mgt.trialImage = false → Gives (.svnCommit src tag) s (fun t =>
        t.keys.fuse.rollback = max s.keys.fuse.rollback s.mgt.svn ∧ t.keys.fuse.lifecycle = s.keys.fuse.lifecycle ∧
        Answered src 0x24 tag mbOk [] t)) ∧
      (s.mgt.trialImage = true → Gives (.svnCommit src tag) s (fun t =>
        t.keys.fuse = s.keys.fuse ∧ Answered src 0x24 tag mbBadState [] t))) ∧
    (Requested s src 0x30 tag true → sig.length = 96 → s.mgt.nonce = some (n, at0) →
      (s.now ≤ at0 + cyc60s → Config.ecdsaOk Config.dalnalKey (beBytes 8 Config.serial.toNat ++ n) sig = true →
        (s.lifecycle < 2 → Gives (.enterRma src tag sig) s (fun t => t.keys.fuse.lifecycle = 2 ∧
          (∀ k, (t.slotKey k).cur = none ∧ (t.slotKey k).prev = none) ∧ t.pwr.lastCause = 5 ∧ t.mgt.running = false ∧
          Answered src 0x30 tag mbOk [] t)) ∧
        (2 ≤ s.lifecycle → Gives (.enterRma src tag sig) s (fun t => t.keys.fuse = s.keys.fuse ∧
          Answered src 0x30 tag mbBadState [] t))) ∧
      (Config.ecdsaOk Config.dalnalKey (beBytes 8 Config.serial.toNat ++ n) sig = false ∨ at0 + cyc60s < s.now →
        Gives (.enterRma src tag sig) s (fun t => t.keys.fuse = s.keys.fuse ∧ t.mgt.nonce = none ∧
          Answered src 0x30 tag mbDenied [] t))) ∧
    (Requested s src 0x31 tag true →
      (decomSecond tag s = false → Gives (.decommission src tag) s (fun t => t.mgt.decom = some (tag, s.now) ∧
        t.keys.fuse = s.keys.fuse)) ∧
      (decomSecond tag s = true → Gives (.decommission src tag) s (fun t => t.keys.fuse.lifecycle = 3 ∧
        (∀ k, (t.slotKey k).cur = none ∧ (t.slotKey k).prev = none) ∧ t.pwr.lastCause = 5 ∧ Answered src 0x31 tag mbOk [] t)))

/-- 18 R566, R567, R577, R579, R580: a partition's mailbox takes a request when it holds none, and ignores GO when it
holds one; a frame on the management Ethernet whose ICV fails, or whose number is not above the last one's, is dropped and
counted, and a good one is taken as a request; a queued log record is written
with the next sequence number, after the record of what was dropped. -/
def Obligations.RequestsAndRecordsAreTaken : Prop :=
  ∀ (s : State) (a : Access) (v : Word) (mac : BitVec 48) (seq : BitVec 64) (body : List Byte) (icv : BitVec 128)
    (r : LogRec) (rest : List LogRec),
    (Allowed a (pgHp a.part) 0x600 v s → bit v 0 = true →
      (s.mgt.held = [] → bits (s.reg (pgHp a.part) 0x500) 15 0 ∈ commands →
        Gives (.mbxGo a v) s (fun t => (t.part a.part).mbxDone = false ∧ ∃ q, t.mgt.held = [q] ∧ q.src = .part a.part ∧
          q.cmd = bits (s.reg (pgHp a.part) 0x500) 15 0 ∧ q.len = bits (s.reg (pgHp a.part) 0x500) 31 16 ∧
          q.tag = BitVec.ofNat 16 (bits (s.reg (pgHp a.part) 0x504) 15 0))) ∧
      (s.mgt.held = [] → bits (s.reg (pgHp a.part) 0x500) 15 0 ∉ commands → s.mgt.running = true →
        Gives (.mbxGo a v) s (fun t => t.mgt.held = [] ∧ (t.part a.part).mbxDone = true ∧
          Answered (.part a.part) (bits (s.reg (pgHp a.part) 0x500) 15 0)
            (BitVec.ofNat 16 (bits (s.reg (pgHp a.part) 0x504) 15 0)) mbUnknown [] t)) ∧
      (s.mgt.held.any (fun q => q.src == .part a.part) = true → Gives (.mbxGo a v) s (fun t => t = s))) ∧
    (s.mgt.running = true →
      (ethKeyOk s = false ∨ icv ≠ ethIcv s seq body ∨ (∃ q, s.mgt.ethSeq = some q ∧ seq.toNat ≤ q.toNat) →
        Gives (.mgtEthFrame mac seq body icv) s (fun t => t.mgt.held = s.mgt.held ∧ t.mgt.ethDrop = s.mgt.ethDrop + 1 ∧
          t.mgt.ethSeq = s.mgt.ethSeq)) ∧
      (ethKeyOk s = true → icv = ethIcv s seq body → (∀ q, s.mgt.ethSeq = some q → q.toNat < seq.toNat) →
        s.mgt.held = [] → ofBe (body.take 2) ∈ commands →
        Gives (.mgtEthFrame mac seq body icv) s (fun t => t.mgt.ethSeq = some seq ∧ t.mgt.ethDrop = s.mgt.ethDrop ∧
          ∃ q, t.mgt.held = [q] ∧ q.src = .eth ∧ q.mac = mac ∧ q.cmd = ofBe (body.take 2) ∧
            q.len = ofBe ((body.drop 2).take 2) ∧ q.tag = BitVec.ofNat 16 (ofBe ((body.drop 4).take 2))))) ∧
    (s.mgt.running = true → s.mgt.logQ = r :: rest → s.mgt.log.length < 6143 →
      Gives .logRecordWrite s (fun t => t.mgt.logQ = rest ∧ t.mgt.logDropped = 0 ∧
        (s.mgt.logDropped = 0 → t.mgt.log = s.mgt.log ++ [⟨s.mgt.logSeq, r, true⟩] ∧ t.mgt.logSeq = s.mgt.logSeq + 1) ∧
        (s.mgt.logDropped ≠ 0 → t.mgt.logSeq = s.mgt.logSeq + 2 ∧ t.mgt.log.length = s.mgt.log.length + 2 ∧
          t.mgt.log.getLast? = some ⟨s.mgt.logSeq + 1, r, true⟩)))
end

