-- ==== Sys2Proof/Laws/Table.lean ====
section
/-!
SUPPORT. Laws of the sparse tables: reading after writing, and the canonical form kept by every write.
-/

namespace Sys2Proof.Machine

variable {α : Type}

@[simp] theorem look_nil (d : Nat → α) (k : Nat) : look d [] k = d k := rfl

theorem look_cons (d : Nat → α) (j : Nat) (w : α) (r : KMap α) (k : Nat) :
    look d ((j, w) :: r) k = if j = k then w else look d r k := rfl

theorem look_drop_self (d : Nat → α) (m : KMap α) (k : Nat) : look d (drop m k) k = d k := by
  induction m with
  | nil => rfl
  | cons e r ih =>
    obtain ⟨j, w⟩ := e
    simp only [drop]
    split
    · exact ih
    · next h => rw [look_cons, if_neg h, ih]

theorem look_drop_ne (d : Nat → α) (m : KMap α) {k j : Nat} (h : j ≠ k) : look d (drop m k) j = look d m j := by
  induction m with
  | nil => rfl
  | cons e r ih =>
    obtain ⟨i, w⟩ := e
    simp only [drop]
    split
    · next hi => rw [look_cons, if_neg (by omega), ih]
    · rw [look_cons, look_cons, ih]

theorem mem_drop {m : KMap α} {k : Nat} {e : Nat × α} (h : e ∈ drop m k) : e ∈ m ∧ e.1 ≠ k := by
  induction m with
  | nil => exact absurd h (by simp [drop])
  | cons x r ih =>
    obtain ⟨j, w⟩ := x
    simp only [drop] at h
    split at h
    · exact ⟨List.mem_cons_of_mem _ (ih h).1, (ih h).2⟩
    · next hj =>
      rcases List.mem_cons.mp h with rfl | h
      · exact ⟨List.mem_cons_self, hj⟩
      · exact ⟨List.mem_cons_of_mem _ (ih h).1, (ih h).2⟩

theorem look_place_self (d : Nat → α) (m : KMap α) (k : Nat) (v : α) (h : ∀ e ∈ m, e.1 ≠ k) :
    look d (place m k v) k = v := by
  induction m with
  | nil => simp [place, look]
  | cons e r ih =>
    obtain ⟨j, w⟩ := e
    simp only [place]
    split
    · simp [look]
    · rw [look_cons, if_neg (h (j, w) List.mem_cons_self)]
      exact ih (fun e he => h e (List.mem_cons_of_mem _ he))

theorem look_place_ne (d : Nat → α) (m : KMap α) {k j : Nat} (v : α) (h : j ≠ k) :
    look d (place m k v) j = look d m j := by
  induction m with
  | nil => simp [place, look, Ne.symm h]
  | cons e r ih =>
    obtain ⟨i, w⟩ := e
    simp only [place]
    split
    · rw [look_cons, if_neg (Ne.symm h)]
    · rw [look_cons, look_cons, ih]

/-- The first key of a table lies above a bound. -/
def above (n : Nat) (m : KMap α) : Prop := ∀ e ∈ m, n < e.1

theorem above_drop {m : KMap α} {n k : Nat} (h : above n m) : above n (drop m k) :=
  fun e he => h e (mem_drop he).1

theorem mem_place {m : KMap α} {k : Nat} {v : α} {e : Nat × α} (h : e ∈ place m k v) : e = (k, v) ∨ e ∈ m := by
  induction m with
  | nil => exact Or.inl (by simpa [place] using h)
  | cons x r ih =>
    obtain ⟨j, w⟩ := x
    simp only [place] at h
    split at h
    · rcases List.mem_cons.mp h with rfl | h
      · exact Or.inl rfl
      · exact Or.inr h
    · rcases List.mem_cons.mp h with rfl | h
      · exact Or.inr List.mem_cons_self
      · exact (ih h).imp id (List.mem_cons_of_mem _)

/-! ## Fixed tables -/

@[simp] theorem get_setAt_self {n : Nat} (v : Vector α n) (i : Fin n) (x : α) : (setAt v i x).get i = x := by
  change (v.set i.val x i.isLt)[i.val] = x
  exact Vector.getElem_set_self _

theorem get_setAt_ne {n : Nat} (v : Vector α n) {i j : Fin n} (x : α) (h : j ≠ i) :
    (setAt v i x).get j = v.get j := by
  change (v.set i.val x i.isLt)[j.val] = v[j.val]
  exact Vector.getElem_set_ne _ _ (fun e => h (Fin.ext e.symm))

@[simp] theorem get_modAt_self {n : Nat} (v : Vector α n) (i : Fin n) (f : α → α) :
    (modAt v i f).get i = f (v.get i) := get_setAt_self v i _

theorem get_modAt_ne {n : Nat} (v : Vector α n) {i j : Fin n} (f : α → α) (h : j ≠ i) :
    (modAt v i f).get j = v.get j := get_setAt_ne v _ h

variable [DecidableEq α]

/-- A key reads as what was last written to it. -/
@[simp] theorem look_put_self (d : Nat → α) (m : KMap α) (k : Nat) (v : α) : look d (put d m k v) k = v := by
  unfold put
  split
  · next h => rw [look_drop_self, h]
  · exact look_place_self d _ k v (fun e he => (mem_drop he).2)

/-- A write of one key leaves the others. -/
theorem look_put_ne (d : Nat → α) (m : KMap α) {k j : Nat} (v : α) (h : j ≠ k) :
    look d (put d m k v) j = look d m j := by
  unfold put
  split
  · exact look_drop_ne d m h
  · rw [look_place_ne d _ v h, look_drop_ne d m h]

theorem look_put (d : Nat → α) (m : KMap α) (k j : Nat) (v : α) :
    look d (put d m k v) j = if j = k then v else look d m j := by
  split
  · next h => rw [h, look_put_self]
  · next h => exact look_put_ne d m v h

/-! ## The canonical form -/

theorem wf_cons (d : Nat → α) (k : Nat) (v : α) (r : KMap α) :
    KMap.wf d ((k, v) :: r) = true ↔ v ≠ d k ∧ above k r ∧ KMap.wf d r = true := by
  induction r generalizing k v with
  | nil => simp [KMap.wf, above]
  | cons e r ih =>
    obtain ⟨j, w⟩ := e
    have hj := ih j w
    rw [KMap.wf]
    constructor
    · intro h
      simp only [Bool.and_eq_true, decide_eq_true_eq] at h
      refine ⟨h.1.1, ?_, h.2⟩
      have hr := (hj.mp h.2).2.1
      intro x hx
      rcases List.mem_cons.mp hx with rfl | hx
      · exact h.1.2
      · exact Nat.lt_trans h.1.2 (hr x hx)
    · rintro ⟨hv, ha, hw⟩
      simp only [Bool.and_eq_true, decide_eq_true_eq]
      exact ⟨⟨hv, ha (j, w) List.mem_cons_self⟩, hw⟩

theorem wf_drop (d : Nat → α) (m : KMap α) (k : Nat) (h : KMap.wf d m = true) : KMap.wf d (drop m k) = true := by
  induction m with
  | nil => rfl
  | cons e r ih =>
    obtain ⟨j, w⟩ := e
    obtain ⟨hv, ha, hr⟩ := (wf_cons d j w r).mp h
    simp only [drop]
    split
    · exact ih hr
    · exact (wf_cons d j w _).mpr ⟨hv, above_drop ha, ih hr⟩

theorem wf_place (d : Nat → α) (m : KMap α) (k : Nat) (v : α) (h : KMap.wf d m = true) (hv : v ≠ d k)
    (hk : ∀ e ∈ m, e.1 ≠ k) : KMap.wf d (place m k v) = true := by
  induction m with
  | nil => simp [place, KMap.wf, hv]
  | cons e r ih =>
    obtain ⟨j, w⟩ := e
    obtain ⟨hw, ha, hr⟩ := (wf_cons d j w r).mp h
    simp only [place]
    split
    · next hlt =>
      refine (wf_cons d k v _).mpr ⟨hv, ?_, h⟩
      intro x hx
      rcases List.mem_cons.mp hx with rfl | hx
      · exact hlt
      · exact Nat.lt_trans hlt (ha x hx)
    · next hge =>
      have hjk : j < k := Nat.lt_of_le_of_ne (Nat.le_of_not_lt hge) (hk (j, w) List.mem_cons_self)
      refine (wf_cons d j w _).mpr ⟨hw, ?_, ih hr (fun e he => hk e (List.mem_cons_of_mem _ he))⟩
      intro x hx
      rcases mem_place hx with rfl | hx
      · exact hjk
      · exact ha x hx

/-- A write keeps the canonical form. -/
theorem wf_put (d : Nat → α) (m : KMap α) (k : Nat) (v : α) (h : KMap.wf d m = true) :
    KMap.wf d (put d m k v) = true := by
  unfold put
  split
  · exact wf_drop d m k h
  · next hv => exact wf_place d _ k v (wf_drop d m k h) hv (fun e he => (mem_drop he).2)

end Sys2Proof.Machine
end

