-- ==== Sys2Proof/Laws/KeepsCore.lean ====
section
/-!
SUPPORT. Frame laws of the shared operations, resets, keys and pages: for each operation, the fields of the state it leaves as they are. The commands' own
frames and the invariants over a step are read off these.
-/

namespace Sys2Proof.Machine

/-! ## Folds and choices of steps that keep a field -/

@[simp] theorem foldl_keeps_pending {α : Type} (g : State → α → State) (l : List α) (s : State)
    (h : ∀ a x, (g a x).pending = a.pending) : (l.foldl g s).pending = s.pending := by
  induction l generalizing s with
  | nil => rfl
  | cons x r ih => rw [List.foldl_cons, ih, h]

@[simp] theorem foldr_keeps_pending {α : Type} (g : α → State → State) (l : List α) (s : State)
    (h : ∀ a x, (g x a).pending = a.pending) : (l.foldr g s).pending = s.pending := by
  induction l with
  | nil => rfl
  | cons x r ih => rw [List.foldr_cons, h, ih]

@[simp] theorem ite_pending (c : Prop) [Decidable c] (a b : State) :
    (if c then a else b).pending = if c then a.pending else b.pending := by split <;> rfl

@[simp] theorem foldl_keeps_fresh {α : Type} (g : State → α → State) (l : List α) (s : State)
    (h : ∀ a x, (g a x).fresh = a.fresh) : (l.foldl g s).fresh = s.fresh := by
  induction l generalizing s with
  | nil => rfl
  | cons x r ih => rw [List.foldl_cons, ih, h]

@[simp] theorem foldr_keeps_fresh {α : Type} (g : α → State → State) (l : List α) (s : State)
    (h : ∀ a x, (g x a).fresh = a.fresh) : (l.foldr g s).fresh = s.fresh := by
  induction l with
  | nil => rfl
  | cons x r ih => rw [List.foldr_cons, h, ih]

@[simp] theorem ite_fresh (c : Prop) [Decidable c] (a b : State) :
    (if c then a else b).fresh = if c then a.fresh else b.fresh := by split <;> rfl

@[simp] theorem foldl_keeps_now {α : Type} (g : State → α → State) (l : List α) (s : State)
    (h : ∀ a x, (g a x).now = a.now) : (l.foldl g s).now = s.now := by
  induction l generalizing s with
  | nil => rfl
  | cons x r ih => rw [List.foldl_cons, ih, h]

@[simp] theorem foldr_keeps_now {α : Type} (g : α → State → State) (l : List α) (s : State)
    (h : ∀ a x, (g x a).now = a.now) : (l.foldr g s).now = s.now := by
  induction l with
  | nil => rfl
  | cons x r ih => rw [List.foldr_cons, h, ih]

@[simp] theorem ite_now (c : Prop) [Decidable c] (a b : State) :
    (if c then a else b).now = if c then a.now else b.now := by split <;> rfl

@[simp] theorem foldl_keeps_outs {α : Type} (g : State → α → State) (l : List α) (s : State)
    (h : ∀ a x, (g a x).outs = a.outs) : (l.foldl g s).outs = s.outs := by
  induction l generalizing s with
  | nil => rfl
  | cons x r ih => rw [List.foldl_cons, ih, h]

@[simp] theorem foldr_keeps_outs {α : Type} (g : α → State → State) (l : List α) (s : State)
    (h : ∀ a x, (g x a).outs = a.outs) : (l.foldr g s).outs = s.outs := by
  induction l with
  | nil => rfl
  | cons x r ih => rw [List.foldr_cons, h, ih]

@[simp] theorem ite_outs (c : Prop) [Decidable c] (a b : State) :
    (if c then a else b).outs = if c then a.outs else b.outs := by split <;> rfl

@[simp] theorem foldl_keeps_pages {α : Type} (g : State → α → State) (l : List α) (s : State)
    (h : ∀ a x, (g a x).pages = a.pages) : (l.foldl g s).pages = s.pages := by
  induction l generalizing s with
  | nil => rfl
  | cons x r ih => rw [List.foldl_cons, ih, h]

@[simp] theorem foldr_keeps_pages {α : Type} (g : α → State → State) (l : List α) (s : State)
    (h : ∀ a x, (g x a).pages = a.pages) : (l.foldr g s).pages = s.pages := by
  induction l with
  | nil => rfl
  | cons x r ih => rw [List.foldr_cons, h, ih]

@[simp] theorem ite_pages (c : Prop) [Decidable c] (a b : State) :
    (if c then a else b).pages = if c then a.pages else b.pages := by split <;> rfl

@[simp] theorem foldl_keeps_pwr {α : Type} (g : State → α → State) (l : List α) (s : State)
    (h : ∀ a x, (g a x).pwr = a.pwr) : (l.foldl g s).pwr = s.pwr := by
  induction l generalizing s with
  | nil => rfl
  | cons x r ih => rw [List.foldl_cons, ih, h]

@[simp] theorem foldr_keeps_pwr {α : Type} (g : α → State → State) (l : List α) (s : State)
    (h : ∀ a x, (g x a).pwr = a.pwr) : (l.foldr g s).pwr = s.pwr := by
  induction l with
  | nil => rfl
  | cons x r ih => rw [List.foldr_cons, h, ih]

@[simp] theorem ite_pwr (c : Prop) [Decidable c] (a b : State) :
    (if c then a else b).pwr = if c then a.pwr else b.pwr := by split <;> rfl

@[simp] theorem foldl_keeps_arb {α : Type} (g : State → α → State) (l : List α) (s : State)
    (h : ∀ a x, (g a x).arb = a.arb) : (l.foldl g s).arb = s.arb := by
  induction l generalizing s with
  | nil => rfl
  | cons x r ih => rw [List.foldl_cons, ih, h]

@[simp] theorem foldr_keeps_arb {α : Type} (g : α → State → State) (l : List α) (s : State)
    (h : ∀ a x, (g x a).arb = a.arb) : (l.foldr g s).arb = s.arb := by
  induction l with
  | nil => rfl
  | cons x r ih => rw [List.foldr_cons, h, ih]

@[simp] theorem ite_arb (c : Prop) [Decidable c] (a b : State) :
    (if c then a else b).arb = if c then a.arb else b.arb := by split <;> rfl

@[simp] theorem foldl_keeps_halves {α : Type} (g : State → α → State) (l : List α) (s : State)
    (h : ∀ a x, (g a x).halves = a.halves) : (l.foldl g s).halves = s.halves := by
  induction l generalizing s with
  | nil => rfl
  | cons x r ih => rw [List.foldl_cons, ih, h]

@[simp] theorem foldr_keeps_halves {α : Type} (g : α → State → State) (l : List α) (s : State)
    (h : ∀ a x, (g x a).halves = a.halves) : (l.foldr g s).halves = s.halves := by
  induction l with
  | nil => rfl
  | cons x r ih => rw [List.foldr_cons, h, ih]

@[simp] theorem ite_halves (c : Prop) [Decidable c] (a b : State) :
    (if c then a else b).halves = if c then a.halves else b.halves := by split <;> rfl

@[simp] theorem foldl_keeps_parts {α : Type} (g : State → α → State) (l : List α) (s : State)
    (h : ∀ a x, (g a x).parts = a.parts) : (l.foldl g s).parts = s.parts := by
  induction l generalizing s with
  | nil => rfl
  | cons x r ih => rw [List.foldl_cons, ih, h]

@[simp] theorem foldr_keeps_parts {α : Type} (g : α → State → State) (l : List α) (s : State)
    (h : ∀ a x, (g x a).parts = a.parts) : (l.foldr g s).parts = s.parts := by
  induction l with
  | nil => rfl
  | cons x r ih => rw [List.foldr_cons, h, ih]

@[simp] theorem ite_parts (c : Prop) [Decidable c] (a b : State) :
    (if c then a else b).parts = if c then a.parts else b.parts := by split <;> rfl

@[simp] theorem foldl_keeps_bars {α : Type} (g : State → α → State) (l : List α) (s : State)
    (h : ∀ a x, (g a x).bars = a.bars) : (l.foldl g s).bars = s.bars := by
  induction l generalizing s with
  | nil => rfl
  | cons x r ih => rw [List.foldl_cons, ih, h]

@[simp] theorem foldr_keeps_bars {α : Type} (g : α → State → State) (l : List α) (s : State)
    (h : ∀ a x, (g x a).bars = a.bars) : (l.foldr g s).bars = s.bars := by
  induction l with
  | nil => rfl
  | cons x r ih => rw [List.foldr_cons, h, ih]

@[simp] theorem ite_bars (c : Prop) [Decidable c] (a b : State) :
    (if c then a else b).bars = if c then a.bars else b.bars := by split <;> rfl

@[simp] theorem foldl_keeps_ops {α : Type} (g : State → α → State) (l : List α) (s : State)
    (h : ∀ a x, (g a x).ops = a.ops) : (l.foldl g s).ops = s.ops := by
  induction l generalizing s with
  | nil => rfl
  | cons x r ih => rw [List.foldl_cons, ih, h]

@[simp] theorem foldr_keeps_ops {α : Type} (g : α → State → State) (l : List α) (s : State)
    (h : ∀ a x, (g x a).ops = a.ops) : (l.foldr g s).ops = s.ops := by
  induction l with
  | nil => rfl
  | cons x r ih => rw [List.foldr_cons, h, ih]

@[simp] theorem ite_ops (c : Prop) [Decidable c] (a b : State) :
    (if c then a else b).ops = if c then a.ops else b.ops := by split <;> rfl

@[simp] theorem foldl_keeps_ident {α : Type} (g : State → α → State) (l : List α) (s : State)
    (h : ∀ a x, (g a x).ident = a.ident) : (l.foldl g s).ident = s.ident := by
  induction l generalizing s with
  | nil => rfl
  | cons x r ih => rw [List.foldl_cons, ih, h]

@[simp] theorem foldr_keeps_ident {α : Type} (g : α → State → State) (l : List α) (s : State)
    (h : ∀ a x, (g x a).ident = a.ident) : (l.foldr g s).ident = s.ident := by
  induction l with
  | nil => rfl
  | cons x r ih => rw [List.foldr_cons, h, ih]

@[simp] theorem ite_ident (c : Prop) [Decidable c] (a b : State) :
    (if c then a else b).ident = if c then a.ident else b.ident := by split <;> rfl

@[simp] theorem foldl_keeps_models {α : Type} (g : State → α → State) (l : List α) (s : State)
    (h : ∀ a x, (g a x).models = a.models) : (l.foldl g s).models = s.models := by
  induction l generalizing s with
  | nil => rfl
  | cons x r ih => rw [List.foldl_cons, ih, h]

@[simp] theorem foldr_keeps_models {α : Type} (g : α → State → State) (l : List α) (s : State)
    (h : ∀ a x, (g x a).models = a.models) : (l.foldr g s).models = s.models := by
  induction l with
  | nil => rfl
  | cons x r ih => rw [List.foldr_cons, h, ih]

@[simp] theorem ite_models (c : Prop) [Decidable c] (a b : State) :
    (if c then a else b).models = if c then a.models else b.models := by split <;> rfl

@[simp] theorem foldl_keeps_caps {α : Type} (g : State → α → State) (l : List α) (s : State)
    (h : ∀ a x, (g a x).caps = a.caps) : (l.foldl g s).caps = s.caps := by
  induction l generalizing s with
  | nil => rfl
  | cons x r ih => rw [List.foldl_cons, ih, h]

@[simp] theorem foldr_keeps_caps {α : Type} (g : α → State → State) (l : List α) (s : State)
    (h : ∀ a x, (g x a).caps = a.caps) : (l.foldr g s).caps = s.caps := by
  induction l with
  | nil => rfl
  | cons x r ih => rw [List.foldr_cons, h, ih]

@[simp] theorem ite_caps (c : Prop) [Decidable c] (a b : State) :
    (if c then a else b).caps = if c then a.caps else b.caps := by split <;> rfl

@[simp] theorem foldl_keeps_jets {α : Type} (g : State → α → State) (l : List α) (s : State)
    (h : ∀ a x, (g a x).jets = a.jets) : (l.foldl g s).jets = s.jets := by
  induction l generalizing s with
  | nil => rfl
  | cons x r ih => rw [List.foldl_cons, ih, h]

@[simp] theorem foldr_keeps_jets {α : Type} (g : α → State → State) (l : List α) (s : State)
    (h : ∀ a x, (g x a).jets = a.jets) : (l.foldr g s).jets = s.jets := by
  induction l with
  | nil => rfl
  | cons x r ih => rw [List.foldr_cons, h, ih]

@[simp] theorem ite_jets (c : Prop) [Decidable c] (a b : State) :
    (if c then a else b).jets = if c then a.jets else b.jets := by split <;> rfl

@[simp] theorem foldl_keeps_lanes {α : Type} (g : State → α → State) (l : List α) (s : State)
    (h : ∀ a x, (g a x).lanes = a.lanes) : (l.foldl g s).lanes = s.lanes := by
  induction l generalizing s with
  | nil => rfl
  | cons x r ih => rw [List.foldl_cons, ih, h]

@[simp] theorem foldr_keeps_lanes {α : Type} (g : α → State → State) (l : List α) (s : State)
    (h : ∀ a x, (g x a).lanes = a.lanes) : (l.foldr g s).lanes = s.lanes := by
  induction l with
  | nil => rfl
  | cons x r ih => rw [List.foldr_cons, h, ih]

@[simp] theorem ite_lanes (c : Prop) [Decidable c] (a b : State) :
    (if c then a else b).lanes = if c then a.lanes else b.lanes := by split <;> rfl

@[simp] theorem foldl_keeps_ports {α : Type} (g : State → α → State) (l : List α) (s : State)
    (h : ∀ a x, (g a x).ports = a.ports) : (l.foldl g s).ports = s.ports := by
  induction l generalizing s with
  | nil => rfl
  | cons x r ih => rw [List.foldl_cons, ih, h]

@[simp] theorem foldr_keeps_ports {α : Type} (g : α → State → State) (l : List α) (s : State)
    (h : ∀ a x, (g x a).ports = a.ports) : (l.foldr g s).ports = s.ports := by
  induction l with
  | nil => rfl
  | cons x r ih => rw [List.foldr_cons, h, ih]

@[simp] theorem ite_ports (c : Prop) [Decidable c] (a b : State) :
    (if c then a else b).ports = if c then a.ports else b.ports := by split <;> rfl

@[simp] theorem foldl_keeps_ptp {α : Type} (g : State → α → State) (l : List α) (s : State)
    (h : ∀ a x, (g a x).ptp = a.ptp) : (l.foldl g s).ptp = s.ptp := by
  induction l generalizing s with
  | nil => rfl
  | cons x r ih => rw [List.foldl_cons, ih, h]

@[simp] theorem foldr_keeps_ptp {α : Type} (g : α → State → State) (l : List α) (s : State)
    (h : ∀ a x, (g x a).ptp = a.ptp) : (l.foldr g s).ptp = s.ptp := by
  induction l with
  | nil => rfl
  | cons x r ih => rw [List.foldr_cons, h, ih]

@[simp] theorem ite_ptp (c : Prop) [Decidable c] (a b : State) :
    (if c then a else b).ptp = if c then a.ptp else b.ptp := by split <;> rfl

@[simp] theorem foldl_keeps_ftn {α : Type} (g : State → α → State) (l : List α) (s : State)
    (h : ∀ a x, (g a x).ftn = a.ftn) : (l.foldl g s).ftn = s.ftn := by
  induction l generalizing s with
  | nil => rfl
  | cons x r ih => rw [List.foldl_cons, ih, h]

@[simp] theorem foldr_keeps_ftn {α : Type} (g : α → State → State) (l : List α) (s : State)
    (h : ∀ a x, (g x a).ftn = a.ftn) : (l.foldr g s).ftn = s.ftn := by
  induction l with
  | nil => rfl
  | cons x r ih => rw [List.foldr_cons, h, ih]

@[simp] theorem ite_ftn (c : Prop) [Decidable c] (a b : State) :
    (if c then a else b).ftn = if c then a.ftn else b.ftn := by split <;> rfl

@[simp] theorem foldl_keeps_keys {α : Type} (g : State → α → State) (l : List α) (s : State)
    (h : ∀ a x, (g a x).keys = a.keys) : (l.foldl g s).keys = s.keys := by
  induction l generalizing s with
  | nil => rfl
  | cons x r ih => rw [List.foldl_cons, ih, h]

@[simp] theorem foldr_keeps_keys {α : Type} (g : α → State → State) (l : List α) (s : State)
    (h : ∀ a x, (g x a).keys = a.keys) : (l.foldr g s).keys = s.keys := by
  induction l with
  | nil => rfl
  | cons x r ih => rw [List.foldr_cons, h, ih]

@[simp] theorem ite_keys (c : Prop) [Decidable c] (a b : State) :
    (if c then a else b).keys = if c then a.keys else b.keys := by split <;> rfl

@[simp] theorem foldl_keeps_flt {α : Type} (g : State → α → State) (l : List α) (s : State)
    (h : ∀ a x, (g a x).flt = a.flt) : (l.foldl g s).flt = s.flt := by
  induction l generalizing s with
  | nil => rfl
  | cons x r ih => rw [List.foldl_cons, ih, h]

@[simp] theorem foldr_keeps_flt {α : Type} (g : α → State → State) (l : List α) (s : State)
    (h : ∀ a x, (g x a).flt = a.flt) : (l.foldr g s).flt = s.flt := by
  induction l with
  | nil => rfl
  | cons x r ih => rw [List.foldr_cons, h, ih]

@[simp] theorem ite_flt (c : Prop) [Decidable c] (a b : State) :
    (if c then a else b).flt = if c then a.flt else b.flt := by split <;> rfl

@[simp] theorem foldl_keeps_mgt {α : Type} (g : State → α → State) (l : List α) (s : State)
    (h : ∀ a x, (g a x).mgt = a.mgt) : (l.foldl g s).mgt = s.mgt := by
  induction l generalizing s with
  | nil => rfl
  | cons x r ih => rw [List.foldl_cons, ih, h]

@[simp] theorem foldr_keeps_mgt {α : Type} (g : α → State → State) (l : List α) (s : State)
    (h : ∀ a x, (g x a).mgt = a.mgt) : (l.foldr g s).mgt = s.mgt := by
  induction l with
  | nil => rfl
  | cons x r ih => rw [List.foldr_cons, h, ih]

@[simp] theorem ite_mgt (c : Prop) [Decidable c] (a b : State) :
    (if c then a else b).mgt = if c then a.mgt else b.mgt := by split <;> rfl

@[simp] theorem foldl_keeps_cnt {α : Type} (g : State → α → State) (l : List α) (s : State)
    (h : ∀ a x, (g a x).cnt = a.cnt) : (l.foldl g s).cnt = s.cnt := by
  induction l generalizing s with
  | nil => rfl
  | cons x r ih => rw [List.foldl_cons, ih, h]

@[simp] theorem foldr_keeps_cnt {α : Type} (g : α → State → State) (l : List α) (s : State)
    (h : ∀ a x, (g x a).cnt = a.cnt) : (l.foldr g s).cnt = s.cnt := by
  induction l with
  | nil => rfl
  | cons x r ih => rw [List.foldr_cons, h, ih]

@[simp] theorem ite_cnt (c : Prop) [Decidable c] (a b : State) :
    (if c then a else b).cnt = if c then a.cnt else b.cnt := by split <;> rfl

@[simp] theorem foldl_keeps_keys_fuse {α : Type} (g : State → α → State) (l : List α) (s : State)
    (h : ∀ a x, (g a x).keys.fuse = a.keys.fuse) : (l.foldl g s).keys.fuse = s.keys.fuse := by
  induction l generalizing s with
  | nil => rfl
  | cons x r ih => rw [List.foldl_cons, ih, h]

@[simp] theorem foldr_keeps_keys_fuse {α : Type} (g : α → State → State) (l : List α) (s : State)
    (h : ∀ a x, (g x a).keys.fuse = a.keys.fuse) : (l.foldr g s).keys.fuse = s.keys.fuse := by
  induction l with
  | nil => rfl
  | cons x r ih => rw [List.foldr_cons, h, ih]

@[simp] theorem ite_keys_fuse (c : Prop) [Decidable c] (a b : State) :
    (if c then a else b).keys.fuse = if c then a.keys.fuse else b.keys.fuse := by split <;> rfl

@[simp] theorem ite_Keys_fuse (c : Prop) [Decidable c] (a b : Keys) :
    (if c then a else b).fuse = if c then a.fuse else b.fuse := by split <;> rfl

@[simp] theorem regOf_ite (c : Prop) [Decidable c] (m n : KMap Page) (q o : Nat) :
    regOf (if c then m else n) q o = if c then regOf m q o else regOf n q o := by split <;> rfl

@[simp] theorem foldl_keeps_regs {α : Type} (g : State → α → State) (l : List α) (s : State) (q o : Nat)
    (h : ∀ a x, regOf (g a x).pages q o = regOf a.pages q o) : regOf (l.foldl g s).pages q o = regOf s.pages q o := by
  induction l generalizing s with
  | nil => rfl
  | cons x r ih => rw [List.foldl_cons, ih, h]

@[simp] theorem foldr_keeps_regs {α : Type} (g : α → State → State) (l : List α) (s : State) (q o : Nat)
    (h : ∀ a x, regOf (g x a).pages q o = regOf a.pages q o) : regOf (l.foldr g s).pages q o = regOf s.pages q o := by
  induction l with
  | nil => rfl
  | cons x r ih => rw [List.foldr_cons, h, ih]

@[simp] theorem regOf_modPage (s : State) (pg : Nat) (f : Page → Page) (q o : Nat)
    (h : (f (s.page pg)).regs = (s.page pg).regs) : regOf (s.modPage pg f).pages q o = regOf s.pages q o := by
  by_cases hq : q = pg
  · subst hq
    simp only [regOf, State.modPage, State.setPage, look_put_self, h]; rfl
  · simp only [regOf, State.modPage, State.setPage, look_put_ne _ _ _ hq]

/-! ## Ops -/

@[simp] theorem keeps_setPage (s : State) (pg : Nat) (p : Page) :
    (State.setPage s pg p).pending = s.pending ∧ (State.setPage s pg p).fresh = s.fresh ∧
    (State.setPage s pg p).now = s.now ∧ (State.setPage s pg p).outs = s.outs ∧ (State.setPage s pg p).pwr = s.pwr ∧
    (State.setPage s pg p).arb = s.arb ∧ (State.setPage s pg p).halves = s.halves ∧
    (State.setPage s pg p).parts = s.parts ∧ (State.setPage s pg p).bars = s.bars ∧
    (State.setPage s pg p).ops = s.ops ∧ (State.setPage s pg p).ident = s.ident ∧
    (State.setPage s pg p).models = s.models ∧ (State.setPage s pg p).caps = s.caps ∧
    (State.setPage s pg p).jets = s.jets ∧ (State.setPage s pg p).lanes = s.lanes ∧
    (State.setPage s pg p).ports = s.ports ∧ (State.setPage s pg p).ptp = s.ptp ∧ (State.setPage s pg p).ftn = s.ftn ∧
    (State.setPage s pg p).keys = s.keys ∧ (State.setPage s pg p).flt = s.flt ∧ (State.setPage s pg p).mgt = s.mgt ∧
    (State.setPage s pg p).cnt = s.cnt := by
  simp [State.setPage]

@[simp] theorem keeps_modPage (s : State) (pg : Nat) (f : Page → Page) :
    (State.modPage s pg f).pending = s.pending ∧ (State.modPage s pg f).fresh = s.fresh ∧
    (State.modPage s pg f).now = s.now ∧ (State.modPage s pg f).outs = s.outs ∧ (State.modPage s pg f).pwr = s.pwr ∧
    (State.modPage s pg f).arb = s.arb ∧ (State.modPage s pg f).halves = s.halves ∧
    (State.modPage s pg f).parts = s.parts ∧ (State.modPage s pg f).bars = s.bars ∧
    (State.modPage s pg f).ops = s.ops ∧ (State.modPage s pg f).ident = s.ident ∧
    (State.modPage s pg f).models = s.models ∧ (State.modPage s pg f).caps = s.caps ∧
    (State.modPage s pg f).jets = s.jets ∧ (State.modPage s pg f).lanes = s.lanes ∧
    (State.modPage s pg f).ports = s.ports ∧ (State.modPage s pg f).ptp = s.ptp ∧ (State.modPage s pg f).ftn = s.ftn ∧
    (State.modPage s pg f).keys = s.keys ∧ (State.modPage s pg f).flt = s.flt ∧ (State.modPage s pg f).mgt = s.mgt ∧
    (State.modPage s pg f).cnt = s.cnt := by
  simp [State.modPage]

@[simp] theorem keeps_setReg (s : State) (pg off : Nat) (v : Word) :
    (State.setReg s pg off v).pending = s.pending ∧ (State.setReg s pg off v).fresh = s.fresh ∧
    (State.setReg s pg off v).now = s.now ∧ (State.setReg s pg off v).outs = s.outs ∧
    (State.setReg s pg off v).pwr = s.pwr ∧ (State.setReg s pg off v).arb = s.arb ∧
    (State.setReg s pg off v).halves = s.halves ∧ (State.setReg s pg off v).parts = s.parts ∧
    (State.setReg s pg off v).bars = s.bars ∧ (State.setReg s pg off v).ops = s.ops ∧
    (State.setReg s pg off v).ident = s.ident ∧ (State.setReg s pg off v).models = s.models ∧
    (State.setReg s pg off v).caps = s.caps ∧ (State.setReg s pg off v).jets = s.jets ∧
    (State.setReg s pg off v).lanes = s.lanes ∧ (State.setReg s pg off v).ports = s.ports ∧
    (State.setReg s pg off v).ptp = s.ptp ∧ (State.setReg s pg off v).ftn = s.ftn ∧
    (State.setReg s pg off v).keys = s.keys ∧ (State.setReg s pg off v).flt = s.flt ∧
    (State.setReg s pg off v).mgt = s.mgt ∧ (State.setReg s pg off v).cnt = s.cnt := by
  simp [State.setReg]

@[simp] theorem keeps_setWide (s : State) (pg off v : Nat) :
    (State.setWide s pg off v).pending = s.pending ∧ (State.setWide s pg off v).fresh = s.fresh ∧
    (State.setWide s pg off v).now = s.now ∧ (State.setWide s pg off v).outs = s.outs ∧
    (State.setWide s pg off v).pwr = s.pwr ∧ (State.setWide s pg off v).arb = s.arb ∧
    (State.setWide s pg off v).halves = s.halves ∧ (State.setWide s pg off v).parts = s.parts ∧
    (State.setWide s pg off v).bars = s.bars ∧ (State.setWide s pg off v).ops = s.ops ∧
    (State.setWide s pg off v).ident = s.ident ∧ (State.setWide s pg off v).models = s.models ∧
    (State.setWide s pg off v).caps = s.caps ∧ (State.setWide s pg off v).jets = s.jets ∧
    (State.setWide s pg off v).lanes = s.lanes ∧ (State.setWide s pg off v).ports = s.ports ∧
    (State.setWide s pg off v).ptp = s.ptp ∧ (State.setWide s pg off v).ftn = s.ftn ∧
    (State.setWide s pg off v).keys = s.keys ∧ (State.setWide s pg off v).flt = s.flt ∧
    (State.setWide s pg off v).mgt = s.mgt ∧ (State.setWide s pg off v).cnt = s.cnt := by
  simp [State.setWide]

@[simp] theorem keeps_emit (s : State) (o : Out) :
    (State.emit s o).pending = s.pending ∧ (State.emit s o).fresh = s.fresh ∧ (State.emit s o).now = s.now ∧
    (State.emit s o).pages = s.pages ∧ (State.emit s o).pwr = s.pwr ∧ (State.emit s o).arb = s.arb ∧
    (State.emit s o).halves = s.halves ∧ (State.emit s o).parts = s.parts ∧ (State.emit s o).bars = s.bars ∧
    (State.emit s o).ops = s.ops ∧ (State.emit s o).ident = s.ident ∧ (State.emit s o).models = s.models ∧
    (State.emit s o).caps = s.caps ∧ (State.emit s o).jets = s.jets ∧ (State.emit s o).lanes = s.lanes ∧
    (State.emit s o).ports = s.ports ∧ (State.emit s o).ptp = s.ptp ∧ (State.emit s o).ftn = s.ftn ∧
    (State.emit s o).keys = s.keys ∧ (State.emit s o).flt = s.flt ∧ (State.emit s o).mgt = s.mgt ∧
    (State.emit s o).cnt = s.cnt := by
  simp [State.emit]

@[simp] theorem keeps_draw (s : State) (n : Nat) :
    (State.draw s n).2.pending = s.pending ∧ (State.draw s n).2.now = s.now ∧ (State.draw s n).2.outs = s.outs ∧
    (State.draw s n).2.pages = s.pages ∧ (State.draw s n).2.pwr = s.pwr ∧ (State.draw s n).2.arb = s.arb ∧
    (State.draw s n).2.halves = s.halves ∧ (State.draw s n).2.parts = s.parts ∧ (State.draw s n).2.bars = s.bars ∧
    (State.draw s n).2.ops = s.ops ∧ (State.draw s n).2.ident = s.ident ∧ (State.draw s n).2.models = s.models ∧
    (State.draw s n).2.caps = s.caps ∧ (State.draw s n).2.jets = s.jets ∧ (State.draw s n).2.lanes = s.lanes ∧
    (State.draw s n).2.ports = s.ports ∧ (State.draw s n).2.ptp = s.ptp ∧ (State.draw s n).2.ftn = s.ftn ∧
    (State.draw s n).2.keys = s.keys ∧ (State.draw s n).2.flt = s.flt ∧ (State.draw s n).2.mgt = s.mgt ∧
    (State.draw s n).2.cnt = s.cnt := by
  simp [State.draw]

@[simp] theorem keeps_setHalf (s : State) (h : Half) (x : HalfSt) :
    (State.setHalf s h x).pending = s.pending ∧ (State.setHalf s h x).fresh = s.fresh ∧
    (State.setHalf s h x).now = s.now ∧ (State.setHalf s h x).outs = s.outs ∧ (State.setHalf s h x).pages = s.pages ∧
    (State.setHalf s h x).pwr = s.pwr ∧ (State.setHalf s h x).arb = s.arb ∧ (State.setHalf s h x).parts = s.parts ∧
    (State.setHalf s h x).bars = s.bars ∧ (State.setHalf s h x).ops = s.ops ∧ (State.setHalf s h x).ident = s.ident ∧
    (State.setHalf s h x).models = s.models ∧ (State.setHalf s h x).caps = s.caps ∧
    (State.setHalf s h x).jets = s.jets ∧ (State.setHalf s h x).lanes = s.lanes ∧
    (State.setHalf s h x).ports = s.ports ∧ (State.setHalf s h x).ptp = s.ptp ∧ (State.setHalf s h x).ftn = s.ftn ∧
    (State.setHalf s h x).keys = s.keys ∧ (State.setHalf s h x).flt = s.flt ∧ (State.setHalf s h x).mgt = s.mgt ∧
    (State.setHalf s h x).cnt = s.cnt := by
  simp [State.setHalf]

@[simp] theorem keeps_modHalf (s : State) (h : Half) (f : HalfSt → HalfSt) :
    (State.modHalf s h f).pending = s.pending ∧ (State.modHalf s h f).fresh = s.fresh ∧
    (State.modHalf s h f).now = s.now ∧ (State.modHalf s h f).outs = s.outs ∧ (State.modHalf s h f).pages = s.pages ∧
    (State.modHalf s h f).pwr = s.pwr ∧ (State.modHalf s h f).arb = s.arb ∧ (State.modHalf s h f).parts = s.parts ∧
    (State.modHalf s h f).bars = s.bars ∧ (State.modHalf s h f).ops = s.ops ∧ (State.modHalf s h f).ident = s.ident ∧
    (State.modHalf s h f).models = s.models ∧ (State.modHalf s h f).caps = s.caps ∧
    (State.modHalf s h f).jets = s.jets ∧ (State.modHalf s h f).lanes = s.lanes ∧
    (State.modHalf s h f).ports = s.ports ∧ (State.modHalf s h f).ptp = s.ptp ∧ (State.modHalf s h f).ftn = s.ftn ∧
    (State.modHalf s h f).keys = s.keys ∧ (State.modHalf s h f).flt = s.flt ∧ (State.modHalf s h f).mgt = s.mgt ∧
    (State.modHalf s h f).cnt = s.cnt := by
  simp [State.modHalf]

@[simp] theorem keeps_reachStep (s : State) (n : Nat) :
    (State.reachStep s n).pending = s.pending ∧ (State.reachStep s n).fresh = s.fresh ∧
    (State.reachStep s n).now = s.now ∧ (State.reachStep s n).outs = s.outs ∧ (State.reachStep s n).pages = s.pages ∧
    (State.reachStep s n).arb = s.arb ∧ (State.reachStep s n).halves = s.halves ∧
    (State.reachStep s n).parts = s.parts ∧ (State.reachStep s n).bars = s.bars ∧ (State.reachStep s n).ops = s.ops ∧
    (State.reachStep s n).ident = s.ident ∧ (State.reachStep s n).models = s.models ∧
    (State.reachStep s n).caps = s.caps ∧ (State.reachStep s n).jets = s.jets ∧
    (State.reachStep s n).lanes = s.lanes ∧ (State.reachStep s n).ports = s.ports ∧
    (State.reachStep s n).ptp = s.ptp ∧ (State.reachStep s n).ftn = s.ftn ∧ (State.reachStep s n).keys = s.keys ∧
    (State.reachStep s n).flt = s.flt ∧ (State.reachStep s n).mgt = s.mgt ∧ (State.reachStep s n).cnt = s.cnt := by
  simp [State.reachStep]

@[simp] theorem keeps_setCnt (s : State) (c : Nat) (v : Word) :
    (State.setCnt s c v).pending = s.pending ∧ (State.setCnt s c v).fresh = s.fresh ∧
    (State.setCnt s c v).now = s.now ∧ (State.setCnt s c v).outs = s.outs ∧ (State.setCnt s c v).pages = s.pages ∧
    (State.setCnt s c v).pwr = s.pwr ∧ (State.setCnt s c v).arb = s.arb ∧ (State.setCnt s c v).halves = s.halves ∧
    (State.setCnt s c v).parts = s.parts ∧ (State.setCnt s c v).bars = s.bars ∧ (State.setCnt s c v).ops = s.ops ∧
    (State.setCnt s c v).ident = s.ident ∧ (State.setCnt s c v).models = s.models ∧
    (State.setCnt s c v).caps = s.caps ∧ (State.setCnt s c v).jets = s.jets ∧ (State.setCnt s c v).lanes = s.lanes ∧
    (State.setCnt s c v).ports = s.ports ∧ (State.setCnt s c v).ptp = s.ptp ∧ (State.setCnt s c v).ftn = s.ftn ∧
    (State.setCnt s c v).keys = s.keys ∧ (State.setCnt s c v).flt = s.flt ∧ (State.setCnt s c v).mgt = s.mgt := by
  simp [State.setCnt]

@[simp] theorem keeps_count (s : State) (c n : Nat) :
    (State.count s c n).pending = s.pending ∧ (State.count s c n).fresh = s.fresh ∧ (State.count s c n).now = s.now ∧
    (State.count s c n).outs = s.outs ∧ (State.count s c n).pages = s.pages ∧ (State.count s c n).pwr = s.pwr ∧
    (State.count s c n).arb = s.arb ∧ (State.count s c n).halves = s.halves ∧ (State.count s c n).parts = s.parts ∧
    (State.count s c n).bars = s.bars ∧ (State.count s c n).ops = s.ops ∧ (State.count s c n).ident = s.ident ∧
    (State.count s c n).models = s.models ∧ (State.count s c n).caps = s.caps ∧ (State.count s c n).jets = s.jets ∧
    (State.count s c n).lanes = s.lanes ∧ (State.count s c n).ports = s.ports ∧ (State.count s c n).ptp = s.ptp ∧
    (State.count s c n).ftn = s.ftn ∧ (State.count s c n).keys = s.keys ∧ (State.count s c n).flt = s.flt ∧
    (State.count s c n).mgt = s.mgt := by
  simp [State.count]

@[simp] theorem keeps_setPart (s : State) (p : Part) (x : PartSt) :
    (State.setPart s p x).pending = s.pending ∧ (State.setPart s p x).fresh = s.fresh ∧
    (State.setPart s p x).now = s.now ∧ (State.setPart s p x).outs = s.outs ∧ (State.setPart s p x).pages = s.pages ∧
    (State.setPart s p x).pwr = s.pwr ∧ (State.setPart s p x).arb = s.arb ∧ (State.setPart s p x).halves = s.halves ∧
    (State.setPart s p x).bars = s.bars ∧ (State.setPart s p x).ops = s.ops ∧ (State.setPart s p x).ident = s.ident ∧
    (State.setPart s p x).models = s.models ∧ (State.setPart s p x).caps = s.caps ∧
    (State.setPart s p x).jets = s.jets ∧ (State.setPart s p x).lanes = s.lanes ∧
    (State.setPart s p x).ports = s.ports ∧ (State.setPart s p x).ptp = s.ptp ∧ (State.setPart s p x).ftn = s.ftn ∧
    (State.setPart s p x).keys = s.keys ∧ (State.setPart s p x).flt = s.flt ∧ (State.setPart s p x).mgt = s.mgt ∧
    (State.setPart s p x).cnt = s.cnt := by
  simp [State.setPart]

@[simp] theorem keeps_modPart (s : State) (p : Part) (f : PartSt → PartSt) :
    (State.modPart s p f).pending = s.pending ∧ (State.modPart s p f).fresh = s.fresh ∧
    (State.modPart s p f).now = s.now ∧ (State.modPart s p f).outs = s.outs ∧ (State.modPart s p f).pages = s.pages ∧
    (State.modPart s p f).pwr = s.pwr ∧ (State.modPart s p f).arb = s.arb ∧ (State.modPart s p f).halves = s.halves ∧
    (State.modPart s p f).bars = s.bars ∧ (State.modPart s p f).ops = s.ops ∧ (State.modPart s p f).ident = s.ident ∧
    (State.modPart s p f).models = s.models ∧ (State.modPart s p f).caps = s.caps ∧
    (State.modPart s p f).jets = s.jets ∧ (State.modPart s p f).lanes = s.lanes ∧
    (State.modPart s p f).ports = s.ports ∧ (State.modPart s p f).ptp = s.ptp ∧ (State.modPart s p f).ftn = s.ftn ∧
    (State.modPart s p f).keys = s.keys ∧ (State.modPart s p f).flt = s.flt ∧ (State.modPart s p f).mgt = s.mgt ∧
    (State.modPart s p f).cnt = s.cnt := by
  simp [State.modPart]

@[simp] theorem keeps_modQueue (s : State) (p : Part) (q : QNo) (f : Queue → Queue) :
    (State.modQueue s p q f).pending = s.pending ∧ (State.modQueue s p q f).fresh = s.fresh ∧
    (State.modQueue s p q f).now = s.now ∧ (State.modQueue s p q f).outs = s.outs ∧
    (State.modQueue s p q f).pages = s.pages ∧ (State.modQueue s p q f).pwr = s.pwr ∧
    (State.modQueue s p q f).arb = s.arb ∧ (State.modQueue s p q f).halves = s.halves ∧
    (State.modQueue s p q f).bars = s.bars ∧ (State.modQueue s p q f).ops = s.ops ∧
    (State.modQueue s p q f).ident = s.ident ∧ (State.modQueue s p q f).models = s.models ∧
    (State.modQueue s p q f).caps = s.caps ∧ (State.modQueue s p q f).jets = s.jets ∧
    (State.modQueue s p q f).lanes = s.lanes ∧ (State.modQueue s p q f).ports = s.ports ∧
    (State.modQueue s p q f).ptp = s.ptp ∧ (State.modQueue s p q f).ftn = s.ftn ∧
    (State.modQueue s p q f).keys = s.keys ∧ (State.modQueue s p q f).flt = s.flt ∧
    (State.modQueue s p q f).mgt = s.mgt ∧ (State.modQueue s p q f).cnt = s.cnt := by
  simp [State.modQueue]

@[simp] theorem keeps_modBar (s : State) (p : Part) (f : BarSt → BarSt) :
    (State.modBar s p f).pending = s.pending ∧ (State.modBar s p f).fresh = s.fresh ∧
    (State.modBar s p f).now = s.now ∧ (State.modBar s p f).outs = s.outs ∧ (State.modBar s p f).pages = s.pages ∧
    (State.modBar s p f).pwr = s.pwr ∧ (State.modBar s p f).arb = s.arb ∧ (State.modBar s p f).halves = s.halves ∧
    (State.modBar s p f).parts = s.parts ∧ (State.modBar s p f).ops = s.ops ∧ (State.modBar s p f).ident = s.ident ∧
    (State.modBar s p f).models = s.models ∧ (State.modBar s p f).caps = s.caps ∧ (State.modBar s p f).jets = s.jets ∧
    (State.modBar s p f).lanes = s.lanes ∧ (State.modBar s p f).ports = s.ports ∧ (State.modBar s p f).ptp = s.ptp ∧
    (State.modBar s p f).ftn = s.ftn ∧ (State.modBar s p f).keys = s.keys ∧ (State.modBar s p f).flt = s.flt ∧
    (State.modBar s p f).mgt = s.mgt ∧ (State.modBar s p f).cnt = s.cnt := by
  simp [State.modBar]

@[simp] theorem keeps_msix (s : State) (p : Part) (v : Nat) :
    (State.msix s p v).pending = s.pending ∧ (State.msix s p v).fresh = s.fresh ∧ (State.msix s p v).now = s.now ∧
    (State.msix s p v).pages = s.pages ∧ (State.msix s p v).pwr = s.pwr ∧ (State.msix s p v).arb = s.arb ∧
    (State.msix s p v).halves = s.halves ∧ (State.msix s p v).parts = s.parts ∧ (State.msix s p v).ops = s.ops ∧
    (State.msix s p v).ident = s.ident ∧ (State.msix s p v).models = s.models ∧ (State.msix s p v).caps = s.caps ∧
    (State.msix s p v).jets = s.jets ∧ (State.msix s p v).lanes = s.lanes ∧ (State.msix s p v).ports = s.ports ∧
    (State.msix s p v).ptp = s.ptp ∧ (State.msix s p v).ftn = s.ftn ∧ (State.msix s p v).keys = s.keys ∧
    (State.msix s p v).flt = s.flt ∧ (State.msix s p v).mgt = s.mgt := by
  simp [State.msix]

@[simp] theorem keeps_setBarWord (s : State) (p : Part) (w : Nat) (v : Word) :
    (State.setBarWord s p w v).pending = s.pending ∧ (State.setBarWord s p w v).fresh = s.fresh ∧
    (State.setBarWord s p w v).now = s.now ∧ (State.setBarWord s p w v).pages = s.pages ∧
    (State.setBarWord s p w v).pwr = s.pwr ∧ (State.setBarWord s p w v).arb = s.arb ∧
    (State.setBarWord s p w v).halves = s.halves ∧ (State.setBarWord s p w v).parts = s.parts ∧
    (State.setBarWord s p w v).ops = s.ops ∧ (State.setBarWord s p w v).ident = s.ident ∧
    (State.setBarWord s p w v).models = s.models ∧ (State.setBarWord s p w v).caps = s.caps ∧
    (State.setBarWord s p w v).jets = s.jets ∧ (State.setBarWord s p w v).lanes = s.lanes ∧
    (State.setBarWord s p w v).ports = s.ports ∧ (State.setBarWord s p w v).ptp = s.ptp ∧
    (State.setBarWord s p w v).ftn = s.ftn ∧ (State.setBarWord s p w v).keys = s.keys ∧
    (State.setBarWord s p w v).flt = s.flt ∧ (State.setBarWord s p w v).mgt = s.mgt := by
  simp [State.setBarWord]

@[simp] theorem keeps_irqPage (s : State) (pg : Nat) :
    (State.irqPage s pg).pending = s.pending ∧ (State.irqPage s pg).fresh = s.fresh ∧
    (State.irqPage s pg).now = s.now ∧ (State.irqPage s pg).pages = s.pages ∧ (State.irqPage s pg).pwr = s.pwr ∧
    (State.irqPage s pg).arb = s.arb ∧ (State.irqPage s pg).halves = s.halves ∧ (State.irqPage s pg).parts = s.parts ∧
    (State.irqPage s pg).ops = s.ops ∧ (State.irqPage s pg).ident = s.ident ∧ (State.irqPage s pg).models = s.models ∧
    (State.irqPage s pg).caps = s.caps ∧ (State.irqPage s pg).jets = s.jets ∧ (State.irqPage s pg).lanes = s.lanes ∧
    (State.irqPage s pg).ports = s.ports ∧ (State.irqPage s pg).ptp = s.ptp ∧ (State.irqPage s pg).ftn = s.ftn ∧
    (State.irqPage s pg).keys = s.keys ∧ (State.irqPage s pg).flt = s.flt ∧ (State.irqPage s pg).mgt = s.mgt := by
  unfold State.irqPage; (repeat' split) <;> simp

@[simp] theorem keeps_setEvt (s : State) (pg b : Nat) :
    (State.setEvt s pg b).pending = s.pending ∧ (State.setEvt s pg b).fresh = s.fresh ∧
    (State.setEvt s pg b).now = s.now ∧ (State.setEvt s pg b).pwr = s.pwr ∧ (State.setEvt s pg b).arb = s.arb ∧
    (State.setEvt s pg b).halves = s.halves ∧ (State.setEvt s pg b).parts = s.parts ∧
    (State.setEvt s pg b).ops = s.ops ∧ (State.setEvt s pg b).ident = s.ident ∧
    (State.setEvt s pg b).models = s.models ∧ (State.setEvt s pg b).caps = s.caps ∧
    (State.setEvt s pg b).jets = s.jets ∧ (State.setEvt s pg b).lanes = s.lanes ∧
    (State.setEvt s pg b).ports = s.ports ∧ (State.setEvt s pg b).ptp = s.ptp ∧ (State.setEvt s pg b).ftn = s.ftn ∧
    (State.setEvt s pg b).keys = s.keys ∧ (State.setEvt s pg b).flt = s.flt ∧ (State.setEvt s pg b).mgt = s.mgt ∧
    (∀ rp ro, regOf (State.setEvt s pg b).pages rp ro = regOf s.pages rp ro) := by
  simp [State.setEvt]

@[simp] theorem keeps_evtIf (s : State) (c : Bool) (pg b : Nat) :
    (State.evtIf s c pg b).pending = s.pending ∧ (State.evtIf s c pg b).fresh = s.fresh ∧
    (State.evtIf s c pg b).now = s.now ∧ (State.evtIf s c pg b).pwr = s.pwr ∧ (State.evtIf s c pg b).arb = s.arb ∧
    (State.evtIf s c pg b).halves = s.halves ∧ (State.evtIf s c pg b).parts = s.parts ∧
    (State.evtIf s c pg b).ops = s.ops ∧ (State.evtIf s c pg b).ident = s.ident ∧
    (State.evtIf s c pg b).models = s.models ∧ (State.evtIf s c pg b).caps = s.caps ∧
    (State.evtIf s c pg b).jets = s.jets ∧ (State.evtIf s c pg b).lanes = s.lanes ∧
    (State.evtIf s c pg b).ports = s.ports ∧ (State.evtIf s c pg b).ptp = s.ptp ∧ (State.evtIf s c pg b).ftn = s.ftn ∧
    (State.evtIf s c pg b).keys = s.keys ∧ (State.evtIf s c pg b).flt = s.flt ∧ (State.evtIf s c pg b).mgt = s.mgt ∧
    (∀ rp ro, regOf (State.evtIf s c pg b).pages rp ro = regOf s.pages rp ro) := by
  simp [State.evtIf]

@[simp] theorem keeps_setUnit (s : State) (src : Nat) (det : Byte) (u : TestUnit) :
    (State.setUnit s src det u).pending = s.pending ∧ (State.setUnit s src det u).fresh = s.fresh ∧
    (State.setUnit s src det u).now = s.now ∧ (State.setUnit s src det u).outs = s.outs ∧
    (State.setUnit s src det u).pages = s.pages ∧ (State.setUnit s src det u).pwr = s.pwr ∧
    (State.setUnit s src det u).arb = s.arb ∧ (State.setUnit s src det u).halves = s.halves ∧
    (State.setUnit s src det u).parts = s.parts ∧ (State.setUnit s src det u).bars = s.bars ∧
    (State.setUnit s src det u).ops = s.ops ∧ (State.setUnit s src det u).ident = s.ident ∧
    (State.setUnit s src det u).models = s.models ∧ (State.setUnit s src det u).caps = s.caps ∧
    (State.setUnit s src det u).jets = s.jets ∧ (State.setUnit s src det u).lanes = s.lanes ∧
    (State.setUnit s src det u).ports = s.ports ∧ (State.setUnit s src det u).ptp = s.ptp ∧
    (State.setUnit s src det u).ftn = s.ftn ∧ (State.setUnit s src det u).keys = s.keys ∧
    (State.setUnit s src det u).mgt = s.mgt ∧ (State.setUnit s src det u).cnt = s.cnt := by
  simp [State.setUnit]

@[simp] theorem keeps_startTest (s : State) (src : Nat) (det : Byte) (ident : Nat) :
    (State.startTest s src det ident).pending = s.pending ∧ (State.startTest s src det ident).fresh = s.fresh ∧
    (State.startTest s src det ident).now = s.now ∧ (State.startTest s src det ident).outs = s.outs ∧
    (State.startTest s src det ident).pages = s.pages ∧ (State.startTest s src det ident).pwr = s.pwr ∧
    (State.startTest s src det ident).arb = s.arb ∧ (State.startTest s src det ident).halves = s.halves ∧
    (State.startTest s src det ident).parts = s.parts ∧ (State.startTest s src det ident).bars = s.bars ∧
    (State.startTest s src det ident).ops = s.ops ∧ (State.startTest s src det ident).ident = s.ident ∧
    (State.startTest s src det ident).models = s.models ∧ (State.startTest s src det ident).caps = s.caps ∧
    (State.startTest s src det ident).jets = s.jets ∧ (State.startTest s src det ident).lanes = s.lanes ∧
    (State.startTest s src det ident).ports = s.ports ∧ (State.startTest s src det ident).ptp = s.ptp ∧
    (State.startTest s src det ident).ftn = s.ftn ∧ (State.startTest s src det ident).keys = s.keys ∧
    (State.startTest s src det ident).mgt = s.mgt := by
  simp [State.startTest]

@[simp] theorem keeps_enqueueMsg (s : State) (m : Msg) :
    (State.enqueueMsg s m).pending = s.pending ∧ (State.enqueueMsg s m).fresh = s.fresh ∧
    (State.enqueueMsg s m).now = s.now ∧ (State.enqueueMsg s m).outs = s.outs ∧
    (State.enqueueMsg s m).pages = s.pages ∧ (State.enqueueMsg s m).pwr = s.pwr ∧ (State.enqueueMsg s m).arb = s.arb ∧
    (State.enqueueMsg s m).halves = s.halves ∧ (State.enqueueMsg s m).parts = s.parts ∧
    (State.enqueueMsg s m).bars = s.bars ∧ (State.enqueueMsg s m).ops = s.ops ∧
    (State.enqueueMsg s m).ident = s.ident ∧ (State.enqueueMsg s m).models = s.models ∧
    (State.enqueueMsg s m).caps = s.caps ∧ (State.enqueueMsg s m).jets = s.jets ∧
    (State.enqueueMsg s m).lanes = s.lanes ∧ (State.enqueueMsg s m).ports = s.ports ∧
    (State.enqueueMsg s m).ptp = s.ptp ∧ (State.enqueueMsg s m).ftn = s.ftn ∧ (State.enqueueMsg s m).keys = s.keys ∧
    (State.enqueueMsg s m).mgt = s.mgt ∧ (State.enqueueMsg s m).cnt = s.cnt := by
  simp [State.enqueueMsg]

@[simp] theorem keeps_countSent (s : State) (place : Nat) :
    (State.countSent s place).pending = s.pending ∧ (State.countSent s place).fresh = s.fresh ∧
    (State.countSent s place).now = s.now ∧ (State.countSent s place).outs = s.outs ∧
    (State.countSent s place).pages = s.pages ∧ (State.countSent s place).pwr = s.pwr ∧
    (State.countSent s place).arb = s.arb ∧ (State.countSent s place).halves = s.halves ∧
    (State.countSent s place).parts = s.parts ∧ (State.countSent s place).bars = s.bars ∧
    (State.countSent s place).ops = s.ops ∧ (State.countSent s place).ident = s.ident ∧
    (State.countSent s place).models = s.models ∧ (State.countSent s place).caps = s.caps ∧
    (State.countSent s place).jets = s.jets ∧ (State.countSent s place).lanes = s.lanes ∧
    (State.countSent s place).ports = s.ports ∧ (State.countSent s place).ptp = s.ptp ∧
    (State.countSent s place).ftn = s.ftn ∧ (State.countSent s place).keys = s.keys ∧
    (State.countSent s place).flt = s.flt ∧ (State.countSent s place).mgt = s.mgt := by
  simp [State.countSent]

@[simp] theorem keeps_fault (s : State) (place pg kind sev : Nat) (det : Byte) (loc : BitVec 24) :
    (State.fault s place pg kind sev det loc).pending = s.pending ∧
    (State.fault s place pg kind sev det loc).fresh = s.fresh ∧
    (State.fault s place pg kind sev det loc).now = s.now ∧ (State.fault s place pg kind sev det loc).outs = s.outs ∧
    (State.fault s place pg kind sev det loc).pwr = s.pwr ∧ (State.fault s place pg kind sev det loc).arb = s.arb ∧
    (State.fault s place pg kind sev det loc).halves = s.halves ∧
    (State.fault s place pg kind sev det loc).parts = s.parts ∧
    (State.fault s place pg kind sev det loc).bars = s.bars ∧ (State.fault s place pg kind sev det loc).ops = s.ops ∧
    (State.fault s place pg kind sev det loc).models = s.models ∧
    (State.fault s place pg kind sev det loc).caps = s.caps ∧
    (State.fault s place pg kind sev det loc).jets = s.jets ∧
    (State.fault s place pg kind sev det loc).lanes = s.lanes ∧
    (State.fault s place pg kind sev det loc).ports = s.ports ∧
    (State.fault s place pg kind sev det loc).ptp = s.ptp ∧ (State.fault s place pg kind sev det loc).ftn = s.ftn ∧
    (State.fault s place pg kind sev det loc).keys = s.keys ∧ (State.fault s place pg kind sev det loc).mgt = s.mgt ∧
    (∀ rp ro, regOf (State.fault s place pg kind sev det loc).pages rp ro = regOf s.pages rp ro) := by
  simp [State.fault]

@[simp] theorem keeps_testFailed (s : State) (place pg : Nat) :
    (State.testFailed s place pg).pending = s.pending ∧ (State.testFailed s place pg).fresh = s.fresh ∧
    (State.testFailed s place pg).now = s.now ∧ (State.testFailed s place pg).outs = s.outs ∧
    (State.testFailed s place pg).pages = s.pages ∧ (State.testFailed s place pg).pwr = s.pwr ∧
    (State.testFailed s place pg).arb = s.arb ∧ (State.testFailed s place pg).halves = s.halves ∧
    (State.testFailed s place pg).parts = s.parts ∧ (State.testFailed s place pg).bars = s.bars ∧
    (State.testFailed s place pg).ops = s.ops ∧ (State.testFailed s place pg).models = s.models ∧
    (State.testFailed s place pg).caps = s.caps ∧ (State.testFailed s place pg).jets = s.jets ∧
    (State.testFailed s place pg).lanes = s.lanes ∧ (State.testFailed s place pg).ports = s.ports ∧
    (State.testFailed s place pg).ptp = s.ptp ∧ (State.testFailed s place pg).ftn = s.ftn ∧
    (State.testFailed s place pg).keys = s.keys ∧ (State.testFailed s place pg).mgt = s.mgt := by
  simp [State.testFailed]

@[simp] theorem keeps_recovery (s : State) (place pg level : Nat) (ofIdent : Nat) :
    (State.recovery s place pg level ofIdent).pending = s.pending ∧
    (State.recovery s place pg level ofIdent).fresh = s.fresh ∧
    (State.recovery s place pg level ofIdent).now = s.now ∧ (State.recovery s place pg level ofIdent).outs = s.outs ∧
    (State.recovery s place pg level ofIdent).pages = s.pages ∧
    (State.recovery s place pg level ofIdent).pwr = s.pwr ∧ (State.recovery s place pg level ofIdent).arb = s.arb ∧
    (State.recovery s place pg level ofIdent).halves = s.halves ∧
    (State.recovery s place pg level ofIdent).parts = s.parts ∧
    (State.recovery s place pg level ofIdent).bars = s.bars ∧ (State.recovery s place pg level ofIdent).ops = s.ops ∧
    (State.recovery s place pg level ofIdent).models = s.models ∧
    (State.recovery s place pg level ofIdent).caps = s.caps ∧
    (State.recovery s place pg level ofIdent).jets = s.jets ∧
    (State.recovery s place pg level ofIdent).lanes = s.lanes ∧
    (State.recovery s place pg level ofIdent).ports = s.ports ∧
    (State.recovery s place pg level ofIdent).ptp = s.ptp ∧ (State.recovery s place pg level ofIdent).ftn = s.ftn ∧
    (State.recovery s place pg level ofIdent).keys = s.keys ∧ (State.recovery s place pg level ofIdent).mgt = s.mgt := by
  simp [State.recovery]

@[simp] theorem keeps_storeRec (s : State) (r : LogRec) :
    (State.storeRec s r).pending = s.pending ∧ (State.storeRec s r).fresh = s.fresh ∧
    (State.storeRec s r).now = s.now ∧ (State.storeRec s r).outs = s.outs ∧ (State.storeRec s r).pages = s.pages ∧
    (State.storeRec s r).pwr = s.pwr ∧ (State.storeRec s r).arb = s.arb ∧ (State.storeRec s r).halves = s.halves ∧
    (State.storeRec s r).parts = s.parts ∧ (State.storeRec s r).bars = s.bars ∧ (State.storeRec s r).ops = s.ops ∧
    (State.storeRec s r).ident = s.ident ∧ (State.storeRec s r).models = s.models ∧
    (State.storeRec s r).caps = s.caps ∧ (State.storeRec s r).jets = s.jets ∧ (State.storeRec s r).lanes = s.lanes ∧
    (State.storeRec s r).ports = s.ports ∧ (State.storeRec s r).ptp = s.ptp ∧ (State.storeRec s r).ftn = s.ftn ∧
    (State.storeRec s r).keys = s.keys ∧ (State.storeRec s r).flt = s.flt := by
  simp [State.storeRec]

@[simp] theorem keeps_logRec (s : State) (typ : Nat) (data : Nat) (inj : Bool) :
    (State.logRec s typ data inj).pending = s.pending ∧ (State.logRec s typ data inj).fresh = s.fresh ∧
    (State.logRec s typ data inj).now = s.now ∧ (State.logRec s typ data inj).pwr = s.pwr ∧
    (State.logRec s typ data inj).arb = s.arb ∧ (State.logRec s typ data inj).halves = s.halves ∧
    (State.logRec s typ data inj).parts = s.parts ∧ (State.logRec s typ data inj).ops = s.ops ∧
    (State.logRec s typ data inj).ident = s.ident ∧ (State.logRec s typ data inj).models = s.models ∧
    (State.logRec s typ data inj).caps = s.caps ∧ (State.logRec s typ data inj).jets = s.jets ∧
    (State.logRec s typ data inj).lanes = s.lanes ∧ (State.logRec s typ data inj).ports = s.ports ∧
    (State.logRec s typ data inj).ptp = s.ptp ∧ (State.logRec s typ data inj).ftn = s.ftn ∧
    (State.logRec s typ data inj).keys = s.keys ∧ (State.logRec s typ data inj).flt = s.flt ∧
    (∀ rp ro, regOf (State.logRec s typ data inj).pages rp ro = regOf s.pages rp ro) := by
  simp [State.logRec]

@[simp] theorem keeps_setOp (s : State) (t : Tag) (o : Option Op) :
    (State.setOp s t o).pending = s.pending ∧ (State.setOp s t o).fresh = s.fresh ∧ (State.setOp s t o).now = s.now ∧
    (State.setOp s t o).outs = s.outs ∧ (State.setOp s t o).pages = s.pages ∧ (State.setOp s t o).pwr = s.pwr ∧
    (State.setOp s t o).arb = s.arb ∧ (State.setOp s t o).halves = s.halves ∧ (State.setOp s t o).parts = s.parts ∧
    (State.setOp s t o).bars = s.bars ∧ (State.setOp s t o).ident = s.ident ∧ (State.setOp s t o).models = s.models ∧
    (State.setOp s t o).caps = s.caps ∧ (State.setOp s t o).jets = s.jets ∧ (State.setOp s t o).lanes = s.lanes ∧
    (State.setOp s t o).ports = s.ports ∧ (State.setOp s t o).ptp = s.ptp ∧ (State.setOp s t o).ftn = s.ftn ∧
    (State.setOp s t o).keys = s.keys ∧ (State.setOp s t o).flt = s.flt ∧ (State.setOp s t o).mgt = s.mgt ∧
    (State.setOp s t o).cnt = s.cnt := by
  simp [State.setOp]

@[simp] theorem keeps_served (s : State) (o : Op) :
    (State.served s o).pending = s.pending ∧ (State.served s o).fresh = s.fresh ∧ (State.served s o).now = s.now ∧
    (State.served s o).outs = s.outs ∧ (State.served s o).pwr = s.pwr ∧ (State.served s o).arb = s.arb ∧
    (State.served s o).halves = s.halves ∧ (State.served s o).parts = s.parts ∧ (State.served s o).bars = s.bars ∧
    (State.served s o).ops = s.ops ∧ (State.served s o).ident = s.ident ∧ (State.served s o).models = s.models ∧
    (State.served s o).caps = s.caps ∧ (State.served s o).jets = s.jets ∧ (State.served s o).lanes = s.lanes ∧
    (State.served s o).ports = s.ports ∧ (State.served s o).ptp = s.ptp ∧ (State.served s o).ftn = s.ftn ∧
    (State.served s o).keys = s.keys ∧ (State.served s o).flt = s.flt ∧ (State.served s o).mgt = s.mgt ∧
    (State.served s o).cnt = s.cnt ∧ (∀ rp ro, regOf (State.served s o).pages rp ro = regOf s.pages rp ro) := by
  simp [State.served]

@[simp] theorem keeps_finish (s : State) (t : Tag) (st : Byte) (res : Vector Word 6) :
    (State.finish s t st res).pending = s.pending ∧ (State.finish s t st res).fresh = s.fresh ∧
    (State.finish s t st res).now = s.now ∧ (State.finish s t st res).pwr = s.pwr ∧
    (State.finish s t st res).arb = s.arb ∧ (State.finish s t st res).halves = s.halves ∧
    (State.finish s t st res).ident = s.ident ∧ (State.finish s t st res).models = s.models ∧
    (State.finish s t st res).caps = s.caps ∧ (State.finish s t st res).jets = s.jets ∧
    (State.finish s t st res).lanes = s.lanes ∧ (State.finish s t st res).ports = s.ports ∧
    (State.finish s t st res).ptp = s.ptp ∧ (State.finish s t st res).ftn = s.ftn ∧
    (State.finish s t st res).keys = s.keys ∧ (State.finish s t st res).flt = s.flt ∧
    (State.finish s t st res).mgt = s.mgt ∧
    (∀ rp ro, regOf (State.finish s t st res).pages rp ro = regOf s.pages rp ro) := by
  unfold State.finish; (repeat' split) <;> simp

@[simp] theorem keeps_phase (s : State) (t : Tag) (ph : OpPhase) :
    (State.phase s t ph).pending = s.pending ∧ (State.phase s t ph).fresh = s.fresh ∧
    (State.phase s t ph).now = s.now ∧ (State.phase s t ph).outs = s.outs ∧ (State.phase s t ph).pages = s.pages ∧
    (State.phase s t ph).pwr = s.pwr ∧ (State.phase s t ph).arb = s.arb ∧ (State.phase s t ph).halves = s.halves ∧
    (State.phase s t ph).parts = s.parts ∧ (State.phase s t ph).bars = s.bars ∧ (State.phase s t ph).ident = s.ident ∧
    (State.phase s t ph).models = s.models ∧ (State.phase s t ph).caps = s.caps ∧ (State.phase s t ph).jets = s.jets ∧
    (State.phase s t ph).lanes = s.lanes ∧ (State.phase s t ph).ports = s.ports ∧ (State.phase s t ph).ptp = s.ptp ∧
    (State.phase s t ph).ftn = s.ftn ∧ (State.phase s t ph).keys = s.keys ∧ (State.phase s t ph).flt = s.flt ∧
    (State.phase s t ph).mgt = s.mgt ∧ (State.phase s t ph).cnt = s.cnt := by
  unfold State.phase; (repeat' split) <;> simp

@[simp] theorem keeps_disarmTag (s : State) (t : Tag) :
    (State.disarmTag s t).pending = s.pending ∧ (State.disarmTag s t).fresh = s.fresh ∧
    (State.disarmTag s t).now = s.now ∧ (State.disarmTag s t).outs = s.outs ∧ (State.disarmTag s t).pages = s.pages ∧
    (State.disarmTag s t).pwr = s.pwr ∧ (State.disarmTag s t).arb = s.arb ∧ (State.disarmTag s t).halves = s.halves ∧
    (State.disarmTag s t).parts = s.parts ∧ (State.disarmTag s t).bars = s.bars ∧ (State.disarmTag s t).ops = s.ops ∧
    (State.disarmTag s t).ident = s.ident ∧ (State.disarmTag s t).models = s.models ∧
    (State.disarmTag s t).jets = s.jets ∧ (State.disarmTag s t).lanes = s.lanes ∧
    (State.disarmTag s t).ports = s.ports ∧ (State.disarmTag s t).ptp = s.ptp ∧ (State.disarmTag s t).ftn = s.ftn ∧
    (State.disarmTag s t).keys = s.keys ∧ (State.disarmTag s t).flt = s.flt ∧ (State.disarmTag s t).mgt = s.mgt ∧
    (State.disarmTag s t).cnt = s.cnt := by
  simp [State.disarmTag]

@[simp] theorem keeps_abortOps (s : State) (p : Op → Bool) (st : Byte) :
    (State.abortOps s p st).pending = s.pending ∧ (State.abortOps s p st).fresh = s.fresh ∧
    (State.abortOps s p st).now = s.now ∧ (State.abortOps s p st).pwr = s.pwr ∧ (State.abortOps s p st).arb = s.arb ∧
    (State.abortOps s p st).halves = s.halves ∧ (State.abortOps s p st).ident = s.ident ∧
    (State.abortOps s p st).models = s.models ∧ (State.abortOps s p st).jets = s.jets ∧
    (State.abortOps s p st).lanes = s.lanes ∧ (State.abortOps s p st).ports = s.ports ∧
    (State.abortOps s p st).ptp = s.ptp ∧ (State.abortOps s p st).ftn = s.ftn ∧
    (State.abortOps s p st).keys = s.keys ∧ (State.abortOps s p st).flt = s.flt ∧
    (State.abortOps s p st).mgt = s.mgt ∧ (∀ rp ro, regOf (State.abortOps s p st).pages rp ro = regOf s.pages rp ro) := by
  simp [State.abortOps]

@[simp] theorem keeps_modPort (s : State) (p : PortNo) (f : PortSt → PortSt) :
    (State.modPort s p f).pending = s.pending ∧ (State.modPort s p f).fresh = s.fresh ∧
    (State.modPort s p f).now = s.now ∧ (State.modPort s p f).outs = s.outs ∧ (State.modPort s p f).pages = s.pages ∧
    (State.modPort s p f).pwr = s.pwr ∧ (State.modPort s p f).arb = s.arb ∧ (State.modPort s p f).halves = s.halves ∧
    (State.modPort s p f).parts = s.parts ∧ (State.modPort s p f).bars = s.bars ∧ (State.modPort s p f).ops = s.ops ∧
    (State.modPort s p f).ident = s.ident ∧ (State.modPort s p f).models = s.models ∧
    (State.modPort s p f).caps = s.caps ∧ (State.modPort s p f).jets = s.jets ∧
    (State.modPort s p f).lanes = s.lanes ∧ (State.modPort s p f).ptp = s.ptp ∧ (State.modPort s p f).ftn = s.ftn ∧
    (State.modPort s p f).keys = s.keys ∧ (State.modPort s p f).flt = s.flt ∧ (State.modPort s p f).mgt = s.mgt ∧
    (State.modPort s p f).cnt = s.cnt := by
  simp [State.modPort]

@[simp] theorem keeps_pushTx (s : State) (p : PortNo) (e : TxEnt) :
    (State.pushTx s p e).pending = s.pending ∧ (State.pushTx s p e).fresh = s.fresh ∧
    (State.pushTx s p e).now = s.now ∧ (State.pushTx s p e).pwr = s.pwr ∧ (State.pushTx s p e).arb = s.arb ∧
    (State.pushTx s p e).halves = s.halves ∧ (State.pushTx s p e).parts = s.parts ∧ (State.pushTx s p e).ops = s.ops ∧
    (State.pushTx s p e).ident = s.ident ∧ (State.pushTx s p e).models = s.models ∧
    (State.pushTx s p e).caps = s.caps ∧ (State.pushTx s p e).jets = s.jets ∧ (State.pushTx s p e).lanes = s.lanes ∧
    (State.pushTx s p e).ptp = s.ptp ∧ (State.pushTx s p e).ftn = s.ftn ∧ (State.pushTx s p e).keys = s.keys ∧
    (State.pushTx s p e).flt = s.flt ∧ (State.pushTx s p e).mgt = s.mgt ∧
    (∀ rp ro, regOf (State.pushTx s p e).pages rp ro = regOf s.pages rp ro) := by
  simp [State.pushTx]

@[simp] theorem keeps_dropFrames_pending (s : State) (p : PortNo) (which : HostFrame → Bool) (f : HostFrame → State → State)
    (h : ∀ e a, (f e a).pending = a.pending) : (s.dropFrames p which f).pending = s.pending := by
  simp [State.dropFrames, h]

@[simp] theorem keeps_dropFrames_fresh (s : State) (p : PortNo) (which : HostFrame → Bool) (f : HostFrame → State → State)
    (h : ∀ e a, (f e a).fresh = a.fresh) : (s.dropFrames p which f).fresh = s.fresh := by
  simp [State.dropFrames, h]

@[simp] theorem keeps_dropFrames_now (s : State) (p : PortNo) (which : HostFrame → Bool) (f : HostFrame → State → State)
    (h : ∀ e a, (f e a).now = a.now) : (s.dropFrames p which f).now = s.now := by
  simp [State.dropFrames, h]

@[simp] theorem keeps_dropFrames_pwr (s : State) (p : PortNo) (which : HostFrame → Bool) (f : HostFrame → State → State)
    (h : ∀ e a, (f e a).pwr = a.pwr) : (s.dropFrames p which f).pwr = s.pwr := by
  simp [State.dropFrames, h]

@[simp] theorem keeps_dropFrames_arb (s : State) (p : PortNo) (which : HostFrame → Bool) (f : HostFrame → State → State)
    (h : ∀ e a, (f e a).arb = a.arb) : (s.dropFrames p which f).arb = s.arb := by
  simp [State.dropFrames, h]

@[simp] theorem keeps_dropFrames_halves (s : State) (p : PortNo) (which : HostFrame → Bool) (f : HostFrame → State → State)
    (h : ∀ e a, (f e a).halves = a.halves) : (s.dropFrames p which f).halves = s.halves := by
  simp [State.dropFrames, h]

@[simp] theorem keeps_dropFrames_parts (s : State) (p : PortNo) (which : HostFrame → Bool) (f : HostFrame → State → State)
    (h : ∀ e a, (f e a).parts = a.parts) : (s.dropFrames p which f).parts = s.parts := by
  simp [State.dropFrames, h]

@[simp] theorem keeps_dropFrames_ops (s : State) (p : PortNo) (which : HostFrame → Bool) (f : HostFrame → State → State)
    (h : ∀ e a, (f e a).ops = a.ops) : (s.dropFrames p which f).ops = s.ops := by
  simp [State.dropFrames, h]

@[simp] theorem keeps_dropFrames_ident (s : State) (p : PortNo) (which : HostFrame → Bool) (f : HostFrame → State → State)
    (h : ∀ e a, (f e a).ident = a.ident) : (s.dropFrames p which f).ident = s.ident := by
  simp [State.dropFrames, h]

@[simp] theorem keeps_dropFrames_models (s : State) (p : PortNo) (which : HostFrame → Bool) (f : HostFrame → State → State)
    (h : ∀ e a, (f e a).models = a.models) : (s.dropFrames p which f).models = s.models := by
  simp [State.dropFrames, h]

@[simp] theorem keeps_dropFrames_caps (s : State) (p : PortNo) (which : HostFrame → Bool) (f : HostFrame → State → State)
    (h : ∀ e a, (f e a).caps = a.caps) : (s.dropFrames p which f).caps = s.caps := by
  simp [State.dropFrames, h]

@[simp] theorem keeps_dropFrames_jets (s : State) (p : PortNo) (which : HostFrame → Bool) (f : HostFrame → State → State)
    (h : ∀ e a, (f e a).jets = a.jets) : (s.dropFrames p which f).jets = s.jets := by
  simp [State.dropFrames, h]

@[simp] theorem keeps_dropFrames_lanes (s : State) (p : PortNo) (which : HostFrame → Bool) (f : HostFrame → State → State)
    (h : ∀ e a, (f e a).lanes = a.lanes) : (s.dropFrames p which f).lanes = s.lanes := by
  simp [State.dropFrames, h]

@[simp] theorem keeps_dropFrames_ptp (s : State) (p : PortNo) (which : HostFrame → Bool) (f : HostFrame → State → State)
    (h : ∀ e a, (f e a).ptp = a.ptp) : (s.dropFrames p which f).ptp = s.ptp := by
  simp [State.dropFrames, h]

@[simp] theorem keeps_dropFrames_ftn (s : State) (p : PortNo) (which : HostFrame → Bool) (f : HostFrame → State → State)
    (h : ∀ e a, (f e a).ftn = a.ftn) : (s.dropFrames p which f).ftn = s.ftn := by
  simp [State.dropFrames, h]

@[simp] theorem keeps_dropFrames_keys (s : State) (p : PortNo) (which : HostFrame → Bool) (f : HostFrame → State → State)
    (h : ∀ e a, (f e a).keys = a.keys) : (s.dropFrames p which f).keys = s.keys := by
  simp [State.dropFrames, h]

@[simp] theorem keeps_dropFrames_flt (s : State) (p : PortNo) (which : HostFrame → Bool) (f : HostFrame → State → State)
    (h : ∀ e a, (f e a).flt = a.flt) : (s.dropFrames p which f).flt = s.flt := by
  simp [State.dropFrames, h]

@[simp] theorem keeps_dropFrames_mgt (s : State) (p : PortNo) (which : HostFrame → Bool) (f : HostFrame → State → State)
    (h : ∀ e a, (f e a).mgt = a.mgt) : (s.dropFrames p which f).mgt = s.mgt := by
  simp [State.dropFrames, h]

@[simp] theorem keeps_dropFrames_REGS (s : State) (p : PortNo) (which : HostFrame → Bool) (f : HostFrame → State → State) (rp ro : Nat)
    (h : ∀ e a, regOf (f e a).pages rp ro = regOf a.pages rp ro) : regOf (s.dropFrames p which f).pages rp ro = regOf s.pages rp ro := by
  simp [State.dropFrames, h]

/-! ## Resets -/

@[simp] theorem keeps_setDiv (s : State) (h : Half) (v : Option Nat) :
    (State.setDiv s h v).pending = s.pending ∧ (State.setDiv s h v).fresh = s.fresh ∧
    (State.setDiv s h v).now = s.now ∧ (State.setDiv s h v).pwr = s.pwr ∧ (State.setDiv s h v).arb = s.arb ∧
    (State.setDiv s h v).parts = s.parts ∧ (State.setDiv s h v).ops = s.ops ∧ (State.setDiv s h v).ident = s.ident ∧
    (State.setDiv s h v).models = s.models ∧ (State.setDiv s h v).caps = s.caps ∧ (State.setDiv s h v).jets = s.jets ∧
    (State.setDiv s h v).lanes = s.lanes ∧ (State.setDiv s h v).ports = s.ports ∧ (State.setDiv s h v).ptp = s.ptp ∧
    (State.setDiv s h v).ftn = s.ftn ∧ (State.setDiv s h v).keys = s.keys ∧ (State.setDiv s h v).flt = s.flt ∧
    (State.setDiv s h v).mgt = s.mgt ∧ (∀ rp ro, regOf (State.setDiv s h v).pages rp ro = regOf s.pages rp ro) := by
  simp [State.setDiv]

@[simp] theorem keeps_dropHalf (s : State) (h : Half) :
    (State.dropHalf s h).pending = s.pending ∧ (State.dropHalf s h).fresh = s.fresh ∧
    (State.dropHalf s h).now = s.now ∧ (State.dropHalf s h).pwr = s.pwr ∧ (State.dropHalf s h).parts = s.parts ∧
    (State.dropHalf s h).ops = s.ops ∧ (State.dropHalf s h).ident = s.ident ∧ (State.dropHalf s h).models = s.models ∧
    (State.dropHalf s h).caps = s.caps ∧ (State.dropHalf s h).jets = s.jets ∧ (State.dropHalf s h).lanes = s.lanes ∧
    (State.dropHalf s h).ports = s.ports ∧ (State.dropHalf s h).ptp = s.ptp ∧ (State.dropHalf s h).ftn = s.ftn ∧
    (State.dropHalf s h).keys = s.keys ∧ (State.dropHalf s h).mgt = s.mgt ∧
    (∀ rp ro, regOf (State.dropHalf s h).pages rp ro = regOf s.pages rp ro) := by
  simp [State.dropHalf]

@[simp] theorem keeps_setSlotKey (s : State) (n : KeyNo) (k : KeySlot) :
    (State.setSlotKey s n k).pending = s.pending ∧ (State.setSlotKey s n k).fresh = s.fresh ∧
    (State.setSlotKey s n k).now = s.now ∧ (State.setSlotKey s n k).outs = s.outs ∧
    (State.setSlotKey s n k).pages = s.pages ∧ (State.setSlotKey s n k).pwr = s.pwr ∧
    (State.setSlotKey s n k).arb = s.arb ∧ (State.setSlotKey s n k).halves = s.halves ∧
    (State.setSlotKey s n k).parts = s.parts ∧ (State.setSlotKey s n k).bars = s.bars ∧
    (State.setSlotKey s n k).ops = s.ops ∧ (State.setSlotKey s n k).ident = s.ident ∧
    (State.setSlotKey s n k).models = s.models ∧ (State.setSlotKey s n k).caps = s.caps ∧
    (State.setSlotKey s n k).jets = s.jets ∧ (State.setSlotKey s n k).lanes = s.lanes ∧
    (State.setSlotKey s n k).ports = s.ports ∧ (State.setSlotKey s n k).ptp = s.ptp ∧
    (State.setSlotKey s n k).ftn = s.ftn ∧ (State.setSlotKey s n k).flt = s.flt ∧
    (State.setSlotKey s n k).mgt = s.mgt ∧ (State.setSlotKey s n k).cnt = s.cnt ∧
    (State.setSlotKey s n k).keys.fuse = s.keys.fuse := by
  simp [State.setSlotKey]

@[simp] theorem keeps_withdrawPrev (n : KeyNo) (left : Bank) (s : State) :
    (withdrawPrev n left s).pending = s.pending ∧ (withdrawPrev n left s).fresh = s.fresh ∧
    (withdrawPrev n left s).now = s.now ∧ (withdrawPrev n left s).outs = s.outs ∧
    (withdrawPrev n left s).pages = s.pages ∧ (withdrawPrev n left s).pwr = s.pwr ∧
    (withdrawPrev n left s).arb = s.arb ∧ (withdrawPrev n left s).halves = s.halves ∧
    (withdrawPrev n left s).parts = s.parts ∧ (withdrawPrev n left s).bars = s.bars ∧
    (withdrawPrev n left s).ops = s.ops ∧ (withdrawPrev n left s).ident = s.ident ∧
    (withdrawPrev n left s).models = s.models ∧ (withdrawPrev n left s).caps = s.caps ∧
    (withdrawPrev n left s).jets = s.jets ∧ (withdrawPrev n left s).lanes = s.lanes ∧
    (withdrawPrev n left s).ports = s.ports ∧ (withdrawPrev n left s).ptp = s.ptp ∧
    (withdrawPrev n left s).ftn = s.ftn ∧ (withdrawPrev n left s).flt = s.flt ∧ (withdrawPrev n left s).mgt = s.mgt ∧
    (withdrawPrev n left s).cnt = s.cnt ∧ (withdrawPrev n left s).keys.fuse = s.keys.fuse := by
  simp [withdrawPrev]

@[simp] theorem keeps_keyCutAt (how : Nat) (o : Op) (s : State) :
    (keyCutAt how o s).pending = s.pending ∧ (keyCutAt how o s).fresh = s.fresh ∧ (keyCutAt how o s).now = s.now ∧
    (keyCutAt how o s).outs = s.outs ∧ (keyCutAt how o s).pages = s.pages ∧ (keyCutAt how o s).pwr = s.pwr ∧
    (keyCutAt how o s).arb = s.arb ∧ (keyCutAt how o s).halves = s.halves ∧ (keyCutAt how o s).parts = s.parts ∧
    (keyCutAt how o s).bars = s.bars ∧ (keyCutAt how o s).ops = s.ops ∧ (keyCutAt how o s).ident = s.ident ∧
    (keyCutAt how o s).models = s.models ∧ (keyCutAt how o s).caps = s.caps ∧ (keyCutAt how o s).jets = s.jets ∧
    (keyCutAt how o s).lanes = s.lanes ∧ (keyCutAt how o s).ports = s.ports ∧ (keyCutAt how o s).ptp = s.ptp ∧
    (keyCutAt how o s).ftn = s.ftn ∧ (keyCutAt how o s).flt = s.flt ∧ (keyCutAt how o s).mgt = s.mgt ∧
    (keyCutAt how o s).cnt = s.cnt ∧ (keyCutAt how o s).keys.fuse = s.keys.fuse := by
  simp [keyCutAt]

@[simp] theorem keeps_keyCut (o : Op) (s : State) :
    (keyCut o s).pending = s.pending ∧ (keyCut o s).now = s.now ∧ (keyCut o s).outs = s.outs ∧
    (keyCut o s).pages = s.pages ∧ (keyCut o s).pwr = s.pwr ∧ (keyCut o s).arb = s.arb ∧
    (keyCut o s).halves = s.halves ∧ (keyCut o s).parts = s.parts ∧ (keyCut o s).bars = s.bars ∧
    (keyCut o s).ops = s.ops ∧ (keyCut o s).ident = s.ident ∧ (keyCut o s).models = s.models ∧
    (keyCut o s).caps = s.caps ∧ (keyCut o s).jets = s.jets ∧ (keyCut o s).lanes = s.lanes ∧
    (keyCut o s).ports = s.ports ∧ (keyCut o s).ptp = s.ptp ∧ (keyCut o s).ftn = s.ftn ∧ (keyCut o s).flt = s.flt ∧
    (keyCut o s).mgt = s.mgt ∧ (keyCut o s).cnt = s.cnt ∧ (keyCut o s).keys.fuse = s.keys.fuse := by
  simp only [keyCut]; (repeat' split) <;> simp

@[simp] theorem keeps_cutKeys (which : Op → Bool) (s : State) :
    (cutKeys which s).pending = s.pending ∧ (cutKeys which s).now = s.now ∧ (cutKeys which s).outs = s.outs ∧
    (cutKeys which s).pages = s.pages ∧ (cutKeys which s).pwr = s.pwr ∧ (cutKeys which s).arb = s.arb ∧
    (cutKeys which s).halves = s.halves ∧ (cutKeys which s).parts = s.parts ∧ (cutKeys which s).bars = s.bars ∧
    (cutKeys which s).ops = s.ops ∧ (cutKeys which s).ident = s.ident ∧ (cutKeys which s).models = s.models ∧
    (cutKeys which s).caps = s.caps ∧ (cutKeys which s).jets = s.jets ∧ (cutKeys which s).lanes = s.lanes ∧
    (cutKeys which s).ports = s.ports ∧ (cutKeys which s).ptp = s.ptp ∧ (cutKeys which s).ftn = s.ftn ∧
    (cutKeys which s).flt = s.flt ∧ (cutKeys which s).mgt = s.mgt ∧ (cutKeys which s).cnt = s.cnt ∧
    (cutKeys which s).keys.fuse = s.keys.fuse := by
  simp [cutKeys]

@[simp] theorem keeps_afterChipReset (s : State) :
    (State.afterChipReset s).pending = s.pending ∧ (State.afterChipReset s).keys.fuse = s.keys.fuse := by
  simp [State.afterChipReset]

@[simp] theorem keeps_settleUp (s : State) :
    (State.settleUp s).pending = s.pending ∧ (State.settleUp s).fresh = s.fresh ∧ (State.settleUp s).now = s.now ∧
    (State.settleUp s).outs = s.outs ∧ (State.settleUp s).pages = s.pages ∧ (State.settleUp s).arb = s.arb ∧
    (State.settleUp s).halves = s.halves ∧ (State.settleUp s).parts = s.parts ∧ (State.settleUp s).bars = s.bars ∧
    (State.settleUp s).ops = s.ops ∧ (State.settleUp s).ident = s.ident ∧ (State.settleUp s).models = s.models ∧
    (State.settleUp s).caps = s.caps ∧ (State.settleUp s).jets = s.jets ∧ (State.settleUp s).lanes = s.lanes ∧
    (State.settleUp s).ports = s.ports ∧ (State.settleUp s).ptp = s.ptp ∧ (State.settleUp s).ftn = s.ftn ∧
    (State.settleUp s).keys = s.keys ∧ (State.settleUp s).flt = s.flt ∧ (State.settleUp s).mgt = s.mgt ∧
    (State.settleUp s).cnt = s.cnt := by
  simp [State.settleUp]

@[simp] theorem keeps_settleDown (s : State) :
    (State.settleDown s).pending = s.pending ∧ (State.settleDown s).fresh = s.fresh ∧
    (State.settleDown s).now = s.now ∧ (State.settleDown s).outs = s.outs ∧ (State.settleDown s).pages = s.pages ∧
    (State.settleDown s).arb = s.arb ∧ (State.settleDown s).halves = s.halves ∧ (State.settleDown s).parts = s.parts ∧
    (State.settleDown s).bars = s.bars ∧ (State.settleDown s).ops = s.ops ∧ (State.settleDown s).ident = s.ident ∧
    (State.settleDown s).models = s.models ∧ (State.settleDown s).caps = s.caps ∧ (State.settleDown s).jets = s.jets ∧
    (State.settleDown s).lanes = s.lanes ∧ (State.settleDown s).ports = s.ports ∧ (State.settleDown s).ptp = s.ptp ∧
    (State.settleDown s).ftn = s.ftn ∧ (State.settleDown s).keys = s.keys ∧ (State.settleDown s).flt = s.flt ∧
    (State.settleDown s).mgt = s.mgt ∧ (State.settleDown s).cnt = s.cnt := by
  simp [State.settleDown]

@[simp] theorem keeps_logPower (s : State) (lastGasp : Bool) :
    (State.logPower s lastGasp).pending = s.pending ∧ (State.logPower s lastGasp).fresh = s.fresh ∧
    (State.logPower s lastGasp).now = s.now ∧ (State.logPower s lastGasp).pwr = s.pwr ∧
    (State.logPower s lastGasp).arb = s.arb ∧ (State.logPower s lastGasp).halves = s.halves ∧
    (State.logPower s lastGasp).parts = s.parts ∧ (State.logPower s lastGasp).ops = s.ops ∧
    (State.logPower s lastGasp).ident = s.ident ∧ (State.logPower s lastGasp).models = s.models ∧
    (State.logPower s lastGasp).caps = s.caps ∧ (State.logPower s lastGasp).jets = s.jets ∧
    (State.logPower s lastGasp).lanes = s.lanes ∧ (State.logPower s lastGasp).ports = s.ports ∧
    (State.logPower s lastGasp).ptp = s.ptp ∧ (State.logPower s lastGasp).ftn = s.ftn ∧
    (State.logPower s lastGasp).keys = s.keys ∧ (State.logPower s lastGasp).flt = s.flt ∧
    (∀ rp ro, regOf (State.logPower s lastGasp).pages rp ro = regOf s.pages rp ro) := by
  simp [State.logPower]

@[simp] theorem keeps_chipReset (s : State) (cause : Nat) :
    (State.chipReset s cause).pending = s.pending ∧ (State.chipReset s cause).keys.fuse = s.keys.fuse := by
  simp [State.chipReset]

@[simp] theorem keeps_State_toStandby (s : State) :
    (State.toStandby s).pending = s.pending ∧ (State.toStandby s).keys.fuse = s.keys.fuse := by
  simp [State.toStandby]

@[simp] theorem keeps_powerHalf (s : State) (h : Half) :
    (State.powerHalf s h).pending = s.pending ∧ (State.powerHalf s h).fresh = s.fresh ∧
    (State.powerHalf s h).now = s.now ∧ (State.powerHalf s h).outs = s.outs ∧ (State.powerHalf s h).pages = s.pages ∧
    (State.powerHalf s h).arb = s.arb ∧ (State.powerHalf s h).halves = s.halves ∧
    (State.powerHalf s h).parts = s.parts ∧ (State.powerHalf s h).bars = s.bars ∧ (State.powerHalf s h).ops = s.ops ∧
    (State.powerHalf s h).ident = s.ident ∧ (State.powerHalf s h).models = s.models ∧
    (State.powerHalf s h).caps = s.caps ∧ (State.powerHalf s h).jets = s.jets ∧
    (State.powerHalf s h).lanes = s.lanes ∧ (State.powerHalf s h).ports = s.ports ∧
    (State.powerHalf s h).ptp = s.ptp ∧ (State.powerHalf s h).ftn = s.ftn ∧ (State.powerHalf s h).keys = s.keys ∧
    (State.powerHalf s h).flt = s.flt ∧ (State.powerHalf s h).mgt = s.mgt ∧ (State.powerHalf s h).cnt = s.cnt := by
  simp [State.powerHalf]

/-! ## Keys -/

@[simp] theorem keeps_logKey (s : State) (n : KeyNo) (ev : Nat) (gen : Word) :
    (State.logKey s n ev gen).pending = s.pending ∧ (State.logKey s n ev gen).fresh = s.fresh ∧
    (State.logKey s n ev gen).now = s.now ∧ (State.logKey s n ev gen).pwr = s.pwr ∧
    (State.logKey s n ev gen).arb = s.arb ∧ (State.logKey s n ev gen).halves = s.halves ∧
    (State.logKey s n ev gen).parts = s.parts ∧ (State.logKey s n ev gen).ops = s.ops ∧
    (State.logKey s n ev gen).ident = s.ident ∧ (State.logKey s n ev gen).models = s.models ∧
    (State.logKey s n ev gen).caps = s.caps ∧ (State.logKey s n ev gen).jets = s.jets ∧
    (State.logKey s n ev gen).lanes = s.lanes ∧ (State.logKey s n ev gen).ports = s.ports ∧
    (State.logKey s n ev gen).ptp = s.ptp ∧ (State.logKey s n ev gen).ftn = s.ftn ∧
    (State.logKey s n ev gen).keys = s.keys ∧ (State.logKey s n ev gen).flt = s.flt ∧
    (∀ rp ro, regOf (State.logKey s n ev gen).pages rp ro = regOf s.pages rp ro) := by
  simp [State.logKey]

@[simp] theorem keeps_loadSlot (s : State) (n : KeyNo) :
    (loadSlot s n).pending = s.pending ∧ (loadSlot s n).fresh = s.fresh ∧ (loadSlot s n).now = s.now ∧
    (loadSlot s n).pwr = s.pwr ∧ (loadSlot s n).arb = s.arb ∧ (loadSlot s n).halves = s.halves ∧
    (loadSlot s n).parts = s.parts ∧ (loadSlot s n).ops = s.ops ∧ (loadSlot s n).ident = s.ident ∧
    (loadSlot s n).models = s.models ∧ (loadSlot s n).caps = s.caps ∧ (loadSlot s n).jets = s.jets ∧
    (loadSlot s n).lanes = s.lanes ∧ (loadSlot s n).ports = s.ports ∧ (loadSlot s n).ptp = s.ptp ∧
    (loadSlot s n).ftn = s.ftn ∧ (loadSlot s n).flt = s.flt ∧ (loadSlot s n).keys.fuse = s.keys.fuse ∧
    (∀ rp ro, regOf (loadSlot s n).pages rp ro = regOf s.pages rp ro) := by
  simp only [loadSlot]; (repeat' split) <;> simp

@[simp] theorem keeps_loadStore (s : State) :
    (loadStore s).pending = s.pending ∧ (loadStore s).fresh = s.fresh ∧ (loadStore s).now = s.now ∧
    (loadStore s).pwr = s.pwr ∧ (loadStore s).arb = s.arb ∧ (loadStore s).halves = s.halves ∧
    (loadStore s).parts = s.parts ∧ (loadStore s).ops = s.ops ∧ (loadStore s).ident = s.ident ∧
    (loadStore s).models = s.models ∧ (loadStore s).caps = s.caps ∧ (loadStore s).jets = s.jets ∧
    (loadStore s).lanes = s.lanes ∧ (loadStore s).ports = s.ports ∧ (loadStore s).ptp = s.ptp ∧
    (loadStore s).ftn = s.ftn ∧ (loadStore s).flt = s.flt ∧ (loadStore s).keys.fuse = s.keys.fuse ∧
    (∀ rp ro, regOf (loadStore s).pages rp ro = regOf s.pages rp ro) := by
  unfold loadStore; (repeat' split) <;> simp

@[simp] theorem keeps_commitKey (s : State) (n : KeyNo) (attr : Word) (imported : Bool) (body : List Byte) :
    (commitKey s n attr imported body).pending = s.pending ∧ (commitKey s n attr imported body).fresh = s.fresh ∧
    (commitKey s n attr imported body).now = s.now ∧ (commitKey s n attr imported body).pwr = s.pwr ∧
    (commitKey s n attr imported body).arb = s.arb ∧ (commitKey s n attr imported body).halves = s.halves ∧
    (commitKey s n attr imported body).parts = s.parts ∧ (commitKey s n attr imported body).ops = s.ops ∧
    (commitKey s n attr imported body).ident = s.ident ∧ (commitKey s n attr imported body).models = s.models ∧
    (commitKey s n attr imported body).caps = s.caps ∧ (commitKey s n attr imported body).jets = s.jets ∧
    (commitKey s n attr imported body).lanes = s.lanes ∧ (commitKey s n attr imported body).ports = s.ports ∧
    (commitKey s n attr imported body).ptp = s.ptp ∧ (commitKey s n attr imported body).ftn = s.ftn ∧
    (commitKey s n attr imported body).flt = s.flt ∧ (commitKey s n attr imported body).keys.fuse = s.keys.fuse ∧
    (∀ rp ro, regOf (commitKey s n attr imported body).pages rp ro = regOf s.pages rp ro) := by
  simp [commitKey]

@[simp] theorem keeps_zeroiseSlot (s : State) (n : KeyNo) :
    (zeroiseSlot s n).pending = s.pending ∧ (zeroiseSlot s n).fresh = s.fresh ∧ (zeroiseSlot s n).now = s.now ∧
    (zeroiseSlot s n).pwr = s.pwr ∧ (zeroiseSlot s n).arb = s.arb ∧ (zeroiseSlot s n).halves = s.halves ∧
    (zeroiseSlot s n).parts = s.parts ∧ (zeroiseSlot s n).ops = s.ops ∧ (zeroiseSlot s n).ident = s.ident ∧
    (zeroiseSlot s n).models = s.models ∧ (zeroiseSlot s n).caps = s.caps ∧ (zeroiseSlot s n).jets = s.jets ∧
    (zeroiseSlot s n).lanes = s.lanes ∧ (zeroiseSlot s n).ports = s.ports ∧ (zeroiseSlot s n).ptp = s.ptp ∧
    (zeroiseSlot s n).ftn = s.ftn ∧ (zeroiseSlot s n).flt = s.flt ∧ (zeroiseSlot s n).keys.fuse = s.keys.fuse ∧
    (∀ rp ro, regOf (zeroiseSlot s n).pages rp ro = regOf s.pages rp ro) := by
  simp [zeroiseSlot]

@[simp] theorem keeps_zeroiseOne (s : State) (n : KeyNo) :
    (zeroiseOne s n).pending = s.pending ∧ (zeroiseOne s n).fresh = s.fresh ∧ (zeroiseOne s n).now = s.now ∧
    (zeroiseOne s n).pwr = s.pwr ∧ (zeroiseOne s n).arb = s.arb ∧ (zeroiseOne s n).halves = s.halves ∧
    (zeroiseOne s n).ident = s.ident ∧ (zeroiseOne s n).models = s.models ∧ (zeroiseOne s n).jets = s.jets ∧
    (zeroiseOne s n).lanes = s.lanes ∧ (zeroiseOne s n).ports = s.ports ∧ (zeroiseOne s n).ptp = s.ptp ∧
    (zeroiseOne s n).ftn = s.ftn ∧ (zeroiseOne s n).flt = s.flt ∧ (zeroiseOne s n).keys.fuse = s.keys.fuse ∧
    (∀ rp ro, regOf (zeroiseOne s n).pages rp ro = regOf s.pages rp ro) := by
  simp [zeroiseOne]

@[simp] theorem keeps_zeroiseAll (s : State) :
    (zeroiseAll s).pending = s.pending ∧ (zeroiseAll s).fresh = s.fresh ∧ (zeroiseAll s).now = s.now ∧
    (zeroiseAll s).pwr = s.pwr ∧ (zeroiseAll s).arb = s.arb ∧ (zeroiseAll s).halves = s.halves ∧
    (zeroiseAll s).ident = s.ident ∧ (zeroiseAll s).models = s.models ∧ (zeroiseAll s).jets = s.jets ∧
    (zeroiseAll s).lanes = s.lanes ∧ (zeroiseAll s).ports = s.ports ∧ (zeroiseAll s).ptp = s.ptp ∧
    (zeroiseAll s).ftn = s.ftn ∧ (zeroiseAll s).flt = s.flt ∧ (zeroiseAll s).keys.fuse = s.keys.fuse ∧
    (∀ rp ro, regOf (zeroiseAll s).pages rp ro = regOf s.pages rp ro) := by
  simp [zeroiseAll]

@[simp] theorem keeps_stopServing (s : State) :
    (stopServing s).pending = s.pending ∧ (stopServing s).fresh = s.fresh ∧ (stopServing s).now = s.now ∧
    (stopServing s).outs = s.outs ∧ (stopServing s).pages = s.pages ∧ (stopServing s).pwr = s.pwr ∧
    (stopServing s).arb = s.arb ∧ (stopServing s).halves = s.halves ∧ (stopServing s).parts = s.parts ∧
    (stopServing s).bars = s.bars ∧ (stopServing s).ops = s.ops ∧ (stopServing s).ident = s.ident ∧
    (stopServing s).models = s.models ∧ (stopServing s).caps = s.caps ∧ (stopServing s).jets = s.jets ∧
    (stopServing s).lanes = s.lanes ∧ (stopServing s).keys = s.keys ∧ (stopServing s).flt = s.flt ∧
    (stopServing s).mgt = s.mgt ∧ (stopServing s).cnt = s.cnt := by
  simp [stopServing]

@[simp] theorem keeps_commitEpoch (s : State) :
    (commitEpoch s).pending = s.pending ∧ (commitEpoch s).fresh = s.fresh ∧ (commitEpoch s).now = s.now ∧
    (commitEpoch s).outs = s.outs ∧ (commitEpoch s).pages = s.pages ∧ (commitEpoch s).pwr = s.pwr ∧
    (commitEpoch s).arb = s.arb ∧ (commitEpoch s).halves = s.halves ∧ (commitEpoch s).parts = s.parts ∧
    (commitEpoch s).bars = s.bars ∧ (commitEpoch s).ops = s.ops ∧ (commitEpoch s).ident = s.ident ∧
    (commitEpoch s).models = s.models ∧ (commitEpoch s).caps = s.caps ∧ (commitEpoch s).jets = s.jets ∧
    (commitEpoch s).lanes = s.lanes ∧ (commitEpoch s).ports = s.ports ∧ (commitEpoch s).ptp = s.ptp ∧
    (commitEpoch s).keys = s.keys ∧ (commitEpoch s).flt = s.flt ∧ (commitEpoch s).mgt = s.mgt := by
  simp [commitEpoch]

@[simp] theorem keeps_useEpoch (s : State) :
    (useEpoch s).pending = s.pending ∧ (useEpoch s).fresh = s.fresh ∧ (useEpoch s).now = s.now ∧
    (useEpoch s).pwr = s.pwr ∧ (useEpoch s).arb = s.arb ∧ (useEpoch s).halves = s.halves ∧
    (useEpoch s).parts = s.parts ∧ (useEpoch s).ops = s.ops ∧ (useEpoch s).ident = s.ident ∧
    (useEpoch s).models = s.models ∧ (useEpoch s).caps = s.caps ∧ (useEpoch s).jets = s.jets ∧
    (useEpoch s).lanes = s.lanes ∧ (useEpoch s).ports = s.ports ∧ (useEpoch s).ptp = s.ptp ∧
    (useEpoch s).keys = s.keys ∧ (useEpoch s).flt = s.flt ∧ (useEpoch s).mgt = s.mgt ∧
    (∀ rp ro, regOf (useEpoch s).pages rp ro = regOf s.pages rp ro) := by
  simp [useEpoch]

@[simp] theorem keeps_sealModule (s : State) :
    (sealModule s).pending = s.pending ∧ (sealModule s).now = s.now ∧ (sealModule s).arb = s.arb ∧
    (sealModule s).halves = s.halves ∧ (sealModule s).ident = s.ident ∧ (sealModule s).models = s.models ∧
    (sealModule s).jets = s.jets ∧ (sealModule s).lanes = s.lanes ∧ (sealModule s).flt = s.flt ∧
    (sealModule s).mgt = s.mgt ∧ (sealModule s).keys.fuse = s.keys.fuse ∧
    (∀ rp ro, regOf (sealModule s).pages rp ro = regOf s.pages rp ro) := by
  simp [sealModule]

@[simp] theorem keeps_tamperSource (src : Fin 9) (s : State) :
    (tamperSource src s).pending = s.pending ∧ (tamperSource src s).now = s.now ∧ (tamperSource src s).arb = s.arb ∧
    (tamperSource src s).halves = s.halves ∧ (tamperSource src s).models = s.models ∧
    (tamperSource src s).jets = s.jets ∧ (tamperSource src s).lanes = s.lanes ∧
    (tamperSource src s).keys.fuse = s.keys.fuse ∧
    (∀ rp ro, regOf (tamperSource src s).pages rp ro = regOf s.pages rp ro) := by
  simp only [tamperSource]; (repeat' split) <;> simp

@[simp] theorem keeps_eraseComplete (s : State) :
    (eraseComplete s).pending = s.pending ∧ (eraseComplete s).fresh = s.fresh ∧ (eraseComplete s).now = s.now ∧
    (eraseComplete s).pwr = s.pwr ∧ (eraseComplete s).arb = s.arb ∧ (eraseComplete s).halves = s.halves ∧
    (eraseComplete s).parts = s.parts ∧ (eraseComplete s).ops = s.ops ∧ (eraseComplete s).ident = s.ident ∧
    (eraseComplete s).models = s.models ∧ (eraseComplete s).caps = s.caps ∧ (eraseComplete s).jets = s.jets ∧
    (eraseComplete s).lanes = s.lanes ∧ (eraseComplete s).ports = s.ports ∧ (eraseComplete s).ptp = s.ptp ∧
    (eraseComplete s).ftn = s.ftn ∧ (eraseComplete s).flt = s.flt ∧ (eraseComplete s).keys.fuse = s.keys.fuse ∧
    (∀ rp ro, regOf (eraseComplete s).pages rp ro = regOf s.pages rp ro) := by
  unfold eraseComplete; (repeat' split) <;> simp

/-! ## PortCfg -/

@[simp] theorem keeps_modLane (s : State) (n : LaneNo) (f : LaneSt → LaneSt) :
    (State.modLane s n f).pending = s.pending ∧ (State.modLane s n f).fresh = s.fresh ∧
    (State.modLane s n f).now = s.now ∧ (State.modLane s n f).outs = s.outs ∧ (State.modLane s n f).pages = s.pages ∧
    (State.modLane s n f).pwr = s.pwr ∧ (State.modLane s n f).arb = s.arb ∧ (State.modLane s n f).halves = s.halves ∧
    (State.modLane s n f).parts = s.parts ∧ (State.modLane s n f).bars = s.bars ∧ (State.modLane s n f).ops = s.ops ∧
    (State.modLane s n f).ident = s.ident ∧ (State.modLane s n f).models = s.models ∧
    (State.modLane s n f).caps = s.caps ∧ (State.modLane s n f).jets = s.jets ∧
    (State.modLane s n f).ports = s.ports ∧ (State.modLane s n f).ptp = s.ptp ∧ (State.modLane s n f).ftn = s.ftn ∧
    (State.modLane s n f).keys = s.keys ∧ (State.modLane s n f).flt = s.flt ∧ (State.modLane s n f).mgt = s.mgt ∧
    (State.modLane s n f).cnt = s.cnt := by
  simp [State.modLane]

/-! ## Pages -/

@[simp] theorem keeps_loadLane (n : LaneNo) (mode : Nat) (s : State) :
    (loadLane n mode s).pending = s.pending ∧ (loadLane n mode s).fresh = s.fresh ∧ (loadLane n mode s).now = s.now ∧
    (loadLane n mode s).outs = s.outs ∧ (loadLane n mode s).pwr = s.pwr ∧ (loadLane n mode s).arb = s.arb ∧
    (loadLane n mode s).halves = s.halves ∧ (loadLane n mode s).parts = s.parts ∧ (loadLane n mode s).bars = s.bars ∧
    (loadLane n mode s).ops = s.ops ∧ (loadLane n mode s).ident = s.ident ∧ (loadLane n mode s).models = s.models ∧
    (loadLane n mode s).caps = s.caps ∧ (loadLane n mode s).jets = s.jets ∧ (loadLane n mode s).ports = s.ports ∧
    (loadLane n mode s).ptp = s.ptp ∧ (loadLane n mode s).ftn = s.ftn ∧ (loadLane n mode s).keys = s.keys ∧
    (loadLane n mode s).flt = s.flt ∧ (loadLane n mode s).mgt = s.mgt ∧ (loadLane n mode s).cnt = s.cnt := by
  simp [loadLane]

@[simp] theorem keeps_portPut (s : State) (p : PortNo) (pg : Nat) (ws : KMap Word) :
    (State.portPut s p pg ws).pending = s.pending ∧ (State.portPut s p pg ws).fresh = s.fresh ∧
    (State.portPut s p pg ws).now = s.now ∧ (State.portPut s p pg ws).outs = s.outs ∧
    (State.portPut s p pg ws).pages = s.pages ∧ (State.portPut s p pg ws).pwr = s.pwr ∧
    (State.portPut s p pg ws).arb = s.arb ∧ (State.portPut s p pg ws).halves = s.halves ∧
    (State.portPut s p pg ws).parts = s.parts ∧ (State.portPut s p pg ws).bars = s.bars ∧
    (State.portPut s p pg ws).ops = s.ops ∧ (State.portPut s p pg ws).ident = s.ident ∧
    (State.portPut s p pg ws).models = s.models ∧ (State.portPut s p pg ws).caps = s.caps ∧
    (State.portPut s p pg ws).jets = s.jets ∧ (State.portPut s p pg ws).lanes = s.lanes ∧
    (State.portPut s p pg ws).ptp = s.ptp ∧ (State.portPut s p pg ws).ftn = s.ftn ∧
    (State.portPut s p pg ws).keys = s.keys ∧ (State.portPut s p pg ws).flt = s.flt ∧
    (State.portPut s p pg ws).mgt = s.mgt ∧ (State.portPut s p pg ws).cnt = s.cnt := by
  simp [State.portPut]

@[simp] theorem keeps_portTakes (s : State) (p : PortNo) (pg : Nat) :
    (State.portTakes s p pg).pending = s.pending ∧ (State.portTakes s p pg).fresh = s.fresh ∧
    (State.portTakes s p pg).now = s.now ∧ (State.portTakes s p pg).outs = s.outs ∧
    (State.portTakes s p pg).pages = s.pages ∧ (State.portTakes s p pg).pwr = s.pwr ∧
    (State.portTakes s p pg).arb = s.arb ∧ (State.portTakes s p pg).halves = s.halves ∧
    (State.portTakes s p pg).parts = s.parts ∧ (State.portTakes s p pg).bars = s.bars ∧
    (State.portTakes s p pg).ops = s.ops ∧ (State.portTakes s p pg).ident = s.ident ∧
    (State.portTakes s p pg).models = s.models ∧ (State.portTakes s p pg).caps = s.caps ∧
    (State.portTakes s p pg).jets = s.jets ∧ (State.portTakes s p pg).lanes = s.lanes ∧
    (State.portTakes s p pg).ptp = s.ptp ∧ (State.portTakes s p pg).ftn = s.ftn ∧
    (State.portTakes s p pg).keys = s.keys ∧ (State.portTakes s p pg).flt = s.flt ∧
    (State.portTakes s p pg).mgt = s.mgt ∧ (State.portTakes s p pg).cnt = s.cnt := by
  simp [State.portTakes]

@[simp] theorem keeps_portPasses (s : State) (p : PortNo) (pg : Nat) :
    (State.portPasses s p pg).pending = s.pending ∧ (State.portPasses s p pg).fresh = s.fresh ∧
    (State.portPasses s p pg).now = s.now ∧ (State.portPasses s p pg).outs = s.outs ∧
    (State.portPasses s p pg).pwr = s.pwr ∧ (State.portPasses s p pg).arb = s.arb ∧
    (State.portPasses s p pg).halves = s.halves ∧ (State.portPasses s p pg).parts = s.parts ∧
    (State.portPasses s p pg).bars = s.bars ∧ (State.portPasses s p pg).ops = s.ops ∧
    (State.portPasses s p pg).ident = s.ident ∧ (State.portPasses s p pg).models = s.models ∧
    (State.portPasses s p pg).caps = s.caps ∧ (State.portPasses s p pg).jets = s.jets ∧
    (State.portPasses s p pg).lanes = s.lanes ∧ (State.portPasses s p pg).ptp = s.ptp ∧
    (State.portPasses s p pg).ftn = s.ftn ∧ (State.portPasses s p pg).keys = s.keys ∧
    (State.portPasses s p pg).flt = s.flt ∧ (State.portPasses s p pg).mgt = s.mgt ∧
    (State.portPasses s p pg).cnt = s.cnt ∧
    (∀ rp ro, regOf (State.portPasses s p pg).pages rp ro = regOf s.pages rp ro) := by
  simp [State.portPasses]

@[simp] theorem keeps_idleTakes (s : State) (pg : Nat) :
    (State.idleTakes s pg).pending = s.pending ∧ (State.idleTakes s pg).fresh = s.fresh ∧
    (State.idleTakes s pg).now = s.now ∧ (State.idleTakes s pg).outs = s.outs ∧
    (State.idleTakes s pg).pages = s.pages ∧ (State.idleTakes s pg).pwr = s.pwr ∧ (State.idleTakes s pg).arb = s.arb ∧
    (State.idleTakes s pg).halves = s.halves ∧ (State.idleTakes s pg).parts = s.parts ∧
    (State.idleTakes s pg).bars = s.bars ∧ (State.idleTakes s pg).ops = s.ops ∧
    (State.idleTakes s pg).ident = s.ident ∧ (State.idleTakes s pg).models = s.models ∧
    (State.idleTakes s pg).caps = s.caps ∧ (State.idleTakes s pg).jets = s.jets ∧
    (State.idleTakes s pg).lanes = s.lanes ∧ (State.idleTakes s pg).ptp = s.ptp ∧ (State.idleTakes s pg).ftn = s.ftn ∧
    (State.idleTakes s pg).keys = s.keys ∧ (State.idleTakes s pg).flt = s.flt ∧ (State.idleTakes s pg).mgt = s.mgt ∧
    (State.idleTakes s pg).cnt = s.cnt := by
  simp [State.idleTakes]

@[simp] theorem keeps_commitPorts (s : State) (pg : Nat) :
    (State.commitPorts s pg).pending = s.pending ∧ (State.commitPorts s pg).fresh = s.fresh ∧
    (State.commitPorts s pg).now = s.now ∧ (State.commitPorts s pg).outs = s.outs ∧
    (State.commitPorts s pg).pwr = s.pwr ∧ (State.commitPorts s pg).arb = s.arb ∧
    (State.commitPorts s pg).halves = s.halves ∧ (State.commitPorts s pg).parts = s.parts ∧
    (State.commitPorts s pg).bars = s.bars ∧ (State.commitPorts s pg).ops = s.ops ∧
    (State.commitPorts s pg).ident = s.ident ∧ (State.commitPorts s pg).models = s.models ∧
    (State.commitPorts s pg).caps = s.caps ∧ (State.commitPorts s pg).jets = s.jets ∧
    (State.commitPorts s pg).lanes = s.lanes ∧ (State.commitPorts s pg).ptp = s.ptp ∧
    (State.commitPorts s pg).ftn = s.ftn ∧ (State.commitPorts s pg).keys = s.keys ∧
    (State.commitPorts s pg).flt = s.flt ∧ (State.commitPorts s pg).mgt = s.mgt ∧
    (State.commitPorts s pg).cnt = s.cnt := by
  simp [State.commitPorts]

@[simp] theorem keeps_settleServe (s : State) (pg : Nat) :
    (State.settleServe s pg).pending = s.pending ∧ (State.settleServe s pg).fresh = s.fresh ∧
    (State.settleServe s pg).now = s.now ∧ (State.settleServe s pg).outs = s.outs ∧
    (State.settleServe s pg).pwr = s.pwr ∧ (State.settleServe s pg).arb = s.arb ∧
    (State.settleServe s pg).halves = s.halves ∧ (State.settleServe s pg).parts = s.parts ∧
    (State.settleServe s pg).bars = s.bars ∧ (State.settleServe s pg).ops = s.ops ∧
    (State.settleServe s pg).ident = s.ident ∧ (State.settleServe s pg).models = s.models ∧
    (State.settleServe s pg).caps = s.caps ∧ (State.settleServe s pg).jets = s.jets ∧
    (State.settleServe s pg).lanes = s.lanes ∧ (State.settleServe s pg).ptp = s.ptp ∧
    (State.settleServe s pg).ftn = s.ftn ∧ (State.settleServe s pg).keys = s.keys ∧
    (State.settleServe s pg).flt = s.flt ∧ (State.settleServe s pg).mgt = s.mgt ∧
    (State.settleServe s pg).cnt = s.cnt := by
  simp [State.settleServe]

@[simp] theorem keeps_bufferServe (s : State) (pg : Nat) (new : KMap Word) (a : Access) :
    (State.bufferServe s pg new a).pending = s.pending ∧ (State.bufferServe s pg new a).fresh = s.fresh ∧
    (State.bufferServe s pg new a).now = s.now ∧ (State.bufferServe s pg new a).outs = s.outs ∧
    (State.bufferServe s pg new a).pwr = s.pwr ∧ (State.bufferServe s pg new a).arb = s.arb ∧
    (State.bufferServe s pg new a).halves = s.halves ∧ (State.bufferServe s pg new a).parts = s.parts ∧
    (State.bufferServe s pg new a).bars = s.bars ∧ (State.bufferServe s pg new a).ops = s.ops ∧
    (State.bufferServe s pg new a).ident = s.ident ∧ (State.bufferServe s pg new a).models = s.models ∧
    (State.bufferServe s pg new a).caps = s.caps ∧ (State.bufferServe s pg new a).jets = s.jets ∧
    (State.bufferServe s pg new a).lanes = s.lanes ∧ (State.bufferServe s pg new a).ptp = s.ptp ∧
    (State.bufferServe s pg new a).ftn = s.ftn ∧ (State.bufferServe s pg new a).keys = s.keys ∧
    (State.bufferServe s pg new a).flt = s.flt ∧ (State.bufferServe s pg new a).mgt = s.mgt ∧
    (State.bufferServe s pg new a).cnt = s.cnt := by
  simp [State.bufferServe]

@[simp] theorem keeps_discardServe (s : State) (pg : Nat) (a : Access) :
    (State.discardServe s pg a).pending = s.pending ∧ (State.discardServe s pg a).fresh = s.fresh ∧
    (State.discardServe s pg a).now = s.now ∧ (State.discardServe s pg a).outs = s.outs ∧
    (State.discardServe s pg a).pwr = s.pwr ∧ (State.discardServe s pg a).arb = s.arb ∧
    (State.discardServe s pg a).halves = s.halves ∧ (State.discardServe s pg a).parts = s.parts ∧
    (State.discardServe s pg a).bars = s.bars ∧ (State.discardServe s pg a).ops = s.ops ∧
    (State.discardServe s pg a).ident = s.ident ∧ (State.discardServe s pg a).models = s.models ∧
    (State.discardServe s pg a).caps = s.caps ∧ (State.discardServe s pg a).jets = s.jets ∧
    (State.discardServe s pg a).lanes = s.lanes ∧ (State.discardServe s pg a).ptp = s.ptp ∧
    (State.discardServe s pg a).ftn = s.ftn ∧ (State.discardServe s pg a).keys = s.keys ∧
    (State.discardServe s pg a).flt = s.flt ∧ (State.discardServe s pg a).mgt = s.mgt ∧
    (State.discardServe s pg a).cnt = s.cnt := by
  simp [State.discardServe]

@[simp] theorem keeps_holdServe (s : State) (pg : Nat) (on : Bool) (a : Access) :
    (State.holdServe s pg on a).pending = s.pending ∧ (State.holdServe s pg on a).fresh = s.fresh ∧
    (State.holdServe s pg on a).now = s.now ∧ (State.holdServe s pg on a).outs = s.outs ∧
    (State.holdServe s pg on a).pwr = s.pwr ∧ (State.holdServe s pg on a).arb = s.arb ∧
    (State.holdServe s pg on a).halves = s.halves ∧ (State.holdServe s pg on a).parts = s.parts ∧
    (State.holdServe s pg on a).bars = s.bars ∧ (State.holdServe s pg on a).ops = s.ops ∧
    (State.holdServe s pg on a).ident = s.ident ∧ (State.holdServe s pg on a).models = s.models ∧
    (State.holdServe s pg on a).caps = s.caps ∧ (State.holdServe s pg on a).jets = s.jets ∧
    (State.holdServe s pg on a).lanes = s.lanes ∧ (State.holdServe s pg on a).ptp = s.ptp ∧
    (State.holdServe s pg on a).ftn = s.ftn ∧ (State.holdServe s pg on a).keys = s.keys ∧
    (State.holdServe s pg on a).flt = s.flt ∧ (State.holdServe s pg on a).mgt = s.mgt ∧
    (State.holdServe s pg on a).cnt = s.cnt := by
  simp [State.holdServe]

@[simp] theorem keeps_bufferWords (s : State) (pg : Nat) (ws : List (Nat × Word × Word)) (a : Access) :
    (bufferWords s pg ws a).pending = s.pending ∧ (bufferWords s pg ws a).fresh = s.fresh ∧
    (bufferWords s pg ws a).now = s.now ∧ (bufferWords s pg ws a).outs = s.outs ∧
    (bufferWords s pg ws a).pwr = s.pwr ∧ (bufferWords s pg ws a).arb = s.arb ∧
    (bufferWords s pg ws a).halves = s.halves ∧ (bufferWords s pg ws a).parts = s.parts ∧
    (bufferWords s pg ws a).bars = s.bars ∧ (bufferWords s pg ws a).ops = s.ops ∧
    (bufferWords s pg ws a).ident = s.ident ∧ (bufferWords s pg ws a).models = s.models ∧
    (bufferWords s pg ws a).caps = s.caps ∧ (bufferWords s pg ws a).jets = s.jets ∧
    (bufferWords s pg ws a).lanes = s.lanes ∧ (bufferWords s pg ws a).ptp = s.ptp ∧
    (bufferWords s pg ws a).ftn = s.ftn ∧ (bufferWords s pg ws a).keys = s.keys ∧
    (bufferWords s pg ws a).flt = s.flt ∧ (bufferWords s pg ws a).mgt = s.mgt ∧ (bufferWords s pg ws a).cnt = s.cnt := by
  simp [bufferWords]

@[simp] theorem keeps_boundary (s : State) (pg : Nat) :
    (boundary s pg).pending = s.pending ∧ (boundary s pg).fresh = s.fresh ∧ (boundary s pg).now = s.now ∧
    (boundary s pg).outs = s.outs ∧ (boundary s pg).pwr = s.pwr ∧ (boundary s pg).arb = s.arb ∧
    (boundary s pg).halves = s.halves ∧ (boundary s pg).parts = s.parts ∧ (boundary s pg).bars = s.bars ∧
    (boundary s pg).ops = s.ops ∧ (boundary s pg).ident = s.ident ∧ (boundary s pg).models = s.models ∧
    (boundary s pg).caps = s.caps ∧ (boundary s pg).jets = s.jets ∧ (boundary s pg).lanes = s.lanes ∧
    (boundary s pg).ports = s.ports ∧ (boundary s pg).ptp = s.ptp ∧ (boundary s pg).ftn = s.ftn ∧
    (boundary s pg).keys = s.keys ∧ (boundary s pg).flt = s.flt ∧ (boundary s pg).mgt = s.mgt ∧
    (boundary s pg).cnt = s.cnt := by
  simp [boundary]

@[simp] theorem keeps_flushWords (s : State) (pg : Nat) :
    (flushWords s pg).pending = s.pending ∧ (flushWords s pg).fresh = s.fresh ∧ (flushWords s pg).now = s.now ∧
    (flushWords s pg).outs = s.outs ∧ (flushWords s pg).pwr = s.pwr ∧ (flushWords s pg).arb = s.arb ∧
    (flushWords s pg).halves = s.halves ∧ (flushWords s pg).parts = s.parts ∧ (flushWords s pg).bars = s.bars ∧
    (flushWords s pg).ops = s.ops ∧ (flushWords s pg).ident = s.ident ∧ (flushWords s pg).models = s.models ∧
    (flushWords s pg).caps = s.caps ∧ (flushWords s pg).jets = s.jets ∧ (flushWords s pg).lanes = s.lanes ∧
    (flushWords s pg).ports = s.ports ∧ (flushWords s pg).ptp = s.ptp ∧ (flushWords s pg).ftn = s.ftn ∧
    (flushWords s pg).keys = s.keys ∧ (flushWords s pg).flt = s.flt ∧ (flushWords s pg).mgt = s.mgt ∧
    (flushWords s pg).cnt = s.cnt := by
  simp [flushWords]

@[simp] theorem keeps_settlePage (s : State) (pg : Nat) :
    (settlePage s pg).pending = s.pending ∧ (settlePage s pg).fresh = s.fresh ∧ (settlePage s pg).now = s.now ∧
    (settlePage s pg).outs = s.outs ∧ (settlePage s pg).pwr = s.pwr ∧ (settlePage s pg).arb = s.arb ∧
    (settlePage s pg).halves = s.halves ∧ (settlePage s pg).parts = s.parts ∧ (settlePage s pg).bars = s.bars ∧
    (settlePage s pg).ops = s.ops ∧ (settlePage s pg).ident = s.ident ∧ (settlePage s pg).models = s.models ∧
    (settlePage s pg).caps = s.caps ∧ (settlePage s pg).jets = s.jets ∧ (settlePage s pg).lanes = s.lanes ∧
    (settlePage s pg).ports = s.ports ∧ (settlePage s pg).ptp = s.ptp ∧ (settlePage s pg).ftn = s.ftn ∧
    (settlePage s pg).keys = s.keys ∧ (settlePage s pg).flt = s.flt ∧ (settlePage s pg).mgt = s.mgt ∧
    (settlePage s pg).cnt = s.cnt := by
  unfold settlePage; (repeat' split) <;> simp

@[simp] theorem keeps_settleCopy (s : State) :
    (settleCopy s).pending = s.pending ∧ (settleCopy s).fresh = s.fresh ∧ (settleCopy s).now = s.now ∧
    (settleCopy s).outs = s.outs ∧ (settleCopy s).pwr = s.pwr ∧ (settleCopy s).arb = s.arb ∧
    (settleCopy s).halves = s.halves ∧ (settleCopy s).parts = s.parts ∧ (settleCopy s).bars = s.bars ∧
    (settleCopy s).ops = s.ops ∧ (settleCopy s).ident = s.ident ∧ (settleCopy s).models = s.models ∧
    (settleCopy s).caps = s.caps ∧ (settleCopy s).jets = s.jets ∧ (settleCopy s).lanes = s.lanes ∧
    (settleCopy s).ports = s.ports ∧ (settleCopy s).ptp = s.ptp ∧ (settleCopy s).ftn = s.ftn ∧
    (settleCopy s).keys = s.keys ∧ (settleCopy s).flt = s.flt ∧ (settleCopy s).mgt = s.mgt ∧
    (settleCopy s).cnt = s.cnt := by
  simp [settleCopy]

@[simp] theorem keeps_discardPage (s : State) (pg : Nat) (a : Access) :
    (discardPage s pg a).pending = s.pending ∧ (discardPage s pg a).fresh = s.fresh ∧
    (discardPage s pg a).now = s.now ∧ (discardPage s pg a).outs = s.outs ∧ (discardPage s pg a).pwr = s.pwr ∧
    (discardPage s pg a).arb = s.arb ∧ (discardPage s pg a).halves = s.halves ∧ (discardPage s pg a).parts = s.parts ∧
    (discardPage s pg a).bars = s.bars ∧ (discardPage s pg a).ops = s.ops ∧ (discardPage s pg a).ident = s.ident ∧
    (discardPage s pg a).models = s.models ∧ (discardPage s pg a).caps = s.caps ∧ (discardPage s pg a).jets = s.jets ∧
    (discardPage s pg a).lanes = s.lanes ∧ (discardPage s pg a).ptp = s.ptp ∧ (discardPage s pg a).ftn = s.ftn ∧
    (discardPage s pg a).keys = s.keys ∧ (discardPage s pg a).flt = s.flt ∧ (discardPage s pg a).mgt = s.mgt ∧
    (discardPage s pg a).cnt = s.cnt := by
  simp [discardPage, apply_ite Page.regs, Page.captureLate]

@[simp] theorem keeps_noteHeld (s : State) (pg : Nat) :
    (noteHeld s pg).pending = s.pending ∧ (noteHeld s pg).fresh = s.fresh ∧ (noteHeld s pg).now = s.now ∧
    (noteHeld s pg).outs = s.outs ∧ (noteHeld s pg).pages = s.pages ∧ (noteHeld s pg).pwr = s.pwr ∧
    (noteHeld s pg).arb = s.arb ∧ (noteHeld s pg).halves = s.halves ∧ (noteHeld s pg).parts = s.parts ∧
    (noteHeld s pg).bars = s.bars ∧ (noteHeld s pg).ident = s.ident ∧ (noteHeld s pg).models = s.models ∧
    (noteHeld s pg).caps = s.caps ∧ (noteHeld s pg).jets = s.jets ∧ (noteHeld s pg).lanes = s.lanes ∧
    (noteHeld s pg).ports = s.ports ∧ (noteHeld s pg).ptp = s.ptp ∧ (noteHeld s pg).ftn = s.ftn ∧
    (noteHeld s pg).keys = s.keys ∧ (noteHeld s pg).flt = s.flt ∧ (noteHeld s pg).mgt = s.mgt ∧
    (noteHeld s pg).cnt = s.cnt := by
  simp [noteHeld]

@[simp] theorem keeps_holdPage (s : State) (pg : Nat) (on : Bool) (a : Access) :
    (holdPage s pg on a).pending = s.pending ∧ (holdPage s pg on a).fresh = s.fresh ∧
    (holdPage s pg on a).now = s.now ∧ (holdPage s pg on a).outs = s.outs ∧ (holdPage s pg on a).pwr = s.pwr ∧
    (holdPage s pg on a).arb = s.arb ∧ (holdPage s pg on a).halves = s.halves ∧ (holdPage s pg on a).parts = s.parts ∧
    (holdPage s pg on a).bars = s.bars ∧ (holdPage s pg on a).ident = s.ident ∧
    (holdPage s pg on a).models = s.models ∧ (holdPage s pg on a).caps = s.caps ∧ (holdPage s pg on a).jets = s.jets ∧
    (holdPage s pg on a).lanes = s.lanes ∧ (holdPage s pg on a).ptp = s.ptp ∧ (holdPage s pg on a).ftn = s.ftn ∧
    (holdPage s pg on a).keys = s.keys ∧ (holdPage s pg on a).flt = s.flt ∧ (holdPage s pg on a).mgt = s.mgt ∧
    (holdPage s pg on a).cnt = s.cnt := by
  simp [holdPage, apply_ite Page.regs, Page.captureLate]

@[simp] theorem keeps_resetPageRegs (s : State) (pg : Nat) :
    (resetPageRegs s pg).pending = s.pending ∧ (resetPageRegs s pg).fresh = s.fresh ∧
    (resetPageRegs s pg).now = s.now ∧ (resetPageRegs s pg).outs = s.outs ∧ (resetPageRegs s pg).pwr = s.pwr ∧
    (resetPageRegs s pg).arb = s.arb ∧ (resetPageRegs s pg).halves = s.halves ∧ (resetPageRegs s pg).parts = s.parts ∧
    (resetPageRegs s pg).bars = s.bars ∧ (resetPageRegs s pg).ops = s.ops ∧ (resetPageRegs s pg).ident = s.ident ∧
    (resetPageRegs s pg).models = s.models ∧ (resetPageRegs s pg).caps = s.caps ∧ (resetPageRegs s pg).jets = s.jets ∧
    (resetPageRegs s pg).lanes = s.lanes ∧ (resetPageRegs s pg).ports = s.ports ∧ (resetPageRegs s pg).ptp = s.ptp ∧
    (resetPageRegs s pg).ftn = s.ftn ∧ (resetPageRegs s pg).keys = s.keys ∧ (resetPageRegs s pg).flt = s.flt ∧
    (resetPageRegs s pg).mgt = s.mgt ∧ (resetPageRegs s pg).cnt = s.cnt := by
  simp [resetPageRegs]

@[simp] theorem keeps_busError (s : State) (p : Part) (c : Cause) (isWrite : Bool) (off : Nat) (be : BitVec 8) :
    (busError s p c isWrite off be).pending = s.pending ∧ (busError s p c isWrite off be).fresh = s.fresh ∧
    (busError s p c isWrite off be).now = s.now ∧ (busError s p c isWrite off be).pwr = s.pwr ∧
    (busError s p c isWrite off be).arb = s.arb ∧ (busError s p c isWrite off be).halves = s.halves ∧
    (busError s p c isWrite off be).ops = s.ops ∧ (busError s p c isWrite off be).models = s.models ∧
    (busError s p c isWrite off be).caps = s.caps ∧ (busError s p c isWrite off be).jets = s.jets ∧
    (busError s p c isWrite off be).lanes = s.lanes ∧ (busError s p c isWrite off be).ports = s.ports ∧
    (busError s p c isWrite off be).ptp = s.ptp ∧ (busError s p c isWrite off be).ftn = s.ftn ∧
    (busError s p c isWrite off be).keys = s.keys ∧ (busError s p c isWrite off be).mgt = s.mgt ∧
    (∀ rp ro, regOf (busError s p c isWrite off be).pages rp ro = regOf s.pages rp ro) := by
  simp [busError]

end Sys2Proof.Machine
end

