-- ==== Sys2Proof/Laws/KeepsTiming.lean ====
section
/-!
SUPPORT. Frame laws of the halves, reference slots, time domains, holdover and bounds: for each operation, the fields of the state it leaves as they are. The commands' own
frames and the invariants over a step are read off these.
-/

namespace Sys2Proof.Machine

/-! ## Halves -/

@[simp] theorem keeps_modDom (s : State) (h : Half) (d : Dom) (f : DomSt → DomSt) :
    (State.modDom s h d f).pending = s.pending ∧ (State.modDom s h d f).fresh = s.fresh ∧
    (State.modDom s h d f).now = s.now ∧ (State.modDom s h d f).outs = s.outs ∧
    (State.modDom s h d f).pages = s.pages ∧ (State.modDom s h d f).pwr = s.pwr ∧ (State.modDom s h d f).arb = s.arb ∧
    (State.modDom s h d f).parts = s.parts ∧ (State.modDom s h d f).bars = s.bars ∧
    (State.modDom s h d f).ops = s.ops ∧ (State.modDom s h d f).ident = s.ident ∧
    (State.modDom s h d f).models = s.models ∧ (State.modDom s h d f).caps = s.caps ∧
    (State.modDom s h d f).jets = s.jets ∧ (State.modDom s h d f).lanes = s.lanes ∧
    (State.modDom s h d f).ports = s.ports ∧ (State.modDom s h d f).ptp = s.ptp ∧ (State.modDom s h d f).ftn = s.ftn ∧
    (State.modDom s h d f).keys = s.keys ∧ (State.modDom s h d f).flt = s.flt ∧ (State.modDom s h d f).mgt = s.mgt ∧
    (State.modDom s h d f).cnt = s.cnt := by
  simp [State.modDom]

@[simp] theorem keeps_modSlot (s : State) (h : Half) (n : SlotNo) (f : SlotSt → SlotSt) :
    (State.modSlot s h n f).pending = s.pending ∧ (State.modSlot s h n f).fresh = s.fresh ∧
    (State.modSlot s h n f).now = s.now ∧ (State.modSlot s h n f).outs = s.outs ∧
    (State.modSlot s h n f).pages = s.pages ∧ (State.modSlot s h n f).pwr = s.pwr ∧
    (State.modSlot s h n f).arb = s.arb ∧ (State.modSlot s h n f).parts = s.parts ∧
    (State.modSlot s h n f).bars = s.bars ∧ (State.modSlot s h n f).ops = s.ops ∧
    (State.modSlot s h n f).ident = s.ident ∧ (State.modSlot s h n f).models = s.models ∧
    (State.modSlot s h n f).caps = s.caps ∧ (State.modSlot s h n f).jets = s.jets ∧
    (State.modSlot s h n f).lanes = s.lanes ∧ (State.modSlot s h n f).ports = s.ports ∧
    (State.modSlot s h n f).ptp = s.ptp ∧ (State.modSlot s h n f).ftn = s.ftn ∧
    (State.modSlot s h n f).keys = s.keys ∧ (State.modSlot s h n f).flt = s.flt ∧
    (State.modSlot s h n f).mgt = s.mgt ∧ (State.modSlot s h n f).cnt = s.cnt := by
  simp [State.modSlot]

@[simp] theorem keeps_modLath (s : State) (h : Half) (f : Lath → Lath) :
    (State.modLath s h f).pending = s.pending ∧ (State.modLath s h f).fresh = s.fresh ∧
    (State.modLath s h f).now = s.now ∧ (State.modLath s h f).outs = s.outs ∧ (State.modLath s h f).pages = s.pages ∧
    (State.modLath s h f).pwr = s.pwr ∧ (State.modLath s h f).arb = s.arb ∧ (State.modLath s h f).parts = s.parts ∧
    (State.modLath s h f).bars = s.bars ∧ (State.modLath s h f).ops = s.ops ∧ (State.modLath s h f).ident = s.ident ∧
    (State.modLath s h f).models = s.models ∧ (State.modLath s h f).caps = s.caps ∧
    (State.modLath s h f).jets = s.jets ∧ (State.modLath s h f).lanes = s.lanes ∧
    (State.modLath s h f).ports = s.ports ∧ (State.modLath s h f).ptp = s.ptp ∧ (State.modLath s h f).ftn = s.ftn ∧
    (State.modLath s h f).keys = s.keys ∧ (State.modLath s h f).flt = s.flt ∧ (State.modLath s h f).mgt = s.mgt ∧
    (State.modLath s h f).cnt = s.cnt := by
  simp [State.modLath]

@[simp] theorem keeps_evtH (s : State) (h : Half) (pg b : Nat) :
    (State.evtH s h pg b).pending = s.pending ∧ (State.evtH s h pg b).fresh = s.fresh ∧
    (State.evtH s h pg b).now = s.now ∧ (State.evtH s h pg b).pwr = s.pwr ∧ (State.evtH s h pg b).arb = s.arb ∧
    (State.evtH s h pg b).halves = s.halves ∧ (State.evtH s h pg b).parts = s.parts ∧
    (State.evtH s h pg b).ops = s.ops ∧ (State.evtH s h pg b).ident = s.ident ∧
    (State.evtH s h pg b).models = s.models ∧ (State.evtH s h pg b).caps = s.caps ∧
    (State.evtH s h pg b).jets = s.jets ∧ (State.evtH s h pg b).lanes = s.lanes ∧
    (State.evtH s h pg b).ports = s.ports ∧ (State.evtH s h pg b).ptp = s.ptp ∧ (State.evtH s h pg b).ftn = s.ftn ∧
    (State.evtH s h pg b).keys = s.keys ∧ (State.evtH s h pg b).flt = s.flt ∧ (State.evtH s h pg b).mgt = s.mgt ∧
    (∀ rp ro, regOf (State.evtH s h pg b).pages rp ro = regOf s.pages rp ro) := by
  simp [State.evtH]

@[simp] theorem keeps_lathEvt (s : State) (h : Half) (b : Nat) :
    (State.lathEvt s h b).pending = s.pending ∧ (State.lathEvt s h b).fresh = s.fresh ∧
    (State.lathEvt s h b).now = s.now ∧ (State.lathEvt s h b).pwr = s.pwr ∧ (State.lathEvt s h b).arb = s.arb ∧
    (State.lathEvt s h b).halves = s.halves ∧ (State.lathEvt s h b).parts = s.parts ∧
    (State.lathEvt s h b).ops = s.ops ∧ (State.lathEvt s h b).ident = s.ident ∧
    (State.lathEvt s h b).models = s.models ∧ (State.lathEvt s h b).caps = s.caps ∧
    (State.lathEvt s h b).jets = s.jets ∧ (State.lathEvt s h b).lanes = s.lanes ∧
    (State.lathEvt s h b).ports = s.ports ∧ (State.lathEvt s h b).ptp = s.ptp ∧ (State.lathEvt s h b).ftn = s.ftn ∧
    (State.lathEvt s h b).keys = s.keys ∧ (State.lathEvt s h b).flt = s.flt ∧
    (∀ rp ro, regOf (State.lathEvt s h b).pages rp ro = regOf s.pages rp ro) := by
  simp [State.lathEvt]

@[simp] theorem keeps_lathFault (s : State) (h : Half) (det : Nat) :
    (State.lathFault s h det).pending = s.pending ∧ (State.lathFault s h det).fresh = s.fresh ∧
    (State.lathFault s h det).now = s.now ∧ (State.lathFault s h det).outs = s.outs ∧
    (State.lathFault s h det).pwr = s.pwr ∧ (State.lathFault s h det).arb = s.arb ∧
    (State.lathFault s h det).halves = s.halves ∧ (State.lathFault s h det).parts = s.parts ∧
    (State.lathFault s h det).bars = s.bars ∧ (State.lathFault s h det).ops = s.ops ∧
    (State.lathFault s h det).models = s.models ∧ (State.lathFault s h det).caps = s.caps ∧
    (State.lathFault s h det).jets = s.jets ∧ (State.lathFault s h det).lanes = s.lanes ∧
    (State.lathFault s h det).ports = s.ports ∧ (State.lathFault s h det).ptp = s.ptp ∧
    (State.lathFault s h det).ftn = s.ftn ∧ (State.lathFault s h det).keys = s.keys ∧
    (State.lathFault s h det).mgt = s.mgt ∧
    (∀ rp ro, regOf (State.lathFault s h det).pages rp ro = regOf s.pages rp ro) := by
  simp [State.lathFault]

@[simp] theorem keeps_busNote (s : State) (h : Half) (d : Dom) :
    (State.busNote s h d).pending = s.pending ∧ (State.busNote s h d).fresh = s.fresh ∧
    (State.busNote s h d).now = s.now ∧ (State.busNote s h d).outs = s.outs ∧ (State.busNote s h d).pages = s.pages ∧
    (State.busNote s h d).pwr = s.pwr ∧ (State.busNote s h d).arb = s.arb ∧ (State.busNote s h d).parts = s.parts ∧
    (State.busNote s h d).bars = s.bars ∧ (State.busNote s h d).ops = s.ops ∧ (State.busNote s h d).ident = s.ident ∧
    (State.busNote s h d).models = s.models ∧ (State.busNote s h d).caps = s.caps ∧
    (State.busNote s h d).jets = s.jets ∧ (State.busNote s h d).lanes = s.lanes ∧
    (State.busNote s h d).ports = s.ports ∧ (State.busNote s h d).ptp = s.ptp ∧ (State.busNote s h d).ftn = s.ftn ∧
    (State.busNote s h d).keys = s.keys ∧ (State.busNote s h d).flt = s.flt ∧ (State.busNote s h d).mgt = s.mgt ∧
    (State.busNote s h d).cnt = s.cnt := by
  simp [State.busNote]

@[simp] theorem keeps_busNotes (s : State) (h : Half) :
    (State.busNotes s h).pending = s.pending ∧ (State.busNotes s h).fresh = s.fresh ∧
    (State.busNotes s h).now = s.now ∧ (State.busNotes s h).outs = s.outs ∧ (State.busNotes s h).pages = s.pages ∧
    (State.busNotes s h).pwr = s.pwr ∧ (State.busNotes s h).arb = s.arb ∧ (State.busNotes s h).parts = s.parts ∧
    (State.busNotes s h).bars = s.bars ∧ (State.busNotes s h).ops = s.ops ∧ (State.busNotes s h).ident = s.ident ∧
    (State.busNotes s h).models = s.models ∧ (State.busNotes s h).caps = s.caps ∧ (State.busNotes s h).jets = s.jets ∧
    (State.busNotes s h).lanes = s.lanes ∧ (State.busNotes s h).ports = s.ports ∧ (State.busNotes s h).ptp = s.ptp ∧
    (State.busNotes s h).ftn = s.ftn ∧ (State.busNotes s h).keys = s.keys ∧ (State.busNotes s h).flt = s.flt ∧
    (State.busNotes s h).mgt = s.mgt ∧ (State.busNotes s h).cnt = s.cnt := by
  simp [State.busNotes]

@[simp] theorem keeps_promptRise (s : State) (h : Half) (d : Dom) (ps : Rat) :
    (State.promptRise s h d ps).pending = s.pending ∧ (State.promptRise s h d ps).fresh = s.fresh ∧
    (State.promptRise s h d ps).now = s.now ∧ (State.promptRise s h d ps).pwr = s.pwr ∧
    (State.promptRise s h d ps).arb = s.arb ∧ (State.promptRise s h d ps).parts = s.parts ∧
    (State.promptRise s h d ps).ops = s.ops ∧ (State.promptRise s h d ps).ident = s.ident ∧
    (State.promptRise s h d ps).models = s.models ∧ (State.promptRise s h d ps).caps = s.caps ∧
    (State.promptRise s h d ps).jets = s.jets ∧ (State.promptRise s h d ps).lanes = s.lanes ∧
    (State.promptRise s h d ps).ports = s.ports ∧ (State.promptRise s h d ps).ptp = s.ptp ∧
    (State.promptRise s h d ps).ftn = s.ftn ∧ (State.promptRise s h d ps).keys = s.keys ∧
    (State.promptRise s h d ps).flt = s.flt ∧ (State.promptRise s h d ps).mgt = s.mgt ∧
    (∀ rp ro, regOf (State.promptRise s h d ps).pages rp ro = regOf s.pages rp ro) := by
  simp [State.promptRise]

@[simp] theorem keeps_promptUnbound (s : State) (h : Half) (d : Dom) :
    (State.promptUnbound s h d).pending = s.pending ∧ (State.promptUnbound s h d).fresh = s.fresh ∧
    (State.promptUnbound s h d).now = s.now ∧ (State.promptUnbound s h d).pwr = s.pwr ∧
    (State.promptUnbound s h d).arb = s.arb ∧ (State.promptUnbound s h d).parts = s.parts ∧
    (State.promptUnbound s h d).ops = s.ops ∧ (State.promptUnbound s h d).ident = s.ident ∧
    (State.promptUnbound s h d).models = s.models ∧ (State.promptUnbound s h d).caps = s.caps ∧
    (State.promptUnbound s h d).jets = s.jets ∧ (State.promptUnbound s h d).lanes = s.lanes ∧
    (State.promptUnbound s h d).ports = s.ports ∧ (State.promptUnbound s h d).ptp = s.ptp ∧
    (State.promptUnbound s h d).ftn = s.ftn ∧ (State.promptUnbound s h d).keys = s.keys ∧
    (State.promptUnbound s h d).flt = s.flt ∧ (State.promptUnbound s h d).mgt = s.mgt ∧
    (∀ rp ro, regOf (State.promptUnbound s h d).pages rp ro = regOf s.pages rp ro) := by
  simp [State.promptUnbound]

@[simp] theorem keeps_modStamps (s : State) (h : Half) (d : Dom) (f : Option Int → Option Int) :
    (State.modStamps s h d f).pending = s.pending ∧ (State.modStamps s h d f).fresh = s.fresh ∧
    (State.modStamps s h d f).now = s.now ∧ (State.modStamps s h d f).outs = s.outs ∧
    (State.modStamps s h d f).pages = s.pages ∧ (State.modStamps s h d f).pwr = s.pwr ∧
    (State.modStamps s h d f).arb = s.arb ∧ (State.modStamps s h d f).halves = s.halves ∧
    (State.modStamps s h d f).parts = s.parts ∧ (State.modStamps s h d f).bars = s.bars ∧
    (State.modStamps s h d f).ops = s.ops ∧ (State.modStamps s h d f).ident = s.ident ∧
    (State.modStamps s h d f).models = s.models ∧ (State.modStamps s h d f).caps = s.caps ∧
    (State.modStamps s h d f).jets = s.jets ∧ (State.modStamps s h d f).lanes = s.lanes ∧
    (State.modStamps s h d f).ports = s.ports ∧ (State.modStamps s h d f).ftn = s.ftn ∧
    (State.modStamps s h d f).keys = s.keys ∧ (State.modStamps s h d f).flt = s.flt ∧
    (State.modStamps s h d f).mgt = s.mgt ∧ (State.modStamps s h d f).cnt = s.cnt := by
  simp [State.modStamps]

/-! ## Overlay -/

@[simp] theorem keeps_putWords (s : State) (pg : Nat) (ws : KMap Word) :
    (State.putWords s pg ws).pending = s.pending ∧ (State.putWords s pg ws).fresh = s.fresh ∧
    (State.putWords s pg ws).now = s.now ∧ (State.putWords s pg ws).outs = s.outs ∧
    (State.putWords s pg ws).pwr = s.pwr ∧ (State.putWords s pg ws).arb = s.arb ∧
    (State.putWords s pg ws).halves = s.halves ∧ (State.putWords s pg ws).parts = s.parts ∧
    (State.putWords s pg ws).bars = s.bars ∧ (State.putWords s pg ws).ops = s.ops ∧
    (State.putWords s pg ws).ident = s.ident ∧ (State.putWords s pg ws).models = s.models ∧
    (State.putWords s pg ws).caps = s.caps ∧ (State.putWords s pg ws).jets = s.jets ∧
    (State.putWords s pg ws).lanes = s.lanes ∧ (State.putWords s pg ws).ports = s.ports ∧
    (State.putWords s pg ws).ptp = s.ptp ∧ (State.putWords s pg ws).ftn = s.ftn ∧
    (State.putWords s pg ws).keys = s.keys ∧ (State.putWords s pg ws).flt = s.flt ∧
    (State.putWords s pg ws).mgt = s.mgt ∧ (State.putWords s pg ws).cnt = s.cnt := by
  simp [State.putWords]

@[simp] theorem keeps_view (s : State) (h : Half) :
    (State.view s h).pending = s.pending ∧ (State.view s h).fresh = s.fresh ∧ (State.view s h).now = s.now ∧
    (State.view s h).outs = s.outs ∧ (State.view s h).pwr = s.pwr ∧ (State.view s h).arb = s.arb ∧
    (State.view s h).halves = s.halves ∧ (State.view s h).parts = s.parts ∧ (State.view s h).bars = s.bars ∧
    (State.view s h).ops = s.ops ∧ (State.view s h).ident = s.ident ∧ (State.view s h).models = s.models ∧
    (State.view s h).caps = s.caps ∧ (State.view s h).jets = s.jets ∧ (State.view s h).lanes = s.lanes ∧
    (State.view s h).ports = s.ports ∧ (State.view s h).ptp = s.ptp ∧ (State.view s h).ftn = s.ftn ∧
    (State.view s h).keys = s.keys ∧ (State.view s h).flt = s.flt ∧ (State.view s h).mgt = s.mgt ∧
    (State.view s h).cnt = s.cnt := by
  simp [State.view]

@[simp] theorem keeps_unview (t s : State) (h : Half) :
    (State.unview t s h).pending = t.pending ∧ (State.unview t s h).fresh = t.fresh ∧
    (State.unview t s h).now = t.now ∧ (State.unview t s h).outs = t.outs ∧ (State.unview t s h).pwr = t.pwr ∧
    (State.unview t s h).arb = t.arb ∧ (State.unview t s h).halves = t.halves ∧ (State.unview t s h).parts = t.parts ∧
    (State.unview t s h).bars = t.bars ∧ (State.unview t s h).ops = t.ops ∧ (State.unview t s h).ident = t.ident ∧
    (State.unview t s h).models = t.models ∧ (State.unview t s h).caps = t.caps ∧ (State.unview t s h).jets = t.jets ∧
    (State.unview t s h).lanes = t.lanes ∧ (State.unview t s h).ports = t.ports ∧ (State.unview t s h).ptp = t.ptp ∧
    (State.unview t s h).ftn = t.ftn ∧ (State.unview t s h).keys = t.keys ∧ (State.unview t s h).flt = t.flt ∧
    (State.unview t s h).mgt = t.mgt ∧ (State.unview t s h).cnt = t.cnt := by
  simp [State.unview]

theorem putWords_regs_ne {s : State} {pg : Nat} {ws : KMap Word} {q : Nat} (h : q ≠ pg) (o : Nat) :
    regOf (s.putWords pg ws).pages q o = regOf s.pages q o := by
  induction ws generalizing s with
  | nil => rfl
  | cons e r ih =>
    show regOf ((s.setReg pg e.1 e.2).putWords pg r).pages q o = _
    rw [ih]
    simp only [regOf, State.setReg, State.modPage, State.setPage, look_put_ne _ _ _ h]

theorem unview_step_regs (t s : State) (pg q o : Nat) :
    regOf (t.modPage pg (fun p => { p with regs := (s.page pg).regs })).pages q o =
      if q = pg then regOf s.pages q o else regOf t.pages q o := by
  split
  · next h => subst h; simp only [regOf, State.modPage, State.setPage, look_put_self]; rfl
  · next h => simp only [regOf, State.modPage, State.setPage, look_put_ne _ _ _ h]

theorem unview_fold_regs (s : State) (q o : Nat) : ∀ (l : List ConfSet) (t : State),
    ((∃ c ∈ l, c.page = q) ∨ regOf t.pages q o = regOf s.pages q o) →
    regOf (l.foldl (fun a c => a.modPage c.page (fun p => { p with regs := (s.page c.page).regs })) t).pages q o = regOf s.pages q o
  | [], t, h => by rcases h with ⟨c, hc, -⟩ | h; exact absurd hc (by simp); exact h
  | c :: r, t, h => by
    rw [List.foldl_cons]
    apply unview_fold_regs s q o r
    by_cases hq : q = c.page
    · exact .inr (by rw [unview_step_regs, if_pos hq])
    · rcases h with ⟨e, he, hp⟩ | h
      · rcases List.mem_cons.mp he with rfl | he
        · exact absurd hp.symm hq
        · exact .inl ⟨e, he, hp⟩
      · exact .inr (by rw [unview_step_regs, if_neg hq, h])

theorem view_regs_ne {s : State} {h : Half} {q : Nat} (o : Nat)
    (hq : ∀ c ∈ (s.half h).early ++ (s.half h).late, c.page ≠ q) : regOf (s.view h).pages q o = regOf s.pages q o := by
  have e : ∀ (l : List ConfSet) (t : State), (∀ c ∈ l, c.page ≠ q) →
      regOf (l.foldr (fun c a => a.putWords c.page c.words) t).pages q o = regOf t.pages q o := by
    intro l t hl
    induction l with
    | nil => rfl
    | cons c r ih =>
      rw [List.foldr_cons, putWords_regs_ne (hl c (by simp)).symm, ih (fun x hx => hl x (by simp [hx]))]
  have f : ∀ (l : List ConfSet) (t : State), (∀ c ∈ l, c.page ≠ q) →
      regOf (l.foldl (fun a c => a.putWords c.page c.old) t).pages q o = regOf t.pages q o := by
    intro l
    induction l with
    | nil => intros; rfl
    | cons c r ih =>
      intro t hl
      rw [List.foldl_cons, ih _ (fun x hx => hl x (by simp [hx])), putWords_regs_ne (hl c (by simp)).symm]
  unfold State.view
  rw [f _ _ (fun c hc => hq c (by simp [hc])), e _ _ (fun c hc => hq c (by simp [hc]))]

/-- Work that keeps the words in force keeps them under a half's own configuration too. -/
theorem inView_regs {s : State} {h : Half} {f : State → State} {rp ro : Nat}
    (hf : ∀ a, regOf (f a).pages rp ro = regOf a.pages rp ro) : regOf (s.inView h f).pages rp ro = regOf s.pages rp ro := by
  unfold State.inView State.unview
  apply unview_fold_regs
  by_cases hq : ∃ c ∈ (s.half h).early ++ (s.half h).late, c.page = rp
  · exact .inl hq
  · exact .inr (by rw [hf, view_regs_ne]; intro c hc e; exact hq ⟨c, hc, e⟩)

@[simp] theorem keeps_inView_pending (s : State) (h : Half) (f : State → State)
    (hf : ∀ a, (f a).pending = a.pending) : (s.inView h f).pending = s.pending := by
  simp [State.inView, hf]

@[simp] theorem keeps_inView_fresh (s : State) (h : Half) (f : State → State)
    (hf : ∀ a, (f a).fresh = a.fresh) : (s.inView h f).fresh = s.fresh := by
  simp [State.inView, hf]

@[simp] theorem keeps_inView_now (s : State) (h : Half) (f : State → State)
    (hf : ∀ a, (f a).now = a.now) : (s.inView h f).now = s.now := by
  simp [State.inView, hf]

@[simp] theorem keeps_inView_outs (s : State) (h : Half) (f : State → State)
    (hf : ∀ a, (f a).outs = a.outs) : (s.inView h f).outs = s.outs := by
  simp [State.inView, hf]

@[simp] theorem keeps_inView_pwr (s : State) (h : Half) (f : State → State)
    (hf : ∀ a, (f a).pwr = a.pwr) : (s.inView h f).pwr = s.pwr := by
  simp [State.inView, hf]

@[simp] theorem keeps_inView_arb (s : State) (h : Half) (f : State → State)
    (hf : ∀ a, (f a).arb = a.arb) : (s.inView h f).arb = s.arb := by
  simp [State.inView, hf]

@[simp] theorem keeps_inView_halves (s : State) (h : Half) (f : State → State)
    (hf : ∀ a, (f a).halves = a.halves) : (s.inView h f).halves = s.halves := by
  simp [State.inView, hf]

@[simp] theorem keeps_inView_parts (s : State) (h : Half) (f : State → State)
    (hf : ∀ a, (f a).parts = a.parts) : (s.inView h f).parts = s.parts := by
  simp [State.inView, hf]

@[simp] theorem keeps_inView_bars (s : State) (h : Half) (f : State → State)
    (hf : ∀ a, (f a).bars = a.bars) : (s.inView h f).bars = s.bars := by
  simp [State.inView, hf]

@[simp] theorem keeps_inView_ops (s : State) (h : Half) (f : State → State)
    (hf : ∀ a, (f a).ops = a.ops) : (s.inView h f).ops = s.ops := by
  simp [State.inView, hf]

@[simp] theorem keeps_inView_ident (s : State) (h : Half) (f : State → State)
    (hf : ∀ a, (f a).ident = a.ident) : (s.inView h f).ident = s.ident := by
  simp [State.inView, hf]

@[simp] theorem keeps_inView_models (s : State) (h : Half) (f : State → State)
    (hf : ∀ a, (f a).models = a.models) : (s.inView h f).models = s.models := by
  simp [State.inView, hf]

@[simp] theorem keeps_inView_caps (s : State) (h : Half) (f : State → State)
    (hf : ∀ a, (f a).caps = a.caps) : (s.inView h f).caps = s.caps := by
  simp [State.inView, hf]

@[simp] theorem keeps_inView_jets (s : State) (h : Half) (f : State → State)
    (hf : ∀ a, (f a).jets = a.jets) : (s.inView h f).jets = s.jets := by
  simp [State.inView, hf]

@[simp] theorem keeps_inView_lanes (s : State) (h : Half) (f : State → State)
    (hf : ∀ a, (f a).lanes = a.lanes) : (s.inView h f).lanes = s.lanes := by
  simp [State.inView, hf]

@[simp] theorem keeps_inView_ports (s : State) (h : Half) (f : State → State)
    (hf : ∀ a, (f a).ports = a.ports) : (s.inView h f).ports = s.ports := by
  simp [State.inView, hf]

@[simp] theorem keeps_inView_ptp (s : State) (h : Half) (f : State → State)
    (hf : ∀ a, (f a).ptp = a.ptp) : (s.inView h f).ptp = s.ptp := by
  simp [State.inView, hf]

@[simp] theorem keeps_inView_ftn (s : State) (h : Half) (f : State → State)
    (hf : ∀ a, (f a).ftn = a.ftn) : (s.inView h f).ftn = s.ftn := by
  simp [State.inView, hf]

@[simp] theorem keeps_inView_keys (s : State) (h : Half) (f : State → State)
    (hf : ∀ a, (f a).keys = a.keys) : (s.inView h f).keys = s.keys := by
  simp [State.inView, hf]

@[simp] theorem keeps_inView_flt (s : State) (h : Half) (f : State → State)
    (hf : ∀ a, (f a).flt = a.flt) : (s.inView h f).flt = s.flt := by
  simp [State.inView, hf]

@[simp] theorem keeps_inView_mgt (s : State) (h : Half) (f : State → State)
    (hf : ∀ a, (f a).mgt = a.mgt) : (s.inView h f).mgt = s.mgt := by
  simp [State.inView, hf]

@[simp] theorem keeps_inView_cnt (s : State) (h : Half) (f : State → State)
    (hf : ∀ a, (f a).cnt = a.cnt) : (s.inView h f).cnt = s.cnt := by
  simp [State.inView, hf]

@[simp] theorem keeps_inView_REGS (s : State) (h : Half) (f : State → State) (rp ro : Nat)
    (hf : ∀ a, regOf (f a).pages rp ro = regOf a.pages rp ro) : regOf (s.inView h f).pages rp ro = regOf s.pages rp ro := by
  exact inView_regs hf

@[simp] theorem keeps_halvesIn (s : State) (h : Half) (f : State → State) :
    (State.halvesIn s h f).pending = s.pending ∧ (State.halvesIn s h f).fresh = s.fresh ∧
    (State.halvesIn s h f).now = s.now ∧ (State.halvesIn s h f).outs = s.outs ∧
    (State.halvesIn s h f).pages = s.pages ∧ (State.halvesIn s h f).pwr = s.pwr ∧ (State.halvesIn s h f).arb = s.arb ∧
    (State.halvesIn s h f).parts = s.parts ∧ (State.halvesIn s h f).bars = s.bars ∧
    (State.halvesIn s h f).ops = s.ops ∧ (State.halvesIn s h f).ident = s.ident ∧
    (State.halvesIn s h f).models = s.models ∧ (State.halvesIn s h f).caps = s.caps ∧
    (State.halvesIn s h f).jets = s.jets ∧ (State.halvesIn s h f).lanes = s.lanes ∧
    (State.halvesIn s h f).ports = s.ports ∧ (State.halvesIn s h f).ptp = s.ptp ∧ (State.halvesIn s h f).ftn = s.ftn ∧
    (State.halvesIn s h f).keys = s.keys ∧ (State.halvesIn s h f).flt = s.flt ∧ (State.halvesIn s h f).mgt = s.mgt ∧
    (State.halvesIn s h f).cnt = s.cnt := by
  simp [State.halvesIn]

@[simp] theorem keeps_setTaken (h : Half) (c : ConfSet) (s : State) :
    (setTaken h c s).pending = s.pending ∧ (setTaken h c s).fresh = s.fresh ∧ (setTaken h c s).now = s.now ∧
    (setTaken h c s).outs = s.outs ∧ (setTaken h c s).pages = s.pages ∧ (setTaken h c s).pwr = s.pwr ∧
    (setTaken h c s).arb = s.arb ∧ (setTaken h c s).parts = s.parts ∧ (setTaken h c s).bars = s.bars ∧
    (setTaken h c s).ops = s.ops ∧ (setTaken h c s).ident = s.ident ∧ (setTaken h c s).models = s.models ∧
    (setTaken h c s).caps = s.caps ∧ (setTaken h c s).jets = s.jets ∧ (setTaken h c s).lanes = s.lanes ∧
    (setTaken h c s).ports = s.ports ∧ (setTaken h c s).ptp = s.ptp ∧ (setTaken h c s).ftn = s.ftn ∧
    (setTaken h c s).keys = s.keys ∧ (setTaken h c s).flt = s.flt ∧ (setTaken h c s).mgt = s.mgt ∧
    (setTaken h c s).cnt = s.cnt := by
  unfold setTaken; (repeat' split) <;> simp

@[simp] theorem keeps_takeOwn (h : Half) (c : ConfSet) (s : State) :
    (takeOwn h c s).pending = s.pending ∧ (takeOwn h c s).fresh = s.fresh ∧ (takeOwn h c s).now = s.now ∧
    (takeOwn h c s).outs = s.outs ∧ (takeOwn h c s).pages = s.pages ∧ (takeOwn h c s).pwr = s.pwr ∧
    (takeOwn h c s).arb = s.arb ∧ (takeOwn h c s).parts = s.parts ∧ (takeOwn h c s).bars = s.bars ∧
    (takeOwn h c s).ops = s.ops ∧ (takeOwn h c s).ident = s.ident ∧ (takeOwn h c s).models = s.models ∧
    (takeOwn h c s).caps = s.caps ∧ (takeOwn h c s).jets = s.jets ∧ (takeOwn h c s).lanes = s.lanes ∧
    (takeOwn h c s).ports = s.ports ∧ (takeOwn h c s).ptp = s.ptp ∧ (takeOwn h c s).ftn = s.ftn ∧
    (takeOwn h c s).keys = s.keys ∧ (takeOwn h c s).flt = s.flt ∧ (takeOwn h c s).mgt = s.mgt ∧
    (takeOwn h c s).cnt = s.cnt := by
  simp [takeOwn]

@[simp] theorem keeps_giveSet (h : Half) (c : ConfSet) (s : State) :
    (giveSet h c s).pending = s.pending ∧ (giveSet h c s).fresh = s.fresh ∧ (giveSet h c s).now = s.now ∧
    (giveSet h c s).outs = s.outs ∧ (giveSet h c s).pages = s.pages ∧ (giveSet h c s).pwr = s.pwr ∧
    (giveSet h c s).arb = s.arb ∧ (giveSet h c s).parts = s.parts ∧ (giveSet h c s).bars = s.bars ∧
    (giveSet h c s).ops = s.ops ∧ (giveSet h c s).ident = s.ident ∧ (giveSet h c s).models = s.models ∧
    (giveSet h c s).caps = s.caps ∧ (giveSet h c s).jets = s.jets ∧ (giveSet h c s).lanes = s.lanes ∧
    (giveSet h c s).ports = s.ports ∧ (giveSet h c s).ptp = s.ptp ∧ (giveSet h c s).ftn = s.ftn ∧
    (giveSet h c s).keys = s.keys ∧ (giveSet h c s).flt = s.flt ∧ (giveSet h c s).mgt = s.mgt ∧
    (giveSet h c s).cnt = s.cnt := by
  simp [giveSet]

@[simp] theorem keeps_commitSet (h : Half) (d : Dom) (n pg : Nat) (s : State) :
    (commitSet h d n pg s).pending = s.pending ∧ (commitSet h d n pg s).fresh = s.fresh ∧
    (commitSet h d n pg s).now = s.now ∧ (commitSet h d n pg s).outs = s.outs ∧ (commitSet h d n pg s).pwr = s.pwr ∧
    (commitSet h d n pg s).arb = s.arb ∧ (commitSet h d n pg s).parts = s.parts ∧
    (commitSet h d n pg s).bars = s.bars ∧ (commitSet h d n pg s).ops = s.ops ∧
    (commitSet h d n pg s).ident = s.ident ∧ (commitSet h d n pg s).models = s.models ∧
    (commitSet h d n pg s).caps = s.caps ∧ (commitSet h d n pg s).jets = s.jets ∧
    (commitSet h d n pg s).lanes = s.lanes ∧ (commitSet h d n pg s).ports = s.ports ∧
    (commitSet h d n pg s).ptp = s.ptp ∧ (commitSet h d n pg s).ftn = s.ftn ∧ (commitSet h d n pg s).keys = s.keys ∧
    (commitSet h d n pg s).flt = s.flt ∧ (commitSet h d n pg s).mgt = s.mgt ∧ (commitSet h d n pg s).cnt = s.cnt := by
  unfold commitSet; (repeat' split) <;> simp

@[simp] theorem keeps_takeEarly (h : Half) (d : Dom) (n pg : Nat) (s : State) :
    (takeEarly h d n pg s).pending = s.pending ∧ (takeEarly h d n pg s).fresh = s.fresh ∧
    (takeEarly h d n pg s).now = s.now ∧ (takeEarly h d n pg s).outs = s.outs ∧ (takeEarly h d n pg s).pwr = s.pwr ∧
    (takeEarly h d n pg s).arb = s.arb ∧ (takeEarly h d n pg s).parts = s.parts ∧
    (takeEarly h d n pg s).bars = s.bars ∧ (takeEarly h d n pg s).ops = s.ops ∧
    (takeEarly h d n pg s).ident = s.ident ∧ (takeEarly h d n pg s).models = s.models ∧
    (takeEarly h d n pg s).caps = s.caps ∧ (takeEarly h d n pg s).jets = s.jets ∧
    (takeEarly h d n pg s).lanes = s.lanes ∧ (takeEarly h d n pg s).ports = s.ports ∧
    (takeEarly h d n pg s).ptp = s.ptp ∧ (takeEarly h d n pg s).ftn = s.ftn ∧ (takeEarly h d n pg s).keys = s.keys ∧
    (takeEarly h d n pg s).flt = s.flt ∧ (takeEarly h d n pg s).mgt = s.mgt ∧ (takeEarly h d n pg s).cnt = s.cnt ∧
    (∀ rp ro, regOf (takeEarly h d n pg s).pages rp ro = regOf s.pages rp ro) := by
  simp [takeEarly, apply_ite Page.regs, Page.captureLate]

@[simp] theorem keeps_takeLate (h : Half) (d : Dom) (upTo : Option Nat) (s : State) :
    (takeLate h d upTo s).pending = s.pending ∧ (takeLate h d upTo s).fresh = s.fresh ∧
    (takeLate h d upTo s).now = s.now ∧ (takeLate h d upTo s).outs = s.outs ∧ (takeLate h d upTo s).pages = s.pages ∧
    (takeLate h d upTo s).pwr = s.pwr ∧ (takeLate h d upTo s).arb = s.arb ∧ (takeLate h d upTo s).parts = s.parts ∧
    (takeLate h d upTo s).bars = s.bars ∧ (takeLate h d upTo s).ops = s.ops ∧ (takeLate h d upTo s).ident = s.ident ∧
    (takeLate h d upTo s).models = s.models ∧ (takeLate h d upTo s).caps = s.caps ∧
    (takeLate h d upTo s).jets = s.jets ∧ (takeLate h d upTo s).lanes = s.lanes ∧
    (takeLate h d upTo s).ports = s.ports ∧ (takeLate h d upTo s).ptp = s.ptp ∧ (takeLate h d upTo s).ftn = s.ftn ∧
    (takeLate h d upTo s).keys = s.keys ∧ (takeLate h d upTo s).flt = s.flt ∧ (takeLate h d upTo s).mgt = s.mgt ∧
    (takeLate h d upTo s).cnt = s.cnt := by
  simp [takeLate]

@[simp] theorem keeps_settleEarly (h : Half) (s : State) :
    (settleEarly h s).pending = s.pending ∧ (settleEarly h s).fresh = s.fresh ∧ (settleEarly h s).now = s.now ∧
    (settleEarly h s).outs = s.outs ∧ (settleEarly h s).pwr = s.pwr ∧ (settleEarly h s).arb = s.arb ∧
    (settleEarly h s).parts = s.parts ∧ (settleEarly h s).bars = s.bars ∧ (settleEarly h s).ops = s.ops ∧
    (settleEarly h s).ident = s.ident ∧ (settleEarly h s).models = s.models ∧ (settleEarly h s).caps = s.caps ∧
    (settleEarly h s).jets = s.jets ∧ (settleEarly h s).lanes = s.lanes ∧ (settleEarly h s).ports = s.ports ∧
    (settleEarly h s).ptp = s.ptp ∧ (settleEarly h s).ftn = s.ftn ∧ (settleEarly h s).keys = s.keys ∧
    (settleEarly h s).flt = s.flt ∧ (settleEarly h s).mgt = s.mgt ∧ (settleEarly h s).cnt = s.cnt := by
  simp [settleEarly]

@[simp] theorem keeps_dropSets (pg : Nat) (s : State) :
    (dropSets pg s).pending = s.pending ∧ (dropSets pg s).fresh = s.fresh ∧ (dropSets pg s).now = s.now ∧
    (dropSets pg s).outs = s.outs ∧ (dropSets pg s).pages = s.pages ∧ (dropSets pg s).pwr = s.pwr ∧
    (dropSets pg s).arb = s.arb ∧ (dropSets pg s).parts = s.parts ∧ (dropSets pg s).bars = s.bars ∧
    (dropSets pg s).ops = s.ops ∧ (dropSets pg s).ident = s.ident ∧ (dropSets pg s).models = s.models ∧
    (dropSets pg s).caps = s.caps ∧ (dropSets pg s).jets = s.jets ∧ (dropSets pg s).lanes = s.lanes ∧
    (dropSets pg s).ports = s.ports ∧ (dropSets pg s).ptp = s.ptp ∧ (dropSets pg s).ftn = s.ftn ∧
    (dropSets pg s).keys = s.keys ∧ (dropSets pg s).flt = s.flt ∧ (dropSets pg s).mgt = s.mgt ∧
    (dropSets pg s).cnt = s.cnt := by
  simp [dropSets]

/-! ## Slots -/

@[simp] theorem keeps_modSd (s : State) (h : Half) (n : SlotNo) (d : Dom) (f : SlotDom → SlotDom) :
    (State.modSd s h n d f).pending = s.pending ∧ (State.modSd s h n d f).fresh = s.fresh ∧
    (State.modSd s h n d f).now = s.now ∧ (State.modSd s h n d f).outs = s.outs ∧
    (State.modSd s h n d f).pages = s.pages ∧ (State.modSd s h n d f).pwr = s.pwr ∧
    (State.modSd s h n d f).arb = s.arb ∧ (State.modSd s h n d f).parts = s.parts ∧
    (State.modSd s h n d f).bars = s.bars ∧ (State.modSd s h n d f).ops = s.ops ∧
    (State.modSd s h n d f).ident = s.ident ∧ (State.modSd s h n d f).models = s.models ∧
    (State.modSd s h n d f).caps = s.caps ∧ (State.modSd s h n d f).jets = s.jets ∧
    (State.modSd s h n d f).lanes = s.lanes ∧ (State.modSd s h n d f).ports = s.ports ∧
    (State.modSd s h n d f).ptp = s.ptp ∧ (State.modSd s h n d f).ftn = s.ftn ∧
    (State.modSd s h n d f).keys = s.keys ∧ (State.modSd s h n d f).flt = s.flt ∧
    (State.modSd s h n d f).mgt = s.mgt ∧ (State.modSd s h n d f).cnt = s.cnt := by
  simp [State.modSd]

@[simp] theorem keeps_modPend (s : State) (h : Half) (n : SlotNo) (f : SlotPend → SlotPend) :
    (State.modPend s h n f).pending = s.pending ∧ (State.modPend s h n f).fresh = s.fresh ∧
    (State.modPend s h n f).now = s.now ∧ (State.modPend s h n f).outs = s.outs ∧
    (State.modPend s h n f).pages = s.pages ∧ (State.modPend s h n f).pwr = s.pwr ∧
    (State.modPend s h n f).arb = s.arb ∧ (State.modPend s h n f).parts = s.parts ∧
    (State.modPend s h n f).bars = s.bars ∧ (State.modPend s h n f).ops = s.ops ∧
    (State.modPend s h n f).ident = s.ident ∧ (State.modPend s h n f).models = s.models ∧
    (State.modPend s h n f).caps = s.caps ∧ (State.modPend s h n f).jets = s.jets ∧
    (State.modPend s h n f).lanes = s.lanes ∧ (State.modPend s h n f).ports = s.ports ∧
    (State.modPend s h n f).ptp = s.ptp ∧ (State.modPend s h n f).ftn = s.ftn ∧
    (State.modPend s h n f).keys = s.keys ∧ (State.modPend s h n f).flt = s.flt ∧
    (State.modPend s h n f).mgt = s.mgt ∧ (State.modPend s h n f).cnt = s.cnt := by
  simp [State.modPend]

@[simp] theorem keeps_slotEvt (s : State) (h : Half) (n : SlotNo) (b : Nat) :
    (State.slotEvt s h n b).pending = s.pending ∧ (State.slotEvt s h n b).fresh = s.fresh ∧
    (State.slotEvt s h n b).now = s.now ∧ (State.slotEvt s h n b).pwr = s.pwr ∧ (State.slotEvt s h n b).arb = s.arb ∧
    (State.slotEvt s h n b).halves = s.halves ∧ (State.slotEvt s h n b).parts = s.parts ∧
    (State.slotEvt s h n b).ops = s.ops ∧ (State.slotEvt s h n b).ident = s.ident ∧
    (State.slotEvt s h n b).models = s.models ∧ (State.slotEvt s h n b).caps = s.caps ∧
    (State.slotEvt s h n b).jets = s.jets ∧ (State.slotEvt s h n b).lanes = s.lanes ∧
    (State.slotEvt s h n b).ports = s.ports ∧ (State.slotEvt s h n b).ptp = s.ptp ∧
    (State.slotEvt s h n b).ftn = s.ftn ∧ (State.slotEvt s h n b).keys = s.keys ∧
    (State.slotEvt s h n b).flt = s.flt ∧ (∀ rp ro, regOf (State.slotEvt s h n b).pages rp ro = regOf s.pages rp ro) := by
  simp [State.slotEvt]

@[simp] theorem keeps_failSlot (s : State) (h : Half) (n : SlotNo) (cause : Nat) :
    (State.failSlot s h n cause).pending = s.pending ∧ (State.failSlot s h n cause).fresh = s.fresh ∧
    (State.failSlot s h n cause).now = s.now ∧ (State.failSlot s h n cause).outs = s.outs ∧
    (State.failSlot s h n cause).pages = s.pages ∧ (State.failSlot s h n cause).pwr = s.pwr ∧
    (State.failSlot s h n cause).arb = s.arb ∧ (State.failSlot s h n cause).parts = s.parts ∧
    (State.failSlot s h n cause).bars = s.bars ∧ (State.failSlot s h n cause).ops = s.ops ∧
    (State.failSlot s h n cause).ident = s.ident ∧ (State.failSlot s h n cause).models = s.models ∧
    (State.failSlot s h n cause).caps = s.caps ∧ (State.failSlot s h n cause).jets = s.jets ∧
    (State.failSlot s h n cause).lanes = s.lanes ∧ (State.failSlot s h n cause).ports = s.ports ∧
    (State.failSlot s h n cause).ptp = s.ptp ∧ (State.failSlot s h n cause).ftn = s.ftn ∧
    (State.failSlot s h n cause).keys = s.keys ∧ (State.failSlot s h n cause).flt = s.flt ∧
    (State.failSlot s h n cause).mgt = s.mgt ∧ (State.failSlot s h n cause).cnt = s.cnt := by
  simp [State.failSlot]

@[simp] theorem keeps_failPhase (s : State) (h : Half) (n : SlotNo) (ratio : Rat) :
    (State.failPhase s h n ratio).pending = s.pending ∧ (State.failPhase s h n ratio).fresh = s.fresh ∧
    (State.failPhase s h n ratio).now = s.now ∧ (State.failPhase s h n ratio).outs = s.outs ∧
    (State.failPhase s h n ratio).pages = s.pages ∧ (State.failPhase s h n ratio).pwr = s.pwr ∧
    (State.failPhase s h n ratio).arb = s.arb ∧ (State.failPhase s h n ratio).parts = s.parts ∧
    (State.failPhase s h n ratio).bars = s.bars ∧ (State.failPhase s h n ratio).ops = s.ops ∧
    (State.failPhase s h n ratio).ident = s.ident ∧ (State.failPhase s h n ratio).models = s.models ∧
    (State.failPhase s h n ratio).caps = s.caps ∧ (State.failPhase s h n ratio).jets = s.jets ∧
    (State.failPhase s h n ratio).lanes = s.lanes ∧ (State.failPhase s h n ratio).ports = s.ports ∧
    (State.failPhase s h n ratio).ptp = s.ptp ∧ (State.failPhase s h n ratio).ftn = s.ftn ∧
    (State.failPhase s h n ratio).keys = s.keys ∧ (State.failPhase s h n ratio).flt = s.flt ∧
    (State.failPhase s h n ratio).mgt = s.mgt ∧ (State.failPhase s h n ratio).cnt = s.cnt := by
  simp [State.failPhase]

@[simp] theorem keeps_stepSeen (s : State) (h : Half) (n : SlotNo) :
    (State.stepSeen s h n).pending = s.pending ∧ (State.stepSeen s h n).fresh = s.fresh ∧
    (State.stepSeen s h n).now = s.now ∧ (State.stepSeen s h n).pwr = s.pwr ∧ (State.stepSeen s h n).arb = s.arb ∧
    (State.stepSeen s h n).parts = s.parts ∧ (State.stepSeen s h n).ops = s.ops ∧
    (State.stepSeen s h n).ident = s.ident ∧ (State.stepSeen s h n).models = s.models ∧
    (State.stepSeen s h n).caps = s.caps ∧ (State.stepSeen s h n).jets = s.jets ∧
    (State.stepSeen s h n).lanes = s.lanes ∧ (State.stepSeen s h n).ports = s.ports ∧
    (State.stepSeen s h n).ptp = s.ptp ∧ (State.stepSeen s h n).ftn = s.ftn ∧ (State.stepSeen s h n).keys = s.keys ∧
    (State.stepSeen s h n).flt = s.flt ∧ (∀ rp ro, regOf (State.stepSeen s h n).pages rp ro = regOf s.pages rp ro) := by
  simp [State.stepSeen]

@[simp] theorem keeps_phaseLimit (h : Half) (n : SlotNo) (d : Dom) (s : State) :
    (phaseLimit h n d s).pending = s.pending ∧ (phaseLimit h n d s).fresh = s.fresh ∧
    (phaseLimit h n d s).now = s.now ∧ (phaseLimit h n d s).outs = s.outs ∧ (phaseLimit h n d s).pages = s.pages ∧
    (phaseLimit h n d s).pwr = s.pwr ∧ (phaseLimit h n d s).arb = s.arb ∧ (phaseLimit h n d s).parts = s.parts ∧
    (phaseLimit h n d s).bars = s.bars ∧ (phaseLimit h n d s).ops = s.ops ∧ (phaseLimit h n d s).ident = s.ident ∧
    (phaseLimit h n d s).models = s.models ∧ (phaseLimit h n d s).caps = s.caps ∧ (phaseLimit h n d s).jets = s.jets ∧
    (phaseLimit h n d s).lanes = s.lanes ∧ (phaseLimit h n d s).ports = s.ports ∧ (phaseLimit h n d s).ptp = s.ptp ∧
    (phaseLimit h n d s).ftn = s.ftn ∧ (phaseLimit h n d s).keys = s.keys ∧ (phaseLimit h n d s).flt = s.flt ∧
    (phaseLimit h n d s).mgt = s.mgt ∧ (phaseLimit h n d s).cnt = s.cnt := by
  simp [phaseLimit]

@[simp] theorem keeps_observeIn (h : Half) (n : SlotNo) (d : Dom) (m : PulseMark) (raw : Int) (s : State) :
    (observeIn h n d m raw s).pending = s.pending ∧ (observeIn h n d m raw s).now = s.now ∧
    (observeIn h n d m raw s).pwr = s.pwr ∧ (observeIn h n d m raw s).arb = s.arb ∧
    (observeIn h n d m raw s).parts = s.parts ∧ (observeIn h n d m raw s).ops = s.ops ∧
    (observeIn h n d m raw s).ident = s.ident ∧ (observeIn h n d m raw s).models = s.models ∧
    (observeIn h n d m raw s).caps = s.caps ∧ (observeIn h n d m raw s).jets = s.jets ∧
    (observeIn h n d m raw s).lanes = s.lanes ∧ (observeIn h n d m raw s).ports = s.ports ∧
    (observeIn h n d m raw s).ptp = s.ptp ∧ (observeIn h n d m raw s).ftn = s.ftn ∧
    (observeIn h n d m raw s).keys = s.keys ∧ (observeIn h n d m raw s).flt = s.flt ∧
    (∀ rp ro, regOf (observeIn h n d m raw s).pages rp ro = regOf s.pages rp ro) := by
  simp [observeIn]

@[simp] theorem keeps_observeClk (h : Half) (n : SlotNo) (d : Dom) (raw : Int) (s : State) :
    (observeClk h n d raw s).pending = s.pending ∧ (observeClk h n d raw s).fresh = s.fresh ∧
    (observeClk h n d raw s).now = s.now ∧ (observeClk h n d raw s).outs = s.outs ∧
    (observeClk h n d raw s).pages = s.pages ∧ (observeClk h n d raw s).pwr = s.pwr ∧
    (observeClk h n d raw s).arb = s.arb ∧ (observeClk h n d raw s).parts = s.parts ∧
    (observeClk h n d raw s).bars = s.bars ∧ (observeClk h n d raw s).ops = s.ops ∧
    (observeClk h n d raw s).ident = s.ident ∧ (observeClk h n d raw s).models = s.models ∧
    (observeClk h n d raw s).caps = s.caps ∧ (observeClk h n d raw s).jets = s.jets ∧
    (observeClk h n d raw s).lanes = s.lanes ∧ (observeClk h n d raw s).ports = s.ports ∧
    (observeClk h n d raw s).ptp = s.ptp ∧ (observeClk h n d raw s).ftn = s.ftn ∧
    (observeClk h n d raw s).keys = s.keys ∧ (observeClk h n d raw s).flt = s.flt ∧
    (observeClk h n d raw s).mgt = s.mgt ∧ (observeClk h n d raw s).cnt = s.cnt := by
  simp [observeClk]

@[simp] theorem keeps_adoptDone (s : State) (h : Half) (n : SlotNo) :
    (State.adoptDone s h n).pending = s.pending ∧ (State.adoptDone s h n).fresh = s.fresh ∧
    (State.adoptDone s h n).now = s.now ∧ (State.adoptDone s h n).pwr = s.pwr ∧ (State.adoptDone s h n).arb = s.arb ∧
    (State.adoptDone s h n).parts = s.parts ∧ (State.adoptDone s h n).ops = s.ops ∧
    (State.adoptDone s h n).ident = s.ident ∧ (State.adoptDone s h n).models = s.models ∧
    (State.adoptDone s h n).caps = s.caps ∧ (State.adoptDone s h n).jets = s.jets ∧
    (State.adoptDone s h n).lanes = s.lanes ∧ (State.adoptDone s h n).ports = s.ports ∧
    (State.adoptDone s h n).ptp = s.ptp ∧ (State.adoptDone s h n).ftn = s.ftn ∧
    (State.adoptDone s h n).keys = s.keys ∧ (State.adoptDone s h n).flt = s.flt ∧
    (∀ rp ro, regOf (State.adoptDone s h n).pages rp ro = regOf s.pages rp ro) := by
  simp [State.adoptDone]

@[simp] theorem keeps_observeRaw (h : Half) (n : SlotNo) (r : Option Int) (d : Dom) (s : State) :
    (observeRaw h n r d s).pending = s.pending ∧ (observeRaw h n r d s).now = s.now ∧
    (observeRaw h n r d s).pwr = s.pwr ∧ (observeRaw h n r d s).arb = s.arb ∧ (observeRaw h n r d s).parts = s.parts ∧
    (observeRaw h n r d s).ops = s.ops ∧ (observeRaw h n r d s).ident = s.ident ∧
    (observeRaw h n r d s).models = s.models ∧ (observeRaw h n r d s).caps = s.caps ∧
    (observeRaw h n r d s).jets = s.jets ∧ (observeRaw h n r d s).lanes = s.lanes ∧
    (observeRaw h n r d s).ports = s.ports ∧ (observeRaw h n r d s).ptp = s.ptp ∧ (observeRaw h n r d s).ftn = s.ftn ∧
    (observeRaw h n r d s).keys = s.keys ∧ (observeRaw h n r d s).flt = s.flt ∧
    (∀ rp ro, regOf (observeRaw h n r d s).pages rp ro = regOf s.pages rp ro) := by
  unfold observeRaw; (repeat' split) <;> simp

@[simp] theorem keeps_observe (h : Half) (n : SlotNo) (raw : List Int) (s : State) :
    (observe h n raw s).pending = s.pending ∧ (observe h n raw s).now = s.now ∧ (observe h n raw s).pwr = s.pwr ∧
    (observe h n raw s).arb = s.arb ∧ (observe h n raw s).parts = s.parts ∧ (observe h n raw s).ops = s.ops ∧
    (observe h n raw s).ident = s.ident ∧ (observe h n raw s).models = s.models ∧ (observe h n raw s).caps = s.caps ∧
    (observe h n raw s).jets = s.jets ∧ (observe h n raw s).lanes = s.lanes ∧ (observe h n raw s).ports = s.ports ∧
    (observe h n raw s).ptp = s.ptp ∧ (observe h n raw s).ftn = s.ftn ∧ (observe h n raw s).keys = s.keys ∧
    (observe h n raw s).flt = s.flt ∧ (∀ rp ro, regOf (observe h n raw s).pages rp ro = regOf s.pages rp ro) := by
  simp [observe]

@[simp] theorem keeps_labelIn (h : Half) (n : SlotNo) (sec : Nat) (p : Option PulseMark) (d : Dom) (s : State) :
    (labelIn h n sec p d s).pending = s.pending ∧ (labelIn h n sec p d s).now = s.now ∧
    (labelIn h n sec p d s).pwr = s.pwr ∧ (labelIn h n sec p d s).arb = s.arb ∧
    (labelIn h n sec p d s).parts = s.parts ∧ (labelIn h n sec p d s).ops = s.ops ∧
    (labelIn h n sec p d s).ident = s.ident ∧ (labelIn h n sec p d s).models = s.models ∧
    (labelIn h n sec p d s).caps = s.caps ∧ (labelIn h n sec p d s).jets = s.jets ∧
    (labelIn h n sec p d s).lanes = s.lanes ∧ (labelIn h n sec p d s).ports = s.ports ∧
    (labelIn h n sec p d s).ptp = s.ptp ∧ (labelIn h n sec p d s).ftn = s.ftn ∧
    (labelIn h n sec p d s).keys = s.keys ∧ (labelIn h n sec p d s).flt = s.flt ∧
    (∀ rp ro, regOf (labelIn h n sec p d s).pages rp ro = regOf s.pages rp ro) := by
  unfold labelIn; (repeat' split) <;> simp

@[simp] theorem keeps_labelPulse (h : Half) (n : SlotNo) (sec : Nat) (s : State) :
    (labelPulse h n sec s).pending = s.pending ∧ (labelPulse h n sec s).now = s.now ∧
    (labelPulse h n sec s).pwr = s.pwr ∧ (labelPulse h n sec s).arb = s.arb ∧ (labelPulse h n sec s).parts = s.parts ∧
    (labelPulse h n sec s).ops = s.ops ∧ (labelPulse h n sec s).ident = s.ident ∧
    (labelPulse h n sec s).models = s.models ∧ (labelPulse h n sec s).caps = s.caps ∧
    (labelPulse h n sec s).jets = s.jets ∧ (labelPulse h n sec s).lanes = s.lanes ∧
    (labelPulse h n sec s).ports = s.ports ∧ (labelPulse h n sec s).ptp = s.ptp ∧ (labelPulse h n sec s).ftn = s.ftn ∧
    (labelPulse h n sec s).keys = s.keys ∧ (labelPulse h n sec s).flt = s.flt ∧
    (∀ rp ro, regOf (labelPulse h n sec s).pages rp ro = regOf s.pages rp ro) := by
  simp [labelPulse]

@[simp] theorem keeps_pulseRaw (h : Half) (n : SlotNo) (r : Option Int) (d : Dom) (s : State) :
    (pulseRaw h n r d s).pending = s.pending ∧ (pulseRaw h n r d s).fresh = s.fresh ∧
    (pulseRaw h n r d s).now = s.now ∧ (pulseRaw h n r d s).outs = s.outs ∧ (pulseRaw h n r d s).pages = s.pages ∧
    (pulseRaw h n r d s).pwr = s.pwr ∧ (pulseRaw h n r d s).arb = s.arb ∧ (pulseRaw h n r d s).parts = s.parts ∧
    (pulseRaw h n r d s).bars = s.bars ∧ (pulseRaw h n r d s).ops = s.ops ∧ (pulseRaw h n r d s).ident = s.ident ∧
    (pulseRaw h n r d s).models = s.models ∧ (pulseRaw h n r d s).caps = s.caps ∧ (pulseRaw h n r d s).jets = s.jets ∧
    (pulseRaw h n r d s).lanes = s.lanes ∧ (pulseRaw h n r d s).ports = s.ports ∧ (pulseRaw h n r d s).ptp = s.ptp ∧
    (pulseRaw h n r d s).ftn = s.ftn ∧ (pulseRaw h n r d s).keys = s.keys ∧ (pulseRaw h n r d s).flt = s.flt ∧
    (pulseRaw h n r d s).mgt = s.mgt ∧ (pulseRaw h n r d s).cnt = s.cnt := by
  unfold pulseRaw; (repeat' split) <;> simp

@[simp] theorem keeps_pulseSeen (h : Half) (n : SlotNo) (raw : List Int) (s : State) :
    (pulseSeen h n raw s).pending = s.pending ∧ (pulseSeen h n raw s).now = s.now ∧
    (pulseSeen h n raw s).pwr = s.pwr ∧ (pulseSeen h n raw s).arb = s.arb ∧ (pulseSeen h n raw s).parts = s.parts ∧
    (pulseSeen h n raw s).ops = s.ops ∧ (pulseSeen h n raw s).ident = s.ident ∧
    (pulseSeen h n raw s).models = s.models ∧ (pulseSeen h n raw s).caps = s.caps ∧
    (pulseSeen h n raw s).jets = s.jets ∧ (pulseSeen h n raw s).lanes = s.lanes ∧
    (pulseSeen h n raw s).ports = s.ports ∧ (pulseSeen h n raw s).ptp = s.ptp ∧ (pulseSeen h n raw s).ftn = s.ftn ∧
    (pulseSeen h n raw s).keys = s.keys ∧ (pulseSeen h n raw s).flt = s.flt ∧
    (∀ rp ro, regOf (pulseSeen h n raw s).pages rp ro = regOf s.pages rp ro) := by
  unfold pulseSeen; (repeat' split) <;> simp

@[simp] theorem keeps_clkRaw (h : Half) (n : SlotNo) (r : Option Int) (d : Dom) (s : State) :
    (clkRaw h n r d s).pending = s.pending ∧ (clkRaw h n r d s).fresh = s.fresh ∧ (clkRaw h n r d s).now = s.now ∧
    (clkRaw h n r d s).outs = s.outs ∧ (clkRaw h n r d s).pages = s.pages ∧ (clkRaw h n r d s).pwr = s.pwr ∧
    (clkRaw h n r d s).arb = s.arb ∧ (clkRaw h n r d s).parts = s.parts ∧ (clkRaw h n r d s).bars = s.bars ∧
    (clkRaw h n r d s).ops = s.ops ∧ (clkRaw h n r d s).ident = s.ident ∧ (clkRaw h n r d s).models = s.models ∧
    (clkRaw h n r d s).caps = s.caps ∧ (clkRaw h n r d s).jets = s.jets ∧ (clkRaw h n r d s).lanes = s.lanes ∧
    (clkRaw h n r d s).ports = s.ports ∧ (clkRaw h n r d s).ptp = s.ptp ∧ (clkRaw h n r d s).ftn = s.ftn ∧
    (clkRaw h n r d s).keys = s.keys ∧ (clkRaw h n r d s).flt = s.flt ∧ (clkRaw h n r d s).mgt = s.mgt ∧
    (clkRaw h n r d s).cnt = s.cnt := by
  unfold clkRaw; (repeat' split) <;> simp

@[simp] theorem keeps_slotObservation (h : Half) (n : SlotNo) (clk : Bool) (raw : List Int) (s : State) :
    (slotObservation h n clk raw s).pending = s.pending ∧ (slotObservation h n clk raw s).now = s.now ∧
    (slotObservation h n clk raw s).pwr = s.pwr ∧ (slotObservation h n clk raw s).arb = s.arb ∧
    (slotObservation h n clk raw s).parts = s.parts ∧ (slotObservation h n clk raw s).ops = s.ops ∧
    (slotObservation h n clk raw s).ident = s.ident ∧ (slotObservation h n clk raw s).models = s.models ∧
    (slotObservation h n clk raw s).caps = s.caps ∧ (slotObservation h n clk raw s).jets = s.jets ∧
    (slotObservation h n clk raw s).lanes = s.lanes ∧ (slotObservation h n clk raw s).ports = s.ports ∧
    (slotObservation h n clk raw s).ptp = s.ptp ∧ (slotObservation h n clk raw s).ftn = s.ftn ∧
    (slotObservation h n clk raw s).keys = s.keys ∧ (slotObservation h n clk raw s).flt = s.flt ∧
    (∀ rp ro, regOf (slotObservation h n clk raw s).pages rp ro = regOf s.pages rp ro) := by
  simp [slotObservation]

@[simp] theorem keeps_noteGrid64 (h : Half) (n : SlotNo) (d : Dom) (s : State) :
    (noteGrid64 h n d s).pending = s.pending ∧ (noteGrid64 h n d s).fresh = s.fresh ∧
    (noteGrid64 h n d s).now = s.now ∧ (noteGrid64 h n d s).outs = s.outs ∧ (noteGrid64 h n d s).pages = s.pages ∧
    (noteGrid64 h n d s).pwr = s.pwr ∧ (noteGrid64 h n d s).arb = s.arb ∧ (noteGrid64 h n d s).parts = s.parts ∧
    (noteGrid64 h n d s).bars = s.bars ∧ (noteGrid64 h n d s).ops = s.ops ∧ (noteGrid64 h n d s).ident = s.ident ∧
    (noteGrid64 h n d s).models = s.models ∧ (noteGrid64 h n d s).caps = s.caps ∧ (noteGrid64 h n d s).jets = s.jets ∧
    (noteGrid64 h n d s).lanes = s.lanes ∧ (noteGrid64 h n d s).ports = s.ports ∧ (noteGrid64 h n d s).ptp = s.ptp ∧
    (noteGrid64 h n d s).ftn = s.ftn ∧ (noteGrid64 h n d s).keys = s.keys ∧ (noteGrid64 h n d s).flt = s.flt ∧
    (noteGrid64 h n d s).mgt = s.mgt ∧ (noteGrid64 h n d s).cnt = s.cnt := by
  simp [noteGrid64]

@[simp] theorem keeps_evalWindow (h : Half) (n : SlotNo) (m : FreqMon) (d : Dom) (s : State) :
    (evalWindow h n m d s).pending = s.pending ∧ (evalWindow h n m d s).fresh = s.fresh ∧
    (evalWindow h n m d s).now = s.now ∧ (evalWindow h n m d s).outs = s.outs ∧
    (evalWindow h n m d s).pages = s.pages ∧ (evalWindow h n m d s).pwr = s.pwr ∧ (evalWindow h n m d s).arb = s.arb ∧
    (evalWindow h n m d s).parts = s.parts ∧ (evalWindow h n m d s).bars = s.bars ∧
    (evalWindow h n m d s).ops = s.ops ∧ (evalWindow h n m d s).ident = s.ident ∧
    (evalWindow h n m d s).models = s.models ∧ (evalWindow h n m d s).caps = s.caps ∧
    (evalWindow h n m d s).jets = s.jets ∧ (evalWindow h n m d s).lanes = s.lanes ∧
    (evalWindow h n m d s).ports = s.ports ∧ (evalWindow h n m d s).ptp = s.ptp ∧ (evalWindow h n m d s).ftn = s.ftn ∧
    (evalWindow h n m d s).keys = s.keys ∧ (evalWindow h n m d s).flt = s.flt ∧ (evalWindow h n m d s).mgt = s.mgt ∧
    (evalWindow h n m d s).cnt = s.cnt := by
  simp [evalWindow]

@[simp] theorem keeps_evalDrift (h : Half) (n : SlotNo) (d : Dom) (s0 : State) :
    (evalDrift h n d s0).pending = s0.pending ∧ (evalDrift h n d s0).fresh = s0.fresh ∧
    (evalDrift h n d s0).now = s0.now ∧ (evalDrift h n d s0).outs = s0.outs ∧ (evalDrift h n d s0).pages = s0.pages ∧
    (evalDrift h n d s0).pwr = s0.pwr ∧ (evalDrift h n d s0).arb = s0.arb ∧ (evalDrift h n d s0).parts = s0.parts ∧
    (evalDrift h n d s0).bars = s0.bars ∧ (evalDrift h n d s0).ops = s0.ops ∧ (evalDrift h n d s0).ident = s0.ident ∧
    (evalDrift h n d s0).models = s0.models ∧ (evalDrift h n d s0).caps = s0.caps ∧
    (evalDrift h n d s0).jets = s0.jets ∧ (evalDrift h n d s0).lanes = s0.lanes ∧
    (evalDrift h n d s0).ports = s0.ports ∧ (evalDrift h n d s0).ptp = s0.ptp ∧ (evalDrift h n d s0).ftn = s0.ftn ∧
    (evalDrift h n d s0).keys = s0.keys ∧ (evalDrift h n d s0).flt = s0.flt ∧ (evalDrift h n d s0).mgt = s0.mgt ∧
    (evalDrift h n d s0).cnt = s0.cnt := by
  simp [evalDrift]

@[simp] theorem keeps_evalMonitor (h : Half) (n : SlotNo) (m : FreqMon) (d : Dom) (s : State) :
    (evalMonitor h n m d s).pending = s.pending ∧ (evalMonitor h n m d s).fresh = s.fresh ∧
    (evalMonitor h n m d s).now = s.now ∧ (evalMonitor h n m d s).outs = s.outs ∧
    (evalMonitor h n m d s).pages = s.pages ∧ (evalMonitor h n m d s).pwr = s.pwr ∧
    (evalMonitor h n m d s).arb = s.arb ∧ (evalMonitor h n m d s).parts = s.parts ∧
    (evalMonitor h n m d s).bars = s.bars ∧ (evalMonitor h n m d s).ops = s.ops ∧
    (evalMonitor h n m d s).ident = s.ident ∧ (evalMonitor h n m d s).models = s.models ∧
    (evalMonitor h n m d s).caps = s.caps ∧ (evalMonitor h n m d s).jets = s.jets ∧
    (evalMonitor h n m d s).lanes = s.lanes ∧ (evalMonitor h n m d s).ports = s.ports ∧
    (evalMonitor h n m d s).ptp = s.ptp ∧ (evalMonitor h n m d s).ftn = s.ftn ∧
    (evalMonitor h n m d s).keys = s.keys ∧ (evalMonitor h n m d s).flt = s.flt ∧
    (evalMonitor h n m d s).mgt = s.mgt ∧ (evalMonitor h n m d s).cnt = s.cnt := by
  unfold evalMonitor; (repeat' split) <;> simp

@[simp] theorem keeps_freqMonitorEval (h : Half) (n : SlotNo) (m : FreqMon) (s : State) :
    (freqMonitorEval h n m s).pending = s.pending ∧ (freqMonitorEval h n m s).fresh = s.fresh ∧
    (freqMonitorEval h n m s).now = s.now ∧ (freqMonitorEval h n m s).outs = s.outs ∧
    (freqMonitorEval h n m s).pages = s.pages ∧ (freqMonitorEval h n m s).pwr = s.pwr ∧
    (freqMonitorEval h n m s).arb = s.arb ∧ (freqMonitorEval h n m s).parts = s.parts ∧
    (freqMonitorEval h n m s).bars = s.bars ∧ (freqMonitorEval h n m s).ops = s.ops ∧
    (freqMonitorEval h n m s).ident = s.ident ∧ (freqMonitorEval h n m s).models = s.models ∧
    (freqMonitorEval h n m s).caps = s.caps ∧ (freqMonitorEval h n m s).jets = s.jets ∧
    (freqMonitorEval h n m s).lanes = s.lanes ∧ (freqMonitorEval h n m s).ports = s.ports ∧
    (freqMonitorEval h n m s).ptp = s.ptp ∧ (freqMonitorEval h n m s).ftn = s.ftn ∧
    (freqMonitorEval h n m s).keys = s.keys ∧ (freqMonitorEval h n m s).flt = s.flt ∧
    (freqMonitorEval h n m s).mgt = s.mgt ∧ (freqMonitorEval h n m s).cnt = s.cnt := by
  simp [freqMonitorEval]

@[simp] theorem keeps_signalLost (h : Half) (n : SlotNo) (s : State) :
    (signalLost h n s).pending = s.pending ∧ (signalLost h n s).fresh = s.fresh ∧ (signalLost h n s).now = s.now ∧
    (signalLost h n s).outs = s.outs ∧ (signalLost h n s).pages = s.pages ∧ (signalLost h n s).pwr = s.pwr ∧
    (signalLost h n s).arb = s.arb ∧ (signalLost h n s).parts = s.parts ∧ (signalLost h n s).bars = s.bars ∧
    (signalLost h n s).ops = s.ops ∧ (signalLost h n s).ident = s.ident ∧ (signalLost h n s).models = s.models ∧
    (signalLost h n s).caps = s.caps ∧ (signalLost h n s).jets = s.jets ∧ (signalLost h n s).lanes = s.lanes ∧
    (signalLost h n s).ports = s.ports ∧ (signalLost h n s).ptp = s.ptp ∧ (signalLost h n s).ftn = s.ftn ∧
    (signalLost h n s).keys = s.keys ∧ (signalLost h n s).flt = s.flt ∧ (signalLost h n s).mgt = s.mgt ∧
    (signalLost h n s).cnt = s.cnt := by
  simp [signalLost]

@[simp] theorem keeps_qualTimeElapsed (h : Half) (n : SlotNo) (s : State) :
    (qualTimeElapsed h n s).pending = s.pending ∧ (qualTimeElapsed h n s).fresh = s.fresh ∧
    (qualTimeElapsed h n s).now = s.now ∧ (qualTimeElapsed h n s).outs = s.outs ∧
    (qualTimeElapsed h n s).pages = s.pages ∧ (qualTimeElapsed h n s).pwr = s.pwr ∧
    (qualTimeElapsed h n s).arb = s.arb ∧ (qualTimeElapsed h n s).parts = s.parts ∧
    (qualTimeElapsed h n s).bars = s.bars ∧ (qualTimeElapsed h n s).ops = s.ops ∧
    (qualTimeElapsed h n s).ident = s.ident ∧ (qualTimeElapsed h n s).models = s.models ∧
    (qualTimeElapsed h n s).caps = s.caps ∧ (qualTimeElapsed h n s).jets = s.jets ∧
    (qualTimeElapsed h n s).lanes = s.lanes ∧ (qualTimeElapsed h n s).ports = s.ports ∧
    (qualTimeElapsed h n s).ptp = s.ptp ∧ (qualTimeElapsed h n s).ftn = s.ftn ∧
    (qualTimeElapsed h n s).keys = s.keys ∧ (qualTimeElapsed h n s).flt = s.flt ∧
    (qualTimeElapsed h n s).mgt = s.mgt ∧ (qualTimeElapsed h n s).cnt = s.cnt := by
  simp [qualTimeElapsed]

@[simp] theorem keeps_disqHoldElapsed (h : Half) (n : SlotNo) (s : State) :
    (disqHoldElapsed h n s).pending = s.pending ∧ (disqHoldElapsed h n s).fresh = s.fresh ∧
    (disqHoldElapsed h n s).now = s.now ∧ (disqHoldElapsed h n s).outs = s.outs ∧
    (disqHoldElapsed h n s).pages = s.pages ∧ (disqHoldElapsed h n s).pwr = s.pwr ∧
    (disqHoldElapsed h n s).arb = s.arb ∧ (disqHoldElapsed h n s).parts = s.parts ∧
    (disqHoldElapsed h n s).bars = s.bars ∧ (disqHoldElapsed h n s).ops = s.ops ∧
    (disqHoldElapsed h n s).ident = s.ident ∧ (disqHoldElapsed h n s).models = s.models ∧
    (disqHoldElapsed h n s).caps = s.caps ∧ (disqHoldElapsed h n s).jets = s.jets ∧
    (disqHoldElapsed h n s).lanes = s.lanes ∧ (disqHoldElapsed h n s).ports = s.ports ∧
    (disqHoldElapsed h n s).ptp = s.ptp ∧ (disqHoldElapsed h n s).ftn = s.ftn ∧
    (disqHoldElapsed h n s).keys = s.keys ∧ (disqHoldElapsed h n s).flt = s.flt ∧
    (disqHoldElapsed h n s).mgt = s.mgt ∧ (disqHoldElapsed h n s).cnt = s.cnt := by
  simp [disqHoldElapsed]

@[simp] theorem keeps_agreeDwellElapsed (h : Half) (n : SlotNo) (s : State) :
    (agreeDwellElapsed h n s).pending = s.pending ∧ (agreeDwellElapsed h n s).fresh = s.fresh ∧
    (agreeDwellElapsed h n s).now = s.now ∧ (agreeDwellElapsed h n s).outs = s.outs ∧
    (agreeDwellElapsed h n s).pages = s.pages ∧ (agreeDwellElapsed h n s).pwr = s.pwr ∧
    (agreeDwellElapsed h n s).arb = s.arb ∧ (agreeDwellElapsed h n s).parts = s.parts ∧
    (agreeDwellElapsed h n s).bars = s.bars ∧ (agreeDwellElapsed h n s).ops = s.ops ∧
    (agreeDwellElapsed h n s).ident = s.ident ∧ (agreeDwellElapsed h n s).models = s.models ∧
    (agreeDwellElapsed h n s).caps = s.caps ∧ (agreeDwellElapsed h n s).jets = s.jets ∧
    (agreeDwellElapsed h n s).lanes = s.lanes ∧ (agreeDwellElapsed h n s).ports = s.ports ∧
    (agreeDwellElapsed h n s).ptp = s.ptp ∧ (agreeDwellElapsed h n s).ftn = s.ftn ∧
    (agreeDwellElapsed h n s).keys = s.keys ∧ (agreeDwellElapsed h n s).flt = s.flt ∧
    (agreeDwellElapsed h n s).mgt = s.mgt ∧ (agreeDwellElapsed h n s).cnt = s.cnt := by
  simp [agreeDwellElapsed]

@[simp] theorem keeps_comparisonPeriodStart (h : Half) (d : Dom) (s : State) :
    (comparisonPeriodStart h d s).pending = s.pending ∧ (comparisonPeriodStart h d s).fresh = s.fresh ∧
    (comparisonPeriodStart h d s).now = s.now ∧ (comparisonPeriodStart h d s).outs = s.outs ∧
    (comparisonPeriodStart h d s).pages = s.pages ∧ (comparisonPeriodStart h d s).pwr = s.pwr ∧
    (comparisonPeriodStart h d s).arb = s.arb ∧ (comparisonPeriodStart h d s).parts = s.parts ∧
    (comparisonPeriodStart h d s).bars = s.bars ∧ (comparisonPeriodStart h d s).ops = s.ops ∧
    (comparisonPeriodStart h d s).ident = s.ident ∧ (comparisonPeriodStart h d s).models = s.models ∧
    (comparisonPeriodStart h d s).caps = s.caps ∧ (comparisonPeriodStart h d s).jets = s.jets ∧
    (comparisonPeriodStart h d s).lanes = s.lanes ∧ (comparisonPeriodStart h d s).ports = s.ports ∧
    (comparisonPeriodStart h d s).ptp = s.ptp ∧ (comparisonPeriodStart h d s).ftn = s.ftn ∧
    (comparisonPeriodStart h d s).keys = s.keys ∧ (comparisonPeriodStart h d s).flt = s.flt ∧
    (comparisonPeriodStart h d s).mgt = s.mgt ∧ (comparisonPeriodStart h d s).cnt = s.cnt := by
  simp [comparisonPeriodStart]

@[simp] theorem keeps_enterSlot (s0 : State) (h : Half) (n : SlotNo) (st cause : Nat) :
    (State.enterSlot s0 h n st cause).pending = s0.pending ∧ (State.enterSlot s0 h n st cause).fresh = s0.fresh ∧
    (State.enterSlot s0 h n st cause).now = s0.now ∧ (State.enterSlot s0 h n st cause).arb = s0.arb ∧
    (State.enterSlot s0 h n st cause).parts = s0.parts ∧ (State.enterSlot s0 h n st cause).ops = s0.ops ∧
    (State.enterSlot s0 h n st cause).ident = s0.ident ∧ (State.enterSlot s0 h n st cause).models = s0.models ∧
    (State.enterSlot s0 h n st cause).caps = s0.caps ∧ (State.enterSlot s0 h n st cause).jets = s0.jets ∧
    (State.enterSlot s0 h n st cause).lanes = s0.lanes ∧ (State.enterSlot s0 h n st cause).ports = s0.ports ∧
    (State.enterSlot s0 h n st cause).ptp = s0.ptp ∧ (State.enterSlot s0 h n st cause).ftn = s0.ftn ∧
    (State.enterSlot s0 h n st cause).keys = s0.keys ∧ (State.enterSlot s0 h n st cause).flt = s0.flt ∧
    (∀ rp ro, regOf (State.enterSlot s0 h n st cause).pages rp ro = regOf s0.pages rp ro) := by
  simp [State.enterSlot]

@[simp] theorem keeps_adoptAct (h : Half) (n : SlotNo) (s : State) :
    (adoptAct h n s).pending = s.pending ∧ (adoptAct h n s).fresh = s.fresh ∧ (adoptAct h n s).now = s.now ∧
    (adoptAct h n s).arb = s.arb ∧ (adoptAct h n s).parts = s.parts ∧ (adoptAct h n s).ops = s.ops ∧
    (adoptAct h n s).ident = s.ident ∧ (adoptAct h n s).models = s.models ∧ (adoptAct h n s).caps = s.caps ∧
    (adoptAct h n s).jets = s.jets ∧ (adoptAct h n s).lanes = s.lanes ∧ (adoptAct h n s).ports = s.ports ∧
    (adoptAct h n s).ptp = s.ptp ∧ (adoptAct h n s).ftn = s.ftn ∧ (adoptAct h n s).keys = s.keys ∧
    (adoptAct h n s).flt = s.flt ∧ (∀ rp ro, regOf (adoptAct h n s).pages rp ro = regOf s.pages rp ro) := by
  simp [adoptAct]

@[simp] theorem keeps_requalAct (h : Half) (n : SlotNo) (s : State) :
    (requalAct h n s).pending = s.pending ∧ (requalAct h n s).fresh = s.fresh ∧ (requalAct h n s).now = s.now ∧
    (requalAct h n s).arb = s.arb ∧ (requalAct h n s).parts = s.parts ∧ (requalAct h n s).ops = s.ops ∧
    (requalAct h n s).ident = s.ident ∧ (requalAct h n s).models = s.models ∧ (requalAct h n s).caps = s.caps ∧
    (requalAct h n s).jets = s.jets ∧ (requalAct h n s).lanes = s.lanes ∧ (requalAct h n s).ports = s.ports ∧
    (requalAct h n s).ptp = s.ptp ∧ (requalAct h n s).ftn = s.ftn ∧ (requalAct h n s).keys = s.keys ∧
    (requalAct h n s).flt = s.flt ∧ (∀ rp ro, regOf (requalAct h n s).pages rp ro = regOf s.pages rp ro) := by
  simp [requalAct]

@[simp] theorem keeps_slotTimers (s : State) (h : Half) (n : SlotNo) :
    (State.slotTimers s h n).pending = s.pending ∧ (State.slotTimers s h n).fresh = s.fresh ∧
    (State.slotTimers s h n).now = s.now ∧ (State.slotTimers s h n).outs = s.outs ∧
    (State.slotTimers s h n).pages = s.pages ∧ (State.slotTimers s h n).pwr = s.pwr ∧
    (State.slotTimers s h n).arb = s.arb ∧ (State.slotTimers s h n).parts = s.parts ∧
    (State.slotTimers s h n).bars = s.bars ∧ (State.slotTimers s h n).ops = s.ops ∧
    (State.slotTimers s h n).ident = s.ident ∧ (State.slotTimers s h n).models = s.models ∧
    (State.slotTimers s h n).caps = s.caps ∧ (State.slotTimers s h n).jets = s.jets ∧
    (State.slotTimers s h n).lanes = s.lanes ∧ (State.slotTimers s h n).ports = s.ports ∧
    (State.slotTimers s h n).ptp = s.ptp ∧ (State.slotTimers s h n).ftn = s.ftn ∧
    (State.slotTimers s h n).keys = s.keys ∧ (State.slotTimers s h n).flt = s.flt ∧
    (State.slotTimers s h n).mgt = s.mgt ∧ (State.slotTimers s h n).cnt = s.cnt := by
  simp [State.slotTimers]

@[simp] theorem keeps_slotBoundary (h : Half) (n : SlotNo) (s : State) :
    (slotBoundary h n s).pending = s.pending ∧ (slotBoundary h n s).fresh = s.fresh ∧
    (slotBoundary h n s).now = s.now ∧ (slotBoundary h n s).arb = s.arb ∧ (slotBoundary h n s).parts = s.parts ∧
    (slotBoundary h n s).ops = s.ops ∧ (slotBoundary h n s).ident = s.ident ∧ (slotBoundary h n s).models = s.models ∧
    (slotBoundary h n s).caps = s.caps ∧ (slotBoundary h n s).jets = s.jets ∧ (slotBoundary h n s).lanes = s.lanes ∧
    (slotBoundary h n s).ports = s.ports ∧ (slotBoundary h n s).ptp = s.ptp ∧ (slotBoundary h n s).ftn = s.ftn ∧
    (slotBoundary h n s).keys = s.keys ∧ (slotBoundary h n s).flt = s.flt ∧
    (∀ rp ro, regOf (slotBoundary h n s).pages rp ro = regOf s.pages rp ro) := by
  simp only [slotBoundary]; (repeat' split) <;> simp

@[simp] theorem keeps_worstOnly (h : Half) (s : State) :
    (worstOnly h s).pending = s.pending ∧ (worstOnly h s).fresh = s.fresh ∧ (worstOnly h s).now = s.now ∧
    (worstOnly h s).outs = s.outs ∧ (worstOnly h s).pages = s.pages ∧ (worstOnly h s).pwr = s.pwr ∧
    (worstOnly h s).arb = s.arb ∧ (worstOnly h s).parts = s.parts ∧ (worstOnly h s).bars = s.bars ∧
    (worstOnly h s).ops = s.ops ∧ (worstOnly h s).ident = s.ident ∧ (worstOnly h s).models = s.models ∧
    (worstOnly h s).caps = s.caps ∧ (worstOnly h s).jets = s.jets ∧ (worstOnly h s).lanes = s.lanes ∧
    (worstOnly h s).ports = s.ports ∧ (worstOnly h s).ptp = s.ptp ∧ (worstOnly h s).ftn = s.ftn ∧
    (worstOnly h s).keys = s.keys ∧ (worstOnly h s).flt = s.flt ∧ (worstOnly h s).mgt = s.mgt ∧
    (worstOnly h s).cnt = s.cnt := by
  simp [worstOnly]

@[simp] theorem keeps_delayStep (s : State) (h : Half) (n : SlotNo) (dlt : Rat) :
    (State.delayStep s h n dlt).pending = s.pending ∧ (State.delayStep s h n dlt).fresh = s.fresh ∧
    (State.delayStep s h n dlt).now = s.now ∧ (State.delayStep s h n dlt).pwr = s.pwr ∧
    (State.delayStep s h n dlt).arb = s.arb ∧ (State.delayStep s h n dlt).parts = s.parts ∧
    (State.delayStep s h n dlt).ops = s.ops ∧ (State.delayStep s h n dlt).ident = s.ident ∧
    (State.delayStep s h n dlt).models = s.models ∧ (State.delayStep s h n dlt).caps = s.caps ∧
    (State.delayStep s h n dlt).jets = s.jets ∧ (State.delayStep s h n dlt).lanes = s.lanes ∧
    (State.delayStep s h n dlt).ports = s.ports ∧ (State.delayStep s h n dlt).ptp = s.ptp ∧
    (State.delayStep s h n dlt).ftn = s.ftn ∧ (State.delayStep s h n dlt).keys = s.keys ∧
    (State.delayStep s h n dlt).flt = s.flt ∧
    (∀ rp ro, regOf (State.delayStep s h n dlt).pages rp ro = regOf s.pages rp ro) := by
  simp [State.delayStep]

@[simp] theorem keeps_todInvalid (s : State) (h : Half) (n : SlotNo) :
    (State.todInvalid s h n).pending = s.pending ∧ (State.todInvalid s h n).fresh = s.fresh ∧
    (State.todInvalid s h n).now = s.now ∧ (State.todInvalid s h n).outs = s.outs ∧
    (State.todInvalid s h n).pages = s.pages ∧ (State.todInvalid s h n).pwr = s.pwr ∧
    (State.todInvalid s h n).arb = s.arb ∧ (State.todInvalid s h n).parts = s.parts ∧
    (State.todInvalid s h n).bars = s.bars ∧ (State.todInvalid s h n).ops = s.ops ∧
    (State.todInvalid s h n).ident = s.ident ∧ (State.todInvalid s h n).models = s.models ∧
    (State.todInvalid s h n).caps = s.caps ∧ (State.todInvalid s h n).jets = s.jets ∧
    (State.todInvalid s h n).lanes = s.lanes ∧ (State.todInvalid s h n).ports = s.ports ∧
    (State.todInvalid s h n).ptp = s.ptp ∧ (State.todInvalid s h n).ftn = s.ftn ∧
    (State.todInvalid s h n).keys = s.keys ∧ (State.todInvalid s h n).flt = s.flt ∧
    (State.todInvalid s h n).mgt = s.mgt ∧ (State.todInvalid s h n).cnt = s.cnt := by
  simp [State.todInvalid]

@[simp] theorem keeps_todErr (s : State) (h : Half) (n : SlotNo) :
    (State.todErr s h n).pending = s.pending ∧ (State.todErr s h n).fresh = s.fresh ∧
    (State.todErr s h n).now = s.now ∧ (State.todErr s h n).pwr = s.pwr ∧ (State.todErr s h n).arb = s.arb ∧
    (State.todErr s h n).parts = s.parts ∧ (State.todErr s h n).ops = s.ops ∧ (State.todErr s h n).ident = s.ident ∧
    (State.todErr s h n).models = s.models ∧ (State.todErr s h n).caps = s.caps ∧ (State.todErr s h n).jets = s.jets ∧
    (State.todErr s h n).lanes = s.lanes ∧ (State.todErr s h n).ports = s.ports ∧ (State.todErr s h n).ptp = s.ptp ∧
    (State.todErr s h n).ftn = s.ftn ∧ (State.todErr s h n).keys = s.keys ∧ (State.todErr s h n).flt = s.flt ∧
    (∀ rp ro, regOf (State.todErr s h n).pages rp ro = regOf s.pages rp ro) := by
  simp [State.todErr]

@[simp] theorem keeps_todLate (s : State) (h : Half) (n : SlotNo) :
    (State.todLate s h n).pending = s.pending ∧ (State.todLate s h n).fresh = s.fresh ∧
    (State.todLate s h n).now = s.now ∧ (State.todLate s h n).pwr = s.pwr ∧ (State.todLate s h n).arb = s.arb ∧
    (State.todLate s h n).parts = s.parts ∧ (State.todLate s h n).ops = s.ops ∧
    (State.todLate s h n).ident = s.ident ∧ (State.todLate s h n).models = s.models ∧
    (State.todLate s h n).caps = s.caps ∧ (State.todLate s h n).jets = s.jets ∧
    (State.todLate s h n).lanes = s.lanes ∧ (State.todLate s h n).ports = s.ports ∧
    (State.todLate s h n).ptp = s.ptp ∧ (State.todLate s h n).ftn = s.ftn ∧ (State.todLate s h n).keys = s.keys ∧
    (State.todLate s h n).flt = s.flt ∧ (∀ rp ro, regOf (State.todLate s h n).pages rp ro = regOf s.pages rp ro) := by
  simp [State.todLate]

@[simp] theorem keeps_failIn (s : State) (h : Half) (n : SlotNo) (f : SlotDom → SlotDom) :
    (State.failIn s h n f).pending = s.pending ∧ (State.failIn s h n f).fresh = s.fresh ∧
    (State.failIn s h n f).now = s.now ∧ (State.failIn s h n f).outs = s.outs ∧
    (State.failIn s h n f).pages = s.pages ∧ (State.failIn s h n f).pwr = s.pwr ∧ (State.failIn s h n f).arb = s.arb ∧
    (State.failIn s h n f).parts = s.parts ∧ (State.failIn s h n f).bars = s.bars ∧
    (State.failIn s h n f).ops = s.ops ∧ (State.failIn s h n f).ident = s.ident ∧
    (State.failIn s h n f).models = s.models ∧ (State.failIn s h n f).caps = s.caps ∧
    (State.failIn s h n f).jets = s.jets ∧ (State.failIn s h n f).lanes = s.lanes ∧
    (State.failIn s h n f).ports = s.ports ∧ (State.failIn s h n f).ptp = s.ptp ∧ (State.failIn s h n f).ftn = s.ftn ∧
    (State.failIn s h n f).keys = s.keys ∧ (State.failIn s h n f).flt = s.flt ∧ (State.failIn s h n f).mgt = s.mgt ∧
    (State.failIn s h n f).cnt = s.cnt := by
  simp [State.failIn]

@[simp] theorem keeps_delayDetected (s : State) (h : Half) (n : SlotNo) :
    (State.delayDetected s h n).pending = s.pending ∧ (State.delayDetected s h n).fresh = s.fresh ∧
    (State.delayDetected s h n).now = s.now ∧ (State.delayDetected s h n).pwr = s.pwr ∧
    (State.delayDetected s h n).arb = s.arb ∧ (State.delayDetected s h n).parts = s.parts ∧
    (State.delayDetected s h n).ops = s.ops ∧ (State.delayDetected s h n).ident = s.ident ∧
    (State.delayDetected s h n).models = s.models ∧ (State.delayDetected s h n).caps = s.caps ∧
    (State.delayDetected s h n).jets = s.jets ∧ (State.delayDetected s h n).lanes = s.lanes ∧
    (State.delayDetected s h n).ports = s.ports ∧ (State.delayDetected s h n).ptp = s.ptp ∧
    (State.delayDetected s h n).ftn = s.ftn ∧ (State.delayDetected s h n).keys = s.keys ∧
    (State.delayDetected s h n).flt = s.flt ∧
    (∀ rp ro, regOf (State.delayDetected s h n).pages rp ro = regOf s.pages rp ro) := by
  simp [State.delayDetected]

@[simp] theorem keeps_todDetected (s : State) (h : Half) (n : SlotNo) :
    (State.todDetected s h n).pending = s.pending ∧ (State.todDetected s h n).fresh = s.fresh ∧
    (State.todDetected s h n).now = s.now ∧ (State.todDetected s h n).pwr = s.pwr ∧
    (State.todDetected s h n).arb = s.arb ∧ (State.todDetected s h n).parts = s.parts ∧
    (State.todDetected s h n).ops = s.ops ∧ (State.todDetected s h n).ident = s.ident ∧
    (State.todDetected s h n).models = s.models ∧ (State.todDetected s h n).caps = s.caps ∧
    (State.todDetected s h n).jets = s.jets ∧ (State.todDetected s h n).lanes = s.lanes ∧
    (State.todDetected s h n).ports = s.ports ∧ (State.todDetected s h n).ptp = s.ptp ∧
    (State.todDetected s h n).ftn = s.ftn ∧ (State.todDetected s h n).keys = s.keys ∧
    (State.todDetected s h n).flt = s.flt ∧
    (∀ rp ro, regOf (State.todDetected s h n).pages rp ro = regOf s.pages rp ro) := by
  simp [State.todDetected]

@[simp] theorem keeps_slotDetected (h : Half) (n : SlotNo) (timey : Bool) (det : Nat) (s : State) :
    (slotDetected h n timey det s).pending = s.pending ∧ (slotDetected h n timey det s).fresh = s.fresh ∧
    (slotDetected h n timey det s).now = s.now ∧ (slotDetected h n timey det s).pwr = s.pwr ∧
    (slotDetected h n timey det s).arb = s.arb ∧ (slotDetected h n timey det s).parts = s.parts ∧
    (slotDetected h n timey det s).ops = s.ops ∧ (slotDetected h n timey det s).ident = s.ident ∧
    (slotDetected h n timey det s).models = s.models ∧ (slotDetected h n timey det s).caps = s.caps ∧
    (slotDetected h n timey det s).jets = s.jets ∧ (slotDetected h n timey det s).lanes = s.lanes ∧
    (slotDetected h n timey det s).ports = s.ports ∧ (slotDetected h n timey det s).ptp = s.ptp ∧
    (slotDetected h n timey det s).ftn = s.ftn ∧ (slotDetected h n timey det s).keys = s.keys ∧
    (slotDetected h n timey det s).flt = s.flt ∧
    (∀ rp ro, regOf (slotDetected h n timey det s).pages rp ro = regOf s.pages rp ro) := by
  unfold slotDetected; (repeat' split) <;> simp

@[simp] theorem keeps_slotMonitorHalf (h : Half) (n : SlotNo) (det : Nat) (s : State) :
    (slotMonitorHalf h n det s).pending = s.pending ∧ (slotMonitorHalf h n det s).fresh = s.fresh ∧
    (slotMonitorHalf h n det s).now = s.now ∧ (slotMonitorHalf h n det s).pwr = s.pwr ∧
    (slotMonitorHalf h n det s).arb = s.arb ∧ (slotMonitorHalf h n det s).parts = s.parts ∧
    (slotMonitorHalf h n det s).ops = s.ops ∧ (slotMonitorHalf h n det s).ident = s.ident ∧
    (slotMonitorHalf h n det s).models = s.models ∧ (slotMonitorHalf h n det s).caps = s.caps ∧
    (slotMonitorHalf h n det s).jets = s.jets ∧ (slotMonitorHalf h n det s).lanes = s.lanes ∧
    (slotMonitorHalf h n det s).ports = s.ports ∧ (slotMonitorHalf h n det s).ptp = s.ptp ∧
    (slotMonitorHalf h n det s).ftn = s.ftn ∧ (slotMonitorHalf h n det s).keys = s.keys ∧
    (slotMonitorHalf h n det s).flt = s.flt ∧
    (∀ rp ro, regOf (slotMonitorHalf h n det s).pages rp ro = regOf s.pages rp ro) := by
  simp [slotMonitorHalf]

@[simp] theorem keeps_injectAt (s : State) (h : Half) (n : SlotNo) (e : Nat × Dom × Nat) :
    (State.injectAt s h n e).pending = s.pending ∧ (State.injectAt s h n e).fresh = s.fresh ∧
    (State.injectAt s h n e).now = s.now ∧ (State.injectAt s h n e).outs = s.outs ∧
    (State.injectAt s h n e).pages = s.pages ∧ (State.injectAt s h n e).pwr = s.pwr ∧
    (State.injectAt s h n e).arb = s.arb ∧ (State.injectAt s h n e).parts = s.parts ∧
    (State.injectAt s h n e).bars = s.bars ∧ (State.injectAt s h n e).ops = s.ops ∧
    (State.injectAt s h n e).ident = s.ident ∧ (State.injectAt s h n e).models = s.models ∧
    (State.injectAt s h n e).caps = s.caps ∧ (State.injectAt s h n e).jets = s.jets ∧
    (State.injectAt s h n e).lanes = s.lanes ∧ (State.injectAt s h n e).ports = s.ports ∧
    (State.injectAt s h n e).ptp = s.ptp ∧ (State.injectAt s h n e).ftn = s.ftn ∧
    (State.injectAt s h n e).keys = s.keys ∧ (State.injectAt s h n e).flt = s.flt ∧
    (State.injectAt s h n e).mgt = s.mgt ∧ (State.injectAt s h n e).cnt = s.cnt := by
  simp [State.injectAt]

@[simp] theorem keeps_slotMonitor (n : SlotNo) (det : Nat) (s : State) :
    (slotMonitor n det s).pending = s.pending ∧ (slotMonitor n det s).fresh = s.fresh ∧
    (slotMonitor n det s).now = s.now ∧ (slotMonitor n det s).outs = s.outs ∧ (slotMonitor n det s).pages = s.pages ∧
    (slotMonitor n det s).pwr = s.pwr ∧ (slotMonitor n det s).arb = s.arb ∧ (slotMonitor n det s).parts = s.parts ∧
    (slotMonitor n det s).bars = s.bars ∧ (slotMonitor n det s).ops = s.ops ∧ (slotMonitor n det s).ident = s.ident ∧
    (slotMonitor n det s).models = s.models ∧ (slotMonitor n det s).caps = s.caps ∧
    (slotMonitor n det s).jets = s.jets ∧ (slotMonitor n det s).lanes = s.lanes ∧
    (slotMonitor n det s).ports = s.ports ∧ (slotMonitor n det s).ptp = s.ptp ∧ (slotMonitor n det s).ftn = s.ftn ∧
    (slotMonitor n det s).keys = s.keys ∧ (slotMonitor n det s).flt = s.flt ∧ (slotMonitor n det s).mgt = s.mgt ∧
    (slotMonitor n det s).cnt = s.cnt := by
  simp [slotMonitor]

@[simp] theorem keeps_slotInjected (h : Half) (n : SlotNo) (s : State) :
    (slotInjected h n s).pending = s.pending ∧ (slotInjected h n s).fresh = s.fresh ∧
    (slotInjected h n s).now = s.now ∧ (slotInjected h n s).pwr = s.pwr ∧ (slotInjected h n s).arb = s.arb ∧
    (slotInjected h n s).parts = s.parts ∧ (slotInjected h n s).ops = s.ops ∧ (slotInjected h n s).ident = s.ident ∧
    (slotInjected h n s).models = s.models ∧ (slotInjected h n s).caps = s.caps ∧ (slotInjected h n s).jets = s.jets ∧
    (slotInjected h n s).lanes = s.lanes ∧ (slotInjected h n s).ports = s.ports ∧ (slotInjected h n s).ptp = s.ptp ∧
    (slotInjected h n s).ftn = s.ftn ∧ (slotInjected h n s).keys = s.keys ∧ (slotInjected h n s).flt = s.flt ∧
    (∀ rp ro, regOf (slotInjected h n s).pages rp ro = regOf s.pages rp ro) := by
  simp [slotInjected]

@[simp] theorem keeps_refreshScales (s : State) (h : Half) :
    (State.refreshScales s h).pending = s.pending ∧ (State.refreshScales s h).fresh = s.fresh ∧
    (State.refreshScales s h).now = s.now ∧ (State.refreshScales s h).outs = s.outs ∧
    (State.refreshScales s h).pages = s.pages ∧ (State.refreshScales s h).pwr = s.pwr ∧
    (State.refreshScales s h).arb = s.arb ∧ (State.refreshScales s h).parts = s.parts ∧
    (State.refreshScales s h).bars = s.bars ∧ (State.refreshScales s h).ops = s.ops ∧
    (State.refreshScales s h).ident = s.ident ∧ (State.refreshScales s h).models = s.models ∧
    (State.refreshScales s h).caps = s.caps ∧ (State.refreshScales s h).jets = s.jets ∧
    (State.refreshScales s h).lanes = s.lanes ∧ (State.refreshScales s h).ports = s.ports ∧
    (State.refreshScales s h).ptp = s.ptp ∧ (State.refreshScales s h).ftn = s.ftn ∧
    (State.refreshScales s h).keys = s.keys ∧ (State.refreshScales s h).flt = s.flt ∧
    (State.refreshScales s h).mgt = s.mgt ∧ (State.refreshScales s h).cnt = s.cnt := by
  simp [State.refreshScales]

@[simp] theorem keeps_slotsBoundary (h : Half) (d : Dom) (s : State) :
    (slotsBoundary h d s).pending = s.pending ∧ (slotsBoundary h d s).fresh = s.fresh ∧
    (slotsBoundary h d s).now = s.now ∧ (slotsBoundary h d s).arb = s.arb ∧ (slotsBoundary h d s).parts = s.parts ∧
    (slotsBoundary h d s).ops = s.ops ∧ (slotsBoundary h d s).ident = s.ident ∧
    (slotsBoundary h d s).models = s.models ∧ (slotsBoundary h d s).caps = s.caps ∧
    (slotsBoundary h d s).jets = s.jets ∧ (slotsBoundary h d s).lanes = s.lanes ∧
    (slotsBoundary h d s).ports = s.ports ∧ (slotsBoundary h d s).ptp = s.ptp ∧ (slotsBoundary h d s).ftn = s.ftn ∧
    (slotsBoundary h d s).keys = s.keys ∧ (slotsBoundary h d s).flt = s.flt ∧
    (∀ rp ro, regOf (slotsBoundary h d s).pages rp ro = regOf s.pages rp ro) := by
  simp [slotsBoundary]

@[simp] theorem keeps_adopt (n : SlotNo) (s : State) :
    (adopt n s).pending = s.pending ∧ (adopt n s).fresh = s.fresh ∧ (adopt n s).now = s.now ∧
    (adopt n s).arb = s.arb ∧ (adopt n s).parts = s.parts ∧ (adopt n s).ops = s.ops ∧ (adopt n s).ident = s.ident ∧
    (adopt n s).models = s.models ∧ (adopt n s).caps = s.caps ∧ (adopt n s).jets = s.jets ∧
    (adopt n s).lanes = s.lanes ∧ (adopt n s).ports = s.ports ∧ (adopt n s).ptp = s.ptp ∧ (adopt n s).ftn = s.ftn ∧
    (adopt n s).keys = s.keys ∧ (adopt n s).flt = s.flt ∧
    (∀ rp ro, regOf (adopt n s).pages rp ro = regOf s.pages rp ro) := by
  simp [adopt]

@[simp] theorem keeps_requal (n : SlotNo) (s : State) :
    (requal n s).pending = s.pending ∧ (requal n s).fresh = s.fresh ∧ (requal n s).now = s.now ∧
    (requal n s).arb = s.arb ∧ (requal n s).parts = s.parts ∧ (requal n s).ops = s.ops ∧
    (requal n s).ident = s.ident ∧ (requal n s).models = s.models ∧ (requal n s).caps = s.caps ∧
    (requal n s).jets = s.jets ∧ (requal n s).lanes = s.lanes ∧ (requal n s).ports = s.ports ∧
    (requal n s).ptp = s.ptp ∧ (requal n s).ftn = s.ftn ∧ (requal n s).keys = s.keys ∧ (requal n s).flt = s.flt ∧
    (∀ rp ro, regOf (requal n s).pages rp ro = regOf s.pages rp ro) := by
  simp [requal]

@[simp] theorem keeps_setLeap (s : State) (h : Half) (n : SlotNo) (tai : Nat) :
    (State.setLeap s h n tai).pending = s.pending ∧ (State.setLeap s h n tai).fresh = s.fresh ∧
    (State.setLeap s h n tai).now = s.now ∧ (State.setLeap s h n tai).pwr = s.pwr ∧
    (State.setLeap s h n tai).arb = s.arb ∧ (State.setLeap s h n tai).parts = s.parts ∧
    (State.setLeap s h n tai).ops = s.ops ∧ (State.setLeap s h n tai).ident = s.ident ∧
    (State.setLeap s h n tai).models = s.models ∧ (State.setLeap s h n tai).caps = s.caps ∧
    (State.setLeap s h n tai).jets = s.jets ∧ (State.setLeap s h n tai).lanes = s.lanes ∧
    (State.setLeap s h n tai).ports = s.ports ∧ (State.setLeap s h n tai).ptp = s.ptp ∧
    (State.setLeap s h n tai).ftn = s.ftn ∧ (State.setLeap s h n tai).keys = s.keys ∧
    (State.setLeap s h n tai).flt = s.flt ∧
    (∀ rp ro, regOf (State.setLeap s h n tai).pages rp ro = regOf s.pages rp ro) := by
  simp [State.setLeap]

@[simp] theorem keeps_leapReg (h : Half) (n : SlotNo) (s t : State) :
    (leapReg h n s t).pending = t.pending ∧ (leapReg h n s t).fresh = t.fresh ∧ (leapReg h n s t).now = t.now ∧
    (leapReg h n s t).outs = t.outs ∧ (leapReg h n s t).pwr = t.pwr ∧ (leapReg h n s t).arb = t.arb ∧
    (leapReg h n s t).halves = t.halves ∧ (leapReg h n s t).parts = t.parts ∧ (leapReg h n s t).bars = t.bars ∧
    (leapReg h n s t).ops = t.ops ∧ (leapReg h n s t).ident = t.ident ∧ (leapReg h n s t).models = t.models ∧
    (leapReg h n s t).caps = t.caps ∧ (leapReg h n s t).jets = t.jets ∧ (leapReg h n s t).lanes = t.lanes ∧
    (leapReg h n s t).ports = t.ports ∧ (leapReg h n s t).ptp = t.ptp ∧ (leapReg h n s t).ftn = t.ftn ∧
    (leapReg h n s t).keys = t.keys ∧ (leapReg h n s t).flt = t.flt ∧ (leapReg h n s t).mgt = t.mgt ∧
    (leapReg h n s t).cnt = t.cnt := by
  simp [leapReg]

@[simp] theorem keeps_todSecond (h : Half) (n : SlotNo) (l : TodLabel) (s : State) :
    (todSecond h n l s).pending = s.pending ∧ (todSecond h n l s).now = s.now ∧ (todSecond h n l s).pwr = s.pwr ∧
    (todSecond h n l s).arb = s.arb ∧ (todSecond h n l s).parts = s.parts ∧ (todSecond h n l s).ops = s.ops ∧
    (todSecond h n l s).ident = s.ident ∧ (todSecond h n l s).models = s.models ∧ (todSecond h n l s).caps = s.caps ∧
    (todSecond h n l s).jets = s.jets ∧ (todSecond h n l s).lanes = s.lanes ∧ (todSecond h n l s).ports = s.ports ∧
    (todSecond h n l s).ptp = s.ptp ∧ (todSecond h n l s).ftn = s.ftn ∧ (todSecond h n l s).keys = s.keys ∧
    (todSecond h n l s).flt = s.flt ∧ (∀ rp ro, regOf (todSecond h n l s).pages rp ro = regOf s.pages rp ro) := by
  simp only [todSecond]; (repeat' split) <;> simp

@[simp] theorem keeps_todSentence (h : Half) (n : SlotNo) (zda : Bool) (l : TodLabel) (s : State) :
    (todSentence h n zda l s).pending = s.pending ∧ (todSentence h n zda l s).now = s.now ∧
    (todSentence h n zda l s).pwr = s.pwr ∧ (todSentence h n zda l s).arb = s.arb ∧
    (todSentence h n zda l s).parts = s.parts ∧ (todSentence h n zda l s).ops = s.ops ∧
    (todSentence h n zda l s).ident = s.ident ∧ (todSentence h n zda l s).models = s.models ∧
    (todSentence h n zda l s).caps = s.caps ∧ (todSentence h n zda l s).jets = s.jets ∧
    (todSentence h n zda l s).lanes = s.lanes ∧ (todSentence h n zda l s).ports = s.ports ∧
    (todSentence h n zda l s).ptp = s.ptp ∧ (todSentence h n zda l s).ftn = s.ftn ∧
    (todSentence h n zda l s).keys = s.keys ∧ (todSentence h n zda l s).flt = s.flt ∧
    (∀ rp ro, regOf (todSentence h n zda l s).pages rp ro = regOf s.pages rp ro) := by
  simp [todSentence]

@[simp] theorem keeps_todOffset (h : Half) (n : SlotNo) (o : Nat) (s : State) :
    (todOffset h n o s).pending = s.pending ∧ (todOffset h n o s).fresh = s.fresh ∧ (todOffset h n o s).now = s.now ∧
    (todOffset h n o s).pwr = s.pwr ∧ (todOffset h n o s).arb = s.arb ∧ (todOffset h n o s).parts = s.parts ∧
    (todOffset h n o s).ops = s.ops ∧ (todOffset h n o s).ident = s.ident ∧ (todOffset h n o s).models = s.models ∧
    (todOffset h n o s).caps = s.caps ∧ (todOffset h n o s).jets = s.jets ∧ (todOffset h n o s).lanes = s.lanes ∧
    (todOffset h n o s).ports = s.ports ∧ (todOffset h n o s).ptp = s.ptp ∧ (todOffset h n o s).ftn = s.ftn ∧
    (todOffset h n o s).keys = s.keys ∧ (todOffset h n o s).flt = s.flt ∧
    (∀ rp ro, regOf (todOffset h n o s).pages rp ro = regOf s.pages rp ro) := by
  simp [todOffset]

@[simp] theorem keeps_todMessage (h : Half) (k : Fin 2) (m : TodMsg) (gapNs : Nat) (s : State) :
    (todMessage h k m gapNs s).pending = s.pending ∧ (todMessage h k m gapNs s).now = s.now ∧
    (todMessage h k m gapNs s).pwr = s.pwr ∧ (todMessage h k m gapNs s).arb = s.arb ∧
    (todMessage h k m gapNs s).parts = s.parts ∧ (todMessage h k m gapNs s).ops = s.ops ∧
    (todMessage h k m gapNs s).ident = s.ident ∧ (todMessage h k m gapNs s).models = s.models ∧
    (todMessage h k m gapNs s).caps = s.caps ∧ (todMessage h k m gapNs s).jets = s.jets ∧
    (todMessage h k m gapNs s).lanes = s.lanes ∧ (todMessage h k m gapNs s).ports = s.ports ∧
    (todMessage h k m gapNs s).ptp = s.ptp ∧ (todMessage h k m gapNs s).ftn = s.ftn ∧
    (todMessage h k m gapNs s).keys = s.keys ∧ (todMessage h k m gapNs s).flt = s.flt ∧
    (∀ rp ro, regOf (todMessage h k m gapNs s).pages rp ro = regOf s.pages rp ro) := by
  simp only [todMessage]; (repeat' split) <;> simp

@[simp] theorem keeps_atomLabel (h : Half) (timeMode : Bool) (sec : Option Nat) (s : State) :
    (atomLabel h timeMode sec s).pending = s.pending ∧ (atomLabel h timeMode sec s).now = s.now ∧
    (atomLabel h timeMode sec s).pwr = s.pwr ∧ (atomLabel h timeMode sec s).arb = s.arb ∧
    (atomLabel h timeMode sec s).parts = s.parts ∧ (atomLabel h timeMode sec s).ops = s.ops ∧
    (atomLabel h timeMode sec s).ident = s.ident ∧ (atomLabel h timeMode sec s).models = s.models ∧
    (atomLabel h timeMode sec s).caps = s.caps ∧ (atomLabel h timeMode sec s).jets = s.jets ∧
    (atomLabel h timeMode sec s).lanes = s.lanes ∧ (atomLabel h timeMode sec s).ports = s.ports ∧
    (atomLabel h timeMode sec s).ptp = s.ptp ∧ (atomLabel h timeMode sec s).ftn = s.ftn ∧
    (atomLabel h timeMode sec s).keys = s.keys ∧ (atomLabel h timeMode sec s).flt = s.flt ∧
    (∀ rp ro, regOf (atomLabel h timeMode sec s).pages rp ro = regOf s.pages rp ro) := by
  unfold atomLabel; (repeat' split) <;> simp

@[simp] theorem keeps_atomTelemetry (h : Half) (line : List Byte) (gapNs : Nat) (s : State) :
    (atomTelemetry h line gapNs s).pending = s.pending ∧ (atomTelemetry h line gapNs s).now = s.now ∧
    (atomTelemetry h line gapNs s).pwr = s.pwr ∧ (atomTelemetry h line gapNs s).arb = s.arb ∧
    (atomTelemetry h line gapNs s).parts = s.parts ∧ (atomTelemetry h line gapNs s).ops = s.ops ∧
    (atomTelemetry h line gapNs s).ident = s.ident ∧ (atomTelemetry h line gapNs s).models = s.models ∧
    (atomTelemetry h line gapNs s).caps = s.caps ∧ (atomTelemetry h line gapNs s).jets = s.jets ∧
    (atomTelemetry h line gapNs s).lanes = s.lanes ∧ (atomTelemetry h line gapNs s).ports = s.ports ∧
    (atomTelemetry h line gapNs s).ptp = s.ptp ∧ (atomTelemetry h line gapNs s).ftn = s.ftn ∧
    (atomTelemetry h line gapNs s).keys = s.keys ∧ (atomTelemetry h line gapNs s).flt = s.flt ∧
    (∀ rp ro, regOf (atomTelemetry h line gapNs s).pages rp ro = regOf s.pages rp ro) := by
  unfold atomTelemetry; (repeat' split) <;> simp

@[simp] theorem keeps_pathDelay (h : Half) (n : SlotNo) (delay : Rat) (s : State) :
    (pathDelay h n delay s).pending = s.pending ∧ (pathDelay h n delay s).fresh = s.fresh ∧
    (pathDelay h n delay s).now = s.now ∧ (pathDelay h n delay s).pwr = s.pwr ∧ (pathDelay h n delay s).arb = s.arb ∧
    (pathDelay h n delay s).parts = s.parts ∧ (pathDelay h n delay s).ops = s.ops ∧
    (pathDelay h n delay s).ident = s.ident ∧ (pathDelay h n delay s).models = s.models ∧
    (pathDelay h n delay s).caps = s.caps ∧ (pathDelay h n delay s).jets = s.jets ∧
    (pathDelay h n delay s).lanes = s.lanes ∧ (pathDelay h n delay s).ports = s.ports ∧
    (pathDelay h n delay s).ptp = s.ptp ∧ (pathDelay h n delay s).ftn = s.ftn ∧
    (pathDelay h n delay s).keys = s.keys ∧ (pathDelay h n delay s).flt = s.flt ∧
    (∀ rp ro, regOf (pathDelay h n delay s).pages rp ro = regOf s.pages rp ro) := by
  simp [pathDelay]

/-! ## Conf -/

@[simp] theorem keeps_selectBeat (s : State) (h : Half) (d : Dom) :
    (State.selectBeat s h d).pending = s.pending ∧ (State.selectBeat s h d).fresh = s.fresh ∧
    (State.selectBeat s h d).now = s.now ∧ (State.selectBeat s h d).outs = s.outs ∧
    (State.selectBeat s h d).pages = s.pages ∧ (State.selectBeat s h d).pwr = s.pwr ∧
    (State.selectBeat s h d).arb = s.arb ∧ (State.selectBeat s h d).parts = s.parts ∧
    (State.selectBeat s h d).bars = s.bars ∧ (State.selectBeat s h d).ops = s.ops ∧
    (State.selectBeat s h d).ident = s.ident ∧ (State.selectBeat s h d).models = s.models ∧
    (State.selectBeat s h d).caps = s.caps ∧ (State.selectBeat s h d).jets = s.jets ∧
    (State.selectBeat s h d).lanes = s.lanes ∧ (State.selectBeat s h d).ports = s.ports ∧
    (State.selectBeat s h d).ptp = s.ptp ∧ (State.selectBeat s h d).ftn = s.ftn ∧
    (State.selectBeat s h d).keys = s.keys ∧ (State.selectBeat s h d).flt = s.flt ∧
    (State.selectBeat s h d).mgt = s.mgt ∧ (State.selectBeat s h d).cnt = s.cnt := by
  simp only [State.selectBeat]; (repeat' split) <;> simp

@[simp] theorem keeps_selHoldElapsed (h : Half) (d : Dom) (s : State) :
    (selHoldElapsed h d s).pending = s.pending ∧ (selHoldElapsed h d s).fresh = s.fresh ∧
    (selHoldElapsed h d s).now = s.now ∧ (selHoldElapsed h d s).outs = s.outs ∧
    (selHoldElapsed h d s).pages = s.pages ∧ (selHoldElapsed h d s).pwr = s.pwr ∧ (selHoldElapsed h d s).arb = s.arb ∧
    (selHoldElapsed h d s).parts = s.parts ∧ (selHoldElapsed h d s).bars = s.bars ∧
    (selHoldElapsed h d s).ops = s.ops ∧ (selHoldElapsed h d s).ident = s.ident ∧
    (selHoldElapsed h d s).models = s.models ∧ (selHoldElapsed h d s).caps = s.caps ∧
    (selHoldElapsed h d s).jets = s.jets ∧ (selHoldElapsed h d s).lanes = s.lanes ∧
    (selHoldElapsed h d s).ports = s.ports ∧ (selHoldElapsed h d s).ptp = s.ptp ∧ (selHoldElapsed h d s).ftn = s.ftn ∧
    (selHoldElapsed h d s).keys = s.keys ∧ (selHoldElapsed h d s).flt = s.flt ∧ (selHoldElapsed h d s).mgt = s.mgt ∧
    (selHoldElapsed h d s).cnt = s.cnt := by
  simp [selHoldElapsed]

@[simp] theorem keeps_startRamp (s : State) (h : Half) (d : Dom) (ms : List SlotNo) :
    (State.startRamp s h d ms).pending = s.pending ∧ (State.startRamp s h d ms).fresh = s.fresh ∧
    (State.startRamp s h d ms).now = s.now ∧ (State.startRamp s h d ms).outs = s.outs ∧
    (State.startRamp s h d ms).pages = s.pages ∧ (State.startRamp s h d ms).pwr = s.pwr ∧
    (State.startRamp s h d ms).arb = s.arb ∧ (State.startRamp s h d ms).parts = s.parts ∧
    (State.startRamp s h d ms).bars = s.bars ∧ (State.startRamp s h d ms).ops = s.ops ∧
    (State.startRamp s h d ms).ident = s.ident ∧ (State.startRamp s h d ms).models = s.models ∧
    (State.startRamp s h d ms).caps = s.caps ∧ (State.startRamp s h d ms).jets = s.jets ∧
    (State.startRamp s h d ms).lanes = s.lanes ∧ (State.startRamp s h d ms).ports = s.ports ∧
    (State.startRamp s h d ms).ptp = s.ptp ∧ (State.startRamp s h d ms).ftn = s.ftn ∧
    (State.startRamp s h d ms).keys = s.keys ∧ (State.startRamp s h d ms).flt = s.flt ∧
    (State.startRamp s h d ms).mgt = s.mgt ∧ (State.startRamp s h d ms).cnt = s.cnt := by
  simp [State.startRamp]

@[simp] theorem keeps_weightUpdate (h : Half) (d : Dom) (s : State) :
    (weightUpdate h d s).pending = s.pending ∧ (weightUpdate h d s).fresh = s.fresh ∧
    (weightUpdate h d s).now = s.now ∧ (weightUpdate h d s).outs = s.outs ∧ (weightUpdate h d s).pages = s.pages ∧
    (weightUpdate h d s).pwr = s.pwr ∧ (weightUpdate h d s).arb = s.arb ∧ (weightUpdate h d s).parts = s.parts ∧
    (weightUpdate h d s).bars = s.bars ∧ (weightUpdate h d s).ops = s.ops ∧ (weightUpdate h d s).ident = s.ident ∧
    (weightUpdate h d s).models = s.models ∧ (weightUpdate h d s).caps = s.caps ∧ (weightUpdate h d s).jets = s.jets ∧
    (weightUpdate h d s).lanes = s.lanes ∧ (weightUpdate h d s).ports = s.ports ∧ (weightUpdate h d s).ptp = s.ptp ∧
    (weightUpdate h d s).ftn = s.ftn ∧ (weightUpdate h d s).keys = s.keys ∧ (weightUpdate h d s).flt = s.flt ∧
    (weightUpdate h d s).mgt = s.mgt ∧ (weightUpdate h d s).cnt = s.cnt := by
  simp [weightUpdate]

@[simp] theorem keeps_memberBeat (s : State) (h : Half) (d : Dom) :
    (State.memberBeat s h d).pending = s.pending ∧ (State.memberBeat s h d).fresh = s.fresh ∧
    (State.memberBeat s h d).now = s.now ∧ (State.memberBeat s h d).outs = s.outs ∧
    (State.memberBeat s h d).pages = s.pages ∧ (State.memberBeat s h d).pwr = s.pwr ∧
    (State.memberBeat s h d).arb = s.arb ∧ (State.memberBeat s h d).parts = s.parts ∧
    (State.memberBeat s h d).bars = s.bars ∧ (State.memberBeat s h d).ops = s.ops ∧
    (State.memberBeat s h d).ident = s.ident ∧ (State.memberBeat s h d).models = s.models ∧
    (State.memberBeat s h d).caps = s.caps ∧ (State.memberBeat s h d).jets = s.jets ∧
    (State.memberBeat s h d).lanes = s.lanes ∧ (State.memberBeat s h d).ports = s.ports ∧
    (State.memberBeat s h d).ptp = s.ptp ∧ (State.memberBeat s h d).ftn = s.ftn ∧
    (State.memberBeat s h d).keys = s.keys ∧ (State.memberBeat s h d).flt = s.flt ∧
    (State.memberBeat s h d).mgt = s.mgt ∧ (State.memberBeat s h d).cnt = s.cnt := by
  simp [State.memberBeat]

@[simp] theorem keeps_estimateBeat (s : State) (h : Half) (d : Dom) :
    (State.estimateBeat s h d).pending = s.pending ∧ (State.estimateBeat s h d).fresh = s.fresh ∧
    (State.estimateBeat s h d).now = s.now ∧ (State.estimateBeat s h d).outs = s.outs ∧
    (State.estimateBeat s h d).pages = s.pages ∧ (State.estimateBeat s h d).pwr = s.pwr ∧
    (State.estimateBeat s h d).arb = s.arb ∧ (State.estimateBeat s h d).parts = s.parts ∧
    (State.estimateBeat s h d).bars = s.bars ∧ (State.estimateBeat s h d).ops = s.ops ∧
    (State.estimateBeat s h d).ident = s.ident ∧ (State.estimateBeat s h d).models = s.models ∧
    (State.estimateBeat s h d).caps = s.caps ∧ (State.estimateBeat s h d).jets = s.jets ∧
    (State.estimateBeat s h d).lanes = s.lanes ∧ (State.estimateBeat s h d).ports = s.ports ∧
    (State.estimateBeat s h d).ptp = s.ptp ∧ (State.estimateBeat s h d).ftn = s.ftn ∧
    (State.estimateBeat s h d).keys = s.keys ∧ (State.estimateBeat s h d).flt = s.flt ∧
    (State.estimateBeat s h d).mgt = s.mgt ∧ (State.estimateBeat s h d).cnt = s.cnt := by
  simp [State.estimateBeat]

/-! ## Cistern -/

@[simp] theorem keeps_reportTerms (s : State) (h : Half) (d : Dom) :
    (State.reportTerms s h d).pending = s.pending ∧ (State.reportTerms s h d).fresh = s.fresh ∧
    (State.reportTerms s h d).now = s.now ∧ (State.reportTerms s h d).outs = s.outs ∧
    (State.reportTerms s h d).pages = s.pages ∧ (State.reportTerms s h d).pwr = s.pwr ∧
    (State.reportTerms s h d).arb = s.arb ∧ (State.reportTerms s h d).parts = s.parts ∧
    (State.reportTerms s h d).bars = s.bars ∧ (State.reportTerms s h d).ops = s.ops ∧
    (State.reportTerms s h d).ident = s.ident ∧ (State.reportTerms s h d).models = s.models ∧
    (State.reportTerms s h d).caps = s.caps ∧ (State.reportTerms s h d).jets = s.jets ∧
    (State.reportTerms s h d).lanes = s.lanes ∧ (State.reportTerms s h d).ports = s.ports ∧
    (State.reportTerms s h d).ptp = s.ptp ∧ (State.reportTerms s h d).ftn = s.ftn ∧
    (State.reportTerms s h d).keys = s.keys ∧ (State.reportTerms s h d).flt = s.flt ∧
    (State.reportTerms s h d).mgt = s.mgt ∧ (State.reportTerms s h d).cnt = s.cnt := by
  simp [State.reportTerms]

@[simp] theorem keeps_readyBeat (s : State) (h : Half) (d : Dom) :
    (State.readyBeat s h d).pending = s.pending ∧ (State.readyBeat s h d).fresh = s.fresh ∧
    (State.readyBeat s h d).pwr = s.pwr ∧ (State.readyBeat s h d).arb = s.arb ∧
    (State.readyBeat s h d).parts = s.parts ∧ (State.readyBeat s h d).ops = s.ops ∧
    (State.readyBeat s h d).ident = s.ident ∧ (State.readyBeat s h d).models = s.models ∧
    (State.readyBeat s h d).caps = s.caps ∧ (State.readyBeat s h d).jets = s.jets ∧
    (State.readyBeat s h d).lanes = s.lanes ∧ (State.readyBeat s h d).ports = s.ports ∧
    (State.readyBeat s h d).ptp = s.ptp ∧ (State.readyBeat s h d).ftn = s.ftn ∧
    (State.readyBeat s h d).keys = s.keys ∧ (State.readyBeat s h d).flt = s.flt ∧
    (State.readyBeat s h d).mgt = s.mgt ∧ (∀ rp ro, regOf (State.readyBeat s h d).pages rp ro = regOf s.pages rp ro) := by
  simp [State.readyBeat]

@[simp] theorem keeps_takeTemps (s : State) (h : Half) (temps : List Int) :
    (State.takeTemps s h temps).pending = s.pending ∧ (State.takeTemps s h temps).fresh = s.fresh ∧
    (State.takeTemps s h temps).now = s.now ∧ (State.takeTemps s h temps).outs = s.outs ∧
    (State.takeTemps s h temps).pages = s.pages ∧ (State.takeTemps s h temps).pwr = s.pwr ∧
    (State.takeTemps s h temps).arb = s.arb ∧ (State.takeTemps s h temps).parts = s.parts ∧
    (State.takeTemps s h temps).bars = s.bars ∧ (State.takeTemps s h temps).ops = s.ops ∧
    (State.takeTemps s h temps).ident = s.ident ∧ (State.takeTemps s h temps).models = s.models ∧
    (State.takeTemps s h temps).caps = s.caps ∧ (State.takeTemps s h temps).jets = s.jets ∧
    (State.takeTemps s h temps).lanes = s.lanes ∧ (State.takeTemps s h temps).ports = s.ports ∧
    (State.takeTemps s h temps).ptp = s.ptp ∧ (State.takeTemps s h temps).ftn = s.ftn ∧
    (State.takeTemps s h temps).keys = s.keys ∧ (State.takeTemps s h temps).flt = s.flt ∧
    (State.takeTemps s h temps).mgt = s.mgt ∧ (State.takeTemps s h temps).cnt = s.cnt := by
  simp [State.takeTemps]

@[simp] theorem keeps_cisternSecond (h : Half) (d : Dom) (temps : List Int) (s : State) :
    (cisternSecond h d temps s).pending = s.pending ∧ (cisternSecond h d temps s).fresh = s.fresh ∧
    (cisternSecond h d temps s).now = s.now ∧ (cisternSecond h d temps s).outs = s.outs ∧
    (cisternSecond h d temps s).pages = s.pages ∧ (cisternSecond h d temps s).pwr = s.pwr ∧
    (cisternSecond h d temps s).arb = s.arb ∧ (cisternSecond h d temps s).parts = s.parts ∧
    (cisternSecond h d temps s).bars = s.bars ∧ (cisternSecond h d temps s).ops = s.ops ∧
    (cisternSecond h d temps s).ident = s.ident ∧ (cisternSecond h d temps s).models = s.models ∧
    (cisternSecond h d temps s).caps = s.caps ∧ (cisternSecond h d temps s).jets = s.jets ∧
    (cisternSecond h d temps s).lanes = s.lanes ∧ (cisternSecond h d temps s).ports = s.ports ∧
    (cisternSecond h d temps s).ptp = s.ptp ∧ (cisternSecond h d temps s).ftn = s.ftn ∧
    (cisternSecond h d temps s).keys = s.keys ∧ (cisternSecond h d temps s).flt = s.flt ∧
    (cisternSecond h d temps s).mgt = s.mgt ∧ (cisternSecond h d temps s).cnt = s.cnt := by
  simp [cisternSecond]

@[simp] theorem keeps_setLost (s : State) (h : Half) (k : Fin 13) (lost : Bool) :
    (State.setLost s h k lost).pending = s.pending ∧ (State.setLost s h k lost).fresh = s.fresh ∧
    (State.setLost s h k lost).now = s.now ∧ (State.setLost s h k lost).outs = s.outs ∧
    (State.setLost s h k lost).pages = s.pages ∧ (State.setLost s h k lost).pwr = s.pwr ∧
    (State.setLost s h k lost).arb = s.arb ∧ (State.setLost s h k lost).parts = s.parts ∧
    (State.setLost s h k lost).bars = s.bars ∧ (State.setLost s h k lost).ops = s.ops ∧
    (State.setLost s h k lost).ident = s.ident ∧ (State.setLost s h k lost).models = s.models ∧
    (State.setLost s h k lost).caps = s.caps ∧ (State.setLost s h k lost).jets = s.jets ∧
    (State.setLost s h k lost).lanes = s.lanes ∧ (State.setLost s h k lost).ports = s.ports ∧
    (State.setLost s h k lost).ptp = s.ptp ∧ (State.setLost s h k lost).ftn = s.ftn ∧
    (State.setLost s h k lost).keys = s.keys ∧ (State.setLost s h k lost).flt = s.flt ∧
    (State.setLost s h k lost).mgt = s.mgt ∧ (State.setLost s h k lost).cnt = s.cnt := by
  simp [State.setLost]

@[simp] theorem keeps_sensorLost (h : Half) (k : Fin 13) (s : State) :
    (sensorLost h k s).pending = s.pending ∧ (sensorLost h k s).fresh = s.fresh ∧ (sensorLost h k s).now = s.now ∧
    (sensorLost h k s).pwr = s.pwr ∧ (sensorLost h k s).arb = s.arb ∧ (sensorLost h k s).parts = s.parts ∧
    (sensorLost h k s).ops = s.ops ∧ (sensorLost h k s).ident = s.ident ∧ (sensorLost h k s).models = s.models ∧
    (sensorLost h k s).caps = s.caps ∧ (sensorLost h k s).jets = s.jets ∧ (sensorLost h k s).lanes = s.lanes ∧
    (sensorLost h k s).ports = s.ports ∧ (sensorLost h k s).ptp = s.ptp ∧ (sensorLost h k s).ftn = s.ftn ∧
    (sensorLost h k s).keys = s.keys ∧ (sensorLost h k s).flt = s.flt ∧ (sensorLost h k s).mgt = s.mgt ∧
    (∀ rp ro, regOf (sensorLost h k s).pages rp ro = regOf s.pages rp ro) := by
  simp [sensorLost]

@[simp] theorem keeps_sensorPresent (h : Half) (k : Fin 13) (s : State) :
    (sensorPresent h k s).pending = s.pending ∧ (sensorPresent h k s).fresh = s.fresh ∧
    (sensorPresent h k s).now = s.now ∧ (sensorPresent h k s).outs = s.outs ∧ (sensorPresent h k s).pages = s.pages ∧
    (sensorPresent h k s).pwr = s.pwr ∧ (sensorPresent h k s).arb = s.arb ∧ (sensorPresent h k s).parts = s.parts ∧
    (sensorPresent h k s).bars = s.bars ∧ (sensorPresent h k s).ops = s.ops ∧ (sensorPresent h k s).ident = s.ident ∧
    (sensorPresent h k s).models = s.models ∧ (sensorPresent h k s).caps = s.caps ∧
    (sensorPresent h k s).jets = s.jets ∧ (sensorPresent h k s).lanes = s.lanes ∧
    (sensorPresent h k s).ports = s.ports ∧ (sensorPresent h k s).ptp = s.ptp ∧ (sensorPresent h k s).ftn = s.ftn ∧
    (sensorPresent h k s).keys = s.keys ∧ (sensorPresent h k s).flt = s.flt ∧ (sensorPresent h k s).mgt = s.mgt ∧
    (sensorPresent h k s).cnt = s.cnt := by
  simp [sensorPresent]

@[simp] theorem keeps_modTab (s : State) (h : Half) (o : Osc) (f : ModelTab → ModelTab) :
    (State.modTab s h o f).pending = s.pending ∧ (State.modTab s h o f).fresh = s.fresh ∧
    (State.modTab s h o f).now = s.now ∧ (State.modTab s h o f).outs = s.outs ∧
    (State.modTab s h o f).pages = s.pages ∧ (State.modTab s h o f).pwr = s.pwr ∧ (State.modTab s h o f).arb = s.arb ∧
    (State.modTab s h o f).halves = s.halves ∧ (State.modTab s h o f).parts = s.parts ∧
    (State.modTab s h o f).bars = s.bars ∧ (State.modTab s h o f).ops = s.ops ∧
    (State.modTab s h o f).ident = s.ident ∧ (State.modTab s h o f).caps = s.caps ∧
    (State.modTab s h o f).jets = s.jets ∧ (State.modTab s h o f).lanes = s.lanes ∧
    (State.modTab s h o f).ports = s.ports ∧ (State.modTab s h o f).ptp = s.ptp ∧ (State.modTab s h o f).ftn = s.ftn ∧
    (State.modTab s h o f).keys = s.keys ∧ (State.modTab s h o f).flt = s.flt ∧ (State.modTab s h o f).mgt = s.mgt ∧
    (State.modTab s h o f).cnt = s.cnt := by
  simp [State.modTab]

@[simp] theorem keeps_installOne (h : Half) (o : Osc) (e : Model × Bool) (s : State) :
    (installOne h o e s).pending = s.pending ∧ (installOne h o e s).fresh = s.fresh ∧
    (installOne h o e s).now = s.now ∧ (installOne h o e s).pwr = s.pwr ∧ (installOne h o e s).arb = s.arb ∧
    (installOne h o e s).parts = s.parts ∧ (installOne h o e s).ops = s.ops ∧ (installOne h o e s).ident = s.ident ∧
    (installOne h o e s).caps = s.caps ∧ (installOne h o e s).jets = s.jets ∧ (installOne h o e s).lanes = s.lanes ∧
    (installOne h o e s).ports = s.ports ∧ (installOne h o e s).ptp = s.ptp ∧ (installOne h o e s).ftn = s.ftn ∧
    (installOne h o e s).keys = s.keys ∧ (installOne h o e s).flt = s.flt ∧ (installOne h o e s).mgt = s.mgt ∧
    (∀ rp ro, regOf (installOne h o e s).pages rp ro = regOf s.pages rp ro) := by
  simp [installOne]

@[simp] theorem keeps_modelInst (h : Half) (o : Osc) (s : State) :
    (modelInst h o s).pending = s.pending ∧ (modelInst h o s).fresh = s.fresh ∧ (modelInst h o s).now = s.now ∧
    (modelInst h o s).pwr = s.pwr ∧ (modelInst h o s).arb = s.arb ∧ (modelInst h o s).parts = s.parts ∧
    (modelInst h o s).ops = s.ops ∧ (modelInst h o s).ident = s.ident ∧ (modelInst h o s).caps = s.caps ∧
    (modelInst h o s).jets = s.jets ∧ (modelInst h o s).lanes = s.lanes ∧ (modelInst h o s).ports = s.ports ∧
    (modelInst h o s).ptp = s.ptp ∧ (modelInst h o s).ftn = s.ftn ∧ (modelInst h o s).keys = s.keys ∧
    (modelInst h o s).flt = s.flt ∧ (modelInst h o s).mgt = s.mgt ∧
    (∀ rp ro, regOf (modelInst h o s).pages rp ro = regOf s.pages rp ro) := by
  unfold modelInst; (repeat' split) <;> simp

@[simp] theorem keeps_modelPersist (h : Half) (o : Osc) (s : State) :
    (modelPersist h o s).pending = s.pending ∧ (modelPersist h o s).fresh = s.fresh ∧
    (modelPersist h o s).now = s.now ∧ (modelPersist h o s).outs = s.outs ∧ (modelPersist h o s).pages = s.pages ∧
    (modelPersist h o s).pwr = s.pwr ∧ (modelPersist h o s).arb = s.arb ∧ (modelPersist h o s).halves = s.halves ∧
    (modelPersist h o s).parts = s.parts ∧ (modelPersist h o s).bars = s.bars ∧ (modelPersist h o s).ops = s.ops ∧
    (modelPersist h o s).ident = s.ident ∧ (modelPersist h o s).caps = s.caps ∧ (modelPersist h o s).jets = s.jets ∧
    (modelPersist h o s).lanes = s.lanes ∧ (modelPersist h o s).ports = s.ports ∧ (modelPersist h o s).ptp = s.ptp ∧
    (modelPersist h o s).ftn = s.ftn ∧ (modelPersist h o s).keys = s.keys ∧ (modelPersist h o s).flt = s.flt ∧
    (modelPersist h o s).mgt = s.mgt := by
  simp [modelPersist]

@[simp] theorem keeps_learnResult (h : Half) (code : Nat) (s : State) :
    (learnResult h code s).pending = s.pending ∧ (learnResult h code s).fresh = s.fresh ∧
    (learnResult h code s).now = s.now ∧ (learnResult h code s).pwr = s.pwr ∧ (learnResult h code s).arb = s.arb ∧
    (learnResult h code s).parts = s.parts ∧ (learnResult h code s).ops = s.ops ∧
    (learnResult h code s).ident = s.ident ∧ (learnResult h code s).models = s.models ∧
    (learnResult h code s).caps = s.caps ∧ (learnResult h code s).jets = s.jets ∧
    (learnResult h code s).lanes = s.lanes ∧ (learnResult h code s).ports = s.ports ∧
    (learnResult h code s).ptp = s.ptp ∧ (learnResult h code s).ftn = s.ftn ∧ (learnResult h code s).keys = s.keys ∧
    (learnResult h code s).flt = s.flt ∧ (learnResult h code s).mgt = s.mgt ∧
    (∀ rp ro, regOf (learnResult h code s).pages rp ro = regOf s.pages rp ro) := by
  simp [learnResult]

@[simp] theorem keeps_learningPass (h : Half) (o : Osc) (s : State) :
    (learningPass h o s).pending = s.pending ∧ (learningPass h o s).fresh = s.fresh ∧
    (learningPass h o s).now = s.now ∧ (learningPass h o s).pwr = s.pwr ∧ (learningPass h o s).arb = s.arb ∧
    (learningPass h o s).parts = s.parts ∧ (learningPass h o s).ops = s.ops ∧ (learningPass h o s).ident = s.ident ∧
    (learningPass h o s).caps = s.caps ∧ (learningPass h o s).jets = s.jets ∧ (learningPass h o s).lanes = s.lanes ∧
    (learningPass h o s).ports = s.ports ∧ (learningPass h o s).ptp = s.ptp ∧ (learningPass h o s).ftn = s.ftn ∧
    (learningPass h o s).keys = s.keys ∧ (learningPass h o s).flt = s.flt ∧ (learningPass h o s).mgt = s.mgt ∧
    (∀ rp ro, regOf (learningPass h o s).pages rp ro = regOf s.pages rp ro) := by
  simp only [learningPass]; (repeat' split) <;> simp

@[simp] theorem keeps_efcTarget (h : Half) (s : State) :
    (efcTarget h s).pending = s.pending ∧ (efcTarget h s).fresh = s.fresh ∧ (efcTarget h s).now = s.now ∧
    (efcTarget h s).pwr = s.pwr ∧ (efcTarget h s).arb = s.arb ∧ (efcTarget h s).parts = s.parts ∧
    (efcTarget h s).ops = s.ops ∧ (efcTarget h s).ident = s.ident ∧ (efcTarget h s).models = s.models ∧
    (efcTarget h s).caps = s.caps ∧ (efcTarget h s).jets = s.jets ∧ (efcTarget h s).lanes = s.lanes ∧
    (efcTarget h s).ports = s.ports ∧ (efcTarget h s).ptp = s.ptp ∧ (efcTarget h s).ftn = s.ftn ∧
    (efcTarget h s).keys = s.keys ∧ (efcTarget h s).flt = s.flt ∧ (efcTarget h s).mgt = s.mgt ∧
    (∀ rp ro, regOf (efcTarget h s).pages rp ro = regOf s.pages rp ro) := by
  simp [efcTarget]

@[simp] theorem keeps_efcMode (s : State) (h : Half) :
    (State.efcMode s h).pending = s.pending ∧ (State.efcMode s h).fresh = s.fresh ∧ (State.efcMode s h).now = s.now ∧
    (State.efcMode s h).outs = s.outs ∧ (State.efcMode s h).pages = s.pages ∧ (State.efcMode s h).pwr = s.pwr ∧
    (State.efcMode s h).arb = s.arb ∧ (State.efcMode s h).parts = s.parts ∧ (State.efcMode s h).bars = s.bars ∧
    (State.efcMode s h).ops = s.ops ∧ (State.efcMode s h).ident = s.ident ∧ (State.efcMode s h).models = s.models ∧
    (State.efcMode s h).caps = s.caps ∧ (State.efcMode s h).jets = s.jets ∧ (State.efcMode s h).lanes = s.lanes ∧
    (State.efcMode s h).ports = s.ports ∧ (State.efcMode s h).ptp = s.ptp ∧ (State.efcMode s h).ftn = s.ftn ∧
    (State.efcMode s h).keys = s.keys ∧ (State.efcMode s h).flt = s.flt ∧ (State.efcMode s h).mgt = s.mgt ∧
    (State.efcMode s h).cnt = s.cnt := by
  simp [State.efcMode]

@[simp] theorem keeps_efcDrop (s : State) (h : Half) :
    (State.efcDrop s h).pending = s.pending ∧ (State.efcDrop s h).fresh = s.fresh ∧ (State.efcDrop s h).now = s.now ∧
    (State.efcDrop s h).outs = s.outs ∧ (State.efcDrop s h).pages = s.pages ∧ (State.efcDrop s h).pwr = s.pwr ∧
    (State.efcDrop s h).arb = s.arb ∧ (State.efcDrop s h).parts = s.parts ∧ (State.efcDrop s h).bars = s.bars ∧
    (State.efcDrop s h).ops = s.ops ∧ (State.efcDrop s h).ident = s.ident ∧ (State.efcDrop s h).models = s.models ∧
    (State.efcDrop s h).caps = s.caps ∧ (State.efcDrop s h).jets = s.jets ∧ (State.efcDrop s h).lanes = s.lanes ∧
    (State.efcDrop s h).ports = s.ports ∧ (State.efcDrop s h).ptp = s.ptp ∧ (State.efcDrop s h).ftn = s.ftn ∧
    (State.efcDrop s h).keys = s.keys ∧ (State.efcDrop s h).flt = s.flt ∧ (State.efcDrop s h).mgt = s.mgt ∧
    (State.efcDrop s h).cnt = s.cnt := by
  simp [State.efcDrop]

@[simp] theorem keeps_efcBeat (s0 : State) (h : Half) :
    (State.efcBeat s0 h).pending = s0.pending ∧ (State.efcBeat s0 h).fresh = s0.fresh ∧
    (State.efcBeat s0 h).now = s0.now ∧ (State.efcBeat s0 h).outs = s0.outs ∧ (State.efcBeat s0 h).pages = s0.pages ∧
    (State.efcBeat s0 h).pwr = s0.pwr ∧ (State.efcBeat s0 h).arb = s0.arb ∧ (State.efcBeat s0 h).parts = s0.parts ∧
    (State.efcBeat s0 h).bars = s0.bars ∧ (State.efcBeat s0 h).ops = s0.ops ∧ (State.efcBeat s0 h).ident = s0.ident ∧
    (State.efcBeat s0 h).models = s0.models ∧ (State.efcBeat s0 h).caps = s0.caps ∧
    (State.efcBeat s0 h).jets = s0.jets ∧ (State.efcBeat s0 h).lanes = s0.lanes ∧
    (State.efcBeat s0 h).ports = s0.ports ∧ (State.efcBeat s0 h).ptp = s0.ptp ∧ (State.efcBeat s0 h).ftn = s0.ftn ∧
    (State.efcBeat s0 h).keys = s0.keys ∧ (State.efcBeat s0 h).flt = s0.flt ∧ (State.efcBeat s0 h).mgt = s0.mgt ∧
    (State.efcBeat s0 h).cnt = s0.cnt := by
  simp only [State.efcBeat]; (repeat' split) <;> simp

@[simp] theorem keeps_cisternEffect (det : Nat) (s : State) :
    (cisternEffect det s).pending = s.pending ∧ (cisternEffect det s).fresh = s.fresh ∧
    (cisternEffect det s).now = s.now ∧ (cisternEffect det s).pwr = s.pwr ∧ (cisternEffect det s).arb = s.arb ∧
    (cisternEffect det s).parts = s.parts ∧ (cisternEffect det s).ops = s.ops ∧
    (cisternEffect det s).ident = s.ident ∧ (cisternEffect det s).models = s.models ∧
    (cisternEffect det s).caps = s.caps ∧ (cisternEffect det s).jets = s.jets ∧
    (cisternEffect det s).lanes = s.lanes ∧ (cisternEffect det s).ports = s.ports ∧
    (cisternEffect det s).ptp = s.ptp ∧ (cisternEffect det s).ftn = s.ftn ∧ (cisternEffect det s).keys = s.keys ∧
    (cisternEffect det s).flt = s.flt ∧ (cisternEffect det s).mgt = s.mgt ∧
    (∀ rp ro, regOf (cisternEffect det s).pages rp ro = regOf s.pages rp ro) := by
  unfold cisternEffect; (repeat' split) <;> simp

@[simp] theorem keeps_cisternDetection (det : Byte) (s : State) :
    (cisternDetection det s).pending = s.pending ∧ (cisternDetection det s).fresh = s.fresh ∧
    (cisternDetection det s).now = s.now ∧ (cisternDetection det s).pwr = s.pwr ∧
    (cisternDetection det s).arb = s.arb ∧ (cisternDetection det s).parts = s.parts ∧
    (cisternDetection det s).ops = s.ops ∧ (cisternDetection det s).models = s.models ∧
    (cisternDetection det s).caps = s.caps ∧ (cisternDetection det s).jets = s.jets ∧
    (cisternDetection det s).lanes = s.lanes ∧ (cisternDetection det s).ports = s.ports ∧
    (cisternDetection det s).ptp = s.ptp ∧ (cisternDetection det s).ftn = s.ftn ∧
    (cisternDetection det s).keys = s.keys ∧ (cisternDetection det s).mgt = s.mgt ∧
    (∀ rp ro, regOf (cisternDetection det s).pages rp ro = regOf s.pages rp ro) := by
  simp [cisternDetection]

/-! ## Domains -/

@[simp] theorem keeps_retune (s : State) (h : Half) (d : Dom) (coatChanged : Bool) :
    (State.retune s h d coatChanged).pending = s.pending ∧ (State.retune s h d coatChanged).fresh = s.fresh ∧
    (State.retune s h d coatChanged).now = s.now ∧ (State.retune s h d coatChanged).outs = s.outs ∧
    (State.retune s h d coatChanged).pages = s.pages ∧ (State.retune s h d coatChanged).pwr = s.pwr ∧
    (State.retune s h d coatChanged).arb = s.arb ∧ (State.retune s h d coatChanged).parts = s.parts ∧
    (State.retune s h d coatChanged).bars = s.bars ∧ (State.retune s h d coatChanged).ops = s.ops ∧
    (State.retune s h d coatChanged).ident = s.ident ∧ (State.retune s h d coatChanged).models = s.models ∧
    (State.retune s h d coatChanged).caps = s.caps ∧ (State.retune s h d coatChanged).jets = s.jets ∧
    (State.retune s h d coatChanged).lanes = s.lanes ∧ (State.retune s h d coatChanged).ports = s.ports ∧
    (State.retune s h d coatChanged).ptp = s.ptp ∧ (State.retune s h d coatChanged).ftn = s.ftn ∧
    (State.retune s h d coatChanged).keys = s.keys ∧ (State.retune s h d coatChanged).flt = s.flt ∧
    (State.retune s h d coatChanged).mgt = s.mgt ∧ (State.retune s h d coatChanged).cnt = s.cnt := by
  simp [State.retune]

@[simp] theorem keeps_sampleInput (s : State) (h : Half) (d : Dom) :
    (State.sampleInput s h d).pending = s.pending ∧ (State.sampleInput s h d).fresh = s.fresh ∧
    (State.sampleInput s h d).now = s.now ∧ (State.sampleInput s h d).outs = s.outs ∧
    (State.sampleInput s h d).pages = s.pages ∧ (State.sampleInput s h d).pwr = s.pwr ∧
    (State.sampleInput s h d).arb = s.arb ∧ (State.sampleInput s h d).parts = s.parts ∧
    (State.sampleInput s h d).bars = s.bars ∧ (State.sampleInput s h d).ops = s.ops ∧
    (State.sampleInput s h d).ident = s.ident ∧ (State.sampleInput s h d).models = s.models ∧
    (State.sampleInput s h d).caps = s.caps ∧ (State.sampleInput s h d).jets = s.jets ∧
    (State.sampleInput s h d).lanes = s.lanes ∧ (State.sampleInput s h d).ports = s.ports ∧
    (State.sampleInput s h d).ptp = s.ptp ∧ (State.sampleInput s h d).ftn = s.ftn ∧
    (State.sampleInput s h d).keys = s.keys ∧ (State.sampleInput s h d).flt = s.flt ∧
    (State.sampleInput s h d).mgt = s.mgt ∧ (State.sampleInput s h d).cnt = s.cnt := by
  simp [State.sampleInput]

@[simp] theorem keeps_loopUpdate (h : Half) (d : Dom) (phase : Option Int) (s : State) :
    (loopUpdate h d phase s).pending = s.pending ∧ (loopUpdate h d phase s).fresh = s.fresh ∧
    (loopUpdate h d phase s).now = s.now ∧ (loopUpdate h d phase s).pwr = s.pwr ∧
    (loopUpdate h d phase s).arb = s.arb ∧ (loopUpdate h d phase s).parts = s.parts ∧
    (loopUpdate h d phase s).ops = s.ops ∧ (loopUpdate h d phase s).ident = s.ident ∧
    (loopUpdate h d phase s).models = s.models ∧ (loopUpdate h d phase s).caps = s.caps ∧
    (loopUpdate h d phase s).jets = s.jets ∧ (loopUpdate h d phase s).lanes = s.lanes ∧
    (loopUpdate h d phase s).ports = s.ports ∧ (loopUpdate h d phase s).ptp = s.ptp ∧
    (loopUpdate h d phase s).ftn = s.ftn ∧ (loopUpdate h d phase s).keys = s.keys ∧
    (loopUpdate h d phase s).flt = s.flt ∧ (loopUpdate h d phase s).mgt = s.mgt ∧
    (∀ rp ro, regOf (loopUpdate h d phase s).pages rp ro = regOf s.pages rp ro) := by
  unfold loopUpdate; (repeat' split) <;> simp

@[simp] theorem keeps_enterDom (s : State) (h : Half) (d : Dom) (st coat : Nat) :
    (State.enterDom s h d st coat).pending = s.pending ∧ (State.enterDom s h d st coat).fresh = s.fresh ∧
    (State.enterDom s h d st coat).now = s.now ∧ (State.enterDom s h d st coat).pwr = s.pwr ∧
    (State.enterDom s h d st coat).arb = s.arb ∧ (State.enterDom s h d st coat).parts = s.parts ∧
    (State.enterDom s h d st coat).ops = s.ops ∧ (State.enterDom s h d st coat).ident = s.ident ∧
    (State.enterDom s h d st coat).models = s.models ∧ (State.enterDom s h d st coat).caps = s.caps ∧
    (State.enterDom s h d st coat).jets = s.jets ∧ (State.enterDom s h d st coat).lanes = s.lanes ∧
    (State.enterDom s h d st coat).ports = s.ports ∧ (State.enterDom s h d st coat).ptp = s.ptp ∧
    (State.enterDom s h d st coat).ftn = s.ftn ∧ (State.enterDom s h d st coat).keys = s.keys ∧
    (State.enterDom s h d st coat).flt = s.flt ∧ (State.enterDom s h d st coat).mgt = s.mgt ∧
    (∀ rp ro, regOf (State.enterDom s h d st coat).pages rp ro = regOf s.pages rp ro) := by
  simp [State.enterDom]

@[simp] theorem keeps_enterCoat (s : State) (h : Half) (d : Dom) (coat : Nat) :
    (State.enterCoat s h d coat).pending = s.pending ∧ (State.enterCoat s h d coat).fresh = s.fresh ∧
    (State.enterCoat s h d coat).now = s.now ∧ (State.enterCoat s h d coat).pwr = s.pwr ∧
    (State.enterCoat s h d coat).arb = s.arb ∧ (State.enterCoat s h d coat).parts = s.parts ∧
    (State.enterCoat s h d coat).ops = s.ops ∧ (State.enterCoat s h d coat).ident = s.ident ∧
    (State.enterCoat s h d coat).models = s.models ∧ (State.enterCoat s h d coat).caps = s.caps ∧
    (State.enterCoat s h d coat).jets = s.jets ∧ (State.enterCoat s h d coat).lanes = s.lanes ∧
    (State.enterCoat s h d coat).ports = s.ports ∧ (State.enterCoat s h d coat).ptp = s.ptp ∧
    (State.enterCoat s h d coat).ftn = s.ftn ∧ (State.enterCoat s h d coat).keys = s.keys ∧
    (State.enterCoat s h d coat).flt = s.flt ∧ (State.enterCoat s h d coat).mgt = s.mgt ∧
    (∀ rp ro, regOf (State.enterCoat s h d coat).pages rp ro = regOf s.pages rp ro) := by
  simp [State.enterCoat]

@[simp] theorem keeps_toHoldover (s : State) (h : Half) (d : Dom) :
    (State.toHoldover s h d).pending = s.pending ∧ (State.toHoldover s h d).fresh = s.fresh ∧
    (State.toHoldover s h d).now = s.now ∧ (State.toHoldover s h d).pwr = s.pwr ∧
    (State.toHoldover s h d).arb = s.arb ∧ (State.toHoldover s h d).parts = s.parts ∧
    (State.toHoldover s h d).ops = s.ops ∧ (State.toHoldover s h d).ident = s.ident ∧
    (State.toHoldover s h d).models = s.models ∧ (State.toHoldover s h d).caps = s.caps ∧
    (State.toHoldover s h d).jets = s.jets ∧ (State.toHoldover s h d).lanes = s.lanes ∧
    (State.toHoldover s h d).ports = s.ports ∧ (State.toHoldover s h d).ptp = s.ptp ∧
    (State.toHoldover s h d).ftn = s.ftn ∧ (State.toHoldover s h d).keys = s.keys ∧
    (State.toHoldover s h d).flt = s.flt ∧ (State.toHoldover s h d).mgt = s.mgt ∧
    (∀ rp ro, regOf (State.toHoldover s h d).pages rp ro = regOf s.pages rp ro) := by
  simp [State.toHoldover]

@[simp] theorem keeps_toLost (s : State) (h : Half) (d : Dom) :
    (State.toLost s h d).pending = s.pending ∧ (State.toLost s h d).fresh = s.fresh ∧
    (State.toLost s h d).now = s.now ∧ (State.toLost s h d).pwr = s.pwr ∧ (State.toLost s h d).arb = s.arb ∧
    (State.toLost s h d).parts = s.parts ∧ (State.toLost s h d).ops = s.ops ∧ (State.toLost s h d).ident = s.ident ∧
    (State.toLost s h d).models = s.models ∧ (State.toLost s h d).caps = s.caps ∧ (State.toLost s h d).jets = s.jets ∧
    (State.toLost s h d).lanes = s.lanes ∧ (State.toLost s h d).ports = s.ports ∧ (State.toLost s h d).ptp = s.ptp ∧
    (State.toLost s h d).ftn = s.ftn ∧ (State.toLost s h d).keys = s.keys ∧ (State.toLost s h d).flt = s.flt ∧
    (State.toLost s h d).mgt = s.mgt ∧ (∀ rp ro, regOf (State.toLost s h d).pages rp ro = regOf s.pages rp ro) := by
  simp [State.toLost]

@[simp] theorem keeps_dwellBeat (s : State) (h : Half) (d : Dom) :
    (State.dwellBeat s h d).pending = s.pending ∧ (State.dwellBeat s h d).fresh = s.fresh ∧
    (State.dwellBeat s h d).now = s.now ∧ (State.dwellBeat s h d).outs = s.outs ∧
    (State.dwellBeat s h d).pages = s.pages ∧ (State.dwellBeat s h d).pwr = s.pwr ∧
    (State.dwellBeat s h d).arb = s.arb ∧ (State.dwellBeat s h d).parts = s.parts ∧
    (State.dwellBeat s h d).bars = s.bars ∧ (State.dwellBeat s h d).ops = s.ops ∧
    (State.dwellBeat s h d).ident = s.ident ∧ (State.dwellBeat s h d).models = s.models ∧
    (State.dwellBeat s h d).caps = s.caps ∧ (State.dwellBeat s h d).jets = s.jets ∧
    (State.dwellBeat s h d).lanes = s.lanes ∧ (State.dwellBeat s h d).ports = s.ports ∧
    (State.dwellBeat s h d).ptp = s.ptp ∧ (State.dwellBeat s h d).ftn = s.ftn ∧
    (State.dwellBeat s h d).keys = s.keys ∧ (State.dwellBeat s h d).mgt = s.mgt ∧
    (State.dwellBeat s h d).cnt = s.cnt := by
  simp [State.dwellBeat]

@[simp] theorem keeps_dwellAct (s : State) (h : Half) (d : Dom) :
    (State.dwellAct s h d).pending = s.pending ∧ (State.dwellAct s h d).fresh = s.fresh ∧
    (State.dwellAct s h d).now = s.now ∧ (State.dwellAct s h d).pwr = s.pwr ∧ (State.dwellAct s h d).arb = s.arb ∧
    (State.dwellAct s h d).parts = s.parts ∧ (State.dwellAct s h d).ops = s.ops ∧
    (State.dwellAct s h d).ident = s.ident ∧ (State.dwellAct s h d).models = s.models ∧
    (State.dwellAct s h d).caps = s.caps ∧ (State.dwellAct s h d).jets = s.jets ∧
    (State.dwellAct s h d).lanes = s.lanes ∧ (State.dwellAct s h d).ports = s.ports ∧
    (State.dwellAct s h d).ptp = s.ptp ∧ (State.dwellAct s h d).ftn = s.ftn ∧ (State.dwellAct s h d).keys = s.keys ∧
    (State.dwellAct s h d).flt = s.flt ∧ (State.dwellAct s h d).mgt = s.mgt ∧
    (∀ rp ro, regOf (State.dwellAct s h d).pages rp ro = regOf s.pages rp ro) := by
  simp [State.dwellAct]

@[simp] theorem keeps_dwellExpiry (h : Half) (d : Dom) (s : State) :
    (dwellExpiry h d s).pending = s.pending ∧ (dwellExpiry h d s).fresh = s.fresh ∧ (dwellExpiry h d s).now = s.now ∧
    (dwellExpiry h d s).outs = s.outs ∧ (dwellExpiry h d s).pages = s.pages ∧ (dwellExpiry h d s).pwr = s.pwr ∧
    (dwellExpiry h d s).arb = s.arb ∧ (dwellExpiry h d s).parts = s.parts ∧ (dwellExpiry h d s).bars = s.bars ∧
    (dwellExpiry h d s).ops = s.ops ∧ (dwellExpiry h d s).ident = s.ident ∧ (dwellExpiry h d s).models = s.models ∧
    (dwellExpiry h d s).caps = s.caps ∧ (dwellExpiry h d s).jets = s.jets ∧ (dwellExpiry h d s).lanes = s.lanes ∧
    (dwellExpiry h d s).ports = s.ports ∧ (dwellExpiry h d s).ptp = s.ptp ∧ (dwellExpiry h d s).ftn = s.ftn ∧
    (dwellExpiry h d s).keys = s.keys ∧ (dwellExpiry h d s).flt = s.flt ∧ (dwellExpiry h d s).mgt = s.mgt ∧
    (dwellExpiry h d s).cnt = s.cnt := by
  simp [dwellExpiry]

@[simp] theorem keeps_regain (s : State) (h : Half) (d : Dom) (coat : Nat) :
    (State.regain s h d coat).pending = s.pending ∧ (State.regain s h d coat).fresh = s.fresh ∧
    (State.regain s h d coat).now = s.now ∧ (State.regain s h d coat).pwr = s.pwr ∧
    (State.regain s h d coat).arb = s.arb ∧ (State.regain s h d coat).parts = s.parts ∧
    (State.regain s h d coat).ops = s.ops ∧ (State.regain s h d coat).ident = s.ident ∧
    (State.regain s h d coat).models = s.models ∧ (State.regain s h d coat).caps = s.caps ∧
    (State.regain s h d coat).jets = s.jets ∧ (State.regain s h d coat).lanes = s.lanes ∧
    (State.regain s h d coat).ports = s.ports ∧ (State.regain s h d coat).ptp = s.ptp ∧
    (State.regain s h d coat).ftn = s.ftn ∧ (State.regain s h d coat).keys = s.keys ∧
    (State.regain s h d coat).flt = s.flt ∧ (State.regain s h d coat).mgt = s.mgt ∧
    (∀ rp ro, regOf (State.regain s h d coat).pages rp ro = regOf s.pages rp ro) := by
  simp [State.regain]

@[simp] theorem keeps_domNext (s : State) (h : Half) (d : Dom) :
    (State.domNext s h d).pending = s.pending ∧ (State.domNext s h d).fresh = s.fresh ∧
    (State.domNext s h d).now = s.now ∧ (State.domNext s h d).pwr = s.pwr ∧ (State.domNext s h d).arb = s.arb ∧
    (State.domNext s h d).parts = s.parts ∧ (State.domNext s h d).ops = s.ops ∧
    (State.domNext s h d).ident = s.ident ∧ (State.domNext s h d).models = s.models ∧
    (State.domNext s h d).caps = s.caps ∧ (State.domNext s h d).jets = s.jets ∧
    (State.domNext s h d).lanes = s.lanes ∧ (State.domNext s h d).ports = s.ports ∧
    (State.domNext s h d).ptp = s.ptp ∧ (State.domNext s h d).ftn = s.ftn ∧ (State.domNext s h d).keys = s.keys ∧
    (State.domNext s h d).flt = s.flt ∧ (State.domNext s h d).mgt = s.mgt ∧
    (∀ rp ro, regOf (State.domNext s h d).pages rp ro = regOf s.pages rp ro) := by
  simp [State.domNext]

@[simp] theorem keeps_makeStep (s : State) (h : Half) (n : SlotNo) (d : Dom) (delta : Nat) :
    (State.makeStep s h n d delta).pending = s.pending ∧ (State.makeStep s h n d delta).fresh = s.fresh ∧
    (State.makeStep s h n d delta).now = s.now ∧ (State.makeStep s h n d delta).arb = s.arb ∧
    (State.makeStep s h n d delta).parts = s.parts ∧ (State.makeStep s h n d delta).ops = s.ops ∧
    (State.makeStep s h n d delta).ident = s.ident ∧ (State.makeStep s h n d delta).models = s.models ∧
    (State.makeStep s h n d delta).caps = s.caps ∧ (State.makeStep s h n d delta).jets = s.jets ∧
    (State.makeStep s h n d delta).lanes = s.lanes ∧ (State.makeStep s h n d delta).ports = s.ports ∧
    (State.makeStep s h n d delta).ftn = s.ftn ∧ (State.makeStep s h n d delta).keys = s.keys ∧
    (State.makeStep s h n d delta).flt = s.flt ∧ (State.makeStep s h n d delta).mgt = s.mgt ∧
    (∀ rp ro, regOf (State.makeStep s h n d delta).pages rp ro = regOf s.pages rp ro) := by
  simp [State.makeStep]

@[simp] theorem keeps_trowelBeat (s : State) (h : Half) (d : Dom) :
    (State.trowelBeat s h d).pending = s.pending ∧ (State.trowelBeat s h d).fresh = s.fresh ∧
    (State.trowelBeat s h d).now = s.now ∧ (State.trowelBeat s h d).arb = s.arb ∧
    (State.trowelBeat s h d).parts = s.parts ∧ (State.trowelBeat s h d).ops = s.ops ∧
    (State.trowelBeat s h d).ident = s.ident ∧ (State.trowelBeat s h d).models = s.models ∧
    (State.trowelBeat s h d).caps = s.caps ∧ (State.trowelBeat s h d).jets = s.jets ∧
    (State.trowelBeat s h d).lanes = s.lanes ∧ (State.trowelBeat s h d).ports = s.ports ∧
    (State.trowelBeat s h d).ftn = s.ftn ∧ (State.trowelBeat s h d).keys = s.keys ∧
    (State.trowelBeat s h d).flt = s.flt ∧ (State.trowelBeat s h d).mgt = s.mgt ∧
    (∀ rp ro, regOf (State.trowelBeat s h d).pages rp ro = regOf s.pages rp ro) := by
  unfold State.trowelBeat; (repeat' split) <;> simp

@[simp] theorem keeps_modesBeat (s : State) (h : Half) (d : Dom) :
    (State.modesBeat s h d).pending = s.pending ∧ (State.modesBeat s h d).fresh = s.fresh ∧
    (State.modesBeat s h d).now = s.now ∧ (State.modesBeat s h d).pwr = s.pwr ∧ (State.modesBeat s h d).arb = s.arb ∧
    (State.modesBeat s h d).parts = s.parts ∧ (State.modesBeat s h d).ops = s.ops ∧
    (State.modesBeat s h d).ident = s.ident ∧ (State.modesBeat s h d).models = s.models ∧
    (State.modesBeat s h d).caps = s.caps ∧ (State.modesBeat s h d).jets = s.jets ∧
    (State.modesBeat s h d).lanes = s.lanes ∧ (State.modesBeat s h d).ports = s.ports ∧
    (State.modesBeat s h d).ptp = s.ptp ∧ (State.modesBeat s h d).ftn = s.ftn ∧
    (State.modesBeat s h d).keys = s.keys ∧ (State.modesBeat s h d).flt = s.flt ∧
    (State.modesBeat s h d).mgt = s.mgt ∧ (∀ rp ro, regOf (State.modesBeat s h d).pages rp ro = regOf s.pages rp ro) := by
  simp [State.modesBeat]

@[simp] theorem keeps_targetBeat (s : State) (h : Half) (d : Dom) :
    (State.targetBeat s h d).pending = s.pending ∧ (State.targetBeat s h d).fresh = s.fresh ∧
    (State.targetBeat s h d).pwr = s.pwr ∧ (State.targetBeat s h d).arb = s.arb ∧
    (State.targetBeat s h d).parts = s.parts ∧ (State.targetBeat s h d).ops = s.ops ∧
    (State.targetBeat s h d).ident = s.ident ∧ (State.targetBeat s h d).models = s.models ∧
    (State.targetBeat s h d).caps = s.caps ∧ (State.targetBeat s h d).jets = s.jets ∧
    (State.targetBeat s h d).lanes = s.lanes ∧ (State.targetBeat s h d).ports = s.ports ∧
    (State.targetBeat s h d).ptp = s.ptp ∧ (State.targetBeat s h d).ftn = s.ftn ∧
    (State.targetBeat s h d).keys = s.keys ∧ (State.targetBeat s h d).flt = s.flt ∧
    (State.targetBeat s h d).mgt = s.mgt ∧
    (∀ rp ro, regOf (State.targetBeat s h d).pages rp ro = regOf s.pages rp ro) := by
  simp only [State.targetBeat]; (repeat' split) <;> simp

@[simp] theorem keeps_startDom (s : State) (h : Half) (d : Dom) (unb : Nat) :
    (State.startDom s h d unb).pending = s.pending ∧ (State.startDom s h d unb).fresh = s.fresh ∧
    (State.startDom s h d unb).now = s.now ∧ (State.startDom s h d unb).outs = s.outs ∧
    (State.startDom s h d unb).pages = s.pages ∧ (State.startDom s h d unb).pwr = s.pwr ∧
    (State.startDom s h d unb).arb = s.arb ∧ (State.startDom s h d unb).parts = s.parts ∧
    (State.startDom s h d unb).bars = s.bars ∧ (State.startDom s h d unb).ops = s.ops ∧
    (State.startDom s h d unb).ident = s.ident ∧ (State.startDom s h d unb).models = s.models ∧
    (State.startDom s h d unb).caps = s.caps ∧ (State.startDom s h d unb).jets = s.jets ∧
    (State.startDom s h d unb).lanes = s.lanes ∧ (State.startDom s h d unb).ports = s.ports ∧
    (State.startDom s h d unb).ftn = s.ftn ∧ (State.startDom s h d unb).keys = s.keys ∧
    (State.startDom s h d unb).flt = s.flt ∧ (State.startDom s h d unb).mgt = s.mgt ∧
    (State.startDom s h d unb).cnt = s.cnt := by
  simp [State.startDom]

@[simp] theorem keeps_resetDom (s : State) (h : Half) (d : Dom) :
    (State.resetDom s h d).pending = s.pending ∧ (State.resetDom s h d).fresh = s.fresh ∧
    (State.resetDom s h d).now = s.now ∧ (State.resetDom s h d).pwr = s.pwr ∧ (State.resetDom s h d).arb = s.arb ∧
    (State.resetDom s h d).parts = s.parts ∧ (State.resetDom s h d).ops = s.ops ∧
    (State.resetDom s h d).ident = s.ident ∧ (State.resetDom s h d).models = s.models ∧
    (State.resetDom s h d).caps = s.caps ∧ (State.resetDom s h d).jets = s.jets ∧
    (State.resetDom s h d).lanes = s.lanes ∧ (State.resetDom s h d).ports = s.ports ∧
    (State.resetDom s h d).ftn = s.ftn ∧ (State.resetDom s h d).keys = s.keys ∧ (State.resetDom s h d).flt = s.flt ∧
    (State.resetDom s h d).mgt = s.mgt ∧ (∀ rp ro, regOf (State.resetDom s h d).pages rp ro = regOf s.pages rp ro) := by
  simp [State.resetDom]

@[simp] theorem keeps_domainReset (d : Dom) (s : State) :
    (domainReset d s).pending = s.pending ∧ (domainReset d s).fresh = s.fresh ∧ (domainReset d s).now = s.now ∧
    (domainReset d s).pwr = s.pwr ∧ (domainReset d s).ident = s.ident ∧ (domainReset d s).models = s.models ∧
    (domainReset d s).jets = s.jets ∧ (domainReset d s).lanes = s.lanes ∧ (domainReset d s).ports = s.ports ∧
    (domainReset d s).ftn = s.ftn ∧ (domainReset d s).keys = s.keys ∧ (domainReset d s).flt = s.flt ∧
    (domainReset d s).mgt = s.mgt ∧ (∀ rp ro, regOf (domainReset d s).pages rp ro = regOf s.pages rp ro) := by
  simp [domainReset]

@[simp] theorem keeps_domainDetection (d : Dom) (det : Byte) (s : State) :
    (domainDetection d det s).pending = s.pending ∧ (domainDetection d det s).fresh = s.fresh ∧
    (domainDetection d det s).now = s.now ∧ (domainDetection d det s).pwr = s.pwr ∧
    (domainDetection d det s).arb = s.arb ∧ (domainDetection d det s).parts = s.parts ∧
    (domainDetection d det s).ops = s.ops ∧ (domainDetection d det s).models = s.models ∧
    (domainDetection d det s).caps = s.caps ∧ (domainDetection d det s).jets = s.jets ∧
    (domainDetection d det s).lanes = s.lanes ∧ (domainDetection d det s).ports = s.ports ∧
    (domainDetection d det s).ptp = s.ptp ∧ (domainDetection d det s).ftn = s.ftn ∧
    (domainDetection d det s).keys = s.keys ∧ (domainDetection d det s).mgt = s.mgt ∧
    (∀ rp ro, regOf (domainDetection d det s).pages rp ro = regOf s.pages rp ro) := by
  unfold domainDetection; (repeat' split) <;> simp

@[simp] theorem keeps_rateSetDispatch (o : Op) (t : Tag) (late : Bool) (s : State) :
    (rateSetDispatch o t late s).pending = s.pending ∧ (rateSetDispatch o t late s).fresh = s.fresh ∧
    (rateSetDispatch o t late s).now = s.now ∧ (rateSetDispatch o t late s).pwr = s.pwr ∧
    (rateSetDispatch o t late s).arb = s.arb ∧ (rateSetDispatch o t late s).ident = s.ident ∧
    (rateSetDispatch o t late s).models = s.models ∧ (rateSetDispatch o t late s).caps = s.caps ∧
    (rateSetDispatch o t late s).jets = s.jets ∧ (rateSetDispatch o t late s).lanes = s.lanes ∧
    (rateSetDispatch o t late s).ports = s.ports ∧ (rateSetDispatch o t late s).ptp = s.ptp ∧
    (rateSetDispatch o t late s).ftn = s.ftn ∧ (rateSetDispatch o t late s).keys = s.keys ∧
    (rateSetDispatch o t late s).flt = s.flt ∧ (rateSetDispatch o t late s).mgt = s.mgt ∧
    (∀ rp ro, regOf (rateSetDispatch o t late s).pages rp ro = regOf s.pages rp ro) := by
  simp [rateSetDispatch]

@[simp] theorem keeps_rateSetOne (s : State) (r : RateReq) :
    (State.rateSetOne s r).pending = s.pending ∧ (State.rateSetOne s r).fresh = s.fresh ∧
    (State.rateSetOne s r).now = s.now ∧ (State.rateSetOne s r).pwr = s.pwr ∧ (State.rateSetOne s r).arb = s.arb ∧
    (State.rateSetOne s r).halves = s.halves ∧ (State.rateSetOne s r).ident = s.ident ∧
    (State.rateSetOne s r).models = s.models ∧ (State.rateSetOne s r).caps = s.caps ∧
    (State.rateSetOne s r).jets = s.jets ∧ (State.rateSetOne s r).lanes = s.lanes ∧
    (State.rateSetOne s r).ports = s.ports ∧ (State.rateSetOne s r).ptp = s.ptp ∧ (State.rateSetOne s r).ftn = s.ftn ∧
    (State.rateSetOne s r).keys = s.keys ∧ (State.rateSetOne s r).flt = s.flt ∧ (State.rateSetOne s r).mgt = s.mgt ∧
    (∀ rp ro, regOf (State.rateSetOne s r).pages rp ro = regOf s.pages rp ro) := by
  unfold State.rateSetOne; (repeat' split) <;> simp

@[simp] theorem keeps_rateSetDone (s : State) (h : Half) (d : Dom) :
    (State.rateSetDone s h d).pending = s.pending ∧ (State.rateSetDone s h d).fresh = s.fresh ∧
    (State.rateSetDone s h d).now = s.now ∧ (State.rateSetDone s h d).pwr = s.pwr ∧
    (State.rateSetDone s h d).arb = s.arb ∧ (State.rateSetDone s h d).halves = s.halves ∧
    (State.rateSetDone s h d).ident = s.ident ∧ (State.rateSetDone s h d).models = s.models ∧
    (State.rateSetDone s h d).caps = s.caps ∧ (State.rateSetDone s h d).jets = s.jets ∧
    (State.rateSetDone s h d).lanes = s.lanes ∧ (State.rateSetDone s h d).ports = s.ports ∧
    (State.rateSetDone s h d).ptp = s.ptp ∧ (State.rateSetDone s h d).ftn = s.ftn ∧
    (State.rateSetDone s h d).keys = s.keys ∧ (State.rateSetDone s h d).flt = s.flt ∧
    (State.rateSetDone s h d).mgt = s.mgt ∧
    (∀ rp ro, regOf (State.rateSetDone s h d).pages rp ro = regOf s.pages rp ro) := by
  simp [State.rateSetDone]

/-! ## Spirit -/

@[simp] theorem keeps_spiritBeat (s : State) (h : Half) (d : Dom) :
    (State.spiritBeat s h d).pending = s.pending ∧ (State.spiritBeat s h d).fresh = s.fresh ∧
    (State.spiritBeat s h d).now = s.now ∧ (State.spiritBeat s h d).pwr = s.pwr ∧
    (State.spiritBeat s h d).arb = s.arb ∧ (State.spiritBeat s h d).parts = s.parts ∧
    (State.spiritBeat s h d).ops = s.ops ∧ (State.spiritBeat s h d).ident = s.ident ∧
    (State.spiritBeat s h d).models = s.models ∧ (State.spiritBeat s h d).caps = s.caps ∧
    (State.spiritBeat s h d).jets = s.jets ∧ (State.spiritBeat s h d).lanes = s.lanes ∧
    (State.spiritBeat s h d).ports = s.ports ∧ (State.spiritBeat s h d).ptp = s.ptp ∧
    (State.spiritBeat s h d).ftn = s.ftn ∧ (State.spiritBeat s h d).keys = s.keys ∧
    (State.spiritBeat s h d).flt = s.flt ∧ (State.spiritBeat s h d).mgt = s.mgt ∧
    (∀ rp ro, regOf (State.spiritBeat s h d).pages rp ro = regOf s.pages rp ro) := by
  simp [State.spiritBeat]

@[simp] theorem keeps_clearFresh (s : State) (h : Half) (d : Dom) :
    (State.clearFresh s h d).pending = s.pending ∧ (State.clearFresh s h d).now = s.now ∧
    (State.clearFresh s h d).outs = s.outs ∧ (State.clearFresh s h d).pages = s.pages ∧
    (State.clearFresh s h d).pwr = s.pwr ∧ (State.clearFresh s h d).arb = s.arb ∧
    (State.clearFresh s h d).parts = s.parts ∧ (State.clearFresh s h d).bars = s.bars ∧
    (State.clearFresh s h d).ops = s.ops ∧ (State.clearFresh s h d).ident = s.ident ∧
    (State.clearFresh s h d).models = s.models ∧ (State.clearFresh s h d).caps = s.caps ∧
    (State.clearFresh s h d).jets = s.jets ∧ (State.clearFresh s h d).lanes = s.lanes ∧
    (State.clearFresh s h d).ports = s.ports ∧ (State.clearFresh s h d).ptp = s.ptp ∧
    (State.clearFresh s h d).ftn = s.ftn ∧ (State.clearFresh s h d).keys = s.keys ∧
    (State.clearFresh s h d).flt = s.flt ∧ (State.clearFresh s h d).mgt = s.mgt ∧
    (State.clearFresh s h d).cnt = s.cnt := by
  simp [State.clearFresh]

@[simp] theorem keeps_slPdsClr (mask : BitVec 4) (s : State) :
    (slPdsClr mask s).pending = s.pending ∧ (slPdsClr mask s).fresh = s.fresh ∧ (slPdsClr mask s).now = s.now ∧
    (slPdsClr mask s).outs = s.outs ∧ (slPdsClr mask s).pages = s.pages ∧ (slPdsClr mask s).pwr = s.pwr ∧
    (slPdsClr mask s).arb = s.arb ∧ (slPdsClr mask s).parts = s.parts ∧ (slPdsClr mask s).bars = s.bars ∧
    (slPdsClr mask s).ops = s.ops ∧ (slPdsClr mask s).ident = s.ident ∧ (slPdsClr mask s).models = s.models ∧
    (slPdsClr mask s).caps = s.caps ∧ (slPdsClr mask s).jets = s.jets ∧ (slPdsClr mask s).lanes = s.lanes ∧
    (slPdsClr mask s).ports = s.ports ∧ (slPdsClr mask s).ptp = s.ptp ∧ (slPdsClr mask s).ftn = s.ftn ∧
    (slPdsClr mask s).keys = s.keys ∧ (slPdsClr mask s).flt = s.flt ∧ (slPdsClr mask s).mgt = s.mgt ∧
    (slPdsClr mask s).cnt = s.cnt := by
  simp [slPdsClr]

@[simp] theorem keeps_pdsAgreeDwellElapsed (h : Half) (k : ClNo) (s : State) :
    (pdsAgreeDwellElapsed h k s).pending = s.pending ∧ (pdsAgreeDwellElapsed h k s).fresh = s.fresh ∧
    (pdsAgreeDwellElapsed h k s).now = s.now ∧ (pdsAgreeDwellElapsed h k s).outs = s.outs ∧
    (pdsAgreeDwellElapsed h k s).pages = s.pages ∧ (pdsAgreeDwellElapsed h k s).pwr = s.pwr ∧
    (pdsAgreeDwellElapsed h k s).arb = s.arb ∧ (pdsAgreeDwellElapsed h k s).parts = s.parts ∧
    (pdsAgreeDwellElapsed h k s).bars = s.bars ∧ (pdsAgreeDwellElapsed h k s).ops = s.ops ∧
    (pdsAgreeDwellElapsed h k s).ident = s.ident ∧ (pdsAgreeDwellElapsed h k s).models = s.models ∧
    (pdsAgreeDwellElapsed h k s).caps = s.caps ∧ (pdsAgreeDwellElapsed h k s).jets = s.jets ∧
    (pdsAgreeDwellElapsed h k s).lanes = s.lanes ∧ (pdsAgreeDwellElapsed h k s).ports = s.ports ∧
    (pdsAgreeDwellElapsed h k s).ptp = s.ptp ∧ (pdsAgreeDwellElapsed h k s).ftn = s.ftn ∧
    (pdsAgreeDwellElapsed h k s).keys = s.keys ∧ (pdsAgreeDwellElapsed h k s).flt = s.flt ∧
    (pdsAgreeDwellElapsed h k s).mgt = s.mgt ∧ (pdsAgreeDwellElapsed h k s).cnt = s.cnt := by
  simp [pdsAgreeDwellElapsed]

@[simp] theorem keeps_slDetection (det : Byte) (s : State) :
    (slDetection det s).pending = s.pending ∧ (slDetection det s).fresh = s.fresh ∧ (slDetection det s).now = s.now ∧
    (slDetection det s).pwr = s.pwr ∧ (slDetection det s).arb = s.arb ∧ (slDetection det s).parts = s.parts ∧
    (slDetection det s).ops = s.ops ∧ (slDetection det s).models = s.models ∧ (slDetection det s).caps = s.caps ∧
    (slDetection det s).jets = s.jets ∧ (slDetection det s).lanes = s.lanes ∧ (slDetection det s).ports = s.ports ∧
    (slDetection det s).ptp = s.ptp ∧ (slDetection det s).ftn = s.ftn ∧ (slDetection det s).keys = s.keys ∧
    (slDetection det s).mgt = s.mgt ∧ (∀ rp ro, regOf (slDetection det s).pages rp ro = regOf s.pages rp ro) := by
  unfold slDetection; (repeat' split) <;> simp

end Sys2Proof.Machine
end

