-- ==== Sys2Proof/Laws/KeepsServing.lean ====
section
/-!
SUPPORT. Frame laws of operations, captures, jets and ports: for each operation, the fields of the state it leaves as they are. The commands' own
frames and the invariants over a step are read off these.
-/

namespace Sys2Proof.Machine

/-! ## Queues -/

@[simp] theorem keeps_doorbellError (s : State) (p : Part) (q : QNo) (cause v : Nat) :
    (doorbellError s p q cause v).pending = s.pending ∧ (doorbellError s p q cause v).fresh = s.fresh ∧
    (doorbellError s p q cause v).now = s.now ∧ (doorbellError s p q cause v).pwr = s.pwr ∧
    (doorbellError s p q cause v).arb = s.arb ∧ (doorbellError s p q cause v).halves = s.halves ∧
    (doorbellError s p q cause v).ops = s.ops ∧ (doorbellError s p q cause v).ident = s.ident ∧
    (doorbellError s p q cause v).models = s.models ∧ (doorbellError s p q cause v).caps = s.caps ∧
    (doorbellError s p q cause v).jets = s.jets ∧ (doorbellError s p q cause v).lanes = s.lanes ∧
    (doorbellError s p q cause v).ports = s.ports ∧ (doorbellError s p q cause v).ptp = s.ptp ∧
    (doorbellError s p q cause v).ftn = s.ftn ∧ (doorbellError s p q cause v).keys = s.keys ∧
    (doorbellError s p q cause v).flt = s.flt ∧ (doorbellError s p q cause v).mgt = s.mgt ∧
    (∀ rp ro, regOf (doorbellError s p q cause v).pages rp ro = regOf s.pages rp ro) := by
  simp [doorbellError]

@[simp] theorem keeps_doSqTail (s : State) (p : Part) (q : QNo) (v : Word) :
    (doSqTail s p q v).pending = s.pending ∧ (doSqTail s p q v).fresh = s.fresh ∧ (doSqTail s p q v).now = s.now ∧
    (doSqTail s p q v).pwr = s.pwr ∧ (doSqTail s p q v).arb = s.arb ∧ (doSqTail s p q v).halves = s.halves ∧
    (doSqTail s p q v).ops = s.ops ∧ (doSqTail s p q v).ident = s.ident ∧ (doSqTail s p q v).models = s.models ∧
    (doSqTail s p q v).caps = s.caps ∧ (doSqTail s p q v).jets = s.jets ∧ (doSqTail s p q v).lanes = s.lanes ∧
    (doSqTail s p q v).ports = s.ports ∧ (doSqTail s p q v).ptp = s.ptp ∧ (doSqTail s p q v).ftn = s.ftn ∧
    (doSqTail s p q v).keys = s.keys ∧ (doSqTail s p q v).flt = s.flt ∧ (doSqTail s p q v).mgt = s.mgt ∧
    (∀ rp ro, regOf (doSqTail s p q v).pages rp ro = regOf s.pages rp ro) := by
  simp [doSqTail]

@[simp] theorem keeps_doCqHead (s : State) (p : Part) (q : QNo) (v : Word) :
    (doCqHead s p q v).pending = s.pending ∧ (doCqHead s p q v).fresh = s.fresh ∧ (doCqHead s p q v).now = s.now ∧
    (doCqHead s p q v).pwr = s.pwr ∧ (doCqHead s p q v).arb = s.arb ∧ (doCqHead s p q v).halves = s.halves ∧
    (doCqHead s p q v).ops = s.ops ∧ (doCqHead s p q v).ident = s.ident ∧ (doCqHead s p q v).models = s.models ∧
    (doCqHead s p q v).caps = s.caps ∧ (doCqHead s p q v).jets = s.jets ∧ (doCqHead s p q v).lanes = s.lanes ∧
    (doCqHead s p q v).ports = s.ports ∧ (doCqHead s p q v).ptp = s.ptp ∧ (doCqHead s p q v).ftn = s.ftn ∧
    (doCqHead s p q v).keys = s.keys ∧ (doCqHead s p q v).flt = s.flt ∧ (doCqHead s p q v).mgt = s.mgt ∧
    (∀ rp ro, regOf (doCqHead s p q v).pages rp ro = regOf s.pages rp ro) := by
  simp [doCqHead]

@[simp] theorem keeps_doQCfg (s : State) (p : Part) (q : QNo) (v : Word) :
    (doQCfg s p q v).pending = s.pending ∧ (doQCfg s p q v).fresh = s.fresh ∧ (doQCfg s p q v).now = s.now ∧
    (doQCfg s p q v).pwr = s.pwr ∧ (doQCfg s p q v).arb = s.arb ∧ (doQCfg s p q v).halves = s.halves ∧
    (doQCfg s p q v).ident = s.ident ∧ (doQCfg s p q v).models = s.models ∧ (doQCfg s p q v).jets = s.jets ∧
    (doQCfg s p q v).lanes = s.lanes ∧ (doQCfg s p q v).ports = s.ports ∧ (doQCfg s p q v).ptp = s.ptp ∧
    (doQCfg s p q v).ftn = s.ftn ∧ (doQCfg s p q v).keys = s.keys ∧ (doQCfg s p q v).flt = s.flt ∧
    (doQCfg s p q v).mgt = s.mgt := by
  simp [doQCfg]

@[simp] theorem keeps_doQBase (s : State) (p : Part) (q : QNo) (off : Nat) (v mask : Word) :
    (doQBase s p q off v mask).pending = s.pending ∧ (doQBase s p q off v mask).fresh = s.fresh ∧
    (doQBase s p q off v mask).now = s.now ∧ (doQBase s p q off v mask).pwr = s.pwr ∧
    (doQBase s p q off v mask).arb = s.arb ∧ (doQBase s p q off v mask).halves = s.halves ∧
    (doQBase s p q off v mask).parts = s.parts ∧ (doQBase s p q off v mask).ops = s.ops ∧
    (doQBase s p q off v mask).ident = s.ident ∧ (doQBase s p q off v mask).models = s.models ∧
    (doQBase s p q off v mask).caps = s.caps ∧ (doQBase s p q off v mask).jets = s.jets ∧
    (doQBase s p q off v mask).lanes = s.lanes ∧ (doQBase s p q off v mask).ports = s.ports ∧
    (doQBase s p q off v mask).ptp = s.ptp ∧ (doQBase s p q off v mask).ftn = s.ftn ∧
    (doQBase s p q off v mask).keys = s.keys ∧ (doQBase s p q off v mask).flt = s.flt ∧
    (doQBase s p q off v mask).mgt = s.mgt := by
  simp [doQBase]

@[simp] theorem keeps_entryFetch (p : Part) (q : QNo) (entry : Vector Word 16) (s : State) :
    (entryFetch p q entry s).pending = s.pending ∧ (entryFetch p q entry s).now = s.now ∧
    (entryFetch p q entry s).pwr = s.pwr ∧ (entryFetch p q entry s).arb = s.arb ∧
    (entryFetch p q entry s).halves = s.halves ∧ (entryFetch p q entry s).ident = s.ident ∧
    (entryFetch p q entry s).models = s.models ∧ (entryFetch p q entry s).caps = s.caps ∧
    (entryFetch p q entry s).jets = s.jets ∧ (entryFetch p q entry s).lanes = s.lanes ∧
    (entryFetch p q entry s).ports = s.ports ∧ (entryFetch p q entry s).ptp = s.ptp ∧
    (entryFetch p q entry s).ftn = s.ftn ∧ (entryFetch p q entry s).keys = s.keys ∧
    (entryFetch p q entry s).flt = s.flt ∧ (entryFetch p q entry s).mgt = s.mgt ∧
    (∀ rp ro, regOf (entryFetch p q entry s).pages rp ro = regOf s.pages rp ro) := by
  unfold entryFetch; (repeat' split) <;> simp

@[simp] theorem keeps_opNop (t : Tag) (s : State) :
    (opNop t s).pending = s.pending ∧ (opNop t s).fresh = s.fresh ∧ (opNop t s).now = s.now ∧
    (opNop t s).pwr = s.pwr ∧ (opNop t s).arb = s.arb ∧ (opNop t s).halves = s.halves ∧ (opNop t s).ident = s.ident ∧
    (opNop t s).models = s.models ∧ (opNop t s).caps = s.caps ∧ (opNop t s).jets = s.jets ∧
    (opNop t s).lanes = s.lanes ∧ (opNop t s).ports = s.ports ∧ (opNop t s).ptp = s.ptp ∧ (opNop t s).ftn = s.ftn ∧
    (opNop t s).keys = s.keys ∧ (opNop t s).flt = s.flt ∧ (opNop t s).mgt = s.mgt ∧
    (∀ rp ro, regOf (opNop t s).pages rp ro = regOf s.pages rp ro) := by
  unfold opNop; (repeat' split) <;> simp

@[simp] theorem keeps_opFence (t : Tag) (s : State) :
    (opFence t s).pending = s.pending ∧ (opFence t s).fresh = s.fresh ∧ (opFence t s).now = s.now ∧
    (opFence t s).pwr = s.pwr ∧ (opFence t s).arb = s.arb ∧ (opFence t s).halves = s.halves ∧
    (opFence t s).ident = s.ident ∧ (opFence t s).models = s.models ∧ (opFence t s).caps = s.caps ∧
    (opFence t s).jets = s.jets ∧ (opFence t s).lanes = s.lanes ∧ (opFence t s).ports = s.ports ∧
    (opFence t s).ptp = s.ptp ∧ (opFence t s).ftn = s.ftn ∧ (opFence t s).keys = s.keys ∧ (opFence t s).flt = s.flt ∧
    (opFence t s).mgt = s.mgt ∧ (∀ rp ro, regOf (opFence t s).pages rp ro = regOf s.pages rp ro) := by
  unfold opFence; (repeat' split) <;> simp

@[simp] theorem keeps_fenceComplete (t : Tag) (s : State) :
    (fenceComplete t s).pending = s.pending ∧ (fenceComplete t s).fresh = s.fresh ∧ (fenceComplete t s).now = s.now ∧
    (fenceComplete t s).pwr = s.pwr ∧ (fenceComplete t s).arb = s.arb ∧ (fenceComplete t s).halves = s.halves ∧
    (fenceComplete t s).ident = s.ident ∧ (fenceComplete t s).models = s.models ∧ (fenceComplete t s).caps = s.caps ∧
    (fenceComplete t s).jets = s.jets ∧ (fenceComplete t s).lanes = s.lanes ∧ (fenceComplete t s).ports = s.ports ∧
    (fenceComplete t s).ptp = s.ptp ∧ (fenceComplete t s).ftn = s.ftn ∧ (fenceComplete t s).keys = s.keys ∧
    (fenceComplete t s).flt = s.flt ∧ (fenceComplete t s).mgt = s.mgt ∧
    (∀ rp ro, regOf (fenceComplete t s).pages rp ro = regOf s.pages rp ro) := by
  unfold fenceComplete; (repeat' split) <;> simp

@[simp] theorem keeps_completionWrite (p : Part) (q : QNo) (s : State) :
    (completionWrite p q s).pending = s.pending ∧ (completionWrite p q s).fresh = s.fresh ∧
    (completionWrite p q s).now = s.now ∧ (completionWrite p q s).pages = s.pages ∧
    (completionWrite p q s).pwr = s.pwr ∧ (completionWrite p q s).arb = s.arb ∧
    (completionWrite p q s).halves = s.halves ∧ (completionWrite p q s).ident = s.ident ∧
    (completionWrite p q s).models = s.models ∧ (completionWrite p q s).caps = s.caps ∧
    (completionWrite p q s).jets = s.jets ∧ (completionWrite p q s).lanes = s.lanes ∧
    (completionWrite p q s).ports = s.ports ∧ (completionWrite p q s).ptp = s.ptp ∧
    (completionWrite p q s).ftn = s.ftn ∧ (completionWrite p q s).keys = s.keys ∧
    (completionWrite p q s).flt = s.flt ∧ (completionWrite p q s).mgt = s.mgt := by
  unfold completionWrite; (repeat' split) <;> simp

@[simp] theorem keeps_irqCoalesce (p : Part) (q : QNo) (s : State) :
    (irqCoalesce p q s).pending = s.pending ∧ (irqCoalesce p q s).fresh = s.fresh ∧ (irqCoalesce p q s).now = s.now ∧
    (irqCoalesce p q s).pages = s.pages ∧ (irqCoalesce p q s).pwr = s.pwr ∧ (irqCoalesce p q s).arb = s.arb ∧
    (irqCoalesce p q s).halves = s.halves ∧ (irqCoalesce p q s).parts = s.parts ∧ (irqCoalesce p q s).ops = s.ops ∧
    (irqCoalesce p q s).ident = s.ident ∧ (irqCoalesce p q s).models = s.models ∧ (irqCoalesce p q s).caps = s.caps ∧
    (irqCoalesce p q s).jets = s.jets ∧ (irqCoalesce p q s).lanes = s.lanes ∧ (irqCoalesce p q s).ports = s.ports ∧
    (irqCoalesce p q s).ptp = s.ptp ∧ (irqCoalesce p q s).ftn = s.ftn ∧ (irqCoalesce p q s).keys = s.keys ∧
    (irqCoalesce p q s).flt = s.flt ∧ (irqCoalesce p q s).mgt = s.mgt := by
  simp [irqCoalesce]

@[simp] theorem keeps_qStopped (p : Part) (q : QNo) (s : State) :
    (qStopped p q s).pending = s.pending ∧ (qStopped p q s).fresh = s.fresh ∧ (qStopped p q s).now = s.now ∧
    (qStopped p q s).pwr = s.pwr ∧ (qStopped p q s).arb = s.arb ∧ (qStopped p q s).halves = s.halves ∧
    (qStopped p q s).ops = s.ops ∧ (qStopped p q s).ident = s.ident ∧ (qStopped p q s).models = s.models ∧
    (qStopped p q s).caps = s.caps ∧ (qStopped p q s).jets = s.jets ∧ (qStopped p q s).lanes = s.lanes ∧
    (qStopped p q s).ports = s.ports ∧ (qStopped p q s).ptp = s.ptp ∧ (qStopped p q s).ftn = s.ftn ∧
    (qStopped p q s).keys = s.keys ∧ (qStopped p q s).flt = s.flt ∧ (qStopped p q s).mgt = s.mgt ∧
    (∀ rp ro, regOf (qStopped p q s).pages rp ro = regOf s.pages rp ro) := by
  simp [qStopped]

@[simp] theorem keeps_opTimeRead (t : Tag) (s : State) :
    (opTimeRead t s).pending = s.pending ∧ (opTimeRead t s).fresh = s.fresh ∧ (opTimeRead t s).now = s.now ∧
    (opTimeRead t s).pwr = s.pwr ∧ (opTimeRead t s).arb = s.arb ∧ (opTimeRead t s).halves = s.halves ∧
    (opTimeRead t s).ident = s.ident ∧ (opTimeRead t s).models = s.models ∧ (opTimeRead t s).caps = s.caps ∧
    (opTimeRead t s).jets = s.jets ∧ (opTimeRead t s).lanes = s.lanes ∧ (opTimeRead t s).ports = s.ports ∧
    (opTimeRead t s).ptp = s.ptp ∧ (opTimeRead t s).ftn = s.ftn ∧ (opTimeRead t s).keys = s.keys ∧
    (opTimeRead t s).flt = s.flt ∧ (opTimeRead t s).mgt = s.mgt ∧
    (∀ rp ro, regOf (opTimeRead t s).pages rp ro = regOf s.pages rp ro) := by
  unfold opTimeRead; (repeat' split) <;> simp

@[simp] theorem keeps_keyOp (t : Tag) (o : Op) (data : HostRead) (replace : Bool) (s : State) :
    (keyOp t o data replace s).pending = s.pending ∧ (keyOp t o data replace s).fresh = s.fresh ∧
    (keyOp t o data replace s).now = s.now ∧ (keyOp t o data replace s).pwr = s.pwr ∧
    (keyOp t o data replace s).arb = s.arb ∧ (keyOp t o data replace s).halves = s.halves ∧
    (keyOp t o data replace s).ident = s.ident ∧ (keyOp t o data replace s).models = s.models ∧
    (keyOp t o data replace s).caps = s.caps ∧ (keyOp t o data replace s).jets = s.jets ∧
    (keyOp t o data replace s).lanes = s.lanes ∧ (keyOp t o data replace s).ports = s.ports ∧
    (keyOp t o data replace s).ptp = s.ptp ∧ (keyOp t o data replace s).ftn = s.ftn ∧
    (keyOp t o data replace s).flt = s.flt ∧ (keyOp t o data replace s).keys.fuse = s.keys.fuse ∧
    (∀ rp ro, regOf (keyOp t o data replace s).pages rp ro = regOf s.pages rp ro) := by
  simp only [keyOp]; (repeat' split) <;> simp

@[simp] theorem keeps_opKeyDerive (t : Tag) (label : HostRead) (s : State) :
    (opKeyDerive t label s).pending = s.pending ∧ (opKeyDerive t label s).fresh = s.fresh ∧
    (opKeyDerive t label s).now = s.now ∧ (opKeyDerive t label s).pwr = s.pwr ∧ (opKeyDerive t label s).arb = s.arb ∧
    (opKeyDerive t label s).halves = s.halves ∧ (opKeyDerive t label s).ident = s.ident ∧
    (opKeyDerive t label s).models = s.models ∧ (opKeyDerive t label s).caps = s.caps ∧
    (opKeyDerive t label s).jets = s.jets ∧ (opKeyDerive t label s).lanes = s.lanes ∧
    (opKeyDerive t label s).ports = s.ports ∧ (opKeyDerive t label s).ptp = s.ptp ∧
    (opKeyDerive t label s).ftn = s.ftn ∧ (opKeyDerive t label s).flt = s.flt ∧
    (opKeyDerive t label s).keys.fuse = s.keys.fuse ∧
    (∀ rp ro, regOf (opKeyDerive t label s).pages rp ro = regOf s.pages rp ro) := by
  unfold opKeyDerive; (repeat' split) <;> simp

@[simp] theorem keeps_opKeyReplace (t : Tag) (key : HostRead) (s : State) :
    (opKeyReplace t key s).pending = s.pending ∧ (opKeyReplace t key s).fresh = s.fresh ∧
    (opKeyReplace t key s).now = s.now ∧ (opKeyReplace t key s).pwr = s.pwr ∧ (opKeyReplace t key s).arb = s.arb ∧
    (opKeyReplace t key s).halves = s.halves ∧ (opKeyReplace t key s).ident = s.ident ∧
    (opKeyReplace t key s).models = s.models ∧ (opKeyReplace t key s).caps = s.caps ∧
    (opKeyReplace t key s).jets = s.jets ∧ (opKeyReplace t key s).lanes = s.lanes ∧
    (opKeyReplace t key s).ports = s.ports ∧ (opKeyReplace t key s).ptp = s.ptp ∧ (opKeyReplace t key s).ftn = s.ftn ∧
    (opKeyReplace t key s).flt = s.flt ∧ (opKeyReplace t key s).keys.fuse = s.keys.fuse ∧
    (∀ rp ro, regOf (opKeyReplace t key s).pages rp ro = regOf s.pages rp ro) := by
  unfold opKeyReplace; (repeat' split) <;> simp

@[simp] theorem keeps_opStatsSnapshot (t : Tag) (s : State) :
    (opStatsSnapshot t s).pending = s.pending ∧ (opStatsSnapshot t s).fresh = s.fresh ∧
    (opStatsSnapshot t s).now = s.now ∧ (opStatsSnapshot t s).pwr = s.pwr ∧ (opStatsSnapshot t s).arb = s.arb ∧
    (opStatsSnapshot t s).halves = s.halves ∧ (opStatsSnapshot t s).ident = s.ident ∧
    (opStatsSnapshot t s).models = s.models ∧ (opStatsSnapshot t s).caps = s.caps ∧
    (opStatsSnapshot t s).jets = s.jets ∧ (opStatsSnapshot t s).lanes = s.lanes ∧
    (opStatsSnapshot t s).ports = s.ports ∧ (opStatsSnapshot t s).ptp = s.ptp ∧ (opStatsSnapshot t s).ftn = s.ftn ∧
    (opStatsSnapshot t s).keys = s.keys ∧ (opStatsSnapshot t s).flt = s.flt ∧ (opStatsSnapshot t s).mgt = s.mgt ∧
    (∀ rp ro, regOf (opStatsSnapshot t s).pages rp ro = regOf s.pages rp ro) := by
  unfold opStatsSnapshot; (repeat' split) <;> simp

@[simp] theorem keeps_opLogRead (t : Tag) (s : State) :
    (opLogRead t s).pending = s.pending ∧ (opLogRead t s).now = s.now ∧ (opLogRead t s).pwr = s.pwr ∧
    (opLogRead t s).arb = s.arb ∧ (opLogRead t s).halves = s.halves ∧ (opLogRead t s).ident = s.ident ∧
    (opLogRead t s).models = s.models ∧ (opLogRead t s).caps = s.caps ∧ (opLogRead t s).jets = s.jets ∧
    (opLogRead t s).lanes = s.lanes ∧ (opLogRead t s).ports = s.ports ∧ (opLogRead t s).ptp = s.ptp ∧
    (opLogRead t s).ftn = s.ftn ∧ (opLogRead t s).keys = s.keys ∧ (opLogRead t s).flt = s.flt ∧
    (opLogRead t s).mgt = s.mgt ∧ (∀ rp ro, regOf (opLogRead t s).pages rp ro = regOf s.pages rp ro) := by
  unfold opLogRead; (repeat' split) <;> simp

@[simp] theorem keeps_pcieTimeout (t : Tag) (s : State) :
    (pcieTimeout t s).pending = s.pending ∧ (pcieTimeout t s).fresh = s.fresh ∧ (pcieTimeout t s).now = s.now ∧
    (pcieTimeout t s).pwr = s.pwr ∧ (pcieTimeout t s).arb = s.arb ∧ (pcieTimeout t s).halves = s.halves ∧
    (pcieTimeout t s).ident = s.ident ∧ (pcieTimeout t s).models = s.models ∧ (pcieTimeout t s).caps = s.caps ∧
    (pcieTimeout t s).jets = s.jets ∧ (pcieTimeout t s).lanes = s.lanes ∧ (pcieTimeout t s).ports = s.ports ∧
    (pcieTimeout t s).ptp = s.ptp ∧ (pcieTimeout t s).ftn = s.ftn ∧ (pcieTimeout t s).keys = s.keys ∧
    (pcieTimeout t s).flt = s.flt ∧ (pcieTimeout t s).mgt = s.mgt ∧
    (∀ rp ro, regOf (pcieTimeout t s).pages rp ro = regOf s.pages rp ro) := by
  unfold pcieTimeout; (repeat' split) <;> simp

@[simp] theorem keeps_resetTrios (s : State) (p : Part) :
    (resetTrios s p).pending = s.pending ∧ (resetTrios s p).fresh = s.fresh ∧ (resetTrios s p).now = s.now ∧
    (resetTrios s p).outs = s.outs ∧ (resetTrios s p).pwr = s.pwr ∧ (resetTrios s p).arb = s.arb ∧
    (resetTrios s p).halves = s.halves ∧ (resetTrios s p).parts = s.parts ∧ (resetTrios s p).bars = s.bars ∧
    (resetTrios s p).ops = s.ops ∧ (resetTrios s p).ident = s.ident ∧ (resetTrios s p).models = s.models ∧
    (resetTrios s p).caps = s.caps ∧ (resetTrios s p).jets = s.jets ∧ (resetTrios s p).lanes = s.lanes ∧
    (resetTrios s p).ports = s.ports ∧ (resetTrios s p).ptp = s.ptp ∧ (resetTrios s p).ftn = s.ftn ∧
    (resetTrios s p).keys = s.keys ∧ (resetTrios s p).flt = s.flt ∧ (resetTrios s p).mgt = s.mgt ∧
    (resetTrios s p).cnt = s.cnt ∧ (∀ rp ro, regOf (resetTrios s p).pages rp ro = regOf s.pages rp ro) := by
  simp [resetTrios]

@[simp] theorem keeps_partitionReset (p : Part) (s : State) :
    (partitionReset p s).pending = s.pending ∧ (partitionReset p s).now = s.now ∧ (partitionReset p s).pwr = s.pwr ∧
    (partitionReset p s).arb = s.arb ∧ (partitionReset p s).halves = s.halves ∧
    (partitionReset p s).models = s.models ∧ (partitionReset p s).jets = s.jets ∧
    (partitionReset p s).lanes = s.lanes ∧ (partitionReset p s).ptp = s.ptp ∧ (partitionReset p s).ftn = s.ftn ∧
    (partitionReset p s).mgt = s.mgt ∧ (partitionReset p s).keys.fuse = s.keys.fuse := by
  simp [partitionReset]

/-! ## Capture -/

@[simp] theorem keeps_issue (s : State) (d : Dom) (ps : Int) :
    (State.issue s d ps).2.pending = s.pending ∧ (State.issue s d ps).2.now = s.now ∧
    (State.issue s d ps).2.outs = s.outs ∧ (State.issue s d ps).2.pages = s.pages ∧
    (State.issue s d ps).2.pwr = s.pwr ∧ (State.issue s d ps).2.arb = s.arb ∧
    (State.issue s d ps).2.halves = s.halves ∧ (State.issue s d ps).2.parts = s.parts ∧
    (State.issue s d ps).2.bars = s.bars ∧ (State.issue s d ps).2.ops = s.ops ∧
    (State.issue s d ps).2.ident = s.ident ∧ (State.issue s d ps).2.models = s.models ∧
    (State.issue s d ps).2.caps = s.caps ∧ (State.issue s d ps).2.jets = s.jets ∧
    (State.issue s d ps).2.lanes = s.lanes ∧ (State.issue s d ps).2.ports = s.ports ∧
    (State.issue s d ps).2.ptp = s.ptp ∧ (State.issue s d ps).2.ftn = s.ftn ∧ (State.issue s d ps).2.keys = s.keys ∧
    (State.issue s d ps).2.flt = s.flt ∧ (State.issue s d ps).2.mgt = s.mgt ∧ (State.issue s d ps).2.cnt = s.cnt := by
  simp only [State.issue]; (repeat' split) <;> simp

@[simp] theorem keeps_modCap (s : State) (c : CapNo) (f : CapSt → CapSt) :
    (State.modCap s c f).pending = s.pending ∧ (State.modCap s c f).fresh = s.fresh ∧
    (State.modCap s c f).now = s.now ∧ (State.modCap s c f).outs = s.outs ∧ (State.modCap s c f).pages = s.pages ∧
    (State.modCap s c f).pwr = s.pwr ∧ (State.modCap s c f).arb = s.arb ∧ (State.modCap s c f).halves = s.halves ∧
    (State.modCap s c f).parts = s.parts ∧ (State.modCap s c f).bars = s.bars ∧ (State.modCap s c f).ops = s.ops ∧
    (State.modCap s c f).ident = s.ident ∧ (State.modCap s c f).models = s.models ∧
    (State.modCap s c f).jets = s.jets ∧ (State.modCap s c f).lanes = s.lanes ∧ (State.modCap s c f).ports = s.ports ∧
    (State.modCap s c f).ptp = s.ptp ∧ (State.modCap s c f).ftn = s.ftn ∧ (State.modCap s c f).keys = s.keys ∧
    (State.modCap s c f).flt = s.flt ∧ (State.modCap s c f).mgt = s.mgt ∧ (State.modCap s c f).cnt = s.cnt := by
  simp [State.modCap]

@[simp] theorem keeps_storeCapture (c : CapNo) (e : CapEnt) (s : State) :
    (storeCapture c e s).pending = s.pending ∧ (storeCapture c e s).fresh = s.fresh ∧
    (storeCapture c e s).now = s.now ∧ (storeCapture c e s).pwr = s.pwr ∧ (storeCapture c e s).arb = s.arb ∧
    (storeCapture c e s).halves = s.halves ∧ (storeCapture c e s).parts = s.parts ∧ (storeCapture c e s).ops = s.ops ∧
    (storeCapture c e s).ident = s.ident ∧ (storeCapture c e s).models = s.models ∧
    (storeCapture c e s).jets = s.jets ∧ (storeCapture c e s).lanes = s.lanes ∧ (storeCapture c e s).ports = s.ports ∧
    (storeCapture c e s).ptp = s.ptp ∧ (storeCapture c e s).ftn = s.ftn ∧ (storeCapture c e s).keys = s.keys ∧
    (storeCapture c e s).flt = s.flt ∧ (storeCapture c e s).mgt = s.mgt ∧
    (∀ rp ro, regOf (storeCapture c e s).pages rp ro = regOf s.pages rp ro) := by
  simp [storeCapture]

@[simp] theorem keeps_captureEdge (c : CapNo) (rising : Bool) (sub sinceNs : Nat) (s : State) :
    (captureEdge c rising sub sinceNs s).pending = s.pending ∧ (captureEdge c rising sub sinceNs s).now = s.now ∧
    (captureEdge c rising sub sinceNs s).pwr = s.pwr ∧ (captureEdge c rising sub sinceNs s).arb = s.arb ∧
    (captureEdge c rising sub sinceNs s).halves = s.halves ∧ (captureEdge c rising sub sinceNs s).ident = s.ident ∧
    (captureEdge c rising sub sinceNs s).models = s.models ∧ (captureEdge c rising sub sinceNs s).jets = s.jets ∧
    (captureEdge c rising sub sinceNs s).lanes = s.lanes ∧ (captureEdge c rising sub sinceNs s).ports = s.ports ∧
    (captureEdge c rising sub sinceNs s).ptp = s.ptp ∧ (captureEdge c rising sub sinceNs s).ftn = s.ftn ∧
    (captureEdge c rising sub sinceNs s).keys = s.keys ∧ (captureEdge c rising sub sinceNs s).flt = s.flt ∧
    (captureEdge c rising sub sinceNs s).mgt = s.mgt ∧
    (∀ rp ro, regOf (captureEdge c rising sub sinceNs s).pages rp ro = regOf s.pages rp ro) := by
  simp only [captureEdge]; (repeat' split) <;> simp

@[simp] theorem keeps_rearm (c : CapNo) (f : CapSt → CapSt) (s : State) :
    (rearm c f s).pending = s.pending ∧ (rearm c f s).fresh = s.fresh ∧ (rearm c f s).now = s.now ∧
    (rearm c f s).pwr = s.pwr ∧ (rearm c f s).arb = s.arb ∧ (rearm c f s).halves = s.halves ∧
    (rearm c f s).ident = s.ident ∧ (rearm c f s).models = s.models ∧ (rearm c f s).jets = s.jets ∧
    (rearm c f s).lanes = s.lanes ∧ (rearm c f s).ports = s.ports ∧ (rearm c f s).ptp = s.ptp ∧
    (rearm c f s).ftn = s.ftn ∧ (rearm c f s).keys = s.keys ∧ (rearm c f s).flt = s.flt ∧ (rearm c f s).mgt = s.mgt ∧
    (∀ rp ro, regOf (rearm c f s).pages rp ro = regOf s.pages rp ro) := by
  unfold rearm; (repeat' split) <;> simp

@[simp] theorem keeps_opEventArm (t : Tag) (s : State) :
    (opEventArm t s).pending = s.pending ∧ (opEventArm t s).fresh = s.fresh ∧ (opEventArm t s).now = s.now ∧
    (opEventArm t s).pwr = s.pwr ∧ (opEventArm t s).arb = s.arb ∧ (opEventArm t s).halves = s.halves ∧
    (opEventArm t s).ident = s.ident ∧ (opEventArm t s).models = s.models ∧ (opEventArm t s).jets = s.jets ∧
    (opEventArm t s).lanes = s.lanes ∧ (opEventArm t s).ports = s.ports ∧ (opEventArm t s).ptp = s.ptp ∧
    (opEventArm t s).ftn = s.ftn ∧ (opEventArm t s).keys = s.keys ∧ (opEventArm t s).flt = s.flt ∧
    (opEventArm t s).mgt = s.mgt ∧ (∀ rp ro, regOf (opEventArm t s).pages rp ro = regOf s.pages rp ro) := by
  unfold opEventArm; (repeat' split) <;> simp

@[simp] theorem keeps_captureDetection (c : CapNo) (det : Byte) (s : State) :
    (captureDetection c det s).pending = s.pending ∧ (captureDetection c det s).fresh = s.fresh ∧
    (captureDetection c det s).now = s.now ∧ (captureDetection c det s).outs = s.outs ∧
    (captureDetection c det s).pwr = s.pwr ∧ (captureDetection c det s).arb = s.arb ∧
    (captureDetection c det s).halves = s.halves ∧ (captureDetection c det s).parts = s.parts ∧
    (captureDetection c det s).bars = s.bars ∧ (captureDetection c det s).ops = s.ops ∧
    (captureDetection c det s).models = s.models ∧ (captureDetection c det s).jets = s.jets ∧
    (captureDetection c det s).lanes = s.lanes ∧ (captureDetection c det s).ports = s.ports ∧
    (captureDetection c det s).ptp = s.ptp ∧ (captureDetection c det s).ftn = s.ftn ∧
    (captureDetection c det s).keys = s.keys ∧ (captureDetection c det s).mgt = s.mgt ∧
    (∀ rp ro, regOf (captureDetection c det s).pages rp ro = regOf s.pages rp ro) := by
  unfold captureDetection; (repeat' split) <;> simp

@[simp] theorem keeps_fireAlarm (t : Tag) (o : Op) (past : Bool) (s : State) :
    (fireAlarm t o past s).pending = s.pending ∧ (fireAlarm t o past s).fresh = s.fresh ∧
    (fireAlarm t o past s).now = s.now ∧ (fireAlarm t o past s).pwr = s.pwr ∧ (fireAlarm t o past s).arb = s.arb ∧
    (fireAlarm t o past s).halves = s.halves ∧ (fireAlarm t o past s).ident = s.ident ∧
    (fireAlarm t o past s).models = s.models ∧ (fireAlarm t o past s).caps = s.caps ∧
    (fireAlarm t o past s).jets = s.jets ∧ (fireAlarm t o past s).lanes = s.lanes ∧
    (fireAlarm t o past s).ports = s.ports ∧ (fireAlarm t o past s).ptp = s.ptp ∧ (fireAlarm t o past s).ftn = s.ftn ∧
    (fireAlarm t o past s).keys = s.keys ∧ (fireAlarm t o past s).flt = s.flt ∧ (fireAlarm t o past s).mgt = s.mgt ∧
    (∀ rp ro, regOf (fireAlarm t o past s).pages rp ro = regOf s.pages rp ro) := by
  simp [fireAlarm]

@[simp] theorem keeps_opAlarmSet (t : Tag) (s : State) :
    (opAlarmSet t s).pending = s.pending ∧ (opAlarmSet t s).fresh = s.fresh ∧ (opAlarmSet t s).now = s.now ∧
    (opAlarmSet t s).pwr = s.pwr ∧ (opAlarmSet t s).arb = s.arb ∧ (opAlarmSet t s).halves = s.halves ∧
    (opAlarmSet t s).ident = s.ident ∧ (opAlarmSet t s).models = s.models ∧ (opAlarmSet t s).caps = s.caps ∧
    (opAlarmSet t s).jets = s.jets ∧ (opAlarmSet t s).lanes = s.lanes ∧ (opAlarmSet t s).ports = s.ports ∧
    (opAlarmSet t s).ptp = s.ptp ∧ (opAlarmSet t s).ftn = s.ftn ∧ (opAlarmSet t s).keys = s.keys ∧
    (opAlarmSet t s).flt = s.flt ∧ (opAlarmSet t s).mgt = s.mgt ∧
    (∀ rp ro, regOf (opAlarmSet t s).pages rp ro = regOf s.pages rp ro) := by
  unfold opAlarmSet; (repeat' split) <;> simp

@[simp] theorem keeps_opAlarmCancel (t : Tag) (s : State) :
    (opAlarmCancel t s).pending = s.pending ∧ (opAlarmCancel t s).fresh = s.fresh ∧ (opAlarmCancel t s).now = s.now ∧
    (opAlarmCancel t s).pwr = s.pwr ∧ (opAlarmCancel t s).arb = s.arb ∧ (opAlarmCancel t s).halves = s.halves ∧
    (opAlarmCancel t s).ident = s.ident ∧ (opAlarmCancel t s).models = s.models ∧ (opAlarmCancel t s).caps = s.caps ∧
    (opAlarmCancel t s).jets = s.jets ∧ (opAlarmCancel t s).lanes = s.lanes ∧ (opAlarmCancel t s).ports = s.ports ∧
    (opAlarmCancel t s).ptp = s.ptp ∧ (opAlarmCancel t s).ftn = s.ftn ∧ (opAlarmCancel t s).keys = s.keys ∧
    (opAlarmCancel t s).flt = s.flt ∧ (opAlarmCancel t s).mgt = s.mgt ∧
    (∀ rp ro, regOf (opAlarmCancel t s).pages rp ro = regOf s.pages rp ro) := by
  unfold opAlarmCancel; (repeat' split) <;> simp

@[simp] theorem keeps_alarmFire (t : Tag) (s : State) :
    (alarmFire t s).pending = s.pending ∧ (alarmFire t s).fresh = s.fresh ∧ (alarmFire t s).now = s.now ∧
    (alarmFire t s).pwr = s.pwr ∧ (alarmFire t s).arb = s.arb ∧ (alarmFire t s).halves = s.halves ∧
    (alarmFire t s).ident = s.ident ∧ (alarmFire t s).models = s.models ∧ (alarmFire t s).caps = s.caps ∧
    (alarmFire t s).jets = s.jets ∧ (alarmFire t s).lanes = s.lanes ∧ (alarmFire t s).ports = s.ports ∧
    (alarmFire t s).ptp = s.ptp ∧ (alarmFire t s).ftn = s.ftn ∧ (alarmFire t s).keys = s.keys ∧
    (alarmFire t s).flt = s.flt ∧ (alarmFire t s).mgt = s.mgt ∧
    (∀ rp ro, regOf (alarmFire t s).pages rp ro = regOf s.pages rp ro) := by
  unfold alarmFire; (repeat' split) <;> simp

@[simp] theorem keeps_disarmDomain (d : Dom) (s : State) :
    (disarmDomain d s).pending = s.pending ∧ (disarmDomain d s).fresh = s.fresh ∧ (disarmDomain d s).now = s.now ∧
    (disarmDomain d s).outs = s.outs ∧ (disarmDomain d s).pages = s.pages ∧ (disarmDomain d s).pwr = s.pwr ∧
    (disarmDomain d s).arb = s.arb ∧ (disarmDomain d s).halves = s.halves ∧ (disarmDomain d s).parts = s.parts ∧
    (disarmDomain d s).bars = s.bars ∧ (disarmDomain d s).ops = s.ops ∧ (disarmDomain d s).ident = s.ident ∧
    (disarmDomain d s).models = s.models ∧ (disarmDomain d s).jets = s.jets ∧ (disarmDomain d s).lanes = s.lanes ∧
    (disarmDomain d s).ports = s.ports ∧ (disarmDomain d s).ptp = s.ptp ∧ (disarmDomain d s).ftn = s.ftn ∧
    (disarmDomain d s).keys = s.keys ∧ (disarmDomain d s).flt = s.flt ∧ (disarmDomain d s).mgt = s.mgt ∧
    (disarmDomain d s).cnt = s.cnt := by
  simp [disarmDomain]

/-! ## Jets -/

@[simp] theorem keeps_modJet (s : State) (j : JetNo) (f : JetSt → JetSt) :
    (State.modJet s j f).pending = s.pending ∧ (State.modJet s j f).fresh = s.fresh ∧
    (State.modJet s j f).now = s.now ∧ (State.modJet s j f).outs = s.outs ∧ (State.modJet s j f).pages = s.pages ∧
    (State.modJet s j f).pwr = s.pwr ∧ (State.modJet s j f).arb = s.arb ∧ (State.modJet s j f).halves = s.halves ∧
    (State.modJet s j f).parts = s.parts ∧ (State.modJet s j f).bars = s.bars ∧ (State.modJet s j f).ops = s.ops ∧
    (State.modJet s j f).ident = s.ident ∧ (State.modJet s j f).models = s.models ∧
    (State.modJet s j f).caps = s.caps ∧ (State.modJet s j f).lanes = s.lanes ∧ (State.modJet s j f).ports = s.ports ∧
    (State.modJet s j f).ptp = s.ptp ∧ (State.modJet s j f).ftn = s.ftn ∧ (State.modJet s j f).keys = s.keys ∧
    (State.modJet s j f).flt = s.flt ∧ (State.modJet s j f).mgt = s.mgt ∧ (State.modJet s j f).cnt = s.cnt := by
  simp [State.modJet]

@[simp] theorem keeps_settleLevel (j : JetNo) (s : State) :
    (settleLevel j s).pending = s.pending ∧ (settleLevel j s).fresh = s.fresh ∧ (settleLevel j s).now = s.now ∧
    (settleLevel j s).outs = s.outs ∧ (settleLevel j s).pages = s.pages ∧ (settleLevel j s).pwr = s.pwr ∧
    (settleLevel j s).arb = s.arb ∧ (settleLevel j s).halves = s.halves ∧ (settleLevel j s).parts = s.parts ∧
    (settleLevel j s).bars = s.bars ∧ (settleLevel j s).ident = s.ident ∧ (settleLevel j s).models = s.models ∧
    (settleLevel j s).caps = s.caps ∧ (settleLevel j s).lanes = s.lanes ∧ (settleLevel j s).ports = s.ports ∧
    (settleLevel j s).ptp = s.ptp ∧ (settleLevel j s).ftn = s.ftn ∧ (settleLevel j s).keys = s.keys ∧
    (settleLevel j s).flt = s.flt ∧ (settleLevel j s).mgt = s.mgt ∧ (settleLevel j s).cnt = s.cnt := by
  simp [settleLevel]

@[simp] theorem keeps_jetEdge (j : JetNo) (l : JetLevel) (e : Rat) (s : State) :
    (jetEdge j l e s).1.pending = s.pending ∧ (jetEdge j l e s).1.fresh = s.fresh ∧ (jetEdge j l e s).1.now = s.now ∧
    (jetEdge j l e s).1.outs = s.outs ∧ (jetEdge j l e s).1.pages = s.pages ∧ (jetEdge j l e s).1.pwr = s.pwr ∧
    (jetEdge j l e s).1.arb = s.arb ∧ (jetEdge j l e s).1.halves = s.halves ∧ (jetEdge j l e s).1.parts = s.parts ∧
    (jetEdge j l e s).1.bars = s.bars ∧ (jetEdge j l e s).1.ops = s.ops ∧ (jetEdge j l e s).1.ident = s.ident ∧
    (jetEdge j l e s).1.models = s.models ∧ (jetEdge j l e s).1.caps = s.caps ∧ (jetEdge j l e s).1.lanes = s.lanes ∧
    (jetEdge j l e s).1.ports = s.ports ∧ (jetEdge j l e s).1.ptp = s.ptp ∧ (jetEdge j l e s).1.ftn = s.ftn ∧
    (jetEdge j l e s).1.keys = s.keys ∧ (jetEdge j l e s).1.flt = s.flt ∧ (jetEdge j l e s).1.mgt = s.mgt ∧
    (jetEdge j l e s).1.cnt = s.cnt := by
  simp only [jetEdge]; (repeat' split) <;> simp

@[simp] theorem keeps_misalign (j : JetNo) (s : State) :
    (misalign j s).pending = s.pending ∧ (misalign j s).fresh = s.fresh ∧ (misalign j s).now = s.now ∧
    (misalign j s).pwr = s.pwr ∧ (misalign j s).arb = s.arb ∧ (misalign j s).halves = s.halves ∧
    (misalign j s).parts = s.parts ∧ (misalign j s).ops = s.ops ∧ (misalign j s).ident = s.ident ∧
    (misalign j s).models = s.models ∧ (misalign j s).caps = s.caps ∧ (misalign j s).lanes = s.lanes ∧
    (misalign j s).ports = s.ports ∧ (misalign j s).ptp = s.ptp ∧ (misalign j s).ftn = s.ftn ∧
    (misalign j s).keys = s.keys ∧ (misalign j s).flt = s.flt ∧ (misalign j s).mgt = s.mgt ∧
    (∀ rp ro, regOf (misalign j s).pages rp ro = regOf s.pages rp ro) := by
  simp [misalign]

@[simp] theorem keeps_placeOrigin (j : JetNo) (from_ : Nat) (s : State) :
    (placeOrigin j from_ s).pending = s.pending ∧ (placeOrigin j from_ s).fresh = s.fresh ∧
    (placeOrigin j from_ s).now = s.now ∧ (placeOrigin j from_ s).pwr = s.pwr ∧ (placeOrigin j from_ s).arb = s.arb ∧
    (placeOrigin j from_ s).halves = s.halves ∧ (placeOrigin j from_ s).parts = s.parts ∧
    (placeOrigin j from_ s).ops = s.ops ∧ (placeOrigin j from_ s).ident = s.ident ∧
    (placeOrigin j from_ s).models = s.models ∧ (placeOrigin j from_ s).caps = s.caps ∧
    (placeOrigin j from_ s).lanes = s.lanes ∧ (placeOrigin j from_ s).ports = s.ports ∧
    (placeOrigin j from_ s).ptp = s.ptp ∧ (placeOrigin j from_ s).ftn = s.ftn ∧
    (placeOrigin j from_ s).keys = s.keys ∧ (placeOrigin j from_ s).flt = s.flt ∧
    (placeOrigin j from_ s).mgt = s.mgt ∧ (∀ rp ro, regOf (placeOrigin j from_ s).pages rp ro = regOf s.pages rp ro) := by
  simp [placeOrigin]

@[simp] theorem keeps_startJet (j : JetNo) (s : State) :
    (startJet j s).pending = s.pending ∧ (startJet j s).fresh = s.fresh ∧ (startJet j s).now = s.now ∧
    (startJet j s).pwr = s.pwr ∧ (startJet j s).arb = s.arb ∧ (startJet j s).halves = s.halves ∧
    (startJet j s).parts = s.parts ∧ (startJet j s).ident = s.ident ∧ (startJet j s).models = s.models ∧
    (startJet j s).caps = s.caps ∧ (startJet j s).lanes = s.lanes ∧ (startJet j s).ports = s.ports ∧
    (startJet j s).ptp = s.ptp ∧ (startJet j s).ftn = s.ftn ∧ (startJet j s).keys = s.keys ∧
    (startJet j s).flt = s.flt ∧ (startJet j s).mgt = s.mgt ∧
    (∀ rp ro, regOf (startJet j s).pages rp ro = regOf s.pages rp ro) := by
  simp [startJet]

@[simp] theorem keeps_haltJet (j : JetNo) (s : State) :
    (haltJet j s).pending = s.pending ∧ (haltJet j s).fresh = s.fresh ∧ (haltJet j s).now = s.now ∧
    (haltJet j s).outs = s.outs ∧ (haltJet j s).pages = s.pages ∧ (haltJet j s).pwr = s.pwr ∧
    (haltJet j s).arb = s.arb ∧ (haltJet j s).halves = s.halves ∧ (haltJet j s).parts = s.parts ∧
    (haltJet j s).bars = s.bars ∧ (haltJet j s).ops = s.ops ∧ (haltJet j s).ident = s.ident ∧
    (haltJet j s).models = s.models ∧ (haltJet j s).caps = s.caps ∧ (haltJet j s).lanes = s.lanes ∧
    (haltJet j s).ports = s.ports ∧ (haltJet j s).ptp = s.ptp ∧ (haltJet j s).ftn = s.ftn ∧
    (haltJet j s).keys = s.keys ∧ (haltJet j s).flt = s.flt ∧ (haltJet j s).mgt = s.mgt ∧ (haltJet j s).cnt = s.cnt := by
  simp [haltJet]

@[simp] theorem keeps_stopJet (j : JetNo) (again : Bool) (s : State) :
    (stopJet j again s).pending = s.pending ∧ (stopJet j again s).fresh = s.fresh ∧ (stopJet j again s).now = s.now ∧
    (stopJet j again s).pwr = s.pwr ∧ (stopJet j again s).arb = s.arb ∧ (stopJet j again s).halves = s.halves ∧
    (stopJet j again s).parts = s.parts ∧ (stopJet j again s).ident = s.ident ∧
    (stopJet j again s).models = s.models ∧ (stopJet j again s).caps = s.caps ∧ (stopJet j again s).lanes = s.lanes ∧
    (stopJet j again s).ports = s.ports ∧ (stopJet j again s).ptp = s.ptp ∧ (stopJet j again s).ftn = s.ftn ∧
    (stopJet j again s).keys = s.keys ∧ (stopJet j again s).flt = s.flt ∧ (stopJet j again s).mgt = s.mgt ∧
    (∀ rp ro, regOf (stopJet j again s).pages rp ro = regOf s.pages rp ro) := by
  unfold stopJet; (repeat' split) <;> simp

@[simp] theorem keeps_jetsOn (s : State) :
    (jetsOn s).pending = s.pending ∧ (jetsOn s).fresh = s.fresh ∧ (jetsOn s).now = s.now ∧ (jetsOn s).pwr = s.pwr ∧
    (jetsOn s).arb = s.arb ∧ (jetsOn s).halves = s.halves ∧ (jetsOn s).parts = s.parts ∧ (jetsOn s).ident = s.ident ∧
    (jetsOn s).models = s.models ∧ (jetsOn s).caps = s.caps ∧ (jetsOn s).lanes = s.lanes ∧
    (jetsOn s).ports = s.ports ∧ (jetsOn s).ptp = s.ptp ∧ (jetsOn s).ftn = s.ftn ∧ (jetsOn s).keys = s.keys ∧
    (jetsOn s).flt = s.flt ∧ (jetsOn s).mgt = s.mgt ∧ (∀ rp ro, regOf (jetsOn s).pages rp ro = regOf s.pages rp ro) := by
  simp [jetsOn]

@[simp] theorem keeps_jetsOff (s : State) :
    (jetsOff s).pending = s.pending ∧ (jetsOff s).fresh = s.fresh ∧ (jetsOff s).now = s.now ∧
    (jetsOff s).pwr = s.pwr ∧ (jetsOff s).arb = s.arb ∧ (jetsOff s).halves = s.halves ∧ (jetsOff s).parts = s.parts ∧
    (jetsOff s).ops = s.ops ∧ (jetsOff s).ident = s.ident ∧ (jetsOff s).models = s.models ∧
    (jetsOff s).caps = s.caps ∧ (jetsOff s).lanes = s.lanes ∧ (jetsOff s).ports = s.ports ∧ (jetsOff s).ptp = s.ptp ∧
    (jetsOff s).ftn = s.ftn ∧ (jetsOff s).keys = s.keys ∧ (jetsOff s).flt = s.flt ∧ (jetsOff s).mgt = s.mgt ∧
    (∀ rp ro, regOf (jetsOff s).pages rp ro = regOf s.pages rp ro) := by
  simp [jetsOff]

@[simp] theorem keeps_started (j : JetNo) (s : State) :
    (started j s).pending = s.pending ∧ (started j s).fresh = s.fresh ∧ (started j s).now = s.now ∧
    (started j s).pwr = s.pwr ∧ (started j s).arb = s.arb ∧ (started j s).halves = s.halves ∧
    (started j s).parts = s.parts ∧ (started j s).ident = s.ident ∧ (started j s).models = s.models ∧
    (started j s).caps = s.caps ∧ (started j s).lanes = s.lanes ∧ (started j s).ports = s.ports ∧
    (started j s).ptp = s.ptp ∧ (started j s).ftn = s.ftn ∧ (started j s).keys = s.keys ∧ (started j s).flt = s.flt ∧
    (started j s).mgt = s.mgt ∧ (∀ rp ro, regOf (started j s).pages rp ro = regOf s.pages rp ro) := by
  simp [started]

@[simp] theorem keeps_startFreqRamp (j : JetNo) (e f0 : Rat) (s : State) :
    (startFreqRamp j e f0 s).pending = s.pending ∧ (startFreqRamp j e f0 s).now = s.now ∧
    (startFreqRamp j e f0 s).pwr = s.pwr ∧ (startFreqRamp j e f0 s).arb = s.arb ∧
    (startFreqRamp j e f0 s).halves = s.halves ∧ (startFreqRamp j e f0 s).parts = s.parts ∧
    (startFreqRamp j e f0 s).ops = s.ops ∧ (startFreqRamp j e f0 s).ident = s.ident ∧
    (startFreqRamp j e f0 s).models = s.models ∧ (startFreqRamp j e f0 s).caps = s.caps ∧
    (startFreqRamp j e f0 s).lanes = s.lanes ∧ (startFreqRamp j e f0 s).ports = s.ports ∧
    (startFreqRamp j e f0 s).ptp = s.ptp ∧ (startFreqRamp j e f0 s).ftn = s.ftn ∧
    (startFreqRamp j e f0 s).keys = s.keys ∧ (startFreqRamp j e f0 s).flt = s.flt ∧
    (startFreqRamp j e f0 s).mgt = s.mgt ∧
    (∀ rp ro, regOf (startFreqRamp j e f0 s).pages rp ro = regOf s.pages rp ro) := by
  simp [startFreqRamp]

@[simp] theorem keeps_jetBoundary (j : JetNo) (edge : Option (Int × Rat)) (s : State) :
    (jetBoundary j edge s).pending = s.pending ∧ (jetBoundary j edge s).now = s.now ∧
    (jetBoundary j edge s).pwr = s.pwr ∧ (jetBoundary j edge s).arb = s.arb ∧
    (jetBoundary j edge s).halves = s.halves ∧ (jetBoundary j edge s).parts = s.parts ∧
    (jetBoundary j edge s).ident = s.ident ∧ (jetBoundary j edge s).models = s.models ∧
    (jetBoundary j edge s).caps = s.caps ∧ (jetBoundary j edge s).lanes = s.lanes ∧
    (jetBoundary j edge s).ports = s.ports ∧ (jetBoundary j edge s).ptp = s.ptp ∧ (jetBoundary j edge s).ftn = s.ftn ∧
    (jetBoundary j edge s).keys = s.keys ∧ (jetBoundary j edge s).flt = s.flt ∧ (jetBoundary j edge s).mgt = s.mgt := by
  simp only [jetBoundary]; (repeat' split) <;> simp

@[simp] theorem keeps_noteBound (j : JetNo) (latePs : Rat) (s : State) :
    (noteBound j latePs s).pending = s.pending ∧ (noteBound j latePs s).fresh = s.fresh ∧
    (noteBound j latePs s).now = s.now ∧ (noteBound j latePs s).outs = s.outs ∧
    (noteBound j latePs s).pages = s.pages ∧ (noteBound j latePs s).pwr = s.pwr ∧ (noteBound j latePs s).arb = s.arb ∧
    (noteBound j latePs s).halves = s.halves ∧ (noteBound j latePs s).parts = s.parts ∧
    (noteBound j latePs s).bars = s.bars ∧ (noteBound j latePs s).ops = s.ops ∧
    (noteBound j latePs s).ident = s.ident ∧ (noteBound j latePs s).models = s.models ∧
    (noteBound j latePs s).caps = s.caps ∧ (noteBound j latePs s).lanes = s.lanes ∧
    (noteBound j latePs s).ports = s.ports ∧ (noteBound j latePs s).ptp = s.ptp ∧ (noteBound j latePs s).ftn = s.ftn ∧
    (noteBound j latePs s).keys = s.keys ∧ (noteBound j latePs s).flt = s.flt ∧ (noteBound j latePs s).mgt = s.mgt ∧
    (noteBound j latePs s).cnt = s.cnt := by
  simp [noteBound]

@[simp] theorem keeps_jetPeriodEdge (j : JetNo) (sub : Nat) (s : State) :
    (jetPeriodEdge j sub s).pending = s.pending ∧ (jetPeriodEdge j sub s).now = s.now ∧
    (jetPeriodEdge j sub s).pwr = s.pwr ∧ (jetPeriodEdge j sub s).arb = s.arb ∧
    (jetPeriodEdge j sub s).halves = s.halves ∧ (jetPeriodEdge j sub s).parts = s.parts ∧
    (jetPeriodEdge j sub s).ident = s.ident ∧ (jetPeriodEdge j sub s).models = s.models ∧
    (jetPeriodEdge j sub s).caps = s.caps ∧ (jetPeriodEdge j sub s).lanes = s.lanes ∧
    (jetPeriodEdge j sub s).ports = s.ports ∧ (jetPeriodEdge j sub s).ptp = s.ptp ∧
    (jetPeriodEdge j sub s).ftn = s.ftn ∧ (jetPeriodEdge j sub s).keys = s.keys ∧
    (jetPeriodEdge j sub s).flt = s.flt ∧ (jetPeriodEdge j sub s).mgt = s.mgt := by
  unfold jetPeriodEdge
  split
  · simp
  · dsimp only
    split <;> simp [apply_ite Prod.fst]

@[simp] theorem keeps_jetFallingEdge (j : JetNo) (s : State) :
    (jetFallingEdge j s).pending = s.pending ∧ (jetFallingEdge j s).fresh = s.fresh ∧
    (jetFallingEdge j s).now = s.now ∧ (jetFallingEdge j s).pwr = s.pwr ∧ (jetFallingEdge j s).arb = s.arb ∧
    (jetFallingEdge j s).halves = s.halves ∧ (jetFallingEdge j s).parts = s.parts ∧
    (jetFallingEdge j s).ident = s.ident ∧ (jetFallingEdge j s).models = s.models ∧
    (jetFallingEdge j s).caps = s.caps ∧ (jetFallingEdge j s).lanes = s.lanes ∧ (jetFallingEdge j s).ports = s.ports ∧
    (jetFallingEdge j s).ptp = s.ptp ∧ (jetFallingEdge j s).ftn = s.ftn ∧ (jetFallingEdge j s).keys = s.keys ∧
    (jetFallingEdge j s).flt = s.flt ∧ (jetFallingEdge j s).mgt = s.mgt ∧
    (∀ rp ro, regOf (jetFallingEdge j s).pages rp ro = regOf s.pages rp ro) := by
  unfold jetFallingEdge
  split
  · simp
  · split
    · simp
    · dsimp only
      (repeat' split) <;> simp [apply_ite Prod.fst]

@[simp] theorem keeps_jetRestart (j : JetNo) (s : State) :
    (jetRestart j s).pending = s.pending ∧ (jetRestart j s).fresh = s.fresh ∧ (jetRestart j s).now = s.now ∧
    (jetRestart j s).pwr = s.pwr ∧ (jetRestart j s).arb = s.arb ∧ (jetRestart j s).halves = s.halves ∧
    (jetRestart j s).parts = s.parts ∧ (jetRestart j s).ident = s.ident ∧ (jetRestart j s).models = s.models ∧
    (jetRestart j s).caps = s.caps ∧ (jetRestart j s).lanes = s.lanes ∧ (jetRestart j s).ports = s.ports ∧
    (jetRestart j s).ptp = s.ptp ∧ (jetRestart j s).ftn = s.ftn ∧ (jetRestart j s).keys = s.keys ∧
    (jetRestart j s).flt = s.flt ∧ (jetRestart j s).mgt = s.mgt ∧
    (∀ rp ro, regOf (jetRestart j s).pages rp ro = regOf s.pages rp ro) := by
  simp [jetRestart]

@[simp] theorem keeps_killJet (j : JetNo) (v : Nat) (s : State) :
    (killJet j v s).pending = s.pending ∧ (killJet j v s).fresh = s.fresh ∧ (killJet j v s).now = s.now ∧
    (killJet j v s).pwr = s.pwr ∧ (killJet j v s).arb = s.arb ∧ (killJet j v s).halves = s.halves ∧
    (killJet j v s).parts = s.parts ∧ (killJet j v s).ident = s.ident ∧ (killJet j v s).models = s.models ∧
    (killJet j v s).caps = s.caps ∧ (killJet j v s).lanes = s.lanes ∧ (killJet j v s).ports = s.ports ∧
    (killJet j v s).ptp = s.ptp ∧ (killJet j v s).ftn = s.ftn ∧ (killJet j v s).keys = s.keys ∧
    (killJet j v s).flt = s.flt ∧ (killJet j v s).mgt = s.mgt := by
  simp [killJet]

@[simp] theorem keeps_rampDone (j : JetNo) (sub : Nat) (s : State) :
    (rampDone j sub s).pending = s.pending ∧ (rampDone j sub s).fresh = s.fresh ∧ (rampDone j sub s).now = s.now ∧
    (rampDone j sub s).pwr = s.pwr ∧ (rampDone j sub s).arb = s.arb ∧ (rampDone j sub s).halves = s.halves ∧
    (rampDone j sub s).parts = s.parts ∧ (rampDone j sub s).ops = s.ops ∧ (rampDone j sub s).ident = s.ident ∧
    (rampDone j sub s).models = s.models ∧ (rampDone j sub s).caps = s.caps ∧ (rampDone j sub s).lanes = s.lanes ∧
    (rampDone j sub s).ports = s.ports ∧ (rampDone j sub s).ptp = s.ptp ∧ (rampDone j sub s).ftn = s.ftn ∧
    (rampDone j sub s).keys = s.keys ∧ (rampDone j sub s).flt = s.flt ∧ (rampDone j sub s).mgt = s.mgt ∧
    (∀ rp ro, regOf (rampDone j sub s).pages rp ro = regOf s.pages rp ro) := by
  unfold rampDone
  split
  · simp
  · dsimp only
    split <;> simp

@[simp] theorem keeps_shiftJet (j : JetNo) (delta : Int) (s : State) :
    (shiftJet j delta s).pending = s.pending ∧ (shiftJet j delta s).fresh = s.fresh ∧
    (shiftJet j delta s).now = s.now ∧ (shiftJet j delta s).outs = s.outs ∧ (shiftJet j delta s).pages = s.pages ∧
    (shiftJet j delta s).pwr = s.pwr ∧ (shiftJet j delta s).arb = s.arb ∧ (shiftJet j delta s).halves = s.halves ∧
    (shiftJet j delta s).parts = s.parts ∧ (shiftJet j delta s).bars = s.bars ∧ (shiftJet j delta s).ops = s.ops ∧
    (shiftJet j delta s).ident = s.ident ∧ (shiftJet j delta s).models = s.models ∧
    (shiftJet j delta s).caps = s.caps ∧ (shiftJet j delta s).lanes = s.lanes ∧ (shiftJet j delta s).ports = s.ports ∧
    (shiftJet j delta s).ptp = s.ptp ∧ (shiftJet j delta s).ftn = s.ftn ∧ (shiftJet j delta s).keys = s.keys ∧
    (shiftJet j delta s).flt = s.flt ∧ (shiftJet j delta s).mgt = s.mgt ∧ (shiftJet j delta s).cnt = s.cnt := by
  simp [shiftJet]

@[simp] theorem keeps_moveOrigin (j : JetNo) (delta : Int) (s : State) :
    (moveOrigin j delta s).pending = s.pending ∧ (moveOrigin j delta s).fresh = s.fresh ∧
    (moveOrigin j delta s).now = s.now ∧ (moveOrigin j delta s).pwr = s.pwr ∧ (moveOrigin j delta s).arb = s.arb ∧
    (moveOrigin j delta s).halves = s.halves ∧ (moveOrigin j delta s).parts = s.parts ∧
    (moveOrigin j delta s).ops = s.ops ∧ (moveOrigin j delta s).ident = s.ident ∧
    (moveOrigin j delta s).models = s.models ∧ (moveOrigin j delta s).caps = s.caps ∧
    (moveOrigin j delta s).lanes = s.lanes ∧ (moveOrigin j delta s).ports = s.ports ∧
    (moveOrigin j delta s).ptp = s.ptp ∧ (moveOrigin j delta s).ftn = s.ftn ∧ (moveOrigin j delta s).keys = s.keys ∧
    (moveOrigin j delta s).flt = s.flt ∧ (moveOrigin j delta s).mgt = s.mgt ∧
    (∀ rp ro, regOf (moveOrigin j delta s).pages rp ro = regOf s.pages rp ro) := by
  simp [moveOrigin]

@[simp] theorem keeps_suppressPulse (j : JetNo) (t : Nat) (reset : Bool) (s : State) :
    (suppressPulse j t reset s).pending = s.pending ∧ (suppressPulse j t reset s).fresh = s.fresh ∧
    (suppressPulse j t reset s).now = s.now ∧ (suppressPulse j t reset s).pwr = s.pwr ∧
    (suppressPulse j t reset s).arb = s.arb ∧ (suppressPulse j t reset s).halves = s.halves ∧
    (suppressPulse j t reset s).parts = s.parts ∧ (suppressPulse j t reset s).ops = s.ops ∧
    (suppressPulse j t reset s).ident = s.ident ∧ (suppressPulse j t reset s).models = s.models ∧
    (suppressPulse j t reset s).caps = s.caps ∧ (suppressPulse j t reset s).lanes = s.lanes ∧
    (suppressPulse j t reset s).ports = s.ports ∧ (suppressPulse j t reset s).ptp = s.ptp ∧
    (suppressPulse j t reset s).ftn = s.ftn ∧ (suppressPulse j t reset s).keys = s.keys ∧
    (suppressPulse j t reset s).flt = s.flt ∧ (suppressPulse j t reset s).mgt = s.mgt ∧
    (∀ rp ro, regOf (suppressPulse j t reset s).pages rp ro = regOf s.pages rp ro) := by
  simp [suppressPulse]

@[simp] theorem keeps_jetStep (j : JetNo) (t : Nat) (delta : Int) (reset : Bool) (s : State) :
    (jetStep j t delta reset s).pending = s.pending ∧ (jetStep j t delta reset s).fresh = s.fresh ∧
    (jetStep j t delta reset s).now = s.now ∧ (jetStep j t delta reset s).pwr = s.pwr ∧
    (jetStep j t delta reset s).arb = s.arb ∧ (jetStep j t delta reset s).halves = s.halves ∧
    (jetStep j t delta reset s).parts = s.parts ∧ (jetStep j t delta reset s).ops = s.ops ∧
    (jetStep j t delta reset s).ident = s.ident ∧ (jetStep j t delta reset s).models = s.models ∧
    (jetStep j t delta reset s).caps = s.caps ∧ (jetStep j t delta reset s).lanes = s.lanes ∧
    (jetStep j t delta reset s).ports = s.ports ∧ (jetStep j t delta reset s).ptp = s.ptp ∧
    (jetStep j t delta reset s).ftn = s.ftn ∧ (jetStep j t delta reset s).keys = s.keys ∧
    (jetStep j t delta reset s).flt = s.flt ∧ (jetStep j t delta reset s).mgt = s.mgt ∧
    (∀ rp ro, regOf (jetStep j t delta reset s).pages rp ro = regOf s.pages rp ro) := by
  simp only [jetStep]; (repeat' split) <;> simp

@[simp] theorem keeps_jetsBeat (h : Half) (d : Dom) (moved : Option (Int × Bool)) (s : State) :
    (jetsBeat h d moved s).pending = s.pending ∧ (jetsBeat h d moved s).fresh = s.fresh ∧
    (jetsBeat h d moved s).now = s.now ∧ (jetsBeat h d moved s).pwr = s.pwr ∧ (jetsBeat h d moved s).arb = s.arb ∧
    (jetsBeat h d moved s).halves = s.halves ∧ (jetsBeat h d moved s).parts = s.parts ∧
    (jetsBeat h d moved s).ident = s.ident ∧ (jetsBeat h d moved s).models = s.models ∧
    (jetsBeat h d moved s).caps = s.caps ∧ (jetsBeat h d moved s).lanes = s.lanes ∧
    (jetsBeat h d moved s).ports = s.ports ∧ (jetsBeat h d moved s).ptp = s.ptp ∧ (jetsBeat h d moved s).ftn = s.ftn ∧
    (jetsBeat h d moved s).keys = s.keys ∧ (jetsBeat h d moved s).flt = s.flt ∧ (jetsBeat h d moved s).mgt = s.mgt ∧
    (∀ rp ro, regOf (jetsBeat h d moved s).pages rp ro = regOf s.pages rp ro) := by
  unfold jetsBeat; (repeat' split) <;> simp

@[simp] theorem keeps_reloadEngines (j : JetNo) (s : State) :
    (reloadEngines j s).pending = s.pending ∧ (reloadEngines j s).fresh = s.fresh ∧ (reloadEngines j s).now = s.now ∧
    (reloadEngines j s).pwr = s.pwr ∧ (reloadEngines j s).arb = s.arb ∧ (reloadEngines j s).halves = s.halves ∧
    (reloadEngines j s).parts = s.parts ∧ (reloadEngines j s).ident = s.ident ∧
    (reloadEngines j s).models = s.models ∧ (reloadEngines j s).caps = s.caps ∧ (reloadEngines j s).lanes = s.lanes ∧
    (reloadEngines j s).ports = s.ports ∧ (reloadEngines j s).ptp = s.ptp ∧ (reloadEngines j s).ftn = s.ftn ∧
    (reloadEngines j s).keys = s.keys ∧ (reloadEngines j s).flt = s.flt ∧ (reloadEngines j s).mgt = s.mgt ∧
    (∀ rp ro, regOf (reloadEngines j s).pages rp ro = regOf s.pages rp ro) := by
  simp [reloadEngines]

@[simp] theorem keeps_jetsTd0 (s : State) :
    (jetsTd0 s).pending = s.pending ∧ (jetsTd0 s).now = s.now ∧ (jetsTd0 s).pwr = s.pwr ∧ (jetsTd0 s).arb = s.arb ∧
    (jetsTd0 s).halves = s.halves ∧ (jetsTd0 s).parts = s.parts ∧ (jetsTd0 s).ident = s.ident ∧
    (jetsTd0 s).models = s.models ∧ (jetsTd0 s).caps = s.caps ∧ (jetsTd0 s).lanes = s.lanes ∧
    (jetsTd0 s).ports = s.ports ∧ (jetsTd0 s).ptp = s.ptp ∧ (jetsTd0 s).ftn = s.ftn ∧ (jetsTd0 s).keys = s.keys ∧
    (jetsTd0 s).flt = s.flt ∧ (jetsTd0 s).mgt = s.mgt := by
  simp [jetsTd0]

@[simp] theorem keeps_rejoinJet (j : JetNo) (t since : Rat) (dev : Rat) (s : State) :
    (rejoinJet j t since dev s).pending = s.pending ∧ (rejoinJet j t since dev s).now = s.now ∧
    (rejoinJet j t since dev s).pwr = s.pwr ∧ (rejoinJet j t since dev s).arb = s.arb ∧
    (rejoinJet j t since dev s).halves = s.halves ∧ (rejoinJet j t since dev s).parts = s.parts ∧
    (rejoinJet j t since dev s).ident = s.ident ∧ (rejoinJet j t since dev s).models = s.models ∧
    (rejoinJet j t since dev s).caps = s.caps ∧ (rejoinJet j t since dev s).lanes = s.lanes ∧
    (rejoinJet j t since dev s).ports = s.ports ∧ (rejoinJet j t since dev s).ptp = s.ptp ∧
    (rejoinJet j t since dev s).ftn = s.ftn ∧ (rejoinJet j t since dev s).keys = s.keys ∧
    (rejoinJet j t since dev s).flt = s.flt ∧ (rejoinJet j t since dev s).mgt = s.mgt := by
  simp [rejoinJet]

@[simp] theorem keeps_jetSwitch (j : JetNo) (holdPs sub : Nat) (devLast devNext : Int) (s : State) :
    (jetSwitch j holdPs sub devLast devNext s).pending = s.pending ∧
    (jetSwitch j holdPs sub devLast devNext s).now = s.now ∧ (jetSwitch j holdPs sub devLast devNext s).pwr = s.pwr ∧
    (jetSwitch j holdPs sub devLast devNext s).arb = s.arb ∧
    (jetSwitch j holdPs sub devLast devNext s).halves = s.halves ∧
    (jetSwitch j holdPs sub devLast devNext s).parts = s.parts ∧
    (jetSwitch j holdPs sub devLast devNext s).ident = s.ident ∧
    (jetSwitch j holdPs sub devLast devNext s).models = s.models ∧
    (jetSwitch j holdPs sub devLast devNext s).caps = s.caps ∧
    (jetSwitch j holdPs sub devLast devNext s).lanes = s.lanes ∧
    (jetSwitch j holdPs sub devLast devNext s).ports = s.ports ∧
    (jetSwitch j holdPs sub devLast devNext s).ptp = s.ptp ∧ (jetSwitch j holdPs sub devLast devNext s).ftn = s.ftn ∧
    (jetSwitch j holdPs sub devLast devNext s).keys = s.keys ∧
    (jetSwitch j holdPs sub devLast devNext s).flt = s.flt ∧ (jetSwitch j holdPs sub devLast devNext s).mgt = s.mgt := by
  simp only [jetSwitch]; (repeat' split) <;> simp

@[simp] theorem keeps_jetDetection (j : JetNo) (det : Byte) (s : State) :
    (jetDetection j det s).pending = s.pending ∧ (jetDetection j det s).fresh = s.fresh ∧
    (jetDetection j det s).now = s.now ∧ (jetDetection j det s).pwr = s.pwr ∧ (jetDetection j det s).arb = s.arb ∧
    (jetDetection j det s).halves = s.halves ∧ (jetDetection j det s).parts = s.parts ∧
    (jetDetection j det s).ops = s.ops ∧ (jetDetection j det s).models = s.models ∧
    (jetDetection j det s).caps = s.caps ∧ (jetDetection j det s).lanes = s.lanes ∧
    (jetDetection j det s).ports = s.ports ∧ (jetDetection j det s).ptp = s.ptp ∧ (jetDetection j det s).ftn = s.ftn ∧
    (jetDetection j det s).keys = s.keys ∧ (jetDetection j det s).mgt = s.mgt ∧
    (∀ rp ro, regOf (jetDetection j det s).pages rp ro = regOf s.pages rp ro) := by
  unfold jetDetection; (repeat' split) <;> simp

@[simp] theorem keeps_jetDriverBack (j : JetNo) (s : State) :
    (jetDriverBack j s).pending = s.pending ∧ (jetDriverBack j s).fresh = s.fresh ∧ (jetDriverBack j s).now = s.now ∧
    (jetDriverBack j s).outs = s.outs ∧ (jetDriverBack j s).pages = s.pages ∧ (jetDriverBack j s).pwr = s.pwr ∧
    (jetDriverBack j s).arb = s.arb ∧ (jetDriverBack j s).halves = s.halves ∧ (jetDriverBack j s).parts = s.parts ∧
    (jetDriverBack j s).bars = s.bars ∧ (jetDriverBack j s).ident = s.ident ∧ (jetDriverBack j s).models = s.models ∧
    (jetDriverBack j s).caps = s.caps ∧ (jetDriverBack j s).lanes = s.lanes ∧ (jetDriverBack j s).ports = s.ports ∧
    (jetDriverBack j s).ptp = s.ptp ∧ (jetDriverBack j s).ftn = s.ftn ∧ (jetDriverBack j s).keys = s.keys ∧
    (jetDriverBack j s).flt = s.flt ∧ (jetDriverBack j s).mgt = s.mgt ∧ (jetDriverBack j s).cnt = s.cnt := by
  simp [jetDriverBack]

@[simp] theorem keeps_resetJet (j : JetNo) (s : State) :
    (resetJet j s).pending = s.pending ∧ (resetJet j s).fresh = s.fresh ∧ (resetJet j s).now = s.now ∧
    (resetJet j s).outs = s.outs ∧ (resetJet j s).pages = s.pages ∧ (resetJet j s).pwr = s.pwr ∧
    (resetJet j s).arb = s.arb ∧ (resetJet j s).halves = s.halves ∧ (resetJet j s).parts = s.parts ∧
    (resetJet j s).bars = s.bars ∧ (resetJet j s).ident = s.ident ∧ (resetJet j s).models = s.models ∧
    (resetJet j s).caps = s.caps ∧ (resetJet j s).lanes = s.lanes ∧ (resetJet j s).ports = s.ports ∧
    (resetJet j s).ptp = s.ptp ∧ (resetJet j s).ftn = s.ftn ∧ (resetJet j s).keys = s.keys ∧
    (resetJet j s).flt = s.flt ∧ (resetJet j s).mgt = s.mgt ∧ (resetJet j s).cnt = s.cnt := by
  simp [resetJet]

/-! ## Ports -/

@[simp] theorem keeps_countFrame (s : State) (p : PortNo) (tx : Bool) (len : Nat) :
    (State.countFrame s p tx len).pending = s.pending ∧ (State.countFrame s p tx len).fresh = s.fresh ∧
    (State.countFrame s p tx len).now = s.now ∧ (State.countFrame s p tx len).outs = s.outs ∧
    (State.countFrame s p tx len).pages = s.pages ∧ (State.countFrame s p tx len).pwr = s.pwr ∧
    (State.countFrame s p tx len).arb = s.arb ∧ (State.countFrame s p tx len).halves = s.halves ∧
    (State.countFrame s p tx len).parts = s.parts ∧ (State.countFrame s p tx len).bars = s.bars ∧
    (State.countFrame s p tx len).ops = s.ops ∧ (State.countFrame s p tx len).ident = s.ident ∧
    (State.countFrame s p tx len).models = s.models ∧ (State.countFrame s p tx len).caps = s.caps ∧
    (State.countFrame s p tx len).jets = s.jets ∧ (State.countFrame s p tx len).lanes = s.lanes ∧
    (State.countFrame s p tx len).ptp = s.ptp ∧ (State.countFrame s p tx len).ftn = s.ftn ∧
    (State.countFrame s p tx len).keys = s.keys ∧ (State.countFrame s p tx len).flt = s.flt ∧
    (State.countFrame s p tx len).mgt = s.mgt := by
  simp [State.countFrame]

@[simp] theorem keeps_egress (s : State) (p : PortNo) (a : PathAB) (d : Dom) (sub fec : Nat) :
    (State.egress s p a d sub fec).2.2.pending = s.pending ∧ (State.egress s p a d sub fec).2.2.now = s.now ∧
    (State.egress s p a d sub fec).2.2.outs = s.outs ∧ (State.egress s p a d sub fec).2.2.pages = s.pages ∧
    (State.egress s p a d sub fec).2.2.pwr = s.pwr ∧ (State.egress s p a d sub fec).2.2.arb = s.arb ∧
    (State.egress s p a d sub fec).2.2.halves = s.halves ∧ (State.egress s p a d sub fec).2.2.parts = s.parts ∧
    (State.egress s p a d sub fec).2.2.bars = s.bars ∧ (State.egress s p a d sub fec).2.2.ops = s.ops ∧
    (State.egress s p a d sub fec).2.2.ident = s.ident ∧ (State.egress s p a d sub fec).2.2.models = s.models ∧
    (State.egress s p a d sub fec).2.2.caps = s.caps ∧ (State.egress s p a d sub fec).2.2.jets = s.jets ∧
    (State.egress s p a d sub fec).2.2.lanes = s.lanes ∧ (State.egress s p a d sub fec).2.2.ports = s.ports ∧
    (State.egress s p a d sub fec).2.2.ptp = s.ptp ∧ (State.egress s p a d sub fec).2.2.ftn = s.ftn ∧
    (State.egress s p a d sub fec).2.2.keys = s.keys ∧ (State.egress s p a d sub fec).2.2.flt = s.flt ∧
    (State.egress s p a d sub fec).2.2.mgt = s.mgt ∧ (State.egress s p a d sub fec).2.2.cnt = s.cnt := by
  simp [State.egress]

@[simp] theorem keeps_ingress (s : State) (p : PortNo) (a : PathAB) (d : Dom) (pt : RxPoint) :
    (State.ingress s p a d pt).2.2.pending = s.pending ∧ (State.ingress s p a d pt).2.2.now = s.now ∧
    (State.ingress s p a d pt).2.2.outs = s.outs ∧ (State.ingress s p a d pt).2.2.pages = s.pages ∧
    (State.ingress s p a d pt).2.2.pwr = s.pwr ∧ (State.ingress s p a d pt).2.2.arb = s.arb ∧
    (State.ingress s p a d pt).2.2.halves = s.halves ∧ (State.ingress s p a d pt).2.2.parts = s.parts ∧
    (State.ingress s p a d pt).2.2.bars = s.bars ∧ (State.ingress s p a d pt).2.2.ops = s.ops ∧
    (State.ingress s p a d pt).2.2.ident = s.ident ∧ (State.ingress s p a d pt).2.2.models = s.models ∧
    (State.ingress s p a d pt).2.2.caps = s.caps ∧ (State.ingress s p a d pt).2.2.jets = s.jets ∧
    (State.ingress s p a d pt).2.2.lanes = s.lanes ∧ (State.ingress s p a d pt).2.2.ports = s.ports ∧
    (State.ingress s p a d pt).2.2.ptp = s.ptp ∧ (State.ingress s p a d pt).2.2.ftn = s.ftn ∧
    (State.ingress s p a d pt).2.2.keys = s.keys ∧ (State.ingress s p a d pt).2.2.flt = s.flt ∧
    (State.ingress s p a d pt).2.2.mgt = s.mgt ∧ (State.ingress s p a d pt).2.2.cnt = s.cnt := by
  simp [State.ingress]

@[simp] theorem keeps_modPath (s : State) (p : PortNo) (a : PathAB) (f : PathSt → PathSt) :
    (State.modPath s p a f).pending = s.pending ∧ (State.modPath s p a f).fresh = s.fresh ∧
    (State.modPath s p a f).now = s.now ∧ (State.modPath s p a f).outs = s.outs ∧
    (State.modPath s p a f).pages = s.pages ∧ (State.modPath s p a f).pwr = s.pwr ∧
    (State.modPath s p a f).arb = s.arb ∧ (State.modPath s p a f).halves = s.halves ∧
    (State.modPath s p a f).parts = s.parts ∧ (State.modPath s p a f).bars = s.bars ∧
    (State.modPath s p a f).ops = s.ops ∧ (State.modPath s p a f).ident = s.ident ∧
    (State.modPath s p a f).models = s.models ∧ (State.modPath s p a f).caps = s.caps ∧
    (State.modPath s p a f).jets = s.jets ∧ (State.modPath s p a f).lanes = s.lanes ∧
    (State.modPath s p a f).ptp = s.ptp ∧ (State.modPath s p a f).ftn = s.ftn ∧
    (State.modPath s p a f).keys = s.keys ∧ (State.modPath s p a f).flt = s.flt ∧
    (State.modPath s p a f).mgt = s.mgt ∧ (State.modPath s p a f).cnt = s.cnt := by
  simp [State.modPath]

@[simp] theorem keeps_settleBit (s : State) (p : PortNo) (a : PathAB) (i : Fin 3) :
    (State.settleBit s p a i).pending = s.pending ∧ (State.settleBit s p a i).fresh = s.fresh ∧
    (State.settleBit s p a i).now = s.now ∧ (State.settleBit s p a i).outs = s.outs ∧
    (State.settleBit s p a i).pages = s.pages ∧ (State.settleBit s p a i).pwr = s.pwr ∧
    (State.settleBit s p a i).arb = s.arb ∧ (State.settleBit s p a i).halves = s.halves ∧
    (State.settleBit s p a i).parts = s.parts ∧ (State.settleBit s p a i).bars = s.bars ∧
    (State.settleBit s p a i).ops = s.ops ∧ (State.settleBit s p a i).ident = s.ident ∧
    (State.settleBit s p a i).models = s.models ∧ (State.settleBit s p a i).caps = s.caps ∧
    (State.settleBit s p a i).jets = s.jets ∧ (State.settleBit s p a i).lanes = s.lanes ∧
    (State.settleBit s p a i).ptp = s.ptp ∧ (State.settleBit s p a i).ftn = s.ftn ∧
    (State.settleBit s p a i).keys = s.keys ∧ (State.settleBit s p a i).flt = s.flt ∧
    (State.settleBit s p a i).mgt = s.mgt ∧ (State.settleBit s p a i).cnt = s.cnt := by
  simp [State.settleBit]

@[simp] theorem keeps_settlePath (s : State) (p : PortNo) (a : PathAB) :
    (State.settlePath s p a).pending = s.pending ∧ (State.settlePath s p a).fresh = s.fresh ∧
    (State.settlePath s p a).now = s.now ∧ (State.settlePath s p a).outs = s.outs ∧
    (State.settlePath s p a).pages = s.pages ∧ (State.settlePath s p a).pwr = s.pwr ∧
    (State.settlePath s p a).arb = s.arb ∧ (State.settlePath s p a).halves = s.halves ∧
    (State.settlePath s p a).parts = s.parts ∧ (State.settlePath s p a).bars = s.bars ∧
    (State.settlePath s p a).ops = s.ops ∧ (State.settlePath s p a).ident = s.ident ∧
    (State.settlePath s p a).models = s.models ∧ (State.settlePath s p a).caps = s.caps ∧
    (State.settlePath s p a).jets = s.jets ∧ (State.settlePath s p a).lanes = s.lanes ∧
    (State.settlePath s p a).ptp = s.ptp ∧ (State.settlePath s p a).ftn = s.ftn ∧
    (State.settlePath s p a).keys = s.keys ∧ (State.settlePath s p a).flt = s.flt ∧
    (State.settlePath s p a).mgt = s.mgt ∧ (State.settlePath s p a).cnt = s.cnt := by
  simp [State.settlePath]

@[simp] theorem keeps_pathHoldoffElapsed (p : PortNo) (a : PathAB) (s : State) :
    (pathHoldoffElapsed p a s).pending = s.pending ∧ (pathHoldoffElapsed p a s).fresh = s.fresh ∧
    (pathHoldoffElapsed p a s).now = s.now ∧ (pathHoldoffElapsed p a s).outs = s.outs ∧
    (pathHoldoffElapsed p a s).pages = s.pages ∧ (pathHoldoffElapsed p a s).pwr = s.pwr ∧
    (pathHoldoffElapsed p a s).arb = s.arb ∧ (pathHoldoffElapsed p a s).halves = s.halves ∧
    (pathHoldoffElapsed p a s).parts = s.parts ∧ (pathHoldoffElapsed p a s).bars = s.bars ∧
    (pathHoldoffElapsed p a s).ops = s.ops ∧ (pathHoldoffElapsed p a s).ident = s.ident ∧
    (pathHoldoffElapsed p a s).models = s.models ∧ (pathHoldoffElapsed p a s).caps = s.caps ∧
    (pathHoldoffElapsed p a s).jets = s.jets ∧ (pathHoldoffElapsed p a s).lanes = s.lanes ∧
    (pathHoldoffElapsed p a s).ptp = s.ptp ∧ (pathHoldoffElapsed p a s).ftn = s.ftn ∧
    (pathHoldoffElapsed p a s).keys = s.keys ∧ (pathHoldoffElapsed p a s).flt = s.flt ∧
    (pathHoldoffElapsed p a s).mgt = s.mgt ∧ (pathHoldoffElapsed p a s).cnt = s.cnt := by
  unfold pathHoldoffElapsed; (repeat' split) <;> simp

@[simp] theorem keeps_partnerTimeout (p : PortNo) (a : PathAB) (s : State) :
    (partnerTimeout p a s).pending = s.pending ∧ (partnerTimeout p a s).fresh = s.fresh ∧
    (partnerTimeout p a s).now = s.now ∧ (partnerTimeout p a s).outs = s.outs ∧
    (partnerTimeout p a s).pages = s.pages ∧ (partnerTimeout p a s).pwr = s.pwr ∧ (partnerTimeout p a s).arb = s.arb ∧
    (partnerTimeout p a s).halves = s.halves ∧ (partnerTimeout p a s).parts = s.parts ∧
    (partnerTimeout p a s).bars = s.bars ∧ (partnerTimeout p a s).ops = s.ops ∧
    (partnerTimeout p a s).ident = s.ident ∧ (partnerTimeout p a s).models = s.models ∧
    (partnerTimeout p a s).caps = s.caps ∧ (partnerTimeout p a s).jets = s.jets ∧
    (partnerTimeout p a s).lanes = s.lanes ∧ (partnerTimeout p a s).ptp = s.ptp ∧ (partnerTimeout p a s).ftn = s.ftn ∧
    (partnerTimeout p a s).keys = s.keys ∧ (partnerTimeout p a s).flt = s.flt ∧ (partnerTimeout p a s).mgt = s.mgt ∧
    (partnerTimeout p a s).cnt = s.cnt := by
  simp [partnerTimeout]

@[simp] theorem keeps_pathSwitch (p : PortNo) (s : State) :
    (pathSwitch p s).pending = s.pending ∧ (pathSwitch p s).fresh = s.fresh ∧ (pathSwitch p s).now = s.now ∧
    (pathSwitch p s).pwr = s.pwr ∧ (pathSwitch p s).arb = s.arb ∧ (pathSwitch p s).halves = s.halves ∧
    (pathSwitch p s).parts = s.parts ∧ (pathSwitch p s).ops = s.ops ∧ (pathSwitch p s).ident = s.ident ∧
    (pathSwitch p s).models = s.models ∧ (pathSwitch p s).caps = s.caps ∧ (pathSwitch p s).jets = s.jets ∧
    (pathSwitch p s).lanes = s.lanes ∧ (pathSwitch p s).ptp = s.ptp ∧ (pathSwitch p s).ftn = s.ftn ∧
    (pathSwitch p s).keys = s.keys ∧ (pathSwitch p s).flt = s.flt ∧ (pathSwitch p s).mgt = s.mgt ∧
    (∀ rp ro, regOf (pathSwitch p s).pages rp ro = regOf s.pages rp ro) := by
  unfold pathSwitch; (repeat' split) <;> simp

@[simp] theorem keeps_loseSlot (s : State) (n : SlotNo) :
    (State.loseSlot s n).pending = s.pending ∧ (State.loseSlot s n).fresh = s.fresh ∧
    (State.loseSlot s n).now = s.now ∧ (State.loseSlot s n).outs = s.outs ∧ (State.loseSlot s n).pages = s.pages ∧
    (State.loseSlot s n).pwr = s.pwr ∧ (State.loseSlot s n).arb = s.arb ∧ (State.loseSlot s n).parts = s.parts ∧
    (State.loseSlot s n).bars = s.bars ∧ (State.loseSlot s n).ops = s.ops ∧ (State.loseSlot s n).ident = s.ident ∧
    (State.loseSlot s n).models = s.models ∧ (State.loseSlot s n).caps = s.caps ∧ (State.loseSlot s n).jets = s.jets ∧
    (State.loseSlot s n).lanes = s.lanes ∧ (State.loseSlot s n).ports = s.ports ∧ (State.loseSlot s n).ptp = s.ptp ∧
    (State.loseSlot s n).ftn = s.ftn ∧ (State.loseSlot s n).keys = s.keys ∧ (State.loseSlot s n).flt = s.flt ∧
    (State.loseSlot s n).mgt = s.mgt ∧ (State.loseSlot s n).cnt = s.cnt := by
  simp [State.loseSlot]

@[simp] theorem keeps_lanesDown (s : State) (p : PortNo) (a : PathAB) :
    (State.lanesDown s p a).pending = s.pending ∧ (State.lanesDown s p a).now = s.now ∧
    (State.lanesDown s p a).pwr = s.pwr ∧ (State.lanesDown s p a).arb = s.arb ∧
    (State.lanesDown s p a).halves = s.halves ∧ (State.lanesDown s p a).parts = s.parts ∧
    (State.lanesDown s p a).ops = s.ops ∧ (State.lanesDown s p a).ident = s.ident ∧
    (State.lanesDown s p a).models = s.models ∧ (State.lanesDown s p a).caps = s.caps ∧
    (State.lanesDown s p a).jets = s.jets ∧ (State.lanesDown s p a).ports = s.ports ∧
    (State.lanesDown s p a).ptp = s.ptp ∧ (State.lanesDown s p a).ftn = s.ftn ∧
    (State.lanesDown s p a).keys = s.keys ∧ (State.lanesDown s p a).flt = s.flt ∧
    (State.lanesDown s p a).mgt = s.mgt ∧ (∀ rp ro, regOf (State.lanesDown s p a).pages rp ro = regOf s.pages rp ro) := by
  simp [State.lanesDown]

@[simp] theorem keeps_dropLink (s : State) (p : PortNo) (a : PathAB) :
    (State.dropLink s p a).pending = s.pending ∧ (State.dropLink s p a).fresh = s.fresh ∧
    (State.dropLink s p a).now = s.now ∧ (State.dropLink s p a).pwr = s.pwr ∧ (State.dropLink s p a).arb = s.arb ∧
    (State.dropLink s p a).parts = s.parts ∧ (State.dropLink s p a).ops = s.ops ∧
    (State.dropLink s p a).ident = s.ident ∧ (State.dropLink s p a).models = s.models ∧
    (State.dropLink s p a).caps = s.caps ∧ (State.dropLink s p a).jets = s.jets ∧
    (State.dropLink s p a).lanes = s.lanes ∧ (State.dropLink s p a).ptp = s.ptp ∧ (State.dropLink s p a).ftn = s.ftn ∧
    (State.dropLink s p a).keys = s.keys ∧ (State.dropLink s p a).flt = s.flt ∧ (State.dropLink s p a).mgt = s.mgt ∧
    (∀ rp ro, regOf (State.dropLink s p a).pages rp ro = regOf s.pages rp ro) := by
  simp [State.dropLink]

@[simp] theorem keeps_linkDown (p : PortNo) (a : PathAB) (s : State) :
    (linkDown p a s).pending = s.pending ∧ (linkDown p a s).now = s.now ∧ (linkDown p a s).pwr = s.pwr ∧
    (linkDown p a s).arb = s.arb ∧ (linkDown p a s).parts = s.parts ∧ (linkDown p a s).ops = s.ops ∧
    (linkDown p a s).ident = s.ident ∧ (linkDown p a s).models = s.models ∧ (linkDown p a s).caps = s.caps ∧
    (linkDown p a s).jets = s.jets ∧ (linkDown p a s).ptp = s.ptp ∧ (linkDown p a s).ftn = s.ftn ∧
    (linkDown p a s).keys = s.keys ∧ (linkDown p a s).flt = s.flt ∧ (linkDown p a s).mgt = s.mgt ∧
    (∀ rp ro, regOf (linkDown p a s).pages rp ro = regOf s.pages rp ro) := by
  simp [linkDown]

@[simp] theorem keeps_portLinkUp (p : PortNo) (a : PathAB) (s : State) :
    (portLinkUp p a s).pending = s.pending ∧ (portLinkUp p a s).now = s.now ∧ (portLinkUp p a s).pwr = s.pwr ∧
    (portLinkUp p a s).arb = s.arb ∧ (portLinkUp p a s).halves = s.halves ∧ (portLinkUp p a s).parts = s.parts ∧
    (portLinkUp p a s).ops = s.ops ∧ (portLinkUp p a s).ident = s.ident ∧ (portLinkUp p a s).models = s.models ∧
    (portLinkUp p a s).caps = s.caps ∧ (portLinkUp p a s).jets = s.jets ∧ (portLinkUp p a s).ptp = s.ptp ∧
    (portLinkUp p a s).ftn = s.ftn ∧ (portLinkUp p a s).keys = s.keys ∧ (portLinkUp p a s).flt = s.flt ∧
    (portLinkUp p a s).mgt = s.mgt ∧ (∀ rp ro, regOf (portLinkUp p a s).pages rp ro = regOf s.pages rp ro) := by
  unfold portLinkUp
  split
  · dsimp only
    simp [apply_ite Prod.snd]
  · simp

@[simp] theorem keeps_finishSend (f : HostFrame) (discarded : Bool) (res : Vector Word 6) (s : State) :
    (finishSend f discarded res s).pending = s.pending ∧ (finishSend f discarded res s).fresh = s.fresh ∧
    (finishSend f discarded res s).now = s.now ∧ (finishSend f discarded res s).pwr = s.pwr ∧
    (finishSend f discarded res s).arb = s.arb ∧ (finishSend f discarded res s).halves = s.halves ∧
    (finishSend f discarded res s).ident = s.ident ∧ (finishSend f discarded res s).models = s.models ∧
    (finishSend f discarded res s).caps = s.caps ∧ (finishSend f discarded res s).jets = s.jets ∧
    (finishSend f discarded res s).lanes = s.lanes ∧ (finishSend f discarded res s).ports = s.ports ∧
    (finishSend f discarded res s).ptp = s.ptp ∧ (finishSend f discarded res s).ftn = s.ftn ∧
    (finishSend f discarded res s).keys = s.keys ∧ (finishSend f discarded res s).flt = s.flt ∧
    (finishSend f discarded res s).mgt = s.mgt ∧
    (∀ rp ro, regOf (finishSend f discarded res s).pages rp ro = regOf s.pages rp ro) := by
  unfold finishSend; (repeat' split) <;> simp

@[simp] theorem keeps_discardFrames (s : State) (p : PortNo) (which : HostFrame → Bool) :
    (State.discardFrames s p which).pending = s.pending ∧ (State.discardFrames s p which).fresh = s.fresh ∧
    (State.discardFrames s p which).now = s.now ∧ (State.discardFrames s p which).pwr = s.pwr ∧
    (State.discardFrames s p which).arb = s.arb ∧ (State.discardFrames s p which).halves = s.halves ∧
    (State.discardFrames s p which).ident = s.ident ∧ (State.discardFrames s p which).models = s.models ∧
    (State.discardFrames s p which).caps = s.caps ∧ (State.discardFrames s p which).jets = s.jets ∧
    (State.discardFrames s p which).lanes = s.lanes ∧ (State.discardFrames s p which).ptp = s.ptp ∧
    (State.discardFrames s p which).ftn = s.ftn ∧ (State.discardFrames s p which).keys = s.keys ∧
    (State.discardFrames s p which).flt = s.flt ∧ (State.discardFrames s p which).mgt = s.mgt ∧
    (∀ rp ro, regOf (State.discardFrames s p which).pages rp ro = regOf s.pages rp ro) := by
  simp [State.discardFrames]

@[simp] theorem keeps_dropTagged (t : Tag) (s : State) :
    (dropTagged t s).pending = s.pending ∧ (dropTagged t s).fresh = s.fresh ∧ (dropTagged t s).now = s.now ∧
    (dropTagged t s).outs = s.outs ∧ (dropTagged t s).pages = s.pages ∧ (dropTagged t s).pwr = s.pwr ∧
    (dropTagged t s).arb = s.arb ∧ (dropTagged t s).halves = s.halves ∧ (dropTagged t s).parts = s.parts ∧
    (dropTagged t s).bars = s.bars ∧ (dropTagged t s).ops = s.ops ∧ (dropTagged t s).ident = s.ident ∧
    (dropTagged t s).models = s.models ∧ (dropTagged t s).caps = s.caps ∧ (dropTagged t s).jets = s.jets ∧
    (dropTagged t s).lanes = s.lanes ∧ (dropTagged t s).ptp = s.ptp ∧ (dropTagged t s).ftn = s.ftn ∧
    (dropTagged t s).keys = s.keys ∧ (dropTagged t s).flt = s.flt ∧ (dropTagged t s).mgt = s.mgt ∧
    (dropTagged t s).cnt = s.cnt := by
  simp [dropTagged]

@[simp] theorem keeps_abortSends (p : PortNo) (st : Byte) (s : State) :
    (abortSends p st s).pending = s.pending ∧ (abortSends p st s).fresh = s.fresh ∧ (abortSends p st s).now = s.now ∧
    (abortSends p st s).pwr = s.pwr ∧ (abortSends p st s).arb = s.arb ∧ (abortSends p st s).halves = s.halves ∧
    (abortSends p st s).ident = s.ident ∧ (abortSends p st s).models = s.models ∧ (abortSends p st s).caps = s.caps ∧
    (abortSends p st s).jets = s.jets ∧ (abortSends p st s).lanes = s.lanes ∧ (abortSends p st s).ptp = s.ptp ∧
    (abortSends p st s).ftn = s.ftn ∧ (abortSends p st s).keys = s.keys ∧ (abortSends p st s).flt = s.flt ∧
    (abortSends p st s).mgt = s.mgt ∧ (∀ rp ro, regOf (abortSends p st s).pages rp ro = regOf s.pages rp ro) := by
  simp [abortSends]

@[simp] theorem keeps_retrySends (s : State) (p : PortNo) (which : HostFrame → Bool) :
    (State.retrySends s p which).pending = s.pending ∧ (State.retrySends s p which).fresh = s.fresh ∧
    (State.retrySends s p which).now = s.now ∧ (State.retrySends s p which).pwr = s.pwr ∧
    (State.retrySends s p which).arb = s.arb ∧ (State.retrySends s p which).halves = s.halves ∧
    (State.retrySends s p which).ident = s.ident ∧ (State.retrySends s p which).models = s.models ∧
    (State.retrySends s p which).caps = s.caps ∧ (State.retrySends s p which).jets = s.jets ∧
    (State.retrySends s p which).lanes = s.lanes ∧ (State.retrySends s p which).ptp = s.ptp ∧
    (State.retrySends s p which).ftn = s.ftn ∧ (State.retrySends s p which).keys = s.keys ∧
    (State.retrySends s p which).flt = s.flt ∧ (State.retrySends s p which).mgt = s.mgt ∧
    (∀ rp ro, regOf (State.retrySends s p which).pages rp ro = regOf s.pages rp ro) := by
  simp [State.retrySends]

@[simp] theorem keeps_opPtpSend (t : Tag) (frame : HostRead) (s : State) :
    (opPtpSend t frame s).pending = s.pending ∧ (opPtpSend t frame s).fresh = s.fresh ∧
    (opPtpSend t frame s).now = s.now ∧ (opPtpSend t frame s).pwr = s.pwr ∧ (opPtpSend t frame s).arb = s.arb ∧
    (opPtpSend t frame s).halves = s.halves ∧ (opPtpSend t frame s).ident = s.ident ∧
    (opPtpSend t frame s).models = s.models ∧ (opPtpSend t frame s).caps = s.caps ∧
    (opPtpSend t frame s).jets = s.jets ∧ (opPtpSend t frame s).lanes = s.lanes ∧ (opPtpSend t frame s).ptp = s.ptp ∧
    (opPtpSend t frame s).ftn = s.ftn ∧ (opPtpSend t frame s).keys = s.keys ∧ (opPtpSend t frame s).flt = s.flt ∧
    (opPtpSend t frame s).mgt = s.mgt ∧ (∀ rp ro, regOf (opPtpSend t frame s).pages rp ro = regOf s.pages rp ro) := by
  unfold opPtpSend; (repeat' split) <;> simp

@[simp] theorem keeps_hostLeaves (p : PortNo) (a : PathAB) (idx sub fec : Nat) (discarded : Bool) (s : State) :
    (hostLeaves p a idx sub fec discarded s).pending = s.pending ∧
    (hostLeaves p a idx sub fec discarded s).now = s.now ∧ (hostLeaves p a idx sub fec discarded s).pwr = s.pwr ∧
    (hostLeaves p a idx sub fec discarded s).arb = s.arb ∧
    (hostLeaves p a idx sub fec discarded s).halves = s.halves ∧
    (hostLeaves p a idx sub fec discarded s).ident = s.ident ∧
    (hostLeaves p a idx sub fec discarded s).models = s.models ∧
    (hostLeaves p a idx sub fec discarded s).caps = s.caps ∧ (hostLeaves p a idx sub fec discarded s).jets = s.jets ∧
    (hostLeaves p a idx sub fec discarded s).lanes = s.lanes ∧ (hostLeaves p a idx sub fec discarded s).ptp = s.ptp ∧
    (hostLeaves p a idx sub fec discarded s).ftn = s.ftn ∧ (hostLeaves p a idx sub fec discarded s).keys = s.keys ∧
    (hostLeaves p a idx sub fec discarded s).flt = s.flt ∧ (hostLeaves p a idx sub fec discarded s).mgt = s.mgt ∧
    (∀ rp ro, regOf (hostLeaves p a idx sub fec discarded s).pages rp ro = regOf s.pages rp ro) := by
  unfold hostLeaves; (repeat' split) <;> simp

@[simp] theorem keeps_calMark (d : Dom) (n : LaneNo) (s : State) :
    (calMark d n s).pending = s.pending ∧ (calMark d n s).now = s.now ∧ (calMark d n s).pwr = s.pwr ∧
    (calMark d n s).arb = s.arb ∧ (calMark d n s).halves = s.halves ∧ (calMark d n s).parts = s.parts ∧
    (calMark d n s).ops = s.ops ∧ (calMark d n s).ident = s.ident ∧ (calMark d n s).models = s.models ∧
    (calMark d n s).caps = s.caps ∧ (calMark d n s).jets = s.jets ∧ (calMark d n s).lanes = s.lanes ∧
    (calMark d n s).ptp = s.ptp ∧ (calMark d n s).ftn = s.ftn ∧ (calMark d n s).keys = s.keys ∧
    (calMark d n s).flt = s.flt ∧ (calMark d n s).mgt = s.mgt ∧
    (∀ rp ro, regOf (calMark d n s).pages rp ro = regOf s.pages rp ro) := by
  simp [calMark]

@[simp] theorem keeps_toHost (p : PortNo) (a : PathAB) (f : RxFrame) (dst : BitVec 48) (entry : Option RingEntry) (s0 : State) :
    (toHost p a f dst entry s0).pending = s0.pending ∧ (toHost p a f dst entry s0).now = s0.now ∧
    (toHost p a f dst entry s0).pwr = s0.pwr ∧ (toHost p a f dst entry s0).arb = s0.arb ∧
    (toHost p a f dst entry s0).halves = s0.halves ∧ (toHost p a f dst entry s0).parts = s0.parts ∧
    (toHost p a f dst entry s0).ops = s0.ops ∧ (toHost p a f dst entry s0).ident = s0.ident ∧
    (toHost p a f dst entry s0).models = s0.models ∧ (toHost p a f dst entry s0).caps = s0.caps ∧
    (toHost p a f dst entry s0).jets = s0.jets ∧ (toHost p a f dst entry s0).lanes = s0.lanes ∧
    (toHost p a f dst entry s0).ptp = s0.ptp ∧ (toHost p a f dst entry s0).ftn = s0.ftn ∧
    (toHost p a f dst entry s0).keys = s0.keys ∧ (toHost p a f dst entry s0).flt = s0.flt ∧
    (toHost p a f dst entry s0).mgt = s0.mgt ∧
    (∀ rp ro, regOf (toHost p a f dst entry s0).pages rp ro = regOf s0.pages rp ro) := by
  simp only [toHost]; (repeat' split) <;> simp

@[simp] theorem keeps_qlBeat (p : PortNo) (s : State) :
    (qlBeat p s).pending = s.pending ∧ (qlBeat p s).fresh = s.fresh ∧ (qlBeat p s).now = s.now ∧
    (qlBeat p s).pwr = s.pwr ∧ (qlBeat p s).arb = s.arb ∧ (qlBeat p s).halves = s.halves ∧
    (qlBeat p s).parts = s.parts ∧ (qlBeat p s).ops = s.ops ∧ (qlBeat p s).ident = s.ident ∧
    (qlBeat p s).models = s.models ∧ (qlBeat p s).caps = s.caps ∧ (qlBeat p s).jets = s.jets ∧
    (qlBeat p s).lanes = s.lanes ∧ (qlBeat p s).ptp = s.ptp ∧ (qlBeat p s).ftn = s.ftn ∧ (qlBeat p s).keys = s.keys ∧
    (qlBeat p s).flt = s.flt ∧ (qlBeat p s).mgt = s.mgt ∧
    (∀ rp ro, regOf (qlBeat p s).pages rp ro = regOf s.pages rp ro) := by
  simp [qlBeat]

@[simp] theorem keeps_qlLost (s : State) (p : PortNo) (a : PathAB) :
    (State.qlLost s p a).pending = s.pending ∧ (State.qlLost s p a).fresh = s.fresh ∧
    (State.qlLost s p a).now = s.now ∧ (State.qlLost s p a).outs = s.outs ∧ (State.qlLost s p a).pages = s.pages ∧
    (State.qlLost s p a).pwr = s.pwr ∧ (State.qlLost s p a).arb = s.arb ∧ (State.qlLost s p a).parts = s.parts ∧
    (State.qlLost s p a).bars = s.bars ∧ (State.qlLost s p a).ops = s.ops ∧ (State.qlLost s p a).ident = s.ident ∧
    (State.qlLost s p a).models = s.models ∧ (State.qlLost s p a).caps = s.caps ∧ (State.qlLost s p a).jets = s.jets ∧
    (State.qlLost s p a).lanes = s.lanes ∧ (State.qlLost s p a).ports = s.ports ∧ (State.qlLost s p a).ptp = s.ptp ∧
    (State.qlLost s p a).ftn = s.ftn ∧ (State.qlLost s p a).keys = s.keys ∧ (State.qlLost s p a).flt = s.flt ∧
    (State.qlLost s p a).mgt = s.mgt ∧ (State.qlLost s p a).cnt = s.cnt := by
  simp [State.qlLost]

@[simp] theorem keeps_esmcPdu (p : PortNo) (a : PathAB) (pdu : EsmcPdu) (parseOk : Bool) (s : State) :
    (esmcPdu p a pdu parseOk s).pending = s.pending ∧ (esmcPdu p a pdu parseOk s).fresh = s.fresh ∧
    (esmcPdu p a pdu parseOk s).now = s.now ∧ (esmcPdu p a pdu parseOk s).pwr = s.pwr ∧
    (esmcPdu p a pdu parseOk s).arb = s.arb ∧ (esmcPdu p a pdu parseOk s).parts = s.parts ∧
    (esmcPdu p a pdu parseOk s).ops = s.ops ∧ (esmcPdu p a pdu parseOk s).ident = s.ident ∧
    (esmcPdu p a pdu parseOk s).models = s.models ∧ (esmcPdu p a pdu parseOk s).caps = s.caps ∧
    (esmcPdu p a pdu parseOk s).jets = s.jets ∧ (esmcPdu p a pdu parseOk s).lanes = s.lanes ∧
    (esmcPdu p a pdu parseOk s).ptp = s.ptp ∧ (esmcPdu p a pdu parseOk s).ftn = s.ftn ∧
    (esmcPdu p a pdu parseOk s).keys = s.keys ∧ (esmcPdu p a pdu parseOk s).flt = s.flt ∧
    (esmcPdu p a pdu parseOk s).mgt = s.mgt ∧
    (∀ rp ro, regOf (esmcPdu p a pdu parseOk s).pages rp ro = regOf s.pages rp ro) := by
  simp [esmcPdu]

@[simp] theorem keeps_esmcTo (p : PortNo) (a : PathAB) (s : State) :
    (esmcTo p a s).pending = s.pending ∧ (esmcTo p a s).fresh = s.fresh ∧ (esmcTo p a s).now = s.now ∧
    (esmcTo p a s).pwr = s.pwr ∧ (esmcTo p a s).arb = s.arb ∧ (esmcTo p a s).parts = s.parts ∧
    (esmcTo p a s).ops = s.ops ∧ (esmcTo p a s).ident = s.ident ∧ (esmcTo p a s).models = s.models ∧
    (esmcTo p a s).caps = s.caps ∧ (esmcTo p a s).jets = s.jets ∧ (esmcTo p a s).lanes = s.lanes ∧
    (esmcTo p a s).ptp = s.ptp ∧ (esmcTo p a s).ftn = s.ftn ∧ (esmcTo p a s).keys = s.keys ∧
    (esmcTo p a s).flt = s.flt ∧ (esmcTo p a s).mgt = s.mgt ∧
    (∀ rp ro, regOf (esmcTo p a s).pages rp ro = regOf s.pages rp ro) := by
  simp [esmcTo]

@[simp] theorem keeps_sendEsmc (p : PortNo) (a : PathAB) (event : Bool) (s : State) :
    (sendEsmc p a event s).pending = s.pending ∧ (sendEsmc p a event s).fresh = s.fresh ∧
    (sendEsmc p a event s).now = s.now ∧ (sendEsmc p a event s).pages = s.pages ∧ (sendEsmc p a event s).pwr = s.pwr ∧
    (sendEsmc p a event s).arb = s.arb ∧ (sendEsmc p a event s).halves = s.halves ∧
    (sendEsmc p a event s).parts = s.parts ∧ (sendEsmc p a event s).bars = s.bars ∧
    (sendEsmc p a event s).ops = s.ops ∧ (sendEsmc p a event s).ident = s.ident ∧
    (sendEsmc p a event s).models = s.models ∧ (sendEsmc p a event s).caps = s.caps ∧
    (sendEsmc p a event s).jets = s.jets ∧ (sendEsmc p a event s).lanes = s.lanes ∧
    (sendEsmc p a event s).ptp = s.ptp ∧ (sendEsmc p a event s).ftn = s.ftn ∧ (sendEsmc p a event s).keys = s.keys ∧
    (sendEsmc p a event s).flt = s.flt ∧ (sendEsmc p a event s).mgt = s.mgt := by
  simp [sendEsmc]

@[simp] theorem keeps_sendEvent (p : PortNo) (a : PathAB) (s : State) :
    (sendEvent p a s).pending = s.pending ∧ (sendEvent p a s).fresh = s.fresh ∧ (sendEvent p a s).now = s.now ∧
    (sendEvent p a s).pages = s.pages ∧ (sendEvent p a s).pwr = s.pwr ∧ (sendEvent p a s).arb = s.arb ∧
    (sendEvent p a s).halves = s.halves ∧ (sendEvent p a s).parts = s.parts ∧ (sendEvent p a s).bars = s.bars ∧
    (sendEvent p a s).ops = s.ops ∧ (sendEvent p a s).ident = s.ident ∧ (sendEvent p a s).models = s.models ∧
    (sendEvent p a s).caps = s.caps ∧ (sendEvent p a s).jets = s.jets ∧ (sendEvent p a s).lanes = s.lanes ∧
    (sendEvent p a s).ptp = s.ptp ∧ (sendEvent p a s).ftn = s.ftn ∧ (sendEvent p a s).keys = s.keys ∧
    (sendEvent p a s).flt = s.flt ∧ (sendEvent p a s).mgt = s.mgt := by
  simp [sendEvent]

@[simp] theorem keeps_signalPresent (h : Half) (n : SlotNo) (s : State) :
    (signalPresent h n s).pending = s.pending ∧ (signalPresent h n s).fresh = s.fresh ∧
    (signalPresent h n s).now = s.now ∧ (signalPresent h n s).outs = s.outs ∧ (signalPresent h n s).pages = s.pages ∧
    (signalPresent h n s).pwr = s.pwr ∧ (signalPresent h n s).arb = s.arb ∧ (signalPresent h n s).parts = s.parts ∧
    (signalPresent h n s).bars = s.bars ∧ (signalPresent h n s).ops = s.ops ∧ (signalPresent h n s).ident = s.ident ∧
    (signalPresent h n s).models = s.models ∧ (signalPresent h n s).caps = s.caps ∧
    (signalPresent h n s).jets = s.jets ∧ (signalPresent h n s).lanes = s.lanes ∧
    (signalPresent h n s).ports = s.ports ∧ (signalPresent h n s).ptp = s.ptp ∧ (signalPresent h n s).ftn = s.ftn ∧
    (signalPresent h n s).keys = s.keys ∧ (signalPresent h n s).flt = s.flt ∧ (signalPresent h n s).mgt = s.mgt ∧
    (signalPresent h n s).cnt = s.cnt := by
  simp [signalPresent]

@[simp] theorem keeps_bwWindow (p : PortNo) (s : State) :
    (bwWindow p s).pending = s.pending ∧ (bwWindow p s).fresh = s.fresh ∧ (bwWindow p s).now = s.now ∧
    (bwWindow p s).pwr = s.pwr ∧ (bwWindow p s).arb = s.arb ∧ (bwWindow p s).halves = s.halves ∧
    (bwWindow p s).parts = s.parts ∧ (bwWindow p s).ops = s.ops ∧ (bwWindow p s).ident = s.ident ∧
    (bwWindow p s).models = s.models ∧ (bwWindow p s).caps = s.caps ∧ (bwWindow p s).jets = s.jets ∧
    (bwWindow p s).lanes = s.lanes ∧ (bwWindow p s).ptp = s.ptp ∧ (bwWindow p s).ftn = s.ftn ∧
    (bwWindow p s).keys = s.keys ∧ (bwWindow p s).flt = s.flt ∧ (bwWindow p s).mgt = s.mgt ∧
    (∀ rp ro, regOf (bwWindow p s).pages rp ro = regOf s.pages rp ro) := by
  simp [bwWindow]

@[simp] theorem keeps_hiBer (n : LaneNo) (s : State) :
    (hiBer n s).pending = s.pending ∧ (hiBer n s).fresh = s.fresh ∧ (hiBer n s).now = s.now ∧
    (hiBer n s).pwr = s.pwr ∧ (hiBer n s).arb = s.arb ∧ (hiBer n s).halves = s.halves ∧ (hiBer n s).parts = s.parts ∧
    (hiBer n s).ops = s.ops ∧ (hiBer n s).ident = s.ident ∧ (hiBer n s).models = s.models ∧
    (hiBer n s).caps = s.caps ∧ (hiBer n s).jets = s.jets ∧ (hiBer n s).ports = s.ports ∧ (hiBer n s).ptp = s.ptp ∧
    (hiBer n s).ftn = s.ftn ∧ (hiBer n s).keys = s.keys ∧ (hiBer n s).flt = s.flt ∧ (hiBer n s).mgt = s.mgt ∧
    (∀ rp ro, regOf (hiBer n s).pages rp ro = regOf s.pages rp ro) := by
  simp [hiBer]

@[simp] theorem keeps_stopPort (p : PortNo) (s : State) :
    (stopPort p s).pending = s.pending ∧ (stopPort p s).fresh = s.fresh ∧ (stopPort p s).now = s.now ∧
    (stopPort p s).pwr = s.pwr ∧ (stopPort p s).arb = s.arb ∧ (stopPort p s).ident = s.ident ∧
    (stopPort p s).models = s.models ∧ (stopPort p s).caps = s.caps ∧ (stopPort p s).jets = s.jets ∧
    (stopPort p s).lanes = s.lanes ∧ (stopPort p s).ptp = s.ptp ∧ (stopPort p s).ftn = s.ftn ∧
    (stopPort p s).keys = s.keys ∧ (stopPort p s).flt = s.flt ∧ (stopPort p s).mgt = s.mgt ∧
    (∀ rp ro, regOf (stopPort p s).pages rp ro = regOf s.pages rp ro) := by
  simp [stopPort]

@[simp] theorem keeps_settleConflicts (s : State) :
    (settleConflicts s).pending = s.pending ∧ (settleConflicts s).fresh = s.fresh ∧ (settleConflicts s).now = s.now ∧
    (settleConflicts s).pwr = s.pwr ∧ (settleConflicts s).arb = s.arb ∧ (settleConflicts s).ident = s.ident ∧
    (settleConflicts s).models = s.models ∧ (settleConflicts s).caps = s.caps ∧ (settleConflicts s).jets = s.jets ∧
    (settleConflicts s).lanes = s.lanes ∧ (settleConflicts s).ptp = s.ptp ∧ (settleConflicts s).ftn = s.ftn ∧
    (settleConflicts s).keys = s.keys ∧ (settleConflicts s).flt = s.flt ∧ (settleConflicts s).mgt = s.mgt ∧
    (∀ rp ro, regOf (settleConflicts s).pages rp ro = regOf s.pages rp ro) := by
  simp [settleConflicts]

@[simp] theorem keeps_settleLane (n : LaneNo) (s : State) :
    (settleLane n s).pending = s.pending ∧ (settleLane n s).fresh = s.fresh ∧ (settleLane n s).now = s.now ∧
    (settleLane n s).outs = s.outs ∧ (settleLane n s).pwr = s.pwr ∧ (settleLane n s).arb = s.arb ∧
    (settleLane n s).halves = s.halves ∧ (settleLane n s).parts = s.parts ∧ (settleLane n s).bars = s.bars ∧
    (settleLane n s).ops = s.ops ∧ (settleLane n s).ident = s.ident ∧ (settleLane n s).models = s.models ∧
    (settleLane n s).caps = s.caps ∧ (settleLane n s).jets = s.jets ∧ (settleLane n s).ports = s.ports ∧
    (settleLane n s).ptp = s.ptp ∧ (settleLane n s).ftn = s.ftn ∧ (settleLane n s).keys = s.keys ∧
    (settleLane n s).flt = s.flt ∧ (settleLane n s).mgt = s.mgt ∧ (settleLane n s).cnt = s.cnt := by
  unfold settleLane; (repeat' split) <;> simp

@[simp] theorem keeps_settleLanes (s : State) :
    (settleLanes s).pending = s.pending ∧ (settleLanes s).fresh = s.fresh ∧ (settleLanes s).now = s.now ∧
    (settleLanes s).outs = s.outs ∧ (settleLanes s).pwr = s.pwr ∧ (settleLanes s).arb = s.arb ∧
    (settleLanes s).halves = s.halves ∧ (settleLanes s).parts = s.parts ∧ (settleLanes s).bars = s.bars ∧
    (settleLanes s).ops = s.ops ∧ (settleLanes s).ident = s.ident ∧ (settleLanes s).models = s.models ∧
    (settleLanes s).caps = s.caps ∧ (settleLanes s).jets = s.jets ∧ (settleLanes s).ports = s.ports ∧
    (settleLanes s).ptp = s.ptp ∧ (settleLanes s).ftn = s.ftn ∧ (settleLanes s).keys = s.keys ∧
    (settleLanes s).flt = s.flt ∧ (settleLanes s).mgt = s.mgt ∧ (settleLanes s).cnt = s.cnt := by
  simp [settleLanes]

@[simp] theorem keeps_settlePorts (s : State) :
    (settlePorts s).pending = s.pending ∧ (settlePorts s).fresh = s.fresh ∧ (settlePorts s).now = s.now ∧
    (settlePorts s).pwr = s.pwr ∧ (settlePorts s).arb = s.arb ∧ (settlePorts s).ident = s.ident ∧
    (settlePorts s).models = s.models ∧ (settlePorts s).caps = s.caps ∧ (settlePorts s).jets = s.jets ∧
    (settlePorts s).ptp = s.ptp ∧ (settlePorts s).ftn = s.ftn ∧ (settlePorts s).keys = s.keys ∧
    (settlePorts s).flt = s.flt ∧ (settlePorts s).mgt = s.mgt := by
  simp [settlePorts]

@[simp] theorem keeps_portsOff (s : State) :
    (portsOff s).pending = s.pending ∧ (portsOff s).fresh = s.fresh ∧ (portsOff s).now = s.now ∧
    (portsOff s).pwr = s.pwr ∧ (portsOff s).arb = s.arb ∧ (portsOff s).ident = s.ident ∧
    (portsOff s).models = s.models ∧ (portsOff s).caps = s.caps ∧ (portsOff s).jets = s.jets ∧
    (portsOff s).lanes = s.lanes ∧ (portsOff s).ptp = s.ptp ∧ (portsOff s).ftn = s.ftn ∧ (portsOff s).keys = s.keys ∧
    (portsOff s).flt = s.flt ∧ (portsOff s).mgt = s.mgt ∧
    (∀ rp ro, regOf (portsOff s).pages rp ro = regOf s.pages rp ro) := by
  simp [portsOff]

@[simp] theorem keeps_syncChanged (p : PortNo) (old s : State) :
    (syncChanged p old s).pending = s.pending ∧ (syncChanged p old s).fresh = s.fresh ∧
    (syncChanged p old s).now = s.now ∧ (syncChanged p old s).outs = s.outs ∧ (syncChanged p old s).pages = s.pages ∧
    (syncChanged p old s).pwr = s.pwr ∧ (syncChanged p old s).arb = s.arb ∧ (syncChanged p old s).parts = s.parts ∧
    (syncChanged p old s).bars = s.bars ∧ (syncChanged p old s).ops = s.ops ∧ (syncChanged p old s).ident = s.ident ∧
    (syncChanged p old s).models = s.models ∧ (syncChanged p old s).caps = s.caps ∧
    (syncChanged p old s).jets = s.jets ∧ (syncChanged p old s).lanes = s.lanes ∧ (syncChanged p old s).ptp = s.ptp ∧
    (syncChanged p old s).ftn = s.ftn ∧ (syncChanged p old s).keys = s.keys ∧ (syncChanged p old s).flt = s.flt ∧
    (syncChanged p old s).mgt = s.mgt ∧ (syncChanged p old s).cnt = s.cnt := by
  simp [syncChanged]

@[simp] theorem keeps_withdrawPaths (p : PortNo) (s : State) :
    (withdrawPaths p s).pending = s.pending ∧ (withdrawPaths p s).fresh = s.fresh ∧ (withdrawPaths p s).now = s.now ∧
    (withdrawPaths p s).outs = s.outs ∧ (withdrawPaths p s).pages = s.pages ∧ (withdrawPaths p s).pwr = s.pwr ∧
    (withdrawPaths p s).arb = s.arb ∧ (withdrawPaths p s).halves = s.halves ∧ (withdrawPaths p s).parts = s.parts ∧
    (withdrawPaths p s).bars = s.bars ∧ (withdrawPaths p s).ops = s.ops ∧ (withdrawPaths p s).ident = s.ident ∧
    (withdrawPaths p s).models = s.models ∧ (withdrawPaths p s).caps = s.caps ∧ (withdrawPaths p s).jets = s.jets ∧
    (withdrawPaths p s).lanes = s.lanes ∧ (withdrawPaths p s).ptp = s.ptp ∧ (withdrawPaths p s).ftn = s.ftn ∧
    (withdrawPaths p s).keys = s.keys ∧ (withdrawPaths p s).flt = s.flt ∧ (withdrawPaths p s).mgt = s.mgt ∧
    (withdrawPaths p s).cnt = s.cnt := by
  simp [withdrawPaths]

@[simp] theorem keeps_portChanged (p : PortNo) (old s : State) :
    (portChanged p old s).pending = s.pending ∧ (portChanged p old s).fresh = s.fresh ∧
    (portChanged p old s).now = s.now ∧ (portChanged p old s).pwr = s.pwr ∧ (portChanged p old s).arb = s.arb ∧
    (portChanged p old s).ident = s.ident ∧ (portChanged p old s).models = s.models ∧
    (portChanged p old s).caps = s.caps ∧ (portChanged p old s).jets = s.jets ∧ (portChanged p old s).ptp = s.ptp ∧
    (portChanged p old s).ftn = s.ftn ∧ (portChanged p old s).keys = s.keys ∧ (portChanged p old s).flt = s.flt ∧
    (portChanged p old s).mgt = s.mgt := by
  simp [portChanged]

@[simp] theorem keeps_portBoundary (p : PortNo) (s : State) :
    (portBoundary p s).pending = s.pending ∧ (portBoundary p s).fresh = s.fresh ∧ (portBoundary p s).now = s.now ∧
    (portBoundary p s).pwr = s.pwr ∧ (portBoundary p s).arb = s.arb ∧ (portBoundary p s).ident = s.ident ∧
    (portBoundary p s).models = s.models ∧ (portBoundary p s).caps = s.caps ∧ (portBoundary p s).jets = s.jets ∧
    (portBoundary p s).ptp = s.ptp ∧ (portBoundary p s).ftn = s.ftn ∧ (portBoundary p s).keys = s.keys ∧
    (portBoundary p s).flt = s.flt ∧ (portBoundary p s).mgt = s.mgt := by
  simp [portBoundary]

@[simp] theorem keeps_tdcCalDetection (pt : TdcPoint) (s : State) :
    (tdcCalDetection pt s).pending = s.pending ∧ (tdcCalDetection pt s).fresh = s.fresh ∧
    (tdcCalDetection pt s).now = s.now ∧ (tdcCalDetection pt s).pwr = s.pwr ∧ (tdcCalDetection pt s).arb = s.arb ∧
    (tdcCalDetection pt s).models = s.models ∧ (tdcCalDetection pt s).caps = s.caps ∧
    (tdcCalDetection pt s).jets = s.jets ∧ (tdcCalDetection pt s).ptp = s.ptp ∧ (tdcCalDetection pt s).ftn = s.ftn ∧
    (tdcCalDetection pt s).keys = s.keys ∧ (tdcCalDetection pt s).mgt = s.mgt := by
  unfold tdcCalDetection; (repeat' split) <;> simp

@[simp] theorem keeps_portDetection (pg : PortPage) (det : Byte) (s : State) :
    (portDetection pg det s).pending = s.pending ∧ (portDetection pg det s).now = s.now ∧
    (portDetection pg det s).pwr = s.pwr ∧ (portDetection pg det s).arb = s.arb ∧
    (portDetection pg det s).models = s.models ∧ (portDetection pg det s).caps = s.caps ∧
    (portDetection pg det s).jets = s.jets ∧ (portDetection pg det s).ptp = s.ptp ∧
    (portDetection pg det s).ftn = s.ftn ∧ (portDetection pg det s).keys = s.keys ∧
    (portDetection pg det s).mgt = s.mgt := by
  simp only [portDetection]; (repeat' split) <;> simp

end Sys2Proof.Machine
end

