-- ==== Sys2Proof/Laws/KeepsEngines.lean ====
section
/-!
SUPPORT. Frame laws of the Laths, the PTP engine and the Fountain: for each operation, the fields of the state it leaves as they are. The commands' own
frames and the invariants over a step are read off these.
-/

namespace Sys2Proof.Machine

/-! ## Lath -/

@[simp] theorem keeps_standbyLineLock (h : Half) (s : State) :
    (standbyLineLock h s).pending = s.pending ∧ (standbyLineLock h s).fresh = s.fresh ∧
    (standbyLineLock h s).now = s.now ∧ (standbyLineLock h s).outs = s.outs ∧ (standbyLineLock h s).pages = s.pages ∧
    (standbyLineLock h s).pwr = s.pwr ∧ (standbyLineLock h s).arb = s.arb ∧ (standbyLineLock h s).parts = s.parts ∧
    (standbyLineLock h s).bars = s.bars ∧ (standbyLineLock h s).ops = s.ops ∧ (standbyLineLock h s).ident = s.ident ∧
    (standbyLineLock h s).models = s.models ∧ (standbyLineLock h s).caps = s.caps ∧
    (standbyLineLock h s).jets = s.jets ∧ (standbyLineLock h s).lanes = s.lanes ∧
    (standbyLineLock h s).ports = s.ports ∧ (standbyLineLock h s).ptp = s.ptp ∧ (standbyLineLock h s).ftn = s.ftn ∧
    (standbyLineLock h s).keys = s.keys ∧ (standbyLineLock h s).flt = s.flt ∧ (standbyLineLock h s).mgt = s.mgt ∧
    (standbyLineLock h s).cnt = s.cnt := by
  simp [standbyLineLock]

@[simp] theorem keeps_xoLockTimeout (h : Half) (s : State) :
    (xoLockTimeout h s).pending = s.pending ∧ (xoLockTimeout h s).fresh = s.fresh ∧ (xoLockTimeout h s).now = s.now ∧
    (xoLockTimeout h s).pwr = s.pwr ∧ (xoLockTimeout h s).arb = s.arb ∧ (xoLockTimeout h s).parts = s.parts ∧
    (xoLockTimeout h s).ops = s.ops ∧ (xoLockTimeout h s).models = s.models ∧ (xoLockTimeout h s).caps = s.caps ∧
    (xoLockTimeout h s).jets = s.jets ∧ (xoLockTimeout h s).lanes = s.lanes ∧ (xoLockTimeout h s).ports = s.ports ∧
    (xoLockTimeout h s).ptp = s.ptp ∧ (xoLockTimeout h s).ftn = s.ftn ∧ (xoLockTimeout h s).keys = s.keys ∧
    (∀ rp ro, regOf (xoLockTimeout h s).pages rp ro = regOf s.pages rp ro) := by
  simp [xoLockTimeout]

@[simp] theorem keeps_moscClassify (h : Half) (hz : Nat) (s : State) :
    (moscClassify h hz s).pending = s.pending ∧ (moscClassify h hz s).fresh = s.fresh ∧
    (moscClassify h hz s).now = s.now ∧ (moscClassify h hz s).outs = s.outs ∧ (moscClassify h hz s).pages = s.pages ∧
    (moscClassify h hz s).pwr = s.pwr ∧ (moscClassify h hz s).arb = s.arb ∧ (moscClassify h hz s).parts = s.parts ∧
    (moscClassify h hz s).bars = s.bars ∧ (moscClassify h hz s).ops = s.ops ∧ (moscClassify h hz s).ident = s.ident ∧
    (moscClassify h hz s).models = s.models ∧ (moscClassify h hz s).caps = s.caps ∧
    (moscClassify h hz s).jets = s.jets ∧ (moscClassify h hz s).lanes = s.lanes ∧
    (moscClassify h hz s).ports = s.ports ∧ (moscClassify h hz s).ptp = s.ptp ∧ (moscClassify h hz s).ftn = s.ftn ∧
    (moscClassify h hz s).keys = s.keys ∧ (moscClassify h hz s).flt = s.flt ∧ (moscClassify h hz s).mgt = s.mgt ∧
    (moscClassify h hz s).cnt = s.cnt := by
  simp [moscClassify]

@[simp] theorem keeps_moscReclassify (h : Half) (hz : Nat) (s : State) :
    (moscReclassify h hz s).pending = s.pending ∧ (moscReclassify h hz s).fresh = s.fresh ∧
    (moscReclassify h hz s).now = s.now ∧ (moscReclassify h hz s).outs = s.outs ∧
    (moscReclassify h hz s).pages = s.pages ∧ (moscReclassify h hz s).pwr = s.pwr ∧
    (moscReclassify h hz s).arb = s.arb ∧ (moscReclassify h hz s).parts = s.parts ∧
    (moscReclassify h hz s).bars = s.bars ∧ (moscReclassify h hz s).ops = s.ops ∧
    (moscReclassify h hz s).ident = s.ident ∧ (moscReclassify h hz s).models = s.models ∧
    (moscReclassify h hz s).caps = s.caps ∧ (moscReclassify h hz s).jets = s.jets ∧
    (moscReclassify h hz s).lanes = s.lanes ∧ (moscReclassify h hz s).ports = s.ports ∧
    (moscReclassify h hz s).ptp = s.ptp ∧ (moscReclassify h hz s).ftn = s.ftn ∧
    (moscReclassify h hz s).keys = s.keys ∧ (moscReclassify h hz s).flt = s.flt ∧
    (moscReclassify h hz s).mgt = s.mgt ∧ (moscReclassify h hz s).cnt = s.cnt := by
  simp [moscReclassify]

@[simp] theorem keeps_primaryLineLock (h : Half) (s : State) :
    (primaryLineLock h s).pending = s.pending ∧ (primaryLineLock h s).now = s.now ∧
    (primaryLineLock h s).outs = s.outs ∧ (primaryLineLock h s).pages = s.pages ∧ (primaryLineLock h s).pwr = s.pwr ∧
    (primaryLineLock h s).arb = s.arb ∧ (primaryLineLock h s).parts = s.parts ∧ (primaryLineLock h s).bars = s.bars ∧
    (primaryLineLock h s).ops = s.ops ∧ (primaryLineLock h s).ident = s.ident ∧
    (primaryLineLock h s).models = s.models ∧ (primaryLineLock h s).caps = s.caps ∧
    (primaryLineLock h s).jets = s.jets ∧ (primaryLineLock h s).lanes = s.lanes ∧
    (primaryLineLock h s).ports = s.ports ∧ (primaryLineLock h s).ptp = s.ptp ∧ (primaryLineLock h s).ftn = s.ftn ∧
    (primaryLineLock h s).keys = s.keys ∧ (primaryLineLock h s).flt = s.flt ∧ (primaryLineLock h s).mgt = s.mgt ∧
    (primaryLineLock h s).cnt = s.cnt := by
  simp only [primaryLineLock]; (repeat' split) <;> simp

@[simp] theorem keeps_newHalf (s : State) (h : Half) :
    (newHalf s h).pending = s.pending ∧ (newHalf s h).fresh = s.fresh ∧ (newHalf s h).now = s.now ∧
    (newHalf s h).outs = s.outs ∧ (newHalf s h).pages = s.pages ∧ (newHalf s h).pwr = s.pwr ∧
    (newHalf s h).arb = s.arb ∧ (newHalf s h).parts = s.parts ∧ (newHalf s h).bars = s.bars ∧
    (newHalf s h).ops = s.ops ∧ (newHalf s h).ident = s.ident ∧ (newHalf s h).models = s.models ∧
    (newHalf s h).caps = s.caps ∧ (newHalf s h).jets = s.jets ∧ (newHalf s h).lanes = s.lanes ∧
    (newHalf s h).ports = s.ports ∧ (newHalf s h).ptp = s.ptp ∧ (newHalf s h).ftn = s.ftn ∧
    (newHalf s h).keys = s.keys ∧ (newHalf s h).flt = s.flt ∧ (newHalf s h).mgt = s.mgt ∧ (newHalf s h).cnt = s.cnt := by
  simp [newHalf]

@[simp] theorem keeps_newSequence (s : State) :
    (State.newSequence s).pending = s.pending ∧ (State.newSequence s).now = s.now ∧
    (State.newSequence s).pwr = s.pwr ∧ (State.newSequence s).halves = s.halves ∧
    (State.newSequence s).ident = s.ident ∧ (State.newSequence s).models = s.models ∧
    (State.newSequence s).jets = s.jets ∧ (State.newSequence s).lanes = s.lanes ∧
    (State.newSequence s).ports = s.ports ∧ (State.newSequence s).ptp = s.ptp ∧ (State.newSequence s).ftn = s.ftn ∧
    (State.newSequence s).keys = s.keys ∧ (State.newSequence s).flt = s.flt ∧ (State.newSequence s).mgt = s.mgt ∧
    (∀ rp ro, regOf (State.newSequence s).pages rp ro = regOf s.pages rp ro) := by
  simp [State.newSequence]

@[simp] theorem keeps_freshStart (s : State) (h : Half) :
    (freshStart s h).pending = s.pending ∧ (freshStart s h).now = s.now ∧ (freshStart s h).pwr = s.pwr ∧
    (freshStart s h).ident = s.ident ∧ (freshStart s h).models = s.models ∧ (freshStart s h).lanes = s.lanes ∧
    (freshStart s h).ports = s.ports ∧ (freshStart s h).ptp = s.ptp ∧ (freshStart s h).ftn = s.ftn ∧
    (freshStart s h).keys = s.keys ∧ (freshStart s h).flt = s.flt ∧ (freshStart s h).mgt = s.mgt ∧
    (∀ rp ro, regOf (freshStart s h).pages rp ro = regOf s.pages rp ro) := by
  simp [freshStart]

@[simp] theorem keeps_restartHalf (s : State) (h : Half) :
    (restartHalf s h).pending = s.pending ∧ (restartHalf s h).now = s.now ∧ (restartHalf s h).pwr = s.pwr ∧
    (restartHalf s h).ident = s.ident ∧ (restartHalf s h).models = s.models ∧ (restartHalf s h).jets = s.jets ∧
    (restartHalf s h).lanes = s.lanes ∧ (restartHalf s h).ports = s.ports ∧ (restartHalf s h).ftn = s.ftn ∧
    (restartHalf s h).keys = s.keys ∧ (restartHalf s h).flt = s.flt ∧ (restartHalf s h).mgt = s.mgt ∧
    (∀ rp ro, regOf (restartHalf s h).pages rp ro = regOf s.pages rp ro) := by
  simp [restartHalf]

@[simp] theorem keeps_lockRole (s : State) (h : Half) :
    (lockRole s h).pending = s.pending ∧ (lockRole s h).now = s.now ∧ (lockRole s h).pwr = s.pwr ∧
    (lockRole s h).ident = s.ident ∧ (lockRole s h).models = s.models ∧ (lockRole s h).lanes = s.lanes ∧
    (lockRole s h).ports = s.ports ∧ (lockRole s h).ptp = s.ptp ∧ (lockRole s h).ftn = s.ftn ∧
    (lockRole s h).keys = s.keys ∧ (lockRole s h).flt = s.flt ∧ (lockRole s h).mgt = s.mgt ∧
    (∀ rp ro, regOf (lockRole s h).pages rp ro = regOf s.pages rp ro) := by
  simp [lockRole]

@[simp] theorem keeps_commonClock (s : State) (h : Half) :
    (State.commonClock s h).pending = s.pending ∧ (State.commonClock s h).fresh = s.fresh ∧
    (State.commonClock s h).now = s.now ∧ (State.commonClock s h).ident = s.ident ∧
    (State.commonClock s h).models = s.models ∧ (State.commonClock s h).caps = s.caps ∧
    (State.commonClock s h).ptp = s.ptp ∧ (State.commonClock s h).ftn = s.ftn ∧
    (State.commonClock s h).keys = s.keys ∧ (State.commonClock s h).flt = s.flt ∧
    (State.commonClock s h).mgt = s.mgt := by
  simp [State.commonClock]

@[simp] theorem keeps_lathLock (h : Half) (s : State) :
    (lathLock h s).pending = s.pending ∧ (lathLock h s).now = s.now ∧ (lathLock h s).ident = s.ident ∧
    (lathLock h s).models = s.models ∧ (lathLock h s).ptp = s.ptp ∧ (lathLock h s).ftn = s.ftn ∧
    (lathLock h s).keys = s.keys ∧ (lathLock h s).flt = s.flt ∧ (lathLock h s).mgt = s.mgt := by
  simp [lathLock]

@[simp] theorem keeps_lathAcquireRetry (h : Half) (s : State) :
    (lathAcquireRetry h s).pending = s.pending ∧ (lathAcquireRetry h s).fresh = s.fresh ∧
    (lathAcquireRetry h s).now = s.now ∧ (lathAcquireRetry h s).outs = s.outs ∧ (lathAcquireRetry h s).pwr = s.pwr ∧
    (lathAcquireRetry h s).arb = s.arb ∧ (lathAcquireRetry h s).parts = s.parts ∧
    (lathAcquireRetry h s).bars = s.bars ∧ (lathAcquireRetry h s).ops = s.ops ∧
    (lathAcquireRetry h s).models = s.models ∧ (lathAcquireRetry h s).caps = s.caps ∧
    (lathAcquireRetry h s).jets = s.jets ∧ (lathAcquireRetry h s).lanes = s.lanes ∧
    (lathAcquireRetry h s).ports = s.ports ∧ (lathAcquireRetry h s).ptp = s.ptp ∧ (lathAcquireRetry h s).ftn = s.ftn ∧
    (lathAcquireRetry h s).keys = s.keys ∧ (lathAcquireRetry h s).mgt = s.mgt ∧
    (∀ rp ro, regOf (lathAcquireRetry h s).pages rp ro = regOf s.pages rp ro) := by
  simp [lathAcquireRetry]

@[simp] theorem keeps_lathFail (h : Half) (s : State) :
    (lathFail h s).pending = s.pending ∧ (lathFail h s).fresh = s.fresh ∧ (lathFail h s).now = s.now ∧
    (lathFail h s).pwr = s.pwr ∧ (lathFail h s).arb = s.arb ∧ (lathFail h s).parts = s.parts ∧
    (lathFail h s).ops = s.ops ∧ (lathFail h s).models = s.models ∧ (lathFail h s).caps = s.caps ∧
    (lathFail h s).jets = s.jets ∧ (lathFail h s).lanes = s.lanes ∧ (lathFail h s).ports = s.ports ∧
    (lathFail h s).ptp = s.ptp ∧ (lathFail h s).ftn = s.ftn ∧ (lathFail h s).keys = s.keys ∧
    (∀ rp ro, regOf (lathFail h s).pages rp ro = regOf s.pages rp ro) := by
  simp [lathFail]

@[simp] theorem keeps_afterLoss (h : Half) (l : Lath) (s : State) :
    (afterLoss h l s).pending = s.pending ∧ (afterLoss h l s).fresh = s.fresh ∧ (afterLoss h l s).now = s.now ∧
    (afterLoss h l s).pwr = s.pwr ∧ (afterLoss h l s).arb = s.arb ∧ (afterLoss h l s).parts = s.parts ∧
    (afterLoss h l s).ops = s.ops ∧ (afterLoss h l s).models = s.models ∧ (afterLoss h l s).caps = s.caps ∧
    (afterLoss h l s).jets = s.jets ∧ (afterLoss h l s).lanes = s.lanes ∧ (afterLoss h l s).ports = s.ports ∧
    (afterLoss h l s).ptp = s.ptp ∧ (afterLoss h l s).ftn = s.ftn ∧ (afterLoss h l s).keys = s.keys ∧
    (∀ rp ro, regOf (afterLoss h l s).pages rp ro = regOf s.pages rp ro) := by
  unfold afterLoss; (repeat' split) <;> simp

@[simp] theorem keeps_loseMosc (h : Half) (ev det : Nat) (inj : Bool) (s : State) :
    (loseMosc h ev det inj s).pending = s.pending ∧ (loseMosc h ev det inj s).fresh = s.fresh ∧
    (loseMosc h ev det inj s).now = s.now ∧ (loseMosc h ev det inj s).pwr = s.pwr ∧
    (loseMosc h ev det inj s).arb = s.arb ∧ (loseMosc h ev det inj s).parts = s.parts ∧
    (loseMosc h ev det inj s).ops = s.ops ∧ (loseMosc h ev det inj s).models = s.models ∧
    (loseMosc h ev det inj s).caps = s.caps ∧ (loseMosc h ev det inj s).jets = s.jets ∧
    (loseMosc h ev det inj s).lanes = s.lanes ∧ (loseMosc h ev det inj s).ports = s.ports ∧
    (loseMosc h ev det inj s).ptp = s.ptp ∧ (loseMosc h ev det inj s).ftn = s.ftn ∧
    (loseMosc h ev det inj s).keys = s.keys ∧
    (∀ rp ro, regOf (loseMosc h ev det inj s).pages rp ro = regOf s.pages rp ro) := by
  simp [loseMosc]

@[simp] theorem keeps_moscLost (h : Half) (s : State) :
    (moscLost h s).pending = s.pending ∧ (moscLost h s).fresh = s.fresh ∧ (moscLost h s).now = s.now ∧
    (moscLost h s).pwr = s.pwr ∧ (moscLost h s).arb = s.arb ∧ (moscLost h s).parts = s.parts ∧
    (moscLost h s).ops = s.ops ∧ (moscLost h s).models = s.models ∧ (moscLost h s).caps = s.caps ∧
    (moscLost h s).jets = s.jets ∧ (moscLost h s).lanes = s.lanes ∧ (moscLost h s).ports = s.ports ∧
    (moscLost h s).ptp = s.ptp ∧ (moscLost h s).ftn = s.ftn ∧ (moscLost h s).keys = s.keys ∧
    (∀ rp ro, regOf (moscLost h s).pages rp ro = regOf s.pages rp ro) := by
  simp [moscLost]

@[simp] theorem keeps_lockLost (h : Half) (s : State) :
    (lockLost h s).pending = s.pending ∧ (lockLost h s).fresh = s.fresh ∧ (lockLost h s).now = s.now ∧
    (lockLost h s).pwr = s.pwr ∧ (lockLost h s).arb = s.arb ∧ (lockLost h s).parts = s.parts ∧
    (lockLost h s).ops = s.ops ∧ (lockLost h s).models = s.models ∧ (lockLost h s).caps = s.caps ∧
    (lockLost h s).jets = s.jets ∧ (lockLost h s).lanes = s.lanes ∧ (lockLost h s).ports = s.ports ∧
    (lockLost h s).ptp = s.ptp ∧ (lockLost h s).ftn = s.ftn ∧ (lockLost h s).keys = s.keys ∧
    (∀ rp ro, regOf (lockLost h s).pages rp ro = regOf s.pages rp ro) := by
  simp [lockLost]

@[simp] theorem keeps_xoFalls (h : Half) (s : State) :
    (xoFalls h s).pending = s.pending ∧ (xoFalls h s).fresh = s.fresh ∧ (xoFalls h s).now = s.now ∧
    (xoFalls h s).pwr = s.pwr ∧ (xoFalls h s).arb = s.arb ∧ (xoFalls h s).parts = s.parts ∧
    (xoFalls h s).ops = s.ops ∧ (xoFalls h s).models = s.models ∧ (xoFalls h s).caps = s.caps ∧
    (xoFalls h s).jets = s.jets ∧ (xoFalls h s).lanes = s.lanes ∧ (xoFalls h s).ports = s.ports ∧
    (xoFalls h s).ptp = s.ptp ∧ (xoFalls h s).ftn = s.ftn ∧ (xoFalls h s).keys = s.keys ∧
    (∀ rp ro, regOf (xoFalls h s).pages rp ro = regOf s.pages rp ro) := by
  simp [xoFalls]

@[simp] theorem keeps_xoBad (h : Half) (s : State) :
    (xoBad h s).pending = s.pending ∧ (xoBad h s).fresh = s.fresh ∧ (xoBad h s).now = s.now ∧
    (xoBad h s).pwr = s.pwr ∧ (xoBad h s).arb = s.arb ∧ (xoBad h s).parts = s.parts ∧ (xoBad h s).ops = s.ops ∧
    (xoBad h s).models = s.models ∧ (xoBad h s).caps = s.caps ∧ (xoBad h s).jets = s.jets ∧
    (xoBad h s).lanes = s.lanes ∧ (xoBad h s).ports = s.ports ∧ (xoBad h s).ptp = s.ptp ∧ (xoBad h s).ftn = s.ftn ∧
    (xoBad h s).keys = s.keys ∧ (∀ rp ro, regOf (xoBad h s).pages rp ro = regOf s.pages rp ro) := by
  simp [xoBad]

@[simp] theorem keeps_changeSource (h : Half) (y : Int) (unc : Rat) (coastNs : Nat) (offset : BitVec 10) (toPrim : Bool) (s : State) :
    (changeSource h y unc coastNs offset toPrim s).pending = s.pending ∧
    (changeSource h y unc coastNs offset toPrim s).fresh = s.fresh ∧
    (changeSource h y unc coastNs offset toPrim s).now = s.now ∧
    (changeSource h y unc coastNs offset toPrim s).pwr = s.pwr ∧
    (changeSource h y unc coastNs offset toPrim s).arb = s.arb ∧
    (changeSource h y unc coastNs offset toPrim s).parts = s.parts ∧
    (changeSource h y unc coastNs offset toPrim s).ops = s.ops ∧
    (changeSource h y unc coastNs offset toPrim s).models = s.models ∧
    (changeSource h y unc coastNs offset toPrim s).caps = s.caps ∧
    (changeSource h y unc coastNs offset toPrim s).jets = s.jets ∧
    (changeSource h y unc coastNs offset toPrim s).lanes = s.lanes ∧
    (changeSource h y unc coastNs offset toPrim s).ports = s.ports ∧
    (changeSource h y unc coastNs offset toPrim s).ptp = s.ptp ∧
    (changeSource h y unc coastNs offset toPrim s).ftn = s.ftn ∧
    (changeSource h y unc coastNs offset toPrim s).keys = s.keys ∧
    (∀ rp ro, regOf (changeSource h y unc coastNs offset toPrim s).pages rp ro = regOf s.pages rp ro) := by
  simp [changeSource]

@[simp] theorem keeps_toStandby (h : Half) (coastNs : Nat) (offset : BitVec 10) (s : State) :
    (toStandby h coastNs offset s).pending = s.pending ∧ (toStandby h coastNs offset s).fresh = s.fresh ∧
    (toStandby h coastNs offset s).now = s.now ∧ (toStandby h coastNs offset s).pwr = s.pwr ∧
    (toStandby h coastNs offset s).arb = s.arb ∧ (toStandby h coastNs offset s).parts = s.parts ∧
    (toStandby h coastNs offset s).ops = s.ops ∧ (toStandby h coastNs offset s).models = s.models ∧
    (toStandby h coastNs offset s).caps = s.caps ∧ (toStandby h coastNs offset s).jets = s.jets ∧
    (toStandby h coastNs offset s).lanes = s.lanes ∧ (toStandby h coastNs offset s).ports = s.ports ∧
    (toStandby h coastNs offset s).ptp = s.ptp ∧ (toStandby h coastNs offset s).ftn = s.ftn ∧
    (toStandby h coastNs offset s).keys = s.keys ∧
    (∀ rp ro, regOf (toStandby h coastNs offset s).pages rp ro = regOf s.pages rp ro) := by
  simp [toStandby]

@[simp] theorem keeps_moscQualWindow (h : Half) (y : Int) (s : State) :
    (moscQualWindow h y s).pending = s.pending ∧ (moscQualWindow h y s).now = s.now ∧
    (moscQualWindow h y s).pwr = s.pwr ∧ (moscQualWindow h y s).arb = s.arb ∧ (moscQualWindow h y s).parts = s.parts ∧
    (moscQualWindow h y s).ops = s.ops ∧ (moscQualWindow h y s).ident = s.ident ∧
    (moscQualWindow h y s).models = s.models ∧ (moscQualWindow h y s).caps = s.caps ∧
    (moscQualWindow h y s).jets = s.jets ∧ (moscQualWindow h y s).lanes = s.lanes ∧
    (moscQualWindow h y s).ports = s.ports ∧ (moscQualWindow h y s).ptp = s.ptp ∧ (moscQualWindow h y s).ftn = s.ftn ∧
    (moscQualWindow h y s).keys = s.keys ∧ (moscQualWindow h y s).flt = s.flt ∧
    (∀ rp ro, regOf (moscQualWindow h y s).pages rp ro = regOf s.pages rp ro) := by
  simp [moscQualWindow]

@[simp] theorem keeps_toPrimary (h : Half) (offset : BitVec 10) (s : State) :
    (toPrimary h offset s).pending = s.pending ∧ (toPrimary h offset s).fresh = s.fresh ∧
    (toPrimary h offset s).now = s.now ∧ (toPrimary h offset s).pwr = s.pwr ∧ (toPrimary h offset s).arb = s.arb ∧
    (toPrimary h offset s).parts = s.parts ∧ (toPrimary h offset s).ops = s.ops ∧
    (toPrimary h offset s).models = s.models ∧ (toPrimary h offset s).caps = s.caps ∧
    (toPrimary h offset s).jets = s.jets ∧ (toPrimary h offset s).lanes = s.lanes ∧
    (toPrimary h offset s).ports = s.ports ∧ (toPrimary h offset s).ptp = s.ptp ∧ (toPrimary h offset s).ftn = s.ftn ∧
    (toPrimary h offset s).keys = s.keys ∧ (∀ rp ro, regOf (toPrimary h offset s).pages rp ro = regOf s.pages rp ro) := by
  simp [toPrimary]

@[simp] theorem keeps_lathReturnCmd (h : Half) (s : State) :
    (lathReturnCmd h s).pending = s.pending ∧ (lathReturnCmd h s).fresh = s.fresh ∧ (lathReturnCmd h s).now = s.now ∧
    (lathReturnCmd h s).outs = s.outs ∧ (lathReturnCmd h s).pages = s.pages ∧ (lathReturnCmd h s).pwr = s.pwr ∧
    (lathReturnCmd h s).arb = s.arb ∧ (lathReturnCmd h s).parts = s.parts ∧ (lathReturnCmd h s).bars = s.bars ∧
    (lathReturnCmd h s).ops = s.ops ∧ (lathReturnCmd h s).ident = s.ident ∧ (lathReturnCmd h s).models = s.models ∧
    (lathReturnCmd h s).caps = s.caps ∧ (lathReturnCmd h s).jets = s.jets ∧ (lathReturnCmd h s).lanes = s.lanes ∧
    (lathReturnCmd h s).ports = s.ports ∧ (lathReturnCmd h s).ptp = s.ptp ∧ (lathReturnCmd h s).ftn = s.ftn ∧
    (lathReturnCmd h s).keys = s.keys ∧ (lathReturnCmd h s).flt = s.flt ∧ (lathReturnCmd h s).mgt = s.mgt ∧
    (lathReturnCmd h s).cnt = s.cnt := by
  simp [lathReturnCmd]

@[simp] theorem keeps_xoBeat (h : Half) (phase : Int) (s : State) :
    (xoBeat h phase s).pending = s.pending ∧ (xoBeat h phase s).now = s.now ∧ (xoBeat h phase s).pwr = s.pwr ∧
    (xoBeat h phase s).arb = s.arb ∧ (xoBeat h phase s).parts = s.parts ∧ (xoBeat h phase s).ops = s.ops ∧
    (xoBeat h phase s).models = s.models ∧ (xoBeat h phase s).caps = s.caps ∧ (xoBeat h phase s).jets = s.jets ∧
    (xoBeat h phase s).lanes = s.lanes ∧ (xoBeat h phase s).ports = s.ports ∧ (xoBeat h phase s).ptp = s.ptp ∧
    (xoBeat h phase s).ftn = s.ftn ∧ (xoBeat h phase s).keys = s.keys ∧
    (∀ rp ro, regOf (xoBeat h phase s).pages rp ro = regOf s.pages rp ro) := by
  simp [xoBeat]

@[simp] theorem keeps_resetHalf (h : Half) (s : State) :
    (resetHalf h s).pending = s.pending ∧ (resetHalf h s).fresh = s.fresh ∧ (resetHalf h s).now = s.now ∧
    (resetHalf h s).parts = s.parts ∧ (resetHalf h s).ops = s.ops ∧ (resetHalf h s).ident = s.ident ∧
    (resetHalf h s).models = s.models ∧ (resetHalf h s).caps = s.caps ∧ (resetHalf h s).jets = s.jets ∧
    (resetHalf h s).lanes = s.lanes ∧ (resetHalf h s).ports = s.ports ∧ (resetHalf h s).ptp = s.ptp ∧
    (resetHalf h s).ftn = s.ftn ∧ (resetHalf h s).keys = s.keys ∧ (resetHalf h s).mgt = s.mgt := by
  unfold resetHalf; (repeat' split) <;> simp

@[simp] theorem keeps_halfResetCmd (h : Half) (s : State) :
    (halfResetCmd h s).pending = s.pending ∧ (halfResetCmd h s).fresh = s.fresh ∧ (halfResetCmd h s).now = s.now ∧
    (halfResetCmd h s).parts = s.parts ∧ (halfResetCmd h s).ops = s.ops ∧ (halfResetCmd h s).ident = s.ident ∧
    (halfResetCmd h s).models = s.models ∧ (halfResetCmd h s).caps = s.caps ∧ (halfResetCmd h s).jets = s.jets ∧
    (halfResetCmd h s).lanes = s.lanes ∧ (halfResetCmd h s).ports = s.ports ∧ (halfResetCmd h s).ptp = s.ptp ∧
    (halfResetCmd h s).ftn = s.ftn ∧ (halfResetCmd h s).keys = s.keys ∧ (halfResetCmd h s).mgt = s.mgt := by
  simp [halfResetCmd]

@[simp] theorem keeps_autoRst (h : Half) (s : State) :
    (autoRst h s).pending = s.pending ∧ (autoRst h s).fresh = s.fresh ∧ (autoRst h s).now = s.now ∧
    (autoRst h s).parts = s.parts ∧ (autoRst h s).ops = s.ops ∧ (autoRst h s).ident = s.ident ∧
    (autoRst h s).models = s.models ∧ (autoRst h s).caps = s.caps ∧ (autoRst h s).jets = s.jets ∧
    (autoRst h s).lanes = s.lanes ∧ (autoRst h s).ports = s.ports ∧ (autoRst h s).ptp = s.ptp ∧
    (autoRst h s).ftn = s.ftn ∧ (autoRst h s).keys = s.keys ∧ (autoRst h s).mgt = s.mgt := by
  simp [autoRst]

@[simp] theorem keeps_halfResetEnd (h : Half) (s : State) :
    (halfResetEnd h s).pending = s.pending ∧ (halfResetEnd h s).fresh = s.fresh ∧ (halfResetEnd h s).now = s.now ∧
    (halfResetEnd h s).arb = s.arb ∧ (halfResetEnd h s).parts = s.parts ∧ (halfResetEnd h s).ops = s.ops ∧
    (halfResetEnd h s).ident = s.ident ∧ (halfResetEnd h s).caps = s.caps ∧ (halfResetEnd h s).jets = s.jets ∧
    (halfResetEnd h s).lanes = s.lanes ∧ (halfResetEnd h s).ports = s.ports ∧ (halfResetEnd h s).ptp = s.ptp ∧
    (halfResetEnd h s).ftn = s.ftn ∧ (halfResetEnd h s).keys = s.keys ∧ (halfResetEnd h s).flt = s.flt ∧
    (∀ rp ro, regOf (halfResetEnd h s).pages rp ro = regOf s.pages rp ro) := by
  unfold halfResetEnd; (repeat' split) <;> simp

/-! ## Ptp -/

@[simp] theorem keeps_modPtpPort (s : State) (p : PortNo) (f : PtpPort → PtpPort) :
    (State.modPtpPort s p f).pending = s.pending ∧ (State.modPtpPort s p f).fresh = s.fresh ∧
    (State.modPtpPort s p f).now = s.now ∧ (State.modPtpPort s p f).outs = s.outs ∧
    (State.modPtpPort s p f).pages = s.pages ∧ (State.modPtpPort s p f).pwr = s.pwr ∧
    (State.modPtpPort s p f).arb = s.arb ∧ (State.modPtpPort s p f).halves = s.halves ∧
    (State.modPtpPort s p f).parts = s.parts ∧ (State.modPtpPort s p f).bars = s.bars ∧
    (State.modPtpPort s p f).ops = s.ops ∧ (State.modPtpPort s p f).ident = s.ident ∧
    (State.modPtpPort s p f).models = s.models ∧ (State.modPtpPort s p f).caps = s.caps ∧
    (State.modPtpPort s p f).jets = s.jets ∧ (State.modPtpPort s p f).lanes = s.lanes ∧
    (State.modPtpPort s p f).ftn = s.ftn ∧ (State.modPtpPort s p f).keys = s.keys ∧
    (State.modPtpPort s p f).flt = s.flt ∧ (State.modPtpPort s p f).mgt = s.mgt ∧
    (State.modPtpPort s p f).cnt = s.cnt := by
  simp [State.modPtpPort]

@[simp] theorem keeps_modClient (s : State) (k : ClNo) (f : Client → Client) :
    (State.modClient s k f).pending = s.pending ∧ (State.modClient s k f).fresh = s.fresh ∧
    (State.modClient s k f).now = s.now ∧ (State.modClient s k f).outs = s.outs ∧
    (State.modClient s k f).pages = s.pages ∧ (State.modClient s k f).pwr = s.pwr ∧
    (State.modClient s k f).arb = s.arb ∧ (State.modClient s k f).halves = s.halves ∧
    (State.modClient s k f).parts = s.parts ∧ (State.modClient s k f).bars = s.bars ∧
    (State.modClient s k f).ops = s.ops ∧ (State.modClient s k f).ident = s.ident ∧
    (State.modClient s k f).models = s.models ∧ (State.modClient s k f).caps = s.caps ∧
    (State.modClient s k f).jets = s.jets ∧ (State.modClient s k f).lanes = s.lanes ∧
    (State.modClient s k f).ports = s.ports ∧ (State.modClient s k f).ftn = s.ftn ∧
    (State.modClient s k f).keys = s.keys ∧ (State.modClient s k f).flt = s.flt ∧
    (State.modClient s k f).mgt = s.mgt ∧ (State.modClient s k f).cnt = s.cnt := by
  simp [State.modClient]

@[simp] theorem keeps_setSess (s : State) (i : Nat) (x : Option PtpSess) :
    (State.setSess s i x).pending = s.pending ∧ (State.setSess s i x).fresh = s.fresh ∧
    (State.setSess s i x).now = s.now ∧ (State.setSess s i x).outs = s.outs ∧ (State.setSess s i x).pages = s.pages ∧
    (State.setSess s i x).pwr = s.pwr ∧ (State.setSess s i x).arb = s.arb ∧ (State.setSess s i x).halves = s.halves ∧
    (State.setSess s i x).parts = s.parts ∧ (State.setSess s i x).bars = s.bars ∧ (State.setSess s i x).ops = s.ops ∧
    (State.setSess s i x).ident = s.ident ∧ (State.setSess s i x).models = s.models ∧
    (State.setSess s i x).caps = s.caps ∧ (State.setSess s i x).jets = s.jets ∧
    (State.setSess s i x).lanes = s.lanes ∧ (State.setSess s i x).ports = s.ports ∧
    (State.setSess s i x).ftn = s.ftn ∧ (State.setSess s i x).keys = s.keys ∧ (State.setSess s i x).flt = s.flt ∧
    (State.setSess s i x).mgt = s.mgt ∧ (State.setSess s i x).cnt = s.cnt := by
  simp [State.setSess]

@[simp] theorem keeps_modSess (s : State) (i : Nat) (f : PtpSess → PtpSess) :
    (State.modSess s i f).pending = s.pending ∧ (State.modSess s i f).fresh = s.fresh ∧
    (State.modSess s i f).now = s.now ∧ (State.modSess s i f).outs = s.outs ∧ (State.modSess s i f).pages = s.pages ∧
    (State.modSess s i f).pwr = s.pwr ∧ (State.modSess s i f).arb = s.arb ∧ (State.modSess s i f).halves = s.halves ∧
    (State.modSess s i f).parts = s.parts ∧ (State.modSess s i f).bars = s.bars ∧ (State.modSess s i f).ops = s.ops ∧
    (State.modSess s i f).ident = s.ident ∧ (State.modSess s i f).models = s.models ∧
    (State.modSess s i f).caps = s.caps ∧ (State.modSess s i f).jets = s.jets ∧
    (State.modSess s i f).lanes = s.lanes ∧ (State.modSess s i f).ports = s.ports ∧
    (State.modSess s i f).ftn = s.ftn ∧ (State.modSess s i f).keys = s.keys ∧ (State.modSess s i f).flt = s.flt ∧
    (State.modSess s i f).mgt = s.mgt ∧ (State.modSess s i f).cnt = s.cnt := by
  simp [State.modSess]

@[simp] theorem keeps_serveBoundary (p : PortNo) (s : State) :
    (serveBoundary p s).pending = s.pending ∧ (serveBoundary p s).fresh = s.fresh ∧ (serveBoundary p s).now = s.now ∧
    (serveBoundary p s).arb = s.arb ∧ (serveBoundary p s).halves = s.halves ∧ (serveBoundary p s).parts = s.parts ∧
    (serveBoundary p s).ops = s.ops ∧ (serveBoundary p s).ident = s.ident ∧ (serveBoundary p s).models = s.models ∧
    (serveBoundary p s).caps = s.caps ∧ (serveBoundary p s).jets = s.jets ∧ (serveBoundary p s).lanes = s.lanes ∧
    (serveBoundary p s).ftn = s.ftn ∧ (serveBoundary p s).keys = s.keys ∧ (serveBoundary p s).flt = s.flt ∧
    (serveBoundary p s).mgt = s.mgt ∧ (∀ rp ro, regOf (serveBoundary p s).pages rp ro = regOf s.pages rp ro) := by
  simp [serveBoundary]

@[simp] theorem keeps_authFailed (s : State) :
    (authFailed s).pending = s.pending ∧ (authFailed s).fresh = s.fresh ∧ (authFailed s).now = s.now ∧
    (authFailed s).pwr = s.pwr ∧ (authFailed s).arb = s.arb ∧ (authFailed s).halves = s.halves ∧
    (authFailed s).parts = s.parts ∧ (authFailed s).ops = s.ops ∧ (authFailed s).ident = s.ident ∧
    (authFailed s).models = s.models ∧ (authFailed s).caps = s.caps ∧ (authFailed s).jets = s.jets ∧
    (authFailed s).lanes = s.lanes ∧ (authFailed s).ports = s.ports ∧ (authFailed s).ftn = s.ftn ∧
    (authFailed s).keys = s.keys ∧ (authFailed s).flt = s.flt ∧ (authFailed s).mgt = s.mgt ∧
    (∀ rp ro, regOf (authFailed s).pages rp ro = regOf s.pages rp ro) := by
  simp [authFailed]

@[simp] theorem keeps_authCheck (p : PortNo) (mode : Nat) (v : Option AuthTlv) (s : State) :
    (authCheck p mode v s).2.2.pending = s.pending ∧ (authCheck p mode v s).2.2.fresh = s.fresh ∧
    (authCheck p mode v s).2.2.now = s.now ∧ (authCheck p mode v s).2.2.pwr = s.pwr ∧
    (authCheck p mode v s).2.2.arb = s.arb ∧ (authCheck p mode v s).2.2.halves = s.halves ∧
    (authCheck p mode v s).2.2.parts = s.parts ∧ (authCheck p mode v s).2.2.ops = s.ops ∧
    (authCheck p mode v s).2.2.ident = s.ident ∧ (authCheck p mode v s).2.2.models = s.models ∧
    (authCheck p mode v s).2.2.caps = s.caps ∧ (authCheck p mode v s).2.2.jets = s.jets ∧
    (authCheck p mode v s).2.2.lanes = s.lanes ∧ (authCheck p mode v s).2.2.ports = s.ports ∧
    (authCheck p mode v s).2.2.ftn = s.ftn ∧ (authCheck p mode v s).2.2.keys = s.keys ∧
    (authCheck p mode v s).2.2.flt = s.flt ∧ (authCheck p mode v s).2.2.mgt = s.mgt ∧
    (∀ rp ro, regOf (authCheck p mode v s).2.2.pages rp ro = regOf s.pages rp ro) := by
  unfold authCheck; (repeat' split) <;> simp

@[simp] theorem keeps_saRefresh (s : State) :
    (saRefresh s).pending = s.pending ∧ (saRefresh s).fresh = s.fresh ∧ (saRefresh s).now = s.now ∧
    (saRefresh s).pwr = s.pwr ∧ (saRefresh s).arb = s.arb ∧ (saRefresh s).halves = s.halves ∧
    (saRefresh s).parts = s.parts ∧ (saRefresh s).ops = s.ops ∧ (saRefresh s).ident = s.ident ∧
    (saRefresh s).models = s.models ∧ (saRefresh s).caps = s.caps ∧ (saRefresh s).jets = s.jets ∧
    (saRefresh s).lanes = s.lanes ∧ (saRefresh s).ports = s.ports ∧ (saRefresh s).ftn = s.ftn ∧
    (saRefresh s).keys = s.keys ∧ (saRefresh s).flt = s.flt ∧ (saRefresh s).mgt = s.mgt ∧
    (∀ rp ro, regOf (saRefresh s).pages rp ro = regOf s.pages rp ro) := by
  simp [saRefresh]

@[simp] theorem keeps_queueMsg (p : PortNo) (m : PtpMsg) (s : State) :
    (queueMsg p m s).pending = s.pending ∧ (queueMsg p m s).fresh = s.fresh ∧ (queueMsg p m s).now = s.now ∧
    (queueMsg p m s).outs = s.outs ∧ (queueMsg p m s).pages = s.pages ∧ (queueMsg p m s).pwr = s.pwr ∧
    (queueMsg p m s).arb = s.arb ∧ (queueMsg p m s).halves = s.halves ∧ (queueMsg p m s).parts = s.parts ∧
    (queueMsg p m s).bars = s.bars ∧ (queueMsg p m s).ops = s.ops ∧ (queueMsg p m s).ident = s.ident ∧
    (queueMsg p m s).models = s.models ∧ (queueMsg p m s).caps = s.caps ∧ (queueMsg p m s).jets = s.jets ∧
    (queueMsg p m s).lanes = s.lanes ∧ (queueMsg p m s).ptp = s.ptp ∧ (queueMsg p m s).ftn = s.ftn ∧
    (queueMsg p m s).keys = s.keys ∧ (queueMsg p m s).flt = s.flt ∧ (queueMsg p m s).mgt = s.mgt ∧
    (queueMsg p m s).cnt = s.cnt := by
  simp [queueMsg]

@[simp] theorem keeps_buildMsg (p : PortNo) (i : Option Nat) (sync : Bool) (s : State) :
    (buildMsg p i sync s).pending = s.pending ∧ (buildMsg p i sync s).fresh = s.fresh ∧
    (buildMsg p i sync s).now = s.now ∧ (buildMsg p i sync s).outs = s.outs ∧ (buildMsg p i sync s).pages = s.pages ∧
    (buildMsg p i sync s).pwr = s.pwr ∧ (buildMsg p i sync s).arb = s.arb ∧ (buildMsg p i sync s).halves = s.halves ∧
    (buildMsg p i sync s).parts = s.parts ∧ (buildMsg p i sync s).bars = s.bars ∧ (buildMsg p i sync s).ops = s.ops ∧
    (buildMsg p i sync s).ident = s.ident ∧ (buildMsg p i sync s).models = s.models ∧
    (buildMsg p i sync s).caps = s.caps ∧ (buildMsg p i sync s).jets = s.jets ∧
    (buildMsg p i sync s).lanes = s.lanes ∧ (buildMsg p i sync s).ftn = s.ftn ∧ (buildMsg p i sync s).keys = s.keys ∧
    (buildMsg p i sync s).flt = s.flt ∧ (buildMsg p i sync s).mgt = s.mgt ∧ (buildMsg p i sync s).cnt = s.cnt := by
  unfold buildMsg; (repeat' split) <;> simp

@[simp] theorem keeps_ptpBuild (d : Dom) (s : State) :
    (ptpBuild d s).pending = s.pending ∧ (ptpBuild d s).fresh = s.fresh ∧ (ptpBuild d s).pwr = s.pwr ∧
    (ptpBuild d s).arb = s.arb ∧ (ptpBuild d s).halves = s.halves ∧ (ptpBuild d s).parts = s.parts ∧
    (ptpBuild d s).ops = s.ops ∧ (ptpBuild d s).ident = s.ident ∧ (ptpBuild d s).models = s.models ∧
    (ptpBuild d s).caps = s.caps ∧ (ptpBuild d s).jets = s.jets ∧ (ptpBuild d s).lanes = s.lanes ∧
    (ptpBuild d s).ftn = s.ftn ∧ (ptpBuild d s).keys = s.keys ∧ (ptpBuild d s).flt = s.flt ∧
    (ptpBuild d s).mgt = s.mgt ∧ (∀ rp ro, regOf (ptpBuild d s).pages rp ro = regOf s.pages rp ro) := by
  simp [ptpBuild]

@[simp] theorem keeps_followUpBuild (p : PortNo) (s : State) :
    (followUpBuild p s).pending = s.pending ∧ (followUpBuild p s).fresh = s.fresh ∧ (followUpBuild p s).now = s.now ∧
    (followUpBuild p s).outs = s.outs ∧ (followUpBuild p s).pages = s.pages ∧ (followUpBuild p s).pwr = s.pwr ∧
    (followUpBuild p s).arb = s.arb ∧ (followUpBuild p s).halves = s.halves ∧ (followUpBuild p s).parts = s.parts ∧
    (followUpBuild p s).bars = s.bars ∧ (followUpBuild p s).ops = s.ops ∧ (followUpBuild p s).ident = s.ident ∧
    (followUpBuild p s).models = s.models ∧ (followUpBuild p s).caps = s.caps ∧ (followUpBuild p s).jets = s.jets ∧
    (followUpBuild p s).lanes = s.lanes ∧ (followUpBuild p s).ptp = s.ptp ∧ (followUpBuild p s).ftn = s.ftn ∧
    (followUpBuild p s).keys = s.keys ∧ (followUpBuild p s).flt = s.flt ∧ (followUpBuild p s).mgt = s.mgt ∧
    (followUpBuild p s).cnt = s.cnt := by
  unfold followUpBuild; (repeat' split) <;> simp

@[simp] theorem keeps_timeSource (s : State) (d : Dom) :
    (State.timeSource s d).2.pending = s.pending ∧ (State.timeSource s d).2.now = s.now ∧
    (State.timeSource s d).2.outs = s.outs ∧ (State.timeSource s d).2.pages = s.pages ∧
    (State.timeSource s d).2.pwr = s.pwr ∧ (State.timeSource s d).2.arb = s.arb ∧
    (State.timeSource s d).2.halves = s.halves ∧ (State.timeSource s d).2.parts = s.parts ∧
    (State.timeSource s d).2.bars = s.bars ∧ (State.timeSource s d).2.ops = s.ops ∧
    (State.timeSource s d).2.ident = s.ident ∧ (State.timeSource s d).2.models = s.models ∧
    (State.timeSource s d).2.caps = s.caps ∧ (State.timeSource s d).2.jets = s.jets ∧
    (State.timeSource s d).2.lanes = s.lanes ∧ (State.timeSource s d).2.ports = s.ports ∧
    (State.timeSource s d).2.ptp = s.ptp ∧ (State.timeSource s d).2.ftn = s.ftn ∧
    (State.timeSource s d).2.keys = s.keys ∧ (State.timeSource s d).2.flt = s.flt ∧
    (State.timeSource s d).2.mgt = s.mgt ∧ (State.timeSource s d).2.cnt = s.cnt := by
  unfold State.timeSource; (repeat' split) <;> simp

@[simp] theorem keeps_announceSet (s : State) (p : PortNo) (b : Code) (log : Int) :
    (State.announceSet s p b log).2.pending = s.pending ∧ (State.announceSet s p b log).2.now = s.now ∧
    (State.announceSet s p b log).2.outs = s.outs ∧ (State.announceSet s p b log).2.pages = s.pages ∧
    (State.announceSet s p b log).2.pwr = s.pwr ∧ (State.announceSet s p b log).2.arb = s.arb ∧
    (State.announceSet s p b log).2.halves = s.halves ∧ (State.announceSet s p b log).2.parts = s.parts ∧
    (State.announceSet s p b log).2.bars = s.bars ∧ (State.announceSet s p b log).2.ops = s.ops ∧
    (State.announceSet s p b log).2.ident = s.ident ∧ (State.announceSet s p b log).2.models = s.models ∧
    (State.announceSet s p b log).2.caps = s.caps ∧ (State.announceSet s p b log).2.jets = s.jets ∧
    (State.announceSet s p b log).2.lanes = s.lanes ∧ (State.announceSet s p b log).2.ports = s.ports ∧
    (State.announceSet s p b log).2.ptp = s.ptp ∧ (State.announceSet s p b log).2.ftn = s.ftn ∧
    (State.announceSet s p b log).2.keys = s.keys ∧ (State.announceSet s p b log).2.flt = s.flt ∧
    (State.announceSet s p b log).2.mgt = s.mgt ∧ (State.announceSet s p b log).2.cnt = s.cnt := by
  simp [State.announceSet]

@[simp] theorem keeps_ptpStamp (p : PortNo) (a : PathAB) (m : PtpMsg) (sub fec : Nat) (s : State) :
    (ptpStamp p a m sub fec s).2.2.pending = s.pending ∧ (ptpStamp p a m sub fec s).2.2.now = s.now ∧
    (ptpStamp p a m sub fec s).2.2.outs = s.outs ∧ (ptpStamp p a m sub fec s).2.2.pages = s.pages ∧
    (ptpStamp p a m sub fec s).2.2.pwr = s.pwr ∧ (ptpStamp p a m sub fec s).2.2.arb = s.arb ∧
    (ptpStamp p a m sub fec s).2.2.halves = s.halves ∧ (ptpStamp p a m sub fec s).2.2.parts = s.parts ∧
    (ptpStamp p a m sub fec s).2.2.bars = s.bars ∧ (ptpStamp p a m sub fec s).2.2.ops = s.ops ∧
    (ptpStamp p a m sub fec s).2.2.ident = s.ident ∧ (ptpStamp p a m sub fec s).2.2.models = s.models ∧
    (ptpStamp p a m sub fec s).2.2.caps = s.caps ∧ (ptpStamp p a m sub fec s).2.2.jets = s.jets ∧
    (ptpStamp p a m sub fec s).2.2.lanes = s.lanes ∧ (ptpStamp p a m sub fec s).2.2.ports = s.ports ∧
    (ptpStamp p a m sub fec s).2.2.ptp = s.ptp ∧ (ptpStamp p a m sub fec s).2.2.ftn = s.ftn ∧
    (ptpStamp p a m sub fec s).2.2.keys = s.keys ∧ (ptpStamp p a m sub fec s).2.2.flt = s.flt ∧
    (ptpStamp p a m sub fec s).2.2.mgt = s.mgt ∧ (ptpStamp p a m sub fec s).2.2.cnt = s.cnt := by
  unfold ptpStamp; (repeat' split) <;> simp

@[simp] theorem keeps_ptpAnnounce (p : PortNo) (m : PtpMsg) (b : Code) (s : State) :
    (ptpAnnounce p m b s).2.pending = s.pending ∧ (ptpAnnounce p m b s).2.now = s.now ∧
    (ptpAnnounce p m b s).2.outs = s.outs ∧ (ptpAnnounce p m b s).2.pages = s.pages ∧
    (ptpAnnounce p m b s).2.pwr = s.pwr ∧ (ptpAnnounce p m b s).2.arb = s.arb ∧
    (ptpAnnounce p m b s).2.halves = s.halves ∧ (ptpAnnounce p m b s).2.parts = s.parts ∧
    (ptpAnnounce p m b s).2.bars = s.bars ∧ (ptpAnnounce p m b s).2.ops = s.ops ∧
    (ptpAnnounce p m b s).2.ident = s.ident ∧ (ptpAnnounce p m b s).2.models = s.models ∧
    (ptpAnnounce p m b s).2.caps = s.caps ∧ (ptpAnnounce p m b s).2.jets = s.jets ∧
    (ptpAnnounce p m b s).2.lanes = s.lanes ∧ (ptpAnnounce p m b s).2.ports = s.ports ∧
    (ptpAnnounce p m b s).2.ptp = s.ptp ∧ (ptpAnnounce p m b s).2.ftn = s.ftn ∧
    (ptpAnnounce p m b s).2.keys = s.keys ∧ (ptpAnnounce p m b s).2.flt = s.flt ∧
    (ptpAnnounce p m b s).2.mgt = s.mgt ∧ (ptpAnnounce p m b s).2.cnt = s.cnt := by
  unfold ptpAnnounce; (repeat' split) <;> simp

@[simp] theorem keeps_countKind (m : PtpMsg) (s : State) :
    (countKind m s).pending = s.pending ∧ (countKind m s).fresh = s.fresh ∧ (countKind m s).now = s.now ∧
    (countKind m s).outs = s.outs ∧ (countKind m s).pages = s.pages ∧ (countKind m s).pwr = s.pwr ∧
    (countKind m s).arb = s.arb ∧ (countKind m s).halves = s.halves ∧ (countKind m s).parts = s.parts ∧
    (countKind m s).bars = s.bars ∧ (countKind m s).ops = s.ops ∧ (countKind m s).ident = s.ident ∧
    (countKind m s).models = s.models ∧ (countKind m s).caps = s.caps ∧ (countKind m s).jets = s.jets ∧
    (countKind m s).lanes = s.lanes ∧ (countKind m s).ports = s.ports ∧ (countKind m s).ptp = s.ptp ∧
    (countKind m s).ftn = s.ftn ∧ (countKind m s).keys = s.keys ∧ (countKind m s).flt = s.flt ∧
    (countKind m s).mgt = s.mgt := by
  unfold countKind; (repeat' split) <;> simp

@[simp] theorem keeps_afterSend (p : PortNo) (m : PtpMsg) (t : Nat) (tlv : BoundTlv) (ann : Option AnnounceSet) (s : State) :
    (afterSend p m t tlv ann s).pending = s.pending ∧ (afterSend p m t tlv ann s).fresh = s.fresh ∧
    (afterSend p m t tlv ann s).now = s.now ∧ (afterSend p m t tlv ann s).outs = s.outs ∧
    (afterSend p m t tlv ann s).pages = s.pages ∧ (afterSend p m t tlv ann s).pwr = s.pwr ∧
    (afterSend p m t tlv ann s).arb = s.arb ∧ (afterSend p m t tlv ann s).halves = s.halves ∧
    (afterSend p m t tlv ann s).parts = s.parts ∧ (afterSend p m t tlv ann s).bars = s.bars ∧
    (afterSend p m t tlv ann s).ops = s.ops ∧ (afterSend p m t tlv ann s).ident = s.ident ∧
    (afterSend p m t tlv ann s).models = s.models ∧ (afterSend p m t tlv ann s).caps = s.caps ∧
    (afterSend p m t tlv ann s).jets = s.jets ∧ (afterSend p m t tlv ann s).lanes = s.lanes ∧
    (afterSend p m t tlv ann s).ftn = s.ftn ∧ (afterSend p m t tlv ann s).keys = s.keys ∧
    (afterSend p m t tlv ann s).flt = s.flt ∧ (afterSend p m t tlv ann s).mgt = s.mgt ∧
    (afterSend p m t tlv ann s).cnt = s.cnt := by
  unfold afterSend; (repeat' split) <;> simp

@[simp] theorem keeps_noteDreq (p : PortNo) (a : PathAB) (m : PtpMsg) (sub fec : Nat) (s : State) :
    (noteDreq p a m sub fec s).pending = s.pending ∧ (noteDreq p a m sub fec s).fresh = s.fresh ∧
    (noteDreq p a m sub fec s).now = s.now ∧ (noteDreq p a m sub fec s).outs = s.outs ∧
    (noteDreq p a m sub fec s).pages = s.pages ∧ (noteDreq p a m sub fec s).pwr = s.pwr ∧
    (noteDreq p a m sub fec s).arb = s.arb ∧ (noteDreq p a m sub fec s).halves = s.halves ∧
    (noteDreq p a m sub fec s).parts = s.parts ∧ (noteDreq p a m sub fec s).bars = s.bars ∧
    (noteDreq p a m sub fec s).ops = s.ops ∧ (noteDreq p a m sub fec s).ident = s.ident ∧
    (noteDreq p a m sub fec s).models = s.models ∧ (noteDreq p a m sub fec s).caps = s.caps ∧
    (noteDreq p a m sub fec s).jets = s.jets ∧ (noteDreq p a m sub fec s).lanes = s.lanes ∧
    (noteDreq p a m sub fec s).ports = s.ports ∧ (noteDreq p a m sub fec s).ftn = s.ftn ∧
    (noteDreq p a m sub fec s).keys = s.keys ∧ (noteDreq p a m sub fec s).flt = s.flt ∧
    (noteDreq p a m sub fec s).mgt = s.mgt ∧ (noteDreq p a m sub fec s).cnt = s.cnt := by
  unfold noteDreq; (repeat' split) <;> simp

@[simp] theorem keeps_sendPtp (p : PortNo) (a : PathAB) (m : PtpMsg) (sub fec : Nat) (s : State) :
    (sendPtp p a m sub fec s).pending = s.pending ∧ (sendPtp p a m sub fec s).now = s.now ∧
    (sendPtp p a m sub fec s).pages = s.pages ∧ (sendPtp p a m sub fec s).pwr = s.pwr ∧
    (sendPtp p a m sub fec s).arb = s.arb ∧ (sendPtp p a m sub fec s).halves = s.halves ∧
    (sendPtp p a m sub fec s).parts = s.parts ∧ (sendPtp p a m sub fec s).bars = s.bars ∧
    (sendPtp p a m sub fec s).ops = s.ops ∧ (sendPtp p a m sub fec s).ident = s.ident ∧
    (sendPtp p a m sub fec s).models = s.models ∧ (sendPtp p a m sub fec s).caps = s.caps ∧
    (sendPtp p a m sub fec s).jets = s.jets ∧ (sendPtp p a m sub fec s).lanes = s.lanes ∧
    (sendPtp p a m sub fec s).ftn = s.ftn ∧ (sendPtp p a m sub fec s).keys = s.keys ∧
    (sendPtp p a m sub fec s).flt = s.flt ∧ (sendPtp p a m sub fec s).mgt = s.mgt := by
  simp [sendPtp]

@[simp] theorem keeps_ptpLeaves (p : PortNo) (a : PathAB) (sub fec : Nat) (s : State) :
    (ptpLeaves p a sub fec s).pending = s.pending ∧ (ptpLeaves p a sub fec s).now = s.now ∧
    (ptpLeaves p a sub fec s).pwr = s.pwr ∧ (ptpLeaves p a sub fec s).arb = s.arb ∧
    (ptpLeaves p a sub fec s).halves = s.halves ∧ (ptpLeaves p a sub fec s).parts = s.parts ∧
    (ptpLeaves p a sub fec s).bars = s.bars ∧ (ptpLeaves p a sub fec s).ops = s.ops ∧
    (ptpLeaves p a sub fec s).ident = s.ident ∧ (ptpLeaves p a sub fec s).models = s.models ∧
    (ptpLeaves p a sub fec s).caps = s.caps ∧ (ptpLeaves p a sub fec s).jets = s.jets ∧
    (ptpLeaves p a sub fec s).lanes = s.lanes ∧ (ptpLeaves p a sub fec s).ftn = s.ftn ∧
    (ptpLeaves p a sub fec s).keys = s.keys ∧ (ptpLeaves p a sub fec s).flt = s.flt ∧
    (ptpLeaves p a sub fec s).mgt = s.mgt ∧
    (∀ rp ro, regOf (ptpLeaves p a sub fec s).pages rp ro = regOf s.pages rp ro) := by
  unfold ptpLeaves; (repeat' split) <;> simp

@[simp] theorem keeps_dreqRefused (s : State) :
    (dreqRefused s).pending = s.pending ∧ (dreqRefused s).fresh = s.fresh ∧ (dreqRefused s).now = s.now ∧
    (dreqRefused s).pwr = s.pwr ∧ (dreqRefused s).arb = s.arb ∧ (dreqRefused s).halves = s.halves ∧
    (dreqRefused s).parts = s.parts ∧ (dreqRefused s).ops = s.ops ∧ (dreqRefused s).ident = s.ident ∧
    (dreqRefused s).models = s.models ∧ (dreqRefused s).caps = s.caps ∧ (dreqRefused s).jets = s.jets ∧
    (dreqRefused s).lanes = s.lanes ∧ (dreqRefused s).ports = s.ports ∧ (dreqRefused s).ptp = s.ptp ∧
    (dreqRefused s).ftn = s.ftn ∧ (dreqRefused s).keys = s.keys ∧ (dreqRefused s).flt = s.flt ∧
    (dreqRefused s).mgt = s.mgt ∧ (∀ rp ro, regOf (dreqRefused s).pages rp ro = regOf s.pages rp ro) := by
  simp [dreqRefused]

@[simp] theorem keeps_answerDreq (p : PortNo) (a : PathAB) (m : DelayReq) (i : Option Nat) (tlv : Bool) (s : State) :
    (answerDreq p a m i tlv s).pending = s.pending ∧ (answerDreq p a m i tlv s).now = s.now ∧
    (answerDreq p a m i tlv s).outs = s.outs ∧ (answerDreq p a m i tlv s).pages = s.pages ∧
    (answerDreq p a m i tlv s).pwr = s.pwr ∧ (answerDreq p a m i tlv s).arb = s.arb ∧
    (answerDreq p a m i tlv s).halves = s.halves ∧ (answerDreq p a m i tlv s).parts = s.parts ∧
    (answerDreq p a m i tlv s).bars = s.bars ∧ (answerDreq p a m i tlv s).ops = s.ops ∧
    (answerDreq p a m i tlv s).ident = s.ident ∧ (answerDreq p a m i tlv s).models = s.models ∧
    (answerDreq p a m i tlv s).caps = s.caps ∧ (answerDreq p a m i tlv s).jets = s.jets ∧
    (answerDreq p a m i tlv s).lanes = s.lanes ∧ (answerDreq p a m i tlv s).ptp = s.ptp ∧
    (answerDreq p a m i tlv s).ftn = s.ftn ∧ (answerDreq p a m i tlv s).keys = s.keys ∧
    (answerDreq p a m i tlv s).flt = s.flt ∧ (answerDreq p a m i tlv s).mgt = s.mgt ∧
    (answerDreq p a m i tlv s).cnt = s.cnt := by
  simp [answerDreq]

@[simp] theorem keeps_touchSess (i : Nat) (d : Dom) (c : UniClient) (s : State) :
    (touchSess i d c s).pending = s.pending ∧ (touchSess i d c s).fresh = s.fresh ∧ (touchSess i d c s).now = s.now ∧
    (touchSess i d c s).outs = s.outs ∧ (touchSess i d c s).pages = s.pages ∧ (touchSess i d c s).pwr = s.pwr ∧
    (touchSess i d c s).arb = s.arb ∧ (touchSess i d c s).halves = s.halves ∧ (touchSess i d c s).parts = s.parts ∧
    (touchSess i d c s).bars = s.bars ∧ (touchSess i d c s).ops = s.ops ∧ (touchSess i d c s).ident = s.ident ∧
    (touchSess i d c s).models = s.models ∧ (touchSess i d c s).caps = s.caps ∧ (touchSess i d c s).jets = s.jets ∧
    (touchSess i d c s).lanes = s.lanes ∧ (touchSess i d c s).ports = s.ports ∧ (touchSess i d c s).ftn = s.ftn ∧
    (touchSess i d c s).keys = s.keys ∧ (touchSess i d c s).flt = s.flt ∧ (touchSess i d c s).mgt = s.mgt ∧
    (touchSess i d c s).cnt = s.cnt := by
  simp [touchSess]

@[simp] theorem keeps_delayReqReceived (p : PortNo) (a : PathAB) (m : DelayReq) (s : State) :
    (delayReqReceived p a m s).pending = s.pending ∧ (delayReqReceived p a m s).now = s.now ∧
    (delayReqReceived p a m s).pwr = s.pwr ∧ (delayReqReceived p a m s).arb = s.arb ∧
    (delayReqReceived p a m s).halves = s.halves ∧ (delayReqReceived p a m s).parts = s.parts ∧
    (delayReqReceived p a m s).ops = s.ops ∧ (delayReqReceived p a m s).ident = s.ident ∧
    (delayReqReceived p a m s).models = s.models ∧ (delayReqReceived p a m s).caps = s.caps ∧
    (delayReqReceived p a m s).jets = s.jets ∧ (delayReqReceived p a m s).lanes = s.lanes ∧
    (delayReqReceived p a m s).ftn = s.ftn ∧ (delayReqReceived p a m s).keys = s.keys ∧
    (delayReqReceived p a m s).flt = s.flt ∧ (delayReqReceived p a m s).mgt = s.mgt ∧
    (∀ rp ro, regOf (delayReqReceived p a m s).pages rp ro = regOf s.pages rp ro) := by
  simp only [delayReqReceived]; (repeat' split) <;> simp

@[simp] theorem keeps_foreignAnn (p : PortNo) (s : State) :
    (foreignAnn p s).pending = s.pending ∧ (foreignAnn p s).fresh = s.fresh ∧ (foreignAnn p s).now = s.now ∧
    (foreignAnn p s).pwr = s.pwr ∧ (foreignAnn p s).arb = s.arb ∧ (foreignAnn p s).halves = s.halves ∧
    (foreignAnn p s).parts = s.parts ∧ (foreignAnn p s).ops = s.ops ∧ (foreignAnn p s).ident = s.ident ∧
    (foreignAnn p s).models = s.models ∧ (foreignAnn p s).caps = s.caps ∧ (foreignAnn p s).jets = s.jets ∧
    (foreignAnn p s).lanes = s.lanes ∧ (foreignAnn p s).ftn = s.ftn ∧ (foreignAnn p s).keys = s.keys ∧
    (foreignAnn p s).flt = s.flt ∧ (foreignAnn p s).mgt = s.mgt ∧
    (∀ rp ro, regOf (foreignAnn p s).pages rp ro = regOf s.pages rp ro) := by
  simp [foreignAnn]

@[simp] theorem keeps_signal (p : PortNo) (i : Option Nat) (c : UniClient) (tlv : SigTlv) (s : State) :
    (signal p i c tlv s).pending = s.pending ∧ (signal p i c tlv s).fresh = s.fresh ∧
    (signal p i c tlv s).now = s.now ∧ (signal p i c tlv s).outs = s.outs ∧ (signal p i c tlv s).pages = s.pages ∧
    (signal p i c tlv s).pwr = s.pwr ∧ (signal p i c tlv s).arb = s.arb ∧ (signal p i c tlv s).halves = s.halves ∧
    (signal p i c tlv s).parts = s.parts ∧ (signal p i c tlv s).bars = s.bars ∧ (signal p i c tlv s).ops = s.ops ∧
    (signal p i c tlv s).ident = s.ident ∧ (signal p i c tlv s).models = s.models ∧
    (signal p i c tlv s).caps = s.caps ∧ (signal p i c tlv s).jets = s.jets ∧ (signal p i c tlv s).lanes = s.lanes ∧
    (signal p i c tlv s).ftn = s.ftn ∧ (signal p i c tlv s).keys = s.keys ∧ (signal p i c tlv s).flt = s.flt ∧
    (signal p i c tlv s).mgt = s.mgt ∧ (signal p i c tlv s).cnt = s.cnt := by
  unfold signal; (repeat' split) <;> simp

@[simp] theorem keeps_denyRequest (p : PortNo) (i : Option Nat) (c : UniClient) (g : GrantType) (log : Int) (s : State) :
    (denyRequest p i c g log s).pending = s.pending ∧ (denyRequest p i c g log s).fresh = s.fresh ∧
    (denyRequest p i c g log s).now = s.now ∧ (denyRequest p i c g log s).pwr = s.pwr ∧
    (denyRequest p i c g log s).arb = s.arb ∧ (denyRequest p i c g log s).halves = s.halves ∧
    (denyRequest p i c g log s).parts = s.parts ∧ (denyRequest p i c g log s).ops = s.ops ∧
    (denyRequest p i c g log s).ident = s.ident ∧ (denyRequest p i c g log s).models = s.models ∧
    (denyRequest p i c g log s).caps = s.caps ∧ (denyRequest p i c g log s).jets = s.jets ∧
    (denyRequest p i c g log s).lanes = s.lanes ∧ (denyRequest p i c g log s).ftn = s.ftn ∧
    (denyRequest p i c g log s).keys = s.keys ∧ (denyRequest p i c g log s).flt = s.flt ∧
    (denyRequest p i c g log s).mgt = s.mgt ∧
    (∀ rp ro, regOf (denyRequest p i c g log s).pages rp ro = regOf s.pages rp ro) := by
  simp [denyRequest]

@[simp] theorem keeps_unicastRequest (p : PortNo) (m : UniMsg) (g : GrantType) (log : Int) (duration : Nat) (s : State) :
    (unicastRequest p m g log duration s).pending = s.pending ∧
    (unicastRequest p m g log duration s).fresh = s.fresh ∧ (unicastRequest p m g log duration s).now = s.now ∧
    (unicastRequest p m g log duration s).pwr = s.pwr ∧ (unicastRequest p m g log duration s).arb = s.arb ∧
    (unicastRequest p m g log duration s).halves = s.halves ∧ (unicastRequest p m g log duration s).parts = s.parts ∧
    (unicastRequest p m g log duration s).ops = s.ops ∧ (unicastRequest p m g log duration s).ident = s.ident ∧
    (unicastRequest p m g log duration s).models = s.models ∧ (unicastRequest p m g log duration s).caps = s.caps ∧
    (unicastRequest p m g log duration s).jets = s.jets ∧ (unicastRequest p m g log duration s).lanes = s.lanes ∧
    (unicastRequest p m g log duration s).ftn = s.ftn ∧ (unicastRequest p m g log duration s).keys = s.keys ∧
    (unicastRequest p m g log duration s).flt = s.flt ∧ (unicastRequest p m g log duration s).mgt = s.mgt ∧
    (∀ rp ro, regOf (unicastRequest p m g log duration s).pages rp ro = regOf s.pages rp ro) := by
  simp only [unicastRequest]; (repeat' split) <;> simp

@[simp] theorem keeps_freeEnded (i : Nat) (s : State) :
    (freeEnded i s).pending = s.pending ∧ (freeEnded i s).fresh = s.fresh ∧ (freeEnded i s).now = s.now ∧
    (freeEnded i s).outs = s.outs ∧ (freeEnded i s).pages = s.pages ∧ (freeEnded i s).pwr = s.pwr ∧
    (freeEnded i s).arb = s.arb ∧ (freeEnded i s).halves = s.halves ∧ (freeEnded i s).parts = s.parts ∧
    (freeEnded i s).bars = s.bars ∧ (freeEnded i s).ops = s.ops ∧ (freeEnded i s).ident = s.ident ∧
    (freeEnded i s).models = s.models ∧ (freeEnded i s).caps = s.caps ∧ (freeEnded i s).jets = s.jets ∧
    (freeEnded i s).lanes = s.lanes ∧ (freeEnded i s).ports = s.ports ∧ (freeEnded i s).ftn = s.ftn ∧
    (freeEnded i s).keys = s.keys ∧ (freeEnded i s).flt = s.flt ∧ (freeEnded i s).mgt = s.mgt ∧
    (freeEnded i s).cnt = s.cnt := by
  unfold freeEnded; (repeat' split) <;> simp

@[simp] theorem keeps_unicastCancel (p : PortNo) (m : UniMsg) (g : GrantType) (s : State) :
    (unicastCancel p m g s).pending = s.pending ∧ (unicastCancel p m g s).fresh = s.fresh ∧
    (unicastCancel p m g s).now = s.now ∧ (unicastCancel p m g s).pwr = s.pwr ∧ (unicastCancel p m g s).arb = s.arb ∧
    (unicastCancel p m g s).halves = s.halves ∧ (unicastCancel p m g s).parts = s.parts ∧
    (unicastCancel p m g s).ops = s.ops ∧ (unicastCancel p m g s).ident = s.ident ∧
    (unicastCancel p m g s).models = s.models ∧ (unicastCancel p m g s).caps = s.caps ∧
    (unicastCancel p m g s).jets = s.jets ∧ (unicastCancel p m g s).lanes = s.lanes ∧
    (unicastCancel p m g s).ftn = s.ftn ∧ (unicastCancel p m g s).keys = s.keys ∧
    (unicastCancel p m g s).flt = s.flt ∧ (unicastCancel p m g s).mgt = s.mgt ∧
    (∀ rp ro, regOf (unicastCancel p m g s).pages rp ro = regOf s.pages rp ro) := by
  simp only [unicastCancel]; (repeat' split) <;> simp

@[simp] theorem keeps_grantCountdown (d : Dom) (s : State) :
    (grantCountdown d s).pending = s.pending ∧ (grantCountdown d s).fresh = s.fresh ∧
    (grantCountdown d s).now = s.now ∧ (grantCountdown d s).outs = s.outs ∧ (grantCountdown d s).pages = s.pages ∧
    (grantCountdown d s).pwr = s.pwr ∧ (grantCountdown d s).arb = s.arb ∧ (grantCountdown d s).halves = s.halves ∧
    (grantCountdown d s).parts = s.parts ∧ (grantCountdown d s).bars = s.bars ∧ (grantCountdown d s).ops = s.ops ∧
    (grantCountdown d s).ident = s.ident ∧ (grantCountdown d s).models = s.models ∧
    (grantCountdown d s).caps = s.caps ∧ (grantCountdown d s).jets = s.jets ∧ (grantCountdown d s).lanes = s.lanes ∧
    (grantCountdown d s).ports = s.ports ∧ (grantCountdown d s).ftn = s.ftn ∧ (grantCountdown d s).keys = s.keys ∧
    (grantCountdown d s).flt = s.flt ∧ (grantCountdown d s).mgt = s.mgt ∧ (grantCountdown d s).cnt = s.cnt := by
  simp [grantCountdown]

@[simp] theorem keeps_ptpCancel (i : Nat) (s : State) :
    (ptpCancel i s).pending = s.pending ∧ (ptpCancel i s).fresh = s.fresh ∧ (ptpCancel i s).now = s.now ∧
    (ptpCancel i s).outs = s.outs ∧ (ptpCancel i s).pages = s.pages ∧ (ptpCancel i s).pwr = s.pwr ∧
    (ptpCancel i s).arb = s.arb ∧ (ptpCancel i s).halves = s.halves ∧ (ptpCancel i s).parts = s.parts ∧
    (ptpCancel i s).bars = s.bars ∧ (ptpCancel i s).ops = s.ops ∧ (ptpCancel i s).ident = s.ident ∧
    (ptpCancel i s).models = s.models ∧ (ptpCancel i s).caps = s.caps ∧ (ptpCancel i s).jets = s.jets ∧
    (ptpCancel i s).lanes = s.lanes ∧ (ptpCancel i s).ftn = s.ftn ∧ (ptpCancel i s).keys = s.keys ∧
    (ptpCancel i s).flt = s.flt ∧ (ptpCancel i s).mgt = s.mgt ∧ (ptpCancel i s).cnt = s.cnt := by
  unfold ptpCancel; (repeat' split) <;> simp

/-! ## Clients -/

@[simp] theorem keeps_clientsPass (p : PortNo) (ks : List ClNo) (v : Option AuthTlv) (s : State) :
    (clientsPass p ks v s).2.pending = s.pending ∧ (clientsPass p ks v s).2.fresh = s.fresh ∧
    (clientsPass p ks v s).2.now = s.now ∧ (clientsPass p ks v s).2.pwr = s.pwr ∧
    (clientsPass p ks v s).2.arb = s.arb ∧ (clientsPass p ks v s).2.halves = s.halves ∧
    (clientsPass p ks v s).2.parts = s.parts ∧ (clientsPass p ks v s).2.ops = s.ops ∧
    (clientsPass p ks v s).2.ident = s.ident ∧ (clientsPass p ks v s).2.models = s.models ∧
    (clientsPass p ks v s).2.caps = s.caps ∧ (clientsPass p ks v s).2.jets = s.jets ∧
    (clientsPass p ks v s).2.lanes = s.lanes ∧ (clientsPass p ks v s).2.ports = s.ports ∧
    (clientsPass p ks v s).2.ftn = s.ftn ∧ (clientsPass p ks v s).2.keys = s.keys ∧
    (clientsPass p ks v s).2.flt = s.flt ∧ (clientsPass p ks v s).2.mgt = s.mgt ∧
    (∀ rp ro, regOf (clientsPass p ks v s).2.pages rp ro = regOf s.pages rp ro) := by
  simp [clientsPass]

@[simp] theorem keeps_reportLoss (k : ClNo) (s : State) :
    (reportLoss k s).pending = s.pending ∧ (reportLoss k s).fresh = s.fresh ∧ (reportLoss k s).now = s.now ∧
    (reportLoss k s).pwr = s.pwr ∧ (reportLoss k s).arb = s.arb ∧ (reportLoss k s).parts = s.parts ∧
    (reportLoss k s).ops = s.ops ∧ (reportLoss k s).ident = s.ident ∧ (reportLoss k s).models = s.models ∧
    (reportLoss k s).caps = s.caps ∧ (reportLoss k s).jets = s.jets ∧ (reportLoss k s).lanes = s.lanes ∧
    (reportLoss k s).ports = s.ports ∧ (reportLoss k s).ftn = s.ftn ∧ (reportLoss k s).keys = s.keys ∧
    (reportLoss k s).flt = s.flt ∧ (reportLoss k s).mgt = s.mgt ∧
    (∀ rp ro, regOf (reportLoss k s).pages rp ro = regOf s.pages rp ro) := by
  simp [reportLoss]

@[simp] theorem keeps_takeMaster (k : ClNo) (m : Option AnnounceMsg) (s : State) :
    (takeMaster k m s).pending = s.pending ∧ (takeMaster k m s).fresh = s.fresh ∧ (takeMaster k m s).now = s.now ∧
    (takeMaster k m s).pwr = s.pwr ∧ (takeMaster k m s).arb = s.arb ∧ (takeMaster k m s).parts = s.parts ∧
    (takeMaster k m s).ops = s.ops ∧ (takeMaster k m s).ident = s.ident ∧ (takeMaster k m s).models = s.models ∧
    (takeMaster k m s).caps = s.caps ∧ (takeMaster k m s).jets = s.jets ∧ (takeMaster k m s).lanes = s.lanes ∧
    (takeMaster k m s).ports = s.ports ∧ (takeMaster k m s).ftn = s.ftn ∧ (takeMaster k m s).keys = s.keys ∧
    (takeMaster k m s).flt = s.flt ∧ (takeMaster k m s).mgt = s.mgt ∧
    (∀ rp ro, regOf (takeMaster k m s).pages rp ro = regOf s.pages rp ro) := by
  unfold takeMaster; (repeat' split) <;> simp

@[simp] theorem keeps_selectMaster (k : ClNo) (s : State) :
    (selectMaster k s).pending = s.pending ∧ (selectMaster k s).fresh = s.fresh ∧ (selectMaster k s).now = s.now ∧
    (selectMaster k s).pwr = s.pwr ∧ (selectMaster k s).arb = s.arb ∧ (selectMaster k s).parts = s.parts ∧
    (selectMaster k s).ops = s.ops ∧ (selectMaster k s).ident = s.ident ∧ (selectMaster k s).models = s.models ∧
    (selectMaster k s).caps = s.caps ∧ (selectMaster k s).jets = s.jets ∧ (selectMaster k s).lanes = s.lanes ∧
    (selectMaster k s).ports = s.ports ∧ (selectMaster k s).ftn = s.ftn ∧ (selectMaster k s).keys = s.keys ∧
    (selectMaster k s).flt = s.flt ∧ (selectMaster k s).mgt = s.mgt ∧
    (∀ rp ro, regOf (selectMaster k s).pages rp ro = regOf s.pages rp ro) := by
  simp [selectMaster]

@[simp] theorem keeps_heardAnnounce (k : ClNo) (m : AnnounceMsg) (s : State) :
    (heardAnnounce k m s).pending = s.pending ∧ (heardAnnounce k m s).fresh = s.fresh ∧
    (heardAnnounce k m s).now = s.now ∧ (heardAnnounce k m s).pwr = s.pwr ∧ (heardAnnounce k m s).arb = s.arb ∧
    (heardAnnounce k m s).parts = s.parts ∧ (heardAnnounce k m s).ops = s.ops ∧
    (heardAnnounce k m s).ident = s.ident ∧ (heardAnnounce k m s).models = s.models ∧
    (heardAnnounce k m s).caps = s.caps ∧ (heardAnnounce k m s).jets = s.jets ∧
    (heardAnnounce k m s).lanes = s.lanes ∧ (heardAnnounce k m s).ports = s.ports ∧
    (heardAnnounce k m s).ftn = s.ftn ∧ (heardAnnounce k m s).keys = s.keys ∧ (heardAnnounce k m s).flt = s.flt ∧
    (heardAnnounce k m s).mgt = s.mgt ∧ (∀ rp ro, regOf (heardAnnounce k m s).pages rp ro = regOf s.pages rp ro) := by
  simp [heardAnnounce]

@[simp] theorem keeps_clientAnnounce (k : ClNo) (m : AnnounceMsg) (s : State) :
    (clientAnnounce k m s).pending = s.pending ∧ (clientAnnounce k m s).fresh = s.fresh ∧
    (clientAnnounce k m s).now = s.now ∧ (clientAnnounce k m s).pwr = s.pwr ∧ (clientAnnounce k m s).arb = s.arb ∧
    (clientAnnounce k m s).parts = s.parts ∧ (clientAnnounce k m s).ops = s.ops ∧
    (clientAnnounce k m s).ident = s.ident ∧ (clientAnnounce k m s).models = s.models ∧
    (clientAnnounce k m s).caps = s.caps ∧ (clientAnnounce k m s).jets = s.jets ∧
    (clientAnnounce k m s).lanes = s.lanes ∧ (clientAnnounce k m s).ports = s.ports ∧
    (clientAnnounce k m s).ftn = s.ftn ∧ (clientAnnounce k m s).keys = s.keys ∧ (clientAnnounce k m s).flt = s.flt ∧
    (clientAnnounce k m s).mgt = s.mgt ∧ (∀ rp ro, regOf (clientAnnounce k m s).pages rp ro = regOf s.pages rp ro) := by
  simp [clientAnnounce]

@[simp] theorem keeps_masterLost (k : ClNo) (s : State) :
    (masterLost k s).pending = s.pending ∧ (masterLost k s).fresh = s.fresh ∧ (masterLost k s).now = s.now ∧
    (masterLost k s).pwr = s.pwr ∧ (masterLost k s).arb = s.arb ∧ (masterLost k s).parts = s.parts ∧
    (masterLost k s).ops = s.ops ∧ (masterLost k s).ident = s.ident ∧ (masterLost k s).models = s.models ∧
    (masterLost k s).caps = s.caps ∧ (masterLost k s).jets = s.jets ∧ (masterLost k s).lanes = s.lanes ∧
    (masterLost k s).ports = s.ports ∧ (masterLost k s).ftn = s.ftn ∧ (masterLost k s).keys = s.keys ∧
    (masterLost k s).flt = s.flt ∧ (masterLost k s).mgt = s.mgt ∧
    (∀ rp ro, regOf (masterLost k s).pages rp ro = regOf s.pages rp ro) := by
  unfold masterLost; (repeat' split) <;> simp

@[simp] theorem keeps_clientMsg (k : ClNo) (kind : PtpKind) (seq : BitVec 16) (s : State) :
    (clientMsg k kind seq s).pending = s.pending ∧ (clientMsg k kind seq s).fresh = s.fresh ∧
    (clientMsg k kind seq s).now = s.now ∧ (clientMsg k kind seq s).outs = s.outs ∧
    (clientMsg k kind seq s).pages = s.pages ∧ (clientMsg k kind seq s).pwr = s.pwr ∧
    (clientMsg k kind seq s).arb = s.arb ∧ (clientMsg k kind seq s).halves = s.halves ∧
    (clientMsg k kind seq s).parts = s.parts ∧ (clientMsg k kind seq s).bars = s.bars ∧
    (clientMsg k kind seq s).ops = s.ops ∧ (clientMsg k kind seq s).ident = s.ident ∧
    (clientMsg k kind seq s).models = s.models ∧ (clientMsg k kind seq s).caps = s.caps ∧
    (clientMsg k kind seq s).jets = s.jets ∧ (clientMsg k kind seq s).lanes = s.lanes ∧
    (clientMsg k kind seq s).ptp = s.ptp ∧ (clientMsg k kind seq s).ftn = s.ftn ∧
    (clientMsg k kind seq s).keys = s.keys ∧ (clientMsg k kind seq s).flt = s.flt ∧
    (clientMsg k kind seq s).mgt = s.mgt ∧ (clientMsg k kind seq s).cnt = s.cnt := by
  simp [clientMsg]

@[simp] theorem keeps_requestFails (k : ClNo) (s : State) :
    (requestFails k s).pending = s.pending ∧ (requestFails k s).fresh = s.fresh ∧ (requestFails k s).now = s.now ∧
    (requestFails k s).outs = s.outs ∧ (requestFails k s).pages = s.pages ∧ (requestFails k s).pwr = s.pwr ∧
    (requestFails k s).arb = s.arb ∧ (requestFails k s).halves = s.halves ∧ (requestFails k s).parts = s.parts ∧
    (requestFails k s).bars = s.bars ∧ (requestFails k s).ops = s.ops ∧ (requestFails k s).ident = s.ident ∧
    (requestFails k s).models = s.models ∧ (requestFails k s).caps = s.caps ∧ (requestFails k s).jets = s.jets ∧
    (requestFails k s).lanes = s.lanes ∧ (requestFails k s).ports = s.ports ∧ (requestFails k s).ftn = s.ftn ∧
    (requestFails k s).keys = s.keys ∧ (requestFails k s).flt = s.flt ∧ (requestFails k s).mgt = s.mgt ∧
    (requestFails k s).cnt = s.cnt := by
  simp [requestFails]

@[simp] theorem keeps_requestGrant (k : ClNo) (dur : Nat) (s : State) (g : GrantType) :
    (requestGrant k dur s g).pending = s.pending ∧ (requestGrant k dur s g).fresh = s.fresh ∧
    (requestGrant k dur s g).now = s.now ∧ (requestGrant k dur s g).outs = s.outs ∧
    (requestGrant k dur s g).pages = s.pages ∧ (requestGrant k dur s g).pwr = s.pwr ∧
    (requestGrant k dur s g).arb = s.arb ∧ (requestGrant k dur s g).halves = s.halves ∧
    (requestGrant k dur s g).parts = s.parts ∧ (requestGrant k dur s g).bars = s.bars ∧
    (requestGrant k dur s g).ops = s.ops ∧ (requestGrant k dur s g).ident = s.ident ∧
    (requestGrant k dur s g).models = s.models ∧ (requestGrant k dur s g).caps = s.caps ∧
    (requestGrant k dur s g).jets = s.jets ∧ (requestGrant k dur s g).lanes = s.lanes ∧
    (requestGrant k dur s g).ftn = s.ftn ∧ (requestGrant k dur s g).keys = s.keys ∧
    (requestGrant k dur s g).flt = s.flt ∧ (requestGrant k dur s g).mgt = s.mgt ∧
    (requestGrant k dur s g).cnt = s.cnt := by
  simp [requestGrant]

@[simp] theorem keeps_grantRequest (k : ClNo) (failed : Bool) (s : State) :
    (grantRequest k failed s).pending = s.pending ∧ (grantRequest k failed s).fresh = s.fresh ∧
    (grantRequest k failed s).now = s.now ∧ (grantRequest k failed s).outs = s.outs ∧
    (grantRequest k failed s).pages = s.pages ∧ (grantRequest k failed s).pwr = s.pwr ∧
    (grantRequest k failed s).arb = s.arb ∧ (grantRequest k failed s).halves = s.halves ∧
    (grantRequest k failed s).parts = s.parts ∧ (grantRequest k failed s).bars = s.bars ∧
    (grantRequest k failed s).ops = s.ops ∧ (grantRequest k failed s).ident = s.ident ∧
    (grantRequest k failed s).models = s.models ∧ (grantRequest k failed s).caps = s.caps ∧
    (grantRequest k failed s).jets = s.jets ∧ (grantRequest k failed s).lanes = s.lanes ∧
    (grantRequest k failed s).ftn = s.ftn ∧ (grantRequest k failed s).keys = s.keys ∧
    (grantRequest k failed s).flt = s.flt ∧ (grantRequest k failed s).mgt = s.mgt ∧
    (grantRequest k failed s).cnt = s.cnt := by
  simp [grantRequest]

@[simp] theorem keeps_grantArrives (k : ClNo) (g : GrantType) (dur : Nat) (s : State) :
    (grantArrives k g dur s).pending = s.pending ∧ (grantArrives k g dur s).fresh = s.fresh ∧
    (grantArrives k g dur s).now = s.now ∧ (grantArrives k g dur s).outs = s.outs ∧
    (grantArrives k g dur s).pages = s.pages ∧ (grantArrives k g dur s).pwr = s.pwr ∧
    (grantArrives k g dur s).arb = s.arb ∧ (grantArrives k g dur s).halves = s.halves ∧
    (grantArrives k g dur s).parts = s.parts ∧ (grantArrives k g dur s).bars = s.bars ∧
    (grantArrives k g dur s).ops = s.ops ∧ (grantArrives k g dur s).ident = s.ident ∧
    (grantArrives k g dur s).models = s.models ∧ (grantArrives k g dur s).caps = s.caps ∧
    (grantArrives k g dur s).jets = s.jets ∧ (grantArrives k g dur s).lanes = s.lanes ∧
    (grantArrives k g dur s).ports = s.ports ∧ (grantArrives k g dur s).ftn = s.ftn ∧
    (grantArrives k g dur s).keys = s.keys ∧ (grantArrives k g dur s).flt = s.flt ∧
    (grantArrives k g dur s).mgt = s.mgt ∧ (grantArrives k g dur s).cnt = s.cnt := by
  simp [grantArrives]

@[simp] theorem keeps_clientDelayReq (k : ClNo) (s : State) :
    (clientDelayReq k s).pending = s.pending ∧ (clientDelayReq k s).fresh = s.fresh ∧
    (clientDelayReq k s).now = s.now ∧ (clientDelayReq k s).outs = s.outs ∧ (clientDelayReq k s).pages = s.pages ∧
    (clientDelayReq k s).pwr = s.pwr ∧ (clientDelayReq k s).arb = s.arb ∧ (clientDelayReq k s).halves = s.halves ∧
    (clientDelayReq k s).parts = s.parts ∧ (clientDelayReq k s).bars = s.bars ∧ (clientDelayReq k s).ops = s.ops ∧
    (clientDelayReq k s).ident = s.ident ∧ (clientDelayReq k s).models = s.models ∧
    (clientDelayReq k s).caps = s.caps ∧ (clientDelayReq k s).jets = s.jets ∧ (clientDelayReq k s).lanes = s.lanes ∧
    (clientDelayReq k s).ftn = s.ftn ∧ (clientDelayReq k s).keys = s.keys ∧ (clientDelayReq k s).flt = s.flt ∧
    (clientDelayReq k s).mgt = s.mgt ∧ (clientDelayReq k s).cnt = s.cnt := by
  simp [clientDelayReq]

@[simp] theorem keeps_noteSync (p : PortNo) (a : PathAB) (f : Parsed) (m : List Byte) (pt : RxPoint) (s : State) :
    (noteSync p a f m pt s).pending = s.pending ∧ (noteSync p a f m pt s).fresh = s.fresh ∧
    (noteSync p a f m pt s).now = s.now ∧ (noteSync p a f m pt s).pwr = s.pwr ∧ (noteSync p a f m pt s).arb = s.arb ∧
    (noteSync p a f m pt s).halves = s.halves ∧ (noteSync p a f m pt s).parts = s.parts ∧
    (noteSync p a f m pt s).ops = s.ops ∧ (noteSync p a f m pt s).ident = s.ident ∧
    (noteSync p a f m pt s).models = s.models ∧ (noteSync p a f m pt s).caps = s.caps ∧
    (noteSync p a f m pt s).jets = s.jets ∧ (noteSync p a f m pt s).lanes = s.lanes ∧
    (noteSync p a f m pt s).ports = s.ports ∧ (noteSync p a f m pt s).ftn = s.ftn ∧
    (noteSync p a f m pt s).keys = s.keys ∧ (noteSync p a f m pt s).flt = s.flt ∧
    (noteSync p a f m pt s).mgt = s.mgt ∧ (∀ rp ro, regOf (noteSync p a f m pt s).pages rp ro = regOf s.pages rp ro) := by
  simp [noteSync]

@[simp] theorem keeps_signalingTlv (p : PortNo) (ks : List ClNo) (s : State) (e : Nat × List Byte) :
    (signalingTlv p ks s e).pending = s.pending ∧ (signalingTlv p ks s e).fresh = s.fresh ∧
    (signalingTlv p ks s e).now = s.now ∧ (signalingTlv p ks s e).outs = s.outs ∧
    (signalingTlv p ks s e).pages = s.pages ∧ (signalingTlv p ks s e).pwr = s.pwr ∧
    (signalingTlv p ks s e).arb = s.arb ∧ (signalingTlv p ks s e).halves = s.halves ∧
    (signalingTlv p ks s e).parts = s.parts ∧ (signalingTlv p ks s e).bars = s.bars ∧
    (signalingTlv p ks s e).ops = s.ops ∧ (signalingTlv p ks s e).ident = s.ident ∧
    (signalingTlv p ks s e).models = s.models ∧ (signalingTlv p ks s e).caps = s.caps ∧
    (signalingTlv p ks s e).jets = s.jets ∧ (signalingTlv p ks s e).lanes = s.lanes ∧
    (signalingTlv p ks s e).ftn = s.ftn ∧ (signalingTlv p ks s e).keys = s.keys ∧
    (signalingTlv p ks s e).flt = s.flt ∧ (signalingTlv p ks s e).mgt = s.mgt ∧ (signalingTlv p ks s e).cnt = s.cnt := by
  unfold signalingTlv; (repeat' split) <;> simp

@[simp] theorem keeps_signalingIn (p : PortNo) (f : Parsed) (m : List Byte) (s : State) :
    (signalingIn p f m s).pending = s.pending ∧ (signalingIn p f m s).fresh = s.fresh ∧
    (signalingIn p f m s).now = s.now ∧ (signalingIn p f m s).pwr = s.pwr ∧ (signalingIn p f m s).arb = s.arb ∧
    (signalingIn p f m s).halves = s.halves ∧ (signalingIn p f m s).parts = s.parts ∧
    (signalingIn p f m s).ops = s.ops ∧ (signalingIn p f m s).ident = s.ident ∧
    (signalingIn p f m s).models = s.models ∧ (signalingIn p f m s).caps = s.caps ∧
    (signalingIn p f m s).jets = s.jets ∧ (signalingIn p f m s).lanes = s.lanes ∧ (signalingIn p f m s).ftn = s.ftn ∧
    (signalingIn p f m s).keys = s.keys ∧ (signalingIn p f m s).flt = s.flt ∧ (signalingIn p f m s).mgt = s.mgt ∧
    (∀ rp ro, regOf (signalingIn p f m s).pages rp ro = regOf s.pages rp ro) := by
  simp [signalingIn]

@[simp] theorem keeps_exchangeIn (h : Half) (n : SlotNo) (x : Exchange) (asym : Int) (t : Option (Int × Int)) (d : Dom) (s : State) :
    (exchangeIn h n x asym t d s).pending = s.pending ∧ (exchangeIn h n x asym t d s).now = s.now ∧
    (exchangeIn h n x asym t d s).pwr = s.pwr ∧ (exchangeIn h n x asym t d s).arb = s.arb ∧
    (exchangeIn h n x asym t d s).parts = s.parts ∧ (exchangeIn h n x asym t d s).ops = s.ops ∧
    (exchangeIn h n x asym t d s).ident = s.ident ∧ (exchangeIn h n x asym t d s).models = s.models ∧
    (exchangeIn h n x asym t d s).caps = s.caps ∧ (exchangeIn h n x asym t d s).jets = s.jets ∧
    (exchangeIn h n x asym t d s).lanes = s.lanes ∧ (exchangeIn h n x asym t d s).ports = s.ports ∧
    (exchangeIn h n x asym t d s).ptp = s.ptp ∧ (exchangeIn h n x asym t d s).ftn = s.ftn ∧
    (exchangeIn h n x asym t d s).keys = s.keys ∧ (exchangeIn h n x asym t d s).flt = s.flt ∧
    (∀ rp ro, regOf (exchangeIn h n x asym t d s).pages rp ro = regOf s.pages rp ro) := by
  unfold exchangeIn; (repeat' split) <;> simp

@[simp] theorem keeps_observeExchange (h : Half) (n : SlotNo) (x : Exchange) (asym : Int) (q : DreqSent) (s : State) :
    (observeExchange h n x asym q s).pending = s.pending ∧ (observeExchange h n x asym q s).now = s.now ∧
    (observeExchange h n x asym q s).pwr = s.pwr ∧ (observeExchange h n x asym q s).arb = s.arb ∧
    (observeExchange h n x asym q s).parts = s.parts ∧ (observeExchange h n x asym q s).ops = s.ops ∧
    (observeExchange h n x asym q s).ident = s.ident ∧ (observeExchange h n x asym q s).models = s.models ∧
    (observeExchange h n x asym q s).caps = s.caps ∧ (observeExchange h n x asym q s).jets = s.jets ∧
    (observeExchange h n x asym q s).lanes = s.lanes ∧ (observeExchange h n x asym q s).ports = s.ports ∧
    (observeExchange h n x asym q s).ptp = s.ptp ∧ (observeExchange h n x asym q s).ftn = s.ftn ∧
    (observeExchange h n x asym q s).keys = s.keys ∧ (observeExchange h n x asym q s).flt = s.flt ∧
    (∀ rp ro, regOf (observeExchange h n x asym q s).pages rp ro = regOf s.pages rp ro) := by
  simp [observeExchange]

@[simp] theorem keeps_delayIn (h : Half) (n : SlotNo) (x : Exchange) (t : Option (Int × Int)) (s : State) :
    (delayIn h n x t s).pending = s.pending ∧ (delayIn h n x t s).fresh = s.fresh ∧ (delayIn h n x t s).now = s.now ∧
    (delayIn h n x t s).pwr = s.pwr ∧ (delayIn h n x t s).arb = s.arb ∧ (delayIn h n x t s).parts = s.parts ∧
    (delayIn h n x t s).ops = s.ops ∧ (delayIn h n x t s).ident = s.ident ∧ (delayIn h n x t s).models = s.models ∧
    (delayIn h n x t s).caps = s.caps ∧ (delayIn h n x t s).jets = s.jets ∧ (delayIn h n x t s).lanes = s.lanes ∧
    (delayIn h n x t s).ports = s.ports ∧ (delayIn h n x t s).ptp = s.ptp ∧ (delayIn h n x t s).ftn = s.ftn ∧
    (delayIn h n x t s).keys = s.keys ∧ (delayIn h n x t s).flt = s.flt ∧
    (∀ rp ro, regOf (delayIn h n x t s).pages rp ro = regOf s.pages rp ro) := by
  unfold delayIn; (repeat' split) <;> simp

@[simp] theorem keeps_takeExchange (h : Half) (n : SlotNo) (x : Exchange) (asym : Int) (b : Code) (q : DreqSent) (s : State) :
    (takeExchange h n x asym b q s).pending = s.pending ∧ (takeExchange h n x asym b q s).now = s.now ∧
    (takeExchange h n x asym b q s).pwr = s.pwr ∧ (takeExchange h n x asym b q s).arb = s.arb ∧
    (takeExchange h n x asym b q s).parts = s.parts ∧ (takeExchange h n x asym b q s).ops = s.ops ∧
    (takeExchange h n x asym b q s).ident = s.ident ∧ (takeExchange h n x asym b q s).models = s.models ∧
    (takeExchange h n x asym b q s).caps = s.caps ∧ (takeExchange h n x asym b q s).jets = s.jets ∧
    (takeExchange h n x asym b q s).lanes = s.lanes ∧ (takeExchange h n x asym b q s).ports = s.ports ∧
    (takeExchange h n x asym b q s).ptp = s.ptp ∧ (takeExchange h n x asym b q s).ftn = s.ftn ∧
    (takeExchange h n x asym b q s).keys = s.keys ∧ (takeExchange h n x asym b q s).flt = s.flt ∧
    (∀ rp ro, regOf (takeExchange h n x asym b q s).pages rp ro = regOf s.pages rp ro) := by
  unfold takeExchange; (repeat' split) <;> simp

@[simp] theorem keeps_exchanged (k : ClNo) (x : Exchange) (q : DreqSent) (s : State) :
    (exchanged k x q s).pending = s.pending ∧ (exchanged k x q s).now = s.now ∧ (exchanged k x q s).pwr = s.pwr ∧
    (exchanged k x q s).arb = s.arb ∧ (exchanged k x q s).parts = s.parts ∧ (exchanged k x q s).ops = s.ops ∧
    (exchanged k x q s).ident = s.ident ∧ (exchanged k x q s).models = s.models ∧ (exchanged k x q s).caps = s.caps ∧
    (exchanged k x q s).jets = s.jets ∧ (exchanged k x q s).lanes = s.lanes ∧ (exchanged k x q s).ports = s.ports ∧
    (exchanged k x q s).ftn = s.ftn ∧ (exchanged k x q s).keys = s.keys ∧ (exchanged k x q s).flt = s.flt ∧
    (∀ rp ro, regOf (exchanged k x q s).pages rp ro = regOf s.pages rp ro) := by
  simp [exchanged]

@[simp] theorem keeps_exchangeOf (k : ClNo) (x : Exchange) (q : Option DreqSent) (s : State) :
    (exchangeOf k x q s).pending = s.pending ∧ (exchangeOf k x q s).now = s.now ∧ (exchangeOf k x q s).pwr = s.pwr ∧
    (exchangeOf k x q s).arb = s.arb ∧ (exchangeOf k x q s).parts = s.parts ∧ (exchangeOf k x q s).ops = s.ops ∧
    (exchangeOf k x q s).ident = s.ident ∧ (exchangeOf k x q s).models = s.models ∧
    (exchangeOf k x q s).caps = s.caps ∧ (exchangeOf k x q s).jets = s.jets ∧ (exchangeOf k x q s).lanes = s.lanes ∧
    (exchangeOf k x q s).ports = s.ports ∧ (exchangeOf k x q s).ftn = s.ftn ∧ (exchangeOf k x q s).keys = s.keys ∧
    (exchangeOf k x q s).flt = s.flt ∧ (∀ rp ro, regOf (exchangeOf k x q s).pages rp ro = regOf s.pages rp ro) := by
  unfold exchangeOf; (repeat' split) <;> simp

@[simp] theorem keeps_exchangePass (k : ClNo) (x : Exchange) (s : State) :
    (exchangePass k x s).2.pending = s.pending ∧ (exchangePass k x s).2.fresh = s.fresh ∧
    (exchangePass k x s).2.now = s.now ∧ (exchangePass k x s).2.pwr = s.pwr ∧ (exchangePass k x s).2.arb = s.arb ∧
    (exchangePass k x s).2.halves = s.halves ∧ (exchangePass k x s).2.parts = s.parts ∧
    (exchangePass k x s).2.ops = s.ops ∧ (exchangePass k x s).2.ident = s.ident ∧
    (exchangePass k x s).2.models = s.models ∧ (exchangePass k x s).2.caps = s.caps ∧
    (exchangePass k x s).2.jets = s.jets ∧ (exchangePass k x s).2.lanes = s.lanes ∧
    (exchangePass k x s).2.ports = s.ports ∧ (exchangePass k x s).2.ftn = s.ftn ∧
    (exchangePass k x s).2.keys = s.keys ∧ (exchangePass k x s).2.flt = s.flt ∧ (exchangePass k x s).2.mgt = s.mgt ∧
    (∀ rp ro, regOf (exchangePass k x s).2.pages rp ro = regOf s.pages rp ro) := by
  unfold exchangePass; (repeat' split) <;> simp

@[simp] theorem keeps_exchangeComplete (k : ClNo) (x : Exchange) (s : State) :
    (exchangeComplete k x s).pending = s.pending ∧ (exchangeComplete k x s).now = s.now ∧
    (exchangeComplete k x s).pwr = s.pwr ∧ (exchangeComplete k x s).arb = s.arb ∧
    (exchangeComplete k x s).parts = s.parts ∧ (exchangeComplete k x s).ops = s.ops ∧
    (exchangeComplete k x s).ident = s.ident ∧ (exchangeComplete k x s).models = s.models ∧
    (exchangeComplete k x s).caps = s.caps ∧ (exchangeComplete k x s).jets = s.jets ∧
    (exchangeComplete k x s).lanes = s.lanes ∧ (exchangeComplete k x s).ports = s.ports ∧
    (exchangeComplete k x s).ftn = s.ftn ∧ (exchangeComplete k x s).keys = s.keys ∧
    (exchangeComplete k x s).flt = s.flt ∧
    (∀ rp ro, regOf (exchangeComplete k x s).pages rp ro = regOf s.pages rp ro) := by
  simp [exchangeComplete]

@[simp] theorem keeps_delayRespTimeout (k : ClNo) (s : State) :
    (delayRespTimeout k s).pending = s.pending ∧ (delayRespTimeout k s).fresh = s.fresh ∧
    (delayRespTimeout k s).now = s.now ∧ (delayRespTimeout k s).outs = s.outs ∧
    (delayRespTimeout k s).pages = s.pages ∧ (delayRespTimeout k s).pwr = s.pwr ∧ (delayRespTimeout k s).arb = s.arb ∧
    (delayRespTimeout k s).halves = s.halves ∧ (delayRespTimeout k s).parts = s.parts ∧
    (delayRespTimeout k s).bars = s.bars ∧ (delayRespTimeout k s).ops = s.ops ∧
    (delayRespTimeout k s).ident = s.ident ∧ (delayRespTimeout k s).models = s.models ∧
    (delayRespTimeout k s).caps = s.caps ∧ (delayRespTimeout k s).jets = s.jets ∧
    (delayRespTimeout k s).lanes = s.lanes ∧ (delayRespTimeout k s).ports = s.ports ∧
    (delayRespTimeout k s).ftn = s.ftn ∧ (delayRespTimeout k s).keys = s.keys ∧ (delayRespTimeout k s).flt = s.flt ∧
    (delayRespTimeout k s).mgt = s.mgt ∧ (delayRespTimeout k s).cnt = s.cnt := by
  simp [delayRespTimeout]

@[simp] theorem keeps_clientBeat (k : ClNo) (s : State) :
    (clientBeat k s).pending = s.pending ∧ (clientBeat k s).fresh = s.fresh ∧ (clientBeat k s).now = s.now ∧
    (clientBeat k s).pwr = s.pwr ∧ (clientBeat k s).arb = s.arb ∧ (clientBeat k s).parts = s.parts ∧
    (clientBeat k s).ops = s.ops ∧ (clientBeat k s).ident = s.ident ∧ (clientBeat k s).models = s.models ∧
    (clientBeat k s).caps = s.caps ∧ (clientBeat k s).jets = s.jets ∧ (clientBeat k s).lanes = s.lanes ∧
    (clientBeat k s).ports = s.ports ∧ (clientBeat k s).ftn = s.ftn ∧ (clientBeat k s).keys = s.keys ∧
    (clientBeat k s).flt = s.flt ∧ (clientBeat k s).mgt = s.mgt ∧
    (∀ rp ro, regOf (clientBeat k s).pages rp ro = regOf s.pages rp ro) := by
  simp [clientBeat]

@[simp] theorem keeps_clientsBeat (d : Dom) (s : State) :
    (clientsBeat d s).pending = s.pending ∧ (clientsBeat d s).fresh = s.fresh ∧ (clientsBeat d s).now = s.now ∧
    (clientsBeat d s).pwr = s.pwr ∧ (clientsBeat d s).arb = s.arb ∧ (clientsBeat d s).parts = s.parts ∧
    (clientsBeat d s).ops = s.ops ∧ (clientsBeat d s).ident = s.ident ∧ (clientsBeat d s).models = s.models ∧
    (clientsBeat d s).caps = s.caps ∧ (clientsBeat d s).jets = s.jets ∧ (clientsBeat d s).lanes = s.lanes ∧
    (clientsBeat d s).ports = s.ports ∧ (clientsBeat d s).ftn = s.ftn ∧ (clientsBeat d s).keys = s.keys ∧
    (clientsBeat d s).flt = s.flt ∧ (clientsBeat d s).mgt = s.mgt ∧
    (∀ rp ro, regOf (clientsBeat d s).pages rp ro = regOf s.pages rp ro) := by
  simp [clientsBeat]

@[simp] theorem keeps_l1SyncSend (p : PortNo) (s : State) :
    (l1SyncSend p s).pending = s.pending ∧ (l1SyncSend p s).fresh = s.fresh ∧ (l1SyncSend p s).now = s.now ∧
    (l1SyncSend p s).outs = s.outs ∧ (l1SyncSend p s).pages = s.pages ∧ (l1SyncSend p s).pwr = s.pwr ∧
    (l1SyncSend p s).arb = s.arb ∧ (l1SyncSend p s).halves = s.halves ∧ (l1SyncSend p s).parts = s.parts ∧
    (l1SyncSend p s).bars = s.bars ∧ (l1SyncSend p s).ops = s.ops ∧ (l1SyncSend p s).ident = s.ident ∧
    (l1SyncSend p s).models = s.models ∧ (l1SyncSend p s).caps = s.caps ∧ (l1SyncSend p s).jets = s.jets ∧
    (l1SyncSend p s).lanes = s.lanes ∧ (l1SyncSend p s).ftn = s.ftn ∧ (l1SyncSend p s).keys = s.keys ∧
    (l1SyncSend p s).flt = s.flt ∧ (l1SyncSend p s).mgt = s.mgt ∧ (l1SyncSend p s).cnt = s.cnt := by
  simp [l1SyncSend]

@[simp] theorem keeps_ptpDetection (det : Byte) (index : Nat) (s : State) :
    (ptpDetection det index s).pending = s.pending ∧ (ptpDetection det index s).fresh = s.fresh ∧
    (ptpDetection det index s).now = s.now ∧ (ptpDetection det index s).pwr = s.pwr ∧
    (ptpDetection det index s).arb = s.arb ∧ (ptpDetection det index s).parts = s.parts ∧
    (ptpDetection det index s).ops = s.ops ∧ (ptpDetection det index s).models = s.models ∧
    (ptpDetection det index s).caps = s.caps ∧ (ptpDetection det index s).jets = s.jets ∧
    (ptpDetection det index s).lanes = s.lanes ∧ (ptpDetection det index s).ports = s.ports ∧
    (ptpDetection det index s).ftn = s.ftn ∧ (ptpDetection det index s).keys = s.keys ∧
    (ptpDetection det index s).mgt = s.mgt ∧
    (∀ rp ro, regOf (ptpDetection det index s).pages rp ro = regOf s.pages rp ro) := by
  unfold ptpDetection; (repeat' split) <;> simp

/-! ## Ftn -/

@[simp] theorem keeps_ftnCount (s : State) (c : FtnCnt) (n : Nat) :
    (State.ftnCount s c n).pending = s.pending ∧ (State.ftnCount s c n).fresh = s.fresh ∧
    (State.ftnCount s c n).now = s.now ∧ (State.ftnCount s c n).pwr = s.pwr ∧ (State.ftnCount s c n).arb = s.arb ∧
    (State.ftnCount s c n).halves = s.halves ∧ (State.ftnCount s c n).parts = s.parts ∧
    (State.ftnCount s c n).ops = s.ops ∧ (State.ftnCount s c n).ident = s.ident ∧
    (State.ftnCount s c n).models = s.models ∧ (State.ftnCount s c n).caps = s.caps ∧
    (State.ftnCount s c n).jets = s.jets ∧ (State.ftnCount s c n).lanes = s.lanes ∧
    (State.ftnCount s c n).ports = s.ports ∧ (State.ftnCount s c n).ptp = s.ptp ∧
    (State.ftnCount s c n).keys = s.keys ∧ (State.ftnCount s c n).flt = s.flt ∧ (State.ftnCount s c n).mgt = s.mgt ∧
    (∀ rp ro, regOf (State.ftnCount s c n).pages rp ro = regOf s.pages rp ro) := by
  unfold State.ftnCount; (repeat' split) <;> simp

@[simp] theorem keeps_modFtnPort (s : State) (p : PortNo) (f : FtnPort → FtnPort) :
    (State.modFtnPort s p f).pending = s.pending ∧ (State.modFtnPort s p f).fresh = s.fresh ∧
    (State.modFtnPort s p f).now = s.now ∧ (State.modFtnPort s p f).outs = s.outs ∧
    (State.modFtnPort s p f).pages = s.pages ∧ (State.modFtnPort s p f).pwr = s.pwr ∧
    (State.modFtnPort s p f).arb = s.arb ∧ (State.modFtnPort s p f).halves = s.halves ∧
    (State.modFtnPort s p f).parts = s.parts ∧ (State.modFtnPort s p f).bars = s.bars ∧
    (State.modFtnPort s p f).ops = s.ops ∧ (State.modFtnPort s p f).ident = s.ident ∧
    (State.modFtnPort s p f).models = s.models ∧ (State.modFtnPort s p f).caps = s.caps ∧
    (State.modFtnPort s p f).jets = s.jets ∧ (State.modFtnPort s p f).lanes = s.lanes ∧
    (State.modFtnPort s p f).ptp = s.ptp ∧ (State.modFtnPort s p f).keys = s.keys ∧
    (State.modFtnPort s p f).flt = s.flt ∧ (State.modFtnPort s p f).mgt = s.mgt ∧
    (State.modFtnPort s p f).cnt = s.cnt := by
  simp [State.modFtnPort]

@[simp] theorem keeps_noteLeap (s : State) :
    (noteLeap s).pending = s.pending ∧ (noteLeap s).fresh = s.fresh ∧ (noteLeap s).now = s.now ∧
    (noteLeap s).outs = s.outs ∧ (noteLeap s).pages = s.pages ∧ (noteLeap s).pwr = s.pwr ∧ (noteLeap s).arb = s.arb ∧
    (noteLeap s).halves = s.halves ∧ (noteLeap s).parts = s.parts ∧ (noteLeap s).bars = s.bars ∧
    (noteLeap s).ops = s.ops ∧ (noteLeap s).ident = s.ident ∧ (noteLeap s).models = s.models ∧
    (noteLeap s).caps = s.caps ∧ (noteLeap s).jets = s.jets ∧ (noteLeap s).lanes = s.lanes ∧
    (noteLeap s).ports = s.ports ∧ (noteLeap s).ptp = s.ptp ∧ (noteLeap s).keys = s.keys ∧ (noteLeap s).flt = s.flt ∧
    (noteLeap s).mgt = s.mgt ∧ (noteLeap s).cnt = s.cnt := by
  simp [noteLeap]

@[simp] theorem keeps_settleFtn (s0 : State) :
    (settleFtn s0).pending = s0.pending ∧ (settleFtn s0).fresh = s0.fresh ∧ (settleFtn s0).now = s0.now ∧
    (settleFtn s0).arb = s0.arb ∧ (settleFtn s0).halves = s0.halves ∧ (settleFtn s0).parts = s0.parts ∧
    (settleFtn s0).ops = s0.ops ∧ (settleFtn s0).ident = s0.ident ∧ (settleFtn s0).models = s0.models ∧
    (settleFtn s0).caps = s0.caps ∧ (settleFtn s0).jets = s0.jets ∧ (settleFtn s0).lanes = s0.lanes ∧
    (settleFtn s0).ptp = s0.ptp ∧ (settleFtn s0).keys = s0.keys ∧ (settleFtn s0).flt = s0.flt ∧
    (settleFtn s0).mgt = s0.mgt ∧ (∀ rp ro, regOf (settleFtn s0).pages rp ro = regOf s0.pages rp ro) := by
  simp [settleFtn]

@[simp] theorem keeps_ntpRef (s : State) (d : Dom) :
    (State.ntpRef s d).2.pending = s.pending ∧ (State.ntpRef s d).2.now = s.now ∧ (State.ntpRef s d).2.outs = s.outs ∧
    (State.ntpRef s d).2.pages = s.pages ∧ (State.ntpRef s d).2.pwr = s.pwr ∧ (State.ntpRef s d).2.arb = s.arb ∧
    (State.ntpRef s d).2.halves = s.halves ∧ (State.ntpRef s d).2.parts = s.parts ∧
    (State.ntpRef s d).2.bars = s.bars ∧ (State.ntpRef s d).2.ops = s.ops ∧ (State.ntpRef s d).2.ident = s.ident ∧
    (State.ntpRef s d).2.models = s.models ∧ (State.ntpRef s d).2.caps = s.caps ∧ (State.ntpRef s d).2.jets = s.jets ∧
    (State.ntpRef s d).2.lanes = s.lanes ∧ (State.ntpRef s d).2.ports = s.ports ∧ (State.ntpRef s d).2.ptp = s.ptp ∧
    (State.ntpRef s d).2.ftn = s.ftn ∧ (State.ntpRef s d).2.keys = s.keys ∧ (State.ntpRef s d).2.flt = s.flt ∧
    (State.ntpRef s d).2.mgt = s.mgt ∧ (State.ntpRef s d).2.cnt = s.cnt := by
  unfold State.ntpRef; (repeat' split) <;> simp

@[simp] theorem keeps_ntpHeader (s : State) (p : PortNo) (r : NtpResp) (t3 : Nat) (b : Code) (x : Nat) :
    (State.ntpHeader s p r t3 b x).2.pending = s.pending ∧ (State.ntpHeader s p r t3 b x).2.now = s.now ∧
    (State.ntpHeader s p r t3 b x).2.outs = s.outs ∧ (State.ntpHeader s p r t3 b x).2.pages = s.pages ∧
    (State.ntpHeader s p r t3 b x).2.pwr = s.pwr ∧ (State.ntpHeader s p r t3 b x).2.arb = s.arb ∧
    (State.ntpHeader s p r t3 b x).2.halves = s.halves ∧ (State.ntpHeader s p r t3 b x).2.parts = s.parts ∧
    (State.ntpHeader s p r t3 b x).2.bars = s.bars ∧ (State.ntpHeader s p r t3 b x).2.ops = s.ops ∧
    (State.ntpHeader s p r t3 b x).2.ident = s.ident ∧ (State.ntpHeader s p r t3 b x).2.models = s.models ∧
    (State.ntpHeader s p r t3 b x).2.caps = s.caps ∧ (State.ntpHeader s p r t3 b x).2.jets = s.jets ∧
    (State.ntpHeader s p r t3 b x).2.lanes = s.lanes ∧ (State.ntpHeader s p r t3 b x).2.ports = s.ports ∧
    (State.ntpHeader s p r t3 b x).2.ptp = s.ptp ∧ (State.ntpHeader s p r t3 b x).2.ftn = s.ftn ∧
    (State.ntpHeader s p r t3 b x).2.keys = s.keys ∧ (State.ntpHeader s p r t3 b x).2.flt = s.flt ∧
    (State.ntpHeader s p r t3 b x).2.mgt = s.mgt ∧ (State.ntpHeader s p r t3 b x).2.cnt = s.cnt := by
  simp only [State.ntpHeader]; (repeat' split) <;> simp

@[simp] theorem keeps_ftnUnit (s : State) (first n : Nat) :
    (State.ftnUnit s first n).2.pending = s.pending ∧ (State.ftnUnit s first n).2.now = s.now ∧
    (State.ftnUnit s first n).2.outs = s.outs ∧ (State.ftnUnit s first n).2.pages = s.pages ∧
    (State.ftnUnit s first n).2.pwr = s.pwr ∧ (State.ftnUnit s first n).2.arb = s.arb ∧
    (State.ftnUnit s first n).2.halves = s.halves ∧ (State.ftnUnit s first n).2.parts = s.parts ∧
    (State.ftnUnit s first n).2.bars = s.bars ∧ (State.ftnUnit s first n).2.ops = s.ops ∧
    (State.ftnUnit s first n).2.ident = s.ident ∧ (State.ftnUnit s first n).2.models = s.models ∧
    (State.ftnUnit s first n).2.caps = s.caps ∧ (State.ftnUnit s first n).2.jets = s.jets ∧
    (State.ftnUnit s first n).2.lanes = s.lanes ∧ (State.ftnUnit s first n).2.ports = s.ports ∧
    (State.ftnUnit s first n).2.ptp = s.ptp ∧ (State.ftnUnit s first n).2.ftn = s.ftn ∧
    (State.ftnUnit s first n).2.keys = s.keys ∧ (State.ftnUnit s first n).2.flt = s.flt ∧
    (State.ftnUnit s first n).2.mgt = s.mgt ∧ (State.ftnUnit s first n).2.cnt = s.cnt := by
  simp only [State.ftnUnit]; (repeat' split) <;> simp

@[simp] theorem keeps_ftnWork (s : State) (nb ops : Nat) :
    (State.ftnWork s nb ops).pending = s.pending ∧ (State.ftnWork s nb ops).fresh = s.fresh ∧
    (State.ftnWork s nb ops).now = s.now ∧ (State.ftnWork s nb ops).outs = s.outs ∧
    (State.ftnWork s nb ops).pages = s.pages ∧ (State.ftnWork s nb ops).pwr = s.pwr ∧
    (State.ftnWork s nb ops).arb = s.arb ∧ (State.ftnWork s nb ops).halves = s.halves ∧
    (State.ftnWork s nb ops).parts = s.parts ∧ (State.ftnWork s nb ops).bars = s.bars ∧
    (State.ftnWork s nb ops).ops = s.ops ∧ (State.ftnWork s nb ops).ident = s.ident ∧
    (State.ftnWork s nb ops).models = s.models ∧ (State.ftnWork s nb ops).caps = s.caps ∧
    (State.ftnWork s nb ops).jets = s.jets ∧ (State.ftnWork s nb ops).lanes = s.lanes ∧
    (State.ftnWork s nb ops).ports = s.ports ∧ (State.ftnWork s nb ops).ptp = s.ptp ∧
    (State.ftnWork s nb ops).keys = s.keys ∧ (State.ftnWork s nb ops).flt = s.flt ∧
    (State.ftnWork s nb ops).mgt = s.mgt ∧ (State.ftnWork s nb ops).cnt = s.cnt := by
  simp [State.ftnWork]

@[simp] theorem keeps_onUnit (det : Nat) (s : State) :
    (onUnit det s).2.pending = s.pending ∧ (onUnit det s).2.now = s.now ∧ (onUnit det s).2.outs = s.outs ∧
    (onUnit det s).2.pages = s.pages ∧ (onUnit det s).2.pwr = s.pwr ∧ (onUnit det s).2.arb = s.arb ∧
    (onUnit det s).2.halves = s.halves ∧ (onUnit det s).2.parts = s.parts ∧ (onUnit det s).2.bars = s.bars ∧
    (onUnit det s).2.ops = s.ops ∧ (onUnit det s).2.ident = s.ident ∧ (onUnit det s).2.models = s.models ∧
    (onUnit det s).2.caps = s.caps ∧ (onUnit det s).2.jets = s.jets ∧ (onUnit det s).2.lanes = s.lanes ∧
    (onUnit det s).2.ports = s.ports ∧ (onUnit det s).2.ptp = s.ptp ∧ (onUnit det s).2.ftn = s.ftn ∧
    (onUnit det s).2.keys = s.keys ∧ (onUnit det s).2.flt = s.flt ∧ (onUnit det s).2.mgt = s.mgt ∧
    (onUnit det s).2.cnt = s.cnt := by
  simp [onUnit]

theorem keeps_useBuilder (s t : State) (u : Nat × Nat) (h : useBuilder s = some (u, t)) :
    t.pending = s.pending ∧ t.now = s.now ∧ t.outs = s.outs ∧ t.pages = s.pages ∧ t.pwr = s.pwr ∧ t.arb = s.arb ∧
    t.halves = s.halves ∧ t.parts = s.parts ∧ t.bars = s.bars ∧ t.ops = s.ops ∧ t.ident = s.ident ∧
    t.models = s.models ∧ t.caps = s.caps ∧ t.jets = s.jets ∧ t.lanes = s.lanes ∧ t.ports = s.ports ∧ t.ptp = s.ptp ∧
    t.keys = s.keys ∧ t.flt = s.flt ∧ t.mgt = s.mgt := by
  unfold useBuilder at h
  rw [Option.map_eq_some_iff] at h
  obtain ⟨k, -, h⟩ := h
  have e := congrArg Prod.snd h
  simp only at e
  subst e
  simp

theorem keeps_useBuilder_if (c : Prop) [Decidable c] (s t : State) (u : Nat × Nat) (h : (if c then none else useBuilder s) = some (u, t)) :
    t.pending = s.pending ∧ t.now = s.now ∧ t.outs = s.outs ∧ t.pages = s.pages ∧ t.pwr = s.pwr ∧ t.arb = s.arb ∧
    t.halves = s.halves ∧ t.parts = s.parts ∧ t.bars = s.bars ∧ t.ops = s.ops ∧ t.ident = s.ident ∧
    t.models = s.models ∧ t.caps = s.caps ∧ t.jets = s.jets ∧ t.lanes = s.lanes ∧ t.ports = s.ports ∧ t.ptp = s.ptp ∧
    t.keys = s.keys ∧ t.flt = s.flt ∧ t.mgt = s.mgt := by
  refine keeps_useBuilder s t u ?_
  split at h <;> simp_all

theorem keeps_useAes (ops : Nat) (s t : State) (u : Nat × Nat) (h : useAes ops s = some (u, t)) :
    t.pending = s.pending ∧ t.now = s.now ∧ t.outs = s.outs ∧ t.pages = s.pages ∧ t.pwr = s.pwr ∧ t.arb = s.arb ∧
    t.halves = s.halves ∧ t.parts = s.parts ∧ t.bars = s.bars ∧ t.ops = s.ops ∧ t.ident = s.ident ∧
    t.models = s.models ∧ t.caps = s.caps ∧ t.jets = s.jets ∧ t.lanes = s.lanes ∧ t.ports = s.ports ∧ t.ptp = s.ptp ∧
    t.keys = s.keys ∧ t.flt = s.flt ∧ t.mgt = s.mgt := by
  unfold useAes at h
  rw [Option.map_eq_some_iff] at h
  obtain ⟨k, -, h⟩ := h
  have e := congrArg Prod.snd h
  simp only at e
  subst e
  simp

theorem keeps_useAes_if (c : Prop) [Decidable c] (ops : Nat) (s t : State) (u : Nat × Nat) (h : (if c then useAes ops s else none) = some (u, t)) :
    t.pending = s.pending ∧ t.now = s.now ∧ t.outs = s.outs ∧ t.pages = s.pages ∧ t.pwr = s.pwr ∧ t.arb = s.arb ∧
    t.halves = s.halves ∧ t.parts = s.parts ∧ t.bars = s.bars ∧ t.ops = s.ops ∧ t.ident = s.ident ∧
    t.models = s.models ∧ t.caps = s.caps ∧ t.jets = s.jets ∧ t.lanes = s.lanes ∧ t.ports = s.ports ∧ t.ptp = s.ptp ∧
    t.keys = s.keys ∧ t.flt = s.flt ∧ t.mgt = s.mgt := by
  refine keeps_useAes ops s t u ?_
  split at h <;> simp_all

@[simp] theorem keeps_mint (c2s s2c : List Byte) (s : State) :
    (mint c2s s2c s).2.pending = s.pending ∧ (mint c2s s2c s).2.fresh = s.fresh ∧ (mint c2s s2c s).2.now = s.now ∧
    (mint c2s s2c s).2.pwr = s.pwr ∧ (mint c2s s2c s).2.arb = s.arb ∧ (mint c2s s2c s).2.halves = s.halves ∧
    (mint c2s s2c s).2.parts = s.parts ∧ (mint c2s s2c s).2.ops = s.ops ∧ (mint c2s s2c s).2.ident = s.ident ∧
    (mint c2s s2c s).2.models = s.models ∧ (mint c2s s2c s).2.caps = s.caps ∧ (mint c2s s2c s).2.jets = s.jets ∧
    (mint c2s s2c s).2.lanes = s.lanes ∧ (mint c2s s2c s).2.ports = s.ports ∧ (mint c2s s2c s).2.ptp = s.ptp ∧
    (mint c2s s2c s).2.keys = s.keys ∧ (mint c2s s2c s).2.flt = s.flt ∧ (mint c2s s2c s).2.mgt = s.mgt ∧
    (∀ rp ro, regOf (mint c2s s2c s).2.pages rp ro = regOf s.pages rp ro) := by
  simp [mint]

@[simp] theorem keeps_mintN (c2s s2c : List Byte) (n : Nat) (s : State) :
    (mintN c2s s2c n s).2.pending = s.pending ∧ (mintN c2s s2c n s).2.fresh = s.fresh ∧
    (mintN c2s s2c n s).2.now = s.now ∧ (mintN c2s s2c n s).2.pwr = s.pwr ∧ (mintN c2s s2c n s).2.arb = s.arb ∧
    (mintN c2s s2c n s).2.halves = s.halves ∧ (mintN c2s s2c n s).2.parts = s.parts ∧
    (mintN c2s s2c n s).2.ops = s.ops ∧ (mintN c2s s2c n s).2.ident = s.ident ∧
    (mintN c2s s2c n s).2.models = s.models ∧ (mintN c2s s2c n s).2.caps = s.caps ∧
    (mintN c2s s2c n s).2.jets = s.jets ∧ (mintN c2s s2c n s).2.lanes = s.lanes ∧
    (mintN c2s s2c n s).2.ports = s.ports ∧ (mintN c2s s2c n s).2.ptp = s.ptp ∧ (mintN c2s s2c n s).2.keys = s.keys ∧
    (mintN c2s s2c n s).2.flt = s.flt ∧ (mintN c2s s2c n s).2.mgt = s.mgt ∧
    (∀ rp ro, regOf (mintN c2s s2c n s).2.pages rp ro = regOf s.pages rp ro) := by
  induction n generalizing s with
  | zero => simp [mintN]
  | succ n ih => unfold mintN; (repeat' split) <;> simp [ih]

@[simp] theorem keeps_epochAdv (s : State) :
    (epochAdv s).pending = s.pending ∧ (epochAdv s).fresh = s.fresh ∧ (epochAdv s).now = s.now ∧
    (epochAdv s).arb = s.arb ∧ (epochAdv s).halves = s.halves ∧ (epochAdv s).parts = s.parts ∧
    (epochAdv s).ops = s.ops ∧ (epochAdv s).ident = s.ident ∧ (epochAdv s).models = s.models ∧
    (epochAdv s).caps = s.caps ∧ (epochAdv s).jets = s.jets ∧ (epochAdv s).lanes = s.lanes ∧
    (epochAdv s).ptp = s.ptp ∧ (epochAdv s).keys = s.keys ∧ (epochAdv s).flt = s.flt ∧ (epochAdv s).mgt = s.mgt ∧
    (∀ rp ro, regOf (epochAdv s).pages rp ro = regOf s.pages rp ro) := by
  unfold epochAdv; (repeat' split) <;> simp

@[simp] theorem keeps_opCookieMint (t : Tag) (keys : HostRead) (s : State) :
    (opCookieMint t keys s).pending = s.pending ∧ (opCookieMint t keys s).now = s.now ∧
    (opCookieMint t keys s).arb = s.arb ∧ (opCookieMint t keys s).halves = s.halves ∧
    (opCookieMint t keys s).ident = s.ident ∧ (opCookieMint t keys s).models = s.models ∧
    (opCookieMint t keys s).caps = s.caps ∧ (opCookieMint t keys s).jets = s.jets ∧
    (opCookieMint t keys s).lanes = s.lanes ∧ (opCookieMint t keys s).ptp = s.ptp ∧
    (opCookieMint t keys s).keys = s.keys ∧ (opCookieMint t keys s).flt = s.flt ∧
    (opCookieMint t keys s).mgt = s.mgt ∧ (∀ rp ro, regOf (opCookieMint t keys s).pages rp ro = regOf s.pages rp ro) := by
  unfold opCookieMint
  split
  · simp
  · dsimp only
    (repeat' split) <;> first | (next hu => simp [keeps_useAes _ _ _ _ hu]) | simp

@[simp] theorem keeps_setClientEnt (s : State) (i : Nat) (e : Option ClientEnt) :
    (State.setClientEnt s i e).pending = s.pending ∧ (State.setClientEnt s i e).fresh = s.fresh ∧
    (State.setClientEnt s i e).now = s.now ∧ (State.setClientEnt s i e).outs = s.outs ∧
    (State.setClientEnt s i e).pages = s.pages ∧ (State.setClientEnt s i e).pwr = s.pwr ∧
    (State.setClientEnt s i e).arb = s.arb ∧ (State.setClientEnt s i e).halves = s.halves ∧
    (State.setClientEnt s i e).parts = s.parts ∧ (State.setClientEnt s i e).bars = s.bars ∧
    (State.setClientEnt s i e).ops = s.ops ∧ (State.setClientEnt s i e).ident = s.ident ∧
    (State.setClientEnt s i e).models = s.models ∧ (State.setClientEnt s i e).caps = s.caps ∧
    (State.setClientEnt s i e).jets = s.jets ∧ (State.setClientEnt s i e).lanes = s.lanes ∧
    (State.setClientEnt s i e).ports = s.ports ∧ (State.setClientEnt s i e).ptp = s.ptp ∧
    (State.setClientEnt s i e).keys = s.keys ∧ (State.setClientEnt s i e).flt = s.flt ∧
    (State.setClientEnt s i e).mgt = s.mgt ∧ (State.setClientEnt s i e).cnt = s.cnt := by
  simp [State.setClientEnt]

@[simp] theorem keeps_lookup (p : PortNo) (r : NtpReq) (nts : Bool) (s : State) :
    (lookup p r nts s).2.2.pending = s.pending ∧ (lookup p r nts s).2.2.fresh = s.fresh ∧
    (lookup p r nts s).2.2.now = s.now ∧ (lookup p r nts s).2.2.pwr = s.pwr ∧ (lookup p r nts s).2.2.arb = s.arb ∧
    (lookup p r nts s).2.2.halves = s.halves ∧ (lookup p r nts s).2.2.parts = s.parts ∧
    (lookup p r nts s).2.2.ops = s.ops ∧ (lookup p r nts s).2.2.ident = s.ident ∧
    (lookup p r nts s).2.2.models = s.models ∧ (lookup p r nts s).2.2.caps = s.caps ∧
    (lookup p r nts s).2.2.jets = s.jets ∧ (lookup p r nts s).2.2.lanes = s.lanes ∧
    (lookup p r nts s).2.2.ports = s.ports ∧ (lookup p r nts s).2.2.ptp = s.ptp ∧
    (lookup p r nts s).2.2.keys = s.keys ∧ (lookup p r nts s).2.2.flt = s.flt ∧ (lookup p r nts s).2.2.mgt = s.mgt ∧
    (∀ rp ro, regOf (lookup p r nts s).2.2.pages rp ro = regOf s.pages rp ro) := by
  unfold lookup; (repeat' split) <;> simp

@[simp] theorem keeps_charge (i : Nat) (e : ClientEnt) (s : State) :
    (charge i e s).pending = s.pending ∧ (charge i e s).fresh = s.fresh ∧ (charge i e s).now = s.now ∧
    (charge i e s).outs = s.outs ∧ (charge i e s).pages = s.pages ∧ (charge i e s).pwr = s.pwr ∧
    (charge i e s).arb = s.arb ∧ (charge i e s).halves = s.halves ∧ (charge i e s).parts = s.parts ∧
    (charge i e s).bars = s.bars ∧ (charge i e s).ops = s.ops ∧ (charge i e s).ident = s.ident ∧
    (charge i e s).models = s.models ∧ (charge i e s).caps = s.caps ∧ (charge i e s).jets = s.jets ∧
    (charge i e s).lanes = s.lanes ∧ (charge i e s).ports = s.ports ∧ (charge i e s).ptp = s.ptp ∧
    (charge i e s).keys = s.keys ∧ (charge i e s).flt = s.flt ∧ (charge i e s).mgt = s.mgt ∧
    (charge i e s).cnt = s.cnt := by
  simp [charge]

@[simp] theorem keeps_chargeShort (i : Nat) (e : ClientEnt) (s : State) :
    (chargeShort i e s).pending = s.pending ∧ (chargeShort i e s).now = s.now ∧ (chargeShort i e s).outs = s.outs ∧
    (chargeShort i e s).pages = s.pages ∧ (chargeShort i e s).pwr = s.pwr ∧ (chargeShort i e s).arb = s.arb ∧
    (chargeShort i e s).halves = s.halves ∧ (chargeShort i e s).parts = s.parts ∧ (chargeShort i e s).bars = s.bars ∧
    (chargeShort i e s).ops = s.ops ∧ (chargeShort i e s).ident = s.ident ∧ (chargeShort i e s).models = s.models ∧
    (chargeShort i e s).caps = s.caps ∧ (chargeShort i e s).jets = s.jets ∧ (chargeShort i e s).lanes = s.lanes ∧
    (chargeShort i e s).ports = s.ports ∧ (chargeShort i e s).ptp = s.ptp ∧ (chargeShort i e s).keys = s.keys ∧
    (chargeShort i e s).flt = s.flt ∧ (chargeShort i e s).mgt = s.mgt ∧ (chargeShort i e s).cnt = s.cnt := by
  simp [chargeShort]

@[simp] theorem keeps_overLimit (i : Nat) (e : ClientEnt) (s : State) :
    (overLimit i e s).2.pending = s.pending ∧ (overLimit i e s).2.fresh = s.fresh ∧ (overLimit i e s).2.now = s.now ∧
    (overLimit i e s).2.outs = s.outs ∧ (overLimit i e s).2.pages = s.pages ∧ (overLimit i e s).2.pwr = s.pwr ∧
    (overLimit i e s).2.arb = s.arb ∧ (overLimit i e s).2.halves = s.halves ∧ (overLimit i e s).2.parts = s.parts ∧
    (overLimit i e s).2.bars = s.bars ∧ (overLimit i e s).2.ops = s.ops ∧ (overLimit i e s).2.ident = s.ident ∧
    (overLimit i e s).2.models = s.models ∧ (overLimit i e s).2.caps = s.caps ∧ (overLimit i e s).2.jets = s.jets ∧
    (overLimit i e s).2.lanes = s.lanes ∧ (overLimit i e s).2.ports = s.ports ∧ (overLimit i e s).2.ptp = s.ptp ∧
    (overLimit i e s).2.keys = s.keys ∧ (overLimit i e s).2.flt = s.flt ∧ (overLimit i e s).2.mgt = s.mgt ∧
    (overLimit i e s).2.cnt = s.cnt := by
  simp [overLimit]

@[simp] theorem keeps_sweeperVisit (i : Nat) (s : State) :
    (sweeperVisit i s).pending = s.pending ∧ (sweeperVisit i s).fresh = s.fresh ∧ (sweeperVisit i s).now = s.now ∧
    (sweeperVisit i s).outs = s.outs ∧ (sweeperVisit i s).pages = s.pages ∧ (sweeperVisit i s).pwr = s.pwr ∧
    (sweeperVisit i s).arb = s.arb ∧ (sweeperVisit i s).halves = s.halves ∧ (sweeperVisit i s).parts = s.parts ∧
    (sweeperVisit i s).bars = s.bars ∧ (sweeperVisit i s).ops = s.ops ∧ (sweeperVisit i s).ident = s.ident ∧
    (sweeperVisit i s).models = s.models ∧ (sweeperVisit i s).caps = s.caps ∧ (sweeperVisit i s).jets = s.jets ∧
    (sweeperVisit i s).lanes = s.lanes ∧ (sweeperVisit i s).ports = s.ports ∧ (sweeperVisit i s).ptp = s.ptp ∧
    (sweeperVisit i s).keys = s.keys ∧ (sweeperVisit i s).flt = s.flt ∧ (sweeperVisit i s).mgt = s.mgt ∧
    (sweeperVisit i s).cnt = s.cnt := by
  unfold sweeperVisit; (repeat' split) <;> simp

@[simp] theorem keeps_queueNtp (p : PortNo) (r : NtpResp) (s : State) :
    (queueNtp p r s).pending = s.pending ∧ (queueNtp p r s).fresh = s.fresh ∧ (queueNtp p r s).now = s.now ∧
    (queueNtp p r s).outs = s.outs ∧ (queueNtp p r s).pages = s.pages ∧ (queueNtp p r s).pwr = s.pwr ∧
    (queueNtp p r s).arb = s.arb ∧ (queueNtp p r s).halves = s.halves ∧ (queueNtp p r s).parts = s.parts ∧
    (queueNtp p r s).bars = s.bars ∧ (queueNtp p r s).ops = s.ops ∧ (queueNtp p r s).ident = s.ident ∧
    (queueNtp p r s).models = s.models ∧ (queueNtp p r s).caps = s.caps ∧ (queueNtp p r s).jets = s.jets ∧
    (queueNtp p r s).lanes = s.lanes ∧ (queueNtp p r s).ptp = s.ptp ∧ (queueNtp p r s).ftn = s.ftn ∧
    (queueNtp p r s).keys = s.keys ∧ (queueNtp p r s).flt = s.flt ∧ (queueNtp p r s).mgt = s.mgt ∧
    (queueNtp p r s).cnt = s.cnt := by
  simp [queueNtp]

@[simp] theorem keeps_served_pending (p : PortNo) (nts : Bool) (k : State → State) (s : State)
    (h : (k s).pending = s.pending) : (served p nts k s).pending = s.pending := by
  unfold served; generalize (if nts = true then s.servesNts p else s.servesPlain p) = c; cases c <;> simp [h]

@[simp] theorem keeps_served_fresh (p : PortNo) (nts : Bool) (k : State → State) (s : State)
    (h : (k s).fresh = s.fresh) : (served p nts k s).fresh = s.fresh := by
  unfold served; generalize (if nts = true then s.servesNts p else s.servesPlain p) = c; cases c <;> simp [h]

@[simp] theorem keeps_served_now (p : PortNo) (nts : Bool) (k : State → State) (s : State)
    (h : (k s).now = s.now) : (served p nts k s).now = s.now := by
  unfold served; generalize (if nts = true then s.servesNts p else s.servesPlain p) = c; cases c <;> simp [h]

@[simp] theorem keeps_served_pwr (p : PortNo) (nts : Bool) (k : State → State) (s : State)
    (h : (k s).pwr = s.pwr) : (served p nts k s).pwr = s.pwr := by
  unfold served; generalize (if nts = true then s.servesNts p else s.servesPlain p) = c; cases c <;> simp [h]

@[simp] theorem keeps_served_arb (p : PortNo) (nts : Bool) (k : State → State) (s : State)
    (h : (k s).arb = s.arb) : (served p nts k s).arb = s.arb := by
  unfold served; generalize (if nts = true then s.servesNts p else s.servesPlain p) = c; cases c <;> simp [h]

@[simp] theorem keeps_served_halves (p : PortNo) (nts : Bool) (k : State → State) (s : State)
    (h : (k s).halves = s.halves) : (served p nts k s).halves = s.halves := by
  unfold served; generalize (if nts = true then s.servesNts p else s.servesPlain p) = c; cases c <;> simp [h]

@[simp] theorem keeps_served_parts (p : PortNo) (nts : Bool) (k : State → State) (s : State)
    (h : (k s).parts = s.parts) : (served p nts k s).parts = s.parts := by
  unfold served; generalize (if nts = true then s.servesNts p else s.servesPlain p) = c; cases c <;> simp [h]

@[simp] theorem keeps_served_ops (p : PortNo) (nts : Bool) (k : State → State) (s : State)
    (h : (k s).ops = s.ops) : (served p nts k s).ops = s.ops := by
  unfold served; generalize (if nts = true then s.servesNts p else s.servesPlain p) = c; cases c <;> simp [h]

@[simp] theorem keeps_served_ident (p : PortNo) (nts : Bool) (k : State → State) (s : State)
    (h : (k s).ident = s.ident) : (served p nts k s).ident = s.ident := by
  unfold served; generalize (if nts = true then s.servesNts p else s.servesPlain p) = c; cases c <;> simp [h]

@[simp] theorem keeps_served_models (p : PortNo) (nts : Bool) (k : State → State) (s : State)
    (h : (k s).models = s.models) : (served p nts k s).models = s.models := by
  unfold served; generalize (if nts = true then s.servesNts p else s.servesPlain p) = c; cases c <;> simp [h]

@[simp] theorem keeps_served_caps (p : PortNo) (nts : Bool) (k : State → State) (s : State)
    (h : (k s).caps = s.caps) : (served p nts k s).caps = s.caps := by
  unfold served; generalize (if nts = true then s.servesNts p else s.servesPlain p) = c; cases c <;> simp [h]

@[simp] theorem keeps_served_jets (p : PortNo) (nts : Bool) (k : State → State) (s : State)
    (h : (k s).jets = s.jets) : (served p nts k s).jets = s.jets := by
  unfold served; generalize (if nts = true then s.servesNts p else s.servesPlain p) = c; cases c <;> simp [h]

@[simp] theorem keeps_served_lanes (p : PortNo) (nts : Bool) (k : State → State) (s : State)
    (h : (k s).lanes = s.lanes) : (served p nts k s).lanes = s.lanes := by
  unfold served; generalize (if nts = true then s.servesNts p else s.servesPlain p) = c; cases c <;> simp [h]

@[simp] theorem keeps_served_ports (p : PortNo) (nts : Bool) (k : State → State) (s : State)
    (h : (k s).ports = s.ports) : (served p nts k s).ports = s.ports := by
  unfold served; generalize (if nts = true then s.servesNts p else s.servesPlain p) = c; cases c <;> simp [h]

@[simp] theorem keeps_served_ptp (p : PortNo) (nts : Bool) (k : State → State) (s : State)
    (h : (k s).ptp = s.ptp) : (served p nts k s).ptp = s.ptp := by
  unfold served; generalize (if nts = true then s.servesNts p else s.servesPlain p) = c; cases c <;> simp [h]

@[simp] theorem keeps_served_keys (p : PortNo) (nts : Bool) (k : State → State) (s : State)
    (h : (k s).keys = s.keys) : (served p nts k s).keys = s.keys := by
  unfold served; generalize (if nts = true then s.servesNts p else s.servesPlain p) = c; cases c <;> simp [h]

@[simp] theorem keeps_served_flt (p : PortNo) (nts : Bool) (k : State → State) (s : State)
    (h : (k s).flt = s.flt) : (served p nts k s).flt = s.flt := by
  unfold served; generalize (if nts = true then s.servesNts p else s.servesPlain p) = c; cases c <;> simp [h]

@[simp] theorem keeps_served_mgt (p : PortNo) (nts : Bool) (k : State → State) (s : State)
    (h : (k s).mgt = s.mgt) : (served p nts k s).mgt = s.mgt := by
  unfold served; generalize (if nts = true then s.servesNts p else s.servesPlain p) = c; cases c <;> simp [h]

@[simp] theorem keeps_served_REGS (p : PortNo) (nts : Bool) (k : State → State) (s : State) (rp ro : Nat)
    (h : regOf (k s).pages rp ro = regOf s.pages rp ro) : regOf (served p nts k s).pages rp ro = regOf s.pages rp ro := by
  unfold served; generalize (if nts = true then s.servesNts p else s.servesPlain p) = c; cases c <;> simp [h]

@[simp] theorem keeps_answerNtp (p : PortNo) (a : PathAB) (r : NtpReq) (d : Dom) (kind : NtpKind) (uid : List Byte) (u : Nat × Nat) (s : State) :
    (answerNtp p a r d kind uid u s).pending = s.pending ∧ (answerNtp p a r d kind uid u s).now = s.now ∧
    (answerNtp p a r d kind uid u s).outs = s.outs ∧ (answerNtp p a r d kind uid u s).pages = s.pages ∧
    (answerNtp p a r d kind uid u s).pwr = s.pwr ∧ (answerNtp p a r d kind uid u s).arb = s.arb ∧
    (answerNtp p a r d kind uid u s).halves = s.halves ∧ (answerNtp p a r d kind uid u s).parts = s.parts ∧
    (answerNtp p a r d kind uid u s).bars = s.bars ∧ (answerNtp p a r d kind uid u s).ops = s.ops ∧
    (answerNtp p a r d kind uid u s).ident = s.ident ∧ (answerNtp p a r d kind uid u s).models = s.models ∧
    (answerNtp p a r d kind uid u s).caps = s.caps ∧ (answerNtp p a r d kind uid u s).jets = s.jets ∧
    (answerNtp p a r d kind uid u s).lanes = s.lanes ∧ (answerNtp p a r d kind uid u s).ptp = s.ptp ∧
    (answerNtp p a r d kind uid u s).ftn = s.ftn ∧ (answerNtp p a r d kind uid u s).keys = s.keys ∧
    (answerNtp p a r d kind uid u s).flt = s.flt ∧ (answerNtp p a r d kind uid u s).mgt = s.mgt ∧
    (answerNtp p a r d kind uid u s).cnt = s.cnt := by
  simp [answerNtp]

@[simp] theorem keeps_ntpRequest (p : PortNo) (a : PathAB) (r : NtpReq) (s : State) :
    (ntpRequest p a r s).pending = s.pending ∧ (ntpRequest p a r s).now = s.now ∧ (ntpRequest p a r s).pwr = s.pwr ∧
    (ntpRequest p a r s).arb = s.arb ∧ (ntpRequest p a r s).halves = s.halves ∧ (ntpRequest p a r s).parts = s.parts ∧
    (ntpRequest p a r s).ops = s.ops ∧ (ntpRequest p a r s).ident = s.ident ∧ (ntpRequest p a r s).models = s.models ∧
    (ntpRequest p a r s).caps = s.caps ∧ (ntpRequest p a r s).jets = s.jets ∧ (ntpRequest p a r s).lanes = s.lanes ∧
    (ntpRequest p a r s).ptp = s.ptp ∧ (ntpRequest p a r s).keys = s.keys ∧ (ntpRequest p a r s).flt = s.flt ∧
    (ntpRequest p a r s).mgt = s.mgt ∧ (∀ rp ro, regOf (ntpRequest p a r s).pages rp ro = regOf s.pages rp ro) := by
  unfold ntpRequest
  split
  · simp
  · dsimp only
    split
    · simp
    · split
      · simp
      · next hu =>
        have hk := keeps_useBuilder_if _ _ _ _ hu
        (repeat' split) <;> simp [hk]

@[simp] theorem keeps_freshNonce (s : State) :
    (freshNonce s).2.pending = s.pending ∧ (freshNonce s).2.now = s.now ∧ (freshNonce s).2.outs = s.outs ∧
    (freshNonce s).2.pages = s.pages ∧ (freshNonce s).2.pwr = s.pwr ∧ (freshNonce s).2.arb = s.arb ∧
    (freshNonce s).2.halves = s.halves ∧ (freshNonce s).2.parts = s.parts ∧ (freshNonce s).2.bars = s.bars ∧
    (freshNonce s).2.ops = s.ops ∧ (freshNonce s).2.ident = s.ident ∧ (freshNonce s).2.models = s.models ∧
    (freshNonce s).2.caps = s.caps ∧ (freshNonce s).2.jets = s.jets ∧ (freshNonce s).2.lanes = s.lanes ∧
    (freshNonce s).2.ports = s.ports ∧ (freshNonce s).2.ptp = s.ptp ∧ (freshNonce s).2.ftn = s.ftn ∧
    (freshNonce s).2.keys = s.keys ∧ (freshNonce s).2.flt = s.flt ∧ (freshNonce s).2.mgt = s.mgt ∧
    (freshNonce s).2.cnt = s.cnt := by
  simp [freshNonce]

@[simp] theorem keeps_sealResp (p : PortNo) (r : NtpResp) (s : State) :
    (sealResp p r s).2.pending = s.pending ∧ (sealResp p r s).2.now = s.now ∧ (sealResp p r s).2.pwr = s.pwr ∧
    (sealResp p r s).2.arb = s.arb ∧ (sealResp p r s).2.halves = s.halves ∧ (sealResp p r s).2.parts = s.parts ∧
    (sealResp p r s).2.ops = s.ops ∧ (sealResp p r s).2.ident = s.ident ∧ (sealResp p r s).2.models = s.models ∧
    (sealResp p r s).2.caps = s.caps ∧ (sealResp p r s).2.jets = s.jets ∧ (sealResp p r s).2.lanes = s.lanes ∧
    (sealResp p r s).2.ports = s.ports ∧ (sealResp p r s).2.ptp = s.ptp ∧ (sealResp p r s).2.keys = s.keys ∧
    (sealResp p r s).2.flt = s.flt ∧ (sealResp p r s).2.mgt = s.mgt ∧
    (∀ rp ro, regOf (sealResp p r s).2.pages rp ro = regOf s.pages rp ro) := by
  simp [sealResp]

@[simp] theorem keeps_queueSealed (p : PortNo) (x : NtpResp × State) :
    (queueSealed p x).pending = x.2.pending ∧ (queueSealed p x).fresh = x.2.fresh ∧ (queueSealed p x).now = x.2.now ∧
    (queueSealed p x).outs = x.2.outs ∧ (queueSealed p x).pages = x.2.pages ∧ (queueSealed p x).pwr = x.2.pwr ∧
    (queueSealed p x).arb = x.2.arb ∧ (queueSealed p x).halves = x.2.halves ∧ (queueSealed p x).parts = x.2.parts ∧
    (queueSealed p x).bars = x.2.bars ∧ (queueSealed p x).ops = x.2.ops ∧ (queueSealed p x).ident = x.2.ident ∧
    (queueSealed p x).models = x.2.models ∧ (queueSealed p x).caps = x.2.caps ∧ (queueSealed p x).jets = x.2.jets ∧
    (queueSealed p x).lanes = x.2.lanes ∧ (queueSealed p x).ptp = x.2.ptp ∧ (queueSealed p x).ftn = x.2.ftn ∧
    (queueSealed p x).keys = x.2.keys ∧ (queueSealed p x).flt = x.2.flt ∧ (queueSealed p x).mgt = x.2.mgt ∧
    (queueSealed p x).cnt = x.2.cnt := by
  simp [queueSealed]

@[simp] theorem keeps_sealNts (p : PortNo) (a : PathAB) (r : NtpReq) (inTime : Bool) (n : NtsParts) (d : Dom) (kind : NtpKind) (k : List Byte × List Byte) (u : Nat × Nat) (s : State) :
    (sealNts p a r inTime n d kind k u s).pending = s.pending ∧ (sealNts p a r inTime n d kind k u s).now = s.now ∧
    (sealNts p a r inTime n d kind k u s).arb = s.arb ∧ (sealNts p a r inTime n d kind k u s).halves = s.halves ∧
    (sealNts p a r inTime n d kind k u s).parts = s.parts ∧ (sealNts p a r inTime n d kind k u s).ops = s.ops ∧
    (sealNts p a r inTime n d kind k u s).ident = s.ident ∧ (sealNts p a r inTime n d kind k u s).models = s.models ∧
    (sealNts p a r inTime n d kind k u s).caps = s.caps ∧ (sealNts p a r inTime n d kind k u s).jets = s.jets ∧
    (sealNts p a r inTime n d kind k u s).lanes = s.lanes ∧ (sealNts p a r inTime n d kind k u s).ptp = s.ptp ∧
    (sealNts p a r inTime n d kind k u s).keys = s.keys ∧ (sealNts p a r inTime n d kind k u s).flt = s.flt ∧
    (sealNts p a r inTime n d kind k u s).mgt = s.mgt ∧
    (∀ rp ro, regOf (sealNts p a r inTime n d kind k u s).pages rp ro = regOf s.pages rp ro) := by
  unfold sealNts
  dsimp only
  split
  · simp
  · next hu => simp [keeps_useAes_if _ _ _ _ _ hu]

@[simp] theorem keeps_ntsRequest (p : PortNo) (a : PathAB) (r : NtpReq) (n : NtsReq) (s : State) :
    (ntsRequest p a r n s).pending = s.pending ∧ (ntsRequest p a r n s).now = s.now ∧
    (ntsRequest p a r n s).arb = s.arb ∧ (ntsRequest p a r n s).halves = s.halves ∧
    (ntsRequest p a r n s).parts = s.parts ∧ (ntsRequest p a r n s).ops = s.ops ∧
    (ntsRequest p a r n s).ident = s.ident ∧ (ntsRequest p a r n s).models = s.models ∧
    (ntsRequest p a r n s).caps = s.caps ∧ (ntsRequest p a r n s).jets = s.jets ∧
    (ntsRequest p a r n s).lanes = s.lanes ∧ (ntsRequest p a r n s).ptp = s.ptp ∧
    (ntsRequest p a r n s).keys = s.keys ∧ (ntsRequest p a r n s).flt = s.flt ∧ (ntsRequest p a r n s).mgt = s.mgt ∧
    (∀ rp ro, regOf (ntsRequest p a r n s).pages rp ro = regOf s.pages rp ro) := by
  unfold ntsRequest
  split
  · simp
  · dsimp only
    split
    · simp
    · split
      · simp
      · next hu =>
        have hk := keeps_useBuilder_if _ _ _ _ hu
        (repeat' split) <;> simp [hk]

@[simp] theorem keeps_sendNtp (p : PortNo) (a : PathAB) (r : NtpResp) (h : NtpHeader) (ext : List Byte) (s : State) :
    (sendNtp p a r h ext s).pending = s.pending ∧ (sendNtp p a r h ext s).now = s.now ∧
    (sendNtp p a r h ext s).pwr = s.pwr ∧ (sendNtp p a r h ext s).arb = s.arb ∧
    (sendNtp p a r h ext s).halves = s.halves ∧ (sendNtp p a r h ext s).parts = s.parts ∧
    (sendNtp p a r h ext s).ops = s.ops ∧ (sendNtp p a r h ext s).ident = s.ident ∧
    (sendNtp p a r h ext s).models = s.models ∧ (sendNtp p a r h ext s).caps = s.caps ∧
    (sendNtp p a r h ext s).jets = s.jets ∧ (sendNtp p a r h ext s).lanes = s.lanes ∧
    (sendNtp p a r h ext s).ptp = s.ptp ∧ (sendNtp p a r h ext s).keys = s.keys ∧
    (sendNtp p a r h ext s).flt = s.flt ∧ (sendNtp p a r h ext s).mgt = s.mgt ∧
    (∀ rp ro, regOf (sendNtp p a r h ext s).pages rp ro = regOf s.pages rp ro) := by
  simp [sendNtp]

@[simp] theorem keeps_ntpLeaves (p : PortNo) (a : PathAB) (sub fec : Nat) (s : State) :
    (ntpLeaves p a sub fec s).pending = s.pending ∧ (ntpLeaves p a sub fec s).now = s.now ∧
    (ntpLeaves p a sub fec s).pwr = s.pwr ∧ (ntpLeaves p a sub fec s).arb = s.arb ∧
    (ntpLeaves p a sub fec s).halves = s.halves ∧ (ntpLeaves p a sub fec s).parts = s.parts ∧
    (ntpLeaves p a sub fec s).ops = s.ops ∧ (ntpLeaves p a sub fec s).ident = s.ident ∧
    (ntpLeaves p a sub fec s).models = s.models ∧ (ntpLeaves p a sub fec s).caps = s.caps ∧
    (ntpLeaves p a sub fec s).jets = s.jets ∧ (ntpLeaves p a sub fec s).lanes = s.lanes ∧
    (ntpLeaves p a sub fec s).ptp = s.ptp ∧ (ntpLeaves p a sub fec s).keys = s.keys ∧
    (ntpLeaves p a sub fec s).flt = s.flt ∧ (ntpLeaves p a sub fec s).mgt = s.mgt ∧
    (∀ rp ro, regOf (ntpLeaves p a sub fec s).pages rp ro = regOf s.pages rp ro) := by
  unfold ntpLeaves; (repeat' split) <;> simp

@[simp] theorem keeps_standbyCopy (p : PortNo) (s : State) :
    (standbyCopy p s).pending = s.pending ∧ (standbyCopy p s).fresh = s.fresh ∧ (standbyCopy p s).now = s.now ∧
    (standbyCopy p s).outs = s.outs ∧ (standbyCopy p s).pages = s.pages ∧ (standbyCopy p s).pwr = s.pwr ∧
    (standbyCopy p s).arb = s.arb ∧ (standbyCopy p s).halves = s.halves ∧ (standbyCopy p s).parts = s.parts ∧
    (standbyCopy p s).bars = s.bars ∧ (standbyCopy p s).ops = s.ops ∧ (standbyCopy p s).ident = s.ident ∧
    (standbyCopy p s).models = s.models ∧ (standbyCopy p s).caps = s.caps ∧ (standbyCopy p s).jets = s.jets ∧
    (standbyCopy p s).lanes = s.lanes ∧ (standbyCopy p s).ptp = s.ptp ∧ (standbyCopy p s).ftn = s.ftn ∧
    (standbyCopy p s).keys = s.keys ∧ (standbyCopy p s).flt = s.flt ∧ (standbyCopy p s).mgt = s.mgt := by
  simp [standbyCopy]

@[simp] theorem keeps_ntsLaunch (p : PortNo) (crossPs : Nat) (s : State) :
    (ntsLaunch p crossPs s).pending = s.pending ∧ (ntsLaunch p crossPs s).now = s.now ∧
    (ntsLaunch p crossPs s).pwr = s.pwr ∧ (ntsLaunch p crossPs s).arb = s.arb ∧
    (ntsLaunch p crossPs s).halves = s.halves ∧ (ntsLaunch p crossPs s).parts = s.parts ∧
    (ntsLaunch p crossPs s).ops = s.ops ∧ (ntsLaunch p crossPs s).ident = s.ident ∧
    (ntsLaunch p crossPs s).models = s.models ∧ (ntsLaunch p crossPs s).caps = s.caps ∧
    (ntsLaunch p crossPs s).jets = s.jets ∧ (ntsLaunch p crossPs s).lanes = s.lanes ∧
    (ntsLaunch p crossPs s).ptp = s.ptp ∧ (ntsLaunch p crossPs s).keys = s.keys ∧
    (ntsLaunch p crossPs s).flt = s.flt ∧ (ntsLaunch p crossPs s).mgt = s.mgt ∧
    (∀ rp ro, regOf (ntsLaunch p crossPs s).pages rp ro = regOf s.pages rp ro) := by
  unfold ntsLaunch; (repeat' split) <;> simp

@[simp] theorem keeps_doFtnKill (v : Word) (s : State) :
    (doFtnKill v s).pending = s.pending ∧ (doFtnKill v s).fresh = s.fresh ∧ (doFtnKill v s).now = s.now ∧
    (doFtnKill v s).arb = s.arb ∧ (doFtnKill v s).halves = s.halves ∧ (doFtnKill v s).parts = s.parts ∧
    (doFtnKill v s).ops = s.ops ∧ (doFtnKill v s).ident = s.ident ∧ (doFtnKill v s).models = s.models ∧
    (doFtnKill v s).caps = s.caps ∧ (doFtnKill v s).jets = s.jets ∧ (doFtnKill v s).lanes = s.lanes ∧
    (doFtnKill v s).ptp = s.ptp ∧ (doFtnKill v s).keys = s.keys ∧ (doFtnKill v s).flt = s.flt ∧
    (doFtnKill v s).mgt = s.mgt := by
  simp [doFtnKill]

@[simp] theorem keeps_ftnEnable (on : Bool) (s : State) :
    (ftnEnable on s).pending = s.pending ∧ (ftnEnable on s).fresh = s.fresh ∧ (ftnEnable on s).now = s.now ∧
    (ftnEnable on s).arb = s.arb ∧ (ftnEnable on s).halves = s.halves ∧ (ftnEnable on s).parts = s.parts ∧
    (ftnEnable on s).ops = s.ops ∧ (ftnEnable on s).ident = s.ident ∧ (ftnEnable on s).models = s.models ∧
    (ftnEnable on s).caps = s.caps ∧ (ftnEnable on s).jets = s.jets ∧ (ftnEnable on s).lanes = s.lanes ∧
    (ftnEnable on s).ptp = s.ptp ∧ (ftnEnable on s).keys = s.keys ∧ (ftnEnable on s).flt = s.flt ∧
    (ftnEnable on s).mgt = s.mgt ∧ (∀ rp ro, regOf (ftnEnable on s).pages rp ro = regOf s.pages rp ro) := by
  simp [ftnEnable]

@[simp] theorem keeps_leapBeat (s0 : State) :
    (leapBeat s0).pending = s0.pending ∧ (leapBeat s0).fresh = s0.fresh ∧ (leapBeat s0).now = s0.now ∧
    (leapBeat s0).pwr = s0.pwr ∧ (leapBeat s0).arb = s0.arb ∧ (leapBeat s0).halves = s0.halves ∧
    (leapBeat s0).parts = s0.parts ∧ (leapBeat s0).ops = s0.ops ∧ (leapBeat s0).ident = s0.ident ∧
    (leapBeat s0).models = s0.models ∧ (leapBeat s0).caps = s0.caps ∧ (leapBeat s0).jets = s0.jets ∧
    (leapBeat s0).lanes = s0.lanes ∧ (leapBeat s0).ports = s0.ports ∧ (leapBeat s0).ptp = s0.ptp ∧
    (leapBeat s0).keys = s0.keys ∧ (leapBeat s0).flt = s0.flt ∧ (leapBeat s0).mgt = s0.mgt := by
  simp [leapBeat]

@[simp] theorem keeps_ftnBeat (h : Half) (d : Dom) (s : State) :
    (ftnBeat h d s).pending = s.pending ∧ (ftnBeat h d s).fresh = s.fresh ∧ (ftnBeat h d s).now = s.now ∧
    (ftnBeat h d s).arb = s.arb ∧ (ftnBeat h d s).halves = s.halves ∧ (ftnBeat h d s).parts = s.parts ∧
    (ftnBeat h d s).ops = s.ops ∧ (ftnBeat h d s).ident = s.ident ∧ (ftnBeat h d s).models = s.models ∧
    (ftnBeat h d s).caps = s.caps ∧ (ftnBeat h d s).jets = s.jets ∧ (ftnBeat h d s).lanes = s.lanes ∧
    (ftnBeat h d s).ptp = s.ptp ∧ (ftnBeat h d s).keys = s.keys ∧ (ftnBeat h d s).flt = s.flt ∧
    (ftnBeat h d s).mgt = s.mgt ∧ (∀ rp ro, regOf (ftnBeat h d s).pages rp ro = regOf s.pages rp ro) := by
  simp [ftnBeat]

theorem keeps_replayUnits (r : NtpResp) (s t : State) (us : List (Nat × Nat)) (h : replayUnits r s = some (us, t)) :
    t.pending = s.pending ∧ t.now = s.now ∧ t.outs = s.outs ∧ t.pages = s.pages ∧ t.pwr = s.pwr ∧ t.arb = s.arb ∧
    t.halves = s.halves ∧ t.parts = s.parts ∧ t.bars = s.bars ∧ t.ops = s.ops ∧ t.ident = s.ident ∧
    t.models = s.models ∧ t.caps = s.caps ∧ t.jets = s.jets ∧ t.lanes = s.lanes ∧ t.ports = s.ports ∧ t.ptp = s.ptp ∧
    t.keys = s.keys ∧ t.flt = s.flt ∧ t.mgt = s.mgt := by
  unfold replayUnits at h
  split at h
  · cases h
  · next u s1 hb =>
    have e1 := keeps_useBuilder _ _ _ hb
    split at h
    · rw [Option.map_eq_some_iff] at h
      obtain ⟨v, hv, h⟩ := h
      have e := congrArg Prod.snd h
      simp only at e
      subst e
      have e2 := keeps_useAes_if _ _ _ _ _ hv
      simp [e1, e2]
    · cases h
      exact e1

@[simp] theorem keeps_replayResp (p : PortNo) (u : Nat) (r : NtpResp) (s : State) :
    (replayResp p u r s).2.pending = s.pending ∧ (replayResp p u r s).2.now = s.now ∧
    (replayResp p u r s).2.pwr = s.pwr ∧ (replayResp p u r s).2.arb = s.arb ∧
    (replayResp p u r s).2.halves = s.halves ∧ (replayResp p u r s).2.parts = s.parts ∧
    (replayResp p u r s).2.ops = s.ops ∧ (replayResp p u r s).2.ident = s.ident ∧
    (replayResp p u r s).2.models = s.models ∧ (replayResp p u r s).2.caps = s.caps ∧
    (replayResp p u r s).2.jets = s.jets ∧ (replayResp p u r s).2.lanes = s.lanes ∧
    (replayResp p u r s).2.ports = s.ports ∧ (replayResp p u r s).2.ptp = s.ptp ∧
    (replayResp p u r s).2.keys = s.keys ∧ (replayResp p u r s).2.flt = s.flt ∧ (replayResp p u r s).2.mgt = s.mgt ∧
    (∀ rp ro, regOf (replayResp p u r s).2.pages rp ro = regOf s.pages rp ro) := by
  unfold replayResp
  split
  · simp
  · split
    · simp
    · next hu =>
      have hk := keeps_replayUnits _ _ _ _ hu
      dsimp only
      split <;> simp [hk]

@[simp] theorem keeps_replayList (p : PortNo) (u : Nat) (l : List NtpResp) (s : State) :
    (replayList p u l s).2.pending = s.pending ∧ (replayList p u l s).2.now = s.now ∧
    (replayList p u l s).2.pwr = s.pwr ∧ (replayList p u l s).2.arb = s.arb ∧
    (replayList p u l s).2.halves = s.halves ∧ (replayList p u l s).2.parts = s.parts ∧
    (replayList p u l s).2.ops = s.ops ∧ (replayList p u l s).2.ident = s.ident ∧
    (replayList p u l s).2.models = s.models ∧ (replayList p u l s).2.caps = s.caps ∧
    (replayList p u l s).2.jets = s.jets ∧ (replayList p u l s).2.lanes = s.lanes ∧
    (replayList p u l s).2.ports = s.ports ∧ (replayList p u l s).2.ptp = s.ptp ∧
    (replayList p u l s).2.keys = s.keys ∧ (replayList p u l s).2.flt = s.flt ∧ (replayList p u l s).2.mgt = s.mgt ∧
    (∀ rp ro, regOf (replayList p u l s).2.pages rp ro = regOf s.pages rp ro) := by
  induction l generalizing s with
  | nil => simp [replayList]
  | cons r l ih => simp [replayList, ih]

@[simp] theorem keeps_replayUnit (u : Nat) (s : State) :
    (replayUnit u s).pending = s.pending ∧ (replayUnit u s).now = s.now ∧ (replayUnit u s).pwr = s.pwr ∧
    (replayUnit u s).arb = s.arb ∧ (replayUnit u s).halves = s.halves ∧ (replayUnit u s).parts = s.parts ∧
    (replayUnit u s).ops = s.ops ∧ (replayUnit u s).ident = s.ident ∧ (replayUnit u s).models = s.models ∧
    (replayUnit u s).caps = s.caps ∧ (replayUnit u s).jets = s.jets ∧ (replayUnit u s).lanes = s.lanes ∧
    (replayUnit u s).ptp = s.ptp ∧ (replayUnit u s).keys = s.keys ∧ (replayUnit u s).flt = s.flt ∧
    (replayUnit u s).mgt = s.mgt ∧ (∀ rp ro, regOf (replayUnit u s).pages rp ro = regOf s.pages rp ro) := by
  simp [replayUnit]

@[simp] theorem keeps_ftnDetection (det : Byte) (index : Nat) (s : State) :
    (ftnDetection det index s).pending = s.pending ∧ (ftnDetection det index s).now = s.now ∧
    (ftnDetection det index s).arb = s.arb ∧ (ftnDetection det index s).halves = s.halves ∧
    (ftnDetection det index s).parts = s.parts ∧ (ftnDetection det index s).ops = s.ops ∧
    (ftnDetection det index s).models = s.models ∧ (ftnDetection det index s).caps = s.caps ∧
    (ftnDetection det index s).jets = s.jets ∧ (ftnDetection det index s).lanes = s.lanes ∧
    (ftnDetection det index s).ptp = s.ptp ∧ (ftnDetection det index s).keys = s.keys ∧
    (ftnDetection det index s).mgt = s.mgt ∧
    (∀ rp ro, regOf (ftnDetection det index s).pages rp ro = regOf s.pages rp ro) := by
  unfold ftnDetection; (repeat' split) <;> simp

end Sys2Proof.Machine
end

