-- ==== Sys2Proof/Laws/KeepsBlock.lean ====
section
/-!
SUPPORT. Frame laws of arbiters, resynchronisation, boundaries, boot, management, faults, power and register accesses: for each operation, the fields of the state it leaves as they are. The commands' own
frames and the invariants over a step are read off these.
-/

namespace Sys2Proof.Machine

/-! ## Claims -/

@[simp] theorem keeps_noteClaim (s : State) (h : Half) :
    (State.noteClaim s h).pending = s.pending ∧ (State.noteClaim s h).fresh = s.fresh ∧
    (State.noteClaim s h).now = s.now ∧ (State.noteClaim s h).outs = s.outs ∧ (State.noteClaim s h).pages = s.pages ∧
    (State.noteClaim s h).pwr = s.pwr ∧ (State.noteClaim s h).arb = s.arb ∧ (State.noteClaim s h).parts = s.parts ∧
    (State.noteClaim s h).bars = s.bars ∧ (State.noteClaim s h).ops = s.ops ∧ (State.noteClaim s h).ident = s.ident ∧
    (State.noteClaim s h).models = s.models ∧ (State.noteClaim s h).caps = s.caps ∧
    (State.noteClaim s h).jets = s.jets ∧ (State.noteClaim s h).lanes = s.lanes ∧
    (State.noteClaim s h).ports = s.ports ∧ (State.noteClaim s h).ptp = s.ptp ∧ (State.noteClaim s h).ftn = s.ftn ∧
    (State.noteClaim s h).keys = s.keys ∧ (State.noteClaim s h).flt = s.flt ∧ (State.noteClaim s h).mgt = s.mgt ∧
    (State.noteClaim s h).cnt = s.cnt := by
  simp [State.noteClaim]

@[simp] theorem keeps_noClaim (s : State) :
    (State.noClaim s).pending = s.pending ∧ (State.noClaim s).fresh = s.fresh ∧ (State.noClaim s).now = s.now ∧
    (State.noClaim s).ident = s.ident ∧ (State.noClaim s).models = s.models ∧ (State.noClaim s).caps = s.caps ∧
    (State.noClaim s).lanes = s.lanes ∧ (State.noClaim s).keys = s.keys ∧ (State.noClaim s).flt = s.flt ∧
    (State.noClaim s).mgt = s.mgt ∧ (∀ rp ro, regOf (State.noClaim s).pages rp ro = regOf s.pages rp ro) := by
  unfold State.noClaim; (repeat' split) <;> simp

@[simp] theorem keeps_actClaims (s : State) (peer : Bool) :
    (State.actClaims s peer).pending = s.pending ∧ (State.actClaims s peer).fresh = s.fresh ∧
    (State.actClaims s peer).now = s.now ∧ (State.actClaims s peer).outs = s.outs ∧
    (State.actClaims s peer).pages = s.pages ∧ (State.actClaims s peer).pwr = s.pwr ∧
    (State.actClaims s peer).halves = s.halves ∧ (State.actClaims s peer).parts = s.parts ∧
    (State.actClaims s peer).bars = s.bars ∧ (State.actClaims s peer).ops = s.ops ∧
    (State.actClaims s peer).ident = s.ident ∧ (State.actClaims s peer).models = s.models ∧
    (State.actClaims s peer).caps = s.caps ∧ (State.actClaims s peer).jets = s.jets ∧
    (State.actClaims s peer).lanes = s.lanes ∧ (State.actClaims s peer).ports = s.ports ∧
    (State.actClaims s peer).ptp = s.ptp ∧ (State.actClaims s peer).ftn = s.ftn ∧
    (State.actClaims s peer).keys = s.keys ∧ (State.actClaims s peer).flt = s.flt ∧
    (State.actClaims s peer).mgt = s.mgt ∧ (State.actClaims s peer).cnt = s.cnt := by
  simp [State.actClaims]

@[simp] theorem keeps_newClaims (s : State) (h : Half) (c : Option (BitVec 8)) :
    (State.newClaims s h c).pending = s.pending ∧ (State.newClaims s h c).fresh = s.fresh ∧
    (State.newClaims s h c).now = s.now ∧ (State.newClaims s h c).ident = s.ident ∧
    (State.newClaims s h c).models = s.models ∧ (State.newClaims s h c).caps = s.caps ∧
    (State.newClaims s h c).lanes = s.lanes ∧ (State.newClaims s h c).keys = s.keys ∧
    (State.newClaims s h c).flt = s.flt ∧ (State.newClaims s h c).mgt = s.mgt ∧
    (∀ rp ro, regOf (State.newClaims s h c).pages rp ro = regOf s.pages rp ro) := by
  simp [State.newClaims]

@[simp] theorem keeps_peerGone (h : Half) (s : State) :
    (peerGone h s).pending = s.pending ∧ (peerGone h s).now = s.now ∧ (peerGone h s).pwr = s.pwr ∧
    (peerGone h s).ident = s.ident ∧ (peerGone h s).models = s.models ∧ (peerGone h s).jets = s.jets ∧
    (peerGone h s).lanes = s.lanes ∧ (peerGone h s).ports = s.ports ∧ (peerGone h s).ftn = s.ftn ∧
    (peerGone h s).keys = s.keys ∧ (peerGone h s).flt = s.flt ∧ (peerGone h s).mgt = s.mgt ∧
    (∀ rp ro, regOf (peerGone h s).pages rp ro = regOf s.pages rp ro) := by
  unfold peerGone; (repeat' split) <;> simp

@[simp] theorem keeps_claimChange (h : Half) (s : State) :
    (claimChange h s).pending = s.pending ∧ (claimChange h s).now = s.now ∧ (claimChange h s).ident = s.ident ∧
    (claimChange h s).models = s.models ∧ (claimChange h s).lanes = s.lanes ∧ (claimChange h s).keys = s.keys ∧
    (claimChange h s).flt = s.flt ∧ (claimChange h s).mgt = s.mgt ∧
    (∀ rp ro, regOf (claimChange h s).pages rp ro = regOf s.pages rp ro) := by
  simp [claimChange]

@[simp] theorem keeps_withdrawClaim (h : Half) (s : State) :
    (withdrawClaim h s).pending = s.pending ∧ (withdrawClaim h s).now = s.now ∧ (withdrawClaim h s).ident = s.ident ∧
    (withdrawClaim h s).models = s.models ∧ (withdrawClaim h s).lanes = s.lanes ∧ (withdrawClaim h s).keys = s.keys ∧
    (withdrawClaim h s).flt = s.flt ∧ (withdrawClaim h s).mgt = s.mgt ∧
    (∀ rp ro, regOf (withdrawClaim h s).pages rp ro = regOf s.pages rp ro) := by
  simp [withdrawClaim]

@[simp] theorem keeps_peerOkPersist (s : State) :
    (peerOkPersist s).pending = s.pending ∧ (peerOkPersist s).fresh = s.fresh ∧ (peerOkPersist s).now = s.now ∧
    (peerOkPersist s).outs = s.outs ∧ (peerOkPersist s).pages = s.pages ∧ (peerOkPersist s).pwr = s.pwr ∧
    (peerOkPersist s).halves = s.halves ∧ (peerOkPersist s).parts = s.parts ∧ (peerOkPersist s).bars = s.bars ∧
    (peerOkPersist s).ops = s.ops ∧ (peerOkPersist s).ident = s.ident ∧ (peerOkPersist s).models = s.models ∧
    (peerOkPersist s).caps = s.caps ∧ (peerOkPersist s).jets = s.jets ∧ (peerOkPersist s).lanes = s.lanes ∧
    (peerOkPersist s).ports = s.ports ∧ (peerOkPersist s).ptp = s.ptp ∧ (peerOkPersist s).ftn = s.ftn ∧
    (peerOkPersist s).keys = s.keys ∧ (peerOkPersist s).flt = s.flt ∧ (peerOkPersist s).mgt = s.mgt ∧
    (peerOkPersist s).cnt = s.cnt := by
  simp [peerOkPersist]

@[simp] theorem keeps_claimParityError (h : Half) (s : State) :
    (claimParityError h s).pending = s.pending ∧ (claimParityError h s).fresh = s.fresh ∧
    (claimParityError h s).now = s.now ∧ (claimParityError h s).models = s.models ∧
    (claimParityError h s).caps = s.caps ∧ (claimParityError h s).lanes = s.lanes ∧
    (claimParityError h s).keys = s.keys ∧ (claimParityError h s).mgt = s.mgt ∧
    (∀ rp ro, regOf (claimParityError h s).pages rp ro = regOf s.pages rp ro) := by
  simp [claimParityError]

@[simp] theorem keeps_claimParityClear (h : Half) (s : State) :
    (claimParityClear h s).pending = s.pending ∧ (claimParityClear h s).fresh = s.fresh ∧
    (claimParityClear h s).now = s.now ∧ (claimParityClear h s).ident = s.ident ∧
    (claimParityClear h s).models = s.models ∧ (claimParityClear h s).caps = s.caps ∧
    (claimParityClear h s).lanes = s.lanes ∧ (claimParityClear h s).keys = s.keys ∧
    (claimParityClear h s).flt = s.flt ∧ (claimParityClear h s).mgt = s.mgt ∧
    (∀ rp ro, regOf (claimParityClear h s).pages rp ro = regOf s.pages rp ro) := by
  simp [claimParityClear]

@[simp] theorem keeps_tellJets (told : Fin 4 → Nat) (x : HalfSt) (s : State) :
    (tellJets told x s).pending = s.pending ∧ (tellJets told x s).fresh = s.fresh ∧ (tellJets told x s).now = s.now ∧
    (tellJets told x s).pwr = s.pwr ∧ (tellJets told x s).arb = s.arb ∧ (tellJets told x s).halves = s.halves ∧
    (tellJets told x s).parts = s.parts ∧ (tellJets told x s).ops = s.ops ∧ (tellJets told x s).ident = s.ident ∧
    (tellJets told x s).models = s.models ∧ (tellJets told x s).caps = s.caps ∧ (tellJets told x s).lanes = s.lanes ∧
    (tellJets told x s).ports = s.ports ∧ (tellJets told x s).ptp = s.ptp ∧ (tellJets told x s).ftn = s.ftn ∧
    (tellJets told x s).keys = s.keys ∧ (tellJets told x s).flt = s.flt ∧ (tellJets told x s).mgt = s.mgt ∧
    (∀ rp ro, regOf (tellJets told x s).pages rp ro = regOf s.pages rp ro) := by
  simp [tellJets]

@[simp] theorem keeps_switchFollows (s : State) :
    (switchFollows s).pending = s.pending ∧ (switchFollows s).fresh = s.fresh ∧ (switchFollows s).now = s.now ∧
    (switchFollows s).outs = s.outs ∧ (switchFollows s).pages = s.pages ∧ (switchFollows s).pwr = s.pwr ∧
    (switchFollows s).arb = s.arb ∧ (switchFollows s).halves = s.halves ∧ (switchFollows s).parts = s.parts ∧
    (switchFollows s).bars = s.bars ∧ (switchFollows s).ops = s.ops ∧ (switchFollows s).ident = s.ident ∧
    (switchFollows s).models = s.models ∧ (switchFollows s).caps = s.caps ∧ (switchFollows s).jets = s.jets ∧
    (switchFollows s).lanes = s.lanes ∧ (switchFollows s).ptp = s.ptp ∧ (switchFollows s).ftn = s.ftn ∧
    (switchFollows s).keys = s.keys ∧ (switchFollows s).flt = s.flt ∧ (switchFollows s).mgt = s.mgt ∧
    (switchFollows s).cnt = s.cnt := by
  simp [switchFollows]

@[simp] theorem keeps_switchBus (s : State) :
    (switchBus s).pending = s.pending ∧ (switchBus s).now = s.now ∧ (switchBus s).pwr = s.pwr ∧
    (switchBus s).parts = s.parts ∧ (switchBus s).ident = s.ident ∧ (switchBus s).models = s.models ∧
    (switchBus s).caps = s.caps ∧ (switchBus s).lanes = s.lanes ∧ (switchBus s).ptp = s.ptp ∧
    (switchBus s).ftn = s.ftn ∧ (switchBus s).keys = s.keys ∧ (switchBus s).flt = s.flt ∧ (switchBus s).mgt = s.mgt := by
  unfold switchBus; (repeat' split) <;> simp

@[simp] theorem keeps_clkArbSwitch (s : State) :
    (clkArbSwitch s).pending = s.pending ∧ (clkArbSwitch s).fresh = s.fresh ∧ (clkArbSwitch s).now = s.now ∧
    (clkArbSwitch s).pwr = s.pwr ∧ (clkArbSwitch s).halves = s.halves ∧ (clkArbSwitch s).parts = s.parts ∧
    (clkArbSwitch s).ops = s.ops ∧ (clkArbSwitch s).ident = s.ident ∧ (clkArbSwitch s).models = s.models ∧
    (clkArbSwitch s).caps = s.caps ∧ (clkArbSwitch s).jets = s.jets ∧ (clkArbSwitch s).lanes = s.lanes ∧
    (clkArbSwitch s).ports = s.ports ∧ (clkArbSwitch s).ptp = s.ptp ∧ (clkArbSwitch s).ftn = s.ftn ∧
    (clkArbSwitch s).keys = s.keys ∧ (clkArbSwitch s).flt = s.flt ∧ (clkArbSwitch s).mgt = s.mgt ∧
    (∀ rp ro, regOf (clkArbSwitch s).pages rp ro = regOf s.pages rp ro) := by
  unfold clkArbSwitch; (repeat' split) <;> simp

/-! ## Resync -/

@[simp] theorem keeps_digestBeat (h : Half) (s : State) :
    (digestBeat h s).pending = s.pending ∧ (digestBeat h s).fresh = s.fresh ∧ (digestBeat h s).now = s.now ∧
    (digestBeat h s).outs = s.outs ∧ (digestBeat h s).pages = s.pages ∧ (digestBeat h s).pwr = s.pwr ∧
    (digestBeat h s).arb = s.arb ∧ (digestBeat h s).parts = s.parts ∧ (digestBeat h s).bars = s.bars ∧
    (digestBeat h s).ops = s.ops ∧ (digestBeat h s).ident = s.ident ∧ (digestBeat h s).models = s.models ∧
    (digestBeat h s).caps = s.caps ∧ (digestBeat h s).jets = s.jets ∧ (digestBeat h s).lanes = s.lanes ∧
    (digestBeat h s).ports = s.ports ∧ (digestBeat h s).ptp = s.ptp ∧ (digestBeat h s).ftn = s.ftn ∧
    (digestBeat h s).keys = s.keys ∧ (digestBeat h s).flt = s.flt ∧ (digestBeat h s).mgt = s.mgt ∧
    (digestBeat h s).cnt = s.cnt := by
  simp [digestBeat]

@[simp] theorem keeps_diverge (ev : Nat) (detOf : Half → Nat) (s : State) :
    (diverge ev detOf s).pending = s.pending ∧ (diverge ev detOf s).fresh = s.fresh ∧
    (diverge ev detOf s).now = s.now ∧ (diverge ev detOf s).pwr = s.pwr ∧ (diverge ev detOf s).arb = s.arb ∧
    (diverge ev detOf s).parts = s.parts ∧ (diverge ev detOf s).ops = s.ops ∧ (diverge ev detOf s).models = s.models ∧
    (diverge ev detOf s).caps = s.caps ∧ (diverge ev detOf s).jets = s.jets ∧ (diverge ev detOf s).lanes = s.lanes ∧
    (diverge ev detOf s).ports = s.ports ∧ (diverge ev detOf s).ptp = s.ptp ∧ (diverge ev detOf s).ftn = s.ftn ∧
    (diverge ev detOf s).keys = s.keys ∧ (diverge ev detOf s).mgt = s.mgt ∧
    (∀ rp ro, regOf (diverge ev detOf s).pages rp ro = regOf s.pages rp ro) := by
  simp [diverge]

@[simp] theorem keeps_stepDiverge (s : State) :
    (stepDiverge s).pending = s.pending ∧ (stepDiverge s).fresh = s.fresh ∧ (stepDiverge s).now = s.now ∧
    (stepDiverge s).pwr = s.pwr ∧ (stepDiverge s).arb = s.arb ∧ (stepDiverge s).parts = s.parts ∧
    (stepDiverge s).ops = s.ops ∧ (stepDiverge s).models = s.models ∧ (stepDiverge s).caps = s.caps ∧
    (stepDiverge s).jets = s.jets ∧ (stepDiverge s).lanes = s.lanes ∧ (stepDiverge s).ports = s.ports ∧
    (stepDiverge s).ptp = s.ptp ∧ (stepDiverge s).ftn = s.ftn ∧ (stepDiverge s).keys = s.keys ∧
    (stepDiverge s).mgt = s.mgt ∧ (∀ rp ro, regOf (stepDiverge s).pages rp ro = regOf s.pages rp ro) := by
  simp [stepDiverge]

@[simp] theorem keeps_busDiverge (s : State) :
    (busDiverge s).pending = s.pending ∧ (busDiverge s).fresh = s.fresh ∧ (busDiverge s).now = s.now ∧
    (busDiverge s).pwr = s.pwr ∧ (busDiverge s).arb = s.arb ∧ (busDiverge s).parts = s.parts ∧
    (busDiverge s).ops = s.ops ∧ (busDiverge s).models = s.models ∧ (busDiverge s).caps = s.caps ∧
    (busDiverge s).jets = s.jets ∧ (busDiverge s).lanes = s.lanes ∧ (busDiverge s).ports = s.ports ∧
    (busDiverge s).ptp = s.ptp ∧ (busDiverge s).ftn = s.ftn ∧ (busDiverge s).keys = s.keys ∧
    (busDiverge s).mgt = s.mgt ∧ (∀ rp ro, regOf (busDiverge s).pages rp ro = regOf s.pages rp ro) := by
  simp [busDiverge]

@[simp] theorem keeps_digestReceived (h : Half) (peer : BitVec 64) (s : State) :
    (digestReceived h peer s).pending = s.pending ∧ (digestReceived h peer s).fresh = s.fresh ∧
    (digestReceived h peer s).now = s.now ∧ (digestReceived h peer s).pwr = s.pwr ∧
    (digestReceived h peer s).arb = s.arb ∧ (digestReceived h peer s).parts = s.parts ∧
    (digestReceived h peer s).ops = s.ops ∧ (digestReceived h peer s).models = s.models ∧
    (digestReceived h peer s).caps = s.caps ∧ (digestReceived h peer s).jets = s.jets ∧
    (digestReceived h peer s).lanes = s.lanes ∧ (digestReceived h peer s).ports = s.ports ∧
    (digestReceived h peer s).ptp = s.ptp ∧ (digestReceived h peer s).ftn = s.ftn ∧
    (digestReceived h peer s).keys = s.keys ∧ (digestReceived h peer s).mgt = s.mgt ∧
    (∀ rp ro, regOf (digestReceived h peer s).pages rp ro = regOf s.pages rp ro) := by
  unfold digestReceived; (repeat' split) <;> simp

@[simp] theorem keeps_compareBuses (s : State) :
    (compareBuses s).pending = s.pending ∧ (compareBuses s).fresh = s.fresh ∧ (compareBuses s).now = s.now ∧
    (compareBuses s).pwr = s.pwr ∧ (compareBuses s).parts = s.parts ∧ (compareBuses s).ops = s.ops ∧
    (compareBuses s).models = s.models ∧ (compareBuses s).caps = s.caps ∧ (compareBuses s).jets = s.jets ∧
    (compareBuses s).lanes = s.lanes ∧ (compareBuses s).ports = s.ports ∧ (compareBuses s).ptp = s.ptp ∧
    (compareBuses s).ftn = s.ftn ∧ (compareBuses s).keys = s.keys ∧ (compareBuses s).mgt = s.mgt ∧
    (∀ rp ro, regOf (compareBuses s).pages rp ro = regOf s.pages rp ro) := by
  simp [compareBuses]

@[simp] theorem keeps_enterSplit (h : Half) (s : State) :
    (enterSplit h s).pending = s.pending ∧ (enterSplit h s).fresh = s.fresh ∧ (enterSplit h s).now = s.now ∧
    (enterSplit h s).pwr = s.pwr ∧ (enterSplit h s).arb = s.arb ∧ (enterSplit h s).parts = s.parts ∧
    (enterSplit h s).ops = s.ops ∧ (enterSplit h s).ident = s.ident ∧ (enterSplit h s).models = s.models ∧
    (enterSplit h s).caps = s.caps ∧ (enterSplit h s).jets = s.jets ∧ (enterSplit h s).lanes = s.lanes ∧
    (enterSplit h s).ports = s.ports ∧ (enterSplit h s).ptp = s.ptp ∧ (enterSplit h s).ftn = s.ftn ∧
    (enterSplit h s).keys = s.keys ∧ (enterSplit h s).flt = s.flt ∧ (enterSplit h s).mgt = s.mgt ∧
    (∀ rp ro, regOf (enterSplit h s).pages rp ro = regOf s.pages rp ro) := by
  simp [enterSplit]

@[simp] theorem keeps_joinPeer (h : Half) (s : State) :
    (joinPeer h s).pending = s.pending ∧ (joinPeer h s).fresh = s.fresh ∧ (joinPeer h s).now = s.now ∧
    (joinPeer h s).pwr = s.pwr ∧ (joinPeer h s).arb = s.arb ∧ (joinPeer h s).parts = s.parts ∧
    (joinPeer h s).ops = s.ops ∧ (joinPeer h s).ident = s.ident ∧ (joinPeer h s).models = s.models ∧
    (joinPeer h s).caps = s.caps ∧ (joinPeer h s).jets = s.jets ∧ (joinPeer h s).lanes = s.lanes ∧
    (joinPeer h s).ports = s.ports ∧ (joinPeer h s).ptp = s.ptp ∧ (joinPeer h s).ftn = s.ftn ∧
    (joinPeer h s).keys = s.keys ∧ (joinPeer h s).flt = s.flt ∧ (joinPeer h s).mgt = s.mgt ∧
    (∀ rp ro, regOf (joinPeer h s).pages rp ro = regOf s.pages rp ro) := by
  simp [joinPeer]

@[simp] theorem keeps_peerOkRise (s : State) :
    (peerOkRise s).pending = s.pending ∧ (peerOkRise s).fresh = s.fresh ∧ (peerOkRise s).now = s.now ∧
    (peerOkRise s).pwr = s.pwr ∧ (peerOkRise s).arb = s.arb ∧ (peerOkRise s).parts = s.parts ∧
    (peerOkRise s).ops = s.ops ∧ (peerOkRise s).ident = s.ident ∧ (peerOkRise s).models = s.models ∧
    (peerOkRise s).caps = s.caps ∧ (peerOkRise s).jets = s.jets ∧ (peerOkRise s).lanes = s.lanes ∧
    (peerOkRise s).ports = s.ports ∧ (peerOkRise s).ptp = s.ptp ∧ (peerOkRise s).ftn = s.ftn ∧
    (peerOkRise s).keys = s.keys ∧ (peerOkRise s).flt = s.flt ∧ (peerOkRise s).mgt = s.mgt ∧
    (∀ rp ro, regOf (peerOkRise s).pages rp ro = regOf s.pages rp ro) := by
  simp [peerOkRise]

@[simp] theorem keeps_holdoffElapsed (h : Half) (s : State) :
    (holdoffElapsed h s).pending = s.pending ∧ (holdoffElapsed h s).fresh = s.fresh ∧
    (holdoffElapsed h s).now = s.now ∧ (holdoffElapsed h s).pwr = s.pwr ∧ (holdoffElapsed h s).arb = s.arb ∧
    (holdoffElapsed h s).parts = s.parts ∧ (holdoffElapsed h s).ops = s.ops ∧ (holdoffElapsed h s).ident = s.ident ∧
    (holdoffElapsed h s).models = s.models ∧ (holdoffElapsed h s).caps = s.caps ∧ (holdoffElapsed h s).jets = s.jets ∧
    (holdoffElapsed h s).lanes = s.lanes ∧ (holdoffElapsed h s).ports = s.ports ∧ (holdoffElapsed h s).ptp = s.ptp ∧
    (holdoffElapsed h s).ftn = s.ftn ∧ (holdoffElapsed h s).keys = s.keys ∧ (holdoffElapsed h s).flt = s.flt ∧
    (holdoffElapsed h s).mgt = s.mgt ∧ (∀ rp ro, regOf (holdoffElapsed h s).pages rp ro = regOf s.pages rp ro) := by
  simp [holdoffElapsed]

@[simp] theorem keeps_powerupSelftest (h : Half) (pass : Bool) (s : State) :
    (powerupSelftest h pass s).pending = s.pending ∧ (powerupSelftest h pass s).fresh = s.fresh ∧
    (powerupSelftest h pass s).now = s.now ∧ (powerupSelftest h pass s).pwr = s.pwr ∧
    (powerupSelftest h pass s).arb = s.arb ∧ (powerupSelftest h pass s).parts = s.parts ∧
    (powerupSelftest h pass s).ops = s.ops ∧ (powerupSelftest h pass s).models = s.models ∧
    (powerupSelftest h pass s).caps = s.caps ∧ (powerupSelftest h pass s).jets = s.jets ∧
    (powerupSelftest h pass s).lanes = s.lanes ∧ (powerupSelftest h pass s).ports = s.ports ∧
    (powerupSelftest h pass s).ptp = s.ptp ∧ (powerupSelftest h pass s).ftn = s.ftn ∧
    (powerupSelftest h pass s).keys = s.keys ∧ (powerupSelftest h pass s).mgt = s.mgt ∧
    (∀ rp ro, regOf (powerupSelftest h pass s).pages rp ro = regOf s.pages rp ro) := by
  simp [powerupSelftest]

@[simp] theorem keeps_resyncOrder (s : State) :
    (resyncOrder s).pending = s.pending ∧ (resyncOrder s).now = s.now ∧ (resyncOrder s).pwr = s.pwr ∧
    (resyncOrder s).ident = s.ident ∧ (resyncOrder s).models = s.models ∧ (resyncOrder s).jets = s.jets ∧
    (resyncOrder s).lanes = s.lanes ∧ (resyncOrder s).ports = s.ports ∧ (resyncOrder s).ftn = s.ftn ∧
    (resyncOrder s).keys = s.keys ∧ (resyncOrder s).flt = s.flt ∧ (resyncOrder s).mgt = s.mgt ∧
    (∀ rp ro, regOf (resyncOrder s).pages rp ro = regOf s.pages rp ro) := by
  simp only [resyncOrder]; (repeat' split) <;> simp

@[simp] theorem keeps_resyncStart (h : Half) (s : State) :
    (resyncStart h s).pending = s.pending ∧ (resyncStart h s).fresh = s.fresh ∧ (resyncStart h s).now = s.now ∧
    (resyncStart h s).pwr = s.pwr ∧ (resyncStart h s).arb = s.arb ∧ (resyncStart h s).parts = s.parts ∧
    (resyncStart h s).ops = s.ops ∧ (resyncStart h s).ident = s.ident ∧ (resyncStart h s).models = s.models ∧
    (resyncStart h s).caps = s.caps ∧ (resyncStart h s).jets = s.jets ∧ (resyncStart h s).lanes = s.lanes ∧
    (resyncStart h s).ports = s.ports ∧ (resyncStart h s).ptp = s.ptp ∧ (resyncStart h s).ftn = s.ftn ∧
    (resyncStart h s).keys = s.keys ∧ (resyncStart h s).flt = s.flt ∧ (resyncStart h s).mgt = s.mgt ∧
    (∀ rp ro, regOf (resyncStart h s).pages rp ro = regOf s.pages rp ro) := by
  simp [resyncStart]

@[simp] theorem keeps_loadStateReceived (h : Half) (s : State) :
    (loadStateReceived h s).pending = s.pending ∧ (loadStateReceived h s).fresh = s.fresh ∧
    (loadStateReceived h s).now = s.now ∧ (loadStateReceived h s).outs = s.outs ∧
    (loadStateReceived h s).pages = s.pages ∧ (loadStateReceived h s).pwr = s.pwr ∧
    (loadStateReceived h s).arb = s.arb ∧ (loadStateReceived h s).parts = s.parts ∧
    (loadStateReceived h s).bars = s.bars ∧ (loadStateReceived h s).ops = s.ops ∧
    (loadStateReceived h s).ident = s.ident ∧ (loadStateReceived h s).models = s.models ∧
    (loadStateReceived h s).caps = s.caps ∧ (loadStateReceived h s).jets = s.jets ∧
    (loadStateReceived h s).lanes = s.lanes ∧ (loadStateReceived h s).ports = s.ports ∧
    (loadStateReceived h s).ptp = s.ptp ∧ (loadStateReceived h s).ftn = s.ftn ∧
    (loadStateReceived h s).keys = s.keys ∧ (loadStateReceived h s).flt = s.flt ∧
    (loadStateReceived h s).mgt = s.mgt ∧ (loadStateReceived h s).cnt = s.cnt := by
  simp only [loadStateReceived]; (repeat' split) <;> simp

@[simp] theorem keeps_loadInForce (h : Half) (temps : List Int) (s : State) :
    (loadInForce h temps s).pending = s.pending ∧ (loadInForce h temps s).now = s.now ∧
    (loadInForce h temps s).pwr = s.pwr ∧ (loadInForce h temps s).arb = s.arb ∧
    (loadInForce h temps s).parts = s.parts ∧ (loadInForce h temps s).ops = s.ops ∧
    (loadInForce h temps s).ident = s.ident ∧ (loadInForce h temps s).models = s.models ∧
    (loadInForce h temps s).caps = s.caps ∧ (loadInForce h temps s).lanes = s.lanes ∧
    (loadInForce h temps s).ports = s.ports ∧ (loadInForce h temps s).ptp = s.ptp ∧
    (loadInForce h temps s).ftn = s.ftn ∧ (loadInForce h temps s).keys = s.keys ∧
    (loadInForce h temps s).flt = s.flt ∧ (loadInForce h temps s).mgt = s.mgt ∧
    (∀ rp ro, regOf (loadInForce h temps s).pages rp ro = regOf s.pages rp ro) := by
  simp [loadInForce]

@[simp] theorem keeps_heartbeatSend (h : Half) (s : State) :
    (heartbeatSend h s).pending = s.pending ∧ (heartbeatSend h s).fresh = s.fresh ∧ (heartbeatSend h s).now = s.now ∧
    (heartbeatSend h s).outs = s.outs ∧ (heartbeatSend h s).pages = s.pages ∧ (heartbeatSend h s).pwr = s.pwr ∧
    (heartbeatSend h s).arb = s.arb ∧ (heartbeatSend h s).parts = s.parts ∧ (heartbeatSend h s).bars = s.bars ∧
    (heartbeatSend h s).ops = s.ops ∧ (heartbeatSend h s).ident = s.ident ∧ (heartbeatSend h s).models = s.models ∧
    (heartbeatSend h s).caps = s.caps ∧ (heartbeatSend h s).jets = s.jets ∧ (heartbeatSend h s).lanes = s.lanes ∧
    (heartbeatSend h s).ports = s.ports ∧ (heartbeatSend h s).ptp = s.ptp ∧ (heartbeatSend h s).ftn = s.ftn ∧
    (heartbeatSend h s).keys = s.keys ∧ (heartbeatSend h s).flt = s.flt ∧ (heartbeatSend h s).mgt = s.mgt ∧
    (heartbeatSend h s).cnt = s.cnt := by
  simp [heartbeatSend]

@[simp] theorem keeps_heartbeatReceived (h : Half) (s : State) :
    (heartbeatReceived h s).pending = s.pending ∧ (heartbeatReceived h s).fresh = s.fresh ∧
    (heartbeatReceived h s).now = s.now ∧ (heartbeatReceived h s).outs = s.outs ∧
    (heartbeatReceived h s).pages = s.pages ∧ (heartbeatReceived h s).pwr = s.pwr ∧
    (heartbeatReceived h s).arb = s.arb ∧ (heartbeatReceived h s).parts = s.parts ∧
    (heartbeatReceived h s).bars = s.bars ∧ (heartbeatReceived h s).ops = s.ops ∧
    (heartbeatReceived h s).ident = s.ident ∧ (heartbeatReceived h s).models = s.models ∧
    (heartbeatReceived h s).caps = s.caps ∧ (heartbeatReceived h s).jets = s.jets ∧
    (heartbeatReceived h s).lanes = s.lanes ∧ (heartbeatReceived h s).ports = s.ports ∧
    (heartbeatReceived h s).ptp = s.ptp ∧ (heartbeatReceived h s).ftn = s.ftn ∧
    (heartbeatReceived h s).keys = s.keys ∧ (heartbeatReceived h s).flt = s.flt ∧
    (heartbeatReceived h s).mgt = s.mgt ∧ (heartbeatReceived h s).cnt = s.cnt := by
  simp [heartbeatReceived]

@[simp] theorem keeps_linkLostHalf (h : Half) (s : State) :
    (linkLostHalf h s).pending = s.pending ∧ (linkLostHalf h s).now = s.now ∧ (linkLostHalf h s).pwr = s.pwr ∧
    (linkLostHalf h s).models = s.models ∧ (linkLostHalf h s).jets = s.jets ∧ (linkLostHalf h s).lanes = s.lanes ∧
    (linkLostHalf h s).ports = s.ports ∧ (linkLostHalf h s).ftn = s.ftn ∧ (linkLostHalf h s).keys = s.keys ∧
    (linkLostHalf h s).mgt = s.mgt ∧ (∀ rp ro, regOf (linkLostHalf h s).pages rp ro = regOf s.pages rp ro) := by
  simp only [linkLostHalf]; (repeat' split) <;> simp

@[simp] theorem keeps_linkLost (s : State) :
    (linkLost s).pending = s.pending ∧ (linkLost s).now = s.now ∧ (linkLost s).pwr = s.pwr ∧
    (linkLost s).models = s.models ∧ (linkLost s).jets = s.jets ∧ (linkLost s).lanes = s.lanes ∧
    (linkLost s).ports = s.ports ∧ (linkLost s).ftn = s.ftn ∧ (linkLost s).keys = s.keys ∧ (linkLost s).mgt = s.mgt ∧
    (∀ rp ro, regOf (linkLost s).pages rp ro = regOf s.pages rp ro) := by
  simp [linkLost]

@[simp] theorem keeps_linkUp (s : State) :
    (linkUp s).pending = s.pending ∧ (linkUp s).fresh = s.fresh ∧ (linkUp s).now = s.now ∧ (linkUp s).pwr = s.pwr ∧
    (linkUp s).arb = s.arb ∧ (linkUp s).parts = s.parts ∧ (linkUp s).ops = s.ops ∧ (linkUp s).ident = s.ident ∧
    (linkUp s).models = s.models ∧ (linkUp s).caps = s.caps ∧ (linkUp s).jets = s.jets ∧ (linkUp s).lanes = s.lanes ∧
    (linkUp s).ports = s.ports ∧ (linkUp s).ptp = s.ptp ∧ (linkUp s).ftn = s.ftn ∧ (linkUp s).keys = s.keys ∧
    (linkUp s).flt = s.flt ∧ (linkUp s).mgt = s.mgt ∧ (∀ rp ro, regOf (linkUp s).pages rp ro = regOf s.pages rp ro) := by
  simp [linkUp]

@[simp] theorem keeps_halfDetection (det : Byte) (s : State) :
    (halfDetection det s).pending = s.pending ∧ (halfDetection det s).now = s.now ∧
    (halfDetection det s).models = s.models ∧ (halfDetection det s).lanes = s.lanes ∧
    (halfDetection det s).keys = s.keys ∧ (halfDetection det s).mgt = s.mgt ∧
    (∀ rp ro, regOf (halfDetection det s).pages rp ro = regOf s.pages rp ro) := by
  simp [halfDetection]

/-! ## Beats -/

@[simp] theorem keeps_sampleSensors (ms : Nat) (s : State) :
    (sampleSensors ms s).pending = s.pending ∧ (sampleSensors ms s).fresh = s.fresh ∧
    (sampleSensors ms s).now = s.now ∧ (sampleSensors ms s).outs = s.outs ∧ (sampleSensors ms s).pages = s.pages ∧
    (sampleSensors ms s).pwr = s.pwr ∧ (sampleSensors ms s).arb = s.arb ∧ (sampleSensors ms s).halves = s.halves ∧
    (sampleSensors ms s).parts = s.parts ∧ (sampleSensors ms s).bars = s.bars ∧ (sampleSensors ms s).ops = s.ops ∧
    (sampleSensors ms s).ident = s.ident ∧ (sampleSensors ms s).models = s.models ∧
    (sampleSensors ms s).caps = s.caps ∧ (sampleSensors ms s).jets = s.jets ∧ (sampleSensors ms s).lanes = s.lanes ∧
    (sampleSensors ms s).ports = s.ports ∧ (sampleSensors ms s).ptp = s.ptp ∧ (sampleSensors ms s).ftn = s.ftn ∧
    (sampleSensors ms s).keys = s.keys ∧ (sampleSensors ms s).flt = s.flt ∧ (sampleSensors ms s).cnt = s.cnt := by
  simp [sampleSensors]

@[simp] theorem keeps_advance (n : Nat) (s : State) :
    (advance n s).pending = s.pending ∧ (advance n s).fresh = s.fresh ∧ (advance n s).outs = s.outs ∧
    (advance n s).pages = s.pages ∧ (advance n s).arb = s.arb ∧ (advance n s).parts = s.parts ∧
    (advance n s).bars = s.bars ∧ (advance n s).ops = s.ops ∧ (advance n s).ident = s.ident ∧
    (advance n s).models = s.models ∧ (advance n s).caps = s.caps ∧ (advance n s).jets = s.jets ∧
    (advance n s).lanes = s.lanes ∧ (advance n s).ports = s.ports ∧ (advance n s).ptp = s.ptp ∧
    (advance n s).ftn = s.ftn ∧ (advance n s).keys = s.keys ∧ (advance n s).flt = s.flt := by
  simp [advance]

@[simp] theorem keeps_applied (pg : Nat) (ws : KMap Word) (s : State) :
    (applied pg ws s).pending = s.pending ∧ (applied pg ws s).fresh = s.fresh ∧ (applied pg ws s).now = s.now ∧
    (applied pg ws s).parts = s.parts ∧ (applied pg ws s).ops = s.ops ∧ (applied pg ws s).ident = s.ident ∧
    (applied pg ws s).models = s.models ∧ (applied pg ws s).caps = s.caps ∧ (applied pg ws s).jets = s.jets ∧
    (applied pg ws s).lanes = s.lanes ∧ (applied pg ws s).ports = s.ports ∧ (applied pg ws s).ptp = s.ptp ∧
    (applied pg ws s).ftn = s.ftn ∧ (applied pg ws s).keys = s.keys ∧ (applied pg ws s).mgt = s.mgt := by
  unfold applied; (repeat' split) <;> simp

@[simp] theorem keeps_applyPage (h : Half) (d : Dom) (n pg : Nat) (s : State) :
    (applyPage h d n pg s).pending = s.pending ∧ (applyPage h d n pg s).fresh = s.fresh ∧
    (applyPage h d n pg s).now = s.now ∧ (applyPage h d n pg s).parts = s.parts ∧ (applyPage h d n pg s).ops = s.ops ∧
    (applyPage h d n pg s).ident = s.ident ∧ (applyPage h d n pg s).models = s.models ∧
    (applyPage h d n pg s).caps = s.caps ∧ (applyPage h d n pg s).jets = s.jets ∧
    (applyPage h d n pg s).lanes = s.lanes ∧ (applyPage h d n pg s).ports = s.ports ∧
    (applyPage h d n pg s).ptp = s.ptp ∧ (applyPage h d n pg s).ftn = s.ftn ∧ (applyPage h d n pg s).keys = s.keys ∧
    (applyPage h d n pg s).mgt = s.mgt := by
  simp [applyPage]

@[simp] theorem keeps_takeConfig (h : Half) (d : Dom) (n : Nat) (s : State) :
    (takeConfig h d n s).pending = s.pending ∧ (takeConfig h d n s).fresh = s.fresh ∧
    (takeConfig h d n s).now = s.now ∧ (takeConfig h d n s).parts = s.parts ∧ (takeConfig h d n s).ops = s.ops ∧
    (takeConfig h d n s).ident = s.ident ∧ (takeConfig h d n s).models = s.models ∧
    (takeConfig h d n s).caps = s.caps ∧ (takeConfig h d n s).jets = s.jets ∧ (takeConfig h d n s).lanes = s.lanes ∧
    (takeConfig h d n s).ports = s.ports ∧ (takeConfig h d n s).ptp = s.ptp ∧ (takeConfig h d n s).ftn = s.ftn ∧
    (takeConfig h d n s).keys = s.keys ∧ (takeConfig h d n s).mgt = s.mgt := by
  simp [takeConfig]

@[simp] theorem keeps_domainBeat (h : Half) (d : Dom) (s : State) :
    (domainBeat h d s).pending = s.pending ∧ (domainBeat h d s).arb = s.arb ∧ (domainBeat h d s).parts = s.parts ∧
    (domainBeat h d s).ops = s.ops ∧ (domainBeat h d s).ident = s.ident ∧ (domainBeat h d s).models = s.models ∧
    (domainBeat h d s).caps = s.caps ∧ (domainBeat h d s).jets = s.jets ∧ (domainBeat h d s).lanes = s.lanes ∧
    (domainBeat h d s).ports = s.ports ∧ (domainBeat h d s).ftn = s.ftn ∧ (domainBeat h d s).keys = s.keys ∧
    (∀ rp ro, regOf (domainBeat h d s).pages rp ro = regOf s.pages rp ro) := by
  simp [domainBeat]

@[simp] theorem keeps_td0Beat (h : Half) (xoPhase : Int) (s : State) :
    (td0Beat h xoPhase s).pending = s.pending ∧ (td0Beat h xoPhase s).now = s.now ∧
    (td0Beat h xoPhase s).pwr = s.pwr ∧ (td0Beat h xoPhase s).arb = s.arb ∧ (td0Beat h xoPhase s).parts = s.parts ∧
    (td0Beat h xoPhase s).ops = s.ops ∧ (td0Beat h xoPhase s).models = s.models ∧
    (td0Beat h xoPhase s).caps = s.caps ∧ (td0Beat h xoPhase s).jets = s.jets ∧
    (td0Beat h xoPhase s).lanes = s.lanes ∧ (td0Beat h xoPhase s).ports = s.ports ∧
    (td0Beat h xoPhase s).ptp = s.ptp ∧ (td0Beat h xoPhase s).ftn = s.ftn ∧ (td0Beat h xoPhase s).keys = s.keys ∧
    (∀ rp ro, regOf (td0Beat h xoPhase s).pages rp ro = regOf s.pages rp ro) := by
  simp [td0Beat]

@[simp] theorem keeps_noteRef (s : State) (h : Half) (d : Dom) :
    (State.noteRef s h d).pending = s.pending ∧ (State.noteRef s h d).fresh = s.fresh ∧
    (State.noteRef s h d).now = s.now ∧ (State.noteRef s h d).outs = s.outs ∧ (State.noteRef s h d).pages = s.pages ∧
    (State.noteRef s h d).pwr = s.pwr ∧ (State.noteRef s h d).arb = s.arb ∧ (State.noteRef s h d).parts = s.parts ∧
    (State.noteRef s h d).bars = s.bars ∧ (State.noteRef s h d).ops = s.ops ∧ (State.noteRef s h d).ident = s.ident ∧
    (State.noteRef s h d).models = s.models ∧ (State.noteRef s h d).caps = s.caps ∧
    (State.noteRef s h d).jets = s.jets ∧ (State.noteRef s h d).lanes = s.lanes ∧
    (State.noteRef s h d).ports = s.ports ∧ (State.noteRef s h d).ptp = s.ptp ∧ (State.noteRef s h d).ftn = s.ftn ∧
    (State.noteRef s h d).keys = s.keys ∧ (State.noteRef s h d).flt = s.flt ∧ (State.noteRef s h d).mgt = s.mgt ∧
    (State.noteRef s h d).cnt = s.cnt := by
  simp [State.noteRef]

@[simp] theorem keeps_beatWork (h : Half) (d : Dom) (xoPhase : Int) (s : State) :
    (beatWork h d xoPhase s).pending = s.pending ∧ (beatWork h d xoPhase s).arb = s.arb ∧
    (beatWork h d xoPhase s).parts = s.parts ∧ (beatWork h d xoPhase s).ops = s.ops ∧
    (beatWork h d xoPhase s).models = s.models ∧ (beatWork h d xoPhase s).caps = s.caps ∧
    (beatWork h d xoPhase s).jets = s.jets ∧ (beatWork h d xoPhase s).lanes = s.lanes ∧
    (beatWork h d xoPhase s).ports = s.ports ∧ (beatWork h d xoPhase s).ftn = s.ftn ∧
    (beatWork h d xoPhase s).keys = s.keys ∧
    (∀ rp ro, regOf (beatWork h d xoPhase s).pages rp ro = regOf s.pages rp ro) := by
  simp [beatWork]

@[simp] theorem keeps_arbiterBeat (h : Half) (s : State) :
    (arbiterBeat h s).pending = s.pending ∧ (arbiterBeat h s).fresh = s.fresh ∧ (arbiterBeat h s).now = s.now ∧
    (arbiterBeat h s).pwr = s.pwr ∧ (arbiterBeat h s).parts = s.parts ∧ (arbiterBeat h s).ops = s.ops ∧
    (arbiterBeat h s).models = s.models ∧ (arbiterBeat h s).caps = s.caps ∧ (arbiterBeat h s).jets = s.jets ∧
    (arbiterBeat h s).lanes = s.lanes ∧ (arbiterBeat h s).ports = s.ports ∧ (arbiterBeat h s).ptp = s.ptp ∧
    (arbiterBeat h s).ftn = s.ftn ∧ (arbiterBeat h s).keys = s.keys ∧ (arbiterBeat h s).mgt = s.mgt ∧
    (∀ rp ro, regOf (arbiterBeat h s).pages rp ro = regOf s.pages rp ro) := by
  simp [arbiterBeat]

@[simp] theorem keeps_halfBeat (h : Half) (d : Dom) (xoPhase : Int) (s : State) :
    (halfBeat h d xoPhase s).pending = s.pending ∧ (halfBeat h d xoPhase s).models = s.models ∧
    (halfBeat h d xoPhase s).caps = s.caps ∧ (halfBeat h d xoPhase s).jets = s.jets ∧
    (halfBeat h d xoPhase s).lanes = s.lanes ∧ (halfBeat h d xoPhase s).ports = s.ports ∧
    (halfBeat h d xoPhase s).ftn = s.ftn ∧ (halfBeat h d xoPhase s).keys = s.keys := by
  simp [halfBeat]

/-! ## Boundaries -/

@[simp] theorem keeps_ptpCommand (s : State) :
    (ptpCommand s).pending = s.pending ∧ (ptpCommand s).fresh = s.fresh ∧ (ptpCommand s).now = s.now ∧
    (ptpCommand s).outs = s.outs ∧ (ptpCommand s).pwr = s.pwr ∧ (ptpCommand s).arb = s.arb ∧
    (ptpCommand s).halves = s.halves ∧ (ptpCommand s).parts = s.parts ∧ (ptpCommand s).bars = s.bars ∧
    (ptpCommand s).ops = s.ops ∧ (ptpCommand s).ident = s.ident ∧ (ptpCommand s).models = s.models ∧
    (ptpCommand s).caps = s.caps ∧ (ptpCommand s).jets = s.jets ∧ (ptpCommand s).lanes = s.lanes ∧
    (ptpCommand s).ftn = s.ftn ∧ (ptpCommand s).keys = s.keys ∧ (ptpCommand s).flt = s.flt ∧
    (ptpCommand s).mgt = s.mgt ∧ (ptpCommand s).cnt = s.cnt := by
  simp [ptpCommand]

@[simp] theorem keeps_commitServing (s : State) :
    (commitServing s).pending = s.pending ∧ (commitServing s).fresh = s.fresh ∧ (commitServing s).now = s.now ∧
    (commitServing s).outs = s.outs ∧ (commitServing s).pwr = s.pwr ∧ (commitServing s).arb = s.arb ∧
    (commitServing s).halves = s.halves ∧ (commitServing s).parts = s.parts ∧ (commitServing s).bars = s.bars ∧
    (commitServing s).ops = s.ops ∧ (commitServing s).ident = s.ident ∧ (commitServing s).models = s.models ∧
    (commitServing s).caps = s.caps ∧ (commitServing s).jets = s.jets ∧ (commitServing s).lanes = s.lanes ∧
    (commitServing s).ftn = s.ftn ∧ (commitServing s).keys = s.keys ∧ (commitServing s).flt = s.flt ∧
    (commitServing s).mgt = s.mgt ∧ (commitServing s).cnt = s.cnt := by
  simp [commitServing]

@[simp] theorem keeps_packetBoundary (p : PortNo) (s : State) :
    (packetBoundary p s).pending = s.pending ∧ (packetBoundary p s).fresh = s.fresh ∧
    (packetBoundary p s).now = s.now ∧ (packetBoundary p s).arb = s.arb ∧ (packetBoundary p s).ident = s.ident ∧
    (packetBoundary p s).models = s.models ∧ (packetBoundary p s).caps = s.caps ∧ (packetBoundary p s).jets = s.jets ∧
    (packetBoundary p s).keys = s.keys ∧ (packetBoundary p s).flt = s.flt ∧ (packetBoundary p s).mgt = s.mgt := by
  simp [packetBoundary]

@[simp] theorem keeps_commonBeat (h : Half) (d : Dom) (moved : Option (Int × Bool)) (s : State) :
    (commonBeat h d moved s).pending = s.pending ∧ (commonBeat h d moved s).arb = s.arb ∧
    (commonBeat h d moved s).halves = s.halves ∧ (commonBeat h d moved s).parts = s.parts ∧
    (commonBeat h d moved s).ident = s.ident ∧ (commonBeat h d moved s).models = s.models ∧
    (commonBeat h d moved s).caps = s.caps ∧ (commonBeat h d moved s).lanes = s.lanes ∧
    (commonBeat h d moved s).keys = s.keys ∧ (commonBeat h d moved s).flt = s.flt ∧
    (commonBeat h d moved s).mgt = s.mgt := by
  simp [commonBeat]

@[simp] theorem keeps_beatBoundary (h : Half) (d : Dom) (xoPhase : Int) (s : State) :
    (beatBoundary h d xoPhase s).pending = s.pending ∧ (beatBoundary h d xoPhase s).models = s.models ∧
    (beatBoundary h d xoPhase s).caps = s.caps ∧ (beatBoundary h d xoPhase s).lanes = s.lanes ∧
    (beatBoundary h d xoPhase s).keys = s.keys := by
  simp [beatBoundary]

@[simp] theorem keeps_opRateSet (r : RateWrite) (s : State) :
    (opRateSet r s).pending = s.pending ∧ (opRateSet r s).fresh = s.fresh ∧ (opRateSet r s).now = s.now ∧
    (opRateSet r s).pwr = s.pwr ∧ (opRateSet r s).arb = s.arb ∧ (opRateSet r s).ident = s.ident ∧
    (opRateSet r s).models = s.models ∧ (opRateSet r s).caps = s.caps ∧ (opRateSet r s).jets = s.jets ∧
    (opRateSet r s).lanes = s.lanes ∧ (opRateSet r s).ports = s.ports ∧ (opRateSet r s).ptp = s.ptp ∧
    (opRateSet r s).ftn = s.ftn ∧ (opRateSet r s).keys = s.keys ∧ (opRateSet r s).flt = s.flt ∧
    (opRateSet r s).mgt = s.mgt ∧ (∀ rp ro, regOf (opRateSet r s).pages rp ro = regOf s.pages rp ro) := by
  unfold opRateSet; (repeat' split) <;> simp

@[simp] theorem keeps_rxLane (s : State) (p : PortNo) (a : PathAB) (f : RxFrame) :
    (State.rxLane s p a f).pending = s.pending ∧ (State.rxLane s p a f).fresh = s.fresh ∧
    (State.rxLane s p a f).now = s.now ∧ (State.rxLane s p a f).pwr = s.pwr ∧ (State.rxLane s p a f).arb = s.arb ∧
    (State.rxLane s p a f).halves = s.halves ∧ (State.rxLane s p a f).parts = s.parts ∧
    (State.rxLane s p a f).ops = s.ops ∧ (State.rxLane s p a f).ident = s.ident ∧
    (State.rxLane s p a f).models = s.models ∧ (State.rxLane s p a f).caps = s.caps ∧
    (State.rxLane s p a f).jets = s.jets ∧ (State.rxLane s p a f).ports = s.ports ∧
    (State.rxLane s p a f).ptp = s.ptp ∧ (State.rxLane s p a f).ftn = s.ftn ∧ (State.rxLane s p a f).keys = s.keys ∧
    (State.rxLane s p a f).flt = s.flt ∧ (State.rxLane s p a f).mgt = s.mgt ∧
    (∀ rp ro, regOf (State.rxLane s p a f).pages rp ro = regOf s.pages rp ro) := by
  simp [State.rxLane]

@[simp] theorem keeps_frameIn (p : PortNo) (a : PathAB) (f : RxFrame) (entry : Option RingEntry) (s : State) :
    (frameIn p a f entry s).pending = s.pending ∧ (frameIn p a f entry s).now = s.now ∧
    (frameIn p a f entry s).pwr = s.pwr ∧ (frameIn p a f entry s).arb = s.arb ∧
    (frameIn p a f entry s).halves = s.halves ∧ (frameIn p a f entry s).parts = s.parts ∧
    (frameIn p a f entry s).ops = s.ops ∧ (frameIn p a f entry s).ident = s.ident ∧
    (frameIn p a f entry s).models = s.models ∧ (frameIn p a f entry s).caps = s.caps ∧
    (frameIn p a f entry s).jets = s.jets ∧ (frameIn p a f entry s).lanes = s.lanes ∧
    (frameIn p a f entry s).ftn = s.ftn ∧ (frameIn p a f entry s).keys = s.keys ∧
    (frameIn p a f entry s).flt = s.flt ∧ (frameIn p a f entry s).mgt = s.mgt ∧
    (∀ rp ro, regOf (frameIn p a f entry s).pages rp ro = regOf s.pages rp ro) := by
  simp only [frameIn]; (repeat' split) <;> simp

@[simp] theorem keeps_frameReceived (p : PortNo) (a : PathAB) (f : RxFrame) (entry : Option RingEntry) (s : State) :
    (frameReceived p a f entry s).pending = s.pending ∧ (frameReceived p a f entry s).now = s.now ∧
    (frameReceived p a f entry s).pwr = s.pwr ∧ (frameReceived p a f entry s).arb = s.arb ∧
    (frameReceived p a f entry s).halves = s.halves ∧ (frameReceived p a f entry s).parts = s.parts ∧
    (frameReceived p a f entry s).ops = s.ops ∧ (frameReceived p a f entry s).ident = s.ident ∧
    (frameReceived p a f entry s).models = s.models ∧ (frameReceived p a f entry s).caps = s.caps ∧
    (frameReceived p a f entry s).jets = s.jets ∧ (frameReceived p a f entry s).ftn = s.ftn ∧
    (frameReceived p a f entry s).keys = s.keys ∧ (frameReceived p a f entry s).flt = s.flt ∧
    (frameReceived p a f entry s).mgt = s.mgt ∧
    (∀ rp ro, regOf (frameReceived p a f entry s).pages rp ro = regOf s.pages rp ro) := by
  unfold frameReceived; (repeat' split) <;> simp

@[simp] theorem keeps_frameTransmitted (p : PortNo) (a : PathAB) (k : TxKind) (sub fec : Nat) (discarded : Bool) (s : State) :
    (frameTransmitted p a k sub fec discarded s).pending = s.pending ∧
    (frameTransmitted p a k sub fec discarded s).now = s.now ∧
    (frameTransmitted p a k sub fec discarded s).pwr = s.pwr ∧
    (frameTransmitted p a k sub fec discarded s).arb = s.arb ∧
    (frameTransmitted p a k sub fec discarded s).halves = s.halves ∧
    (frameTransmitted p a k sub fec discarded s).ident = s.ident ∧
    (frameTransmitted p a k sub fec discarded s).models = s.models ∧
    (frameTransmitted p a k sub fec discarded s).caps = s.caps ∧
    (frameTransmitted p a k sub fec discarded s).jets = s.jets ∧
    (frameTransmitted p a k sub fec discarded s).lanes = s.lanes ∧
    (frameTransmitted p a k sub fec discarded s).keys = s.keys ∧
    (frameTransmitted p a k sub fec discarded s).flt = s.flt ∧
    (frameTransmitted p a k sub fec discarded s).mgt = s.mgt ∧
    (∀ rp ro, regOf (frameTransmitted p a k sub fec discarded s).pages rp ro = regOf s.pages rp ro) := by
  unfold frameTransmitted; (repeat' split) <;> simp

/-! ## Boot -/

@[simp] theorem keeps_bootRestore (s : State) :
    (bootRestore s).pending = s.pending ∧ (bootRestore s).fresh = s.fresh ∧ (bootRestore s).now = s.now ∧
    (bootRestore s).pwr = s.pwr ∧ (bootRestore s).arb = s.arb ∧ (bootRestore s).halves = s.halves ∧
    (bootRestore s).parts = s.parts ∧ (bootRestore s).ops = s.ops ∧ (bootRestore s).ident = s.ident ∧
    (bootRestore s).models = s.models ∧ (bootRestore s).caps = s.caps ∧ (bootRestore s).jets = s.jets ∧
    (bootRestore s).lanes = s.lanes ∧ (bootRestore s).ports = s.ports ∧ (bootRestore s).ptp = s.ptp ∧
    (bootRestore s).ftn = s.ftn ∧ (bootRestore s).flt = s.flt ∧ (bootRestore s).keys.fuse = s.keys.fuse ∧
    (∀ rp ro, regOf (bootRestore s).pages rp ro = regOf s.pages rp ro) := by
  simp only [bootRestore]; (repeat' split) <;> simp

@[simp] theorem keeps_bootTampers (fuseOk : Bool) (s : State) :
    (bootTampers fuseOk s).pending = s.pending ∧ (bootTampers fuseOk s).now = s.now ∧
    (bootTampers fuseOk s).arb = s.arb ∧ (bootTampers fuseOk s).halves = s.halves ∧
    (bootTampers fuseOk s).models = s.models ∧ (bootTampers fuseOk s).jets = s.jets ∧
    (bootTampers fuseOk s).lanes = s.lanes ∧ (bootTampers fuseOk s).keys.fuse = s.keys.fuse ∧
    (∀ rp ro, regOf (bootTampers fuseOk s).pages rp ro = regOf s.pages rp ro) := by
  simp only [bootTampers]; (repeat' split) <;> simp

@[simp] theorem keeps_bootSeal (s : State) :
    (bootSeal s).pending = s.pending ∧ (bootSeal s).now = s.now ∧ (bootSeal s).arb = s.arb ∧
    (bootSeal s).halves = s.halves ∧ (bootSeal s).ident = s.ident ∧ (bootSeal s).models = s.models ∧
    (bootSeal s).jets = s.jets ∧ (bootSeal s).lanes = s.lanes ∧ (bootSeal s).flt = s.flt ∧ (bootSeal s).mgt = s.mgt ∧
    (bootSeal s).keys.fuse = s.keys.fuse ∧ (∀ rp ro, regOf (bootSeal s).pages rp ro = regOf s.pages rp ro) := by
  simp only [bootSeal]; (repeat' split) <;> simp

@[simp] theorem keeps_bootRecover (img : BootImage) (s : State) :
    (bootRecover img s).pending = s.pending ∧ (bootRecover img s).fresh = s.fresh ∧ (bootRecover img s).now = s.now ∧
    (bootRecover img s).outs = s.outs ∧ (bootRecover img s).pages = s.pages ∧ (bootRecover img s).pwr = s.pwr ∧
    (bootRecover img s).arb = s.arb ∧ (bootRecover img s).halves = s.halves ∧ (bootRecover img s).parts = s.parts ∧
    (bootRecover img s).bars = s.bars ∧ (bootRecover img s).ops = s.ops ∧ (bootRecover img s).ident = s.ident ∧
    (bootRecover img s).models = s.models ∧ (bootRecover img s).caps = s.caps ∧ (bootRecover img s).jets = s.jets ∧
    (bootRecover img s).lanes = s.lanes ∧ (bootRecover img s).ports = s.ports ∧ (bootRecover img s).ptp = s.ptp ∧
    (bootRecover img s).ftn = s.ftn ∧ (bootRecover img s).flt = s.flt ∧ (bootRecover img s).mgt = s.mgt ∧
    (bootRecover img s).cnt = s.cnt ∧ (bootRecover img s).keys.fuse = s.keys.fuse := by
  unfold bootRecover; (repeat' split) <;> simp

@[simp] theorem keeps_bootSelected (pick : BootCtl × BootImage) (s : State) :
    (bootSelected pick s).pending = s.pending ∧ (bootSelected pick s).fresh = s.fresh ∧
    (bootSelected pick s).now = s.now ∧ (bootSelected pick s).outs = s.outs ∧ (bootSelected pick s).pages = s.pages ∧
    (bootSelected pick s).arb = s.arb ∧ (bootSelected pick s).halves = s.halves ∧
    (bootSelected pick s).parts = s.parts ∧ (bootSelected pick s).bars = s.bars ∧ (bootSelected pick s).ops = s.ops ∧
    (bootSelected pick s).ident = s.ident ∧ (bootSelected pick s).models = s.models ∧
    (bootSelected pick s).caps = s.caps ∧ (bootSelected pick s).jets = s.jets ∧
    (bootSelected pick s).lanes = s.lanes ∧ (bootSelected pick s).ports = s.ports ∧
    (bootSelected pick s).ptp = s.ptp ∧ (bootSelected pick s).ftn = s.ftn ∧
    (bootSelected pick s).keys.fuse = s.keys.fuse := by
  simp [bootSelected]

@[simp] theorem keeps_bootRomStart (fuseOk : Bool) (s : State) :
    (bootRomStart fuseOk s).pending = s.pending ∧ (bootRomStart fuseOk s).now = s.now ∧
    (bootRomStart fuseOk s).arb = s.arb ∧ (bootRomStart fuseOk s).halves = s.halves ∧
    (bootRomStart fuseOk s).models = s.models ∧ (bootRomStart fuseOk s).jets = s.jets ∧
    (bootRomStart fuseOk s).lanes = s.lanes ∧ (bootRomStart fuseOk s).keys.fuse = s.keys.fuse ∧
    (∀ rp ro, regOf (bootRomStart fuseOk s).pages rp ro = regOf s.pages rp ro) := by
  unfold bootRomStart; (repeat' split) <;> simp

@[simp] theorem keeps_extendMeas (s : State) (i : Fin 8) (d : BitVec 384) :
    (extendMeas s i d).pending = s.pending ∧ (extendMeas s i d).fresh = s.fresh ∧ (extendMeas s i d).now = s.now ∧
    (extendMeas s i d).outs = s.outs ∧ (extendMeas s i d).pages = s.pages ∧ (extendMeas s i d).pwr = s.pwr ∧
    (extendMeas s i d).arb = s.arb ∧ (extendMeas s i d).halves = s.halves ∧ (extendMeas s i d).parts = s.parts ∧
    (extendMeas s i d).bars = s.bars ∧ (extendMeas s i d).ops = s.ops ∧ (extendMeas s i d).ident = s.ident ∧
    (extendMeas s i d).models = s.models ∧ (extendMeas s i d).caps = s.caps ∧ (extendMeas s i d).jets = s.jets ∧
    (extendMeas s i d).lanes = s.lanes ∧ (extendMeas s i d).ports = s.ports ∧ (extendMeas s i d).ptp = s.ptp ∧
    (extendMeas s i d).ftn = s.ftn ∧ (extendMeas s i d).flt = s.flt ∧ (extendMeas s i d).mgt = s.mgt ∧
    (extendMeas s i d).cnt = s.cnt ∧ (extendMeas s i d).keys.fuse = s.keys.fuse := by
  simp [extendMeas]

@[simp] theorem keeps_setOwner (s : State) (pg : Nat) (o : BitVec 3) (v : Bool) :
    (setOwner s pg o v).pending = s.pending ∧ (setOwner s pg o v).fresh = s.fresh ∧ (setOwner s pg o v).now = s.now ∧
    (setOwner s pg o v).outs = s.outs ∧ (setOwner s pg o v).pwr = s.pwr ∧ (setOwner s pg o v).arb = s.arb ∧
    (setOwner s pg o v).halves = s.halves ∧ (setOwner s pg o v).parts = s.parts ∧ (setOwner s pg o v).bars = s.bars ∧
    (setOwner s pg o v).ops = s.ops ∧ (setOwner s pg o v).ident = s.ident ∧ (setOwner s pg o v).models = s.models ∧
    (setOwner s pg o v).caps = s.caps ∧ (setOwner s pg o v).jets = s.jets ∧ (setOwner s pg o v).lanes = s.lanes ∧
    (setOwner s pg o v).ports = s.ports ∧ (setOwner s pg o v).ptp = s.ptp ∧ (setOwner s pg o v).ftn = s.ftn ∧
    (setOwner s pg o v).keys = s.keys ∧ (setOwner s pg o v).flt = s.flt ∧ (setOwner s pg o v).mgt = s.mgt ∧
    (setOwner s pg o v).cnt = s.cnt ∧ (∀ rp ro, regOf (setOwner s pg o v).pages rp ro = regOf s.pages rp ro) := by
  simp [setOwner]

@[simp] theorem keeps_applyOwners (s : State) :
    (applyOwners s).pending = s.pending ∧ (applyOwners s).fresh = s.fresh ∧ (applyOwners s).now = s.now ∧
    (applyOwners s).outs = s.outs ∧ (applyOwners s).pwr = s.pwr ∧ (applyOwners s).arb = s.arb ∧
    (applyOwners s).halves = s.halves ∧ (applyOwners s).parts = s.parts ∧ (applyOwners s).bars = s.bars ∧
    (applyOwners s).ops = s.ops ∧ (applyOwners s).ident = s.ident ∧ (applyOwners s).models = s.models ∧
    (applyOwners s).caps = s.caps ∧ (applyOwners s).jets = s.jets ∧ (applyOwners s).lanes = s.lanes ∧
    (applyOwners s).ports = s.ports ∧ (applyOwners s).ptp = s.ptp ∧ (applyOwners s).ftn = s.ftn ∧
    (applyOwners s).keys = s.keys ∧ (applyOwners s).flt = s.flt ∧ (applyOwners s).mgt = s.mgt ∧
    (applyOwners s).cnt = s.cnt ∧ (∀ rp ro, regOf (applyOwners s).pages rp ro = regOf s.pages rp ro) := by
  unfold applyOwners; (repeat' split) <;> simp

@[simp] theorem keeps_applyPolicy (s : State) :
    (applyPolicy s).pending = s.pending ∧ (applyPolicy s).fresh = s.fresh ∧ (applyPolicy s).now = s.now ∧
    (applyPolicy s).outs = s.outs ∧ (applyPolicy s).pwr = s.pwr ∧ (applyPolicy s).arb = s.arb ∧
    (applyPolicy s).halves = s.halves ∧ (applyPolicy s).parts = s.parts ∧ (applyPolicy s).bars = s.bars ∧
    (applyPolicy s).ops = s.ops ∧ (applyPolicy s).ident = s.ident ∧ (applyPolicy s).models = s.models ∧
    (applyPolicy s).caps = s.caps ∧ (applyPolicy s).jets = s.jets ∧ (applyPolicy s).lanes = s.lanes ∧
    (applyPolicy s).ports = s.ports ∧ (applyPolicy s).ptp = s.ptp ∧ (applyPolicy s).ftn = s.ftn ∧
    (applyPolicy s).flt = s.flt ∧ (applyPolicy s).cnt = s.cnt ∧ (applyPolicy s).keys.fuse = s.keys.fuse ∧
    (∀ rp ro, regOf (applyPolicy s).pages rp ro = regOf s.pages rp ro) := by
  unfold applyPolicy; (repeat' split) <;> simp

@[simp] theorem keeps_startupTrowel (s : State) (e : Dom × Word) :
    (startupTrowel s e).pending = s.pending ∧ (startupTrowel s e).fresh = s.fresh ∧ (startupTrowel s e).now = s.now ∧
    (startupTrowel s e).outs = s.outs ∧ (startupTrowel s e).pwr = s.pwr ∧ (startupTrowel s e).arb = s.arb ∧
    (startupTrowel s e).halves = s.halves ∧ (startupTrowel s e).parts = s.parts ∧ (startupTrowel s e).bars = s.bars ∧
    (startupTrowel s e).ops = s.ops ∧ (startupTrowel s e).ident = s.ident ∧ (startupTrowel s e).models = s.models ∧
    (startupTrowel s e).caps = s.caps ∧ (startupTrowel s e).jets = s.jets ∧ (startupTrowel s e).lanes = s.lanes ∧
    (startupTrowel s e).ports = s.ports ∧ (startupTrowel s e).ptp = s.ptp ∧ (startupTrowel s e).ftn = s.ftn ∧
    (startupTrowel s e).keys = s.keys ∧ (startupTrowel s e).flt = s.flt ∧ (startupTrowel s e).mgt = s.mgt ∧
    (startupTrowel s e).cnt = s.cnt := by
  simp [startupTrowel]

@[simp] theorem keeps_startupInit (s : State) (e : Nat × Word) :
    (startupInit s e).pending = s.pending ∧ (startupInit s e).fresh = s.fresh ∧ (startupInit s e).now = s.now ∧
    (startupInit s e).outs = s.outs ∧ (startupInit s e).pwr = s.pwr ∧ (startupInit s e).arb = s.arb ∧
    (startupInit s e).halves = s.halves ∧ (startupInit s e).parts = s.parts ∧ (startupInit s e).bars = s.bars ∧
    (startupInit s e).ops = s.ops ∧ (startupInit s e).ident = s.ident ∧ (startupInit s e).models = s.models ∧
    (startupInit s e).caps = s.caps ∧ (startupInit s e).lanes = s.lanes ∧ (startupInit s e).ports = s.ports ∧
    (startupInit s e).ptp = s.ptp ∧ (startupInit s e).ftn = s.ftn ∧ (startupInit s e).keys = s.keys ∧
    (startupInit s e).flt = s.flt ∧ (startupInit s e).mgt = s.mgt ∧ (startupInit s e).cnt = s.cnt := by
  simp only [startupInit]; (repeat' split) <;> simp

@[simp] theorem keeps_applyStartup (s : State) :
    (applyStartup s).pending = s.pending ∧ (applyStartup s).fresh = s.fresh ∧ (applyStartup s).now = s.now ∧
    (applyStartup s).outs = s.outs ∧ (applyStartup s).pwr = s.pwr ∧ (applyStartup s).arb = s.arb ∧
    (applyStartup s).halves = s.halves ∧ (applyStartup s).parts = s.parts ∧ (applyStartup s).bars = s.bars ∧
    (applyStartup s).ident = s.ident ∧ (applyStartup s).models = s.models ∧ (applyStartup s).caps = s.caps ∧
    (applyStartup s).lanes = s.lanes ∧ (applyStartup s).ports = s.ports ∧ (applyStartup s).ptp = s.ptp ∧
    (applyStartup s).ftn = s.ftn ∧ (applyStartup s).keys = s.keys ∧ (applyStartup s).flt = s.flt ∧
    (applyStartup s).mgt = s.mgt ∧ (applyStartup s).cnt = s.cnt := by
  unfold applyStartup; (repeat' split) <;> simp

@[simp] theorem keeps_romExtend (i : Fin 8) (d : BitVec 384) (s : State) :
    (romExtend i d s).pending = s.pending ∧ (romExtend i d s).fresh = s.fresh ∧ (romExtend i d s).now = s.now ∧
    (romExtend i d s).pwr = s.pwr ∧ (romExtend i d s).arb = s.arb ∧ (romExtend i d s).halves = s.halves ∧
    (romExtend i d s).parts = s.parts ∧ (romExtend i d s).ops = s.ops ∧ (romExtend i d s).ident = s.ident ∧
    (romExtend i d s).models = s.models ∧ (romExtend i d s).caps = s.caps ∧ (romExtend i d s).jets = s.jets ∧
    (romExtend i d s).lanes = s.lanes ∧ (romExtend i d s).ports = s.ports ∧ (romExtend i d s).ptp = s.ptp ∧
    (romExtend i d s).ftn = s.ftn ∧ (romExtend i d s).flt = s.flt ∧ (romExtend i d s).keys.fuse = s.keys.fuse ∧
    (∀ rp ro, regOf (romExtend i d s).pages rp ro = regOf s.pages rp ro) := by
  simp [romExtend]

@[simp] theorem keeps_measuredBoot (s : State) :
    (measuredBoot s).pending = s.pending ∧ (measuredBoot s).fresh = s.fresh ∧ (measuredBoot s).now = s.now ∧
    (measuredBoot s).pwr = s.pwr ∧ (measuredBoot s).arb = s.arb ∧ (measuredBoot s).halves = s.halves ∧
    (measuredBoot s).parts = s.parts ∧ (measuredBoot s).ident = s.ident ∧ (measuredBoot s).models = s.models ∧
    (measuredBoot s).caps = s.caps ∧ (measuredBoot s).lanes = s.lanes ∧ (measuredBoot s).ports = s.ports ∧
    (measuredBoot s).ptp = s.ptp ∧ (measuredBoot s).ftn = s.ftn ∧ (measuredBoot s).flt = s.flt ∧
    (measuredBoot s).keys.fuse = s.keys.fuse := by
  unfold measuredBoot; (repeat' split) <;> simp

@[simp] theorem keeps_measExtend (i : Fin 8) (d : BitVec 384) (s : State) :
    (measExtend i d s).pending = s.pending ∧ (measExtend i d s).fresh = s.fresh ∧ (measExtend i d s).now = s.now ∧
    (measExtend i d s).pwr = s.pwr ∧ (measExtend i d s).arb = s.arb ∧ (measExtend i d s).halves = s.halves ∧
    (measExtend i d s).parts = s.parts ∧ (measExtend i d s).ops = s.ops ∧ (measExtend i d s).ident = s.ident ∧
    (measExtend i d s).models = s.models ∧ (measExtend i d s).caps = s.caps ∧ (measExtend i d s).jets = s.jets ∧
    (measExtend i d s).lanes = s.lanes ∧ (measExtend i d s).ports = s.ports ∧ (measExtend i d s).ptp = s.ptp ∧
    (measExtend i d s).ftn = s.ftn ∧ (measExtend i d s).flt = s.flt ∧ (measExtend i d s).keys.fuse = s.keys.fuse ∧
    (∀ rp ro, regOf (measExtend i d s).pages rp ro = regOf s.pages rp ro) := by
  unfold measExtend; (repeat' split) <;> simp

@[simp] theorem keeps_measLock (s : State) :
    (measLock s).pending = s.pending ∧ (measLock s).fresh = s.fresh ∧ (measLock s).now = s.now ∧
    (measLock s).pwr = s.pwr ∧ (measLock s).arb = s.arb ∧ (measLock s).halves = s.halves ∧
    (measLock s).parts = s.parts ∧ (measLock s).ops = s.ops ∧ (measLock s).ident = s.ident ∧
    (measLock s).models = s.models ∧ (measLock s).caps = s.caps ∧ (measLock s).jets = s.jets ∧
    (measLock s).lanes = s.lanes ∧ (measLock s).ports = s.ports ∧ (measLock s).ptp = s.ptp ∧
    (measLock s).ftn = s.ftn ∧ (measLock s).flt = s.flt ∧ (measLock s).keys.fuse = s.keys.fuse ∧
    (∀ rp ro, regOf (measLock s).pages rp ro = regOf s.pages rp ro) := by
  unfold measLock; (repeat' split) <;> simp

@[simp] theorem keeps_step5Complete (s : State) :
    (step5Complete s).pending = s.pending ∧ (step5Complete s).fresh = s.fresh ∧ (step5Complete s).now = s.now ∧
    (step5Complete s).arb = s.arb ∧ (step5Complete s).halves = s.halves ∧ (step5Complete s).ops = s.ops ∧
    (step5Complete s).ident = s.ident ∧ (step5Complete s).models = s.models ∧ (step5Complete s).caps = s.caps ∧
    (step5Complete s).jets = s.jets ∧ (step5Complete s).ports = s.ports ∧ (step5Complete s).ptp = s.ptp ∧
    (step5Complete s).keys = s.keys ∧ (step5Complete s).flt = s.flt ∧ (step5Complete s).mgt = s.mgt := by
  simp [step5Complete]

@[simp] theorem keeps_bootRestart (step reason : Byte) (s : State) :
    (bootRestart step reason s).pending = s.pending ∧ (bootRestart step reason s).fresh = s.fresh ∧
    (bootRestart step reason s).now = s.now ∧ (bootRestart step reason s).outs = s.outs ∧
    (bootRestart step reason s).pages = s.pages ∧ (bootRestart step reason s).arb = s.arb ∧
    (bootRestart step reason s).halves = s.halves ∧ (bootRestart step reason s).parts = s.parts ∧
    (bootRestart step reason s).bars = s.bars ∧ (bootRestart step reason s).ops = s.ops ∧
    (bootRestart step reason s).ident = s.ident ∧ (bootRestart step reason s).models = s.models ∧
    (bootRestart step reason s).caps = s.caps ∧ (bootRestart step reason s).jets = s.jets ∧
    (bootRestart step reason s).lanes = s.lanes ∧ (bootRestart step reason s).ports = s.ports ∧
    (bootRestart step reason s).ptp = s.ptp ∧ (bootRestart step reason s).ftn = s.ftn ∧
    (bootRestart step reason s).keys = s.keys ∧ (bootRestart step reason s).flt = s.flt := by
  simp [bootRestart]

/-! ## Mgmt -/

@[simp] theorem keeps_ringAppend (s : State) (rs : List LogRec) :
    (ringAppend s rs).pending = s.pending ∧ (ringAppend s rs).fresh = s.fresh ∧ (ringAppend s rs).now = s.now ∧
    (ringAppend s rs).outs = s.outs ∧ (ringAppend s rs).pages = s.pages ∧ (ringAppend s rs).pwr = s.pwr ∧
    (ringAppend s rs).arb = s.arb ∧ (ringAppend s rs).halves = s.halves ∧ (ringAppend s rs).parts = s.parts ∧
    (ringAppend s rs).bars = s.bars ∧ (ringAppend s rs).ops = s.ops ∧ (ringAppend s rs).ident = s.ident ∧
    (ringAppend s rs).models = s.models ∧ (ringAppend s rs).caps = s.caps ∧ (ringAppend s rs).jets = s.jets ∧
    (ringAppend s rs).lanes = s.lanes ∧ (ringAppend s rs).ports = s.ports ∧ (ringAppend s rs).ptp = s.ptp ∧
    (ringAppend s rs).ftn = s.ftn ∧ (ringAppend s rs).keys = s.keys ∧ (ringAppend s rs).flt = s.flt := by
  simp [ringAppend]

@[simp] theorem keeps_logRecordWrite (s : State) :
    (logRecordWrite s).pending = s.pending ∧ (logRecordWrite s).fresh = s.fresh ∧ (logRecordWrite s).now = s.now ∧
    (logRecordWrite s).outs = s.outs ∧ (logRecordWrite s).pages = s.pages ∧ (logRecordWrite s).pwr = s.pwr ∧
    (logRecordWrite s).arb = s.arb ∧ (logRecordWrite s).halves = s.halves ∧ (logRecordWrite s).parts = s.parts ∧
    (logRecordWrite s).bars = s.bars ∧ (logRecordWrite s).ops = s.ops ∧ (logRecordWrite s).ident = s.ident ∧
    (logRecordWrite s).models = s.models ∧ (logRecordWrite s).caps = s.caps ∧ (logRecordWrite s).jets = s.jets ∧
    (logRecordWrite s).lanes = s.lanes ∧ (logRecordWrite s).ports = s.ports ∧ (logRecordWrite s).ptp = s.ptp ∧
    (logRecordWrite s).ftn = s.ftn ∧ (logRecordWrite s).keys = s.keys ∧ (logRecordWrite s).flt = s.flt := by
  unfold logRecordWrite; (repeat' split) <;> simp

@[simp] theorem keeps_ethAnswer (dst : BitVec 48) (cmd : Nat) (tag : BitVec 16) (status n : Nat) (s : State) :
    (ethAnswer dst cmd tag status n s).pending = s.pending ∧ (ethAnswer dst cmd tag status n s).now = s.now ∧
    (ethAnswer dst cmd tag status n s).pages = s.pages ∧ (ethAnswer dst cmd tag status n s).pwr = s.pwr ∧
    (ethAnswer dst cmd tag status n s).arb = s.arb ∧ (ethAnswer dst cmd tag status n s).halves = s.halves ∧
    (ethAnswer dst cmd tag status n s).parts = s.parts ∧ (ethAnswer dst cmd tag status n s).bars = s.bars ∧
    (ethAnswer dst cmd tag status n s).ops = s.ops ∧ (ethAnswer dst cmd tag status n s).ident = s.ident ∧
    (ethAnswer dst cmd tag status n s).models = s.models ∧ (ethAnswer dst cmd tag status n s).caps = s.caps ∧
    (ethAnswer dst cmd tag status n s).jets = s.jets ∧ (ethAnswer dst cmd tag status n s).lanes = s.lanes ∧
    (ethAnswer dst cmd tag status n s).ports = s.ports ∧ (ethAnswer dst cmd tag status n s).ptp = s.ptp ∧
    (ethAnswer dst cmd tag status n s).ftn = s.ftn ∧ (ethAnswer dst cmd tag status n s).keys = s.keys ∧
    (ethAnswer dst cmd tag status n s).flt = s.flt ∧ (ethAnswer dst cmd tag status n s).cnt = s.cnt := by
  simp [ethAnswer]

@[simp] theorem keeps_answer (src : Transport) (cmd : Nat) (tag : BitVec 16) (status : Nat) (vals : List Nat) (s : State) :
    (answer src cmd tag status vals s).pending = s.pending ∧ (answer src cmd tag status vals s).now = s.now ∧
    (answer src cmd tag status vals s).pwr = s.pwr ∧ (answer src cmd tag status vals s).arb = s.arb ∧
    (answer src cmd tag status vals s).halves = s.halves ∧ (answer src cmd tag status vals s).ops = s.ops ∧
    (answer src cmd tag status vals s).ident = s.ident ∧ (answer src cmd tag status vals s).models = s.models ∧
    (answer src cmd tag status vals s).caps = s.caps ∧ (answer src cmd tag status vals s).jets = s.jets ∧
    (answer src cmd tag status vals s).lanes = s.lanes ∧ (answer src cmd tag status vals s).ports = s.ports ∧
    (answer src cmd tag status vals s).ptp = s.ptp ∧ (answer src cmd tag status vals s).ftn = s.ftn ∧
    (answer src cmd tag status vals s).keys = s.keys ∧ (answer src cmd tag status vals s).flt = s.flt := by
  unfold answer; (repeat' split) <;> simp

@[simp] theorem keeps_drainUnknown (n : Nat) (s : State) :
    (drainUnknown n s).pending = s.pending ∧ (drainUnknown n s).now = s.now ∧ (drainUnknown n s).pwr = s.pwr ∧
    (drainUnknown n s).arb = s.arb ∧ (drainUnknown n s).halves = s.halves ∧ (drainUnknown n s).ops = s.ops ∧
    (drainUnknown n s).ident = s.ident ∧ (drainUnknown n s).models = s.models ∧ (drainUnknown n s).caps = s.caps ∧
    (drainUnknown n s).jets = s.jets ∧ (drainUnknown n s).lanes = s.lanes ∧ (drainUnknown n s).ports = s.ports ∧
    (drainUnknown n s).ptp = s.ptp ∧ (drainUnknown n s).ftn = s.ftn ∧ (drainUnknown n s).keys = s.keys ∧
    (drainUnknown n s).flt = s.flt := by
  induction n generalizing s with
  | zero => simp [drainUnknown]
  | succ n ih => unfold drainUnknown; (repeat' split) <;> simp [ih]

@[simp] theorem keeps_smbWait (cmd : Nat) (tag : BitVec 16) (s : State) :
    (smbWait cmd tag s).pending = s.pending ∧ (smbWait cmd tag s).fresh = s.fresh ∧ (smbWait cmd tag s).now = s.now ∧
    (smbWait cmd tag s).outs = s.outs ∧ (smbWait cmd tag s).pages = s.pages ∧ (smbWait cmd tag s).pwr = s.pwr ∧
    (smbWait cmd tag s).arb = s.arb ∧ (smbWait cmd tag s).halves = s.halves ∧ (smbWait cmd tag s).parts = s.parts ∧
    (smbWait cmd tag s).bars = s.bars ∧ (smbWait cmd tag s).ops = s.ops ∧ (smbWait cmd tag s).ident = s.ident ∧
    (smbWait cmd tag s).models = s.models ∧ (smbWait cmd tag s).caps = s.caps ∧ (smbWait cmd tag s).jets = s.jets ∧
    (smbWait cmd tag s).lanes = s.lanes ∧ (smbWait cmd tag s).ports = s.ports ∧ (smbWait cmd tag s).ptp = s.ptp ∧
    (smbWait cmd tag s).ftn = s.ftn ∧ (smbWait cmd tag s).keys = s.keys ∧ (smbWait cmd tag s).flt = s.flt ∧
    (smbWait cmd tag s).cnt = s.cnt := by
  simp [smbWait]

@[simp] theorem keeps_mailbox_pending (src : Transport) (cmd : Nat) (tag : BitVec 16) (priv : Bool) (body : State → State × Nat × List Nat) (after : State → State) (s : State)
    (hb : (body s).1.pending = s.pending) (ha : ∀ t, (after t).pending = t.pending) :
    (mailbox src cmd tag priv body after s).pending = s.pending := by
  simp only [mailbox]; (repeat' split) <;> simp [ha, hb]

@[simp] theorem keeps_mailbox_now (src : Transport) (cmd : Nat) (tag : BitVec 16) (priv : Bool) (body : State → State × Nat × List Nat) (after : State → State) (s : State)
    (hb : (body s).1.now = s.now) (ha : ∀ t, (after t).now = t.now) :
    (mailbox src cmd tag priv body after s).now = s.now := by
  simp only [mailbox]; (repeat' split) <;> simp [ha, hb]

@[simp] theorem keeps_mailbox_pwr (src : Transport) (cmd : Nat) (tag : BitVec 16) (priv : Bool) (body : State → State × Nat × List Nat) (after : State → State) (s : State)
    (hb : (body s).1.pwr = s.pwr) (ha : ∀ t, (after t).pwr = t.pwr) :
    (mailbox src cmd tag priv body after s).pwr = s.pwr := by
  simp only [mailbox]; (repeat' split) <;> simp [ha, hb]

@[simp] theorem keeps_mailbox_arb (src : Transport) (cmd : Nat) (tag : BitVec 16) (priv : Bool) (body : State → State × Nat × List Nat) (after : State → State) (s : State)
    (hb : (body s).1.arb = s.arb) (ha : ∀ t, (after t).arb = t.arb) :
    (mailbox src cmd tag priv body after s).arb = s.arb := by
  simp only [mailbox]; (repeat' split) <;> simp [ha, hb]

@[simp] theorem keeps_mailbox_halves (src : Transport) (cmd : Nat) (tag : BitVec 16) (priv : Bool) (body : State → State × Nat × List Nat) (after : State → State) (s : State)
    (hb : (body s).1.halves = s.halves) (ha : ∀ t, (after t).halves = t.halves) :
    (mailbox src cmd tag priv body after s).halves = s.halves := by
  simp only [mailbox]; (repeat' split) <;> simp [ha, hb]

@[simp] theorem keeps_mailbox_ops (src : Transport) (cmd : Nat) (tag : BitVec 16) (priv : Bool) (body : State → State × Nat × List Nat) (after : State → State) (s : State)
    (hb : (body s).1.ops = s.ops) (ha : ∀ t, (after t).ops = t.ops) :
    (mailbox src cmd tag priv body after s).ops = s.ops := by
  simp only [mailbox]; (repeat' split) <;> simp [ha, hb]

@[simp] theorem keeps_mailbox_ident (src : Transport) (cmd : Nat) (tag : BitVec 16) (priv : Bool) (body : State → State × Nat × List Nat) (after : State → State) (s : State)
    (hb : (body s).1.ident = s.ident) (ha : ∀ t, (after t).ident = t.ident) :
    (mailbox src cmd tag priv body after s).ident = s.ident := by
  simp only [mailbox]; (repeat' split) <;> simp [ha, hb]

@[simp] theorem keeps_mailbox_models (src : Transport) (cmd : Nat) (tag : BitVec 16) (priv : Bool) (body : State → State × Nat × List Nat) (after : State → State) (s : State)
    (hb : (body s).1.models = s.models) (ha : ∀ t, (after t).models = t.models) :
    (mailbox src cmd tag priv body after s).models = s.models := by
  simp only [mailbox]; (repeat' split) <;> simp [ha, hb]

@[simp] theorem keeps_mailbox_caps (src : Transport) (cmd : Nat) (tag : BitVec 16) (priv : Bool) (body : State → State × Nat × List Nat) (after : State → State) (s : State)
    (hb : (body s).1.caps = s.caps) (ha : ∀ t, (after t).caps = t.caps) :
    (mailbox src cmd tag priv body after s).caps = s.caps := by
  simp only [mailbox]; (repeat' split) <;> simp [ha, hb]

@[simp] theorem keeps_mailbox_jets (src : Transport) (cmd : Nat) (tag : BitVec 16) (priv : Bool) (body : State → State × Nat × List Nat) (after : State → State) (s : State)
    (hb : (body s).1.jets = s.jets) (ha : ∀ t, (after t).jets = t.jets) :
    (mailbox src cmd tag priv body after s).jets = s.jets := by
  simp only [mailbox]; (repeat' split) <;> simp [ha, hb]

@[simp] theorem keeps_mailbox_lanes (src : Transport) (cmd : Nat) (tag : BitVec 16) (priv : Bool) (body : State → State × Nat × List Nat) (after : State → State) (s : State)
    (hb : (body s).1.lanes = s.lanes) (ha : ∀ t, (after t).lanes = t.lanes) :
    (mailbox src cmd tag priv body after s).lanes = s.lanes := by
  simp only [mailbox]; (repeat' split) <;> simp [ha, hb]

@[simp] theorem keeps_mailbox_ports (src : Transport) (cmd : Nat) (tag : BitVec 16) (priv : Bool) (body : State → State × Nat × List Nat) (after : State → State) (s : State)
    (hb : (body s).1.ports = s.ports) (ha : ∀ t, (after t).ports = t.ports) :
    (mailbox src cmd tag priv body after s).ports = s.ports := by
  simp only [mailbox]; (repeat' split) <;> simp [ha, hb]

@[simp] theorem keeps_mailbox_ptp (src : Transport) (cmd : Nat) (tag : BitVec 16) (priv : Bool) (body : State → State × Nat × List Nat) (after : State → State) (s : State)
    (hb : (body s).1.ptp = s.ptp) (ha : ∀ t, (after t).ptp = t.ptp) :
    (mailbox src cmd tag priv body after s).ptp = s.ptp := by
  simp only [mailbox]; (repeat' split) <;> simp [ha, hb]

@[simp] theorem keeps_mailbox_ftn (src : Transport) (cmd : Nat) (tag : BitVec 16) (priv : Bool) (body : State → State × Nat × List Nat) (after : State → State) (s : State)
    (hb : (body s).1.ftn = s.ftn) (ha : ∀ t, (after t).ftn = t.ftn) :
    (mailbox src cmd tag priv body after s).ftn = s.ftn := by
  simp only [mailbox]; (repeat' split) <;> simp [ha, hb]

@[simp] theorem keeps_mailbox_keys (src : Transport) (cmd : Nat) (tag : BitVec 16) (priv : Bool) (body : State → State × Nat × List Nat) (after : State → State) (s : State)
    (hb : (body s).1.keys = s.keys) (ha : ∀ t, (after t).keys = t.keys) :
    (mailbox src cmd tag priv body after s).keys = s.keys := by
  simp only [mailbox]; (repeat' split) <;> simp [ha, hb]

@[simp] theorem keeps_mailbox_flt (src : Transport) (cmd : Nat) (tag : BitVec 16) (priv : Bool) (body : State → State × Nat × List Nat) (after : State → State) (s : State)
    (hb : (body s).1.flt = s.flt) (ha : ∀ t, (after t).flt = t.flt) :
    (mailbox src cmd tag priv body after s).flt = s.flt := by
  simp only [mailbox]; (repeat' split) <;> simp [ha, hb]

@[simp] theorem keeps_doMbxGo (s : State) (p : Part) :
    (doMbxGo s p).pending = s.pending ∧ (doMbxGo s p).now = s.now ∧ (doMbxGo s p).pwr = s.pwr ∧
    (doMbxGo s p).arb = s.arb ∧ (doMbxGo s p).halves = s.halves ∧ (doMbxGo s p).ops = s.ops ∧
    (doMbxGo s p).ident = s.ident ∧ (doMbxGo s p).models = s.models ∧ (doMbxGo s p).caps = s.caps ∧
    (doMbxGo s p).jets = s.jets ∧ (doMbxGo s p).lanes = s.lanes ∧ (doMbxGo s p).ports = s.ports ∧
    (doMbxGo s p).ptp = s.ptp ∧ (doMbxGo s p).ftn = s.ftn ∧ (doMbxGo s p).keys = s.keys ∧ (doMbxGo s p).flt = s.flt := by
  simp [doMbxGo]

@[simp] theorem keeps_mgtEthFrame (srcMac : BitVec 48) (seq : BitVec 64) (body : List Byte) (icv : BitVec 128) (s : State) :
    (mgtEthFrame srcMac seq body icv s).pending = s.pending ∧ (mgtEthFrame srcMac seq body icv s).now = s.now ∧
    (mgtEthFrame srcMac seq body icv s).pwr = s.pwr ∧ (mgtEthFrame srcMac seq body icv s).arb = s.arb ∧
    (mgtEthFrame srcMac seq body icv s).halves = s.halves ∧ (mgtEthFrame srcMac seq body icv s).ops = s.ops ∧
    (mgtEthFrame srcMac seq body icv s).ident = s.ident ∧ (mgtEthFrame srcMac seq body icv s).models = s.models ∧
    (mgtEthFrame srcMac seq body icv s).caps = s.caps ∧ (mgtEthFrame srcMac seq body icv s).jets = s.jets ∧
    (mgtEthFrame srcMac seq body icv s).lanes = s.lanes ∧ (mgtEthFrame srcMac seq body icv s).ports = s.ports ∧
    (mgtEthFrame srcMac seq body icv s).ptp = s.ptp ∧ (mgtEthFrame srcMac seq body icv s).ftn = s.ftn ∧
    (mgtEthFrame srcMac seq body icv s).keys = s.keys ∧ (mgtEthFrame srcMac seq body icv s).flt = s.flt := by
  simp [mgtEthFrame]

@[simp] theorem keeps_restartMgt (lockstep : Bool) (s : State) :
    (restartMgt lockstep s).pending = s.pending ∧ (restartMgt lockstep s).now = s.now ∧
    (restartMgt lockstep s).pwr = s.pwr ∧ (restartMgt lockstep s).arb = s.arb ∧
    (restartMgt lockstep s).halves = s.halves ∧ (restartMgt lockstep s).ops = s.ops ∧
    (restartMgt lockstep s).ident = s.ident ∧ (restartMgt lockstep s).models = s.models ∧
    (restartMgt lockstep s).caps = s.caps ∧ (restartMgt lockstep s).jets = s.jets ∧
    (restartMgt lockstep s).lanes = s.lanes ∧ (restartMgt lockstep s).ports = s.ports ∧
    (restartMgt lockstep s).ptp = s.ptp ∧ (restartMgt lockstep s).ftn = s.ftn ∧
    (restartMgt lockstep s).keys = s.keys := by
  simp [restartMgt]

@[simp] theorem keeps_doPolicy (r : PolicyRec) (s : State) :
    (doPolicy r s).pending = s.pending ∧ (doPolicy r s).fresh = s.fresh ∧ (doPolicy r s).now = s.now ∧
    (doPolicy r s).pwr = s.pwr ∧ (doPolicy r s).arb = s.arb ∧ (doPolicy r s).halves = s.halves ∧
    (doPolicy r s).parts = s.parts ∧ (doPolicy r s).ops = s.ops ∧ (doPolicy r s).ident = s.ident ∧
    (doPolicy r s).models = s.models ∧ (doPolicy r s).caps = s.caps ∧ (doPolicy r s).jets = s.jets ∧
    (doPolicy r s).lanes = s.lanes ∧ (doPolicy r s).ports = s.ports ∧ (doPolicy r s).ptp = s.ptp ∧
    (doPolicy r s).ftn = s.ftn ∧ (doPolicy r s).flt = s.flt ∧ (doPolicy r s).keys.fuse = s.keys.fuse ∧
    (∀ rp ro, regOf (doPolicy r s).pages rp ro = regOf s.pages rp ro) := by
  unfold doPolicy; (repeat' split) <;> simp

@[simp] theorem keeps_lifecycleTo (n : Nat) (s : State) :
    (lifecycleTo n s).pending = s.pending ∧ (lifecycleTo n s).fresh = s.fresh ∧ (lifecycleTo n s).now = s.now ∧
    (lifecycleTo n s).pwr = s.pwr ∧ (lifecycleTo n s).arb = s.arb ∧ (lifecycleTo n s).halves = s.halves ∧
    (lifecycleTo n s).ident = s.ident ∧ (lifecycleTo n s).models = s.models ∧ (lifecycleTo n s).jets = s.jets ∧
    (lifecycleTo n s).lanes = s.lanes ∧ (lifecycleTo n s).ports = s.ports ∧ (lifecycleTo n s).ptp = s.ptp ∧
    (lifecycleTo n s).ftn = s.ftn ∧ (lifecycleTo n s).flt = s.flt ∧
    (∀ rp ro, regOf (lifecycleTo n s).pages rp ro = regOf s.pages rp ro) ∧
    (lifecycleTo n s).keys.fuse = { s.keys.fuse with lifecycle := n } := by
  simp [lifecycleTo]

@[simp] theorem keeps_updateBegin (bodyLen : Nat) (s : State) :
    (updateBegin bodyLen s).1.pending = s.pending ∧ (updateBegin bodyLen s).1.fresh = s.fresh ∧
    (updateBegin bodyLen s).1.now = s.now ∧ (updateBegin bodyLen s).1.outs = s.outs ∧
    (updateBegin bodyLen s).1.pages = s.pages ∧ (updateBegin bodyLen s).1.pwr = s.pwr ∧
    (updateBegin bodyLen s).1.arb = s.arb ∧ (updateBegin bodyLen s).1.halves = s.halves ∧
    (updateBegin bodyLen s).1.parts = s.parts ∧ (updateBegin bodyLen s).1.bars = s.bars ∧
    (updateBegin bodyLen s).1.ops = s.ops ∧ (updateBegin bodyLen s).1.ident = s.ident ∧
    (updateBegin bodyLen s).1.models = s.models ∧ (updateBegin bodyLen s).1.caps = s.caps ∧
    (updateBegin bodyLen s).1.jets = s.jets ∧ (updateBegin bodyLen s).1.lanes = s.lanes ∧
    (updateBegin bodyLen s).1.ports = s.ports ∧ (updateBegin bodyLen s).1.ptp = s.ptp ∧
    (updateBegin bodyLen s).1.ftn = s.ftn ∧ (updateBegin bodyLen s).1.keys = s.keys ∧
    (updateBegin bodyLen s).1.flt = s.flt ∧ (updateBegin bodyLen s).1.cnt = s.cnt := by
  unfold updateBegin; (repeat' split) <;> simp

@[simp] theorem keeps_updateData (offset : Nat) (data : List Byte) (s : State) :
    (updateData offset data s).1.pending = s.pending ∧ (updateData offset data s).1.fresh = s.fresh ∧
    (updateData offset data s).1.now = s.now ∧ (updateData offset data s).1.outs = s.outs ∧
    (updateData offset data s).1.pages = s.pages ∧ (updateData offset data s).1.pwr = s.pwr ∧
    (updateData offset data s).1.arb = s.arb ∧ (updateData offset data s).1.halves = s.halves ∧
    (updateData offset data s).1.parts = s.parts ∧ (updateData offset data s).1.bars = s.bars ∧
    (updateData offset data s).1.ops = s.ops ∧ (updateData offset data s).1.ident = s.ident ∧
    (updateData offset data s).1.models = s.models ∧ (updateData offset data s).1.caps = s.caps ∧
    (updateData offset data s).1.jets = s.jets ∧ (updateData offset data s).1.lanes = s.lanes ∧
    (updateData offset data s).1.ports = s.ports ∧ (updateData offset data s).1.ptp = s.ptp ∧
    (updateData offset data s).1.ftn = s.ftn ∧ (updateData offset data s).1.keys = s.keys ∧
    (updateData offset data s).1.flt = s.flt ∧ (updateData offset data s).1.cnt = s.cnt := by
  unfold updateData; (repeat' split) <;> simp

@[simp] theorem keeps_updateEnd (s : State) :
    (updateEnd s).1.pending = s.pending ∧ (updateEnd s).1.fresh = s.fresh ∧ (updateEnd s).1.now = s.now ∧
    (updateEnd s).1.pwr = s.pwr ∧ (updateEnd s).1.arb = s.arb ∧ (updateEnd s).1.halves = s.halves ∧
    (updateEnd s).1.parts = s.parts ∧ (updateEnd s).1.ops = s.ops ∧ (updateEnd s).1.ident = s.ident ∧
    (updateEnd s).1.models = s.models ∧ (updateEnd s).1.caps = s.caps ∧ (updateEnd s).1.jets = s.jets ∧
    (updateEnd s).1.lanes = s.lanes ∧ (updateEnd s).1.ports = s.ports ∧ (updateEnd s).1.ptp = s.ptp ∧
    (updateEnd s).1.ftn = s.ftn ∧ (updateEnd s).1.keys = s.keys ∧ (updateEnd s).1.flt = s.flt ∧
    (∀ rp ro, regOf (updateEnd s).1.pages rp ro = regOf s.pages rp ro) := by
  unfold updateEnd; (repeat' split) <;> simp

@[simp] theorem keeps_confirmImage (s : State) :
    (confirmImage s).1.pending = s.pending ∧ (confirmImage s).1.fresh = s.fresh ∧ (confirmImage s).1.now = s.now ∧
    (confirmImage s).1.outs = s.outs ∧ (confirmImage s).1.pages = s.pages ∧ (confirmImage s).1.pwr = s.pwr ∧
    (confirmImage s).1.arb = s.arb ∧ (confirmImage s).1.halves = s.halves ∧ (confirmImage s).1.parts = s.parts ∧
    (confirmImage s).1.bars = s.bars ∧ (confirmImage s).1.ops = s.ops ∧ (confirmImage s).1.ident = s.ident ∧
    (confirmImage s).1.models = s.models ∧ (confirmImage s).1.caps = s.caps ∧ (confirmImage s).1.jets = s.jets ∧
    (confirmImage s).1.lanes = s.lanes ∧ (confirmImage s).1.ports = s.ports ∧ (confirmImage s).1.ptp = s.ptp ∧
    (confirmImage s).1.ftn = s.ftn ∧ (confirmImage s).1.keys = s.keys ∧ (confirmImage s).1.flt = s.flt := by
  unfold confirmImage; (repeat' split) <;> simp

@[simp] theorem keeps_svnCommit (s : State) :
    (svnCommit s).1.pending = s.pending ∧ (svnCommit s).1.fresh = s.fresh ∧ (svnCommit s).1.now = s.now ∧
    (svnCommit s).1.outs = s.outs ∧ (svnCommit s).1.pages = s.pages ∧ (svnCommit s).1.pwr = s.pwr ∧
    (svnCommit s).1.arb = s.arb ∧ (svnCommit s).1.halves = s.halves ∧ (svnCommit s).1.parts = s.parts ∧
    (svnCommit s).1.bars = s.bars ∧ (svnCommit s).1.ops = s.ops ∧ (svnCommit s).1.ident = s.ident ∧
    (svnCommit s).1.models = s.models ∧ (svnCommit s).1.caps = s.caps ∧ (svnCommit s).1.jets = s.jets ∧
    (svnCommit s).1.lanes = s.lanes ∧ (svnCommit s).1.ports = s.ports ∧ (svnCommit s).1.ptp = s.ptp ∧
    (svnCommit s).1.ftn = s.ftn ∧ (svnCommit s).1.flt = s.flt ∧ (svnCommit s).1.mgt = s.mgt ∧
    (svnCommit s).1.cnt = s.cnt := by
  unfold svnCommit; (repeat' split) <;> simp

@[simp] theorem keeps_enterRma (sig : List Byte) (s : State) :
    (enterRma sig s).1.pending = s.pending ∧ (enterRma sig s).1.fresh = s.fresh ∧ (enterRma sig s).1.now = s.now ∧
    (enterRma sig s).1.pwr = s.pwr ∧ (enterRma sig s).1.arb = s.arb ∧ (enterRma sig s).1.halves = s.halves ∧
    (enterRma sig s).1.ident = s.ident ∧ (enterRma sig s).1.models = s.models ∧ (enterRma sig s).1.jets = s.jets ∧
    (enterRma sig s).1.lanes = s.lanes ∧ (enterRma sig s).1.ports = s.ports ∧ (enterRma sig s).1.ptp = s.ptp ∧
    (enterRma sig s).1.ftn = s.ftn ∧ (enterRma sig s).1.flt = s.flt ∧
    (∀ rp ro, regOf (enterRma sig s).1.pages rp ro = regOf s.pages rp ro) := by
  simp only [enterRma]; (repeat' split) <;> simp

@[simp] theorem keeps_decommission (tag : BitVec 16) (s : State) :
    (decommission tag s).1.pending = s.pending ∧ (decommission tag s).1.now = s.now ∧
    (decommission tag s).1.pwr = s.pwr ∧ (decommission tag s).1.arb = s.arb ∧
    (decommission tag s).1.halves = s.halves ∧ (decommission tag s).1.ident = s.ident ∧
    (decommission tag s).1.models = s.models ∧ (decommission tag s).1.jets = s.jets ∧
    (decommission tag s).1.lanes = s.lanes ∧ (decommission tag s).1.ports = s.ports ∧
    (decommission tag s).1.ptp = s.ptp ∧ (decommission tag s).1.ftn = s.ftn ∧ (decommission tag s).1.flt = s.flt ∧
    (∀ rp ro, regOf (decommission tag s).1.pages rp ro = regOf s.pages rp ro) := by
  unfold decommission; (repeat' split) <;> simp

@[simp] theorem keeps_railCrossing (rail : Fin 8) (mv : Nat) (s : State) :
    (railCrossing rail mv s).pending = s.pending ∧ (railCrossing rail mv s).fresh = s.fresh ∧
    (railCrossing rail mv s).now = s.now ∧ (railCrossing rail mv s).outs = s.outs ∧
    (railCrossing rail mv s).pwr = s.pwr ∧ (railCrossing rail mv s).arb = s.arb ∧
    (railCrossing rail mv s).halves = s.halves ∧ (railCrossing rail mv s).parts = s.parts ∧
    (railCrossing rail mv s).bars = s.bars ∧ (railCrossing rail mv s).ops = s.ops ∧
    (railCrossing rail mv s).models = s.models ∧ (railCrossing rail mv s).caps = s.caps ∧
    (railCrossing rail mv s).jets = s.jets ∧ (railCrossing rail mv s).lanes = s.lanes ∧
    (railCrossing rail mv s).ports = s.ports ∧ (railCrossing rail mv s).ptp = s.ptp ∧
    (railCrossing rail mv s).ftn = s.ftn ∧ (railCrossing rail mv s).keys = s.keys ∧
    (∀ rp ro, regOf (railCrossing rail mv s).pages rp ro = regOf s.pages rp ro) := by
  simp [railCrossing]

@[simp] theorem keeps_mgtDetection (det : Byte) (correctable : Bool) (s : State) :
    (mgtDetection det correctable s).pending = s.pending ∧ (mgtDetection det correctable s).now = s.now ∧
    (mgtDetection det correctable s).pwr = s.pwr ∧ (mgtDetection det correctable s).arb = s.arb ∧
    (mgtDetection det correctable s).halves = s.halves ∧ (mgtDetection det correctable s).ops = s.ops ∧
    (mgtDetection det correctable s).models = s.models ∧ (mgtDetection det correctable s).caps = s.caps ∧
    (mgtDetection det correctable s).jets = s.jets ∧ (mgtDetection det correctable s).lanes = s.lanes ∧
    (mgtDetection det correctable s).ports = s.ports ∧ (mgtDetection det correctable s).ptp = s.ptp ∧
    (mgtDetection det correctable s).ftn = s.ftn ∧ (mgtDetection det correctable s).keys = s.keys := by
  unfold mgtDetection; (repeat' split) <;> simp

@[simp] theorem keeps_mgtWdog (s : State) :
    (mgtWdog s).pending = s.pending ∧ (mgtWdog s).now = s.now ∧ (mgtWdog s).pwr = s.pwr ∧ (mgtWdog s).arb = s.arb ∧
    (mgtWdog s).halves = s.halves ∧ (mgtWdog s).ops = s.ops ∧ (mgtWdog s).models = s.models ∧
    (mgtWdog s).caps = s.caps ∧ (mgtWdog s).jets = s.jets ∧ (mgtWdog s).lanes = s.lanes ∧
    (mgtWdog s).ports = s.ports ∧ (mgtWdog s).ptp = s.ptp ∧ (mgtWdog s).ftn = s.ftn ∧ (mgtWdog s).keys = s.keys := by
  simp [mgtWdog]

/-! ## Faults -/

@[simp] theorem keeps_settleAll (s : State) :
    (settleAll s).pending = s.pending ∧ (settleAll s).fresh = s.fresh ∧ (settleAll s).now = s.now ∧
    (settleAll s).arb = s.arb ∧ (settleAll s).ident = s.ident ∧ (settleAll s).models = s.models ∧
    (settleAll s).caps = s.caps ∧ (settleAll s).jets = s.jets ∧ (settleAll s).keys = s.keys ∧
    (settleAll s).flt = s.flt ∧ (settleAll s).mgt = s.mgt := by
  simp [settleAll]

@[simp] theorem keeps_abortEngine (pg : Nat) (st : Byte) (s : State) :
    (abortEngine pg st s).pending = s.pending ∧ (abortEngine pg st s).now = s.now ∧
    (abortEngine pg st s).pwr = s.pwr ∧ (abortEngine pg st s).arb = s.arb ∧ (abortEngine pg st s).halves = s.halves ∧
    (abortEngine pg st s).ident = s.ident ∧ (abortEngine pg st s).models = s.models ∧
    (abortEngine pg st s).jets = s.jets ∧ (abortEngine pg st s).lanes = s.lanes ∧ (abortEngine pg st s).ptp = s.ptp ∧
    (abortEngine pg st s).ftn = s.ftn ∧ (abortEngine pg st s).flt = s.flt ∧ (abortEngine pg st s).mgt = s.mgt ∧
    (abortEngine pg st s).keys.fuse = s.keys.fuse ∧
    (∀ rp ro, regOf (abortEngine pg st s).pages rp ro = regOf s.pages rp ro) := by
  simp [abortEngine]

@[simp] theorem keeps_cutTag (g : Tag) (s : State) :
    (cutTag g s).pending = s.pending ∧ (cutTag g s).now = s.now ∧ (cutTag g s).outs = s.outs ∧
    (cutTag g s).pages = s.pages ∧ (cutTag g s).pwr = s.pwr ∧ (cutTag g s).arb = s.arb ∧
    (cutTag g s).halves = s.halves ∧ (cutTag g s).parts = s.parts ∧ (cutTag g s).bars = s.bars ∧
    (cutTag g s).ops = s.ops ∧ (cutTag g s).ident = s.ident ∧ (cutTag g s).models = s.models ∧
    (cutTag g s).caps = s.caps ∧ (cutTag g s).jets = s.jets ∧ (cutTag g s).lanes = s.lanes ∧
    (cutTag g s).ports = s.ports ∧ (cutTag g s).ptp = s.ptp ∧ (cutTag g s).ftn = s.ftn ∧ (cutTag g s).flt = s.flt ∧
    (cutTag g s).mgt = s.mgt ∧ (cutTag g s).cnt = s.cnt ∧ (cutTag g s).keys.fuse = s.keys.fuse := by
  unfold cutTag; (repeat' split) <;> simp

@[simp] theorem keeps_timeOut (t : Option Tag) (s : State) :
    (timeOut t s).pending = s.pending ∧ (timeOut t s).now = s.now ∧ (timeOut t s).pwr = s.pwr ∧
    (timeOut t s).arb = s.arb ∧ (timeOut t s).halves = s.halves ∧ (timeOut t s).ident = s.ident ∧
    (timeOut t s).models = s.models ∧ (timeOut t s).jets = s.jets ∧ (timeOut t s).lanes = s.lanes ∧
    (timeOut t s).ptp = s.ptp ∧ (timeOut t s).ftn = s.ftn ∧ (timeOut t s).flt = s.flt ∧ (timeOut t s).mgt = s.mgt ∧
    (timeOut t s).keys.fuse = s.keys.fuse ∧ (∀ rp ro, regOf (timeOut t s).pages rp ro = regOf s.pages rp ro) := by
  unfold timeOut; (repeat' split) <;> simp

@[simp] theorem keeps_resetLane (n : LaneNo) (s : State) :
    (resetLane n s).pending = s.pending ∧ (resetLane n s).fresh = s.fresh ∧ (resetLane n s).now = s.now ∧
    (resetLane n s).pwr = s.pwr ∧ (resetLane n s).arb = s.arb ∧ (resetLane n s).parts = s.parts ∧
    (resetLane n s).ops = s.ops ∧ (resetLane n s).ident = s.ident ∧ (resetLane n s).models = s.models ∧
    (resetLane n s).caps = s.caps ∧ (resetLane n s).jets = s.jets ∧ (resetLane n s).ptp = s.ptp ∧
    (resetLane n s).ftn = s.ftn ∧ (resetLane n s).keys = s.keys ∧ (resetLane n s).flt = s.flt ∧
    (resetLane n s).mgt = s.mgt ∧ (∀ rp ro, regOf (resetLane n s).pages rp ro = regOf s.pages rp ro) := by
  unfold resetLane; (repeat' split) <;> simp

@[simp] theorem keeps_resetCap (c : CapNo) (s : State) :
    (resetCap c s).pending = s.pending ∧ (resetCap c s).fresh = s.fresh ∧ (resetCap c s).now = s.now ∧
    (resetCap c s).outs = s.outs ∧ (resetCap c s).pages = s.pages ∧ (resetCap c s).pwr = s.pwr ∧
    (resetCap c s).arb = s.arb ∧ (resetCap c s).halves = s.halves ∧ (resetCap c s).parts = s.parts ∧
    (resetCap c s).bars = s.bars ∧ (resetCap c s).ops = s.ops ∧ (resetCap c s).ident = s.ident ∧
    (resetCap c s).models = s.models ∧ (resetCap c s).jets = s.jets ∧ (resetCap c s).lanes = s.lanes ∧
    (resetCap c s).ports = s.ports ∧ (resetCap c s).ptp = s.ptp ∧ (resetCap c s).ftn = s.ftn ∧
    (resetCap c s).keys = s.keys ∧ (resetCap c s).flt = s.flt ∧ (resetCap c s).mgt = s.mgt ∧
    (resetCap c s).cnt = s.cnt := by
  simp [resetCap]

@[simp] theorem keeps_clearPort (p : PortNo) (s : State) :
    (clearPort p s).pending = s.pending ∧ (clearPort p s).fresh = s.fresh ∧ (clearPort p s).now = s.now ∧
    (clearPort p s).pwr = s.pwr ∧ (clearPort p s).arb = s.arb ∧ (clearPort p s).halves = s.halves ∧
    (clearPort p s).ident = s.ident ∧ (clearPort p s).models = s.models ∧ (clearPort p s).caps = s.caps ∧
    (clearPort p s).jets = s.jets ∧ (clearPort p s).lanes = s.lanes ∧ (clearPort p s).ptp = s.ptp ∧
    (clearPort p s).ftn = s.ftn ∧ (clearPort p s).keys = s.keys ∧ (clearPort p s).flt = s.flt ∧
    (clearPort p s).mgt = s.mgt ∧ (∀ rp ro, regOf (clearPort p s).pages rp ro = regOf s.pages rp ro) := by
  simp [clearPort]

@[simp] theorem keeps_resetBlock (pg : Nat) (s : State) :
    (resetBlock pg s).pending = s.pending ∧ (resetBlock pg s).now = s.now ∧ (resetBlock pg s).pwr = s.pwr ∧
    (resetBlock pg s).arb = s.arb ∧ (resetBlock pg s).models = s.models ∧ (resetBlock pg s).ftn = s.ftn ∧
    (resetBlock pg s).mgt = s.mgt ∧ (resetBlock pg s).keys.fuse = s.keys.fuse := by
  unfold resetBlock; (repeat' split) <;> simp

@[simp] theorem keeps_blockReset (src : Nat) (s : State) :
    (blockReset src s).pending = s.pending ∧ (blockReset src s).now = s.now ∧ (blockReset src s).models = s.models ∧
    (blockReset src s).mgt = s.mgt ∧ (blockReset src s).keys.fuse = s.keys.fuse := by
  unfold blockReset; (repeat' split) <;> simp

@[simp] theorem keeps_noteSeq (ident : Nat) (seq : BitVec 14) (s : State) :
    (noteSeq ident seq s).pending = s.pending ∧ (noteSeq ident seq s).fresh = s.fresh ∧
    (noteSeq ident seq s).now = s.now ∧ (noteSeq ident seq s).outs = s.outs ∧ (noteSeq ident seq s).pages = s.pages ∧
    (noteSeq ident seq s).pwr = s.pwr ∧ (noteSeq ident seq s).arb = s.arb ∧ (noteSeq ident seq s).halves = s.halves ∧
    (noteSeq ident seq s).bars = s.bars ∧ (noteSeq ident seq s).ops = s.ops ∧ (noteSeq ident seq s).ident = s.ident ∧
    (noteSeq ident seq s).models = s.models ∧ (noteSeq ident seq s).caps = s.caps ∧
    (noteSeq ident seq s).jets = s.jets ∧ (noteSeq ident seq s).lanes = s.lanes ∧
    (noteSeq ident seq s).ports = s.ports ∧ (noteSeq ident seq s).ptp = s.ptp ∧ (noteSeq ident seq s).ftn = s.ftn ∧
    (noteSeq ident seq s).keys = s.keys ∧ (noteSeq ident seq s).mgt = s.mgt ∧ (noteSeq ident seq s).cnt = s.cnt := by
  simp [noteSeq]

@[simp] theorem keeps_logMsg (m : BitVec 64) (inj : Bool) (s : State) :
    (logMsg m inj s).pending = s.pending ∧ (logMsg m inj s).now = s.now ∧ (logMsg m inj s).pwr = s.pwr ∧
    (logMsg m inj s).arb = s.arb ∧ (logMsg m inj s).halves = s.halves ∧ (logMsg m inj s).parts = s.parts ∧
    (logMsg m inj s).ops = s.ops ∧ (logMsg m inj s).ident = s.ident ∧ (logMsg m inj s).models = s.models ∧
    (logMsg m inj s).caps = s.caps ∧ (logMsg m inj s).jets = s.jets ∧ (logMsg m inj s).lanes = s.lanes ∧
    (logMsg m inj s).ports = s.ports ∧ (logMsg m inj s).ptp = s.ptp ∧ (logMsg m inj s).ftn = s.ftn ∧
    (logMsg m inj s).keys = s.keys ∧ (logMsg m inj s).mgt = s.mgt ∧
    (∀ rp ro, regOf (logMsg m inj s).pages rp ro = regOf s.pages rp ro) := by
  simp [logMsg]

@[simp] theorem keeps_freezeAlive (s : State) :
    (freezeAlive s).pending = s.pending ∧ (freezeAlive s).fresh = s.fresh ∧ (freezeAlive s).now = s.now ∧
    (freezeAlive s).pwr = s.pwr ∧ (freezeAlive s).arb = s.arb ∧ (freezeAlive s).halves = s.halves ∧
    (freezeAlive s).parts = s.parts ∧ (freezeAlive s).ops = s.ops ∧ (freezeAlive s).ident = s.ident ∧
    (freezeAlive s).models = s.models ∧ (freezeAlive s).caps = s.caps ∧ (freezeAlive s).jets = s.jets ∧
    (freezeAlive s).lanes = s.lanes ∧ (freezeAlive s).ports = s.ports ∧ (freezeAlive s).ptp = s.ptp ∧
    (freezeAlive s).ftn = s.ftn ∧ (freezeAlive s).keys = s.keys ∧ (freezeAlive s).mgt = s.mgt ∧
    (∀ rp ro, regOf (freezeAlive s).pages rp ro = regOf s.pages rp ro) := by
  simp [freezeAlive]

@[simp] theorem keeps_react (src pg sev : Nat) (s : State) :
    (react src pg sev s).pending = s.pending ∧ (react src pg sev s).keys.fuse = s.keys.fuse := by
  simp only [react]; (repeat' split) <;> simp

@[simp] theorem keeps_acceptMsg (k : Nat) (s : State) :
    (acceptMsg k s).pending = s.pending ∧ (acceptMsg k s).keys.fuse = s.keys.fuse := by
  unfold acceptMsg; (repeat' split) <;> simp

@[simp] theorem keeps_overflowMsg (k : Nat) (s : State) :
    (overflowMsg k s).pending = s.pending ∧ (overflowMsg k s).fresh = s.fresh ∧ (overflowMsg k s).now = s.now ∧
    (overflowMsg k s).outs = s.outs ∧ (overflowMsg k s).pages = s.pages ∧ (overflowMsg k s).pwr = s.pwr ∧
    (overflowMsg k s).arb = s.arb ∧ (overflowMsg k s).halves = s.halves ∧ (overflowMsg k s).parts = s.parts ∧
    (overflowMsg k s).bars = s.bars ∧ (overflowMsg k s).ops = s.ops ∧ (overflowMsg k s).models = s.models ∧
    (overflowMsg k s).caps = s.caps ∧ (overflowMsg k s).jets = s.jets ∧ (overflowMsg k s).lanes = s.lanes ∧
    (overflowMsg k s).ports = s.ports ∧ (overflowMsg k s).ptp = s.ptp ∧ (overflowMsg k s).ftn = s.ftn ∧
    (overflowMsg k s).keys = s.keys ∧ (overflowMsg k s).mgt = s.mgt := by
  simp [overflowMsg]

@[simp] theorem keeps_selftestMsg (k : Nat) (det : Byte) (lasting : Bool) (sev : Nat) (start : Option (BitVec 14)) (ofIdent : Option Nat) (s : State) :
    (selftestMsg k det lasting sev start ofIdent s).pending = s.pending ∧
    (selftestMsg k det lasting sev start ofIdent s).fresh = s.fresh ∧
    (selftestMsg k det lasting sev start ofIdent s).now = s.now ∧
    (selftestMsg k det lasting sev start ofIdent s).outs = s.outs ∧
    (selftestMsg k det lasting sev start ofIdent s).pages = s.pages ∧
    (selftestMsg k det lasting sev start ofIdent s).pwr = s.pwr ∧
    (selftestMsg k det lasting sev start ofIdent s).arb = s.arb ∧
    (selftestMsg k det lasting sev start ofIdent s).halves = s.halves ∧
    (selftestMsg k det lasting sev start ofIdent s).parts = s.parts ∧
    (selftestMsg k det lasting sev start ofIdent s).bars = s.bars ∧
    (selftestMsg k det lasting sev start ofIdent s).ops = s.ops ∧
    (selftestMsg k det lasting sev start ofIdent s).models = s.models ∧
    (selftestMsg k det lasting sev start ofIdent s).caps = s.caps ∧
    (selftestMsg k det lasting sev start ofIdent s).jets = s.jets ∧
    (selftestMsg k det lasting sev start ofIdent s).lanes = s.lanes ∧
    (selftestMsg k det lasting sev start ofIdent s).ports = s.ports ∧
    (selftestMsg k det lasting sev start ofIdent s).ptp = s.ptp ∧
    (selftestMsg k det lasting sev start ofIdent s).ftn = s.ftn ∧
    (selftestMsg k det lasting sev start ofIdent s).keys = s.keys ∧
    (selftestMsg k det lasting sev start ofIdent s).mgt = s.mgt := by
  simp [selftestMsg]

@[simp] theorem keeps_loseBank (k : Nat) (det : Byte) (s : State) :
    (loseBank k det s).pending = s.pending ∧ (loseBank k det s).now = s.now ∧ (loseBank k det s).pwr = s.pwr ∧
    (loseBank k det s).arb = s.arb ∧ (loseBank k det s).halves = s.halves ∧ (loseBank k det s).ident = s.ident ∧
    (loseBank k det s).models = s.models ∧ (loseBank k det s).jets = s.jets ∧ (loseBank k det s).lanes = s.lanes ∧
    (loseBank k det s).keys.fuse = s.keys.fuse := by
  unfold loseBank; (repeat' split) <;> simp

@[simp] theorem keeps_unitResult (k : Nat) (det : Byte) (lasting : Bool) (s : State) :
    (unitResult k det lasting s).pending = s.pending ∧ (unitResult k det lasting s).fresh = s.fresh ∧
    (unitResult k det lasting s).now = s.now ∧ (unitResult k det lasting s).pwr = s.pwr ∧
    (unitResult k det lasting s).arb = s.arb ∧ (unitResult k det lasting s).halves = s.halves ∧
    (unitResult k det lasting s).ident = s.ident ∧ (unitResult k det lasting s).models = s.models ∧
    (unitResult k det lasting s).caps = s.caps ∧ (unitResult k det lasting s).lanes = s.lanes ∧
    (unitResult k det lasting s).ptp = s.ptp ∧ (unitResult k det lasting s).ftn = s.ftn ∧
    (unitResult k det lasting s).keys = s.keys ∧ (unitResult k det lasting s).flt = s.flt ∧
    (unitResult k det lasting s).mgt = s.mgt ∧
    (∀ rp ro, regOf (unitResult k det lasting s).pages rp ro = regOf s.pages rp ro) := by
  unfold unitResult; (repeat' split) <;> simp

@[simp] theorem keeps_halfLasting (h : Half) (s : State) :
    (halfLasting h s).pending = s.pending ∧ (halfLasting h s).fresh = s.fresh ∧ (halfLasting h s).now = s.now ∧
    (halfLasting h s).pwr = s.pwr ∧ (halfLasting h s).arb = s.arb ∧ (halfLasting h s).parts = s.parts ∧
    (halfLasting h s).ops = s.ops ∧ (halfLasting h s).models = s.models ∧ (halfLasting h s).caps = s.caps ∧
    (halfLasting h s).jets = s.jets ∧ (halfLasting h s).lanes = s.lanes ∧ (halfLasting h s).ports = s.ports ∧
    (halfLasting h s).ptp = s.ptp ∧ (halfLasting h s).ftn = s.ftn ∧ (halfLasting h s).keys = s.keys ∧
    (halfLasting h s).mgt = s.mgt ∧ (∀ rp ro, regOf (halfLasting h s).pages rp ro = regOf s.pages rp ro) := by
  simp [halfLasting]

@[simp] theorem keeps_halfTested (o : Option Half) (k : Nat) (det : Byte) (lasting pass : Bool) (s : State) :
    (halfTested o k det lasting pass s).pending = s.pending ∧ (halfTested o k det lasting pass s).fresh = s.fresh ∧
    (halfTested o k det lasting pass s).now = s.now ∧ (halfTested o k det lasting pass s).pwr = s.pwr ∧
    (halfTested o k det lasting pass s).arb = s.arb ∧ (halfTested o k det lasting pass s).parts = s.parts ∧
    (halfTested o k det lasting pass s).ops = s.ops ∧ (halfTested o k det lasting pass s).models = s.models ∧
    (halfTested o k det lasting pass s).caps = s.caps ∧ (halfTested o k det lasting pass s).jets = s.jets ∧
    (halfTested o k det lasting pass s).lanes = s.lanes ∧ (halfTested o k det lasting pass s).ports = s.ports ∧
    (halfTested o k det lasting pass s).ptp = s.ptp ∧ (halfTested o k det lasting pass s).ftn = s.ftn ∧
    (halfTested o k det lasting pass s).keys = s.keys ∧ (halfTested o k det lasting pass s).mgt = s.mgt ∧
    (∀ rp ro, regOf (halfTested o k det lasting pass s).pages rp ro = regOf s.pages rp ro) := by
  unfold halfTested; (repeat' split) <;> simp

@[simp] theorem keeps_noteLasting (k : Nat) (s : State) :
    (noteLasting k s).pending = s.pending ∧ (noteLasting k s).fresh = s.fresh ∧ (noteLasting k s).now = s.now ∧
    (noteLasting k s).pwr = s.pwr ∧ (noteLasting k s).arb = s.arb ∧ (noteLasting k s).halves = s.halves ∧
    (noteLasting k s).parts = s.parts ∧ (noteLasting k s).ops = s.ops ∧ (noteLasting k s).ident = s.ident ∧
    (noteLasting k s).models = s.models ∧ (noteLasting k s).caps = s.caps ∧ (noteLasting k s).jets = s.jets ∧
    (noteLasting k s).lanes = s.lanes ∧ (noteLasting k s).ports = s.ports ∧ (noteLasting k s).ptp = s.ptp ∧
    (noteLasting k s).ftn = s.ftn ∧ (noteLasting k s).keys = s.keys ∧ (noteLasting k s).flt = s.flt ∧
    (noteLasting k s).mgt = s.mgt ∧ (∀ rp ro, regOf (noteLasting k s).pages rp ro = regOf s.pages rp ro) := by
  simp [noteLasting]

@[simp] theorem keeps_selftestResult (k : Nat) (det : Byte) (pass : Bool) (s : State) :
    (selftestResult k det pass s).pending = s.pending ∧ (selftestResult k det pass s).now = s.now ∧
    (selftestResult k det pass s).arb = s.arb ∧ (selftestResult k det pass s).models = s.models ∧
    (selftestResult k det pass s).keys.fuse = s.keys.fuse := by
  simp only [selftestResult]; (repeat' split) <;> simp

@[simp] theorem keeps_retestUnit (k : Nat) (det : Byte) (pass : Bool) (s : State) :
    (retestUnit k det pass s).pending = s.pending ∧ (retestUnit k det pass s).fresh = s.fresh ∧
    (retestUnit k det pass s).now = s.now ∧ (retestUnit k det pass s).arb = s.arb ∧
    (retestUnit k det pass s).models = s.models ∧ (retestUnit k det pass s).caps = s.caps ∧
    (retestUnit k det pass s).keys = s.keys ∧ (retestUnit k det pass s).mgt = s.mgt := by
  simp [retestUnit]

@[simp] theorem keeps_resetEngine (k : Nat) (t : Option Tag) (s : State) :
    (resetEngine k t s).pending = s.pending ∧ (resetEngine k t s).now = s.now ∧ (resetEngine k t s).pwr = s.pwr ∧
    (resetEngine k t s).arb = s.arb ∧ (resetEngine k t s).models = s.models ∧ (resetEngine k t s).ftn = s.ftn ∧
    (resetEngine k t s).mgt = s.mgt ∧ (resetEngine k t s).keys.fuse = s.keys.fuse := by
  unfold resetEngine; (repeat' split) <;> simp

@[simp] theorem keeps_engineWatchdog (k : Nat) (s : State) :
    (engineWatchdog k s).pending = s.pending ∧ (engineWatchdog k s).now = s.now ∧ (engineWatchdog k s).arb = s.arb ∧
    (engineWatchdog k s).models = s.models ∧ (engineWatchdog k s).mgt = s.mgt ∧
    (engineWatchdog k s).keys.fuse = s.keys.fuse := by
  simp only [engineWatchdog]; (repeat' split) <;> simp

@[simp] theorem keeps_queueOpTimeout (t : Tag) (s : State) :
    (queueOpTimeout t s).pending = s.pending ∧ (queueOpTimeout t s).now = s.now ∧ (queueOpTimeout t s).arb = s.arb ∧
    (queueOpTimeout t s).models = s.models ∧ (queueOpTimeout t s).mgt = s.mgt ∧
    (queueOpTimeout t s).keys.fuse = s.keys.fuse := by
  unfold queueOpTimeout; (repeat' split) <;> simp

@[simp] theorem keeps_flushCrossing (p : Part) (lost : Nat) (s : State) :
    (flushCrossing p lost s).pending = s.pending ∧ (flushCrossing p lost s).now = s.now ∧
    (flushCrossing p lost s).pwr = s.pwr ∧ (flushCrossing p lost s).arb = s.arb ∧
    (flushCrossing p lost s).halves = s.halves ∧ (flushCrossing p lost s).models = s.models ∧
    (flushCrossing p lost s).caps = s.caps ∧ (flushCrossing p lost s).jets = s.jets ∧
    (flushCrossing p lost s).lanes = s.lanes ∧ (flushCrossing p lost s).ports = s.ports ∧
    (flushCrossing p lost s).ptp = s.ptp ∧ (flushCrossing p lost s).ftn = s.ftn ∧
    (flushCrossing p lost s).keys = s.keys ∧ (flushCrossing p lost s).mgt = s.mgt ∧
    (∀ rp ro, regOf (flushCrossing p lost s).pages rp ro = regOf s.pages rp ro) := by
  simp [flushCrossing]

@[simp] theorem keeps_crossingTimeout (p : Part) (lost : Nat) (s : State) :
    (crossingTimeout p lost s).pending = s.pending ∧ (crossingTimeout p lost s).now = s.now ∧
    (crossingTimeout p lost s).pwr = s.pwr ∧ (crossingTimeout p lost s).arb = s.arb ∧
    (crossingTimeout p lost s).halves = s.halves ∧ (crossingTimeout p lost s).models = s.models ∧
    (crossingTimeout p lost s).caps = s.caps ∧ (crossingTimeout p lost s).jets = s.jets ∧
    (crossingTimeout p lost s).lanes = s.lanes ∧ (crossingTimeout p lost s).ports = s.ports ∧
    (crossingTimeout p lost s).ptp = s.ptp ∧ (crossingTimeout p lost s).ftn = s.ftn ∧
    (crossingTimeout p lost s).keys = s.keys ∧ (crossingTimeout p lost s).mgt = s.mgt ∧
    (∀ rp ro, regOf (crossingTimeout p lost s).pages rp ro = regOf s.pages rp ro) := by
  simp [crossingTimeout]

@[simp] theorem keeps_aliveToggle (s : State) :
    (aliveToggle s).pending = s.pending ∧ (aliveToggle s).fresh = s.fresh ∧ (aliveToggle s).now = s.now ∧
    (aliveToggle s).pages = s.pages ∧ (aliveToggle s).pwr = s.pwr ∧ (aliveToggle s).arb = s.arb ∧
    (aliveToggle s).halves = s.halves ∧ (aliveToggle s).parts = s.parts ∧ (aliveToggle s).bars = s.bars ∧
    (aliveToggle s).ops = s.ops ∧ (aliveToggle s).ident = s.ident ∧ (aliveToggle s).models = s.models ∧
    (aliveToggle s).caps = s.caps ∧ (aliveToggle s).jets = s.jets ∧ (aliveToggle s).lanes = s.lanes ∧
    (aliveToggle s).ports = s.ports ∧ (aliveToggle s).ptp = s.ptp ∧ (aliveToggle s).ftn = s.ftn ∧
    (aliveToggle s).keys = s.keys ∧ (aliveToggle s).mgt = s.mgt := by
  simp [aliveToggle]

@[simp] theorem keeps_resumeAlive (s : State) :
    (resumeAlive s).pending = s.pending ∧ (resumeAlive s).fresh = s.fresh ∧ (resumeAlive s).now = s.now ∧
    (resumeAlive s).outs = s.outs ∧ (resumeAlive s).pages = s.pages ∧ (resumeAlive s).pwr = s.pwr ∧
    (resumeAlive s).arb = s.arb ∧ (resumeAlive s).halves = s.halves ∧ (resumeAlive s).parts = s.parts ∧
    (resumeAlive s).bars = s.bars ∧ (resumeAlive s).ops = s.ops ∧ (resumeAlive s).ident = s.ident ∧
    (resumeAlive s).models = s.models ∧ (resumeAlive s).caps = s.caps ∧ (resumeAlive s).jets = s.jets ∧
    (resumeAlive s).lanes = s.lanes ∧ (resumeAlive s).ports = s.ports ∧ (resumeAlive s).ptp = s.ptp ∧
    (resumeAlive s).ftn = s.ftn ∧ (resumeAlive s).keys = s.keys ∧ (resumeAlive s).mgt = s.mgt ∧
    (resumeAlive s).cnt = s.cnt := by
  simp [resumeAlive]

@[simp] theorem keeps_hpDetection (p : Part) (det : Byte) (s : State) :
    (hpDetection p det s).pending = s.pending ∧ (hpDetection p det s).now = s.now ∧
    (hpDetection p det s).pwr = s.pwr ∧ (hpDetection p det s).arb = s.arb ∧ (hpDetection p det s).halves = s.halves ∧
    (hpDetection p det s).models = s.models ∧ (hpDetection p det s).caps = s.caps ∧
    (hpDetection p det s).jets = s.jets ∧ (hpDetection p det s).lanes = s.lanes ∧
    (hpDetection p det s).ports = s.ports ∧ (hpDetection p det s).ptp = s.ptp ∧ (hpDetection p det s).ftn = s.ftn ∧
    (hpDetection p det s).keys = s.keys ∧ (hpDetection p det s).mgt = s.mgt ∧
    (∀ rp ro, regOf (hpDetection p det s).pages rp ro = regOf s.pages rp ro) := by
  unfold hpDetection; (repeat' split) <;> simp

@[simp] theorem keeps_retryKey (t : Tag) (o : Op) (how : Nat) (s : State) :
    (retryKey t o how s).pending = s.pending ∧ (retryKey t o how s).fresh = s.fresh ∧
    (retryKey t o how s).now = s.now ∧ (retryKey t o how s).pwr = s.pwr ∧ (retryKey t o how s).arb = s.arb ∧
    (retryKey t o how s).halves = s.halves ∧ (retryKey t o how s).ident = s.ident ∧
    (retryKey t o how s).models = s.models ∧ (retryKey t o how s).caps = s.caps ∧ (retryKey t o how s).jets = s.jets ∧
    (retryKey t o how s).lanes = s.lanes ∧ (retryKey t o how s).ports = s.ports ∧ (retryKey t o how s).ptp = s.ptp ∧
    (retryKey t o how s).ftn = s.ftn ∧ (retryKey t o how s).flt = s.flt ∧ (retryKey t o how s).mgt = s.mgt ∧
    (retryKey t o how s).keys.fuse = s.keys.fuse ∧
    (∀ rp ro, regOf (retryKey t o how s).pages rp ro = regOf s.pages rp ro) := by
  unfold retryKey; (repeat' split) <;> simp

@[simp] theorem keeps_keyDetection (det : Byte) (slot : KeyNo) (s : State) :
    (keyDetection det slot s).pending = s.pending ∧ (keyDetection det slot s).now = s.now ∧
    (keyDetection det slot s).arb = s.arb ∧ (keyDetection det slot s).halves = s.halves ∧
    (keyDetection det slot s).models = s.models ∧ (keyDetection det slot s).caps = s.caps ∧
    (keyDetection det slot s).jets = s.jets ∧ (keyDetection det slot s).lanes = s.lanes ∧
    (keyDetection det slot s).keys.fuse = s.keys.fuse ∧
    (∀ rp ro, regOf (keyDetection det slot s).pages rp ro = regOf s.pages rp ro) := by
  simp only [keyDetection]; (repeat' split) <;> simp

@[simp] theorem keeps_fltDetection (det : Byte) (loc : BitVec 24) (s : State) :
    (fltDetection det loc s).pending = s.pending ∧ (fltDetection det loc s).fresh = s.fresh ∧
    (fltDetection det loc s).now = s.now ∧ (fltDetection det loc s).pwr = s.pwr ∧
    (fltDetection det loc s).arb = s.arb ∧ (fltDetection det loc s).halves = s.halves ∧
    (fltDetection det loc s).parts = s.parts ∧ (fltDetection det loc s).ops = s.ops ∧
    (fltDetection det loc s).models = s.models ∧ (fltDetection det loc s).caps = s.caps ∧
    (fltDetection det loc s).jets = s.jets ∧ (fltDetection det loc s).lanes = s.lanes ∧
    (fltDetection det loc s).ports = s.ports ∧ (fltDetection det loc s).ptp = s.ptp ∧
    (fltDetection det loc s).ftn = s.ftn ∧ (fltDetection det loc s).keys = s.keys ∧
    (fltDetection det loc s).mgt = s.mgt ∧
    (∀ rp ro, regOf (fltDetection det loc s).pages rp ro = regOf s.pages rp ro) := by
  unfold fltDetection; (repeat' split) <;> simp

@[simp] theorem keeps_cntDetection (c : Nat) (s : State) :
    (cntDetection c s).pending = s.pending ∧ (cntDetection c s).fresh = s.fresh ∧ (cntDetection c s).now = s.now ∧
    (cntDetection c s).outs = s.outs ∧ (cntDetection c s).pwr = s.pwr ∧ (cntDetection c s).arb = s.arb ∧
    (cntDetection c s).halves = s.halves ∧ (cntDetection c s).parts = s.parts ∧ (cntDetection c s).bars = s.bars ∧
    (cntDetection c s).ops = s.ops ∧ (cntDetection c s).models = s.models ∧ (cntDetection c s).caps = s.caps ∧
    (cntDetection c s).jets = s.jets ∧ (cntDetection c s).lanes = s.lanes ∧ (cntDetection c s).ports = s.ports ∧
    (cntDetection c s).ptp = s.ptp ∧ (cntDetection c s).ftn = s.ftn ∧ (cntDetection c s).keys = s.keys ∧
    (cntDetection c s).mgt = s.mgt ∧ (∀ rp ro, regOf (cntDetection c s).pages rp ro = regOf s.pages rp ro) := by
  simp [cntDetection]

@[simp] theorem keeps_lathDetection (det : Nat) (s : State) :
    (lathDetection det s).pending = s.pending ∧ (lathDetection det s).fresh = s.fresh ∧
    (lathDetection det s).now = s.now ∧ (lathDetection det s).pwr = s.pwr ∧ (lathDetection det s).arb = s.arb ∧
    (lathDetection det s).parts = s.parts ∧ (lathDetection det s).ops = s.ops ∧
    (lathDetection det s).models = s.models ∧ (lathDetection det s).caps = s.caps ∧
    (lathDetection det s).jets = s.jets ∧ (lathDetection det s).lanes = s.lanes ∧
    (lathDetection det s).ports = s.ports ∧ (lathDetection det s).ptp = s.ptp ∧ (lathDetection det s).ftn = s.ftn ∧
    (lathDetection det s).keys = s.keys ∧ (∀ rp ro, regOf (lathDetection det s).pages rp ro = regOf s.pages rp ro) := by
  simp [lathDetection]

@[simp] theorem keeps_detect (pg : Nat) (det : Byte) (loc : Nat) (s : State) :
    (detect pg det loc s).pending = s.pending ∧ (detect pg det loc s).now = s.now ∧
    (detect pg det loc s).models = s.models ∧ (detect pg det loc s).keys.fuse = s.keys.fuse := by
  unfold detect; (repeat' split) <;> simp

@[simp] theorem keeps_faultDetection (pl : Place) (pg : Nat) (det : Byte) (loc : BitVec 24) (s : State) :
    (faultDetection pl pg det loc s).pending = s.pending ∧ (faultDetection pl pg det loc s).now = s.now ∧
    (faultDetection pl pg det loc s).models = s.models ∧ (faultDetection pl pg det loc s).keys.fuse = s.keys.fuse := by
  unfold faultDetection; (repeat' split) <;> simp

@[simp] theorem keeps_resetBar (p : Part) (s : State) :
    (resetBar p s).pending = s.pending ∧ (resetBar p s).fresh = s.fresh ∧ (resetBar p s).now = s.now ∧
    (resetBar p s).outs = s.outs ∧ (resetBar p s).pages = s.pages ∧ (resetBar p s).pwr = s.pwr ∧
    (resetBar p s).arb = s.arb ∧ (resetBar p s).halves = s.halves ∧ (resetBar p s).parts = s.parts ∧
    (resetBar p s).ops = s.ops ∧ (resetBar p s).ident = s.ident ∧ (resetBar p s).models = s.models ∧
    (resetBar p s).caps = s.caps ∧ (resetBar p s).jets = s.jets ∧ (resetBar p s).lanes = s.lanes ∧
    (resetBar p s).ports = s.ports ∧ (resetBar p s).ptp = s.ptp ∧ (resetBar p s).ftn = s.ftn ∧
    (resetBar p s).keys = s.keys ∧ (resetBar p s).flt = s.flt ∧ (resetBar p s).mgt = s.mgt ∧
    (resetBar p s).cnt = s.cnt := by
  simp [resetBar]

@[simp] theorem keeps_partitionResetBy (p : Part) (k : PartReset) (s : State) :
    (partitionResetBy p k s).pending = s.pending ∧ (partitionResetBy p k s).now = s.now ∧
    (partitionResetBy p k s).pwr = s.pwr ∧ (partitionResetBy p k s).arb = s.arb ∧
    (partitionResetBy p k s).halves = s.halves ∧ (partitionResetBy p k s).models = s.models ∧
    (partitionResetBy p k s).jets = s.jets ∧ (partitionResetBy p k s).lanes = s.lanes ∧
    (partitionResetBy p k s).ptp = s.ptp ∧ (partitionResetBy p k s).ftn = s.ftn ∧
    (partitionResetBy p k s).mgt = s.mgt ∧ (partitionResetBy p k s).keys.fuse = s.keys.fuse := by
  unfold partitionResetBy
  split
  · cases k <;> dsimp only <;>
      simp only [keeps_resetBar, keeps_partitionReset, keeps_modPart, and_self, implies_true]
  · simp

/-! ## Power -/

@[simp] theorem keeps_modFeed (s : State) (f : Half) (g : Feed → Feed) :
    (modFeed s f g).pending = s.pending ∧ (modFeed s f g).fresh = s.fresh ∧ (modFeed s f g).now = s.now ∧
    (modFeed s f g).outs = s.outs ∧ (modFeed s f g).pages = s.pages ∧ (modFeed s f g).arb = s.arb ∧
    (modFeed s f g).halves = s.halves ∧ (modFeed s f g).parts = s.parts ∧ (modFeed s f g).bars = s.bars ∧
    (modFeed s f g).ops = s.ops ∧ (modFeed s f g).ident = s.ident ∧ (modFeed s f g).models = s.models ∧
    (modFeed s f g).caps = s.caps ∧ (modFeed s f g).jets = s.jets ∧ (modFeed s f g).lanes = s.lanes ∧
    (modFeed s f g).ports = s.ports ∧ (modFeed s f g).ptp = s.ptp ∧ (modFeed s f g).ftn = s.ftn ∧
    (modFeed s f g).keys = s.keys ∧ (modFeed s f g).flt = s.flt ∧ (modFeed s f g).mgt = s.mgt ∧
    (modFeed s f g).cnt = s.cnt := by
  simp [modFeed]

@[simp] theorem keeps_powerMsg (s : State) (kind sev : Nat) (place : Nat) :
    (powerMsg s kind sev place).pending = s.pending ∧ (powerMsg s kind sev place).fresh = s.fresh ∧
    (powerMsg s kind sev place).now = s.now ∧ (powerMsg s kind sev place).outs = s.outs ∧
    (powerMsg s kind sev place).pwr = s.pwr ∧ (powerMsg s kind sev place).arb = s.arb ∧
    (powerMsg s kind sev place).halves = s.halves ∧ (powerMsg s kind sev place).parts = s.parts ∧
    (powerMsg s kind sev place).bars = s.bars ∧ (powerMsg s kind sev place).ops = s.ops ∧
    (powerMsg s kind sev place).models = s.models ∧ (powerMsg s kind sev place).caps = s.caps ∧
    (powerMsg s kind sev place).jets = s.jets ∧ (powerMsg s kind sev place).lanes = s.lanes ∧
    (powerMsg s kind sev place).ports = s.ports ∧ (powerMsg s kind sev place).ptp = s.ptp ∧
    (powerMsg s kind sev place).ftn = s.ftn ∧ (powerMsg s kind sev place).keys = s.keys ∧
    (powerMsg s kind sev place).mgt = s.mgt ∧
    (∀ rp ro, regOf (powerMsg s kind sev place).pages rp ro = regOf s.pages rp ro) := by
  simp [powerMsg]

@[simp] theorem keeps_feedDetected (f : Half) (mv : Nat) (s : State) :
    (feedDetected f mv s).pending = s.pending ∧ (feedDetected f mv s).now = s.now ∧
    (feedDetected f mv s).arb = s.arb ∧ (feedDetected f mv s).halves = s.halves ∧ (feedDetected f mv s).ops = s.ops ∧
    (feedDetected f mv s).ident = s.ident ∧ (feedDetected f mv s).models = s.models ∧
    (feedDetected f mv s).caps = s.caps ∧ (feedDetected f mv s).jets = s.jets ∧
    (feedDetected f mv s).lanes = s.lanes ∧ (feedDetected f mv s).ports = s.ports ∧
    (feedDetected f mv s).ptp = s.ptp ∧ (feedDetected f mv s).ftn = s.ftn ∧ (feedDetected f mv s).keys = s.keys ∧
    (feedDetected f mv s).flt = s.flt ∧ (feedDetected f mv s).mgt = s.mgt ∧
    (∀ rp ro, regOf (feedDetected f mv s).pages rp ro = regOf s.pages rp ro) := by
  simp only [feedDetected]; (repeat' split) <;> simp

@[simp] theorem keeps_powerFail (s : State) (h : Half) :
    (powerFail s h).pending = s.pending ∧ (powerFail s h).now = s.now ∧ (powerFail s h).ident = s.ident ∧
    (powerFail s h).models = s.models ∧ (powerFail s h).lanes = s.lanes ∧ (powerFail s h).keys = s.keys ∧
    (powerFail s h).mgt = s.mgt := by
  unfold powerFail; (repeat' split) <;> simp

@[simp] theorem keeps_feedLost (f : Half) (s : State) :
    (feedLost f s).pending = s.pending ∧ (feedLost f s).keys.fuse = s.keys.fuse := by
  simp only [feedLost]; (repeat' split) <;> simp

@[simp] theorem keeps_halfHeldInReset (h : Half) (s : State) :
    (halfHeldInReset h s).pending = s.pending ∧ (halfHeldInReset h s).fresh = s.fresh ∧
    (halfHeldInReset h s).now = s.now ∧ (halfHeldInReset h s).parts = s.parts ∧ (halfHeldInReset h s).ops = s.ops ∧
    (halfHeldInReset h s).ident = s.ident ∧ (halfHeldInReset h s).models = s.models ∧
    (halfHeldInReset h s).caps = s.caps ∧ (halfHeldInReset h s).jets = s.jets ∧
    (halfHeldInReset h s).lanes = s.lanes ∧ (halfHeldInReset h s).ports = s.ports ∧
    (halfHeldInReset h s).ptp = s.ptp ∧ (halfHeldInReset h s).ftn = s.ftn ∧ (halfHeldInReset h s).keys = s.keys ∧
    (halfHeldInReset h s).mgt = s.mgt := by
  unfold halfHeldInReset; (repeat' split) <;> simp

@[simp] theorem keeps_halfRepower (h : Half) (s : State) :
    (halfRepower h s).pending = s.pending ∧ (halfRepower h s).fresh = s.fresh ∧ (halfRepower h s).now = s.now ∧
    (halfRepower h s).outs = s.outs ∧ (halfRepower h s).pages = s.pages ∧ (halfRepower h s).arb = s.arb ∧
    (halfRepower h s).halves = s.halves ∧ (halfRepower h s).parts = s.parts ∧ (halfRepower h s).bars = s.bars ∧
    (halfRepower h s).ops = s.ops ∧ (halfRepower h s).ident = s.ident ∧ (halfRepower h s).models = s.models ∧
    (halfRepower h s).caps = s.caps ∧ (halfRepower h s).jets = s.jets ∧ (halfRepower h s).lanes = s.lanes ∧
    (halfRepower h s).ports = s.ports ∧ (halfRepower h s).ptp = s.ptp ∧ (halfRepower h s).ftn = s.ftn ∧
    (halfRepower h s).keys = s.keys ∧ (halfRepower h s).flt = s.flt ∧ (halfRepower h s).mgt = s.mgt ∧
    (halfRepower h s).cnt = s.cnt := by
  simp [halfRepower]

@[simp] theorem keeps_breakerTrip (f : Half) (s : State) :
    (breakerTrip f s).pending = s.pending ∧ (breakerTrip f s).keys.fuse = s.keys.fuse := by
  unfold breakerTrip; (repeat' split) <;> simp

@[simp] theorem keeps_breakerReclose (f : Half) (s : State) :
    (breakerReclose f s).pending = s.pending ∧ (breakerReclose f s).fresh = s.fresh ∧
    (breakerReclose f s).now = s.now ∧ (breakerReclose f s).outs = s.outs ∧ (breakerReclose f s).pages = s.pages ∧
    (breakerReclose f s).arb = s.arb ∧ (breakerReclose f s).halves = s.halves ∧ (breakerReclose f s).parts = s.parts ∧
    (breakerReclose f s).bars = s.bars ∧ (breakerReclose f s).ops = s.ops ∧ (breakerReclose f s).ident = s.ident ∧
    (breakerReclose f s).models = s.models ∧ (breakerReclose f s).caps = s.caps ∧ (breakerReclose f s).jets = s.jets ∧
    (breakerReclose f s).lanes = s.lanes ∧ (breakerReclose f s).ports = s.ports ∧ (breakerReclose f s).ptp = s.ptp ∧
    (breakerReclose f s).ftn = s.ftn ∧ (breakerReclose f s).keys = s.keys ∧ (breakerReclose f s).flt = s.flt ∧
    (breakerReclose f s).mgt = s.mgt ∧ (breakerReclose f s).cnt = s.cnt := by
  simp [breakerReclose]

@[simp] theorem keeps_resetN (low : Bool) (s : State) :
    (resetN low s).pending = s.pending ∧ (resetN low s).keys.fuse = s.keys.fuse := by
  unfold resetN; (repeat' split) <;> simp

@[simp] theorem keeps_thermWarn (d : Die) (s : State) :
    (thermWarn d s).pending = s.pending ∧ (thermWarn d s).fresh = s.fresh ∧ (thermWarn d s).now = s.now ∧
    (thermWarn d s).arb = s.arb ∧ (thermWarn d s).halves = s.halves ∧ (thermWarn d s).parts = s.parts ∧
    (thermWarn d s).ops = s.ops ∧ (thermWarn d s).models = s.models ∧ (thermWarn d s).caps = s.caps ∧
    (thermWarn d s).jets = s.jets ∧ (thermWarn d s).lanes = s.lanes ∧ (thermWarn d s).ports = s.ports ∧
    (thermWarn d s).ptp = s.ptp ∧ (thermWarn d s).ftn = s.ftn ∧ (thermWarn d s).keys = s.keys ∧
    (thermWarn d s).mgt = s.mgt ∧ (∀ rp ro, regOf (thermWarn d s).pages rp ro = regOf s.pages rp ro) := by
  simp [thermWarn]

@[simp] theorem keeps_thermTrip (h : Half) (s : State) :
    (thermTrip h s).pending = s.pending ∧ (thermTrip h s).now = s.now ∧ (thermTrip h s).models = s.models ∧
    (thermTrip h s).lanes = s.lanes ∧ (thermTrip h s).keys = s.keys ∧ (thermTrip h s).mgt = s.mgt := by
  simp [thermTrip]

@[simp] theorem keeps_thermCommon (s : State) :
    (thermCommon s).pending = s.pending ∧ (thermCommon s).keys.fuse = s.keys.fuse := by
  unfold thermCommon; (repeat' split) <;> simp

@[simp] theorem keeps_thermRecover (d : Die) (s : State) :
    (thermRecover d s).pending = s.pending ∧ (thermRecover d s).fresh = s.fresh ∧ (thermRecover d s).now = s.now ∧
    (thermRecover d s).outs = s.outs ∧ (thermRecover d s).pages = s.pages ∧ (thermRecover d s).arb = s.arb ∧
    (thermRecover d s).halves = s.halves ∧ (thermRecover d s).parts = s.parts ∧ (thermRecover d s).bars = s.bars ∧
    (thermRecover d s).ops = s.ops ∧ (thermRecover d s).ident = s.ident ∧ (thermRecover d s).models = s.models ∧
    (thermRecover d s).caps = s.caps ∧ (thermRecover d s).jets = s.jets ∧ (thermRecover d s).lanes = s.lanes ∧
    (thermRecover d s).ports = s.ports ∧ (thermRecover d s).ptp = s.ptp ∧ (thermRecover d s).ftn = s.ftn ∧
    (thermRecover d s).keys = s.keys ∧ (thermRecover d s).flt = s.flt ∧ (thermRecover d s).mgt = s.mgt ∧
    (thermRecover d s).cnt = s.cnt := by
  unfold thermRecover; (repeat' split) <;> simp

@[simp] theorem keeps_vbatLow (mv : Nat) (s : State) :
    (vbatLow mv s).pending = s.pending ∧ (vbatLow mv s).fresh = s.fresh ∧ (vbatLow mv s).now = s.now ∧
    (vbatLow mv s).arb = s.arb ∧ (vbatLow mv s).halves = s.halves ∧ (vbatLow mv s).parts = s.parts ∧
    (vbatLow mv s).ops = s.ops ∧ (vbatLow mv s).models = s.models ∧ (vbatLow mv s).caps = s.caps ∧
    (vbatLow mv s).jets = s.jets ∧ (vbatLow mv s).lanes = s.lanes ∧ (vbatLow mv s).ports = s.ports ∧
    (vbatLow mv s).ptp = s.ptp ∧ (vbatLow mv s).ftn = s.ftn ∧ (vbatLow mv s).keys = s.keys ∧
    (vbatLow mv s).mgt = s.mgt ∧ (∀ rp ro, regOf (vbatLow mv s).pages rp ro = regOf s.pages rp ro) := by
  simp [vbatLow]

@[simp] theorem keeps_vauxOverload (s : State) :
    (vauxOverload s).pending = s.pending ∧ (vauxOverload s).fresh = s.fresh ∧ (vauxOverload s).now = s.now ∧
    (vauxOverload s).outs = s.outs ∧ (vauxOverload s).pages = s.pages ∧ (vauxOverload s).arb = s.arb ∧
    (vauxOverload s).halves = s.halves ∧ (vauxOverload s).parts = s.parts ∧ (vauxOverload s).bars = s.bars ∧
    (vauxOverload s).ops = s.ops ∧ (vauxOverload s).ident = s.ident ∧ (vauxOverload s).models = s.models ∧
    (vauxOverload s).caps = s.caps ∧ (vauxOverload s).jets = s.jets ∧ (vauxOverload s).lanes = s.lanes ∧
    (vauxOverload s).ports = s.ports ∧ (vauxOverload s).ptp = s.ptp ∧ (vauxOverload s).ftn = s.ftn ∧
    (vauxOverload s).keys = s.keys ∧ (vauxOverload s).flt = s.flt ∧ (vauxOverload s).mgt = s.mgt ∧
    (vauxOverload s).cnt = s.cnt := by
  simp [vauxOverload]

@[simp] theorem keeps_preRegulatorsUp (retained : Bool) (s : State) :
    (preRegulatorsUp retained s).pending = s.pending ∧ (preRegulatorsUp retained s).fresh = s.fresh ∧
    (preRegulatorsUp retained s).now = s.now ∧ (preRegulatorsUp retained s).outs = s.outs ∧
    (preRegulatorsUp retained s).pages = s.pages ∧ (preRegulatorsUp retained s).arb = s.arb ∧
    (preRegulatorsUp retained s).halves = s.halves ∧ (preRegulatorsUp retained s).parts = s.parts ∧
    (preRegulatorsUp retained s).bars = s.bars ∧ (preRegulatorsUp retained s).ops = s.ops ∧
    (preRegulatorsUp retained s).ident = s.ident ∧ (preRegulatorsUp retained s).models = s.models ∧
    (preRegulatorsUp retained s).caps = s.caps ∧ (preRegulatorsUp retained s).jets = s.jets ∧
    (preRegulatorsUp retained s).lanes = s.lanes ∧ (preRegulatorsUp retained s).ports = s.ports ∧
    (preRegulatorsUp retained s).ptp = s.ptp ∧ (preRegulatorsUp retained s).ftn = s.ftn ∧
    (preRegulatorsUp retained s).flt = s.flt ∧ (preRegulatorsUp retained s).mgt = s.mgt ∧
    (preRegulatorsUp retained s).cnt = s.cnt ∧ (preRegulatorsUp retained s).keys.fuse = s.keys.fuse := by
  unfold preRegulatorsUp; (repeat' split) <;> simp

/-! ## Registers -/

@[simp] theorem keeps_abortReset (pg : Nat) (s : State) :
    (abortReset pg s).pending = s.pending ∧ (abortReset pg s).now = s.now ∧ (abortReset pg s).pwr = s.pwr ∧
    (abortReset pg s).arb = s.arb ∧ (abortReset pg s).halves = s.halves ∧ (abortReset pg s).ident = s.ident ∧
    (abortReset pg s).models = s.models ∧ (abortReset pg s).jets = s.jets ∧ (abortReset pg s).lanes = s.lanes ∧
    (abortReset pg s).ptp = s.ptp ∧ (abortReset pg s).ftn = s.ftn ∧ (abortReset pg s).flt = s.flt ∧
    (abortReset pg s).mgt = s.mgt ∧ (abortReset pg s).keys.fuse = s.keys.fuse ∧
    (∀ rp ro, regOf (abortReset pg s).pages rp ro = regOf s.pages rp ro) := by
  simp [abortReset]

@[simp] theorem keeps_resetTd (d : Dom) (s : State) :
    (resetTd d s).pending = s.pending ∧ (resetTd d s).fresh = s.fresh ∧ (resetTd d s).now = s.now ∧
    (resetTd d s).pwr = s.pwr ∧ (resetTd d s).ident = s.ident ∧ (resetTd d s).models = s.models ∧
    (resetTd d s).lanes = s.lanes ∧ (resetTd d s).ports = s.ports ∧ (resetTd d s).ftn = s.ftn ∧
    (resetTd d s).keys = s.keys ∧ (resetTd d s).flt = s.flt ∧ (resetTd d s).mgt = s.mgt ∧
    (∀ rp ro, regOf (resetTd d s).pages rp ro = regOf s.pages rp ro) := by
  simp [resetTd]

@[simp] theorem keeps_dropHeld (s : State) (f : PartSt → PartSt) :
    (State.dropHeld s f).pending = s.pending ∧ (State.dropHeld s f).fresh = s.fresh ∧
    (State.dropHeld s f).now = s.now ∧ (State.dropHeld s f).outs = s.outs ∧ (State.dropHeld s f).pages = s.pages ∧
    (State.dropHeld s f).pwr = s.pwr ∧ (State.dropHeld s f).arb = s.arb ∧ (State.dropHeld s f).halves = s.halves ∧
    (State.dropHeld s f).bars = s.bars ∧ (State.dropHeld s f).ops = s.ops ∧ (State.dropHeld s f).ident = s.ident ∧
    (State.dropHeld s f).models = s.models ∧ (State.dropHeld s f).caps = s.caps ∧ (State.dropHeld s f).jets = s.jets ∧
    (State.dropHeld s f).lanes = s.lanes ∧ (State.dropHeld s f).ports = s.ports ∧ (State.dropHeld s f).ptp = s.ptp ∧
    (State.dropHeld s f).ftn = s.ftn ∧ (State.dropHeld s f).keys = s.keys ∧ (State.dropHeld s f).flt = s.flt ∧
    (State.dropHeld s f).mgt = s.mgt ∧ (State.dropHeld s f).cnt = s.cnt := by
  simp [State.dropHeld]

@[simp] theorem keeps_resetBeyond (pg : Nat) (s : State) :
    (resetBeyond pg s).pending = s.pending ∧ (resetBeyond pg s).now = s.now ∧ (resetBeyond pg s).models = s.models ∧
    (resetBeyond pg s).mgt = s.mgt ∧ (resetBeyond pg s).keys.fuse = s.keys.fuse := by
  unfold resetBeyond; (repeat' split) <;> simp

@[simp] theorem keeps_softReset (pg : Nat) (s : State) :
    (softReset pg s).pending = s.pending ∧ (softReset pg s).now = s.now ∧ (softReset pg s).models = s.models ∧
    (softReset pg s).mgt = s.mgt ∧ (softReset pg s).keys.fuse = s.keys.fuse := by
  simp [softReset]

@[simp] theorem keeps_requestReset (pg : Nat) (s : State) :
    (requestReset pg s).pending = s.pending ∧ (requestReset pg s).now = s.now ∧
    (requestReset pg s).models = s.models ∧ (requestReset pg s).mgt = s.mgt ∧
    (requestReset pg s).keys.fuse = s.keys.fuse := by
  simp [requestReset]

@[simp] theorem keeps_pageSoftReset (pg : Nat) (s : State) :
    (pageSoftReset pg s).pending = s.pending ∧ (pageSoftReset pg s).now = s.now ∧
    (pageSoftReset pg s).models = s.models ∧ (pageSoftReset pg s).mgt = s.mgt ∧
    (pageSoftReset pg s).keys.fuse = s.keys.fuse := by
  simp [pageSoftReset]

@[simp] theorem keeps_writeEn (pg : Nat) (on : Bool) (s : State) :
    (writeEn pg on s).pending = s.pending ∧ (writeEn pg on s).fresh = s.fresh ∧ (writeEn pg on s).now = s.now ∧
    (writeEn pg on s).arb = s.arb ∧ (writeEn pg on s).ident = s.ident ∧ (writeEn pg on s).models = s.models ∧
    (writeEn pg on s).caps = s.caps ∧ (writeEn pg on s).keys = s.keys ∧ (writeEn pg on s).flt = s.flt ∧
    (writeEn pg on s).mgt = s.mgt := by
  unfold writeEn; (repeat' split) <;> simp

@[simp] theorem keeps_writeCtl (pg : Nat) (v : Word) (s : State) :
    (writeCtl pg v s).pending = s.pending ∧ (writeCtl pg v s).now = s.now ∧ (writeCtl pg v s).models = s.models ∧
    (writeCtl pg v s).mgt = s.mgt ∧ (writeCtl pg v s).keys.fuse = s.keys.fuse := by
  simp [writeCtl]

@[simp] theorem keeps_clearFault (pg : Nat) (s : State) :
    (clearFault pg s).pending = s.pending ∧ (clearFault pg s).fresh = s.fresh ∧ (clearFault pg s).now = s.now ∧
    (clearFault pg s).outs = s.outs ∧ (clearFault pg s).pwr = s.pwr ∧ (clearFault pg s).arb = s.arb ∧
    (clearFault pg s).parts = s.parts ∧ (clearFault pg s).bars = s.bars ∧ (clearFault pg s).ident = s.ident ∧
    (clearFault pg s).models = s.models ∧ (clearFault pg s).caps = s.caps ∧ (clearFault pg s).lanes = s.lanes ∧
    (clearFault pg s).ports = s.ports ∧ (clearFault pg s).ptp = s.ptp ∧ (clearFault pg s).ftn = s.ftn ∧
    (clearFault pg s).keys = s.keys ∧ (clearFault pg s).flt = s.flt ∧ (clearFault pg s).mgt = s.mgt ∧
    (clearFault pg s).cnt = s.cnt ∧ (∀ rp ro, regOf (clearFault pg s).pages rp ro = regOf s.pages rp ro) := by
  unfold clearFault; (repeat' split) <;> simp

@[simp] theorem keeps_writeInj (pg : Nat) (v : Word) (s : State) :
    (writeInj pg v s).pending = s.pending ∧ (writeInj pg v s).now = s.now ∧ (writeInj pg v s).models = s.models ∧
    (writeInj pg v s).keys.fuse = s.keys.fuse := by
  simp only [writeInj]; (repeat' split) <;> simp

@[simp] theorem keeps_nowInForce (pg : Nat) (ws : KMap Word) (s s1 : State) :
    (nowInForce pg ws s s1).pending = s1.pending ∧ (nowInForce pg ws s s1).fresh = s1.fresh ∧
    (nowInForce pg ws s s1).now = s1.now ∧ (nowInForce pg ws s s1).ident = s1.ident ∧
    (nowInForce pg ws s s1).models = s1.models ∧ (nowInForce pg ws s s1).caps = s1.caps ∧
    (nowInForce pg ws s s1).jets = s1.jets ∧ (nowInForce pg ws s s1).keys = s1.keys ∧
    (nowInForce pg ws s s1).mgt = s1.mgt := by
  unfold nowInForce; (repeat' split) <;> simp

@[simp] theorem keeps_writeApply (pg : Nat) (v : Word) (a : Access) (s : State) :
    (writeApply pg v a s).pending = s.pending ∧ (writeApply pg v a s).fresh = s.fresh ∧
    (writeApply pg v a s).now = s.now ∧ (writeApply pg v a s).ident = s.ident ∧
    (writeApply pg v a s).models = s.models ∧ (writeApply pg v a s).caps = s.caps ∧
    (writeApply pg v a s).jets = s.jets ∧ (writeApply pg v a s).keys = s.keys ∧ (writeApply pg v a s).mgt = s.mgt := by
  simp [writeApply]

@[simp] theorem keeps_modTrio (s : State) (p : Part) (pg : Nat) (f : Trio → Trio) :
    (State.modTrio s p pg f).pending = s.pending ∧ (State.modTrio s p pg f).fresh = s.fresh ∧
    (State.modTrio s p pg f).now = s.now ∧ (State.modTrio s p pg f).outs = s.outs ∧
    (State.modTrio s p pg f).pwr = s.pwr ∧ (State.modTrio s p pg f).arb = s.arb ∧
    (State.modTrio s p pg f).halves = s.halves ∧ (State.modTrio s p pg f).parts = s.parts ∧
    (State.modTrio s p pg f).bars = s.bars ∧ (State.modTrio s p pg f).ops = s.ops ∧
    (State.modTrio s p pg f).ident = s.ident ∧ (State.modTrio s p pg f).models = s.models ∧
    (State.modTrio s p pg f).caps = s.caps ∧ (State.modTrio s p pg f).jets = s.jets ∧
    (State.modTrio s p pg f).lanes = s.lanes ∧ (State.modTrio s p pg f).ports = s.ports ∧
    (State.modTrio s p pg f).ptp = s.ptp ∧ (State.modTrio s p pg f).ftn = s.ftn ∧
    (State.modTrio s p pg f).keys = s.keys ∧ (State.modTrio s p pg f).flt = s.flt ∧
    (State.modTrio s p pg f).mgt = s.mgt ∧ (State.modTrio s p pg f).cnt = s.cnt ∧
    (∀ rp ro, regOf (State.modTrio s p pg f).pages rp ro = regOf s.pages rp ro) := by
  simp [State.modTrio]

@[simp] theorem keeps_writeIndAddr (p : Part) (pg : Nat) (v : Word) (s : State) :
    (writeIndAddr p pg v s).pending = s.pending ∧ (writeIndAddr p pg v s).fresh = s.fresh ∧
    (writeIndAddr p pg v s).now = s.now ∧ (writeIndAddr p pg v s).outs = s.outs ∧
    (writeIndAddr p pg v s).pwr = s.pwr ∧ (writeIndAddr p pg v s).arb = s.arb ∧
    (writeIndAddr p pg v s).halves = s.halves ∧ (writeIndAddr p pg v s).parts = s.parts ∧
    (writeIndAddr p pg v s).bars = s.bars ∧ (writeIndAddr p pg v s).ops = s.ops ∧
    (writeIndAddr p pg v s).ident = s.ident ∧ (writeIndAddr p pg v s).models = s.models ∧
    (writeIndAddr p pg v s).caps = s.caps ∧ (writeIndAddr p pg v s).jets = s.jets ∧
    (writeIndAddr p pg v s).lanes = s.lanes ∧ (writeIndAddr p pg v s).ports = s.ports ∧
    (writeIndAddr p pg v s).ptp = s.ptp ∧ (writeIndAddr p pg v s).ftn = s.ftn ∧
    (writeIndAddr p pg v s).keys = s.keys ∧ (writeIndAddr p pg v s).flt = s.flt ∧
    (writeIndAddr p pg v s).mgt = s.mgt ∧ (writeIndAddr p pg v s).cnt = s.cnt ∧
    (∀ rp ro, regOf (writeIndAddr p pg v s).pages rp ro = regOf s.pages rp ro) := by
  simp [writeIndAddr]

@[simp] theorem keeps_writeIndCtl (p : Part) (pg : Nat) (v : Word) (s : State) :
    (writeIndCtl p pg v s).pending = s.pending ∧ (writeIndCtl p pg v s).fresh = s.fresh ∧
    (writeIndCtl p pg v s).now = s.now ∧ (writeIndCtl p pg v s).outs = s.outs ∧ (writeIndCtl p pg v s).pwr = s.pwr ∧
    (writeIndCtl p pg v s).arb = s.arb ∧ (writeIndCtl p pg v s).halves = s.halves ∧
    (writeIndCtl p pg v s).parts = s.parts ∧ (writeIndCtl p pg v s).bars = s.bars ∧
    (writeIndCtl p pg v s).ops = s.ops ∧ (writeIndCtl p pg v s).ident = s.ident ∧
    (writeIndCtl p pg v s).models = s.models ∧ (writeIndCtl p pg v s).caps = s.caps ∧
    (writeIndCtl p pg v s).jets = s.jets ∧ (writeIndCtl p pg v s).lanes = s.lanes ∧
    (writeIndCtl p pg v s).ports = s.ports ∧ (writeIndCtl p pg v s).ptp = s.ptp ∧ (writeIndCtl p pg v s).ftn = s.ftn ∧
    (writeIndCtl p pg v s).keys = s.keys ∧ (writeIndCtl p pg v s).flt = s.flt ∧ (writeIndCtl p pg v s).mgt = s.mgt ∧
    (writeIndCtl p pg v s).cnt = s.cnt ∧ (∀ rp ro, regOf (writeIndCtl p pg v s).pages rp ro = regOf s.pages rp ro) := by
  simp [writeIndCtl]

@[simp] theorem keeps_readInd (p : Part) (pg : Nat) (s : State) :
    (readInd p pg s).2.pending = s.pending ∧ (readInd p pg s).2.fresh = s.fresh ∧ (readInd p pg s).2.now = s.now ∧
    (readInd p pg s).2.outs = s.outs ∧ (readInd p pg s).2.pwr = s.pwr ∧ (readInd p pg s).2.arb = s.arb ∧
    (readInd p pg s).2.halves = s.halves ∧ (readInd p pg s).2.parts = s.parts ∧ (readInd p pg s).2.bars = s.bars ∧
    (readInd p pg s).2.ops = s.ops ∧ (readInd p pg s).2.ident = s.ident ∧ (readInd p pg s).2.models = s.models ∧
    (readInd p pg s).2.caps = s.caps ∧ (readInd p pg s).2.jets = s.jets ∧ (readInd p pg s).2.lanes = s.lanes ∧
    (readInd p pg s).2.ports = s.ports ∧ (readInd p pg s).2.ptp = s.ptp ∧ (readInd p pg s).2.ftn = s.ftn ∧
    (readInd p pg s).2.keys = s.keys ∧ (readInd p pg s).2.flt = s.flt ∧ (readInd p pg s).2.mgt = s.mgt ∧
    (readInd p pg s).2.cnt = s.cnt ∧ (∀ rp ro, regOf (readInd p pg s).2.pages rp ro = regOf s.pages rp ro) := by
  simp only [readInd]; (repeat' split) <;> simp

@[simp] theorem keeps_writeEntry (pg t e : Nat) (ws : List Word) (s : State) :
    (writeEntry pg t e ws s).pending = s.pending ∧ (writeEntry pg t e ws s).fresh = s.fresh ∧
    (writeEntry pg t e ws s).now = s.now ∧ (writeEntry pg t e ws s).outs = s.outs ∧
    (writeEntry pg t e ws s).pages = s.pages ∧ (writeEntry pg t e ws s).pwr = s.pwr ∧
    (writeEntry pg t e ws s).arb = s.arb ∧ (writeEntry pg t e ws s).halves = s.halves ∧
    (writeEntry pg t e ws s).bars = s.bars ∧ (writeEntry pg t e ws s).ops = s.ops ∧
    (writeEntry pg t e ws s).ident = s.ident ∧ (writeEntry pg t e ws s).caps = s.caps ∧
    (writeEntry pg t e ws s).jets = s.jets ∧ (writeEntry pg t e ws s).lanes = s.lanes ∧
    (writeEntry pg t e ws s).ports = s.ports ∧ (writeEntry pg t e ws s).ptp = s.ptp ∧
    (writeEntry pg t e ws s).keys = s.keys ∧ (writeEntry pg t e ws s).mgt = s.mgt ∧
    (writeEntry pg t e ws s).cnt = s.cnt := by
  unfold writeEntry; (repeat' split) <;> simp

@[simp] theorem keeps_writeIndData (p : Part) (pg : Nat) (v : Word) (s : State) :
    (writeIndData p pg v s).pending = s.pending ∧ (writeIndData p pg v s).fresh = s.fresh ∧
    (writeIndData p pg v s).now = s.now ∧ (writeIndData p pg v s).outs = s.outs ∧
    (writeIndData p pg v s).pwr = s.pwr ∧ (writeIndData p pg v s).arb = s.arb ∧
    (writeIndData p pg v s).halves = s.halves ∧ (writeIndData p pg v s).bars = s.bars ∧
    (writeIndData p pg v s).ops = s.ops ∧ (writeIndData p pg v s).ident = s.ident ∧
    (writeIndData p pg v s).caps = s.caps ∧ (writeIndData p pg v s).jets = s.jets ∧
    (writeIndData p pg v s).lanes = s.lanes ∧ (writeIndData p pg v s).ports = s.ports ∧
    (writeIndData p pg v s).ptp = s.ptp ∧ (writeIndData p pg v s).keys = s.keys ∧
    (writeIndData p pg v s).mgt = s.mgt ∧ (writeIndData p pg v s).cnt = s.cnt ∧
    (∀ rp ro, regOf (writeIndData p pg v s).pages rp ro = regOf s.pages rp ro) := by
  unfold writeIndData; (repeat' split) <;> simp

@[simp] theorem keeps_writeBuffered (pg : Nat) (ws : List (Nat × Word × Word)) (a : Access) (s : State) :
    (writeBuffered pg ws a s).pending = s.pending ∧ (writeBuffered pg ws a s).fresh = s.fresh ∧
    (writeBuffered pg ws a s).now = s.now ∧ (writeBuffered pg ws a s).ident = s.ident ∧
    (writeBuffered pg ws a s).models = s.models ∧ (writeBuffered pg ws a s).caps = s.caps ∧
    (writeBuffered pg ws a s).jets = s.jets ∧ (writeBuffered pg ws a s).keys = s.keys ∧
    (writeBuffered pg ws a s).mgt = s.mgt := by
  unfold writeBuffered; (repeat' split) <;> simp

@[simp] theorem keeps_writeOnce (pg o : Nat) (v : Word) (s : State) :
    (writeOnce pg o v s).pending = s.pending ∧ (writeOnce pg o v s).fresh = s.fresh ∧
    (writeOnce pg o v s).now = s.now ∧ (writeOnce pg o v s).outs = s.outs ∧ (writeOnce pg o v s).pwr = s.pwr ∧
    (writeOnce pg o v s).arb = s.arb ∧ (writeOnce pg o v s).halves = s.halves ∧ (writeOnce pg o v s).parts = s.parts ∧
    (writeOnce pg o v s).bars = s.bars ∧ (writeOnce pg o v s).ops = s.ops ∧ (writeOnce pg o v s).ident = s.ident ∧
    (writeOnce pg o v s).models = s.models ∧ (writeOnce pg o v s).caps = s.caps ∧ (writeOnce pg o v s).jets = s.jets ∧
    (writeOnce pg o v s).lanes = s.lanes ∧ (writeOnce pg o v s).ports = s.ports ∧ (writeOnce pg o v s).ptp = s.ptp ∧
    (writeOnce pg o v s).ftn = s.ftn ∧ (writeOnce pg o v s).keys = s.keys ∧ (writeOnce pg o v s).flt = s.flt ∧
    (writeOnce pg o v s).mgt = s.mgt ∧ (writeOnce pg o v s).cnt = s.cnt := by
  simp [writeOnce]

@[simp] theorem keeps_writeHp (p : Part) (o : Nat) (v m : Word) (s : State) :
    (writeHp p o v m s).pending = s.pending ∧ (writeHp p o v m s).now = s.now ∧ (writeHp p o v m s).pwr = s.pwr ∧
    (writeHp p o v m s).arb = s.arb ∧ (writeHp p o v m s).halves = s.halves ∧ (writeHp p o v m s).ident = s.ident ∧
    (writeHp p o v m s).models = s.models ∧ (writeHp p o v m s).jets = s.jets ∧ (writeHp p o v m s).lanes = s.lanes ∧
    (writeHp p o v m s).ports = s.ports ∧ (writeHp p o v m s).ptp = s.ptp ∧ (writeHp p o v m s).ftn = s.ftn ∧
    (writeHp p o v m s).keys = s.keys ∧ (writeHp p o v m s).flt = s.flt := by
  simp [writeHp]

@[simp] theorem keeps_writeFlt (o : Nat) (v m : Word) (x : Beside) (s : State) :
    (writeFlt o v m x s).pending = s.pending ∧ (writeFlt o v m x s).now = s.now ∧ (writeFlt o v m x s).arb = s.arb ∧
    (writeFlt o v m x s).models = s.models ∧ (writeFlt o v m x s).mgt = s.mgt ∧
    (writeFlt o v m x s).keys.fuse = s.keys.fuse := by
  unfold writeFlt; (repeat' split) <;> simp

@[simp] theorem keeps_writeHeader (a : Access) (pg o : Nat) (v : Word) (x : Beside) (s : State) :
    (writeHeader a pg o v x s).pending = s.pending ∧ (writeHeader a pg o v x s).now = s.now ∧
    (writeHeader a pg o v x s).keys.fuse = s.keys.fuse := by
  unfold writeHeader; (repeat' split) <;> simp

@[simp] theorem keeps_writeWord (a : Access) (x : Beside) (addr : Nat) (v : Word) (s : State) :
    (writeWord a x addr v s).pending = s.pending ∧ (writeWord a x addr v s).now = s.now ∧
    (writeWord a x addr v s).keys.fuse = s.keys.fuse := by
  simp only [writeWord]; (repeat' split) <;> simp

@[simp] theorem keeps_hostWrite (a : Access) (off : Nat) (v : BitVec 64) (x : Beside) (s : State) :
    (hostWrite a off v x s).pending = s.pending ∧ (hostWrite a off v x s).now = s.now ∧
    (hostWrite a off v x s).keys.fuse = s.keys.fuse := by
  simp only [hostWrite]; (repeat' split) <;> simp

@[simp] theorem keeps_rowWrite (a : Access) (pg o : Nat) (v : Word) (s : State) (x : Beside) :
    (rowWrite a pg o v s x).pending = s.pending ∧ (rowWrite a pg o v s x).now = s.now ∧
    (rowWrite a pg o v s x).keys.fuse = s.keys.fuse := by
  simp [rowWrite]

/-! ## Reads -/

@[simp] theorem keeps_answer64 (s : State) (p : Part) (v : BitVec 64) :
    (State.answer64 s p v).pending = s.pending ∧ (State.answer64 s p v).fresh = s.fresh ∧
    (State.answer64 s p v).now = s.now ∧ (State.answer64 s p v).pages = s.pages ∧ (State.answer64 s p v).pwr = s.pwr ∧
    (State.answer64 s p v).arb = s.arb ∧ (State.answer64 s p v).halves = s.halves ∧
    (State.answer64 s p v).parts = s.parts ∧ (State.answer64 s p v).bars = s.bars ∧
    (State.answer64 s p v).ops = s.ops ∧ (State.answer64 s p v).ident = s.ident ∧
    (State.answer64 s p v).models = s.models ∧ (State.answer64 s p v).caps = s.caps ∧
    (State.answer64 s p v).jets = s.jets ∧ (State.answer64 s p v).lanes = s.lanes ∧
    (State.answer64 s p v).ports = s.ports ∧ (State.answer64 s p v).ptp = s.ptp ∧ (State.answer64 s p v).ftn = s.ftn ∧
    (State.answer64 s p v).keys = s.keys ∧ (State.answer64 s p v).flt = s.flt ∧ (State.answer64 s p v).mgt = s.mgt ∧
    (State.answer64 s p v).cnt = s.cnt := by
  simp [State.answer64]

@[simp] theorem keeps_takeTxts (p : Part) (n : PortNo) (s : State) :
    (takeTxts p n s).pending = s.pending ∧ (takeTxts p n s).fresh = s.fresh ∧ (takeTxts p n s).now = s.now ∧
    (takeTxts p n s).pages = s.pages ∧ (takeTxts p n s).pwr = s.pwr ∧ (takeTxts p n s).arb = s.arb ∧
    (takeTxts p n s).halves = s.halves ∧ (takeTxts p n s).bars = s.bars ∧ (takeTxts p n s).ops = s.ops ∧
    (takeTxts p n s).ident = s.ident ∧ (takeTxts p n s).models = s.models ∧ (takeTxts p n s).caps = s.caps ∧
    (takeTxts p n s).jets = s.jets ∧ (takeTxts p n s).lanes = s.lanes ∧ (takeTxts p n s).ptp = s.ptp ∧
    (takeTxts p n s).ftn = s.ftn ∧ (takeTxts p n s).keys = s.keys ∧ (takeTxts p n s).flt = s.flt ∧
    (takeTxts p n s).mgt = s.mgt ∧ (takeTxts p n s).cnt = s.cnt := by
  unfold takeTxts; (repeat' split) <;> simp

@[simp] theorem keeps_takeCap (p : Part) (n : CapNo) (s : State) :
    (takeCap p n s).pending = s.pending ∧ (takeCap p n s).fresh = s.fresh ∧ (takeCap p n s).now = s.now ∧
    (takeCap p n s).pages = s.pages ∧ (takeCap p n s).pwr = s.pwr ∧ (takeCap p n s).arb = s.arb ∧
    (takeCap p n s).halves = s.halves ∧ (takeCap p n s).bars = s.bars ∧ (takeCap p n s).ops = s.ops ∧
    (takeCap p n s).ident = s.ident ∧ (takeCap p n s).models = s.models ∧ (takeCap p n s).jets = s.jets ∧
    (takeCap p n s).lanes = s.lanes ∧ (takeCap p n s).ports = s.ports ∧ (takeCap p n s).ptp = s.ptp ∧
    (takeCap p n s).ftn = s.ftn ∧ (takeCap p n s).keys = s.keys ∧ (takeCap p n s).flt = s.flt ∧
    (takeCap p n s).mgt = s.mgt ∧ (takeCap p n s).cnt = s.cnt := by
  unfold takeCap; (repeat' split) <;> simp

@[simp] theorem keeps_takeFltLog (p : Part) (s : State) :
    (takeFltLog p s).pending = s.pending ∧ (takeFltLog p s).fresh = s.fresh ∧ (takeFltLog p s).now = s.now ∧
    (takeFltLog p s).pages = s.pages ∧ (takeFltLog p s).pwr = s.pwr ∧ (takeFltLog p s).arb = s.arb ∧
    (takeFltLog p s).halves = s.halves ∧ (takeFltLog p s).bars = s.bars ∧ (takeFltLog p s).ops = s.ops ∧
    (takeFltLog p s).ident = s.ident ∧ (takeFltLog p s).models = s.models ∧ (takeFltLog p s).caps = s.caps ∧
    (takeFltLog p s).jets = s.jets ∧ (takeFltLog p s).lanes = s.lanes ∧ (takeFltLog p s).ports = s.ports ∧
    (takeFltLog p s).ptp = s.ptp ∧ (takeFltLog p s).ftn = s.ftn ∧ (takeFltLog p s).keys = s.keys ∧
    (takeFltLog p s).mgt = s.mgt ∧ (takeFltLog p s).cnt = s.cnt := by
  unfold takeFltLog; (repeat' split) <;> simp

@[simp] theorem keeps_takeBusLog (p : Part) (s : State) :
    (takeBusLog p s).pending = s.pending ∧ (takeBusLog p s).fresh = s.fresh ∧ (takeBusLog p s).now = s.now ∧
    (takeBusLog p s).pages = s.pages ∧ (takeBusLog p s).pwr = s.pwr ∧ (takeBusLog p s).arb = s.arb ∧
    (takeBusLog p s).halves = s.halves ∧ (takeBusLog p s).bars = s.bars ∧ (takeBusLog p s).ops = s.ops ∧
    (takeBusLog p s).ident = s.ident ∧ (takeBusLog p s).models = s.models ∧ (takeBusLog p s).caps = s.caps ∧
    (takeBusLog p s).jets = s.jets ∧ (takeBusLog p s).lanes = s.lanes ∧ (takeBusLog p s).ports = s.ports ∧
    (takeBusLog p s).ptp = s.ptp ∧ (takeBusLog p s).ftn = s.ftn ∧ (takeBusLog p s).keys = s.keys ∧
    (takeBusLog p s).flt = s.flt ∧ (takeBusLog p s).mgt = s.mgt ∧ (takeBusLog p s).cnt = s.cnt := by
  unfold takeBusLog; (repeat' split) <;> simp

@[simp] theorem keeps_popPair (p : Part) (pg : Nat) (s : State) :
    (popPair p pg s).pending = s.pending ∧ (popPair p pg s).fresh = s.fresh ∧ (popPair p pg s).now = s.now ∧
    (popPair p pg s).pages = s.pages ∧ (popPair p pg s).pwr = s.pwr ∧ (popPair p pg s).arb = s.arb ∧
    (popPair p pg s).halves = s.halves ∧ (popPair p pg s).bars = s.bars ∧ (popPair p pg s).ops = s.ops ∧
    (popPair p pg s).ident = s.ident ∧ (popPair p pg s).models = s.models ∧ (popPair p pg s).jets = s.jets ∧
    (popPair p pg s).lanes = s.lanes ∧ (popPair p pg s).ptp = s.ptp ∧ (popPair p pg s).ftn = s.ftn ∧
    (popPair p pg s).keys = s.keys ∧ (popPair p pg s).mgt = s.mgt ∧ (popPair p pg s).cnt = s.cnt := by
  unfold popPair; (repeat' split) <;> simp

@[simp] theorem keeps_latchNow (p : Part) (d : Dom) (s : State) :
    (latchNow p d s).pending = s.pending ∧ (latchNow p d s).now = s.now ∧ (latchNow p d s).outs = s.outs ∧
    (latchNow p d s).pages = s.pages ∧ (latchNow p d s).pwr = s.pwr ∧ (latchNow p d s).arb = s.arb ∧
    (latchNow p d s).halves = s.halves ∧ (latchNow p d s).bars = s.bars ∧ (latchNow p d s).ops = s.ops ∧
    (latchNow p d s).ident = s.ident ∧ (latchNow p d s).models = s.models ∧ (latchNow p d s).caps = s.caps ∧
    (latchNow p d s).jets = s.jets ∧ (latchNow p d s).lanes = s.lanes ∧ (latchNow p d s).ports = s.ports ∧
    (latchNow p d s).ptp = s.ptp ∧ (latchNow p d s).ftn = s.ftn ∧ (latchNow p d s).keys = s.keys ∧
    (latchNow p d s).flt = s.flt ∧ (latchNow p d s).mgt = s.mgt ∧ (latchNow p d s).cnt = s.cnt := by
  unfold latchNow; (repeat' split) <;> simp

@[simp] theorem keeps_readStep (a : Access) (off w : Nat) (s : State) :
    (readStep a off w s).2.pending = s.pending ∧ (readStep a off w s).2.now = s.now ∧
    (readStep a off w s).2.outs = s.outs ∧ (readStep a off w s).2.pwr = s.pwr ∧ (readStep a off w s).2.arb = s.arb ∧
    (readStep a off w s).2.halves = s.halves ∧ (readStep a off w s).2.bars = s.bars ∧
    (readStep a off w s).2.ops = s.ops ∧ (readStep a off w s).2.ident = s.ident ∧
    (readStep a off w s).2.models = s.models ∧ (readStep a off w s).2.caps = s.caps ∧
    (readStep a off w s).2.jets = s.jets ∧ (readStep a off w s).2.lanes = s.lanes ∧
    (readStep a off w s).2.ports = s.ports ∧ (readStep a off w s).2.ptp = s.ptp ∧ (readStep a off w s).2.ftn = s.ftn ∧
    (readStep a off w s).2.keys = s.keys ∧ (readStep a off w s).2.flt = s.flt ∧ (readStep a off w s).2.mgt = s.mgt ∧
    (readStep a off w s).2.cnt = s.cnt ∧ (∀ rp ro, regOf (readStep a off w s).2.pages rp ro = regOf s.pages rp ro) := by
  simp only [readStep]; (repeat' split) <;> simp

@[simp] theorem keeps_readWords (a : Access) (off : Nat) (l : List Nat) (s : State) :
    (readWords a off l s).2.pending = s.pending ∧ (readWords a off l s).2.now = s.now ∧
    (readWords a off l s).2.outs = s.outs ∧ (readWords a off l s).2.pwr = s.pwr ∧
    (readWords a off l s).2.arb = s.arb ∧ (readWords a off l s).2.halves = s.halves ∧
    (readWords a off l s).2.bars = s.bars ∧ (readWords a off l s).2.ops = s.ops ∧
    (readWords a off l s).2.ident = s.ident ∧ (readWords a off l s).2.models = s.models ∧
    (readWords a off l s).2.caps = s.caps ∧ (readWords a off l s).2.jets = s.jets ∧
    (readWords a off l s).2.lanes = s.lanes ∧ (readWords a off l s).2.ports = s.ports ∧
    (readWords a off l s).2.ptp = s.ptp ∧ (readWords a off l s).2.ftn = s.ftn ∧
    (readWords a off l s).2.keys = s.keys ∧ (readWords a off l s).2.flt = s.flt ∧
    (readWords a off l s).2.mgt = s.mgt ∧ (readWords a off l s).2.cnt = s.cnt ∧
    (∀ rp ro, regOf (readWords a off l s).2.pages rp ro = regOf s.pages rp ro) := by
  induction l generalizing s with
  | nil => simp [readWords]
  | cons w r ih => simp [readWords, ih]

@[simp] theorem keeps_hostRead (a : Access) (off : Nat) (s : State) :
    (hostRead a off s).pending = s.pending ∧ (hostRead a off s).now = s.now ∧ (hostRead a off s).pwr = s.pwr ∧
    (hostRead a off s).arb = s.arb ∧ (hostRead a off s).halves = s.halves ∧ (hostRead a off s).ops = s.ops ∧
    (hostRead a off s).models = s.models ∧ (hostRead a off s).jets = s.jets ∧ (hostRead a off s).lanes = s.lanes ∧
    (hostRead a off s).ptp = s.ptp ∧ (hostRead a off s).ftn = s.ftn ∧ (hostRead a off s).keys = s.keys ∧
    (hostRead a off s).mgt = s.mgt ∧ (∀ rp ro, regOf (hostRead a off s).pages rp ro = regOf s.pages rp ro) := by
  unfold hostRead; (repeat' split) <;> simp

@[simp] theorem keeps_barAccess (a : Access) (off : Nat) (v : Option (BitVec 64)) (s : State) :
    (barAccess a off v s).pending = s.pending ∧ (barAccess a off v s).now = s.now ∧
    (barAccess a off v s).pages = s.pages ∧ (barAccess a off v s).pwr = s.pwr ∧ (barAccess a off v s).arb = s.arb ∧
    (barAccess a off v s).halves = s.halves ∧ (barAccess a off v s).parts = s.parts ∧
    (barAccess a off v s).ops = s.ops ∧ (barAccess a off v s).ident = s.ident ∧
    (barAccess a off v s).models = s.models ∧ (barAccess a off v s).caps = s.caps ∧
    (barAccess a off v s).jets = s.jets ∧ (barAccess a off v s).lanes = s.lanes ∧
    (barAccess a off v s).ports = s.ports ∧ (barAccess a off v s).ptp = s.ptp ∧ (barAccess a off v s).ftn = s.ftn ∧
    (barAccess a off v s).keys = s.keys ∧ (barAccess a off v s).flt = s.flt ∧ (barAccess a off v s).mgt = s.mgt := by
  unfold barAccess; (repeat' split) <;> simp

@[simp] theorem keeps_hostAccess (a : Access) (off : Nat) (v : Option (BitVec 64)) (s : State) :
    (hostAccess a off v s).pending = s.pending ∧ (hostAccess a off v s).now = s.now ∧
    (hostAccess a off v s).keys.fuse = s.keys.fuse := by
  unfold hostAccess; (repeat' split) <;> simp

end Sys2Proof.Machine
end

