-- ==== Sys2Proof/Laws/Memory.lean ====
section
/-!
SUPPORT. Laws of the boot flash, the block's addressed memory: every operation on it keeps the canonical form, and what
each leaves.
-/

namespace Sys2Proof.Machine

variable {α : Type}

/-- A filtered table keeps bounds on its keys. -/
theorem above_filter {m : KMap α} {n : Nat} (p : Nat × α → Bool) (h : above n m) : above n (m.filter p) :=
  fun e he => h e (List.mem_filter.mp he).1

/-- Leaving entries out keeps the canonical form. -/
theorem wf_filter [DecidableEq α] (d : Nat → α) (m : KMap α) (p : Nat × α → Bool) (h : KMap.wf d m = true) :
    KMap.wf d (m.filter p) = true := by
  induction m with
  | nil => rfl
  | cons e r ih =>
    obtain ⟨j, w⟩ := e
    obtain ⟨hv, ha, hr⟩ := (wf_cons d j w r).mp h
    rw [List.filter_cons]
    split
    · exact (wf_cons d j w _).mpr ⟨hv, above_filter p ha, ih hr⟩
    · exact ih hr

/-- Several writes keep the canonical form. -/
theorem wf_puts [DecidableEq α] {β : Type} (d : Nat → α) (l : List β) (key : β → Nat) (val : β → α) (m : KMap α)
    (h : KMap.wf d m = true) : KMap.wf d (l.foldl (fun a b => put d a (key b) (val b)) m) = true := by
  induction l generalizing m with
  | nil => exact h
  | cons b r ih => exact ih _ (wf_put d m (key b) (val b) h)

/-- Erasing a region keeps the canonical form (18 R571). -/
theorem wf_eraseRegion (r : Bool) (m : KMap Byte) (h : KMap.wf flashReset m = true) :
    KMap.wf flashReset (eraseRegion r m) = true := wf_filter _ _ _ h

/-- The writes of UPDATE_DATA keep the canonical form (18 R571). -/
theorem wf_flashWrite (base : Nat) (data : List Byte) (m : KMap Byte) (h : KMap.wf flashReset m = true) :
    KMap.wf flashReset ((List.range data.length).foldl
      (fun a i => put flashReset a (base + i) (data.getD i 0xFF)) m) = true :=
  wf_puts _ _ (fun i => base + i) (fun i => data.getD i 0xFF) _ h

end Sys2Proof.Machine
end

