-- ==== Sys2Proof/Laws/State.lean ====
section
/-!
SUPPORT. Laws of the state's tables: what each setter writes, and that it leaves the other entries. That a setter
leaves the other fields is in the frame laws.
-/

namespace Sys2Proof.Machine

/-! ## Pairs of halves, feeds and paths -/

@[simp] theorem Pair.of_set_self {α : Type} (p : Pair α) (h : Half) (v : α) : (p.set h v).of h = v := by cases h <;> rfl

@[simp] theorem Pair.of_set_peer {α : Type} (p : Pair α) (h : Half) (v : α) : (p.set h v).of h.peer = p.of h.peer := by
  cases h <;> rfl

theorem Pair.of_set_ne {α : Type} (p : Pair α) {h g : Half} (v : α) (hg : g ≠ h) : (p.set h v).of g = p.of g := by
  cases h <;> cases g <;> first | rfl | exact absurd rfl hg

@[simp] theorem Half.peer_ne (h : Half) : h.peer ≠ h := by cases h <;> decide

@[simp] theorem Half.peer_peer (h : Half) : h.peer.peer = h := by cases h <;> rfl

/-! ## Pages and registers -/

@[simp] theorem page_setPage_self (s : State) (pg : Nat) (p : Page) : (s.setPage pg p).page pg = p := by
  simp [State.page, State.setPage]

theorem page_setPage_ne (s : State) {pg q : Nat} (p : Page) (h : q ≠ pg) : (s.setPage pg p).page q = s.page q := by
  simp [State.page, State.setPage, look_put_ne _ _ _ h]

@[simp] theorem page_modPage_self (s : State) (pg : Nat) (f : Page → Page) : (s.modPage pg f).page pg = f (s.page pg) := by
  simp [State.modPage]

theorem page_modPage_ne (s : State) {pg q : Nat} (f : Page → Page) (h : q ≠ pg) : (s.modPage pg f).page q = s.page q := by
  simp [State.modPage, page_setPage_ne _ _ h]

theorem reg_def (s : State) (pg o : Nat) : s.reg pg o = look (resetWord pg) (s.page pg).regs o := rfl

@[simp] theorem page_setReg_self (s : State) (pg o : Nat) (v : Word) :
    (s.setReg pg o v).page pg = Page.setReg pg (s.page pg) o v := by
  simp [State.setReg]

@[simp] theorem reg_setReg_self (s : State) (pg o : Nat) (v : Word) : (s.setReg pg o v).reg pg o = v := by
  simp [reg_def, Page.setReg]

theorem reg_setReg_ne (s : State) {pg q o r : Nat} (v : Word) (h : q ≠ pg ∨ r ≠ o) :
    (s.setReg pg o v).reg q r = s.reg q r := by
  by_cases hq : q = pg
  · subst hq
    have hr : r ≠ o := h.resolve_left (fun n => n rfl)
    simp [reg_def, Page.setReg, look_put_ne _ _ _ hr]
  · simp [reg_def, State.setReg, page_modPage_ne _ _ hq]

/-- A state whose pages are the same reads the same. -/
theorem page_of_pages {s t : State} (h : t.pages = s.pages) (pg : Nat) : t.page pg = s.page pg := by
  simp [State.page, h]

theorem reg_of_pages {s t : State} (h : t.pages = s.pages) (pg o : Nat) : t.reg pg o = s.reg pg o := by
  simp [State.reg, h]

/-! ## Tables indexed by number -/

@[simp] theorem cap_modCap_self (s : State) (i : CapNo) (f : CapSt → CapSt) : (s.modCap i f).cap i = f (s.cap i) := by
  simp [State.cap, State.modCap]

theorem cap_modCap_ne (s : State) {i j : CapNo} (f : CapSt → CapSt) (h : j ≠ i) : (s.modCap i f).cap j = s.cap j := by
  simp [State.cap, State.modCap, get_modAt_ne _ _ h]

@[simp] theorem jet_modJet_self (s : State) (i : JetNo) (f : JetSt → JetSt) : (s.modJet i f).jet i = f (s.jet i) := by
  simp [State.jet, State.modJet]

theorem jet_modJet_ne (s : State) {i j : JetNo} (f : JetSt → JetSt) (h : j ≠ i) : (s.modJet i f).jet j = s.jet j := by
  simp [State.jet, State.modJet, get_modAt_ne _ _ h]

@[simp] theorem lane_modLane_self (s : State) (i : LaneNo) (f : LaneSt → LaneSt) : (s.modLane i f).lane i = f (s.lane i) := by
  simp [State.lane, State.modLane]

theorem lane_modLane_ne (s : State) {i j : LaneNo} (f : LaneSt → LaneSt) (h : j ≠ i) : (s.modLane i f).lane j = s.lane j := by
  simp [State.lane, State.modLane, get_modAt_ne _ _ h]

@[simp] theorem port_modPort_self (s : State) (i : PortNo) (f : PortSt → PortSt) : (s.modPort i f).port i = f (s.port i) := by
  simp [State.port, State.modPort]

theorem port_modPort_ne (s : State) {i j : PortNo} (f : PortSt → PortSt) (h : j ≠ i) : (s.modPort i f).port j = s.port j := by
  simp [State.port, State.modPort, get_modAt_ne _ _ h]

@[simp] theorem ptpPort_modPtpPort_self (s : State) (i : PortNo) (f : PtpPort → PtpPort) : (s.modPtpPort i f).ptpPort i = f (s.ptpPort i) := by
  simp [State.ptpPort, State.modPtpPort]

theorem ptpPort_modPtpPort_ne (s : State) {i j : PortNo} (f : PtpPort → PtpPort) (h : j ≠ i) : (s.modPtpPort i f).ptpPort j = s.ptpPort j := by
  simp [State.ptpPort, State.modPtpPort, get_modAt_ne _ _ h]

@[simp] theorem client_modClient_self (s : State) (i : ClNo) (f : Client → Client) : (s.modClient i f).client i = f (s.client i) := by
  simp [State.client, State.modClient]

theorem client_modClient_ne (s : State) {i j : ClNo} (f : Client → Client) (h : j ≠ i) : (s.modClient i f).client j = s.client j := by
  simp [State.client, State.modClient, get_modAt_ne _ _ h]

@[simp] theorem half_setHalf_self (s : State) (h : Half) (x : HalfSt) : (s.setHalf h x).half h = x := by
  simp [State.half, State.setHalf]

theorem half_setHalf_ne (s : State) {h g : Half} (x : HalfSt) (hg : g ≠ h) : (s.setHalf h x).half g = s.half g := by
  simp [State.half, State.setHalf, Pair.of_set_ne _ _ hg]

@[simp] theorem half_modHalf_self (s : State) (h : Half) (f : HalfSt → HalfSt) : (s.modHalf h f).half h = f (s.half h) := by
  simp [State.modHalf]

theorem half_modHalf_ne (s : State) {h g : Half} (f : HalfSt → HalfSt) (hg : g ≠ h) :
    (s.modHalf h f).half g = s.half g := by
  simp [State.modHalf, half_setHalf_ne _ _ hg]

@[simp] theorem lath_modLath_self (s : State) (h : Half) (f : Lath → Lath) : (s.modLath h f).lath h = f (s.lath h) := by
  simp [State.lath, State.modLath]

@[simp] theorem slot_modSlot_self (s : State) (h : Half) (n : SlotNo) (f : SlotSt → SlotSt) :
    (s.modSlot h n f).slot h n = f (s.slot h n) := by
  simp [State.slot, State.modSlot]

theorem slot_modSlot_ne (s : State) (h : Half) {n m : SlotNo} (f : SlotSt → SlotSt) (hm : m ≠ n) :
    (s.modSlot h n f).slot h m = s.slot h m := by
  simp [State.slot, State.modSlot, get_modAt_ne _ _ hm]

@[simp] theorem dom_modDom_self (s : State) (h : Half) (d : Dom) (f : DomSt → DomSt) :
    (s.modDom h d f).dom h d = f (s.dom h d) := by
  simp [State.dom, State.modDom]

theorem dom_modDom_ne (s : State) (h : Half) {d e : Dom} (f : DomSt → DomSt) (he : e ≠ d) :
    (s.modDom h d f).dom h e = s.dom h e := by
  simp [State.dom, State.modDom, get_modAt_ne _ _ he]

@[simp] theorem sd_modSd_self (s : State) (h : Half) (n : SlotNo) (d : Dom) (f : SlotDom → SlotDom) :
    (s.modSd h n d f).sd h n d = f (s.sd h n d) := by
  simp [State.sd, State.modSd]

@[simp] theorem part_setPart_self (s : State) (p : Part) (x : PartSt) : (s.setPart p x).part p = x := by
  simp [State.part, State.setPart]

theorem part_setPart_ne (s : State) {p q : Part} (x : PartSt) (h : q ≠ p) : (s.setPart p x).part q = s.part q := by
  simp [State.part, State.setPart, get_setAt_ne _ _ h]

@[simp] theorem bar_modBar_self (s : State) (p : Part) (f : BarSt → BarSt) : (s.modBar p f).bar p = f (s.bar p) := by
  simp [State.bar, State.modBar]

theorem bar_modBar_ne (s : State) {p q : Part} (f : BarSt → BarSt) (h : q ≠ p) : (s.modBar p f).bar q = s.bar q := by
  simp [State.bar, State.modBar, get_modAt_ne _ _ h]

@[simp] theorem part_modPart_self (s : State) (p : Part) (f : PartSt → PartSt) : (s.modPart p f).part p = f (s.part p) := by
  simp [State.modPart]

theorem part_modPart_ne (s : State) {p q : Part} (f : PartSt → PartSt) (h : q ≠ p) :
    (s.modPart p f).part q = s.part q := by
  simp [State.modPart, part_setPart_ne _ _ h]

@[simp] theorem queue_modQueue_self (s : State) (p : Part) (q : QNo) (f : Queue → Queue) :
    (s.modQueue p q f).queue p q = f (s.queue p q) := by
  simp [State.queue, State.modQueue]

theorem queue_modQueue_ne (s : State) (p : Part) {q r : QNo} (f : Queue → Queue) (h : r ≠ q) :
    (s.modQueue p q f).queue p r = s.queue p r := by
  simp [State.queue, State.modQueue, get_modAt_ne _ _ h]

@[simp] theorem slotKey_setSlotKey_self (s : State) (n : KeyNo) (k : KeySlot) : (s.setSlotKey n k).slotKey n = k := by
  simp [State.slotKey, State.setSlotKey]

theorem slotKey_setSlotKey_ne (s : State) {n m : KeyNo} (k : KeySlot) (h : m ≠ n) :
    (s.setSlotKey n k).slotKey m = s.slotKey m := by
  simp [State.slotKey, State.setSlotKey, get_setAt_ne _ _ h]

@[simp] theorem op_setOp_self (s : State) (t : Tag) (o : Option Op) : (s.setOp t o).op? t = o := by
  simp [State.op?, State.setOp]

theorem op_setOp_ne (s : State) {t u : Tag} (o : Option Op) (h : u ≠ t) : (s.setOp t o).op? u = s.op? u := by
  have : u.val ≠ t.val := fun e => h (Fin.ext e)
  simp [State.op?, State.setOp, look_put_ne _ _ _ this]

@[simp] theorem sess_setSess_self (s : State) (i : Nat) (x : Option PtpSess) : (s.setSess i x).sess? i = x := by
  simp [State.sess?, State.setSess]

theorem sess_setSess_ne (s : State) {i j : Nat} (x : Option PtpSess) (h : j ≠ i) : (s.setSess i x).sess? j = s.sess? j := by
  simp [State.sess?, State.setSess, look_put_ne _ _ _ h]

@[simp] theorem unit_setUnit_self (s : State) (src : Nat) (det : Byte) (u : TestUnit) : (s.setUnit src det u).unit src det = u := by
  simp [State.unit, State.setUnit]

@[simp] theorem cntVal_setCnt_self (s : State) (c : Nat) (v : Word) : (s.setCnt c v).cntVal c = v := by
  simp [State.cntVal, State.setCnt]

theorem cntVal_setCnt_ne (s : State) {c e : Nat} (v : Word) (h : e ≠ c) : (s.setCnt c v).cntVal e = s.cntVal e := by
  simp [State.cntVal, State.setCnt, look_put_ne _ _ _ h]

@[simp] theorem trio_modTrio_self (s : State) (p : Part) (pg : Nat) (f : Trio → Trio) :
    (s.modTrio p pg f).trio p pg = f (s.trio p pg) := by
  simp [State.trio, State.modTrio]

@[simp] theorem feed_modFeed_self (s : State) (f : Half) (g : Feed → Feed) :
    (modFeed s f g).pwr.feeds.of f = g (s.pwr.feeds.of f) := by
  simp [modFeed]

@[simp] theorem feed_modFeed_peer (s : State) (f : Half) (g : Feed → Feed) :
    (modFeed s f g).pwr.feeds.of f.peer = s.pwr.feeds.of f.peer := by
  simp [modFeed]

end Sys2Proof.Machine
end

