-- ==== Sys2Proof/Laws/Ops.lean ====
section
/-!
SUPPORT. What each shared operation does to pages, registers, events and operations: one law an operation and a
reading, so that no later proof unfolds it.
-/

namespace Sys2Proof.Machine

/-! ## Commands -/

theorem gives_iff (c : Instr) (s t : State) (P : State → Prop) (h : exec c s = .next t) : Gives c s P ↔ P t := by
  constructor
  · rintro ⟨u, hu, hp⟩
    rw [h] at hu
    cases hu
    exact hp
  · exact fun hp => ⟨t, h, hp⟩

/-! ## Bits -/

theorem bit_or_flagAt_self (w : Word) {b : Nat} (h : b < 32) : bit (w ||| flagAt true b) b = true := by
  rw [bit, flagAt, if_pos rfl, BitVec.getLsbD_or, BitVec.getLsbD_ofNat, Nat.testBit_two_pow_self]
  simp [h]

theorem bit_or_of_bit {w v : Word} {b : Nat} (h : bit w b = true) : bit (w ||| v) b = true := by
  simp only [bit] at h
  simp [bit, h]

/-! ## Registers and events of a register file -/

theorem reg_eq (s : State) (pg o : Nat) : s.reg pg o = regOf s.pages pg o := rfl

theorem page_setEvt_self (s : State) (pg b : Nat) :
    (s.setEvt pg b).page pg =
      { s.page pg with evt := (s.page pg).evt ||| flagAt true b, evtCnt := (s.page pg).evtCnt + 1 } := by
  simp only [State.setEvt]
  split <;> simp [State.page, State.modPage, State.setPage]

theorem page_setEvt_ne (s : State) {pg q : Nat} (b : Nat) (h : q ≠ pg) : (s.setEvt pg b).page q = s.page q := by
  simp only [State.setEvt]
  split <;> simp [State.page, State.modPage, State.setPage, look_put_ne _ _ _ h]

/-- An event sets its bit. -/
theorem evtBit_setEvt_self (s : State) (pg b : Nat) (h : b < 32) : (s.setEvt pg b).evtBit pg b = true := by
  have := page_setEvt_self s pg b
  simp only [State.page] at this
  simp [State.evtBit, evtOf, this, bit_or_flagAt_self _ h]

/-- An event clears no bit. -/
theorem evtBit_setEvt_of (s : State) (pg b q e : Nat) (h : s.evtBit q e = true) : (s.setEvt pg b).evtBit q e = true := by
  by_cases hq : q = pg
  · subst hq
    have := page_setEvt_self s q b
    simp only [State.page] at this
    simp only [State.evtBit, evtOf] at h
    simp [State.evtBit, evtOf, this, bit_or_of_bit h]
  · have := page_setEvt_ne s b hq
    simp only [State.page] at this
    simpa [State.evtBit, evtOf, this] using h

/-- The same two laws, in the form a rewriter can use: the bit after an event is the event's own or the one before. -/
@[simp] theorem evtOf_setEvt (s : State) (pg b q e : Nat) (hb : b < 32) :
    evtOf (s.setEvt pg b).pages q e = (evtOf s.pages q e || (q == pg && e == b)) := by
  by_cases hq : q = pg
  · subst hq
    have := page_setEvt_self s q b
    simp only [State.page] at this
    by_cases he : e = b
    · subst he; simp [evtOf, this, bit_or_flagAt_self _ hb]
    · have hf : (flagAt true b).getLsbD e = false := by
        rw [flagAt, if_pos rfl, BitVec.getLsbD_ofNat, Nat.testBit_two_pow_of_ne (Ne.symm he)]
        simp
      simp [evtOf, this, bit, hf, he]
  · have := page_setEvt_ne s b hq
    simp only [State.page] at this
    simp [evtOf, this, hq]

@[simp] theorem evtOf_evtIf (s : State) (c : Bool) (pg b q e : Nat) (hb : b < 32) :
    evtOf (s.evtIf c pg b).pages q e = (evtOf s.pages q e || (c && q == pg && e == b)) := by
  unfold State.evtIf
  split <;> simp_all

/-! ## Counters -/

@[simp] theorem evtOf_count (s : State) (c n q e : Nat) : evtOf (s.count c n).pages q e = evtOf s.pages q e := by simp

/-! ## Fault messages -/

theorem page_fault (s : State) (place pg kind sev : Nat) (det : Byte) (loc : BitVec 24) (q : Nat) :
    ∃ b, (s.fault place pg kind sev det loc).page q = { s.page q with injArm := b } := by
  unfold State.fault
  split
  · extract_lets p inj m s1 s2
    have h1 : ∃ b, s1.page q = { s.page q with injArm := b } := by
      simp only [s1]
      split
      · by_cases hq : q = pg
        · subst hq; exact ⟨false, by simp⟩
        · exact ⟨(s.page q).injArm, by simp [page_modPage_ne _ _ hq]⟩
      · exact ⟨(s.page q).injArm, rfl⟩
    obtain ⟨b, hb⟩ := h1
    have h2 : s2.page q = s1.page q := page_of_pages (by simp [s2]) q
    refine ⟨b, ?_⟩
    split
    · rw [page_of_pages (t := s2.startTest _ _ _) (s := s2) (by simp) q, h2, hb]
    · rw [h2, hb]
  · exact ⟨(s.page q).injArm, rfl⟩

@[simp] theorem evtOf_fault (s : State) (place pg kind sev : Nat) (det : Byte) (loc : BitVec 24) (q e : Nat) :
    evtOf (s.fault place pg kind sev det loc).pages q e = evtOf s.pages q e := by
  obtain ⟨b, hb⟩ := page_fault s place pg kind sev det loc q
  simp only [State.page] at hb
  simp [evtOf, hb]

/-! ## Event log -/

@[simp] theorem evtOf_logRec (s : State) (typ data : Nat) (inj : Bool) (q e : Nat) (hq : q ≠ pgMgt) :
    evtOf (s.logRec typ data inj).pages q e = evtOf s.pages q e := by
  simp only [State.logRec]
  split
  · rfl
  · simp [evMgtLogOvf, hq]

/-! ## Host accesses -/

/-- A write that meets no cause is what its word does. -/
theorem rowWrite_allowed {a : Access} {pg o : Nat} {v : Word} {s : State} (x : Beside) (h : Allowed a pg o v s)
    (h4 : o % 4 = 0) (hb : pg * 4096 + o < 2 ^ 20) :
    rowWrite a pg o v s x = writeWord a x (pg * 4096 + o) v s := by
  obtain ⟨h1, h2, h3, h5⟩ := h
  have hm : (pg * 4096 + o) % 4 = 0 := by omega
  have hw : (pg * 4096 + o) / 4 * 4 = pg * 4096 + o := by omega
  have hv : (v.setWidth 64).extractLsb' 0 32 = v := by apply BitVec.eq_of_toNat_eq; simp; omega
  have hs : sizeCauses a (pg * 4096 + o) = [] := by simp [sizeCauses, h2, h3, hm]
  have hb' : ¬ 2 ^ 20 ≤ pg * 4096 + o := by omega
  simp only [rowWrite, hostWrite, hw, hv, hs, h5, h1, h2, hb', firstCause]
  simp

/-- A write of a header register that meets no cause, on any page. -/
theorem writeWord_header {a : Access} {pg o : Nat} {v : Word} {s : State} (x : Beside)
    (h : Allowed a pg o v s) (ho : o < 0x040) :
    writeWord a x (pg * 4096 + o) v s = writeHeader a pg o v x s := by
  obtain ⟨-, -, -, h5⟩ := h
  have hp : (pg * 4096 + o) / 4096 = pg := by omega
  have hq : (pg * 4096 + o) % 4096 = o := by omega
  have hn : ¬ 0x800 ≤ o := by omega
  simp only [wordCauses, writeWord, hp, hq, hn, decide_false] at h5 ⊢
  cases hk : pageKind pg with
  | none => simp [hk] at h5
  | some k =>
    simp only [hk] at h5 ⊢
    split at h5
    · simp at h5
    · cases hr : regRow? k o with
      | none => simp [hr] at h5
      | some r => simp [ho]

/-- A read that meets no cause pops its pair, or answers its words. -/
theorem hostRead_allowed {a : Access} {off : Nat} {s : State} (h : ReadAllowed a off s) :
    hostRead a off s = if readsPair off then popPair a.part (off / 4096) s
      else (readWords a off (wordsOf off a.width) s).2.answer64 a.part
        (cutRead off a.width (readWords a off (wordsOf off a.width) s).1) := by
  obtain ⟨h1, h2, h3⟩ := h
  have h2' : ¬ 2 ^ 20 ≤ off := by omega
  simp only [hostRead, h1, h3, h2', firstCause]
  simp

/-- A read that meets a cause is a bus error of the first of them. -/
theorem hostRead_error {a : Access} {off : Nat} {s : State} {c : Cause} (hu : s.hostUp a.part = true) (h2 : off < 2 ^ 20)
    (hc : firstCause (allReadCauses s a off) = some c) :
    hostRead a off s = busError (s.emit (.readData a.part none)) a.part c false off a.be := by
  have h2' : ¬ 2 ^ 20 ≤ off := by omega
  simp only [hostRead, hu, hc, h2']
  simp

/-! ## The event log keeps the rest of the management state -/

@[simp] theorem logRec_mgt_running (s : State) (typ data : Nat) (inj : Bool) :
    (s.logRec typ data inj).mgt.running = s.mgt.running := by
  simp only [State.logRec]
  split <;> simp

@[simp] theorem logRec_mgt_image (s : State) (typ data : Nat) (inj : Bool) :
    (s.logRec typ data inj).mgt.image = s.mgt.image := by
  simp only [State.logRec]
  split <;> simp

@[simp] theorem logRec_mgt_dalnalKey (s : State) (typ data : Nat) (inj : Bool) :
    (s.logRec typ data inj).mgt.dalnalKey = s.mgt.dalnalKey := by
  simp only [State.logRec]
  split <;> simp

@[simp] theorem logRec_mgt_version (s : State) (typ data : Nat) (inj : Bool) :
    (s.logRec typ data inj).mgt.version = s.mgt.version := by
  simp only [State.logRec]
  split <;> simp

@[simp] theorem logRec_mgt_svn (s : State) (typ data : Nat) (inj : Bool) :
    (s.logRec typ data inj).mgt.svn = s.mgt.svn := by
  simp only [State.logRec]
  split <;> simp

@[simp] theorem logRec_mgt_trialImage (s : State) (typ data : Nat) (inj : Bool) :
    (s.logRec typ data inj).mgt.trialImage = s.mgt.trialImage := by
  simp only [State.logRec]
  split <;> simp

@[simp] theorem logRec_mgt_bootCtl (s : State) (typ data : Nat) (inj : Bool) :
    (s.logRec typ data inj).mgt.bootCtl = s.mgt.bootCtl := by
  simp only [State.logRec]
  split <;> simp

@[simp] theorem logRec_mgt_bootFails (s : State) (typ data : Nat) (inj : Bool) :
    (s.logRec typ data inj).mgt.bootFails = s.mgt.bootFails := by
  simp only [State.logRec]
  split <;> simp

@[simp] theorem logRec_mgt_measured (s : State) (typ data : Nat) (inj : Bool) :
    (s.logRec typ data inj).mgt.measured = s.mgt.measured := by
  simp only [State.logRec]
  split <;> simp

@[simp] theorem logRec_mgt_restarts (s : State) (typ data : Nat) (inj : Bool) :
    (s.logRec typ data inj).mgt.restarts = s.mgt.restarts := by
  simp only [State.logRec]
  split <;> simp

@[simp] theorem logRec_mgt_lockstepRun (s : State) (typ data : Nat) (inj : Bool) :
    (s.logRec typ data inj).mgt.lockstepRun = s.mgt.lockstepRun := by
  simp only [State.logRec]
  split <;> simp

@[simp] theorem logRec_mgt_wdogOnce (s : State) (typ data : Nat) (inj : Bool) :
    (s.logRec typ data inj).mgt.wdogOnce = s.mgt.wdogOnce := by
  simp only [State.logRec]
  split <;> simp

@[simp] theorem logRec_mgt_flash (s : State) (typ data : Nat) (inj : Bool) :
    (s.logRec typ data inj).mgt.flash = s.mgt.flash := by
  simp only [State.logRec]
  split <;> simp

@[simp] theorem logRec_mgt_session (s : State) (typ data : Nat) (inj : Bool) :
    (s.logRec typ data inj).mgt.session = s.mgt.session := by
  simp only [State.logRec]
  split <;> simp

@[simp] theorem logRec_mgt_nonce (s : State) (typ data : Nat) (inj : Bool) :
    (s.logRec typ data inj).mgt.nonce = s.mgt.nonce := by
  simp only [State.logRec]
  split <;> simp

@[simp] theorem logRec_mgt_decom (s : State) (typ data : Nat) (inj : Bool) :
    (s.logRec typ data inj).mgt.decom = s.mgt.decom := by
  simp only [State.logRec]
  split <;> simp

@[simp] theorem logRec_mgt_held (s : State) (typ data : Nat) (inj : Bool) :
    (s.logRec typ data inj).mgt.held = s.mgt.held := by
  simp only [State.logRec]
  split <;> simp

@[simp] theorem logRec_mgt_ethSeq (s : State) (typ data : Nat) (inj : Bool) :
    (s.logRec typ data inj).mgt.ethSeq = s.mgt.ethSeq := by
  simp only [State.logRec]
  split <;> simp

@[simp] theorem logRec_mgt_ethDrop (s : State) (typ data : Nat) (inj : Bool) :
    (s.logRec typ data inj).mgt.ethDrop = s.mgt.ethDrop := by
  simp only [State.logRec]
  split <;> simp

@[simp] theorem logRec_mgt_policy (s : State) (typ data : Nat) (inj : Bool) :
    (s.logRec typ data inj).mgt.policy = s.mgt.policy := by
  simp only [State.logRec]
  split <;> simp

@[simp] theorem logRec_mgt_admin (s : State) (typ data : Nat) (inj : Bool) :
    (s.logRec typ data inj).mgt.admin = s.mgt.admin := by
  simp only [State.logRec]
  split <;> simp

@[simp] theorem logRec_mgt_smbPriv (s : State) (typ data : Nat) (inj : Bool) :
    (s.logRec typ data inj).mgt.smbPriv = s.mgt.smbPriv := by
  simp only [State.logRec]
  split <;> simp

@[simp] theorem logRec_mgt_startup (s : State) (typ data : Nat) (inj : Bool) :
    (s.logRec typ data inj).mgt.startup = s.mgt.startup := by
  simp only [State.logRec]
  split <;> simp

@[simp] theorem logRec_mgt_tamperRec (s : State) (typ data : Nat) (inj : Bool) :
    (s.logRec typ data inj).mgt.tamperRec = s.mgt.tamperRec := by
  simp only [State.logRec]
  split <;> simp

@[simp] theorem logRec_mgt_log (s : State) (typ data : Nat) (inj : Bool) :
    (s.logRec typ data inj).mgt.log = s.mgt.log := by
  simp only [State.logRec]
  split <;> simp

@[simp] theorem logRec_mgt_logSeq (s : State) (typ data : Nat) (inj : Bool) :
    (s.logRec typ data inj).mgt.logSeq = s.mgt.logSeq := by
  simp only [State.logRec]
  split <;> simp

@[simp] theorem logRec_mgt_rails (s : State) (typ data : Nat) (inj : Bool) :
    (s.logRec typ data inj).mgt.rails = s.mgt.rails := by
  simp only [State.logRec]
  split <;> simp

@[simp] theorem logRec_mgt_railBad (s : State) (typ data : Nat) (inj : Bool) :
    (s.logRec typ data inj).mgt.railBad = s.mgt.railBad := by
  simp only [State.logRec]
  split <;> simp

@[simp] theorem logRec_mgt_tempA (s : State) (typ data : Nat) (inj : Bool) :
    (s.logRec typ data inj).mgt.tempA = s.mgt.tempA := by
  simp only [State.logRec]
  split <;> simp

@[simp] theorem logRec_mgt_tempB (s : State) (typ data : Nat) (inj : Bool) :
    (s.logRec typ data inj).mgt.tempB = s.mgt.tempB := by
  simp only [State.logRec]
  split <;> simp

@[simp] theorem logRec_mgt_tempC (s : State) (typ data : Nat) (inj : Bool) :
    (s.logRec typ data inj).mgt.tempC = s.mgt.tempC := by
  simp only [State.logRec]
  split <;> simp

@[simp] theorem logRec_mgt_ots (s : State) (typ data : Nat) (inj : Bool) :
    (s.logRec typ data inj).mgt.ots = s.mgt.ots := by
  simp only [State.logRec]
  split <;> simp

@[simp] theorem logRec_mgt_dieRead (s : State) (typ data : Nat) (inj : Bool) :
    (s.logRec typ data inj).mgt.dieRead = s.mgt.dieRead := by
  simp only [State.logRec]
  split <;> simp

/-! ## Operations -/

theorem op_finish_self (s : State) (t : Tag) (o : Op) (st : Byte) (res : Vector Word 6) (h : s.op? t = some o)
    (hd : o.isDone = false) : (s.finish t st res).op? t =
      some { o with phase := .done st, result := res, ready := (s.queue o.part o.q).nextReady } := by
  simp only [State.finish, h, hd]
  simp [State.op?, State.setOp]

theorem op_finish_ne (s : State) {t u : Tag} (st : Byte) (res : Vector Word 6) (h : u ≠ t) :
    (s.finish t st res).op? u = s.op? u := by
  unfold State.finish
  split
  · rfl
  · split
    · rfl
    · have := op_setOp_ne s (t := t) (u := u)
      simp only [State.op?] at this ⊢
      simp [this, h]

theorem op_phase_self (s : State) (t : Tag) (o : Op) (ph : OpPhase) (h : s.op? t = some o) :
    (s.phase t ph).op? t = some { o with phase := ph } := by
  simp [State.phase, h]

end Sys2Proof.Machine
end

