-- ==== Sys2Proof/WellFormed.lean ====
section
/-!
DEFINITION. Which commands are well formed: what the types of the operands do not already say.
-/

namespace Sys2Proof

/-- A timestamp's TDC reading lies within one cycle of CLK_CORE, 1,250 ps (04 R116). -/
def subOk (sub : Nat) : Bool := sub < 1250

/-- A host access has 1 byte or more (02 R70). -/
def accessOk (a : Access) : Bool := 1 <= a.width

/-- The NTP header of a request has 48 octets (14 R433). -/
def ntpOk (r : NtpReq) : Bool := r.hdr.length == 48 && subOk r.pt.sub

/-- The initial values of a start-up policy name whole words of BAR0 (02 R44, 18 R564). -/
def policyOk : PolicyRec → Bool
  | .partition .. => true
  | .startup _ init => init.all (fun e => e.1 < 1048576 && e.1 % 4 == 0)
  | .tamper _ => true

/-- Well-formedness: an observation has a raw phase against each of the 4 domains (05 R153), a register offset lies in BAR0
(02 R44), and UPDATE_DATA carries at most 240 bytes (18 R571). -/
def wellFormed : Instr → Bool
  | .slotObservation _ _ r => r.raw.length == 4
  | .trowelArm a .. => accessOk a
  | .forceHold a .. => accessOk a
  | .frameReceived _ _ f _ => subOk f.pt.sub
  | .frameTransmitted _ _ _ sub _ _ => subOk sub
  | .txtsPop a .. => accessOk a
  | .captureEdge _ _ sub _ => subOk sub
  | .capPop a .. => accessOk a
  | .jetPeriodEdge _ sub => subOk sub
  | .rampDone _ sub => subOk sub
  | .jetSwitch _ holdPs sub a b => holdPs ≤ 5000 && subOk sub && a.natAbs ≤ 20 && b.natAbs ≤ 20
  | .jetKill a .. => accessOk a
  | .hrxTail a .. => accessOk a
  | .delayReqReceived _ _ m => subOk m.pt.sub
  | .ntpRequest _ _ r => ntpOk r
  | .ntsRequest _ _ r _ => ntpOk r
  | .ftnKill a .. => accessOk a
  | .sqTail a .. => accessOk a
  | .cqHead a .. => accessOk a
  | .queueEnable a .. => accessOk a
  | .queueDisable a .. => accessOk a
  | .mbxGo a .. => accessOk a
  | .keyZeroise a .. => accessOk a
  | .keyZeroiseAll a .. => accessOk a
  | .fltResume a .. => accessOk a
  | .fltRetest a .. => accessOk a
  | .fltInjWdog a .. => accessOk a
  | .fltLogPop a .. => accessOk a
  | .setPolicy _ _ r => policyOk r
  | .updateData _ _ _ data => data.length <= 240
  | .chainWrite a .. => accessOk a
  | .pageLock a .. => accessOk a
  | .pageEnable a .. => accessOk a
  | .srst a .. => accessOk a
  | .eventClear a .. => accessOk a
  | .faultClear a .. => accessOk a
  | .inject a .. => accessOk a
  | .applyHold a .. => accessOk a
  | .applyRelease a .. => accessOk a
  | .discard a .. => accessOk a
  | .indAddrWrite a .. => accessOk a
  | .indCtlWrite a .. => accessOk a
  | .indDataRead a .. => accessOk a
  | .indDataWrite a .. => accessOk a
  | .buserrLogPop a .. => accessOk a
  | .registerWrite a off _ => accessOk a && off < 1048576
  | .feedDetected .. | .feedLost .. | .halfHeldInReset .. | .halfRepower .. | .breakerTrip .. | .breakerReclose ..
  | .resetN .. | .thermWarn .. | .thermTrip .. | .thermCommon .. | .thermRecover .. | .vbatLow ..
  | .vauxOverload .. | .preRegulatorsUp .. | .bootRomStart .. | .measuredBoot .. | .measExtend .. | .measLock ..
  | .measLockTimeout .. | .step5Complete .. | .bootRestart .. | .halfResetEnd .. | .standbyLineLock ..
  | .xoLockTimeout .. | .moscClassify .. | .primaryLineLock .. | .lathLock .. | .lathAcquireRetry .. | .moscLost ..
  | .lockLost .. | .toStandby .. | .xoBad .. | .moscReclassify .. | .moscQualWindow .. | .toPrimary ..
  | .lathReturnCmd .. | .autoRst .. | .claimChange .. | .peerOkPersist .. | .switch .. | .clkArbSwitch ..
  | .claimParityError .. | .claimParityClear .. | .beatBoundary .. | .digestReceived ..
  | .resyncOrder .. | .peerOkRise .. | .powerupSelftest .. | .resyncStart .. | .loadStateReceived ..
  | .holdoffElapsed .. | .heartbeatSend .. | .heartbeatReceived .. | .linkLost .. | .linkUp ..
  | .halfResetCmd .. | .freqMonitorEval .. | .signalLost .. | .signalPresent .. | .qualTimeElapsed ..
  | .disqHoldElapsed .. | .agreeDwellElapsed .. | .adopt .. | .requal .. | .atomTelemetry .. | .weightUpdate ..
  | .loadInForce .. | .cisternSecond .. | .todMessage .. | .exchangeComplete .. | .comparisonPeriodStart .. | .loopUpdate .. | .dwellExpiry .. | .nowLatch ..
  | .sensorLost .. | .sensorPresent .. | .modelInst .. | .modelPersist .. | .learningPass .. | .efcTarget ..
  | .slPdsClr .. | .alarmFire .. | .jetStart .. | .started .. | .jetRestart ..
  | .packetBoundary .. | .linkDown .. | .portLinkUp .. | .pathHoldoffElapsed .. | .partnerTimeout ..
  | .pathSwitch .. | .esmcPdu .. | .esmcTo .. | .esmcInfoSend .. | .bwWindow .. | .followUpBuild ..
  | .foreignAnn .. | .unicastRequest .. | .unicastCancel .. | .grantCountdown .. | .ptpCancel ..
  | .clientAnnounce .. | .masterLost .. | .grantRequest .. | .clientDelayReq .. | .delayRespTimeout ..
  | .l1SyncSend .. | .ntsLaunch .. | .sweeperVisit .. | .epochAdv .. | .entryFetch .. | .nop .. | .fence ..
  | .fenceComplete .. | .timeRead .. | .eventArm .. | .alarmSet .. | .alarmCancel .. | .ptpSend .. | .rateSet ..
  | .keyDerive .. | .keyReplace .. | .cookieMint .. | .statsSnapshot .. | .logRead .. | .completionWrite ..
  | .irqCoalesceTimeout .. | .qStopped .. | .partitionReset .. | .queueOpTimeout .. | .tamper ..
  | .eraseComplete .. | .faultDetection .. | .faultMessageAccepted .. | .overflowMessage .. | .selftestResult ..
  | .engineWatchdog .. | .crossingTimeout .. | .mgtWdog .. | .aliveToggle .. | .domainDetection ..
  | .cisternDetection .. | .slDetection .. | .halfDetection .. | .captureDetection .. | .tdcCalDetection ..
  | .jetDetection .. | .portDetection .. | .ptpDetection .. | .ftnDetection .. | .hpDetection .. | .keyDetection ..
  | .fltDetection .. | .mgtDetection .. | .cntDetection .. | .railCrossing .. | .logRecordWrite .. | .getInfo ..
  | .getSensors .. | .getChallenge .. | .clearLatch .. | .chipReset .. | .restartMgt .. | .updateBegin ..
  | .updateEnd .. | .confirm .. | .svnCommit .. | .enterRma .. | .decommission .. | .pageSoftReset ..
  | .selHoldElapsed .. | .pdsAgreeDwellElapsed .. | .jetFallingEdge .. | .pcieCompletionTimeout .. | .hiBer ..
  | .mgtEthFrame .. => true

end Sys2Proof
end

