-- ==== Sys2Proof/Tests/Slice0.lean ====
section
/-!
SUPPORT. Tests: ill-formed commands that the check refuses, values worked out in the spec, one step each; and for every
statement states and operands that meet its hypotheses together, clause by clause.
-/

set_option Elab.async false

namespace Sys2Proof.Tests

open Sys2Proof Sys2Proof.Machine

/-! ## Small states -/

/-- Whole accesses of partition 0, of 32 and of 64 bits; one that comes after the capture point. -/
def acc : Access := { part := 0, width := 4, be := 0xFF, late := false }
def acc8 : Access := { part := 0, width := 8, be := 0xFF, late := false }
def accLate : Access := { part := 0, width := 4, be := 0xFF, late := true }
/-- A whole access of BAR2. -/
def accBar : Access := { acc with bar2 := true }

/-- A half whose Lath has locked on its primary line. -/
def hOn : HalfSt :=
  { role := .peer, linkUp := true, selftestOk := true, selftestDone := true,
    lath := { st := .primary, locked := true, src := 1, standbyLock := true, primaryLock := true, cls := 3,
              classified := true, xoOk := true } }

/-- A module that runs: both feeds, both halves, start-up complete, partition 0 and 1 linked, half A followed. -/
def up : State :=
  { State.reset with
    pwr := { state := .run, feeds := ⟨{ detected := true, mv := 12000 }, { detected := true, mv := 12000 }⟩, startStep := 6,
             half := ⟨.on, .on⟩, vaux := true, pcieUp := true, lathClock := true },
    halves := ⟨hOn, hOn⟩,
    parts := Vector.replicate 4 { linkUp := true, bme := true },
    arb := { active := some .A, clock := some .A, claims := ⟨some 0xE1, some 0xE0⟩, acted := ⟨some 0xE1, some 0xE0⟩ },
    mgt := { running := true, image := .regionA, admin := some 0 } }

/-- Partition 0 owns a page. -/
def own (pg : Nat) (s : State) : State := s.modPage pg (fun p => { p with owner := 0 })

/-- A register holds a word. -/
def withReg (pg o : Nat) (v : Word) (s : State) : State := s.setReg pg o v

/-- Jet 15 enabled and running. -/
def jetRuns : State :=
  (up.modPage 0x6F (fun p => { p with en := true })).modJet 15 (fun x => { x with phase := .run, half := some .A })

/-- Jet 15 disabled, its last pulse still on. -/
def jetStops : State := up.modJet 15 (fun x => { x with phase := .run, half := some .A, stop := true })

/-- Feed A alone. -/
def oneFeed : State := { up with pwr := { up.pwr with feeds := ⟨{ detected := true, mv := 12000 }, {}⟩, state := .reduced } }

/-- Half B in a power state. -/
def halfSt (x : HalfPwr) : State := { up with pwr := { up.pwr with half := ⟨.on, x⟩, state := .reduced } }

/-- Start-up has reached a step. -/
def atStep (n : Nat) : State :=
  { State.reset with
    pwr := { state := .boot, feeds := ⟨{ detected := true, mv := 12000 }, {}⟩, startStep := n },
    keys := { measLocked := decide (4 ≤ n), storeLoaded := decide (4 ≤ n) },
    mgt := { image := .regionA } }

/-- Every tamper source has one response. -/
def tampAs (r : Nat) : State :=
  { up with keys := { tampCfg := BitVec.ofNat 32 (r * 0x15555) } }

/-- Port 0 with lanes 0 and 1 as its two paths. -/
def paired : State := up.setReg 0x70 0x040 0x1101

/-! ## Witnesses: the queue, the clock, the numbers -/

theorem witness_IdleStepsAreCycles :
    up.pending = [] ∧ up.gridOn .A = true ∧ State.reset.pending = [] ∧ State.reset.gridOn .A = false ∧
    State.reset.halfOn .A = false ∧ (up.modLath .B (fun x => { x with locked := false })).gridOn .B = false ∧
    (up.modLath .B (fun x => { x with locked := false })).halfOn .B = true ∧
    ((up.modLath .B (fun x => { x with locked := false })).lath .B).src ≠ 0 ∧
    ((State.reset.now + 1) % 800000 ≠ 0 ∧ State.reset.mgt.running = false) := by decide +kernel

theorem witness_CommandsWriteOnlyTheirAreas :
    (∃ t, exec (.sweeperVisit 0) State.reset = .next t) ∧ (writesOf (.sweeperVisit 0)).contains .pwr = false :=
  ⟨⟨_, rfl⟩, by decide +kernel⟩

theorem witness_FusesNeverFall : fusesAtLeast 0 1 up ∧ ∃ t, step up = .next t :=
  ⟨⟨by decide, by decide, by decide⟩, _, rfl⟩

theorem witness_TablesStayCanonical :
    KMap.wf opReset (up.setOp 511 (some { part := 0, q := 0, words := Vector.replicate 16 0, order := 0, shared := false })).ops = true ∧
    KMap.wf flashReset [(0, 0), (0xFFFFF, 0x12)] = true ∧ ∃ t, step up = .next t :=
  ⟨by decide +kernel, by decide +kernel, _, rfl⟩

theorem witness_BoundCodesRoundUp :
    codePs 0 < codePs 0xFFFF ∧ (1500000 : Rat) ≤ codePs 0xA372 ∧ (1500000 : Rat) ≤ codePs 0xFFFE ∧
    codePs 0xFFFE < codePs 0xFFFE + 1 ∧ (0 : Rat) ≤ 1 := by decide +kernel

theorem witness_WeirBoundsEveryMove :
    (0 : Rat) ≤ 1 / 10000000 ∧ (0 : Rat) ≤ 1 / 2 ∧ rateMin ≤ 0 ∧ (0 : Int) ≤ rateMax ∧ rateMin ≤ rateMin ∧ rateMin ≤ rateMax ∧
    (weirPass 0 1 0 100 1 (1 / 2)).2.2.1 = false ∧ (weirPass 0 1 0 100 1 (1 / 2)).2.2.2 = false := by decide +kernel

theorem witness_BoundariesComeWhenDue :
    up.gridOn .A = true ∧ 0 < (up.half .A).grid ∧ 0 ≤ (up.half .A).gphase ∧ (up.half .A).gphase < 1 ∧
    0 < tickT (up.dom .A 0).rate ∧ 0 < up.cyclesToBeat .A 0 := by decide +kernel

/-! ## Witnesses: registers -/

theorem witness_WriteOnceRegistersTakeOneWrite :
    Allowed acc (pgTd 0) 0x060 0x701 (own 0x40 up) ∧
    ((own 0x43 (up.modPage 0x43 (fun p => { p with woDone := [0x060] }))).hostUp acc.part = true ∧ acc.width = 4 ∧
      fullBe acc = true ∧ (own 0x43 (up.modPage 0x43 (fun p => { p with woDone := [0x060] }))).owns acc.part (pgTd 3) = true ∧
      ((own 0x43 (up.modPage 0x43 (fun p => { p with woDone := [0x060] }))).page (pgTd 3)).lock = false ∧
      ((own 0x43 (up.modPage 0x43 (fun p => { p with woDone := [0x060] }))).page (pgTd 3)).woDone.contains 0x060 = true) ∧
    (regAt? 0x40 0x060).map (fun r => decide (r.wo ≠ 0)) = some true := by
  unfold Allowed; decide +kernel

theorem witness_FirstCauseInOrder :
    firstCause [] = none ∧ firstCause [.lockViol, .readOnly] = some .readOnly := by decide +kernel

def oneErr : BusErr := { cause := .absent, isWrite := true, lost := 0, seq := none, be := 0, off := 0, ident := 0 }

theorem witness_BusErrorsChangeNoRegister :
    (acc.bar2 = false ∧ up.hostUp acc.part = true ∧ 0x40060 < 2 ^ 20 ∧ 0x40060 % 4 + acc.width ≤ 4 ∧
      firstCause (sizeCauses acc 0x40060 ++ wordCauses up acc.part (0x40060 / 4 * 4) ((1 : BitVec 64).extractLsb' 0 32)) =
        some .absent ∧
      (pageKind (0x40060 / 4096)).isSome = true ∧ up.visible acc.part (0x40060 / 4096) = false) ∧
    (firstCause (sizeCauses acc 0x40010 ++ wordCauses (own 0x40 up) acc.part 0x40010 1) = some .readOnly ∧
      (own 0x40 up).visible acc.part (0x40010 / 4096) = true ∧ ((own 0x40 up).part acc.part).busLog.length < 16) ∧
    ((up.modPart 0 (fun x => { x with busLog := List.replicate 16 oneErr })).part 0).busLog.length ≥ 16 ∧
    0x40064 % 4 + acc.width ≤ 4 ∧ (((own 0x40 up).modPage 0x40 (fun p => { p with lock := true })).page (0x40064 / 4096)).lock = true ∧
    ((own 0x40 up).modPage 0x40 (fun p => { p with lock := true })).visible acc.part (0x40064 / 4096) = true ∧
    pageKind 0x40 = some (.td 0) ∧ (regRow? (.td 0) 0x060).isSome = true ∧ lockExempt (.td 0) 0x060 = false ∧
    firstCause (allReadCauses (own 0x40 up) { acc with width := 2 } 0x40063) = some .spanning ∧
    firstCause (allReadCauses up acc 0x40060) = some .absent ∧
    firstCause (allReadCauses up { acc with width := 16 } 0x40060) = some .oversize := by
  decide +kernel

theorem witness_WritesOfOneAndTwoWords :
    Allowed acc pgCnt 0x080 1 (own 0xD0 up) ∧ Allowed acc pgCnt 0x0A8 1 (own 0xD0 up) ∧
    (acc.bar2 = false ∧ up.hostUp acc.part = true ∧ acc.width = 4 ∧ fullBe acc = true ∧
      wordCauses (own 0x40 up) acc.part 0x40050 ((1 : BitVec 64).extractLsb' 0 32) = []) ∧
    (accBar.bar2 = true ∧ up.hostUp accBar.part = true ∧ accBar.width = 4 ∧ 0x3FFC < 2 ^ 14 ∧ 0x3FFC % 4 = 0) ∧
    (up.hostUp acc8.part = true ∧ acc8.width = 8 ∧ fullBe acc8 = true ∧ widePair? 0x40050 = none ∧
      wordCauses (own 0x40 up) acc8.part 0x40050 ((1 : BitVec 64).extractLsb' 0 32) = [] ∧
      wordCauses (writeWord acc8 {} 0x40050 1 (own 0x40 up)) acc8.part 0x40054 0 = []) := by
  unfold Allowed; decide +kernel

theorem witness_WritesOfWidePairs :
    widePair? 0x60048 = some (0x3FFFFFFF, 0xFFFF) ∧ acc8.width = 8 ∧ 0x60048 % 8 = 0 ∧
    wordCauses (own 0x60 up) acc8.part 0x60048 1 = [] ∧
    wordCauses (writeWord acc8 {} 0x60048 1 (own 0x60 up)) acc8.part 0x6004C 0 = [] := by
  decide +kernel

theorem witness_PageControlWrites :
    Allowed acc 0x40 0x00C (0x80000000 ||| flagAt ((own 0x40 up).page 0x40).en 0) (own 0x40 up) ∧
    (Allowed acc 0x22 0x00C (flagAt false 0) (own 0x22 up) ∧ pageKind 0x22 = some (.rs 2)) ∧
    (Allowed acc 0x63 0x00C (flagAt true 0) (own 0x63 up) ∧ pageKind 0x63 = some (.jet 3) ∧ ((own 0x63 up).page 0x63).en = false) ∧
    (Allowed acc 0x6F 0x00C (flagAt false 0) (own 0x6F jetRuns) ∧ pageKind 0x6F = some (.jet 15) ∧
      ((own 0x6F jetRuns).page 0x6F).en = true ∧ ((own 0x6F jetRuns).jet (Fin.ofNat 16 15)).phase ≠ .off) ∧
    (Allowed acc 0x6F 0x00C (flagAt true 0) (own 0x6F jetStops) ∧ ((own 0x6F jetStops).page 0x6F).en = false ∧
      ((own 0x6F jetStops).jet (Fin.ofNat 16 15)).phase = .run ∧ ((own 0x6F jetStops).jet (Fin.ofNat 16 15)).stop = true) ∧
    (Allowed acc 0x63 0x00C (flagAt false 0) (own 0x63 (up.modPage 0x63 (fun p => { p with en := true }))) ∧
      ((own 0x63 (up.modPage 0x63 (fun p => { p with en := true }))).page 0x63).en = true ∧ (up.jet (Fin.ofNat 16 3)).phase = .off) ∧
    (Allowed acc 0x7F 0x00C (flagAt false 0) (own 0x7F up) ∧ pageKind 0x7F = some (.lp 15) ∧ ((own 0x7F up).page 0x7F).en = true ∧
      Allowed acc 0x7F 0x00C (flagAt true 0) (own 0x7F up)) ∧
    (Allowed acc 0xA0 0x00C (flagAt true 0) (own 0xA0 up) ∧ pageKind 0xA0 = some .ftn) ∧
    (Allowed acc 0xD0 0x00C (flagAt true 0) (own 0xD0 up) ∧ pageKind 0xD0 = some .cnt) ∧
    (Allowed acc 0xD0 0x00C (0x2 ||| flagAt ((own 0xD0 up).page 0xD0).en 0) (own 0xD0 up) ∧ pageKind 0xD0 = some .cnt) ∧
    ((up.modPage 0x40 (fun p => { p with srst := true })).page 0x40).srst = true ∧
    (0x40 ≠ pgFtn ∧ (up.page pgFtn).en = true ∧ ((up.modPage pgFtn (fun p => { p with en := false })).page pgFtn).en = false) := by
  unfold Allowed; and_intros <;> decide +kernel

theorem witness_EventsAndInjections :
    Allowed acc 0x70 0x014 0x00FFFFFF (own 0x70 up) ∧
    (Allowed acc 0x70 0x01C 1 (own 0x70 up) ∧ causeRemains 0x70 (own 0x70 up) = false) ∧
    causeRemains 0x70 (up.modPage 0x70 (fun p => { p with injArm := true, injCont := true })) = true ∧
    Allowed acc 0x70 0x020 (0x200 ||| flagAt false 8 ||| (4 : Byte).setWidth 32) (own 0x70 up) ∧
    Allowed acc 0x70 0x020 (0x200 ||| flagAt true 8 ||| (0 : Byte).setWidth 32) (own 0x70 up) ∧
    (pageKind 0x70 = some (.lp 0) ∧ pageKind 0x3F = some (.rs 31)) ∧
    Allowed acc 0x3F 0x020 (0x200 ||| flagAt false 8 ||| (1 : Byte).setWidth 32) (own 0x3F up) := by
  unfold Allowed; decide +kernel

/-- An injection on a slot's page waits for the boundary on a half that runs, and has none to wait for where no half does. -/
theorem witness_InjectionsWait :
    ((detect 0x3F 1 0 (up.modSlot .B 31 (fun x => { x with st := 1 }))).slot .B (Fin.ofNat 32 31)).pend.inj ≠ [] ∧
    (∀ h, ((detect 0x3F 1 0 State.reset).slot h (Fin.ofNat 32 31)).pend.inj = []) := by
  refine ⟨by decide +kernel, fun h => ?_⟩
  cases h <;> decide +kernel

theorem witness_ApplyHoldsAndDiscards :
    Allowed acc 0x41 0x024 1 (own 0x41 up) ∧ acc.late = false ∧
    (Allowed accLate 0x41 0x024 1 (own 0x41 up) ∧ accLate.late = true ∧ ((own 0x41 up).page 0x41).hold = false ∧
      ((own 0x41 up).page 0x41).captured = none) ∧
    Allowed acc 0x41 0x024 0 (own 0x41 up) ∧
    ((up.modPage 0x41 (fun p => { p with captured := some [(0x040, 1)] })).page 0x41).captured ≠ none ∧
    Allowed acc 0x41 0x024 (0x2 ||| flagAt ((own 0x41 up).page 0x41).hold 0) (own 0x41 up) ∧
    (((up.modPage 0x41 (fun p => { p with hold := true, shadow := [(0x040, 1)] })).page 0x41).waiting = [(0x040, 1)] ∧
      immediateNow (up.modPage 0x41 (fun p => { p with hold := true, shadow := [(0x040, 1)] })) 0x41 0x040 = false) ∧
    (((up.modPage 0x7F (fun p => { p with en := false, hold := true, shadow := [(0x044, 1)] })).page 0x7F).waiting = [(0x044, 1)] ∧
      immediateNow (up.modPage 0x7F (fun p => { p with en := false, hold := true, shadow := [(0x044, 1)] })) 0x7F 0x044 = true) ∧
    (servePage 0x41 = false ∧ servePage pgPtp = true) := by
  unfold Allowed; decide +kernel

/-- Port 15 runs and has a word of the PTP page to take, HOLD as given. -/
def served (hold : Bool) : State :=
  own pgPtp (((up.modPath 15 .A (fun x => { x with link := true })).modPort 15 (fun x => { x with waitP := { wait := [(0x2E0, 1)] } })).modPage
    pgPtp (fun p => { p with hold := hold, shadow := [(0x2E0, 1)] }))

theorem witness_ServingPagesHoldAndDiscard :
    (Allowed accLate pgPtp 0x024 1 (served false) ∧ (served false).missed accLate 15 = true ∧
      ((served false).port 15).waits pgPtp = { wait := [(0x2E0, 1)] } ∧ ((served false).page pgPtp).hold = false) ∧
    (Allowed acc pgPtp 0x024 0 (served true) ∧ ((served true).page pgPtp).waiting = [(0x2E0, 1)] ∧
      immediateNow ((served true).holdServe pgPtp false acc) pgPtp 0x2E0 = false) ∧
    (immediateNow ((((served true).modPage (pgLp 15) (fun p => { p with en := false }))).holdServe pgPtp false acc) pgPtp 0x2E0 = true ∧
      Allowed acc pgPtp 0x024 0 ((served true).modPage (pgLp 15) (fun p => { p with en := false }))) ∧
    Allowed acc pgPtp 0x024 (0x2 ||| flagAt ((served true).page pgPtp).hold 0) (served true) := by
  unfold Allowed; decide +kernel

theorem witness_IndirectAccessStagesAndAdvances :
    Allowed acc pgCis 0x028 0xFFFFFFFF (own pgCis up) ∧ Allowed acc pgCis 0x030 0x101 (own pgCis up) ∧
    (Allowed acc pgCis 0x02C 5 (own pgCis up) ∧ (own pgCis up).tableOf 0 pgCis = some ⟨16, 1, true⟩ ∧
      ((own pgCis up).trio 0 pgCis).addr.toNat % 16 + 1 ≠ 16) ∧
    (Allowed acc (pgHp 0) 0x02C 3 (own (pgHp 0) up) ∧ ((own (pgHp 0) up).trio 0 (pgHp 0)).table = 0) ∧
    (ReadAllowed acc (pgCis * 4096 + 0x02C) (own pgCis up) ∧ pageKind pgCis = some .cis) := by
  unfold Allowed ReadAllowed; decide +kernel

theorem witness_PopsTakeTheOldestEntry :
    ReadAllowed acc8 (pgLp 15 * 4096 + 0x410) (own (pgLp 15) up) ∧ (up.port 15).txq = [] ∧
    ((up.pushTx 15 (TxEnt.unsent 0 7)).port 15).txq ≠ [] ∧
    ReadAllowed acc8 (pgCap 7 * 4096 + 0x060) (own (pgCap 7) up) ∧ (up.cap 7).fifo = [] ∧
    ReadAllowed acc8 (pgFlt * 4096 + 0x080) (own pgFlt up) ∧ up.flt.log = [] ∧
    ReadAllowed acc8 (pgHp 0 * 4096 + 0x7C0) (own (pgHp 0) up) ∧ (up.part 0).busLog = [] ∧
    ((up.modPart 0 (fun x => { x with busLog := [oneErr] })).part 0).busLog ≠ [] ∧
    (accBar.bar2 = true ∧ up.hostUp accBar.part = true ∧ acc8.bar2 = false) ∧
    (ReadAllowed { acc with width := 1 } (pgTd 3 * 4096 + 0x001) (own (pgTd 3) up) ∧ readsPair (pgTd 3 * 4096 + 0x001) = false) ∧
    (ReadAllowed acc (pgTd 3 * 4096 + 0x040) (own (pgTd 3) up) ∧ readsPair (pgTd 3 * 4096 + 0x040) = false) ∧
    (up.hostUp 0 = true ∧ (own (pgTd 3) up).visible 0 (pgTd 3) = true ∧ up.busHalf ≠ none) := by
  unfold ReadAllowed; decide +kernel

/-! ## Witnesses: power, boot, keys -/

theorem witness_PowerOnAndResets :
    ((State.reset.pwr.feeds.of .A).detected = false ∧ (State.reset.pwr.feeds.of .A).tripped = false ∧ 5600 < 5601 ∧
      State.reset.pwr.state = .standby) ∧
    ((up.pwr.feeds.of .A).detected = true ∧ (up.pwr.feeds.of .B).detected = true ∧ up.pwr.half.of .A = .on) ∧
    ((oneFeed.pwr.feeds.of .A).detected = true ∧ (oneFeed.pwr.feeds.of .B).detected = false) ∧
    up.pwr.state ≠ .standby := by decide +kernel

theorem witness_HalvesArePoweredAndWatched :
    (halfSt .failing).pwr.half.of .B = .failing ∧
    ((halfSt .off).mayPower .B = true ∧ (halfSt .off).pwr.half.of .B = .off ∧ (halfSt .off).pwr.state ≠ .standby ∧
      (halfSt .off).pwr.state ≠ .boot) ∧
    up.pwr.half.of .A = .on ∧ (halfSt .held).pwr.half.of .B = .held ∧ up.mayPower .A = true ∧ up.pwr.state ≠ .standby ∧ 2099 < 2100 ∧ up.pwr.vbatLow = false ∧
    up.pwr.vaux = true ∧
    ((atStep 2).pwr.startStep = 2 ∧ (atStep 2).pwr.state = .boot ∧ (atStep 2).pwr.resetLow = false ∧
      (atStep 2).pwr.commonHot = false ∧ (atStep 2).pwr.feeds.a.detected = true) := by decide +kernel

theorem witness_StartUpMeasuresAndRuns :
    (up.mgt.running = true ∧ up.keys.measLocked = false ∧ up.pwr.state ≠ .sealed ∧ (atStep 4).mgt.image ≠ .none) ∧
    ({ up with keys := { measLocked := true } } : State).keys.measLocked = true ∧
    ((atStep 3).pwr.startStep = 3 ∧ (atStep 3).pwr.resetLow = false) ∧
    ((atStep 4).pwr.startStep = 4 ∧ (atStep 4).mgt.running = false ∧ (atStep 4).mgt.image = .regionA) ∧
    ((atStep 4).keys.measLocked = true ∧ (atStep 4).keys.storeLoaded = true ∧ (atStep 4).pwr.state = .boot ∧
      (atStep 4).mgt.image ≠ .recovery ∧ (atStep 4).mgt.bootFails < 3) := by decide +kernel

theorem witness_KeysAreErasedOnTamperAndCommand :
    (up.pwr.state ≠ .standby ∧ (up.pwr.feeds.a.detected || up.pwr.feeds.b.detected) = true ∧
      2 ≤ tampResp (tampAs 2) 0 ∧ tampResp (tampAs 3) 8 = 3) ∧
    (State.reset.pwr.state = .standby ∧ islandSrc 5 = true ∧
      2 ≤ tampResp { State.reset with keys := (tampAs 3).keys } 5) ∧
    tampResp (tampAs 0) 8 = 0 ∧ ({ up with keys := { erasing := true } } : State).keys.erasing = true ∧
    Allowed acc pgKey 0x044 (BitVec.ofNat 32 63) (own pgKey up) ∧ Allowed acc pgKey 0x044 0x100 (own pgKey up) := by
  unfold Allowed; decide +kernel
/-! ## Witnesses: the Lath, the arbiters, the halves -/

/-- Half B's Lath changed. -/
def lathB (f : Lath → Lath) : State := up.modLath .B f

theorem witness_LathStartsInOrder :
    ((halfSt .held).pwr.half.of .B = .held ∧ (halfSt .held).pwr.resetLow = false) ∧
    ((lathB (fun _ => {})).halfOn .B = true ∧ ((lathB (fun _ => {})).lath .B).standbyLock = false ∧
      ((lathB (fun _ => {})).lath .B).st = .acquire ∧ ((lathB (fun _ => {})).lath .B).xoTimeout = false) ∧
    (((lathB (fun _ => { xoTimeout := true })).lath .B).xoTimeout = true) ∧
    (((lathB (fun x => { x with st := .standby, cls := 0 })).lath .B).st = .standby ∧
      ((lathB (fun x => { x with st := .standby, cls := 0 })).lath .B).cls = 0) ∧
    (((lathB (fun _ => { cls := 1 })).lath .B).cls ≠ 0 ∧ ((lathB (fun _ => { cls := 1 })).lath .B).primaryLock = false) ∧
    (((lathB (fun _ => { cls := 3, primaryLock := true })).lath .B).cls ≠ 0 ∧
      ((lathB (fun _ => { cls := 3, primaryLock := true })).lath .B).primaryLock = true ∧
      ((lathB (fun _ => { cls := 3, primaryLock := true })).lath .B).locked = false) ∧
    (((lathB (fun _ => { classified := true, standbyLock := true })).lath .B).cls = 0 ∧
      ((lathB (fun _ => { classified := true, standbyLock := true })).lath .B).classified = true ∧
      ((lathB (fun _ => { classified := true, standbyLock := true })).lath .B).standbyLock = true) ∧
    (((lathB (fun _ => { classified := true })).lath .B).classified = true ∧
      ((lathB (fun _ => { classified := true })).lath .B).standbyLock = false) := by decide +kernel

theorem witness_LathLosesAndReturns :
    (up.halfOn .B = true ∧ (up.lath .B).cls ≠ 0 ∧ (up.lath .B).primaryLock = true ∧ (up.lath .B).st = .primary ∧
      (up.lath .B).xoOk = true ∧ (up.lath .B).standbyLock = true ∧ ((lathB (fun x => { x with cls := 0 })).lath .B).cls = 0 ∧
      (up.lath .B).lossInj = false ∧ ((lathB (fun x => { x with lossInj := true })).lath .B).lossInj = true) ∧
    ((lathB (fun x => { x with xoOk := false })).gridOn .B = true ∧ ((lathB (fun x => { x with xoOk := false })).lath .B).xoOk = false) ∧
    ((lathB (fun x => { x with st := .returning })).gridOn .B = true ∧
      ((lathB (fun x => { x with st := .returning })).lath .B).st = .returning) ∧
    ((lathB (fun x => { x with st := .coast })).gridOn .B = true ∧ ((lathB (fun x => { x with st := .coast })).lath .B).st = .coast ∧
      (rescale 0 0 < rateMin) = false ∧ (rateMax < rescale 0 0) = false) ∧
    (((lathB (fun x => { x with st := .returning, qualified := true, returnOk := true })).lath .B).qualified = true ∧
      ((lathB (fun x => { x with st := .returning, qualified := true, returnOk := true })).lath .B).returnOk = true) := by
  decide +kernel

theorem witness_QualificationAndHalfResets :
    ((lathB (fun x => { x with st := .returning })).gridOn .B = true ∧
      (up.fieldAt pgLath 0x048 15 8 : Rat) * tenth 7 < absQ ((1 + rateQ (2 ^ 50 : Nat)) * (1 + rateQ 0) - 1)) ∧
    (absQ ((1 + rateQ (0 : Nat)) * (1 + rateQ 0) - 1) ≤ (up.fieldAt pgLath 0x048 15 8 : Rat) * tenth 7 ∧
      ((lathB (fun x => { x with st := .returning })).lath .B).windows = [] ∧ up.fieldAt pgLath 0x048 5 0 ≠ 0 ∧
      (up.setReg pgLath 0x048 0x00643200).fieldAt pgLath 0x048 5 0 = 0) ∧
    (up.pwr.half.of .B = .on ∧ up.halfOn .B = true ∧ (halfSt .off).pwr.half.of .B ≠ .on ∧ up.gridOn .B = true ∧
      (up.lath .B).st ≠ .returning) ∧ (lathB (fun x => { x with st := .fail })).halfOn .B = true ∧
    ((lathB (fun x => { x with st := .returning, windows := [2 ^ 40] })).lath .B).windows.head? = some (2 ^ 40) ∧
    ((lathB (fun x => { x with st := .fail })).lath .B).st = .fail ∧ (up.setReg pgHalf 0x040 0x110A0088).bitAt pgHalf 0x040 28 = true ∧
    (up.setReg pgHalf 0x040 0).bitAt pgHalf 0x040 28 = false := by decide +kernel

/-- The arbiters have seen no claim yet. -/
def unclaimed : State := { up with arb := { up.arb with claims := ⟨none, none⟩, acted := ⟨none, none⟩ } }

theorem witness_ClaimsDriveTheArbiters :
    (up.arb.parity.of .A = false ∧ up.claimOf .A = some (up.claimNum .A) ∧
      (unclaimed).arb.claims.set .A (up.claimOf .A) ≠ (unclaimed).arb.acted) ∧
    ({ up with arb := { up.arb with persist := true } } : State).arb.persist = true ∧
    ({ up with arb := { up.arb with parity := ⟨true, false⟩ } } : State).arb.parity.of .A = true ∧
    (0x7F : BitVec 8).toNat < (0x80 : BitVec 8).toNat ∧
    (up.followed = some .A ∧ ({ up with arb := { up.arb with active := some .B } } : State).busHalf ≠ some .A ∧
      up.busHalf = some .A) ∧
    (up.pwr.lathClock = true ∧ ({ up with arb := { up.arb with clock := some .B } } : State).arb.clock ≠ some .A) := by
  decide +kernel

/-- Both halves changed alike. -/
def halves (f : HalfSt → HalfSt) : State := { up with halves := ⟨f hOn, f hOn⟩ }

/-- Half B alone changed. -/
def halfB (f : HalfSt → HalfSt) : State := up.modHalf .B f

theorem witness_DigestsAndTheLinkKeepStep :
    ((halves (fun x => { x with digest := some 5 })).comparing = true ∧
      ((halves (fun x => { x with digest := some 5 })).half .B).digest = some 5) ∧
    (up.half .B).digest = none ∧
    (1024 ≤ ((halves (fun x => { x with matchRun := 1024 })).half .A).matchRun ∧
      ((halves (fun x => { x with matchRun := 1024 })).half .A).peerOk = false ∧
      (halves (fun x => { x with matchRun := 1024 })).comparing = true) ∧
    (((halves (fun x => { x with divTest := .transient, divClaim := some 1 })).half .A).divTest = .transient ∧
      winner ⟨some 1, some 1⟩ = some .B ∧
      ((halves (fun x => { x with divTest := .transient, divClaim := some 1 })).half .A).linkUp = true ∧
      ((halves (fun x => { x with divTest := .transient, divClaim := some 1 })).half .B).role = .peer) ∧
    ((halfB (fun x => { x with selftestDone := false })).gridOn .B = true ∧
      ((halfB (fun x => { x with selftestDone := false })).half .B).selftestDone = false) ∧
    (up.halfOn .A = true ∧ up.halfOn .B = true ∧ (up.half .B).linkUp = true ∧ (up.half .A).role = .peer ∧
      (up.half .B).role = .peer ∧ up.pwr.half.a = .on ∧ up.pwr.half.b = .on) ∧
    ((up.half .A).hbSent ≤ (up.half .B).hbAt + 1 ∧
      (up.half .B).hbAt + 1 < ((halves (fun x => { x with hbSent := 2 })).half .A).hbSent) ∧
    (((halves (fun x => { x with linkUp := false, hbGood := 16, role := .split })).half .B).linkUp = false ∧
      16 ≤ ((halves (fun x => { x with linkUp := false, hbGood := 16, role := .split })).half .B).hbGood ∧
      ((halves (fun x => { x with linkUp := false, hbGood := 16, role := .split })).half .A).role = .split ∧
      winner ⟨(halves (fun x => { x with linkUp := false, hbGood := 16, role := .split })).claimOf .A,
        (halves (fun x => { x with linkUp := false, hbGood := 16, role := .split })).claimOf .B⟩ = some .A) := by
  decide +kernel

theorem witness_HalvesLoadAndJoin :
    ((halfB (fun x => { x with role := .test })).gridOn .B = true ∧ ((halfB (fun x => { x with role := .test })).half .B).linkUp = true ∧
      (up.half .A).publishes = true ∧ ((halfB (fun x => { x with role := .test })).half .B).selftestOk = true) ∧
    (((halfB (fun x => { x with role := .loading, load := some { started := true, got := 31 } })).half .B).load =
      some { started := true, got := 31 }) ∧
    (((halfB (fun x => { x with role := .loading, load := some { started := true, got := 32 } })).half .B).load =
      some { started := true, got := 32 } ∧
      (halfB (fun x => { x with role := .loading, load := some { started := true, got := 32 } })).suspended = false) ∧
    (((halfB (fun x => { x with role := .holdoff, holdBeats := 10240 })).half .B).role = .holdoff ∧
      up.fieldAt pgHalf 0x040 23 16 * 1024 ≤ 10240 ∧ up.publishing .A = true ∧
      ((halfB (fun x => { x with role := .holdoff, holdBeats := 10240, linkUp := false })).half .B).linkUp = false) := by
  decide +kernel

/-! ## Witnesses: slots, domains, holdover -/

/-- Slot 8 of half B changed. -/
def slotB (n : SlotNo) (f : SlotSt → SlotSt) : State := up.modSlot .B n f

/-- A state with slot 31 assigned to domain 3 alone, MONITOR on half B. -/
def mon31 : State := (slotB 31 (fun x => { x with st := 1 })).setReg (pgRs 31) 0x040 0xF8000000

/-- Slots 8 and 30 likewise, RS30 in FREQ with ATOM_CLK enabled. -/
def mon8 : State := (slotB 8 (fun x => { x with st := 1 })).setReg (pgRs 8) 0x040 0xF8000000
def mon30 : State :=
  ((slotB 30 (fun x => { x with st := 1 })).setReg (pgRs 30) 0x040 0xF8000000).setReg (pgRs 30) 0x070 0x10

theorem witness_ObservationsAreHeld :
    (isPtp 31 = false ∧ (mon31.view .B).labelled 31 = false ∧ mon31.gridOn .B = true ∧ (mon31.slot .B 31).st ≠ 0 ∧
      (mon31.slot .B 31).skip = false ∧ (3 : Dom) ∈ (mon31.view .B).slotDoms 31 ∧ (3 : Dom) ∈ mon31.slotDoms 31 ∧
      ([1, 2, 3, 4] : List Int)[(3 : Dom).val]? = some 4) ∧
    (isPtp 8 = false ∧ (mon8.view .B).labelled 8 = true ∧ mon8.gridOn .B = true ∧ (mon8.slot .B 8).skip = false ∧
      (mon8.slot .B 8).nextSec = none ∧ (3 : Dom) ∈ (mon8.view .B).slotDoms 8) ∧
    ((mon30.view .B).bitAt (pgRs 30) 0x070 4 = true ∧ mon30.gridOn .B = true ∧ (mon30.slot .B 30).st ≠ 0 ∧
      (mon30.slot .B 30).skip = false ∧ (3 : Dom) ∈ (mon30.view .B).slotDoms 30) ∧
    isPtp (clSlot 0) = true ∧ mon31.slotClass 10 = 2 ∧ mon31.slotClass 0 = 1 ∧ mon31.slotClass 8 = 0 := by decide +kernel

theorem witness_SlotEventsAndCommandsAct :
    (up.halfOn .B = true ∧ ((slotB 0 (fun x => { x with st := 1 })).slot .B 0).st ≠ 0) ∧
    (up.gridOn .B = true ∧ (up.page (pgRs 31)).en = true ∧ (up.slot .B 31).present = false ∧ up.presenceOk .B 31 = true) ∧
    ((slotB 31 (fun x => { x with st := 2 })).slot .B 31).st = 2 ∧ ((slotB 31 (fun x => { x with st := 5 })).slot .B 31).st = 5 ∧
    ((slotB 31 (fun x => { x with st := 4 })).slot .B 31).st = 4 ∧
    (8 : BitVec 4).getLsbD (3 : ClNo).val = true ∧ (8 : BitVec 4).getLsbD (0 : ClNo).val = false ∧
    (0 < ((slotB (clSlot 3) (fun x => { x with held := 1, heldBeats := 10240 })).slot .B (clSlot 3)).held ∧
      up.fieldAt (pgRs (clSlot 3)) 0x05C 23 16 * 1024 ≤ 10240) := by decide +kernel

/-- Slot 0 of half B in one domain alone, with two observations a second apart. -/
def monB (e0 e1 : Obs) (t : Nat) : State :=
  ((up.setReg (pgRs 0) 0x040 0x11000000).modSlot .B 0
    (fun x => { x with st := 3, dom := setAt x.dom 0 { obs := [e1, e0] } })).modDom .B 0 (fun y => { y with t := t })

def ob (x : Int) (coast : Rat) (el : Nat) : Obs := { x := x, coast := coast, el := el, acc := 0, per := 0, fit := true }

/-- Observations over a window of `t` fs, and the limits of RS0 at 10⁻⁹. -/
def monW (t : Nat) : State :=
  (monB (ob 0 0 1) (ob 900000000 900000000 (t / 2)) t).setReg (pgRs 0) 0x054 0x0290A429

theorem witness_MonitorsEvaluateWindows :
    ((monW secondT).gridOn .B = true ∧ ((monW secondT).slot .B 0).st ≠ 0 ∧ ((monW secondT).view .B).taiSet 0 = true ∧
      ((monW secondT).view .B).slotDoms 0 = [0] ∧ ((monW secondT).view .B).windowReady .B 0 0 1 = true ∧
      ((monW secondT).view .B).flimAt 0 9 0 ≠ 0 ∧
      ((monW secondT).view .B).flimAt 0 9 0 < absQ (((monW secondT).view .B).freqOver .B 0 0 1) ∧
      ((monW secondT).slot .B 0).live = true ∧ ((monW secondT).slot .B 0).pend.fail = none) ∧
    (((monW (64 * secondT)).view .B).windowReady .B 0 0 64 = true ∧ ((monW secondT).view .B).flimAt 0 19 10 ≠ 0 ∧
      ((monW (64 * secondT)).view .B).flimAt 0 19 10 < absQ (((monW (64 * secondT)).view .B).freqOver .B 0 0 64)) ∧
    (((monW (1024 * secondT)).view .B).windowReady .B 0 0 1024 = true ∧ ((monW secondT).view .B).flimAt 0 29 20 ≠ 0 ∧
      ((monW (1024 * secondT)).view .B).flimAt 0 29 20 < absQ (((monW (1024 * secondT)).view .B).freqOver .B 0 0 1024)) := by
  decide +kernel

/-- Noon, the leap second and its neighbours. -/
def noon : TodLabel := ⟨20000, 12, 0, 0⟩
def leap60 : TodLabel := ⟨20000, 23, 59, 60⟩

/-- The characters of a line of ASCII. -/
def ascii (s : String) : List Byte := s.toList.map (fun c => BitVec.ofNat 8 c.toNat)

/-- Slot 9 of half B in format 1 with an offset, its state changed. -/
def tod9 (f : SlotSt → SlotSt) : State := ((slotB 9 f).setReg (pgRs 9) 0x070 1).setReg (pgRs 9) 0x074 0x125

theorem witness_TimeOfDayAndTelemetry :
    (up.gridOn .B = true ∧ todSlot 1 = 9 ∧ ((tod9 id).view .B).fieldAt (pgRs 9) 0x070 1 0 = 1 ∧
      ((tod9 id).view .B).taiSet 9 = true ∧ ((tod9 id).view .B).bitAt (pgRs 9) 0x070 9 = false) ∧
    todCarries 1 (.timeEvent false true (some noon)) = some (false, false, true, some noon) ∧
    todCarries 1 (.timeEvent true true (some noon)) = some (false, true, true, some noon) ∧
    (todCarries 0 (.zda true (some noon)) = some (true, true, true, some noon) ∧ (up.slot .B 9).todHalf = none ∧
      ((slotB 9 (fun x => { x with todHalf := some (false, noon) })).slot .B 9).todHalf = some (!true, noon) ∧
      (up.view .B).fieldAt (pgRs 9) 0x070 1 0 = 0) ∧
    (noon.sec ≠ 60 ∧ ((tod9 id).slot .B 9).leapDue = false ∧ ((tod9 id).slot .B 9).leapPend ≠ 2) ∧
    (leapLabel leap60 = true ∧ ((tod9 (fun x => { x with leapPend := 1 })).slot .B 9).leapPend = 1) ∧
    (((tod9 (fun x => { x with leapPend := 1, leapDue := true })).slot .B 9).leapDue = true ∧
      ((tod9 (fun x => { x with leapPend := 1, leapDue := true, taiUtc := 254 })).slot .B 9).taiUtc < 255) ∧
    (((tod9 (fun x => { x with leapPend := 2, todLabel := some ⟨20000, 23, 59, 58⟩ })).slot .B 9).todLabel =
        some ⟨20000, 23, 59, 58⟩ ∧
      ((tod9 (fun x => { x with leapPend := 2 })).slot .B 9).leapPend = 2) ∧
    parseAtom (ascii "$ATM,L,25,100*0E" ++ [0x0D, 0x0A]) = some (0x4C, 25, some 100) ∧
    parseAtom (ascii "$ATM,L,25,100*0F" ++ [0x0D, 0x0A]) = none := by
  and_intros <;> decide +kernel

theorem witness_LoopsMoveTheRateThroughTheWeir :
    up.gridOn .B = true ∧ ((up.modDom .B 3 (fun y => { y with better := some 8 })).dom .B 3).better ≠ none ∧
    Allowed acc (pgTd 3) 0x064 1 (own (pgTd 3) up) := by unfold Allowed; decide +kernel

theorem witness_CisternRecordsHistory :
    up.gridOn .B = true ∧ up.halfOn .B = true ∧ ((up.half .B).temps.get 12).lost = false ∧
    (((halfB (fun x => { x with temps := setAt x.temps 12 { lost := true } })).half .B).temps.get 12).lost = true := by decide +kernel

/-- The steering domain of half B locked at 64 s, with a gain. -/
def steers : State :=
  ((up.setReg pgCis 0x04C 0x0002B302).setReg pgCis 0x054 1000).modDom .B 0 (fun y => { y with st := 2, t := 64 * secondT })

theorem witness_ModelsAreLearnedInstalledAndKept :
    (((up.modTab .B .xo (fun m => { m with pend := [(m.words, true), (m.words, false)] })).models.get (tabIx .B .xo)).pend) ≠ [] ∧
    (up.halfOn .B = true ∧ (up.setReg pgCis 0x044 0x10418).bitAt pgCis 0x044 16 = true ∧
      ((((up.half .B).doms.getD (up.fieldAt pgCis 0x044 13 12) {}).hist64.filter (·.clean)).length < 1008)) ∧
    (steers.gridOn .B = true ∧ steers.efcCfg .B 1 0 = 2 ∧ steers.efcGain .B ≠ 0 ∧ (steers.dom .B (steers.efcDom .B)).st = 2 ∧
      steers.efcFree .B = true ∧ ((steers.dom .B (steers.efcDom .B)).t / beatT) % 65536 = 0) ∧
    (State.reset.halfOn .B = false ∧ State.reset.gridOn .B = false) := by decide +kernel

/-- A half with enough clean entries for a learning pass. -/
def learns : State :=
  let e : HistEnt := { rate := 5, temp := 100, efc := 0x800000, standby := false, clean := true }
  (up.modDom .B 0 (fun x => { x with hist64 := List.replicate 1008 e })).setReg pgCis 0x044 0x10018

theorem witness_LearningPassesMayLearn :
    learns.halfOn .B = true ∧ learns.bitAt pgCis 0x044 16 = true ∧
    1008 ≤ (((learns.half .B).doms.getD (learns.fieldAt pgCis 0x044 13 12) {}).hist64.filter (·.clean)).length := by decide +kernel
/-! ## Witnesses: captures, jets, ports -/

/-- Capture input 7 changed. -/
def cap7 (f : CapSt → CapSt) : State := up.modCap 7 f

/-- An operation of queue 0 of partition 0, its dwords 0 and 1 given. -/
def op (w0 w1 : Word) : Op :=
  { part := 0, q := 0, words := ((Vector.replicate 16 (0 : Word)).set 0 w0).set 1 w1, order := 0, shared := false }

/-- The operation stands under tag 511. -/
def withOp (o : Op) (s : State) : State := s.setOp 511 (some o)

def ent : CapEnt := { t := 0, dom := 0, bound := 0, rising := true, seq := 0, lost := 0 }

theorem witness_EdgesAreCapturedAndAlarmsFire :
    (((cap7 (fun x => { x with mode := 2 })).cap 7).mode = 2 ∧ ((cap7 (fun x => { x with mode := 2 })).unit (pgCap 7) 0).fenced = false ∧
      ((cap7 (fun x => { x with mode := 2 })).cap 7).selects (true != (cap7 (fun x => { x with mode := 2 })).bitAt (pgCap 7) 0x040 0) = true ∧
      ((cap7 (fun x => { x with mode := 2 })).cap 7).edged = false) ∧
    (((cap7 (fun x => { x with mode := 2, edged := true, fifo := List.replicate 63 ent })).cap 7).edged = true ∧ 10 ≤ 10 ∧
      ((cap7 (fun x => { x with mode := 2, edged := true, fifo := List.replicate 63 ent })).cap 7).fifo.length < 64 ∧
      64 ≤ ((cap7 (fun x => { x with mode := 2, edged := true, fifo := List.replicate 64 ent })).cap 7).fifo.length ∧ 9 < 10) ∧
    ((up.cap 7).mode = 0 ∧ ((cap7 (fun x => { x with mode := 2 })).cap 7).selects false = false) ∧
    ((withOp { op 0x12 0 with phase := .waiting } up).op? 511 = some { op 0x12 0 with phase := .waiting } ∧
      ({ op 0x12 0 with phase := .waiting } : Op).opcode = 0x12 ∧
      (withOp { op 0x12 0 with phase := .waiting } up).busHalf.isSome = true ∧
      reached (withOp { op 0x12 0 with phase := .waiting } up) { op 0x12 0 with phase := .waiting } = true ∧
      reached up { op 0x12 0 with words := (op 0x12 0).words.set 3 1 } = false) := by decide +kernel

/-- Jet 15 changed, its page enabled. -/
def jet15 (f : JetSt → JetSt) : State := (up.modPage 0x6F (fun p => { p with en := true })).modJet 15 f

/-- Jet 15 running, with its half to follow or not. -/
def runs (f : JetSt → JetSt) : State := jet15 (fun x => f { x with phase := .run, half := some .A })

theorem witness_JetsStartAndDrive :
    (((jet15 id).jet 15).phase = .off ∧ (jet15 id).jetReady 15 = true ∧ (jet15 id).bitAt (pgJet 15) 0x040 12 = false ∧
      (jet15 id).busStepped ((jet15 id).jetDom 15) = false) ∧
    (((jet15 id).setReg 0x6F 0x040 0x1001).jetReady 15 = true ∧ ((jet15 id).setReg 0x6F 0x040 0x1001).bitAt (pgJet 15) 0x040 12 = true) ∧
    (((jet15 (fun x => { x with phase := .wait, o := 0 })).jet 15).phase = .wait ∧
      ((jet15 (fun x => { x with phase := .wait, o := 0 })).jet 15).o ≤ (jet15 (fun x => { x with phase := .wait, o := 0 })).jetTime 15 1250) ∧
    (jet15 (fun x => { x with phase := .wait, o := 2 ^ 100 })).jetTime 15 1250 <
      ((jet15 (fun x => { x with phase := .wait, o := 2 ^ 100 })).jet 15).o := by decide +kernel

theorem witness_JetEdges :
    ((runs id).jetStream 15 = true ∧ (runs id).riseDue 15 ((runs id).jetTime 15 ((0 : Nat) : Rat)) = some (0, 0) ∧
      ((runs id).page (pgJet 15)).captured = none ∧ ((runs id).page (pgJet 15)).shadow = [] ∧ ((runs id).jet 15).driverBad = false) ∧
    (((runs id).jet 15).sq = false ∧ ((runs id).jet 15).level ≠ .high ∧ ((runs id).jet 15).lastAt = none) ∧
    ((runs (fun x => { x with level := .high })).jet 15).level = .high ∧
    (((runs (fun x => { x with sq := true, sqWant := true })).jet 15).sq = true ∧
      ((runs (fun x => { x with sq := true, sqWant := true })).jet 15).sqWant = true ∧
      ((runs (fun x => { x with sq := true })).jet 15).sqWant = false) ∧
    ((jet15 id).jetStream 15 = false ∧ (runs (fun x => { x with next := 1 })).riseDue 15 0 = none) ∧
    (((runs (fun x => { x with level := .high, fallAt := some 0 })).jet 15).fallAt = some 0 ∧
      0 ≤ (runs (fun x => { x with level := .high, fallAt := some 0 })).jetTime 15 1250 ∧
      ¬ psUnits ((runs id).jetGuard 15) ≤ 0 - 0 ∧
      ((runs (fun x => { x with fallAt := some 0, stop := true })).jet 15).stop = true ∧
      ((runs (fun x => { x with fallAt := some 0, stop := true })).jet 15).again = false ∧
      (runs (fun x => { x with fallAt := some (2 ^ 100) })).jetTime 15 1250 < 2 ^ 100) := by decide +kernel

theorem witness_JetsAreCommanded :
    (runs id).jet 15 ≠ (jet15 id).jet 15 ∧
    (((runs (fun x => { x with ramp := some ⟨0, 1, 1, 1⟩ })).jet 15).ramp = some ⟨0, 1, 1, 1⟩ ∧
      (runs (fun x => { x with ramp := some ⟨0, 1, 1, 1⟩ })).jetStream 15 = true ∧
      (0 : Rat) + (⟨0, 1, 1, 1⟩ : JetRamp).span * (secondT : Rat) ≤
        (runs (fun x => { x with ramp := some ⟨0, 1, 1, 1⟩ })).jetTime 15 ((0 : Nat) : Rat) ∧
      (runs (fun x => { x with ramp := some ⟨2 ^ 100, 1, 1, 1⟩ })).jetTime 15 ((0 : Nat) : Rat) <
        2 ^ 100 + (⟨2 ^ 100, 1, 1, 1⟩ : JetRamp).span * (secondT : Rat)) ∧
    (Allowed acc (pgJet 15) 0x064 0 ((own 0x6F (jet15 id)).setReg 0x6F 0x064 2) ∧ ((jet15 id).setReg 0x6F 0x064 2).jetKillVal 15 ≠ 0 ∧
      ((jet15 id).jet 15).phase = .off) ∧
    (Allowed acc (pgJet 15) 0x064 1 (own 0x6F jetRuns) ∧ (jetRuns.jet 15).phase = .run ∧ Allowed acc (pgJet 15) 0x064 2 (own 0x6F jetRuns) ∧
      (jetRuns.jet 15).driverBad = false ∧ Allowed acc (pgJet 15) 0x064 3 (own 0x6F jetRuns)) ∧
    (((jet15 (fun x => { x with phase := .run, half := some .B })).jet 15).half = some .B ∧
      (jet15 (fun x => { x with phase := .run, half := some .B })).jetWant 15 = some .A) := by unfold Allowed; decide +kernel

/-- Port 15, alone on path A, with its link up and its state changed. -/
def lp15 (f : PortSt → PortSt) : State :=
  (up.modPath 15 .A (fun x => { x with link := true })).modPort 15 f

/-- An untagged frame to every station, of an EtherType and with a payload. -/
def frame (etherType : Nat) (payload : List Byte) : RxFrame :=
  { bytes := List.replicate 6 0xFF ++ [2, 0, 0, 0, 0, 1] ++ beBytes 2 etherType ++ payload, fcsOk := true, pt := { sub := 0, fec := 0 } }

/-- A frame of the least length that no engine consumes. -/
def plain : RxFrame := frame 0x0801 (List.replicate 46 0)

/-- An Announce-like PTP message of a domain, over L2. -/
def overL2 (dom : Byte) : RxFrame := frame 0x88F7 ([0x0B, 2, 0, 64, dom] ++ List.replicate 59 0)

/-- An NTP request of mode 3 to address 0, over UDP/IPv4. -/
def overUdp : RxFrame :=
  frame 0x0800 ([0x45] ++ List.replicate 8 0 ++ [17] ++ List.replicate 12 0 ++ [0, 123, 0, 56, 0, 0, 0x23] ++ List.replicate 47 0)

/-- Port 15 with PTP in profile 1 and the Fountain on. -/
def rx15 : State := ((lp15 id).setReg pgPtp 0x2E0 0x81).modPage pgFtn (fun p => { p with en := true })

theorem witness_ReceivedFramesAreSorted :
    ((lp15 id).pathUp 15 .A = true ∧ ((lp15 id).path 15 .A).link = true ∧ (frame 0x0801 []).bytes.length + 4 < 64 ∧
      plain.fcsOk = true ∧ plain.bytes.length + 4 = 64 ∧ (lp15 id).bitAt (pgLp 15) 0x040 16 = false ∧ plain.bytes.length + 4 ≤ 1522 ∧
      1522 < (frame 0x0801 (List.replicate 1505 0)).bytes.length + 4) ∧
    ((parseFrame (frame 0x8808 []).bytes).kind = .macControl ∧ (parseFrame (frame 0x8809 [0x0A]).bytes).kind = .esmc ∧
      (parseFrame plain.bytes).kind = .other) ∧
    ((parseFrame (overL2 0).bytes).kind = .ptp ([0x0B, 2, 0, 64, 0] ++ List.replicate 59 0) ∧
      rx15.ptpConsumes 15 0xB (ptpHead none ([0x0B, 2, 0, 64, 0] ++ List.replicate 59 0)) = true ∧
      rx15.ptpConsumes 15 0xB (ptpHead none ([0x0B, 2, 0, 64, 1] ++ List.replicate 59 0)) = false) ∧
    ((parseFrame overUdp.bytes).kind = .ntp 3 false 0 ∧ rx15.fnConsumes 15 .A = true ∧ rx15.fnAddressed 15 none false 0 3 = true ∧
      rx15.fnAddressed 15 none false 1 3 = false) ∧
    ((parseFrame plain.bytes).dst = BitVec.allOnes 48 ∧ ((lp15 id).setReg (pgLp 15) 0x068 0x108).bitAt (pgLp 15) 0x068 8 = true ∧ (lp15 id).bitAt (pgLp 15) 0x068 8 = false ∧
      (own (pgLp 15) (lp15 id)).ownerOf (pgLp 15) = some 0 ∧
      ((lp15 id).port 15).hrxHead % (lp15 id).ringDepth 15 ≠
        ((lp15 id).setReg (pgLp 15) 0x06C 1).fieldAt (pgLp 15) 0x06C 11 0 % (lp15 id).ringDepth 15 ∧
      ((lp15 id).port 15).hrxHead % (lp15 id).ringDepth 15 = (lp15 id).fieldAt (pgLp 15) 0x06C 11 0 % (lp15 id).ringDepth 15) := by
  and_intros <;> decide +kernel

/-- A frame to every station passes whatever the port's own address is; some address does not pass. -/
theorem witness_ReceivedFramesAreSorted_addresses :
    (lp15 id).macPasses 15 (BitVec.allOnes 48) = true ∧ ∃ d : BitVec 48, (lp15 id).macPasses 15 d = false := by
  refine ⟨by simp [State.macPasses], ?_⟩
  by_cases h : (lp15 id).lpMac 15 = 0
  · exact ⟨1, by unfold State.macPasses; rw [h]; decide⟩
  · refine ⟨0, ?_⟩
    unfold State.macPasses
    rw [beq_false_of_ne (Ne.symm h)]
    decide

def host (dest : Nat) (tag : Option Tag) : HostFrame :=
  { part := 0, tag := tag, path := 0, dest := dest, dom := 0, id := 7, bytes := List.replicate 60 0, oneAt := some 14, sumAt := none }

def ptpMsg : PtpMsg := { kind := .followUp, domNum := 0, seq := 0, dom := 0 }

theorem witness_HostFramesLeave :
    (((lp15 (fun x => { x with hosts := [host 2 none] })).port 15).hosts[0]? = some (host 2 none) ∧
      PathAB.A = (lp15 id).sendPath 15 (host 2 none).path ∧ (host 2 none).dest = 2 ∧ ((lp15 id).port 15).txq.length < 32 ∧
      ((lp15 (fun x => { x with txq := List.replicate 31 (TxEnt.unsent 0 0) })).port 15).txq.length < 32) ∧
    ((lp15 id).class0Waits 15 .A = false ∧ (lp15 id).class1Waits 15 .A = false ∧
      ((lp15 (fun x => { x with msgs := [ptpMsg] })).class0Waits 15 .A || (lp15 (fun x => { x with msgs := [ptpMsg] })).class1Waits 15 .A) = true) ∧
    ((lp15 id).pathUp 15 .A = true ∧ ((lp15 id).path 15 .A).link = true ∧ (lp15 id).schedBusy 15 .A = false ∧ (lp15 id).tsOk 15 .A = true ∧
      ((lp15 id).modPort 15 (fun x => { x with txq := [] })).tsOk 15 .A = true) ∧
    ((host 0 none).dest = 0 ∧ (host 1 (some 511)).dest = 1 ∧ (host 1 (some 511)).tag = some 511 ∧
      (withOp { op 0x20 15 with phase := .running } (lp15 (fun x => { x with hosts := [host 1 (some 511)] }))).op? 511 =
        some { op 0x20 15 with phase := .running }) := by decide +kernel

theorem witness_PathsFollowTheirHealth :
    ((lp15 id).path 15 .A).link = true ∧ (up.pathUp 15 .A = true ∧ (up.path 15 .A).link = false) ∧
    ((up.modPath 15 .A (fun x => { x with rising := [(0, 5), (1, 5), (2, 6)] })).path 15 .A).rising = (0, 5) :: [(1, 5), (2, 6)] ∧
    ((paired.pathClaim 0 .A).isSome = true ∧ (paired.pathClaim 0 .B).isSome = true ∧
      (paired.pathClaim 0 .B).getD 0 < (paired.pathClaim 0 .A).getD 0) := by decide +kernel

/-- Port 15 receives and sends ESMC PDUs. -/
def ssm : State := (lp15 id).setReg (pgLp 15) 0x058 0xB7

theorem witness_SynceMessagesAndWindows :
    (ssm.pathUp 15 .A = true ∧ (ssm.path 15 .A).link = true ∧ ssm.bitAt (pgLp 15) 0x058 1 = true ∧
      qlRank (ssm.bitAt (pgLp 15) 0x058 8) 0xF < qlRank (ssm.bitAt (pgLp 15) 0x058 8) (ssm.fieldAt (pgLp 15) 0x058 7 4) ∧
      up.halfOn .B = true ∧ ((slotB 25 (fun x => { x with st := 3 })).slot .B (laneSlot ((lp15 id).refLane 15 .A))).st ≠ 0) ∧
    (up.setReg (pgLp 15) 0x058 0).bitAt (pgLp 15) 0x058 1 = false ∧
    (ssm.bitAt (pgLp 15) 0x058 2 = true ∧ ssm.schedBusy 15 .A = false ∧ (ssm.esmcLately 15 .A).length < 10 ∧
      ((ssm.modPath 15 .A (fun x => { x with eventDue := true })).path 15 .A).eventDue = true ∧
      10 ≤ ((ssm.modPath 15 .A (fun x => { x with esmcAt := List.replicate 10 0 })).esmcLately 15 .A).length) ∧
    Allowed acc (pgLp 15) 0x06C 0xFFF (own (pgLp 15) up) ∧
    (up.lane 15).hiBer = false ∧ ((up.modLane 15 (fun y => { y with hiBer := true })).lane 15).hiBer = true := by
  unfold Allowed; decide +kernel

/-! ## Witnesses: PTP and the Fountain -/

/-- Port 15 a master of profile 1 that serves, with its link up. -/
def mp15 : State :=
  ((lp15 id).setReg pgPtp 0x2E0 0x81).setReg pgPtp 0x2FC 0x00010000 |>.modPtpPort 15 (fun x => { x with serving := true })

def cli : UniClient := { transport := 0, addr := 1, dmac := 2, clockId := 3, portNum := 4 }

def head (dom : Byte) : PtpHead := { domainNum := dom }

def dreq : DelayReq :=
  { head := head 0, unicast := false, client := cli, auth := none, seqId := 9, correction := 0, pt := { sub := 0, fec := 0 } }

theorem witness_MastersAnswer :
    (((lp15 (fun x => { x with follow := [ptpMsg] })).port 15).follow = [ptpMsg] ∧ ptpMsg.sa = none) ∧
    (mp15.pathUp 15 .A = true ∧ (mp15.path 15 .A).link = true ∧ mp15.mpTakes 15 dreq.head = true ∧ mp15.mpProf 15 ≠ 4 ∧
      mp15.mpAuth 15 = 0 ∧ dreq.unicast = false ∧ (mp15.ptpPort 15).serving = true ∧
      (mp15.ptpPort 15).dreqAt = secOf (mp15.busTime (mp15.mpDom 15)) ∧
      (mp15.ptpPort 15).dreqSec < mp15.pf 15 pgPtp (mpBase 15 + 0x1C) 31 16 ∧
      (mp15.setReg pgPtp 0x2FC 0).pf 15 pgPtp (mpBase 15 + 0x1C) 31 16 ≤ (mp15.ptpPort 15).dreqSec) ∧
    mp15.mpTakes 15 (head 1) = false ∧ (mp15.portUp 15 = true ∧ mp15.mpProf 15 ≠ 0 ∧ mp15.pwr.state ≠ .sealed) := by decide +kernel

def uni (dom : Byte) : UniMsg := { head := head dom, client := cli, auth := none }

def sess : PtpSess := { lp := 15, auth := false, key := 0, client := cli, ann := { active := true, log := 0, remain := 1 } }

theorem witness_GrantsAreGivenAndEnd :
    (mp15.negotiates 15 (uni 0) = true ∧ mp15.negotiates 15 (uni 1) = false ∧ mp15.mpAuth 15 = 0 ∧ mp15.sessOf 15 cli = none ∧ (mp15.ptpPort 15).serving = true ∧
      mp15.minLog 15 .sync ≤ 0 ∧ (0 : Int) ≤ mp15.psf 15 pgPtp 0x06C 15 12 ∧ mp15.pf 15 pgPtp 0x068 9 0 ≤ 300 ∧
      mp15.pf 15 pgPtp (mpBase 15 + 0x1C) 15 0 = 0 ∧ (mp15.sessPlace 15 cli).isSome = true) ∧
    (0 < mp15.pf 15 pgPtp 0x068 9 0) ∧
    ((mp15.setSess 131071 (some sess)).sess? 131071 = some sess ∧ (mp15.setSess 131071 (some sess)).sessOf 15 cli = some (131071, sess) ∧
      KMap.wf sessReset (mp15.setSess 131071 (some sess)).ptp.sessions = true ∧ mp15.mpDom sess.lp = 0 ∧ mp15.mpDom sess.lp ≠ 3) := by
  decide +kernel

def ann : AnnounceMsg :=
  { head := head 0, auth := none, gmPrio1 := 0, gmClass := 6, gmAccuracy := 0x21, gmVariance := 0, gmPrio2 := 0, gmId := 1,
    stepsRemoved := 0, timeSource := 0x20, sender := 1, senderPort := 1, logInterval := 0 }

/-- Client instance 3 on port 15: profile 1, unicast or not, with its state. -/
def cl3 (uni : Bool) (f : Client → Client) : State :=
  (((lp15 id).setReg pgPtp 0x3C0 (if uni then 0xF81 else 0xF01)).setReg pgPtp 0x3C4 0x80FF3888).modClient 3 f

/-- Every grant held from the instant 0 on. -/
def granted (x : Client) : Client := { x with grants := Vector.replicate 3 (some { dur := 300, since := 0 }) }

def exch : Exchange :=
  { head := head 0, seqId := 9, t1 := 0, corrSync := 0, corrFollow := 0, t4 := 10, corrResp := 0, logMin := 0, boundSync := none,
    boundResp := none, follow := none, auth := none }

/-- A Delay_Req that has left after a Sync, taken on half A's bus. -/
def sent9 : DreqSent := { seq := 9, sync := some (Vector.replicate 8 none), left := some (Vector.replicate 8 none) }

theorem witness_ClientsFollowTheirMaster :
    ((cl3 false id).clUp 3 = true ∧ (cl3 false id).clTakes ((cl3 false id).clPort 3) 3 ann.head = true ∧ (cl3 false id).clAuth 3 = 0 ∧
      ann.auth = none ∧ (cl3 false id).clUnicast 3 = false) ∧
    ((cl3 true granted).clUp 3 = true ∧ (cl3 true id).clUnicast 3 = true ∧ (cl3 true granted).clHolds 3 .announce = true ∧
      ann.gmClass.toNat ≤ (cl3 true id).clf 3 4 23 16 ∧ ((cl3 true granted).client 3).master = none) ∧
    (cl3 false id).clTakes 15 3 (head 1) = false ∧
    ((cl3 true (fun x => { x with master := some ann, outstanding := [sent9] })).client 3).master = some ann ∧
    (((cl3 true id).client 3).failedAt + ((cl3 true id).client 3).wait * 800000000 ≤ (cl3 true id).now ∧
      (cl3 true (fun x => { x with wait := 1 })).now < 0 + 1 * 800000000) ∧
    ((cl3 false (fun x => { x with master := some ann })).clState 3 = 3 ∧
      ((cl3 false (fun x => { x with master := some ann })).client 3).dreqAt = none ∧ (cl3 false id).clState 3 ≠ 3) ∧
    (((cl3 true (fun x => { x with master := some ann, outstanding := [sent9] })).client 3).answered exch.seqId = some sent9 ∧
      (cl3 true id).clTakes ((cl3 true id).clPort 3) 3 exch.head = true ∧ ((cl3 true id).client 3).answered exch.seqId = none) ∧
    ((lp15 id).portUp 15 = true ∧ ((lp15 id).setReg pgPtp 0x2E0 2).mpProf 15 = 2 ∧ ((lp15 id).setReg pgPtp 0x2E0 2).mpAuth 15 = 0) := by
  and_intros <;> decide +kernel

/-- A module whose port 15 serves NTP and NTS in domain 0, with the master key in slot 0. -/
def fn15 : State :=
  let s0 := ((lp15 id).setReg pgFtn 0x044 0x10025).setReg pgFtn 0x2E0 3
  let s1 := s0.modDom .A 0 (fun y => { y with stepped := true, bound := 0, st := 2 })
  let s := own pgFtn (s1.modHalf .A (fun x => { x with bus := setAt x.bus 0 { x.bus.get 0 with bound := 0, st := 2 } }))
  { s with
    keys := { slots := setAt s.keys.slots 0
                { used := true, loaded := true, cur := some [], banks := Vector.replicate 2 { valid := true, attr := 0x610 } } },
    ftn := { epoch := some 1, stored := 1 } }

/-- A request of a version and mode 3 to address 0. -/
def asked4 (version : Nat) : NtpReq :=
  { framed := true, srcMac := 6, srcIs6 := false, srcAddr := 5, dstAddr := 0, srcPort := 1024,
    hdr := [BitVec.ofNat 8 (8 * version + 3), 0, 6] ++ List.replicate 45 0, hasMac := false, buildersFull := false, pt := { sub := 0, fec := 0 } }

def ntp : NtpReq := asked4 4

/-- A unique identifier, a cookie of its length, seven placeholders and an authenticator. -/
def nts : NtsReq :=
  { ext := extField 0x0104 (List.replicate 32 0) ++ extField 0x0204 (List.replicate 92 0) ++
      (List.replicate 7 (extField 0x0304 (List.replicate 92 0))).flatten ++
      extField 0x0404 ([0, 16, 0, 16] ++ List.replicate 32 0), sealInTime := true }

/-- A builder and an AES pipeline can be had: which one is free. -/
theorem builder_free : (useBuilder fn15).isSome = true ∧ (useBuilder (fn15.count 256 1)).isSome = true ∧ (fn15.ftnUnit 0 8).1.isSome = true := by
  have hb : (List.range 4).filter (fun k => !fn15.unitBusy pgFtn (BitVec.ofNat 8 (8 + k))) = [0, 1, 2, 3] := by decide +kernel
  have hc : (List.range 4).filter (fun k => !(fn15.count 256 1).unitBusy pgFtn (BitVec.ofNat 8 (8 + k))) = [0, 1, 2, 3] := by decide +kernel
  have ha : (List.range 8).filter (fun k => !fn15.unitBusy pgFtn (BitVec.ofNat 8 (0 + k))) = [0, 1, 2, 3, 4, 5, 6, 7] := by
    decide +kernel
  refine ⟨?_, ?_, ?_⟩
  · simp only [useBuilder, State.ftnUnit, hb, State.draw, List.isEmpty_cons, Option.isSome_map, Bool.false_eq_true, if_false]
    simp [Nat.mod_lt]
  · simp only [useBuilder, State.ftnUnit, hc, State.draw, List.isEmpty_cons, Option.isSome_map, Bool.false_eq_true, if_false]
    simp [Nat.mod_lt]
  · simp only [State.ftnUnit, ha, State.draw, List.isEmpty_cons, Bool.false_eq_true, if_false]
    simp [Nat.mod_lt]

theorem word_ofWord (x : Nat) (h : x < 2 ^ 16) :
    ClientEnt.ofWord (ClientEnt.word { tag := x, last := 0, tokens := 0, ovr := 0, nts := false }) =
      some { tag := x, last := 0, tokens := 0, ovr := 0, nts := false } := by
  have e : (ClientEnt.word { tag := x, last := 0, tokens := 0, ovr := 0, nts := false }).toNat = x * 2 ^ 48 + 1 := by
    simp only [ClientEnt.word, BitVec.toNat_ofNat, Bool.false_eq_true, if_false]; omega
  unfold ClientEnt.ofWord
  simp only [e]
  rw [if_neg (by omega), show (x * 2 ^ 48 + 1) / 2 ^ 48 = x by omega, show (x * 2 ^ 48 + 1) / 2 ^ 28 % 2 ^ 20 = 0 by omega,
    show (x * 2 ^ 48 + 1) / 2 ^ 16 % 2 ^ 12 = 0 by omega, show (x * 2 ^ 48 + 1) / 2 ^ 8 % 2 ^ 8 = 0 by omega,
    show (x * 2 ^ 48 + 1) / 2 % 2 = 0 by omega]
  simp

theorem clientEnt_set (s : State) (i : Nat) (e : ClientEnt) :
    (s.setClientEnt i (some e)).clientEnt i = ClientEnt.ofWord e.word := by
  simp [State.clientEnt, State.setClientEnt]

theorem srcHash_set (s : State) (i : Nat) (e : Option ClientEnt) (p : PortNo) (r : NtpReq) :
    (s.setClientEnt i e).srcHash p r = s.srcHash p r := rfl

theorem now64_set (s : State) (i : Nat) (e : Option ClientEnt) : (s.setClientEnt i e).now64 = s.now64 := rfl

theorem srcHash_tag (s : State) (p : PortNo) (r : NtpReq) : (s.srcHash p r).2 < 2 ^ 16 := by
  unfold State.srcHash; exact Nat.mod_lt _ (by decide)

/-- A client without tokens, at the place and with the tag that the source's hash gives on port 15. -/
def starve (r : NtpReq) (s : State) : State :=
  s.setClientEnt (s.srcHash 15 r).1 (some { tag := (s.srcHash 15 r).2, last := 0, tokens := 0, ovr := 0, nts := false })

theorem starve_ent (r : NtpReq) (s : State) : (starve r s).clientEnt (s.srcHash 15 r).1 =
    some { tag := (s.srcHash 15 r).2, last := 0, tokens := 0, ovr := 0, nts := false } := by
  unfold starve; rw [clientEnt_set, word_ofWord _ (srcHash_tag s 15 r)]

theorem starve_hash (r : NtpReq) (s : State) : (starve r s).srcHash 15 r = s.srcHash 15 r := srcHash_set s _ _ 15 r

theorem starve_since (r : NtpReq) (s : State) (h : s.now64 = 0) (e : ClientEnt) (h1 : e.last = 0) :
    (starve r s).sinceLast e = 0 := by
  have hn : (starve r s).now64 = 0 := (now64_set s _ _).trans h
  unfold State.sinceLast; rw [hn, h1]; norm_num

theorem open_zero : openQ (((0 : Nat) : Rat) / 64) = 0 := by decide +kernel

theorem refill_zero (s : State) (b k : Nat) (e : ClientEnt) (h : s.sinceLast e = 0) (h0 : e.tokens = 0) : s.refillEnt b k e = 0 := by
  unfold State.refillEnt
  rw [h0, h, Nat.mul_zero, open_zero]
  simp

theorem lookup_of (p : PortNo) (r : NtpReq) (s : State) (i tg : Nat) (e : ClientEnt) (hh : s.srcHash p r = (i, tg))
    (he : s.clientEnt i = some e) (ht : e.tag = tg) (h0 : e.tokens = 0) (hl : s.sinceLast e = 0) :
    (lookup p r false s).2.1.tokens = 0 := by
  unfold lookup
  rw [hh]
  simp only [he, ht, if_true]
  exact refill_zero _ _ _ _ hl h0

theorem lookup_starve (r : NtpReq) (s : State) (h : s.now64 = 0) : (lookup 15 r false (starve r s)).2.1.tokens = 0 :=
  lookup_of 15 r _ _ _ _ ((starve_hash r s).trans Prod.mk.eta.symm) (starve_ent r s) rfl rfl (starve_since r s h _ rfl)

/-- Whether a cookie opens and a request verifies rests on the functions of Config, which have no body: that clause's
other hypotheses are met here. -/
theorem witness_RequestsAreAnsweredOrDropped :
    (fn15.fnTakes 15 .A ntp = true ∧ fn15.fnTakes 15 .A (asked4 5) = true ∧ ntpVersion (asked4 5) ≠ 3 ∧ ntpVersion (asked4 5) ≠ 4 ∧
      { ntp with hasMac := true }.hasMac = true ∧ ntp.hasMac = false ∧ ntpVersion ntp = 4 ∧ ntp.buildersFull = false ∧
      { ntp with buildersFull := true }.buildersFull = true) ∧
    ((ntsParts ntp nts).isSome = true ∧ (ntsParts ntp nts).map (fun q => q.placeholders) = some 7 ∧
      ntsParts ntp { nts with ext := [] } = none) ∧
    (16 ≤ (lookup 15 ntp false fn15).2.1.tokens ∧ 16 ≤ (lookup 15 ntp true fn15).2.1.tokens ∧ fn15.servesPlain 15 = true ∧
      fn15.servesNts 15 = true ∧ fn15.openCookie [] = none ∧ fn15.canMint (1 + min 7 7) = true ∧ nts.sealInTime = true ∧
      (fn15.setReg pgFtn 0x050 0).rlAction 15 = 0) := by
  and_intros <;> decide +kernel

theorem witness_ClientsStarve :
    (useBuilder (fn15.count 256 1)).isSome = true ∧ (fn15.ftnUnit 0 8).1.isSome = true ∧
      (lookup 15 ntp false (starve ntp fn15)).2.1.tokens < 16 := by
  refine ⟨builder_free.2.1, builder_free.2.2, ?_⟩
  rw [lookup_starve ntp fn15 (by decide +kernel)]
  decide

/-- A sealed response stands on port 15 with the LI and the dispersion that the port would give it. -/
def resp : NtpResp :=
  { kind := .auth, req := ntp, dom := 0, t2 := 0,
    hdr := { li := fn15.ntpLi 15 0,
             disp := fn15.ntpDisp (fn15.present 0 (fn15.txLevel7 (fn15.refLane 15 (fn15.activePath 15)))) (fn15.launchTol 15) } }

def sealed15 : State := fn15.modPort 15 (fun x => { x with sealed := [resp] })

/-- A key that is free of every refusal: slot 63, owned by partition 0. -/
def ops15 (f : Ftn → Ftn) : State := { fn15 with ftn := f fn15.ftn }

theorem witness_SealedResponsesLaunch :
    (sealed15.port 15).sealed = [resp] ∧
    (sealed15.pathUp 15 (sealed15.activePath 15) = true ∧ (sealed15.path 15 (sealed15.activePath 15)).link = true ∧
      sealed15.schedBusy 15 (sealed15.activePath 15) = false ∧ sealed15.launches 15 = true ∧ up.launches 15 = false ∧
      4000000 ≤ sealed15.launchTol 15 ∧ sealed15.launchTol 15 < 4000001 ∧ resp.kind = .auth) ∧
    (sealed15.ntpLi 15 resp.t3 = resp.hdr.li ∧
      sealed15.ntpDisp (sealed15.present resp.dom (sealed15.txLevel7 (sealed15.refLane 15 (sealed15.activePath 15))))
        (sealed15.launchTol 15) = resp.hdr.disp) :=
  ⟨congrArg PortSt.sealed (get_modAt_self fn15.ports 15 _), by decide +kernel, rfl, rfl⟩

theorem witness_LaunchesEpochsAndTheKillSwitch :
    ((up.setClientEnt 1048575 (some { tag := 0, last := 0, tokens := 256, ovr := 0, nts := false })).clientEnt 1048575 =
        some { tag := 0, last := 0, tokens := 256, ovr := 0, nts := false } ∧
      16 * max 1 (up.fieldAt pgFtn 0x050 15 8) ≤ 256) ∧
    ((ops15 (fun x => { x with epoch := none })).mgt.running = true ∧ fn15.pwr.state ≠ .sealed ∧ 6 ≤ fn15.pwr.startStep ∧
      (ops15 (fun x => { x with epoch := none })).ftn.epoch = none ∧ fn15.ftn.stored ≠ 0xFFFFFF) ∧
    ((ops15 (fun x => { x with seq := 2 ^ 39 })).ftn.epoch = some 1 ∧ fn15.ftn.mintBad = false ∧
      2 ^ 39 ≤ (ops15 (fun x => { x with seq := 2 ^ 39 })).ftn.seq ∧ (ops15 (fun x => { x with seq := 2 ^ 40 - 1 })).ftn.seq < 2 ^ 40 ∧
      fn15.ftn.stored = 1) ∧
    Allowed acc pgFtn 0x058 1 fn15 ∧ Allowed acc pgFtn 0x058 0 fn15 := by
  unfold Allowed; decide +kernel

/-! ## Witnesses: queues and operations -/

/-- Queue 7 of partition 0: its CFG word, and its state. -/
def q7 (cfg : Word) (f : Queue → Queue) : State :=
  own (pgHp 0) ((up.setReg (pgHp 0) (qBase 7 + 0x10) cfg).modQueue 0 7 f)

theorem witness_DoorbellsMoveOrFail :
    (Allowed acc (pgHp 0) (qBase 7 + 0x14) 255 (q7 0x80000088 id) ∧ bits 255 11 0 < sqDepth (q7 0x80000088 id) 0 7 ∧
      sqDepth (q7 0x80000088 id) 0 7 ≤ bits 256 11 0) ∧
    (Allowed acc (pgHp 0) (qBase 7 + 0x18) 1 (q7 0x80000088 id) ∧ bits 1 11 0 < cqDepth (q7 0x80000088 id) 0 7 ∧
      ((q7 0x80000088 (fun x => { x with cqTail := 1 })).queue 0 7).cqHead < cqDepth (q7 0x80000088 id) 0 7 ∧
      (1 + cqDepth (q7 0x80000088 id) 0 7 - 0) % cqDepth (q7 0x80000088 id) 0 7 ≤
        (((q7 0x80000088 (fun x => { x with cqTail := 1 })).queue 0 7).cqTail + cqDepth (q7 0x80000088 id) 0 7 - 0) %
          cqDepth (q7 0x80000088 id) 0 7 ∧
      (0 + cqDepth (q7 0x80000088 id) 0 7 - 0) % cqDepth (q7 0x80000088 id) 0 7 <
        (1 + cqDepth (q7 0x80000088 id) 0 7 - 0) % cqDepth (q7 0x80000088 id) 0 7) ∧
    (Allowed acc (pgHp 0) (qBase 7 + 0x10) (0x88 ||| 0x80000000) (q7 0x88 id) ∧ qEn (q7 0x88 id) 0 7 = false ∧
      ((q7 0x88 id).queue 0 7).running = false) ∧
    (Allowed acc (pgHp 0) (qBase 7 + 0x10) (0x88 &&& 0x7FFFFFFF) (q7 0x80000088 (fun x => { x with running := true })) ∧
      qEn (q7 0x80000088 id) 0 7 = true ∧ ((q7 0x80000088 (fun x => { x with running := true })).queue 0 7).running = true ∧ KMap.wf opReset (q7 0x80000088 id).ops = true) := by
  unfold Allowed; decide +kernel

def opDone : Op := { op 0 0 with q := 7, phase := .done stOk }

/-- Queue 7 runs with an entry to fetch. -/
def fetches : State := q7 0x80000088 (fun x => { x with running := true, sqTail := 1 })

/-- Queue 6 may fetch as well, and its turn comes first. -/
def bothFetch : State :=
  (fetches.setReg (pgHp 0) (qBase 6 + 0x10) 0x80000088).modQueue 0 6 (fun x => { x with running := true, sqTail := 1 })

theorem tag_free : (freeTag fetches).isSome = true := by
  unfold freeTag
  rw [Option.isSome_map, List.find?_isSome]
  exact ⟨0, List.mem_finRange 0, by simp [State.op?, show fetches.ops = [] from rfl, opReset]⟩

theorem witness_QueuesFetchAndComplete :
    (fetches.hostUp 0 = true ∧ (fetches.part 0).paused = false ∧ qEn fetches 0 7 = true ∧ (fetches.queue 0 7).running = true ∧
      (fetches.queue 0 7).error = false ∧ (fetches.queue 0 7).sqHead ≠ (fetches.queue 0 7).sqTail ∧ (queueOps fetches 0 7).length < 64 ∧
      (fetches.opList.filter (fun e => e.2.part == 0 && !e.2.shared)).length < 64) ∧
    (queueTurn fetches 0 7 = true ∧ queueTurn bothFetch 0 7 = false) ∧ (freeTag fetches).isSome = true ∧
    (nextReadyOp (withOp opDone fetches) 0 7 = some (511, opDone) ∧
      (((withOp opDone fetches).queue 0 7).cqTail + 1) % cqDepth (withOp opDone fetches) 0 7 ≠ ((withOp opDone fetches).queue 0 7).cqHead) ∧
    nextReadyOp fetches 0 7 = none ∧
    (bit (qCfg (q7 0x80010088 id) 0 7) 16 = true ∧ 0 < ((q7 0x80010088 (fun x => { x with unacked := 1 })).queue 0 7).unacked) ∧
    (qEn (q7 0x88 (fun x => { x with running := true })) 0 7 = false ∧
      ((q7 0x88 (fun x => { x with running := true })).queue 0 7).running = true ∧
      (queueOps (q7 0x88 (fun x => { x with running := true })) 0 7).isEmpty = true) :=
  by
    refine ⟨?_, ?_, tag_free, ?_⟩ <;> decide +kernel

/-- The bus has stepped in domain 3. -/
def stepped3 : State := up.modDom .A 3 (fun y => { y with stepped := true, st := 1, steer := true })

def waits (o : Op) : Op := { o with phase := .waiting }

theorem witness_TimeOperationsComplete :
    (dispatchable (withOp (op 0x00 0) up) 511 0x00 = some (op 0x00 0) ∧
      dispatchable (withOp (op 0x01 0) up) 511 0x01 = some (op 0x01 0) ∧ bit ((op 0x01 0).word 1) 0 = false) ∧
    (bit ((op 0x01 0xF001).word 1) 0 = true ∧ (pageKind (bits ((op 0x01 0xF001).word 1) 15 8)).isSome = true ∧
      (withOp (op 0x01 0xF001) (own 0xF0 up)).visible 0 (bits ((op 0x01 0xF001).word 1) 15 8) = true) ∧
    ((withOp (waits (op 0x01 0)) up).op? 511 = some (waits (op 0x01 0)) ∧ (waits (op 0x01 0)).opcode = 1 ∧
      (∀ e ∈ queueOps (withOp (waits (op 0x01 0)) up) 0 0, (waits (op 0x01 0)).order ≤ e.2.order) ∧
      (waits (op 0x01 0)).fenceWait = none ∧ { waits (op 0x01 0) with fenceWait := some 0 }.fenceWait = some 0 ∧
      (waits (op 0x01 0)).heldSeen = false ∧ { waits (op 0x01 0) with heldSeen := true }.heldSeen = true ∧
      (up.page 0).hold = false ∧ 0 ≤ (up.page 0).doneMark ∧ ((up.modPage 0 (fun p => { p with hold := true })).page 0).hold = true) ∧
    (dispatchable (withOp (op 0x10 3) (own (pgTd 3) up)) 511 0x10 = some (op 0x10 3) ∧
      (own (pgTd 3) up).visible 0 (pgTd (opDom ((op 0x10 3).word 1) 0)) = true ∧ up.busHalf = some .A ∧ timeUnitFree up 0 = true ∧
      (∀ e ∈ queueOps (withOp (op 0x10 3) (own (pgTd 3) up)) 0 0, e.2.opcode ≠ 0x10 ∨ e.2.isDone = true ∨ (op 0x10 3).order ≤ e.2.order)) ∧
    (dispatchable (withOp (op 0x11 0x2237) (own (pgCap 7) (own (pgTd 3) up))) 511 0x11 = some (op 0x11 0x2237) ∧
      (7 : CapNo) = Fin.ofNat 8 (bits ((op 0x11 0x2237).word 1) 2 0) ∧ (own (pgCap 7) (own (pgTd 3) up)).owns 0 (pgCap 7) = true ∧
      (own (pgCap 7) (own (pgTd 3) up)).visible 0 (pgTd (opDom ((op 0x11 0x2237).word 1) 4)) = true ∧
      bits ((op 0x11 0x2237).word 1) 13 12 ≠ 3 ∧ (up.cap 7).tag = none ∧ bits ((op 0x11 0x2237).word 1) 9 8 = 2 ∧
      bits ((op 0x11 0x2137).word 1) 9 8 = 1 ∧ bits ((op 0x11 0x2037).word 1) 9 8 = 0) ∧
    (dispatchable (withOp (op 0x12 3) (own (pgTd 3) up)) 511 0x12 = some (op 0x12 3) ∧ bit ((op 0x12 3).word 1) 8 = false ∧
      (own (pgTd 3) up).visible 0 (pgTd (op 0x12 3).alarmDom) = true ∧ up.busStepped (op 0x12 3).alarmDom = false ∧
      stepped3.busStepped (op 0x12 3).alarmDom = true ∧ (alarmsOf stepped3 0).length < 16 ∧
      reached stepped3 (op 0x12 3) = true ∧ reached stepped3 { op 0x12 3 with words := (op 0x12 3).words.set 3 1 } = false ∧
      16 ≤ (alarmsOf ((List.finRange 16).foldl (fun a i => a.setOp (Fin.ofNat 512 i.val) (some (waits (op 0x12 3)))) up) 0).length) ∧
    (dispatchable (withOp (op 0x12 0x100) up) 511 0x12 = some (op 0x12 0x100) ∧ bit ((op 0x12 0x100).word 1) 8 = true ∧
      oldestOp ((alarmsOf (withOp (op 0x12 0x100) up) 0).filter (fun e => e.2.q.val == 0 && e.2.cid == 0)) = none ∧
      oldestOp ((alarmsOf ((withOp (op 0x12 0x100) up).setOp 3 (some (waits (op 0x12 3)))) 0).filter
        (fun e => e.2.q.val == 0 && e.2.cid == 0)) = some (3, waits (op 0x12 3))) := by decide +kernel

/-- PTP_SEND of 60 bytes on port 15, to the TX timestamp queue. -/
def send : Op := { op 0x20 0x20F with words := (op 0x20 0x20F).words.set 2 60 }

/-- A key operation on slot 63 with an attribute word and a length. -/
def keyOp (code attr len : Word) : Op := { op code 63 with words := ((op code 63).words.set 2 attr).set 3 len }

theorem witness_EngineOperationsComplete :
    (dispatchable (withOp send (own (pgLp 15) (lp15 id))) 511 0x20 = some send ∧ (15 : PortNo) = Fin.ofNat 16 (bits (send.word 1) 3 0) ∧
      (own (pgLp 15) up).owns 0 (pgLp 15) = true ∧ sendInvalid send (up.bitAt (pgLp 15) 0x040 16) = false ∧
      sendInvalid (op 0x20 0x20F) (up.bitAt (pgLp 15) 0x040 16) = true ∧ up.unitBusy (pgLp 15) 1 = false ∧
      up.schedBusy 15 (up.sendPath 15 0) = false ∧ up.portUp 15 = true) ∧
    (dispatchable (withOp (op 0x21 3) (own (pgTd 3) stepped3)) 511 0x21 = some (op 0x21 3) ∧
      (3 : Dom).val = bits ((op 0x21 3).word 1) 1 0 ∧ (own (pgTd 3) stepped3).owns 0 (pgTd 3) = true ∧ stepped3.busHalf = some .A ∧
      (stepped3.dom .A 3).steer = true ∧ (stepped3.dom .A 3).stepped = true ∧ (stepped3.dom .A 3).st = 1 ∧
      stepped3.gridOn .B = true ∧ (up.dom .A 3).steer = false) ∧
    ((63 : KeyNo) = Fin.ofNat 64 (keyOp 0x30 0x610 64).keySlot ∧
      dispatchable (withOp (keyOp 0x30 0x610 64) up) 511 0x30 = some (keyOp 0x30 0x610 64) ∧
      keyRequire (up.count (cntPart 0 5) 1) 0 63 0x610 false 64 = none ∧
      keyRequire (up.count (cntPart 0 5) 1) 0 63 0x610 false 65 = some stInvalidField ∧
      dispatchable (withOp (keyOp 0x31 0x610 32) up) 511 0x31 = some (keyOp 0x31 0x610 32) ∧
      keyRequire (up.count (cntPart 0 5) 1) 0 63 0x610 true 32 = none ∧
      keyRequire (up.count (cntPart 0 5) 1) 0 63 0x610 true 31 = some stInvalidField) ∧
    (dispatchable (withOp (op 0x32 0xF08) fn15) 511 0x32 = some (op 0x32 0xF08) ∧ fn15.pwr.state ≠ .sealed ∧
      bits ((op 0x32 0xF08).word 1) 15 8 = 15 ∧ 0 < bits ((op 0x32 0xF08).word 1) 3 0 ∧ bits ((op 0x32 0xF08).word 1) 3 0 ≤ 8 ∧
      fn15.owns 0 pgFtn = true ∧ fn15.ntsReadyNow = true ∧ fn15.canMint (bits ((op 0x32 0xF08).word 1) 3 0) = true) ∧
    (fn15.ftnUnit 0 8).1.isSome = true ∧
    (dispatchable (withOp { op 0x40 1023 with words := (op 0x40 1023).words.set 2 1 } (own pgCnt up)) 511 0x40 =
        some { op 0x40 1023 with words := (op 0x40 1023).words.set 2 1 } ∧
      (own pgCnt up).visible 0 pgCnt = true ∧ 0 < bits 1 10 0 ∧ bits 1024 10 0 ≤ 1024 ∧ bits 1023 9 0 + bits 1 10 0 ≤ 1024) ∧
    (dispatchable (withOp { op 0x41 0 with words := (op 0x41 0).words.set 2 64 } (own pgMgt up)) 511 0x41 =
        some { op 0x41 0 with words := (op 0x41 0).words.set 2 64 } ∧
      (own pgMgt up).visible 0 pgMgt = true ∧ 64 ≤ bits 64 18 0 ∧ bits 262144 18 0 ≤ 262144) ∧
    ((withOp send up).op? 511 = some send ∧ send.opcode ∈ [0x20, 0x30, 0x31, 0x32] ∧ send.phase = .fetched ∧
      fenced (withOp send up) send = false) := by
    refine ⟨?_, ?_, ?_, ?_, builder_free.2.2, ?_⟩ <;> decide +kernel

theorem witness_OperationsEndByTimeoutAndReset :
    ((withOp (op 0 0) up).op? 511 = some (op 0 0) ∧ timeoutRuns (withOp (op 0 0) up) (op 0 0) = true ∧
      pageKind (op 0 0).enginePage = some (.hp 0)) ∧
    (PartReset.linkDown ≠ .linkUp ∧ (op 0 0).part ≠ 1) ∧
    timeoutRuns (withOp opDone up) opDone = false ∧
    (up.pwr.pcieUp = true ∧ KMap.wf opReset (withOp (op 0 0) up).ops = true ∧ State.reset.pwr.pcieUp = false ∧
      up.hostUp 3 = true ∧ State.reset.hostUp 3 = false) := by decide +kernel

/-! ## Witnesses: faults and management -/

theorem witness_DetectorsReport :
    detKind (.td 3) 15 = none ∧ detKind (.td 3) 12 = some kCrc ∧ detKind (.td 0) 7 = none ∧ detKind (.td 0) 4 = some kCrc ∧
    up.halfOn .A = true ∧ up.halfOn .B = true ∧ detKind .cis 7 = some kParity ∧ detKind .cis 2 = some kTimeout ∧
    detKind .sl 12 = some kCrc ∧ detKind (.cap 7) 2 = some kLockstep ∧ detKind (.jet 15) 2 = some kClock ∧ detKind (.jet 15) 1 = some kParity ∧
    detKind (.jet 15) 4 = some kParity ∧ detKind (.lp 15) 4 = some kParity ∧ detKind .ptp 19 = some kParity ∧
    detKind .ftn 15 = some kParity ∧ detKind (.hp 3) 4 = some kParity ∧ detKind .key 4 = some kCrypto ∧ detKind .flt 3 = some kParity ∧
    detKind .mgt 3 = some kCrc ∧ detKind .mgt 1 = some kEcc ∧ railOut 0 0 ≠ up.mgt.railBad.get 0 ∧ up.pwr.state ≠ .standby ∧
    (look bufReset up.flt.bufs 0x140).length < 4 := by decide +kernel

def flt : Msg := { src := 0x07F, kind := 1, sev := 2, det := 2, loc := 0, injected := false, ident := 0 }

theorem witness_MessagesAreAcceptedInOrder :
    (look bufReset (up.enqueueMsg flt).flt.bufs (0x07F : BitVec 10).toNat = [flt] ∧ bit (look reactReset up.flt.react 0x07F) 2 = false ∧
      bit (look reactReset up.flt.react 0x07F) 3 = false ∧ up.flt.log.length < 256 ∧ sevWarning ≤ raisedSev up flt ∧
      sevError ≤ raisedSev up flt ∧ raisedSev up { flt with src := 0x0C0, det := 2, kind := 2 } = sevFatal) ∧
    ((up.enqueueMsg flt).sourceTurn (0x07F : BitVec 10).toNat = true ∧
      (({ up with flt := { up.flt with turn := 0x07F } }.enqueueMsg { flt with src := 0x0C0 }).enqueueMsg flt).sourceTurn
        (0x07F : BitVec 10).toNat = false) ∧
    look bufReset up.flt.bufs (0x07F : BitVec 10).toNat = [] ∧
    (look dropReset { up with flt := { dropped := [(0x07F, 65536)] } }.flt.dropped 0x07F ≠ 0 ∧ up.canSend (0x07F / 256) = true ∧
      (look bufReset up.flt.bufs 0x07F).length < 4) := by decide +kernel

theorem witness_TestsDecideOnUnits :
    (((up.setUnit 0x07F 2 { testing := some 0 }).unit 0x07F 2).testing = some 0 ∧
      ((up.setUnit 0x07F 2 { testing := some 0 }).unit 0x07F 2).transients.length + 1 < escalCount up ∧
      halfOfPlace (0x07F / 256) = none ∧ isBank 0x07F 2 = false ∧ pageKind 0x07F = some (.lp 15)) ∧
    (up.unit 0x07F 2).testing = none ∧
    (Allowed acc pgFlt 0x05C 0x807F0002 (own pgFlt up) ∧ bit 0x807F0002 31 = true ∧
      ((up.setUnit 0x07F 2 { fenced := true }).unit (bits 0x807F0002 25 16) (BitVec.ofNat 8 (bits 0x807F0002 7 0))).fenced = true ∧
      ((up.setUnit 0x07F 2 { fenced := true }).unit (bits 0x807F0002 25 16) (BitVec.ofNat 8 (bits 0x807F0002 7 0))).testing = none ∧
      halfOfPlace (bits 0x807F0002 25 16 / 256) = none) := by unfold Allowed; decide +kernel

theorem witness_WatchdogsAndAlive :
    ((pageKind ((0x27F : BitVec 10).toNat % 256)).isSome = true ∧ up.canSend ((0x27F : BitVec 10).toNat / 256) = true) ∧
    ((pageKind ((0x3FF : BitVec 10).toNat % 256)).isSome = false ∧ State.reset.canSend ((0x27F : BitVec 10).toNat / 256) = false) ∧
    (State.reset.mgt.running = false ∧ up.flt.aliveOn = false) ∧
    (Allowed acc pgFlt 0x060 0x8000007F (own pgFlt up) ∧ bit 0x8000007F 31 = true) ∧
    (up.mgt.running = true ∧ up.mgt.wdogOnce = false ∧ { up with mgt := { up.mgt with wdogOnce := true } }.mgt.wdogOnce = true) ∧
    ({ up with flt := { aliveOn := true } }.flt.aliveOn = true ∧ up.flt.frozen = false ∧
      { up with flt := { frozen := true } }.flt.frozen = true) ∧
    (Allowed acc pgFlt 0x044 1 (own pgFlt up) ∧ bit 1 0 = true) := by unfold Allowed; decide +kernel

/-- A request of partition 0 waits. -/
def asks (cmd : Nat) (m : Mgt → Mgt) : State :=
  { up with mgt := m { up.mgt with held := [{ src := .part 0, cmd := cmd, tag := 5, len := if lengthOk cmd 248 then 248 else 0 }] } }

theorem asked (cmd : Nat) (m : Mgt → Mgt) (priv : Bool) (h0 : lengthOk cmd (if lengthOk cmd 248 then 248 else 0) = true)
    (h1 : reqFront (asks cmd m) (.part 0) cmd 5 =
      some { src := .part 0, cmd := cmd, tag := 5, len := if lengthOk cmd 248 then 248 else 0 })
    (h2 : (asks cmd m).mgt.running = true) (h3 : (asks cmd m).mgt.image ≠ .recovery) (h4 : privileged (asks cmd m) (.part 0) = true) :
    Requested (asks cmd m) (.part 0) cmd 5 priv := ⟨_, h1, h0, h2, h3, fun _ => h4⟩

theorem witness_MailboxCommandsAnswer :
    Requested (asks 0x01 id) (.part 0) 0x01 5 false ∧ Requested (asks 0x02 id) (.part 0) 0x02 5 false ∧
    Requested (asks 0x03 id) (.part 0) 0x03 5 false ∧ Requested (asks 0x10 id) (.part 0) 0x10 5 true ∧
    (Requested (asks 0x11 id) (.part 0) 0x11 5 true ∧ (asks 0x11 id).lifecycle ≠ 3 ∧
      { asks 0x11 id with keys := { fuseBad := true } }.lifecycle = 3) ∧
    (Requested (asks 0x10 (fun m => { m with admin := none })) (.part 0) 0x10 5 false ∧
      privileged (asks 0x10 (fun m => { m with admin := none })) (.part 0) = false) ∧
    reqFront (asks 0x11 (fun m => { m with held := m.held.map (fun r => { r with len := 1 }) })) (.part 0) 0x11 5 =
      some { src := .part 0, cmd := 0x11, tag := 5, len := 1 } ∧
    (Requested (asks 0x12 id) (.part 0) 0x12 5 true ∧ (asks 0x12 id).pwr.state = .run) ∧ Requested (asks 0x13 id) (.part 0) 0x13 5 true := by
  refine ⟨?_, ?_, ?_, ?_, ⟨?_, ?_, ?_⟩, ⟨?_, ?_⟩, ?_, ⟨?_, ?_⟩, ?_⟩ <;>
    first
    | exact asked _ id _ (by decide) (by decide) (by decide) (by decide) (by decide)
    | exact ⟨_, rfl, by decide, rfl, by decide, nofun⟩
    | decide +kernel

/-- Whether an image is good rests on the functions of Config; the other hypotheses are met here. -/
theorem witness_UpdatesReplaceTheOtherRegion :
    (Requested (asks 0x20 id) (.part 0) 0x20 5 true ∧ (asks 0x20 id).mgt.session = none ∧ 393216 ≤ 393216 ∧ 4095 < 4096) ∧
    (Requested (asks 0x21 (fun m => { m with session := some ⟨true, 4096⟩ })) (.part 0) 0x21 5 true ∧
      (asks 0x21 (fun m => { m with session := some ⟨true, 4096⟩ })).mgt.session = some ⟨true, 4096⟩ ∧
      (List.replicate 240 (0 : Byte)).length ≤ 240 ∧ 4096 ≤ 7952 ∧ 7952 + 240 ≤ 4096 + 4096) ∧
    Requested (asks 0x22 (fun m => { m with session := some ⟨true, 4096⟩ })) (.part 0) 0x22 5 true ∧
    (Requested (asks 0x23 (fun m => { m with trialImage := true })) (.part 0) 0x23 5 true ∧
      (asks 0x23 (fun m => { m with trialImage := true })).mgt.trialImage = true ∧ (asks 0x23 id).mgt.trialImage = false) := by
  refine ⟨⟨?_, ?_⟩, ⟨?_, ?_⟩, ?_, ⟨?_, ?_⟩⟩ <;>
    first
    | exact asked _ _ _ (by decide) (by decide) (by decide) (by decide) (by decide)
    | decide +kernel

/-- Whether a signature verifies rests on the functions of Config; the other hypotheses are met here. -/
theorem witness_FusesAreBlownOnCommand :
    (Requested (asks 0x24 (fun m => { m with trialImage := true })) (.part 0) 0x24 5 true ∧ (asks 0x24 id).mgt.trialImage = false) ∧
    (Requested (asks 0x30 (fun m => { m with nonce := some ([], 0) })) (.part 0) 0x30 5 true ∧
      (List.replicate 96 (0 : Byte)).length = 96 ∧ (asks 0x30 (fun m => { m with nonce := some ([], 0) })).mgt.nonce = some ([], 0) ∧
      (asks 0x30 id).now ≤ 0 + cyc60s ∧ 0 + cyc60s < { asks 0x30 id with now := cyc60s + 1 }.now ∧ (asks 0x30 id).lifecycle < 2 ∧
      2 ≤ { asks 0x30 id with keys := { fuse := { lifecycle := 2 } } }.lifecycle) ∧
    (Requested (asks 0x31 (fun m => { m with decom := some (5, 0) })) (.part 0) 0x31 5 true ∧ decomSecond 5 (asks 0x31 id) = false ∧
      decomSecond 5 { asks 0x31 (fun m => { m with decom := some (5, 0) }) with now := cyc10s } = true ∧
      decomSecond 5 { asks 0x31 (fun m => { m with decom := some (5, 0) }) with now := cyc10s + 1 } = false) := by
  refine ⟨⟨?_, ?_⟩, ⟨?_, ?_⟩, ⟨?_, ?_⟩⟩ <;>
    first
    | exact asked _ _ _ (by decide) (by decide) (by decide) (by decide) (by decide)
    | decide +kernel

/-- The slot that ETH_KEY names holds a key for HMAC of management alone. -/
def ethKeyed : State :=
  up.setSlotKey (ethKey up) { used := true, banks := Vector.replicate 2 { valid := true, attr := 0x24 }, loaded := true, cur := some [1] }

theorem witness_RequestsAndRecordsAreTaken_ethernet :
    ethKeyOk up = false ∧ ethKeyOk ethKeyed = true ∧ ethKeyed.mgt.running = true ∧ ethKeyed.mgt.held = [] ∧
    ethKeyed.mgt.ethSeq = none ∧ ofBe (([0, 0x31, 0, 0, 0, 5] : List Byte).take 2) ∈ commands := by
  and_intros <;> decide +kernel

theorem witness_RequestsAndRecordsAreTaken (x : BitVec 128) :
    (Allowed acc (pgHp 0) 0x600 1 (own (pgHp 0) up) ∧ bit 1 0 = true ∧ up.mgt.held = [] ∧
      bits ((up.setReg (pgHp 0) 0x500 0x31).reg (pgHp 0) 0x500) 15 0 ∈ commands ∧
      bits ((up.setReg (pgHp 0) 0x500 0x32).reg (pgHp 0) 0x500) 15 0 ∉ commands ∧
      (asks 1 id).mgt.held.any (fun q => q.src == .part 0) = true) ∧
    ~~~x ≠ x ∧
    (up.mgt.running = true ∧ ((up.logRec 1 2).mgt.logQ ≠ []) ∧ up.mgt.log.length < 6143) := by
  refine ⟨by unfold Allowed; decide +kernel, ?_, by decide +kernel⟩
  intro h
  have := congrArg (fun y : BitVec 128 => y.getLsbD 0) h
  simp at this
/-! ## Ill-formed commands are refused -/

theorem wf_access : wellFormed (.nowLatch 0 0) = true ∧ wellFormed (.registerWrite acc 0xFFFFC (some 0)) = true ∧
    wellFormed (.registerWrite { acc with width := 0 } 0 none) = false ∧ wellFormed (.jetKill { acc with width := 0 } 0 0) = false ∧
    wellFormed (.registerWrite acc 0x100000 none) = false := by decide

theorem wf_phases : wellFormed (.slotObservation .A 0 ⟨false, [0, 0, 0, 0]⟩) = true ∧
    wellFormed (.slotObservation .A 0 ⟨false, [0, 0, 0]⟩) = false := by decide

theorem wf_reading : wellFormed (.captureEdge 0 true 1249 0) = true ∧ wellFormed (.captureEdge 0 true 1250 0) = false ∧
    wellFormed (.frameReceived 0 .A ⟨List.replicate 60 0, true, { sub := 1250, fec := 0 }, 0, 0⟩ none) = false ∧
    wellFormed (.frameTransmitted 0 .A .esmc 1250 0 false) = false := by decide

theorem wf_mailbox : wellFormed (.updateData .smbus 0 0 (List.replicate 240 0)) = true ∧
    wellFormed (.updateData .smbus 0 0 (List.replicate 241 0)) = false ∧
    wellFormed (.setPolicy .smbus 0 (.startup [] [(0x40050, 0)])) = true ∧
    wellFormed (.setPolicy .smbus 0 (.startup [] [(0x40051, 0)])) = false := by decide +kernel

/-! ## Values worked out in the spec -/

/-- 00, worked example; 07, six hours without GNSS; 13, the outage as served; 10, the delay of a module. -/
theorem test_bound_codes :
    codePs 0xA372 = 1500160 ∧ encodePs 1500000 = 0xA372 ∧ encodePs (1038324 / 10) = 0x84AD ∧ codePs 0x84AD = 103840 ∧
    encodePs (1327296 / 10) = 0x881A ∧ encodePs (1907184 / 10) = 0x8BA4 ∧ encodePs (2489664 / 10) = 0x8F33 ∧ codePs 0x8F33 = 249024 ∧
    addBound (encodePs 75000) 150 = 0x812D ∧ codePs 0x9F43 = 1000192 ∧ codePs 0x1F00 = 15 ∧ encodePs 15 = 0x1F00 ∧
    encodePs 20000 = 0x71C4 ∧ encodePs 25000 = 0x7435 := by decide +kernel

/-- 06, worked example of a rate word. -/
theorem test_rate_word :
    nearQ (unitsQ (-5 / 100000000000)) = -57646075 ∧ BitVec.ofInt 48 (-57646075) = 0xFFFFFC906405 := by decide +kernel

/-- 04, worked example: the rate word at the handover to XO, −3.20149 × 10⁻⁶ to five places. -/
theorem test_handover_rate :
    (-320150 : Rat) / 100000000000 <
      rateQ ((rescale (nearQ (unitsQ (-15 / 10000000000))) (nearQ (unitsQ (32 / 10000000))) : Int) : Rat) ∧
    rateQ ((rescale (nearQ (unitsQ (-15 / 10000000000))) (nearQ (unitsQ (32 / 10000000))) : Int) : Rat) <
      -320148 / 100000000000 := by decide +kernel

/-- 06, worked example of a slew: SLOPE_ACQ is 10⁻⁷ /s at reset, EXC 20 × 10⁻⁶. -/
theorem test_weir_at_reset :
    up.weirSlope 0 0 = 1 / 10000000 ∧ (excUnits (up.fieldAt (pgTd 0) 0x058 16 0) : Rat) ≤ unitsQ (20 / 1000000) ∧
    unitsQ (20 / 1000000) - 1 < (excUnits (up.fieldAt (pgTd 0) 0x058 16 0) : Rat) := by decide +kernel

/-- 13, worked example: clockAccuracy of the three totals. -/
theorem test_clock_accuracy : accuracyOf 0x812D = 0x21 ∧ accuracyOf 0x84B2 = 0x22 ∧ accuracyOf 0x8F36 = 0x22 := by decide +kernel

/-- 13, worked example: bytes of a one-step Sync and of a Delay_Resp with the BOUND TLV, over UDP/IPv4, untagged. -/
theorem test_ptp_frame_bytes :
    (((up.setReg pgPtp 0x100 0x11).setReg pgPtp 0x04C 1).ptpFrame 0 { ptpMsg with kind := .sync false } none 0).length + 4 = 120 ∧
    (((up.setReg pgPtp 0x100 0x11).setReg pgPtp 0x04C 1).ptpFrame 0 { ptpMsg with kind := .sync true } none 0).length + 4 = 90 ∧
    (((up.setReg pgPtp 0x100 0x11).setReg pgPtp 0x04C 1).ptpFrame 0 { ptpMsg with kind := .delayResp } none 0).length + 4 = 130 := by decide +kernel

/-- 19, worked example: the pair 260/261 wraps between two snapshots. -/
theorem test_chained_counter :
    (((up.setCnt 260 4250000000).setCnt 261 5).count 260 90000000).cntVal 260 = 45032704 ∧
    (((up.setCnt 260 4250000000).setCnt 261 5).count 260 90000000).cntVal 261 = 6 := by decide +kernel

/-- 11, worked example: G is 93.75 ms for a 1 Hz pulse of 100 ms and 46.875 ns for a clock of 10 MHz. -/
theorem test_jet_guard :
    ((up.setReg 0x60 0x040 1).setReg 0x60 0x044 100000000).jetGuard 0 = 93750000000 ∧
    ((up.setReg 0x61 0x040 0).setReg 0x61 0x048 10000000).jetGuard 1 = 46875 := by decide +kernel

/-- 02 R596: the three examples of causes that coincide. -/
theorem test_first_causes :
    firstCause (wordCauses ((own 0x40 up).modPage 0x40 (fun p => { p with lock := true })) 0 0x40104 0) = some .readOnly ∧
    firstCause (wordCauses ((own 0x40 up).modPage 0x40 (fun p => { p with lock := true, woDone := [0x060] })) 0 0x40060 0) =
      some .lockViol ∧
    firstCause (sizeCauses { acc with width := 2 } 0x40040 ++ wordCauses (up.modPage 0x40 (fun p => { p with vis := true })) 0 0x40040 0) =
      some .narrowWrite ∧
    firstCause (wordCauses up 0 0x40840 0) = some .absent := by decide +kernel

/-! ## One step each -/

/-- A cycle of CLK_CORE is 1.25 ns of a domain with rate word 0 (06 R191). -/
theorem test_idle_step : (match step up with
    | .next t => (t.dom .A 0).t == 5 * 2 ^ 60 && t.now == 1
    | _ => false) = true := by decide +kernel

/-- 02 R79: the Trowel is written once. -/
theorem test_trowel : (match exec (.trowelArm acc 0 0xFFFFFFFF) (own 0x40 up) with
    | .next t => t.reg 0x40 0x060 == 0x701 && (match exec (.trowelArm acc 0 1) t with
      | .next u => u.reg 0x40 0x060 == 0x701
      | _ => false)
    | _ => false) = true := by decide +kernel

/-- 17, worked example: the message of a wedged egress scheduler of LP3 that takes SEQ 0x0A41. -/
theorem test_watchdog_message : (match exec (.engineWatchdog 0x073) { up with flt := { nextSeq := 0x0A41 } } with
    | .next t => (match exec (.faultMessageAccepted 0x073) t with
      | .next u => (u.flt.log.map (·.msg)) == [0x1CC8BFC000000A41]
      | _ => false)
    | _ => false) = true := by decide +kernel

/-- 15 R473: a tail past the depth of the ring is a doorbell error, one inside it releases entries. -/
theorem test_doorbell : (match exec (.sqTail acc 7 256) (q7 0x80000088 id), exec (.sqTail acc 7 255) (q7 0x80000088 id) with
    | .next t, .next u => (t.queue 0 7).error && (t.queue 0 7).sqTail == 0 && !(u.queue 0 7).error && (u.queue 0 7).sqTail == 255
    | _, _ => false) = true := by decide +kernel

/-- 04 R128: from PRIMARY the loss of MOSC leads to COAST, from RETURNING to STANDBY. -/
theorem test_mosc_lost :
    (match exec (.moscLost .B) up with | .next t => some (t.lath .B).st | _ => none) = some .coast ∧
    (match exec (.moscLost .B) (lathB (fun x => { x with st := .returning })) with
      | .next t => some (t.lath .B).st | _ => none) = some .standby := ⟨by decide +kernel, by decide +kernel⟩

/-- 12 R375: a frame of 63 bytes counts as an error, and moves no ring. -/
theorem test_runt : (match exec (.frameReceived 15 .A (frame 0x0801 (List.replicate 45 0)) none) (lp15 id) with
    | .next t => t.cntVal (cntPort 15 6) == 1 && (t.port 15).hrxHead == 0
    | _ => false) = true := by decide +kernel

/-- 16 R517: a slot zeroised is ZEROISED, and its neighbour is not. -/
theorem test_zeroise : (match exec (.keyZeroise acc 63) (own pgKey up) with
    | .next t => (t.slotKey 63).stateCode == 2 && (t.slotKey 62).stateCode == 0
    | _ => false) = true := by decide +kernel

/-- 09 R305, R306: a lost link takes two publishing halves to SPLIT. -/
theorem test_link_lost : (match exec .linkLost up with
    | .next t => (t.half .A).role == .split && (t.half .B).role == .split
    | _ => false) = true := by decide +kernel

/-- An event whose condition does not hold changes nothing (log entry 2). -/
theorem test_no_effect : (match exec (.toPrimary .B 0) up with
    | .next t => (t.lath .B).swCnt == 0 && (t.lath .B).st == .primary
    | _ => false) = true := by decide +kernel


end Sys2Proof.Tests
end

section
/-!
PROOFS. Scope: bound codes round up (O7), and a beat boundary comes when its domain reaches it (O9).
-/

namespace Sys2Proof.Machine

/-! ## Rounding up -/

/-- `ceilQ` clamped to the naturals is adjoint to the embedding of the naturals: the encoder of bounds and the count of cycles both
round up by it. -/
theorem ceilQ_toNat_le_iff (q : Rat) (n : Nat) : (ceilQ q).toNat ≤ n ↔ q ≤ n := by
  have hfloor : -(n : Int) ≤ (-q).floor ↔ -(n : Rat) ≤ -q := by
    simpa using Rat.le_floor_iff (x := -(n : Int)) (a := -q)
  rw [Int.toNat_le, ceilQ, neg_le, hfloor, neg_le_neg_iff]

theorem ceilDiv_le_iff {p : Nat} (hp : 0 < p) (u a : Nat) : (u + p - 1) / p ≤ a ↔ u ≤ a * p := by
  rw [← Nat.ceilDiv_eq_add_pred_div, ceilDiv_le_iff_le_mul hp, Nat.mul_comm]

/-! ## Bound codes (00 R10 to R13) -/

/-- The units that a code's number stands for, as `codeUnits` takes them of the code. -/
def unitsOf (k : Nat) : Nat := (2048 + k % 2048) * 2 ^ (k / 2048)

theorem codeUnits_eq_unitsOf (c : Code) : codeUnits c = unitsOf c.toNat := rfl

theorem unitsOf_block (e : Nat) {j : Nat} (hj : j < 2048) : unitsOf (e * 2048 + j) = (2048 + j) * 2 ^ e := by
  have hmod : (e * 2048 + j) % 2048 = j := by omega
  have hdiv : (e * 2048 + j) / 2048 = e := by omega
  rw [unitsOf, hmod, hdiv]

/-- Within an exponent the mantissa grows; the last mantissa of one is followed by the first of the next. -/
theorem unitsOf_strictMono : StrictMono unitsOf := by
  refine strictMono_nat_of_lt_succ fun k => ?_
  obtain ⟨e, j, hj, rfl⟩ : ∃ e j, j < 2048 ∧ k = e * 2048 + j := ⟨k / 2048, k % 2048, by omega, by omega⟩
  have hpos : 0 < 2 ^ e := Nat.two_pow_pos e
  rw [unitsOf_block e hj]
  by_cases hlast : j = 2047
  · have hnext : e * 2048 + j + 1 = (e + 1) * 2048 + 0 := by omega
    rw [hnext, unitsOf_block (e + 1) (by omega), hlast, pow_succ]
    omega
  · rw [add_assoc, unitsOf_block e (by omega)]
    exact Nat.mul_lt_mul_of_pos_right (by omega) hpos

theorem codeUnits_lt_iff (c d : Code) : codeUnits c < codeUnits d ↔ c.toNat < d.toNat :=
  unitsOf_strictMono.lt_iff_lt

/-- Below the mantissa that covers `u` at exponent `e`, every code stands for less, when every code of a smaller exponent does. -/
theorem unitsOf_lt_of_lt_mantissa {u e m k : Nat} (hlow : ∀ i, i < e * 2048 → unitsOf i < u)
    (hm : m ≤ (u + 2 ^ e - 1) / 2 ^ e) (hk : k < e * 2048 + (m - 2048)) (hend : k < (e + 1) * 2048) : unitsOf k < u := by
  by_cases hke : k < e * 2048
  · exact hlow k hke
  · obtain ⟨j, rfl⟩ := Nat.exists_eq_add_of_le (not_lt.mp hke)
    rw [unitsOf_block e (by omega), ← not_le, ← ceilDiv_le_iff (Nat.two_pow_pos e)]
    omega

/-- The search from exponent `e` on ends on a code below which every code stands for less than `u`, and which covers `u`
unless it is the last one. -/
theorem codeFrom_spec (u n e : Nat) (hn : e + n = 32) (hlow : ∀ i, i < e * 2048 → unitsOf i < u) :
    (∀ k, k < (codeFrom u n e).toNat → unitsOf k < u) ∧
      (u ≤ codeUnits (codeFrom u n e) ∨ codeFrom u n e = 0xFFFF) := by
  induction n generalizing e with
  | zero => exact ⟨fun k (hk : k < 65535) => hlow k (by omega), .inr rfl⟩
  | succ n ih =>
    have hcover := ceilDiv_le_iff (Nat.two_pow_pos e) u
    have hbelow := fun k => unitsOf_lt_of_lt_mantissa (k := k) hlow le_rfl
    simp only [codeFrom]
    generalize hm : (u + 2 ^ e - 1) / 2 ^ e = m at hcover hbelow
    split_ifs with hfirst hlast
    · have hnum : (BitVec.ofNat 16 (e * 2048)).toNat = e * 2048 := by simp; omega
      refine ⟨fun k hk => hlow k (by omega), .inl ?_⟩
      rw [codeUnits_eq_unitsOf, hnum, ← Nat.add_zero (e * 2048), unitsOf_block e (by omega)]
      exact (hcover 2048).mp hfirst
    · have hnum : (BitVec.ofNat 16 (e * 2048 + (m - 2048))).toNat = e * 2048 + (m - 2048) := by simp; omega
      refine ⟨fun k hk => hbelow k (by omega) (by omega), .inl ?_⟩
      rw [codeUnits_eq_unitsOf, hnum, unitsOf_block e (by omega)]
      exact (hcover _).mp (by omega)
    · exact ih (e + 1) (by omega) fun i hi => hbelow i (by omega) hi

theorem encodeUnits_spec (u : Nat) :
    (∀ k, k < (encodeUnits u).toNat → unitsOf k < u) ∧ (u ≤ codeUnits (encodeUnits u) ∨ encodeUnits u = 0xFFFF) :=
  codeFrom_spec u 32 0 rfl (by simp)

theorem codePs_lt_iff (c d : Code) : codePs c < codePs d ↔ c.toNat < d.toNat := by
  rw [codePs, codePs, div_lt_div_iff_of_pos_right (by norm_num), Nat.cast_lt, codeUnits_lt_iff]

/-- A code covers a bound exactly when its units cover the bound's, rounded up. -/
theorem le_codePs_iff (q : Rat) (c : Code) : q ≤ codePs c ↔ (ceilQ (q * 2048)).toNat ≤ codeUnits c := by
  rw [ceilQ_toNat_le_iff, codePs, le_div_iff₀ (by norm_num)]

theorem encodePs_le_of_le_codePs {q : Rat} {c : Code} (h : q ≤ codePs c) : (encodePs q).toNat ≤ c.toNat := by
  by_contra hlt
  have hless := (encodeUnits_spec (ceilQ (q * 2048)).toNat).1 c.toNat (not_le.mp hlt)
  exact absurd ((le_codePs_iff q c).mp h) (not_le.mpr hless)

theorem le_codePs_encodePs_or (q : Rat) : q ≤ codePs (encodePs q) ∨ encodePs q = 0xFFFF := by
  rw [le_codePs_iff]
  exact (encodeUnits_spec _).2

theorem code_le_last (c : Code) : c.toNat ≤ (0xFFFF : Code).toNat := Nat.le_of_lt_succ c.isLt

theorem codePs_le_iff (c d : Code) : codePs c ≤ codePs d ↔ c.toNat ≤ d.toNat := by
  rw [← not_lt, codePs_lt_iff, not_lt]

/-- A bound that some code covers is covered by its own. -/
theorem le_codePs_encodePs {q : Rat} {c : Code} (h : q ≤ codePs c) : q ≤ codePs (encodePs q) := by
  rcases le_codePs_encodePs_or q with hcov | hlast
  · exact hcov
  · exact hlast ▸ h.trans ((codePs_le_iff _ _).mpr (code_le_last c))

theorem encodePs_codePs (c : Code) : encodePs (codePs c) = c := by
  have hle := encodePs_le_of_le_codePs (le_refl (codePs c))
  have hge := (codePs_le_iff _ _).mp (le_codePs_encodePs (le_refl (codePs c)))
  exact BitVec.eq_of_toNat_eq (le_antisymm hle hge)

/-- A bound above the last value but one has no code but the last: any other covers too little. -/
theorem encodePs_of_above {q : Rat} (h : codePs 0xFFFE < q) : encodePs q = 0xFFFF := by
  rcases le_codePs_encodePs_or q with hcov | hlast
  · have hgt : 0xFFFE < (encodePs q).toNat := (codePs_lt_iff _ _).mp (h.trans_le hcov)
    exact BitVec.eq_of_toNat_eq (le_antisymm (code_le_last _) hgt)
  · exact hlast

theorem encodePs_of_le_one {q : Rat} (h : q ≤ 1) : encodePs q = 0 := by
  have hzero : codePs 0 = 1 := by simp [codePs, codeUnits]
  exact BitVec.eq_of_toNat_eq (Nat.le_zero.mp (encodePs_le_of_le_codePs (hzero ▸ h)))

/-- The exponent is the code's upper five bits and the mantissa its lower eleven (R10). -/
theorem codePs_eq_fields (c : Code) :
    codePs c = ((2048 + (c.extractLsb' 0 11).toNat) * 2 ^ (c.extractLsb' 11 5).toNat : Nat) / 2048 := by
  have hman : (c.extractLsb' 0 11).toNat = c.toNat % 2048 := by simp
  have hexp : (c.extractLsb' 11 5).toNat = c.toNat / 2048 := by
    rw [BitVec.extractLsb'_toNat, Nat.shiftRight_eq_div_pow]
    omega
  rw [hman, hexp, codePs, codeUnits]

/-- Settles O7: the search over exponents ends on the first code that covers the bound, and codes order as their units. -/
theorem boundCodesRoundUp : Obligations.BoundCodesRoundUp :=
  ⟨fun _ => rfl, codePs_eq_fields, codePs_lt_iff, encodePs_codePs, fun _ =>
    ⟨fun _ => encodePs_le_of_le_codePs, le_codePs_encodePs, encodePs_of_above, encodePs_of_le_one⟩⟩

/-! ## What a half's way to its next boundary depends on -/

/-- The words of a half that say when it reaches a beat. -/
structure HalfClock where
  doms : Vector DomSt 4
  grid : Rat
  gphase : Rat
  locked : Bool

def HalfSt.clock (x : HalfSt) : HalfClock :=
  { doms := x.doms, grid := x.grid, gphase := x.gphase, locked := x.lath.locked }

theorem gridOn_congr {s t : State} {h : Half} (hpwr : t.pwr = s.pwr) (hclock : (t.half h).clock = (s.half h).clock) :
    t.gridOn h = s.gridOn h := by
  have hlock : (t.half h).lath.locked = (s.half h).lath.locked := congrArg HalfClock.locked hclock
  simp [State.gridOn, State.halfOn, hpwr, hlock]

theorem cyclesToBeat_congr {s t : State} {h : Half} (hclock : (t.half h).clock = (s.half h).clock) (d : Dom) :
    t.cyclesToBeat h d = s.cyclesToBeat h d := by
  have hdoms : (t.half h).doms = (s.half h).doms := congrArg HalfClock.doms hclock
  have hgrid : (t.half h).grid = (s.half h).grid := congrArg HalfClock.grid hclock
  have hphase : (t.half h).gphase = (s.half h).gphase := congrArg HalfClock.gphase hclock
  unfold State.cyclesToBeat HalfSt.cyclesFor State.dom
  rw [hdoms, hgrid, hphase]

/-! ## Common time and a half's edges (06 R191; log entry 4) -/

/-- The edges that a half makes in `n` cycles of common time. -/
def HalfSt.edgesIn (x : HalfSt) (n : Nat) : Nat := (x.gphase + (n : Rat) * x.grid).floor.toNat

theorem HalfSt.advance_dom_t (x : HalfSt) (n : Nat) (d : Dom) :
    ((x.advance n).doms.get d).t = (x.doms.get d).t + x.edgesIn n * tickT (x.doms.get d).rate := by
  simp [HalfSt.advance, HalfSt.edges, HalfSt.edgesIn, Vector.get_eq_getElem]

/-- A half makes its first `m` edges in `cyclesFor m` cycles, and in no fewer. -/
theorem HalfSt.cyclesFor_le_iff (x : HalfSt) (hgrid : 0 < x.grid) {m : Nat} (hm : 0 < m) (n : Nat) :
    x.cyclesFor m ≤ n ↔ m ≤ x.edgesIn n := by
  have hfloor : (m : Int) ≤ (x.gphase + (n : Rat) * x.grid).floor ↔ (m : Rat) ≤ x.gphase + (n : Rat) * x.grid := by
    simpa using Rat.le_floor_iff (x := (m : Int)) (a := x.gphase + (n : Rat) * x.grid)
  rw [HalfSt.cyclesFor, if_neg (not_le.mpr hgrid), ceilQ_toNat_le_iff, div_le_iff₀ hgrid, sub_le_iff_le_add',
    ← hfloor, HalfSt.edgesIn]
  omega

/-- What `n` cycles of common time do to one half. -/
def passHalf (n : Nat) (s : State) (h : Half) : State :=
  if s.gridOn h then s.modHalf h (fun x => x.advance n)
  else if s.halfOn h && (s.lath h).src != 0 then s.modHalf h (fun x => x.preLock n) else s

theorem halves_advance (n : Nat) (s : State) :
    (advance n s).halves = (passHalf n (passHalf n s .A) .B).halves := by
  simp [advance, passHalf, allHalves]

theorem half_passHalf_ne (n : Nat) (s : State) {h g : Half} (hg : g ≠ h) : (passHalf n s h).half g = s.half g := by
  unfold passHalf; split_ifs <;> simp [half_modHalf_ne _ _ hg]

@[simp] theorem pwr_passHalf (n : Nat) (s : State) (h : Half) : (passHalf n s h).pwr = s.pwr := by
  simp [passHalf]

theorem half_passHalf_of_gridOn (n : Nat) {s : State} {h : Half} (hon : s.gridOn h = true) :
    (passHalf n s h).half h = (s.half h).advance n := by
  simp [passHalf, hon]

theorem half_advance_of_gridOn (n : Nat) {s : State} {h : Half} (hon : s.gridOn h = true) :
    (advance n s).half h = (s.half h).advance n := by
  rw [State.half, halves_advance, ← State.half]
  cases h with
  | A => rw [half_passHalf_ne n _ (by decide), half_passHalf_of_gridOn n hon]
  | B =>
    have hsame : (passHalf n s .A).half .B = s.half .B := half_passHalf_ne n s (by decide)
    rw [half_passHalf_of_gridOn n ((gridOn_congr (pwr_passHalf n s .A) (by rw [hsame])).trans hon), hsame]

theorem advance_dom_t (n : Nat) {s : State} {h : Half} (d : Dom) (hon : s.gridOn h = true) :
    ((advance n s).dom h d).t = (s.dom h d).t + (s.half h).edgesIn n * tickT (s.dom h d).rate := by
  rw [State.dom, half_advance_of_gridOn n hon, HalfSt.advance_dom_t]
  rfl

/-- After `n` cycles a domain has reached its next boundary exactly when `n` is at least `cyclesToBeat`. -/
theorem reaches_next_beat_iff {s : State} {h : Half} {d : Dom} (hon : s.gridOn h = true) (hgrid : 0 < (s.half h).grid)
    (htick : 0 < tickT (s.dom h d).rate) (n : Nat) :
    ((s.dom h d).done + 1) * beatT ≤ ((advance n s).dom h d).t ↔ s.cyclesToBeat h d ≤ n := by
  rw [advance_dom_t n d hon]
  by_cases hpast : ((s.dom h d).done + 1) * beatT ≤ (s.dom h d).t
  · simp only [State.cyclesToBeat, if_pos hpast, Nat.zero_le, iff_true]
    omega
  · have hedges := (ceilDiv_le_iff htick (((s.dom h d).done + 1) * beatT - (s.dom h d).t) 0).not
    simp only [State.cyclesToBeat, if_neg hpast, if_neg htick.ne']
    rw [HalfSt.cyclesFor_le_iff _ hgrid (by omega), ceilDiv_le_iff htick, Nat.sub_le_iff_le_add']

/-! ## Work at a beat takes no time -/

@[simp] theorem now_readyBeat (s : State) (h : Half) (d : Dom) : (s.readyBeat h d).now = s.now := by
  simp [State.readyBeat]

@[simp] theorem now_targetBeat (s : State) (h : Half) (d : Dom) : (s.targetBeat h d).now = s.now := by
  simp [State.targetBeat]

@[simp] theorem now_domainBeat (h : Half) (d : Dom) (s : State) : (domainBeat h d s).now = s.now := by
  simp [domainBeat]

@[simp] theorem now_beatWork (h : Half) (d : Dom) (xoPhase : Int) (s : State) : (beatWork h d xoPhase s).now = s.now := by
  simp [beatWork]

@[simp] theorem now_ptpBuild (d : Dom) (s : State) : (ptpBuild d s).now = s.now := by
  simp [ptpBuild]

@[simp] theorem now_commonBeat (h : Half) (d : Dom) (moved : Option (Int × Bool)) (s : State) :
    (commonBeat h d moved s).now = s.now := by
  simp [commonBeat]

@[simp] theorem now_advance (n : Nat) (s : State) : (advance n s).now = s.now + n := by
  simp [advance]

theorem now_halfBeat (h : Half) (d : Dom) (xoPhase : Int) {s : State} (hon : s.gridOn h = true) :
    (halfBeat h d xoPhase s).now = s.now + s.cyclesToBeat h d := by
  simp [halfBeat, hon]

/-! ## The PTP clients' beat leaves the halves' clocks -/

@[simp] theorem clock_signalLost (h g : Half) (n : SlotNo) (s : State) :
    ((signalLost g n s).half h).clock = (s.half h).clock := by
  unfold signalLost
  split_ifs
  · by_cases hg : h = g
    · subst hg; simp [State.modSlot, HalfSt.clock]
    · simp [State.modSlot, half_modHalf_ne _ _ hg]
  · rfl

@[simp] theorem clock_loseSlot (s : State) (n : SlotNo) (h : Half) :
    ((s.loseSlot n).half h).clock = (s.half h).clock := by
  simp [State.loseSlot]

@[simp] theorem half_modClient (s : State) (k : ClNo) (f : Client → Client) (h : Half) :
    (s.modClient k f).half h = s.half h := rfl

@[simp] theorem half_evtIf (s : State) (c : Bool) (pg b : Nat) (h : Half) : (s.evtIf c pg b).half h = s.half h := by
  simp [State.half]

@[simp] theorem clock_reportLoss (k : ClNo) (s : State) (h : Half) :
    ((reportLoss k s).half h).clock = (s.half h).clock := by
  simp [reportLoss]

@[simp] theorem clock_clientBeat (k : ClNo) (s : State) (h : Half) :
    ((clientBeat k s).half h).clock = (s.half h).clock := by
  simp only [clientBeat]
  split_ifs <;> simp

theorem clock_clientsBeat (d : Dom) (s : State) (h : Half) : ((clientsBeat d s).half h).clock = (s.half h).clock := by
  unfold clientsBeat
  induction allClients generalizing s with
  | nil => rfl
  | cons k ks ih =>
    rw [List.foldl_cons, ih]
    split_ifs
    · exact clock_clientBeat k s h
    · rfl

theorem now_beatBoundary (h : Half) (d : Dom) (xoPhase : Int) {s : State} (hon : s.gridOn h = true) :
    (beatBoundary h d xoPhase s).now = s.now + s.cyclesToBeat h d := by
  have hclock := clock_clientsBeat d s h
  have hon' : (clientsBeat d s).gridOn h = true := (gridOn_congr (by simp) hclock).trans hon
  have hfollowed : (halfBeat h d xoPhase (clientsBeat d s)).now = s.now + s.cyclesToBeat h d := by
    rw [now_halfBeat h d xoPhase hon', cyclesToBeat_congr hclock]; simp
  by_cases hbus : s.busHalf = some h
  · simp [beatBoundary, hon, hbus, hfollowed]
  · simp [beatBoundary, hon, hbus, now_halfBeat h d xoPhase hon]

/-- Settles O9: a domain has reached its boundary exactly from `cyclesToBeat` on, and only `advance` moves common time. -/
theorem boundariesComeWhenDue : Obligations.BoundariesComeWhenDue := by
  intro s h d hon hgrid _ _ htick
  have hreach := reaches_next_beat_iff (d := d) hon hgrid htick
  exact ⟨(hreach _).mpr le_rfl, fun n hn => not_le.mp ((hreach n).not.mpr (not_le.mpr hn)),
    _, rfl, now_beatBoundary h d 0 hon⟩

end Sys2Proof.Machine
end

section
/-!
PROOFS. Scope: claims drive the arbiters, and a switch takes no arbitrated time back (O26).
-/

namespace Sys2Proof.Machine

/-! ## Claims reach the arbiters (09 R289 to R291) -/

theorem claims_noClaim (s : State) : s.noClaim.arb.claims = s.arb.claims := by
  unfold State.noClaim
  split_ifs <;> simp

theorem parity_noClaim (s : State) : s.noClaim.arb.parity = s.arb.parity := by
  unfold State.noClaim
  split_ifs <;> simp

@[simp] theorem claims_actClaims (s : State) (peer : Bool) : (s.actClaims peer).arb.claims = s.arb.claims := rfl

@[simp] theorem parity_actClaims (s : State) (peer : Bool) : (s.actClaims peer).arb.parity = s.arb.parity := rfl

@[simp] theorem acted_actClaims (s : State) (peer : Bool) : (s.actClaims peer).arb.acted = s.arb.claims := rfl

@[simp] theorem persist_actClaims (s : State) (peer : Bool) : (s.actClaims peer).arb.persist = false := rfl

/-- What the arbiters make of a half's claim before they look whether any claim is left. -/
def State.judgeClaims (s : State) (h : Half) (c : Option (BitVec 8)) : State :=
  let cs := s.arb.claims.set h c
  let s1 := { s with arb := { s.arb with claims := cs } }
  if cs = s.arb.acted then { s1 with arb := { s1.arb with persist := false } }
  else if peerOnly (cs.of .A) (s.arb.acted.of .A) && peerOnly (cs.of .B) (s.arb.acted.of .B) then
    { s1 with arb := { s1.arb with persist := true } }
  else s1.actClaims false

theorem newClaims_eq (s : State) (h : Half) (c : Option (BitVec 8)) :
    s.newClaims h c = if (s.judgeClaims h c).noneLeft then (s.judgeClaims h c).noClaim else s.judgeClaims h c := rfl

@[simp] theorem claims_judgeClaims (s : State) (h : Half) (c : Option (BitVec 8)) :
    (s.judgeClaims h c).arb.claims = s.arb.claims.set h c := by
  simp only [State.judgeClaims]
  split_ifs <;> rfl

@[simp] theorem parity_judgeClaims (s : State) (h : Half) (c : Option (BitVec 8)) :
    (s.judgeClaims h c).arb.parity = s.arb.parity := by
  simp only [State.judgeClaims]
  split_ifs <;> rfl

@[simp] theorem claims_newClaims (s : State) (h : Half) (c : Option (BitVec 8)) :
    (s.newClaims h c).arb.claims = s.arb.claims.set h c := by
  rw [newClaims_eq]
  split_ifs
  · rw [claims_noClaim, claims_judgeClaims]
  · exact claims_judgeClaims s h c

@[simp] theorem parity_newClaims (s : State) (h : Half) (c : Option (BitVec 8)) :
    (s.newClaims h c).arb.parity = s.arb.parity := by
  rw [newClaims_eq]
  split_ifs
  · rw [parity_noClaim, parity_judgeClaims]
  · exact parity_judgeClaims s h c

theorem winner_ne_none_of_claim {p : Pair (Option (BitVec 8))} {h : Half} {c : BitVec 8} (hc : p.of h = some c) :
    winner p ≠ none := by
  obtain ⟨a, b⟩ := p
  cases h with
  | A =>
    obtain rfl : a = some c := hc
    cases b with
    | none => simp [winner]
    | some y => simp only [winner]; split_ifs <;> simp
  | B =>
    obtain rfl : b = some c := hc
    cases a with
    | none => simp [winner]
    | some x => simp only [winner]; split_ifs <;> simp

/-- With a claim on its lines the arbiters are never left without one. -/
theorem newClaims_some (s : State) (h : Half) (c : BitVec 8) : s.newClaims h (some c) = s.judgeClaims h (some c) := by
  have hwin : winner (s.arb.claims.set h (some c)) ≠ none := winner_ne_none_of_claim (Pair.of_set_self _ h _)
  rw [newClaims_eq, if_neg]
  simp [State.noneLeft, hwin]

/-- A change in PEER_OK alone waits, any other is acted on at once (R290). -/
theorem acted_judgeClaims {s : State} {h : Half} {c : Option (BitVec 8)} (hne : s.arb.claims.set h c ≠ s.arb.acted) :
    if peerOnly ((s.arb.claims.set h c).of .A) (s.arb.acted.of .A) = true ∧
        peerOnly ((s.arb.claims.set h c).of .B) (s.arb.acted.of .B) = true
    then (s.judgeClaims h c).arb.acted = s.arb.acted ∧ (s.judgeClaims h c).arb.persist = true
    else (s.judgeClaims h c).arb.acted = (s.judgeClaims h c).arb.claims ∧ (s.judgeClaims h c).arb.persist = false := by
  split_ifs with hpeer
  · simp [State.judgeClaims, hne, hpeer]
  · simp [State.judgeClaims, hne, hpeer]

/-- The half counts as publishing from now on (R288). -/
def State.notePublishing (s : State) (h : Half) : State := { s with arb := { s.arb with pub := s.arb.pub.set h true } }

/-- A half that publishes a claim tells the arbiters of it, and its peer of nothing. -/
theorem claimChange_of_claim {s : State} {h : Half} {c : BitVec 8} (hpar : s.arb.parity.of h = false)
    (hclaim : s.claimOf h = some c) :
    claimChange h s = (s.notePublishing h).newClaims h (some c) := by
  have hseen : (s.notePublishing h).seenClaim h = some c := by
    have hclaim' : (s.notePublishing h).claimOf h = some c := hclaim
    rw [State.seenClaim, hclaim']
    exact if_neg (by simp [State.notePublishing, hpar])
  rw [← hseen]
  simp [claimChange, hclaim, State.notePublishing]

/-! ## The higher claim wins (01 R26, R27; 09 R290) -/

theorem winner_of_lt {x y : BitVec 8} (hlt : y.toNat < x.toNat) :
    winner ⟨some x, some y⟩ = some .A ∧ winner ⟨some y, some x⟩ = some .B := by
  simp [winner, hlt, hlt.le]

/-! ## Sets taken early leave a half's clock and role -/

/-- What no set that comes into force on a half changes of it: the words that move its times, and its role. -/
def HalfSt.motion (x : HalfSt) : HalfClock × Role := (x.clock, x.role)

theorem timeOf_of_clock {x y : HalfSt} (hclock : x.clock = y.clock) (d : Dom) : x.timeOf d = y.timeOf d := by
  have hdoms : x.doms = y.doms := congrArg HalfClock.doms hclock
  have hphase : x.gphase = y.gphase := congrArg HalfClock.gphase hclock
  rw [HalfSt.timeOf, HalfSt.timeOf, hdoms, hphase]

theorem motion_modHalf (s : State) (h k : Half) {f : HalfSt → HalfSt} (hf : ∀ x, (f x).motion = x.motion) :
    ((s.modHalf h f).half k).motion = (s.half k).motion := by
  by_cases hk : k = h
  · rw [hk, half_modHalf_self, hf]
  · rw [half_modHalf_ne _ _ hk]

theorem motion_setTaken (h k : Half) (c : ConfSet) (s : State) :
    ((setTaken h c s).half k).motion = (s.half k).motion := by
  unfold setTaken
  split
  · split_ifs
    · exact motion_modHalf s h k fun _ => rfl
    · rfl
  · rfl

theorem motion_takeOwn (h k : Half) (c : ConfSet) (s : State) :
    ((takeOwn h c s).half k).motion = (s.half k).motion := by
  unfold takeOwn
  split_ifs
  · exact motion_modHalf s h k fun _ => rfl
  · exact motion_setTaken h k c s

theorem motion_giveSet (h k : Half) (c : ConfSet) (s : State) :
    ((giveSet h c s).half k).motion = (s.half k).motion := by
  unfold giveSet
  split_ifs
  · exact motion_modHalf s h k fun _ => rfl
  · exact motion_modHalf s h k fun _ => rfl
  · rfl

theorem half_eq_of_halves {s t : State} (hh : t.halves = s.halves) (k : Half) : t.half k = s.half k := by
  rw [State.half, hh, State.half]

theorem motion_commitSet (h k : Half) (d : Dom) (n pg : Nat) (s : State) :
    ((commitSet h d n pg s).half k).motion = (s.half k).motion := by
  simp only [commitSet]
  split_ifs
  · rw [half_eq_of_halves (s := s) (by simp)]
  · rw [motion_giveSet, motion_takeOwn]
    split <;> rw [half_eq_of_halves (s := s) (by simp)]

theorem motion_settleEarly (h k : Half) (s : State) : ((settleEarly h s).half k).motion = (s.half k).motion := by
  unfold settleEarly
  induction (s.half h).early with
  | nil => rfl
  | cons c cs ih => rw [List.foldr_cons, motion_commitSet, ih]

theorem settleEarly_of_none {h : Half} {s : State} (hnone : (s.half h).early = []) : settleEarly h s = s := by
  rw [settleEarly, hnone, List.foldr_nil]

/-! ## The time bus switches (09 R293 to R295) -/

/-- The arbitrated time of a domain that a switch must not take back: none where the half has begun a new sequence of values. -/
def State.heldTime (s : State) (d : Dom) : Option Nat :=
  if s.arb.fresh then none else if s.busHalf.isSome then some (s.busTime d) else s.arb.last.get d

/-- Holding the time where the new half is behind it comes to the later of both. -/
theorem max_switchDom (tlast : Option Nat) (tnew : Nat) (fromHalf : Bool) :
    max tnew ((switchDom tlast tnew fromHalf).1.getD 0) = max tnew (tlast.getD 0) := by
  cases tlast with
  | none => rfl
  | some t =>
    by_cases hbehind : tnew < t
    · simp [switchDom, hbehind]
    · simp [switchDom, hbehind, not_lt.mp hbehind]

/-- A switch: the arbiters go to the half that they follow and hold its times against the old ones, and the sets that it took
before are settled. -/
theorem switchBus_eq {s : State} {h : Half} (hf : s.followed = some h) (hb : s.busHalf ≠ some h) :
    ∃ u : State, switchBus s = (settleEarly h u).setEvt pgHalf evHSwitch ∧ u.halves = s.halves ∧
      u.arb.active = some h ∧ u.arb.swCnt = s.arb.swCnt + 1 ∧ u.arb.fresh = false ∧
      ∀ d, u.arb.last.get d = (switchDom (s.heldTime d) ((s.half h).timeOf d) s.busHalf.isSome).1 := by
  simp only [switchBus, hf, if_neg hb]
  cases hbus : s.busHalf with
  | none =>
    exact ⟨_, rfl, by simp, by simp, by simp, by simp, fun d => by
      simp [State.heldTime, hbus, Vector.get_eq_getElem]⟩
  | some k =>
    exact ⟨_, rfl, by simp, by simp, by simp, by simp, fun d => by
      simp [State.heldTime, hbus, Vector.get_eq_getElem]⟩

/-- What a switch leaves of each half, and all of it where no set waits for the switch. -/
theorem switchBus_halves {s : State} {h : Half} (hf : s.followed = some h) (hb : s.busHalf ≠ some h) :
    (∀ k, ((switchBus s).half k).motion = (s.half k).motion) ∧
      ((s.half h).early = [] → (switchBus s).halves = s.halves) := by
  obtain ⟨u, heq, hhalves, -⟩ := switchBus_eq hf hb
  have hset : (switchBus s).halves = (settleEarly h u).halves := by rw [heq]; simp
  refine ⟨fun k => ?_, fun hnone => ?_⟩
  · rw [half_eq_of_halves hset, motion_settleEarly, half_eq_of_halves hhalves]
  · have hnone' : (u.half h).early = [] := by rw [half_eq_of_halves hhalves, hnone]
    rw [hset, settleEarly_of_none hnone', hhalves]

theorem switchBus_arb {s : State} {h : Half} (hf : s.followed = some h) (hb : s.busHalf ≠ some h) :
    (switchBus s).busHalf = some h ∧ (switchBus s).arb.swCnt = s.arb.swCnt + 1 ∧ (switchBus s).arb.fresh = false ∧
      (switchBus s).evtBit pgHalf evHSwitch = true := by
  obtain ⟨u, heq, -, hactive, hcnt, hfresh, -⟩ := switchBus_eq hf hb
  rw [heq]
  exact ⟨by simpa [State.busHalf] using hactive, by simpa using hcnt, by simpa using hfresh,
    evtBit_setEvt_self _ _ _ (by decide)⟩

/-- After a switch a domain's arbitrated time is the new half's, or the old one while the new half is behind it (R294). -/
theorem busTime_switchBus {s : State} {h : Half} (hf : s.followed = some h) (hb : s.busHalf ≠ some h) (d : Dom) :
    (switchBus s).busTime d = max ((s.half h).timeOf d) ((s.heldTime d).getD 0) := by
  have hbus := (switchBus_arb hf hb).1
  have hmotion := (switchBus_halves hf hb).1 h
  have htime : ((switchBus s).half h).timeOf d = (s.half h).timeOf d := timeOf_of_clock (congrArg Prod.fst hmotion) d
  obtain ⟨u, heq, -, -, -, -, hlast⟩ := switchBus_eq hf hb
  have hlast' : (switchBus s).arb.last.get d = u.arb.last.get d := by rw [heq]; simp
  simp only [State.busTime, hbus]
  rw [htime, hlast', hlast, max_switchDom]

theorem busTime_le_heldTime {s : State} (hfresh : s.arb.fresh = false) (d : Dom) :
    s.busTime d ≤ (s.heldTime d).getD 0 := by
  cases hbus : s.busHalf with
  | none => simp [State.busTime, hbus]
  | some k => simp [State.heldTime, hfresh, hbus]

theorem switchBus_of_followed {s : State} {h : Half} (hf : s.followed = some h) (hb : s.busHalf = some h) :
    switchBus s = s := by
  simp [switchBus, hf, hb]

/-! ## The common die's clock switches (04 R142) -/

theorem clkArbSwitch_of_ne {s : State} {h : Half} (hf : s.followed = some h) (hclock : s.pwr.lathClock = true)
    (hne : s.arb.clock ≠ some h) :
    clkArbSwitch s = { s with arb := { s.arb with clock := some h } }.setEvt pgLath evClkArbSwitch := by
  simp [clkArbSwitch, hf, hclock, hne]

theorem busTime_clkArbSwitch {s : State} {h : Half} (hf : s.followed = some h) (hclock : s.pwr.lathClock = true)
    (hne : s.arb.clock ≠ some h) (d : Dom) : (clkArbSwitch s).busTime d = s.busTime d := by
  rw [clkArbSwitch_of_ne hf hclock hne]
  simp [State.busTime, State.busHalf, State.half]

/-! ## What the arbiters' commands do -/

theorem claimChange_gives {s : State} {h : Half} {c : BitVec 8} (hpar : s.arb.parity.of h = false)
    (hclaim : s.claimOf h = some c) (hne : s.arb.claims.set h (some c) ≠ s.arb.acted) :
    Gives (.claimChange h) s (fun t =>
      t.arb.claims = s.arb.claims.set h (some c) ∧
      (if peerOnly ((s.arb.claims.set h (some c)).of .A) (s.arb.acted.of .A) = true ∧
          peerOnly ((s.arb.claims.set h (some c)).of .B) (s.arb.acted.of .B) = true
       then t.arb.acted = s.arb.acted ∧ t.arb.persist = true
       else t.arb.acted = t.arb.claims ∧ t.arb.persist = false)) := by
  refine ⟨_, rfl, ?_⟩
  rw [claimChange_of_claim hpar hclaim, newClaims_some]
  exact ⟨claims_judgeClaims _ h _, acted_judgeClaims (s := s.notePublishing h) hne⟩

theorem peerOkPersist_gives {s : State} (hpersist : s.arb.persist = true) :
    Gives .peerOkPersist s (fun t =>
      t.arb.acted = s.arb.claims ∧ t.arb.persist = false ∧ t.arb.claims = s.arb.claims) := by
  refine ⟨_, rfl, ?_⟩
  simp [peerOkPersist, hpersist]

theorem claimParityError_gives {s : State} {h : Half} (hpar : s.arb.parity.of h = false) :
    Gives (.claimParityError h) s (fun t => t.arb.parity.of h = true ∧ t.arb.claims = s.arb.claims.set h none ∧
      t.arb.parity.of h.peer = s.arb.parity.of h.peer) := by
  refine ⟨_, rfl, ?_⟩
  simp [claimParityError, hpar]

theorem claimParityClear_gives {s : State} {h : Half} (hpar : s.arb.parity.of h = true) :
    Gives (.claimParityClear h) s (fun t =>
      t.arb.parity.of h = false ∧ t.arb.claims = s.arb.claims.set h (s.claimOf h)) := by
  have hclaim : ({ s with arb := { s.arb with parity := s.arb.parity.set h false } } : State).claimOf h = s.claimOf h := rfl
  refine ⟨_, rfl, ?_⟩
  simp [claimParityClear, hpar, hclaim]

theorem switch_gives {s : State} {h : Half} (hf : s.followed = some h) (hb : s.busHalf ≠ some h) :
    Gives .switch s (fun t => t.busHalf = some h ∧ t.arb.swCnt = s.arb.swCnt + 1 ∧ t.evtBit pgHalf evHSwitch = true ∧
      t.arb.fresh = false ∧ (s.arb.fresh = false → ∀ d, s.busTime d ≤ t.busTime d) ∧
      (s.arb.fresh = true → ∀ d, t.busTime d = (s.half h).timeOf d) ∧ (∀ d, (s.half h).timeOf d ≤ t.busTime d) ∧
      (∀ k, (t.half k).doms = (s.half k).doms ∧ (t.half k).role = (s.half k).role) ∧
      ((s.half h).early = [] → t.halves = s.halves)) := by
  obtain ⟨hbus, hcnt, hfresh, hevt⟩ := switchBus_arb hf hb
  obtain ⟨hmotion, hhalves⟩ := switchBus_halves hf hb
  refine ⟨_, rfl, hbus, hcnt, hevt, hfresh, fun hold d => ?_, fun hnew d => ?_, fun d => ?_, fun k => ?_, hhalves⟩
  · rw [busTime_switchBus hf hb]
    exact (busTime_le_heldTime hold d).trans (le_max_right _ _)
  · rw [busTime_switchBus hf hb]
    simp [State.heldTime, hnew]
  · rw [busTime_switchBus hf hb]
    exact le_max_left _ _
  · obtain ⟨hclock, hrole⟩ := Prod.ext_iff.mp (hmotion k)
    exact ⟨congrArg HalfClock.doms hclock, hrole⟩

theorem clkArbSwitch_gives {s : State} {h : Half} (hf : s.followed = some h) (hclock : s.pwr.lathClock = true)
    (hne : s.arb.clock ≠ some h) :
    Gives .clkArbSwitch s (fun t => t.arb.clock = some h ∧ t.evtBit pgLath evClkArbSwitch = true ∧
      (∀ d, t.busTime d = s.busTime d) ∧ t.halves = s.halves) := by
  refine ⟨_, rfl, ?_, ?_, busTime_clkArbSwitch hf hclock hne, by simp⟩
  · simp [clkArbSwitch_of_ne hf hclock hne]
  · rw [clkArbSwitch_of_ne hf hclock hne]
    exact evtBit_setEvt_self _ _ _ (by decide)

/-- Settles O26: a claim on the lines is judged against the claims last acted on, and a switch of the time bus holds the new half's
times against the arbitrated ones. -/
theorem claimsDriveTheArbiters : Obligations.ClaimsDriveTheArbiters :=
  ⟨fun _ _ _ => ⟨claimChange_gives, peerOkPersist_gives, claimParityError_gives, claimParityClear_gives⟩,
    fun _ _ => winner_of_lt, fun _ => ⟨rfl, rfl⟩, rfl, fun s _ hf =>
      ⟨switch_gives hf, fun hb => ⟨s, congrArg _ (switchBus_of_followed hf hb), rfl⟩, clkArbSwitch_gives hf⟩⟩

end Sys2Proof.Machine
end

section
/-!
PROOFS. Scope: the first cause of a bus error (O11), and the state after reset (O4).
-/

namespace Sys2Proof.Machine

/-! ## The first cause in order (02 R596) -/

theorem rank_eq_idxOf (c : Cause) :
    ([Cause.oversize, .absent, .reserved, .unaligned, .narrowWrite, .spanning, .narrowPop, .shadowWrite, .readOnly,
        .lockViol, .woViol, .indTable, .indRange] : List Cause).idxOf c = c.rank := by
  cases c <;> rfl

/-- One step of the search for the first cause: the best so far, or one of a smaller rank. -/
def better : Option Cause → Cause → Option Cause
  | none, c => some c
  | some b, c => if c.rank < b.rank then some c else some b

theorem firstCause_eq_foldl (l : List Cause) : firstCause l = l.foldl better none := by
  rw [firstCause]
  congr 1
  funext b c
  cases b <;> rfl

/-- From a cause met before, the search ends on a cause of the least rank. -/
theorem foldl_better_some (l : List Cause) (b : Cause) :
    ∃ c, l.foldl better (some b) = some c ∧ c ∈ b :: l ∧ ∀ d ∈ b :: l, c.rank ≤ d.rank := by
  induction l generalizing b with
  | nil => exact ⟨b, rfl, List.mem_cons_self, by simp⟩
  | cons x r ih =>
    obtain ⟨c, hc, hmem, hle⟩ := ih (if x.rank < b.rank then x else b)
    refine ⟨c, ?_, ?_, ?_⟩
    · rw [List.foldl_cons, better, ← hc, apply_ite some]
    · split_ifs at hmem <;> simp only [List.mem_cons] at hmem ⊢ <;> tauto
    · have hb := hle _ List.mem_cons_self
      have hr : ∀ d ∈ r, c.rank ≤ d.rank := fun d hd => hle d (List.mem_cons_of_mem _ hd)
      have hboth : c.rank ≤ x.rank ∧ c.rank ≤ b.rank := by split_ifs at hb <;> omega
      simpa [hboth] using hr

theorem firstCause_spec (l : List Cause) :
    (l = [] ∧ firstCause l = none) ∨
      ∃ c, firstCause l = some c ∧ c ∈ l ∧ ∀ d ∈ l, c.rank ≤ d.rank := by
  rw [firstCause_eq_foldl]
  cases l with
  | nil => exact .inl ⟨rfl, rfl⟩
  | cons x r => exact .inr (foldl_better_some r x)

/-- Settles O11: the search keeps the cause of the least rank. -/
theorem firstCauseInOrder : Obligations.FirstCauseInOrder := by
  intro l c
  simp only [rank_eq_idxOf]
  rcases firstCause_spec l with ⟨rfl, hnone⟩ | ⟨b, hb, hmem, hle⟩
  · simp [hnone]
  · have hne : l ≠ [] := List.ne_nil_of_mem hmem
    refine ⟨by simp [hb, hne], fun hc => ?_⟩
    obtain rfl : b = c := by simpa [hb] using hc
    exact ⟨hmem, hle⟩

/-! ## After reset -/

theorem get_replicate {α : Type} {n : Nat} (x : α) (i : Fin n) : (Vector.replicate n x).get i = x := by
  simp [Vector.get_eq_getElem]

theorem half_reset (h : Half) : State.reset.half h = {} := by cases h <;> rfl

theorem dom_reset (h : Half) (d : Dom) : State.reset.dom h d = {} := by
  rw [State.dom, half_reset]
  exact get_replicate _ _

theorem queue_reset (p : Part) (q : QNo) : State.reset.queue p q = {} := by
  have hpart : State.reset.part p = {} := get_replicate _ _
  rw [State.queue, hpart]
  exact get_replicate _ _

theorem slotKey_reset (n : KeyNo) : State.reset.slotKey n = {} := get_replicate _ _

/-- Settles O4: every table is empty after reset, so that it reads as its default. -/
theorem resetIsAsTheSpecSays : Obligations.ResetIsAsTheSpecSays := by
  refine ⟨⟨rfl, rfl, fun h => ?_, fun h d => ?_, fun p q => ?_, fun _ _ => rfl, fun _ => ⟨rfl, rfl, rfl, rfl, rfl⟩,
    fun n => ?_, fun _ => rfl, rfl, rfl⟩, rfl, rfl,
    Nat.zero_le _, Nat.zero_le _, by decide⟩
  · rw [half_reset]
    cases h <;> exact ⟨rfl, rfl⟩
  · rw [dom_reset]
    exact ⟨rfl, rfl, rfl, rfl, rfl, rfl⟩
  · rw [queue_reset]
    exact ⟨rfl, rfl⟩
  · rw [slotKey_reset]
    exact ⟨rfl, rfl⟩

end Sys2Proof.Machine
end

section
/-!
PROOFS. Scope: what a host's access of one word, of two and of a pair does, and what a bus error leaves.
-/

namespace Sys2Proof.Machine

/-! ## The parts of a host access -/

theorem extract_setWidth_64 (v : Word) : (v.setWidth 64).extractLsb' 0 32 = v := by
  apply BitVec.eq_of_toNat_eq
  simp
  omega

theorem firstCause_ne_none {l : List Cause} (h : l ≠ []) : ∃ c, firstCause l = some c := by
  rcases firstCause_spec l with ⟨rfl, -⟩ | ⟨c, hc, -⟩
  · exact absurd rfl h
  · exact ⟨c, hc⟩

theorem mem_of_firstCause {l : List Cause} {c : Cause} (h : firstCause l = some c) : c ∈ l := by
  rcases firstCause_spec l with ⟨rfl, -⟩ | ⟨b, hb, hmem, -⟩
  · simp [firstCause] at h
  · rw [hb] at h
    exact Option.some.inj h ▸ hmem

theorem firstCause_singleton (c : Cause) : firstCause [c] = some c := rfl

/-- The causes of a write within one word. -/
def oneWordCauses (s : State) (a : Access) (off : Nat) (v : BitVec 64) : List Cause :=
  sizeCauses a off ++ wordCauses s a.part (off / 4 * 4) (v.extractLsb' 0 32)

/-- A write within one word that meets a cause is a bus error of the first of them, and nothing else. -/
theorem hostWrite_error {a : Access} {off : Nat} {v : BitVec 64} {s : State} {c : Cause} (x : Beside)
    (hup : s.hostUp a.part = true) (hoff : off < 2 ^ 20) (hone : off % 4 + a.width ≤ 4)
    (hc : firstCause (oneWordCauses s a off v) = some c) :
    hostWrite a off v x s = busError s a.part c true off a.be := by
  have hoff' : ¬ 2 ^ 20 ≤ off := by omega
  have htwo : ¬ off / 4 * 4 + 4 < off + a.width := by omega
  have hclean : ((sizeCauses a off).isEmpty && (wordCauses s a.part (off / 4 * 4) (v.extractLsb' 0 32)).isEmpty) = false := by
    have hne : oneWordCauses s a off v ≠ [] := List.ne_nil_of_mem (mem_of_firstCause hc)
    simpa [oneWordCauses, Bool.and_eq_false_iff, imp_iff_not_or] using hne
  rw [oneWordCauses] at hc
  simp only [hostWrite, hup, hoff', htwo, hclean]
  simp [hc]

theorem sizeCauses_whole {a : Access} {off : Nat} (hw : a.width = 4) (hbe : fullBe a = true) (hal : off % 4 = 0) :
    sizeCauses a off = [] := by
  simp [sizeCauses, hw, hbe, hal]

/-- A whole write of one word that meets no cause does what its word does. -/
theorem hostWrite_whole {a : Access} {off : Nat} {v : BitVec 64} {s : State} (x : Beside) (hup : s.hostUp a.part = true)
    (hw : a.width = 4) (hbe : fullBe a = true) (hoff : off < 2 ^ 20) (hal : off % 4 = 0)
    (hnone : wordCauses s a.part off (v.extractLsb' 0 32) = []) :
    hostWrite a off v x s = writeWord a x off (v.extractLsb' 0 32) s := by
  have hoff' : ¬ 2 ^ 20 ≤ off := by omega
  have hword : off / 4 * 4 = off := by omega
  simp only [hostWrite, hup, hoff', hword, hnone, sizeCauses_whole hw hbe hal, hw, firstCause]
  simp

section
variable {a : Access} {off : Nat} {v : BitVec 64} {s : State} (x : Beside) (hup : s.hostUp a.part = true) (hw : a.width = 8)
  (hbe : fullBe a = true) (hoff : off < 2 ^ 20) (hal : off % 8 = 0)
  (hlo : wordCauses s a.part off (v.extractLsb' 0 32) = [])
  (hhi : wordCauses (writeWord a x off (v.extractLsb' 0 32) s) a.part (off + 4) (v.extractLsb' 32 32) = [])
include hup hw hbe hoff hal hlo hhi

/-- A whole write of two registers that meets no cause is its words in ascending order (02 R62, R73). -/
theorem hostWrite_two_words (hpair : widePair? off = none) :
    hostWrite a off v x s = writeWord a x (off + 4) (v.extractLsb' 32 32) (writeWord a x off (v.extractLsb' 0 32) s) := by
  have hoff' : ¬ 2 ^ 20 ≤ off := by omega
  have hword : off / 4 * 4 = off := by omega
  have hsize : sizeCauses a off = [] := by simp [sizeCauses, hw, hbe, hal]
  simp only [hostWrite, hup, hoff', hword, hlo, hsize, hw, firstCause]
  simp [hhi, hpair]

/-- The two words of a wide pair are one buffered write (02 R72). -/
theorem hostWrite_pair {ml mh : Word} (hpair : widePair? off = some (ml, mh)) :
    hostWrite a off v x s = writeBuffered (off / 4096)
      [(off % 4096, v.extractLsb' 0 32, ml), (off % 4096 + 4, v.extractLsb' 32 32, mh)] a s := by
  have hoff' : ¬ 2 ^ 20 ≤ off := by omega
  have hword : off / 4 * 4 = off := by omega
  have hsize : sizeCauses a off = [] := by simp [sizeCauses, hw, hbe, hal]
  simp only [hostWrite, hup, hoff', hword, hlo, hsize, hw, firstCause]
  simp [hhi, hpair]
end

/-! ## What a bus error does (02 R76, R78) -/

theorem mem_outs_emit {s : State} {o x : Out} (h : x ∈ s.outs) : x ∈ (s.emit o).outs :=
  List.mem_append_left _ h

theorem mem_outs_msix {s : State} {x : Out} (p : Part) (v : Nat) (h : x ∈ s.outs) : x ∈ (s.msix p v).outs := by
  simp only [State.msix]
  split_ifs
  · exact h
  · simpa using mem_outs_emit h

theorem mem_outs_setEvt {s : State} {x : Out} (pg b : Nat) (h : x ∈ s.outs) : x ∈ (s.setEvt pg b).outs := by
  simp only [State.setEvt, State.irqPage]
  split
  · split
    · simpa using h
    · exact mem_outs_msix _ _ (by simpa using h)
  · simpa using h

theorem mem_outs_busError {s : State} {x : Out} (p : Part) (c : Cause) (wr : Bool) (off : Nat) (be : BitVec 8)
    (h : x ∈ s.outs) : x ∈ (busError s p c wr off be).outs := by
  have hevt : ∀ b, x ∈ (s.evtIf b (off / 4096) evAccess).outs := fun b => by
    cases b
    · exact h
    · exact mem_outs_setEvt _ _ h
  simp only [busError]
  split_ifs <;> simpa using hevt _

theorem evtBit_busError {s : State} {p : Part} {off : Nat} (c : Cause) (wr : Bool) (be : BitVec 8)
    (hk : (pageKind (off / 4096)).isSome = true) (hv : s.visible p (off / 4096) = true) :
    (busError s p c wr off be).evtBit (off / 4096) evAccess = true := by
  have hlt : evAccess < 32 := by decide
  simp only [State.evtBit, busError]
  split_ifs <;> simp [hk, hv, hlt]

/-- The entry of a partition's bus-error log that a bus error leaves (02 R77). -/
def busEntry (s : State) (p : Part) (c : Cause) (wr : Bool) (off : Nat) (be : BitVec 8) : BusErr :=
  { cause := c, isWrite := wr, lost := min 31 (s.part p).busLost, seq := none, be := be.extractLsb' 0 4,
    off := BitVec.ofNat 20 off, ident := s.ident }

theorem part_evtIf (s : State) (c : Bool) (pg b : Nat) (p : Part) : (s.evtIf c pg b).part p = s.part p := by
  simp [State.part]

theorem busLog_busError_of_room {s : State} {p : Part} (c : Cause) (wr : Bool) (off : Nat) (be : BitVec 8)
    (hroom : (s.part p).busLog.length < 16) :
    ((busError s p c wr off be).part p).busLog = (s.part p).busLog ++ [busEntry s p c wr off be] := by
  simp only [busError, part_evtIf, hroom, if_true]
  simp [State.part, State.setPart, busEntry]

theorem busLog_busError_of_full {s : State} {p : Part} (c : Cause) (wr : Bool) (off : Nat) (be : BitVec 8)
    (hfull : 16 ≤ (s.part p).busLog.length) :
    ((busError s p c wr off be).part p).busLost = (s.part p).busLost + 1 ∧
      ((busError s p c wr off be).part p).busLog = (s.part p).busLog := by
  simp only [busError, part_evtIf, if_neg (not_lt.mpr hfull)]
  simp [State.part, State.setPart]

end Sys2Proof.Machine
end

section
/-!
PROOFS. Scope: bus errors change no register (O12), and writes of one and two words (O13).
-/

namespace Sys2Proof.Machine

/-! ## Accesses that are bus errors (02 R76, R80, R596) -/

/-- What an access that is a bus error leaves: every register, and the trace of 02 R76 to R78. -/
theorem busError_leaves (s : State) (p : Part) (c : Cause) (wr : Bool) (off : Nat) (be : BitVec 8) :
    (∀ pg o, (busError s p c wr off be).reg pg o = s.reg pg o) ∧
    ((pageKind (off / 4096)).isSome = true → s.visible p (off / 4096) = true →
      (busError s p c wr off be).evtBit (off / 4096) evAccess = true) ∧
    ((s.part p).busLog.length < 16 →
      ((busError s p c wr off be).part p).busLog = (s.part p).busLog ++ [busEntry s p c wr off be]) ∧
    ((s.part p).busLog.length ≥ 16 → ((busError s p c wr off be).part p).busLost = (s.part p).busLost + 1 ∧
      ((busError s p c wr off be).part p).busLog = (s.part p).busLog) :=
  ⟨fun _ _ => by simp [reg_eq], evtBit_busError c wr be, busLog_busError_of_room c wr off be,
    busLog_busError_of_full c wr off be⟩

theorem exec_write {a : Access} {off : Nat} {v : BitVec 64} {s : State} (hbar : a.bar2 = false) :
    exec (.registerWrite a off (some v)) s = .next (hostWrite a off v {} s) := by
  simp [exec, execRegisterWrite, hostAccess, hbar]

theorem exec_read {a : Access} {off : Nat} {s : State} (hbar : a.bar2 = false) :
    exec (.registerWrite a off none) s = .next (hostRead a off s) := by
  simp [exec, execRegisterWrite, hostAccess, hbar]

/-- A locked page refuses a word of a register that is not exempt (02 R80). -/
theorem lockViol_mem_wordCauses {s : State} {p : Part} {addr : Nat} {v : Word} {k : PageKind} {r : RegRow}
    (hlock : (s.page (addr / 4096)).lock = true) (hvis : s.visible p (addr / 4096) = true)
    (hk : pageKind (addr / 4096) = some k) (hr : regRow? k (addr % 4096) = some r) (ho : addr % 4096 < 0x800)
    (hex : lockExempt k (addr % 4096) = false) : .lockViol ∈ wordCauses s p addr v := by
  have ho' : ¬ 0x800 ≤ addr % 4096 := by omega
  simp [wordCauses, hk, ho', hr, hvis, hlock, hex]

/-- Settles O12: an access with a cause comes to the bus error of the first of them, which leaves every register. -/
theorem busErrorsChangeNoRegister : Obligations.BusErrorsChangeNoRegister := by
  intro s a off v c hbar
  refine ⟨fun hup hoff hone hc => ⟨_, exec_write hbar, ?_⟩, fun hup hoff hc => ⟨_, exec_read hbar, ?_⟩,
    fun hone hlock hvis ⟨k, r, hk, hr, ho, hex⟩ => ⟨_, exec_write hbar, ?_⟩⟩
  · rw [hostWrite_error {} hup hoff hone hc]
    exact busError_leaves s a.part c true off a.be
  · obtain ⟨hreg, hevt, hroom, hfull⟩ := busError_leaves (s.emit (.readData a.part none)) a.part c false off a.be
    rw [hostRead_error hup hoff hc]
    exact ⟨hreg, mem_outs_busError _ _ _ _ _ (by simp [State.emit]), hevt, hroom, hfull⟩
  · by_cases hreach : s.hostUp a.part = true ∧ off < 2 ^ 20
    · obtain ⟨hup, hoff⟩ := hreach
      have hpage : off / 4 * 4 / 4096 = off / 4096 := by omega
      have hmem : Cause.lockViol ∈ oneWordCauses s a off v :=
        List.mem_append_right _ (lockViol_mem_wordCauses (hpage ▸ hlock) (hpage ▸ hvis) (hpage ▸ hk) hr (by omega) hex)
      obtain ⟨c, hc⟩ := firstCause_ne_none (List.ne_nil_of_mem hmem)
      rw [hostWrite_error {} hup hoff hone hc]
      exact (busError_leaves s a.part c true off a.be).1
    · have hnone : hostWrite a off v {} s = s := by
        rw [hostWrite, if_pos]
        simpa [imp_iff_not_or] using hreach
      intro pg o
      rw [hnone]

/-! ## Writes of CHAIN, of two words and of a wide pair (02 R62, R72, R73) -/

theorem mergeMask_and (old v m : Word) : mergeMask old v m &&& m = v &&& m := by
  ext i hi
  simp [mergeMask]
  grind

theorem mergeMask_and_not (old v m : Word) : mergeMask old v m &&& ~~~m = old &&& ~~~m := by
  ext i hi
  simp [mergeMask]
  grind

theorem regRow_chain (w : Fin 16) :
    regRow? .cnt (0x080 + 4 * w.val) = some { base := 0x080 + w.val * 4, rw := chainUsed w.val, reset := chainReset w.val } := by
  revert w
  decide

/-- A write of a chain word replaces the bits that are used, and no counter (19 R587). -/
theorem writeWord_chain (a : Access) (x : Beside) (w : Fin 16) (v : Word) (s : State) :
    writeWord a x (pgCnt * 4096 + (0x080 + 4 * w.val)) v s =
      s.setReg pgCnt (0x080 + 4 * w.val) (mergeMask (s.reg pgCnt (0x080 + 4 * w.val)) v (chainUsed w.val)) := by
  have hp : (pgCnt * 4096 + (0x080 + 4 * w.val)) / 4096 = pgCnt := by simp only [pgCnt]; omega
  have ho : (pgCnt * 4096 + (0x080 + 4 * w.val)) % 4096 = 0x080 + 4 * w.val := by simp only [pgCnt]; omega
  have hk : pageKind pgCnt = some .cnt := rfl
  have hlow : ¬ 0x080 + 4 * w.val < 0x040 := by omega
  simp only [writeWord, hp, ho, hk, regRow_chain, hlow, if_false]
  rfl

theorem exec_chainWrite {a : Access} {w : Fin 16} {v : Word} {s : State} (hall : Allowed a pgCnt (0x080 + 4 * w.val) v s) :
    exec (.chainWrite a w v) s = .next
      (s.setReg pgCnt (0x080 + 4 * w.val) (mergeMask (s.reg pgCnt (0x080 + 4 * w.val)) v (chainUsed w.val))) := by
  have hlow : pgCnt * 4096 + (0x080 + 4 * w.val) < 2 ^ 20 := by simp only [pgCnt]; omega
  rw [← writeWord_chain a {} w v s, ← rowWrite_allowed {} hall (by omega) hlow]
  rfl

/-- A word written in BAR2 is a word of the interrupt table (15 R467). -/
theorem exec_write_bar {a : Access} {off : Nat} {x : BitVec 64} {s : State} (hbar : a.bar2 = true)
    (hup : s.hostUp a.part = true) (hw : a.width = 4) (hoff : off < 2 ^ 14) (hal : off % 4 = 0) :
    exec (.registerWrite a off (some x)) s = .next (s.setBarWord a.part off (x.extractLsb' 0 32)) := by
  have hoff' : ¬ 16384 ≤ off := by omega
  simp [exec, execRegisterWrite, hostAccess, barAccess, hbar, hup, hw, hoff', hal, BitVec.setWidth_eq_extractLsb']

/-- Settles O13: an access without causes does what its words do, a wide pair's as one buffered write. -/
theorem writesOfOneAndTwoWords : Obligations.WritesOfOneAndTwoWords := by
  intro s a w v off x
  refine ⟨fun hall => ⟨_, exec_chainWrite hall, ?_, ?_, by simp⟩,
    fun hbar hup hw hbe hoff hal hnone => ⟨_, exec_write hbar, hostWrite_whole {} hup hw hbe hoff hal hnone⟩,
    fun hbar hup hw hoff hal => ⟨_, exec_write_bar hbar hup hw hoff hal, rfl, by simp⟩,
    fun hbar hup hw hbe hoff hal hlo hhi => ⟨fun hpair => ⟨_, exec_write hbar, ?_⟩, fun m n hpair => ⟨_, exec_write hbar, ?_⟩⟩⟩
  · rw [reg_setReg_self, mergeMask_and]
  · rw [reg_setReg_self, mergeMask_and_not]
  · exact hostWrite_two_words {} hup hw hbe hoff hal hlo hhi hpair
  · exact hostWrite_pair {} hup hw hbe hoff hal hlo hhi hpair

end Sys2Proof.Machine
end

section
/-!
PROOFS. Scope: a write-once register takes one write (O10).
-/

namespace Sys2Proof.Machine

/-! ## Write-once registers (02 R79) -/

/-- A row holds no write-once bits, or no other writable ones. -/
def RegRow.woAlone (r : RegRow) : Bool := r.wo == 0 || (r.rw == 0 && r.rwb == 0 && r.w1c == 0)

theorem all_ite {α : Type} (c : Prop) [Decidable c] (l m : List α) (f : α → Bool) :
    (if c then l else m).all f = if c then l.all f else m.all f := by split <;> rfl

theorem woAlone_wb (b : Nat) (m v : Word) : (wb b m v).all RegRow.woAlone = true := rfl

theorem woAlone_ro (b : Nat) (v : Word) : (ro b v).all RegRow.woAlone = true := rfl

theorem woAlone_roA (b stride n : Nat) (v : Word) : (roA b stride n v).all RegRow.woAlone = true := rfl

theorem woAlone_roP (b stride n : Nat) : (roP b stride n).all RegRow.woAlone = true := rfl

theorem woAlone_rsRows (n : Nat) : (rsRows n).all RegRow.woAlone = true := by
  unfold rsRows
  simp only [List.all_append, all_ite, woAlone_wb, woAlone_ro, woAlone_roA, woAlone_roP, List.all_nil, ite_self,
    Bool.and_self]

theorem woAlone_blockRows (k : PageKind) : (blockRows k).all RegRow.woAlone = true := by
  cases k with
  | rs n => exact woAlone_rsRows n
  | _ => rfl

theorem woAlone_headerRows : headerRows.all RegRow.woAlone = true := rfl

theorem woAlone_of_regAt {pg o : Nat} {r : RegRow} (h : regAt? pg o = some r) (hwo : r.wo ≠ 0) :
    r.rw = 0 ∧ r.rwb = 0 ∧ r.w1c = 0 := by
  obtain ⟨k, -, hrow⟩ := Option.bind_eq_some_iff.mp h
  have halone : r.woAlone = true := by
    rw [regRow?] at hrow
    split_ifs at hrow
    · exact List.all_eq_true.mp woAlone_headerRows r (List.mem_of_find?_eq_some hrow)
    · exact List.all_eq_true.mp (woAlone_blockRows k) r (List.mem_of_find?_eq_some hrow)
  rw [RegRow.woAlone, beq_false_of_ne hwo] at halone
  simpa [and_assoc] using halone

theorem pageKind_pgTd (d : Dom) : pageKind (pgTd d) = some (.td d.val) := by
  revert d
  decide

/-- The row of TDn_TROWEL, of which every writable bit is write-once (06 R231). -/
theorem regRow_trowel (n : Nat) : regRow? (.td n) 0x060 = some { base := 0x060, wo := 0x701 } := rfl

theorem trowel_place (d : Dom) : (pgTd d * 4096 + 0x060) / 4096 = pgTd d ∧ (pgTd d * 4096 + 0x060) % 4096 = 0x060 ∧
    (pgTd d * 4096 + 0x060) % 4 = 0 ∧ pgTd d * 4096 + 0x060 < 2 ^ 20 := by
  simp only [pgTd]
  omega

theorem writeWord_trowel (a : Access) (x : Beside) (d : Dom) (v : Word) (s : State) :
    writeWord a x (pgTd d * 4096 + 0x060) v s = writeOnce (pgTd d) 0x060 (v &&& 0x701) s := by
  obtain ⟨hp, ho, -, -⟩ := trowel_place d
  simp only [writeWord, hp, ho, pageKind_pgTd, regRow_trowel]
  rfl

theorem reg_writeOnce_self (pg o : Nat) (v : Word) (s : State) : (writeOnce pg o v s).reg pg o = v := by
  simp [reg_def, writeOnce, Page.setReg]

theorem reg_writeOnce_ne {pg o q r : Nat} (v : Word) (s : State) (h : q ≠ pg ∨ r ≠ o) :
    (writeOnce pg o v s).reg q r = s.reg q r := by
  by_cases hq : q = pg
  · subst hq
    have hr : r ≠ o := h.resolve_left (fun n => n rfl)
    simp [reg_def, writeOnce, Page.setReg, look_put_ne _ _ _ hr]
  · simp [reg_def, writeOnce, page_modPage_ne _ _ hq]

theorem woDone_writeOnce (pg o : Nat) (v : Word) (s : State) : ((writeOnce pg o v s).page pg).woDone.contains o = true := by
  simp [writeOnce]

/-- A later write of the register meets one cause alone (02 R79). -/
theorem wordCauses_trowel_again {s : State} {p : Part} {d : Dom} {v : Word} (hown : s.owns p (pgTd d) = true)
    (hlock : (s.page (pgTd d)).lock = false) (hdone : (s.page (pgTd d)).woDone.contains 0x060 = true) :
    wordCauses s p (pgTd d * 4096 + 0x060) v = [.woViol] := by
  obtain ⟨hp, ho, -, -⟩ := trowel_place d
  simp only [List.contains_eq_mem, decide_eq_true_eq] at hdone
  simp [wordCauses, hp, ho, pageKind_pgTd, regRow_trowel, State.visible, hown, hlock, hdone, RegRow.writable]

theorem exec_trowelArm {a : Access} {d : Dom} {v : Word} {s : State} (h : Allowed a (pgTd d) 0x060 v s) :
    exec (.trowelArm a d v) s = .next (writeOnce (pgTd d) 0x060 (v &&& 0x701) s) := by
  obtain ⟨-, -, hal, hlow⟩ := trowel_place d
  rw [← writeWord_trowel a {}, ← rowWrite_allowed {} h rfl hlow]
  rfl

theorem exec_trowelArm_again {a : Access} {d : Dom} {v : Word} {s : State} (hup : s.hostUp a.part = true) (hw : a.width = 4)
    (hbe : fullBe a = true) (hcause : wordCauses s a.part (pgTd d * 4096 + 0x060) v = [.woViol]) :
    exec (.trowelArm a d v) s = .next (busError s a.part .woViol true (pgTd d * 4096 + 0x060) a.be) := by
  obtain ⟨-, -, hal, hlow⟩ := trowel_place d
  have hword : (pgTd d * 4096 + 0x060) / 4 * 4 = pgTd d * 4096 + 0x060 := by omega
  have hone : oneWordCauses s a (pgTd d * 4096 + 0x060) (v.setWidth 64) = [.woViol] := by
    rw [oneWordCauses, sizeCauses_whole hw hbe hal, hword, extract_setWidth_64, hcause]
    rfl
  rw [← hostWrite_error {} hup hlow (by omega) (hone ▸ firstCause_singleton _)]
  rfl

/-- Settles O10: the row's bits are all write-once, and the offset written is remembered in the page. -/
theorem writeOnceRegistersTakeOneWrite : Obligations.WriteOnceRegistersTakeOneWrite := by
  intro s a d v
  refine ⟨fun hall => ⟨_, exec_trowelArm hall, reg_writeOnce_self _ _ _ _, woDone_writeOnce _ _ _ _,
      fun q o hne => reg_writeOnce_ne _ _ hne⟩, fun hup hw hbe hown hlock hdone => ?_, fun _ _ _ => woAlone_of_regAt⟩
  have hexec := exec_trowelArm_again hup hw hbe (wordCauses_trowel_again (v := v) hown hlock hdone)
  exact ⟨_, hexec, (busError_leaves s a.part .woViol true _ a.be).1, rfl⟩

end Sys2Proof.Machine
end

section
/-!
PROOFS. Scope: reads answer their words, and pops the oldest entry (O18).
-/

namespace Sys2Proof.Machine

/-! ## What a read answers (02 R71 to R73, R78) -/

theorem hostRead_words {a : Access} {off : Nat} {s : State} (h : ReadAllowed a off s) (hpair : readsPair off = false) :
    hostRead a off s = (readWords a off (wordsOf off a.width) s).2.answer64 a.part
      (cutRead off a.width (readWords a off (wordsOf off a.width) s).1) := by
  rw [hostRead_allowed h, hpair]
  rfl

theorem hostRead_pair {a : Access} {off : Nat} {s : State} (h : ReadAllowed a off s) (hpair : readsPair off = true) :
    hostRead a off s = popPair a.part (off / 4096) s := by
  rw [hostRead_allowed h, if_pos hpair]

theorem wordsOf_whole {off : Nat} (hal : off % 4 = 0) : wordsOf off 4 = [off] := by
  have hword : off / 4 * 4 = off := by omega
  simp [wordsOf, hal, hword, List.range_succ]

theorem cutRead_whole {off : Nat} (hal : off % 4 = 0) (w : Word) : cutRead off 4 [w] = w.setWidth 64 := by
  apply BitVec.eq_of_toNat_eq
  have hlt := w.isLt
  simp [cutRead, hal]
  omega

/-- A whole word read is answered as its step gives it. -/
theorem hostRead_whole {a : Access} {off : Nat} {s : State} (h : ReadAllowed a off s) (hpair : readsPair off = false)
    (hw : a.width = 4) (hal : off % 4 = 0) :
    hostRead a off s = (readStep a off off s).2.answer64 a.part ((readStep a off off s).1.setWidth 64) := by
  rw [hostRead_words h hpair, hw, wordsOf_whole hal]
  simp only [readWords, cutRead_whole hal]

/-- Neither the indirect port nor a live view: the word as it stands. -/
theorem readStep_plain {a : Access} {off w : Nat} {s : State} (hind : w % 4096 ≠ 0x02C)
    (hview : (∀ n, pageKind (w / 4096) ≠ some (.td n)) ∨ w % 4096 ≠ 0x13C) :
    readStep a off w s = ((readWord s a.part (w / 4096) (w % 4096)).getD 0, s) := by
  simp only [readStep, if_neg hind]
  split
  · next n hk =>
    have hne : w % 4096 ≠ 0x13C := hview.resolve_left fun hno => hno n hk
    simp [hne]
  · rfl

/-! ### Queues that a read pops -/

theorem readsPair_pop {pg o : Nat} {r : RegRow} (ho : o < 4096) (hrow : regAt? pg o = some r) (hpop : r.pop = true)
    (hlow : r.pair = 1) : readsPair (pg * 4096 + o) = true := by
  have hp : (pg * 4096 + o) / 4096 = pg := by omega
  have hq : (pg * 4096 + o) % 4096 = o := by omega
  simp [readsPair, hp, hq, hrow, hpop, hlow]

/-- A read of the POP pair of a page of a kind pops the queue of the page's number. -/
theorem hostRead_pop {a : Access} {pg o : Nat} {s : State} {r : RegRow} (h : ReadAllowed a (pg * 4096 + o) s)
    (ho : o < 4096) (hrow : regAt? pg o = some r) (hpop : r.pop = true) (hlow : r.pair = 1) :
    hostRead a (pg * 4096 + o) s = popPair a.part pg s := by
  have hp : (pg * 4096 + o) / 4096 = pg := by omega
  rw [hostRead_pair h (readsPair_pop ho hrow hpop hlow), hp]

theorem pageKind_pgLp (p : PortNo) : pageKind (pgLp p) = some (.lp p.val) := by
  revert p
  decide

theorem pageKind_pgCap (c : CapNo) : pageKind (pgCap c) = some (.cap c.val) := by
  revert c
  decide

theorem pageKind_pgHp (p : Part) : pageKind (pgHp p) = some (.hp p.val) := by
  revert p
  decide

theorem regAt_of_kind {pg : Nat} {k : PageKind} (h : pageKind pg = some k) (o : Nat) : regAt? pg o = regRow? k o := by
  simp [regAt?, h]

theorem exec_txtsPop {a : Access} {p : PortNo} {s : State} (h : ReadAllowed a (pgLp p * 4096 + 0x410) s) :
    exec (.txtsPop a p) s = .next (takeTxts a.part p s) := by
  have hpop : popPair a.part (pgLp p) s = takeTxts a.part p s := by
    simp only [popPair, pageKind_pgLp, Fin.ofNat_val_eq_self]
  rw [← hpop, ← hostRead_pop h (by omega) (regAt_of_kind (pageKind_pgLp p) 0x410) rfl rfl]
  rfl

theorem exec_capPop {a : Access} {c : CapNo} {s : State} (h : ReadAllowed a (pgCap c * 4096 + 0x060) s) :
    exec (.capPop a c) s = .next (takeCap a.part c s) := by
  have hpop : popPair a.part (pgCap c) s = takeCap a.part c s := by
    simp only [popPair, pageKind_pgCap, Fin.ofNat_val_eq_self]
  rw [← hpop, ← hostRead_pop h (by omega) (regAt_of_kind (pageKind_pgCap c) 0x060) rfl rfl]
  rfl

theorem exec_fltLogPop {a : Access} {s : State} (h : ReadAllowed a (pgFlt * 4096 + 0x080) s) :
    exec (.fltLogPop a) s = .next (takeFltLog a.part s) := by
  have hpop : popPair a.part pgFlt s = takeFltLog a.part s := rfl
  rw [← hpop, ← hostRead_pop h (by omega) (regAt_of_kind (k := .flt) rfl 0x080) rfl rfl]
  rfl

theorem exec_buserrLogPop {a : Access} {s : State} (h : ReadAllowed a (pgHp a.part * 4096 + 0x7C0) s) :
    exec (.buserrLogPop a) s = .next (takeBusLog a.part s) := by
  have hpop : popPair a.part (pgHp a.part) s = takeBusLog a.part s := by
    simp only [popPair, pageKind_pgHp]
  rw [← hpop, ← hostRead_pop h (by omega) (regAt_of_kind (pageKind_pgHp a.part) 0x7C0) rfl rfl]
  rfl

/-! ### The live view of a domain (06 R229) -/

/-- A whole read of TDn_NOW_SEC_HI meets no cause on a page that the partition sees. -/
theorem readAllowed_nowSecHi {s : State} {p : Part} {d : Dom} (hup : s.hostUp p = true)
    (hvis : s.visible p (pgTd d) = true) : ReadAllowed (read32 p) (pgTd d * 4096 + 0x13C) s := by
  have hp : (pgTd d * 4096 + 0x13C) / 4096 = pgTd d := by omega
  have ho : (pgTd d * 4096 + 0x13C) % 4096 = 0x13C := by omega
  have hrow : regRow? (.td d.val) 0x13C = some { base := 0x128, stride := 4, count := 7 } := rfl
  have hspan : (pgTd d * 4096 + 0x13C) / 4 = (pgTd d * 4096 + 0x13C + 4 - 1) / 4 := by omega
  refine ⟨hup, by simp only [pgTd]; omega, ?_⟩
  have hwords : wordsOf (pgTd d * 4096 + 0x13C) (read32 p).width = [pgTd d * 4096 + 0x13C] := wordsOf_whole (by omega)
  simp [allReadCauses, hwords, readCauses, hp, ho, pageKind_pgTd, hrow]
  simp only [read32, hvis]
  simp
  omega

theorem readStep_nowSecHi (p : Part) (d : Dom) (s : State) :
    (readStep (read32 p) (pgTd d * 4096 + 0x13C) (pgTd d * 4096 + 0x13C) s).2 = latchNow p d s := by
  have hp : (pgTd d * 4096 + 0x13C) / 4096 = pgTd d := by omega
  have ho : (pgTd d * 4096 + 0x13C) % 4096 = 0x13C := by omega
  have hcov : covers (read32 p) (pgTd d * 4096 + 0x13C) (pgTd d * 4096 + 0x13C) = true := by
    simp [covers, read32, List.range_succ]
  simp only [readStep, hp, ho, pageKind_pgTd, hcov, Fin.ofNat_val_eq_self]
  rfl

theorem readsPair_nowSecHi (d : Dom) : readsPair (pgTd d * 4096 + 0x13C) = false := by
  have hp : (pgTd d * 4096 + 0x13C) / 4096 = pgTd d := by omega
  have ho : (pgTd d * 4096 + 0x13C) % 4096 = 0x13C := by omega
  rw [readsPair, hp, ho, regAt_of_kind (pageKind_pgTd d)]
  rfl

theorem exec_nowLatch {s : State} {p : Part} {d : Dom} (hup : s.hostUp p = true) (hvis : s.visible p (pgTd d) = true) :
    ∃ w, exec (.nowLatch p d) s = .next ((latchNow p d s).answer64 p w) := by
  have hread := hostRead_whole (readAllowed_nowSecHi (d := d) hup hvis) (readsPair_nowSecHi d) rfl (by omega)
  rw [readStep_nowSecHi] at hread
  exact ⟨_, congrArg _ hread⟩

theorem part_answer64 (s : State) (p q : Part) (v : BitVec 64) : (s.answer64 p v).part q = s.part q := rfl

theorem nowView_latchNow {s : State} (p : Part) (d : Dom) (hbus : s.busHalf ≠ none) :
    ((latchNow p d s).part p).nowView =
      setAt (s.part p).nowView d { t := s.busTime d, bound := s.busBound d, state := s.busState d } := by
  obtain ⟨h, hh⟩ := Option.ne_none_iff_exists'.mp hbus
  simp [latchNow, hh]

/-- A word of BAR2 is answered as it stands (15 R467). -/
theorem exec_read_bar {a : Access} {off : Nat} {s : State} (hbar : a.bar2 = true) (hup : s.hostUp a.part = true)
    (hw : a.width = 4) (hoff : off < 2 ^ 14) (hal : off % 4 = 0) :
    exec (.registerWrite a off none) s = .next (s.answer64 a.part ((s.barWord a.part off).setWidth 64)) := by
  have hoff' : ¬ 16384 ≤ off := by omega
  have hval : BitVec.ofNat 64 (s.barWord a.part off).toNat = (s.barWord a.part off).setWidth 64 := by
    apply BitVec.eq_of_toNat_eq
    simp
  simp [exec, execRegisterWrite, hostAccess, barAccess, hbar, hup, hw, hoff', hal, hval]

/-- Settles O18: a read without causes is answered by its words in order, or by the oldest entry of the queue of its POP pair. -/
theorem popsTakeTheOldestEntry : Obligations.PopsTakeTheOldestEntry := by
  intro s a p c d off
  refine ⟨fun hbar hall hpair => ⟨⟨_, exec_read hbar, hostRead_words hall hpair⟩, fun hw hal hind hview =>
      ⟨_, exec_read hbar, ?_⟩⟩, fun hbar hup hw hoff hal => ⟨_, exec_read_bar hbar hup hw hoff hal, rfl⟩,
    fun hall => ⟨fun e r hq => ⟨_, exec_txtsPop hall, ?_⟩, fun hq => ⟨_, exec_txtsPop hall, ?_⟩⟩,
    fun hall => ⟨fun e r hq => ⟨_, exec_capPop hall, ?_⟩, fun hq => ⟨_, exec_capPop hall, ?_⟩⟩,
    fun hall => ⟨fun e r hq => ⟨_, exec_fltLogPop hall, ?_⟩, fun hq => ⟨_, exec_fltLogPop hall, ?_⟩⟩,
    fun hall => ⟨fun e r hq => ⟨_, exec_buserrLogPop hall, ?_⟩, fun hq => ⟨_, exec_buserrLogPop hall, ?_⟩⟩,
    fun hup hvis hbus => ?_⟩
  · rw [hostRead_whole hall hpair hw hal, readStep_plain hind hview]
    rfl
  · simp only [takeTxts, hq]
    simp [State.answer64, State.port, State.modPort, State.emit]
  · simp [takeTxts, hq, State.answer64]
  · simp only [takeCap, hq]
    simp [State.answer64, State.cap, State.modCap, State.emit]
  · simp [takeCap, hq, State.answer64]
  · simp [takeFltLog, hq, State.answer64, State.emit]
  · simp [takeFltLog, hq, State.answer64]
  · simp [takeBusLog, hq, part_answer64]
    simp [State.answer64, State.emit]
  · simp [takeBusLog, hq, State.answer64]
  · obtain ⟨w, hexec⟩ := exec_nowLatch hup hvis
    refine ⟨_, hexec, ?_, fun e he => ?_⟩
    · rw [part_answer64, nowView_latchNow _ d hbus, get_setAt_self]
    · rw [part_answer64, nowView_latchNow _ d hbus, get_setAt_ne _ _ he]

end Sys2Proof.Machine
end

section
/-!
PROOFS. Scope: the indirect window stages and advances (O17).
-/

namespace Sys2Proof.Machine

/-! ## Header registers -/

/-- A whole write of a header register that meets no cause, on any page. -/
theorem rowWrite_header {a : Access} {pg : PageNo} {o : Nat} {v : Word} {s : State} (x : Beside)
    (h : Allowed a pg.val o v s) (ho : o < 0x040) (hal : o % 4 = 0) :
    rowWrite a pg.val o v s x = writeHeader a pg.val o v x s := by
  rw [rowWrite_allowed x h hal (by omega), writeWord_header x h ho]

/-! ## The indirect window (02 R63, R66, R67) -/

theorem trio_modTrio_ne (s : State) {p q : Part} (pg : Nat) (f : Trio → Trio) (h : q ≠ p) :
    (s.modTrio p pg f).trio q pg = s.trio q pg := by
  simp [State.trio, State.modTrio, get_modAt_ne _ _ h]

theorem Trio.discard_staged (t : Trio) : t.discard.staged = none := by
  unfold Trio.discard
  split_ifs with h
  · rfl
  · simpa using h

theorem Trio.discard_torn (t : Trio) : t.discard.torn = (t.torn || t.staged.isSome) := by
  unfold Trio.discard
  split_ifs with h <;> simp_all

theorem Trio.discard_addr (t : Trio) : t.discard.addr = t.addr := by
  unfold Trio.discard
  split_ifs <;> rfl

theorem Trio.discard_autoinc (t : Trio) : t.discard.autoinc = t.autoinc := by
  unfold Trio.discard
  split_ifs <;> rfl

theorem Trio.next_addr (t : Trio) : t.next.addr = t.addr + (if t.autoinc then 1 else 0) := by
  unfold Trio.next
  split_ifs <;> simp

theorem Trio.next_staged (t : Trio) : t.next.staged = t.staged := by
  unfold Trio.next
  split_ifs <;> rfl

theorem exec_indAddrWrite {a : Access} {pg : PageNo} {v : Word} {s : State} (h : Allowed a pg.val 0x028 v s) :
    exec (.indAddrWrite a pg v) s = .next (writeIndAddr a.part pg.val v s) :=
  congrArg Host.Outcome.next (rowWrite_header {} h (by decide) rfl)

theorem exec_indCtlWrite {a : Access} {pg : PageNo} {v : Word} {s : State} (h : Allowed a pg.val 0x030 v s) :
    exec (.indCtlWrite a pg v) s = .next (writeIndCtl a.part pg.val v s) :=
  congrArg Host.Outcome.next (rowWrite_header {} h (by decide) rfl)

theorem exec_indDataWrite {a : Access} {pg : PageNo} {v : Word} {s : State} (h : Allowed a pg.val 0x02C v s) :
    exec (.indDataWrite a pg v) s = .next (writeIndData a.part pg.val v s) :=
  congrArg Host.Outcome.next (rowWrite_header {} h (by decide) rfl)

theorem kind_of_tableOf {s : State} {p : Part} {pg : Nat} {tab : IndTable} (h : s.tableOf p pg = some tab) :
    ∃ k, pageKind pg = some k := by
  obtain ⟨k, hk, -⟩ := Option.bind_eq_some_iff.mp h
  exact ⟨k, hk⟩

/-- The trio that a write of IND_DATA stages in: words staged for another entry are discarded first (02 R66). -/
def Trio.stageFor (t : Trio) (e : Nat) : Trio :=
  if (match t.staged with | some (e', _) => e' == e | none => true) then t else t.discard

/-- The words staged, with the one written in place of an earlier one of its index. -/
def Trio.stagedWith (t : Trio) (k : Nat) (v : Word) : List (Nat × Word) :=
  (match t.staged with | some (_, l) => l.filter (fun x => x.1 != k) | none => []) ++ [(k, v)]

theorem stageFor_addr (t : Trio) (e : Nat) : (t.stageFor e).addr = t.addr := by
  rw [Trio.stageFor, apply_ite Trio.addr, Trio.discard_addr, ite_self]

theorem stageFor_autoinc (t : Trio) (e : Nat) : (t.stageFor e).autoinc = t.autoinc := by
  rw [Trio.stageFor, apply_ite Trio.autoinc, Trio.discard_autoinc, ite_self]

/-- The word of an entry that comes into force: the staged one in its writable bits, the table's where none is staged (02 R66). -/
def stagedWord (old mask : Nat → Word) (st : List (Nat × Word)) (i : Nat) : Word :=
  match st.find? (fun x => x.1 == i) with
  | some x => mergeMask (old i) x.2 (mask i)
  | none => old i

section
variable {s : State} {p : Part} {pg : Nat} {tab : IndTable} {k : PageKind} (v : Word)

/-- The last word of an entry puts it in force, with the words staged before. -/
theorem writeIndData_last (hk : pageKind pg = some k) (htab : s.tableOf p pg = some tab)
    (hlast : (s.trio p pg).addr.toNat % tab.words + 1 = tab.words) :
    ∃ f, writeIndData p pg v s =
      (writeEntry pg (s.trio p pg).table.toNat ((s.trio p pg).addr.toNat / tab.words) ((List.range tab.words).map
        (stagedWord (fun i => tableWord s p pg (s.trio p pg).table.toNat tab
            ((s.trio p pg).addr.toNat / tab.words * tab.words + i)) (tableMask k)
          (((s.trio p pg).stageFor ((s.trio p pg).addr.toNat / tab.words)).stagedWith
            ((s.trio p pg).addr.toNat % tab.words) v))) s).modTrio p pg f := by
  simp only [writeIndData, htab, hk, if_pos hlast]
  exact ⟨_, rfl⟩

/-- A word that is not the last of its entry is staged. -/
theorem writeIndData_stages (htab : s.tableOf p pg = some tab)
    (hlast : (s.trio p pg).addr.toNat % tab.words + 1 ≠ tab.words) :
    writeIndData p pg v s = s.modTrio p pg (fun _ =>
      { (s.trio p pg).stageFor ((s.trio p pg).addr.toNat / tab.words) with
        staged := some ((s.trio p pg).addr.toNat / tab.words,
          ((s.trio p pg).stageFor ((s.trio p pg).addr.toNat / tab.words)).stagedWith
            ((s.trio p pg).addr.toNat % tab.words) v) }.next) := by
  obtain ⟨k, hk⟩ := kind_of_tableOf htab
  simp only [writeIndData, htab, hk, if_neg hlast]
  rfl
end

theorem tableOf_hp {s : State} {p q : Part} (h : (s.trio p (pgHp q)).table = 0) :
    s.tableOf p (pgHp q) = some ⟨1, 256, true⟩ := by
  simp [State.tableOf, pageKind_pgHp, h, indTable?]

theorem mem_stagedWith (t : Trio) (k : Nat) (v : Word) : (k, v) ∈ t.stagedWith k v := by
  simp [Trio.stagedWith]

theorem index_ne_of_mem_stagedWith {t : Trio} {k : Nat} {v : Word} {x : Nat × Word} (h : x ∈ t.stagedWith k v)
    (hx : x ≠ (k, v)) : x.1 ≠ k := by
  rw [Trio.stagedWith, List.mem_append] at h
  split at h
  · simp only [List.mem_filter, List.mem_singleton, hx, or_false] at h
    simpa using h.2
  · simp [hx] at h

/-- The word just written is the one staged of its index. -/
theorem find_stagedWith (t : Trio) (k : Nat) (v : Word) : (t.stagedWith k v).find? (fun x => x.1 == k) = some (k, v) := by
  obtain ⟨x, hx⟩ : ∃ x, (t.stagedWith k v).find? (fun x => x.1 == k) = some x :=
    Option.isSome_iff_exists.mp (List.find?_isSome.mpr ⟨_, mem_stagedWith t k v, by simp⟩)
  have hkey : x.1 = k := by simpa using List.find?_some hx
  rw [hx]
  by_contra hne
  exact index_ne_of_mem_stagedWith (List.mem_of_find?_eq_some hx) (fun e => hne (congrArg some e)) hkey

/-- A word of a partition's vector map comes into force at once (15 R496). -/
theorem writeIndData_vector {s : State} {p : Part} (v : Word) (htab : (s.trio p (pgHp p)).table = 0) :
    ∃ f, writeIndData p (pgHp p) v s = (s.modPart p (fun x => { x with
      vecMap := put vecReset x.vecMap (s.trio p (pgHp p)).addr.toNat
        (mergeMask (look vecReset (s.part p).vecMap (s.trio p (pgHp p)).addr.toNat) v 0x1F) })).modTrio p (pgHp p) f := by
  obtain ⟨f, hf⟩ := writeIndData_last v (pageKind_pgHp p) (tableOf_hp htab) (Nat.mod_one _ ▸ rfl)
  refine ⟨f, hf.trans ?_⟩
  simp [writeEntry, pageKind_pgHp, tableWord, tableEntry, tableMask, stagedWord, find_stagedWith, Nat.mod_one]

/-- Neither the indirect port's data nor a latch: the step of a read leaves the state. -/
theorem readStep_indCtl {a : Access} {off w : Nat} {s : State} (hctl : w % 4096 = 0x030) : (readStep a off w s).2 = s := by
  rw [readStep_plain (by omega) (.inr (by omega))]

/-- A read of IND_DATA moves the trio on alone (02 R67). -/
theorem readInd_moves {s : State} {p : Part} {pg : Nat} {tab : IndTable} (htab : s.tableOf p pg = some tab) :
    ∃ f : Trio → Trio, (readInd p pg s).2 = s.modTrio p pg f ∧ ∀ t, (f t).addr = t.next.addr ∧ (f t).staged = t.staged := by
  simp only [readInd, htab]
  split_ifs
  · exact ⟨_, rfl, fun t => ⟨rfl, t.next_staged⟩⟩
  · exact ⟨_, rfl, fun t => ⟨rfl, t.next_staged⟩⟩
  · split
    · exact ⟨_, rfl, fun t => ⟨rfl, t.next_staged⟩⟩
    · exact ⟨_, rfl, fun t => ⟨rfl, t.next_staged⟩⟩

/-- A word of a pair of `lw` and `lw + 4`: what an access of 8 bytes touches. -/
theorem wordsOf_two {off : Nat} (hal : off % 4 = 0) : wordsOf off 8 = [off, off + 4] := by
  have hword : off / 4 * 4 = off := by omega
  simp [wordsOf, hal, hword, List.range_succ]

/-- A word at IND_DATA that a read does not cover as a whole is a cause (02 R65, R71). -/
theorem readCauses_indData_ne_nil {a : Access} {s : State} {off w : Nat} {k : PageKind} (hk : pageKind (w / 4096) = some k)
    (ho : w % 4096 = 0x02C) (hcov : covers a off w = false) : readCauses s a off w ≠ [] := by
  have hrow : regRow? k 0x02C = some { base := 0x02C, rw := allOnes, pop := true } := rfl
  simp only [readCauses, hk, ho]
  by_cases hvis : s.visible a.part (w / 4096) = true
  · simp [hvis, hrow, hcov]
  · simp [hvis]

section
variable {a : Access} {off : Nat} {s : State} {k : PageKind} (hoff : off % 4096 = 0x02C)
  (hk : pageKind (off / 4096) = some k) (h : ReadAllowed a off s)
include hoff hk h

/-- A read of IND_DATA that meets no cause covers its word as a whole, alone or with IND_CTL. -/
theorem width_of_indData : a.width = 4 ∨ a.width = 8 := by
  obtain ⟨-, -, hnone⟩ := h
  simp only [allReadCauses, List.append_eq_nil_iff, List.flatMap_eq_nil_iff] at hnone
  obtain ⟨⟨hover, hspan⟩, hwords⟩ := hnone
  have hle : ¬ 8 < a.width := fun hlt => by simp [hlt] at hover
  have hone : ¬ (a.width < 8 ∧ off / 4 ≠ (off + a.width - 1) / 4) := fun hlt => by rw [if_pos hlt] at hspan; simp at hspan
  by_contra hne
  have hmem : off ∈ wordsOf off a.width := by
    simp only [wordsOf, List.mem_map, List.mem_range]
    exact ⟨0, by omega, by omega⟩
  have hshort : ¬ off + 4 ≤ off + a.width := by omega
  exact readCauses_indData_ne_nil hk hoff (by simp [covers, hshort]) (hwords _ hmem)

theorem state_readWords_indData : (readWords a off (wordsOf off a.width) s).2 = (readInd a.part (off / 4096) s).2 := by
  have hfirst : (readStep a off off s).2 = (readInd a.part (off / 4096) s).2 := by rw [readStep, if_pos hoff]
  rcases width_of_indData hoff hk h with hw | hw
  · rw [hw, wordsOf_whole (by omega)]
    exact hfirst
  · rw [hw, wordsOf_two (by omega)]
    simp only [readWords]
    rw [readStep_indCtl (by omega), hfirst]

theorem hostRead_indData : ∃ w, hostRead a off s = (readInd a.part (off / 4096) s).2.answer64 a.part w := by
  have hpair : readsPair off = false := by
    rw [readsPair, hoff, regAt_of_kind hk]
    rfl
  exact ⟨_, (hostRead_words h hpair).trans (by rw [state_readWords_indData hoff hk h])⟩
end

theorem exec_indDataRead {a : Access} {pg : PageNo} {s : State} {k : PageKind}
    (h : ReadAllowed a (pg.val * 4096 + 0x02C) s) (hk : pageKind pg.val = some k) :
    ∃ w, exec (.indDataRead a pg) s = .next ((readInd a.part pg.val s).2.answer64 a.part w) := by
  have hp : (pg.val * 4096 + 0x02C) / 4096 = pg.val := by omega
  obtain ⟨w, hread⟩ := hostRead_indData (by omega) (hp.symm ▸ hk) h
  rw [hp] at hread
  exact ⟨w, congrArg Host.Outcome.next hread⟩

theorem trio_answer64 (s : State) (p q : Part) (pg : Nat) (v : BitVec 64) : (s.answer64 p v).trio q pg = s.trio q pg := rfl

theorem part_modTrio (s : State) (p q : Part) (pg : Nat) (f : Trio → Trio) : (s.modTrio p pg f).part q = s.part q := rfl

/-- Settles O17: every write of the trio comes to `modTrio` of the writer's own, beside the entry that a last word puts in force. -/
theorem indirectAccessStagesAndAdvances : Obligations.IndirectAccessStagesAndAdvances := by
  refine ⟨fun s a pg v => ⟨fun h => ⟨_, exec_indAddrWrite h, ?_⟩, fun h => ⟨_, exec_indCtlWrite h, ?_⟩,
    fun tab h htab hlast => ⟨_, exec_indDataWrite h, ?_⟩, fun h htab => ?_⟩, fun s a pg k tab h hk htab => ?_⟩
  · rw [writeIndAddr]
    refine ⟨?_, ?_, ?_, fun p hp => trio_modTrio_ne s pg.val _ hp⟩
    · simp
    · simp [Trio.discard_staged]
    · simp [Trio.discard_torn]
  · rw [writeIndCtl]
    refine ⟨?_, ?_, ?_, ?_, ?_, fun p hp => trio_modTrio_ne s pg.val _ hp⟩
    · simp
    · simp
    · simp [Trio.discard_addr]
    · simp [Trio.discard_staged]
    · simp [Trio.discard_torn]
  · rw [writeIndData_stages v htab hlast]
    refine ⟨⟨_, ?_, mem_stagedWith ((s.trio a.part pg.val).stageFor ((s.trio a.part pg.val).addr.toNat / tab.words)) _ v⟩, ?_, by simp, by simp, by simp,
      by simp⟩
    · simp [Trio.next_staged]
    · simp [Trio.next_addr, stageFor_addr, stageFor_autoinc]
  · obtain ⟨f, hf⟩ := writeIndData_vector v htab
    have hpg : (Fin.ofNat 256 (pgHp a.part)).val = pgHp a.part := Nat.mod_eq_of_lt (by simp only [pgHp]; omega)
    refine ⟨_, exec_indDataWrite (hpg.symm ▸ h), ?_⟩
    rw [hpg, hf]
    refine ⟨?_, fun p hp => ?_⟩
    · rw [part_modTrio, part_modPart_self, look_put_self]
    · rw [part_modTrio, part_modPart_ne _ _ hp]
  · obtain ⟨w, hexec⟩ := exec_indDataRead h hk
    obtain ⟨f, hf, hmoves⟩ := readInd_moves htab
    obtain ⟨haddr, hstaged⟩ := hmoves (s.trio a.part pg.val)
    rw [hf] at hexec
    refine ⟨_, hexec, ?_, ?_, ⟨w, ?_⟩, fun q o => ?_, by simp, by simp, by simp, by simp⟩
    · rw [trio_answer64, trio_modTrio_self, haddr, Trio.next_addr]
    · rw [trio_answer64, trio_modTrio_self, hstaged]
    · simp [State.answer64, State.emit]
    · simp [reg_eq]

end Sys2Proof.Machine
end

section
/-!
PROOFS. Scope: LOCK, EN and SRST of PAGE_CTL (O14), and events and injections (O15).
-/

namespace Sys2Proof.Machine

/-! ## PAGE_CTL (02 R50, R80, R595) -/

theorem writeCtl_of_clear {v : Word} (pg : Nat) (s : State) (hlock : bit v 31 = false) (hrst : bit v 1 = false) :
    writeCtl pg v s = writeEn pg (bit v 0) s := by
  simp [writeCtl, hlock, hrst]

theorem writeCtl_of_srst {v : Word} (pg : Nat) (s : State) (hlock : bit v 31 = false) (hrst : bit v 1 = true) :
    writeCtl pg v s = requestReset pg (writeEn pg (bit v 0) s) := by
  simp [writeCtl, hlock, hrst]

theorem lock_writeCtl {v : Word} (pg : Nat) (s : State) (hlock : bit v 31 = true) (hrst : bit v 1 = false) :
    ((writeCtl pg v s).page pg).lock = true := by
  simp [writeCtl, hlock, hrst]

theorem lockWord_bits (b : Bool) : bit (0x80000000 ||| flagAt b 0) 31 = true ∧ bit (0x80000000 ||| flagAt b 0) 1 = false := by
  cases b <;> decide

theorem enWord_bits (b : Bool) : bit (flagAt b 0) 31 = false ∧ bit (flagAt b 0) 1 = false ∧ bit (flagAt b 0) 0 = b := by
  cases b <;> decide

theorem srstWord_bits (b : Bool) :
    bit (0x2 ||| flagAt b 0) 31 = false ∧ bit (0x2 ||| flagAt b 0) 1 = true ∧ bit (0x2 ||| flagAt b 0) 0 = b := by
  cases b <;> decide

theorem exec_pageLock {a : Access} {pg : PageNo} {s : State}
    (h : Allowed a pg.val 0x00C (0x80000000 ||| flagAt (s.page pg.val).en 0) s) :
    exec (.pageLock a pg) s = .next (writeCtl pg.val (0x80000000 ||| flagAt (s.page pg.val).en 0) s) :=
  congrArg Host.Outcome.next (rowWrite_header {} h (by decide) rfl)

theorem exec_pageEnable {a : Access} {pg : PageNo} {en : Bool} {s : State} (h : Allowed a pg.val 0x00C (flagAt en 0) s) :
    exec (.pageEnable a pg en) s = .next (writeEn pg.val en s) := by
  obtain ⟨hlock, hrst, hen⟩ := enWord_bits en
  have hctl := writeCtl_of_clear pg.val s hlock hrst
  rw [hen] at hctl
  exact congrArg Host.Outcome.next ((rowWrite_header {} h (by decide) rfl).trans hctl)

theorem exec_srst {a : Access} {pg : PageNo} {s : State} (h : Allowed a pg.val 0x00C (0x2 ||| flagAt (s.page pg.val).en 0) s) :
    exec (.srst a pg) s = .next (requestReset pg.val (writeEn pg.val (s.page pg.val).en s)) := by
  obtain ⟨hlock, hrst, hen⟩ := srstWord_bits (s.page pg.val).en
  have hctl := writeCtl_of_srst pg.val s hlock hrst
  rw [hen] at hctl
  exact congrArg Host.Outcome.next ((rowWrite_header {} h (by decide) rfl).trans hctl)

/-! ## EN by the page's kind -/

/-- The page with EN written, before anything follows from it. -/
def State.putEn (s : State) (pg : Nat) (en : Bool) : State := s.modPage pg (fun p => { p with en := en })

section
variable {s : State} {pg : Nat} {en : Bool} {n : Nat}

theorem writeEn_rs (hk : pageKind pg = some (.rs n)) : writeEn pg en s = s.putEn pg en := by
  simp only [writeEn, hk]
  rfl

theorem jet_putEn (j : JetNo) : (s.putEn pg en).jet j = s.jet j := by simp [State.jet, State.putEn]

/-- A jet's EN rises: a jet that is to stop at its next falling edge starts from there, any other at once (11 R355, R358). -/
theorem writeEn_jet_rise (hk : pageKind pg = some (.jet n)) (hwas : (s.page pg).en = false) :
    writeEn pg true s =
      if (s.jet (Fin.ofNat 16 n)).phase = .run ∧ (s.jet (Fin.ofNat 16 n)).stop = true then
        (s.putEn pg true).modJet (Fin.ofNat 16 n) (fun x => { x with again := true })
      else startJet (Fin.ofNat 16 n) (s.putEn pg true) := by
  have hdef : writeEn pg true s =
      if (((s.putEn pg true).jet (Fin.ofNat 16 n)).phase == .run && ((s.putEn pg true).jet (Fin.ofNat 16 n)).stop) = true then
        (s.putEn pg true).modJet (Fin.ofNat 16 n) (fun x => { x with again := true })
      else startJet (Fin.ofNat 16 n) (s.putEn pg true) := by
    simp only [writeEn, hk, hwas, Bool.not_false, Bool.and_self, if_true]
    rfl
  simp only [hdef, jet_putEn, Bool.and_eq_true, beq_iff_eq]

/-- A jet's EN falls: a jet that is off takes its level at rest, any other stops (11 R358, R360). -/
theorem writeEn_jet_fall (hk : pageKind pg = some (.jet n)) (hwas : (s.page pg).en = true) :
    writeEn pg false s =
      if (s.jet (Fin.ofNat 16 n)).phase = .off then settleLevel (Fin.ofNat 16 n) (s.putEn pg false)
      else stopJet (Fin.ofNat 16 n) false (s.putEn pg false) := by
  have hdef : writeEn pg false s =
      if ((s.putEn pg false).jet (Fin.ofNat 16 n)).phase = .off then settleLevel (Fin.ofNat 16 n) (s.putEn pg false)
      else stopJet (Fin.ofNat 16 n) false (s.putEn pg false) := by
    simp only [writeEn, hk, hwas]
    rfl
  rw [hdef, jet_putEn]

theorem writeEn_jet_same (hk : pageKind pg = some (.jet n)) (hsame : (s.page pg).en = en) : writeEn pg en s = s.putEn pg en := by
  simp only [writeEn, hk, hsame]
  cases en <;> rfl

theorem writeEn_lp_rise (hk : pageKind pg = some (.lp n)) (hwas : (s.page pg).en = false) :
    writeEn pg true s = settleAll (s.putEn pg true) := by
  simp only [writeEn, hk, hwas]
  rfl

theorem writeEn_lp_fall (hk : pageKind pg = some (.lp n)) (hwas : (s.page pg).en = true) :
    writeEn pg false s = settleAll (stopPort (Fin.ofNat 16 n) (s.putEn pg false)) := by
  simp only [writeEn, hk, hwas]
  rfl

theorem writeEn_lp_same (hk : pageKind pg = some (.lp n)) (hsame : en = (s.page pg).en) : writeEn pg en s = s := by
  simp only [writeEn, hk, if_pos hsame]

theorem writeEn_ftn (hk : pageKind pg = some .ftn) : writeEn pg en s = ftnEnable en s := by
  simp only [writeEn, hk]

theorem writeEn_other (hno : ∀ n, pageKind pg ≠ some (.rs n) ∧ pageKind pg ≠ some (.jet n) ∧ pageKind pg ≠ some (.lp n))
    (hftn : pageKind pg ≠ some .ftn) : writeEn pg en s = s := by
  simp only [writeEn]
  split
  · next n hk => exact absurd hk (hno n).1
  · next n hk => exact absurd hk (hno n).2.1
  · next n hk => exact absurd hk (hno n).2.2
  · next hk => exact absurd hk hftn
  · rfl
end

/-! ## Page soft reset (02 R51, R595) -/

/-- The page's registers after a soft reset: owner, VIS, LOCK and EVT_CNT stay, and the counts of buffered writes. -/
theorem page_resetPageRegs (s : State) (pg : Nat) :
    (resetPageRegs s pg).page pg = { Page.reset pg with
      owner := (s.page pg).owner, vis := (s.page pg).vis, lock := (s.page pg).lock, evtCnt := (s.page pg).evtCnt
      bufCnt := (s.page pg).bufCnt, capMark := (s.page pg).bufCnt, doneMark := (s.page pg).bufCnt
      applySeq := if s.copyOnly pg then (s.page pg).applySeq + 1 else 0 } := by
  simp [resetPageRegs]

theorem softReset_plain {pg : Nat} {s : State} (h : pg ≠ pgFtn ∨ (s.page pg).en = true) :
    softReset pg s = resetBeyond pg (dropSets pg (resetPageRegs s pg)) := by
  rw [softReset, if_neg]
  simpa [imp_iff_not_or] using h

theorem softReset_ftn {pg : Nat} {s : State} (hpg : pg = pgFtn) (hen : (s.page pg).en = false) :
    softReset pg s = ftnEnable true
      ((resetBeyond pg (dropSets pg (resetPageRegs s pg))).modPage pg (fun p => { p with en := false })) := by
  rw [softReset, if_pos]
  simp [hpg ▸ hen, hpg]

/-- Settles O14: each kind's EN by its own equation, and a page's reset by the fields that `resetPageRegs` keeps. -/
theorem pageControlWrites : Obligations.PageControlWrites := by
  intro s a pg en
  obtain ⟨hlock, hrst⟩ := lockWord_bits (s.page pg.val).en
  refine ⟨fun h => ⟨_, exec_pageLock h, lock_writeCtl pg.val s hlock hrst⟩, fun h => ⟨_, exec_pageEnable h, ?_⟩, ?_,
    fun hreq => ⟨_, rfl, if_pos hreq⟩, softReset_plain, softReset_ftn, fun o => ?_, ?_⟩
  · refine ⟨fun n hk => writeEn_rs hk, ?_, ?_, ?_, ?_, ?_, ?_, ?_, fun n hk => writeEn_lp_same hk, writeEn_ftn, writeEn_other⟩
    · rintro n hk rfl hwas hrun hstop
      rw [writeEn_jet_rise hk hwas, if_pos ⟨hrun, hstop⟩]
      rfl
    · rintro n hk rfl hwas hrun
      have hstay : ¬ ((s.jet (Fin.ofNat 16 n)).phase = .run ∧ (s.jet (Fin.ofNat 16 n)).stop = true) := by
        rintro ⟨hphase, hstop⟩
        exact hrun.elim (absurd hphase) (fun hno => absurd (hstop.symm.trans hno) (by decide))
      rw [writeEn_jet_rise hk hwas, if_neg hstay]
      rfl
    · rintro n hk (⟨rfl, hwas⟩ | ⟨hwas, rfl⟩)
      · exact writeEn_jet_same hk hwas
      · exact writeEn_jet_same hk hwas
    · rintro n hk rfl hwas hphase
      rw [writeEn_jet_fall hk hwas, if_pos hphase]
      rfl
    · rintro n hk rfl hwas hphase
      rw [writeEn_jet_fall hk hwas, if_neg hphase]
      rfl
    · rintro n hk rfl hwas
      exact writeEn_lp_fall hk hwas
    · rintro n hk rfl hwas
      exact writeEn_lp_rise hk hwas
  · rintro u h rfl
    refine ⟨_, exec_srst h, ?_⟩
    rw [requestReset]
    split_ifs <;> rfl
  · rw [reg_def, page_resetPageRegs]
    rfl
  · rw [page_resetPageRegs]
    exact ⟨rfl, rfl, rfl, rfl, rfl⟩

/-! ## Events (02 R81) -/

theorem exec_eventClear {a : Access} {pg : PageNo} {v coin : Word} {s : State} (h : Allowed a pg.val 0x014 v s) :
    exec (.eventClear a pg v coin) s = .next (s.modPage pg.val (fun y => { y with evt := y.evt &&& ~~~(v &&& ~~~coin) })) :=
  congrArg Host.Outcome.next (rowWrite_header { coin := coin } h (by decide) rfl)

theorem evtBit_eq (s : State) (pg b : Nat) : s.evtBit pg b = bit (s.page pg).evt b := rfl

theorem bit_clear (w v coin : Word) {b : Nat} (hb : b < 32) :
    bit (w &&& ~~~(v &&& ~~~coin)) b = (bit w b && (!bit v b || bit coin b)) := by
  simp [bit, hb]

/-! ## PAGE_FAULT (02 R82) -/

theorem exec_faultClear {a : Access} {pg : PageNo} {s : State} (h : Allowed a pg.val 0x01C 1 s) :
    exec (.faultClear a pg) s = .next (clearFault pg.val s) :=
  congrArg Host.Outcome.next (rowWrite_header {} h (by decide) rfl)

theorem clearFault_lost {pg : Nat} {s : State} (h : causeRemains pg s = true) : clearFault pg s = s := by
  rw [clearFault, if_pos h]

def PageFault.cleared (f : PageFault) : PageFault := { f with active := false, errpin := false, by_ := [] }

/-- What follows a clear on a jet's or the Cistern's page is beside the register file. -/
theorem pages_clearFault {pg : Nat} {s : State} (h : causeRemains pg s = false) :
    (clearFault pg s).pages = (s.modPage pg (fun p => { p with fault := p.fault.cleared })).pages := by
  have hne : ¬ causeRemains pg s = true := by simp [h]
  rw [clearFault, if_neg hne]
  split
  · simp [PageFault.cleared]
  · simp [PageFault.cleared]
  · rfl

theorem fault_clearFault {pg : Nat} {s : State} (h : causeRemains pg s = false) :
    ((clearFault pg s).page pg).fault = (s.page pg).fault.cleared := by
  rw [page_of_pages (pages_clearFault h), page_modPage_self]

/-! ## PAGE_INJ (17 R548) -/

/-- The word of PAGE_INJ that arms a detector. -/
def injWord (det : Byte) (cont : Bool) : Word := 0x200 ||| flagAt cont 8 ||| det.setWidth 32

theorem injWord_bits (det : Byte) (cont : Bool) : bit (injWord det cont) 9 = true ∧ bit (injWord det cont) 8 = cont := by
  cases cont <;> simp [injWord, bit, flagAt]

theorem injWord_det (det : Byte) (cont : Bool) : BitVec.ofNat 8 (bits (injWord det cont) 7 0) = det := by
  have hlow : BitVec.ofNat 8 (bits (injWord det cont) 7 0) = (injWord det cont).setWidth 8 := by
    apply BitVec.eq_of_toNat_eq
    simp [bits]
  rw [hlow]
  ext i hi
  cases cont <;> simp [injWord, flagAt]

/-- PAGE_INJ as the row writes it. -/
def State.armInj (s : State) (pg : Nat) (det : Byte) (cont : Bool) : State :=
  s.modPage pg (fun p => { p with injDet := det, injCont := cont, injArm := true })

/-- A one-shot injection has ended. -/
def State.disarmInj (s : State) (pg : Nat) : State := s.modPage pg (fun p => { p with injArm := false })

/-- An injection waits for a boundary of a slot on a half. -/
def State.injWaits (s : State) (n : SlotNo) : Bool := !(s.slot .A n).pend.inj.isEmpty || !(s.slot .B n).pend.inj.isEmpty

section
variable {a : Access} {pg : PageNo} {det : Byte} {cont : Bool} {s : State}

theorem exec_inject (h : Allowed a pg.val 0x020 (0x200 ||| flagAt cont 8 ||| det.setWidth 32) s) :
    exec (.inject a pg det cont) s = .next (writeInj pg.val (injWord det cont) s) :=
  congrArg Host.Outcome.next (rowWrite_header {} h (by decide) rfl)

/-- On a page that is no slot's the detector fires at once, and a one-shot injection ends with it. -/
theorem writeInj_plain {pg : Nat} (hk : ∀ n, pageKind pg ≠ some (.rs n)) {loc : Nat} {u : State}
    (hu : (s.armInj pg det cont).draw (2 ^ 20) = (loc, u)) :
    writeInj pg (injWord det cont) s = if cont then detect pg det loc u else (detect pg det loc u).disarmInj pg := by
  obtain ⟨harm, hcont⟩ := injWord_bits det cont
  rw [State.armInj] at hu
  simp only [writeInj, harm, hcont, injWord_det, hu, if_true]
  cases cont <;> rfl

/-- On a slot's page a continuous injection acts at the slot's boundaries, and a one-shot one ends unless it waits for one. -/
theorem writeInj_slot {pg n : Nat} (hk : pageKind pg = some (.rs n)) {loc : Nat} {u : State}
    (hu : (s.armInj pg det cont).draw (2 ^ 20) = (loc, u)) :
    writeInj pg (injWord det cont) s =
      if cont then u
      else if (detect pg det loc u).injWaits (Fin.ofNat 32 n) then detect pg det loc u
      else (detect pg det loc u).disarmInj pg := by
  obtain ⟨harm, hcont⟩ := injWord_bits det cont
  rw [State.armInj] at hu
  simp only [writeInj, harm, hcont, injWord_det, hu, hk, if_true]
  cases cont <;> rfl
end

theorem injWaits_iff (s : State) (n : SlotNo) : s.injWaits n = true ↔ ∃ h, (s.slot h n).pend.inj ≠ [] := by
  simp only [State.injWaits, Bool.or_eq_true, Bool.not_eq_true', List.isEmpty_eq_false_iff]
  constructor
  · rintro (hA | hB)
    · exact ⟨.A, hA⟩
    · exact ⟨.B, hB⟩
  · rintro ⟨h, hh⟩
    cases h
    · exact .inl hh
    · exact .inr hh

theorem injArm_disarmInj (s : State) (pg : Nat) : ((s.disarmInj pg).page pg).injArm = false := by
  rw [State.disarmInj, page_modPage_self]

/-- Settles O15: each register's write by its own equation; an injection fires `detect` on the armed page. -/
theorem eventsAndInjections : Obligations.EventsAndInjections := by
  refine ⟨fun s a pg v coin => ⟨fun h => ⟨_, exec_eventClear h, fun b hb => ?_, ?_, fun q hq => page_modPage_ne _ _ hq⟩,
    fun b hb => ⟨evtBit_setEvt_self s _ b hb, by rw [page_setEvt_self]⟩, fun h => ⟨fun hlast => ?_, fun hgone => ?_⟩⟩,
    fun s a pg det cont loc armed u harmed hloc hu h => ⟨fun hno => ⟨?_, ?_⟩, fun n hk => ⟨?_, fun hone => ⟨?_, ?_⟩⟩⟩⟩
  · rw [evtBit_eq, page_modPage_self, bit_clear _ _ _ hb, evtBit_eq]
  · rw [page_modPage_self]
  · exact ⟨_, exec_faultClear h, clearFault_lost hlast⟩
  · refine ⟨_, exec_faultClear h, ?_⟩
    beta_reduce
    rw [fault_clearFault hgone]
    exact ⟨rfl, rfl⟩
  all_goals
    have hdraw : (s.armInj pg.val det cont).draw (2 ^ 20) = (loc, u) := by
      rw [hloc, hu, harmed]
      rfl
  · rintro rfl
    have hw := exec_inject h
    rw [writeInj_plain hno hdraw] at hw
    exact ⟨_, hw, injArm_disarmInj _ _, rfl⟩
  · rintro rfl
    have hw := exec_inject h
    rw [writeInj_plain hno hdraw] at hw
    exact ⟨_, hw, rfl⟩
  · rintro rfl
    have hw := exec_inject h
    rw [writeInj_slot hk hdraw] at hw
    exact ⟨_, hw, rfl⟩
  · intro hnone
    subst hone
    have hw := exec_inject h
    have hends : ¬ (detect pg.val det loc u).injWaits (Fin.ofNat 32 n) = true := by
      rw [injWaits_iff]
      exact fun ⟨g, hg⟩ => hg (hnone g)
    rw [writeInj_slot hk hdraw, if_neg hends] at hw
    exact ⟨_, hw, injArm_disarmInj _ _, rfl⟩
  · intro hsome
    subst hone
    have hw := exec_inject h
    rw [writeInj_slot hk hdraw, if_pos ((injWaits_iff _ _).mpr hsome)] at hw
    exact ⟨_, hw, rfl⟩

end Sys2Proof.Machine
end

section
/-!
PROOFS. Scope: HOLD and DISCARD of buffered writes (O16).
-/

namespace Sys2Proof.Machine

/-! ## HOLD and DISCARD on a page's shadow (02 R56, R59, R60) -/

theorem captureLate_of_kept {p : Page} (h : p.hold = true ∨ p.captured ≠ none) : p.captureLate = p := by
  rw [Page.captureLate, if_pos]
  simpa [← Option.isSome_iff_ne_none] using h

theorem captureLate_of_open {p : Page} (hh : p.hold = false) (hc : p.captured = none) :
    p.captureLate = { p with captured := some p.shadow, shadow := [], capMark := p.bufCnt } := by
  rw [Page.captureLate, if_neg]
  simp [hh, hc]

theorem regs_captureLate (p : Page) : p.captureLate.regs = p.regs := by
  unfold Page.captureLate
  split_ifs <;> rfl

theorem hold_captureLate (p : Page) : p.captureLate.hold = p.hold := by
  unfold Page.captureLate
  split_ifs <;> rfl

/-- The page after a write to HOLD, the PTP and Fountain pages apart. -/
def Page.putHold (p : Page) (on late : Bool) : Page :=
  if on then { (if late then p.captureLate else p) with hold := true }
  else
    let past := p.hold && (late || p.captured.isSome)
    let q := { p with hold := false, late := p.late || (past && !p.shadow.isEmpty) }
    if past && p.captured.isNone then { q with captured := some [], capMark := q.doneMark } else q

theorem hold_putHold (p : Page) (on late : Bool) : (p.putHold on late).hold = on := by
  cases on
  · simp only [Page.putHold]
    split_ifs <;> simp_all
  · rfl

theorem regs_putHold (p : Page) (on late : Bool) : (p.putHold on late).regs = p.regs := by
  simp only [Page.putHold]
  split_ifs <;> simp [regs_captureLate]

theorem shadow_release (p : Page) (late : Bool) : (p.putHold false late).shadow = p.shadow := by
  simp only [Page.putHold]
  split_ifs <;> simp_all

theorem captured_release {p : Page} (late : Bool) (h : p.captured ≠ none) : (p.putHold false late).captured = p.captured := by
  have hsome : p.captured.isNone = false := by simpa [← Option.isSome_iff_ne_none] using h
  simp [Page.putHold, hsome]

/-- HOLD written as it stands changes nothing. -/
theorem putHold_hold (p : Page) (late : Bool) : p.putHold p.hold late = p := by
  cases hh : p.hold
  · simp [Page.putHold, hh]
    rw [← hh]
  · have hkept : p.captureLate = p := captureLate_of_kept (.inl hh)
    simp only [Page.putHold, hkept, ite_self, if_true]
    rw [← hh]

/-- The page after a write of 1 to DISCARD, the PTP and Fountain pages apart. -/
def Page.discarded (p : Page) (late : Bool) : Page :=
  let q := if late then p.captureLate else p
  let r := { q with shadow := [], pend := false, late := false }
  if r.captured.isNone then { r with doneMark := r.bufCnt } else { r with capMark := r.bufCnt }

theorem discarded_shadow (p : Page) (late : Bool) :
    (p.discarded late).shadow = [] ∧ (p.discarded late).pend = false ∧ (p.discarded late).late = false := by
  simp only [Page.discarded]
  split_ifs <;> exact ⟨rfl, rfl, rfl⟩

theorem discarded_keeps (p : Page) (late : Bool) :
    (p.discarded late).hold = p.hold ∧ (p.discarded late).regs = p.regs := by
  simp only [Page.discarded]
  split_ifs <;> simp [hold_captureLate, regs_captureLate]

theorem discarded_captured (p : Page) (late : Bool) :
    (p.discarded late).captured =
      if late = true ∧ p.hold = false ∧ p.captured = none then some p.shadow else p.captured := by
  have hcapt : (p.discarded late).captured = (if late then p.captureLate else p).captured := by
    simp only [Page.discarded]
    split_ifs <;> rfl
  rw [hcapt]
  by_cases hopen : p.hold = false ∧ p.captured = none
  · rw [captureLate_of_open hopen.1 hopen.2]
    cases late <;> simp [hopen]
  · have hkept : p.captureLate = p := captureLate_of_kept (by
      by_cases hh : p.hold = true
      · exact .inl hh
      · exact .inr fun hc => hopen ⟨by simpa using hh, hc⟩)
    rw [hkept, ite_self, if_neg fun h => hopen h.2]

section
variable {s : State} {pg : Nat} {a : Access} (hplain : servePage pg = false)
include hplain

theorem pages_holdPage (on : Bool) :
    (holdPage s pg on a).pages = (s.modPage pg (fun p => p.putHold on a.late)).pages := by
  cases on
  · simp only [holdPage, hplain, Bool.false_eq_true, if_false]
    rfl
  · have hnote : ∀ f, ((noteHeld s pg).modPage pg f).pages = (s.modPage pg f).pages := fun f => by
      simp [State.modPage, State.setPage, State.page]
    simp only [holdPage, hplain, Bool.false_eq_true, if_false, if_true]
    exact hnote (fun p => p.putHold true a.late)

theorem page_holdPage (on : Bool) : (holdPage s pg on a).page pg = (s.page pg).putHold on a.late := by
  rw [page_of_pages (pages_holdPage hplain on), page_modPage_self]

theorem page_discardPage : (discardPage s pg a).page pg = (s.page pg).discarded a.late := by
  simp only [discardPage, hplain, Bool.false_eq_true, if_false]
  exact page_modPage_self s pg (fun p => p.discarded a.late)
end

/-! ## What is in force at once does not hang on HOLD (01 R25; 02 R55) -/

theorem immediateNow_congr {s t : State} (hpwr : t.pwr = s.pwr) (hports : t.ports = s.ports)
    (hen : ∀ q, (t.page q).en = (s.page q).en) (hreg : ∀ q o, t.reg q o = s.reg q o) (pg off : Nat) :
    immediateNow t pg off = immediateNow s pg off := by
  have hport : ∀ p, t.port p = s.port p := fun p => by rw [State.port, hports, State.port]
  have hup : ∀ p, t.portUp p = s.portUp p := fun p => by rw [State.portUp, hen, hport, hpwr, State.portUp]
  have hlanes : ∀ p ab, t.pathLanes p ab = s.pathLanes p ab := fun p ab => by
    have href : t.refLane p ab = s.refLane p ab := by cases ab <;> simp only [State.refLane, State.fieldAt, hreg]
    have hspeed : t.speed p = s.speed p := by simp only [State.speed, State.fieldAt, hreg]
    have hpaired : t.paired p = s.paired p := by simp only [State.paired, State.bitAt, hreg]
    rw [State.pathLanes, href, hspeed, hpaired, State.pathLanes]
  have howner : ∀ n, t.laneOwner n = s.laneOwner n := fun n => by simp only [State.laneOwner, hup, hlanes]
  have haff : t.affected pg off = s.affected pg off := by simp only [State.affected, State.fieldAt, hreg]
  have hcopy : t.copyOnly pg = s.copyOnly pg := by
    simp only [State.copyOnly, State.anyHalfOn, State.halfOn, hpwr]
  simp only [immediateNow, hcopy, State.portIdle, hup, howner, haff]

theorem en_putHold (p : Page) (on late : Bool) : (p.putHold on late).en = p.en := by
  simp only [Page.putHold, Page.captureLate]
  split_ifs <;> rfl

theorem en_modPage (s : State) (pg : Nat) {f : Page → Page} (hf : ∀ p, (f p).en = p.en) (q : Nat) :
    ((s.modPage pg f).page q).en = (s.page q).en := by
  by_cases hq : q = pg
  · rw [hq, page_modPage_self, hf]
  · rw [page_modPage_ne _ _ hq]

theorem immediateNow_release {s : State} {pg : Nat} {a : Access} (hplain : servePage pg = false) (off : Nat) :
    immediateNow (holdPage s pg false a) pg off = immediateNow s pg off := by
  have hpages := pages_holdPage (s := s) (a := a) hplain false
  have hreg : ∀ q o, (holdPage s pg false a).reg q o = s.reg q o := fun q o => by
    rw [reg_of_pages hpages, reg_eq, reg_eq, regOf_modPage _ _ _ _ _ (regs_putHold _ _ _)]
  have hen : ∀ q, ((holdPage s pg false a).page q).en = (s.page q).en := fun q => by
    rw [page_of_pages hpages, en_modPage _ _ (fun p => en_putHold p false a.late)]
  have hports : (holdPage s pg false a).ports = s.ports := by
    simp only [holdPage, hplain, Bool.false_eq_true, if_false]
    exact (by simp : (s.modPage pg (fun p => p.putHold false a.late)).ports = s.ports)
  exact immediateNow_congr (by simp) hports hen hreg pg off

/-! ## The PTP and Fountain pages, port by port (02 R55, R56, R59; log entry 201) -/

/-- Each port is changed once, by its own function. -/
theorem port_foldl_modPort (f : PortNo → PortSt → PortSt) (l : List PortNo) (hl : l.Nodup) (s : State) (q : PortNo) :
    (l.foldl (fun b p => b.modPort p (f p)) s).port q = if q ∈ l then f q (s.port q) else s.port q := by
  induction l generalizing s with
  | nil => rfl
  | cons p r ih =>
    obtain ⟨hp, hr⟩ := List.nodup_cons.mp hl
    rw [List.foldl_cons, ih hr]
    by_cases hq : q = p
    · subst hq
      simp [hp]
    · simp [hq, port_modPort_ne s (f p) hq]

theorem port_foldl_allPorts (f : PortNo → PortSt → PortSt) (s : State) (q : PortNo) :
    (allPorts.foldl (fun b p => b.modPort p (f p)) s).port q = f q (s.port q) := by
  exact (port_foldl_modPort f allPorts (List.nodup_finRange 16) s q).trans (if_pos (List.mem_finRange q))

theorem waits_setWaits (x : PortSt) (pg : Nat) (w : PortWords) : (x.setWaits pg w).waits pg = w := by
  unfold PortSt.setWaits PortSt.waits
  split_ifs <;> rfl

theorem waits_setOver (x : PortSt) (pg : Nat) (m : KMap Word) (q : Nat) : (x.setOver pg m).waits q = x.waits q := by
  unfold PortSt.setOver PortSt.waits
  split_ifs <;> rfl

theorem port_modPage (s : State) (pg : Nat) (f : Page → Page) (p : PortNo) : (s.modPage pg f).port p = s.port p := by
  simp [State.port]

/-- HOLD at 1: what waits for a port is captured where the write missed that port's capture point. -/
theorem waits_holdServe_on (s : State) (pg : Nat) (a : Access) (p : PortNo) :
    ((s.holdServe pg true a).port p).waits pg =
      if s.missed a p = true ∧ (s.page pg).hold = false ∧ ((s.port p).waits pg).wait ≠ []
      then ((s.port p).waits pg).capture (s.page pg).bufCnt else (s.port p).waits pg := by
  simp only [State.holdServe, if_true, port_modPage]
  rw [port_foldl_allPorts (fun p x =>
    if s.missed a p && !(s.page pg).hold && !(x.waits pg).wait.isEmpty
    then x.setWaits pg ((x.waits pg).capture (s.page pg).bufCnt) else x)]
  rw [apply_ite (PortSt.waits · pg), waits_setWaits]
  simp [and_assoc]

theorem page_holdServe_on (s : State) (pg : Nat) (a : Access) :
    (s.holdServe pg true a).page pg = { s.page pg with hold := true } := by
  simp only [State.holdServe, if_true]
  rw [page_modPage_self]
  have hpages : ∀ f : PortNo → PortSt → PortSt,
      (allPorts.foldl (fun b p => b.modPort p (f p)) s).page pg = s.page pg := fun f => page_of_pages (by simp) pg
  rw [hpages]

/-- HOLD of a page in a register file. -/
def holdOf (m : KMap Page) (q : Nat) : Bool := (look Page.reset m q).hold

theorem hold_eq_holdOf (s : State) (q : Nat) : (s.page q).hold = holdOf s.pages q := rfl

theorem holdOf_modPage (s : State) (pg : Nat) {f : Page → Page} (hf : ∀ p, (f p).hold = p.hold) (q : Nat) :
    holdOf (s.modPage pg f).pages q = holdOf s.pages q := by
  rw [← hold_eq_holdOf, ← hold_eq_holdOf]
  by_cases hq : q = pg
  · rw [hq, page_modPage_self, hf]
  · rw [page_modPage_ne _ _ hq]

theorem holdOf_setReg (s : State) (pg o : Nat) (v : Word) (q : Nat) :
    holdOf (s.setReg pg o v).pages q = holdOf s.pages q :=
  holdOf_modPage s pg (f := fun p => p.setReg pg o v) (fun _ => rfl) q

theorem holdOf_foldl_setReg (l : List Nat) (v : Nat → Word) (pg : Nat) (s : State) (q : Nat) :
    holdOf (l.foldl (fun a o => a.setReg pg o (v o)) s).pages q = holdOf s.pages q := by
  induction l generalizing s with
  | nil => rfl
  | cons o r ih => rw [List.foldl_cons, ih, holdOf_setReg]

theorem hold_commitPorts (s : State) (pg q : Nat) : ((s.commitPorts pg).page q).hold = (s.page q).hold := by
  rw [hold_eq_holdOf, hold_eq_holdOf]
  simp only [State.commitPorts]
  rw [holdOf_modPage, holdOf_foldl_setReg]
  exact fun _ => rfl

theorem hold_settleServe (s : State) (pg q : Nat) : ((s.settleServe pg).page q).hold = (s.page q).hold := by
  rw [State.settleServe, hold_commitPorts, page_of_pages (s := s) (by simp)]

theorem hold_holdServe (s : State) (pg : Nat) (on : Bool) (a : Access) : ((s.holdServe pg on a).page pg).hold = on := by
  cases on
  · simp only [State.holdServe, Bool.false_eq_true, if_false]
    rw [hold_settleServe]
    have hpages : ∀ (u : State) (f : PortNo → PortSt → PortSt),
        (allPorts.foldl (fun b p => b.modPort p (f p)) u).page pg = u.page pg := fun u f => page_of_pages (by simp) pg
    rw [hpages, page_modPage_self]
  · rw [page_holdServe_on]

/-- Nothing written to the page still has to be captured for a port. -/
def State.noneWaits (s : State) (pg : Nat) : Prop := ∀ p, ((s.port p).waits pg).wait = []

theorem wait_passed {x : PortWords} (h : x.wait = []) (hold : Bool) (n : Nat) : (x.passed hold n).wait = [] := by
  unfold PortWords.passed
  split
  · exact h
  · split_ifs <;> simp [h]

theorem waits_portTakes (s : State) (p q : PortNo) (pg : Nat) :
    ((s.portTakes p pg).port q).waits pg =
      if q = p then ((s.port p).waits pg).passed (s.page pg).hold (s.page pg).bufCnt else (s.port q).waits pg := by
  simp only [State.portTakes]
  by_cases hq : q = p
  · subst hq
    rw [port_modPort_self, waits_setWaits, if_pos rfl]
  · rw [port_modPort_ne _ _ hq, State.portPut, port_modPort_ne _ _ hq, if_neg hq]

theorem noneWaits_portTakes {s : State} {pg : Nat} (p : PortNo) (h : s.noneWaits pg) : (s.portTakes p pg).noneWaits pg := by
  intro q
  rw [waits_portTakes]
  split_ifs
  · exact wait_passed (h p) _ _
  · exact h q

theorem noneWaits_idleTakes {s : State} {pg : Nat} (h : s.noneWaits pg) : (s.idleTakes pg).noneWaits pg := by
  unfold State.idleTakes
  induction allPorts generalizing s with
  | nil => exact h
  | cons p r ih =>
    rw [List.foldl_cons]
    split_ifs
    · exact ih h
    · exact ih (noneWaits_portTakes p (noneWaits_portTakes p h))

theorem waits_commitPorts (s : State) (pg : Nat) (p : PortNo) : ((s.commitPorts pg).port p).waits pg = (s.port p).waits pg := by
  have hmap : ∀ (f : PortSt → PortSt) (ps : Vector PortSt 16), (ps.map f).get p = f (ps.get p) := fun f ps => by
    simp [Vector.get_eq_getElem]
  simp only [State.commitPorts, State.port]
  rw [hmap, waits_setOver]
  simp

theorem noneWaits_settleServe {s : State} {pg : Nat} (h : s.noneWaits pg) : (s.settleServe pg).noneWaits pg := by
  intro p
  rw [State.settleServe, waits_commitPorts]
  exact noneWaits_idleTakes h p

theorem noneWaits_discardServe (s : State) (pg : Nat) (a : Access) : (s.discardServe pg a).noneWaits pg := by
  intro p
  simp only [State.discardServe]
  rw [waits_commitPorts, port_foldl_allPorts (fun p x => x.setWaits pg
    { (if s.missed a p && !(s.page pg).hold && !(x.waits pg).wait.isEmpty then (x.waits pg).capture (s.page pg).bufCnt
        else x.waits pg) with wait := [], capMark := (s.page pg).bufCnt }), waits_setWaits]

theorem page_foldl_modPort (f : PortNo → PortSt → PortSt) (s : State) (q : Nat) :
    (allPorts.foldl (fun b p => b.modPort p (f p)) s).page q = s.page q := page_of_pages (by simp) q

theorem hold_discardServe (s : State) (pg : Nat) (a : Access) : ((s.discardServe pg a).page pg).hold = (s.page pg).hold := by
  simp only [State.discardServe]
  rw [hold_commitPorts, page_foldl_modPort, page_modPage_self]

/-- HOLD written as it stands, with nothing to capture: nothing comes to wait. -/
theorem noneWaits_holdServe {s : State} {pg : Nat} (a : Access) (h : s.noneWaits pg) :
    (s.holdServe pg (s.page pg).hold a).noneWaits pg := by
  cases hh : (s.page pg).hold
  · simp only [State.holdServe, hh, Bool.false_and, Bool.false_eq_true, if_false]
    refine noneWaits_settleServe fun p => ?_
    rw [port_foldl_allPorts (fun _ x => x), port_modPage]
    exact h p
  · intro p
    rw [waits_holdServe_on, if_neg (by simp [hh])]
    exact h p

/-! ## The rows of PAGE_APPLY -/

section
variable {s : State} {pg : Nat} {a : Access}

theorem hold_holdPage (on : Bool) : ((holdPage s pg on a).page pg).hold = on := by
  by_cases hserve : servePage pg = true
  · simp only [holdPage, hserve, if_true]
    exact hold_holdServe _ _ _ _
  · rw [page_holdPage (by simpa using hserve), hold_putHold]

theorem putAtOnce_of_hold (ws : List (Nat × Word × Word)) (h : (s.page pg).hold = true) : putAtOnce s pg ws = false := by
  simp [putAtOnce, h]

theorem putAtOnce_of_released (ws : KMap Word) (h : (s.page pg).hold = false) :
    putAtOnce s pg (ws.map (fun e => (e.1, e.2, allOnes))) = true ↔ ∀ e ∈ ws, immediateNow s pg e.1 = true := by
  simp [putAtOnce, h]

theorem writeApply_hold {v : Word} (h0 : bit v 0 = true) (h1 : bit v 1 = false) :
    writeApply pg v a s = holdPage s pg true a := by
  have hput := fun ws => putAtOnce_of_hold ws (hold_holdPage (s := s) (pg := pg) (a := a) true)
  simp only [writeApply, h0, h1, hput, Bool.and_false, Bool.false_eq_true, if_false]

/-- A write of 1 to DISCARD that leaves HOLD as it is. -/
theorem writeApply_discard {v : Word} (h0 : bit v 0 = (s.page pg).hold) (h1 : bit v 1 = true) :
    writeApply pg v a s = holdPage (discardPage s pg a) pg (s.page pg).hold a := by
  simp only [writeApply, h0, h1, if_true]
  cases hh : (s.page pg).hold
  · rfl
  · have hput := fun ws => putAtOnce_of_hold ws (hold_holdPage (s := discardPage s pg a) (pg := pg) (a := a) true)
    simp only [hput, Bool.and_false, Bool.false_eq_true, if_false]

/-- HOLD at 0: the page's words stay where one has a boundary to wait for. -/
theorem writeApply_release_waits {v : Word} (h0 : bit v 0 = false) (h1 : bit v 1 = false)
    (h : (s.page pg).hold = false ∨ (s.page pg).waiting = [] ∨
      ∃ e ∈ (s.page pg).waiting, immediateNow (holdPage s pg false a) pg e.1 = false) :
    writeApply pg v a s = holdPage s pg false a := by
  simp only [writeApply, h0, h1, Bool.false_eq_true, if_false]
  rw [if_neg]
  simp only [Bool.and_eq_true, putAtOnce_of_released _ (hold_holdPage false)]
  rintro ⟨⟨hhold, hsome⟩, hall⟩
  rcases h with h | h | ⟨e, he, hwait⟩
  · simp [h] at hhold
  · simp [h] at hsome
  · simp [hall e he] at hwait

/-- HOLD at 0 with no boundary to wait for: the page's words come into force. -/
theorem writeApply_release_now {v : Word} (h0 : bit v 0 = false) (h1 : bit v 1 = false) (hhold : (s.page pg).hold = true)
    (hsome : (s.page pg).waiting ≠ []) (hall : ∀ e ∈ (s.page pg).waiting, immediateNow (holdPage s pg false a) pg e.1 = true) :
    writeApply pg v a s =
      if servePage pg then nowInForce pg (s.page pg).waiting s
        ((holdPage s pg false a).modPage pg (fun p => { p with applySeq := p.applySeq + 1 }))
      else nowInForce pg (s.page pg).waiting (holdPage s pg false a) (flushWords (holdPage s pg false a) pg) := by
  simp only [writeApply, h0, h1, Bool.false_eq_true, if_false]
  rw [if_pos]
  simp only [Bool.and_eq_true, putAtOnce_of_released _ (hold_holdPage false)]
  exact ⟨⟨hhold, by simpa using hsome⟩, hall⟩
end

section
variable {a : Access} {pg : PageNo} {s : State}

theorem exec_applyHold (h : Allowed a pg.val 0x024 1 s) : exec (.applyHold a pg) s = .next (holdPage s pg.val true a) :=
  congrArg Host.Outcome.next ((rowWrite_header {} h (by decide) rfl).trans (writeApply_hold (by decide) (by decide)))

theorem exec_applyRelease (h : Allowed a pg.val 0x024 0 s) : exec (.applyRelease a pg) s = .next (writeApply pg.val 0 a s) :=
  congrArg Host.Outcome.next (rowWrite_header {} h (by decide) rfl)

theorem exec_discard (h : Allowed a pg.val 0x024 (0x2 ||| flagAt (s.page pg.val).hold 0) s) :
    exec (.discard a pg) s = .next (holdPage (discardPage s pg.val a) pg.val (s.page pg.val).hold a) := by
  obtain ⟨-, hdisc, hhold⟩ := srstWord_bits (s.page pg.val).hold
  exact congrArg Host.Outcome.next ((rowWrite_header {} h (by decide) rfl).trans (writeApply_discard hhold hdisc))

theorem holdPage_serve {pg : Nat} {on : Bool} (hserve : servePage pg = true) :
    holdPage s pg on a = (if on then noteHeld s pg else s).holdServe pg on a := by
  simp only [holdPage, hserve, if_true]
end

theorem page_noteHeld (s : State) (pg q : Nat) : (noteHeld s pg).page q = s.page q := page_of_pages (by simp) q

theorem port_noteHeld (s : State) (pg : Nat) (p : PortNo) : (noteHeld s pg).port p = s.port p := by simp [State.port]

theorem missed_noteHeld (s : State) (pg : Nat) (a : Access) (p : PortNo) : (noteHeld s pg).missed a p = s.missed a p := by
  simp only [State.missed, State.portUp, page_noteHeld, port_noteHeld]
  simp

/-- HOLD at 1 on a page of which the shadow is the page's own. -/
theorem applyHold_plain {s : State} {a : Access} {pg : Nat} (hplain : servePage pg = false) :
    ((holdPage s pg true a).page pg).hold = true ∧ ((holdPage s pg true a).page pg).regs = (s.page pg).regs ∧
    (a.late = false ∨ (s.page pg).hold = true ∨ (s.page pg).captured ≠ none →
      ((holdPage s pg true a).page pg).shadow = (s.page pg).shadow ∧
      ((holdPage s pg true a).page pg).captured = (s.page pg).captured) ∧
    (a.late = true → (s.page pg).hold = false → (s.page pg).captured = none →
      ((holdPage s pg true a).page pg).shadow = [] ∧
      ((holdPage s pg true a).page pg).captured = some (s.page pg).shadow) := by
  rw [page_holdPage hplain]
  refine ⟨hold_putHold _ _ _, regs_putHold _ _ _, ?_, ?_⟩
  · rintro (hintime | hkept)
    · rw [hintime]
      exact ⟨rfl, rfl⟩
    · simp [Page.putHold, captureLate_of_kept hkept]
  · intro hlate hopen hnone
    simp [Page.putHold, hlate, captureLate_of_open hopen hnone]

theorem applyHold_serve {s : State} {a : Access} {pg : Nat} (hserve : servePage pg = true) :
    ((holdPage s pg true a).page pg).hold = true ∧ ((holdPage s pg true a).page pg).regs = (s.page pg).regs ∧
    ((holdPage s pg true a).page pg).shadow = (s.page pg).shadow ∧
    ∀ p, ((holdPage s pg true a).port p).waits pg =
      (if s.missed a p = true ∧ (s.page pg).hold = false ∧ ((s.port p).waits pg).wait ≠ []
       then ((s.port p).waits pg).capture (s.page pg).bufCnt else (s.port p).waits pg) := by
  rw [holdPage_serve hserve, if_pos rfl, page_holdServe_on, page_noteHeld]
  refine ⟨rfl, rfl, rfl, fun p => ?_⟩
  rw [waits_holdServe_on, missed_noteHeld, page_noteHeld, port_noteHeld]

/-- DISCARD on a page of which the shadow is the page's own. -/
theorem discard_plain {s : State} {a : Access} {pg : Nat} (hplain : servePage pg = false) :
    (holdPage (discardPage s pg a) pg (s.page pg).hold a).page pg = (s.page pg).discarded a.late := by
  rw [page_holdPage hplain, page_discardPage hplain, ← (discarded_keeps (s.page pg) a.late).1, putHold_hold]

theorem discard_serve {s : State} {a : Access} {pg : Nat} (hserve : servePage pg = true) :
    (holdPage (discardPage s pg a) pg (s.page pg).hold a).noneWaits pg := by
  have hdisc : discardPage s pg a = s.discardServe pg a := by simp only [discardPage, hserve, if_true]
  have hnote : ∀ u : State, u.noneWaits pg → (noteHeld u pg).noneWaits pg := fun u hu p => by rw [port_noteHeld]; exact hu p
  rw [holdPage_serve hserve, hdisc, ← hold_discardServe s pg a]
  cases hh : ((s.discardServe pg a).page pg).hold
  · have hkeep := noneWaits_holdServe a (noneWaits_discardServe s pg a)
    rw [hh] at hkeep
    exact hkeep
  · have hkeep := noneWaits_holdServe a (hnote _ (noneWaits_discardServe s pg a))
    rw [page_noteHeld, hh] at hkeep
    exact hkeep

/-- Settles O16: a page of its own shadow by `Page.putHold` and `Page.discarded`, the PTP and Fountain pages by what waits for each
port. -/
theorem applyHoldsAndDiscards : Obligations.ApplyHoldsAndDiscards := by
  intro s a pg
  have h0 : bit 0 0 = false := by decide
  have h1 : bit 0 1 = false := by decide
  refine ⟨fun h => ⟨fun hplain => ⟨_, exec_applyHold h, applyHold_plain hplain⟩,
      fun hserve => ⟨_, exec_applyHold h, applyHold_serve hserve⟩⟩, fun h hplain => ⟨fun hwait => ?_, fun hhold hsome hall => ?_⟩,
    fun u h hserve hu => ?_, fun h => ⟨fun hplain => ⟨_, exec_discard h, ?_⟩,
      fun hserve => ⟨_, exec_discard h, hold_holdPage _, discard_serve hserve⟩⟩⟩
  · refine ⟨_, exec_applyRelease h, ?_⟩
    rw [writeApply_release_waits h0 h1 (by simpa only [immediateNow_release hplain] using hwait)]
    beta_reduce
    rw [page_holdPage hplain]
    exact ⟨hold_putHold _ _ _, shadow_release _ _, regs_putHold _ _ _, captured_release _⟩
  · refine ⟨_, exec_applyRelease h, ?_⟩
    rw [writeApply_release_now h0 h1 hhold hsome (by simpa only [immediateNow_release hplain] using hall), hplain]
    rfl
  · have hrel : holdPage s pg.val false a = u := (holdPage_serve hserve).trans hu.symm
    subst hrel
    refine ⟨fun hwait => ⟨_, exec_applyRelease h, ?_⟩, fun hhold hsome hall => ⟨_, exec_applyRelease h, ?_⟩⟩
    · rw [writeApply_release_waits h0 h1 hwait]
      exact ⟨hold_holdPage false, rfl⟩
    · rw [writeApply_release_now h0 h1 hhold hsome hall, if_pos hserve]
  · beta_reduce
    rw [discard_plain hplain]
    obtain ⟨hshadow, hpend, hlate⟩ := discarded_shadow (s.page pg.val) a.late
    obtain ⟨hhold, hregs⟩ := discarded_keeps (s.page pg.val) a.late
    exact ⟨hshadow, hpend, hlate, hhold, discarded_captured _ _, hregs⟩

end Sys2Proof.Machine
end

section
/-!
PROOFS. Scope: observations are held against the domains of their slot (O29).
-/

namespace Sys2Proof.Machine

/-! ## A half's work under its own configuration (02 R57) -/

theorem half_of_halves {s t : State} (h : t.halves = s.halves) (g : Half) : t.half g = s.half g := by
  rw [State.half, h, State.half]

theorem slot_of_halves {s t : State} (h : t.halves = s.halves) (g : Half) (n : SlotNo) : t.slot g n = s.slot g n := by
  rw [State.slot, half_of_halves h, State.slot]

theorem sd_of_halves {s t : State} (h : t.halves = s.halves) (g : Half) (n : SlotNo) (d : Dom) :
    t.sd g n d = s.sd g n d := by
  rw [State.sd, slot_of_halves h, State.sd]

@[simp] theorem half_view (s : State) (h g : Half) : (s.view h).half g = s.half g := half_of_halves (by simp) g

@[simp] theorem slot_view (s : State) (h g : Half) (n : SlotNo) : (s.view h).slot g n = s.slot g n :=
  slot_of_halves (by simp) g n

@[simp] theorem sd_view (s : State) (h g : Half) (n : SlotNo) (d : Dom) : (s.view h).sd g n d = s.sd g n d :=
  sd_of_halves (by simp) g n d

@[simp] theorem dom_view (s : State) (h g : Half) (d : Dom) : (s.view h).dom g d = s.dom g d := by
  simp [State.dom]

@[simp] theorem gridOn_view (s : State) (h g : Half) : (s.view h).gridOn g = s.gridOn g := by
  simp [State.gridOn, State.halfOn]

theorem halves_inView (s : State) (h : Half) (f : State → State) : (s.inView h f).halves = (f (s.view h)).halves := by
  simp [State.inView]

theorem halves_halvesIn (s : State) (h : Half) (f : State → State) : (s.halvesIn h f).halves = (f (s.view h)).halves := rfl

/-! ## What the work on one slot of a half leaves -/

/-- `t` differs from `s` on the half's slots, the state of slot `n` apart, and in events and records: the registers, the peer
half and the half's domains stand. -/
structure State.SlotWork (h : Half) (n : SlotNo) (s t : State) : Prop where
  regs : ∀ pg o, t.reg pg o = s.reg pg o
  peer : t.half h.peer = s.half h.peer
  doms : ∀ d, t.dom h d = s.dom h d
  st : (t.slot h n).st = (s.slot h n).st

theorem State.SlotWork.refl {h : Half} {n : SlotNo} (s : State) : s.SlotWork h n s := ⟨fun _ _ => rfl, rfl, fun _ => rfl, rfl⟩

theorem State.SlotWork.trans {h : Half} {n : SlotNo} {s t u : State} (a : s.SlotWork h n t) (b : t.SlotWork h n u) :
    s.SlotWork h n u :=
  ⟨fun pg o => (b.regs pg o).trans (a.regs pg o), b.peer.trans a.peer, fun d => (b.doms d).trans (a.doms d), b.st.trans a.st⟩

theorem slotWork_modSlot {s : State} {h : Half} {n m : SlotNo} {f : SlotSt → SlotSt}
    (hf : ∀ z, (f z).st = z.st := by intro; rfl) :
    s.SlotWork h n (s.modSlot h m f) where
  regs pg o := by simp [reg_eq]
  peer := half_modHalf_ne _ _ (Half.peer_ne h)
  doms d := by simp [State.dom, State.modSlot]
  st := by
    by_cases hm : n = m
    · subst hm; rw [slot_modSlot_self, hf]
    · rw [slot_modSlot_ne _ _ _ hm]

theorem slotWork_slotEvt {s : State} {h : Half} {n m : SlotNo} (b : Nat) : s.SlotWork h n (s.slotEvt h m b) where
  regs pg o := by simp [reg_eq]
  peer := half_of_halves (by simp) _
  doms d := by simp [State.dom, State.half]
  st := congrArg SlotSt.st (slot_of_halves (by simp) h n)

theorem slotWork_modSd {s : State} {h : Half} {n m : SlotNo} (d : Dom) (f : SlotDom → SlotDom) :
    s.SlotWork h n (s.modSd h m d f) := slotWork_modSlot

theorem sd_slotEvt (s : State) (h : Half) (n : SlotNo) (b : Nat) (m : SlotNo) (d : Dom) :
    (s.slotEvt h n b).sd h m d = s.sd h m d := sd_of_halves (by simp) h m d

theorem sd_modSd_ne (s : State) (h : Half) (n : SlotNo) {d e : Dom} (f : SlotDom → SlotDom) (he : e ≠ d) :
    (s.modSd h n d f).sd h n e = s.sd h n e := by
  simp [State.sd, State.modSd, get_modAt_ne _ _ he]

theorem sd_modSd_slot_ne (s : State) (h : Half) {n m : SlotNo} (d e : Dom) (f : SlotDom → SlotDom) (hm : m ≠ n) :
    (s.modSd h n d f).sd h m e = s.sd h m e := by
  rw [State.sd, State.modSd, slot_modSlot_ne _ _ _ hm, State.sd]

theorem sd_modSlot {s : State} {h : Half} {n : SlotNo} {f : SlotSt → SlotSt} (d : Dom)
    (hf : ∀ z, (f z).dom = z.dom := by intro; rfl) :
    (s.modSlot h n f).sd h n d = s.sd h n d := by
  rw [State.sd, slot_modSlot_self, hf, State.sd]

/-! ## Work over the domains of a slot, one after the other -/

/-- A fold whose steps are all related by `R` and which alone at `d` changes what `look` sees: it is seen as the step at `d`
leaves it. -/
theorem foldl_sees_once {α β γ : Type} {g : β → α → β} {R : β → β → Prop} {look : β → γ} {l : List α} {d : α}
    (hrefl : ∀ a, R a a) (htrans : ∀ {a b c}, R a b → R b c → R a c) (hR : ∀ a e, R a (g a e))
    (hkeep : ∀ a e, e ≠ d → look (g a e) = look a) (hl : l.Nodup) (hd : d ∈ l) (s : β) :
    ∃ a, R s a ∧ look a = look s ∧ R s (l.foldl g s) ∧ look (l.foldl g s) = look (g a d) := by
  have run : ∀ (k : List α) a, R a (k.foldl g a) := fun k a =>
    List.foldlRecOn k g (hrefl a) fun b hb e _ => htrans hb (hR b e)
  have keep : ∀ (k : List α) a, d ∉ k → look (k.foldl g a) = look a := fun k a hk =>
    List.foldlRecOn k g (motive := fun b => look b = look a) rfl fun b hb e he =>
      (hkeep b e fun h => hk (h ▸ he)).trans hb
  obtain ⟨l₁, l₂, rfl⟩ := List.append_of_mem hd
  have hd₁ : d ∉ l₁ := fun h => (List.nodup_append.mp hl).2.2 d h d (by simp) rfl
  have hd₂ : d ∉ l₂ := (List.nodup_cons.mp (List.nodup_append.mp hl).2.1).1
  refine ⟨l₁.foldl g s, run l₁ s, keep l₁ s hd₁, run _ s, ?_⟩
  rw [List.foldl_append, List.foldl_cons, keep l₂ _ hd₂]

theorem nodup_slotDoms (s : State) (n : SlotNo) : (s.slotDoms n).Nodup := by
  unfold State.slotDoms
  split
  · simp
  · exact List.Nodup.filter _ (by decide)

theorem State.SlotWork.bitAt {h : Half} {n : SlotNo} {s t : State} (w : s.SlotWork h n t) : t.bitAt = s.bitAt := by
  funext pg o i
  rw [State.bitAt, w.regs, State.bitAt]

theorem State.SlotWork.slotDoms {h : Half} {n : SlotNo} {s t : State} (w : s.SlotWork h n t) (m : SlotNo) :
    t.slotDoms m = s.slotDoms m := by
  unfold State.slotDoms State.slotMask
  rw [w.bitAt]

theorem State.SlotWork.slotClass {h : Half} {n : SlotNo} {s t : State} (w : s.SlotWork h n t) (m : SlotNo) :
    t.slotClass m = s.slotClass m := by
  unfold State.slotClass
  rw [w.bitAt]

theorem State.SlotWork.delayed {h : Half} {n : SlotNo} {s t : State} (w : s.SlotWork h n t) (m : SlotNo) (raw : Int) :
    t.delayed m raw = s.delayed m raw := by
  simp only [State.delayed, State.sfieldAt, w.regs]

/-! ## One observation against one domain (05 R153 to R156) -/

/-- The offset that an observation holds: RS_DELAY added, and a PHASE offset reduced (R153, R155). -/
def State.offsetOf (s : State) (n : SlotNo) (raw : Int) : Int :=
  if s.slotClass n = 1 then reducePhase (s.delayed n raw) else s.delayed n raw

theorem State.SlotWork.offsetOf {h : Half} {n : SlotNo} {s t : State} (w : s.SlotWork h n t) (raw : Int) :
    t.offsetOf n raw = s.offsetOf n raw := by
  simp only [State.offsetOf, w.slotClass, w.delayed]

theorem slotWork_stepSeen (s : State) (h : Half) (n : SlotNo) : s.SlotWork h n (s.stepSeen h n) :=
  State.SlotWork.trans slotWork_modSlot (slotWork_slotEvt _)

theorem sd_stepSeen (s : State) (h : Half) (n : SlotNo) (d : Dom) : (s.stepSeen h n).sd h n d = s.sd h n d :=
  (sd_slotEvt _ h n _ n d).trans (sd_modSlot d)

theorem slotWork_phaseLimit (s : State) (h : Half) (n : SlotNo) (d : Dom) : s.SlotWork h n (phaseLimit h n d s) := by
  unfold phaseLimit
  dsimp only
  split_ifs
  · exact (slotWork_modSd _ _).trans slotWork_modSlot
  · exact (slotWork_modSd _ _).trans slotWork_modSlot
  · exact slotWork_modSd _ _
  · exact slotWork_modSd _ _

/-- The phase-limit monitor leaves the observations held, and every other domain. -/
theorem sd_phaseLimit (s : State) (h : Half) (n : SlotNo) (d : Dom) :
    ((phaseLimit h n d s).sd h n d).obs = (s.sd h n d).obs ∧
    ((phaseLimit h n d s).sd h n d).nSince = (s.sd h n d).nSince ∧
    ∀ e, e ≠ d → (phaseLimit h n d s).sd h n e = s.sd h n e := by
  have fail : ∀ (t : State) r e, (t.failPhase h n r).sd h n e = t.sd h n e := fun t r e => sd_modSlot e
  unfold phaseLimit
  dsimp only
  split_ifs <;> simp +contextual [fail, sd_modSd_ne]

/-- What a slot holds against a domain after an observation of offset `x` at the mark. -/
def SlotDom.taking (m : PulseMark) (x : Int) (ex : Bool) (run : Nat) (z : SlotDom) : SlotDom :=
  { z with obs := pushObs m.el z.obs (z.obsAt m x (!ex)), nSince := z.nSince + 1, exceed := run, fresh := true }

/-- An observation is held; the phase-step detector may fire then, and the phase-limit monitor run. -/
theorem observeIn_cases (s : State) (h : Half) (n : SlotNo) (d : Dom) (m : PulseMark) (raw : Int) :
    ∃ ex run u, (u = s.modSd h n d (SlotDom.taking m (s.offsetOf n raw) ex run) ∨
        u = (s.modSd h n d (SlotDom.taking m (s.offsetOf n raw) ex run)).stepSeen h n) ∧
      (observeIn h n d m raw s = u ∨ observeIn h n d m raw s = phaseLimit h n d u) := by
  unfold observeIn
  dsimp only
  generalize (if (s.slotClass n != 2) = true then _ else _ : Bool × Nat) = p
  refine ⟨p.1, p.2, ?_⟩
  by_cases ht : (s.slotClass n != 2) = true
  · rw [if_pos ht]
    refine ⟨_, ?_, .inr rfl⟩
    split
    · exact .inr rfl
    · exact .inl rfl
  · rw [if_neg ht]
    exact ⟨_, .inl rfl, .inl rfl⟩

theorem slotWork_observeIn (s : State) (h : Half) (n : SlotNo) (d : Dom) (m : PulseMark) (raw : Int) :
    s.SlotWork h n (observeIn h n d m raw s) := by
  obtain ⟨ex, run, u, hu, hres⟩ := observeIn_cases s h n d m raw
  have hw : s.SlotWork h n u := by
    rcases hu with rfl | rfl
    · exact slotWork_modSd _ _
    · exact (slotWork_modSd _ _).trans (slotWork_stepSeen _ h n)
  rcases hres with heq | heq
  · exact heq ▸ hw
  · exact heq ▸ hw.trans (slotWork_phaseLimit u h n d)

theorem sd_observeIn (s : State) (h : Half) (n : SlotNo) (d : Dom) (m : PulseMark) (raw : Int) :
    ((observeIn h n d m raw s).sd h n d).latest = some (s.offsetOf n raw) ∧
    ((observeIn h n d m raw s).sd h n d).nSince = (s.sd h n d).nSince + 1 ∧
    ∀ e, e ≠ d → (observeIn h n d m raw s).sd h n e = s.sd h n e := by
  obtain ⟨ex, run, u, hu, hres⟩ := observeIn_cases s h n d m raw
  have hsd : ∀ e, u.sd h n e = (s.modSd h n d (SlotDom.taking m (s.offsetOf n raw) ex run)).sd h n e := by
    rcases hu with rfl | rfl
    · exact fun _ => rfl
    · exact sd_stepSeen _ h n
  have hself : (u.sd h n d).latest = some (s.offsetOf n raw) ∧ (u.sd h n d).nSince = (s.sd h n d).nSince + 1 := by
    rw [hsd, sd_modSd_self]
    exact ⟨rfl, rfl⟩
  have hne : ∀ e, e ≠ d → u.sd h n e = s.sd h n e := fun e he => (hsd e).trans (sd_modSd_ne _ _ _ _ he)
  rcases hres with heq | heq
  · rw [heq]
    exact ⟨hself.1, hself.2, hne⟩
  · obtain ⟨hobs, hsince, hother⟩ := sd_phaseLimit u h n d
    rw [heq]
    exact ⟨by rw [SlotDom.latest, hobs]; exact hself.1, hsince.trans hself.2, fun e he => (hother e he).trans (hne e he)⟩

/-! ## A slot's reading (05 R149, R153, R154, R177) -/

theorem slotWork_adoptDone (s : State) (h : Half) (n : SlotNo) : s.SlotWork h n (s.adoptDone h n) := by
  unfold State.adoptDone
  split
  · exact State.SlotWork.trans slotWork_modSlot (slotWork_slotEvt _)
  · exact .refl s

theorem sd_adoptDone (s : State) (h : Half) (n : SlotNo) (d : Dom) : (s.adoptDone h n).sd h n d = s.sd h n d := by
  unfold State.adoptDone
  split
  · exact (sd_slotEvt _ h n _ n d).trans (sd_modSlot d)
  · rfl

theorem slotWork_observeRaw (s : State) (h : Half) (n : SlotNo) (r : Option Int) (d : Dom) :
    s.SlotWork h n (observeRaw h n r d s) := by
  cases r with
  | none => exact .refl s
  | some v => exact slotWork_observeIn s h n d _ v

theorem sd_observeRaw_ne (s : State) (h : Half) (n : SlotNo) (r : Option Int) {d e : Dom} (he : e ≠ d) :
    (observeRaw h n r d s).sd h n e = s.sd h n e := by
  cases r with
  | none => rfl
  | some v => exact (sd_observeIn s h n d _ v).2.2 e he

/-- An observation is held against each domain it is made against. -/
theorem observe_holds {s : State} {h : Half} {n : SlotNo} {raw : List Int} {d : Dom} {r : Int}
    (hon : s.observing h n = true) (hd : d ∈ s.slotDoms n) (hr : raw[d.val]? = some r) :
    s.SlotWork h n (observe h n raw s) ∧ ((observe h n raw s).sd h n d).latest = some (s.offsetOf n r) ∧
      ((observe h n raw s).sd h n d).nSince = (s.sd h n d).nSince + 1 := by
  obtain ⟨a, hwa, hsa, hwt, hst⟩ := foldl_sees_once (g := fun a e => observeRaw h n raw[e.val]? e a)
    (R := State.SlotWork h n) (look := fun a => a.sd h n d) .refl .trans (fun a e => slotWork_observeRaw a h n _ e)
    (fun a e he => sd_observeRaw_ne a h n _ he.symm) (nodup_slotDoms s n) hd s
  obtain ⟨hlatest, hsince, -⟩ := sd_observeIn a h n d (a.dom h d).mark r
  rw [observe, if_pos hon, sd_adoptDone]
  have hat : observeRaw h n raw[d.val]? d a = observeIn h n d (a.dom h d).mark r a := by rw [hr]; rfl
  rw [hat] at hst
  refine ⟨hwt.trans (slotWork_adoptDone _ h n), ?_, ?_⟩
  · rw [hst, hlatest, hwa.offsetOf]
  · rw [hst, hsince, hsa]

/-- A reading of ATOM_CLK is held for the frequency, and leaves the observations. -/
theorem observeClk_holds (s : State) (h : Half) (n : SlotNo) (d : Dom) (raw : Int) :
    ((observeClk h n d raw s).sd h n d).obs = (s.sd h n d).obs ∧
      ((observeClk h n d raw s).sd h n d).clk.head?.map (·.x) = some (s.delayed n raw) := by
  rw [observeClk, sd_modSd_self]
  exact ⟨rfl, rfl⟩

theorem slotWork_clkRaw (s : State) (h : Half) (n : SlotNo) (r : Option Int) (d : Dom) :
    s.SlotWork h n (clkRaw h n r d s) := by
  cases r with
  | none => exact .refl s
  | some v => exact slotWork_modSd _ _

theorem sd_clkRaw_ne (s : State) (h : Half) (n : SlotNo) (r : Option Int) {d e : Dom} (he : e ≠ d) :
    (clkRaw h n r d s).sd h n e = s.sd h n e := by
  cases r with
  | none => rfl
  | some v => exact sd_modSd_ne _ _ _ _ he

theorem clk_holds {s : State} {h : Half} {n : SlotNo} {raw : List Int} {d : Dom} {r : Int}
    (hd : d ∈ s.slotDoms n) (hr : raw[d.val]? = some r) (t : State)
    (ht : t = (s.slotDoms n).foldl (fun a e => clkRaw h n raw[e.val]? e a) s) :
    (t.sd h n d).obs = (s.sd h n d).obs ∧ (t.sd h n d).clk.head?.map (·.x) = some (s.delayed n r) := by
  obtain ⟨a, hwa, hsa, -, hst⟩ := foldl_sees_once (g := fun a e => clkRaw h n raw[e.val]? e a)
    (R := State.SlotWork h n) (look := fun a => a.sd h n d) .refl .trans (fun a e => slotWork_clkRaw a h n _ e)
    (fun a e he => sd_clkRaw_ne a h n _ he.symm) (nodup_slotDoms s n) hd s
  obtain ⟨hobs, hclk⟩ := observeClk_holds a h n d r
  have hat : clkRaw h n raw[d.val]? d a = observeClk h n d r a := by rw [hr]; rfl
  rw [hat] at hst
  rw [ht, hst, hobs, hclk, hsa, hwa.delayed]
  exact ⟨rfl, rfl⟩

theorem slotWork_pulseRaw (s : State) (h : Half) (n : SlotNo) (r : Option Int) (d : Dom) :
    s.SlotWork h n (pulseRaw h n r d s) := by
  cases r with
  | none => exact .refl s
  | some v => exact slotWork_modSlot

theorem pulse_pulseRaw_ne (s : State) (h : Half) (n : SlotNo) (r : Option Int) {d e : Dom} (he : e ≠ d) :
    ((pulseRaw h n r d s).slot h n).pulse.get e = (s.slot h n).pulse.get e := by
  cases r with
  | none => rfl
  | some v => simp [pulseRaw, get_setAt_ne _ _ he]

theorem dom_pulseRaw (s : State) (h : Half) (n : SlotNo) (r : Option Int) (d : Dom) :
    ((pulseRaw h n r d s).slot h n).dom = (s.slot h n).dom := by
  cases r with
  | none => rfl
  | some v => simp [pulseRaw]

/-- A pulse is held against each domain that it is read against, and no observation is made. -/
theorem pulses_held {s : State} {h : Half} {n : SlotNo} {raw : List Int} {d : Dom} {r : Int}
    (hd : d ∈ s.slotDoms n) (hr : raw[d.val]? = some r) (t : State)
    (ht : t = (s.slotDoms n).foldl (fun a e => pulseRaw h n raw[e.val]? e a) s) :
    (t.slot h n).pulse.get d = some ((s.dom h d).pulseAt r) ∧ (t.slot h n).dom = (s.slot h n).dom := by
  obtain ⟨a, hwa, -, -, hst⟩ := foldl_sees_once (g := fun a e => pulseRaw h n raw[e.val]? e a)
    (R := State.SlotWork h n) (look := fun a => (a.slot h n).pulse.get d) .refl .trans
    (fun a e => slotWork_pulseRaw a h n _ e) (fun a e he => pulse_pulseRaw_ne a h n _ he.symm) (nodup_slotDoms s n) hd s
  subst ht
  refine ⟨hst.trans ?_, List.foldlRecOn _ _ (motive := fun b => (b.slot h n).dom = (s.slot h n).dom) rfl
    fun b hb e _ => (dom_pulseRaw b h n _ e).trans hb⟩
  simp only [hr, pulseRaw, slot_modSlot_self, get_setAt_self, hwa.doms]

/-! ## A comparison period starts (05 R163) -/

theorem comparisonPeriodStart_starts {s : State} {h : Half} {d : Dom} {n : SlotNo} (hg : s.gridOn h = true)
    (hd : d ∈ s.slotDoms n) :
    s.SlotWork h n (comparisonPeriodStart h d s) ∧
      (comparisonPeriodStart h d s).sd h n d = periodStart (s.dom h d) (s.sd h n d) := by
  obtain ⟨a, hwa, hsa, hwt, hst⟩ := foldl_sees_once
    (g := fun a m => if (a.slotDoms m).contains d then a.modSd h m d (periodStart (a.dom h d)) else a)
    (R := State.SlotWork h n) (look := fun a => a.sd h n d) (d := n) .refl .trans
    (fun a m => by split; exacts [slotWork_modSd _ _, .refl a])
    (fun a m hm => by split; exacts [sd_modSd_slot_ne _ _ _ _ _ hm.symm, rfl])
    (List.nodup_finRange 32) (List.mem_finRange n) s
  have hin : (a.slotDoms n).contains d = true := by rw [hwa.slotDoms]; simpa using hd
  simp only [hin, if_true, sd_modSd_self, hwa.doms, hsa] at hst
  rw [comparisonPeriodStart, if_pos hg]
  exact ⟨hwt, hst⟩

/-- Settles O29: a reading is taken once against each domain of its slot, and what the other domains' readings do leaves the
configuration, the domains and this domain's observations. -/
theorem observationsAreHeld : Obligations.ObservationsAreHeld := by
  intro s h n raw d
  have hobserving : s.gridOn h = true → (s.slot h n).st ≠ 0 → (s.slot h n).skip = false → (s.view h).observing h n = true := by
    intro hg hst hskip
    simp [State.observing, hg, hst, hskip]
  refine ⟨fun r hptp hlab hg hst hskip hd hr => ⟨_, rfl, ?_⟩, fun r hptp hlab hg hskip hnext hd hr => ⟨_, rfl, ?_⟩,
    fun r hn hclk hg hst hskip hd hr => ⟨_, rfl, ?_⟩, fun hptp c => ⟨_, rfl, ?_⟩, fun hg hd => ⟨_, rfl, ?_⟩⟩
  · have hrun : slotObservation h n false raw (s.view h) = observe h n raw (s.view h) := by
      simp [slotObservation, hptp, hlab]
    have hh := (halves_inView s h (slotObservation h n false raw)).trans (congrArg State.halves hrun)
    obtain ⟨hw, hlatest, hsince⟩ := observe_holds (hobserving hg hst hskip) hd hr
    beta_reduce
    rw [sd_of_halves hh, slot_of_halves hh, half_of_halves hh, hlatest, hsince, hw.st, hw.peer]
    simp [State.offsetOf, State.delayed]
  · have hrun : slotObservation h n false raw (s.view h) =
        ((s.view h).slotDoms n).foldl (fun a e => pulseRaw h n raw[e.val]? e a) (s.view h) := by
      simp [slotObservation, pulseSeen, hptp, hlab, hg, hskip, hnext]
    have hh := (halves_inView s h (slotObservation h n false raw)).trans (congrArg State.halves hrun)
    obtain ⟨hpulse, hdom⟩ := pulses_held hd hr _ rfl
    beta_reduce
    rw [slot_of_halves hh, hpulse, hdom]
    simp
  · have hrun : slotObservation h n true raw (s.view h) =
        ((s.view h).slotDoms n).foldl (fun a e => clkRaw h n raw[e.val]? e a) (s.view h) := by
      subst hn
      simp [slotObservation, isPtp, hclk, hobserving hg hst hskip]
    have hh := (halves_inView s h (slotObservation h n true raw)).trans (congrArg State.halves hrun)
    obtain ⟨hobs, hclk⟩ := clk_holds hd hr _ rfl
    beta_reduce
    rw [sd_of_halves hh, hobs, hclk]
    simp [State.delayed]
  · beta_reduce
    rw [halves_inView]
    simp [slotObservation, hptp]
  · obtain ⟨hw, hsd⟩ := comparisonPeriodStart_starts hg hd
    rw [hsd, hw.peer]
    exact ⟨rfl, rfl, rfl, rfl, rfl⟩

end Sys2Proof.Machine
end

section
/-!
PROOFS. Scope: frequency monitors evaluate their windows (O31).
-/

namespace Sys2Proof.Machine

/-! ## One frequency window in one domain (05 R164, R165, R168) -/

/-- The frequency that a monitor's window gives. -/
def State.windowFreq (s : State) (h : Half) (n : SlotNo) (m : FreqMon) (d : Dom) : Rat := s.freqOver h n d (windowOf m).1

/-- The limit of a monitor's window. -/
def State.windowLimit (s : State) (n : SlotNo) (m : FreqMon) : Rat := s.flimAt n (windowOf m).2.1 (windowOf m).2.2.1

/-- A window's frequency leaves its limit; a limit of 0 disables it (R168). -/
def State.leavesLimit (s : State) (h : Half) (n : SlotNo) (m : FreqMon) (d : Dom) : Bool :=
  decide (s.windowLimit n m ≠ 0) && decide (s.windowLimit n m < absQ (s.windowFreq h n m d))

theorem leavesLimit_iff {s : State} {h : Half} {n : SlotNo} {m : FreqMon} {d : Dom} :
    s.leavesLimit h n m d = true ↔ s.windowLimit n m ≠ 0 ∧ s.windowLimit n m < absQ (s.windowFreq h n m d) := by
  simp [State.leavesLimit]

/-- The state with a window's result in it. -/
def State.withWindow (s : State) (h : Half) (n : SlotNo) (m : FreqMon) (d : Dom) : State :=
  s.modSd h n d (SlotDom.windowResult m (s.windowFreq h n m d) (s.leavesLimit h n m d))

theorem evalWindow_ready {s : State} {h : Half} {n : SlotNo} {m : FreqMon} {d : Dom}
    (hr : s.windowReady h n d (windowOf m).1 = true) :
    evalWindow h n m d s = if s.leavesLimit h n m d then (s.withWindow h n m d).failSlot h n (windowOf m).2.2.2
      else s.withWindow h n m d := if_pos hr

theorem sd_failSlot (s : State) (h : Half) (n : SlotNo) (cause : Nat) (d : Dom) :
    (s.failSlot h n cause).sd h n d = s.sd h n d := sd_modSlot d

/-- A slot that may still fail and has not yet takes the cause. -/
theorem fail_failSlot {s : State} {h : Half} {n : SlotNo} {cause : Nat} (hlive : (s.slot h n).live = true)
    (hnone : (s.slot h n).pend.fail = none) : ((s.failSlot h n cause).slot h n).pend.fail = some cause := by
  simp [State.failSlot, hlive, hnone]

theorem sd_evalWindow {s : State} {h : Half} {n : SlotNo} {m : FreqMon} {d : Dom}
    (hr : s.windowReady h n d (windowOf m).1 = true) :
    (evalWindow h n m d s).sd h n d = (s.sd h n d).windowResult m (s.windowFreq h n m d) (s.leavesLimit h n m d) := by
  rw [evalWindow_ready hr]
  split
  · rw [sd_failSlot, State.withWindow, sd_modSd_self]
  · rw [State.withWindow, sd_modSd_self]

theorem fail_evalWindow {s : State} {h : Half} {n : SlotNo} {m : FreqMon} {d : Dom}
    (hr : s.windowReady h n d (windowOf m).1 = true) (hbad : s.leavesLimit h n m d = true)
    (hlive : (s.slot h n).live = true) (hnone : (s.slot h n).pend.fail = none) :
    ((evalWindow h n m d s).slot h n).pend.fail = some (windowOf m).2.2.2 := by
  have hslot : ((s.withWindow h n m d).slot h n).st = (s.slot h n).st ∧
      ((s.withWindow h n m d).slot h n).pend = (s.slot h n).pend := by
    simp [State.withWindow, State.modSd]
  rw [evalWindow_ready hr, if_pos hbad, fail_failSlot]
  · simpa [SlotSt.live, hslot.1] using hlive
  · rw [hslot.2, hnone]

/-- A monitor's evaluation on a half, where the slot serves one domain. -/
theorem freqMonitorEval_window {s : State} {h : Half} {n : SlotNo} {m : FreqMon} {d : Dom} (hm : m ≠ .drift)
    (hg : s.gridOn h = true) (hst : (s.slot h n).st ≠ 0) (htai : s.taiSet n = true) (hd : s.slotDoms n = [d]) :
    freqMonitorEval h n m s = evalWindow h n m d s := by
  have hrun : (s.gridOn h && (s.slot h n).st != 0 && s.taiSet n) = true := by simp [hg, hst, htai]
  rw [freqMonitorEval, if_pos hrun, hd]
  cases m with
  | drift => exact absurd rfl hm
  | w1 | w64 | w1024 => rfl

/-- What a monitor's command gives on a half whose slot serves one domain, its window ready. -/
theorem window_evaluated {s : State} {h : Half} {n : SlotNo} {d : Dom} (m : FreqMon) (hm : m ≠ .drift)
    (hg : s.gridOn h = true) (hst : (s.slot h n).st ≠ 0) (htai : (s.view h).taiSet n = true)
    (hd : (s.view h).slotDoms n = [d]) (hr : (s.view h).windowReady h n d (windowOf m).1 = true) :
    Gives (.freqMonitorEval h n m) s (fun t => ∃ bad,
      t.sd h n d = (s.sd h n d).windowResult m ((s.view h).windowFreq h n m d) bad ∧
      ((s.view h).windowLimit n m ≠ 0 → (s.view h).windowLimit n m < absQ ((s.view h).windowFreq h n m d) →
        (s.slot h n).live = true → (s.slot h n).pend.fail = none →
        (t.slot h n).pend.fail = some (windowOf m).2.2.2 ∧ bad = true)) := by
  refine ⟨_, rfl, (s.view h).leavesLimit h n m d, ?_⟩
  have hh := (halves_halvesIn s h (freqMonitorEval h n m)).trans (congrArg State.halves
    (freqMonitorEval_window hm (s := s.view h) (by simpa using hg) (by simpa using hst) htai hd))
  rw [sd_of_halves hh, slot_of_halves hh, sd_evalWindow hr, sd_view]
  refine ⟨rfl, fun h0 hlim hlive hnone => ?_⟩
  have hbad : (s.view h).leavesLimit h n m d = true := leavesLimit_iff.mpr ⟨h0, hlim⟩
  exact ⟨fail_evalWindow hr hbad (by simpa using hlive) (by simpa using hnone), hbad⟩

/-- Settles O31: each of the three windows writes its own result, and its cause where its limit is left. -/
theorem monitorsEvaluateWindows : Obligations.MonitorsEvaluateWindows := by
  intro s h n d hg hst htai hd
  refine ⟨fun hr => ?_, fun hr => ?_, fun hr => ?_⟩
  · obtain ⟨t, ht, bad, hsd, hfail⟩ := window_evaluated .w1 (by decide) hg hst htai hd hr
    exact ⟨t, ht, congrArg SlotDom.y1 hsd, fun h0 hlim hlive hnone =>
      (hfail h0 hlim hlive hnone).imp_right fun hbad => (congrArg SlotDom.fail1 hsd).trans hbad⟩
  · obtain ⟨t, ht, bad, hsd, hfail⟩ := window_evaluated .w64 (by decide) hg hst htai hd hr
    exact ⟨t, ht, congrArg SlotDom.y64 hsd, fun h0 hlim hlive hnone =>
      (hfail h0 hlim hlive hnone).imp_right fun hbad => (congrArg SlotDom.fail64 hsd).trans hbad⟩
  · obtain ⟨t, ht, bad, hsd, hfail⟩ := window_evaluated .w1024 (by decide) hg hst htai hd hr
    exact ⟨t, ht, congrArg SlotDom.y1024 hsd, fun h0 hlim hlive hnone =>
      (hfail h0 hlim hlive hnone).imp_right fun hbad => (congrArg SlotDom.fail1024 hsd).trans hbad⟩

end Sys2Proof.Machine
end

section
/-!
PROOFS. Scope: operations end by timeout and by reset (O51).
-/

namespace Sys2Proof.Machine

/-! ## A detector's message goes out (17 R534, R535) -/

/-- The message of a detector on the common die. -/
def State.faultMsg (s : State) (pg kind sev : Nat) (det : Byte) (loc : BitVec 24) : Msg :=
  { src := BitVec.ofNat 10 (0 * 256 + pg), kind := BitVec.ofNat 6 kind, sev := BitVec.ofNat 2 sev, det := det, loc := loc,
    injected := (s.page pg).injArm && (s.page pg).injDet == det, ident := s.ident }

/-- A message put into a buffer keeps those that are in one. -/
theorem mem_bufs_enqueueMsg {s : State} {m x : Msg} {src : Nat} (h : x ∈ look bufReset s.flt.bufs src) :
    x ∈ look bufReset (s.enqueueMsg m).flt.bufs src := by
  unfold State.enqueueMsg
  dsimp only
  split_ifs
  · rw [look_put]
    split_ifs with hsrc
    · exact List.mem_append_left _ (hsrc ▸ h)
    · exact h
  · exact h

/-- A message goes into its block's buffer where that has a free place. -/
theorem enqueueMsg_mem {s : State} {m : Msg} (h : (look bufReset s.flt.bufs m.src.toNat).length < 4) :
    m ∈ look bufReset (s.enqueueMsg m).flt.bufs m.src.toNat := by
  rw [State.enqueueMsg, if_pos h]
  simp

theorem bufs_startTest (s : State) (src : Nat) (det : Byte) (ident : Nat) :
    (s.startTest src det ident).flt.bufs = s.flt.bufs := by
  simp only [State.startTest]
  split_ifs <;> simp [State.setUnit]

theorem flt_enqueueMsg {s t : State} (h : t.flt = s.flt) (m : Msg) : (t.enqueueMsg m).flt = (s.enqueueMsg m).flt := by
  simp only [State.enqueueMsg, h]
  split_ifs <;> rfl

theorem bufs_fault (s : State) (pg kind sev : Nat) (det : Byte) (loc : BitVec 24) :
    (s.fault 0 pg kind sev det loc).flt.bufs = (s.enqueueMsg (s.faultMsg pg kind sev det loc)).flt.bufs := by
  rw [State.fault, if_pos (show s.canSend 0 = true from rfl)]
  extract_lets p inj m s1 s2
  have hs2 : s2.flt = (s.enqueueMsg m).flt := by
    rw [show s2.flt = _ from (by simp [s2] : s2.flt = ({ s1 with ident := s.ident + 1 }.enqueueMsg m).flt)]
    exact flt_enqueueMsg (by simp only [s1]; split <;> simp) m
  split
  · rw [bufs_startTest, hs2]; rfl
  · rw [hs2]; rfl

theorem mem_bufs_recovery {s : State} {pg level ident : Nat} {x : Msg} {src : Nat} (h : x ∈ look bufReset s.flt.bufs src) :
    x ∈ look bufReset (s.recovery 0 pg level ident).flt.bufs src := by
  rw [State.recovery, if_pos (show s.canSend 0 = true from rfl)]
  simpa using mem_bufs_enqueueMsg (s := { s with ident := s.ident + 1 }) h

/-- A detector on the common die reports. -/
theorem reported_fault (s : State) {pg : Nat} (hpg : pg < 1024) (kind sev : Nat) (det : Byte) (loc : BitVec 24) :
    Reported pg kind sev det s (s.fault 0 pg kind sev det loc) := by
  intro hfree
  have hsrc : (s.faultMsg pg kind sev det loc).src.toNat = pg := by simp [State.faultMsg]; omega
  refine ⟨s.faultMsg pg kind sev det loc, ?_, Nat.le_refl _, rfl, rfl, rfl⟩
  rw [bufs_fault]
  have h := enqueueMsg_mem (s := s) (m := s.faultMsg pg kind sev det loc) (by rw [hsrc]; exact hfree)
  rwa [hsrc] at h

/-- What goes before a report, with no message, and after it, with none taken, leaves it a report. -/
theorem Reported.mono {src kind sev : Nat} {det : Byte} {s s' t t' : State} (h : Reported src kind sev det s t)
    (hbufs : s.flt.bufs = s'.flt.bufs) (hident : s'.ident ≤ s.ident)
    (hkeep : ∀ m ∈ look bufReset t.flt.bufs src, m ∈ look bufReset t'.flt.bufs src) : Reported src kind sev det s' t' := by
  intro hfree
  obtain ⟨m, hm, hid, hrest⟩ := h (hbufs ▸ hfree)
  exact ⟨m, hkeep m hm, hident.trans hid, hrest⟩

theorem pgHp_lt (p : Part) : pgHp p < 1024 := by
  have := p.isLt
  simp only [pgHp]; omega

/-! ## An operation that is done stays as it is until its completion is written -/

/-- Every operation that is done in `s` is so in `t`. -/
def State.DoneStay (s t : State) : Prop := ∀ g o, s.op? g = some o → o.isDone = true → t.op? g = some o

theorem State.DoneStay.refl (s : State) : s.DoneStay s := fun _ _ h _ => h

theorem State.DoneStay.trans {s t u : State} (a : s.DoneStay t) (b : t.DoneStay u) : s.DoneStay u :=
  fun g o h hd => b g o (a g o h hd) hd

theorem op_of_ops {s t : State} (h : t.ops = s.ops) (g : Tag) : t.op? g = s.op? g := by
  rw [State.op?, h, State.op?]

theorem doneStay_of_ops {s t : State} (h : t.ops = s.ops) : s.DoneStay t := fun g _ ho _ => (op_of_ops h g).trans ho

theorem doneStay_foldl {α : Type} {g : State → α → State} (hg : ∀ (a : State) e, a.DoneStay (g a e)) (l : List α) (s : State) :
    s.DoneStay (l.foldl g s) := List.foldlRecOn l g (.refl s) fun b hb e _ => hb.trans (hg b e)

theorem doneStay_finish (s : State) (t : Tag) (st : Byte) (res : Vector Word 6) : s.DoneStay (s.finish t st res) := by
  intro g o ho hd
  by_cases hg : g = t
  · subst hg
    simp [State.finish, ho, hd]
  · rw [op_finish_ne _ _ _ hg, ho]

theorem doneStay_discardFrames (s : State) (p : PortNo) (which : HostFrame → Bool) : s.DoneStay (s.discardFrames p which) := by
  refine State.DoneStay.trans (t := s.modPort p _) (doneStay_of_ops (by simp)) (doneStay_foldl (fun a e => ?_) _ _)
  have hops : (if e.dest = 2 then a.pushTx p (TxEnt.unsent e.dom e.id) else a).ops = a.ops := by split <;> simp
  refine (doneStay_of_ops hops).trans ?_
  cases htag : e.tag with
  | none => simp only [finishSend, htag]; exact .refl _
  | some t => simp only [finishSend, htag]; exact doneStay_finish _ t _ _

theorem doneStay_stopPort (p : PortNo) (s : State) : s.DoneStay (stopPort p s) := by
  refine State.DoneStay.trans (t := ((s.dropLink p .A).dropLink p .B).discardFrames p (fun _ => true))
    ((doneStay_of_ops (by simp)).trans (doneStay_discardFrames _ p _)) (doneStay_of_ops ?_)
  simp [stopPort]

theorem doneStay_settleConflicts (s : State) : s.DoneStay (settleConflicts s) := by
  refine doneStay_foldl (fun a p => ?_) _ _
  dsimp only
  split
  · exact .refl a
  · split
    · exact State.DoneStay.trans (doneStay_of_ops (by simp)) (doneStay_stopPort p _)
    · exact doneStay_of_ops (by simp)

theorem doneStay_settleAll (s : State) : s.DoneStay (settleAll s) := by
  refine (doneStay_settleConflicts s).trans (doneStay_of_ops ?_)
  simp [settleAll, settlePorts]

/-! ## The timeout of a queue operation (15 R493, 17 R545) -/

theorem isDone_of_timeoutRuns {s : State} {o : Op} (h : timeoutRuns s o = true) : o.isDone = false := by
  simp only [timeoutRuns, State.inFlight, Bool.and_eq_true, Bool.not_eq_true'] at h
  tauto

theorem ops_cutTag (s : State) (g : Tag) : (cutTag g s).ops = s.ops := by simp

/-- A partition page's engine is not reset: its operation alone ends. -/
theorem resetEngine_hp {pg n : Nat} (hpg : pageKind pg = some (.hp n)) (t : Option Tag) (s : State) :
    resetEngine pg t s = timeOut t s := by
  rw [resetEngine, hpg]
  split <;> rfl

theorem phase_timeOut {s : State} {t : Tag} {o : Op} (ho : s.op? t = some o) (hd : o.isDone = false) :
    ((timeOut (some t) s).op? t).map Op.phase = some (.done stTimeout) := by
  have hops : (timeOut (some t) s).op? t = ((cutTag t s).finish t stTimeout).op? t := op_of_ops (by simp [timeOut]) t
  rw [hops, op_finish_self _ t o stTimeout _ ((op_of_ops (ops_cutTag s t) t).trans ho) hd]
  rfl

theorem flt_timeOut (t : Option Tag) (s : State) : (timeOut t s).flt = s.flt := by
  cases t <;> simp [timeOut]

theorem pageKind_eq_none {pg : Nat} (h : 0x100 ≤ pg) : pageKind pg = none := by
  unfold pageKind
  iterate 19 rw [if_neg (by omega)]

theorem lt_of_pageKind {pg : Nat} {k : PageKind} (h : pageKind pg = some k) : pg < 1024 := by
  by_contra hpg
  rw [pageKind_eq_none (by omega)] at h
  cases h

/-- The state once an operation's timeout is reported, the operation ended and the recovery told. -/
def State.timedOut (s : State) (t : Tag) (pg : Nat) : State :=
  (timeOut (some t) (s.fault 0 pg kTimeout (kindSev kTimeout) 0xFF 0)).recovery 0 pg 2 s.ident

theorem queueOpTimeout_eq {s : State} {t : Tag} {o : Op} {n : Nat} (ho : s.op? t = some o) (hrun : timeoutRuns s o = true)
    (hpg : pageKind o.enginePage = some (.hp n)) : queueOpTimeout t s = settleAll (s.timedOut t o.enginePage) := by
  rw [queueOpTimeout, ho]
  simp only [hrun, if_true, resetEngine_hp hpg, State.timedOut]

theorem phase_timedOut {s : State} {t : Tag} {o : Op} (pg : Nat) (ho : s.op? t = some o) (hd : o.isDone = false) :
    ((s.timedOut t pg).op? t).map Op.phase = some (.done stTimeout) := by
  have hops : (s.timedOut t pg).ops = (timeOut (some t) (s.fault 0 pg kTimeout (kindSev kTimeout) 0xFF 0)).ops := by
    simp [State.timedOut]
  rw [op_of_ops hops]
  exact phase_timeOut ((op_of_ops (by simp) t).trans ho) hd

theorem reported_timedOut (s : State) (t : Tag) {pg : Nat} (hpg : pg < 1024) :
    Reported pg kTimeout (kindSev kTimeout) 0xFF s (s.timedOut t pg) := by
  refine (reported_fault s hpg _ _ _ 0).mono rfl (Nat.le_refl _) fun m hm => ?_
  rw [State.timedOut]
  exact mem_bufs_recovery (by rwa [flt_timeOut])

/-- The operation is completed with TIMEOUT, which the settling of the ports leaves, and the timeout is reported. -/
theorem queueOpTimeout_ends {s : State} {t : Tag} {o : Op} {n : Nat} (ho : s.op? t = some o) (hrun : timeoutRuns s o = true)
    (hpg : pageKind o.enginePage = some (.hp n)) :
    ((queueOpTimeout t s).op? t).map Op.phase = some (.done stTimeout) ∧
      Reported o.enginePage kTimeout (kindSev kTimeout) 0xFF s (queueOpTimeout t s) := by
  have hphase := phase_timedOut o.enginePage ho (isDone_of_timeoutRuns hrun)
  obtain ⟨x, hx, hxp⟩ := Option.map_eq_some_iff.mp hphase
  rw [queueOpTimeout_eq ho hrun hpg, doneStay_settleAll _ t x hx (by simp [Op.isDone, hxp])]
  refine ⟨congrArg some hxp, (reported_timedOut s t (lt_of_pageKind hpg)).mono rfl (Nat.le_refl _) fun m hm => ?_⟩
  rwa [show (settleAll (s.timedOut t o.enginePage)).flt = (s.timedOut t o.enginePage).flt from by simp]

/-! ## A partition's reset (15 R491, 02 R49) -/

theorem look_of_mem {α : Type} [DecidableEq α] {d : Nat → α} {m : KMap α} (hwf : KMap.wf d m = true) {k : Nat} {v : α}
    (h : (k, v) ∈ m) : look d m k = v := by
  induction m with
  | nil => simp at h
  | cons e r ih =>
    obtain ⟨j, w⟩ := e
    obtain ⟨-, habove, hr⟩ := (wf_cons d j w r).mp hwf
    rcases List.mem_cons.mp h with heq | hmem
    · obtain ⟨rfl, rfl⟩ := Prod.mk.inj heq
      exact if_pos rfl
    · exact (if_neg (Nat.ne_of_lt (habove _ hmem))).trans (ih hr hmem)

theorem mem_of_look {α : Type} {d : Nat → α} {m : KMap α} {k : Nat} (h : look d m k ≠ d k) : (k, look d m k) ∈ m := by
  induction m with
  | nil => exact absurd rfl h
  | cons e r ih =>
    obtain ⟨j, w⟩ := e
    by_cases hj : j = k
    · subst hj; simp [look]
    · simp only [look, if_neg hj] at h ⊢
      exact List.mem_cons_of_mem _ (ih h)

theorem mem_opList {s : State} {t : Tag} {o : Op} : (t, o) ∈ s.opList ↔ (t.val, some o) ∈ s.ops := by
  simp only [State.opList, List.mem_filterMap]
  constructor
  · rintro ⟨⟨k, v⟩, he, hv⟩
    cases v with
    | none => simp at hv
    | some x =>
      simp only [Option.dite_none_right_eq_some, Option.some.injEq, Prod.mk.injEq] at hv
      obtain ⟨hk, rfl, rfl⟩ := hv
      exact he
  · exact fun h => ⟨_, h, by simp [t.isLt]⟩

/-- The operations that hold tags are those of the list, in a table of canonical form. -/
theorem op_eq_some_iff {s : State} (hwf : KMap.wf opReset s.ops = true) {t : Tag} {o : Op} :
    s.op? t = some o ↔ (t, o) ∈ s.opList := by
  rw [mem_opList]
  refine ⟨fun h => ?_, fun h => look_of_mem hwf h⟩
  have hmem := mem_of_look (d := opReset) (m := s.ops) (k := t.val) (by simp [State.op?] at h; simp [h, opReset])
  rwa [show look opReset s.ops t.val = some o from h] at hmem

/-- Every tag of a list is returned, and no other. -/
theorem op_returnTags (l : List (Tag × Op)) (s : State) (g : Tag) :
    (l.foldl (fun a e => (a.disarmTag e.1).setOp e.1 none) s).op? g = if g ∈ l.map (·.1) then none else s.op? g := by
  induction l generalizing s with
  | nil => rfl
  | cons e r ih =>
    rw [List.foldl_cons, ih]
    by_cases hr : g ∈ r.map (·.1)
    · simp [hr]
    · by_cases hg : g = e.1
      · subst hg; simp
      · rw [op_setOp_ne _ _ hg, op_of_ops (by simp : (s.disarmTag e.1).ops = s.ops)]
        simp [hr, hg]

/-- A partition's operations. -/
def State.opsOf (s : State) (p : Part) : List (Tag × Op) := s.opList.filter (fun e => e.2.part == p)

/-- What a reset leaves of its partition: queues empty, the bus-error log, the held reads and the link as they are. -/
def PartSt.resetQueues (x : PartSt) : PartSt := { x with queues := Vector.replicate 8 {}, paused := false, mbxDone := false }

/-- Before its last message, a partition reset returns the partition's tags and empties its queues, and sends nothing. -/
theorem partitionReset_fault (p : Part) (s : State) : ∃ u : State,
    partitionReset p s = u.fault 0 (pgHp p) kXingFlush sevWarning 2 (BitVec.ofNat 24 (s.opsOf p).length) ∧
    u.ops = ((s.opsOf p).foldl (fun a e => (a.disarmTag e.1).setOp e.1 none) (cutKeys (fun o => o.part == p) s)).ops ∧
    u.parts = (s.setPart p (s.part p).resetQueues).parts ∧
    u.flt = s.flt ∧ u.ident = s.ident := by
  refine ⟨_, rfl, ?_, ?_, ?_, ?_⟩
  · simp [State.opsOf]
  · simp [State.setPart, PartSt.resetQueues]
  · simp
  · simp

theorem part_of_parts {s t : State} (h : t.parts = s.parts) (p : Part) : t.part p = s.part p := by
  rw [State.part, h, State.part]

theorem part_partitionReset_self (p : Part) (s : State) : (partitionReset p s).part p = (s.part p).resetQueues := by
  obtain ⟨u, heq, -, hparts, -, -⟩ := partitionReset_fault p s
  rw [heq, part_of_parts (by simpa using hparts), part_setPart_self]

theorem part_partitionReset_ne {p r : Part} (hr : r ≠ p) (s : State) : (partitionReset p s).part r = s.part r := by
  obtain ⟨u, heq, -, hparts, -, -⟩ := partitionReset_fault p s
  rw [heq, part_of_parts (by simpa using hparts), part_setPart_ne _ _ hr]

/-- A partition reset returns the tags of the partition's operations and no other. -/
theorem op_partitionReset {p : Part} {s : State} (hwf : KMap.wf opReset s.ops = true) {t : Tag} {o : Op} (ho : s.op? t = some o) :
    (partitionReset p s).op? t = if o.part = p then none else some o := by
  obtain ⟨u, heq, hops, -, -, -⟩ := partitionReset_fault p s
  have hcut : (cutKeys (fun o => o.part == p) s).op? t = s.op? t := op_of_ops (by simp) t
  have hfault : (partitionReset p s).ops = u.ops := by rw [heq]; simp
  rw [op_of_ops (hfault.trans hops), op_returnTags, hcut, ho]
  have hmine : t ∈ (s.opsOf p).map (·.1) ↔ o.part = p := by
    simp only [State.opsOf, List.mem_map, List.mem_filter, Prod.exists, exists_and_right, exists_eq_right, beq_iff_eq]
    constructor
    · rintro ⟨x, hx, hp⟩
      rw [(op_eq_some_iff hwf).mpr hx, Option.some.injEq] at ho
      exact ho ▸ hp
    · exact fun hp => ⟨o, (op_eq_some_iff hwf).mp ho, hp⟩
  simp only [hmine]

theorem reported_partitionReset (p : Part) (s : State) :
    Reported (pgHp p) kXingFlush sevWarning 2 s (partitionReset p s) := by
  obtain ⟨u, heq, -, -, hflt, hident⟩ := partitionReset_fault p s
  rw [heq]
  exact (reported_fault u (pgHp_lt p) _ _ _ _).mono (by rw [hflt]) (Nat.le_of_eq hident.symm) fun m hm => hm

theorem partitionResetBy_soft {s : State} (hup : s.pwr.pcieUp = true) (p : Part) :
    partitionResetBy p .soft s = partitionReset p s := if_pos hup

theorem partitionResetBy_linkDown {s : State} (hup : s.pwr.pcieUp = true) (p : Part) :
    partitionResetBy p .linkDown s = (resetBar p (partitionReset p s)).modPart p (fun x => { x with linkUp := false }) :=
  if_pos hup

theorem partitionResetBy_linkUp {s : State} (hup : s.pwr.pcieUp = true) (p : Part) :
    partitionResetBy p .linkUp s = s.modPart p (fun x => { x with linkUp := true }) := if_pos hup

theorem partitionResetBy_hard {s : State} (hup : s.pwr.pcieUp = true) (p : Part) {k : PartReset}
    (hk : k = .flr ∨ k = .hotReset ∨ k = .perst) : partitionResetBy p k s = resetBar p (partitionReset p s) := by
  rcases hk with rfl | rfl | rfl
  all_goals exact if_pos hup

theorem part_resetBar (p r : Part) (s : State) : (resetBar p s).part r = s.part r := part_of_parts (by simp) r

/-- Each kind of reset is the partition's, with BAR2 reset too but for the page's own soft reset, and the link down for a link-down
(log entry 223). -/
theorem partitionResetBy_reset {s : State} {p : Part} {k : PartReset} (hup : s.pwr.pcieUp = true) (hk : k ≠ .linkUp) :
    (partitionResetBy p k s).ops = (partitionReset p s).ops ∧ (partitionResetBy p k s).flt = (partitionReset p s).flt ∧
    (partitionResetBy p k s).part p = (if k = .linkDown then { (partitionReset p s).part p with linkUp := false }
      else (partitionReset p s).part p) ∧
    (∀ r, r ≠ p → (partitionResetBy p k s).part r = (partitionReset p s).part r) ∧
    (k ≠ .soft → (partitionResetBy p k s).bar p = {}) := by
  have hempty : (resetBar p (partitionReset p s)).bar p = {} := by simp [resetBar]
  generalize hv : partitionReset p s = v at hempty ⊢
  cases k with
  | linkUp => exact absurd rfl hk
  | soft =>
    rw [partitionResetBy_soft hup, hv]
    exact ⟨rfl, rfl, (if_neg (by decide)).symm, fun _ _ => rfl, fun h => absurd rfl h⟩
  | linkDown =>
    rw [partitionResetBy_linkDown hup, hv]
    refine ⟨by simp, by simp, ?_, fun r hr => ?_, fun _ => ?_⟩
    · rw [if_pos rfl, part_modPart_self, part_resetBar]
    · rw [part_modPart_ne _ _ hr, part_resetBar]
    · rw [← hempty]
      simp [State.bar]
  | flr | hotReset | perst =>
    rw [partitionResetBy_hard hup p (by simp), hv]
    exact ⟨by simp, by simp, (part_resetBar p p v).trans (if_neg (by decide)).symm, fun r _ => part_resetBar p r v,
      fun _ => hempty⟩

theorem queue_resetQueues (x : PartSt) (q : QNo) : x.resetQueues.queues.get q = {} := by
  simp [PartSt.resetQueues]

/-- A crossing that times out is flushed with a message. -/
theorem reported_flushCrossing (p : Part) (lost : Nat) (s : State) :
    Reported (pgHp p) kXingFlush sevWarning 2 s (flushCrossing p lost s) := by
  simp only [flushCrossing]
  refine (reported_fault _ (pgHp_lt p) _ _ _ _).mono ?_ (Nat.le_of_eq ?_) fun m hm => hm
  · simp
  · simp

/-- Settles O51: an operation done stays done while the ports settle, and a reset takes the operations of the table that are the
partition's. -/
theorem operationsEndByTimeoutAndReset : Obligations.OperationsEndByTimeoutAndReset := by
  intro s t o p k lost n
  refine ⟨fun ho hrun hpg => ⟨_, rfl, queueOpTimeout_ends ho hrun hpg⟩, fun ho hrun => ⟨_, rfl, ?_⟩,
    fun hup hk => ⟨_, rfl, ?_⟩, fun hup hk hwf => ⟨_, rfl, ?_⟩, fun hup => ⟨_, rfl, ?_⟩, fun hup => ⟨_, rfl, ?_⟩,
    fun hup => ⟨_, rfl, ?_⟩⟩
  · beta_reduce
    rw [queueOpTimeout, ho]
    exact if_neg (by simp [hrun])
  · subst hk
    rw [partitionResetBy_linkUp hup]
    exact ⟨by rw [part_modPart_self], by simp, by simp, fun r hr => part_modPart_ne _ _ hr⟩
  · obtain ⟨hops, hflt, hself, hne, hbar⟩ := partitionResetBy_reset (p := p) hup hk
    rw [part_partitionReset_self] at hself
    refine ⟨fun r x hx hp => ?_, fun r x hx hp => ?_, fun q => ?_, fun r hr => ?_, ?_, hbar, ?_, fun d => ?_, ?_⟩
    · rw [op_of_ops hops, op_partitionReset hwf hx, if_pos hp]
    · rw [op_of_ops hops, op_partitionReset hwf hx, if_neg hp]
    · rw [State.queue, hself]
      split <;> exact queue_resetQueues (s.part p) q
    · rw [hne r hr, part_partitionReset_ne hr]
    · rw [hself]
      split <;> rfl
    · rw [hself]
      split <;> rfl
    · rw [hself]
      split <;> rfl
    · exact (reported_partitionReset p s).mono rfl (Nat.le_refl _) fun m hm => by rw [hflt]; exact hm
  · exact if_neg (by simp [hup])
  · rw [crossingTimeout, if_pos hup]
    exact (reported_flushCrossing p lost s).mono rfl (Nat.le_refl _) fun m hm => mem_bufs_recovery hm
  · exact if_neg (by simp [hup])

end Sys2Proof.Machine
end

section
/-!
PROOFS. Scope: what the common die's own work leaves: events stay, and which parts of the halves and of the power state change (used
for O19, O20, O21 and O25).
-/

namespace Sys2Proof.Machine

/-! ## Events stay -/

/-- Every event bit that is set stays set. -/
def State.EvtsStay (s t : State) : Prop := ∀ q b, s.evtBit q b = true → t.evtBit q b = true

theorem State.EvtsStay.refl (s : State) : s.EvtsStay s := fun _ _ h => h

theorem State.EvtsStay.trans {s t u : State} (a : s.EvtsStay t) (b : t.EvtsStay u) : s.EvtsStay u :=
  fun q e h => b q e (a q e h)

/-- An operation that leaves the pages may follow. -/
theorem State.EvtsStay.keep {s t u : State} (a : s.EvtsStay t) (h : u.pages = t.pages) : s.EvtsStay u :=
  fun q b hb => by rw [State.evtBit, h]; exact a q b hb

theorem evtsStay_foldl {α : Type} {g : State → α → State} (hg : ∀ (a : State) x, a.EvtsStay (g a x)) (l : List α)
    (s : State) : s.EvtsStay (l.foldl g s) := by
  induction l generalizing s with
  | nil => exact .refl s
  | cons x xs ih => exact (hg s x).trans (ih _)

section
variable {s t : State}

theorem State.EvtsStay.setEvt (a : s.EvtsStay t) (pg b : Nat) : s.EvtsStay (t.setEvt pg b) :=
  a.trans (evtBit_setEvt_of t pg b)

theorem State.EvtsStay.evtIf (a : s.EvtsStay t) (c : Bool) (pg b : Nat) : s.EvtsStay (t.evtIf c pg b) := by
  cases c with
  | true => exact a.setEvt pg b
  | false => exact a

theorem State.EvtsStay.modHalf (a : s.EvtsStay t) (h : Half) (f : HalfSt → HalfSt) : s.EvtsStay (t.modHalf h f) := a.keep rfl

theorem State.EvtsStay.modPort (a : s.EvtsStay t) (p : PortNo) (f : PortSt → PortSt) : s.EvtsStay (t.modPort p f) := a.keep rfl

theorem State.EvtsStay.modJet (a : s.EvtsStay t) (j : JetNo) (f : JetSt → JetSt) : s.EvtsStay (t.modJet j f) := a.keep rfl

theorem State.EvtsStay.logRec (a : s.EvtsStay t) (typ data : Nat) (inj : Bool) : s.EvtsStay (t.logRec typ data inj) := by
  simp only [State.logRec]
  split
  · exact a.keep rfl
  · refine .setEvt ?_ pgMgt evMgtLogOvf
    exact a.keep rfl

theorem State.EvtsStay.fault (a : s.EvtsStay t) (place pg kind sev : Nat) (det : Byte) (loc : BitVec 24) :
    s.EvtsStay (t.fault place pg kind sev det loc) :=
  fun q b h => by rw [State.evtBit, evtOf_fault]; exact a q b h

theorem State.EvtsStay.finish (a : s.EvtsStay t) (g : Tag) (st : Byte) (res : Vector Word 6) :
    s.EvtsStay (t.finish g st res) := by
  unfold State.finish
  split
  · exact a
  · split
    · exact a
    · refine .evtIf (.evtIf ?_ _ _ _) _ _ _
      exact a.keep (by simp)

theorem State.EvtsStay.abortOps (a : s.EvtsStay t) (p : Op → Bool) (st : Byte) : s.EvtsStay (t.abortOps p st) := by
  refine a.trans (evtsStay_foldl (fun b e => ?_) _ t)
  split
  · exact ((State.EvtsStay.refl b).finish e.1 st noResult).keep rfl
  · exact .refl b

theorem State.EvtsStay.setDiv (a : s.EvtsStay t) (h : Half) (v : Option Nat) : s.EvtsStay (t.setDiv h v) :=
  .evtIf (.evtIf (a.modHalf h _) _ _ _) _ _ _

theorem State.EvtsStay.newSequence (a : s.EvtsStay t) : s.EvtsStay t.newSequence :=
  (a.abortOps Op.onTime stAbortReset).keep rfl

theorem State.EvtsStay.restartHalf (a : s.EvtsStay t) (h : Half) : s.EvtsStay (restartHalf t h) := by
  simp only [Machine.restartHalf]
  split
  · exact a.keep (by simp)
  · exact .newSequence (a.keep (by simp))

theorem State.EvtsStay.peerGone (a : s.EvtsStay t) (h : Half) : s.EvtsStay (peerGone h t) := by
  simp only [Machine.peerGone]
  split
  · exact a
  · have hgone := (a.modHalf h (fun x => { x with peerOk := false, matchRun := 0 })).setDiv h none
    split
    · exact (hgone.restartHalf h).modHalf h _
    · exact (hgone.restartHalf h).modHalf h _
    · exact hgone.modHalf h _
    · exact hgone.modHalf h _
    · exact hgone.modHalf h _
    · exact (hgone.modHalf h _).setEvt _ _
    · exact hgone

theorem State.EvtsStay.pushTx (a : s.EvtsStay t) (p : PortNo) (e : TxEnt) : s.EvtsStay (t.pushTx p e) := by
  simp only [State.pushTx]
  split
  · exact (a.modPort p _).evtIf _ _ _
  · exact (a.modPort p _).setEvt _ _

theorem State.EvtsStay.finishSend (a : s.EvtsStay t) (f : HostFrame) (discarded : Bool) (res : Vector Word 6) :
    s.EvtsStay (finishSend f discarded res t) := by
  unfold Machine.finishSend
  split
  · exact a.finish _ _ _
  · exact a

theorem State.EvtsStay.discardFrames (a : s.EvtsStay t) (p : PortNo) (which : HostFrame → Bool) :
    s.EvtsStay (t.discardFrames p which) := by
  simp only [State.discardFrames, State.dropFrames]
  refine .trans (a.modPort p _) (evtsStay_foldl (fun b e => ?_) _ _)
  refine .finishSend ?_ e true noResult
  split
  · exact .pushTx (.refl b) p _
  · exact .refl b

end

/-! ## Work on one half leaves the other -/

theorem half_foldl_keeps {α : Type} {g : State → α → State} {h : Half} (hg : ∀ a x, (g a x).half h = a.half h) (l : List α)
    (s : State) : (l.foldl g s).half h = s.half h := by
  induction l generalizing s with
  | nil => rfl
  | cons x xs ih => rw [List.foldl_cons, ih, hg]

@[simp] theorem half_setEvt (s : State) (pg b : Nat) (h : Half) : (s.setEvt pg b).half h = s.half h := by
  simp [State.half]

@[simp] theorem half_setDiv_self (s : State) (h : Half) (v : Option Nat) :
    (s.setDiv h v).half h = { s.half h with divAt := v } := by
  simp [State.setDiv]

section
variable {h g : Half} (hg : g ≠ h)
include hg

theorem half_setDiv_ne (s : State) (v : Option Nat) : (s.setDiv h v).half g = s.half g := by
  simp [State.setDiv, half_modHalf_ne _ _ hg]

theorem half_startDom_ne (s : State) (d : Dom) (unb : Nat) : (s.startDom h d unb).half g = s.half g := by
  have hslot : ∀ (a : State) (n : SlotNo), ((a.modSd h n d SlotDom.restart).modSlot h n
      (fun z => { z with pulse := setAt z.pulse d none })).half g = a.half g := fun a n => by
    simp [State.modSd, State.modSlot, half_modHalf_ne _ _ hg]
  rw [State.startDom, State.busNote, half_modHalf_ne _ _ hg, half_foldl_keeps hslot, State.modDom, half_modHalf_ne _ _ hg]
  rfl

theorem half_restartHalf_ne (s : State) : (restartHalf s h).half g = s.half g := by
  have hseq : ∀ a : State, a.newSequence.half g = a.half g := fun a => half_eq_of_halves (by simp) g
  have hdoms := half_foldl_keeps (h := g) (fun (a : State) d => half_startDom_ne hg a d
    (if (s.dom h d).marred && !s.peerAway h then 2 else 1)) allDoms
  simp only [restartHalf]
  split
  · rw [half_modHalf_ne _ _ hg, hdoms, half_modHalf_ne _ _ hg]
  · rw [hseq, half_modHalf_ne _ _ hg, hdoms, half_modHalf_ne _ _ hg]

theorem half_peerGone_ne (s : State) : (peerGone h s).half g = s.half g := by
  simp only [peerGone]
  split
  · rfl
  · split <;> simp [half_modHalf_ne _ _ hg, half_restartHalf_ne hg, half_setDiv_ne hg]

end

/-! ## Work of the common die -/

/-- What the common die does on its own account: it adds events, changes of a half its slots alone, and of the power state the
start-up step and the clocks that it runs from. -/
structure State.DieWork (s t : State) : Prop where
  evts : s.EvtsStay t
  slots : ∀ h, ∃ v, t.half h = { s.half h with slots := v }
  pwr : ∃ n c, t.pwr = { s.pwr with startStep := n, lathClock := c }

/-- Work that adds events alone. -/
theorem State.EvtsStay.dieWork {s t : State} (hevts : s.EvtsStay t) (hhalves : t.halves = s.halves) (hpwr : t.pwr = s.pwr) :
    s.DieWork t where
  evts := hevts
  slots h := ⟨(s.half h).slots, half_eq_of_halves hhalves h⟩
  pwr := ⟨s.pwr.startStep, s.pwr.lathClock, hpwr⟩

theorem State.DieWork.refl (s : State) : s.DieWork s := (State.EvtsStay.refl s).dieWork rfl rfl

theorem State.DieWork.trans {s t u : State} (a : s.DieWork t) (b : t.DieWork u) : s.DieWork u where
  evts := a.evts.trans b.evts
  slots h := by
    obtain ⟨_, ht⟩ := a.slots h
    obtain ⟨v, hu⟩ := b.slots h
    exact ⟨v, by rw [hu, ht]⟩
  pwr := by
    obtain ⟨_, _, ht⟩ := a.pwr
    obtain ⟨n, c, hu⟩ := b.pwr
    exact ⟨n, c, by rw [hu, ht]⟩

theorem dieWork_foldl {α : Type} {g : State → α → State} (hg : ∀ (a : State) x, a.DieWork (g a x)) (l : List α)
    (s : State) : s.DieWork (l.foldl g s) := by
  induction l generalizing s with
  | nil => exact .refl s
  | cons x xs ih => exact (hg s x).trans (ih _)

section
variable {s t : State}

theorem State.DieWork.keep {u : State} (a : s.DieWork t) (hpages : u.pages = t.pages) (hhalves : u.halves = t.halves)
    (hpwr : u.pwr = t.pwr) : s.DieWork u :=
  a.trans (((State.EvtsStay.refl t).keep hpages).dieWork hhalves hpwr)

theorem State.DieWork.setEvt (a : s.DieWork t) (pg b : Nat) : s.DieWork (t.setEvt pg b) :=
  a.trans (((State.EvtsStay.refl t).setEvt pg b).dieWork (by simp) (by simp))

theorem State.DieWork.evtIf (a : s.DieWork t) (c : Bool) (pg b : Nat) : s.DieWork (t.evtIf c pg b) := by
  cases c with
  | true => exact a.setEvt pg b
  | false => exact a

theorem State.DieWork.reachStep (a : s.DieWork t) (n : Nat) : s.DieWork (t.reachStep n) :=
  a.trans { evts := .refl t, slots := fun h => ⟨(t.half h).slots, rfl⟩
            pwr := ⟨max t.pwr.startStep n, t.pwr.lathClock, rfl⟩ }

theorem State.DieWork.modPort (a : s.DieWork t) (p : PortNo) (f : PortSt → PortSt) : s.DieWork (t.modPort p f) :=
  a.keep rfl rfl rfl

theorem State.DieWork.modFtnPort (a : s.DieWork t) (p : PortNo) (f : FtnPort → FtnPort) : s.DieWork (t.modFtnPort p f) :=
  a.keep rfl rfl rfl

theorem dieWork_signalLost (h : Half) (n : SlotNo) (s : State) : s.DieWork (signalLost h n s) where
  evts := (State.EvtsStay.refl s).keep (by simp)
  slots g := by
    unfold signalLost
    split
    · by_cases hg : g = h
      · subst hg
        exact ⟨_, half_modHalf_self s g _⟩
      · exact ⟨(s.half g).slots, half_modHalf_ne _ _ hg⟩
    · exact ⟨(s.half g).slots, rfl⟩
  pwr := ⟨s.pwr.startStep, s.pwr.lathClock, by simp⟩

theorem State.DieWork.dropLink (a : s.DieWork t) (p : PortNo) (x : PathAB) : s.DieWork (t.dropLink p x) := by
  unfold State.dropLink
  split
  · refine .trans ?_ (dieWork_signalLost .B _ _)
    refine .trans ?_ (dieWork_signalLost .A _ _)
    have hdown := (a.keep (u := t.modPath p x (fun y => { y with link := false })) rfl rfl rfl).setEvt (pgLp p) (evLpLinkDown x)
    exact hdown.keep (by simp) (by simp) (by simp)
  · exact a

theorem dieWork_stopPort (p : PortNo) (s : State) : s.DieWork (stopPort p s) := by
  have hlinks := ((State.DieWork.refl s).dropLink p .A).dropLink p .B
  have hframes := hlinks.trans (((State.EvtsStay.refl _).discardFrames p (fun _ => true)).dieWork (by simp) (by simp))
  simp only [stopPort]
  refine .trans (hframes.modPort p _) (dieWork_foldl (fun b x => ?_) _ _)
  exact (State.DieWork.refl b).keep (by simp) (by simp) (by simp)

theorem dieWork_jetsOff (s : State) : s.DieWork (jetsOff s) := by
  refine (evtsStay_foldl (fun b j => ?_) allJets s).dieWork (by simp) (by simp)
  exact .modJet (.modJet (.evtIf (.modJet (.refl b) j _) _ (pgJet j) evMisaligned) j _) j _

theorem dieWork_serveBoundary (p : PortNo) (s : State) : s.DieWork (serveBoundary p s) := by
  have hstop := ((State.DieWork.refl s).keep (u := s.modPtpPort p (fun x => { x with serving := s.mayServe p })) rfl rfl rfl).evtIf
    ((s.ptpPort p).serving && !s.mayServe p) pgPtp evServeStop
  simp only [serveBoundary]
  split
  · exact hstop.reachStep 10
  · exact hstop.keep rfl rfl rfl

theorem dieWork_noteLeap (s : State) : s.DieWork (noteLeap s) := by
  simp only [noteLeap]
  split
  · exact .refl s
  · exact (State.DieWork.refl s).keep rfl rfl rfl

theorem dieWork_settleFtn (s : State) : s.DieWork (settleFtn s) := by
  simp only [settleFtn]
  refine State.DieWork.trans ?_ (dieWork_foldl (fun b p => ?_) allPorts _)
  · refine .evtIf (.evtIf ?_ _ _ _) _ _ _
    exact (dieWork_noteLeap s).keep rfl rfl rfl
  · refine .evtIf (.evtIf (.modFtnPort (.evtIf (.evtIf (.modFtnPort ?_ p _) _ _ _) _ _ _) p _) _ _ _) _ _ _
    split
    · exact (State.DieWork.refl b).reachStep 10
    · exact .refl b

theorem dieWork_noClaim (s : State) : s.DieWork s.noClaim := by
  simp only [State.noClaim]
  split
  · exact .refl s
  · refine .setEvt (.setEvt ?_ _ _) _ _
    refine .trans ?_ (dieWork_settleFtn _)
    refine .trans ?_ (dieWork_foldl (fun b p => dieWork_serveBoundary p b) allPorts _)
    refine .trans ?_ (dieWork_foldl (fun b p => dieWork_stopPort p b) allPorts _)
    refine .trans ?_ (dieWork_jetsOff _)
    exact ⟨.keep (.refl s) rfl, fun h => ⟨(s.half h).slots, rfl⟩, ⟨s.pwr.startStep, false, rfl⟩⟩

theorem dieWork_judgeClaims (s : State) (h : Half) (c : Option (BitVec 8)) : s.DieWork (s.judgeClaims h c) := by
  simp only [State.judgeClaims]
  split_ifs <;> exact (State.DieWork.refl s).keep rfl rfl rfl

theorem dieWork_newClaims (s : State) (h : Half) (c : Option (BitVec 8)) : s.DieWork (s.newClaims h c) := by
  rw [newClaims_eq]
  split_ifs
  · exact (dieWork_judgeClaims s h c).trans (dieWork_noClaim _)
  · exact dieWork_judgeClaims s h c

end

end Sys2Proof.Machine
end

section
/-!
PROOFS. Scope: power-fail of a half, and a half held in reset or unpowered (used for O19, O20 and O25).
-/

namespace Sys2Proof.Machine

/-! ## A half held in reset or unpowered (03 R97, R106) -/

theorem Half.eq_or_eq_peer (h g : Half) : g = h ∨ g = h.peer := by
  cases h <;> cases g <;> simp [Half.peer]

/-- What the loss of the other half leaves of a half: one in SOLO has no D beside a half that is OFF (09 R310). -/
def HalfSt.besideOff (x : HalfSt) : HalfSt := if x.role = .solo then { x with divAt := none } else x

theorem timeOf_besideOff (x : HalfSt) (d : Dom) : x.besideOff.timeOf d = x.timeOf d := by
  unfold HalfSt.besideOff
  split_ifs <;> rfl

/-- The times of the bus are kept as they are last seen, where the arbiter follows the half that goes (09 R294, R295). -/
def State.keepTimes (s : State) (h : Half) : State :=
  if s.busHalf = some h then { s with arb := { s.arb with last := Vector.ofFn (fun d : Fin 4 => some (s.busTime d)) } } else s

/-- The D of a half and, beside a half that is OFF, the D of one in SOLO end. -/
def State.endDiv (s : State) (h : Half) : State :=
  if (s.half h.peer).role = .solo then (s.setDiv h none).setDiv h.peer none else s.setDiv h none

theorem half_keepTimes (s : State) (h g : Half) : (s.keepTimes h).half g = s.half g := by
  unfold State.keepTimes
  split_ifs <;> rfl

theorem half_endDiv_peer (s : State) (h : Half) : (s.endDiv h).half h.peer = (s.half h.peer).besideOff := by
  unfold State.endDiv HalfSt.besideOff
  split_ifs <;> simp [half_setDiv_ne (Half.peer_ne h)]

theorem dropHalf_eq (s : State) (h : Half) : s.dropHalf h =
    { ((s.keepTimes h).endDiv h).setHalf h {} with flt := dropMessages h ((s.keepTimes h).endDiv h).flt } := by
  rw [State.endDiv, half_keepTimes]
  rfl

theorem half_dropHalf_self (s : State) (h : Half) : (s.dropHalf h).half h = {} := half_setHalf_self _ h {}

theorem half_dropHalf_peer (s : State) (h : Half) : (s.dropHalf h).half h.peer = (s.half h.peer).besideOff := by
  rw [dropHalf_eq, ← half_keepTimes s h h.peer, ← half_endDiv_peer]
  exact half_setHalf_ne _ {} (Half.peer_ne h)

theorem arb_dropHalf (s : State) (h : Half) : (s.dropHalf h).arb = (s.keepTimes h).arb := by
  rw [dropHalf_eq, State.endDiv]
  split_ifs <;> simp [State.setHalf]

theorem evtsStay_dropHalf (s : State) (h : Half) : s.EvtsStay (s.dropHalf h) := by
  have htimes : s.EvtsStay (s.keepTimes h) := by
    unfold State.keepTimes
    split_ifs
    · exact .keep (.refl s) rfl
    · exact .refl s
  have hdiv : s.EvtsStay ((s.keepTimes h).endDiv h) := by
    unfold State.endDiv
    split_ifs
    · exact .setDiv (.setDiv htimes h none) h.peer none
    · exact .setDiv htimes h none
  rw [dropHalf_eq]
  exact hdiv.keep rfl

theorem timeOf_default (d : Dom) : HalfSt.timeOf {} d = 0 := by
  have hfloor : Rat.floor 0 = 0 := by decide
  simp [HalfSt.timeOf, hfloor]

theorem busTime_of_busHalf {s : State} {h : Half} (hbus : s.busHalf = some h) (d : Dom) :
    s.busTime d = max ((s.half h).timeOf d) ((s.arb.last.get d).getD 0) := by
  simp [State.busTime, hbus]

theorem busTime_dropHalf (s : State) (h : Half) (d : Dom) : (s.dropHalf h).busTime d = s.busTime d := by
  have harb := arb_dropHalf s h
  rw [State.keepTimes] at harb
  split_ifs at harb with hbus
  · have hactive : (s.dropHalf h).busHalf = some h := by rw [State.busHalf, harb]; exact hbus
    have hlast : (s.dropHalf h).arb.last.get d = some (s.busTime d) := by rw [harb]; simp [Vector.get_eq_getElem]
    rw [busTime_of_busHalf hactive, hlast, half_dropHalf_self, timeOf_default]
    exact Nat.zero_max _
  · have hactive : (s.dropHalf h).busHalf = s.busHalf := by rw [State.busHalf, harb]; rfl
    cases hfollowed : s.busHalf with
    | none => simp [State.busTime, hactive, hfollowed]
    | some g =>
      obtain rfl : g = h.peer := (Half.eq_or_eq_peer h g).resolve_left (fun hg => hbus (hg ▸ hfollowed))
      rw [busTime_of_busHalf (hactive.trans hfollowed), busTime_of_busHalf hfollowed, half_dropHalf_peer, timeOf_besideOff, harb]

/-- A half is held in reset or unpowered: its state is lost, the module is no longer in RUN, and where no half is left what waits for
a beat comes into force in the copy. -/
def State.shutHalf (s : State) (h : Half) (p : HalfPwr) : State :=
  settleCopy ({ s.dropHalf h with pwr := { (s.dropHalf h).pwr with half := (s.dropHalf h).pwr.half.set h p } }).settleDown

theorem evtsStay_setPage {s : State} {pg : Nat} {p : Page} (h : p.evt = (s.page pg).evt) : s.EvtsStay (s.setPage pg p) := by
  intro q b hb
  rw [evtBit_eq] at hb ⊢
  by_cases hq : q = pg
  · subst hq
    rwa [page_setPage_self, h]
  · rwa [page_setPage_ne s p hq]

theorem evtsStay_setReg (s : State) (pg o : Nat) (v : Word) : s.EvtsStay (s.setReg pg o v) := evtsStay_setPage rfl

theorem evtsStay_flushWords (s : State) (pg : Nat) : s.EvtsStay (flushWords s pg) := by
  simp only [flushWords]
  refine .trans ?_ (evtsStay_foldl (fun a e => ?_) _ _)
  · exact evtsStay_setPage rfl
  · exact evtsStay_setReg a pg e.1 _

theorem evtsStay_settlePage (s : State) (pg : Nat) : s.EvtsStay (settlePage s pg) := by
  unfold settlePage
  split
  · exact .refl s
  · split
    · exact (evtsStay_flushWords s pg).trans (evtsStay_setReg _ pg _ 0)
    · exact evtsStay_flushWords s pg

theorem evtsStay_settleCopy (s : State) : s.EvtsStay (settleCopy s) := by
  unfold settleCopy
  split
  · exact .refl s
  · exact evtsStay_foldl evtsStay_settlePage copyPages s

theorem pwr_shutHalf (s : State) (h : Half) (p : HalfPwr) : (s.shutHalf h p).pwr =
    { s.pwr with half := s.pwr.half.set h p, state := if s.pwr.state = .run then .reduced else s.pwr.state } := by
  simp only [State.shutHalf, keeps_settleCopy, State.settleDown, keeps_dropHalf]
  split_ifs <;> rfl

theorem half_shutHalf (s : State) (h g : Half) (p : HalfPwr) : (s.shutHalf h p).half g = (s.dropHalf h).half g :=
  half_eq_of_halves (by simp [State.shutHalf]) g

theorem busTime_congr {s t : State} (harb : t.arb = s.arb) (hhalves : t.halves = s.halves) (d : Dom) :
    t.busTime d = s.busTime d := by
  simp only [State.busTime, State.busHalf, State.half, harb, hhalves]

theorem busTime_shutHalf (s : State) (h : Half) (p : HalfPwr) (d : Dom) : (s.shutHalf h p).busTime d = s.busTime d :=
  (busTime_congr (by simp [State.shutHalf]) (by simp [State.shutHalf]) d).trans (busTime_dropHalf s h d)

theorem evtsStay_shutHalf (s : State) (h : Half) (p : HalfPwr) : s.EvtsStay (s.shutHalf h p) :=
  ((evtsStay_dropHalf s h).keep (by simp)).trans (evtsStay_settleCopy _)

/-! ## Power-fail of a half (03 R97) -/

/-- The half's claim is gone for its peer; what the arbiters then see of it is left to `newClaims`. -/
def State.unpublish (s : State) (h : Half) : State :=
  (peerGone h.peer { s with arb := { s.arb with pub := s.arb.pub.set h false } }).modHalf h (fun x => { x with peerOk := false })

theorem withdrawClaim_eq (h : Half) (s : State) : withdrawClaim h s = (s.unpublish h).newClaims h none := rfl

theorem pwr_unpublish (s : State) (h : Half) : (s.unpublish h).pwr = s.pwr := by simp [State.unpublish]

theorem half_unpublish (s : State) (h : Half) : (s.unpublish h).half h = { s.half h with peerOk := false } := by
  rw [State.unpublish, half_modHalf_self, half_peerGone_ne (Half.peer_ne h).symm]
  rfl

theorem evtsStay_unpublish (s : State) (h : Half) : s.EvtsStay (s.unpublish h) := by
  refine .modHalf (.peerGone ?_ h.peer) h _
  exact .keep (.refl s) rfl

/-- Power-fail of a running half, before the common die withdraws its claim. -/
def State.failHalf (s : State) (h : Half) : State :=
  { s with pwr := { s.pwr with waitOff := s.pwr.waitOff.set h true, half := s.pwr.half.set h .failing } }

theorem powerFail_of_on {s : State} {h : Half} (hon : s.pwr.half.of h = .on) :
    powerFail s h = withdrawClaim h (s.failHalf h) := by
  simp only [powerFail, hon]
  rfl

theorem powerFail_of_failing {s : State} {h : Half} (hfail : s.pwr.half.of h = .failing) : powerFail s h = s := by
  simp only [powerFail, hfail]

theorem powerFail_of_reset {s : State} {h : Half} (hon : s.pwr.half.of h ≠ .on) (hfail : s.pwr.half.of h ≠ .failing) :
    powerFail s h = State.shutHalf { s with pwr := { s.pwr with waitOff := s.pwr.waitOff.set h true } } h .off := by
  unfold powerFail
  split
  · contradiction
  · contradiction
  · rfl

/-- What power-fail does to a running half: it runs on without a claim, and no event, feed or other half's power is touched. -/
structure State.Failed (s : State) (h : Half) (t : State) : Prop where
  evts : s.EvtsStay t
  half : ∃ v, t.half h = { s.half h with peerOk := false, slots := v }
  pwr : ∃ n c, t.pwr = { (s.failHalf h).pwr with startStep := n, lathClock := c }
  claim : t.arb.claims.of h = none

theorem failed_powerFail {s : State} {h : Half} (hon : s.pwr.half.of h = .on) : s.Failed h (powerFail s h) := by
  rw [powerFail_of_on hon, withdrawClaim_eq]
  have hwork := dieWork_newClaims ((s.failHalf h).unpublish h) h none
  refine ⟨(evtsStay_unpublish (s.failHalf h) h).trans hwork.evts, ?_, ?_, by simp⟩
  · obtain ⟨v, hv⟩ := hwork.slots h
    exact ⟨v, by rw [hv, half_unpublish]; rfl⟩
  · obtain ⟨n, c, hpwr⟩ := hwork.pwr
    exact ⟨n, c, by rw [hpwr, pwr_unpublish]⟩

/-- Power-fail of a half in any state leaves the feeds, and every event. -/
theorem powerFail_leaves (s : State) (h : Half) :
    (powerFail s h).pwr.feeds = s.pwr.feeds ∧ s.EvtsStay (powerFail s h) := by
  by_cases hon : s.pwr.half.of h = .on
  · obtain ⟨hevts, -, ⟨n, c, hpwr⟩, -⟩ := failed_powerFail hon
    exact ⟨by rw [hpwr]; rfl, hevts⟩
  · by_cases hfail : s.pwr.half.of h = .failing
    · rw [powerFail_of_failing hfail]
      exact ⟨rfl, .refl s⟩
    · rw [powerFail_of_reset hon hfail]
      refine ⟨by rw [pwr_shutHalf], .trans ?_ (evtsStay_shutHalf _ h .off)⟩
      exact .keep (.refl s) rfl

end Sys2Proof.Machine
end

section
/-!
PROOFS. Scope: feeds, breakers, RESET_N and temperatures start, stop and reset the module (O19) and its halves (O20).
-/

namespace Sys2Proof.Machine

/-! ## The power page's messages -/

@[simp] theorem pwr_powerMsg (s : State) (kind sev place : Nat) : (powerMsg s kind sev place).pwr = s.pwr := by simp [powerMsg]

@[simp] theorem half_powerMsg (s : State) (kind sev place : Nat) (h : Half) : (powerMsg s kind sev place).half h = s.half h :=
  half_eq_of_halves (by simp [powerMsg]) h

/-- An event of the power page with its message: the event is set, every other stays, and neither power state nor halves change. -/
structure State.Noted (s : State) (b : Nat) (t : State) : Prop where
  evt : t.evtBit pgPwr b = true
  evts : s.EvtsStay t
  pwr : t.pwr = s.pwr
  halves : t.halves = s.halves

theorem noted_powerMsg {b : Nat} (hb : b < 32) (s : State) (kind sev place : Nat) :
    s.Noted b (powerMsg (s.setEvt pgPwr b) kind sev place) where
  evt := (State.EvtsStay.refl _).fault _ _ _ _ _ _ _ _ (evtBit_setEvt_self s pgPwr b hb)
  evts := .fault (.setEvt (.refl s) pgPwr b) _ _ _ _ _ _
  pwr := by simp
  halves := by simp [powerMsg]

theorem evFeedLost_lt (f : Half) : evFeedLost f < 32 := by cases f <;> decide
theorem evBreaker_lt (f : Half) : evBreaker f < 32 := by cases f <;> decide
theorem evThermTrip_lt (h : Half) : evThermTrip h < 32 := by cases h <;> decide

/-! ## Feeds (03 R96 to R99) -/

/-- Start-up begins where a first feed is detected; on a set latch the module is SEALED, and PCIe trains (03 R106, R107). -/
theorem pwr_feedDetected_of_standby {s : State} {f : Half} {mv : Nat} (hdet : (s.pwr.feeds.of f).detected = false)
    (htrip : (s.pwr.feeds.of f).tripped = false) (hmv : 5600 < mv) (hstate : s.pwr.state = .standby) :
    (feedDetected f mv s).pwr =
      { s.pwr with
        feeds := s.pwr.feeds.set f { s.pwr.feeds.of f with detected := true, mv := mv, ma := s.fresh }
        state := if s.keys.latch = 0 then .boot else .sealed
        startStep := 2
        pcieUp := s.keys.latch != 0 } := by
  have hle : ¬ mv ≤ 5600 := by omega
  by_cases hlatch : s.keys.latch = 0 <;> simp [feedDetected, modFeed, hdet, htrip, hle, hstate, hlatch]

/-- The state in which a feed's loss is noted, before anything is done about it. -/
def State.noteLost (s : State) (f : Half) : State :=
  powerMsg ((modFeed s f (fun x => { x with detected := false, mv := 0, lostOnce := true })).setEvt pgPwr (evFeedLost f)) kPower
    sevWarning

theorem noted_noteLost (s : State) (f : Half) :
    State.Noted (modFeed s f (fun x => { x with detected := false, mv := 0, lostOnce := true })) (evFeedLost f) (s.noteLost f) :=
  noted_powerMsg (evFeedLost_lt f) _ _ _ _

theorem feeds_noteLost (s : State) (f : Half) : (s.noteLost f).pwr.feeds =
    s.pwr.feeds.set f { s.pwr.feeds.of f with detected := false, mv := 0, lostOnce := true } := by
  rw [(noted_noteLost s f).pwr]
  rfl

theorem pwr_half_noteLost (s : State) (f : Half) : (s.noteLost f).pwr.half = s.pwr.half := by
  rw [(noted_noteLost s f).pwr]
  rfl

theorem feedLost_of_other {s : State} {f : Half} (hdet : (s.pwr.feeds.of f).detected = true)
    (hother : (s.pwr.feeds.of f.peer).detected = true) : feedLost f s = powerFail (s.noteLost f) f := by
  have hother' : ((s.noteLost f).pwr.feeds.of f.peer).detected = true := by
    rw [feeds_noteLost, Pair.of_set_peer, hother]
  rw [feedLost, if_pos hdet]
  exact if_pos hother'

theorem feedLost_of_last {s : State} {f : Half} (hdet : (s.pwr.feeds.of f).detected = true)
    (hother : (s.pwr.feeds.of f.peer).detected = false) : feedLost f s = (s.noteLost f).toStandby := by
  have hother' : ((s.noteLost f).pwr.feeds.of f.peer).detected = false := by
    rw [feeds_noteLost, Pair.of_set_peer, hother]
  rw [feedLost, if_pos hdet]
  exact if_neg (Bool.eq_false_iff.mp hother')

/-- Whatever its half was doing, a feed's loss leaves it undetected and its event set. -/
theorem feedLost_of_other_feeds {s : State} {f : Half} (hdet : (s.pwr.feeds.of f).detected = true)
    (hother : (s.pwr.feeds.of f.peer).detected = true) :
    (feedLost f s).pwr.feeds = s.pwr.feeds.set f { s.pwr.feeds.of f with detected := false, mv := 0, lostOnce := true } ∧
      (feedLost f s).evtBit pgPwr (evFeedLost f) = true ∧ s.EvtsStay (feedLost f s) := by
  obtain ⟨hfeeds, hevts⟩ := powerFail_leaves (s.noteLost f) f
  obtain ⟨hevt, hstay, -, -⟩ := noted_noteLost s f
  rw [feedLost_of_other hdet hother]
  refine ⟨hfeeds.trans (feeds_noteLost s f), hevts _ _ hevt, ?_⟩
  exact (hstay.trans hevts : State.EvtsStay s _)

/-! ## Resets leave the island (03 R94, R106) -/

/-- Of the keys, the slots alone change. -/
def State.KeySlotsOnly (s t : State) : Prop := ∃ v, t.keys = { s.keys with slots := v }

theorem State.KeySlotsOnly.refl (s : State) : s.KeySlotsOnly s := ⟨s.keys.slots, rfl⟩

theorem slotsOnly_foldl {α : Type} {g : State → α → State} (hg : ∀ (a : State) x, a.KeySlotsOnly (g a x))
    (l : List α) (s : State) : s.KeySlotsOnly (l.foldl g s) := by
  induction l generalizing s with
  | nil => exact .refl s
  | cons x xs ih =>
    obtain ⟨_, hx⟩ := hg s x
    obtain ⟨v, hxs⟩ := ih (g s x)
    exact ⟨v, by rw [List.foldl_cons, hxs, hx]⟩

theorem slotsOnly_keyCut (o : Op) (s : State) : s.KeySlotsOnly (keyCut o s) := by
  simp only [keyCut, keyCutAt]
  split_ifs
  · exact .refl s
  · exact ⟨_, rfl⟩
  · exact ⟨_, rfl⟩
  · exact .refl s

theorem slotsOnly_cutKeys (which : Op → Bool) (s : State) : s.KeySlotsOnly (cutKeys which s) := by
  refine slotsOnly_foldl (fun a e => ?_) _ s
  exact slotsOnly_keyCut e.2 a

/-- A chip reset leaves the island's tamper state, and the fuses. -/
theorem keys_chipReset (s : State) (cause : Nat) : (s.chipReset cause).keys.latch = s.keys.latch ∧
    (s.chipReset cause).keys.tampCfg = s.keys.tampCfg ∧ (s.chipReset cause).keys.fuse = s.keys.fuse := by
  obtain ⟨v, hv⟩ := slotsOnly_cutKeys (fun _ => true) s
  simp [State.chipReset, State.afterChipReset, hv]

theorem latch_toStandby (s : State) : s.toStandby.keys.latch = s.keys.latch := by
  obtain ⟨v, hv⟩ := slotsOnly_cutKeys (fun _ => true) s
  simp [State.toStandby, State.afterChipReset, hv]

/-- A chip reset under power: start-up goes on at step 3 with both halves off and the cause written; registers and operations are
as after reset. -/
theorem chipReset_restarts {s : State} (hstate : s.pwr.state ≠ .standby) (cause : Nat) :
    (s.chipReset cause).pwr.startStep = 2 ∧ (s.chipReset cause).pwr.lastCause = cause ∧
      (s.chipReset cause).pwr.half = ⟨.off, .off⟩ ∧ (s.chipReset cause).pwr.rtcSec = s.pwr.rtcSec ∧
      (s.chipReset cause).mgt.flash = s.mgt.flash ∧ (s.chipReset cause).pages = [] ∧ (s.chipReset cause).ops = [] := by
  simp [State.chipReset, State.afterChipReset, State.reset, hstate]

/-! ## The module's commands -/

theorem feedDetected_gives {s : State} {f : Half} {mv : Nat} (hdet : (s.pwr.feeds.of f).detected = false)
    (htrip : (s.pwr.feeds.of f).tripped = false) (hmv : 5600 < mv) (hstate : s.pwr.state = .standby) :
    Gives (.feedDetected f mv) s (fun t =>
      (t.pwr.feeds.of f).detected = true ∧ (t.pwr.feeds.of f).mv = mv ∧ t.pwr.feeds.of f.peer = s.pwr.feeds.of f.peer ∧
      t.pwr.startStep = 2 ∧ t.pwr.state = (if s.keys.latch = 0 then .boot else .sealed) ∧
      (t.pwr.pcieUp = true ↔ s.keys.latch ≠ 0)) := by
  refine (gives_iff _ _ _ _ rfl).mpr ?_
  rw [pwr_feedDetected_of_standby hdet htrip hmv hstate]
  simp

theorem feedLost_gives {s : State} {f : Half} (hdet : (s.pwr.feeds.of f).detected = true)
    (hother : (s.pwr.feeds.of f.peer).detected = true) (hon : s.pwr.half.of f = .on) :
    Gives (.feedLost f) s (fun t =>
      (t.pwr.feeds.of f).detected = false ∧ t.pwr.half.of f = .failing ∧ t.pwr.half.of f.peer = s.pwr.half.of f.peer ∧
      t.halfOn f = true ∧ t.claimOf f = none ∧ t.arb.claims.of f = none ∧ t.evtBit pgPwr (evFeedLost f) = true) := by
  obtain ⟨hfeeds, hevt, -⟩ := feedLost_of_other_feeds hdet hother
  have hhalf := pwr_half_noteLost s f
  obtain ⟨-, -, ⟨n, c, hpwr⟩, hclaim⟩ := failed_powerFail (s := s.noteLost f) (by rw [hhalf, hon])
  rw [← feedLost_of_other hdet hother] at hpwr hclaim
  have hfailing : (feedLost f s).pwr.half = s.pwr.half.set f .failing := by
    rw [hpwr, ← hhalf]
    rfl
  refine ⟨_, rfl, by simp [hfeeds], by simp [hfailing], by simp [hfailing], by simp [State.halfOn, hfailing], ?_, hclaim, hevt⟩
  simp [State.claimOf, State.publishing, hfailing]

theorem breakerTrip_gives {s : State} {f : Half} (hdet : (s.pwr.feeds.of f).detected = true)
    (hother : (s.pwr.feeds.of f.peer).detected = true) :
    Gives (.breakerTrip f) s (fun t =>
      (t.pwr.feeds.of f).detected = false ∧ (t.pwr.feeds.of f).tripped = true ∧
      t.evtBit pgPwr (evBreaker f) = true ∧ t.evtBit pgPwr (evFeedLost f) = true) := by
  obtain ⟨hevt, -, -, -⟩ := noted_powerMsg (evBreaker_lt f) s kPower sevWarning 0
  let u := modFeed (powerMsg (s.setEvt pgPwr (evBreaker f)) kPower sevWarning) f (fun x => { x with tripped := true })
  have hudet : (u.pwr.feeds.of f).detected = true := by simp [u, hdet]
  have huother : (u.pwr.feeds.of f.peer).detected = true := by simp [u, hother]
  obtain ⟨hfeeds, hlost, hstay⟩ := feedLost_of_other_feeds hudet huother
  refine ⟨feedLost f u, ?_, ?_⟩
  · exact congrArg Host.Outcome.next (if_pos hdet)
  · exact ⟨by simp [hfeeds], by simp [hfeeds, u], hstay _ _ hevt, hlost⟩

theorem resetN_gives {s : State} (hstate : s.pwr.state ≠ .standby) :
    Gives (.resetN true) s (fun t =>
      t.pwr.resetLow = true ∧ t.pwr.startStep = 2 ∧ t.pwr.lastCause = 2 ∧ t.pwr.half = ⟨.off, .off⟩ ∧
      t.keys.latch = s.keys.latch ∧ t.keys.tampCfg = s.keys.tampCfg ∧ t.keys.fuse = s.keys.fuse ∧
      t.pwr.rtcSec = s.pwr.rtcSec ∧ t.mgt.flash = s.mgt.flash ∧ t.pages = [] ∧ t.ops = []) := by
  obtain ⟨hstep, hcause, hhalf, hrtc, hflash, hpages, hops⟩ := chipReset_restarts hstate 2
  obtain ⟨hlatch, hcfg, hfuse⟩ := keys_chipReset s 2
  refine (gives_iff _ _ _ _ rfl).mpr ?_
  simp only [resetN, if_neg hstate, if_true]
  exact ⟨trivial, hstep, hcause, hhalf, hlatch, hcfg, hfuse, hrtc, hflash, hpages, hops⟩

theorem thermCommon_gives {s : State} (hstate : s.pwr.state ≠ .standby) :
    Gives .thermCommon s (fun t =>
      t.pwr.commonHot = true ∧ t.pwr.lastCause = 3 ∧ t.pwr.startStep = 2 ∧ t.pwr.half = ⟨.off, .off⟩ ∧
      t.keys.latch = s.keys.latch ∧ t.pwr.rtcSec = s.pwr.rtcSec) := by
  obtain ⟨hstep, hcause, hhalf, hrtc, -⟩ := chipReset_restarts hstate 3
  refine (gives_iff _ _ _ _ rfl).mpr ?_
  simp only [thermCommon, if_neg hstate]
  exact ⟨trivial, hcause, hstep, hhalf, (keys_chipReset s 3).1, hrtc⟩

/-- Settles O19: a lost feed is a power-fail or STANDBY, and the resets are the chip reset, which keeps the island. -/
theorem powerOnAndResets : Obligations.PowerOnAndResets := by
  refine ⟨fun s f mv => ⟨feedDetected_gives, feedLost_gives, fun hdet hother => ?_, breakerTrip_gives, ?_⟩, fun s =>
    ⟨resetN_gives, ⟨_, rfl, rfl, rfl, rfl⟩, thermCommon_gives, ⟨_, rfl, rfl, by simp [thermRecover], rfl⟩,
      ⟨_, rfl, rfl, by simp [thermRecover], rfl⟩, ⟨_, rfl, rfl, by simp [thermRecover], rfl⟩⟩⟩
  · refine ⟨_, rfl, ?_⟩
    rw [feedLost_of_last hdet hother]
    exact ⟨rfl, rfl, (latch_toStandby _).trans (by simp [State.noteLost, powerMsg, modFeed])⟩
  · exact ⟨_, rfl, by simp [breakerReclose], by simp [breakerReclose], by simp [breakerReclose], rfl, rfl, rfl⟩

/-! ## The halves' power -/

theorem halfHeldInReset_of_failing {s : State} {h : Half} (hfail : s.pwr.half.of h = .failing) :
    halfHeldInReset h s = s.shutHalf h .off := by
  simp only [halfHeldInReset, hfail]
  rfl

/-- A half held in reset or unpowered: nothing of it is left, the other half keeps its power and what it is beside a half that is
OFF, and the times on the bus stand. -/
theorem shutHalf_spec (s : State) (h : Half) (p : HalfPwr) :
    (s.shutHalf h p).pwr.half.of h = p ∧ (s.shutHalf h p).half h = {} ∧
      (s.shutHalf h p).pwr.half.of h.peer = s.pwr.half.of h.peer ∧
      (s.shutHalf h p).half h.peer =
        (if (s.half h.peer).role = .solo then { s.half h.peer with divAt := none } else s.half h.peer) ∧
      (∀ d, (s.shutHalf h p).busTime d = s.busTime d) ∧
      (s.shutHalf h p).pwr.state = (if s.pwr.state = .run then .reduced else s.pwr.state) :=
  ⟨by simp [pwr_shutHalf], by rw [half_shutHalf, half_dropHalf_self], by simp [pwr_shutHalf],
    (half_shutHalf s h h.peer p).trans (half_dropHalf_peer s h), busTime_shutHalf s h p, by rw [pwr_shutHalf]⟩

theorem halfRepower_gives {s : State} {h : Half} (hmay : s.mayPower h = true) (hoff : s.pwr.half.of h = .off)
    (hstandby : s.pwr.state ≠ .standby) (hboot : s.pwr.state ≠ .boot) :
    Gives (.halfRepower h) s (fun t =>
      t.pwr.half.of h = .held ∧ t.pwr.half.of h.peer = s.pwr.half.of h.peer ∧ t.halves = s.halves) := by
  have hpowered : halfRepower h s = s.powerHalf h := by simp [halfRepower, hmay, hoff, hstandby, hboot]
  refine (gives_iff _ _ _ _ rfl).mpr ?_
  rw [hpowered]
  simp [State.powerHalf]

/-- The state in which a thermal trip is noted, before the half's power-fail. -/
def State.noteTrip (s : State) (h : Half) : State :=
  let u := powerMsg (s.setEvt pgPwr (evThermTrip h)) kThermal sevError (placeOf h)
  { u with pwr := { u.pwr with halfHot := u.pwr.halfHot.set h true } }

theorem thermTrip_of_powered {s : State} {h : Half} (hpow : s.pwr.half.of h ≠ .off) :
    thermTrip h s = powerFail (s.noteTrip h) h := if_neg hpow

theorem noteTrip_spec (s : State) (h : Half) : (s.noteTrip h).evtBit pgPwr (evThermTrip h) = true ∧
    (s.noteTrip h).pwr = { s.pwr with halfHot := s.pwr.halfHot.set h true } ∧ (s.noteTrip h).halves = s.halves := by
  obtain ⟨hevt, -, -, hhalves⟩ := noted_powerMsg (evThermTrip_lt h) s kThermal sevError (placeOf h)
  exact ⟨hevt, by simp [State.noteTrip], hhalves⟩

theorem thermTrip_gives_of_on {s : State} {h : Half} (hon : s.pwr.half.of h = .on) :
    Gives (.thermTrip h) s (fun t =>
      t.pwr.half.of h = .failing ∧ t.pwr.halfHot.of h = true ∧ t.evtBit pgPwr (evThermTrip h) = true ∧
      (t.half h).peerOk = false ∧ (t.half h).doms = (s.half h).doms ∧ (t.half h).role = (s.half h).role ∧
      t.pwr.half.of h.peer = s.pwr.half.of h.peer ∧ t.arb.claims.of h = none) := by
  obtain ⟨hevt, hnoted, hhalves⟩ := noteTrip_spec s h
  obtain ⟨hstay, ⟨v, hv⟩, ⟨n, c, hpwr⟩, hclaim⟩ := failed_powerFail (s := s.noteTrip h) (by rw [hnoted]; exact hon)
  refine (gives_iff _ _ _ _ rfl).mpr ?_
  rw [thermTrip_of_powered (by rw [hon]; decide), hpwr, hv, State.failHalf, hnoted, half_eq_of_halves hhalves]
  exact ⟨by simp, by simp, hstay _ _ hevt, rfl, rfl, rfl, by simp, hclaim⟩

theorem thermTrip_gives_of_held {s : State} {h : Half} (hheld : s.pwr.half.of h = .held) :
    Gives (.thermTrip h) s (fun t =>
      t.pwr.half.of h = .off ∧ t.pwr.halfHot.of h = true ∧ t.evtBit pgPwr (evThermTrip h) = true ∧
      t.pwr.state = (if s.pwr.state = .run then .reduced else s.pwr.state)) := by
  obtain ⟨hevt, hnoted, -⟩ := noteTrip_spec s h
  have hheld' : (s.noteTrip h).pwr.half.of h = .held := by rw [hnoted]; exact hheld
  refine (gives_iff _ _ _ _ rfl).mpr ?_
  rw [thermTrip_of_powered (by rw [hheld]; decide),
    powerFail_of_reset (by rw [hheld']; decide) (by rw [hheld']; decide), pwr_shutHalf, hnoted]
  exact ⟨by simp, by simp, evtsStay_shutHalf { s.noteTrip h with pwr := _ } h .off _ _ hevt, rfl⟩

theorem halfHot_of_mayPower {s : State} {h : Half} (hmay : s.mayPower h = true) : s.pwr.halfHot.of h = false := by
  simp only [State.mayPower, Bool.and_eq_true, Bool.not_eq_true'] at hmay
  exact hmay.1.2

/-! ## The island's monitors -/

theorem thermWarn_gives {s : State} {d : Die} (hstate : s.pwr.state ≠ .standby) :
    Gives (.thermWarn d) s (fun t => d ∈ t.pwr.warned ∧ t.evtBit pgPwr evThermWarn = true ∧ t.pwr.state = s.pwr.state) := by
  obtain ⟨hevt, -, hpwr, -⟩ := noted_powerMsg (b := evThermWarn) (by decide) s kThermal sevInfo (diePlace d)
  refine (gives_iff _ _ _ _ rfl).mpr ?_
  simp only [thermWarn, if_neg hstate, hpwr]
  refine ⟨?_, hevt, trivial⟩
  by_cases hmem : d ∈ s.pwr.warned <;> simp [hmem]

theorem vbatLow_gives_of_fall {s : State} {mv : Nat} (hstate : s.pwr.state ≠ .standby) (hmv : mv < 2100)
    (hwas : s.pwr.vbatLow = false) :
    Gives (.vbatLow mv) s (fun t => t.pwr.vbatMv = mv ∧ t.pwr.vbatLow = true ∧ t.evtBit pgPwr evVbatLow = true) := by
  let u : State := { s with pwr := { s.pwr with vbatMv := mv, vbatLow := true } }
  have hfall : vbatLow mv s = powerMsg (u.setEvt pgPwr evVbatLow) kPower sevWarning := by
    simp [vbatLow, hmv, hwas, hstate, u]
  obtain ⟨hevt, -, hpwr, -⟩ := noted_powerMsg (b := evVbatLow) (by decide) u kPower sevWarning 0
  refine (gives_iff _ _ _ _ rfl).mpr ?_
  rw [hfall]
  exact ⟨by rw [hpwr], by rw [hpwr], hevt⟩

theorem vbatLow_gives_of_good {s : State} {mv : Nat} (hmv : 2100 ≤ mv) :
    Gives (.vbatLow mv) s (fun t => t.pwr.vbatMv = mv ∧ t.pwr.vbatLow = false ∧ t.pages = s.pages) := by
  have hlow : ¬ mv < 2100 := by omega
  exact ⟨_, rfl, by simp [vbatLow, hlow]⟩

theorem preRegulatorsUp_gives {s : State} (hstep : s.pwr.startStep = 2) (hstate : s.pwr.state = .boot)
    (hreset : s.pwr.resetLow = false) (hhot : s.pwr.commonHot = false) (hfeed : s.pwr.feeds.a.detected = true) :
    Gives (.preRegulatorsUp true) s (fun t => t.pwr.startStep = 3 ∧ t.pwr.vaux = true ∧ t.keys = s.keys ∧
      t.pwr.rtcValid = s.pwr.rtcValid) ∧
    Gives (.preRegulatorsUp false) s (fun t => t.pwr.startStep = 3 ∧ t.pwr.vaux = true ∧ t.pwr.retentionLost = true ∧
      t.pwr.rtcValid = false ∧ t.keys.latch = 0 ∧ t.keys.fuse = s.keys.fuse) := by
  constructor <;> exact ⟨_, rfl, by simp [preRegulatorsUp, hstep, hstate, hreset, hhot, hfeed]⟩

/-- Settles O20: a half in power-fail or tripped is shut or fails as `shutHalf_spec` and `failed_powerFail` say, and the monitors only
note. -/
theorem halvesArePoweredAndWatched : Obligations.HalvesArePoweredAndWatched := by
  refine ⟨fun s h => ⟨fun hfail => ?_, halfRepower_gives, thermTrip_gives_of_on, thermTrip_gives_of_held, halfHot_of_mayPower⟩,
    fun s d mv => ⟨thermWarn_gives, vbatLow_gives_of_fall, vbatLow_gives_of_good, fun hvaux => ?_, preRegulatorsUp_gives⟩⟩
  · exact ⟨_, rfl, by rw [halfHeldInReset_of_failing hfail]; exact shutHalf_spec s h .off⟩
  · exact ⟨_, rfl, hvaux, rfl, rfl⟩

end Sys2Proof.Machine
end

section
/-!
PROOFS. Scope: start-up measures its images and runs through its steps (O21).
-/

namespace Sys2Proof.Machine

/-! ## Measurements and the key store (16 R502, R503, R511) -/

theorem measExtend_of_open {s : State} {i : Fin 8} {d : BitVec 384} (hopen : s.keys.measLocked = false)
    (hrun : s.mgt.running = true) : measExtend i d s = extendMeas s i d := by
  simp [measExtend, hopen, hrun]

theorem measExtend_of_locked {s : State} {i : Fin 8} {d : BitVec 384} (hlock : s.keys.measLocked = true) :
    measExtend i d s = s.logRec 0x0009 0 := by
  simp [measExtend, hlock]

theorem State.KeySlotsOnly.setEvt {s t : State} (a : s.KeySlotsOnly t) (pg b : Nat) : s.KeySlotsOnly (t.setEvt pg b) := by
  simpa [State.KeySlotsOnly] using a

theorem State.KeySlotsOnly.logKey {s t : State} (a : s.KeySlotsOnly t) (n : KeyNo) (ev : Nat) (gen : Word) :
    s.KeySlotsOnly (t.logKey n ev gen) := by
  simpa [State.KeySlotsOnly] using a

theorem slotsOnly_setSlotKey (s : State) (n : KeyNo) (k : KeySlot) : s.KeySlotsOnly (s.setSlotKey n k) := ⟨_, rfl⟩

/-- Loading a slot's material changes of the keys the slots alone. -/
theorem slotsOnly_loadSlot (s : State) (n : KeyNo) : s.KeySlotsOnly (loadSlot s n) := by
  simp only [loadSlot]
  split
  · split
    · split
      · split
        · exact slotsOnly_setSlotKey s n _
        · exact (slotsOnly_setSlotKey s n _).setEvt pgKey evTorn
      · exact slotsOnly_setSlotKey s n _
    · exact ((slotsOnly_setSlotKey s n _).setEvt pgKey evBadslot).logKey n evBadslot _
  · exact .refl s

/-- Outside SEALED the key store is loaded, and of the keys the slots alone change beside. -/
theorem loadStore_loads {s : State} (hstate : s.pwr.state ≠ .sealed) :
    (∃ v, (loadStore s).keys = { s.keys with slots := v, storeLoaded := true }) ∧
      (loadStore s).evtBit pgKey evStoreLoaded = true := by
  obtain ⟨v, hv⟩ := slotsOnly_foldl slotsOnly_loadSlot allKeys s
  rw [loadStore, if_neg hstate]
  exact ⟨⟨v, by simp [hv]⟩, evtBit_setEvt_self _ _ _ (by decide)⟩

theorem measLock_locks {s : State} (hrun : s.mgt.running = true) (hopen : s.keys.measLocked = false)
    (hstate : s.pwr.state ≠ .sealed) : (measLock s).keys.measLocked = true ∧ (measLock s).keys.storeLoaded = true ∧
      (measLock s).evtBit pgKey evStoreLoaded = true ∧ (measLock s).keys.meas = s.keys.meas := by
  have hlock : measLock s = loadStore { s with keys := { s.keys with measLocked := true } } := by simp [measLock, hrun, hopen]
  obtain ⟨⟨v, hv⟩, hevt⟩ := loadStore_loads (s := { s with keys := { s.keys with measLocked := true } }) hstate
  rw [hlock]
  exact ⟨by rw [hv], by rw [hv], hevt, by rw [hv]⟩

/-! ## Step 4 (18 R560, R561) -/

/-- The boot ROM has selected its image; in recovery no internal key stands. -/
theorem bootSelected_spec (pick : BootCtl × BootImage) (s : State) :
    (bootSelected pick s).pwr.startStep = 4 ∧ (bootSelected pick s).flt.aliveOn = true ∧
      ((bootSelected pick s).mgt.image = .recovery →
        (bootSelected pick s).keys.kint = none ∧ (bootSelected pick s).keys.kwrap = none) := by
  by_cases hrec : pick.2 = .recovery <;> simp [bootSelected, bootRecover, hrec]

theorem bootRomStart_gives {s : State} {fuseOk : Bool} (hstep : s.pwr.startStep = 3) (hreset : s.pwr.resetLow = false) :
    Gives (.bootRomStart fuseOk) s (fun t => t.pwr.startStep = 4 ∧ t.keys.fuse = s.keys.fuse ∧ t.flt.aliveOn = true ∧
      (t.mgt.image = .recovery → t.keys.kint = none ∧ t.keys.kwrap = none)) := by
  have hrun : ∃ u : State, bootRomStart fuseOk s = bootSelected (selectImage u) u := by
    simp only [bootRomStart, hstep, hreset]
    exact ⟨_, rfl⟩
  obtain ⟨u, hu⟩ := hrun
  obtain ⟨hfour, halive, hrec⟩ := bootSelected_spec (selectImage u) u
  refine ⟨_, rfl, ?_, by simp, ?_, ?_⟩
  · rw [hu, hfour]
  · rw [hu, halive]
  · rw [hu]
    exact hrec

/-! ## Step 5 (18 R559, R562, R563) -/

/-- The partition policy sets of the management state the administrator and SMB_PRIV alone. -/
theorem mgt_applyPolicy (s : State) : ∃ a b, (applyPolicy s).mgt = { s.mgt with admin := a, smbPriv := b } := by
  simp only [applyPolicy]
  split
  · exact ⟨none, false, by simp⟩
  · next p _ => exact ⟨p.admin, p.smbPriv, by simp⟩

/-- A measured image of region A: its firmware runs, and takes both policies. -/
theorem measuredBoot_of_regionA {s : State} (hstep : s.pwr.startStep = 4) (hidle : s.mgt.running = false)
    (himage : s.mgt.image = .regionA) :
    ∃ (u : State) (data : Nat), measuredBoot s = (applyStartup (applyPolicy u)).logRec 0x0007 data ∧
      u.mgt.running = true ∧ u.mgt.svn = imgSvn s false := by
  have hstart : ¬ (s.pwr.startStep ≠ 4 ∨ s.mgt.running = true) := by simp [hstep, hidle]
  simp only [measuredBoot, himage, if_neg hstart]
  exact ⟨_, _, rfl, rfl, rfl⟩

theorem measuredBoot_gives {s : State} (hstep : s.pwr.startStep = 4) (hidle : s.mgt.running = false)
    (himage : s.mgt.image = .regionA) :
    Gives .measuredBoot s (fun t => t.mgt.running = true ∧ t.mgt.svn = imgSvn s false) := by
  obtain ⟨u, data, hboot, hrun, hsvn⟩ := measuredBoot_of_regionA hstep hidle himage
  obtain ⟨a, b, hmgt⟩ := mgt_applyPolicy u
  refine (gives_iff _ _ _ _ rfl).mpr ?_
  simp [hboot, hmgt, hrun, hsvn]

theorem step5Complete_gives {s : State} (hstep : s.pwr.startStep = 4) (hlock : s.keys.measLocked = true)
    (hloaded : s.keys.storeLoaded = true) (hstate : s.pwr.state = .boot) (himage : s.mgt.image ≠ .none) :
    Gives .step5Complete s (fun t => t.pwr.startStep = 6 ∧ t.pwr.pcieUp = true ∧
      t.pwr.state = (if (s.pwr.feeds.a.detected = true ∧ s.pwr.halfHot.a = false) ∧ s.pwr.feeds.b.detected = true ∧
        s.pwr.halfHot.b = false then .run else .reduced) ∧
      (∀ h, t.pwr.half.of h =
        if (s.pwr.feeds.of h).detected = true ∧ s.pwr.halfHot.of h = false then .held else s.pwr.half.of h)) := by
  have hend : s.pwr.startStep = 4 ∧ s.mgt.image ≠ .none ∧ s.keys.measLocked = true ∧ s.keys.storeLoaded = true ∧
      s.pwr.state = .boot := ⟨hstep, himage, hlock, hloaded, hstate⟩
  have hpwr : (step5Complete s).pwr = { s.pwr with
      startStep := 6
      pcieUp := true
      state := if (s.pwr.feeds.a.detected = true ∧ s.pwr.halfHot.a = false) ∧ s.pwr.feeds.b.detected = true ∧
        s.pwr.halfHot.b = false then .run else .reduced
      half := ⟨if s.pwr.feeds.a.detected = true ∧ s.pwr.halfHot.a = false then .held else s.pwr.half.a,
        if s.pwr.feeds.b.detected = true ∧ s.pwr.halfHot.b = false then .held else s.pwr.half.b⟩ } := by
    simp only [step5Complete, if_pos hend]
    simp [allSides, Pair.of, and_assoc]
  refine (gives_iff _ _ _ _ rfl).mpr ?_
  rw [hpwr]
  refine ⟨rfl, rfl, rfl, fun h => ?_⟩
  cases h <;> rfl

theorem bootFails_storeRec (s : State) (r : LogRec) : (s.storeRec r).mgt.bootFails = s.mgt.bootFails := by
  simp [State.storeRec]

theorem bootRestart_gives {s : State} {step reason : Byte} (hstep : s.pwr.startStep = 4) (hstate : s.pwr.state = .boot)
    (himage : s.mgt.image ≠ .recovery) :
    Gives (.bootRestart step reason) s (fun t =>
      if s.mgt.bootFails < 3 then t.pwr.startStep = 4 ∧ t.mgt.image = .none ∧ t.mgt.bootFails = s.mgt.bootFails + 1 ∧
        t.mgt.running = false
      else t.mgt.image = .recovery ∧ t.mgt.running = false ∧ t.pwr.startStep = 4) := by
  have hfail : (s.pwr.startStep = 3 ∨ s.pwr.startStep = 4) ∧ s.pwr.state = .boot ∧ s.mgt.image ≠ .recovery :=
    ⟨.inr hstep, hstate, himage⟩
  refine (gives_iff _ _ _ _ rfl).mpr ?_
  simp only [bootRestart, if_pos hfail]
  split_ifs
  · exact ⟨by simp [hstep], rfl, by simp [bootFails_storeRec], rfl⟩
  · exact ⟨rfl, rfl, rfl⟩

/-- Settles O21: the measurements are extended until the lock, which loads the key store, and each step of start-up ends as its
lemma says. -/
theorem startUpMeasuresAndRuns : Obligations.StartUpMeasuresAndRuns := by
  refine ⟨fun s i d hrun => ⟨fun hopen => ?_, fun hlock => ?_, fun hopen hstate => ?_⟩, fun s fuseOk step reason =>
    ⟨bootRomStart_gives, measuredBoot_gives, step5Complete_gives, bootRestart_gives⟩⟩
  · refine ⟨_, rfl, ?_⟩
    rw [measExtend_of_open hopen hrun]
    exact ⟨get_setAt_self _ _ _, fun j hj => get_setAt_ne _ _ hj, hopen, rfl⟩
  · exact ⟨_, rfl, by rw [measExtend_of_locked hlock]; simp, measExtend_of_locked hlock⟩
  · exact ⟨⟨_, rfl, measLock_locks hrun hopen hstate⟩, ⟨_, rfl, measLock_locks hrun hopen hstate⟩⟩

end Sys2Proof.Machine
end

section
/-!
PROOFS. Scope: the windows of a returning MOSC, and the resets of a half (O25).
-/

namespace Sys2Proof.Machine

/-! ## Qualification windows (04 R136, R137) -/

/-- A window's frequency against the grid, corrected by XO's. -/
def Lath.corrected (l : Lath) (v : Int) : Rat := (1 + rateQ (v : Rat)) * (1 + rateQ ((l.xoY.getD 0 : Int) : Rat)) - 1

/-- The window lies within the tolerance, and within the stability limit of the one before it. -/
def State.windowInside (s : State) (h : Half) (y : Int) : Bool :=
  decide (absQ ((s.lath h).corrected y) ≤ ((s.fieldAt pgLath 0x048 15 8 : Nat) : Rat) * tenth 7) &&
    (s.lath h).windows.head?.all (fun w => decide
      (absQ ((s.lath h).corrected y - (s.lath h).corrected w) ≤ ((s.fieldAt pgLath 0x048 23 16 : Nat) : Rat) * tenth 11))

/-- Qualification starts again; `win` is the window that failed, corrected. -/
def Lath.requalify (win : Int) (l : Lath) : Lath :=
  { l with windows := [], qualWin := 0, qualified := false, returnOk := false, moscWin := win }

/-- A window counts, with which the latest ones are `ws`. -/
def Lath.countWindow (ws : List Int) (win : Int) (l : Lath) : Lath :=
  { l with windows := ws, qualWin := satN 8 (l.qualWin + 1), moscWin := win }

/-- MOSC is qualified; its frequency `y` and uncertainty `unc` are kept where it was qualified before. -/
def Lath.qualify (was : Bool) (y : Int) (unc : Rat) (l : Lath) : Lath :=
  { l with qualified := true, moscY := if was then l.moscY else y, moscUnc := if was then l.moscUnc else unc }

section
variable {s : State} {h : Half} {y : Int}

/-- The latest windows with this one, as many as qualification needs. -/
def State.windowsWith (s : State) (h : Half) (y : Int) : List Int :=
  (y :: (s.lath h).windows).take (s.fieldAt pgLath 0x048 5 0 + 1)

/-- A window of the returning MOSC outside a limit restarts qualification; one inside counts, and as many as are needed qualify. -/
theorem moscQualWindow_of_returning (hgrid : s.gridOn h = true) (hst : (s.lath h).st = .returning) :
    moscQualWindow h y s =
      let win := openQ (unitsQ ((s.lath h).corrected y))
      if s.windowInside h y then
        if s.fieldAt pgLath 0x048 5 0 + 1 ≤ (s.windowsWith h y).length then (s.draw (2 ^ 32)).2.modLath h (fun l =>
          (l.countWindow (s.windowsWith h y) win).qualify (s.lath h).qualified (openQ (meanI (s.windowsWith h y)))
            (((s.draw (2 ^ 32)).1 : Nat) * tenth 15))
        else s.modLath h (Lath.countWindow (s.windowsWith h y) win)
      else (s.modLath h (Lath.requalify win)).lathEvt h evQualFail := by
  have hrun : (s.gridOn h && (s.lath h).st == .returning) = true := by simp [hgrid, hst]
  unfold moscQualWindow
  rw [if_pos hrun]
  unfold State.windowInside State.windowsWith
  cases (s.lath h).windows <;> rfl

theorem windowsWith_suffice : s.fieldAt pgLath 0x048 5 0 + 1 ≤ (s.windowsWith h y).length ↔
    s.fieldAt pgLath 0x048 5 0 ≤ (s.lath h).windows.length := by
  rw [State.windowsWith, List.length_take, List.length_cons]
  omega

theorem lath_congr {s t : State} {h : Half} (hh : t.halves = s.halves) : t.lath h = s.lath h := by
  rw [State.lath, half_eq_of_halves hh, State.lath]

theorem half_modLath_peer (s : State) (h : Half) (f : Lath → Lath) : (s.modLath h f).half h.peer = s.half h.peer :=
  half_modHalf_ne s _ (Half.peer_ne h)

theorem evtBit_lathEvt_self (s : State) (h : Half) {b : Nat} (hb : b < 8) :
    (s.lathEvt h b).evtBit pgLath (lathBit h b) = true := by
  have hbit : lathBit h b < 32 := by
    have := h.ix.isLt
    unfold lathBit
    omega
  have hset := evtBit_setEvt_self s pgLath (lathBit h b) hbit
  simp only [State.lathEvt]
  split
  · exact (State.EvtsStay.refl _).logRec _ _ _ _ _ hset
  · exact hset

theorem moscQualWindow_gives_of_outside (hgrid : s.gridOn h = true) (hst : (s.lath h).st = .returning)
    (hout : s.windowInside h y = false) :
    Gives (.moscQualWindow h y) s (fun t => (t.lath h).qualWin = 0 ∧ (t.lath h).windows = [] ∧
      (t.lath h).qualified = false ∧ (t.lath h).returnOk = false ∧ (t.lath h).st = .returning ∧
      t.evtBit pgLath (lathBit h evQualFail) = true ∧ t.half h.peer = s.half h.peer) := by
  have hkeep : ∀ u : State, (u.lathEvt h evQualFail).halves = u.halves := fun u => by simp
  refine (gives_iff _ _ _ _ rfl).mpr ?_
  simp only [moscQualWindow_of_returning hgrid hst, hout, Bool.false_eq_true, if_false]
  rw [lath_congr (hkeep _), half_eq_of_halves (hkeep _), lath_modLath_self, half_modLath_peer]
  exact ⟨rfl, rfl, rfl, rfl, hst, evtBit_lathEvt_self _ h (by decide), rfl⟩

theorem moscQualWindow_gives_of_inside (hgrid : s.gridOn h = true) (hst : (s.lath h).st = .returning)
    (hin : s.windowInside h y = true) :
    Gives (.moscQualWindow h y) s (fun t =>
      (t.lath h).windows = (y :: (s.lath h).windows).take (s.fieldAt pgLath 0x048 5 0 + 1) ∧
      (t.lath h).qualWin = satN 8 ((s.lath h).qualWin + 1) ∧ (t.lath h).st = .returning ∧
      (t.lath h).qualified =
        ((s.lath h).qualified || decide (s.fieldAt pgLath 0x048 5 0 ≤ (s.lath h).windows.length)) ∧
      (t.lath h).returnOk = (s.lath h).returnOk ∧ t.half h.peer = s.half h.peer ∧ t.pages = s.pages) := by
  refine (gives_iff _ _ _ _ rfl).mpr ?_
  simp only [moscQualWindow_of_returning hgrid hst, hin, if_true, windowsWith_suffice]
  split
  · next hneed =>
    rw [lath_modLath_self, half_modLath_peer]
    exact ⟨rfl, rfl, hst, by simp [Lath.qualify, hneed], rfl, rfl, rfl⟩
  · next hneed =>
    rw [lath_modLath_self, half_modLath_peer]
    exact ⟨rfl, rfl, hst, by simp [Lath.countWindow, hneed], rfl, rfl, rfl⟩

theorem moscQualWindow_of_other (hno : s.gridOn h = false ∨ (s.lath h).st ≠ .returning) : moscQualWindow h y s = s := by
  refine if_neg ?_
  rcases hno with hgrid | hst
  · simp [hgrid]
  · simp [hst]

end

/-! ## Half resets (09 R285, R311; 03 R106) -/

theorem resetHalf_of_on {s : State} {h : Half} (hon : s.pwr.half.of h = .on) : resetHalf h s = s.shutHalf h .held := by
  simp only [resetHalf, hon]
  rfl

theorem halfResetCmd_of_on {s : State} {h : Half} (hon : s.pwr.half.of h = .on) :
    halfResetCmd h s = (s.shutHalf h .held).setEvt pgHalf evHrstDone := by
  rw [← resetHalf_of_on hon]
  exact if_pos (by simp [hon])

theorem autoRst_of_fail {s : State} {h : Half} (hon : s.pwr.half.of h = .on) (hfail : (s.lath h).st = .fail)
    (hauto : s.bitAt pgHalf 0x040 28 = true) : autoRst h s = (s.shutHalf h .held).setEvt pgHalf evHrstDone := by
  rw [← resetHalf_of_on hon]
  exact if_pos (by simp [hon, hfail, hauto])

/-- A half that has been reset: held in reset with nothing of it left, the event set, and the rest as `shutHalf` leaves it. -/
theorem resetDone_spec (s : State) (h : Half) :
    ((s.shutHalf h .held).setEvt pgHalf evHrstDone).pwr.half.of h = .held ∧
      ((s.shutHalf h .held).setEvt pgHalf evHrstDone).half h = {} ∧
      ((s.shutHalf h .held).setEvt pgHalf evHrstDone).evtBit pgHalf evHrstDone = true ∧
      ((s.shutHalf h .held).setEvt pgHalf evHrstDone).pwr.state = (if s.pwr.state = .run then .reduced else s.pwr.state) ∧
      ((s.shutHalf h .held).setEvt pgHalf evHrstDone).half h.peer =
        (if (s.half h.peer).role = .solo then { s.half h.peer with divAt := none } else s.half h.peer) ∧
      ((s.shutHalf h .held).setEvt pgHalf evHrstDone).pwr.half.of h.peer = s.pwr.half.of h.peer ∧
      (∀ d, ((s.shutHalf h .held).setEvt pgHalf evHrstDone).busTime d = s.busTime d) := by
  obtain ⟨hheld, hgone, hpower, hother, htimes, hstate⟩ := shutHalf_spec s h .held
  simp only [keeps_setEvt, half_setEvt]
  exact ⟨hheld, hgone, evtBit_setEvt_self _ _ _ (by decide), hstate, hother, hpower, fun d =>
    (busTime_congr (by simp) (by simp) d).trans (htimes d)⟩

/-- Settles O25: a window is inside both limits or restarts qualification, and either reset of a half is `shutHalf` with its event. -/
theorem qualificationAndHalfResets : Obligations.QualificationAndHalfResets := by
  intro s h y corr tol stab near hcorr htol hstab hnear
  have hinside : s.windowInside h y = (decide (absQ (corr y) ≤ tol) && near) := by
    rw [hnear, hstab, htol, hcorr]
    rfl
  refine ⟨fun hgrid hst hout => ?_, fun hgrid hst hle hnear => ?_, fun hno => ⟨_, rfl, moscQualWindow_of_other hno⟩,
    fun hon => ⟨_, rfl, ?_⟩, fun hon hfail hauto => ⟨_, rfl, ?_⟩, fun hoff => ⟨_, rfl, if_neg (by simp [hoff])⟩,
    fun hno => ⟨_, rfl, if_neg ?_⟩⟩
  · refine moscQualWindow_gives_of_outside hgrid hst ?_
    rcases hout with hfar | hunstable
    · simp [hinside, hfar]
    · simp [hinside, hunstable]
  · exact moscQualWindow_gives_of_inside hgrid hst (by simp [hinside, hle, hnear])
  · rw [halfResetCmd_of_on hon]
    exact resetDone_spec s h
  · rw [autoRst_of_fail hon hfail hauto]
    exact resetDone_spec s h
  · rcases hno with hoff | hst | hauto
    · simp [hoff]
    · simp [hst]
    · simp [hauto]

end Sys2Proof.Machine
end

section
/-!
PROOFS. Scope: what the Lath's own steps change of its half, and a Lath that loses its source, hands over and returns (O24; used for O23).
-/

namespace Sys2Proof.Machine

/-! ## What a step of the Lath changes -/

/-- `t` follows from `s` by a step of half `h`'s Lath, which changes as `f` says: events are added, and no domain of the half
changes its time or its rate. -/
structure State.LathStep (h : Half) (f : Lath → Lath) (s t : State) : Prop where
  evts : s.EvtsStay t
  lath : t.lath h = f (s.lath h)
  times : ∀ d, (t.dom h d).t = (s.dom h d).t ∧ (t.dom h d).rate = (s.dom h d).rate

/-- A step beside the Lath. -/
abbrev State.BesideLath (h : Half) (s t : State) : Prop := s.LathStep h id t

section
variable {h : Half} {f g : Lath → Lath} {s t u : State}

theorem State.LathStep.trans (a : s.LathStep h f t) (b : t.LathStep h g u) : s.LathStep h (g ∘ f) u where
  evts := a.evts.trans b.evts
  lath := by rw [b.lath, a.lath, Function.comp_apply]
  times d := ⟨(b.times d).1.trans (a.times d).1, (b.times d).2.trans (a.times d).2⟩

/-- A function that makes the same of the Lath that stands serves as well. -/
theorem State.LathStep.congr (a : s.LathStep h f t) (hf : g (s.lath h) = f (s.lath h)) : s.LathStep h g t :=
  ⟨a.evts, a.lath.trans hf.symm, a.times⟩

theorem State.LathStep.beside (a : s.LathStep h f t) (b : t.BesideLath h u) : s.LathStep h f u := a.trans b

theorem State.BesideLath.refl (h : Half) (s : State) : s.BesideLath h s := ⟨.refl s, rfl, fun _ => ⟨rfl, rfl⟩⟩

theorem State.EvtsStay.besideLath (hevts : s.EvtsStay t) (hhalves : t.halves = s.halves) : s.BesideLath h t where
  evts := hevts
  lath := lath_congr hhalves
  times d := by simp [State.dom, half_eq_of_halves hhalves]

theorem besideLath_foldl {α : Type} {g : State → α → State} (hg : ∀ (a : State) x, a.BesideLath h (g a x)) (l : List α)
    (s : State) : s.BesideLath h (l.foldl g s) :=
  List.foldlRecOn l g (.refl h s) fun _ hb x _ => hb.beside (hg _ x)

theorem lathStep_modLath (h : Half) (f : Lath → Lath) (s : State) : s.LathStep h f (s.modLath h f) where
  evts := .modHalf (.refl s) h _
  lath := lath_modLath_self s h f
  times d := by simp [State.dom, State.modLath]

theorem State.LathStep.lathEvt (a : s.LathStep h f t) (g : Half) (b : Nat) : s.LathStep h f (t.lathEvt g b) := by
  have hset := (State.EvtsStay.refl t).setEvt pgLath (lathBit g b)
  refine a.beside (State.EvtsStay.besideLath ?_ (by simp))
  simp only [State.lathEvt]
  split
  · exact hset.logRec _ _ _
  · exact hset

theorem State.LathStep.fault (a : s.LathStep h f t) (place pg kind sev : Nat) (det : Byte) (loc : BitVec 24) :
    s.LathStep h f (t.fault place pg kind sev det loc) :=
  a.beside (((State.EvtsStay.refl t).fault place pg kind sev det loc).besideLath (by simp))

theorem State.LathStep.lathFault (a : s.LathStep h f t) (g : Half) (det : Nat) : s.LathStep h f (t.lathFault g det) :=
  a.fault _ _ _ _ _ _

theorem State.LathStep.evtIf (a : s.LathStep h f t) (c : Bool) (pg b : Nat) : s.LathStep h f (t.evtIf c pg b) :=
  a.beside (((State.EvtsStay.refl t).evtIf c pg b).besideLath (by simp))

theorem State.LathStep.count (a : s.LathStep h f t) (c n : Nat) : s.LathStep h f (t.count c n) :=
  a.beside (((State.EvtsStay.refl t).keep (by simp)).besideLath (by simp))

end

/-! ## Prompt rises (08 R276) -/

theorem besideLath_busNote (s : State) (h : Half) (d : Dom) : s.BesideLath h (s.busNote h d) where
  evts := .modHalf (.refl s) h _
  lath := by simp [State.lath, State.busNote]
  times e := by simp [State.dom, State.busNote]

theorem besideLath_modDom {s : State} {h : Half} {d : Dom} {f : DomSt → DomSt} (ht : ∀ x, (f x).t = x.t)
    (hrate : ∀ x, (f x).rate = x.rate) : s.BesideLath h (s.modDom h d f) where
  evts := .modHalf (.refl s) h _
  lath := by simp [State.lath, State.modDom]
  times e := by
    by_cases he : e = d
    · subst he
      simp [ht, hrate]
    · rw [dom_modDom_ne _ _ _ he]
      exact ⟨rfl, rfl⟩

theorem t_prompt (x : DomSt) (ps : Rat) : (x.prompt ps).t = x.t := by
  simp only [DomSt.prompt, DomSt.encode]
  split <;> rfl

theorem rate_prompt (x : DomSt) (ps : Rat) : (x.prompt ps).rate = x.rate := by
  simp only [DomSt.prompt, DomSt.encode]
  split <;> rfl

theorem besideLath_promptRise (s : State) (h : Half) (d : Dom) (ps : Rat) : s.BesideLath h (s.promptRise h d ps) := by
  simp only [State.promptRise]
  split
  · exact .refl h s
  · refine .evtIf (.evtIf (.count ?_ _ _) _ _ _) _ _ _
    exact (besideLath_modDom (t_prompt · ps) (rate_prompt · ps)).beside (besideLath_busNote _ h d)

theorem besideLath_promptRises (s : State) (h : Half) (ps : Rat) :
    s.BesideLath h (allDoms.foldl (fun a d => a.promptRise h d ps) s) :=
  besideLath_foldl (fun a d => besideLath_promptRise a h d ps) allDoms s

/-! ## Losses (R126 to R128, R134) -/

/-- The Lath in FAIL; `el` is the half's time. -/
def Lath.fail (el : Nat) (l : Lath) : Lath :=
  { l with st := .fail, frozen := true, awayAt := if l.st = .coast then l.awayAt else el }

theorem lathStep_lathFail (h : Half) (s : State) : s.LathStep h (Lath.fail (s.el0 h)) (lathFail h s) := by
  have htold := ((lathStep_modLath h (Lath.fail (s.el0 h)) s).lathEvt h evLathFail).fault (placeOf h) pgLath kClock
    (kindSev kClock) (Config.detectorOf pgLath kClock) 0
  exact htold.beside (besideLath_promptRises _ h _)

/-- Nothing is seen of MOSC any more; `inj` that a loss which its monitor reports may follow. -/
def Lath.unseen (inj : Bool) (l : Lath) : Lath :=
  { l with cls := 0, lossInj := inj, classified := false, primaryLock := false, qualWin := 0, qualified := false
           returnOk := false, windows := [] }

/-- Where the Lath goes without its primary source (R126, R128). -/
def Lath.afterLoss (el : Nat) (l : Lath) : Lath :=
  match l.st with
  | .returning => { l with st := .standby }
  | .primary => if l.xoOk then { l with st := .coast, frozen := true, awayAt := el, xoPrev := none } else l.fail el
  | _ => l

theorem lathStep_afterLoss {h : Half} {l : Lath} {s : State} (hst : l.st = (s.lath h).st) (hok : l.xoOk = (s.lath h).xoOk) :
    s.LathStep h (Lath.afterLoss (s.el0 h)) (afterLoss h l s) := by
  have hbeside := State.BesideLath.refl h s
  unfold afterLoss
  cases hl : l.st
  case returning => exact (lathStep_modLath h _ s).congr (by simp [Lath.afterLoss, ← hst, hl])
  case primary =>
    cases hx : l.xoOk
    · exact (lathStep_lathFail h s).congr (by simp [Lath.afterLoss, ← hst, hl, ← hok, hx])
    · have hcoast := lathStep_modLath h
        (fun x => { x with st := .coast, frozen := true, awayAt := s.el0 h, xoPrev := none }) s
      exact hcoast.congr (by simp [Lath.afterLoss, ← hst, hl, ← hok, hx])
  all_goals exact hbeside.congr (by simp [Lath.afterLoss, ← hst, hl])

section
variable {s : State} {h : Half}

/-- The loss `ev` can come: the primary line is locked, or MOSC is seen, or is lost by an injection that this loss does not
repeat. -/
def Lath.mayLose (ev : Nat) (inj : Bool) (l : Lath) : Bool :=
  if ev = evLockLost then l.primaryLock else l.cls != 0 || (l.lossInj && !inj)

/-- A loss is told by its event and its message, raises the domains' bounds, and then changes the Lath. -/
theorem loseMosc_of_mayLose {ev : Nat} {inj : Bool} (det : Nat) (hon : s.halfOn h = true)
    (hmay : (s.lath h).mayLose ev inj = true) : ∃ u, (s.lathEvt h ev).BesideLath h u ∧
      loseMosc h ev det inj s =
        afterLoss h (s.lath h) (u.modLath h (Lath.unseen (if ev = evLockLost then true else inj))) := by
  have hmsg : (s.lathEvt h ev).BesideLath h ((s.lathEvt h ev).lathFault h (det + h.ix.val)) :=
    State.LathStep.lathFault (State.BesideLath.refl h _) h _
  have hrun : (s.halfOn h && (s.lath h).mayLose ev inj) = true := by rw [hon, hmay, Bool.and_self]
  refine ⟨_, ?_, if_pos hrun⟩
  split
  · exact hmsg.beside (besideLath_promptRises _ h _)
  · exact hmsg

/-- What was seen is cleared, and the Lath goes where `Lath.afterLoss` says. -/
theorem loseMosc_spec {ev : Nat} {inj : Bool} (hev : ev < 8) (det : Nat) (hon : s.halfOn h = true)
    (hmay : (s.lath h).mayLose ev inj = true) :
    (loseMosc h ev det inj s).evtBit pgLath (lathBit h ev) = true ∧
      ∃ el, s.LathStep h (Lath.afterLoss el ∘ Lath.unseen (if ev = evLockLost then true else inj))
        (loseMosc h ev det inj s) := by
  obtain ⟨u, htold, hlose⟩ := loseMosc_of_mayLose det hon hmay
  have hstart : s.BesideLath h u := (State.LathStep.lathEvt (State.BesideLath.refl h s) h ev).beside htold
  have hclear := lathStep_modLath h (Lath.unseen (if ev = evLockLost then true else inj)) u
  have hleave := lathStep_afterLoss (l := s.lath h) (by rw [hclear.lath, hstart.lath]; rfl)
    (by rw [hclear.lath, hstart.lath]; rfl)
  rw [hlose]
  exact ⟨(hclear.trans hleave).evts _ _ (htold.evts _ _ (evtBit_lathEvt_self s h hev)), _,
    hstart.trans (hclear.trans hleave)⟩

/-- The state that the Lath goes to without its primary source (R126). -/
def Lath.modeAfterLoss (l : Lath) : LathMode :=
  match l.st with
  | .primary => if l.xoOk then .coast else .fail
  | .returning => .standby
  | x => x

/-- What a loss leaves of the Lath. -/
theorem afterLoss_unseen_spec (el : Nat) (inj : Bool) (l : Lath) :
    ((l.unseen inj).afterLoss el).cls = 0 ∧ ((l.unseen inj).afterLoss el).primaryLock = false ∧
      ((l.unseen inj).afterLoss el).qualified = false ∧
      ((l.unseen inj).afterLoss el).st = l.modeAfterLoss ∧
      (l.st = .primary → ((l.unseen inj).afterLoss el).frozen = true) := by
  unfold Lath.afterLoss Lath.modeAfterLoss
  cases hst : l.st
  case primary => cases hok : l.xoOk <;> simp [hst, hok, Lath.unseen, Lath.fail]
  all_goals simp [hst, Lath.unseen]

theorem moscLost_gives (hon : s.halfOn h = true) (hseen : (s.lath h).cls ≠ 0 ∨ (s.lath h).lossInj = true) :
    Gives (.moscLost h) s (fun t => t.evtBit pgLath (lathBit h evMoscLost) = true ∧ (t.lath h).cls = 0 ∧
      (t.lath h).primaryLock = false ∧ (t.lath h).qualified = false ∧
      (t.lath h).st = (s.lath h).modeAfterLoss ∧
      (∀ d, (t.dom h d).t = (s.dom h d).t ∧ (t.dom h d).rate = (s.dom h d).rate)) := by
  obtain ⟨htold, el, hstep⟩ := loseMosc_spec (ev := evMoscLost) (inj := false) (by decide) 0 hon
    (by simpa [Lath.mayLose, evMoscLost, evLockLost] using hseen)
  obtain ⟨hcls, hlock, hqual, hst, -⟩ := afterLoss_unseen_spec el false (s.lath h)
  refine (gives_iff _ _ (loseMosc h evMoscLost 0 false s) _ rfl).mpr ⟨htold, ?_⟩
  rw [hstep.lath]
  exact ⟨hcls, hlock, hqual, hst, hstep.times⟩

theorem lockLost_gives (hon : s.halfOn h = true) (hlocked : (s.lath h).primaryLock = true) :
    Gives (.lockLost h) s (fun t => t.evtBit pgLath (lathBit h evLockLost) = true ∧ (t.lath h).cls = 0 ∧
      (t.lath h).primaryLock = false ∧
      (t.lath h).st = (s.lath h).modeAfterLoss ∧
      ((s.lath h).st = .primary → (t.lath h).frozen = true)) := by
  obtain ⟨htold, el, hstep⟩ := loseMosc_spec (ev := evLockLost) (inj := false) (by decide) 2 hon hlocked
  obtain ⟨hcls, hlock, -, hst, hfrozen⟩ := afterLoss_unseen_spec el true (s.lath h)
  refine (gives_iff _ _ (loseMosc h evLockLost 2 false s) _ rfl).mpr ⟨htold, ?_⟩
  rw [hstep.lath]
  exact ⟨hcls, hlock, hst, hfrozen⟩

theorem moscLost_of_unseen (hcls : (s.lath h).cls = 0) (hinj : (s.lath h).lossInj = false) : moscLost h s = s :=
  if_neg (by simp [hcls, hinj, evMoscLost, evLockLost])

/-! ## XO falls (R124, R126) -/

/-- XO is no fallback any more; a Lath that runs on it, or is about to, fails. -/
def Lath.xoFall (el : Nat) (l : Lath) : Lath :=
  if l.st = .coast ∨ l.st = .standby ∨ l.st = .returning then { l with xoOk := false }.fail el else { l with xoOk := false }

theorem lathStep_xoFalls (h : Half) (s : State) : ∃ el, s.LathStep h (Lath.xoFall el) (xoFalls h s) := by
  have htold := ((lathStep_modLath h (fun l => { l with xoOk := false }) s).lathEvt h evXoBad).lathFault h (4 + h.ix.val)
  simp only [xoFalls]
  split
  · next hst =>
    have hfail := htold.trans (lathStep_lathFail h _)
    exact ⟨_, hfail.congr (if_pos hst)⟩
  · next hst => exact ⟨0, htold.congr (if_neg hst)⟩

theorem xoBad_of_ok (hon : s.halfOn h = true) (hlock : (s.lath h).standbyLock = true) (hok : (s.lath h).xoOk = true) :
    xoBad h s = xoFalls h (s.modLath h (fun l => { l with standbyLock := false, xoPrev := none })) := by
  simp [xoBad, hon, hlock, hok]

theorem xoBad_gives (hon : s.halfOn h = true) (hlock : (s.lath h).standbyLock = true) (hok : (s.lath h).xoOk = true) :
    Gives (.xoBad h) s (fun t => (t.lath h).standbyLock = false ∧ (t.lath h).xoOk = false ∧
      (t.lath h).st = (if (s.lath h).st = .coast ∨ (s.lath h).st = .standby ∨ (s.lath h).st = .returning then .fail
        else (s.lath h).st)) := by
  obtain ⟨el, hfall⟩ := lathStep_xoFalls h (s.modLath h (fun l => { l with standbyLock := false, xoPrev := none }))
  refine (gives_iff _ _ (xoBad h s) _ rfl).mpr ?_
  rw [xoBad_of_ok hon hlock hok, hfall.lath, lath_modLath_self, Lath.xoFall]
  split <;> exact ⟨rfl, rfl, rfl⟩

end

/-! ## Changes of source (R129, R131, R137, R138) -/

/-- A domain at a change of source. -/
def DomSt.onNewSource (y : Int) (rho unc : Rat) (x : DomSt) : DomSt := (x.replaceRates y).openTerm rho unc

theorem onNewSource_spec (y : Int) (rho unc : Rat) (x : DomSt) :
    (x.onNewSource y rho unc).t = x.t ∧ (x.onNewSource y rho unc).rate = satRate (rescale x.rate y) := by
  simp only [DomSt.onNewSource, DomSt.openTerm]
  split <;> exact ⟨rfl, rfl⟩

/-- A domain of a half at a change of source, with its holdover on the new oscillator; `was` is the state before. -/
def State.moveDom (was : State) (h : Half) (y : Int) (rho unc : Rat) (a : State) (d : Dom) : State :=
  let a1 := a.modDom h d (DomSt.onNewSource y rho unc)
  a1.modDom h d (fun x => { x with hold := x.hold.map (fun k =>
    a1.rebaseHold h k (rescaleQ (if k.fromOther then ((was.dom h d).heldRate : Rat) else was.holdRate h k) (y : Rat))) })

/-- The Lath after a change of source. -/
def Lath.onNewSource (y : Int) (rho : Rat) (offset : BitVec 10) (toPrim : Bool) (l : Lath) : Lath :=
  { l with src := if toPrim then 1 else 2, st := if toPrim then .primary else .standby, frozen := false,
           swCnt := l.swCnt + 1, lastDir := toPrim, resid := min 255 (ceilQ rho).toNat, offset := offset, ratio := y,
           samples := [], xoPrev := if toPrim && l.standbyLock then some 0 else none, windows := [], qualified := false,
           returnOk := false, qualWin := 0 }

/-- The residual phase that a change of source reports, ps (R132). -/
def residualPs (coastNs : Nat) : Rat := 5 + 20 * tenth 6 * ((coastNs * 1000 : Nat) : Rat)

section
variable {s : State} {h : Half} {y : Int}

/-- A change of source that no rate word bars: the Lath and each domain go over, then the slots, and the event tells of it. -/
theorem changeSource_of_inRange (hrange : ∀ d, (s.dom h d).wouldSaturate y = false) (unc : Rat) (coastNs : Nat)
    (offset : BitVec 10) (toPrim : Bool) : changeSource h y unc coastNs offset toPrim s =
      (((allDoms.foldl (s.moveDom h y (residualPs coastNs) unc)
        (s.modLath h (Lath.onNewSource y (residualPs coastNs) offset toPrim))).modHalf h (fun v =>
          { v with slots := v.slots.map (fun z => z.newGrid v.doms y), grid := v.grid * (1 + rateQ (y : Rat)) })).lathEvt h
            (if toPrim then evToPrimary else evToStandby)).count (cntHalf h 50) 1 := by
  have hsat : ¬ allDoms.any (fun d => (s.dom h d).wouldSaturate y) = true := by simp [hrange]
  simp only [changeSource]
  rw [if_neg hsat]
  rfl

theorem dom_moveDom_ne (was a : State) (rho unc : Rat) {d e : Dom} (he : e ≠ d) :
    (was.moveDom h y rho unc a d).dom h e = a.dom h e := by
  simp only [State.moveDom]
  rw [dom_modDom_ne _ _ _ he, dom_modDom_ne _ _ _ he]

theorem dom_moveDom_self (was a : State) (rho unc : Rat) (d : Dom) :
    ((was.moveDom h y rho unc a d).dom h d).t = (a.dom h d).t ∧
      ((was.moveDom h y rho unc a d).dom h d).rate = satRate (rescale (a.dom h d).rate y) := by
  simp only [State.moveDom]
  rw [dom_modDom_self, dom_modDom_self]
  exact onNewSource_spec y rho unc _

theorem lath_moveDom (was a : State) (rho unc : Rat) (d : Dom) : (was.moveDom h y rho unc a d).lath h = a.lath h := by
  simp [State.moveDom, State.lath, State.modDom]

/-- Every domain goes over once. -/
theorem foldl_moveDom_spec (was : State) (rho unc : Rat) (s : State) :
    (allDoms.foldl (was.moveDom h y rho unc) s).lath h = s.lath h ∧
      ∀ d, ((allDoms.foldl (was.moveDom h y rho unc) s).dom h d).t = (s.dom h d).t ∧
        ((allDoms.foldl (was.moveDom h y rho unc) s).dom h d).rate = satRate (rescale (s.dom h d).rate y) := by
  have hlath := List.foldlRecOn (motive := fun a => a.lath h = s.lath h) allDoms (was.moveDom h y rho unc) rfl
    fun a ha d _ => (lath_moveDom was a rho unc d).trans ha
  refine ⟨hlath, fun d => ?_⟩
  obtain ⟨a, -, hbefore, -, hafter⟩ := foldl_sees_once (g := was.moveDom h y rho unc) (R := fun _ _ => True)
    (look := fun a => a.dom h d) (l := allDoms) (d := d) (fun _ => trivial) (fun _ _ => trivial) (fun _ _ => trivial)
    (fun a e he => dom_moveDom_ne was a rho unc he.symm) (by decide) (by decide +revert) s
  obtain ⟨ht, hrate⟩ := dom_moveDom_self (h := h) (y := y) was a rho unc d
  exact ⟨by rw [hafter, ht, hbefore], by rw [hafter, hrate, hbefore]⟩

theorem changeSource_spec (hrange : ∀ d, (s.dom h d).wouldSaturate y = false) (unc : Rat) (coastNs : Nat)
    (offset : BitVec 10) (toPrim : Bool) :
    (changeSource h y unc coastNs offset toPrim s).lath h =
        (s.lath h).onNewSource y (residualPs coastNs) offset toPrim ∧
      ∀ d, ((changeSource h y unc coastNs offset toPrim s).dom h d).t = (s.dom h d).t ∧
        ((changeSource h y unc coastNs offset toPrim s).dom h d).rate = satRate (rescale (s.dom h d).rate y) := by
  have hstart := lathStep_modLath h (Lath.onNewSource y (residualPs coastNs) offset toPrim) s
  obtain ⟨hlath, hdoms⟩ := foldl_moveDom_spec (h := h) (y := y) s (residualPs coastNs) unc
    (s.modLath h (Lath.onNewSource y (residualPs coastNs) offset toPrim))
  rw [changeSource_of_inRange hrange]
  generalize hu : allDoms.foldl (s.moveDom h y (residualPs coastNs) unc) _ = u at hlath hdoms ⊢
  have htold : (u.modHalf h (fun v => { v with
      slots := v.slots.map (fun z => z.newGrid v.doms y), grid := v.grid * (1 + rateQ (y : Rat)) })).BesideLath h _ :=
    .count (.lathEvt (State.BesideLath.refl h _) h (if toPrim then evToPrimary else evToStandby)) (cntHalf h 50) 1
  refine ⟨?_, fun d => ?_⟩
  · rw [htold.lath, id, State.lath, half_modHalf_self]
    exact hlath.trans hstart.lath
  · obtain ⟨ht, hrate⟩ := htold.times d
    rw [ht, hrate, State.dom, half_modHalf_self]
    refine ⟨(hdoms d).1.trans (hstart.times d).1, (hdoms d).2.trans ?_⟩
    rw [(hstart.times d).2]

theorem toStandby_gives (hgrid : s.gridOn h = true) (hst : (s.lath h).st = .coast) (hok : (s.lath h).xoOk = true)
    (hrange : ∀ d, (s.dom h d).wouldSaturate ((s.lath h).xoY.getD 0) = false) (coastNs : Nat) (offset : BitVec 10) :
    Gives (.toStandby h coastNs offset) s (fun t => (t.lath h).st = .standby ∧ (t.lath h).src = 2 ∧
      (t.lath h).swCnt = (s.lath h).swCnt + 1 ∧ (t.lath h).offset = offset ∧
      (∀ d, (t.dom h d).t = (s.dom h d).t ∧
        (t.dom h d).rate = satRate (rescale (s.dom h d).rate ((s.lath h).xoY.getD 0)))) := by
  have hhand : toStandby h coastNs offset s = changeSource h ((s.lath h).xoY.getD 0)
      (((s.lath h).xoUnc.toNat : Rat) * tenth 15) coastNs offset false s := if_pos (by simp [hgrid, hst, hok])
  obtain ⟨hlath, hdoms⟩ := changeSource_spec hrange (((s.lath h).xoUnc.toNat : Rat) * tenth 15) coastNs offset false
  refine (gives_iff _ _ (toStandby h coastNs offset s) _ rfl).mpr ?_
  rw [hhand, hlath]
  exact ⟨rfl, rfl, rfl, rfl, hdoms⟩

theorem toPrimary_gives (hgrid : s.gridOn h = true) (hst : (s.lath h).st = .returning) (hqual : (s.lath h).qualified = true)
    (hmode : s.bitAt pgLath (0x040 + 4 * h.ix.val) 4 = true → (s.lath h).returnOk = true)
    (hrange : ∀ d, (s.dom h d).wouldSaturate (s.lath h).moscY = false) (offset : BitVec 10) :
    Gives (.toPrimary h offset) s (fun t => (t.lath h).st = .primary ∧ (t.lath h).src = 1 ∧
      (t.lath h).swCnt = (s.lath h).swCnt + 1 ∧
      (∀ d, (t.dom h d).t = (s.dom h d).t ∧
        (t.dom h d).rate = satRate (rescale (s.dom h d).rate (s.lath h).moscY))) := by
  have hret : toPrimary h offset s = changeSource h (s.lath h).moscY (s.lath h).moscUnc 0 offset true s := if_pos (by
    cases hbit : s.bitAt pgLath (0x040 + 4 * h.ix.val) 4 with
    | true => simp [hgrid, hst, hqual, hmode hbit]
    | false => simp [hgrid, hst, hqual])
  obtain ⟨hlath, hdoms⟩ := changeSource_spec hrange (s.lath h).moscUnc 0 offset true
  refine (gives_iff _ _ (toPrimary h offset s) _ rfl).mpr ?_
  rw [hret, hlath]
  exact ⟨rfl, rfl, rfl, hdoms⟩

/-! ## RETURN_x (R137, R139) -/

theorem lathReturnCmd_gives (hgrid : s.gridOn h = true) (hst : (s.lath h).st = .returning)
    (hqual : (s.lath h).qualified = true) : Gives (.lathReturnCmd h) s (fun t => (t.lath h).returnOk = true) := by
  have hnote : lathReturnCmd h s = s.modLath h (fun x => { x with returnOk := true }) := if_pos (by simp [hgrid, hst, hqual])
  refine (gives_iff _ _ (lathReturnCmd h s) _ rfl).mpr ?_
  rw [hnote, lath_modLath_self]

theorem lathReturnCmd_of_other (hno : (s.lath h).qualified = false ∨ (s.lath h).st ≠ .returning) : lathReturnCmd h s = s := by
  refine if_neg ?_
  rcases hno with hqual | hst
  · simp [hqual]
  · simp [hst]

end

/-- Settles O24: a loss or a fall of XO moves the Lath alone, as `Lath.afterLoss` and `Lath.xoFall` say, and a change of source
replaces the rate word of each domain once. -/
theorem lathLosesAndReturns : Obligations.LathLosesAndReturns := by
  intro s h coastNs offset
  exact ⟨moscLost_gives, lockLost_gives, fun hcls hinj => ⟨_, rfl, moscLost_of_unseen hcls hinj⟩, xoBad_gives,
    fun hgrid hst hok hrange => toStandby_gives hgrid hst hok hrange coastNs offset,
    fun hgrid hst hqual hmode hrange => toPrimary_gives hgrid hst hqual hmode hrange offset,
    lathReturnCmd_gives, fun hno => ⟨_, rfl, lathReturnCmd_of_other hno⟩⟩

end Sys2Proof.Machine
end

section
/-!
PROOFS. Scope: a Lath starts in order, from the end of its half's reset to lock (O23).
-/

namespace Sys2Proof.Machine

/-! ## The common die's clocks leave the halves but for slots that lose their signal -/

theorem dieWork_settleConflicts (s : State) : s.DieWork (settleConflicts s) := by
  refine dieWork_foldl (fun a p => ?_) allPorts s
  dsimp only
  split
  · exact .refl a
  · have hmark := (State.DieWork.refl a).modPort p (fun x => { x with conflict := s.conflictNow p })
    split
    · exact (hmark.setEvt _ _).trans (dieWork_stopPort p _)
    · exact hmark

theorem half_settlePorts (s : State) (g : Half) : ∃ v, (settlePorts s).half g = { s.half g with slots := v } := by
  obtain ⟨v, hv⟩ := (dieWork_settleConflicts s).slots g
  exact ⟨v, (half_eq_of_halves (by simp [settlePorts]) g).trans hv⟩

theorem half_commonClock (s : State) (h g : Half) : ∃ v, (s.commonClock h).half g = { s.half g with slots := v } := by
  unfold State.commonClock
  split
  · exact ⟨(s.half g).slots, rfl⟩
  · generalize hu : jetsOn _ = u
    have hjets : u.halves = s.halves := by rw [← hu]; simp
    obtain ⟨v, hv⟩ := half_settlePorts u g
    exact ⟨v, by rw [hv, half_eq_of_halves hjets]⟩

theorem commonClock_keeps_lath_role (s : State) (h g : Half) :
    (s.commonClock h).lath g = s.lath g ∧ ((s.commonClock h).half g).role = (s.half g).role := by
  obtain ⟨v, hv⟩ := half_commonClock s h g
  exact ⟨(congrArg HalfSt.lath hv :), (congrArg HalfSt.role hv :)⟩

/-! ## The role at Lath lock (09 R285) -/

theorem lath_newHalf (s : State) (h : Half) : (newHalf s h).lath h = s.lath h := by
  simp [newHalf, State.lath]

theorem lath_freshStart (s : State) (h : Half) : (freshStart s h).lath h = s.lath h := by
  rw [← lath_newHalf s h]
  exact lath_congr (by simp [freshStart])

/-- A half that locks joins by a test beside an established peer, and publishes alone otherwise; its Lath stands. -/
theorem lockRole_spec (s : State) (h : Half) : (lockRole s h).lath h = s.lath h ∧
    ((lockRole s h).half h).role = (if s.established h.peer then .test else .solo) := by
  have hstart : (if s.publishing h.peer then newHalf s h else freshStart s h).lath h = s.lath h := by
    split
    · exact lath_newHalf s h
    · exact lath_freshStart s h
  simp only [lockRole]
  split <;> rw [State.lath, half_modHalf_self] <;> exact ⟨hstart, rfl⟩

theorem established_congr {s t : State} {g : Half} (hpwr : t.pwr = s.pwr) (hhalf : t.half g = s.half g) :
    t.established g = s.established g := by
  simp [State.established, State.publishing, State.dom, hpwr, hhalf]

/-! ## The steps of the sequence (R118 to R122) -/

section
variable {s : State} {h : Half}

theorem halfResetEnd_gives (hheld : s.pwr.half.of h = .held) (hreset : s.pwr.resetLow = false) :
    Gives (.halfResetEnd h) s (fun t => t.pwr.half.of h = .on ∧ t.half h = { role := .lath } ∧
      t.half h.peer = s.half h.peer ∧ t.pwr.half.of h.peer = s.pwr.half.of h.peer) := by
  have hpwr : (halfResetEnd h s).pwr.half = s.pwr.half.set h .on := by
    simp [halfResetEnd, hheld, hreset, State.settleUp, apply_ite]
  have hhalves : (halfResetEnd h s).halves = s.halves.set h { role := .lath } := by
    simp [halfResetEnd, hheld, hreset]
  refine (gives_iff _ _ (halfResetEnd h s) _ rfl).mpr ?_
  simp [State.half, hpwr, hhalves]

/-- The Lath once its standby line has locked (R120, R124). -/
def Lath.onStandbyLock (l : Lath) : Lath :=
  let l1 := { l with standbyLock := true, xoPrev := none, src := if l.src = 0 then 2 else l.src }
  { l1 with xoOk := l1.xoGood }

theorem standbyLineLock_gives (hon : s.halfOn h = true) (hopen : (s.lath h).standbyLock = false) :
    Gives (.standbyLineLock h) s (fun t => (t.lath h).standbyLock = true ∧ (t.lath h).st = (s.lath h).st ∧
      (t.lath h).src = (if (s.lath h).src = 0 then 2 else (s.lath h).src) ∧ t.half h.peer = s.half h.peer) := by
  have hlock : standbyLineLock h s = s.modLath h Lath.onStandbyLock := if_pos (by simp [hon, hopen])
  refine (gives_iff _ _ (standbyLineLock h s) _ rfl).mpr ?_
  rw [hlock, lath_modLath_self, half_modLath_peer]
  exact ⟨rfl, rfl, rfl, rfl⟩

theorem xoLockTimeout_gives (hon : s.halfOn h = true) (hst : (s.lath h).st = .acquire)
    (hopen : (s.lath h).standbyLock = false) (hfirst : (s.lath h).xoTimeout = false) :
    Gives (.xoLockTimeout h) s (fun t => (t.lath h).xoTimeout = true ∧ (t.lath h).xoOk = false ∧
      t.evtBit pgLath (lathBit h evXoBad) = true) := by
  have hout : xoLockTimeout h s =
      ((s.modLath h (fun x => { x with xoTimeout := true, xoOk := false })).lathEvt h evXoBad).lathFault h (4 + h.ix.val) :=
    if_pos (by simp [hon, hst, hopen, hfirst])
  have hstep := ((lathStep_modLath h (fun x => { x with xoTimeout := true, xoOk := false }) s).lathEvt h
    evXoBad).lathFault h (4 + h.ix.val)
  have hmsg := State.LathStep.lathFault (State.BesideLath.refl h
    ((s.modLath h (fun x => { x with xoTimeout := true, xoOk := false })).lathEvt h evXoBad)) h (4 + h.ix.val)
  refine (gives_iff _ _ (xoLockTimeout h s) _ rfl).mpr ?_
  rw [hout, hstep.lath]
  exact ⟨rfl, rfl, hmsg.evts _ _ (evtBit_lathEvt_self _ h (by decide))⟩

/-- The Lath once MOSC has been classified. -/
def Lath.classify (cls : Nat) (l : Lath) : Lath := { l with cls := cls, classified := true, lossInj := false }

theorem moscClassify_gives (hz : Nat) (hon : s.halfOn h = true) (hst : (s.lath h).st = .acquire)
    (hready : (s.lath h).standbyLock = true ∨ (s.lath h).xoTimeout = true) :
    Gives (.moscClassify h hz) s (fun t => (t.lath h).cls = s.moscClass h hz ∧ (t.lath h).classified = true ∧
      (t.lath h).st = .acquire) := by
  have hclass : moscClassify h hz s = s.modLath h (Lath.classify (s.moscClass h hz)) :=
    if_pos (by simpa [hon, hst] using hready)
  refine (gives_iff _ _ (moscClassify h hz s) _ rfl).mpr ?_
  rw [hclass, lath_modLath_self]
  exact ⟨rfl, rfl, hst⟩

theorem moscReclassify_gives (hz : Nat) (hon : s.halfOn h = true) (hst : (s.lath h).st = .standby)
    (habsent : (s.lath h).cls = 0) :
    Gives (.moscReclassify h hz) s (fun t => (t.lath h).cls = s.moscClass h hz ∧ (t.lath h).st = .standby) := by
  have hclass : moscReclassify h hz s = s.modLath h (Lath.classify (s.moscClass h hz)) :=
    if_pos (by simp [hon, hst, habsent])
  refine (gives_iff _ _ (moscReclassify h hz s) _ rfl).mpr ?_
  rw [hclass, lath_modLath_self]
  exact ⟨rfl, hst⟩

theorem primaryLineLock_gives (hon : s.halfOn h = true) (hcls : (s.lath h).cls ≠ 0)
    (hopen : (s.lath h).primaryLock = false) :
    Gives (.primaryLineLock h) s (fun t =>
      ((s.lath h).st = .acquire → (t.lath h).primaryLock = true ∧ (t.lath h).st = .acquire) ∧
      ((s.lath h).st = .standby → (t.lath h).primaryLock = true ∧ (t.lath h).st = .returning ∧
        (t.lath h).qualified = false)) := by
  have hrun : (s.halfOn h && (s.lath h).cls != 0 && !(s.lath h).primaryLock) = true := by simp [hon, hcls, hopen]
  refine (gives_iff _ _ (primaryLineLock h s) _ rfl).mpr ⟨fun hst => ?_, fun hst => ?_⟩
  · have hlock : primaryLineLock h s = (s.draw 65536).2.modLath h (fun x =>
        { x with primaryLock := true, ctrl := BitVec.ofNat 16 (s.draw 65536).1 }) := by
      simp only [primaryLineLock, if_pos hrun, hst]
    rw [hlock, lath_modLath_self]
    exact ⟨rfl, hst⟩
  · have hlock : primaryLineLock h s = s.modLath h (fun x => { x with
        primaryLock := true, st := .returning, moscWin := 0, qualWin := 0, qualified := false, returnOk := false
        windows := [] }) := by
      simp only [primaryLineLock, if_pos hrun, hst]
    rw [hlock, lath_modLath_self]
    exact ⟨rfl, rfl, rfl⟩

/-- The Lath at lock: on the primary line where `prim`, else on the standby line (R120, R126). -/
def Lath.lockOn (prim : Bool) (l : Lath) : Lath :=
  { l with locked := true, st := if prim then .primary else .standby, src := if prim then 1 else 2
           xoPrev := if prim && l.standbyLock then some 0 else none }

/-- The sequence has ended with a source: the primary line of a MOSC that is present, or the standby line where MOSC is absent. -/
def Lath.hasSource (l : Lath) : Prop :=
  l.cls ≠ 0 ∧ l.primaryLock = true ∨ l.cls = 0 ∧ l.classified = true ∧ l.standbyLock = true

theorem lathLock_of_hasSource (hon : s.halfOn h = true) (hst : (s.lath h).st = .acquire)
    (hopen : (s.lath h).locked = false) (hsrc : (s.lath h).hasSource) :
    lathLock h s =
      ((lockRole (s.modLath h (Lath.lockOn ((s.lath h).cls != 0))) h).commonClock h).reachStep 7 := by
  have hprim : ((s.lath h).primaryLock && (s.lath h).cls != 0) = ((s.lath h).cls != 0) := by
    rcases hsrc with ⟨-, hlock⟩ | ⟨hcls, -⟩
    · simp [hlock]
    · simp [hcls]
  have hrun : (s.halfOn h && (s.lath h).st == .acquire && !(s.lath h).locked && (((s.lath h).cls != 0) ||
      ((s.lath h).standbyLock && (s.lath h).classified && (s.lath h).cls == 0))) = true := by
    rcases hsrc with ⟨hcls, -⟩ | ⟨hcls, hclass, hlock⟩
    · simp [hon, hst, hopen, hcls]
    · simp [hon, hst, hopen, hcls, hclass, hlock]
  simp only [lathLock, hprim]
  rw [if_pos hrun]
  rfl

theorem lathLock_gives (hon : s.halfOn h = true) (hst : (s.lath h).st = .acquire) (hopen : (s.lath h).locked = false)
    (hsrc : (s.lath h).hasSource) :
    Gives (.lathLock h) s (fun t => (t.lath h).locked = true ∧
      (t.lath h).st = (if (s.lath h).cls = 0 then .standby else .primary) ∧
      (t.lath h).src = (if (s.lath h).cls = 0 then 2 else 1) ∧
      (t.half h).role = (if s.established h.peer then .test else .solo)) := by
  obtain ⟨hlath, hrole⟩ := lockRole_spec (s.modLath h (Lath.lockOn ((s.lath h).cls != 0))) h
  rw [lath_modLath_self] at hlath
  rw [established_congr (s := s) (by simp) (half_modLath_peer s h _)] at hrole
  obtain ⟨hlathc, hrolec⟩ := commonClock_keeps_lath_role (lockRole (s.modLath h (Lath.lockOn ((s.lath h).cls != 0))) h) h h
  have hend : (lathLock h s).lath h = (s.lath h).lockOn ((s.lath h).cls != 0) := by
    rw [lathLock_of_hasSource hon hst hopen hsrc]
    exact hlathc.trans hlath
  have hjoin : ((lathLock h s).half h).role = (if s.established h.peer then .test else .solo) := by
    rw [lathLock_of_hasSource hon hst hopen hsrc]
    exact hrolec.trans hrole
  refine (gives_iff _ _ (lathLock h s) _ rfl).mpr ?_
  rw [hend, hjoin]
  refine ⟨rfl, ?_, ?_, rfl⟩
  · by_cases hcls : (s.lath h).cls = 0 <;> simp [Lath.lockOn, hcls]
  · by_cases hcls : (s.lath h).cls = 0 <;> simp [Lath.lockOn, hcls]

theorem lathAcquireRetry_gives (hon : s.halfOn h = true) (hst : (s.lath h).st = .acquire)
    (hopen : (s.lath h).locked = false) (hxo : (s.lath h).standbyLock = false) (hclass : (s.lath h).classified = true)
    (hcls : (s.lath h).cls = 0) :
    Gives (.lathAcquireRetry h) s (fun t => (t.lath h).classified = false ∧ (t.lath h).primaryLock = false ∧
      (t.lath h).st = .acquire ∧ (t.lath h).locked = false) := by
  have hretry : lathAcquireRetry h s = (s.modLath h (fun x => { x with classified := false, primaryLock := false })).fault
      (placeOf h) pgLath kClock (kindSev kClock) (Config.detectorOf pgLath kClock) 0 :=
    if_pos (by simp [hon, hst, hopen, hxo, hclass, hcls])
  have hstep := (lathStep_modLath h (fun x => { x with classified := false, primaryLock := false }) s).fault
    (placeOf h) pgLath kClock (kindSev kClock) (Config.detectorOf pgLath kClock) 0
  refine (gives_iff _ _ (lathAcquireRetry h s) _ rfl).mpr ?_
  rw [hretry, hstep.lath]
  exact ⟨rfl, rfl, hst, hopen⟩

end

/-- Settles O23: each step of the sequence changes the half's Lath as its own lemma says, and at lock the half's role is that of
`lockRole`. -/
theorem lathStartsInOrder : Obligations.LathStartsInOrder := by
  intro s h hz
  exact ⟨halfResetEnd_gives, standbyLineLock_gives, xoLockTimeout_gives, moscClassify_gives hz, moscReclassify_gives hz,
    primaryLineLock_gives, lathLock_gives, lathAcquireRetry_gives⟩

end Sys2Proof.Machine
end

section
/-!
PROOFS. Scope: what happens to a slot waits for its boundary, and slot commands act on every half (O30).
-/

namespace Sys2Proof.Machine

/-! ## What happens between boundaries is noted (05 R158 to R160) -/

/-- A command that only notes something for a slot's boundary leaves the slot's state and every other slot. -/
theorem noted_gives {c : Instr} {s : State} {h : Half} {n : SlotNo} {f : SlotSt → SlotPend} {P : SlotPend → Prop} {st : Nat}
    (hc : exec c s = .next (s.modSlot h n (fun z => { z with pend := f z }))) (hP : P (f (s.slot h n)))
    (hst : (s.slot h n).st = st) :
    Gives c s (fun t => P (t.slot h n).pend ∧ (t.slot h n).st = st ∧ ∀ m, m ≠ n → t.slot h m = s.slot h m) := by
  refine ⟨_, hc, ?_, ?_, fun m hm => slot_modSlot_ne _ _ _ hm⟩
  · rw [slot_modSlot_self]; exact hP
  · rw [slot_modSlot_self]; exact hst

section
variable {s : State} {h : Half} {n : SlotNo}

theorem signalLost_gives (hon : s.halfOn h = true) (hst : (s.slot h n).st ≠ 0) :
    Gives (.signalLost h n) s (fun t => (t.slot h n).pend.lost = true ∧ (t.slot h n).st = (s.slot h n).st ∧
      ∀ m, m ≠ n → t.slot h m = s.slot h m) :=
  noted_gives (P := (·.lost = true)) (congrArg Host.Outcome.next (if_pos hon)) (by simp [hst]) rfl

theorem signalPresent_gives (hg : s.gridOn h = true) (hen : (s.page (pgRs n)).en = true)
    (hnew : (s.slot h n).present = false) (hok : s.presenceOk h n = true) :
    Gives (.signalPresent h n) s (fun t => (t.slot h n).pend.present = true ∧ (t.slot h n).st = (s.slot h n).st ∧
      ∀ m, m ≠ n → t.slot h m = s.slot h m) :=
  noted_gives (P := (·.present = true)) (congrArg Host.Outcome.next (if_pos (by simp [hg, hen, hnew, hok]))) rfl rfl

theorem qualTimeElapsed_gives (hg : s.gridOn h = true) (hst : (s.slot h n).st = 2) :
    Gives (.qualTimeElapsed h n) s (fun t => (t.slot h n).pend.qual = true ∧ (t.slot h n).st = 2 ∧
      ∀ m, m ≠ n → t.slot h m = s.slot h m) :=
  noted_gives (P := (·.qual = true)) (congrArg Host.Outcome.next (if_pos (by simp [hg, hst]))) rfl hst

theorem disqHoldElapsed_gives (hg : s.gridOn h = true) (hst : (s.slot h n).st = 5) :
    Gives (.disqHoldElapsed h n) s (fun t => (t.slot h n).pend.hold = true ∧ (t.slot h n).st = 5 ∧
      ∀ m, m ≠ n → t.slot h m = s.slot h m) :=
  noted_gives (P := (·.hold = true)) (congrArg Host.Outcome.next (if_pos (by simp [hg, hst]))) rfl hst

theorem agreeDwellElapsed_gives (hg : s.gridOn h = true) (hst : (s.slot h n).st = 4) :
    Gives (.agreeDwellElapsed h n) s (fun t => (t.slot h n).pend.agree = true ∧ (t.slot h n).st = 4 ∧
      ∀ m, m ≠ n → t.slot h m = s.slot h m) :=
  noted_gives (P := (·.agree = true)) (congrArg Host.Outcome.next (if_pos (by simp [hg, hst]))) rfl hst

end

/-! ## Work on one half's slots and domains -/

/-- `t` differs from `s` on half `h` alone, and no half's grid starts or stops. -/
structure State.HalfWork (h : Half) (s t : State) : Prop where
  grid : ∀ g, t.gridOn g = s.gridOn g
  other : ∀ g, g ≠ h → t.half g = s.half g

theorem State.HalfWork.refl {h : Half} (s : State) : s.HalfWork h s := ⟨fun _ => rfl, fun _ _ => rfl⟩

theorem State.HalfWork.trans {h : Half} {s t u : State} (a : s.HalfWork h t) (b : t.HalfWork h u) : s.HalfWork h u :=
  ⟨fun g => (b.grid g).trans (a.grid g), fun g hg => (b.other g hg).trans (a.other g hg)⟩

theorem halfWork_foldl {α : Type} {h : Half} {f : State → α → State} (hf : ∀ (a : State) x, a.HalfWork h (f a x)) (l : List α)
    (s : State) : s.HalfWork h (l.foldl f s) :=
  List.foldlRecOn l f (.refl s) fun b hb x _ => hb.trans (hf b x)

theorem halfWork_modHalf {s : State} {h : Half} {f : HalfSt → HalfSt} (hf : ∀ x, (f x).lath = x.lath := by intro; rfl) :
    s.HalfWork h (s.modHalf h f) where
  grid g := by
    by_cases hg : g = h
    · subst hg; simp [State.gridOn, State.halfOn, hf]
    · simp [State.gridOn, State.halfOn, half_modHalf_ne _ _ hg]
  other g hg := half_modHalf_ne _ _ hg

/-- Work that comes down to work on a half, with events, counts and start-up steps besides. -/
theorem State.HalfWork.of_halves {h : Half} {s t u : State} (a : s.HalfWork h t) (hhalves : u.halves = t.halves)
    (hpwr : u.pwr.half = t.pwr.half) : s.HalfWork h u where
  grid g := by
    rw [← a.grid g]
    simp [State.gridOn, State.halfOn, hpwr, half_of_halves hhalves]
  other g hg := (half_of_halves hhalves g).trans (a.other g hg)

theorem halfWork_modSlot {s : State} {h : Half} (n : SlotNo) (f : SlotSt → SlotSt) : s.HalfWork h (s.modSlot h n f) :=
  halfWork_modHalf

theorem halfWork_refreshScales (s : State) (h : Half) : s.HalfWork h (s.refreshScales h) := by
  refine halfWork_foldl (fun a n => halfWork_foldl (fun b d => ?_) _ a) _ s
  dsimp only
  split
  · exact .refl b
  · exact halfWork_modSlot n _

/-- The work changes of a slot at most what it holds by domain. -/
def State.DomsAlone (h : Half) (n : SlotNo) (s t : State) : Prop := ∃ v, t.slot h n = { s.slot h n with dom := v }

theorem State.DomsAlone.trans {h : Half} {n : SlotNo} {s t u : State} (a : s.DomsAlone h n t) (b : t.DomsAlone h n u) :
    s.DomsAlone h n u := by
  obtain ⟨v, hv⟩ := a
  obtain ⟨w, hw⟩ := b
  exact ⟨w, by rw [hw, hv]⟩

theorem domsAlone_modSd (s : State) (h : Half) (n m : SlotNo) (d : Dom) (f : SlotDom → SlotDom) :
    s.DomsAlone h n (s.modSd h m d f) := by
  by_cases hm : n = m
  · subst hm
    exact ⟨_, slot_modSlot_self _ _ _ _⟩
  · exact ⟨_, slot_modSlot_ne _ _ _ hm⟩

theorem domsAlone_refreshScales (s : State) (h : Half) (n : SlotNo) : s.DomsAlone h n (s.refreshScales h) := by
  refine List.foldlRecOn allSlots _ (motive := s.DomsAlone h n) ⟨_, rfl⟩ fun a ha m _ => ?_
  refine List.foldlRecOn (s.slotDoms m) _ (motive := s.DomsAlone h n) ha fun b hb d _ => ?_
  dsimp only
  split
  · exact hb
  · exact hb.trans (domsAlone_modSd b h n m d _)

/-! ## A slot enters a state (05 R157, R159) -/

/-- Work on one half that leaves its slots but one. -/
structure State.OneSlot (h : Half) (n : SlotNo) (s t : State) : Prop extends State.HalfWork h s t where
  slots : ∀ m, m ≠ n → t.slot h m = s.slot h m

theorem State.OneSlot.refl {h : Half} {n : SlotNo} (s : State) : s.OneSlot h n s := ⟨.refl s, fun _ _ => rfl⟩

theorem State.OneSlot.trans {h : Half} {n : SlotNo} {s t u : State} (a : s.OneSlot h n t) (b : t.OneSlot h n u) :
    s.OneSlot h n u :=
  ⟨a.toHalfWork.trans b.toHalfWork, fun m hm => (b.slots m hm).trans (a.slots m hm)⟩

theorem State.OneSlot.of_halves {h : Half} {n : SlotNo} {s t u : State} (a : s.OneSlot h n t) (hhalves : u.halves = t.halves)
    (hpwr : u.pwr.half = t.pwr.half) : s.OneSlot h n u :=
  ⟨a.toHalfWork.of_halves hhalves hpwr, fun m hm => (slot_of_halves hhalves h m).trans (a.slots m hm)⟩

theorem oneSlot_modSlot (s : State) (h : Half) (n : SlotNo) (f : SlotSt → SlotSt) : s.OneSlot h n (s.modSlot h n f) :=
  ⟨halfWork_modSlot n f, fun _ hm => slot_modSlot_ne _ _ _ hm⟩

/-- A slot that enters a state is in it, and no other slot changes. -/
theorem enterSlot_spec (s : State) (h : Half) (n : SlotNo) (st cause : Nat) :
    s.OneSlot h n (s.enterSlot h n st cause) ∧ ((s.enterSlot h n st cause).slot h n).st = st := by
  unfold State.enterSlot
  extract_lets x s0 c s1 s2 armed s3 s4
  have h0 : s.OneSlot h n s0 := (State.OneSlot.refl s).of_halves (by simp [s0]) (by simp [s0])
  have h1 : s0.OneSlot h n s1 ∧ (s1.slot h n).st = st := ⟨oneSlot_modSlot _ h n _, by rw [slot_modSlot_self]⟩
  have h2 : s1.OneSlot h n s2 ∧ (s2.slot h n).st = (s1.slot h n).st := by
    unfold s2
    split_ifs
    · exact ⟨oneSlot_modSlot s1 h n fun z => { z with dom := Vector.ofFn fun d => freshDom (s1.dom h d) (z.dom.get d) },
        by simp [State.slot]⟩
    · exact ⟨oneSlot_modSlot s1 h n _, by rw [slot_modSlot_self]⟩
    · exact ⟨.refl s1, rfl⟩
  have hhalves : s4.halves = s2.halves := by simp [s4, s3, State.evtH]
  have hpwr : s4.pwr.half = s2.pwr.half := by
    simp only [s4, s3, State.evtH, keeps_evtIf, keeps_count]
    split <;> rfl
  refine ⟨((h0.trans h1.1).trans h2.1).of_halves (by simp [hhalves]) (by simp [hpwr]), ?_⟩
  rw [slot_of_halves (s := s2) (by simp [hhalves]), h2.2, h1.2]

/-! ## ADOPT and REQUAL act on every half that runs (05 R159, R173) -/

theorem halfWork_adoptAct (h : Half) (n : SlotNo) (s : State) : s.HalfWork h (adoptAct h n s) := by
  simp only [adoptAct]
  split
  · refine .trans (.trans (.trans (enterSlot_spec s h n 3 0).1.toHalfWork (halfWork_modSlot n _))
      (halfWork_foldl (fun a d => halfWork_modHalf) _ _)) (halfWork_foldl (fun a i => ?_) _ _)
    split
    · exact (enterSlot_spec a h i 4 11).1.toHalfWork
    · exact .refl a
  · exact .refl s

/-- The mark of an adoption on domains leaves the slots. -/
theorem slot_markAdopted (h : Half) (n : SlotNo) (l : List Dom) (s : State) :
    (l.foldl (fun a d => a.modDom h d (fun y => { y with adopted := true })) s).slot h n = s.slot h n :=
  List.foldlRecOn l _ (motive := fun a : State => a.slot h n = s.slot h n) rfl fun a ha d _ => by
    rw [← ha, State.slot, State.modDom, half_modHalf_self, State.slot]

/-- Other slots that become DISAGREEING leave the slot adopted. -/
theorem slot_othersDisagree (h : Half) (n : SlotNo) (p : SlotNo → Bool) (s : State) :
    (allSlots.foldl (fun a i => if i != n && p i then a.enterSlot h i 4 11 else a) s).slot h n = s.slot h n :=
  List.foldlRecOn allSlots _ (motive := fun a : State => a.slot h n = s.slot h n) rfl fun a ha i _ => by
    by_cases hi : n = i
    · simpa [hi] using ha
    · rw [← ha]
      split
      · exact (enterSlot_spec a h i 4 11).1.slots n hi
      · rfl

theorem slot_adoptAct {s : State} {h : Half} {n : SlotNo} (hst : (s.slot h n).st = 4) :
    ((adoptAct h n s).slot h n).st = 3 ∧ ((adoptAct h n s).slot h n).adopting = true := by
  simp only [adoptAct, if_pos hst]
  rw [slot_othersDisagree, slot_markAdopted, slot_modSlot_self]
  exact ⟨(enterSlot_spec s h n 3 0).2, rfl⟩

theorem halfWork_requalAct (h : Half) (n : SlotNo) (s : State) : s.HalfWork h (requalAct h n s) := by
  unfold requalAct
  split
  · exact (enterSlot_spec s h n 2 0).1.toHalfWork.trans (halfWork_modSlot n _)
  · exact .refl s

theorem slot_requalAct {s : State} {h : Half} {n : SlotNo} (hst : (s.slot h n).st = 5) :
    ((requalAct h n s).slot h n).st = 2 ∧ ((requalAct h n s).slot h n).latch = false := by
  rw [requalAct, if_pos hst, slot_modSlot_self]
  exact ⟨(enterSlot_spec s h n 2 0).2, rfl⟩

/-- A command that works half by half, each half's scales following, is seen on a half that runs as its work there. -/
theorem slot_onHalves {act : Half → State → State}
    (hact : ∀ k (a : State), a.HalfWork k (act k a)) {s : State} {h : Half}
    (hg : s.gridOn h = true) (n : SlotNo) :
    ∃ a v, a.slot h n = s.slot h n ∧
      (allHalves.foldl (fun a k => if a.gridOn k then (act k a).refreshScales k else a) s).slot h n =
        { (act h a).slot h n with dom := v } := by
  have hwork : ∀ (a : State) k, a.HalfWork k (if a.gridOn k then (act k a).refreshScales k else a) := fun a k => by
    split
    · exact (hact k a).trans (halfWork_refreshScales _ k)
    · exact .refl a
  obtain ⟨a, hgrid, hhalf, -, hend⟩ := foldl_sees_once
    (g := fun (a : State) k => if a.gridOn k then (act k a).refreshScales k else a)
    (R := fun a b : State => ∀ g, b.gridOn g = a.gridOn g) (look := fun a : State => a.half h) (l := allHalves) (d := h)
    (fun _ _ => rfl) (fun a b g => (b g).trans (a g)) (fun a k => (hwork a k).grid)
    (fun a k hk => (hwork a k).other h hk.symm) (by decide) (by cases h <;> decide) s
  obtain ⟨v, hv⟩ := domsAlone_refreshScales (act h a) h n
  have hon : a.gridOn h = true := (hgrid h).trans hg
  rw [if_pos hon] at hend
  exact ⟨a, v, congrArg (fun x => x.slots.get n) hhalf, (congrArg (fun x => x.slots.get n) hend).trans hv⟩

section
variable {s : State} {h : Half} {n : SlotNo}

theorem adopt_gives (hg : s.gridOn h = true) (hst : (s.slot h n).st = 4) :
    Gives (.adopt n) s (fun t => (t.slot h n).st = 3 ∧ (t.slot h n).adopting = true) := by
  obtain ⟨a, v, ha, hslot⟩ := slot_onHalves (fun k => halfWork_adoptAct k n) hg n
  refine (gives_iff _ _ (adopt n s) _ rfl).mpr ?_
  rw [adopt, hslot]
  exact slot_adoptAct (ha ▸ hst)

theorem requal_gives (hg : s.gridOn h = true) (hst : (s.slot h n).st = 5) :
    Gives (.requal n) s (fun t => (t.slot h n).st = 2 ∧ (t.slot h n).latch = false) := by
  obtain ⟨a, v, ha, hslot⟩ := slot_onHalves (fun k => halfWork_requalAct k n) hg n
  refine (gives_iff _ _ (requal n s) _ rfl).mpr ?_
  rw [requal, hslot]
  exact slot_requalAct (ha ▸ hst)

end

/-! ## Delay-step terms are cleared (08 R275) -/

/-- A slot without its held delay-step term. -/
def SlotSt.noTerm (z : SlotSt) : SlotSt := { z with held := 0, heldBeats := 0 }

/-- Clearing one slot's term on every powered half. -/
def clearTerm (n : SlotNo) (s : State) : State :=
  allHalves.foldl (fun b k => if b.halfOn k then b.modSlot k n SlotSt.noTerm else b) s

theorem slPdsClr_eq (mask : BitVec 4) (s : State) :
    slPdsClr mask s = allClients.foldl (fun a k => if mask.getLsbD k.val then clearTerm (clSlot k) a else a) s := rfl

theorem slot_modSlot_half_ne (s : State) {h k : Half} (n m : SlotNo) (f : SlotSt → SlotSt) (hk : k ≠ h) :
    (s.modSlot k n f).slot h m = s.slot h m := by
  rw [State.slot, State.modSlot, half_modHalf_ne _ _ hk.symm, State.slot]

theorem pwr_clearTerm (n : SlotNo) (s : State) : (clearTerm n s).pwr = s.pwr := by
  simp [clearTerm]

theorem slot_clearTerm_ne (s : State) (h : Half) {n m : SlotNo} (hm : m ≠ n) : (clearTerm n s).slot h m = s.slot h m := by
  refine List.foldlRecOn allHalves _ (motive := fun b : State => b.slot h m = s.slot h m) rfl fun b hb k _ => ?_
  rw [← hb]
  split
  · by_cases hk : k = h
    · exact hk ▸ slot_modSlot_ne _ _ _ hm
    · exact slot_modSlot_half_ne b n m _ hk
  · rfl

theorem slot_clearTerm_self {s : State} {h : Half} (n : SlotNo) (hon : s.halfOn h = true) :
    (clearTerm n s).slot h n = (s.slot h n).noTerm := by
  obtain ⟨a, hpwr, hslot, -, hend⟩ := foldl_sees_once
    (g := fun (b : State) k => if b.halfOn k then b.modSlot k n SlotSt.noTerm else b)
    (R := fun a b : State => b.pwr = a.pwr) (look := fun a : State => a.slot h n) (l := allHalves) (d := h)
    (fun _ => rfl) (fun a b => b.trans a) (fun a k => by simp)
    (fun a k hk => by split; exacts [slot_modSlot_half_ne a n n _ hk, rfl]) (by decide) (by cases h <;> decide) s
  have hon' : a.halfOn h = true := by rw [State.halfOn, hpwr]; exact hon
  rw [if_pos hon', slot_modSlot_self, hslot] at hend
  exact hend

theorem clSlot_ne {i k : ClNo} (hi : i ≠ k) : clSlot k ≠ clSlot i := by
  simpa [clSlot, Fin.ext_iff] using Ne.symm hi

/-- SL_PDS_CLR makes the terms 0 that its mask names, and leaves the others. -/
theorem slot_slPdsClr (mask : BitVec 4) (k : ClNo) {s : State} {h : Half} (hon : s.halfOn h = true) :
    (slPdsClr mask s).slot h (clSlot k) =
      if mask.getLsbD k.val then (s.slot h (clSlot k)).noTerm else s.slot h (clSlot k) := by
  obtain ⟨a, hpwr, hslot, -, hend⟩ := foldl_sees_once
    (g := fun (a : State) (i : ClNo) => if mask.getLsbD i.val then clearTerm (clSlot i) a else a)
    (R := fun a b : State => b.pwr = a.pwr) (look := fun a : State => a.slot h (clSlot k)) (l := allClients) (d := k)
    (fun _ => rfl) (fun a b => b.trans a) (fun a i => by split; exacts [pwr_clearTerm _ a, rfl])
    (fun a i hi => by split; exacts [slot_clearTerm_ne a h (clSlot_ne hi), rfl]) (by decide)
    (by revert k; decide) s
  have hon' : a.halfOn h = true := by rw [State.halfOn, hpwr]; exact hon
  rw [slPdsClr_eq, hend]
  split
  · rw [slot_clearTerm_self _ hon', hslot]
  · exact hslot

theorem pdsAgreeDwellElapsed_gives {s : State} {h : Half} {k : ClNo} (hg : s.gridOn h = true)
    (hheld : 0 < (s.slot h (clSlot k)).held)
    (hdwell : s.fieldAt (pgRs (clSlot k)) 0x05C 23 16 * 1024 ≤ (s.slot h (clSlot k)).heldBeats) :
    Gives (.pdsAgreeDwellElapsed h k) s (fun t => (t.slot h (clSlot k)).held = 0 ∧
      ∀ m, m ≠ clSlot k → t.slot h m = s.slot h m) := by
  have hclear : pdsAgreeDwellElapsed h k s = s.modSlot h (clSlot k) SlotSt.noTerm :=
    if_pos (by simp [hg, hheld, hdwell])
  refine (gives_iff _ _ (pdsAgreeDwellElapsed h k s) _ rfl).mpr ?_
  rw [hclear, slot_modSlot_self]
  exact ⟨rfl, fun m hm => slot_modSlot_ne _ _ _ hm⟩

/-- Settles O30: an event between boundaries is noted in its slot alone, and a command's work on one half leaves the other and the
slot that it names. -/
theorem slotEventsAndCommandsAct : Obligations.SlotEventsAndCommandsAct := by
  refine ⟨fun s h n => ⟨signalLost_gives, signalPresent_gives, qualTimeElapsed_gives, disqHoldElapsed_gives,
    agreeDwellElapsed_gives⟩, fun s h n k mask => ⟨adopt_gives, requal_gives, fun hon hk => ⟨_, rfl, ?_⟩,
    fun hon hk => ⟨_, rfl, ?_⟩, pdsAgreeDwellElapsed_gives⟩⟩
  · beta_reduce
    rw [slot_slPdsClr mask k hon, if_pos hk]
    rfl
  · beta_reduce
    rw [slot_slPdsClr mask k hon, if_neg (Bool.eq_false_iff.mp hk)]

end Sys2Proof.Machine
end

section
/-!
PROOFS. Scope: time-of-day messages and telemetry lines update their slots or are counted (O32).
-/

namespace Sys2Proof.Machine

/-! ## Events of a slot page, and a half's view of its configuration (02 R57, 05 R189) -/

theorem shows_modSlot (s : State) (h : Half) (n : SlotNo) (f : SlotSt → SlotSt) : (s.modSlot h n f).shows h = s.shows h := by
  have hgrid : ∀ g, (s.modSlot h n f).gridOn g = s.gridOn g := (halfWork_modSlot n f).grid
  simp only [State.shows, State.busHalf, keeps_modSlot, hgrid]

theorem shows_view (s : State) (h g : Half) : (s.view h).shows g = s.shows g := by
  simp only [State.shows, State.busHalf, keeps_view, gridOn_view]

/-- An event of a slot is set by the half that shows. -/
theorem evtBit_slotEvt {s : State} {h : Half} (n : SlotNo) {b : Nat} (hb : b < 32) (hs : s.shows h = true) :
    (s.slotEvt h n b).evtBit (pgRs n) b = true := by
  have hset : (s.evtH h (pgRs n) b).evtBit (pgRs n) b = true := by
    rw [State.evtH, hs]
    exact evtBit_setEvt_self s _ b hb
  exact (State.EvtsStay.refl _).logRec _ _ _ _ _ hset

theorem slot_slotEvt (s : State) (h g : Half) (n m : SlotNo) (b : Nat) : (s.slotEvt h n b).slot g m = s.slot g m :=
  slot_of_halves (by simp) g m

theorem evtsStay_unview (t s : State) (h : Half) : t.EvtsStay (t.unview s h) := by
  simp only [State.unview]
  refine evtsStay_foldl (fun a c => ?_) _ t
  exact evtsStay_setPage rfl

/-! ## What observations leave of a slot (05 R153 to R156) -/

/-- A slot with what observations change left out. -/
def SlotSt.unobserved (z : SlotSt) : SlotSt :=
  { z with dom := Vector.replicate 4 {}, pend := {}, adopting := false, pulse := Vector.replicate 4 none, nextSec := none }

/-- The work leaves the slot but for what observations change. -/
def State.Observes (h : Half) (n : SlotNo) (s t : State) : Prop := (t.slot h n).unobserved = (s.slot h n).unobserved

section
variable {h : Half} {n : SlotNo}

theorem observes_modSlot {s : State} {f : SlotSt → SlotSt} (hf : ∀ z, (f z).unobserved = z.unobserved := by intro; rfl) :
    s.Observes h n (s.modSlot h n f) := by
  rw [State.Observes, slot_modSlot_self, hf]

theorem observes_of_halves {s t : State} (hh : t.halves = s.halves) : s.Observes h n t :=
  congrArg SlotSt.unobserved (slot_of_halves hh h n)

theorem observes_slotEvt (s : State) (b : Nat) : s.Observes h n (s.slotEvt h n b) := observes_of_halves (by simp)

theorem State.Observes.trans {s t u : State} (a : s.Observes h n t) (b : t.Observes h n u) : s.Observes h n u :=
  Eq.trans b a

theorem observes_phaseLimit (s : State) (d : Dom) : s.Observes h n (phaseLimit h n d s) := by
  simp only [phaseLimit]
  split_ifs
  · exact State.Observes.trans observes_modSlot observes_modSlot
  · exact State.Observes.trans observes_modSlot observes_modSlot
  · exact observes_modSlot
  · exact observes_modSlot

theorem observes_observeIn (s : State) (d : Dom) (m : PulseMark) (raw : Int) : s.Observes h n (observeIn h n d m raw s) := by
  obtain ⟨ex, run, u, hu, hres⟩ := observeIn_cases s h n d m raw
  have hobs : s.Observes h n u := by
    rcases hu with rfl | rfl
    · exact observes_modSlot
    · exact State.Observes.trans observes_modSlot (State.Observes.trans observes_modSlot (observes_slotEvt _ _))
  rcases hres with heq | heq
  · exact heq ▸ hobs
  · exact heq ▸ hobs.trans (observes_phaseLimit u d)

theorem observes_adoptDone (s : State) : s.Observes h n (s.adoptDone h n) := by
  unfold State.adoptDone
  split
  · exact State.Observes.trans observes_modSlot (observes_slotEvt _ _)
  · rfl

theorem observes_labelIn (s : State) (sec : Nat) (p : Option PulseMark) (d : Dom) :
    s.Observes h n (labelIn h n sec p d s) := by
  cases p with
  | none => rfl
  | some m => exact observes_observeIn s d m _

theorem observes_labelPulse (s : State) (sec : Nat) : s.Observes h n (labelPulse h n sec s) := by
  simp only [labelPulse]
  refine .trans (t := if s.observing h n then _ else s) ?_ observes_modSlot
  split
  · exact .trans (List.foldlRecOn _ _ (motive := s.Observes h n) rfl fun a ha d _ => ha.trans (observes_labelIn a sec _ d))
      (observes_adoptDone _)
  · rfl

end

/-! ## A valid second (05 R178, R179) -/

/-- What a valid second makes of its slot where TAI_UTC is set. -/
def SlotSt.second (x : SlotSt) (l : TodLabel) : SlotSt :=
  { x with fixValid := true, todHalf := none, todLabel := some l, todObs := true
           leapDue := x.leapDue || leapLabel l, todSec := BitVec.ofNat 32 (todTai x l).1 }

/-- What the offset that a second brings in makes of its slot. -/
def SlotSt.takeOffset (x : SlotSt) : Option Nat → SlotSt
  | some o => { x with taiUtc := o % 256, leapPend := 0, leapDue := false }
  | none => x

theorem todSec_takeOffset (x : SlotSt) (off : Option Nat) : (x.takeOffset off).todSec = x.todSec := by
  cases off <;> rfl

/-- A second is valid unless its second field is 60 where no leap is to be inserted. -/
def SlotSt.validSecond (x : SlotSt) (l : TodLabel) : Prop := l.sec = 60 → leapLabel l = true ∧ x.leapPend = 1

/-- The pulse that a second labels is the latest, or the next where the label comes before it. -/
theorem observes_labelled (s : State) (h : Half) (n : SlotNo) (before : Bool) (sec : Nat) :
    s.Observes h n (if before then s.modSlot h n (fun z => { z with nextSec := some sec }) else labelPulse h n sec s) := by
  split
  · exact observes_modSlot
  · exact observes_labelPulse s sec

theorem slot_setLeap (s : State) (h : Half) (n : SlotNo) (o : Nat) :
    (s.setLeap h n o).slot h n = (s.slot h n).takeOffset (some o) := by
  rw [State.setLeap, slot_slotEvt, slot_modSlot_self, SlotSt.takeOffset]

theorem todSecond_takes {s : State} {h : Half} {n : SlotNo} {l : TodLabel} (htai : s.taiSet n = true)
    (hvalid : (s.slot h n).validSecond l) :
    ((todSecond h n l s).slot h n).unobserved =
      (((s.slot h n).second l).takeOffset (todTai (s.slot h n) l).2).unobserved := by
  have hok : ¬(l.sec == 60 && !(leapLabel l && (s.slot h n).leapPend == 1)) = true := by
    simpa [SlotSt.validSecond] using hvalid
  simp only [todSecond, if_neg hok, htai, if_true, Bool.and_true]
  generalize hoff : (todTai (s.slot h n) l).2 = off
  cases off with
  | none =>
    refine Eq.trans (observes_labelled _ h n _ _) (congrArg SlotSt.unobserved ?_)
    rw [slot_modSlot_self]
    rfl
  | some o =>
    refine Eq.trans (observes_labelled _ h n _ _) (congrArg SlotSt.unobserved ?_)
    rw [slot_setLeap, slot_modSlot_self]
    rfl

/-! ## The TAI second of a label (05 R178, R179) -/

section
variable {x : SlotSt} {l : TodLabel}

theorem leapLabel_of_sec (h : l.sec ≠ 60) : leapLabel l = false := by
  simp [leapLabel, h]

theorem todTai_same (hins : (x.leapDue && x.leapPend == 1 && !leapLabel l) = false) (hdel : x.leapPend ≠ 2) :
    todTai x l = (labelSec l + x.taiUtc, none) := by
  simp [todTai, hins, hdel]

theorem todTai_insert (hdue : x.leapDue = true) (hpend : x.leapPend = 1) (hsec : l.sec ≠ 60) :
    todTai x l = (labelSec l + x.taiUtc + 1, some (x.taiUtc + 1)) := by
  simp [todTai, hdue, hpend, leapLabel_of_sec hsec]

theorem todTai_delete {d : Nat} (hl : l = ⟨d + 1, 0, 0, 0⟩) (hbefore : x.todLabel = some ⟨d, 23, 59, 58⟩)
    (hpend : x.leapPend = 2) :
    todTai x l = (labelSec l + x.taiUtc - 1, some (x.taiUtc + 255)) := by
  simp [todTai, hl, hbefore, hpend]

end

/-! ## What a message does (05 R176, R177) -/

section
variable {s : State} {h : Half} {k : Fin 2} {m : TodMsg} {gapNs : Nat} {z good : Bool} {lab : Option TodLabel} {l : TodLabel}

/-- A message outside its window: before its pulse, or after it (R177). -/
def State.todLateAt (s : State) (n : SlotNo) (gapNs : Nat) : Bool :=
  if s.bitAt (pgRs n) 0x070 9 then decide (gapNs < 10000000) else decide (900000000 < gapNs)

/-- The format of a receiver's messages (R176). -/
def State.todFormat (s : State) (n : SlotNo) : Nat := s.fieldAt (pgRs n) 0x070 1 0

theorem todMessage_badCheck (hg : s.gridOn h = true) (hc : todCarries (s.todFormat (todSlot k)) m = some (z, false, good, lab)) :
    todMessage h k m gapNs s = s.todErr h (todSlot k) := by
  simp only [State.todFormat] at hc
  simp [todMessage, hg, hc]

theorem todMessage_late (hg : s.gridOn h = true) (hc : todCarries (s.todFormat (todSlot k)) m = some (z, true, good, lab))
    (hlate : s.todLateAt (todSlot k) gapNs = true) : todMessage h k m gapNs s = s.todLate h (todSlot k) := by
  simp only [State.todFormat] at hc
  simp only [State.todLateAt] at hlate
  simp only [todMessage, hg, hc, hlate]
  rfl

theorem todMessage_inTime (hg : s.gridOn h = true)
    (hc : todCarries (s.todFormat (todSlot k)) m = some (z, true, true, some l))
    (hlate : s.todLateAt (todSlot k) gapNs = false) :
    todMessage h k m gapNs s =
      if s.todFormat (todSlot k) = 0 then todSentence h (todSlot k) z l s else todSecond h (todSlot k) l s := by
  simp only [State.todFormat] at hc ⊢
  simp only [State.todLateAt] at hlate
  simp only [todMessage, hg, hc, hlate]
  rfl

/-- A second stands with a message of format 1, and in format 0 with the second of two sentences that give the same label. -/
theorem todMessage_second (hg : s.gridOn h = true)
    (hc : todCarries (s.todFormat (todSlot k)) m = some (z, true, true, some l))
    (hboth : s.todFormat (todSlot k) = 0 → (s.slot h (todSlot k)).todHalf = some (!z, l))
    (hlate : s.todLateAt (todSlot k) gapNs = false) :
    todMessage h k m gapNs s = todSecond h (todSlot k) l s := by
  rw [todMessage_inTime hg hc hlate]
  split
  · rename_i hfmt
    exact if_pos (hboth hfmt)
  · rfl

end

/-! ## What a time-of-day command leaves behind (05 R177 to R179) -/

section
variable {s : State} {h : Half} {k : Fin 2} {m : TodMsg} {gapNs : Nat} {z good : Bool} {lab : Option TodLabel} {l : TodLabel}

/-- The state after a time-of-day message. -/
def State.afterTod (s : State) (h : Half) (k : Fin 2) (m : TodMsg) (gapNs : Nat) : State :=
  leapReg h (todSlot k) s (s.inView h (todMessage h k m gapNs))

theorem slot_afterTod : (s.afterTod h k m gapNs).slot h (todSlot k) = (todMessage h k m gapNs (s.view h)).slot h (todSlot k) :=
  slot_of_halves (by simp [State.afterTod, State.inView]) h _

theorem evtsStay_leapReg (h : Half) (n : SlotNo) (s t : State) : t.EvtsStay (leapReg h n s t) := by
  simp only [leapReg]
  split
  · exact evtsStay_setReg t _ _ _
  · exact .refl t

theorem evtsStay_afterTod : (todMessage h k m gapNs (s.view h)).EvtsStay (s.afterTod h k m gapNs) :=
  (evtsStay_unview _ s h).trans (evtsStay_leapReg h _ s _)

theorem bits_mergeMask_taiUtc (old : Word) (n : Nat) : bits (mergeMask old (fld n 0) 0x6FF) 7 0 = n % 256 := by
  have hlow : ∀ w : Word, bits w 7 0 = (w.setWidth 8).toNat := fun w => by simp [bits]
  have hmerge : (mergeMask old (fld n 0) 0x6FF).setWidth 8 = BitVec.ofNat 8 n := by
    simp only [mergeMask, fld, BitVec.setWidth_or, BitVec.setWidth_and, Nat.pow_zero, Nat.mul_one]
    rw [BitVec.setWidth_ofNat_of_le (by decide)]
    exact (congrArg₂ (· ||| ·) BitVec.and_zero BitVec.and_allOnes).trans BitVec.zero_or
  rw [hlow, hmerge, BitVec.toNat_ofNat]

/-- Where the half shows and a leap has changed the offset, the register holds the new one. -/
theorem taiUtc_leapReg {n : SlotNo} {t : State} (hs : s.shows h = true)
    (hnew : (t.slot h n).taiUtc ≠ (s.slot h n).taiUtc) :
    (leapReg h n s t).fieldAt (pgRs n) 0x074 7 0 = (t.slot h n).taiUtc % 256 := by
  simp only [leapReg]
  rw [if_pos (by simp [hs, hnew]), State.fieldAt, reg_setReg_self, bits_mergeMask_taiUtc]

theorem badCheck_gives (hg : s.gridOn h = true)
    (hc : todCarries ((s.view h).todFormat (todSlot k)) m = some (z, false, good, lab)) :
    Gives (.todMessage h k ⟨m, gapNs⟩) s (fun t =>
      (t.slot h (todSlot k)).errCnt = (s.slot h (todSlot k)).errCnt + 1 ∧ (t.slot h (todSlot k)).fixValid = false ∧
      (s.shows h = true → t.evtBit (pgRs (todSlot k)) evRsTodErr = true)) := by
  have hrun := todMessage_badCheck (s := s.view h) (gapNs := gapNs) ((gridOn_view s h h).trans hg) hc
  refine (gives_iff _ _ (s.afterTod h k m gapNs) _ rfl).mpr ?_
  rw [slot_afterTod, hrun, State.todErr, slot_slotEvt, State.todInvalid, slot_modSlot_self, slot_modSlot_self, slot_view]
  refine ⟨rfl, rfl, fun hs => evtsStay_afterTod _ _ ?_⟩
  rw [hrun, State.todErr]
  exact evtBit_slotEvt _ (by decide) (by rw [State.todInvalid, shows_modSlot, shows_modSlot, shows_view, hs])

theorem lateMessage_gives (hg : s.gridOn h = true)
    (hc : todCarries ((s.view h).todFormat (todSlot k)) m = some (z, true, good, lab))
    (hlate : (s.view h).todLateAt (todSlot k) gapNs = true) :
    Gives (.todMessage h k ⟨m, gapNs⟩) s (fun t =>
      (t.slot h (todSlot k)).lateCnt = (s.slot h (todSlot k)).lateCnt + 1 ∧ (t.slot h (todSlot k)).fixValid = false) := by
  have hrun := todMessage_late ((gridOn_view s h h).trans hg) hc hlate
  refine (gives_iff _ _ (s.afterTod h k m gapNs) _ rfl).mpr ?_
  rw [slot_afterTod, hrun, State.todLate, slot_slotEvt, State.todInvalid, slot_modSlot_self, slot_modSlot_self, slot_view]
  exact ⟨rfl, rfl⟩

/-- The first of two sentences, or one that does not agree with the other, waits. -/
theorem sentenceWaits_gives (hg : s.gridOn h = true) (hfmt : (s.view h).todFormat (todSlot k) = 0)
    (hc : todCarries 0 m = some (z, true, true, some l)) (hlate : (s.view h).todLateAt (todSlot k) gapNs = false)
    (hfirst : (s.slot h (todSlot k)).todHalf ≠ some (!z, l)) :
    Gives (.todMessage h k ⟨m, gapNs⟩) s (fun t => t.slot h (todSlot k) = { s.slot h (todSlot k) with
      todHalf := some (z, l)
      todLabel := if (s.slot h (todSlot k)).todHalf.any (fun q => q.2 != l) then none
        else (s.slot h (todSlot k)).todLabel }) := by
  have hrun := todMessage_inTime ((gridOn_view s h h).trans hg) (hfmt ▸ hc) hlate
  refine (gives_iff _ _ (s.afterTod h k m gapNs) _ rfl).mpr ?_
  rw [slot_afterTod, hrun, if_pos hfmt, todSentence, slot_view, if_neg hfirst, slot_modSlot_self, slot_view]

/-- A valid second, with its offset on the register where a leap has changed it and the half shows. -/
theorem secondStands_gives (hg : s.gridOn h = true)
    (hc : todCarries ((s.view h).todFormat (todSlot k)) m = some (z, true, true, some l))
    (hboth : (s.view h).todFormat (todSlot k) = 0 → (s.slot h (todSlot k)).todHalf = some (!z, l))
    (hlate : (s.view h).todLateAt (todSlot k) gapNs = false) (htai : (s.view h).taiSet (todSlot k) = true)
    (hvalid : (s.slot h (todSlot k)).validSecond l) {sec : Nat} {off : Option Nat}
    (hsec : todTai (s.slot h (todSlot k)) l = (sec, off)) :
    Gives (.todMessage h k ⟨m, gapNs⟩) s (fun t =>
      (t.slot h (todSlot k)).unobserved = (((s.slot h (todSlot k)).second l).takeOffset off).unobserved ∧
      (t.slot h (todSlot k)).todSec = BitVec.ofNat 32 sec ∧
      (s.shows h = true → (t.slot h (todSlot k)).taiUtc ≠ (s.slot h (todSlot k)).taiUtc →
        t.fieldAt (pgRs (todSlot k)) 0x074 7 0 = (t.slot h (todSlot k)).taiUtc % 256)) := by
  have hrun := todMessage_second ((gridOn_view s h h).trans hg) hc (by rwa [slot_view]) hlate
  have htake := todSecond_takes (s := s.view h) htai (by rwa [slot_view])
  rw [slot_view, hsec] at htake
  have hslot : ((s.afterTod h k m gapNs).slot h (todSlot k)).unobserved =
      (((s.slot h (todSlot k)).second l).takeOffset off).unobserved := by rw [slot_afterTod, hrun, htake]
  refine (gives_iff _ _ (s.afterTod h k m gapNs) _ rfl).mpr ⟨hslot, ?_, fun hs hnew => ?_⟩
  · have htodSec : ((s.afterTod h k m gapNs).slot h (todSlot k)).todSec =
        (((s.slot h (todSlot k)).second l).takeOffset off).todSec := (congrArg SlotSt.todSec hslot :)
    rw [htodSec, todSec_takeOffset, SlotSt.second, hsec]
  · have hsame : (s.inView h (todMessage h k m gapNs)).slot h (todSlot k) = (s.afterTod h k m gapNs).slot h (todSlot k) :=
      slot_of_halves (by simp [State.afterTod]) h _
    rw [← hsame]
    exact taiUtc_leapReg hs (hsame ▸ hnew)

end

/-! ## Telemetry of the atomic reference (05 R181, R182) -/

section
variable {s : State} {h : Half} {line : List Byte} {gapNs : Nat}

/-- The status of a line's letter: L, H, or another (R181). -/
def atomCode (c : Byte) : Nat := if c = 0x4C then 1 else if c = 0x48 then 2 else 3

/-- A slot with the status and the uncertainty of a line. -/
def SlotSt.withLine (z : SlotSt) (c : Byte) (u : Nat) : SlotSt := { z with atomStatus := atomCode c, atomUnc := u }

theorem observes_atomLabel (h : Half) (timeMode : Bool) (sec : Option Nat) (s : State) :
    s.Observes h 30 (atomLabel h timeMode sec s) := by
  unfold atomLabel
  split
  · exact observes_labelPulse s _
  · rfl

theorem observes_signalLost (h : Half) (n : SlotNo) (s : State) : s.Observes h n (signalLost h n s) := by
  unfold signalLost
  split
  · exact observes_modSlot
  · rfl

/-- The event of a line and the loss that it declares. -/
theorem observes_lineEvents (s : State) (h : Half) (n : SlotNo) (b : Nat) (evt loss : Prop) [Decidable evt] [Decidable loss] :
    s.Observes h n (if loss then signalLost h n (if evt then s.slotEvt h n b else s) else if evt then s.slotEvt h n b else s) := by
  have hevt : s.Observes h n (if evt then s.slotEvt h n b else s) := by
    split
    · exact observes_slotEvt s b
    · rfl
  split
  · exact hevt.trans (observes_signalLost h n _)
  · exact hevt

/-- Besides its event, its loss and the pulse that it labels, a line gives status and uncertainty. -/
theorem atomTelemetry_reads (hg : s.gridOn h = true) {c : Byte} {u : Nat} {sec : Option Nat}
    (hline : parseAtom line = some (c, u, sec)) (hgap : gapNs ≤ 900000000)
    (hsec : s.bitAt (pgRs 30) 0x040 0 = true → sec ≠ none) :
    ((atomTelemetry h line gapNs s).slot h 30).unobserved = ((s.slot h 30).withLine c u).unobserved := by
  have hok : ¬(decide (900000000 < gapNs) || (s.bitAt (pgRs 30) 0x040 0 && sec.isNone)) = true := by
    simpa [Option.isNone_iff_eq_none, hgap] using hsec
  have hread : (s.modSlot h 30 (SlotSt.withLine · c u)).slot h 30 = (s.slot h 30).withLine c u := slot_modSlot_self _ _ _ _
  rw [← hread]
  simp only [atomTelemetry, hg, hline, if_neg hok]
  exact Eq.trans (observes_atomLabel _ _ _ _) (observes_lineEvents _ h 30 _ _ _)

theorem halves_atomTelemetry_of_bad (hbad : parseAtom line = none ∨ 900000000 < gapNs) :
    (atomTelemetry h line gapNs s).halves = s.halves := by
  simp only [atomTelemetry]
  split
  · rfl
  · rcases hbad with hline | hgap
    · rw [hline]; simp
    · split
      · simp
      · rw [if_pos (by simp [hgap])]; simp

end

/-- Settles O32: a message does what its check, its time and its label say, whatever observations it makes besides. -/
theorem timeOfDayAndTelemetry : Obligations.TimeOfDayAndTelemetry := by
  rintro s h k m line gapNs z good l lab _ _ _ _ hg rfl rfl rfl rfl
  refine ⟨badCheck_gives hg, lateMessage_gives hg, fun hc hfmt hlate hfirst => sentenceWaits_gives hg hfmt hc hlate hfirst,
    fun hc hboth hlate htai => ?_, fun c u sec hline hgap hsec => ⟨_, rfl, ?_⟩, fun hbad => ⟨_, rfl, ?_⟩⟩
  · have stands := secondStands_gives hg hc hboth hlate htai
    refine ⟨fun hsec hdue hpend => ?_, fun hleap hpend => ?_, fun hsec hdue hpend => ?_, fun d hl hbefore hpend => ?_⟩
    · obtain ⟨t, ht, hslot, htodSec, -⟩ := stands (fun h60 => absurd h60 hsec) (todTai_same (by simp [hdue]) hpend)
      exact ⟨t, ht, (congrArg SlotSt.fixValid hslot :), htodSec, (congrArg SlotSt.taiUtc hslot :)⟩
    · obtain ⟨t, ht, hslot, -, -⟩ := stands (fun _ => ⟨hleap, hpend⟩)
        (todTai_same (by simp [hleap]) (by simp [hpend]))
      have hdue : (t.slot h (todSlot k)).leapDue = ((s.slot h (todSlot k)).leapDue || leapLabel l) :=
        (congrArg SlotSt.leapDue hslot :)
      have hstill : (t.slot h (todSlot k)).leapPend = (s.slot h (todSlot k)).leapPend := (congrArg SlotSt.leapPend hslot :)
      exact ⟨t, ht, (congrArg SlotSt.fixValid hslot :), by rw [hdue, hleap, Bool.or_true], hstill.trans hpend,
        (congrArg SlotSt.taiUtc hslot :)⟩
    · obtain ⟨t, ht, hslot, htodSec, hreg⟩ := stands (fun h60 => absurd h60 hsec) (todTai_insert hdue hpend hsec)
      have htai : (t.slot h (todSlot k)).taiUtc = ((s.slot h (todSlot k)).taiUtc + 1) % 256 := (congrArg SlotSt.taiUtc hslot :)
      refine ⟨t, ht, (congrArg SlotSt.leapPend hslot :), htai, htodSec, fun hs hlt => ?_⟩
      rw [hreg hs (by omega)]
      omega
    · obtain ⟨t, ht, hslot, htodSec, -⟩ := stands (fun h60 => by simp [hl] at h60) (todTai_delete hl hbefore hpend)
      exact ⟨t, ht, (congrArg SlotSt.leapPend hslot :), (congrArg SlotSt.taiUtc hslot :), htodSec⟩
  · have hread := atomTelemetry_reads (s := s.view h) ((gridOn_view s h h).trans hg) hline hgap hsec
    beta_reduce
    rw [slot_of_halves (halves_inView s h _)]
    exact ⟨(congrArg SlotSt.atomUnc hread :), (congrArg SlotSt.atomStatus hread :)⟩
  · beta_reduce
    rw [slot_of_halves (halves_inView s h _), slot_of_halves (halves_atomTelemetry_of_bad hbad), slot_view]

end Sys2Proof.Machine
end

section
/-!
PROOFS. Scope: a pass of the Weir bounds every move of a rate word (O8).
-/

namespace Sys2Proof.Machine

/-! ## One pass of the Weir (06 R219 to R222) -/

theorem clampI_mem (v : Int) {lo hi : Int} (h : lo ≤ hi) : lo ≤ clampI v lo hi ∧ clampI v lo hi ≤ hi := by
  simp only [clampI]
  split_ifs <;> omega

/-- The units that an update may move by, whole ones and a fraction, the fraction carried from the update before counted in. -/
def weirAllow (slope carry : Rat) : Rat := unitsQ (slope / 65536) + carry

theorem weirAllow_nonneg {slope carry : Rat} (hslope : 0 ≤ slope) (hcarry : 0 ≤ carry) : 0 ≤ weirAllow slope carry := by
  unfold weirAllow unitsQ
  positivity

/-- The word moves by at most the whole units of the allowance, however far the wanted rate lies. -/
theorem weirPass_move (rate want centre exc : Int) {slope carry : Rat} (hslope : 0 ≤ slope) (hcarry : 0 ≤ carry) :
    ∃ m : Int, -(weirAllow slope carry).floor ≤ m ∧ m ≤ (weirAllow slope carry).floor ∧
      (weirPass rate want centre exc slope carry).1 = satRate (rate + m) := by
  have hwhole : 0 ≤ (weirAllow slope carry).floor := Int.floor_nonneg.mpr (weirAllow_nonneg hslope hcarry)
  obtain ⟨hlo, hhi⟩ := clampI_mem (clampI want (centre - exc) (centre + exc) - rate) (neg_le_self hwhole)
  exact ⟨_, hlo, hhi, rfl⟩

theorem satRate_mem (r : Int) : rateMin ≤ satRate r ∧ satRate r ≤ rateMax := clampI_mem r (by decide)

theorem satRate_of_mem {r : Int} (hlo : rateMin ≤ r) (hhi : r ≤ rateMax) : satRate r = r := by
  rw [satRate, clampI, if_neg (not_lt.mpr hlo), if_neg (not_lt.mpr hhi)]

/-- Saturation takes a word that moves from within its range back towards where it came from. -/
theorem satRate_move_le {rate m w : Int} (hlo : rateMin ≤ rate) (hhi : rate ≤ rateMax) (hmin : -w ≤ m) (hmax : m ≤ w) :
    satRate (rate + m) - rate ≤ w ∧ rate - satRate (rate + m) ≤ w := by
  simp only [satRate, clampI]
  split_ifs <;> omega

/-- What is carried on is the allowance's fraction of a unit. -/
theorem weirPass_carry (rate want centre exc : Int) (slope carry : Rat) :
    (weirPass rate want centre exc slope carry).2.1 = Int.fract (weirAllow slope carry) := rfl

/-- Where neither limit acts, the word comes to the wanted rate: the move is as long as it takes, and no excursion limit
stands between. -/
theorem weirPass_reaches {rate want centre exc : Int} {slope carry : Rat} (hlo : rateMin ≤ want) (hhi : want ≤ rateMax)
    (hslope : (weirPass rate want centre exc slope carry).2.2.1 = false)
    (hexc : (weirPass rate want centre exc slope carry).2.2.2 = false) :
    (weirPass rate want centre exc slope carry).1 = want := by
  simp only [weirPass, decide_eq_false_iff_not, not_not] at hslope hexc ⊢
  rw [hslope, add_sub_cancel] at hexc ⊢
  have htarget : clampI want (centre - exc) (centre + exc) = want := by
    simp only [clampI] at hexc ⊢
    split_ifs at hexc ⊢ <;> omega
  rw [htarget, satRate_of_mem hlo hhi]

/-- Settles O8: the move is clamped to the whole units, saturation only shortens it, and the fraction is carried. -/
theorem weirBoundsEveryMove : Obligations.WeirBoundsEveryMove := by
  intro rate want centre exc slope carry hslope hcarry hlo hhi
  obtain ⟨m, hmin, hmax, hm⟩ := weirPass_move rate want centre exc hslope hcarry
  obtain ⟨hup, hdown⟩ := satRate_move_le hlo hhi hmin hmax
  obtain ⟨hge, hle⟩ := satRate_mem (rate + m)
  rw [← hm] at hup hdown hge hle
  exact ⟨hge, hle, hup, hdown, Int.fract_nonneg _, Int.fract_lt_one _, weirPass_reaches⟩

end Sys2Proof.Machine
end

section
/-!
PROOFS. Scope: a loop update moves one domain's rate by what the Weir lets through; dwells and selections wait (O33).
-/

namespace Sys2Proof.Machine

/-! ## Work on one domain of a half -/

/-- `t` differs from `s` in the halves at most on half `h`, and there in the domains at most on `d`. -/
structure State.OneDom (h : Half) (d : Dom) (s t : State) : Prop where
  doms : ∀ e, e ≠ d → t.dom h e = s.dom h e
  peer : t.half h.peer = s.half h.peer

theorem State.OneDom.refl {h : Half} {d : Dom} (s : State) : s.OneDom h d s := ⟨fun _ _ => rfl, rfl⟩

theorem State.OneDom.trans {h : Half} {d : Dom} {s t u : State} (a : s.OneDom h d t) (b : t.OneDom h d u) : s.OneDom h d u :=
  ⟨fun e he => (b.doms e he).trans (a.doms e he), b.peer.trans a.peer⟩

theorem dom_of_halves {s t : State} (h : t.halves = s.halves) (g : Half) (d : Dom) : t.dom g d = s.dom g d := by
  rw [State.dom, half_of_halves h, State.dom]

theorem halves_evtIf (s : State) (c : Bool) (pg b : Nat) : (s.evtIf c pg b).halves = s.halves := by simp

@[simp] theorem dom_evtIf (s : State) (c : Bool) (pg b : Nat) (h : Half) (d : Dom) :
    (s.evtIf c pg b).dom h d = s.dom h d :=
  dom_of_halves (halves_evtIf s c pg b) h d

theorem State.OneDom.of_halves {h : Half} {d : Dom} {s t u : State} (a : s.OneDom h d t) (hhalves : u.halves = t.halves) :
    s.OneDom h d u :=
  ⟨fun e he => (dom_of_halves hhalves h e).trans (a.doms e he), (half_of_halves hhalves _).trans a.peer⟩

/-- A half's work under its own configuration is work on the state itself (02 R57). -/
theorem State.OneDom.of_view {h : Half} {d : Dom} {s t : State} (a : (s.view h).OneDom h d t) : s.OneDom h d t :=
  ⟨fun e he => (a.doms e he).trans (dom_view s h h e), a.peer.trans (half_view s h _)⟩

theorem oneDom_modDom (s : State) (h : Half) (d : Dom) (f : DomSt → DomSt) : s.OneDom h d (s.modDom h d f) :=
  ⟨fun _ he => dom_modDom_ne s h f he, half_modHalf_ne _ _ (Half.peer_ne h)⟩

/-- Work on a slot leaves the half's domains, and so is work on any one of them. -/
theorem State.SlotWork.oneDom {h : Half} {n : SlotNo} {s t : State} (w : s.SlotWork h n t) (d : Dom) : s.OneDom h d t :=
  ⟨fun e _ => w.doms e, w.peer⟩

theorem oneDom_foldl {α : Type} {h : Half} {d : Dom} {f : State → α → State} (hf : ∀ (a : State) x, a.OneDom h d (f a x))
    (l : List α) (s : State) : s.OneDom h d (l.foldl f s) :=
  List.foldlRecOn l f (.refl s) fun b hb x _ => hb.trans (hf b x)

/-! ## A loop update (06 R207, R208, R219, R220) -/

/-- What the Weir makes of the rate that a domain's source asks for, under the configuration of the state. -/
def State.weirNow (s : State) (h : Half) (d : Dom) : Int × Rat × Bool × Bool :=
  weirPass (s.dom h d).rate (s.wanted h d) (s.dom h d).centre (excUnits (s.fieldAt (pgTd d) 0x058 16 0))
    (s.weirSlope d (s.dom h d).st) (s.dom h d).carry

/-- A loop update without a clock phase is a change of its domain, besides its event. -/
theorem halves_loopUpdate {s : State} {h : Half} {d : Dom} (hg : s.gridOn h = true) :
    ∃ f, (loopUpdate h d none s).halves = (s.modDom h d f).halves ∧
      ∀ x, (f x).rate = (s.weirNow h d).1 ∧ (f x).carry = (s.weirNow h d).2.1 ∧ (f x).t = x.t ∧ (f x).st = x.st := by
  simp only [loopUpdate, hg, Bool.not_true, Bool.false_eq_true, if_false]
  exact ⟨_, halves_evtIf _ _ _ _, fun _ => ⟨rfl, rfl, rfl, rfl⟩⟩

theorem loopUpdate_gives {s : State} {h : Half} {d : Dom} (hg : s.gridOn h = true) :
    Gives (.loopUpdate h d none) s (fun t => (t.dom h d).rate = ((s.view h).weirNow h d).1 ∧
      (t.dom h d).carry = ((s.view h).weirNow h d).2.1 ∧ (t.dom h d).t = (s.dom h d).t ∧ (t.dom h d).st = (s.dom h d).st ∧
      s.OneDom h d t) := by
  obtain ⟨f, hhalves, hf⟩ := halves_loopUpdate (d := d) ((gridOn_view s h h).trans hg)
  have hinto := (halves_inView s h (loopUpdate h d none)).trans hhalves
  obtain ⟨hrate, hcarry, ht, hst⟩ := hf (s.dom h d)
  have hdom : (s.inView h (loopUpdate h d none)).dom h d = f (s.dom h d) := by
    rw [dom_of_halves hinto, dom_modDom_self, dom_view]
  exact ⟨_, rfl, hdom ▸ hrate, hdom ▸ hcarry, hdom ▸ ht, hdom ▸ hst,
    ((oneDom_modDom (s.view h) h d f).of_halves hinto).of_view⟩

/-! ## What waits for the boundary (06 R199, R211; 05 R169, R171) -/

/-- A command that changes one domain alone leaves the others, and of the domain what its change leaves. -/
theorem modDom_gives {c : Instr} {s : State} {h : Half} {d : Dom} {f : DomSt → DomSt} {P : DomSt → Prop}
    (hc : exec c s = .next (s.modDom h d f)) (hP : P (f (s.dom h d))) :
    Gives c s (fun t => P (t.dom h d) ∧ s.OneDom h d t) :=
  ⟨_, hc, (dom_modDom_self s h d f).symm ▸ hP, oneDom_modDom s h d f⟩

theorem dwellExpiry_gives {s : State} {h : Half} {d : Dom} (hg : s.gridOn h = true) :
    Gives (.dwellExpiry h d) s (fun t => ((t.dom h d).dwellDone = true ∧ (t.dom h d).coat = (s.dom h d).coat) ∧
      s.OneDom h d t) :=
  modDom_gives (P := fun x => x.dwellDone = true ∧ x.coat = (s.dom h d).coat)
    (congrArg Host.Outcome.next (if_pos hg)) ⟨rfl, rfl⟩

theorem selHoldElapsed_gives {s : State} {h : Half} {d : Dom} (hg : s.gridOn h = true) (hbetter : (s.dom h d).better ≠ none) :
    Gives (.selHoldElapsed h d) s (fun t => ((t.dom h d).selDone = true ∧ (t.dom h d).sel = (s.dom h d).sel) ∧
      s.OneDom h d t) :=
  modDom_gives (P := fun x => x.selDone = true ∧ x.sel = (s.dom h d).sel)
    (congrArg Host.Outcome.next (if_pos (by simp [hg, Option.isSome_iff_ne_none.mpr hbetter]))) ⟨rfl, rfl⟩

/-- A ramp starts afresh for its members, with weights of the slots in the domain besides. -/
theorem startRamp_spec (s : State) (h : Half) (d : Dom) (ms : List SlotNo) :
    ((s.startRamp h d ms).dom h d).members = ms ∧ ((s.startRamp h d ms).dom h d).ramp = 0 ∧
      s.OneDom h d (s.startRamp h d ms) := by
  refine ⟨by simp [State.startRamp], by simp [State.startRamp], .trans ?_ (oneDom_modDom _ h d _)⟩
  exact oneDom_foldl (fun _ n => (slotWork_modSd (n := n) d _).oneDom d) allSlots s

theorem weightUpdate_gives {s : State} {h : Half} {d : Dom} (hg : s.gridOn h = true) :
    Gives (.weightUpdate h d) s (fun t => (t.dom h d).members = (s.view h).membersNow h d ∧ (t.dom h d).ramp = 0 ∧
      s.OneDom h d t) := by
  have hgo : weightUpdate h d (s.view h) = (s.view h).startRamp h d ((s.view h).membersNow h d) :=
    if_pos ((gridOn_view s h h).trans hg)
  have hinto := (halves_halvesIn s h (weightUpdate h d)).trans (congrArg State.halves hgo)
  obtain ⟨hmembers, hramp, hone⟩ := startRamp_spec (s.view h) h d ((s.view h).membersNow h d)
  have hdom := dom_of_halves hinto h d
  exact ⟨_, rfl, hdom ▸ hmembers, hdom ▸ hramp, (hone.of_halves hinto).of_view⟩

/-! ## FORCE_HOLD (06 R201) -/

theorem regRow_force (n : Nat) : regRow? (.td n) 0x064 = some { base := 0x064, rw := 1 } := rfl

theorem exec_forceHold {a : Access} {d : Dom} {v : Word} {s : State} (hall : Allowed a (pgTd d) 0x064 v s) :
    exec (.forceHold a d v) s = .next (s.setReg (pgTd d) 0x064 (mergeMask (s.reg (pgTd d) 0x064) v 1)) := by
  have hp : (pgTd d * 4096 + 0x064) / 4096 = pgTd d := by omega
  have ho : (pgTd d * 4096 + 0x064) % 4096 = 0x064 := by omega
  have hlow : pgTd d * 4096 + 0x064 < 2 ^ 20 := by simp only [pgTd]; omega
  have hword : writeWord a {} (pgTd d * 4096 + 0x064) v s =
      s.setReg (pgTd d) 0x064 (mergeMask (s.reg (pgTd d) 0x064) v 1) := by
    simp only [writeWord, hp, ho, pageKind_pgTd, regRow_force]
    rfl
  rw [← hword, ← rowWrite_allowed {} hall rfl hlow]
  rfl

theorem forceHold_gives {a : Access} {d : Dom} {v : Word} {s : State} (hall : Allowed a (pgTd d) 0x064 v s) :
    Gives (.forceHold a d v) s (fun t => t.bitAt (pgTd d) 0x064 0 = bit v 0 ∧ t.halves = s.halves) := by
  refine ⟨_, exec_forceHold hall, ?_, by simp⟩
  rw [State.bitAt, reg_setReg_self]
  simp [bit, mergeMask]

theorem forced_enterCoat (s : State) (h : Half) (d : Dom) (coat : Nat) :
    ((s.enterCoat h d coat).dom h d).forced = (s.dom h d).forced := by
  have hhalves : (s.enterCoat h d coat).halves =
      (s.modDom h d fun y => { y with coat := coat, adv := 0, fall := 0, lock := 0, unlock := 0 }).halves := by
    simp [State.enterCoat]
  rw [dom_of_halves hhalves, dom_modDom_self]

/-- At the boundary the domain takes the bit as it stands; a change of host steering besides leaves it (R201, R202). -/
theorem forced_modesBeat (s : State) (h : Half) (d : Dom) :
    ((s.modesBeat h d).dom h d).forced = s.bitAt (pgTd d) 0x064 0 := by
  simp only [State.modesBeat]
  split_ifs <;> simp [forced_enterCoat]

/-- Settles O33: a loop update, a dwell, a selection and a weight update are each work on one domain, and FORCE_HOLD is a bit in
force that the boundary reads. -/
theorem loopsMoveTheRateThroughTheWeir : Obligations.LoopsMoveTheRateThroughTheWeir := by
  intro s h d a v
  refine ⟨fun hg => ?_, fun hg => ?_, fun hg hbetter => ?_, fun hg => ?_, forceHold_gives, forced_modesBeat s h d⟩
  · obtain ⟨t, ht, hrate, hcarry, htime, hst, hdoms, hpeer⟩ := loopUpdate_gives (d := d) hg
    rw [State.weirNow, dom_view] at hrate hcarry
    exact ⟨t, ht, hrate, hcarry, htime, hst, hdoms, hpeer⟩
  · obtain ⟨t, ht, ⟨hdone, hcoat⟩, hdoms, hpeer⟩ := dwellExpiry_gives (d := d) hg
    exact ⟨t, ht, hdone, hcoat, hdoms, hpeer⟩
  · obtain ⟨t, ht, ⟨hdone, hsel⟩, hdoms, hpeer⟩ := selHoldElapsed_gives hg hbetter
    exact ⟨t, ht, hdone, hsel, hdoms, hpeer⟩
  · obtain ⟨t, ht, hmembers, hramp, hdoms, hpeer⟩ := weightUpdate_gives (d := d) hg
    exact ⟨t, ht, hmembers, hramp, hdoms, hpeer⟩

end Sys2Proof.Machine
end

section
/-!
PROOFS. Scope: a step on an empty queue is one cycle of common time (O2).
-/

namespace Sys2Proof.Machine

/-! ## What cycles of common time do to a half (06 R191; 04 R114) -/

/-- A half passes its cycles by its own power and grid alone. -/
theorem half_passHalf (n : Nat) (s : State) (h : Half) : (passHalf n s h).half h =
    if s.gridOn h then (s.half h).advance n
    else if s.halfOn h && (s.half h).lath.src != 0 then (s.half h).preLock n else s.half h := by
  rw [passHalf, State.lath]
  split_ifs <;> simp

/-- The halves do not depend on each other as time passes. -/
theorem half_advance (n : Nat) (s : State) (h : Half) : (advance n s).half h = (passHalf n s h).half h := by
  rw [State.half, halves_advance, ← State.half]
  cases h with
  | A => exact half_passHalf_ne n _ (by decide)
  | B =>
    have hsame : (passHalf n s .A).half .B = s.half .B := half_passHalf_ne n s (by decide)
    simp [half_passHalf, hsame, State.gridOn, State.halfOn]

theorem half_advance_of_source (n : Nat) {s : State} {h : Half} (hgrid : s.gridOn h = false) (hon : s.halfOn h = true)
    (hsrc : (s.lath h).src ≠ 0) : (advance n s).half h = (s.half h).preLock n := by
  have hsrc' : (s.half h).lath.src ≠ 0 := hsrc
  simp [half_advance, half_passHalf, hgrid, hon, hsrc']

theorem half_advance_of_still (n : Nat) {s : State} {h : Half} (hgrid : s.gridOn h = false)
    (hstill : s.halfOn h = false ∨ (s.lath h).src = 0) : (advance n s).half h = s.half h := by
  have hstill' : ¬(s.halfOn h && (s.half h).lath.src != 0) = true := by
    rcases hstill with hoff | hsrc
    · simp [hoff]
    · rw [State.lath] at hsrc
      simp [hsrc]
  rw [half_advance, half_passHalf, if_neg (by simp [hgrid]), if_neg hstill']

/-! ## What cycles of common time do to the sensors (18 R575) -/

theorem sampleSensors_of_stopped (ms : Nat) {s : State} (hrun : s.mgt.running = false) : sampleSensors ms s = s := by
  simp [sampleSensors, hrun]

/-- Sampling changes of the management state the readings alone. -/
theorem mgt_sampleSensors (ms : Nat) (s : State) :
    ∃ ta tb tc ot, (sampleSensors ms s).mgt = { s.mgt with tempA := ta, tempB := tb, tempC := tc, ots := ot } := by
  unfold sampleSensors
  split_ifs
  · exact ⟨_, _, _, _, rfl⟩
  · exact ⟨_, _, _, _, rfl⟩

/-- The management state passes cycles untouched, but for the samples where a millisecond ends. -/
theorem mgt_advance (n : Nat) (s : State) : (advance n s).mgt = s.mgt ∨
    s.now / 800000 < (s.now + n) / 800000 ∧
      ∃ ms u, u.mgt = s.mgt ∧ (advance n s).mgt = (sampleSensors ms u).mgt := by
  simp only [advance]
  split_ifs with hpwr hms
  · exact .inl (by simp)
  · exact .inr ⟨by simpa using hms, _, _, by simp, rfl⟩
  · exact .inl (by simp)

theorem mgt_advance_readings (n : Nat) (s : State) :
    ∃ ta tb tc ot, (advance n s).mgt = { s.mgt with tempA := ta, tempB := tb, tempC := tc, ots := ot } := by
  rcases mgt_advance n s with hsame | ⟨-, ms, u, hu, hsample⟩
  · exact ⟨_, _, _, _, hsame⟩
  · rw [hsample, ← hu]
    exact mgt_sampleSensors ms u

theorem mgt_advance_of_no_sample {n : Nat} {s : State}
    (h : ¬ s.now / 800000 < (s.now + n) / 800000 ∨ s.mgt.running = false) : (advance n s).mgt = s.mgt := by
  rcases mgt_advance n s with hsame | ⟨hms, ms, u, hu, hsample⟩
  · exact hsame
  · have hrun : u.mgt.running = false := hu ▸ h.resolve_left (not_not_intro hms)
    rw [hsample, sampleSensors_of_stopped ms hrun, hu]

theorem step_of_empty {s : State} (hq : s.pending = []) : step s = .next (advance 1 s) := by
  rw [step, hq]

/-- Settles O2: each half passes the cycle by its own grid, the sensors by the millisecond, and the rest is `advance`'s frame. -/
theorem idleStepsAreCycles : Obligations.IdleStepsAreCycles := by
  intro s hq
  refine ⟨_, step_of_empty hq, now_advance 1 s, by simp [hq], fun _ => half_advance_of_gridOn 1,
    fun _ => half_advance_of_source 1, fun _ => half_advance_of_still 1, by simp, by simp, by simp, by simp, by simp, by simp,
    by simp, by simp, by simp, mgt_advance_readings 1 s, fun hquiet => mgt_advance_of_no_sample (hquiet.imp_left ?_)⟩
  omega

end Sys2Proof.Machine
end

section
/-!
PROOFS. Scope: each second of a domain is recorded in its history, and sensors are lost and found (O34).
-/

namespace Sys2Proof.Machine

/-! ## Sensors (07 R241) -/

theorem get_setLost_self (s : State) (h : Half) (k : Fin 13) (lost : Bool) :
    ((s.setLost h k lost).half h).temps.get k = { (s.half h).temps.get k with lost := lost } := by
  simp [State.setLost]

theorem half_peer_setLost (s : State) (h : Half) (k : Fin 13) (lost : Bool) :
    (s.setLost h k lost).half h.peer = s.half h.peer :=
  half_modHalf_ne _ _ (Half.peer_ne h)

theorem evSensorLost_lt (h : Half) : evSensorLost h < 32 := by cases h <;> decide

theorem sensorLost_gives {s : State} {h : Half} {k : Fin 13} (hon : s.halfOn h = true)
    (hhere : ((s.half h).temps.get k).lost = false) :
    Gives (.sensorLost h k) s (fun t => ((t.half h).temps.get k).lost = true ∧
      ((t.half h).temps.get k).temp = ((s.half h).temps.get k).temp ∧ t.evtBit pgCis (evSensorLost h) = true ∧
      t.half h.peer = s.half h.peer) :=
  have hsensor := congrArg (fun x : HalfSt => x.temps.get k) (half_setEvt (s.setLost h k true) pgCis (evSensorLost h) h)
  have hget := hsensor.trans (get_setLost_self s h k true)
  ⟨_, congrArg Host.Outcome.next (if_pos (by simp [hon, hhere])), (congrArg Sensor.lost hget :), (congrArg Sensor.temp hget :),
    evtBit_setEvt_self _ _ _ (evSensorLost_lt h), (half_setEvt _ _ _ _).trans (half_peer_setLost s h k true)⟩

theorem sensorPresent_gives {s : State} {h : Half} {k : Fin 13} (hon : s.halfOn h = true) :
    Gives (.sensorPresent h k) s (fun t => ((t.half h).temps.get k).lost = false ∧ t.half h.peer = s.half h.peer) :=
  ⟨_, congrArg Host.Outcome.next (if_pos hon), by rw [get_setLost_self], half_peer_setLost s h k false⟩

/-! ## The means of a second reach the sensors (07 R241) -/

/-- Readings change of a half its sensors and the temperatures its corrections follow. -/
theorem half_takeTemps (s : State) (h : Half) (temps : List Int) :
    ∃ v m x, (s.takeTemps h temps).half h = { s.half h with temps := v, moscT := m, xoT := x } ∧
      ∀ k, (v.get k).temp = (if ((s.half h).temps.get k).lost then ((s.half h).temps.get k).temp
        else (temps[k.val]?).getD ((s.half h).temps.get k).temp) := by
  refine ⟨_, _, _, half_modHalf_self _ _ _, fun k => ?_⟩
  rw [Vector.get_ofFn]
  exact (apply_ite Sensor.temp _ _ _)

theorem oneDom_takeTemps (s : State) (h : Half) (temps : List Int) (d : Dom) : s.OneDom h d (s.takeTemps h temps) := by
  obtain ⟨v, m, x, hhalf, -⟩ := half_takeTemps s h temps
  exact ⟨fun e _ => by rw [State.dom, hhalf, State.dom], half_modHalf_ne _ _ (Half.peer_ne h)⟩

/-! ## A second of a domain ends (07 R233, R234) -/

/-- `x'` is the domain `x` after a second that `e` records: the flags of the second start afresh. -/
structure DomSt.EndsSecond (x x' : DomSt) (e : HistEnt) : Prop where
  hist : x'.hist = (e :: x.hist).take 3600
  clean : e.clean = (x.secClean && !x.stepSec && !x.weirSec)
  cleanRun : x'.cleanRun = if e.clean then satN 16 (x.cleanRun + 1) else 0
  secClean : x'.secClean = true
  stepSec : x'.stepSec = false
  weirSec : x'.weirSec = false
  rate : x'.rate = x.rate

theorem cisternSecond_eq {s : State} {h : Half} (d : Dom) (temps : List Int) (hg : s.gridOn h = true) :
    ∃ f, cisternSecond h d temps s = (s.takeTemps h temps).modDom h d f ∧ ∀ x, ∃ e : HistEnt, DomSt.EndsSecond x (f x) e ∧
      e.efc = ((s.takeTemps h temps).half h).efcCode ∧ e.standby = (((s.takeTemps h temps).half h).lath.src == 2) :=
  ⟨_, if_neg (by simp [hg]), fun _ => ⟨_, ⟨rfl, rfl, rfl, rfl, rfl, rfl, rfl⟩, rfl, rfl⟩⟩

theorem temps_modDom (s : State) (h : Half) (d : Dom) (f : DomSt → DomSt) :
    ((s.modDom h d f).half h).temps = (s.half h).temps := by
  simp [State.modDom]

/-- Settles O34: a second is the readings of the half's sensors and one entry of one domain; sensors are lost and found one by
one. -/
theorem cisternRecordsHistory : Obligations.CisternRecordsHistory := by
  intro s h d k own common
  refine ⟨fun hg => ?_, sensorLost_gives, fun hon _ => sensorPresent_gives hon⟩
  obtain ⟨f, heq, hends⟩ := cisternSecond_eq d (own.toList ++ common.toList) hg
  obtain ⟨v, m, x, hhalf, htemp⟩ := half_takeTemps s h (own.toList ++ common.toList)
  have hdom : ((s.takeTemps h (own.toList ++ common.toList)).modDom h d f).dom h d = f (s.dom h d) := by
    rw [dom_modDom_self, State.dom, hhalf, State.dom]
  obtain ⟨e, he, hefc, hstandby⟩ := hends (s.dom h d)
  rw [hhalf] at hefc hstandby
  obtain ⟨hdoms, hpeer⟩ := (oneDom_takeTemps s h _ d).trans (oneDom_modDom _ h d f)
  refine ⟨_, congrArg Host.Outcome.next heq, ⟨e, ?_, hefc, hstandby, he.clean, ?_⟩, ?_, ?_, ?_, ?_, ?_, hdoms, hpeer⟩
  · exact hdom ▸ he.hist
  · exact hdom ▸ he.cleanRun
  · exact hdom ▸ he.secClean
  · exact hdom ▸ he.stepSec
  · exact hdom ▸ he.weirSec
  · rw [temps_modDom, hhalf]
    exact htemp k
  · exact hdom ▸ he.rate

end Sys2Proof.Machine
end

section
/-!
PROOFS. Scope: oscillator models are learned, installed and kept, and a steered EFC takes its targets (O35).
-/

namespace Sys2Proof.Machine

/-! ## The words of an installed model (07 R245, R246) -/

theorem bits_flagAt_or_fld (b : Bool) {n : Nat} (hn : n < 65536) : bits (flagAt b 31 ||| fld n 0) 15 0 = n := by
  have hlow : ∀ w : Word, bits w 15 0 = w.toNat % 2 ^ 16 := fun w => by simp [bits]
  have hflag : (flagAt b 31).toNat % 2 ^ 16 = 0 := by cases b <;> rfl
  have hfld : (fld n 0).toNat % 2 ^ 16 = n := by
    simp only [fld, BitVec.toNat_ofNat]
    omega
  rw [hlow, BitVec.toNat_or, Nat.or_mod_two_pow, hflag, hfld, Nat.zero_or]

theorem bit_flagAt_or_fld (b : Bool) {n : Nat} (hn : n < 65536) : bit (flagAt b 31 ||| fld n 0) 31 = b := by
  have hflag : (flagAt b 31).getLsbD 31 = b := by cases b <;> rfl
  have hfld : (fld n 0).getLsbD 31 = false := by
    rw [fld, pow_zero, mul_one, BitVec.getLsbD_ofNat, Nat.testBit_lt_two_pow (by omega), Bool.and_false]
  rw [bit, BitVec.getLsbD_or, hflag, hfld, Bool.or_false]

/-- The generation counts on. -/
theorem generation_installWords (old new : Model) (learned : Bool) :
    bits ((installWords old new learned).get 15) 15 0 = (bits (old.get 15) 15 0 + 1) % 65536 := by
  rw [installWords, get_setAt_self, bits_flagAt_or_fld learned (Nat.mod_lt _ (by decide))]

theorem learned_installWords (old new : Model) (learned : Bool) :
    bit ((installWords old new learned).get 15) 31 = learned := by
  rw [installWords, get_setAt_self, bit_flagAt_or_fld learned (Nat.mod_lt _ (by decide))]

/-! ## Tables of a half's oscillators (07 R245 to R247) -/

/-- The two states differ in the models at most in the table of one oscillator. -/
def State.OneTab (h : Half) (o : Osc) (s t : State) : Prop := ∀ i, i ≠ tabIx h o → t.models.get i = s.models.get i

theorem oneTab_of_models {h : Half} {o : Osc} {s t : State} (hm : t.models = s.models) : s.OneTab h o t :=
  fun i _ => by rw [hm]

theorem State.OneTab.trans {h : Half} {o : Osc} {s t u : State} (a : s.OneTab h o t) (b : t.OneTab h o u) : s.OneTab h o u :=
  fun i hi => (b i hi).trans (a i hi)

theorem get_modTab_self (s : State) (h : Half) (o : Osc) (f : ModelTab → ModelTab) :
    (s.modTab h o f).models.get (tabIx h o) = f (s.models.get (tabIx h o)) :=
  get_modAt_self _ _ _

theorem oneTab_modTab (s : State) (h : Half) (o : Osc) (f : ModelTab → ModelTab) : s.OneTab h o (s.modTab h o f) :=
  fun _ hi => get_modAt_ne _ _ hi

/-! ## Installing (07 R246) -/

theorem models_installOne (h : Half) (o : Osc) (e : Model × Bool) (s : State) :
    (installOne h o e s).models =
      (s.modTab h o (fun t => { t with words := installWords t.words e.1 e.2 })).models := by
  simp [installOne]

theorem evts_installOne (h : Half) (o : Osc) (e : Model × Bool) (s : State) :
    s.EvtsStay (installOne h o e s) ∧ (installOne h o e s).evtBit pgCis evModelInst = true := by
  have hlast : ∀ t : State, t.EvtsStay (t.evtIf (s.halfOn h && sensorBad e.1) pgCis (evSensorLost h)) := fun t =>
    (State.EvtsStay.refl t).evtIf _ _ _
  have htab : s.EvtsStay (s.modTab h o fun t => { t with words := installWords t.words e.1 e.2 }) :=
    (State.EvtsStay.refl s).keep rfl
  simp only [installOne]
  constructor
  · exact ((htab.modHalf h _).setEvt _ _).trans (hlast _)
  · exact hlast _ _ _ (evtBit_setEvt_self _ _ _ (by decide))

/-- Tables that are installed one after the other stand in force as the fold of their words; nothing else of any table moves. -/
theorem models_foldl_installOne (h : Half) (o : Osc) (l : List (Model × Bool)) (s : State) :
    let t := l.foldl (fun a e => installOne h o e a) s
    t.models.get (tabIx h o) = { s.models.get (tabIx h o) with
      words := l.foldl (fun m e => installWords m e.1 e.2) (s.models.get (tabIx h o)).words } ∧ s.OneTab h o t := by
  induction l generalizing s with
  | nil => exact ⟨rfl, fun _ _ => rfl⟩
  | cons e es ih =>
    obtain ⟨htab, hone⟩ := ih (installOne h o e s)
    have hfirst : s.OneTab h o (installOne h o e s) := fun i hi => by
      rw [models_installOne]
      exact oneTab_modTab s h o _ i hi
    refine ⟨htab.trans ?_, hfirst.trans hone⟩
    rw [models_installOne, get_modTab_self]
    rfl

theorem evtBit_foldl_installOne {h : Half} {o : Osc} {l : List (Model × Bool)} (hl : l ≠ []) (s : State) :
    (l.foldl (fun a e => installOne h o e a) s).evtBit pgCis evModelInst = true := by
  cases l with
  | nil => exact absurd rfl hl
  | cons e es =>
    exact evtsStay_foldl (fun a x => (evts_installOne h o x a).1) es _ _ _ (evts_installOne h o e s).2

theorem modelInst_gives (s : State) (h : Half) (o : Osc) :
    Gives (.modelInst h o) s (fun t =>
      (t.models.get (tabIx h o)).words = (s.models.get (tabIx h o)).pend.foldl (fun m e => installWords m e.1 e.2)
        (s.models.get (tabIx h o)).words ∧
      (t.models.get (tabIx h o)).pend = [] ∧ (t.models.get (tabIx h o)).stored = (s.models.get (tabIx h o)).stored ∧
      ((s.models.get (tabIx h o)).pend ≠ [] → t.evtBit pgCis evModelInst = true) ∧ s.OneTab h o t) := by
  obtain ⟨htab, hone⟩ := models_foldl_installOne h o (s.models.get (tabIx h o)).pend
    (s.modTab h o (fun t => { t with pend := [] }))
  rw [get_modTab_self] at htab
  exact ⟨_, rfl, (congrArg ModelTab.words htab :), (congrArg ModelTab.pend htab :),
    (congrArg ModelTab.stored htab :),
    fun hpend => evtBit_foldl_installOne hpend _, (oneTab_modTab s h o _).trans hone⟩

/-! ## Persisting (07 R247) -/

theorem modelPersist_gives (s : State) (h : Half) (o : Osc) :
    Gives (.modelPersist h o) s (fun t => (t.models.get (tabIx h o)).stored = (s.models.get (tabIx h o)).words ∧
      (t.models.get (tabIx h o)).words = (s.models.get (tabIx h o)).words ∧ s.OneTab h o t) := by
  by_cases hsame : (s.models.get (tabIx h o)).stored = (s.models.get (tabIx h o)).words
  · exact ⟨s, congrArg Host.Outcome.next (if_pos hsame), hsame, rfl, fun _ _ => rfl⟩
  · have hmodels : ((s.modTab h o (fun x => { x with stored := x.words })).count 681 1).models =
        (s.modTab h o (fun x => { x with stored := x.words })).models := by simp
    refine ⟨_, congrArg Host.Outcome.next (if_neg hsame), ?_, ?_, (oneTab_modTab s h o _).trans (oneTab_of_models hmodels)⟩
    · rw [hmodels, get_modTab_self]
    · rw [hmodels, get_modTab_self]

/-! ## Learning (07 R251) -/

theorem learnResult_spec (h : Half) (code : Nat) (s : State) :
    (learnResult h code s).half h = { s.half h with learnRes := code, learnCnt := (s.half h).learnCnt + 1 } ∧
      (learnResult h code s).half h.peer = s.half h.peer ∧
      (code ≠ 1 → (learnResult h code s).evtBit pgCis evLearnReject = true) := by
  have hpeer : (s.modHalf h (fun x => { x with learnRes := code, learnCnt := x.learnCnt + 1 })).half h.peer =
      s.half h.peer := half_modHalf_ne _ _ (Half.peer_ne h)
  simp only [learnResult]
  split
  case isTrue hone => exact ⟨half_modHalf_self _ _ _, hpeer, fun hne => absurd hone hne⟩
  case isFalse =>
    exact ⟨(half_setEvt _ _ _ _).trans (half_modHalf_self _ _ _), (half_setEvt _ _ _ _).trans hpeer,
      fun _ => evtBit_setEvt_self _ _ _ (by decide)⟩

/-- The entries that a learning pass of a half reads: those of the domain that LEARN names. -/
def State.learnEntries (s : State) (h : Half) : List HistEnt :=
  (((s.half h).doms.getD (s.fieldAt pgCis 0x044 13 12) {}).hist64.filter (·.clean))

theorem length_filter_zip_range {α : Type} (p : α → Bool) (l : List α) :
    (((List.range l.length).zip l).filter (fun e => p e.2)).length = (l.filter p).length := by
  have hsnd : ((List.range l.length).zip l).map Prod.snd = l := List.map_snd_zip (by simp)
  conv_rhs => rw [← hsnd, List.filter_map, List.length_map]
  rfl

/-- The ends of a learning pass: a rejection, for too few entries or for its fit, or one model more that waits. -/
inductive State.LearningEnds (h : Half) (o : Osc) (s : State) : State → Prop
  | rejected : s.LearningEnds h o (learnResult h (if (s.learnEntries h).length < 1008 then 2 else 4) s)
  | learned (m : Model) (code : Nat) : 1008 ≤ (s.learnEntries h).length → code = 1 ∨ code = 3 →
      s.LearningEnds h o (learnResult h code (s.modTab h o (fun t => { t with pend := t.pend ++ [(m, true)] })))

theorem learningPass_ends {s : State} {h : Half} (o : Osc) (hon : s.halfOn h = true) (hen : s.bitAt pgCis 0x044 16 = true) :
    s.LearningEnds h o (learningPass h o s) := by
  have hrejected := State.LearningEnds.rejected (h := h) (o := o) (s := s)
  unfold learningPass
  rw [if_neg (by simp [hon, hen])]
  extract_lets x _ dn y ents
  have hents : ents.length = (s.learnEntries h).length := length_filter_zip_range _ _
  rw [← hents] at hrejected
  split
  case isTrue hfew => rwa [if_pos hfew] at hrejected
  case isFalse hfew =>
    rw [if_neg hfew] at hrejected
    split
    · exact hrejected
    · dsimp only
      split
      · exact hrejected
      · refine .learned _ _ (hents ▸ Nat.le_of_not_lt hfew) ?_
        split
        · exact .inl rfl
        · exact .inr rfl

/-- What a learning pass tells of its end. -/
structure State.TellsLearning (h : Half) (s t : State) (code : Nat) : Prop where
  res : (t.half h).learnRes = code
  cnt : (t.half h).learnCnt = (s.half h).learnCnt + 1
  peer : t.half h.peer = s.half h.peer
  reject : code ≠ 1 → t.evtBit pgCis evLearnReject = true

/-- A result is told on the half, over models that stand. -/
theorem tells_learnResult (h : Half) (code : Nat) {s t : State} (hhalves : t.halves = s.halves) :
    s.TellsLearning h (learnResult h code t) code := by
  obtain ⟨hhalf, hpeer, hreject⟩ := learnResult_spec h code t
  rw [half_of_halves hhalves] at hhalf hpeer
  exact ⟨by rw [hhalf], by rw [hhalf], hpeer, hreject⟩

theorem models_learnResult (h : Half) (code : Nat) (s : State) : (learnResult h code s).models = s.models := by simp

theorem learningPass_gives {s : State} {h : Half} {o : Osc} (hon : s.halfOn h = true) (hen : s.bitAt pgCis 0x044 16 = true) :
    Gives (.learningPass h o) s (fun t => (t.half h).learnCnt = (s.half h).learnCnt + 1 ∧
      (t.models.get (tabIx h o)).words = (s.models.get (tabIx h o)).words ∧
      ((s.learnEntries h).length < 1008 →
        (t.half h).learnRes = 2 ∧ t.models = s.models ∧ t.evtBit pgCis evLearnReject = true) ∧
      (1008 ≤ (s.learnEntries h).length →
        ((t.half h).learnRes = 4 ∧ t.models = s.models ∧ t.evtBit pgCis evLearnReject = true) ∨
        (∃ m, (t.models.get (tabIx h o)).pend = (s.models.get (tabIx h o)).pend ++ [(m, true)] ∧
          ((t.half h).learnRes = 1 ∨ (t.half h).learnRes = 3 ∧ t.evtBit pgCis evLearnReject = true))) ∧
      s.OneTab h o t ∧ t.half h.peer = s.half h.peer) := by
  refine ⟨learningPass h o s, rfl, ?_⟩
  have hends := learningPass_ends o hon hen
  generalize learningPass h o s = t at hends
  cases hends with
  | rejected =>
    have hmodels := models_learnResult h (if (s.learnEntries h).length < 1008 then 2 else 4) s
    have htells := tells_learnResult h (if (s.learnEntries h).length < 1008 then 2 else 4) (rfl : s.halves = s.halves)
    have hreject := htells.reject (by split <;> decide)
    exact ⟨htells.cnt, by rw [hmodels], fun hfew => ⟨htells.res.trans (if_pos hfew), hmodels, hreject⟩,
      fun henough => .inl ⟨htells.res.trans (if_neg (Nat.not_lt.mpr henough)), hmodels, hreject⟩, oneTab_of_models hmodels,
      htells.peer⟩
  | learned m code henough hcode =>
    have hmodels := models_learnResult h code (s.modTab h o (fun t => { t with pend := t.pend ++ [(m, true)] }))
    have htells := tells_learnResult h code
      (rfl : (s.modTab h o (fun t => { t with pend := t.pend ++ [(m, true)] })).halves = s.halves)
    refine ⟨htells.cnt, by rw [hmodels, get_modTab_self], fun hfew => absurd hfew (Nat.not_lt.mpr henough),
      fun _ => .inr ⟨m, by rw [hmodels, get_modTab_self], ?_⟩, (oneTab_modTab s h o _).trans (oneTab_of_models hmodels),
      htells.peer⟩
    rcases hcode with rfl | rfl
    · exact .inl htells.res
    · exact .inr ⟨htells.res, htells.reject (by decide)⟩

theorem learningPass_of_off {s : State} {h : Half} {o : Osc} (hoff : s.halfOn h = false ∨ s.bitAt pgCis 0x044 16 = false) :
    Gives (.learningPass h o) s (fun t => t = s) := by
  refine ⟨_, congrArg Host.Outcome.next (if_pos ?_), rfl⟩
  rcases hoff with hoff | hoff <;> simp [hoff]

/-! ## A steered EFC (07 R253) -/

/-- The code that a steered EFC is to reach, before it is held within its range. -/
def State.efcAim (s : State) (h : Half) : Int :=
  ((s.half h).efcCode : Int) + nearQ (rateQ ((s.dom h (s.efcDom h)).meanRate 65536) /
    ((2 ^ s.efcCfg h 10 8 : Nat) : Rat) / ((s.efcGain h : Rat) * tenth 18))

theorem toNat_clampI_code (n : Int) :
    (clampI n 0 0xFFFFFF).toNat = if n < 0 then 0 else if 0xFFFFFF < n then 0xFFFFFF else n.toNat := by
  simp only [clampI, apply_ite Int.toNat]
  rfl

theorem evEfcLimit_lt (h : Half) : evEfcLimit h < 32 := by cases h <;> decide

/-- A steered EFC's target is clipped. -/
def State.efcClips (s : State) (h : Half) : Bool := decide (s.efcAim h < 0) || decide (0xFFFFFF < s.efcAim h)

section
variable {s : State} {h : Half} (hg : s.gridOn h = true) (hmode : s.efcCfg h 1 0 = 2) (hgain : s.efcGain h ≠ 0)
  (hst : (s.dom h (s.efcDom h)).st = 2) (hfree : s.efcFree h = true)
  (hbeat : ((s.dom h (s.efcDom h)).t / beatT) % 65536 = 0)
include hg hmode hgain hst hfree hbeat

theorem efcTarget_eq : efcTarget h s =
    (s.modHalf h (fun y => { y with efcTarget := some (clampI (s.efcAim h) 0 0xFFFFFF).toNat, efcLimit := s.efcClips h })).evtIf
      (s.efcClips h) pgCis (evEfcLimit h) :=
  if_pos (by simp [hg, hmode, hgain, hst, hfree, hbeat])

theorem efcTarget_gives : Gives (.efcTarget h) s (fun t =>
    (t.half h).efcTarget = some (clampI (s.efcAim h) 0 0xFFFFFF).toNat ∧ (t.half h).efcLimit = s.efcClips h ∧
    ((t.half h).efcLimit = true → t.evtBit pgCis (evEfcLimit h) = true) ∧
    (t.half h).efcCode = (s.half h).efcCode ∧ t.half h.peer = s.half h.peer ∧ t.models = s.models) := by
  refine ⟨_, congrArg Host.Outcome.next (efcTarget_eq hg hmode hgain hst hfree hbeat), ?_⟩
  beta_reduce
  rw [half_evtIf, half_evtIf, half_modHalf_self]
  refine ⟨rfl, rfl, fun hclip => ?_, rfl, half_modHalf_ne _ _ (Half.peer_ne h), by simp⟩
  rw [State.evtIf, if_pos hclip]
  exact evtBit_setEvt_self _ _ _ (evEfcLimit_lt h)

end

theorem efcTarget_of_unsteered {s : State} {h : Half}
    (hoff : s.gridOn h = false ∨ s.efcCfg h 1 0 ≠ 2 ∨ (s.dom h (s.efcDom h)).st ≠ 2) :
    Gives (.efcTarget h) s (fun t => t = s) := by
  refine ⟨_, congrArg Host.Outcome.next (if_neg ?_), rfl⟩
  rcases hoff with hgrid | hmode | hst
  · simp [hgrid]
  · simp [hmode]
  · simp [hst]

/-- Settles O35: installing and persisting are work on one table, a learning pass adds at most one model to those that wait, and a
steered EFC's target is its aim held within the code's range. -/
theorem modelsAreLearnedInstalledAndKept : Obligations.ModelsAreLearnedInstalledAndKept := by
  intro s h o w learned
  refine ⟨modelInst_gives s h o, generation_installWords _ w learned, learned_installWords _ w learned, modelPersist_gives s h o,
    learningPass_gives, learningPass_of_off, fun hg hmode hgain hst hfree hbeat tgt htgt => ?_, efcTarget_of_unsteered⟩
  rw [htgt, ← toNat_clampI_code]
  exact efcTarget_gives hg hmode hgain hst hfree hbeat

end Sys2Proof.Machine
end

section
/-!
PROOFS. Scope: work on the halves one by one; halves keep in step by digests and heartbeats (O27; used for O28).
-/

namespace Sys2Proof.Machine

/-! ## Work on the halves, one half at a time -/

@[simp] theorem half_count (s : State) (c n : Nat) (h : Half) : (s.count c n).half h = s.half h := half_of_halves (by simp) h

@[simp] theorem half_fault (s : State) (place pg kind sev : Nat) (det : Byte) (loc : BitVec 24) (h : Half) :
    (s.fault place pg kind sev det loc).half h = s.half h := half_of_halves (by simp) h

/-- Work over both halves of which each step leaves the other half: what each step does to its half, both halves show. -/
theorem both_halves {P : Half → HalfSt → HalfSt → Prop} {s t u : State} (hA : P .A (s.half .A) (t.half .A))
    (hAB : t.half .B = s.half .B) (hB : P .B (t.half .B) (u.half .B)) (hBA : u.half .A = t.half .A) (k : Half) :
    P k (s.half k) (u.half k) := by
  cases k with
  | A => rw [hBA]; exact hA
  | B => rw [← hAB]; exact hB

theorem half_foldl_modHalf (f : Half → HalfSt → HalfSt) (s : State) (k : Half) :
    (allHalves.foldl (fun a h => a.modHalf h (f h)) s).half k = f k (s.half k) :=
  both_halves (P := fun k x y => y = f k x) (half_modHalf_self s .A _) (half_modHalf_ne s _ (by decide))
    (half_modHalf_self _ .B _) (half_modHalf_ne _ _ (by decide)) k

/-- A half but for its domains, its slots and its bus. -/
def HalfSt.bare (x : HalfSt) : HalfSt :=
  { x with doms := Vector.replicate 4 {}, slots := Vector.replicate 32 {}, bus := Vector.replicate 4 {} }

/-- `t` differs from `s` on the halves at most in the domains, the slots and the bus of half `h`. -/
structure State.InnerWork (h : Half) (s t : State) : Prop where
  bare : (t.half h).bare = (s.half h).bare
  peer : t.half h.peer = s.half h.peer

section
variable {h : Half} {s t u : State}

theorem State.InnerWork.refl (s : State) : s.InnerWork h s := ⟨rfl, rfl⟩

theorem State.InnerWork.trans (a : s.InnerWork h t) (b : t.InnerWork h u) : s.InnerWork h u :=
  ⟨b.bare.trans a.bare, b.peer.trans a.peer⟩

theorem State.InnerWork.of_halves (a : s.InnerWork h t) (hhalves : u.halves = t.halves) : s.InnerWork h u :=
  a.trans ⟨congrArg HalfSt.bare (half_of_halves hhalves h), half_of_halves hhalves h.peer⟩

theorem innerWork_foldl {α : Type} {f : State → α → State} (hf : ∀ (a : State) x, a.InnerWork h (f a x)) (l : List α)
    (s : State) : s.InnerWork h (l.foldl f s) :=
  List.foldlRecOn l f (.refl s) fun _ hb x _ => hb.trans (hf _ x)

theorem State.InnerWork.modHalf (a : s.InnerWork h t) {f : HalfSt → HalfSt}
    (hf : ∀ x, (f x).bare = x.bare := by intro; rfl) : s.InnerWork h (t.modHalf h f) :=
  a.trans ⟨by rw [half_modHalf_self, hf], half_modHalf_ne _ _ (Half.peer_ne h)⟩

theorem State.InnerWork.count (a : s.InnerWork h t) (c n : Nat) : s.InnerWork h (t.count c n) := a.of_halves (by simp)

theorem State.InnerWork.evtIf (a : s.InnerWork h t) (c : Bool) (pg b : Nat) : s.InnerWork h (t.evtIf c pg b) :=
  a.of_halves (by simp)

theorem State.InnerWork.fault (a : s.InnerWork h t) (place pg kind sev : Nat) (det : Byte) (loc : BitVec 24) :
    s.InnerWork h (t.fault place pg kind sev det loc) := a.of_halves (by simp)

theorem State.InnerWork.newSequence (a : s.InnerWork h t) : s.InnerWork h t.newSequence := a.of_halves (by simp)

end

theorem innerWork_busNote (s : State) (h : Half) (d : Dom) : s.InnerWork h (s.busNote h d) := .modHalf (.refl s)

theorem innerWork_modDom (s : State) (h : Half) (d : Dom) (f : DomSt → DomSt) : s.InnerWork h (s.modDom h d f) :=
  .modHalf (.refl s)

theorem innerWork_modSlot (s : State) (h : Half) (n : SlotNo) (f : SlotSt → SlotSt) : s.InnerWork h (s.modSlot h n f) :=
  .modHalf (.refl s)

theorem innerWork_promptRise (s : State) (h : Half) (d : Dom) (ps : Rat) : s.InnerWork h (s.promptRise h d ps) := by
  simp only [State.promptRise]
  split
  · exact .refl s
  · exact .evtIf (.evtIf (.count ((innerWork_modDom s h d _).trans (innerWork_busNote _ h d)) _ _) _ _ _) _ _ _

theorem innerWork_startDom (s : State) (h : Half) (d : Dom) (unb : Nat) : s.InnerWork h (s.startDom h d unb) := by
  have hstart : s.InnerWork h ((s.modStamps h d fun _ => none).modDom h d fun x => x.reset unb) :=
    State.InnerWork.modHalf (.of_halves (.refl s) (u := s.modStamps h d fun _ => none) rfl)
  have hslots := innerWork_foldl (h := h) (f := fun (a : State) n =>
    (a.modSd h n d SlotDom.restart).modSlot h n (fun z => { z with pulse := setAt z.pulse d none }))
    fun a n => (innerWork_modSlot a h n _).trans (innerWork_modSlot _ h n _)
  exact (hstart.trans (hslots allSlots _)).trans (innerWork_busNote _ h d)

/-- A half that starts its domains afresh gives up the sets that wait in it, and starts its domains. -/
theorem innerWork_restartHalf (s : State) (h : Half) :
    (s.modHalf h fun x => { x with late := [], early := [] }).InnerWork h (restartHalf s h) := by
  have hdoms := innerWork_foldl (h := h) (fun (a : State) d => innerWork_startDom a h d
    (if (s.dom h d).marred && !s.peerAway h then 2 else 1)) allDoms
  simp only [restartHalf]
  split
  · exact .modHalf (hdoms _)
  · exact .newSequence (.modHalf (hdoms _))

/-! ## Digests (09 R298 to R300) -/

theorem digestReceived_of_match {s : State} {h : Half} {peer own : BitVec 64} (hown : (s.half h).digest = some own)
    (hcmp : s.comparing = true) (heq : own = peer) : digestReceived h peer s =
      (s.modHalf h (fun x => { x with matchRun := satN 16 (x.matchRun + 1) })).count (cntHalf h 48) 1 := by
  simp [digestReceived, hown, hcmp, heq]

theorem digestReceived_of_mismatch {s : State} {h : Half} {peer own : BitVec 64} (hown : (s.half h).digest = some own)
    (hcmp : s.comparing = true) (hne : own ≠ peer) : digestReceived h peer s =
      stepDiverge ((s.modHalf h (fun x => { x with mismatch := x.mismatch + 1, matchRun := 0 })).count (cntHalf h 49) 1) := by
  simp [digestReceived, hown, hcmp, hne]

theorem digestReceived_of_idle {s : State} {h : Half} (peer : BitVec 64)
    (hidle : (s.half h).digest = none ∨ s.comparing = false) : digestReceived h peer s = s := by
  unfold digestReceived
  split
  · rfl
  · next own hown => simp [hidle.resolve_left (by simp [hown])]

/-- What a divergence does to a half that runs: `y` is the half `x` after it (R300). -/
structure HalfSt.Diverges (x y : HalfSt) : Prop where
  peerOk : y.peerOk = false
  matchRun : y.matchRun = 0
  divTest : y.divTest = .running
  mismatch : y.mismatch = x.mismatch

/-- A divergence at one half, as `diverge` takes the halves in turn: `s` is the state before, from which the claims are kept. -/
def State.divergeHalf (s : State) (detOf : Half → Nat) (a : State) (h : Half) : State :=
  if a.halfOn h then
    let alone := !s.halfOn h.peer || (s.half h.peer).role == .lath || (s.half h.peer).role == .test
    let busy := (s.half .A).divTest == .running || (s.half .B).divTest == .running
    let claims : Pair (Option (BitVec 8)) := ⟨s.claimOf .A, s.claimOf .B⟩
    let a1 := a.modHalf h (fun x =>
      { x with peerOk := false, matchRun := 0, divTest := .running, divClaim := if busy then x.divClaim else claims.of h,
               load := if x.role = .loading ∨ x.role = .verify then some {} else x.load,
               role := if x.role = .verify then .loading else x.role })
    let a2 := if alone || (a1.half h).divAt.isSome then a1 else a1.setDiv h (some (a1.el0 h))
    a2.fault (placeOf h) pgHalf kStep (kindSev kStep) (BitVec.ofNat 8 (detOf h)) 0
  else a

theorem diverge_eq (ev : Nat) (detOf : Half → Nat) (s : State) : diverge ev detOf s =
    allHalves.foldl (s.divergeHalf detOf) ((s.setEvt pgHalf ev).evtIf
      (allHalves.any (fun h => s.halfOn h && (s.half h).role == .verify)) pgHalf evResyncStart) := rfl

theorem divergeHalf_evts (s : State) (detOf : Half → Nat) (a : State) (h : Half) : a.EvtsStay (s.divergeHalf detOf a h) := by
  unfold State.divergeHalf
  split
  · extract_lets alone busy claims a1 a2
    have h1 : a.EvtsStay a1 := .modHalf (.refl a) h _
    refine .fault ?_ _ _ _ _ _ _
    simp only [a2]
    split
    · exact h1
    · exact h1.setDiv h _
  · exact .refl a

theorem half_divergeHalf_ne (s : State) (detOf : Half → Nat) (a : State) {h g : Half} (hg : g ≠ h) :
    (s.divergeHalf detOf a h).half g = a.half g := by
  unfold State.divergeHalf
  split
  · extract_lets alone busy claims a1 a2
    have h1 : a1.half g = a.half g := half_modHalf_ne _ _ hg
    rw [half_fault, ← h1]
    simp only [a2]
    split
    · rfl
    · exact half_setDiv_ne hg _ _
  · rfl

theorem half_divergeHalf_self (s : State) (detOf : Half → Nat) {a : State} {h : Half} (hon : a.halfOn h = true) :
    (a.half h).Diverges ((s.divergeHalf detOf a h).half h) := by
  unfold State.divergeHalf
  rw [if_pos hon]
  extract_lets alone busy claims a1 a2
  obtain ⟨hok, hrun, htest, hmiss⟩ : (a.half h).Diverges (a1.half h) := by
    rw [half_modHalf_self]
    exact ⟨rfl, rfl, rfl, rfl⟩
  rw [half_fault]
  simp only [a2]
  split
  · exact ⟨hok, hrun, htest, hmiss⟩
  · rw [half_setDiv_self]
    exact ⟨hok, hrun, htest, hmiss⟩

theorem halfOn_congr {s t : State} (hpwr : t.pwr = s.pwr) (h : Half) : t.halfOn h = s.halfOn h := by
  rw [State.halfOn, hpwr, State.halfOn]

theorem pwr_divergeHalf (s : State) (detOf : Half → Nat) (a : State) (h : Half) : (s.divergeHalf detOf a h).pwr = a.pwr := by
  simp [State.divergeHalf]

theorem diverge_spec {ev : Nat} (hev : ev < 32) (detOf : Half → Nat) {s : State} (hA : s.halfOn .A = true)
    (hB : s.halfOn .B = true) :
    (diverge ev detOf s).evtBit pgHalf ev = true ∧ ∀ k, (s.half k).Diverges ((diverge ev detOf s).half k) := by
  rw [diverge_eq]
  generalize hs1 : (s.setEvt pgHalf ev).evtIf _ pgHalf evResyncStart = s1
  have hhalves : s1.halves = s.halves := by rw [← hs1]; simp
  have hpwr : s1.pwr = s.pwr := by rw [← hs1]; simp
  have hevt : s1.evtBit pgHalf ev = true :=
    hs1 ▸ (State.EvtsStay.refl _).evtIf _ _ _ _ _ (evtBit_setEvt_self _ _ _ hev)
  have honA : s1.halfOn .A = true := (halfOn_congr hpwr .A).trans hA
  have honB : (s.divergeHalf detOf s1 .A).halfOn .B = true := by
    rw [halfOn_congr ((pwr_divergeHalf s detOf s1 .A).trans hpwr), hB]
  refine ⟨evtsStay_foldl (divergeHalf_evts s detOf) allHalves s1 _ _ hevt, fun k => ?_⟩
  rw [← half_of_halves hhalves k]
  exact both_halves (P := fun _ => HalfSt.Diverges) (half_divergeHalf_self s detOf honA)
    (half_divergeHalf_ne s detOf _ (by decide))
    (half_divergeHalf_self s detOf honB) (half_divergeHalf_ne s detOf _ (by decide)) k

theorem comparing_spec {s : State} (hcmp : s.comparing = true) : s.halfOn .A = true ∧ s.halfOn .B = true ∧
    (s.half .A).linkUp = true ∧ (s.half .B).linkUp = true := by
  simp only [State.comparing, Bool.and_eq_true] at hcmp
  tauto

section
variable {s : State} {h : Half} {peer own : BitVec 64} (hown : (s.half h).digest = some own) (hcmp : s.comparing = true)
include hown hcmp

theorem digestReceived_gives_of_match (heq : own = peer) :
    Gives (.digestReceived h peer) s (fun t => (t.half h).matchRun = satN 16 ((s.half h).matchRun + 1) ∧
      (t.half h).peerOk = (s.half h).peerOk ∧ (t.half h).role = (s.half h).role ∧ t.half h.peer = s.half h.peer) := by
  refine ⟨_, congrArg Host.Outcome.next (digestReceived_of_match hown hcmp heq), ?_⟩
  beta_reduce
  rw [half_count, half_count, half_modHalf_self, half_modHalf_ne _ _ (Half.peer_ne h)]
  exact ⟨rfl, rfl, rfl, rfl⟩

theorem digestReceived_gives_of_mismatch (hne : own ≠ peer) :
    Gives (.digestReceived h peer) s (fun t => t.evtBit pgHalf evStepDiverge = true ∧
      (t.half h).mismatch = (s.half h).mismatch + 1 ∧
      ∀ k, (t.half k).peerOk = false ∧ (t.half k).matchRun = 0 ∧ (t.half k).divTest = .running) := by
  obtain ⟨hA, hB, -, -⟩ := comparing_spec hcmp
  refine ⟨_, congrArg Host.Outcome.next (digestReceived_of_mismatch hown hcmp hne), ?_⟩
  generalize hs1 : (s.modHalf h _).count (cntHalf h 49) 1 = s1
  have hpwr : s1.pwr = s.pwr := by rw [← hs1]; simp
  have hcount : (s1.half h).mismatch = (s.half h).mismatch + 1 := by rw [← hs1, half_count, half_modHalf_self]
  obtain ⟨hevt, hhalves⟩ := diverge_spec (ev := evStepDiverge) (by decide) (fun g => g.ix.val) (s := s1)
    ((halfOn_congr hpwr .A).trans hA) ((halfOn_congr hpwr .B).trans hB)
  exact ⟨hevt, (hhalves h).mismatch.trans hcount, fun k =>
    ⟨(hhalves k).peerOk, (hhalves k).matchRun, (hhalves k).divTest⟩⟩

end

/-! ## PEER_OK and HOLDOFF (09 R285, R288, R304) -/

theorem half_enterSplit_self (h : Half) (s : State) : (enterSplit h s).half h =
    { s.half h with role := .split, divAt := some ((s.half h).divAt.getD ((s.half h).lossAt.getD (s.el0 h))) } := by
  unfold enterSplit
  cases hdiv : (s.half h).divAt with
  | none => simp
  | some t => simp [hdiv]

theorem half_enterSplit_ne {h g : Half} (hg : g ≠ h) (s : State) : (enterSplit h s).half g = s.half g := by
  unfold enterSplit
  dsimp only
  split
  · rw [half_setDiv_ne hg, half_modHalf_ne _ _ hg]
  · exact half_modHalf_ne _ _ hg

theorem evtsStay_enterSplit (h : Half) (s : State) : s.EvtsStay (enterSplit h s) := by
  unfold enterSplit
  dsimp only
  split
  · exact .setDiv (.modHalf (.refl s) h _) h _
  · exact .modHalf (.refl s) h _

theorem joinPeer_of_linked {h : Half} {s : State} (hlink : (s.half h).linkUp = true) :
    joinPeer h s = (s.modHalf h (fun x => { x with role := .peer })).setEvt pgHalf evJoined := by
  simp [joinPeer, hlink]

/-- What a rise of PEER_OK does to a half: `y` is the half `x` after it (R285, R288). -/
structure HalfSt.Pairs (x y : HalfSt) : Prop where
  peerOk : y.peerOk = true
  ofSolo : x.role = .solo → y.role = .peer
  ofPeer : x.role = .peer → y.role = .peer

/-- A rise of PEER_OK at one half, as `peerOkRise` takes the halves in turn. -/
def State.raisePeerOk (s a : State) (h : Half) : State :=
  let a1 := (a.modHalf h (fun x =>
    { x with peerOk := true, holdBeats := if x.role = .verify then 0 else x.holdBeats, divTest := .none,
             role := if x.role = .solo then .peer else if x.role = .verify then .holdoff else x.role })).setDiv h none
  if (a.half h).role = .verify ∧ s.fieldAt pgHalf 0x040 23 16 = 0 then joinPeer h a1 else a1

theorem peerOkRise_of_matches {s : State} (hcmp : s.comparing = true) (hA : 1024 ≤ (s.half .A).matchRun)
    (hB : 1024 ≤ (s.half .B).matchRun) (hno : (s.half .A).peerOk = false ∨ (s.half .B).peerOk = false) :
    (peerOkRise s).halves = (allHalves.foldl s.raisePeerOk s).halves := by
  have hrise : ((s.half .A).peerOk && (s.half .B).peerOk) = false := by rcases hno with h | h <;> simp [h]
  unfold peerOkRise
  rw [if_pos (by simp [hcmp, hA, hB, hrise])]
  exact (halves_evtIf _ _ _ _).trans (halves_evtIf _ _ _ _)

theorem raisePeerOk_spec (s : State) {a : State} {h : Half} (hlink : (a.half h).linkUp = true) :
    (a.half h).Pairs ((s.raisePeerOk a h).half h) ∧ (s.raisePeerOk a h).half h.peer = a.half h.peer := by
  unfold State.raisePeerOk
  extract_lets a1
  have hself : (a1.half h).linkUp = true ∧ (a.half h).Pairs (a1.half h) := by
    rw [half_setDiv_self, half_modHalf_self]
    exact ⟨hlink, rfl, fun hr => if_pos hr, fun hr => by simp [hr]⟩
  have hpeer : a1.half h.peer = a.half h.peer := by
    rw [half_setDiv_ne (Half.peer_ne h), half_modHalf_ne _ _ (Half.peer_ne h)]
  split
  · next hjoin =>
    rw [joinPeer_of_linked hself.1, half_setEvt, half_setEvt, half_modHalf_self, half_modHalf_ne _ _ (Half.peer_ne h)]
    exact ⟨⟨hself.2.peerOk, fun _ => rfl, fun _ => rfl⟩, hpeer⟩
  · exact ⟨hself.2, hpeer⟩

theorem peerOkRise_gives {s : State} (hcmp : s.comparing = true) (hA : 1024 ≤ (s.half .A).matchRun)
    (hB : 1024 ≤ (s.half .B).matchRun) (hno : (s.half .A).peerOk = false ∨ (s.half .B).peerOk = false) :
    Gives .peerOkRise s (fun t => ∀ k, (t.half k).peerOk = true ∧ ((s.half k).role = .solo → (t.half k).role = .peer) ∧
      ((s.half k).role = .peer → (t.half k).role = .peer)) := by
  obtain ⟨-, -, hlinkA, hlinkB⟩ := comparing_spec hcmp
  obtain ⟨hselfA, hotherB⟩ := raisePeerOk_spec s hlinkA
  obtain ⟨hselfB, hotherA⟩ := raisePeerOk_spec s (a := s.raisePeerOk s .A) (h := .B)
    ((congrArg HalfSt.linkUp hotherB).trans hlinkB)
  refine ⟨_, rfl, fun k => ?_⟩
  rw [half_of_halves (peerOkRise_of_matches hcmp hA hB hno)]
  obtain ⟨hok, hsolo, hpeer⟩ := both_halves (P := fun _ => HalfSt.Pairs) hselfA hotherB hselfB hotherA k
  exact ⟨hok, hsolo, hpeer⟩

/-! ## Self-tests and the resync order (09 R287, R300, R301) -/

/-- A half whose datapath test has been judged. -/
def HalfSt.testJudged (x : HalfSt) : HalfSt := { x with divTest := .none, divClaim := none }

theorem resyncOrder_of_transients {s : State} {h : Half} (honA : s.halfOn .A = true) (honB : s.halfOn .B = true)
    (hA : (s.half .A).divTest = .transient) (hB : (s.half .B).divTest = .transient)
    (hlinkA : (s.half .A).linkUp = true) (hlinkB : (s.half .B).linkUp = true)
    (hwin : winner ⟨(s.half .A).divClaim, (s.half .B).divClaim⟩ = some h) (hrole : (s.half h.peer).role = .peer) :
    (resyncOrder s).halves = ((allHalves.foldl (fun z k => z.modHalf k HalfSt.testJudged) s).modHalf h.peer
      (fun x => { x with role := .loading, load := some {} })).halves := by
  have hjudged := half_foldl_modHalf (fun _ => HalfSt.testJudged) s h.peer
  have hmay : ((allHalves.foldl (fun z k => z.modHalf k HalfSt.testJudged) s).half h.peer).role = .peer := by
    rw [hjudged]; exact hrole
  have hfun : HalfSt.testJudged = fun x => { x with divTest := .none, divClaim := none } := rfl
  have htgt : loaderOf h h.peer (s.half h).divTest (s.half h.peer).divTest = some h.peer := by
    cases h <;> simp [loaderOf, hA, hB, Half.peer]
  rw [hfun] at hmay ⊢
  simp [resyncOrder, honA, honB, hA, hB, hlinkA, hlinkB, hwin, htgt, DivTest.known, hmay]

theorem resyncOrder_gives {s : State} {h : Half} (honA : s.halfOn .A = true) (honB : s.halfOn .B = true)
    (hA : (s.half .A).divTest = .transient) (hB : (s.half .B).divTest = .transient)
    (hlinkA : (s.half .A).linkUp = true) (hlinkB : (s.half .B).linkUp = true)
    (hwin : winner ⟨(s.half .A).divClaim, (s.half .B).divClaim⟩ = some h) (hrole : (s.half h.peer).role = .peer) :
    Gives .resyncOrder s (fun t => (t.half h.peer).role = .loading ∧ (t.half h).role = (s.half h).role ∧
      ∀ k, (t.half k).divTest = .none ∧ (t.half k).suspended = (s.half k).suspended) := by
  have hhalves := resyncOrder_of_transients honA honB hA hB hlinkA hlinkB hwin hrole
  have hjudged := half_foldl_modHalf (fun _ => HalfSt.testJudged) s
  have hself : (resyncOrder s).half h = (s.half h).testJudged := by
    rw [half_of_halves hhalves, half_modHalf_ne _ _ (Half.peer_ne h).symm, hjudged]
  have hpeer : (resyncOrder s).half h.peer = { (s.half h.peer).testJudged with role := .loading, load := some {} } := by
    rw [half_of_halves hhalves, half_modHalf_self, hjudged]
  refine ⟨_, rfl, by rw [hpeer], by rw [hself]; rfl, fun k => ?_⟩
  obtain rfl | rfl := Half.eq_or_eq_peer h k
  · rw [hself]
    exact ⟨rfl, rfl⟩
  · rw [hpeer]
    exact ⟨rfl, rfl⟩

theorem evTestFail_lt (h : Half) : evTestFail h < 32 := by cases h <;> decide

theorem powerupSelftest_gives {s : State} {h : Half} {pass : Bool} (hg : s.gridOn h = true)
    (hopen : (s.half h).selftestDone = false) :
    Gives (.powerupSelftest h pass) s (fun t => (t.half h).selftestOk = (pass && !(s.half h).failed) ∧
      (t.half h).selftestDone = true ∧ (pass = false → t.evtBit pgHalf (evTestFail h) = true)) := by
  refine ⟨_, congrArg Host.Outcome.next (if_pos (by simp [hg, hopen])), ?_⟩
  cases pass with
  | true => simp
  | false =>
    have hhalf : ∀ u : State, (u.testFailed (placeOf h) pgHalf).half h = u.half h := fun u => half_of_halves (by simp) h
    have hpages : ∀ u : State, (u.testFailed (placeOf h) pgHalf).pages = u.pages := fun u => by simp
    rw [if_neg Bool.false_ne_true, hhalf, half_setEvt, half_modHalf_self, State.evtBit, hpages]
    exact ⟨rfl, rfl, fun _ => evtBit_setEvt_self _ _ _ (evTestFail_lt h)⟩

/-! ## The Ndofort link (09 R305, R306, R308, R309) -/

theorem heartbeatSend_gives {s : State} {h : Half} (hg : s.gridOn h = true) :
    Gives (.heartbeatSend h) s (fun t => (t.half h).hbSent = (s.half h).hbSent + 1 ∧ t.half h.peer = s.half h.peer) := by
  refine ⟨_, congrArg Host.Outcome.next (if_pos hg), ?_, half_modHalf_ne _ _ (Half.peer_ne h)⟩
  rw [half_modHalf_self]

theorem heartbeatReceived_gives {s : State} {h : Half} (hg : s.gridOn h = true) (hon : s.halfOn h.peer = true) :
    Gives (.heartbeatReceived h) s (fun t => (t.half h).hbAt = (s.half h.peer).hbSent ∧
      ((s.half h.peer).hbSent ≤ (s.half h).hbAt + 1 → (t.half h).hbGood = satN 16 ((s.half h).hbGood + 1)) ∧
      ((s.half h).hbAt + 1 < (s.half h.peer).hbSent → (t.half h).hbGood = 1)) := by
  refine ⟨_, congrArg Host.Outcome.next (if_pos (by simp [hg, hon])), ?_⟩
  beta_reduce
  rw [half_modHalf_self]
  exact ⟨rfl, fun hnext => if_neg (not_lt.mpr hnext), fun hmissed => if_pos hmissed⟩

/-- A half whose link is lost, at its time `el` (R303, R309). -/
def HalfSt.unlinked (el : Nat) (x : HalfSt) : HalfSt :=
  { x with linkUp := false, hbGood := 0, lossCnt := x.lossCnt + 1, splitBeats := 0, peerOk := false, matchRun := 0,
           lossAt := some el }

/-- What the loss of the link does to a half: `y` is the half `x` after it. -/
structure HalfSt.LosesLink (x y : HalfSt) : Prop where
  linkUp : y.linkUp = false
  peerOk : y.peerOk = false
  lossCnt : y.lossCnt = x.lossCnt + 1
  hbGood : y.hbGood = 0

/-- The half's own part of a loss of the link, before it takes the role that the loss gives it. -/
def State.loseLink (s : State) (h : Half) : State :=
  ((((s.modHalf h (HalfSt.unlinked (s.el0 h))).count (cntHalf h 51) 3).modPend h 31
    (fun p => { p with lost := p.lost || (s.slot h 31).st != 0, present := false })).fault
      (placeOf h) pgHalf kLink (kindSev kLink) (BitVec.ofNat 8 (2 + h.ix.val)) 0)

theorem innerWork_loseLink (s : State) (h : Half) :
    (s.modHalf h (HalfSt.unlinked (s.el0 h))).InnerWork h (s.loseLink h) :=
  .fault (.modHalf (.count (.refl _) _ _)) _ _ _ _ _ _

/-- The prompt rise of the divergence term's first second, with which level 6 takes a SPLIT's D (R309; 08 R276). -/
def State.firstDiv (s : State) : Rat :=
  ((s.fieldAt pgHalf 0x044 15 0 : Nat) : Rat) + flimQ (s.fieldAt pgHalf 0x048 9 0) * (1 / 1024) * psec

theorem linkLostHalf_of_split {s : State} {h : Half} (hrole : (s.half h).role = .peer) (hpub : s.publishing h.peer = true) :
    linkLostHalf h s = allDoms.foldl (fun a d => a.promptRise h d s.firstDiv) (enterSplit h (s.loseLink h)) := by
  simp only [linkLostHalf, hrole, hpub]
  rfl

theorem State.InnerWork.losesLink {h : Half} {s t : State} {x : HalfSt} (w : s.InnerWork h t)
    (l : x.LosesLink (s.half h)) : x.LosesLink (t.half h) where
  linkUp := (congrArg HalfSt.linkUp w.bare).trans l.linkUp
  peerOk := (congrArg HalfSt.peerOk w.bare).trans l.peerOk
  lossCnt := (congrArg HalfSt.lossCnt w.bare).trans l.lossCnt
  hbGood := (congrArg HalfSt.hbGood w.bare).trans l.hbGood

theorem losesLink_loseLink (s : State) (h : Half) : (s.half h).LosesLink ((s.loseLink h).half h) := by
  refine (innerWork_loseLink s h).losesLink ?_
  rw [half_modHalf_self]
  exact ⟨rfl, rfl, rfl, rfl⟩

theorem half_loseLink_peer (s : State) (h : Half) : (s.loseLink h).half h.peer = s.half h.peer := by
  rw [(innerWork_loseLink s h).peer, half_modHalf_ne _ _ (Half.peer_ne h)]

theorem linkLostHalf_spec (h : Half) (s : State) :
    (s.half h).LosesLink ((linkLostHalf h s).half h) ∧ (linkLostHalf h s).half h.peer = s.half h.peer := by
  have hlost := losesLink_loseLink s h
  have hpeer := half_loseLink_peer s h
  unfold linkLostHalf
  extract_lets x peerPub first s1 s2 s3
  have h3 : s.loseLink h = s3 := rfl
  clear_value s3
  subst h3
  split
  · split
    · have hprompt := innerWork_foldl (fun a d => innerWork_promptRise a h d first) allDoms (enterSplit h (s.loseLink h))
      rw [hprompt.peer, half_enterSplit_ne (Half.peer_ne h)]
      refine ⟨hprompt.losesLink ?_, hpeer⟩
      rw [half_enterSplit_self]
      exact ⟨hlost.linkUp, hlost.peerOk, hlost.lossCnt, hlost.hbGood⟩
    · exact ⟨hlost, hpeer⟩
  · obtain ⟨hup, hok, hcnt, hgood⟩ := (innerWork_restartHalf (s.loseLink h) h).losesLink (x := s.half h)
      (by rw [half_modHalf_self]; exact ⟨hlost.linkUp, hlost.peerOk, hlost.lossCnt, hlost.hbGood⟩)
    rw [half_modHalf_self, half_modHalf_ne _ _ (Half.peer_ne h), half_restartHalf_ne (Half.peer_ne h)]
    exact ⟨⟨hup, hok, hcnt, hgood⟩, hpeer⟩
  · rw [half_modHalf_self, half_modHalf_ne _ _ (Half.peer_ne h)]
    exact ⟨⟨hlost.linkUp, hlost.peerOk, hlost.lossCnt, hlost.hbGood⟩, hpeer⟩
  · exact ⟨hlost, hpeer⟩

/-- A publishing half that loses its link beside a publishing peer runs apart from it, and its D counts from now
on, or goes on. -/
theorem linkLostHalf_splits {s : State} {h : Half} (hrole : (s.half h).role = .peer) (hpub : s.publishing h.peer = true) :
    ((linkLostHalf h s).half h).role = .split ∧
      ((linkLostHalf h s).half h).divAt = some ((s.half h).divAt.getD (s.el0 h)) := by
  have hprompt := innerWork_foldl (fun a d => innerWork_promptRise a h d s.firstDiv) allDoms (enterSplit h (s.loseLink h))
  have hlose := (innerWork_loseLink s h).bare
  rw [half_modHalf_self] at hlose
  have hdiv : ((s.loseLink h).half h).divAt = (s.half h).divAt := (congrArg HalfSt.divAt hlose).trans rfl
  have hat : ((s.loseLink h).half h).lossAt = some (s.el0 h) := congrArg HalfSt.lossAt hlose
  have hsplit := congrArg HalfSt.bare (half_enterSplit_self h (s.loseLink h))
  rw [linkLostHalf_of_split hrole hpub]
  refine ⟨congrArg HalfSt.role (hprompt.bare.trans hsplit), (congrArg HalfSt.divAt (hprompt.bare.trans hsplit)).trans ?_⟩
  change some (((s.loseLink h).half h).divAt.getD _) = _
  rw [hdiv, hat]
  rfl

theorem pwr_linkLostHalf (h : Half) (s : State) : (linkLostHalf h s).pwr = s.pwr := by simp

theorem linkLost_of_linked {s : State} {h : Half} (honA : s.halfOn .A = true) (honB : s.halfOn .B = true)
    (hlink : (s.half h).linkUp = true) : linkLost s = (linkLostHalf .B (linkLostHalf .A s)).setEvt pgHalf evLinkLost := by
  have hany : ((s.half .A).linkUp || (s.half .B).linkUp) = true := by cases h <;> simp [hlink]
  exact if_pos (by simp [honA, honB, hany])

theorem publishing_of_role {s : State} {h : Half} (hon : s.pwr.half.of h = .on)
    (hrole : (s.half h).role = .peer ∨ (s.half h).role = .split) : s.publishing h = true := by
  rcases hrole with hr | hr <;> simp [State.publishing, HalfSt.publishes, hon, hr]

theorem linkLost_gives {s : State} {h : Half} (honA : s.halfOn .A = true) (honB : s.halfOn .B = true)
    (hlink : (s.half h).linkUp = true) :
    Gives .linkLost s (fun t => t.evtBit pgHalf evLinkLost = true ∧
      (∀ k, (t.half k).linkUp = false ∧ (t.half k).peerOk = false ∧ (t.half k).lossCnt = (s.half k).lossCnt + 1 ∧
        (t.half k).hbGood = 0) ∧
      ((s.half .A).role = .peer → (s.half .B).role = .peer → s.pwr.half.a = .on → s.pwr.half.b = .on →
        ∀ k, (t.half k).role = .split ∧ (t.half k).divAt = some ((s.half k).divAt.getD (s.el0 k)))) := by
  obtain ⟨hselfA, hotherB⟩ := linkLostHalf_spec .A s
  obtain ⟨hselfB, hotherA⟩ := linkLostHalf_spec .B (linkLostHalf .A s)
  refine ⟨_, congrArg Host.Outcome.next (linkLost_of_linked honA honB hlink), evtBit_setEvt_self _ _ _ (by decide),
    fun k => ?_, fun hA hB hpA hpB k => ?_⟩
  · rw [half_setEvt]
    obtain ⟨hup, hok, hcnt, hgood⟩ := both_halves (P := fun _ => HalfSt.LosesLink) hselfA hotherB hselfB hotherA k
    exact ⟨hup, hok, hcnt, hgood⟩
  · have hsplitA := linkLostHalf_splits hA (publishing_of_role (h := .B) hpB (.inl hB))
    have hpubA : (linkLostHalf .A s).publishing .A = true :=
      publishing_of_role (by rw [pwr_linkLostHalf]; exact hpA) (.inr hsplitA.1)
    have hroleB : ((linkLostHalf .A s).half .B).role = .peer := (congrArg HalfSt.role hotherB).trans hB
    have hsplitB := linkLostHalf_splits hroleB hpubA
    rw [half_setEvt]
    exact both_halves (P := fun _ x y => y.role = .split ∧ y.divAt = some (x.divAt.getD x.up)) hsplitA hotherB hsplitB hotherA k

/-- A half whose link is back: of two that run apart the one with the lower claim loads (R306, R309). -/
def State.relinked (s : State) (h : Half) (x : HalfSt) : HalfSt :=
  let hi := winner ⟨s.claimOf .A, s.claimOf .B⟩
  { x with linkUp := true, splitBeats := 0, lossAt := none,
           load := if s.apart && hi != some h then some {} else x.load,
           role := if s.apart then (if hi = some h then .solo else .loading) else if x.role = .split then .solo else x.role }

theorem linkUp_of_heartbeats {s : State} {h : Half} (honA : s.halfOn .A = true) (honB : s.halfOn .B = true)
    (hdown : (s.half h).linkUp = false) (hA : 16 ≤ (s.half .A).hbGood) (hB : 16 ≤ (s.half .B).hbGood) :
    linkUp s = ((allHalves.foldl (fun a k => a.modHalf k (s.relinked k)) s).setEvt pgHalf evLinkUp).evtIf s.apart
      pgHalf evResyncStart := by
  have hany : ((s.half .A).linkUp && (s.half .B).linkUp) = false := by cases h <;> simp [hdown]
  exact if_pos (by simp [honA, honB, hA, hB, hany])

theorem apart_of_split {s : State} (hA : (s.half .A).role = .split) (hB : (s.half .B).role = .split) : s.apart = true := by
  simp [State.apart, hA, hB]

theorem linkUp_gives {s : State} {h : Half} (honA : s.halfOn .A = true) (honB : s.halfOn .B = true)
    (hdown : (s.half h).linkUp = false) (hA : 16 ≤ (s.half .A).hbGood) (hB : 16 ≤ (s.half .B).hbGood) :
    Gives .linkUp s (fun t => t.evtBit pgHalf evLinkUp = true ∧ (∀ k, (t.half k).linkUp = true) ∧
      (winner ⟨s.claimOf .A, s.claimOf .B⟩ = some h → (s.half .A).role = .split → (s.half .B).role = .split →
        (t.half h).role = .solo ∧ (t.half h.peer).role = .loading ∧ ∀ k, (t.half k).divAt = (s.half k).divAt)) := by
  have hhalf : ∀ k, (linkUp s).half k = s.relinked k (s.half k) := fun k => by
    rw [linkUp_of_heartbeats honA honB hdown hA hB, half_evtIf, half_setEvt, half_foldl_modHalf]
  refine ⟨_, rfl, ?_, fun k => by rw [hhalf]; rfl, fun hwin hsA hsB => ⟨?_, ?_, fun k => by rw [hhalf]; rfl⟩⟩
  · rw [linkUp_of_heartbeats honA honB hdown hA hB]
    exact (State.EvtsStay.refl _).evtIf _ _ _ _ _ (evtBit_setEvt_self _ _ _ (by decide))
  · simp [hhalf, State.relinked, apart_of_split hsA hsB, hwin]
  · simp [hhalf, State.relinked, apart_of_split hsA hsB, hwin, (Half.peer_ne h).symm]

/-- Settles O27: digests, self-tests and the loss and return of the link each do their work half by half, and leave the rest of a
half as the lemma of that step says. -/
theorem digestsAndTheLinkKeepStep : Obligations.DigestsAndTheLinkKeepStep :=
  ⟨fun _ _ peer _ _ => ⟨digestReceived_gives_of_match, digestReceived_gives_of_mismatch,
      fun hidle => ⟨_, rfl, digestReceived_of_idle peer hidle⟩, peerOkRise_gives, resyncOrder_gives, powerupSelftest_gives⟩,
    fun _ _ => ⟨heartbeatSend_gives, heartbeatReceived_gives, linkLost_gives, linkUp_gives⟩⟩

end Sys2Proof.Machine
end

section
/-!
PROOFS. Scope: a half loads from its publishing peer and joins it after its holdoff (O28).
-/

namespace Sys2Proof.Machine

/-! ## Work that leaves the times of a half's domains -/

/-- A domain's time, its beats and whether it has stepped. -/
def DomSt.timing (x : DomSt) : Nat × Nat × Bool := (x.t, x.done, x.stepped)

theorem timing_encode (x : DomSt) : x.encode.timing = x.timing := by
  simp only [DomSt.encode]
  split <;> rfl

theorem timing_closeTerms (x : DomSt) : x.closeTerms.timing = x.timing := by
  simp only [DomSt.closeTerms]
  split <;> rfl

/-- Inner work on a half that leaves the times of its domains. -/
structure State.LevelWork (h : Half) (s t : State) : Prop extends State.InnerWork h s t where
  timing : ∀ d, (t.dom h d).timing = (s.dom h d).timing

section
variable {h : Half} {s t u : State}

theorem State.LevelWork.refl (s : State) : s.LevelWork h s := ⟨.refl s, fun _ => rfl⟩

theorem State.LevelWork.trans (a : s.LevelWork h t) (b : t.LevelWork h u) : s.LevelWork h u :=
  ⟨a.toInnerWork.trans b.toInnerWork, fun d => (b.timing d).trans (a.timing d)⟩

theorem State.LevelWork.evtIf (a : s.LevelWork h t) (c : Bool) (pg b : Nat) : s.LevelWork h (t.evtIf c pg b) :=
  ⟨a.toInnerWork.evtIf c pg b, fun d => by rw [dom_evtIf, a.timing]⟩

theorem State.LevelWork.modDom (a : s.LevelWork h t) {d : Dom} {f : DomSt → DomSt} (hf : ∀ x, (f x).timing = x.timing) :
    s.LevelWork h (t.modDom h d f) where
  toInnerWork := a.toInnerWork.modHalf
  timing e := by
    by_cases he : e = d
    · rw [he, dom_modDom_self, hf, a.timing]
    · rw [dom_modDom_ne _ _ _ he, a.timing]

theorem levelWork_foldl {α : Type} {f : State → α → State} (hf : ∀ (a : State) x, a.LevelWork h (f a x)) (l : List α)
    (s : State) : s.LevelWork h (l.foldl f s) :=
  List.foldlRecOn l f (.refl s) fun _ hb x _ => hb.trans (hf _ x)

end

theorem levelWork_busNote (s : State) (h : Half) (d : Dom) : s.LevelWork h (s.busNote h d) where
  toInnerWork := innerWork_busNote s h d
  timing e := by rw [State.dom, State.busNote, half_modHalf_self, State.dom]

theorem levelWork_busNotes (s : State) (h : Half) : s.LevelWork h (s.busNotes h) :=
  levelWork_foldl (fun a d => levelWork_busNote a h d) allDoms s

theorem levelWork_spiritBeat (s : State) (h : Half) (d : Dom) : s.LevelWork h (s.spiritBeat h d) := by
  unfold State.spiritBeat
  extract_lets x0
  split
  extract_lets s1 x unbStepped comps ev rel free s2 b
  have hterms : s.LevelWork h s1 := .modDom (.refl s) timing_closeTerms
  have hlevels : s.LevelWork h s2 := by
    simp only [s2]
    split
    · exact hterms.modDom fun _ => rfl
    · exact hterms.modDom fun y => (timing_encode _).trans rfl
  exact (hlevels.evtIf _ _ _).evtIf _ _ _

/-! ## Loading (09 R302) -/

theorem dom_foldl_modDom (h : Half) (f : DomSt → DomSt) (s : State) (d : Dom) :
    (allDoms.foldl (fun a e => a.modDom h e f) s).dom h d = f (s.dom h d) := by
  obtain ⟨a, -, hbefore, -, hafter⟩ := foldl_sees_once (g := fun (a : State) e => a.modDom h e f) (R := fun _ _ => True)
    (look := fun a => a.dom h d) (fun _ => trivial) (fun _ _ => trivial) (fun _ _ => trivial)
    (fun a e he => dom_modDom_ne a h f (Ne.symm he)) (by decide : allDoms.Nodup) (by revert d; decide : d ∈ allDoms) s
  rw [hafter, dom_modDom_self, hbefore]

section
variable {s : State} {h : Half}

theorem resyncStart_of_test (hg : s.gridOn h = true) (hlink : (s.half h).linkUp = true) (hpeer : s.gridOn h.peer = true)
    (hpub : (s.half h.peer).publishes = true) (hrole : (s.half h).role = .test) (hok : (s.half h).selftestOk = true) :
    resyncStart h s = (allDoms.foldl (fun a d => a.modDom h d (fun y => y.unbound 3))
      (s.modHalf h (fun y => { y with role := .loading, load := some { started := true } }))).setEvt pgHalf evResyncStart := by
  have hplain : (Role.test == Role.peer || Role.test == Role.solo) = false := rfl
  have hnew : (Role.test != Role.loading) = true := rfl
  simp only [resyncStart, hg, hlink, hpeer, hpub, hrole, hok, hplain, hnew, State.evtIf]
  simp

theorem resyncStart_gives (hg : s.gridOn h = true) (hlink : (s.half h).linkUp = true) (hpeer : s.gridOn h.peer = true)
    (hpub : (s.half h.peer).publishes = true) (hrole : (s.half h).role = .test) (hok : (s.half h).selftestOk = true) :
    Gives (.resyncStart h) s (fun t => (t.half h).role = .loading ∧ (t.half h).load = some { started := true } ∧
      (∀ d, (t.dom h d).bound = 0xFFFF ∧ (t.dom h d).unb = 3) ∧ t.half h.peer = s.half h.peer ∧
      t.evtBit pgHalf evResyncStart = true) := by
  refine ⟨_, congrArg Host.Outcome.next (resyncStart_of_test hg hlink hpeer hpub hrole hok), ?_⟩
  beta_reduce
  generalize hs1 : s.modHalf h _ = s1
  have hself : (s1.half h).role = .loading ∧ (s1.half h).load = some { started := true } := by
    rw [← hs1, half_modHalf_self]; exact ⟨rfl, rfl⟩
  have hother : s1.half h.peer = s.half h.peer := by rw [← hs1, half_modHalf_ne _ _ (Half.peer_ne h)]
  have hdoms := innerWork_foldl (fun a d => innerWork_modDom a h d fun y => y.unbound 3) allDoms s1
  refine ⟨?_, ?_, fun d => ?_, ?_, evtBit_setEvt_self _ _ _ (by decide)⟩
  · rw [half_setEvt]; exact (congrArg HalfSt.role hdoms.bare).trans hself.1
  · rw [half_setEvt]; exact (congrArg HalfSt.load hdoms.bare).trans hself.2
  · rw [dom_of_halves (s := allDoms.foldl (fun a d => a.modDom h d fun y => y.unbound 3) s1) (by simp), dom_foldl_modDom]
    exact ⟨rfl, rfl⟩
  · rw [half_setEvt, hdoms.peer, hother]

theorem loadStateReceived_gives {l : Load} (hrole : (s.half h).role = .loading) (hload : (s.half h).load = some l)
    (hstart : l.started = true) (hgot : l.got < 32) (hg : s.gridOn h = true) :
    Gives (.loadStateReceived h) s (fun t =>
      (t.half h).load = some { l with got := l.got + 1 } ∧ (t.half h).role = .loading) := by
  have hgo : loadStateReceived h s = s.modHalf h (fun y => { y with load := some { l with got := l.got + 1 } }) := by
    simp [loadStateReceived, hrole, hload, hstart, hgot, hg]
  refine ⟨_, congrArg Host.Outcome.next hgo, ?_⟩
  beta_reduce
  rw [half_modHalf_self]
  exact ⟨rfl, hrole⟩

theorem timing_loadDom (s : State) (h : Half) (y : Int) (x : DomSt) : (loadDom s h y x).timing = x.timing := rfl

/-- What a half has once it has loaded from its peer: `p` is the peer, `x` the half before, `y` the half after (R302). -/
structure HalfSt.Loads (p x y : HalfSt) : Prop where
  role : y.role = .verify
  load : y.load = none
  late : y.late = p.late
  early : y.early = p.early
  resyncCnt : y.resyncCnt = x.resyncCnt + 1

/-- The loading half as it takes the peer's state, before its Spirit Level and its bus follow. -/
def State.takePeer (s : State) (h : Half) (temps : List Int) : State :=
  let s0 := s.takeTemps h temps
  let y := s0.gridOffset h
  let p := s0.half h.peer
  s0.modHalf h (fun v =>
    { v with
      grid := p.grid * (1 + rateQ (y : Rat)), gphase := p.gphase
      doms := p.doms.map (loadDom s0 h y), late := p.late, early := p.early
      slots := setAt (p.slots.map (slotLoaded p.doms y)) 31 (v.slots.get 31)
      role := if s.suspended then .solo else .verify, load := none, matchRun := 0, digest := none
      resyncCnt := v.resyncCnt + 1 })

theorem takePeer_spec (temps : List Int) (hsus : s.suspended = false) :
    (s.half h.peer).Loads (s.half h) ((s.takePeer h temps).half h) ∧ (s.takePeer h temps).half h.peer = s.half h.peer ∧
      ∀ d, ((s.takePeer h temps).dom h d).timing = (s.dom h.peer d).timing := by
  obtain ⟨v, m, x, htemps, -⟩ := half_takeTemps s h temps
  have hpeer : (s.takeTemps h temps).half h.peer = s.half h.peer := (oneDom_takeTemps s h temps 0).peer
  unfold State.takePeer
  dsimp only
  rw [half_modHalf_self, half_modHalf_ne _ _ (Half.peer_ne h), hpeer, htemps]
  refine ⟨⟨if_neg (by simp [hsus]), rfl, rfl, rfl, rfl⟩, rfl, fun d => ?_⟩
  rw [State.dom, half_modHalf_self, Vector.get_eq_getElem, Vector.getElem_map, timing_loadDom]
  rfl

theorem levelWork_loadInForce (temps : List Int) {l : Load} (hg : s.gridOn h = true) (hpeer : s.gridOn h.peer = true)
    (hrole : (s.half h).role = .loading) (hload : (s.half h).load = some l) (hstart : l.started = true) (hgot : 32 ≤ l.got) :
    (s.takePeer h temps).LevelWork h (loadInForce h temps s) := by
  have hgo : (s.gridOn h && (s.half h).role == .loading &&
      ((s.half h).load.elim false fun l => l.started && decide (32 ≤ l.got)) && s.gridOn h.peer) = true := by
    simp [hg, hpeer, hrole, hload, hstart, hgot]
  unfold loadInForce
  rw [if_pos hgo]
  extract_lets s0 y p s1 s2
  have htake : (s.takePeer h temps).LevelWork h s2 := ⟨⟨rfl, rfl⟩, fun _ => rfl⟩
  have hlevels := levelWork_foldl (h := h) (f := fun (a : State) d => if (a.dom h d).stepped then a.spiritBeat h d else a)
    (fun a d => by split; exacts [levelWork_spiritBeat a h d, .refl a]) allDoms s2
  exact (htake.trans hlevels).trans (levelWork_busNotes _ h)

theorem loadInForce_gives {l : Load} (ext : Int) (die common : Vector Int 6) (hg : s.gridOn h = true)
    (hpeer : s.gridOn h.peer = true) (hrole : (s.half h).role = .loading) (hload : (s.half h).load = some l)
    (hstart : l.started = true) (hgot : 32 ≤ l.got) (hsus : s.suspended = false) :
    Gives (.loadInForce h ext die common) s (fun t => (t.half h).role = .verify ∧ (t.half h).load = none ∧
      (t.half h).late = (s.half h.peer).late ∧ (t.half h).early = (s.half h.peer).early ∧
      (t.half h).resyncCnt = (s.half h).resyncCnt + 1 ∧ t.half h.peer = s.half h.peer ∧
      (∀ d, (t.dom h d).t = (s.dom h.peer d).t ∧ (t.dom h d).done = (s.dom h.peer d).done ∧
        (t.dom h d).stepped = (s.dom h.peer d).stepped)) := by
  obtain ⟨htake, hother, htimes⟩ := takePeer_spec (ext :: (die.toList ++ common.toList)) hsus
  have hwork := levelWork_loadInForce (ext :: (die.toList ++ common.toList)) hg hpeer hrole hload hstart hgot
  refine ⟨_, rfl, (congrArg HalfSt.role hwork.bare).trans htake.role, (congrArg HalfSt.load hwork.bare).trans htake.load,
    (congrArg HalfSt.late hwork.bare).trans htake.late, (congrArg HalfSt.early hwork.bare).trans htake.early,
    (congrArg HalfSt.resyncCnt hwork.bare).trans htake.resyncCnt, hwork.peer.trans hother, fun d => ?_⟩
  have htiming := (hwork.timing d).trans (htimes d)
  exact ⟨congrArg Prod.fst htiming, congrArg (fun x => x.2.1) htiming, congrArg (fun x => x.2.2) htiming⟩

/-! ## Joining (09 R304, R308) -/

theorem holdoffElapsed_of_due (hon : s.halfOn h = true) (hrole : (s.half h).role = .holdoff)
    (hdue : s.fieldAt pgHalf 0x040 23 16 * 1024 ≤ (s.half h).holdBeats) : holdoffElapsed h s = joinPeer h s :=
  if_pos (by simp [hon, hrole, hdue])

/-- A half that joins a publishing peer over a lost link runs apart from it, and a peer that has lost the link too runs apart from
it (R285, R308). -/
theorem joinPeer_of_unlinked (hlink : (s.half h).linkUp = false) (hpub : s.publishing h.peer = true) :
    joinPeer h s = (if (s.half h.peer).role == .peer && !(s.half h.peer).linkUp then enterSplit h.peer (enterSplit h s)
      else enterSplit h s).setEvt pgHalf evJoined := by
  simp [joinPeer, hlink, hpub]

theorem joinPeer_splits (hlink : (s.half h).linkUp = false) (hpub : s.publishing h.peer = true) :
    ((joinPeer h s).half h).role = .split ∧ ((joinPeer h s).half h).divAt.isSome = true ∧
      ((s.half h.peer).role = .peer → (s.half h.peer).linkUp = false →
        ((joinPeer h s).half h.peer).role = .split ∧ ((joinPeer h s).half h.peer).divAt.isSome = true) := by
  rw [joinPeer_of_unlinked hlink hpub, half_setEvt, half_setEvt]
  split
  · rw [half_enterSplit_ne (Half.peer_ne h).symm, half_enterSplit_self, half_enterSplit_self]
    exact ⟨rfl, rfl, fun _ _ => ⟨rfl, rfl⟩⟩
  · next hno =>
    rw [half_enterSplit_self]
    exact ⟨rfl, rfl, fun hr hl => absurd (by simp [hr, hl]) hno⟩

theorem joinPeer_joins (hno : ¬ ((s.half h).linkUp = false ∧ s.publishing h.peer = true)) :
    ((joinPeer h s).half h).role = .peer := by
  have hsplit : (!(s.half h).linkUp && s.publishing h.peer) = false := by simpa using hno
  simp [joinPeer, hsplit]

theorem holdoffElapsed_gives (hon : s.halfOn h = true) (hrole : (s.half h).role = .holdoff)
    (hdue : s.fieldAt pgHalf 0x040 23 16 * 1024 ≤ (s.half h).holdBeats) :
    Gives (.holdoffElapsed h) s (fun t => t.evtBit pgHalf evJoined = true ∧
      (t.half h).role = (if (s.half h).linkUp = false ∧ s.publishing h.peer = true then .split else .peer) ∧
      ((s.half h).linkUp = false → s.publishing h.peer = true → (t.half h).divAt.isSome = true ∧
        ((s.half h.peer).role = .peer → (s.half h.peer).linkUp = false →
          (t.half h.peer).role = .split ∧ (t.half h.peer).divAt.isSome = true))) := by
  refine ⟨_, congrArg Host.Outcome.next (holdoffElapsed_of_due hon hrole hdue), evtBit_setEvt_self _ _ _ (by decide), ?_,
    fun hlink hpub => (joinPeer_splits hlink hpub).2⟩
  split
  · next hapart => exact (joinPeer_splits hapart.1 hapart.2).1
  · next hno => exact joinPeer_joins hno

end

/-- Settles O28: a half starts to load, takes the peer's state as `takePeer_spec` says and joins as `joinPeer` does; what
follows the taking leaves its role, its sets and the times of its domains. -/
theorem halvesLoadAndJoin : Obligations.HalvesLoadAndJoin :=
  fun _ _ ext die common => ⟨resyncStart_gives, fun _ => loadStateReceived_gives, fun _ hg hpeer hrole hload hstart hgot =>
    loadInForce_gives ext die common hg hpeer hrole hload hstart hgot, holdoffElapsed_gives⟩

end Sys2Proof.Machine
end

section
/-!
PROOFS. Scope: jets start on a whole second, drive their outputs at their edges, and follow kills, ramps and switches (O37).
-/

namespace Sys2Proof.Machine

/-! ## What a jet reads of the state -/

theorem jet_of_jets {s t : State} (h : t.jets = s.jets) (j : JetNo) : t.jet j = s.jet j := by
  rw [State.jet, h, State.jet]

@[simp] theorem jet_setEvt (s : State) (pg b : Nat) (j : JetNo) : (s.setEvt pg b).jet j = s.jet j := jet_of_jets (by simp) j

@[simp] theorem jet_evtIf (s : State) (c : Bool) (pg b : Nat) (j : JetNo) : (s.evtIf c pg b).jet j = s.jet j :=
  jet_of_jets (by simp) j

theorem regs_of_pages {s t : State} (h : t.pages = s.pages) : t.reg = s.reg := by
  funext q o
  rw [reg_of_pages h]

theorem regs_setEvt (s : State) (pg b : Nat) : (s.setEvt pg b).reg = s.reg := by
  funext q o
  simp [reg_eq]

theorem regs_evtIf (s : State) (c : Bool) (pg b : Nat) : (s.evtIf c pg b).reg = s.reg := by
  funext q o
  simp [reg_eq]

theorem en_evtIf (s : State) (c : Bool) (pg b q : Nat) : ((s.evtIf c pg b).page q).en = (s.page q).en := by
  cases c with
  | false => rfl
  | true =>
    rw [State.evtIf, if_pos rfl]
    by_cases hq : q = pg
    · rw [hq, page_setEvt_self]
    · rw [page_setEvt_ne _ _ hq]

section
variable {s t : State} {j : JetNo} (hregs : t.reg = s.reg)
include hregs

theorem sqlLevel_congr : t.sqlLevel j = s.sqlLevel j := by rw [State.sqlLevel, State.bitAt, hregs]; rfl

theorem jetKillVal_congr : t.jetKillVal j = s.jetKillVal j := by rw [State.jetKillVal, State.fieldAt, hregs]; rfl

theorem jetFreq_congr : t.jetFreq j = s.jetFreq j := by
  simp only [State.jetFreq, State.jetPulse, State.fieldAt, State.bitAt, hregs]

theorem jetGuard_congr (hramp : (t.jet j).ramp = (s.jet j).ramp) : t.jetGuard j = s.jetGuard j := by
  unfold State.jetGuard State.jetTop State.jetWidth State.jetPulse State.fieldAt State.bitAt
  rw [jetFreq_congr hregs, hregs, hramp]

theorem jetFall_congr (hramp : (t.jet j).ramp = (s.jet j).ramp) (ho : (t.jet j).o = (s.jet j).o) (k : Int) (e : Rat) :
    t.jetFall j k e = s.jetFall j k e := by
  unfold State.jetFall State.jetAt State.jetFreqAt State.jetPeriod State.jetWidth State.jetPulse State.fieldAt State.bitAt
  rw [jetFreq_congr hregs, hregs, hramp, ho]

theorem restLevel_congr (hen : (t.page (pgJet j)).en = (s.page (pgJet j)).en) (hflt : t.flt = s.flt) :
    t.restLevel j = s.restLevel j := by
  unfold State.restLevel State.unit
  rw [jetKillVal_congr hregs, sqlLevel_congr hregs, hen, hflt]

end

/-! ## Work on one jet -/

/-- `t` differs from `s` in the jets at most on jet `j`, and events are added alone. -/
structure State.JetWork (j : JetNo) (s t : State) : Prop where
  evts : s.EvtsStay t
  others : ∀ k, k ≠ j → t.jet k = s.jet k

section
variable {j : JetNo} {s t u : State}

theorem State.JetWork.refl (s : State) : s.JetWork j s := ⟨.refl s, fun _ _ => rfl⟩

theorem State.JetWork.trans (a : s.JetWork j t) (b : t.JetWork j u) : s.JetWork j u :=
  ⟨a.evts.trans b.evts, fun k hk => (b.others k hk).trans (a.others k hk)⟩

theorem State.EvtsStay.jetWork (hevts : s.EvtsStay t) (hjets : t.jets = s.jets) : s.JetWork j t :=
  ⟨hevts, fun k _ => jet_of_jets hjets k⟩

theorem State.JetWork.modJet (a : s.JetWork j t) (f : JetSt → JetSt) : s.JetWork j (t.modJet j f) :=
  a.trans ⟨.modJet (.refl t) j f, fun _ hk => jet_modJet_ne t f hk⟩

theorem State.JetWork.evtIf (a : s.JetWork j t) (c : Bool) (pg b : Nat) : s.JetWork j (t.evtIf c pg b) :=
  a.trans (((State.EvtsStay.refl t).evtIf c pg b).jetWork (by simp))

theorem State.JetWork.setEvt (a : s.JetWork j t) (pg b : Nat) : s.JetWork j (t.setEvt pg b) := a.evtIf true pg b

end

theorem jetWork_misalign (j : JetNo) (s : State) : s.JetWork j (misalign j s) := .evtIf (.modJet (.refl s) _) _ _ _

theorem jetWork_placeOrigin (j : JetNo) (t : Nat) (s : State) : s.JetWork j (placeOrigin j t s) :=
  .modJet (jetWork_misalign j s) _

theorem jet_misalign (j : JetNo) (s : State) : (misalign j s).jet j = { s.jet j with aligned := false } := by
  rw [misalign, jet_evtIf, jet_modJet_self]

theorem jet_placeOrigin (j : JetNo) (t : Nat) (s : State) : (placeOrigin j t s).jet j =
    { s.jet j with
      aligned := false, phase := .wait, o := ((ceilSec (t + beatT) : Nat) : Rat), next := 0, fallAt := none, align := 0 } := by
  rw [placeOrigin, jet_modJet_self, jet_misalign]

/-! ## Starts (11 R352) -/

theorem ceilSec_whole (t : Nat) : ceilSec t % secondT = 0 := Nat.mul_mod_left _ _

/-- The engine as a start sets it, before it waits for the domain's step or for O. -/
def State.loadEngine (s : State) (j : JetNo) : State :=
  let s1 := s.modJet j (fun x => { x.drive (s.sqlLevel j) with
    dly := s.sfieldAt (pgJet j) 0x058 31 0, unc := BitVec.ofNat 16 (s.fieldAt (pgJet j) 0x05C 15 0), planeSet := x.planeW
    dom := s.jetDom j, stop := false, again := false, sq := false, ramp := none, half := s.jetWant j })
  s1.modJet j (fun x => { x with sqWant := !s1.jetOk j })

theorem jetWork_loadEngine (s : State) (j : JetNo) : s.JetWork j (s.loadEngine j) := .modJet (.modJet (.refl s) _) _

theorem jet_loadEngine (s : State) (j : JetNo) :
    ((s.loadEngine j).jet j).level = (if (s.jet j).driverBad then .hiz else s.sqlLevel j) ∧
      ((s.loadEngine j).jet j).half = s.jetWant j := by
  unfold State.loadEngine
  dsimp only
  rw [jet_modJet_self, jet_modJet_self]
  exact ⟨rfl, rfl⟩

section
variable {s : State} {j : JetNo}

theorem startJet_of_ready (hoff : (s.jet j).phase = .off) (hready : s.jetReady j = true) : startJet j s =
    if s.bitAt (pgJet j) 0x040 12 && !s.busStepped (s.jetDom j) then
      (misalign j (s.loadEngine j)).modJet j (fun x => { x with phase := .forStep, fallAt := none, align := 0 })
    else placeOrigin j (s.busTime (s.jetDom j)) (s.loadEngine j) := by
  rw [startJet, if_neg (by simp [hoff]), if_neg (by simp [hready])]
  rfl

theorem jetStart_gives (hoff : (s.jet j).phase = .off) (hready : s.jetReady j = true)
    (hgo : s.bitAt (pgJet j) 0x040 12 = false ∨ s.busStepped (s.jetDom j) = true) :
    Gives (.jetStart j) s (fun t =>
      (t.jet j).phase = .wait ∧ (t.jet j).o = ((ceilSec (s.busTime (s.jetDom j) + beatT) : Nat) : Rat) ∧
      ceilSec (s.busTime (s.jetDom j) + beatT) % secondT = 0 ∧ (t.jet j).aligned = false ∧
      (t.jet j).level = (if (s.jet j).driverBad then .hiz else s.sqlLevel j) ∧
      (t.jet j).half = s.jetWant j ∧ (∀ k, k ≠ j → t.jet k = s.jet k)) := by
  have hplaced : startJet j s = placeOrigin j (s.busTime (s.jetDom j)) (s.loadEngine j) := by
    rw [startJet_of_ready hoff hready]
    exact if_neg (by rcases hgo with h | h <;> simp [h])
  obtain ⟨hlevel, hhalf⟩ := jet_loadEngine s j
  have hwork := (jetWork_loadEngine s j).trans (jetWork_placeOrigin j (s.busTime (s.jetDom j)) _)
  refine ⟨_, congrArg Host.Outcome.next hplaced, ?_⟩
  beta_reduce
  rw [jet_placeOrigin]
  exact ⟨rfl, rfl, ceilSec_whole _, rfl, hlevel, hhalf, hwork.others⟩

theorem jetStart_gives_forStep (hoff : (s.jet j).phase = .off) (hready : s.jetReady j = true)
    (hstart : s.bitAt (pgJet j) 0x040 12 = true) (hstep : s.busStepped (s.jetDom j) = false) :
    Gives (.jetStart j) s (fun t => (t.jet j).phase = .forStep ∧ (∀ k, k ≠ j → t.jet k = s.jet k)) := by
  have hwork := ((jetWork_loadEngine s j).trans (jetWork_misalign j _)).modJet
    (fun x => { x with phase := .forStep, fallAt := none, align := 0 })
  have hwaits := (startJet_of_ready hoff hready).trans (if_pos (by simp [hstart, hstep]))
  refine ⟨_, congrArg Host.Outcome.next hwaits, ?_, hwork.others⟩
  rw [jet_modJet_self]

theorem started_gives (hwait : (s.jet j).phase = .wait) (hdue : (s.jet j).o ≤ s.jetTime j 1250) :
    Gives (.started j) s (fun t => (t.jet j).phase = .run ∧ (t.jet j).aligned = true ∧ (t.jet j).align = 0 ∧
      (t.jet j).sq = (s.jet j).sqWant ∧ t.evtBit (pgJet j) evStarted = true ∧ (∀ k, k ≠ j → t.jet k = s.jet k)) := by
  refine ⟨_, congrArg Host.Outcome.next (if_pos ⟨hwait, hdue⟩), ?_⟩
  beta_reduce
  rw [jet_setEvt, jet_modJet_self]
  exact ⟨rfl, rfl, rfl, rfl, evtBit_setEvt_self _ _ _ (by decide), ((State.JetWork.modJet (.refl s) _).setEvt _ _).others⟩

theorem started_of_early (hno : (s.jet j).phase ≠ .wait ∨ s.jetTime j 1250 < (s.jet j).o) : started j s = s := by
  refine if_neg fun ⟨hwait, hdue⟩ => ?_
  rcases hno with hphase | hearly
  · exact hphase hwait
  · exact absurd hdue (not_le.mpr hearly)

end

/-! ## Edges at the output (11 R357, R359) -/

theorem drive_of_good {x : JetSt} (hgood : x.driverBad = false) (l : JetLevel) : x.drive l = { x with level := l } := by
  rw [JetSt.drive, if_neg (by simp [hgood])]

/-- An edge at a domain time ends no phase of the output shorter than the guard (R359). -/
def State.edgeFits (s : State) (j : JetNo) (e : Rat) : Prop :=
  ∀ l, (s.jet j).lastAt = some l → psUnits (s.jetGuard j) ≤ e - l

/-- The output after an edge that reaches the balls. -/
def State.driveEdge (s : State) (j : JetNo) (l : JetLevel) (e : Rat) : State :=
  s.modJet j (fun y => { y.drive l with lastAt := some e, lastPs := s.jetPs j e, place := s.jetPlace j e })

section
variable {s : State} {j : JetNo} {l : JetLevel} {e : Rat}

theorem jetEdge_of_fits (hl : (s.jet j).level ≠ l) (hfits : s.edgeFits j e) : jetEdge j l e s = (s.driveEdge j l e, true) := by
  unfold jetEdge
  extract_lets x short
  have hshort : short = false := by
    simp only [short, x]
    cases hlast : (s.jet j).lastAt with
    | none => rfl
    | some t => simpa using hfits t hlast
  exact if_neg (by simp [hshort, x, hl])

theorem jet_driveEdge (hgood : (s.jet j).driverBad = false) :
    ∃ p pl, (s.driveEdge j l e).jet j = { s.jet j with level := l, lastAt := some e, lastPs := p, place := pl } := by
  refine ⟨s.jetPs j e, s.jetPlace j e, ?_⟩
  rw [State.driveEdge, jet_modJet_self, drive_of_good hgood]

theorem jetEdge_of_withheld (hno : (s.jet j).level = l ∨ ¬ s.edgeFits j e) : jetEdge j l e s = (s, false) := by
  unfold jetEdge
  extract_lets x short
  refine if_pos (hno.imp_right fun hshort => ?_)
  unfold State.edgeFits at hshort
  push Not at hshort
  obtain ⟨t, hlast, hlt⟩ := hshort
  simp [short, x, hlast, hlt]

end

/-! ## A jet page's boundary without words (11 R357, R600) -/

/-- No word waits for the jet page's boundary. -/
def State.noJetWords (s : State) (j : JetNo) : Prop := (s.page (pgJet j)).captured = none ∧ (s.page (pgJet j)).shadow = []

/-- The output of a running engine at a boundary: at the squelch level while it is squelched. -/
def JetSt.settled (x : JetSt) (l : JetLevel) : JetSt := if x.sq then x.drive l else x

theorem settled_keeps (x : JetSt) (l : JetLevel) :
    (x.settled l).phase = x.phase ∧ (x.settled l).ramp = x.ramp ∧ (x.settled l).o = x.o := by
  unfold JetSt.settled
  split <;> exact ⟨rfl, rfl, rfl⟩

theorem dueWords_of_none {p : Page} (hcap : p.captured = none) (hshadow : p.shadow = []) : p.dueWords = [] := by
  unfold Page.dueWords
  rw [hcap, hshadow]
  exact ite_self _

theorem jetChange_of_same {a b : State} (hregs : b.reg = a.reg) (j : JetNo) : jetChange a b j false = (false, false) := by
  simp [jetChange, State.fieldAt, hregs]

section
variable {s : State} {j : JetNo}

theorem noJetWords_of_pages {t : State} (hpages : t.pages = s.pages) (hno : s.noJetWords j) : t.noJetWords j := by
  rwa [State.noJetWords, page_of_pages hpages]

theorem boundary_of_noJetWords (hno : s.noJetWords j) : boundary s (pgJet j) = s :=
  if_pos (by simp [hno.1, hno.2])

theorem settleLevel_of_run (hrun : (s.jet j).phase = .run) :
    (settleLevel j s).jet j = (s.jet j).settled (s.sqlLevel j) ∧ (settleLevel j s).pages = s.pages := by
  refine ⟨?_, by simp⟩
  unfold settleLevel JetSt.settled
  dsimp only
  rw [if_neg (not_not.mpr hrun)]
  split
  · exact jet_modJet_self _ _ _
  · rfl

theorem jetBoundary_of_noJetWords (hno : s.noJetWords j) (hrun : (s.jet j).phase = .run) (k : Int) (e : Rat) :
    (jetBoundary j (some (k, e)) s).jet j =
        { (s.jet j).settled (s.sqlLevel j) with fallAt := some (s.jetFall j k e) } ∧
      (jetBoundary j (some (k, e)) s).pages = s.pages := by
  unfold jetBoundary
  extract_lets pg ws has cmd s1 s2
  have hws : ws = [] := dueWords_of_none hno.1 hno.2
  have hhas : ∀ off, has off = false := fun off => by simp only [has, hws]; rfl
  have hcmd : cmd = false := by
    simp only [cmd, dueBits, pg, dueWords_of_none hno.1 hno.2]
    rfl
  have hs1 : s1 = s := boundary_of_noJetWords hno
  have hs2 : s2 = settleLevel j (s.modJet j id) := by
    simp only [s2, hhas, hs1, Bool.or_false]
    rfl
  have hself : (s.modJet j id).jet j = s.jet j := jet_modJet_self s j id
  obtain ⟨hjet, hpages⟩ := settleLevel_of_run (s := s.modJet j id) (j := j) (by rw [hself]; exact hrun)
  rw [← hs2, hself] at hjet
  rw [← hs2] at hpages
  have hregs : s2.reg = s.reg := regs_of_pages hpages
  obtain ⟨hphase, hramp, ho⟩ := settled_keeps (s.jet j) ((s.modJet j id).sqlLevel j)
  rw [← hjet] at hphase hramp ho
  rw [hcmd, jetChange_of_same hregs, hphase.trans hrun]
  dsimp only
  rw [if_neg Bool.false_ne_true, if_neg Bool.false_ne_true, if_neg Bool.false_ne_true, jet_modJet_self, hjet,
    jetFall_congr hregs hramp ho]
  exact ⟨rfl, hpages⟩

/-- A jet that has noted its bound and taken its page's boundary without words, after rising edge `k` at `e`. -/
theorem jetBoundary_noteBound (hno : s.noJetWords j) (hrun : (s.jet j).phase = .run) (k : Int) (e late : Rat) :
    (∃ b, (jetBoundary j (some (k, e)) (noteBound j late s)).jet j =
        { (s.jet j).settled (s.sqlLevel j) with fallAt := some (s.jetFall j k e), bound := b }) ∧
      (jetBoundary j (some (k, e)) (noteBound j late s)).pages = s.pages := by
  obtain ⟨b, hb⟩ : ∃ b, (noteBound j late s).jet j = { s.jet j with bound := b } := ⟨_, jet_modJet_self _ _ _⟩
  have hpages : (noteBound j late s).pages = s.pages := rfl
  have hfall : (noteBound j late s).jetFall j k e = s.jetFall j k e :=
    jetFall_congr (regs_of_pages hpages) (by rw [hb]) (by rw [hb]) k e
  have hsql : (noteBound j late s).sqlLevel j = s.sqlLevel j := sqlLevel_congr (regs_of_pages hpages)
  have hset : ∀ l, ({ s.jet j with bound := b } : JetSt).settled l = { (s.jet j).settled l with bound := b } := fun l => by
    unfold JetSt.settled
    split <;> rfl
  obtain ⟨hjet, hsame⟩ := jetBoundary_of_noJetWords (s := noteBound j late s) (noJetWords_of_pages hpages hno)
    (by rw [hb]; exact hrun) k e
  refine ⟨⟨b, ?_⟩, hsame.trans hpages⟩
  rw [hjet, hb, hset, hfall, hsql]

end

/-! ## The rising edge (11 R351, R357, R359) -/

/-- A rising edge taken, before it reaches the output: an unsquelch takes effect, and the falling edge that follows is named. -/
def State.takeRise (s : State) (j : JetNo) (k : Int) (e : Rat) : State :=
  (s.modJet j (fun y => { y with sq := y.sq && y.sqWant, next := k + 1, fallAt := some (s.jetFall j k e) })).evtIf
    ((s.jet j).sq && !(s.jet j).sqWant) (pgJet j) evUnsquelch

section
variable {s : State} {j : JetNo} {sub : Nat} {k : Int} {e : Rat}

theorem jet_takeRise (s : State) (j : JetNo) (k : Int) (e : Rat) : (s.takeRise j k e).jet j =
    { s.jet j with sq := (s.jet j).sq && (s.jet j).sqWant, next := k + 1, fallAt := some (s.jetFall j k e) } := by
  rw [State.takeRise, jet_evtIf, jet_modJet_self]

theorem regs_takeRise (s : State) (j : JetNo) (k : Int) (e : Rat) : (s.takeRise j k e).reg = s.reg := by
  rw [State.takeRise, regs_evtIf]
  rfl

theorem noJetWords_takeRise (hno : s.noJetWords j) (k : Int) (e : Rat) : (s.takeRise j k e).noJetWords j := by
  unfold State.takeRise State.evtIf
  split
  · rw [State.noJetWords, page_setEvt_self]
    exact hno
  · exact hno

theorem edgeFits_takeRise : (s.takeRise j k e).edgeFits j e ↔ s.edgeFits j e := by
  have hguard : (s.takeRise j k e).jetGuard j = s.jetGuard j :=
    jetGuard_congr (regs_takeRise s j k e) (by rw [jet_takeRise])
  rw [State.edgeFits, hguard, jet_takeRise, State.edgeFits]

theorem jetFall_takeRise : (s.takeRise j k e).jetFall j k e = s.jetFall j k e :=
  jetFall_congr (regs_takeRise s j k e) (by rw [jet_takeRise]) (by rw [jet_takeRise]) k e

theorem jetPeriodEdge_of_due (hstream : s.jetStream j = true) (hdue : s.riseDue j (s.jetTime j (sub : Rat)) = some (k, e)) :
    jetPeriodEdge j sub s =
      let r := if ((s.takeRise j k e).jet j).sq then (s.takeRise j k e, true) else jetEdge j .high e (s.takeRise j k e)
      if r.2 then jetBoundary j (some (k, e)) (noteBound j 0 r.1) else r.1 := by
  simp only [jetPeriodEdge, hstream, hdue]
  rfl

theorem jetPeriodEdge_of_none (hno : s.jetStream j = false ∨ s.riseDue j (s.jetTime j (sub : Rat)) = none) :
    jetPeriodEdge j sub s = s := by
  have hnone : (if s.jetStream j then s.riseDue j (s.jetTime j (sub : Rat)) else none) = none := by
    rcases hno with h | h <;> simp [h]
  rw [jetPeriodEdge, hnone]

theorem phase_of_stream (hstream : s.jetStream j = true) : (s.jet j).phase = .run := by
  simp only [State.jetStream, Bool.and_eq_true, beq_iff_eq] at hstream
  exact hstream.1

section
variable (hstream : s.jetStream j = true) (hdue : s.riseDue j (s.jetTime j (sub : Rat)) = some (k, e))
include hstream hdue

/-- A rising edge that is withheld leaves the output. -/
theorem jetPeriodEdge_of_withheld (hsq : ((s.jet j).sq && (s.jet j).sqWant) = false)
    (hno : (s.jet j).level = .high ∨ ¬ s.edgeFits j e) : jetPeriodEdge j sub s = s.takeRise j k e := by
  have hsq1 : ((s.takeRise j k e).jet j).sq = false := by rw [jet_takeRise]; exact hsq
  have hno1 : ((s.takeRise j k e).jet j).level = .high ∨ ¬ (s.takeRise j k e).edgeFits j e := by
    rw [edgeFits_takeRise, jet_takeRise]; exact hno
  rw [jetPeriodEdge_of_due hstream hdue, hsq1, jetEdge_of_withheld hno1]
  rfl

/-- A rising edge under squelch holds the output at the squelch level. -/
theorem jetPeriodEdge_squelched (hwords : s.noJetWords j) (hgood : (s.jet j).driverBad = false) (hsq : (s.jet j).sq = true)
    (hwant : (s.jet j).sqWant = true) :
    let t := jetPeriodEdge j sub s
    (t.jet j).sq = true ∧ (t.jet j).level = s.sqlLevel j ∧ (t.jet j).next = k + 1 := by
  have hsq1 : ((s.takeRise j k e).jet j).sq = true := by rw [jet_takeRise]; simp [hsq, hwant]
  have hrise : jetPeriodEdge j sub s = jetBoundary j (some (k, e)) (noteBound j 0 (s.takeRise j k e)) := by
    rw [jetPeriodEdge_of_due hstream hdue, hsq1]
    rfl
  have hrun : ((s.takeRise j k e).jet j).phase = .run := by rw [jet_takeRise]; exact phase_of_stream hstream
  obtain ⟨⟨b, hjet⟩, -⟩ := jetBoundary_noteBound (noJetWords_takeRise hwords k e) hrun k e 0
  dsimp only
  rw [hrise, hjet, JetSt.settled, hsq1, if_pos rfl, sqlLevel_congr (regs_takeRise s j k e), jet_takeRise]
  exact ⟨by simp [JetSt.drive, hsq, hwant], if_neg (by simp [hgood]), rfl⟩

/-- A rising edge that reaches the balls: what the output and the page have after it. -/
theorem jetPeriodEdge_drives (hwords : s.noJetWords j) (hgood : (s.jet j).driverBad = false)
    (hsq : ((s.jet j).sq && (s.jet j).sqWant) = false) (hlevel : (s.jet j).level ≠ .high) (hfits : s.edgeFits j e) :
    let t := jetPeriodEdge j sub s
    ((t.jet j).level = .high ∧ (t.jet j).lastAt = some e ∧ (t.jet j).next = k + 1 ∧
      (t.jet j).fallAt = some (s.jetFall j k e) ∧ (t.jet j).phase = .run) ∧
      (t.jet j).sq = false ∧ t.pages = (s.takeRise j k e).pages := by
  have hsq1 : ((s.takeRise j k e).jet j).sq = false := by rw [jet_takeRise]; exact hsq
  have hlevel1 : ((s.takeRise j k e).jet j).level ≠ .high := by rw [jet_takeRise]; exact hlevel
  have hgood1 : ((s.takeRise j k e).jet j).driverBad = false := by rw [jet_takeRise]; exact hgood
  have hrise : jetPeriodEdge j sub s =
      jetBoundary j (some (k, e)) (noteBound j 0 ((s.takeRise j k e).driveEdge j .high e)) := by
    rw [jetPeriodEdge_of_due hstream hdue, hsq1, if_neg Bool.false_ne_true,
      jetEdge_of_fits hlevel1 (edgeFits_takeRise.mpr hfits)]
    rfl
  obtain ⟨p, pl, hdrive⟩ := jet_driveEdge (l := .high) (e := e) hgood1
  have hpages : ((s.takeRise j k e).driveEdge j .high e).pages = (s.takeRise j k e).pages := rfl
  have hfall : ((s.takeRise j k e).driveEdge j .high e).jetFall j k e = s.jetFall j k e :=
    (jetFall_congr (regs_of_pages hpages) (by rw [hdrive]) (by rw [hdrive]) k e).trans jetFall_takeRise
  obtain ⟨⟨b, hjet⟩, hsame⟩ := jetBoundary_noteBound (noJetWords_of_pages hpages (noJetWords_takeRise hwords k e))
    (by rw [hdrive, jet_takeRise]; exact phase_of_stream hstream) k e 0
  have hset : (((s.takeRise j k e).driveEdge j .high e).jet j).settled
      (((s.takeRise j k e).driveEdge j .high e).sqlLevel j) = ((s.takeRise j k e).driveEdge j .high e).jet j :=
    if_neg (by rw [hdrive]; simp [hsq1])
  dsimp only
  rw [hrise, hjet, hset, hfall, hdrive, jet_takeRise]
  exact ⟨⟨rfl, rfl, rfl, rfl, phase_of_stream hstream⟩, hsq, hsame.trans hpages⟩

theorem jetPeriodEdge_withheld_gives (hsq : (s.jet j).sq = false) (hno : (s.jet j).level = .high ∨ ¬ s.edgeFits j e) :
    Gives (.jetPeriodEdge j sub) s (fun t => (t.jet j).level = (s.jet j).level ∧ (t.jet j).lastAt = (s.jet j).lastAt ∧
      (t.jet j).next = k + 1 ∧ t.pages = s.pages) := by
  refine ⟨_, congrArg Host.Outcome.next (jetPeriodEdge_of_withheld hstream hdue (by simp [hsq]) hno), ?_⟩
  beta_reduce
  rw [jet_takeRise, State.takeRise, hsq]
  exact ⟨rfl, rfl, rfl, rfl⟩

theorem jetPeriodEdge_unsquelch_gives (hwords : s.noJetWords j) (hgood : (s.jet j).driverBad = false)
    (hsq : (s.jet j).sq = true) (hwant : (s.jet j).sqWant = false) :
    Gives (.jetPeriodEdge j sub) s (fun t => (t.jet j).sq = false ∧ t.evtBit (pgJet j) evUnsquelch = true ∧
      (t.jet j).next = k + 1) := by
  have hend : ((s.jet j).sq && (s.jet j).sqWant) = false := by simp [hwant]
  have hevt : (s.takeRise j k e).evtBit (pgJet j) evUnsquelch = true := by
    rw [State.takeRise, State.evtIf, if_pos (by simp [hsq, hwant])]
    exact evtBit_setEvt_self _ _ _ (by decide)
  refine ⟨_, rfl, ?_⟩
  by_cases hdrive : (s.jet j).level ≠ .high ∧ s.edgeFits j e
  · obtain ⟨⟨-, -, hnext, -, -⟩, hsqt, hpages⟩ := jetPeriodEdge_drives hstream hdue hwords hgood hend hdrive.1 hdrive.2
    exact ⟨hsqt, by rw [State.evtBit, hpages]; exact hevt, hnext⟩
  · beta_reduce
    rw [jetPeriodEdge_of_withheld hstream hdue hend (by tauto), jet_takeRise]
    exact ⟨hend, hevt, rfl⟩

end

end

/-! ## The falling edge (11 R351, R357 to R360) -/

/-- A falling edge taken, before it reaches the output. -/
def State.takeFall (s : State) (j : JetNo) : State := s.modJet j (fun y => { y with fallAt := none })

/-- What a falling edge carries out once the output is `u`: a squelch, then a stop (R357, R358, R360). -/
def State.endFall (s : State) (j : JetNo) (u : State) : State :=
  let s2 := if (s.jet j).sqWant && !(s.jet j).sq then
      (u.modJet j (fun y => { y.drive (u.sqlLevel j) with sq := true })).setEvt (pgJet j) evSquelch
    else u
  if (s.jet j).stop then
    let s3 := haltJet j s2
    if (s.jet j).again then startJet j s3 else s3
  else s2

section
variable {s : State} {j : JetNo} {e : Rat}

theorem edgeFits_takeFall : (s.takeFall j).edgeFits j e ↔ s.edgeFits j e := by
  have hjet : (s.takeFall j).jet j = { s.jet j with fallAt := none } := jet_modJet_self _ _ _
  have hguard : (s.takeFall j).jetGuard j = s.jetGuard j := jetGuard_congr rfl (by rw [hjet])
  rw [State.edgeFits, hguard, hjet, State.edgeFits]

theorem jetFallingEdge_of_none (hno : s.jetStream j = false ∨ (s.jet j).fallAt = none ∨
    (∀ f, (s.jet j).fallAt = some f → s.jetTime j 1250 < f)) : jetFallingEdge j s = s := by
  cases hfall : (s.jet j).fallAt with
  | none => rw [jetFallingEdge, hfall]
  | some f =>
    have hidle : s.jetStream j = false ∨ s.jetTime j 1250 < f := by
      rcases hno with h | h | h
      · exact .inl h
      · rw [hfall] at h; cases h
      · exact .inr (h f hfall)
    simp only [jetFallingEdge, hfall]
    exact if_pos hidle

section
variable (hstream : s.jetStream j = true) (hfall : (s.jet j).fallAt = some e) (hdue : e ≤ s.jetTime j 1250)
include hstream hfall hdue

theorem jetFallingEdge_of_due : jetFallingEdge j s =
    let r := if (s.jet j).sq || (s.jet j).level != .high then (s.takeFall j, true) else jetEdge j .low e (s.takeFall j)
    if !r.2 then r.1 else s.endFall j r.1 := by
  have hgo : ¬ (s.jetStream j = false ∨ s.jetTime j 1250 < e) := by simp [hstream, hdue]
  simp only [jetFallingEdge, hfall]
  rw [if_neg hgo]
  rfl

theorem jetFallingEdge_withheld_gives (hsq : (s.jet j).sq = false) (hlevel : (s.jet j).level = .high) (hno : ¬ s.edgeFits j e) :
    Gives (.jetFallingEdge j) s (fun t => (t.jet j).level = .high ∧ (t.jet j).fallAt = none ∧
      (t.jet j).stop = (s.jet j).stop ∧ t.pages = s.pages) := by
  have hheld : jetFallingEdge j s = s.takeFall j := by
    have hhigh : ((s.jet j).sq || (s.jet j).level != .high) = false := by simp [hsq, hlevel]
    rw [jetFallingEdge_of_due hstream hfall hdue, hhigh, jetEdge_of_withheld (.inr (edgeFits_takeFall.not.mpr hno))]
    rfl
  refine ⟨_, congrArg Host.Outcome.next hheld, ?_⟩
  beta_reduce
  rw [State.takeFall, jet_modJet_self]
  exact ⟨hlevel, rfl, rfl, rfl⟩

/-- A falling edge of a high output that reaches the balls. -/
theorem jetFallingEdge_of_fits (hsq : (s.jet j).sq = false) (hlevel : (s.jet j).level = .high) (hfits : s.edgeFits j e) :
    jetFallingEdge j s = s.endFall j ((s.takeFall j).driveEdge j .low e) := by
  have hlevel1 : ((s.takeFall j).jet j).level ≠ .low := by rw [State.takeFall, jet_modJet_self]; simp [hlevel]
  have hhigh : ((s.jet j).sq || (s.jet j).level != .high) = false := by simp [hsq, hlevel]
  rw [jetFallingEdge_of_due hstream hfall hdue, hhigh, jetEdge_of_fits hlevel1 (edgeFits_takeFall.mpr hfits)]
  rfl

/-- The output `u` on which a falling edge that is not withheld carries out what waits: the pages, the faults and the jet's
driver stand. -/
theorem jetFallingEdge_reaches (hgood : (s.jet j).driverBad = false)
    (hgo : (s.jet j).sq = true ∨ (s.jet j).level ≠ .high ∨ s.edgeFits j e) :
    ∃ u, jetFallingEdge j s = s.endFall j u ∧ u.pages = s.pages ∧ u.flt = s.flt ∧ (u.jet j).driverBad = false := by
  by_cases hidle : (s.jet j).sq = true ∨ (s.jet j).level ≠ .high
  · refine ⟨s.takeFall j, ?_, rfl, rfl, ?_⟩
    · have hlow : ((s.jet j).sq || (s.jet j).level != .high) = true := by simpa using hidle
      rw [jetFallingEdge_of_due hstream hfall hdue, hlow]
      rfl
    · rw [State.takeFall, jet_modJet_self]
      exact hgood
  · have hgood1 : ((s.takeFall j).jet j).driverBad = false := by rw [State.takeFall, jet_modJet_self]; exact hgood
    obtain ⟨p, pl, hdrive⟩ := jet_driveEdge (l := .low) (e := e) hgood1
    exact ⟨_, jetFallingEdge_of_fits hstream hfall hdue (by simpa using fun h => hidle (.inl h))
      (not_not.mp fun h => hidle (.inr h)) (by tauto), rfl, rfl, by rw [hdrive]; exact hgood1⟩

theorem jetFallingEdge_squelch_gives (hgood : (s.jet j).driverBad = false)
    (hgo : (s.jet j).sq = true ∨ (s.jet j).level ≠ .high ∨ s.edgeFits j e) (hstop : (s.jet j).stop = false)
    (hsq : (s.jet j).sq = false) (hwant : (s.jet j).sqWant = true) :
    Gives (.jetFallingEdge j) s (fun t => (t.jet j).sq = true ∧ (t.jet j).level = s.sqlLevel j ∧
      t.evtBit (pgJet j) evSquelch = true) := by
  obtain ⟨u, hu, hpages, -, hgoodu⟩ := jetFallingEdge_reaches hstream hfall hdue hgood hgo
  have hend : s.endFall j u =
      (u.modJet j (fun y => { y.drive (u.sqlLevel j) with sq := true })).setEvt (pgJet j) evSquelch := by
    simp [State.endFall, hstop, hsq, hwant]
  refine ⟨_, congrArg Host.Outcome.next (hu.trans hend), ?_⟩
  beta_reduce
  rw [jet_setEvt, jet_modJet_self, drive_of_good hgoodu]
  exact ⟨rfl, sqlLevel_congr (regs_of_pages hpages), evtBit_setEvt_self _ _ _ (by decide)⟩

theorem jetFallingEdge_low_gives (hgood : (s.jet j).driverBad = false) (hfits : s.edgeFits j e) (hstop : (s.jet j).stop = false)
    (hsq : (s.jet j).sq = false) (hwant : (s.jet j).sqWant = false) (hlevel : (s.jet j).level = .high) :
    Gives (.jetFallingEdge j) s (fun t => (t.jet j).level = .low ∧ (t.jet j).lastAt = some e ∧
      (t.jet j).fallAt = none ∧ (t.jet j).phase = .run ∧ t.pages = s.pages) := by
  have hend : ∀ u, s.endFall j u = u := fun u => by simp [State.endFall, hstop, hwant]
  have hfell : (s.takeFall j).jet j = { s.jet j with fallAt := none } := jet_modJet_self _ _ _
  obtain ⟨p, pl, hdrive⟩ := jet_driveEdge (s := s.takeFall j) (j := j) (l := .low) (e := e) (by rw [hfell]; exact hgood)
  refine ⟨_, congrArg Host.Outcome.next ((jetFallingEdge_of_fits hstream hfall hdue hsq hlevel hfits).trans (hend _)), ?_⟩
  beta_reduce
  rw [hdrive, hfell]
  exact ⟨rfl, rfl, rfl, phase_of_stream hstream, rfl⟩

theorem jetFallingEdge_stop_gives (hgood : (s.jet j).driverBad = false)
    (hgo : (s.jet j).sq = true ∨ (s.jet j).level ≠ .high ∨ s.edgeFits j e) (hstop : (s.jet j).stop = true)
    (hagain : (s.jet j).again = false) :
    Gives (.jetFallingEdge j) s (fun t => (t.jet j).level = s.restLevel j ∧ (t.jet j).phase = .off) := by
  obtain ⟨u, hu, hpages, hflt, hgoodu⟩ := jetFallingEdge_reaches hstream hfall hdue hgood hgo
  have hend : ∃ v, s.endFall j u = haltJet j v ∧ v.restLevel j = s.restLevel j ∧ (v.jet j).driverBad = false := by
    unfold State.endFall
    dsimp only
    rw [hstop, hagain, if_pos rfl, if_neg Bool.false_ne_true]
    refine ⟨_, rfl, ?_⟩
    split
    · refine ⟨restLevel_congr ((regs_setEvt _ _ _).trans (regs_of_pages hpages)) ?_ (by simpa using hflt), ?_⟩
      · exact (en_evtIf _ true _ _ _).trans (congrArg Page.en (page_of_pages hpages _))
      · rw [jet_setEvt, jet_modJet_self]
        exact hgoodu
    · exact ⟨restLevel_congr (regs_of_pages hpages) (congrArg Page.en (page_of_pages hpages _)) hflt, hgoodu⟩
  obtain ⟨v, hv, hrest, hgoodv⟩ := hend
  refine ⟨_, congrArg Host.Outcome.next (hu.trans hv), ?_⟩
  beta_reduce
  rw [haltJet, jet_modJet_self, drive_of_good hgoodv]
  exact ⟨hrest, rfl⟩

end

end

/-! ## Restarts, ramps and kills (11 R358, R360, R361) -/

section
variable {s : State} {j : JetNo}

theorem stopJet_of_run (hrun : (s.jet j).phase = .run) (again : Bool) :
    stopJet j again s = s.modJet j (fun x => { x with stop := true, again := again }) := by
  rw [stopJet, hrun]

theorem jetRestart_gives (hrun : (s.jet j).phase = .run) : Gives (.jetRestart j) s (fun t =>
    (t.jet j).phase = .run ∧ (t.jet j).stop = true ∧ (t.jet j).again = true ∧ (t.jet j).level = (s.jet j).level) := by
  refine ⟨_, congrArg Host.Outcome.next (stopJet_of_run hrun true), ?_⟩
  beta_reduce
  rw [jet_modJet_self]
  exact ⟨hrun, rfl, rfl, rfl⟩

theorem rampDone_gives {r : JetRamp} {sub : Nat} (hramp : (s.jet j).ramp = some r) (hstream : s.jetStream j = true)
    (hdue : r.t0 + r.span * (secondT : Rat) ≤ s.jetTime j (sub : Rat)) :
    Gives (.rampDone j sub) s (fun t => (t.jet j).ramp = none ∧ (t.jet j).align = s.jetOffset j (t.jet j).o ∧
      t.evtBit (pgJet j) evRampDone = true) := by
  have hgo : ¬ (s.jetStream j = false ∨ s.jetTime j (sub : Rat) < r.t0 + r.span * (secondT : Rat)) := by simp [hstream, hdue]
  refine ⟨_, rfl, ?_⟩
  simp only [rampDone, hramp]
  rw [if_neg hgo, jet_setEvt, jet_modJet_self]
  exact ⟨rfl, rfl, evtBit_setEvt_self _ _ _ (by decide)⟩

theorem rampDone_of_early {r : JetRamp} {sub : Nat} (hramp : (s.jet j).ramp = some r)
    (hno : s.jetStream j = false ∨ s.jetTime j (sub : Rat) < r.t0 + r.span * (secondT : Rat)) : rampDone j sub s = s := by
  simp only [rampDone, hramp]
  exact if_pos hno

theorem pageKind_pgJet (j : JetNo) : pageKind (pgJet j) = some (.jet j.val) := by
  revert j
  decide

theorem regRow_kill (n : Nat) : regRow? (.jet n) 0x064 = some { base := 0x064, rw := 3 } := rfl

theorem exec_jetKill {a : Access} {v : Word} (hall : Allowed a (pgJet j) 0x064 v s) :
    exec (.jetKill a j v) s = .next (killJet j (bits v 1 0) s) := by
  have hp : (pgJet j * 4096 + 0x064) / 4096 = pgJet j := by omega
  have ho : (pgJet j * 4096 + 0x064) % 4096 = 0x064 := by omega
  have hlow : pgJet j * 4096 + 0x064 < 2 ^ 20 := by simp only [pgJet]; omega
  have hj : (Fin.ofNat 16 j.val : JetNo) = j := by simp
  have hword : writeWord a {} (pgJet j * 4096 + 0x064) v s = killJet (Fin.ofNat 16 j.val) (bits v 1 0) s := by
    simp only [writeWord, hp, ho, pageKind_pgJet, regRow_kill]
    rfl
  rw [← hj, ← hword, hj, ← rowWrite_allowed {} hall rfl hlow]
  rfl

/-- JET_KILL as a kill leaves it, with its event (R358). -/
def State.setKill (s : State) (j : JetNo) (v : Nat) : State :=
  (s.setReg (pgJet j) 0x064 (fld v 0)).evtIf (s.jetKillVal j == 0 && v != 0) (pgJet j) evJetKilled

theorem jet_setKill (s : State) (j : JetNo) (v : Nat) : (s.setKill j v).jet j = s.jet j := by
  rw [State.setKill, jet_evtIf]
  rfl

theorem jetKillVal_setKill (s : State) (j : JetNo) {v : Nat} (hv : v < 4) : (s.setKill j v).jetKillVal j = v := by
  rw [State.setKill, jetKillVal_congr (regs_evtIf _ _ _ _), State.jetKillVal, State.fieldAt, reg_setReg_self]
  interval_cases v <;> rfl

theorem killJet_of_waiting (hrun : (s.jet j).phase = .run) : killJet j 1 s = stopJet j false (s.setKill j 1) := by
  have hphase : ((s.setKill j 1).jet j).phase ≠ .off := by rw [jet_setKill, hrun]; decide
  exact if_neg hphase

theorem killJet_of_atOnce {v : Nat} (hv : 2 ≤ v) : killJet j v s = haltJet j (s.setKill j v) := by
  have h0 : v ≠ 0 := by omega
  have h1 : v ≠ 1 := by omega
  exact (if_neg h0).trans (if_neg h1)

theorem killJet_of_end (hkilled : s.jetKillVal j ≠ 0) (hoff : (s.jet j).phase = .off) :
    killJet j 0 s = startJet j (s.setReg (pgJet j) 0x064 0) := by
  have hset : s.setKill j 0 = s.setReg (pgJet j) 0x064 0 := by
    rw [State.setKill, State.evtIf, if_neg (by simp)]
    rfl
  have hphase : ((s.setKill j 0).jet j).phase ≠ .run := by rw [jet_setKill, hoff]; decide
  have hbranch : killJet j 0 s = if s.jetKillVal j = 0 then s.setKill j 0
      else if ((s.setKill j 0).jet j).phase = .run then (s.setKill j 0).modJet j (fun x => { x with again := x.stop })
      else startJet j (s.setKill j 0) := rfl
  rw [hbranch, if_neg hkilled, if_neg hphase, hset]

theorem jetKill_zero_gives {a : Access} {u : State} (hall : Allowed a (pgJet j) 0x064 0 s) (hkilled : s.jetKillVal j ≠ 0)
    (hoff : (s.jet j).phase = .off) (hu : u = s.setReg (pgJet j) 0x064 0) :
    Gives (.jetKill a j 0) s (fun t => t = startJet j u ∧ t.jetKillVal j = 0) := by
  have hregs : (startJet j u).reg = u.reg := by
    funext q o
    simp [reg_eq]
  have hback : killJet j (bits (0 : Word) 1 0) s = startJet j u := by rw [hu]; exact killJet_of_end hkilled hoff
  refine ⟨_, exec_jetKill hall, hback, ?_⟩
  rw [hback, jetKillVal_congr hregs, hu, State.jetKillVal, State.fieldAt, reg_setReg_self]
  rfl

theorem jetKill_one_gives {a : Access} (hall : Allowed a (pgJet j) 0x064 1 s) (hrun : (s.jet j).phase = .run) :
    Gives (.jetKill a j 1) s (fun t => (t.jet j).phase = .run ∧ (t.jet j).stop = true ∧ (t.jet j).again = false ∧
      (t.jet j).level = (s.jet j).level ∧ t.jetKillVal j = 1) := by
  have hstop : killJet j (bits (1 : Word) 1 0) s =
      (s.setKill j 1).modJet j (fun x => { x with stop := true, again := false }) :=
    (killJet_of_waiting hrun).trans (stopJet_of_run (by rw [jet_setKill, hrun]) false)
  refine ⟨_, (exec_jetKill hall).trans (congrArg Host.Outcome.next hstop), ?_⟩
  beta_reduce
  rw [jet_modJet_self, jet_setKill]
  exact ⟨hrun, rfl, rfl, rfl, jetKillVal_setKill s j (by decide)⟩

/-- A kill of value 2 or 3 takes the output at once to the level that a killed jet has (R358). -/
theorem haltJet_setKill (s : State) (j : JetNo) {v : Nat} (hv : v < 4) :
    let t := haltJet j (s.setKill j v)
    (t.jet j).level = (if (s.jet j).driverBad then .hiz else (s.setKill j v).restLevel j) ∧ (t.jet j).phase = .off ∧
      t.jetKillVal j = v := by
  dsimp only
  rw [haltJet, jet_modJet_self, jet_setKill]
  exact ⟨rfl, rfl, jetKillVal_setKill s j hv⟩

theorem restLevel_of_kill_two (hval : s.jetKillVal j = 2) : s.restLevel j = .low := by
  simp [State.restLevel, hval]

theorem restLevel_of_kill_three (hval : s.jetKillVal j = 3) : s.restLevel j = .hiz := if_pos hval

theorem jetKill_two_gives {a : Access} (hall : Allowed a (pgJet j) 0x064 2 s) (hgood : (s.jet j).driverBad = false) :
    Gives (.jetKill a j 2) s (fun t => (t.jet j).level = .low ∧ (t.jet j).phase = .off ∧ t.jetKillVal j = 2) := by
  obtain ⟨hlevel, hphase, hval⟩ := haltJet_setKill s j (v := 2) (by decide)
  have hlow : (if (s.jet j).driverBad then JetLevel.hiz else (s.setKill j 2).restLevel j) = .low := by
    rw [restLevel_of_kill_two (jetKillVal_setKill s j (by decide)), hgood]
    rfl
  exact ⟨_, (exec_jetKill hall).trans (congrArg Host.Outcome.next (killJet_of_atOnce (v := 2) (by decide))), hlevel.trans hlow,
    hphase, hval⟩

theorem jetKill_three_gives {a : Access} (hall : Allowed a (pgJet j) 0x064 3 s) :
    Gives (.jetKill a j 3) s (fun t => (t.jet j).level = .hiz ∧ (t.jet j).phase = .off ∧ t.jetKillVal j = 3) := by
  obtain ⟨hlevel, hphase, hval⟩ := haltJet_setKill s j (v := 3) (by decide)
  have hhiz : (if (s.jet j).driverBad then JetLevel.hiz else (s.setKill j 3).restLevel j) = .hiz := by
    rw [restLevel_of_kill_three (jetKillVal_setKill s j (by decide))]
    exact ite_self _
  exact ⟨_, (exec_jetKill hall).trans (congrArg Host.Outcome.next (killJet_of_atOnce (v := 3) (by decide))), hlevel.trans hhiz,
    hphase, hval⟩

end

/-! ## Switch-over (11 R292, R362) -/

/-- What a running engine keeps through its edges and boundaries: that it runs, and what its arbiter gave it. -/
def JetSt.arbited (x : JetSt) : JetPhase × Option Half × BitVec 16 × BitVec 16 := (x.phase, x.half, x.swCnt, x.hold)

/-- Work on a running jet that leaves it running, behind the half that it follows. -/
structure State.JetRun (j : JetNo) (s t : State) : Prop extends State.JetWork j s t where
  arbited : (t.jet j).arbited = (s.jet j).arbited

section
variable {j : JetNo} {s t u : State}

theorem State.JetRun.refl (s : State) : s.JetRun j s := ⟨.refl s, rfl⟩

theorem State.JetRun.trans (a : s.JetRun j t) (b : t.JetRun j u) : s.JetRun j u :=
  ⟨a.toJetWork.trans b.toJetWork, b.arbited.trans a.arbited⟩

theorem State.JetRun.modJet (a : s.JetRun j t) {f : JetSt → JetSt} (hf : ∀ x, (f x).arbited = x.arbited := by intro; rfl) :
    s.JetRun j (t.modJet j f) :=
  ⟨a.toJetWork.modJet f, by rw [jet_modJet_self, hf, a.arbited]⟩

theorem State.JetRun.evtIf (a : s.JetRun j t) (c : Bool) (pg b : Nat) : s.JetRun j (t.evtIf c pg b) :=
  ⟨a.toJetWork.evtIf c pg b, by rw [jet_evtIf, a.arbited]⟩

theorem State.EvtsStay.jetRun (hevts : s.EvtsStay t) (hjets : t.jets = s.jets) : s.JetRun j t :=
  ⟨hevts.jetWork hjets, by rw [jet_of_jets hjets]⟩

theorem State.JetRun.phase (a : s.JetRun j t) : (t.jet j).phase = (s.jet j).phase := congrArg Prod.fst a.arbited

end

theorem evt_afterBoundary (p : Page) : p.afterBoundary.evt = p.evt := by
  unfold Page.afterBoundary
  dsimp only
  split
  · rfl
  · split <;> rfl

theorem evtsStay_boundary (s : State) (pg : Nat) : s.EvtsStay (boundary s pg) := by
  simp only [boundary]
  split
  · exact .refl s
  · refine .trans ?_ (evtsStay_foldl (fun a e => ?_) _ _)
    · exact evtsStay_setPage (evt_afterBoundary _)
    · exact evtsStay_setReg a pg e.1 _

section
variable {j : JetNo} {s : State}

theorem jetRun_settleLevel (j : JetNo) (s : State) : s.JetRun j (settleLevel j s) := by
  unfold settleLevel
  dsimp only
  split
  · exact .modJet (.refl s)
  · split
    · exact .modJet (.refl s)
    · exact .refl s

theorem jetRun_misalign (j : JetNo) (s : State) : s.JetRun j (misalign j s) := .evtIf (.modJet (.refl s)) _ _ _

theorem jetRun_noteBound (j : JetNo) (late : Rat) (s : State) : s.JetRun j (noteBound j late s) := .modJet (.refl s)

theorem jetRun_startFreqRamp (j : JetNo) (e f0 : Rat) (s : State) : s.JetRun j (startFreqRamp j e f0 s) := by
  unfold startFreqRamp
  extract_lets f1 pr top
  have hdraw : s.JetRun j pr.2 := ((State.EvtsStay.refl s).keep (u := pr.2) rfl).jetRun rfl
  exact .modJet (hdraw.trans (jetRun_misalign j pr.2))

theorem jetRun_jetBoundary (hrun : (s.jet j).phase = .run) (k : Int) (e : Rat) :
    s.JetRun j (jetBoundary j (some (k, e)) s) := by
  unfold jetBoundary
  extract_lets pg ws has cmd s1 s2
  have h1 : s.JetRun j s1 := (evtsStay_boundary s pg).jetRun (by simp)
  have h2 : s.JetRun j s2 := by
    refine .trans ?_ (jetRun_settleLevel j _)
    split
    · exact .modJet (h1.trans ((evtsStay_setReg s1 pg 0x068 0).jetRun rfl))
    · exact .modJet h1
  have hrun2 : (s2.jet j).phase = .run := h2.phase.trans hrun
  split
  rw [hrun2]
  dsimp only
  split
  · rw [stopJet_of_run hrun2]
    exact .modJet (.modJet h2)
  · split
    · exact .modJet (h2.trans (jetRun_startFreqRamp j e _ s2))
    · exact .modJet h2

theorem jetRun_rejoinJet (hrun : (s.jet j).phase = .run) (t since dev : Rat) : s.JetRun j (rejoinJet j t since dev s) := by
  unfold rejoinJet
  extract_lets x a lvl g tx moves edges s1 s2 e
  have h1 : s.JetRun j s1 := .modJet (.refl s)
  split
  · exact h1
  · have h2 : s.JetRun j s2 := .modJet h1
    split
    · have h3 := h2.trans (jetRun_noteBound j ((tx - e) * 1000 / ((2 ^ 62 : Nat) : Rat)) s2)
      exact h3.trans (jetRun_jetBoundary (h3.phase.trans hrun) a.last e)
    · exact h2

end

/-- The jet's arbiter as a switch leaves it, before the output goes over to the new stream (R292). -/
def State.takeSwitch (s : State) (j : JetNo) (k : Half) (holdPs : Nat) : State :=
  (s.modJet j (fun y => { y with half := some k, swCnt := y.swCnt + 1, hold := BitVec.ofNat 16 (satN 16 holdPs) })).setEvt
    (pgJet j) evJetSwitch

theorem jetSwitch_gives {s : State} {j : JetNo} {h k : Half} {sub : Nat} (holdPs : Nat) (devLast devNext : Int)
    (hhalf : (s.jet j).half = some h) (hwant : s.jetWant j = some k) (hne : h ≠ k) :
    Gives (.jetSwitch j holdPs sub devLast devNext) s (fun t => (t.jet j).half = some k ∧
      (t.jet j).swCnt = (s.jet j).swCnt + 1 ∧ (t.jet j).hold = BitVec.ofNat 16 (satN 16 holdPs) ∧
      t.evtBit (pgJet j) evJetSwitch = true ∧ (∀ i, i ≠ j → t.jet i = s.jet i)) := by
  have hjet : (s.takeSwitch j k holdPs).jet j =
      { s.jet j with half := some k, swCnt := (s.jet j).swCnt + 1, hold := BitVec.ofNat 16 (satN 16 holdPs) } := by
    rw [State.takeSwitch, jet_setEvt, jet_modJet_self]
  have hevt : (s.takeSwitch j k holdPs).evtBit (pgJet j) evJetSwitch = true := evtBit_setEvt_self _ _ _ (by decide)
  have hothers : s.JetWork j (s.takeSwitch j k holdPs) := .setEvt (.modJet (.refl s) _) _ _
  have hrun : (s.takeSwitch j k holdPs).JetRun j (jetSwitch j holdPs sub devLast devNext s) := by
    unfold jetSwitch
    simp only [hhalf, hwant]
    rw [if_neg hne]
    split
    · next hrunning => exact jetRun_rejoinJet (s := s.takeSwitch j k holdPs) (by rw [hjet]; exact hrunning.1) _ _ _
    · exact .refl _
  have harb := hrun.arbited
  rw [hjet] at harb
  refine ⟨_, rfl, congrArg (fun x => x.2.1) harb, congrArg (fun x => x.2.2.1) harb, congrArg (fun x => x.2.2.2) harb,
    hrun.evts _ _ hevt, fun i hi => (hrun.others i hi).trans (hothers.others i hi)⟩

/-- Settles O37: each command of a jet is one step of its engine or its output, whose lemma says what it leaves. -/
theorem jetsStartAndDrive : Obligations.JetsStartAndDrive := by
  refine ⟨fun s j => ⟨jetStart_gives, jetStart_gives_forStep, started_gives, fun hno => ⟨_, rfl, started_of_early hno⟩⟩,
    fun s j sub k e long hlong hgood => ?_, fun s j sub a r u => ?_⟩
  · have hfits : long = true ↔ s.edgeFits j e := hlong
    have hshort : long = false → ¬ s.edgeFits j e := fun h hf => Bool.false_ne_true (h.symm.trans (hfits.mpr hf))
    refine ⟨fun hstream hdue hcap hshadow => ⟨fun hsq => ⟨fun hlevel hlong => ⟨_, rfl, ?_⟩, fun hno => ?_⟩,
        fun hsq => ⟨fun hwant => ⟨_, rfl, ?_⟩, fun hwant => ?_⟩⟩, fun hno => ⟨_, rfl, jetPeriodEdge_of_none hno⟩,
      fun hstream hfall hdue => ⟨fun hsq hlevel hlong => ?_, fun hgo => ⟨fun hstop hsq hwant => ?_,
        fun hstop hsq hwant hlevel => ?_, fun hstop hagain => ?_⟩⟩, fun hno => ⟨_, rfl, jetFallingEdge_of_none hno⟩⟩
    · exact (jetPeriodEdge_drives hstream hdue ⟨hcap, hshadow⟩ hgood (by simp [hsq]) hlevel (hfits.mp hlong)).1
    · exact jetPeriodEdge_withheld_gives hstream hdue hsq (hno.imp_right hshort)
    · exact jetPeriodEdge_squelched hstream hdue ⟨hcap, hshadow⟩ hgood hsq hwant
    · exact jetPeriodEdge_unsquelch_gives hstream hdue ⟨hcap, hshadow⟩ hgood hsq hwant
    · exact jetFallingEdge_withheld_gives hstream hfall hdue hsq hlevel (hshort hlong)
    · exact jetFallingEdge_squelch_gives hstream hfall hdue hgood (hgo.imp_right (.imp_right hfits.mp)) hstop hsq hwant
    · have hreach : s.edgeFits j e := by
        rcases hgo with h | h | h
        · exact absurd (hsq.symm.trans h) Bool.false_ne_true
        · exact absurd hlevel h
        · exact hfits.mp h
      exact jetFallingEdge_low_gives hstream hfall hdue hgood hreach hstop hsq hwant hlevel
    · exact jetFallingEdge_stop_gives hstream hfall hdue hgood (hgo.imp_right (.imp_right hfits.mp)) hstop hagain
  · exact ⟨jetRestart_gives, fun hramp => ⟨rampDone_gives hramp, fun hno => ⟨_, rfl, rampDone_of_early hramp hno⟩⟩,
      jetKill_zero_gives, jetKill_one_gives, jetKill_two_gives, jetKill_three_gives,
      fun _ _ holdPs devLast devNext hhalf hwant hne => jetSwitch_gives holdPs devLast devNext hhalf hwant hne⟩

end Sys2Proof.Machine
end

section
/-!
PROOFS. Scope: edges at a capture input, and alarms that their bus reaches (O36).
-/

namespace Sys2Proof.Machine

/-! ## Edges at a capture input (10 R333 to R337) -/

/-- The polarity of an edge behind the input's INVERT (R333). -/
abbrev State.capEdge (s : State) (c : CapNo) (rising : Bool) : Bool := rising != s.bitAt (pgCap c) 0x040 0

/-- The time of an edge as the input issues it, and the state after its draw (R337). -/
abbrev State.edgeTime (s : State) (c : CapNo) (sub : Nat) : Nat × State :=
  s.issue (s.cap c).dom ((sub : Int) - s.sfieldAt (pgCap c) 0x044 31 0)

/-- The state that has counted an edge, before its capture is stored. -/
def State.takeEdge (s : State) (c : CapNo) (sub : Nat) : State :=
  ((s.edgeTime c sub).2.modCap c (fun y => { y with seq := y.seq + 1, edged := true, latchBad := false })).count (cntCap c 0) 1

/-- The capture of an edge (R336). -/
def State.captureOf (s : State) (c : CapNo) (rising : Bool) (sub : Nat) : CapEnt :=
  { t := (s.edgeTime c sub).1, dom := (s.cap c).dom
    bound := if (s.cap c).latchBad || s.unitBusy (pgCap c) 0 then 0xFFFF
      else s.present (s.cap c).dom (s.codeAt (pgCap c) 0x048 15 0)
    rising := s.capEdge c rising, seq := (s.cap c).seq + 1, lost := 0 }

section
variable {s t : State} {c : CapNo} {rising : Bool} {sub sinceNs : Nat}

theorem cap_of_caps (h : t.caps = s.caps) (c : CapNo) : t.cap c = s.cap c := by rw [State.cap, h, State.cap]

@[simp] theorem cap_count (s : State) (i n : Nat) (c : CapNo) : (s.count i n).cap c = s.cap c := cap_of_caps (by simp) c

@[simp] theorem cap_setEvt (s : State) (pg b : Nat) (c : CapNo) : (s.setEvt pg b).cap c = s.cap c := cap_of_caps (by simp) c

@[simp] theorem cap_evtIf (s : State) (on : Bool) (pg b : Nat) (c : CapNo) : (s.evtIf on pg b).cap c = s.cap c :=
  cap_of_caps (by simp) c

@[simp] theorem cap_issue (s : State) (d : Dom) (ps : Int) (c : CapNo) : (s.issue d ps).2.cap c = s.cap c :=
  cap_of_caps (by simp) c

theorem cap_takeEdge_self (s : State) (c : CapNo) (sub : Nat) :
    (s.takeEdge c sub).cap c = { s.cap c with seq := (s.cap c).seq + 1, edged := true, latchBad := false } := by
  rw [State.takeEdge, cap_count, cap_modCap_self, cap_issue]

theorem cap_takeEdge_ne (s : State) {c k : CapNo} (sub : Nat) (h : k ≠ c) : (s.takeEdge c sub).cap k = s.cap k := by
  rw [State.takeEdge, cap_count, cap_modCap_ne _ _ h, cap_issue]

/-- An edge that its input does not take changes nothing. -/
theorem captureEdge_of_ignored (h : (s.cap c).mode = 0 ∨ (s.unit (pgCap c) 0).fenced = true ∨
    (s.cap c).selects (s.capEdge c rising) = false) : captureEdge c rising sub sinceNs s = s := if_pos h

/-- An edge within the dead time is counted as missed (R334). -/
theorem captureEdge_of_dead (htaken : ¬ ((s.cap c).mode = 0 ∨ (s.unit (pgCap c) 0).fenced = true ∨
      (s.cap c).selects (s.capEdge c rising) = false)) (hdead : (s.cap c).edged = true ∧ sinceNs < 10) :
    captureEdge c rising sub sinceNs s =
      ((s.modCap c (fun y => { y with missed := y.missed + 1 })).setEvt (pgCap c) evMissed).count (cntCap c 2) 1 :=
  (if_neg htaken).trans (if_pos hdead)

/-- A STREAM arm stores the capture of an edge it takes (R335, R336). -/
theorem captureEdge_of_stream (hmode : (s.cap c).mode = 2) (hfree : (s.unit (pgCap c) 0).fenced = false)
    (hsel : (s.cap c).selects (s.capEdge c rising) = true) (hlive : (s.cap c).edged = true → 10 ≤ sinceNs) :
    captureEdge c rising sub sinceNs s = storeCapture c (s.captureOf c rising sub) (s.takeEdge c sub) := by
  have htaken : ¬ ((s.cap c).mode = 0 ∨ (s.unit (pgCap c) 0).fenced = true ∨
      (s.cap c).selects (s.capEdge c rising) = false) := by rw [hmode, hfree, hsel]; decide
  have hdead : ¬ ((s.cap c).edged = true ∧ sinceNs < 10) := fun ⟨he, hlt⟩ => absurd (hlive he) (by omega)
  exact (if_neg htaken).trans ((if_neg hdead).trans (if_neg (by simp [hmode])))

/-- A FIFO with room takes a capture after those it holds. -/
theorem cap_storeCapture_self (e : CapEnt) (h : (s.cap c).fifo.length < 64) : (storeCapture c e s).cap c =
    { s.cap c with fifo := (s.cap c).fifo ++ [{ e with lost := min 255 (s.cap c).lostPend }], lostPend := 0 } := by
  rw [storeCapture, if_pos h, cap_evtIf, cap_modCap_self]

theorem cap_storeCapture_ne (e : CapEnt) {k : CapNo} (h : k ≠ c) : (storeCapture c e s).cap k = s.cap k := by
  unfold storeCapture
  dsimp only
  split <;> simp [cap_modCap_ne _ _ h]

/-- A FIFO of 64 drops a capture, and counts it. -/
theorem storeCapture_of_full (e : CapEnt) (h : 64 ≤ (s.cap c).fifo.length) : storeCapture c e s =
    ((s.modCap c (fun y => { y with ovf := true, lost := y.lost + 1, lostPend := y.lostPend + 1 })).setEvt
      (pgCap c) evCapOvf).count (cntCap c 1) 1 := if_neg (by omega)

theorem captureEdge_stores (hmode : (s.cap c).mode = 2) (hfree : (s.unit (pgCap c) 0).fenced = false)
    (hsel : (s.cap c).selects (s.capEdge c rising) = true) (hlive : (s.cap c).edged = true → 10 ≤ sinceNs)
    (hroom : (s.cap c).fifo.length < 64) :
    Gives (.captureEdge c rising sub sinceNs) s (fun u =>
      ∃ e, (u.cap c).fifo = (s.cap c).fifo ++ [e] ∧ e.seq = (s.cap c).seq + 1 ∧ e.dom = (s.cap c).dom ∧
        e.rising = s.capEdge c rising ∧ e.t = (s.edgeTime c sub).1 ∧
        (u.cap c).seq = (s.cap c).seq + 1 ∧ ∀ k, k ≠ c → u.cap k = s.cap k) := by
  have hcap := cap_storeCapture_self (s := s.takeEdge c sub) (c := c) (s.captureOf c rising sub)
    (by rw [cap_takeEdge_self]; exact hroom)
  rw [cap_takeEdge_self] at hcap
  refine ⟨_, congrArg Host.Outcome.next (captureEdge_of_stream hmode hfree hsel hlive), _, congrArg CapSt.fifo hcap,
    rfl, rfl, rfl, rfl, congrArg CapSt.seq hcap, fun k hk => ?_⟩
  rw [cap_storeCapture_ne _ hk, cap_takeEdge_ne _ _ hk]

theorem captureEdge_overflows (hmode : (s.cap c).mode = 2) (hfree : (s.unit (pgCap c) 0).fenced = false)
    (hsel : (s.cap c).selects (s.capEdge c rising) = true) (hlive : (s.cap c).edged = true → 10 ≤ sinceNs)
    (hfull : 64 ≤ (s.cap c).fifo.length) :
    Gives (.captureEdge c rising sub sinceNs) s (fun u =>
      (u.cap c).fifo = (s.cap c).fifo ∧ (u.cap c).ovf = true ∧ (u.cap c).lost = (s.cap c).lost + 1 ∧
      u.evtBit (pgCap c) evCapOvf = true) := by
  have hdrop := storeCapture_of_full (s := s.takeEdge c sub) (c := c) (s.captureOf c rising sub)
    (by rw [cap_takeEdge_self]; exact hfull)
  refine ⟨_, congrArg Host.Outcome.next ((captureEdge_of_stream hmode hfree hsel hlive).trans hdrop), ?_⟩
  beta_reduce
  rw [cap_count, cap_setEvt, cap_modCap_self, cap_takeEdge_self]
  exact ⟨rfl, rfl, rfl, by simp [State.evtBit, evCapOvf]⟩

theorem captureEdge_misses (hmode : (s.cap c).mode = 2) (hfree : (s.unit (pgCap c) 0).fenced = false)
    (hsel : (s.cap c).selects (s.capEdge c rising) = true) (hedged : (s.cap c).edged = true) (hdead : sinceNs < 10) :
    Gives (.captureEdge c rising sub sinceNs) s (fun u =>
      (u.cap c).fifo = (s.cap c).fifo ∧ (u.cap c).missed = (s.cap c).missed + 1 ∧ (u.cap c).seq = (s.cap c).seq ∧
      u.evtBit (pgCap c) evMissed = true) := by
  refine ⟨_, congrArg Host.Outcome.next (captureEdge_of_dead (by rw [hmode, hfree, hsel]; decide) ⟨hedged, hdead⟩), ?_⟩
  beta_reduce
  rw [cap_count, cap_setEvt, cap_modCap_self]
  exact ⟨rfl, rfl, rfl, by simp [State.evtBit, evMissed]⟩

end

/-! ## Alarms that the bus reaches (10 R339, R343) -/

section
variable {s : State} {t : Tag} {o : Op}

theorem alarmFire_of_reached (ho : s.op? t = some o) (hop : o.opcode = 0x12) (hwait : o.phase = .waiting)
    (hbus : s.busHalf.isSome = true) (hreach : reached s o = true) : alarmFire t s = fireAlarm t o false s := by
  simp [alarmFire, ho, hop, hwait, hbus, hreach]

theorem alarmFire_of_ahead (ho : s.op? t = some o) (hahead : reached s o = false) : alarmFire t s = s := by
  simp [alarmFire, ho, hahead]

/-- A fired alarm is done, with OK. -/
theorem phase_fireAlarm (past : Bool) (ho : s.op? t = some o) (hd : o.isDone = false) :
    ((fireAlarm t o past s).op? t).map Op.phase = some (.done stOk) := by
  rw [fireAlarm, op_finish_self s t o stOk _ ho hd]
  rfl

theorem isDone_of_waiting (h : o.phase = .waiting) : o.isDone = false := by rw [Op.isDone, h]

end

/-- Settles O36: an edge is ignored, missed, stored or dropped as its input stands, and an alarm fires where its target is
reached. -/
theorem edgesAreCapturedAndAlarmsFire : Obligations.EdgesAreCapturedAndAlarmsFire := by
  refine fun s c rising sub sinceNs t o => ⟨fun hmode hfree hsel => ⟨fun hlive => ⟨?_, ?_⟩, ?_⟩, fun hignored => ?_,
    fun ho hop hwait hbus => ⟨fun hreach => ?_, fun hahead => ?_⟩⟩
  · exact captureEdge_stores hmode hfree hsel hlive
  · exact captureEdge_overflows hmode hfree hsel hlive
  · exact captureEdge_misses hmode hfree hsel
  · exact ⟨_, congrArg Host.Outcome.next (captureEdge_of_ignored hignored), rfl⟩
  · exact ⟨_, congrArg Host.Outcome.next (alarmFire_of_reached ho hop hwait hbus hreach), rfl,
      phase_fireAlarm false ho (isDone_of_waiting hwait)⟩
  · exact ⟨_, congrArg Host.Outcome.next (alarmFire_of_ahead ho hahead), rfl⟩

end Sys2Proof.Machine
end

section
/-!
PROOFS. Scope: operations on time, events and alarms complete (O49; its laws of dispatch and completion serve O50).
-/

namespace Sys2Proof.Machine

/-! ## Dispatch and completion (15 R475, R478, R483) -/

theorem dispatchable_spec {s : State} {t : Tag} {code : Nat} {o : Op} (h : dispatchable s t code = some o) :
    s.op? t = some o ∧ o.opcode = code ∧ s.asks o = true := by
  unfold dispatchable at h
  split at h
  · cases h
  · next x hx =>
    split at h
    · next hgo =>
      cases h
      simp only [Bool.and_eq_true, beq_iff_eq] at hgo
      obtain ⟨⟨hcode, hasks⟩, -⟩ := hgo
      exact ⟨hx, hcode, hasks⟩
    · cases h

theorem isDone_of_asks {s : State} {o : Op} (h : s.asks o = true) : o.isDone = false := by
  simp only [State.asks, Bool.and_eq_true, beq_iff_eq] at h
  rw [Op.isDone, h.1]

/-- A dispatched operation holds its tag and is not done. -/
theorem op_of_dispatchable {s : State} {t : Tag} {code : Nat} {o : Op} (h : dispatchable s t code = some o) :
    s.op? t = some o := (dispatchable_spec h).1

theorem isDone_of_dispatchable {s : State} {t : Tag} {code : Nat} {o : Op} (h : dispatchable s t code = some o) :
    o.isDone = false := isDone_of_asks (dispatchable_spec h).2.2

/-- A command that finishes an operation not done completes it, with the status and result given. -/
theorem completes_finish {c : Instr} {s x : State} {t : Tag} {o : Op} {st : Byte} {res : Vector Word 6}
    {P : Vector Word 6 → State → Prop} (hexec : exec c s = .next (x.finish t st res)) (ho : x.op? t = some o)
    (hd : o.isDone = false) (hP : P res (x.finish t st res)) : Completes c s t st P :=
  ⟨_, hexec, _, op_finish_self x t o st res ho hd, rfl, hP⟩

@[simp] theorem op_count (s : State) (i n : Nat) (t : Tag) : (s.count i n).op? t = s.op? t := op_of_ops (by simp) t

@[simp] theorem op_served (s : State) (o : Op) (t : Tag) : (s.served o).op? t = s.op? t := op_of_ops (by simp) t

@[simp] theorem op_modCap (s : State) (c : CapNo) (f : CapSt → CapSt) (t : Tag) : (s.modCap c f).op? t = s.op? t :=
  op_of_ops (by simp) t

/-- Who owns and sees a page hangs on the page's owner and VIS alone (02 R47). -/
theorem owns_congr {s t : State} {pg : Nat} (h : (t.page pg).owner = (s.page pg).owner) (p : Part) :
    t.owns p pg = s.owns p pg := by
  simp only [State.owns, State.ownerOf, h]

@[simp] theorem owner_served (s : State) (o : Op) (pg : Nat) : ((s.served o).page pg).owner = (s.page pg).owner := by
  by_cases h : pg = o.enginePage
  · rw [h, State.served, page_modPage_self]
  · rw [State.served, page_modPage_ne _ _ h]

@[simp] theorem vis_served (s : State) (o : Op) (pg : Nat) : ((s.served o).page pg).vis = (s.page pg).vis := by
  by_cases h : pg = o.enginePage
  · rw [h, State.served, page_modPage_self]
  · rw [State.served, page_modPage_ne _ _ h]

@[simp] theorem owns_served (s : State) (o : Op) (p : Part) (pg : Nat) : (s.served o).owns p pg = s.owns p pg :=
  owns_congr (owner_served s o pg) p

@[simp] theorem visible_served (s : State) (o : Op) (p : Part) (pg : Nat) : (s.served o).visible p pg = s.visible p pg := by
  rw [State.visible, owns_served, vis_served, State.visible]

@[simp] theorem cap_served (s : State) (o : Op) (c : CapNo) : (s.served o).cap c = s.cap c := cap_of_caps (by simp) c

@[simp] theorem cap_finish (s : State) (t : Tag) (st : Byte) (res : Vector Word 6) (c : CapNo) :
    (s.finish t st res).cap c = s.cap c := cap_of_caps (by simp) c

@[simp] theorem cap_phase (s : State) (t : Tag) (ph : OpPhase) (c : CapNo) : (s.phase t ph).cap c = s.cap c :=
  cap_of_caps (by simp) c

/-! ## NOP, FENCE and TIME_READ (15 R481, R483 to R485) -/

section
variable {s : State} {t : Tag} {o : Op}

theorem nop_completes (h : dispatchable s t 0x00 = some o) : Completes (.nop t) s t stOk (fun _ _ => True) :=
  completes_finish (x := s) (congrArg Host.Outcome.next (by rw [opNop, h])) (op_of_dispatchable h)
    (isDone_of_dispatchable h) trivial

/-- A FENCE that is not refused waits. -/
theorem fence_waits (h : dispatchable s t 0x01 = some o)
    (hpage : bit (o.word 1) 0 = true → (pageKind (bits (o.word 1) 15 8)).isSome = true ∧
      s.visible o.part (bits (o.word 1) 15 8) = true) :
    Gives (.fence t) s (fun u => u.op? t = some { o with phase := .waiting }) := by
  have hwaits : opFence t s = (s.count (cntPart o.part 7) 1).setOp t (some { o with phase := .waiting }) := by
    simp only [opFence, h]
    split
    · next happly =>
      obtain ⟨hkind, hvis⟩ := hpage happly
      rw [if_neg (by simp [Option.isSome_iff_ne_none.mp hkind, hvis])]
    · rfl
  exact ⟨_, congrArg Host.Outcome.next hwaits, op_setOp_self ..⟩

theorem fenceComplete_completes (ho : s.op? t = some o) (hop : o.opcode = 1) (hwait : o.phase = .waiting)
    (hfirst : ∀ e ∈ queueOps s o.part o.q, o.order ≤ e.2.order) :
    (o.fenceWait = none → Completes (.fenceComplete t) s t stOk (fun _ _ => True)) ∧
    (∀ n, o.fenceWait = some n → (s.page (bits (o.word 1) 15 8)).hold = true ∨ o.heldSeen = true →
      Completes (.fenceComplete t) s t stRefusedState (fun _ _ => True)) ∧
    (∀ n, o.fenceWait = some n → (s.page (bits (o.word 1) 15 8)).hold = false → o.heldSeen = false →
      n ≤ (s.page (bits (o.word 1) 15 8)).doneMark → Completes (.fenceComplete t) s t stOk (fun r _ =>
        r.get 0 = BitVec.ofNat 32 (s.page (bits (o.word 1) 15 8)).applySeq.toNat)) := by
  have hall : (queueOps s o.part o.q).all (fun e => o.order ≤ e.2.order) = true := by simpa using hfirst
  have hd := isDone_of_waiting hwait
  refine ⟨fun hw => ?_, fun n hw hheld => ?_, fun n hw hhold hseen hn => ?_⟩
  · have heq : fenceComplete t s = s.finish t stOk := by simp [fenceComplete, ho, hop, hwait, hall, hw]
    exact completes_finish (congrArg Host.Outcome.next heq) ho hd trivial
  · have heq : fenceComplete t s = s.finish t stRefusedState := by simp [fenceComplete, ho, hop, hwait, hall, hw, hheld]
    exact completes_finish (congrArg Host.Outcome.next heq) ho hd trivial
  · have heq : fenceComplete t s = s.finish t stOk
        (noResult.set 0 (BitVec.ofNat 32 (s.page (bits (o.word 1) 15 8)).applySeq.toNat)) := by
      simp [fenceComplete, ho, hop, hwait, hall, hw, hhold, hseen, hn]
    exact completes_finish (congrArg Host.Outcome.next heq) ho hd rfl

theorem timeRead_completes {h : Half} (hdisp : dispatchable s t 0x10 = some o)
    (hvis : s.visible o.part (pgTd (opDom (o.word 1) 0)) = true) (hbus : s.busHalf = some h)
    (hunit : timeUnitFree s o.part = true)
    (hfirst : ∀ e ∈ queueOps s o.part o.q, e.2.opcode ≠ 0x10 ∨ e.2.isDone = true ∨ o.order ≤ e.2.order) :
    Completes (.timeRead t) s t stOk (fun r _ => r = timeResult (s.busTime (opDom (o.word 1) 0))
      (s.busState (opDom (o.word 1) 0)) (s.busBound (opDom (o.word 1) 0)) (opDom (o.word 1) 0) h 0) := by
  have hall : (queueOps s o.part o.q).all (fun e => e.2.opcode != 0x10 || e.2.isDone || o.order ≤ e.2.order) = true := by
    simpa [or_assoc] using hfirst
  have heq : opTimeRead t s = (s.count (cntPart o.part 3) 1).finish t stOk (timeResult (s.busTime (opDom (o.word 1) 0))
      (s.busState (opDom (o.word 1) 0)) (s.busBound (opDom (o.word 1) 0)) (opDom (o.word 1) 0) h 0) := by
    simp [opTimeRead, hdisp, hvis, hbus, hunit, hall]
  exact completes_finish (congrArg Host.Outcome.next heq) ((op_count ..).trans (op_of_dispatchable hdisp))
    (isDone_of_dispatchable hdisp) rfl

/-! ## EVENT_ARM (10 R335; 15 R481) -/

/-- Where no ONCE arm waits, an arm cancels none. -/
theorem rearm_of_free {c : CapNo} (htag : (s.cap c).tag = none) (f : CapSt → CapSt) :
    rearm c f s = s.modCap c (fun y => f { y with tag := none }) := by
  rw [rearm, htag]

/-- A capture input as an arm of an operation sets it, before a ONCE arm takes its tag (R335). -/
def State.armed (s : State) (o : Op) (c : CapNo) : State :=
  (s.served o).modCap c (fun y => { y with
    tag := none, mode := bits (o.word 1) 9 8, dom := opDom (o.word 1) 4, edge := bits (o.word 1) 13 12, part := o.part })

/-- What EVENT_ARM does where its fields and its pages let it (R335). -/
theorem opEventArm_eq {c : CapNo} (hdisp : dispatchable s t 0x11 = some o) (hc : c = Fin.ofNat 8 (bits (o.word 1) 2 0))
    (howns : s.owns o.part (pgCap c) = true) (hvis : s.visible o.part (pgTd (opDom (o.word 1) 4)) = true)
    (hedge : bits (o.word 1) 13 12 ≠ 3) (htag : (s.cap c).tag = none) (hmode : bits (o.word 1) 9 8 ≠ 3) :
    opEventArm t s =
      if bits (o.word 1) 9 8 = 0 then
        ((s.served o).modCap c (fun y => { y with mode := 0, tag := none })).finish t stOk
      else if bits (o.word 1) 9 8 = 1 then ((s.armed o c).modCap c (fun y => { y with tag := some t })).phase t .waiting
      else (s.armed o c).finish t stOk := by
  have hfree : ((s.served o).cap c).tag = none := by rw [cap_served, htag]
  simp only [opEventArm, hdisp, ← hc, State.armed]
  rw [if_neg (by simp [hmode, hedge]), if_neg (by simp [howns, hvis]), rearm_of_free hfree, rearm_of_free hfree]

theorem eventArm_completes {c : CapNo} (hdisp : dispatchable s t 0x11 = some o)
    (hc : c = Fin.ofNat 8 (bits (o.word 1) 2 0)) (howns : s.owns o.part (pgCap c) = true)
    (hvis : s.visible o.part (pgTd (opDom (o.word 1) 4)) = true) (hedge : bits (o.word 1) 13 12 ≠ 3)
    (htag : (s.cap c).tag = none) :
    (bits (o.word 1) 9 8 = 2 → Completes (.eventArm t) s t stOk (fun _ u => (u.cap c).mode = 2 ∧
      (u.cap c).dom = opDom (o.word 1) 4 ∧ (u.cap c).edge = bits (o.word 1) 13 12)) ∧
    (bits (o.word 1) 9 8 = 1 → Gives (.eventArm t) s (fun u => u.op? t = some { o with phase := .waiting } ∧
      (u.cap c).mode = 1 ∧ (u.cap c).tag = some t)) ∧
    (bits (o.word 1) 9 8 = 0 → Completes (.eventArm t) s t stOk (fun _ u => (u.cap c).mode = 0)) := by
  have heq := opEventArm_eq hdisp hc howns hvis hedge htag
  have ho : (s.served o).op? t = some o := (op_served ..).trans (op_of_dispatchable hdisp)
  have harmed : (s.armed o c).op? t = some o := (op_modCap ..).trans ho
  have hd := isDone_of_dispatchable hdisp
  refine ⟨fun hmode => ?_, fun hmode => ?_, fun hmode => ?_⟩
  · replace heq := (heq (by omega)).trans ((if_neg (by omega)).trans (if_neg (by omega)))
    exact completes_finish (congrArg Host.Outcome.next heq) harmed hd (by simp [State.armed, hmode])
  · replace heq := (heq (by omega)).trans ((if_neg (by omega)).trans (if_pos hmode))
    refine ⟨_, congrArg Host.Outcome.next heq, op_phase_self _ _ _ _ ((op_modCap ..).trans harmed), ?_⟩
    simp [State.armed, hmode]
  · replace heq := (heq (by omega)).trans (if_pos hmode)
    exact completes_finish (congrArg Host.Outcome.next heq) ((op_modCap ..).trans ho) hd (by simp)

/-! ## ALARM_SET (10 R339 to R342) -/

theorem opAlarmSet_eq (hdisp : dispatchable s t 0x12 = some o) (hset : bit (o.word 1) 8 = false)
    (hvis : s.visible o.part (pgTd o.alarmDom) = true) : opAlarmSet t s =
      if s.busStepped o.alarmDom = false then s.finish t stRefusedState
      else if 16 ≤ (alarmsOf s o.part).length then s.finish t stResource
      else if reached s o = true then fireAlarm t o true s
      else s.phase t .waiting := by
  simp [opAlarmSet, hdisp, hset, hvis]

theorem alarmSet_completes (hdisp : dispatchable s t 0x12 = some o) (hset : bit (o.word 1) 8 = false)
    (hvis : s.visible o.part (pgTd o.alarmDom) = true) :
    (s.busStepped o.alarmDom = false → Completes (.alarmSet t) s t stRefusedState (fun _ _ => True)) ∧
    (s.busStepped o.alarmDom = true → 16 ≤ (alarmsOf s o.part).length →
      Completes (.alarmSet t) s t stResource (fun _ _ => True)) ∧
    (s.busStepped o.alarmDom = true → (alarmsOf s o.part).length < 16 →
      (reached s o = false → Gives (.alarmSet t) s (fun u => u.op? t = some { o with phase := .waiting })) ∧
      (reached s o = true → Completes (.alarmSet t) s t stOk (fun r _ => r = timeResult (s.busTime o.alarmDom)
        (s.busState o.alarmDom) (s.busBound o.alarmDom) o.alarmDom s.followHalf (flagAt true 8)))) := by
  have heq := opAlarmSet_eq hdisp hset hvis
  have ho := op_of_dispatchable hdisp
  have hd := isDone_of_dispatchable hdisp
  refine ⟨fun hstep => ?_, fun hstep hmany => ?_, fun hstep hfew => ?_⟩
  · rw [if_pos hstep] at heq
    exact completes_finish (congrArg Host.Outcome.next heq) ho hd trivial
  · rw [if_neg (by simp [hstep]), if_pos hmany] at heq
    exact completes_finish (congrArg Host.Outcome.next heq) ho hd trivial
  · rw [if_neg (by simp [hstep]), if_neg (by omega)] at heq
    refine ⟨fun hahead => ?_, fun hreach => ?_⟩
    · exact ⟨_, congrArg Host.Outcome.next (heq.trans (if_neg (by simp [hahead]))), op_phase_self _ _ _ _ ho⟩
    · exact completes_finish (congrArg Host.Outcome.next (heq.trans (if_pos hreach))) ho hd rfl

/-- The alarm that a cancel names: the oldest of its queue and CID (R342). -/
abbrev State.cancelled (s : State) (o : Op) : Option (Tag × Op) :=
  oldestOp ((alarmsOf s o.part).filter (fun e => e.2.q.val == bits (o.word 1) 12 10 && e.2.cid == bits (o.word 1) 31 16))

theorem opAlarmCancel_of_none (hdisp : dispatchable s t 0x12 = some o) (hcancel : bit (o.word 1) 8 = true)
    (he : s.cancelled o = none) : opAlarmCancel t s = s.finish t stNotFound := by
  simp only [opAlarmCancel, hdisp, hcancel, he]
  rfl

theorem opAlarmCancel_of_some {e : Tag × Op} (hdisp : dispatchable s t 0x12 = some o) (hcancel : bit (o.word 1) 8 = true)
    (he : s.cancelled o = some e) : opAlarmCancel t s =
      if s.busHalf.isSome && reached s e.2 then (fireAlarm e.1 e.2 false s).finish t stNotFound
      else (s.finish e.1 stCancelled).finish t stOk := by
  simp only [opAlarmCancel, hdisp, hcancel, he]
  rfl

/-- A cancel ends the alarm it names and completes, both with their own status. -/
theorem completes_both {c : Instr} {x : Tag × Op} {st st' : Byte} {res : Vector Word 6}
    (hexec : exec c s = .next ((s.finish x.1 st res).finish t st')) (hne : x.1 ≠ t) (hx : s.op? x.1 = some x.2)
    (hxd : x.2.isDone = false) (ho : s.op? t = some o) (hd : o.isDone = false) :
    Completes c s t st' (fun _ u => (u.op? x.1).map Op.phase = some (.done st)) := by
  refine completes_finish hexec ((op_finish_ne _ _ _ hne.symm).trans ho) hd ?_
  rw [op_finish_ne _ _ _ hne, op_finish_self s _ _ st res hx hxd]
  rfl

theorem alarmCancel_completes {e : Option (Tag × Op)} (hdisp : dispatchable s t 0x12 = some o)
    (hcancel : bit (o.word 1) 8 = true) (he : s.cancelled o = e) :
    (e = none → Completes (.alarmCancel t) s t stNotFound (fun _ _ => True)) ∧
    (∀ x, e = some x → x.1 ≠ t → s.op? x.1 = some x.2 → x.2.isDone = false →
      (s.busHalf.isSome = false ∨ reached s x.2 = false →
        Completes (.alarmCancel t) s t stOk (fun _ u => (u.op? x.1).map Op.phase = some (.done stCancelled))) ∧
      (s.busHalf.isSome = true → reached s x.2 = true →
        Completes (.alarmCancel t) s t stNotFound (fun _ u => (u.op? x.1).map Op.phase = some (.done stOk)))) := by
  have ho := op_of_dispatchable hdisp
  have hd := isDone_of_dispatchable hdisp
  refine ⟨fun hnone => ?_, fun x hx hne hox hxd => ?_⟩
  · exact completes_finish (congrArg Host.Outcome.next (opAlarmCancel_of_none hdisp hcancel (he.trans hnone))) ho hd trivial
  · have heq := opAlarmCancel_of_some hdisp hcancel (he.trans hx)
    refine ⟨fun hahead => ?_, fun hbus hreach => ?_⟩
    · have hno : ¬ (s.busHalf.isSome && reached s x.2) = true := by
        rcases hahead with h | h <;> simp [h]
      exact completes_both (congrArg Host.Outcome.next (heq.trans (if_neg hno))) hne hox hxd ho hd
    · exact completes_both (congrArg Host.Outcome.next (heq.trans (if_pos (by simp [hbus, hreach])))) hne hox hxd ho hd

end

/-- Settles O49: every operation on time ends in one `finish`, or waits, as its own lemma says. -/
theorem timeOperationsComplete : Obligations.TimeOperationsComplete := by
  refine fun s t o => ⟨nop_completes, fun h hplain => ?_, fun h _ hkind hvis => ?_, fenceComplete_completes,
    fun h => timeRead_completes, fun c hdisp hc howns hvis hedge htag => ?_, alarmSet_completes,
    fun e => alarmCancel_completes⟩
  · exact fence_waits h (by simp [hplain])
  · exact fence_waits h (fun _ => ⟨hkind, hvis⟩)
  · exact eventArm_completes hdisp hc howns hvis hedge htag

end Sys2Proof.Machine
end

section
/-!
PROOFS. Scope: host frames leave, or are discarded, and tell their timestamps (O39; its laws of a port's queues serve O50).
-/

namespace Sys2Proof.Machine

/-! ## A port's frames and TX timestamps (10 R329, R347) -/

theorem port_of_ports {s t : State} (h : t.ports = s.ports) (p : PortNo) : t.port p = s.port p := by
  rw [State.port, h, State.port]

@[simp] theorem port_count (s : State) (i n : Nat) (p : PortNo) : (s.count i n).port p = s.port p := port_of_ports (by simp) p

@[simp] theorem port_setEvt (s : State) (pg b : Nat) (p : PortNo) : (s.setEvt pg b).port p = s.port p :=
  port_of_ports (by simp) p

@[simp] theorem port_evtIf (s : State) (on : Bool) (pg b : Nat) (p : PortNo) : (s.evtIf on pg b).port p = s.port p :=
  port_of_ports (by simp) p

@[simp] theorem port_finishSend (f : HostFrame) (discarded : Bool) (res : Vector Word 6) (s : State) (p : PortNo) :
    (finishSend f discarded res s).port p = s.port p := port_of_ports (by simp) p

/-- A queue with room takes a timestamp after those it holds. -/
theorem port_pushTx (s : State) (p : PortNo) (e : TxEnt) (h : (s.port p).txq.length < 32) : (s.pushTx p e).port p =
    { s.port p with txq := (s.port p).txq ++ [{ e with lost := min 255 (s.port p).txLost }], txLost := 0 } := by
  rw [State.pushTx, if_pos h, port_evtIf, port_modPort_self]

theorem hosts_pushTx (s : State) (p : PortNo) (e : TxEnt) : ((s.pushTx p e).port p).hosts = (s.port p).hosts := by
  unfold State.pushTx
  dsimp only
  split <;> simp

/-- A frame's count leaves the port's queues. -/
theorem queues_countFrame (s : State) (p : PortNo) (tx : Bool) (len : Nat) :
    ((s.countFrame p tx len).port p).hosts = (s.port p).hosts ∧ ((s.countFrame p tx len).port p).txq = (s.port p).txq := by
  simp [State.countFrame]

/-! ## What is put out stays -/

theorem mem_outs_evtIf {s : State} {x : Out} (on : Bool) (pg b : Nat) (h : x ∈ s.outs) : x ∈ (s.evtIf on pg b).outs := by
  unfold State.evtIf
  split
  · exact mem_outs_setEvt pg b h
  · exact h

theorem mem_outs_finish {s : State} {x : Out} (t : Tag) (st : Byte) (res : Vector Word 6) (h : x ∈ s.outs) :
    x ∈ (s.finish t st res).outs := by
  unfold State.finish
  split
  · exact h
  · split
    · exact h
    · exact mem_outs_evtIf _ _ _ (mem_outs_evtIf _ _ _ (by simpa using h))

theorem mem_outs_finishSend {s : State} {x : Out} (f : HostFrame) (discarded : Bool) (res : Vector Word 6) (h : x ∈ s.outs) :
    x ∈ (finishSend f discarded res s).outs := by
  unfold finishSend
  split
  · exact mem_outs_finish _ _ _ h
  · exact h

theorem mem_outs_pushTx {s : State} {x : Out} (p : PortNo) (e : TxEnt) (h : x ∈ s.outs) : x ∈ (s.pushTx p e).outs := by
  unfold State.pushTx
  dsimp only
  split
  · exact mem_outs_evtIf _ _ _ (by simpa using h)
  · exact mem_outs_setEvt _ _ (by simpa using h)

/-! ## A host frame leaves its path (12 R377, R381; 10 R321, R327 to R329) -/

/-- A host frame taken from its port's queue. -/
def State.takeHost (s : State) (p : PortNo) (i : Nat) : State := s.modPort p (fun x => { x with hosts := x.hosts.eraseIdx i })

/-- The frame goes out on its path and is counted, with its timestamp issued and laid in. -/
def State.sendHost (s : State) (p : PortNo) (a : PathAB) (f : HostFrame) (sub fec : Nat) : State :=
  ((((s.egress p a f.dom sub fec).2.2.emit (.frame p a (.host (f.leaving (s.egress p a f.dom sub fec).1)
    (f.oneAt.map (fun _ => (s.egress p a f.dom sub fec).1))))).countFrame p true (f.bytes.length + 4)).count (cntPort p 14) 1)

/-- The entry of a frame's timestamp (R329). -/
def State.sentEnt (s : State) (p : PortNo) (a : PathAB) (f : HostFrame) (sub fec : Nat) : TxEnt :=
  { t := (s.egress p a f.dom sub fec).1, dom := f.dom, noSend := false, mark := false, id := f.id, lost := 0
    bound := (s.egress p a f.dom sub fec).2.1 }

/-- What the frame's timestamp gives its operation (R328). -/
abbrev State.sendResult (s : State) (p : PortNo) (a : PathAB) (f : HostFrame) (sub fec : Nat) : Vector Word 6 :=
  timeResult (s.egress p a f.dom sub fec).1 (s.busState f.dom) (s.egress p a f.dom sub fec).2.1 f.dom s.followHalf 0

section
variable {s : State} {p : PortNo} {a : PathAB} {i sub fec : Nat} {f : HostFrame} {discarded : Bool}

theorem port_takeHost (s : State) (p : PortNo) (i : Nat) :
    (s.takeHost p i).port p = { s.port p with hosts := (s.port p).hosts.eraseIdx i } := by
  rw [State.takeHost, port_modPort_self]

/-- A time is issued from the time bus alone. -/
theorem issue_congr {s t : State} {d : Dom} (hbus : t.busHalf = s.busHalf) (htime : t.busTime d = s.busTime d)
    (hfresh : t.fresh = s.fresh) (ps : Int) : (t.issue d ps).1 = (s.issue d ps).1 := by
  simp only [State.issue, hbus, htime]
  split
  · simp only [State.draw, hfresh]
  · rfl

/-- The time issued on a path does not hang on the frames that wait. -/
theorem egress_takeHost (s : State) (p : PortNo) (i : Nat) (a : PathAB) (d : Dom) (sub fec : Nat) :
    ((s.takeHost p i).egress p a d sub fec).1 = (s.egress p a d sub fec).1 ∧
      ((s.takeHost p i).egress p a d sub fec).2.1 = (s.egress p a d sub fec).2.1 := by
  exact ⟨issue_congr (t := s.takeHost p i) (s := s) rfl rfl rfl _, rfl⟩

theorem frameTransmitted_of_waits (h : (s.class0Waits p a || s.class1Waits p a) = true) :
    frameTransmitted p a (.host i) sub fec false s = s := by
  simp [frameTransmitted, h]

theorem frameTransmitted_host (h : discarded = true ∨ (s.class0Waits p a || s.class1Waits p a) = false) :
    frameTransmitted p a (.host i) sub fec discarded s = hostLeaves p a i sub fec discarded s := by
  rcases h with h | h <;> simp [frameTransmitted, h]

theorem hostLeaves_of_gone (hf : (s.port p).hosts[i]? = some f) (ha : a = s.sendPath p f.path)
    (hgone : discarded = true ∨ (f.dest ≠ 0 ∧ s.tsOk p a = false)) : hostLeaves p a i sub fec discarded s =
      finishSend f true noResult
        (if f.dest = 2 then (s.takeHost p i).pushTx p (TxEnt.unsent f.dom f.id) else s.takeHost p i) := by
  have hg : (discarded || (f.dest != 0 && !s.tsOk p a)) = true := by
    rcases hgone with h | ⟨h, hts⟩
    · simp [h]
    · simp [h, hts]
  simp only [hostLeaves, hf]
  rw [if_neg (by simp [← ha]), if_pos hg]
  rfl

theorem hostLeaves_of_sent (hf : (s.port p).hosts[i]? = some f) (ha : a = s.sendPath p f.path)
    (hts : f.dest = 0 ∨ s.tsOk p a = true) (hup : (s.pathUp p a && (s.path p a).link && !s.schedBusy p a) = true) :
    hostLeaves p a i sub fec false s =
      finishSend f false (if f.dest = 1 then s.sendResult p a f sub fec else noResult)
        (if f.dest = 2 then ((s.takeHost p i).sendHost p a f sub fec).pushTx p (s.sentEnt p a f sub fec)
          else (s.takeHost p i).sendHost p a f sub fec) := by
  have hstay : ¬ (false || (f.dest != 0 && !s.tsOk p a)) = true := by
    rcases hts with h | h <;> simp [h]
  obtain ⟨htime, hbound⟩ := egress_takeHost s p i a f.dom sub fec
  rw [State.sendResult, State.sentEnt, ← htime, ← hbound]
  simp only [hostLeaves, hf]
  rw [if_neg (by simp [← ha]), if_neg hstay, if_neg (by simp [hup])]
  rfl

/-- What a frame's sending leaves: the queues that `takeHost` has left, and the operations. -/
theorem sendHost_leaves (s : State) (p : PortNo) (a : PathAB) (f : HostFrame) (sub fec : Nat) :
    ((s.sendHost p a f sub fec).port p).hosts = (s.port p).hosts ∧
      ((s.sendHost p a f sub fec).port p).txq = (s.port p).txq ∧ (s.sendHost p a f sub fec).ops = s.ops := by
  obtain ⟨hhosts, htxq⟩ := queues_countFrame ((s.egress p a f.dom sub fec).2.2.emit (.frame p a (.host
    (f.leaving (s.egress p a f.dom sub fec).1) (f.oneAt.map (fun _ => (s.egress p a f.dom sub fec).1))))) p true
    (f.bytes.length + 4)
  have hport : ((s.egress p a f.dom sub fec).2.2.emit (.frame p a (.host (f.leaving (s.egress p a f.dom sub fec).1)
    (f.oneAt.map (fun _ => (s.egress p a f.dom sub fec).1))))).port p = s.port p := port_of_ports (by simp) p
  unfold State.sendHost
  rw [port_count, hhosts, htxq, hport]
  exact ⟨rfl, rfl, by simp⟩

theorem mem_outs_sendHost (s : State) (p : PortNo) (a : PathAB) (f : HostFrame) (sub fec : Nat) :
    .frame p a (.host (f.leaving (s.egress p a f.dom sub fec).1) (f.oneAt.map (fun _ => (s.egress p a f.dom sub fec).1)))
      ∈ (s.sendHost p a f sub fec).outs := by
  simp [State.sendHost, State.emit]

theorem host_leaves_gives (hf : (s.port p).hosts[i]? = some f) (ha : a = s.sendPath p f.path)
    (hwaits : (s.class0Waits p a || s.class1Waits p a) = false)
    (hup : (s.pathUp p a && (s.path p a).link && !s.schedBusy p a) = true) (hts : f.dest = 0 ∨ s.tsOk p a = true) :
    Gives (.frameTransmitted p a (.host i) sub fec false) s (fun t =>
      (t.port p).hosts = (s.port p).hosts.eraseIdx i ∧
      .frame p a (.host (f.leaving (s.egress p a f.dom sub fec).1) (f.oneAt.map (fun _ => (s.egress p a f.dom sub fec).1)))
        ∈ t.outs) := by
  refine ⟨_, congrArg Host.Outcome.next
    ((frameTransmitted_host (.inr hwaits)).trans (hostLeaves_of_sent hf ha hts hup)), ?_, ?_⟩
  · have hhosts := (sendHost_leaves (s.takeHost p i) p a f sub fec).1
    rw [port_finishSend]
    split
    · rw [hosts_pushTx, hhosts, port_takeHost]
    · rw [hhosts, port_takeHost]
  · have hout := mem_outs_sendHost (s.takeHost p i) p a f sub fec
    rw [(egress_takeHost s p i a f.dom sub fec).1] at hout
    refine mem_outs_finishSend _ _ _ ?_
    split
    · exact mem_outs_pushTx _ _ hout
    · exact hout

theorem host_queue_gives (hf : (s.port p).hosts[i]? = some f) (ha : a = s.sendPath p f.path) (hdest : f.dest = 2)
    (hroom : (s.port p).txq.length < 32) (hwaits : (s.class0Waits p a || s.class1Waits p a) = false)
    (hup : (s.pathUp p a && (s.path p a).link && !s.schedBusy p a) = true) (hts : s.tsOk p a = true) :
    Gives (.frameTransmitted p a (.host i) sub fec false) s (fun t =>
      ∃ e, (t.port p).txq = (s.port p).txq ++ [e] ∧ e.noSend = false ∧ e.id = f.id ∧ e.dom = f.dom ∧
        e.t = (s.egress p a f.dom sub fec).1 ∧ e.bound = (s.egress p a f.dom sub fec).2.1) := by
  have htxq : (((s.takeHost p i).sendHost p a f sub fec).port p).txq = (s.port p).txq := by
    rw [(sendHost_leaves (s.takeHost p i) p a f sub fec).2.1, port_takeHost]
  have hport := port_pushTx _ p (s.sentEnt p a f sub fec) (by rw [htxq]; exact hroom)
  refine ⟨_, congrArg Host.Outcome.next
    ((frameTransmitted_host (.inr hwaits)).trans (hostLeaves_of_sent hf ha (.inr hts) hup)), ?_⟩
  beta_reduce
  rw [port_finishSend, if_pos hdest, hport, htxq]
  exact ⟨_, rfl, rfl, rfl, rfl, rfl, rfl⟩

theorem host_queue_lost_gives (hf : (s.port p).hosts[i]? = some f) (ha : a = s.sendPath p f.path) (hdest : f.dest = 2)
    (hroom : (s.port p).txq.length < 32)
    (hlost : discarded = true ∨ ((s.class0Waits p a || s.class1Waits p a) = false ∧ s.tsOk p a = false)) :
    Gives (.frameTransmitted p a (.host i) sub fec discarded) s (fun t =>
      (t.port p).hosts = (s.port p).hosts.eraseIdx i ∧
      ∃ e, (t.port p).txq = (s.port p).txq ++ [e] ∧ e.noSend = true ∧ e.id = f.id ∧ e.t = 0) := by
  refine ⟨_, congrArg Host.Outcome.next ((frameTransmitted_host (hlost.imp_right And.left)).trans
    (hostLeaves_of_gone hf ha (hlost.imp_right fun h => ⟨by omega, h.2⟩))), ?_⟩
  beta_reduce
  rw [port_finishSend, if_pos hdest, port_pushTx _ _ _ (by rw [port_takeHost]; exact hroom),
    port_takeHost]
  exact ⟨rfl, _, rfl, rfl, rfl, rfl⟩

/-- A frame's operation, still running, completes as its frame leaves or goes. -/
theorem op_finishSend {u : State} {tag : Tag} {o : Op} (res : Vector Word 6) (htag : f.tag = some tag)
    (ho : u.op? tag = some o) (hrun : o.phase = .running) : ∃ x, (finishSend f discarded res u).op? tag = some x ∧
      x.phase = .done stOk ∧ x.result = if discarded then noResult.set 5 (flagAt true 10) else res := by
  have hd : o.isDone = false := by rw [Op.isDone, hrun]
  rw [finishSend, htag]
  exact ⟨_, op_finish_self u tag o stOk _ ho hd, rfl, rfl⟩

theorem host_complete_gives {tag : Tag} {o : Op} (hf : (s.port p).hosts[i]? = some f) (ha : a = s.sendPath p f.path)
    (hdest : f.dest = 1) (htag : f.tag = some tag) (ho : s.op? tag = some o) (hrun : o.phase = .running)
    (hwaits : (s.class0Waits p a || s.class1Waits p a) = false)
    (hup : (s.pathUp p a && (s.path p a).link && !s.schedBusy p a) = true) (hts : s.tsOk p a = true) :
    Gives (.frameTransmitted p a (.host i) sub fec false) s (fun t => (t.port p).txq = (s.port p).txq ∧
      ∃ u, t.op? tag = some u ∧ u.phase = .done stOk ∧ u.result = s.sendResult p a f sub fec) := by
  obtain ⟨-, htxq, hops⟩ := sendHost_leaves (s.takeHost p i) p a f sub fec
  refine ⟨_, congrArg Host.Outcome.next
    ((frameTransmitted_host (.inr hwaits)).trans (hostLeaves_of_sent hf ha (.inr hts) hup)), ?_⟩
  beta_reduce
  rw [port_finishSend, if_pos hdest, if_neg (by omega), htxq, port_takeHost]
  obtain ⟨x, hx, hphase, hres⟩ := op_finishSend (discarded := false) _ htag ((op_of_ops hops tag).trans ho) hrun
  exact ⟨rfl, x, hx, hphase, hres⟩

theorem host_complete_lost_gives {tag : Tag} {o : Op} (hf : (s.port p).hosts[i]? = some f) (ha : a = s.sendPath p f.path)
    (hdest : f.dest = 1) (htag : f.tag = some tag) (ho : s.op? tag = some o) (hrun : o.phase = .running)
    (hlost : discarded = true ∨ ((s.class0Waits p a || s.class1Waits p a) = false ∧ s.tsOk p a = false)) :
    Gives (.frameTransmitted p a (.host i) sub fec discarded) s (fun t =>
      (t.port p).hosts = (s.port p).hosts.eraseIdx i ∧ (t.port p).txq = (s.port p).txq ∧
      ∃ u, t.op? tag = some u ∧ u.phase = .done stOk ∧ u.result = noResult.set 5 (flagAt true 10)) := by
  refine ⟨_, congrArg Host.Outcome.next ((frameTransmitted_host (hlost.imp_right And.left)).trans
    (hostLeaves_of_gone hf ha (hlost.imp_right fun h => ⟨by omega, h.2⟩))), ?_⟩
  beta_reduce
  rw [port_finishSend, if_neg (by omega)]
  refine ⟨?_, ?_, op_finishSend (discarded := true) noResult htag ho hrun⟩ <;> rw [port_takeHost]

end

/-- Settles O39: a host frame waits, leaves or is dropped, and its destination takes its timestamp or learns that there is
none. -/
theorem hostFramesLeave : Obligations.HostFramesLeave := by
  rintro s p a i sub fec f _ _ hf ha rfl rfl
  refine ⟨fun hwaits => ⟨_, congrArg Host.Outcome.next (frameTransmitted_of_waits hwaits), rfl⟩, host_leaves_gives hf ha,
    fun hdest hroom => ⟨?_, fun lost => ?_⟩, fun tag o hdest htag ho hrun => ⟨?_, fun lost => ?_⟩⟩
  · exact host_queue_gives hf ha hdest hroom
  · exact host_queue_lost_gives hf ha hdest hroom
  · exact host_complete_gives hf ha hdest htag ho hrun
  · exact host_complete_lost_gives hf ha hdest htag ho hrun

end Sys2Proof.Machine
end

section
/-!
PROOFS. Scope: a detector that fires sends its message (O52).
-/

namespace Sys2Proof.Machine

/-! ## Messages of any place (17 R530, R534, R535) -/

/-- The message of a detector at a place. -/
def State.placeMsg (s : State) (place pg kind sev : Nat) (det : Byte) (loc : BitVec 24) : Msg :=
  { src := BitVec.ofNat 10 (place * 256 + pg), kind := BitVec.ofNat 6 kind, sev := BitVec.ofNat 2 sev, det := det, loc := loc,
    injected := (s.page pg).injArm && (s.page pg).injDet == det, ident := s.ident }

theorem bufs_fault_at {s : State} {place : Nat} (hsend : s.canSend place = true) (pg kind sev : Nat) (det : Byte)
    (loc : BitVec 24) : (s.fault place pg kind sev det loc).flt.bufs =
      (s.enqueueMsg (s.placeMsg place pg kind sev det loc)).flt.bufs := by
  rw [State.fault, if_pos hsend]
  extract_lets p inj m s1 s2
  have hs2 : s2.flt = (s.enqueueMsg m).flt := by
    rw [show s2.flt = _ from (by simp [s2] : s2.flt = ({ s1 with ident := s.ident + 1 }.enqueueMsg m).flt)]
    exact flt_enqueueMsg (by simp only [s1]; split <;> simp) m
  split
  · rw [bufs_startTest, hs2]; rfl
  · rw [hs2]; rfl

/-- A detector at a place that sends reports. -/
theorem reported_fault_at {s : State} {place pg : Nat} (hsend : s.canSend place = true) (hsrc : place * 256 + pg < 1024)
    (kind sev : Nat) (det : Byte) (loc : BitVec 24) :
    Reported (place * 256 + pg) kind sev det s (s.fault place pg kind sev det loc) := by
  intro hfree
  have hnat : (s.placeMsg place pg kind sev det loc).src.toNat = place * 256 + pg := by
    simp only [State.placeMsg, BitVec.toNat_ofNat]; omega
  refine ⟨s.placeMsg place pg kind sev det loc, ?_, Nat.le_refl _, rfl, rfl, rfl⟩
  rw [bufs_fault_at hsend]
  have h := enqueueMsg_mem (s := s) (m := s.placeMsg place pg kind sev det loc) (by rw [hnat]; exact hfree)
  rwa [hnat] at h

/-- A detector of a half that is on reports. -/
theorem reported_fault_half {s : State} {h : Half} {pg : Nat} (hon : s.halfOn h = true) (hpg : pg < 256) (kind sev : Nat)
    (det : Byte) (loc : BitVec 24) :
    Reported (placeOf h * 256 + pg) kind sev det s (s.fault (placeOf h) pg kind sev det loc) := by
  refine reported_fault_at ?_ ?_ kind sev det loc
  · cases h <;> exact hon
  · cases h <;> simp only [placeOf] <;> omega

section
variable {src kind sev : Nat} {det : Byte} {s s' t t' : State}

/-- What goes before a report and sends nothing leaves it a report. -/
theorem Reported.before (h : Reported src kind sev det s t) (hflt : s.flt = s'.flt) (hident : s.ident = s'.ident) :
    Reported src kind sev det s' t := h.mono (by rw [hflt]) (Nat.le_of_eq hident.symm) fun _ hm => hm

/-- What comes after a report and leaves the buffers leaves it a report. -/
theorem Reported.after (h : Reported src kind sev det s t) (hbufs : t'.flt.bufs = t.flt.bufs) :
    Reported src kind sev det s t' := h.mono rfl (Nat.le_refl _) fun _ hm => hbufs ▸ hm

end

/-! ## Halves' pages: domains, the Cistern, the Spirit Level (06 R232, 07 R259, 08 R283; 09 R315) -/

theorem pgTd_lt (d : Dom) : pgTd d < 256 := by
  have := d.isLt
  simp only [pgTd]; omega

theorem halfOn_of_pwr {s t : State} (h : t.pwr = s.pwr) (g : Half) : t.halfOn g = s.halfOn g := by
  simp only [State.halfOn, h]

@[simp] theorem dom_fault (s : State) (place pg kind sev : Nat) (det : Byte) (loc : BitVec 24) (h : Half) (d : Dom) :
    (s.fault place pg kind sev det loc).dom h d = s.dom h d := dom_of_halves (by simp) h d

/-- What a prompt rise without a bound makes of a domain (08 R272). -/
def DomSt.promptUnbound (x : DomSt) : DomSt := { (if x.unb = 3 then x else x.unbound 2) with marred := true }

theorem dom_busNote (s : State) (h : Half) (d e : Dom) : (s.busNote h d).dom h e = s.dom h e := by
  simp [State.dom, State.busNote]

/-- Beside its events and counts, a prompt rise is one on the domain, told to the bus. -/
theorem halves_promptUnbound (s : State) (h : Half) (d : Dom) :
    (s.promptUnbound h d).halves = ((s.modDom h d DomSt.promptUnbound).busNote h d).halves := by
  unfold State.promptUnbound
  dsimp only
  rw [halves_evtIf, State.evtH, halves_evtIf, (keeps_count ..).2.2.2.2.2.2.2.1]
  rfl

theorem dom_promptUnbound_self (s : State) (h : Half) (d : Dom) :
    (s.promptUnbound h d).dom h d = (s.dom h d).promptUnbound := by
  rw [dom_of_halves (halves_promptUnbound s h d), dom_busNote, dom_modDom_self]

theorem dom_promptUnbound_ne (s : State) (h : Half) {d e : Dom} (he : e ≠ d) : (s.promptUnbound h d).dom h e = s.dom h e := by
  rw [dom_of_halves (halves_promptUnbound s h d), dom_busNote, dom_modDom_ne _ _ _ he]

theorem bound_promptUnbound {s : State} {h : Half} {d : Dom} (hunb : (s.dom h d).unb ≠ 3) :
    ((s.promptUnbound h d).dom h d).bound = 0xFFFF ∧ ((s.promptUnbound h d).dom h d).unb = 2 := by
  rw [dom_promptUnbound_self, DomSt.promptUnbound, if_neg hunb]
  exact ⟨rfl, rfl⟩

section
variable {s : State} {h : Half} {det : Byte} {k : Nat}

theorem domainDetection_gives {d : Dom} (hk : detKind (.td d.val) det.toNat = some k)
    (hh : h = (if det.toNat < 8 then .A else .B)) (hon : s.halfOn h = true) :
    Gives (.domainDetection d det) s (fun t => ((s.dom h d).unb ≠ 3 → (t.dom h d).bound = 0xFFFF ∧ (t.dom h d).unb = 2) ∧
      Reported (placeOf h * 256 + pgTd d) k (kindSev k) det s t) := by
  have heq : domainDetection d det s =
      (s.promptUnbound h d).fault (placeOf h) (pgTd d) k (kindSev k) det (s.locFor (pgTd d) k det) := by
    simp only [domainDetection, hk, ← hh, hon, if_true]
  refine ⟨_, congrArg Host.Outcome.next heq, fun hunb => ?_, ?_⟩
  · rw [dom_fault]
    exact bound_promptUnbound hunb
  · exact (reported_fault_half ((halfOn_of_pwr (by simp) h).trans hon) (pgTd_lt d) _ _ _ _).before (by simp) (by simp)

theorem cisternDetection_gives (hk : detKind .cis det.toNat = some k) (hh : h = (if det.toNat < 4 then .A else .B))
    (hon : s.halfOn h = true) : Gives (.cisternDetection det) s (fun t =>
      Reported (placeOf h * 256 + pgCis) k (if det.toNat % 4 = 2 then sevWarning else kindSev k) det s t) := by
  have hlt : det.toNat < 8 := by
    by_contra hge
    simp [detKind, show det.toNat ≥ 8 by omega] at hk
  have heq : cisternDetection det s = (cisternEffect det.toNat s).fault (placeOf h) pgCis k
      (if det.toNat % 4 = 2 then sevWarning else kindSev k) det (s.locFor pgCis k det) := by
    simp only [cisternDetection, hk, ← hh, hon, hlt, and_self, if_true, Option.getD_some]
  exact ⟨_, congrArg Host.Outcome.next heq, (reported_fault_half ((halfOn_of_pwr (by simp) h).trans hon) (by decide)
    _ _ _ _).before (by simp) (by simp)⟩

theorem mem_allDoms (d : Dom) : d ∈ allDoms := by
  revert d
  decide

theorem dom_promptUnbounds (s : State) (h : Half) (e : Dom) (hunb : (s.dom h e).unb ≠ 3) :
    ((allDoms.foldl (fun a d => a.promptUnbound h d) s).dom h e).bound = 0xFFFF ∧
      ((allDoms.foldl (fun a d => a.promptUnbound h d) s).dom h e).unb = 2 := by
  obtain ⟨a, -, hbefore, -, hafter⟩ := foldl_sees_once (g := fun (a : State) d => a.promptUnbound h d) (R := fun _ _ => True)
    (look := fun a => a.dom h e) (fun _ => trivial) (fun _ _ => trivial) (fun _ _ => trivial)
    (fun a d hd => dom_promptUnbound_ne a h (Ne.symm hd)) (by decide : allDoms.Nodup)
    (mem_allDoms e) s
  rw [hafter]
  exact bound_promptUnbound (by rw [hbefore]; exact hunb)

theorem slDetection_gives (hk : detKind .sl det.toNat = some k) (hh : h = (if det.toNat < 8 then .A else .B))
    (hon : s.halfOn h = true) : Gives (.slDetection det) s (fun t =>
      (∀ e, (s.dom h e).unb ≠ 3 → (t.dom h e).bound = 0xFFFF ∧ (t.dom h e).unb = 2) ∧
      Reported (placeOf h * 256 + pgSl) k (kindSev k) det s t) := by
  have heq : slDetection det s = (allDoms.foldl (fun a d => a.promptUnbound h d) s).fault (placeOf h) pgSl k (kindSev k) det
      (s.locFor pgSl k det) := by
    simp only [slDetection, hk, ← hh, hon, if_true]
  refine ⟨_, congrArg Host.Outcome.next heq, fun e hunb => ?_, ?_⟩
  · rw [dom_fault]
    exact dom_promptUnbounds s h e hunb
  · exact (reported_fault_half ((halfOn_of_pwr (by simp) h).trans hon) (by decide) _ _ _ _).before (by simp) (by simp)

theorem halfDetection_gives (hdet : det = 4 ∨ det = 5) (hh : h = (if det = 4 then .A else .B)) (hon : s.halfOn h = true) :
    Gives (.halfDetection det) s (fun t => Reported (placeOf h * 256 + pgHalf) kCrc (kindSev kCrc) det s t) := by
  have heq : halfDetection det s = if s.halfOn h then
      s.fault (placeOf h) pgHalf kCrc (kindSev kCrc) det (s.locFor pgHalf kCrc det) else s := by
    rcases hdet with rfl | rfl <;> (subst hh; rfl)
  exact ⟨_, congrArg Host.Outcome.next (heq.trans (if_pos hon)), reported_fault_half hon (by decide) _ _ _ _⟩

end

/-! ## Capture inputs, jets, lanes and ports (10 R325, R348; 11 R371; 12 R392) -/

section
variable {s : State} {det : Byte} {k : Nat}

theorem captureDetection_gives {c : CapNo} (hk : detKind (.cap c.val) det.toNat = some k) :
    Gives (.captureDetection c det) s (fun t => Reported (pgCap c) k (kindSev k) det s t) := by
  refine ⟨_, rfl, (reported_fault s (pg := pgCap c) (by simp only [pgCap]; omega) k (kindSev k) det
    (s.locFor (pgCap c) k det)).after ?_⟩
  simp only [captureDetection, hk]
  split_ifs <;> simp

theorem tdcCalDetection_cap_gives (c : CapNo) :
    Gives (.tdcCalDetection (.cap c)) s (fun t => Reported (pgCap c) kClock (kindSev kClock) 0 s t) :=
  ⟨_, rfl, reported_fault s (by simp only [pgCap]; omega) _ _ _ _⟩

theorem tdcCalDetection_lane_gives (l : LaneNo) :
    Gives (.tdcCalDetection (.laneTx l)) s (fun t => Reported (pgLane l) kClock (kindSev kClock) 0 s t) ∧
      Gives (.tdcCalDetection (.laneRx l)) s (fun t => Reported (pgLane l) kClock (kindSev kClock) 1 s t) := by
  have hpg : pgLane l < 1024 := by simp only [pgLane]; omega
  have hbufs : ∀ u : State, (settlePorts u).flt.bufs = u.flt.bufs := fun u => by simp
  have hreports : ∀ det : Byte, Reported (pgLane l) kClock (kindSev kClock) det s
      (settlePorts (s.fault 0 (pgLane l) kClock (kindSev kClock) det 0)) := fun det =>
    (reported_fault s hpg kClock (kindSev kClock) det 0).after (hbufs _)
  exact ⟨⟨_, rfl, hreports 0⟩, ⟨_, rfl, hreports 1⟩⟩

theorem jet_fault (s : State) (place pg kind sev : Nat) (det : Byte) (loc : BitVec 24) (j : JetNo) :
    (s.fault place pg kind sev det loc).jet j = s.jet j := jet_of_jets (by simp) j

theorem jetDetection_common_gives {j : JetNo} (hk : detKind (.jet j.val) det.toNat = some k) (hdet : 2 ≤ det.toNat) :
    Gives (.jetDetection j det) s (fun t => Reported (pgJet j) k (kindSev k) det s t ∧
      (det = 3 → (t.jet j).level = .hiz ∧ t.evtBit (pgJet j) evDriver = true)) := by
  refine ⟨_, rfl, (reported_fault s (pg := pgJet j) (by simp only [pgJet]; omega) k (kindSev k) det
    (s.locFor (pgJet j) k det)).after ?_, ?_⟩
  · simp only [jetDetection, hk]
    rw [if_neg (by omega)]
    split_ifs <;> simp
  · rintro rfl
    simp only [jetDetection, hk]
    rw [if_neg (by decide), if_neg (by decide), if_pos (by decide), jet_setEvt, jet_modJet_self]
    exact ⟨rfl, evtBit_setEvt_self _ _ _ (by decide)⟩

theorem jetDetection_half_gives {j : JetNo} {h : Half} (hk : detKind (.jet j.val) det.toNat = some k) (hdet : det.toNat < 2)
    (hh : h = (if det = 0 then .A else .B)) (hon : s.halfOn h = true) :
    Gives (.jetDetection j det) s (fun t => Reported (placeOf h * 256 + pgJet j) k (kindSev k) det s t ∧
      (t.jet j).bad.of h = true ∧ (t.jet j).bad.of h.peer = (s.jet j).bad.of h.peer) := by
  have hzero : (if det.toNat = 0 then Half.A else .B) = h := by
    rw [hh]
    exact if_congr (BitVec.toNat_inj (y := 0)) rfl rfl
  have heq : jetDetection j det s = (s.modJet j (fun x => { x with bad := x.bad.set h true })).fault (placeOf h) (pgJet j) k
      (kindSev k) det (s.locFor (pgJet j) k det) := by
    simp only [jetDetection, hk, hzero, hon, hdet, if_true]
  refine ⟨_, congrArg Host.Outcome.next heq, ?_⟩
  beta_reduce
  rw [jet_fault, jet_modJet_self, Pair.of_set_self, Pair.of_set_peer]
  refine ⟨?_, rfl, rfl⟩
  exact (reported_fault_half (s := s.modJet j _) hon (by simp only [pgJet]; omega) _ _ _ _).before rfl rfl

theorem portDetection_lane_gives {l : LaneNo} (hk : detKind (.lane l.val) det.toNat = some k) :
    Gives (.portDetection (.lane l) det) s (fun t => Reported (pgLane l) k (kindSev k) det s t) := by
  refine ⟨_, rfl, (reported_fault s (pg := pgLane l) (by simp only [pgLane]; omega) k (kindSev k) det
    (s.locFor (pgLane l) k det)).after ?_⟩
  simp only [portDetection, hk]
  split
  · simp
  · split <;> split <;> simp

theorem portDetection_lp_gives {q : PortNo} (hk : detKind (.lp q.val) det.toNat = some k) :
    Gives (.portDetection (.lp q) det) s (fun t => Reported (pgLp q) k (kindSev k) det s t) := by
  refine ⟨_, rfl, (reported_fault s (pg := pgLp q) (by simp only [pgLp]; omega) k (kindSev k) det
    (s.locFor (pgLp q) k det)).after ?_⟩
  simp only [portDetection, hk]
  split
  · simp
  · split
    · split
      · simp
      · split <;> simp
    · split_ifs <;> simp

end

/-! ## The PTP engine and the Fountain (13 R428, 14 R466) -/

section
variable {s : State} {det : Byte} {k n : Nat}

theorem ptpDetection_gives (hk : detKind .ptp det.toNat = some k) :
    Gives (.ptpDetection det n) s (fun t => Reported pgPtp k (kindSev k) det s t ∧ (det = 0 → t.sess? n = none)) := by
  refine ⟨_, rfl, (reported_fault s (pg := pgPtp) (by decide) k (kindSev k) det
    (if det = 0 then BitVec.ofNat 24 n else s.locFor pgPtp k det)).after ?_, ?_⟩
  · simp only [ptpDetection, hk]
    split_ifs <;> simp
  · rintro rfl
    simp only [ptpDetection, hk]
    rw [if_pos trivial, sess_setSess_self]

/-- The Fountain settles without a change of its client table. -/
theorem table_settleFtn (s : State) : (settleFtn s).ftn.table = s.ftn.table := by
  have hleap : (noteLeap s).ftn.table = s.ftn.table := by
    unfold noteLeap
    dsimp only
    split <;> rfl
  unfold settleFtn
  dsimp only
  refine List.foldlRecOn (motive := fun (a : State) => a.ftn.table = s.ftn.table) allPorts _ ?_ fun a ha p _ => ?_
  · simpa using hleap
  · have hport : ∀ (u : State) f, (u.modFtnPort p f).ftn.table = u.ftn.table := fun _ _ => rfl
    have hevt : ∀ (u : State) c b, (u.evtIf c pgFtn b).ftn.table = u.ftn.table := fun u c b => by simp
    have hreach : ∀ (u : State) (on : Bool), (if on then u.reachStep 10 else u).ftn.table = u.ftn.table := fun u on => by
      split <;> rfl
    rw [hevt, hevt, hport, hevt, hevt, hport, hreach, ha]

theorem clientEnt_settleFtn (s : State) (i : Nat) : (settleFtn s).clientEnt i = s.clientEnt i := by
  rw [State.clientEnt, table_settleFtn, State.clientEnt]

theorem clientEnt_setClientEnt_none (s : State) (i : Nat) : (s.setClientEnt i none).clientEnt i = none := by
  simp [State.clientEnt, State.setClientEnt, ClientEnt.ofWord]

theorem ftnDetection_gives (hk : detKind .ftn det.toNat = some k) :
    Gives (.ftnDetection det n) s (fun t => Reported pgFtn k (kindSev k) det s t ∧
      (det = 12 → t.clientEnt (n % 2 ^ 20) = none)) := by
  refine ⟨_, rfl, (reported_fault s (pg := pgFtn) (by decide) k (kindSev k) det
    (if det = 12 then BitVec.ofNat 24 (n % 2 ^ 20) else s.locFor pgFtn k det)).after ?_, ?_⟩
  · simp only [ftnDetection, hk]
    split_ifs <;> simp
  · rintro rfl
    simp only [ftnDetection, hk]
    rw [clientEnt_settleFtn, if_pos trivial, clientEnt_setClientEnt_none]

end

/-! ## Partitions, keys, the collector and Milondino (15 R498, 16 R529, 17 R554, 18 R584) -/

section
variable {s : State} {det : Byte} {k n : Nat}

theorem mem_bufs_fault {x : Msg} {src : Nat} (pg kind sev : Nat) (det : Byte) (loc : BitVec 24)
    (h : x ∈ look bufReset s.flt.bufs src) : x ∈ look bufReset (s.fault 0 pg kind sev det loc).flt.bufs src := by
  rw [bufs_fault]
  exact mem_bufs_enqueueMsg h

theorem mem_bufs_flushCrossing {x : Msg} {src : Nat} (p : Part) (lost : Nat) (h : x ∈ look bufReset s.flt.bufs src) :
    x ∈ look bufReset (flushCrossing p lost s).flt.bufs src := by
  simp only [flushCrossing]
  exact mem_bufs_fault _ _ _ _ _ (by simpa using h)

theorem hpDetection_gives {p : Part} (hk : detKind (.hp p.val) det.toNat = some k) :
    Gives (.hpDetection p det) s (fun t => Reported (pgHp p) k (kindSev k) det s t ∧
      (det = 0 → (t.part p).paused = true)) := by
  refine ⟨_, rfl, (reported_fault s (pgHp_lt p) k (kindSev k) det (s.locFor (pgHp p) k det)).mono rfl (Nat.le_refl _)
    fun m hm => ?_, ?_⟩
  · simp only [hpDetection, hk]
    split_ifs
    · simpa using hm
    · exact mem_bufs_flushCrossing p _ (by simpa using hm)
    · exact hm
  · rintro rfl
    simp only [hpDetection, hk]
    rw [if_pos trivial, part_modPart_self]

theorem keyDetection_gives {slot : KeyNo} (hk : detKind .key det.toNat = some k) (hdet : det ≠ 3) :
    Gives (.keyDetection det slot) s (fun t => Reported pgKey k (kindSev k) det s t) := by
  refine ⟨_, rfl, (reported_fault s (pg := pgKey) (by decide) k (kindSev k) det
    (if det.toNat < 2 then s.locFor pgKey k det else BitVec.ofNat 24 slot.val)).after ?_⟩
  simp only [keyDetection, hk, if_neg hdet]
  split_ifs
  · simp
  · simp
  · split <;> simp

theorem fltDetection_gives (hk : detKind .flt det.toNat = some k) (loc : BitVec 24) :
    Gives (.fltDetection det loc) s (fun t => Reported pgFlt k (kindSev k) det s t) := by
  refine ⟨_, rfl, (reported_fault s (pg := pgFlt) (by decide) k (kindSev k) det loc).after ?_⟩
  simp only [fltDetection, hk]
  split_ifs <;> simp [freezeAlive]

theorem bufs_restartMgt (lockstep : Bool) (s : State) : (restartMgt lockstep s).flt.bufs = s.flt.bufs := by
  simp [restartMgt]

/-- What Milondino's detectors do after their message sends none. -/
theorem bufs_mgtDetection (hk : detKind .mgt det.toNat = some k) (correctable : Bool) :
    (mgtDetection det correctable s).flt.bufs = (s.fault 0 pgMgt k
      (if k = kEcc ∧ correctable = true then sevWarning else kindSev k) det (s.locFor pgMgt k det)).flt.bufs := by
  simp only [mgtDetection, hk]
  split_ifs <;> simp [bufs_restartMgt]

theorem mgtDetection_gives (hk : detKind .mgt det.toNat = some k) :
    Gives (.mgtDetection det false) s (fun t => Reported pgMgt k (kindSev k) det s t) ∧
      (k = kEcc → Gives (.mgtDetection det true) s (fun t => Reported pgMgt k sevWarning det s t)) := by
  have hreports : ∀ correctable, Reported pgMgt k (if k = kEcc ∧ correctable = true then sevWarning else kindSev k) det s
      (mgtDetection det correctable s) := fun correctable =>
    (reported_fault s (pg := pgMgt) (by decide) k _ det _).after (bufs_mgtDetection hk correctable)
  refine ⟨⟨_, rfl, ?_⟩, fun hecc => ⟨_, rfl, ?_⟩⟩
  · have h := hreports false
    rwa [if_neg (by simp)] at h
  · have h := hreports true
    rwa [if_pos ⟨hecc, rfl⟩] at h

/-- A rail's measurement (18 R576). -/
def State.measureRail (s : State) (r : Fin 8) (mv : Nat) : State :=
  { s with mgt := { s.mgt with rails := setAt s.mgt.rails r mv, railBad := setAt s.mgt.railBad r (railOut r mv) } }

theorem railCrossing_gives (r : Fin 8) (mv : Nat) : Gives (.railCrossing r mv) s (fun t => t.mgt.rails.get r = mv ∧
    (railOut r mv ≠ s.mgt.railBad.get r → s.pwr.state ≠ .standby →
      Reported pgMgt kVoltage sevWarning (Config.detectorOf pgMgt kVoltage) s t)) := by
  have heq : railCrossing r mv s = if railOut r mv = s.mgt.railBad.get r ∨ s.pwr.state = .standby then s.measureRail r mv
      else (s.measureRail r mv).fault 0 pgMgt kVoltage sevWarning (Config.detectorOf pgMgt kVoltage)
        (BitVec.ofNat 24 r.val) := rfl
  refine ⟨_, congrArg Host.Outcome.next heq, ?_, fun hcross hrun => ?_⟩
  · split <;> simp [State.measureRail]
  · rw [if_neg (by simp [hcross, hrun])]
    exact (reported_fault (s.measureRail r mv) (by decide) _ _ _ _).before rfl rfl

end

/-! ## Counters, and detectors at their place (19 R594, 17 R531) -/

section
variable {s : State}

theorem cntDetection_reports (c : Nat) (s : State) : Reported pgCnt kParity (kindSev kParity) 0 s (cntDetection c s) ∧
    (cntDetection c s).cntVal c = 0 :=
  ⟨(reported_fault s (by decide) _ _ _ _).after rfl, cntVal_setCnt_self ..⟩

/-- The location told of a message of this place in the messages' order (17 R531). -/
def Msg.located (ident : Nat) (loc : BitVec 24) (m : Msg) : Msg := if m.ident = ident then { m with loc := loc } else m

theorem located_leaves (ident : Nat) (loc : BitVec 24) (m : Msg) : (m.located ident loc).ident = m.ident ∧
    (m.located ident loc).kind = m.kind ∧ (m.located ident loc).sev = m.sev ∧ (m.located ident loc).det = m.det := by
  unfold Msg.located
  split <;> exact ⟨rfl, rfl, rfl, rfl⟩

theorem look_bufs_map (f : Msg → Msg) (b : KMap (List Msg)) (src : Nat) :
    look bufReset (b.map (fun e => (e.1, e.2.map f))) src = (look bufReset b src).map f := by
  induction b with
  | nil => rfl
  | cons e r ih =>
    simp only [List.map_cons, look]
    split
    · rfl
    · exact ih

/-- A report stays one when its messages are located. -/
theorem Reported.located {src kind sev : Nat} {det : Byte} {t u : State} {ident : Nat} {loc : BitVec 24}
    (h : Reported src kind sev det s t)
    (hbufs : u.flt.bufs = t.flt.bufs.map (fun e => (e.1, e.2.map (Msg.located ident loc)))) :
    Reported src kind sev det s u := by
  intro hfree
  obtain ⟨m, hm, hid, hkind, hsev, hdet⟩ := h hfree
  obtain ⟨eid, ekind, esev, edet⟩ := located_leaves ident loc m
  refine ⟨m.located ident loc, ?_, by rw [eid]; exact hid, ekind.trans hkind, esev.trans hsev, edet.trans hdet⟩
  rw [hbufs, look_bufs_map]
  exact List.mem_map_of_mem hm

theorem faultDetection_cnt_gives {det : Byte} (hdet : det.toNat = 0) (n : Nat) :
    Gives (.faultDetection .common ⟨pgCnt, by decide⟩ det (BitVec.ofNat 24 n)) s (fun t =>
      Reported pgCnt kParity (kindSev kParity) det s t ∧ t.cntVal (n % 2 ^ 24 % 1024) = 0) := by
  have hzero : det = 0 := BitVec.eq_of_toNat_eq hdet
  subst hzero
  obtain ⟨hreports, hval⟩ := cntDetection_reports (n % 2 ^ 24 % 1024) s
  have heq : faultDetection .common pgCnt 0 (BitVec.ofNat 24 n) s =
      { cntDetection (n % 2 ^ 24 % 1024) s with flt := { (cntDetection (n % 2 ^ 24 % 1024) s).flt with
        bufs := (cntDetection (n % 2 ^ 24 % 1024) s).flt.bufs.map
          (fun e => (e.1, e.2.map (Msg.located s.ident (BitVec.ofNat 24 n)))) } } := by
    have hloc : (BitVec.ofNat 24 n).toNat = n % 2 ^ 24 := BitVec.toNat_ofNat ..
    rw [← hloc]
    rfl
  exact ⟨_, congrArg Host.Outcome.next heq, hreports.located rfl, hval⟩

end

/-- Settles O52: each detector's command is one `fault` at its place, and what it does beside takes no message back. -/
theorem detectorsReport : Obligations.DetectorsReport := by
  refine fun s det k d h c j n p slot => ⟨domainDetection_gives, cisternDetection_gives, slDetection_gives,
    halfDetection_gives, captureDetection_gives, tdcCalDetection_cap_gives c, tdcCalDetection_lane_gives,
    jetDetection_common_gives, jetDetection_half_gives, fun l => portDetection_lane_gives, fun q => portDetection_lp_gives,
    ptpDetection_gives, ftnDetection_gives, hpDetection_gives, keyDetection_gives, fun hk => fltDetection_gives hk 0,
    mgtDetection_gives, fun i => ⟨_, rfl, cntDetection_reports i.val s⟩, railCrossing_gives,
    fun hdet => faultDetection_cnt_gives hdet n⟩

end Sys2Proof.Machine
end

section
/-!
PROOFS. Scope: operations on ports and rates complete (used for O50).
-/

namespace Sys2Proof.Machine

/-- A command whose state holds the operations that a `finish` leaves completes the operation. -/
theorem completes_of_ops {c : Instr} {s x y : State} {t : Tag} {o : Op} {st : Byte} {res : Vector Word 6}
    {P : Vector Word 6 → State → Prop} (hexec : exec c s = .next y) (hops : y.ops = (x.finish t st res).ops)
    (ho : x.op? t = some o) (hd : o.isDone = false) (hP : P res y) : Completes c s t st P :=
  ⟨y, hexec, _, (op_of_ops hops t).trans (op_finish_self x t o st res ho hd), rfl, hP⟩

/-! ## PTP_SEND (12 R377; 10 R327, R328) -/

/-- The frame that a PTP_SEND gives its port (15 R482). -/
def hostFrameOf (paired : Bool) (t : Tag) (o : Op) (frame : HostRead) : HostFrame :=
  { part := o.part, tag := if bits (o.word 1) 9 8 = 2 then none else some t, path := if paired then bits (o.word 1) 5 4 else 0
    dest := bits (o.word 1) 9 8, dom := opDom (o.word 1) 12, id := BitVec.ofNat 16 (bits (o.word 2) 31 16)
    bytes := sendBytes frame (bits (o.word 2) 15 0)
    oneAt := if bit (o.word 1) 16 then some (bits (o.word 3) 15 0) else none
    sumAt := if bit (o.word 1) 17 then some (bits (o.word 3) 31 16) else none }

/-- A port has taken the frame of a PTP_SEND after those it holds, and the operation is done or waits for its egress, as its
destination asks (10 R327, R328). -/
def FrameGiven (t : Tag) (o : Op) (b : List Byte) (p : PortNo) (s u : State) : Prop :=
  (∃ f, (u.port p).hosts = (s.port p).hosts ++ [f] ∧ f.dest = bits (o.word 1) 9 8 ∧
    f.bytes = sendBytes (some b) (bits (o.word 2) 15 0) ∧ f.bytes.length = bits (o.word 2) 15 0 ∧
    f.oneAt = (if bit (o.word 1) 16 then some (bits (o.word 3) 15 0) else none) ∧ f.dom = opDom (o.word 1) 12 ∧
    f.id = BitVec.ofNat 16 (bits (o.word 2) 31 16)) ∧
  (u.op? t).map Op.phase = some (if bits (o.word 1) 9 8 = 2 then .done stOk else .running)

theorem length_sendBytes (frame : HostRead) (len : Nat) : (sendBytes frame len).length = len := by
  simp [sendBytes]

/-- The state in which the port's engine has taken the operation. -/
def State.sendTaken (s : State) (o : Op) : State := (s.served o).count (cntPart o.part 4) 1

section
variable {s : State} {t : Tag} {o : Op} {p : PortNo} {b : List Byte}

theorem op_sendTaken (hdisp : dispatchable s t 0x20 = some o) : (s.sendTaken o).op? t = some o := by
  rw [State.sendTaken, op_count, op_served, op_of_dispatchable hdisp]

theorem ports_sendTaken_finish (s : State) (o : Op) (t : Tag) (st : Byte) (res : Vector Word 6) :
    ((s.sendTaken o).finish t st res).ports = s.ports := by
  simp [State.sendTaken]

/-- What a PTP_SEND on a port of its partition does with its frame. -/
theorem opPtpSend_eq (hdisp : dispatchable s t 0x20 = some o) (hp : p = Fin.ofNat 16 (bits (o.word 1) 3 0))
    (howns : s.owns o.part (pgLp p) = true) (frame : HostRead) : opPtpSend t frame s =
      if sendInvalid o (s.bitAt (pgLp p) 0x040 16) then (s.sendTaken o).finish t stInvalidField
      else if frame.isNone then (s.sendTaken o).finish t stHostMemory
      else if s.unitBusy (pgLp p) 1 || s.schedBusy p (s.sendPath p (if s.paired p then bits (o.word 1) 5 4 else 0)) then
        (s.sendTaken o).finish t stRetry
      else
        let s2 := (if bits (o.word 1) 9 8 = 2 then (s.sendTaken o).finish t stOk else (s.sendTaken o).phase t .running).modPort p
          (fun x => { x with hosts := x.hosts ++ [hostFrameOf (s.paired p) t o frame] })
        if s.portUp p then s2 else s2.discardFrames p (fun _ => true) := by
  simp only [opPtpSend, hdisp, ← hp]
  rw [if_neg (by simp [howns])]
  rfl

theorem ptpSend_accepts (hdisp : dispatchable s t 0x20 = some o) (hp : p = Fin.ofNat 16 (bits (o.word 1) 3 0))
    (howns : s.owns o.part (pgLp p) = true) (hvalid : sendInvalid o (s.bitAt (pgLp p) 0x040 16) = false)
    (hunit : s.unitBusy (pgLp p) 1 = false)
    (hsched : s.schedBusy p (s.sendPath p (if s.paired p then bits (o.word 1) 5 4 else 0)) = false)
    (hup : s.portUp p = true) :
    Gives (.ptpSend t (some b)) s (FrameGiven t o b p s) := by
  have heq := opPtpSend_eq hdisp hp howns (some b)
  rw [if_neg (by simp [hvalid]), if_neg (by simp), if_neg (by rw [hunit, hsched]; decide)] at heq
  replace heq := heq.trans (if_pos hup)
  have ho := op_sendTaken hdisp
  refine ⟨_, congrArg Host.Outcome.next heq,
    ⟨hostFrameOf (s.paired p) t o (some b), ?_, rfl, rfl, length_sendBytes _ _, rfl, rfl, rfl⟩, ?_⟩
  · rw [port_modPort_self, port_of_ports (s := s)]
    split <;> simp [State.sendTaken]
  · rw [op_of_ops (s := if bits (o.word 1) 9 8 = 2 then (s.sendTaken o).finish t stOk else (s.sendTaken o).phase t .running)
      (by simp)]
    split
    · rw [op_finish_self _ t o stOk _ ho (isDone_of_dispatchable hdisp)]
      rfl
    · rw [op_phase_self _ t o _ ho]
      rfl

theorem ptpSend_gives (hdisp : dispatchable s t 0x20 = some o) (hp : p = Fin.ofNat 16 (bits (o.word 1) 3 0))
    (howns : s.owns o.part (pgLp p) = true) :
    (sendInvalid o (s.bitAt (pgLp p) 0x040 16) = true →
      Completes (.ptpSend t (some b)) s t stInvalidField (fun _ u => u.ports = s.ports)) ∧
    (sendInvalid o (s.bitAt (pgLp p) 0x040 16) = false →
      Completes (.ptpSend t none) s t stHostMemory (fun _ u => u.ports = s.ports) ∧
      (s.unitBusy (pgLp p) 1 = true → Completes (.ptpSend t (some b)) s t stRetry (fun _ u => u.ports = s.ports)) ∧
      (s.unitBusy (pgLp p) 1 = false →
        s.schedBusy p (s.sendPath p (if s.paired p then bits (o.word 1) 5 4 else 0)) = false → s.portUp p = true →
        Gives (.ptpSend t (some b)) s (FrameGiven t o b p s))) := by
  have ho := op_sendTaken hdisp
  have hd := isDone_of_dispatchable hdisp
  have hports := ports_sendTaken_finish s o t
  refine ⟨fun hbad => ?_, fun hvalid => ⟨?_, fun hunit => ?_, ptpSend_accepts hdisp hp howns hvalid⟩⟩
  · exact completes_finish (congrArg Host.Outcome.next ((opPtpSend_eq hdisp hp howns _).trans (if_pos hbad))) ho hd (hports _ _)
  · have heq := (opPtpSend_eq hdisp hp howns none).trans (if_neg (by simp [hvalid]))
    exact completes_finish (congrArg Host.Outcome.next (heq.trans (if_pos rfl))) ho hd (hports _ _)
  · have heq := (opPtpSend_eq hdisp hp howns (some b)).trans ((if_neg (by simp [hvalid])).trans (if_neg (by simp)))
    exact completes_finish (congrArg Host.Outcome.next (heq.trans (if_pos (by rw [hunit]; rfl)))) ho hd (hports _ _)

end

/-! ## RATE_SET (06 R226, R227; 15 R481) -/

/-- The target of a RATE_SET, for the coming boundary or the one after it (R227). -/
def State.rateReq (s : State) (d : Dom) (t : Tag) (o : Op) (late : Bool) : RateReq :=
  { tag := t, rate := o.targetRate, stage := if late || (s.page (pgTd d)).captured.isSome then 1 else 0 }

/-- A target joins those that wait on a half that runs. -/
def State.noteTarget (d : Dom) (r : RateReq) (a : State) (h : Half) : State :=
  if a.gridOn h then a.modDom h d (fun y => { y with hostPend := y.hostPend ++ [r] }) else a

section
variable {s : State} {d : Dom} {r : RateReq}

theorem dom_phase (s : State) (t : Tag) (ph : OpPhase) (g : Half) (e : Dom) : (s.phase t ph).dom g e = s.dom g e :=
  dom_of_halves (by simp) g e

theorem half_noteTarget_ne {h g : Half} (hg : g ≠ h) : (s.noteTarget d r h).half g = s.half g := by
  unfold State.noteTarget
  split
  · exact half_modHalf_ne _ _ hg
  · rfl

theorem gridOn_noteTarget_ne {h g : Half} (hg : g ≠ h) : (s.noteTarget d r h).gridOn g = s.gridOn g := by
  have hpwr : (s.noteTarget d r h).pwr = s.pwr := by simp [State.noteTarget]
  rw [State.gridOn, halfOn_of_pwr hpwr, half_noteTarget_ne hg, State.gridOn]

theorem dom_noteTarget_self {h : Half} (hon : s.gridOn h = true) :
    (s.noteTarget d r h).dom h d = { s.dom h d with hostPend := (s.dom h d).hostPend ++ [r] } := by
  rw [State.noteTarget, if_pos hon, dom_modDom_self]

theorem dom_noteTarget_ne {h g : Half} (hg : g ≠ h) : (s.noteTarget d r h).dom g d = s.dom g d := by
  rw [State.dom, half_noteTarget_ne hg, State.dom]

/-- Each half that runs takes the target. -/
theorem dom_noteTargets {g : Half} (hon : s.gridOn g = true) :
    (allHalves.foldl (State.noteTarget d r) s).dom g d = { s.dom g d with hostPend := (s.dom g d).hostPend ++ [r] } := by
  show ((s.noteTarget d r .A).noteTarget d r .B).dom g d = _
  cases g with
  | A => rw [dom_noteTarget_ne (by decide), dom_noteTarget_self hon]
  | B => rw [dom_noteTarget_self ((gridOn_noteTarget_ne (by decide)).trans hon), dom_noteTarget_ne (by decide)]

variable {t : Tag} {o : Op} {late : Bool}

/-- What a RATE_SET on a domain of its partition does. -/
theorem opRateSet_eq (hdisp : dispatchable s t 0x21 = some o) (hd : d.val = bits (o.word 1) 1 0)
    (howns : s.owns o.part (pgTd d) = true) : opRateSet ⟨t, late⟩ s =
      if s.busHalf.any (fun h => (s.dom h d).hosted) then
        (allHalves.foldl (State.noteTarget d (s.rateReq d t o late)) (s.served o)).phase t .waiting
      else (s.served o).finish t stRefusedState := by
  have hdom : (⟨bits (o.word 1) 1 0 % 4, by omega⟩ : Dom) = d := Fin.ext (by have := d.isLt; simp only; omega)
  have hbus : (s.served o).busHalf = s.busHalf := by simp [State.busHalf]
  have hdoms : ∀ h e, (s.served o).dom h e = s.dom h e := dom_of_halves (by simp)
  have hcap : ((s.served o).page (pgTd d)).captured = (s.page (pgTd d)).captured := by
    by_cases h : pgTd d = o.enginePage
    · rw [h, State.served, page_modPage_self]
    · rw [State.served, page_modPage_ne _ _ h]
  simp only [opRateSet, hdisp, rateSetDispatch, hdom, hbus, hdoms, hcap]
  rw [if_neg (by simp [howns])]
  by_cases hhosted : s.busHalf.any (fun h => (s.dom h d).hosted) = true
  · rw [if_neg (by simp [hhosted]), if_pos hhosted]
    rfl
  · rw [if_pos (by simpa using hhosted), if_neg hhosted]

theorem rateSet_gives (hdisp : dispatchable s t 0x21 = some o) (hdv : d.val = bits (o.word 1) 1 0)
    (howns : s.owns o.part (pgTd d) = true) :
    (∀ h, s.busHalf = some h → (s.dom h d).steer = true → (s.dom h d).stepped = true →
      ((s.dom h d).st = 1 ∨ (s.dom h d).st = 2) →
      Gives (.rateSet ⟨t, late⟩) s (fun u => u.op? t = some { o with phase := .waiting } ∧
        ∀ g, s.gridOn g = true → (u.dom g d).hostPend = (s.dom g d).hostPend ++
          [{ tag := t, rate := o.targetRate, stage := if late || (s.page (pgTd d)).captured.isSome then 1 else 0 }] ∧
          (u.dom g d).rate = (s.dom g d).rate)) ∧
    (∀ h, s.busHalf = some h → (s.dom h d).steer = false →
      Completes (.rateSet ⟨t, late⟩) s t stRefusedState (fun _ _ => True)) := by
  have heq := opRateSet_eq (late := late) hdisp hdv howns
  have ho : (s.served o).op? t = some o := (op_served ..).trans (op_of_dispatchable hdisp)
  refine ⟨fun h hbus hsteer hstep hst => ?_, fun h hbus hsteer => ?_⟩
  · have hhosted : s.busHalf.any (fun h => (s.dom h d).hosted) = true := by
      rw [hbus]
      rcases hst with hst | hst <;> simp [DomSt.hosted, hsteer, hstep, hst]
    refine ⟨_, congrArg Host.Outcome.next (heq.trans (if_pos hhosted)), ?_, fun g hg => ?_⟩
    · exact op_phase_self _ _ _ _ ((op_of_ops (by simp [State.noteTarget]) t).trans ho)
    · have hnoted := dom_noteTargets (s := s.served o) (r := s.rateReq d t o late) (d := d) (g := g) hg
      rw [dom_phase, hnoted]
      exact ⟨rfl, rfl⟩
  · refine completes_finish (congrArg Host.Outcome.next (heq.trans (if_neg ?_))) ho (isDone_of_dispatchable hdisp) trivial
    simp [hbus, DomSt.hosted, hsteer]

end

end Sys2Proof.Machine
end

section
/-!
PROOFS. Scope: operations on keys, cookies, counters and the log complete, and reads of host memory that fail (O50).
-/

namespace Sys2Proof.Machine

/-! ## KEY_DERIVE and KEY_REPLACE (16 R512, R513) -/

/-- What a key operation requires hangs on the key store, the power state and the units' tests alone. -/
theorem keyRequire_congr {s t : State} (hkeys : t.keys = s.keys) (hpwr : t.pwr = s.pwr) (hflt : t.flt = s.flt) (p : Part)
    (n : KeyNo) (attr : Word) (replace : Bool) (len : Nat) :
    keyRequire t p n attr replace len = keyRequire s p n attr replace len := by
  have hslot : t.slotKey n = s.slotKey n := by simp only [State.slotKey, hkeys]
  have hunit : ∀ u, keyUnitOk t u = keyUnitOk s u := fun u => by simp only [keyUnitOk, State.unitBusy, State.unit, hflt]
  simp only [keyRequire, hslot, hunit, hpwr]

theorem slotKey_of_keys {s t : State} (h : t.keys = s.keys) (n : KeyNo) : t.slotKey n = s.slotKey n := by
  simp only [State.slotKey, h]

section
variable {s : State} {t : Tag} {o : Op} {n : KeyNo} {b : List Byte} {replace : Bool}

/-- The next generation of a slot comes into force; the others stay (R513). -/
theorem slotKey_commitKey_self (s : State) (n : KeyNo) (attr : Word) (imported : Bool) (body : List Byte) :
    ((commitKey s n attr imported body).slotKey n).gen = (s.slotKey n).gen + 1 ∧
      ((commitKey s n attr imported body).slotKey n).prev = (s.slotKey n).cur ∧
      ((commitKey s n attr imported body).slotKey n).loaded = true := by
  unfold commitKey
  extract_lets k g a b0 bank ix k1
  rw [slotKey_of_keys (s := s.setSlotKey n k1) (by simp [State.logKey]), slotKey_setSlotKey_self]
  exact ⟨rfl, rfl, rfl⟩

theorem slotKey_commitKey_ne (s : State) {n m : KeyNo} (hm : m ≠ n) (attr : Word) (imported : Bool) (body : List Byte) :
    (commitKey s n attr imported body).slotKey m = s.slotKey m := by
  unfold commitKey
  extract_lets k g a b0 bank ix k1
  rw [slotKey_of_keys (s := s.setSlotKey n k1) (by simp [State.logKey]), slotKey_setSlotKey_ne _ _ hm]

/-- The state in which the key unit has taken the operation. -/
def State.keyTaken (s : State) (o : Op) : State := (s.served o).count (cntPart o.part 5) 1

/-- The slot's commit by a key operation with its label or key. -/
def State.keyCommitted (s : State) (o : Op) (n : KeyNo) (replace : Bool) (b : List Byte) : State :=
  if replace then commitKey (s.keyTaken o) n (o.word 2) true
    (Config.aesWrap ((s.keyTaken o).keys.kwrap.getD []) (b.take (bits (o.word 3) 6 0)))
  else commitKey (s.keyTaken o) n (o.word 2) false (b.take (bits (o.word 3) 6 0))

/-- The first status that applies to a key operation, as its unit finds it (R512). -/
abbrev State.keyRefusal (s : State) (o : Op) (n : KeyNo) (replace : Bool) : Option Byte :=
  keyRequire (s.count (cntPart o.part 5) 1) o.part n (o.word 2) replace (bits (o.word 3) 6 0)

theorem keyRefusal_taken (s : State) (o : Op) (n : KeyNo) (replace : Bool) :
    keyRequire ((s.served o).count (cntPart o.part 5) 1) o.part n (o.word 2) replace (bits (o.word 3) 6 0) =
      s.keyRefusal o n replace := keyRequire_congr (by simp) (by simp) (by simp) _ _ _ _ _

theorem keyOp_of_refused {e : Byte} (hn : n = Fin.ofNat 64 o.keySlot) (h : s.keyRefusal o n replace = some e)
    (data : HostRead) : keyOp t o data replace s = (s.keyTaken o).finish t e := by
  simp only [keyOp, ← hn, keyRefusal_taken, h]
  rfl

theorem keyOp_of_unread (hn : n = Fin.ofNat 64 o.keySlot) (h : s.keyRefusal o n replace = none) :
    keyOp t o none replace s = (s.keyTaken o).finish t stHostMemory := by
  simp only [keyOp, ← hn, keyRefusal_taken, h]
  rfl

theorem keyOp_of_read (hn : n = Fin.ofNat 64 o.keySlot) (h : s.keyRefusal o n replace = none) (b : List Byte) :
    keyOp t o (some b) replace s =
      (s.keyCommitted o n replace b).finish t stOk (keyResult (s.keyCommitted o n replace b) n) := by
  simp only [keyOp, ← hn, keyRefusal_taken, h]
  rfl

theorem op_keyTaken (ho : s.op? t = some o) : (s.keyTaken o).op? t = some o := by
  rw [State.keyTaken, op_count, op_served, ho]

theorem slotKey_keyCommitted_self (s : State) (o : Op) (n : KeyNo) (replace : Bool) (b : List Byte) :
    ((s.keyCommitted o n replace b).slotKey n).gen = (s.slotKey n).gen + 1 ∧
      ((s.keyCommitted o n replace b).slotKey n).prev = (s.slotKey n).cur ∧
      ((s.keyCommitted o n replace b).slotKey n).loaded = true := by
  have hslot : (s.keyTaken o).slotKey n = s.slotKey n := slotKey_of_keys (by simp [State.keyTaken]) n
  rw [← hslot]
  unfold State.keyCommitted
  split <;> exact slotKey_commitKey_self ..

theorem slotKey_keyCommitted_ne (s : State) (o : Op) {n m : KeyNo} (hm : m ≠ n) (replace : Bool) (b : List Byte) :
    (s.keyCommitted o n replace b).slotKey m = s.slotKey m := by
  have hslot : (s.keyTaken o).slotKey m = s.slotKey m := slotKey_of_keys (by simp [State.keyTaken]) m
  rw [← hslot]
  unfold State.keyCommitted
  split <;> exact slotKey_commitKey_ne _ hm ..

/-- What either key operation gives, whatever the engines that show its generation settle afterwards. -/
theorem keyOp_completes {c : HostRead → Instr}
    (hexec : ∀ data, exec (c data) s = .next (settleFtn (saRefresh (keyOp t o data replace s)))) (ho : s.op? t = some o)
    (hd : o.isDone = false) (hn : n = Fin.ofNat 64 o.keySlot) :
    (∀ e, keyRequire (s.count (cntPart o.part 5) 1) o.part n (o.word 2) replace (bits (o.word 3) 6 0) = some e →
      Completes (c (some b)) s t e (fun _ u => u.keys = s.keys)) ∧
    (keyRequire (s.count (cntPart o.part 5) 1) o.part n (o.word 2) replace (bits (o.word 3) 6 0) = none →
      Completes (c none) s t stHostMemory (fun _ u => u.keys = s.keys) ∧
      Completes (c (some b)) s t stOk (fun r u => (u.slotKey n).gen = (s.slotKey n).gen + 1 ∧
        (u.slotKey n).prev = (s.slotKey n).cur ∧ (u.slotKey n).loaded = true ∧ r.get 0 = (s.slotKey n).gen + 1 ∧
        r.get 1 = BitVec.ofNat 32 n.val ∧ ∀ m, m ≠ n → u.slotKey m = s.slotKey m)) := by
  have htaken := op_keyTaken ho
  have hsettle : ∀ x, (settleFtn (saRefresh x)).ops = x.ops ∧ (settleFtn (saRefresh x)).keys = x.keys := fun x => by simp
  have hkeys : ∀ st res, ((s.keyTaken o).finish t st res).keys = s.keys := fun st res => by simp [State.keyTaken]
  refine ⟨fun e he => ?_, fun hreq => ⟨?_, ?_⟩⟩
  · have heq := keyOp_of_refused (t := t) hn he (some b)
    refine completes_of_ops (hexec _) ((hsettle _).1.trans (congrArg State.ops heq)) htaken hd ?_
    rw [(hsettle _).2, heq, hkeys]
  · have heq := keyOp_of_unread (t := t) hn hreq
    refine completes_of_ops (hexec _) ((hsettle _).1.trans (congrArg State.ops heq)) htaken hd ?_
    rw [(hsettle _).2, heq, hkeys]
  · have heq := keyOp_of_read (t := t) hn hreq b
    have hop : (s.keyCommitted o n replace b).op? t = some o :=
      (op_of_ops (by unfold State.keyCommitted; split <;> simp) t).trans htaken
    have hslot : ∀ m, (settleFtn (saRefresh (keyOp t o (some b) replace s))).slotKey m =
        (s.keyCommitted o n replace b).slotKey m := fun m => slotKey_of_keys (by rw [(hsettle _).2, heq]; simp) m
    obtain ⟨hgen, hprev, hloaded⟩ := slotKey_keyCommitted_self s o n replace b
    refine completes_of_ops (hexec _) ((hsettle _).1.trans (congrArg State.ops heq)) hop hd ?_
    rw [hslot]
    exact ⟨hgen, hprev, hloaded, hgen, rfl, fun m hm => (hslot m).trans (slotKey_keyCommitted_ne s o hm replace b)⟩

theorem exec_keyDerive (hdisp : dispatchable s t 0x30 = some o) (label : HostRead) :
    exec (.keyDerive t label) s = .next (settleFtn (saRefresh (keyOp t o label false s))) := by
  rw [show keyOp t o label false s = opKeyDerive t label s from by rw [opKeyDerive, hdisp]]
  rfl

theorem exec_keyReplace (hdisp : dispatchable s t 0x31 = some o) (key : HostRead) :
    exec (.keyReplace t key) s = .next (settleFtn (saRefresh (keyOp t o key true s))) := by
  rw [show keyOp t o key true s = opKeyReplace t key s from by rw [opKeyReplace, hdisp]]
  rfl

end

/-! ## COOKIE_MINT (14 R443) -/

/-- Units are in service by the collector's tests, and chosen by the next free value. -/
theorem ftnUnit_congr {s t : State} (hflt : t.flt = s.flt) (hfresh : t.fresh = s.fresh) (first n : Nat) :
    (t.ftnUnit first n).1 = (s.ftnUnit first n).1 := by
  have hbusy : ∀ d, t.unitBusy pgFtn d = s.unitBusy pgFtn d := fun d => by simp only [State.unitBusy, State.unit, hflt]
  simp only [State.ftnUnit, hbusy, State.draw, hfresh]
  split <;> rfl

/-- Whatever the settling of the Fountain puts out comes after what is out. -/
theorem mem_outs_settleFtn {s : State} {x : Out} (h : x ∈ s.outs) : x ∈ (settleFtn s).outs := by
  have hleap : (noteLeap s).outs = s.outs := by simp
  have hport : ∀ (u : State) p f, x ∈ u.outs → x ∈ (u.modFtnPort p f).outs := fun _ _ _ h => h
  have hreach : ∀ (u : State) (on : Bool), x ∈ u.outs → x ∈ (if on then u.reachStep 10 else u).outs := fun u on h => by
    split <;> exact h
  unfold settleFtn
  dsimp only
  refine List.foldlRecOn (motive := fun (a : State) => x ∈ a.outs) allPorts _ ?_ fun a ha p _ => ?_
  · exact mem_outs_evtIf _ _ _ (mem_outs_evtIf _ _ _ (hleap ▸ h))
  · exact mem_outs_evtIf _ _ _ (mem_outs_evtIf _ _ _ (hport _ _ _ (mem_outs_evtIf _ _ _ (mem_outs_evtIf _ _ _
      (hport _ _ _ (hreach _ _ ha))))))

section
variable {s : State} {t : Tag} {o : Op} {b : List Byte}

/-- The state in which the Fountain has taken the operation. -/
def State.mintTaken (s : State) (o : Op) : State := (s.served o).count (cntPart o.part 6) 1

/-- A mint that nothing refuses: the cookies of a pipeline go to the operation's buffer, and the operation ends. -/
theorem opCookieMint_eq (hdisp : dispatchable s t 0x32 = some o) (hopen : s.pwr.state ≠ .sealed)
    (hfields : bits (o.word 1) 15 8 = 15) (hsome : 0 < bits (o.word 1) 3 0) (hmax : bits (o.word 1) 3 0 ≤ 8)
    (howns : s.owns o.part pgFtn = true) (hready : s.ntsReadyNow = true) (hmint : s.canMint (bits (o.word 1) 3 0) = true)
    (hunit : (s.ftnUnit 0 8).1.isSome = true) : ∃ (x : State) (cs : List Byte) (g e : Word), x.ops = s.ops ∧
      opCookieMint t (some b) s = settleFtn ((x.emit (.hostMem o.part (o.addr + 64) cs)).finish t stOk
        (((noResult.set 0 (BitVec.ofNat 32 (bits (o.word 1) 3 0))).set 1 g).set 2 e)) := by
  have hpipe : ((s.mintTaken o).ftnUnit 0 8).1 = (s.ftnUnit 0 8).1 :=
    ftnUnit_congr (by simp [State.mintTaken]) (by simp [State.mintTaken]) 0 8
  obtain ⟨k, hk⟩ := Option.isSome_iff_exists.mp (hpipe ▸ hunit)
  obtain ⟨w, haes⟩ : ∃ w, useAes (5 * bits (o.word 1) 3 0) (s.mintTaken o) = some w := ⟨_, by rw [useAes, hk]; rfl⟩
  have hops : (mintN (b.take 32) ((b.drop 32).take 32) (bits (o.word 1) 3 0) w.2).2.ops = s.ops := by
    obtain ⟨-, -, -, -, -, -, -, -, -, hops, -⟩ := keeps_useAes _ _ w.2 w.1 haes
    simp [hops, State.mintTaken]
  simp only [opCookieMint, hdisp]
  rw [if_neg hopen, if_neg (by omega), if_neg (by simp [howns]), if_neg (by simp [hready, hmint]),
    show useAes (5 * bits (o.word 1) 3 0) ((s.served o).count (cntPart o.part 6) 1) = some w from haes]
  exact ⟨_, _, _, _, hops, rfl⟩

theorem cookieMint_completes (hdisp : dispatchable s t 0x32 = some o) (hopen : s.pwr.state ≠ .sealed)
    (hfields : bits (o.word 1) 15 8 = 15) (hsome : 0 < bits (o.word 1) 3 0) (hmax : bits (o.word 1) 3 0 ≤ 8)
    (howns : s.owns o.part pgFtn = true) (hready : s.ntsReadyNow = true) (hmint : s.canMint (bits (o.word 1) 3 0) = true)
    (hunit : (s.ftnUnit 0 8).1.isSome = true) :
    Completes (.cookieMint t (some b)) s t stOk (fun r u => r.get 0 = BitVec.ofNat 32 (bits (o.word 1) 3 0) ∧
      ∃ cs, .hostMem o.part (o.addr + 64) cs ∈ u.outs) := by
  obtain ⟨x, cs, g, e, hops, heq⟩ := opCookieMint_eq (b := b) hdisp hopen hfields hsome hmax howns hready hmint hunit
  refine completes_of_ops (x := x.emit (.hostMem o.part (o.addr + 64) cs)) (congrArg Host.Outcome.next heq)
    (keeps_settleFtn _).2.2.2.2.2.2.1 ((op_of_ops hops t).trans (op_of_dispatchable hdisp)) (isDone_of_dispatchable hdisp)
    ⟨rfl, cs, mem_outs_settleFtn (mem_outs_finish _ _ _ ?_)⟩
  simp [State.emit]

end

/-! ## STATS_SNAPSHOT (19 R589) -/

theorem snapSeq_count (s : State) (c n : Nat) : (s.count c n).cnt.snapSeq = s.cnt.snapSeq := by
  unfold State.count
  dsimp only
  split_ifs <;> rfl

theorem snapSeq_setEvt (s : State) (pg b : Nat) : (s.setEvt pg b).cnt.snapSeq = s.cnt.snapSeq := by
  have hmsix : ∀ (u : State) p v, (u.msix p v).cnt.snapSeq = u.cnt.snapSeq := fun u p v => by
    simp only [State.msix]
    split
    · rfl
    · rw [snapSeq_count]; rfl
  simp only [State.setEvt, State.irqPage]
  split
  · split
    · rfl
    · rw [hmsix]; rfl
  · rfl

theorem snapSeq_finish (s : State) (t : Tag) (st : Byte) (res : Vector Word 6) :
    (s.finish t st res).cnt.snapSeq = s.cnt.snapSeq := by
  have hevt : ∀ (u : State) c pg b, (u.evtIf c pg b).cnt.snapSeq = u.cnt.snapSeq := fun u c pg b => by
    unfold State.evtIf
    split
    · exact snapSeq_setEvt u pg b
    · rfl
  unfold State.finish
  split
  · rfl
  · split
    · rfl
    · rw [hevt, hevt]; rfl

section
variable {s : State} {t : Tag} {o : Op}

/-- The bytes of a range of counters, latched at once. -/
abbrev State.snapBytes (s : State) (o : Op) : List Byte :=
  (List.range (bits (o.word 2) 10 0)).flatMap (fun i => leBytes 4 (s.cntVal (bits (o.word 1) 9 0 + i)).toNat)

/-- The state with a snapshot's number taken and told. -/
def State.snapTaken (s : State) (o : Op) : State :=
  { s.served o with cnt := { s.cnt with snapSeq := s.cnt.snapSeq + 1 } }.setEvt pgCnt evSnapshot

theorem statsSnapshot_completes (hdisp : dispatchable s t 0x40 = some o) (hvis : s.visible o.part pgCnt = true)
    (hsome : 0 < bits (o.word 2) 10 0) (hmax : bits (o.word 2) 10 0 ≤ 1024)
    (hrange : bits (o.word 1) 9 0 + bits (o.word 2) 10 0 ≤ 1024) :
    Completes (.statsSnapshot t) s t stOk (fun r u => r.get 0 = BitVec.ofNat 32 (bits (o.word 2) 10 0) ∧
      r.get 1 = s.cnt.snapSeq + 1 ∧ u.cnt.snapSeq = s.cnt.snapSeq + 1 ∧ u.evtBit pgCnt evSnapshot = true ∧
      .hostMem o.part o.addr (s.snapBytes o) ∈ u.outs) := by
  have heq : opStatsSnapshot t s = ((s.snapTaken o).emit (.hostMem o.part o.addr (s.snapBytes o))).finish t stOk
      ((noResult.set 0 (BitVec.ofNat 32 (bits (o.word 2) 10 0))).set 1 (s.cnt.snapSeq + 1)) := by
    simp only [opStatsSnapshot, hdisp]
    rw [if_neg (by simp [hvis]), if_neg (by omega)]
    rfl
  have hevt : (s.snapTaken o).evtBit pgCnt evSnapshot = true := evtBit_setEvt_self _ _ _ (by decide)
  refine completes_finish (congrArg Host.Outcome.next heq)
    ((op_of_ops (by simp [State.snapTaken]) t).trans (op_of_dispatchable hdisp)) (isDone_of_dispatchable hdisp)
    ⟨rfl, rfl, ?_, ?_, mem_outs_finish _ _ _ (by simp [State.emit])⟩
  · rw [snapSeq_finish]
    exact snapSeq_setEvt _ _ _
  · exact ((State.EvtsStay.refl _).finish t stOk _) _ _ hevt

end

/-! ## LOG_READ (18 R581) -/

section
variable {s : State} {t : Tag} {o : Op}

/-- A record takes 32 bytes, so that one is told. -/
theorem recordBytes_ne_nil (r : LogStored) : recordBytes r ≠ [] := by
  intro h
  simpa [recordBytes, leBytes] using congrArg List.length h

abbrev State.logBytes (s : State) (o : Op) : List Byte :=
  (logSlice s (o.word 1) (bits (o.word 2) 18 0)).flatMap recordBytes

theorem logRead_completes (hdisp : dispatchable s t 0x41 = some o) (hvis : s.visible o.part pgMgt = true)
    (hmin : 64 ≤ bits (o.word 2) 18 0) (hmax : bits (o.word 2) 18 0 ≤ 262144) :
    Completes (.logRead t) s t stOk (fun r u => r.get 0 = BitVec.ofNat 32 (s.logBytes o).length ∧
      (logSlice s (o.word 1) (bits (o.word 2) 18 0) ≠ [] → .hostMem o.part o.addr (s.logBytes o) ∈ u.outs)) := by
  have hx : ∃ (x : State) (a e : Word), x.ops = s.ops ∧ opLogRead t s =
      (if (s.logBytes o).isEmpty then x else x.emit (.hostMem o.part o.addr (s.logBytes o))).finish t stOk
        (((noResult.set 0 (BitVec.ofNat 32 (s.logBytes o).length)).set 1 a).set 2 e) := by
    refine ⟨{ s.served o with fresh := (s.served o).fresh + 2 }, ?_⟩
    simp only [opLogRead, hdisp]
    rw [if_neg (by simp [hvis]), if_neg (by omega)]
    exact ⟨_, _, rfl, rfl⟩
  obtain ⟨x, a, e, hops, heq⟩ := hx
  refine completes_finish (congrArg Host.Outcome.next heq) ((op_of_ops (s := s) ?_ t).trans (op_of_dispatchable hdisp))
    (isDone_of_dispatchable hdisp) ⟨rfl, fun hne => mem_outs_finish _ _ _ ?_⟩
  · split <;> exact hops
  · obtain ⟨r, rs, hrs⟩ := List.exists_cons_of_ne_nil hne
    have hbytes : (s.logBytes o).isEmpty = false := by
      simp [State.logBytes, hrs, recordBytes_ne_nil]
    rw [if_neg (by simp [hbytes])]
    simp [State.emit]

end

/-! ## Reads of host memory that fail (17 R545; 15 R489) -/

theorem pcieTimeout_completes {s : State} {t : Tag} {o : Op} (ho : s.op? t = some o)
    (hop : o.opcode ∈ [0x20, 0x30, 0x31, 0x32]) (hphase : o.phase = .fetched) (hfree : fenced s o = false) :
    Completes (.pcieCompletionTimeout t) s t stHostMemory (fun _ _ => True) := by
  have heq : pcieTimeout t s = s.finish t stHostMemory := by
    rw [pcieTimeout, ho]
    exact if_pos (by simpa [hphase, hfree] using hop)
  exact completes_finish (congrArg Host.Outcome.next heq) ho (by rw [Op.isDone, hphase]) trivial

/-- Settles O50: each operation's engine ends it in one `finish`, or has it wait on its port or its domain. -/
theorem engineOperationsComplete : Obligations.EngineOperationsComplete := by
  refine fun s t o b => ⟨fun p hdisp hp howns => ptpSend_gives hdisp hp howns, fun d late => rateSet_gives,
    fun n hn => ⟨fun hdisp => ?_, fun hdisp => ?_⟩, cookieMint_completes, statsSnapshot_completes, logRead_completes,
    pcieTimeout_completes⟩
  · exact keyOp_completes (exec_keyDerive hdisp) (op_of_dispatchable hdisp) (isDone_of_dispatchable hdisp) hn
  · exact keyOp_completes (exec_keyReplace hdisp) (op_of_dispatchable hdisp) (isDone_of_dispatchable hdisp) hn

end Sys2Proof.Machine
end

section
/-!
PROOFS. Scope: links, health bits and the path arbiter (O40; its laws of a path serve O38 and O41).
-/

namespace Sys2Proof.Machine

/-! ## One path of a port -/

@[simp] theorem path_modPath_self (s : State) (p : PortNo) (a : PathAB) (f : PathSt → PathSt) :
    (s.modPath p a f).path p a = f (s.path p a) := by
  simp [State.path, State.modPath, PortSt.path]

theorem path_of_port {s t : State} {p : PortNo} (h : t.port p = s.port p) (a : PathAB) : t.path p a = s.path p a := by
  rw [State.path, h, State.path]

theorem path_of_ports {s t : State} (h : t.ports = s.ports) (p : PortNo) (a : PathAB) : t.path p a = s.path p a :=
  path_of_port (port_of_ports h p) a

@[simp] theorem path_setEvt (s : State) (pg b : Nat) (p : PortNo) (a : PathAB) : (s.setEvt pg b).path p a = s.path p a :=
  path_of_port (port_setEvt s pg b p) a

@[simp] theorem path_loseSlot (s : State) (n : SlotNo) (p : PortNo) (a : PathAB) : (s.loseSlot n).path p a = s.path p a :=
  path_of_ports (by simp) p a

theorem refLane_congr {s t : State} (hregs : t.reg = s.reg) (p : PortNo) (a : PathAB) : t.refLane p a = s.refLane p a := by
  cases a with
  | A => rfl
  | B => simp only [State.refLane, State.fieldAt, hregs]

theorem tsOk_congr {s t : State} (hregs : t.reg = s.reg) (hflt : t.flt = s.flt) (p : PortNo) (a : PathAB) :
    t.tsOk p a = s.tsOk p a := by
  simp only [State.tsOk, State.unitBusy, State.unit, refLane_congr hregs, hflt]

/-! ## Health bits (12 R381, R382) -/

section
variable (s : State) (p : PortNo) (a : PathAB) (i : Fin 3)

/-- Settling a health bit changes of its path that bit as published and what waits for HOLDOFF; a bit that is 0 is published. -/
theorem path_settleBit : ∃ b rising withdrawn, (s.settleBit p a i).path p a =
    { s.path p a with pub := setAt (s.path p a).pub i b, rising := rising, withdrawn := withdrawn } ∧
      (s.health p a i = false → b = false) := by
  have hkept : setAt (s.path p a).pub i ((s.path p a).pub.get i) = (s.path p a).pub := Vector.set_getElem_self _
  unfold State.settleBit
  dsimp only
  split_ifs with hdown hknown hnow
  · exact ⟨false, _, _, path_modPath_self _ _ _ _, fun _ => rfl⟩
  all_goals have hup : s.health p a i ≠ false := fun hoff => hdown (by simp [hoff])
  · exact ⟨_, _, _, by rw [hkept], fun hoff => absurd hoff hup⟩
  · exact ⟨true, _, _, path_modPath_self _ _ _ _, fun hoff => absurd hoff hup⟩
  · exact ⟨_, _, _, by rw [path_modPath_self, hkept], fun hoff => absurd hoff hup⟩

@[simp] theorem link_settleBit : ((s.settleBit p a i).path p a).link = (s.path p a).link := by
  obtain ⟨b, rising, withdrawn, h, -⟩ := path_settleBit s p a i
  rw [h]

@[simp] theorem partner_settleBit : ((s.settleBit p a i).path p a).partner = (s.path p a).partner := by
  obtain ⟨b, rising, withdrawn, h, -⟩ := path_settleBit s p a i
  rw [h]

theorem pub_settleBit_ne {j : Fin 3} (hj : j ≠ i) : ((s.settleBit p a i).path p a).pub.get j = (s.path p a).pub.get j := by
  obtain ⟨b, rising, withdrawn, h, -⟩ := path_settleBit s p a i
  rw [h]
  exact get_setAt_ne _ _ hj

theorem pub_settleBit_of_fallen (hoff : s.health p a i = false) : ((s.settleBit p a i).path p a).pub.get i = false := by
  obtain ⟨b, rising, withdrawn, h, hb⟩ := path_settleBit s p a i
  rw [h, hb hoff]
  exact get_setAt_self _ _ _

@[simp] theorem health_settleBit (j : Fin 3) : (s.settleBit p a i).health p a j = s.health p a j := by
  fin_cases j
  · exact link_settleBit s p a i
  · exact tsOk_congr (regs_of_pages (by simp)) (by simp) p a
  · exact partner_settleBit s p a i

@[simp] theorem link_settlePath : ((s.settlePath p a).path p a).link = (s.path p a).link := by simp [State.settlePath]

@[simp] theorem partner_settlePath : ((s.settlePath p a).path p a).partner = (s.path p a).partner := by
  simp [State.settlePath]

/-- A health bit that has fallen is published at once (R382). -/
theorem pub_settlePath_of_fallen (hoff : s.health p a i = false) : ((s.settlePath p a).path p a).pub.get i = false := by
  unfold State.settlePath
  fin_cases i
  · rw [pub_settleBit_ne _ _ _ _ (by decide), pub_settleBit_ne _ _ _ _ (by decide)]
    exact pub_settleBit_of_fallen s p a _ hoff
  · rw [pub_settleBit_ne _ _ _ _ (by decide)]
    exact pub_settleBit_of_fallen _ p a _ (by simpa using hoff)
  · exact pub_settleBit_of_fallen _ p a _ (by simpa using hoff)

end

section
variable {s : State} {p : PortNo} {a : PathAB}

theorem partnerTimeout_gives :
    Gives (.partnerTimeout p a) s (fun t => (t.path p a).partner = false ∧ (t.path p a).pub.get 2 = false) := by
  refine ⟨_, rfl, ?_, pub_settlePath_of_fallen _ p a 2 ?_⟩
  · exact (partner_settlePath _ p a).trans (congrArg PathSt.partner (path_modPath_self s p a _))
  · rw [State.health, path_modPath_self]

/-- Bits published one after the other are published, and the others stay. -/
theorem get_foldl_publish {n : Nat} {β : Type} (l : List (Fin n × β)) (v : Vector Bool n) (i : Fin n)
    (h : v.get i = true ∨ ∃ r ∈ l, r.1 = i) : (l.foldl (fun w r => setAt w r.1 true) v).get i = true := by
  induction l generalizing v with
  | nil => simpa using h
  | cons r rs ih =>
    refine ih _ ?_
    by_cases hi : i = r.1
    · exact .inl (hi ▸ get_setAt_self _ _ _)
    · rw [get_setAt_ne _ _ hi]
      simpa [Ne.symm hi] using h

theorem pathHoldoffElapsed_gives {r : Fin 3 × Nat} {l : List (Fin 3 × Nat)} (hr : (s.path p a).rising = r :: l) :
    Gives (.pathHoldoffElapsed p a) s (fun t =>
      (∀ q ∈ r :: l, q.2 = r.2 → (t.path p a).pub.get q.1 = true) ∧ (∀ q ∈ (t.path p a).rising, q.2 ≠ r.2)) := by
  have hpub : ((pathHoldoffElapsed p a s).path p a).pub = ((r :: l).filter (fun q => q.2 == r.2)).foldl
      (fun w q => setAt w q.1 true) (s.path p a).pub := by simp [pathHoldoffElapsed, hr]
  have hrising : ((pathHoldoffElapsed p a s).path p a).rising = (r :: l).filter (fun q => q.2 != r.2) := by
    simp [pathHoldoffElapsed, hr]
  refine ⟨_, rfl, fun q hq hqr => ?_, fun q hq => ?_⟩
  · rw [hpub]
    exact get_foldl_publish _ _ _ (.inr ⟨q, List.mem_filter.mpr ⟨hq, by simp [hqr]⟩, rfl⟩)
  · rw [hrising] at hq
    simpa using (List.mem_filter.mp hq).2

/-! ## Links (12 R374) -/

theorem evtBit_settlePath (s : State) (p : PortNo) (a : PathAB) (pg b : Nat) :
    (s.settlePath p a).evtBit pg b = s.evtBit pg b := by
  simp [State.evtBit]

theorem evtBit_loseSlot (s : State) (n : SlotNo) (pg b : Nat) : (s.loseSlot n).evtBit pg b = s.evtBit pg b := by
  simp [State.evtBit]

/-- A link declared down has its LINK_OK published as 0 at once, and is told on the port (R374, R382). -/
theorem dropLink_spec (hlink : (s.path p a).link = true) : ((s.dropLink p a).path p a).link = false ∧
    ((s.dropLink p a).path p a).pub.get 0 = false ∧ (s.dropLink p a).evtBit (pgLp p) (evLpLinkDown a) = true := by
  rw [State.dropLink, if_pos hlink]
  dsimp only
  refine ⟨?_, ?_, ?_⟩
  · rw [path_loseSlot, link_settlePath, path_setEvt, path_modPath_self]
  · rw [path_loseSlot]
    refine pub_settlePath_of_fallen _ p a 0 ?_
    rw [State.health, path_setEvt, path_modPath_self]
  · rw [evtBit_loseSlot, evtBit_settlePath]
    exact evtBit_setEvt_self _ _ _ (by cases a <;> decide)

theorem linkDown_gives (hlink : (s.path p a).link = true) :
    Gives (.linkDown p a) s (fun t => (t.path p a).link = false ∧ (t.path p a).pub.get 0 = false ∧
      t.evtBit (pgLp p) (evLpLinkDown a) = true) := by
  refine ⟨_, congrArg Host.Outcome.next (if_pos hlink), dropLink_spec ?_⟩
  rwa [path_of_ports (s := s) (by simp)]

theorem portLinkUp_gives (hup : s.pathUp p a = true) (hdown : (s.path p a).link = false) :
    Gives (.portLinkUp p a) s (fun t => (t.path p a).link = true ∧ t.evtBit (pgLp p) (evLpLinkUp a) = true) := by
  obtain ⟨x, hx⟩ : ∃ x : State, portLinkUp p a s =
      ((x.modPath p a (fun y => { y with link := true })).setEvt (pgLp p) (evLpLinkUp a)).settlePath p a :=
    ⟨_, if_pos (by simp [hup, hdown])⟩
  refine ⟨_, congrArg Host.Outcome.next hx, ?_, ?_⟩
  · rw [link_settlePath, path_setEvt, path_modPath_self]
  · rw [evtBit_settlePath]
    exact evtBit_setEvt_self _ _ _ (by cases a <;> decide)

theorem portLinkUp_of_up (hlink : (s.path p a).link = true) : portLinkUp p a s = s := if_neg (by simp [hlink])

/-! ## The path arbiter (12 R382, R391) -/

/-- The path arbiter follows the winner, and counts a change. -/
theorem port_pathSwitch {w : Half} (hw : winner ⟨s.pathClaim p .A, s.pathClaim p .B⟩ = some w) :
    ((pathSwitch p s).port p).onB = (w == .B) ∧
      ((pathSwitch p s).port p).swCnt = (s.port p).swCnt + (if (s.port p).onB = (w == .B) then 0 else 1) := by
  have heq : pathSwitch p s = if (w == .B) = (s.port p).onB then s
      else (s.modPort p (fun x => { x with onB := (w == .B), swCnt := x.swCnt + 1 })).setEvt (pgLp p) evPathSwitch := by
    cases w <;> simp only [pathSwitch, hw] <;> rfl
  rw [heq]
  split_ifs with hstays hto hto
  · exact ⟨hstays.symm, (add_zero _).symm⟩
  · exact absurd hstays.symm hto
  · exact absurd hto.symm hstays
  · simp

theorem pathSwitch_gives {x y : BitVec 8} (hA : s.pathClaim p .A = some x) (hB : s.pathClaim p .B = some y) :
    (y < x → Gives (.pathSwitch p) s (fun t => (t.port p).onB = false ∧
      (t.port p).swCnt = (s.port p).swCnt + (if (s.port p).onB then 1 else 0))) ∧
    (x < y → Gives (.pathSwitch p) s (fun t => (t.port p).onB = true ∧
      (t.port p).swCnt = (s.port p).swCnt + (if (s.port p).onB then 0 else 1))) := by
  refine ⟨fun hlt => ⟨_, rfl, ?_⟩, fun hlt => ⟨_, rfl, ?_⟩⟩
  · have hto := port_pathSwitch (w := .A) (by rw [hA, hB]; exact (winner_of_lt hlt).1)
    have hside : (Half.A == .B) = false := rfl
    cases hon : (s.port p).onB <;> simpa [hon, hside] using hto
  · have hto := port_pathSwitch (w := .B) (by rw [hA, hB]; exact (winner_of_lt hlt).2)
    cases hon : (s.port p).onB <;> simpa [hon] using hto

end

/-! ## Serving at a packet boundary (13 R397) -/

section
variable {s t : State} (hregs : t.reg = s.reg)
include hregs

theorem serveOk_congr (harb : t.arb = s.arb) (hhalves : t.halves = s.halves) (d : Dom) : t.serveOk d = s.serveOk d := by
  unfold State.serveOk State.busState State.busStepped State.busBound State.busAdd State.busHalf State.half State.bitAt
  rw [hregs, harb, hhalves]

theorem portReg_ptp_congr {p : PortNo} (hover : (t.port p).overP = (s.port p).overP) (o : Nat) :
    t.portReg p pgPtp o = s.portReg p pgPtp o := by
  simp only [State.portReg, PortSt.over, if_true, hregs, hover]

/-- What a port's leave to transmit is read from. -/
theorem mayServe_congr {p : PortNo} (hen : (t.page (pgLp p)).en = (s.page (pgLp p)).en)
    (hconflict : (t.port p).conflict = (s.port p).conflict) (hover : (t.port p).overP = (s.port p).overP)
    (hside : (t.port p).onB = (s.port p).onB) (hpwr : t.pwr = s.pwr) (harb : t.arb = s.arb)
    (hhalves : t.halves = s.halves) (hflt : t.flt = s.flt) : t.mayServe p = s.mayServe p := by
  have hactive : t.activePath p = s.activePath p := by
    unfold State.activePath State.paired State.bitAt
    rw [hregs, hside]
  simp only [State.mayServe, State.portUp, State.mpProf, State.pf, State.mpDom, State.builderOk, State.unitBusy, State.unit,
    State.powered, portReg_ptp_congr hregs hover, serveOk_congr hregs harb hhalves, hactive, tsOk_congr hregs hflt, hen,
    hconflict, hpwr, hflt]

end

@[simp] theorem mayServe_evtIf (s : State) (c : Bool) (pg b : Nat) (p : PortNo) :
    (s.evtIf c pg b).mayServe p = s.mayServe p :=
  mayServe_congr (regs_evtIf s c pg b) (en_evtIf s c pg b _) (by simp) (by simp) (by simp) (by simp) (by simp) (by simp)
    (by simp)

@[simp] theorem mayServe_reachStep (s : State) (n : Nat) (p : PortNo) : (s.reachStep n).mayServe p = s.mayServe p := rfl

@[simp] theorem mayServe_modFtnPort (s : State) (q : PortNo) (f : FtnPort → FtnPort) (p : PortNo) :
    (s.modFtnPort q f).mayServe p = s.mayServe p := rfl

@[simp] theorem mayServe_modPtpPort (s : State) (q : PortNo) (f : PtpPort → PtpPort) (p : PortNo) :
    (s.modPtpPort q f).mayServe p = s.mayServe p := rfl

theorem mayServe_modMsgs (s : State) (p : PortNo) (f : List PtpMsg → List PtpMsg) :
    (s.modPort p (fun x => { x with msgs := f x.msgs })).mayServe p = s.mayServe p := by
  exact mayServe_congr (by rfl) (by rfl) (by rw [port_modPort_self]) (by rw [port_modPort_self]) (by rw [port_modPort_self])
    (by rfl) (by rfl) (by rfl) (by rfl)

theorem mayServe_foldl {α : Type} {g : State → α → State} {p : PortNo} (hg : ∀ b x, (g b x).mayServe p = b.mayServe p)
    (l : List α) (s : State) : (l.foldl g s).mayServe p = s.mayServe p := by
  induction l generalizing s with
  | nil => rfl
  | cons x xs ih => rw [List.foldl_cons, ih, hg]

theorem mayServe_noteLeap (s : State) (p : PortNo) : (noteLeap s).mayServe p = s.mayServe p := by
  simp only [noteLeap]
  split <;> rfl

/-- The Fountain's own work leaves a port's leave to transmit. -/
theorem mayServe_settleFtn (s : State) (p : PortNo) : (settleFtn s).mayServe p = s.mayServe p := by
  simp only [settleFtn]
  rw [mayServe_foldl (fun b q => ?_), mayServe_evtIf, mayServe_evtIf]
  · exact mayServe_noteLeap s p
  · simp only [mayServe_evtIf, mayServe_modFtnPort]
    split
    · exact mayServe_reachStep b 10 p
    · rfl

theorem ptpPort_settleFtn (s : State) (p : PortNo) : (settleFtn s).ptpPort p = s.ptpPort p := by
  simp [State.ptpPort]

theorem ptpPort_evtIf (s : State) (c : Bool) (pg b : Nat) (p : PortNo) : (s.evtIf c pg b).ptpPort p = s.ptpPort p := by
  simp [State.ptpPort]

/-- From its boundary on a port serves as it may (R397). -/
theorem serving_serveBoundary (s : State) (p : PortNo) :
    ((serveBoundary p s).ptpPort p).serving = (serveBoundary p s).mayServe p := by
  have hnoted : ∀ c, (((s.modPtpPort p (fun x => { x with serving := s.mayServe p })).evtIf c pgPtp evServeStop).ptpPort
      p).serving = s.mayServe p := fun c => by rw [ptpPort_evtIf, ptpPort_modPtpPort_self]
  simp only [serveBoundary]
  split
  · rw [mayServe_reachStep, mayServe_evtIf, mayServe_modPtpPort]
    exact hnoted _
  · rw [mayServe_modMsgs, mayServe_evtIf, mayServe_modPtpPort]
    exact hnoted _

theorem packetBoundary_gives (s : State) (p : PortNo) :
    Gives (.packetBoundary p) s (fun t => (t.ptpPort p).serving = t.mayServe p) := by
  refine ⟨_, rfl, ?_⟩
  simp only [packetBoundary]
  rw [mayServe_settleFtn, ← serving_serveBoundary, ptpPort_settleFtn]

/-- Settles O40: each command changes its path, its arbiter or its port as its own lemma says. -/
theorem pathsFollowTheirHealth : Obligations.PathsFollowTheirHealth := fun s p _ =>
  ⟨linkDown_gives, portLinkUp_gives, fun _ hlink => ⟨_, congrArg Host.Outcome.next (portLinkUp_of_up hlink), rfl⟩,
    fun _ _ => pathHoldoffElapsed_gives, partnerTimeout_gives, fun _ _ => pathSwitch_gives, packetBoundary_gives s p⟩

end Sys2Proof.Machine
end

section
/-!
PROOFS. Scope: ESMC messages, bandwidth windows and lane events (O41).
-/

namespace Sys2Proof.Machine

/-! ## A slot declared lost on every half (05 R158) -/

section
variable {s : State} {p : PortNo} {a : PathAB}

theorem slot_signalLost_ne (s : State) {g h : Half} (hg : g ≠ h) (n m : SlotNo) :
    (signalLost h n s).slot g m = s.slot g m := by
  unfold signalLost
  split
  · exact slot_modSlot_half_ne s n m _ hg.symm
  · rfl

theorem lost_signalLost {h : Half} {n : SlotNo} (hon : s.halfOn h = true) (hst : (s.slot h n).st ≠ 0) :
    ((signalLost h n s).slot h n).pend.lost = true := by
  rw [signalLost, if_pos hon, slot_modSlot_self]
  simp [hst]

theorem lost_loseSlot {h : Half} {n : SlotNo} (hon : s.halfOn h = true) (hst : (s.slot h n).st ≠ 0) :
    ((s.loseSlot n).slot h n).pend.lost = true := by
  unfold State.loseSlot
  cases h
  · rw [slot_signalLost_ne _ (by decide)]
    exact lost_signalLost hon hst
  · refine lost_signalLost ((halfOn_of_pwr (by simp) _).trans hon) ?_
    rwa [slot_signalLost_ne _ (by decide)]

/-! ## ESMC PDUs received (12 R385, R386) -/

@[simp] theorem path_evtIf (s : State) (on : Bool) (pg b : Nat) (p : PortNo) (a : PathAB) :
    (s.evtIf on pg b).path p a = s.path p a := path_of_port (port_evtIf s on pg b p) a

@[simp] theorem path_qlLost (s : State) (p : PortNo) (a : PathAB) : (s.qlLost p a).path p a = s.path p a := by
  unfold State.qlLost
  split
  · rfl
  · exact path_loseSlot _ _ _ _

theorem qlOk_of_low (hrx : s.bitAt (pgLp p) 0x058 1 = true)
    (hlow : qlRank (s.bitAt (pgLp p) 0x058 8) (s.path p a).ql.toNat <
      qlRank (s.bitAt (pgLp p) 0x058 8) (s.fieldAt (pgLp p) 0x058 7 4)) : s.qlOk p a = false := by
  simp [State.qlOk, hrx, hlow]

/-- A path with the QL of a PDU that it has taken, its change told (R385, R391). -/
def State.takeQl (s : State) (p : PortNo) (a : PathAB) (pdu : EsmcPdu) : State :=
  (s.modPath p a (fun y => { y with esmcValid := true, ql := pdu.ql, enhanced := pdu.enhanced })).evtIf
    (!(s.path p a).esmcValid || (s.path p a).ql != pdu.ql) (pgLp p) evQlChg

theorem path_takeQl (s : State) (p : PortNo) (a : PathAB) (pdu : EsmcPdu) : (s.takeQl p a pdu).path p a =
    { s.path p a with esmcValid := true, ql := pdu.ql, enhanced := pdu.enhanced } := by
  rw [State.takeQl, path_evtIf, path_modPath_self]

theorem regs_takeQl (s : State) (p : PortNo) (a : PathAB) (pdu : EsmcPdu) : (s.takeQl p a pdu).reg = s.reg :=
  (regs_evtIf _ _ _ _).trans (regs_of_pages (by simp))

theorem lost_qlLost_takeQl {pdu : EsmcPdu} {h : Half} (hrx : s.bitAt (pgLp p) 0x058 1 = true)
    (hlow : qlRank (s.bitAt (pgLp p) 0x058 8) pdu.ql.toNat <
      qlRank (s.bitAt (pgLp p) 0x058 8) (s.fieldAt (pgLp p) 0x058 7 4))
    (hon : s.halfOn h = true) (hst : (s.slot h (laneSlot (s.refLane p a))).st ≠ 0) :
    ((((s.takeQl p a pdu).qlLost p a).slot h (laneSlot (s.refLane p a))).pend.lost) = true := by
  have hregs := regs_takeQl s p a pdu
  have hlow' : (s.takeQl p a pdu).qlOk p a = false :=
    qlOk_of_low (by rw [State.bitAt, hregs]; exact hrx)
      (by rw [path_takeQl, State.bitAt, State.fieldAt, hregs]; exact hlow)
  rw [State.qlLost, if_neg (by simp [hlow']), refLane_congr hregs]
  refine lost_loseSlot ((halfOn_of_pwr (by simp [State.takeQl]) h).trans hon) ?_
  rwa [slot_of_halves (s := s) (by simp [State.takeQl])]

theorem esmcPdu_gives (pdu : EsmcPdu) (hup : s.pathUp p a = true) (hlink : (s.path p a).link = true)
    (hrx : s.bitAt (pgLp p) 0x058 1 = true) :
    Gives (.esmcPdu p a pdu true) s (fun t => (t.path p a).esmcValid = true ∧ (t.path p a).ql = pdu.ql ∧
      (t.path p a).enhanced = pdu.enhanced ∧
      (qlRank (s.bitAt (pgLp p) 0x058 8) pdu.ql.toNat < qlRank (s.bitAt (pgLp p) 0x058 8) (s.fieldAt (pgLp p) 0x058 7 4) →
        ∀ h, s.halfOn h = true → (s.slot h (laneSlot (s.refLane p a))).st ≠ 0 →
          (t.slot h (laneSlot (s.refLane p a))).pend.lost = true)) := by
  have htaken : esmcPdu p a pdu true s = (s.takeQl p a pdu).qlLost p a := if_pos (by simp [hup, hlink, hrx])
  have hpath : (((s.takeQl p a pdu).qlLost p a).path p a) = _ := (path_qlLost _ p a).trans (path_takeQl s p a pdu)
  refine ⟨_, congrArg Host.Outcome.next htaken, ?_, ?_, ?_, fun hlow h hon hst => lost_qlLost_takeQl hrx hlow hon hst⟩ <;>
    rw [hpath]

theorem esmcTo_gives (hup : s.pathUp p a = true) (hrx : s.bitAt (pgLp p) 0x058 1 = true) :
    Gives (.esmcTo p a) s (fun t => (t.path p a).esmcValid = false ∧ t.evtBit (pgLp p) evEsmcTo = true ∧
      ∀ h, s.halfOn h = true → (s.slot h (laneSlot (s.refLane p a))).st ≠ 0 →
        (t.slot h (laneSlot (s.refLane p a))).pend.lost = true) := by
  refine ⟨_, congrArg Host.Outcome.next (if_pos (by simp [hup, hrx])), ?_, ?_, fun h hon hst => ?_⟩
  · rw [path_loseSlot, path_evtIf, path_setEvt, path_modPath_self]
  · simp [State.evtBit, evEsmcTo, evQlChg]
  · refine lost_loseSlot ((halfOn_of_pwr (by simp) h).trans hon) ?_
    rwa [slot_of_halves (s := s) (by simp)]

/-- A path that is down, or does not receive ESMC PDUs, neither takes one nor misses any (R385). -/
theorem esmc_of_off (pdu : EsmcPdu) (hoff : s.pathUp p a = false ∨ s.bitAt (pgLp p) 0x058 1 = false) :
    esmcPdu p a pdu true s = s ∧ esmcTo p a s = s := by
  constructor
  · exact if_neg (by rcases hoff with h | h <;> simp [h])
  · exact if_neg (by rcases hoff with h | h <;> simp [h])

theorem esmcPdu_of_invalid (pdu : EsmcPdu) : esmcPdu p a pdu false s = s := if_neg (by simp)

/-! ## ESMC PDUs sent (12 R387) -/

/-- The ESMC PDU that a path sends. -/
abbrev State.esmcOut (s : State) (p : PortNo) (a : PathAB) (event : Bool) : Out :=
  .frame p a (.esmc (s.qlOf p a) event (esmcFrame (s.lpMac p) event (s.qlOf p a)))

theorem path_emit (s : State) (o : Out) (p : PortNo) (a : PathAB) : (s.emit o).path p a = s.path p a := rfl

theorem path_countFrame (s : State) (p : PortNo) (tx : Bool) (len : Nat) (a : PathAB) :
    (s.countFrame p tx len).path p a = s.path p a := by
  simp [State.countFrame, State.path, PortSt.path]

theorem sendEsmc_spec (event : Bool) (hmay : s.esmcMay p a = true) :
    (sendEsmc p a event s).path p a =
        { s.path p a with esmcAt := s.now :: s.esmcLately p a, eventDue := (s.path p a).eventDue && !event } ∧
      (sendEsmc p a event s).outs = s.outs ++ [s.esmcOut p a event] := by
  rw [sendEsmc, if_pos hmay]
  refine ⟨?_, by simp [State.emit]⟩
  rw [path_of_port (port_count _ _ _ _), path_countFrame, path_emit, path_modPath_self]

theorem sendEsmc_of_full (event : Bool) (hfull : 10 ≤ (s.esmcLately p a).length) : sendEsmc p a event s = s :=
  if_neg (by simp [State.esmcMay, hfull])

theorem esmcSend_gives (sub fec : Nat) (gone : Bool) (hup : s.pathUp p a = true) (hlink : (s.path p a).link = true)
    (htx : s.bitAt (pgLp p) 0x058 2 = true) (hfree : s.schedBusy p a = false) (hroom : (s.esmcLately p a).length < 10) :
    Gives (.esmcInfoSend p a) s (fun t => (t.path p a).esmcAt = s.now :: s.esmcLately p a ∧
      t.outs = s.outs ++ [s.esmcOut p a false]) ∧
    ((s.path p a).eventDue = true → Gives (.frameTransmitted p a .esmc sub fec gone) s (fun t =>
      (t.path p a).eventDue = false ∧ t.outs = s.outs ++ [s.esmcOut p a true])) := by
  have hmay : s.esmcMay p a = true := by simp [State.esmcMay, hup, hlink, htx, hfree, hroom]
  refine ⟨⟨_, rfl, ?_⟩, fun hdue => ⟨_, congrArg Host.Outcome.next (if_pos hdue), ?_⟩⟩
  · obtain ⟨hpath, houts⟩ := sendEsmc_spec false hmay
    exact ⟨by rw [hpath], houts⟩
  · obtain ⟨hpath, houts⟩ := sendEsmc_spec true hmay
    exact ⟨by simp [hpath], houts⟩

end

/-! ## The receive ring's tail (12 R378) -/

theorem regRow_hrxTail (n : Nat) : regRow? (.lp n) 0x06C = some { base := 0x06C, rw := 0xFFF } := rfl

theorem exec_hrxTail {a : Access} {p : PortNo} {v : Word} {s : State} (hall : Allowed a (pgLp p) 0x06C v s) :
    exec (.hrxTail a p v) s = .next (s.setReg (pgLp p) 0x06C (mergeMask (s.reg (pgLp p) 0x06C) v 0xFFF)) := by
  have hp : (pgLp p * 4096 + 0x06C) / 4096 = pgLp p := by omega
  have ho : (pgLp p * 4096 + 0x06C) % 4096 = 0x06C := by omega
  have hlow : pgLp p * 4096 + 0x06C < 2 ^ 20 := by simp only [pgLp]; omega
  have hword : writeWord a {} (pgLp p * 4096 + 0x06C) v s =
      s.setReg (pgLp p) 0x06C (mergeMask (s.reg (pgLp p) 0x06C) v 0xFFF) := by
    simp only [writeWord, hp, ho, pageKind_pgLp, regRow_hrxTail]
    rfl
  rw [← hword, ← rowWrite_allowed {} hall rfl hlow]
  rfl

theorem bits_low12 (w : Word) : bits w 11 0 = (w &&& 0xFFF).toNat := by
  rw [BitVec.toNat_and]
  change w.toNat / 2 ^ 0 % 2 ^ 12 = w.toNat &&& (2 ^ 12 - 1)
  rw [Nat.pow_zero, Nat.div_one, Nat.and_two_pow_sub_one_eq_mod]

theorem hrxTail_gives {a : Access} {p : PortNo} {v : Word} {s : State} (hall : Allowed a (pgLp p) 0x06C v s) :
    Gives (.hrxTail a p v) s (fun t => t.fieldAt (pgLp p) 0x06C 11 0 = bits v 11 0 ∧ t.ports = s.ports) := by
  refine ⟨_, exec_hrxTail hall, ?_, by simp⟩
  rw [State.fieldAt, reg_setReg_self, bits_low12, mergeMask_and, ← bits_low12]

/-! ## Windows and lanes (12 R389, R391) -/

theorem bwWindow_gives (s : State) (p : PortNo) :
    Gives (.bwWindow p) s (fun t => (t.port p).read = (s.port p).win ∧ (t.port p).win = Vector.replicate 4 0 ∧
      (t.port p).bwSeq = (s.port p).bwSeq + 1 ∧ t.evtBit (pgLp p) evBwWindow = true) := by
  refine ⟨_, rfl, ?_⟩
  beta_reduce
  rw [bwWindow, port_setEvt, port_modPort_self]
  exact ⟨rfl, rfl, rfl, evtBit_setEvt_self _ _ _ (by decide)⟩

theorem lane_setEvt (s : State) (pg b : Nat) (n : LaneNo) : (s.setEvt pg b).lane n = s.lane n := by
  simp [State.lane]

theorem hiBer_gives {s : State} {n : LaneNo} (hnew : (s.lane n).hiBer = false) :
    Gives (.hiBer n) s (fun t => (t.lane n).hiBer = true ∧ t.evtBit (pgLane n) evHiBer = true) := by
  refine ⟨_, congrArg Host.Outcome.next (if_neg (by simp [hnew])), ?_, evtBit_setEvt_self _ _ _ (by decide)⟩
  rw [lane_setEvt, lane_modLane_self]

theorem hiBer_of_told {s : State} {n : LaneNo} (htold : (s.lane n).hiBer = true) : hiBer n s = s := if_pos htold

/-- Settles O41: a PDU changes the QL of its path and may lose its lane's slot, a PDU sent is one output, and each of the other
commands writes its own record. -/
theorem synceMessagesAndWindows : Obligations.SynceMessagesAndWindows := by
  refine fun s p a pdu n acc v sub fec gone => ⟨fun hup hlink hrx => ⟨esmcPdu_gives pdu hup hlink hrx, esmcTo_gives hup hrx⟩,
    fun hoff => ⟨⟨_, congrArg Host.Outcome.next (esmc_of_off pdu hoff).1, rfl⟩,
      ⟨_, congrArg Host.Outcome.next (esmc_of_off pdu hoff).2, rfl⟩⟩,
    ⟨_, congrArg Host.Outcome.next (esmcPdu_of_invalid pdu), rfl⟩, esmcSend_gives sub fec gone,
    fun hfull => ⟨_, congrArg Host.Outcome.next (sendEsmc_of_full false hfull), rfl⟩, hrxTail_gives, bwWindow_gives s p,
    hiBer_gives, fun htold => ⟨_, congrArg Host.Outcome.next (hiBer_of_told htold), rfl⟩⟩

end Sys2Proof.Machine
end

section
/-!
PROOFS. Scope: a frame for the host that finds no posted entry puts out the interrupt of RX_NOBUF, where the port's owner has enabled
it (refutes O38).
-/

namespace Sys2Proof.Machine

/-! ## An enabled event's interrupt (02 R81; 15 R467, R479) -/

/-- The interrupt of a page goes to its owner, where its vector is not masked. -/
theorem outs_irqPage {s : State} {pg : Nat} {q : Part} (howner : s.ownerOf pg = some q)
    (hopen : ∀ v, ((s.bar q).vectors.get v).mask = false) : ∃ x, (s.irqPage pg).outs = s.outs ++ [x] := by
  simp only [State.irqPage, howner, State.msix]
  rw [if_neg (by simp [hopen])]
  simp [State.emit]

/-- An event that its page's owner has enabled puts out that interrupt. -/
theorem outs_setEvt_of_enabled {s : State} {pg b : Nat} {q : Part} (hen : bit (s.page pg).evtEn b = true)
    (howner : s.ownerOf pg = some q) (hopen : ∀ v, ((s.bar q).vectors.get v).mask = false) :
    ∃ x, (s.setEvt pg b).outs = s.outs ++ [x] := by
  simp only [State.setEvt, hen, if_true]
  exact outs_irqPage (s := s.modPage pg _) (by rw [State.ownerOf, page_modPage_self]; exact howner) hopen

/-! ## A frame that is not dropped by the MAC, and is no engine's (12 R375, R378) -/

/-- The state in which a received frame is sorted: the lane's counts are taken and the partner is heard (R381). -/
def State.heard (s : State) (p : PortNo) (a : PathAB) (f : RxFrame) : State :=
  ((s.rxLane p a f).modPath p a (fun y => { y with partner := true })).settlePath p a

section
variable {s : State} {p : PortNo} {a : PathAB} {f : RxFrame}

theorem rxLane_of_plain (hlane : f.pt.lane = 0) (hfec : (s.lane (s.refLane p a)).fec = false) : s.rxLane p a f = s := by
  simp [State.rxLane, hlane, hfec]

theorem frameReceived_of_other (entry : Option RingEntry) (hup : s.pathUp p a = true) (hlink : (s.path p a).link = true)
    (hkept : s.macDrops p f = false) (hother : (parseFrame f.bytes).kind = .other) :
    frameReceived p a f entry s = toHost p a f (parseFrame f.bytes).dst entry (s.heard p a f) := by
  simp only [frameReceived, hup, hlink, hkept, frameIn, hother]
  rfl

/-- A frame for the host that finds no posted entry raises RX_NOBUF and is counted, and no more (R378). -/
theorem toHost_of_noEntry {dst : BitVec 48} (entry : Option RingEntry) (hdst : s.macPasses p dst = true)
    (hrx : s.bitAt (pgLp p) 0x068 8 = true) (hfull : s.ringFree p = false) :
    toHost p a f dst entry s = (s.setEvt (pgLp p) evRxNobuf).count (cntPort p 8) 1 := by
  simp only [toHost, hdst, hrx, hfull]
  simp

theorem macPasses_broadcast (s : State) (p : PortNo) : s.macPasses p (BitVec.allOnes 48) = true := by
  simp [State.macPasses]

end

/-! ## The counterexample -/

/-- Port 0 takes frames on path A for the host, which has posted no entry; its owner, partition 0, has enabled the event RX_NOBUF
and masks no vector. -/
def noEntryPosted : State :=
  { ((State.reset.modPath 0 .A (fun y => { y with link := true })).setReg (pgLp 0) 0x068 0x100).modPage (pgLp 0)
      (fun x => { x with owner := 0, evtEn := flagAt true evRxNobuf }) with
    pwr := { lathClock := true }
    bars := Vector.replicate 4 { vectors := Vector.replicate 32 { mask := false } } }

/-- A frame of the least length to every station, of no engine's EtherType. -/
def broadcastFrame : RxFrame :=
  { bytes := List.replicate 6 0xFF ++ List.replicate 54 0, fcsOk := true, pt := { sub := 0, fec := 0 } }

theorem parse_broadcastFrame : (parseFrame broadcastFrame.bytes).kind = .other ∧
    (parseFrame broadcastFrame.bytes).dst = BitVec.allOnes 48 := by decide

theorem macDrops_broadcastFrame : noEntryPosted.macDrops 0 broadcastFrame = false := by decide

/-- The frame finds no entry, and the interrupt of RX_NOBUF goes out. -/
theorem outs_frameReceived_noEntryPosted :
    ∃ x, (frameReceived 0 .A broadcastFrame none noEntryPosted).outs = noEntryPosted.outs ++ [x] := by
  have hrx : noEntryPosted.rxLane 0 .A broadcastFrame = noEntryPosted := rxLane_of_plain rfl (by decide)
  have hpages : (noEntryPosted.heard 0 .A broadcastFrame).pages = noEntryPosted.pages := by simp [State.heard, hrx]
  have hbars : (noEntryPosted.heard 0 .A broadcastFrame).bars = noEntryPosted.bars := by simp [State.heard, hrx]
  have houts : (noEntryPosted.heard 0 .A broadcastFrame).outs = noEntryPosted.outs := by simp [State.heard, hrx]
  rw [frameReceived_of_other none (by decide) (by decide) macDrops_broadcastFrame parse_broadcastFrame.1,
    parse_broadcastFrame.2, toHost_of_noEntry none (macPasses_broadcast _ _) (by decide) (by decide), ← houts]
  obtain ⟨x, hx⟩ := outs_setEvt_of_enabled (s := noEntryPosted.heard 0 .A broadcastFrame) (pg := pgLp 0) (b := evRxNobuf)
    (q := 0) (by rw [page_of_pages hpages]; decide) (by rw [State.ownerOf, page_of_pages hpages]; decide)
    (by rw [State.bar, hbars]; decide)
  exact ⟨x, by simpa using hx⟩

/-- Refutes O38: a frame dropped for want of an entry raises RX_NOBUF, and where the port's owner has enabled that event its
interrupt is put out (15 R479), so that the outputs are not those before. -/
theorem not_receivedFramesAreSorted : ¬ Obligations.ReceivedFramesAreSorted := by
  intro h
  obtain ⟨hother, hdst⟩ := parse_broadcastFrame
  obtain ⟨-, hsorted⟩ := h noEntryPosted _ 0 .A broadcastFrame _ none (by decide) (by decide) rfl rfl
  obtain ⟨-, -, -, hhost⟩ := hsorted rfl (by decide) (by decide)
  obtain ⟨-, -, hnobuf⟩ := hhost (.inl hother)
  obtain ⟨t, ht, -, hsame, -⟩ := hnobuf (hdst ▸ macPasses_broadcast _ _) (by decide) (by decide)
  obtain ⟨x, hx⟩ := outs_frameReceived_noEntryPosted
  have hnext : t = frameReceived 0 .A broadcastFrame none noEntryPosted := (Host.Outcome.next.inj ht).symm
  rw [hnext, hx] at hsame
  simp at hsame

end Sys2Proof.Machine
end

section
/-!
PROOFS. Scope: what a step runs (settles O1), and the areas of the state each row's command may change (settles O3).
-/

namespace Sys2Proof.Machine

set_option Elab.async false

/-- Settles O1: the front of the queue is the command, and its rest is the queue it leaves. -/
theorem stepRunsTheFrontCommand : Obligations.StepRunsTheFrontCommand := fun _ _ => rfl

/-! ## Frames -/

/-- A state has the same queue as another and differs from it in the areas of `l` at most. -/
def Frame (l : List Area) (s t : State) : Prop := t.pending = s.pending ∧ ∀ a, a ∉ l → a.same s t

/-- A command answers a next state and changes the areas of its row at most. -/
def Framed (c : Instr) : Prop := ∀ s, Gives c s (Frame (writesOf c) s)

@[simp] theorem mem_signal (a : Area) : a ∈ Area.signal ↔ a = .pages ∨ a = .cnt ∨ a = .bars ∨ a = .outs := by
  simp [Area.signal]

@[simp] theorem mem_all (a : Area) : a ∈ Area.all := by
  cases a <;> decide

@[simp] theorem mem_allBut (l : List Area) (a : Area) : a ∈ Area.allBut l ↔ a ∉ l := by
  simp [Area.allBut]

/-- A frame field by field, so that the laws of what each operation keeps apply. -/
@[simp] theorem frame_iff (l : List Area) (s t : State) :
    Frame l s t ↔ t.pending = s.pending ∧
      ((.now ∉ l → t.now = s.now) ∧ (.pwr ∉ l → t.pwr = s.pwr) ∧
       (.arb ∉ l → t.arb = s.arb) ∧ (.halves ∉ l → t.halves = s.halves) ∧
       (.models ∉ l → t.models = s.models) ∧ (.parts ∉ l → t.parts = s.parts)) ∧
      ((.ops ∉ l → t.ops = s.ops) ∧ (.caps ∉ l → t.caps = s.caps) ∧
       (.jets ∉ l → t.jets = s.jets) ∧ (.lanes ∉ l → t.lanes = s.lanes) ∧
       (.ports ∉ l → t.ports = s.ports) ∧ (.ptp ∉ l → t.ptp = s.ptp)) ∧
      ((.ftn ∉ l → t.ftn = s.ftn) ∧ (.keys ∉ l → t.keys = s.keys) ∧
       (.flt ∉ l → t.flt = s.flt) ∧ (.ident ∉ l → t.ident = s.ident) ∧
       (.mgt ∉ l → t.mgt = s.mgt) ∧ (.cnt ∉ l → t.cnt = s.cnt)) ∧
      (.regs ∉ l → ∀ pg o, regOf t.pages pg o = regOf s.pages pg o) ∧
      (.pages ∉ l → t.pages = s.pages) ∧ (.bars ∉ l → t.bars = s.bars) ∧
      (.outs ∉ l → t.outs = s.outs) ∧ (.fresh ∉ l → t.fresh = s.fresh) := by
  constructor
  · rintro ⟨hp, h⟩
    exact ⟨hp, ⟨h .now, h .pwr, h .arb, h .halves, h .models, h .parts⟩, ⟨h .ops, h .caps, h .jets, h .lanes, h .ports, h .ptp⟩,
      ⟨h .ftn, h .keys, h .flt, h .ident, h .mgt, h .cnt⟩, h .regs, h .pages, h .bars, h .outs, h .fresh⟩
  · rintro ⟨hp, ⟨_, _, _, _, _, _⟩, ⟨_, _, _, _, _, _⟩, ⟨_, _, _, _, _, _⟩, _, _, _, _, _⟩
    exact ⟨hp, fun a => by cases a <;> assumption⟩

/-! ## Accesses of hosts share their frames -/

theorem frame_rowWrite (a : Access) (pg o : Nat) (v : Word) (x : Beside) (s : State) :
    Frame (Area.allBut [.now]) s (rowWrite a pg o v s x) := by
  simp

theorem frame_hostRead (a : Access) (off : Nat) (s : State) :
    Frame (Area.signal ++ [.parts, .caps, .ports, .flt, .ident, .fresh]) s (hostRead a off s) := by
  simp

/-! ## Power, reset and thermal events (03) -/

@[simp] theorem framed_feedDetected : ∀ f mv, Framed (.feedDetected f mv) := fun _ _ _ => ⟨_, rfl, by simp [writesOf]⟩

@[simp] theorem framed_feedLost : ∀ f, Framed (.feedLost f) := fun _ _ => ⟨_, rfl, by simp [writesOf]⟩

@[simp] theorem framed_halfHeldInReset : ∀ h, Framed (.halfHeldInReset h) := fun _ _ => ⟨_, rfl, by simp [writesOf]⟩

@[simp] theorem framed_halfRepower : ∀ h, Framed (.halfRepower h) := fun _ _ => ⟨_, rfl, by simp [writesOf]⟩

@[simp] theorem framed_breakerTrip : ∀ f, Framed (.breakerTrip f) := fun _ _ => ⟨_, rfl, by simp [writesOf]⟩

@[simp] theorem framed_breakerReclose : ∀ f, Framed (.breakerReclose f) := fun _ _ => ⟨_, rfl, by simp [writesOf]⟩

@[simp] theorem framed_resetN : ∀ low, Framed (.resetN low) := fun _ _ => ⟨_, rfl, by simp [writesOf]⟩

@[simp] theorem framed_thermWarn : ∀ d, Framed (.thermWarn d) := fun _ _ => ⟨_, rfl, by simp [writesOf]⟩

@[simp] theorem framed_thermTrip : ∀ h, Framed (.thermTrip h) := fun _ _ => ⟨_, rfl, by simp [writesOf]⟩

@[simp] theorem framed_thermCommon : Framed .thermCommon := fun _ => ⟨_, rfl, by simp [writesOf]⟩

@[simp] theorem framed_thermRecover : ∀ d, Framed (.thermRecover d) := fun _ _ => ⟨_, rfl, by simp [writesOf]⟩

@[simp] theorem framed_vbatLow : ∀ mv, Framed (.vbatLow mv) := fun _ _ => ⟨_, rfl, by simp [writesOf]⟩

@[simp] theorem framed_vauxOverload : Framed .vauxOverload := fun _ => ⟨_, rfl, by simp [writesOf]⟩

@[simp] theorem framed_preRegulatorsUp : ∀ retained, Framed (.preRegulatorsUp retained) :=
  fun _ _ => ⟨_, rfl, by simp [writesOf]⟩

/-! ## Boot, measurement and start-up (16, 18) -/

@[simp] theorem framed_bootRomStart : ∀ fuseOk, Framed (.bootRomStart fuseOk) := fun _ _ => ⟨_, rfl, by simp [writesOf]⟩

@[simp] theorem framed_measuredBoot : Framed .measuredBoot := fun _ => ⟨_, rfl, by simp [writesOf]⟩

@[simp] theorem framed_measExtend : ∀ i digest, Framed (.measExtend i digest) := fun _ _ _ => ⟨_, rfl, by simp [writesOf]⟩

@[simp] theorem framed_measLock : Framed .measLock := fun _ => ⟨_, rfl, by simp [writesOf]⟩

@[simp] theorem framed_measLockTimeout : Framed .measLockTimeout := fun _ => ⟨_, rfl, by simp [writesOf]⟩

@[simp] theorem framed_step5Complete : Framed .step5Complete := fun _ => ⟨_, rfl, by simp [writesOf]⟩

@[simp] theorem framed_bootRestart : ∀ step reason, Framed (.bootRestart step reason) :=
  fun _ _ _ => ⟨_, rfl, by simp [writesOf]⟩

/-! ## Half start-up and the Lath (04) -/

@[simp] theorem framed_halfResetEnd : ∀ h, Framed (.halfResetEnd h) := fun _ _ => ⟨_, rfl, by simp [writesOf]⟩

@[simp] theorem framed_standbyLineLock : ∀ h, Framed (.standbyLineLock h) := fun _ _ => ⟨_, rfl, by simp [writesOf]⟩

@[simp] theorem framed_xoLockTimeout : ∀ h, Framed (.xoLockTimeout h) := fun _ _ => ⟨_, rfl, by simp [writesOf]⟩

@[simp] theorem framed_moscClassify : ∀ h hz, Framed (.moscClassify h hz) := fun _ _ _ => ⟨_, rfl, by simp [writesOf]⟩

@[simp] theorem framed_primaryLineLock : ∀ h, Framed (.primaryLineLock h) := fun _ _ => ⟨_, rfl, by simp [writesOf]⟩

@[simp] theorem framed_lathLock : ∀ h, Framed (.lathLock h) := fun _ _ => ⟨_, rfl, by simp [writesOf]⟩

@[simp] theorem framed_lathAcquireRetry : ∀ h, Framed (.lathAcquireRetry h) := fun _ _ => ⟨_, rfl, by simp [writesOf]⟩

@[simp] theorem framed_moscLost : ∀ h, Framed (.moscLost h) := fun _ _ => ⟨_, rfl, by simp [writesOf]⟩

@[simp] theorem framed_lockLost : ∀ h, Framed (.lockLost h) := fun _ _ => ⟨_, rfl, by simp [writesOf]⟩

@[simp] theorem framed_toStandby : ∀ h coastNs offset, Framed (.toStandby h coastNs offset) :=
  fun _ _ _ _ => ⟨_, rfl, by simp [writesOf]⟩

@[simp] theorem framed_xoBad : ∀ h, Framed (.xoBad h) := fun _ _ => ⟨_, rfl, by simp [writesOf]⟩

@[simp] theorem framed_moscReclassify : ∀ h hz, Framed (.moscReclassify h hz) := fun _ _ _ => ⟨_, rfl, by simp [writesOf]⟩

@[simp] theorem framed_moscQualWindow : ∀ h y, Framed (.moscQualWindow h y) := fun _ _ _ => ⟨_, rfl, by simp [writesOf]⟩

@[simp] theorem framed_toPrimary : ∀ h offset, Framed (.toPrimary h offset) := fun _ _ _ => ⟨_, rfl, by simp [writesOf]⟩

@[simp] theorem framed_lathReturnCmd : ∀ h, Framed (.lathReturnCmd h) := fun _ _ => ⟨_, rfl, by simp [writesOf]⟩

@[simp] theorem framed_autoRst : ∀ h, Framed (.autoRst h) := fun _ _ => ⟨_, rfl, by simp [writesOf]⟩

/-! ## Claims and arbiters (09, 04, 11) -/

@[simp] theorem framed_claimChange : ∀ h, Framed (.claimChange h) := fun _ _ => ⟨_, rfl, by simp [writesOf]⟩

@[simp] theorem framed_peerOkPersist : Framed .peerOkPersist := fun _ => ⟨_, rfl, by simp [writesOf]⟩

@[simp] theorem framed_switch : Framed .switch := fun _ => ⟨_, rfl, by simp [writesOf]⟩

@[simp] theorem framed_clkArbSwitch : Framed .clkArbSwitch := fun _ => ⟨_, rfl, by simp [writesOf]⟩

@[simp] theorem framed_jetSwitch : ∀ j holdPs sub devLast devNext, Framed (.jetSwitch j holdPs sub devLast devNext) :=
  fun _ _ _ _ _ _ => ⟨_, rfl, by simp [writesOf]⟩

@[simp] theorem framed_claimParityError : ∀ h, Framed (.claimParityError h) := fun _ _ => ⟨_, rfl, by simp [writesOf]⟩

@[simp] theorem framed_claimParityClear : ∀ h, Framed (.claimParityClear h) := fun _ _ => ⟨_, rfl, by simp [writesOf]⟩

/-! ## Beats, digests and resynchronisation (06, 09) -/

@[simp] theorem framed_beatBoundary : ∀ h d xoPhase, Framed (.beatBoundary h d xoPhase) :=
  fun _ _ _ _ => ⟨_, rfl, by simp [writesOf]⟩

@[simp] theorem framed_digestReceived : ∀ h peerDigest, Framed (.digestReceived h peerDigest) :=
  fun _ _ _ => ⟨_, rfl, by simp [writesOf]⟩

@[simp] theorem framed_resyncOrder : Framed .resyncOrder := fun _ => ⟨_, rfl, by simp [writesOf]⟩

@[simp] theorem framed_peerOkRise : Framed .peerOkRise := fun _ => ⟨_, rfl, by simp [writesOf]⟩

@[simp] theorem framed_powerupSelftest : ∀ h pass, Framed (.powerupSelftest h pass) :=
  fun _ _ _ => ⟨_, rfl, by simp [writesOf]⟩

@[simp] theorem framed_resyncStart : ∀ h, Framed (.resyncStart h) := fun _ _ => ⟨_, rfl, by simp [writesOf]⟩

@[simp] theorem framed_loadStateReceived : ∀ h, Framed (.loadStateReceived h) := fun _ _ => ⟨_, rfl, by simp [writesOf]⟩

@[simp] theorem framed_loadInForce : ∀ h ext die common, Framed (.loadInForce h ext die common) :=
  fun _ _ _ _ _ => ⟨_, rfl, by simp [writesOf]⟩

@[simp] theorem framed_holdoffElapsed : ∀ h, Framed (.holdoffElapsed h) := fun _ _ => ⟨_, rfl, by simp [writesOf]⟩

@[simp] theorem framed_heartbeatSend : ∀ h, Framed (.heartbeatSend h) := fun _ _ => ⟨_, rfl, by simp [writesOf]⟩

@[simp] theorem framed_heartbeatReceived : ∀ h, Framed (.heartbeatReceived h) := fun _ _ => ⟨_, rfl, by simp [writesOf]⟩

@[simp] theorem framed_linkLost : Framed .linkLost := fun _ => ⟨_, rfl, by simp [writesOf]⟩

@[simp] theorem framed_linkUp : Framed .linkUp := fun _ => ⟨_, rfl, by simp [writesOf]⟩

@[simp] theorem framed_halfResetCmd : ∀ h, Framed (.halfResetCmd h) := fun _ _ => ⟨_, rfl, by simp [writesOf]⟩

/-! ## Reference slots (05) -/

@[simp] theorem framed_slotObservation : ∀ h n r, Framed (.slotObservation h n r) :=
  fun _ _ _ _ => ⟨_, rfl, by simp [writesOf]⟩

@[simp] theorem framed_freqMonitorEval : ∀ h n m, Framed (.freqMonitorEval h n m) :=
  fun _ _ _ _ => ⟨_, rfl, by simp [writesOf]⟩

@[simp] theorem framed_signalLost : ∀ h n, Framed (.signalLost h n) := fun _ _ _ => ⟨_, rfl, by simp [writesOf]⟩

@[simp] theorem framed_signalPresent : ∀ h n, Framed (.signalPresent h n) := fun _ _ _ => ⟨_, rfl, by simp [writesOf]⟩

@[simp] theorem framed_qualTimeElapsed : ∀ h n, Framed (.qualTimeElapsed h n) := fun _ _ _ => ⟨_, rfl, by simp [writesOf]⟩

@[simp] theorem framed_disqHoldElapsed : ∀ h n, Framed (.disqHoldElapsed h n) := fun _ _ _ => ⟨_, rfl, by simp [writesOf]⟩

@[simp] theorem framed_agreeDwellElapsed : ∀ h n, Framed (.agreeDwellElapsed h n) :=
  fun _ _ _ => ⟨_, rfl, by simp [writesOf]⟩

@[simp] theorem framed_adopt : ∀ n, Framed (.adopt n) := fun _ _ => ⟨_, rfl, by simp [writesOf]⟩

@[simp] theorem framed_requal : ∀ n, Framed (.requal n) := fun _ _ => ⟨_, rfl, by simp [writesOf]⟩

@[simp] theorem framed_todMessage : ∀ h k rx, Framed (.todMessage h k rx) := fun _ _ _ _ => ⟨_, rfl, by simp [writesOf]⟩

@[simp] theorem framed_atomTelemetry : ∀ h line gapNs, Framed (.atomTelemetry h line gapNs) :=
  fun _ _ _ _ => ⟨_, rfl, by simp [writesOf]⟩

@[simp] theorem framed_weightUpdate : ∀ h d, Framed (.weightUpdate h d) := fun _ _ _ => ⟨_, rfl, by simp [writesOf]⟩

@[simp] theorem framed_comparisonPeriodStart : ∀ h d, Framed (.comparisonPeriodStart h d) :=
  fun _ _ _ => ⟨_, rfl, by simp [writesOf]⟩

/-! ## Time domains (06) -/

@[simp] theorem framed_loopUpdate : ∀ h d phase, Framed (.loopUpdate h d phase) :=
  fun _ _ _ _ => ⟨_, rfl, by simp [writesOf]⟩

@[simp] theorem framed_dwellExpiry : ∀ h d, Framed (.dwellExpiry h d) := fun _ _ _ => ⟨_, rfl, by simp [writesOf]⟩

@[simp] theorem framed_trowelArm : ∀ a d v, Framed (.trowelArm a d v) := fun _ _ _ _ => ⟨_, rfl, frame_rowWrite ..⟩

@[simp] theorem framed_forceHold : ∀ a d v, Framed (.forceHold a d v) := fun _ _ _ _ => ⟨_, rfl, frame_rowWrite ..⟩

@[simp] theorem framed_nowLatch : ∀ p d, Framed (.nowLatch p d) := fun _ _ _ => ⟨_, rfl, frame_hostRead ..⟩

/-! ## Cistern and Spirit Level (07, 08) -/

@[simp] theorem framed_cisternSecond : ∀ h d own common, Framed (.cisternSecond h d own common) :=
  fun _ _ _ _ _ => ⟨_, rfl, by simp [writesOf]⟩

@[simp] theorem framed_sensorLost : ∀ h k, Framed (.sensorLost h k) := fun _ _ _ => ⟨_, rfl, by simp [writesOf]⟩

@[simp] theorem framed_sensorPresent : ∀ h k, Framed (.sensorPresent h k) := fun _ _ _ => ⟨_, rfl, by simp [writesOf]⟩

@[simp] theorem framed_modelInst : ∀ h o, Framed (.modelInst h o) := fun _ _ _ => ⟨_, rfl, by simp [writesOf]⟩

@[simp] theorem framed_modelPersist : ∀ h o, Framed (.modelPersist h o) := fun _ _ _ => ⟨_, rfl, by simp [writesOf]⟩

@[simp] theorem framed_learningPass : ∀ h o, Framed (.learningPass h o) := fun _ _ _ => ⟨_, rfl, by simp [writesOf]⟩

@[simp] theorem framed_efcTarget : ∀ h, Framed (.efcTarget h) := fun _ _ => ⟨_, rfl, by simp [writesOf]⟩

@[simp] theorem framed_slPdsClr : ∀ mask, Framed (.slPdsClr mask) := fun _ _ => ⟨_, rfl, by simp [writesOf]⟩

/-! ## Frames, timestamps, captures and alarms (10, 12) -/

@[simp] theorem framed_frameReceived : ∀ p path f entry, Framed (.frameReceived p path f entry) :=
  fun _ _ _ _ _ => ⟨_, rfl, by simp [writesOf]⟩

@[simp] theorem framed_frameTransmitted : ∀ p path k sub fec discarded, Framed (.frameTransmitted p path k sub fec discarded) :=
  fun _ _ _ _ _ _ _ => ⟨_, rfl, by simp [writesOf]⟩

@[simp] theorem framed_txtsPop : ∀ a p, Framed (.txtsPop a p) := fun _ _ _ => ⟨_, rfl, frame_hostRead ..⟩

@[simp] theorem framed_captureEdge : ∀ c rising sub sinceNs, Framed (.captureEdge c rising sub sinceNs) :=
  fun _ _ _ _ _ => ⟨_, rfl, by simp [writesOf]⟩

@[simp] theorem framed_capPop : ∀ a c, Framed (.capPop a c) := fun _ _ _ => ⟨_, rfl, frame_hostRead ..⟩

@[simp] theorem framed_alarmFire : ∀ t, Framed (.alarmFire t) := fun _ _ => ⟨_, rfl, by simp [writesOf]⟩

/-! ## Jets (11) -/

@[simp] theorem framed_jetStart : ∀ j, Framed (.jetStart j) := fun _ _ => ⟨_, rfl, by simp [writesOf]⟩

@[simp] theorem framed_started : ∀ j, Framed (.started j) := fun _ _ => ⟨_, rfl, by simp [writesOf]⟩

@[simp] theorem framed_jetPeriodEdge : ∀ j sub, Framed (.jetPeriodEdge j sub) := fun _ _ _ => ⟨_, rfl, by simp [writesOf]⟩

@[simp] theorem framed_jetKill : ∀ a j v, Framed (.jetKill a j v) := fun _ _ _ _ => ⟨_, rfl, frame_rowWrite ..⟩

@[simp] theorem framed_jetRestart : ∀ j, Framed (.jetRestart j) := fun _ _ => ⟨_, rfl, by simp [writesOf]⟩

@[simp] theorem framed_rampDone : ∀ j sub, Framed (.rampDone j sub) := fun _ _ _ => ⟨_, rfl, by simp [writesOf]⟩

/-! ## Ports and SyncE (12) -/

@[simp] theorem framed_packetBoundary : ∀ p, Framed (.packetBoundary p) := fun _ _ => ⟨_, rfl, by simp [writesOf]⟩

@[simp] theorem framed_linkDown : ∀ p path, Framed (.linkDown p path) := fun _ _ _ => ⟨_, rfl, by simp [writesOf]⟩

@[simp] theorem framed_portLinkUp : ∀ p path, Framed (.portLinkUp p path) := fun _ _ _ => ⟨_, rfl, by simp [writesOf]⟩

@[simp] theorem framed_pathHoldoffElapsed : ∀ p path, Framed (.pathHoldoffElapsed p path) :=
  fun _ _ _ => ⟨_, rfl, by simp [writesOf]⟩

@[simp] theorem framed_partnerTimeout : ∀ p path, Framed (.partnerTimeout p path) :=
  fun _ _ _ => ⟨_, rfl, by simp [writesOf]⟩

@[simp] theorem framed_pathSwitch : ∀ p, Framed (.pathSwitch p) := fun _ _ => ⟨_, rfl, by simp [writesOf]⟩

@[simp] theorem framed_esmcPdu : ∀ p path pdu parseOk, Framed (.esmcPdu p path pdu parseOk) :=
  fun _ _ _ _ _ => ⟨_, rfl, by simp [writesOf]⟩

@[simp] theorem framed_esmcTo : ∀ p path, Framed (.esmcTo p path) := fun _ _ _ => ⟨_, rfl, by simp [writesOf]⟩

@[simp] theorem framed_esmcInfoSend : ∀ p path, Framed (.esmcInfoSend p path) := fun _ _ _ => ⟨_, rfl, by simp [writesOf]⟩

@[simp] theorem framed_hrxTail : ∀ a p v, Framed (.hrxTail a p v) := fun _ _ _ _ => ⟨_, rfl, frame_rowWrite ..⟩

@[simp] theorem framed_bwWindow : ∀ p, Framed (.bwWindow p) := fun _ _ => ⟨_, rfl, by simp [writesOf]⟩

/-! ## PTP engine (13) -/

@[simp] theorem framed_followUpBuild : ∀ p, Framed (.followUpBuild p) := fun _ _ => ⟨_, rfl, by simp [writesOf]⟩

@[simp] theorem framed_delayReqReceived : ∀ p path m, Framed (.delayReqReceived p path m) :=
  fun _ _ _ _ => ⟨_, rfl, by simp [writesOf]⟩

@[simp] theorem framed_foreignAnn : ∀ p, Framed (.foreignAnn p) := fun _ _ => ⟨_, rfl, by simp [writesOf]⟩

@[simp] theorem framed_unicastRequest : ∀ p c g logPeriod duration, Framed (.unicastRequest p c g logPeriod duration) :=
  fun _ _ _ _ _ _ => ⟨_, rfl, by simp [writesOf]⟩

@[simp] theorem framed_unicastCancel : ∀ p c g, Framed (.unicastCancel p c g) := fun _ _ _ _ => ⟨_, rfl, by simp [writesOf]⟩

@[simp] theorem framed_grantCountdown : ∀ d, Framed (.grantCountdown d) := fun _ _ => ⟨_, rfl, by simp [writesOf]⟩

@[simp] theorem framed_ptpCancel : ∀ index, Framed (.ptpCancel index) := fun _ _ => ⟨_, rfl, by simp [writesOf]⟩

@[simp] theorem framed_clientAnnounce : ∀ k m, Framed (.clientAnnounce k m) := fun _ _ _ => ⟨_, rfl, by simp [writesOf]⟩

@[simp] theorem framed_masterLost : ∀ k, Framed (.masterLost k) := fun _ _ => ⟨_, rfl, by simp [writesOf]⟩

@[simp] theorem framed_grantRequest : ∀ k failed, Framed (.grantRequest k failed) :=
  fun _ _ _ => ⟨_, rfl, by simp [writesOf]⟩

@[simp] theorem framed_clientDelayReq : ∀ k, Framed (.clientDelayReq k) := fun _ _ => ⟨_, rfl, by simp [writesOf]⟩

@[simp] theorem framed_exchangeComplete : ∀ k x, Framed (.exchangeComplete k x) := fun _ _ _ => ⟨_, rfl, by simp [writesOf]⟩

@[simp] theorem framed_delayRespTimeout : ∀ k, Framed (.delayRespTimeout k) := fun _ _ => ⟨_, rfl, by simp [writesOf]⟩

@[simp] theorem framed_l1SyncSend : ∀ p, Framed (.l1SyncSend p) := fun _ _ => ⟨_, rfl, by simp [writesOf]⟩

/-! ## Fountain (14) -/

@[simp] theorem framed_ntpRequest : ∀ p path r, Framed (.ntpRequest p path r) := fun _ _ _ _ => ⟨_, rfl, by simp [writesOf]⟩

@[simp] theorem framed_ntsRequest : ∀ p path r n, Framed (.ntsRequest p path r n) :=
  fun _ _ _ _ _ => ⟨_, rfl, by simp [writesOf]⟩

@[simp] theorem framed_ntsLaunch : ∀ p crossPs, Framed (.ntsLaunch p crossPs) := fun _ _ _ => ⟨_, rfl, by simp [writesOf]⟩

@[simp] theorem framed_sweeperVisit : ∀ index, Framed (.sweeperVisit index) := fun _ _ => ⟨_, rfl, by simp [writesOf]⟩

@[simp] theorem framed_epochAdv : Framed .epochAdv := fun _ => ⟨_, rfl, by simp [writesOf]⟩

@[simp] theorem framed_ftnKill : ∀ a v, Framed (.ftnKill a v) := fun _ _ _ => ⟨_, rfl, frame_rowWrite ..⟩

/-! ## Host queues and operations (15) -/

@[simp] theorem framed_sqTail : ∀ a q v, Framed (.sqTail a q v) := fun _ _ _ _ => ⟨_, rfl, frame_rowWrite ..⟩

@[simp] theorem framed_entryFetch : ∀ p q entry, Framed (.entryFetch p q entry) :=
  fun _ _ _ _ => ⟨_, rfl, by simp [writesOf]⟩

@[simp] theorem framed_nop : ∀ t, Framed (.nop t) := fun _ _ => ⟨_, rfl, by simp [writesOf]⟩

@[simp] theorem framed_fence : ∀ t, Framed (.fence t) := fun _ _ => ⟨_, rfl, by simp [writesOf]⟩

@[simp] theorem framed_fenceComplete : ∀ t, Framed (.fenceComplete t) := fun _ _ => ⟨_, rfl, by simp [writesOf]⟩

@[simp] theorem framed_timeRead : ∀ t, Framed (.timeRead t) := fun _ _ => ⟨_, rfl, by simp [writesOf]⟩

@[simp] theorem framed_eventArm : ∀ t, Framed (.eventArm t) := fun _ _ => ⟨_, rfl, by simp [writesOf]⟩

@[simp] theorem framed_alarmSet : ∀ t, Framed (.alarmSet t) := fun _ _ => ⟨_, rfl, by simp [writesOf]⟩

@[simp] theorem framed_alarmCancel : ∀ t, Framed (.alarmCancel t) := fun _ _ => ⟨_, rfl, by simp [writesOf]⟩

@[simp] theorem framed_ptpSend : ∀ t frame, Framed (.ptpSend t frame) := fun _ _ _ => ⟨_, rfl, by simp [writesOf]⟩

@[simp] theorem framed_rateSet : ∀ r, Framed (.rateSet r) := fun _ _ => ⟨_, rfl, by simp [writesOf]⟩

@[simp] theorem framed_keyDerive : ∀ t label, Framed (.keyDerive t label) := fun _ _ _ => ⟨_, rfl, by simp [writesOf]⟩

@[simp] theorem framed_keyReplace : ∀ t key, Framed (.keyReplace t key) := fun _ _ _ => ⟨_, rfl, by simp [writesOf]⟩

@[simp] theorem framed_cookieMint : ∀ t keys, Framed (.cookieMint t keys) := fun _ _ _ => ⟨_, rfl, by simp [writesOf]⟩

@[simp] theorem framed_statsSnapshot : ∀ t, Framed (.statsSnapshot t) := fun _ _ => ⟨_, rfl, by simp [writesOf]⟩

@[simp] theorem framed_logRead : ∀ t, Framed (.logRead t) := fun _ _ => ⟨_, rfl, by simp [writesOf]⟩

@[simp] theorem framed_completionWrite : ∀ p q, Framed (.completionWrite p q) := fun _ _ _ => ⟨_, rfl, by simp [writesOf]⟩

@[simp] theorem framed_cqHead : ∀ a q v, Framed (.cqHead a q v) := fun _ _ _ _ => ⟨_, rfl, frame_rowWrite ..⟩

@[simp] theorem framed_irqCoalesceTimeout : ∀ p q, Framed (.irqCoalesceTimeout p q) :=
  fun _ _ _ => ⟨_, rfl, by simp [writesOf]⟩

@[simp] theorem framed_queueEnable : ∀ a q v, Framed (.queueEnable a q v) := fun _ _ _ _ => ⟨_, rfl, frame_rowWrite ..⟩

@[simp] theorem framed_queueDisable : ∀ a q v, Framed (.queueDisable a q v) := fun _ _ _ _ => ⟨_, rfl, frame_rowWrite ..⟩

@[simp] theorem framed_qStopped : ∀ p q, Framed (.qStopped p q) := fun _ _ _ => ⟨_, rfl, by simp [writesOf]⟩

@[simp] theorem framed_partitionReset : ∀ p k, Framed (.partitionReset p k) := fun _ _ _ => ⟨_, rfl, by simp [writesOf]⟩

@[simp] theorem framed_queueOpTimeout : ∀ t, Framed (.queueOpTimeout t) := fun _ _ => ⟨_, rfl, by simp [writesOf]⟩

@[simp] theorem framed_mbxGo : ∀ a v, Framed (.mbxGo a v) := fun _ _ _ => ⟨_, rfl, frame_rowWrite ..⟩

/-! ## Keys and tamper (16) -/

@[simp] theorem framed_keyZeroise : ∀ a slot, Framed (.keyZeroise a slot) := fun _ _ _ => ⟨_, rfl, frame_rowWrite ..⟩

@[simp] theorem framed_keyZeroiseAll : ∀ a, Framed (.keyZeroiseAll a) := fun _ _ => ⟨_, rfl, frame_rowWrite ..⟩

@[simp] theorem framed_tamper : ∀ src, Framed (.tamper src) := fun _ _ => ⟨_, rfl, by simp [writesOf]⟩

@[simp] theorem framed_eraseComplete : Framed .eraseComplete := fun _ => ⟨_, rfl, by simp [writesOf]⟩

/-! ## Faults and self-test (17) -/

@[simp] theorem framed_faultDetection : ∀ pl pg det loc, Framed (.faultDetection pl pg det loc) :=
  fun _ _ _ _ _ => ⟨_, rfl, by simp [writesOf]⟩

@[simp] theorem framed_faultMessageAccepted : ∀ source, Framed (.faultMessageAccepted source) :=
  fun _ _ => ⟨_, rfl, by simp [writesOf]⟩

@[simp] theorem framed_overflowMessage : ∀ source, Framed (.overflowMessage source) :=
  fun _ _ => ⟨_, rfl, by simp [writesOf]⟩

@[simp] theorem framed_selftestResult : ∀ source det pass, Framed (.selftestResult source det pass) :=
  fun _ _ _ _ => ⟨_, rfl, by simp [writesOf]⟩

@[simp] theorem framed_engineWatchdog : ∀ source, Framed (.engineWatchdog source) := fun _ _ => ⟨_, rfl, by simp [writesOf]⟩

@[simp] theorem framed_crossingTimeout : ∀ p lost, Framed (.crossingTimeout p lost) :=
  fun _ _ _ => ⟨_, rfl, by simp [writesOf]⟩

@[simp] theorem framed_mgtWdog : Framed .mgtWdog := fun _ => ⟨_, rfl, by simp [writesOf]⟩

@[simp] theorem framed_aliveToggle : Framed .aliveToggle := fun _ => ⟨_, rfl, by simp [writesOf]⟩

@[simp] theorem framed_fltResume : ∀ a v, Framed (.fltResume a v) := fun _ _ _ => ⟨_, rfl, frame_rowWrite ..⟩

@[simp] theorem framed_fltRetest : ∀ a v pass, Framed (.fltRetest a v pass) := fun _ _ _ _ => ⟨_, rfl, frame_rowWrite ..⟩

@[simp] theorem framed_fltInjWdog : ∀ a v, Framed (.fltInjWdog a v) := fun _ _ _ => ⟨_, rfl, frame_rowWrite ..⟩

@[simp] theorem framed_fltLogPop : ∀ a, Framed (.fltLogPop a) := fun _ _ => ⟨_, rfl, frame_hostRead ..⟩

/-! ## Detections of the owning chapters -/

@[simp] theorem framed_domainDetection : ∀ d det, Framed (.domainDetection d det) :=
  fun _ _ _ => ⟨_, rfl, by simp [writesOf]⟩

@[simp] theorem framed_cisternDetection : ∀ det, Framed (.cisternDetection det) := fun _ _ => ⟨_, rfl, by simp [writesOf]⟩

@[simp] theorem framed_slDetection : ∀ det, Framed (.slDetection det) := fun _ _ => ⟨_, rfl, by simp [writesOf]⟩

@[simp] theorem framed_halfDetection : ∀ det, Framed (.halfDetection det) := fun _ _ => ⟨_, rfl, by simp [writesOf]⟩

@[simp] theorem framed_captureDetection : ∀ c det, Framed (.captureDetection c det) :=
  fun _ _ _ => ⟨_, rfl, by simp [writesOf]⟩

@[simp] theorem framed_tdcCalDetection : ∀ pt, Framed (.tdcCalDetection pt) := fun _ _ => ⟨_, rfl, by simp [writesOf]⟩

@[simp] theorem framed_jetDetection : ∀ j det, Framed (.jetDetection j det) := fun _ _ _ => ⟨_, rfl, by simp [writesOf]⟩

@[simp] theorem framed_portDetection : ∀ pg det, Framed (.portDetection pg det) := fun _ _ _ => ⟨_, rfl, by simp [writesOf]⟩

@[simp] theorem framed_ptpDetection : ∀ det index, Framed (.ptpDetection det index) :=
  fun _ _ _ => ⟨_, rfl, by simp [writesOf]⟩

@[simp] theorem framed_ftnDetection : ∀ det index, Framed (.ftnDetection det index) :=
  fun _ _ _ => ⟨_, rfl, by simp [writesOf]⟩

@[simp] theorem framed_hpDetection : ∀ p det, Framed (.hpDetection p det) := fun _ _ _ => ⟨_, rfl, by simp [writesOf]⟩

@[simp] theorem framed_keyDetection : ∀ det slot, Framed (.keyDetection det slot) :=
  fun _ _ _ => ⟨_, rfl, by simp [writesOf]⟩

@[simp] theorem framed_fltDetection : ∀ det loc, Framed (.fltDetection det loc) := fun _ _ _ => ⟨_, rfl, by simp [writesOf]⟩

@[simp] theorem framed_mgtDetection : ∀ det correctable, Framed (.mgtDetection det correctable) :=
  fun _ _ _ => ⟨_, rfl, by simp [writesOf]⟩

@[simp] theorem framed_cntDetection : ∀ c, Framed (.cntDetection c) := fun _ _ => ⟨_, rfl, by simp [writesOf]⟩

@[simp] theorem framed_railCrossing : ∀ rail mv, Framed (.railCrossing rail mv) := fun _ _ _ => ⟨_, rfl, by simp [writesOf]⟩

@[simp] theorem framed_logRecordWrite : Framed .logRecordWrite := fun _ => ⟨_, rfl, by simp [writesOf]⟩

/-! ## Mailbox commands (18) -/

@[simp] theorem framed_getInfo : ∀ src tag, Framed (.getInfo src tag) := fun _ _ _ => ⟨_, rfl, by simp [writesOf]⟩

@[simp] theorem framed_getSensors : ∀ src tag, Framed (.getSensors src tag) := fun _ _ _ => ⟨_, rfl, by simp [writesOf]⟩

@[simp] theorem framed_getChallenge : ∀ src tag, Framed (.getChallenge src tag) := fun _ _ _ => ⟨_, rfl, by simp [writesOf]⟩

@[simp] theorem framed_setPolicy : ∀ src tag r, Framed (.setPolicy src tag r) := fun _ _ _ _ => ⟨_, rfl, by simp [writesOf]⟩

@[simp] theorem framed_clearLatch : ∀ src tag live, Framed (.clearLatch src tag live) :=
  fun _ _ _ _ => ⟨_, rfl, by simp [writesOf, apply_ite Prod.fst]⟩

@[simp] theorem framed_chipReset : ∀ src tag, Framed (.chipReset src tag) := fun _ _ _ => ⟨_, rfl, by simp [writesOf]⟩

@[simp] theorem framed_restartMgt : ∀ src tag, Framed (.restartMgt src tag) := fun _ _ _ => ⟨_, rfl, by simp [writesOf]⟩

@[simp] theorem framed_updateBegin : ∀ src tag bodyLen, Framed (.updateBegin src tag bodyLen) :=
  fun _ _ _ _ => ⟨_, rfl, by simp [writesOf]⟩

@[simp] theorem framed_updateData : ∀ src tag offset data, Framed (.updateData src tag offset data) :=
  fun _ _ _ _ _ => ⟨_, rfl, by simp [writesOf]⟩

@[simp] theorem framed_updateEnd : ∀ src tag, Framed (.updateEnd src tag) := fun _ _ _ => ⟨_, rfl, by simp [writesOf]⟩

@[simp] theorem framed_confirm : ∀ src tag, Framed (.confirm src tag) := fun _ _ _ => ⟨_, rfl, by simp [writesOf]⟩

@[simp] theorem framed_svnCommit : ∀ src tag, Framed (.svnCommit src tag) := fun _ _ _ => ⟨_, rfl, by simp [writesOf]⟩

@[simp] theorem framed_enterRma : ∀ src tag sig, Framed (.enterRma src tag sig) :=
  fun _ _ _ _ => ⟨_, rfl, by simp [writesOf]⟩

@[simp] theorem framed_decommission : ∀ src tag, Framed (.decommission src tag) := fun _ _ _ => ⟨_, rfl, by simp [writesOf]⟩

/-! ## Register accesses (02) -/

@[simp] theorem framed_chainWrite : ∀ a w v, Framed (.chainWrite a w v) := fun _ _ _ _ => ⟨_, rfl, frame_rowWrite ..⟩

@[simp] theorem framed_pageLock : ∀ a pg, Framed (.pageLock a pg) := fun _ _ _ => ⟨_, rfl, frame_rowWrite ..⟩

@[simp] theorem framed_pageEnable : ∀ a pg en, Framed (.pageEnable a pg en) := fun _ _ _ _ => ⟨_, rfl, frame_rowWrite ..⟩

@[simp] theorem framed_srst : ∀ a pg, Framed (.srst a pg) := fun _ _ _ => ⟨_, rfl, frame_rowWrite ..⟩

@[simp] theorem framed_pageSoftReset : ∀ pg, Framed (.pageSoftReset pg) := fun _ _ => ⟨_, rfl, by simp [writesOf]⟩

@[simp] theorem framed_eventClear : ∀ a pg v coincident, Framed (.eventClear a pg v coincident) :=
  fun _ _ _ _ _ => ⟨_, rfl, frame_rowWrite ..⟩

@[simp] theorem framed_faultClear : ∀ a pg, Framed (.faultClear a pg) := fun _ _ _ => ⟨_, rfl, frame_rowWrite ..⟩

@[simp] theorem framed_inject : ∀ a pg det continuous, Framed (.inject a pg det continuous) :=
  fun _ _ _ _ _ => ⟨_, rfl, frame_rowWrite ..⟩

@[simp] theorem framed_applyHold : ∀ a pg, Framed (.applyHold a pg) := fun _ _ _ => ⟨_, rfl, frame_rowWrite ..⟩

@[simp] theorem framed_applyRelease : ∀ a pg, Framed (.applyRelease a pg) := fun _ _ _ => ⟨_, rfl, frame_rowWrite ..⟩

@[simp] theorem framed_discard : ∀ a pg, Framed (.discard a pg) := fun _ _ _ => ⟨_, rfl, frame_rowWrite ..⟩

@[simp] theorem framed_indAddrWrite : ∀ a pg v, Framed (.indAddrWrite a pg v) := fun _ _ _ _ => ⟨_, rfl, frame_rowWrite ..⟩

@[simp] theorem framed_indCtlWrite : ∀ a pg v, Framed (.indCtlWrite a pg v) := fun _ _ _ _ => ⟨_, rfl, frame_rowWrite ..⟩

@[simp] theorem framed_indDataRead : ∀ a pg, Framed (.indDataRead a pg) := fun _ _ _ => ⟨_, rfl, frame_hostRead ..⟩

@[simp] theorem framed_indDataWrite : ∀ a pg v, Framed (.indDataWrite a pg v) := fun _ _ _ _ => ⟨_, rfl, frame_rowWrite ..⟩

@[simp] theorem framed_buserrLogPop : ∀ a, Framed (.buserrLogPop a) := fun _ _ => ⟨_, rfl, frame_hostRead ..⟩

@[simp] theorem framed_registerWrite : ∀ a off v, Framed (.registerWrite a off v) :=
  fun _ _ _ _ => ⟨_, rfl, by simp [writesOf]⟩

/-! ## The rows added at the table's end -/

@[simp] theorem framed_selHoldElapsed : ∀ h d, Framed (.selHoldElapsed h d) := fun _ _ _ => ⟨_, rfl, by simp [writesOf]⟩

@[simp] theorem framed_pdsAgreeDwellElapsed : ∀ h k, Framed (.pdsAgreeDwellElapsed h k) :=
  fun _ _ _ => ⟨_, rfl, by simp [writesOf]⟩

@[simp] theorem framed_jetFallingEdge : ∀ j, Framed (.jetFallingEdge j) := fun _ _ => ⟨_, rfl, by simp [writesOf]⟩

@[simp] theorem framed_pcieCompletionTimeout : ∀ t, Framed (.pcieCompletionTimeout t) :=
  fun _ _ => ⟨_, rfl, by simp [writesOf]⟩

@[simp] theorem framed_hiBer : ∀ n, Framed (.hiBer n) := fun _ _ => ⟨_, rfl, by simp [writesOf]⟩

@[simp] theorem framed_mgtEthFrame : ∀ srcMac seq body icv, Framed (.mgtEthFrame srcMac seq body icv) :=
  fun _ _ _ _ _ => ⟨_, rfl, by simp [writesOf]⟩

/-! ## All rows -/

theorem framed (c : Instr) : Framed c := by
  cases c <;> simp

/-- Settles O3: each command's next state is the one its row's frame speaks of. -/
theorem commandsWriteOnlyTheirAreas : Obligations.CommandsWriteOnlyTheirAreas := by
  refine ⟨fun c s => ?_, fun c s t a hnext hrow => ?_⟩
  · obtain ⟨t, hnext, hpending, -⟩ := framed c s
    exact ⟨t, hnext, hpending⟩
  · obtain ⟨u, hu, -, hsame⟩ := framed c s
    rw [hnext] at hu
    exact Host.Outcome.next.inj hu ▸ hsame a (by simpa using hrow)

end Sys2Proof.Machine
end

section
/-!
PROOFS. Scope: no step lowers a fuse (settles O5).
-/

namespace Sys2Proof.Machine

/-! ## Mailbox commands keep what their body and their answer keep -/

/-- What holds before a mailbox command holds after it, where waiting, answering, its body and what follows keep it (18 R565 to R567). -/
theorem mailbox_keeps (P : State → Prop) {src : Transport} {cmd : Nat} {tag : BitVec 16} {priv : Bool}
    {body : State → State × Nat × List Nat} {after : State → State} {s : State} (hs : P s) (hwait : P (smbWait cmd tag s))
    (hanswer : ∀ st vals t, P t → P (drainUnknown 8 (answer src cmd tag st vals t))) (hbody : P (body s).1)
    (hafter : ∀ t, P t → P (after t)) : P (mailbox src cmd tag priv body after s) := by
  simp only [mailbox]
  split
  · split
    · exact hwait
    · exact hs
  · split_ifs
    · exact hs
    · exact hs
    · exact hanswer _ _ _ hs
    · exact hanswer _ _ _ hs
    · exact hafter _ (hanswer _ _ _ hbody)
    · exact hanswer _ _ _ hbody

/-- A mailbox command keeps what its body and what follows keep of the fuses. -/
theorem mailbox_keeps_fuse (P : Fuse → Prop) {src : Transport} {cmd : Nat} {tag : BitVec 16} {priv : Bool}
    {body : State → State × Nat × List Nat} {after : State → State} {s : State} (hs : P s.keys.fuse) (hbody : P (body s).1.keys.fuse)
    (hafter : ∀ t, (after t).keys.fuse = t.keys.fuse) : P (mailbox src cmd tag priv body after s).keys.fuse :=
  mailbox_keeps (fun t => P t.keys.fuse) hs (by simpa using hs) (fun _ _ _ h => by simpa using h) hbody
    (fun t h => by rwa [hafter])

/-! ## The commands that blow fuses (16 R501; 18 R573, R574) -/

/-- The rows of SVN_COMMIT, ENTER_RMA and DECOMMISSION. -/
def blowsFuse : Instr → Bool
  | .svnCommit .. | .enterRma .. | .decommission .. => true
  | _ => false

theorem fusesAtLeast_svnCommit {r l : Nat} {s : State} (h : fusesAtLeast r l s) : fusesAtLeast r l (svnCommit s).1 := by
  obtain ⟨hr, hl, h3⟩ := h
  unfold svnCommit
  split
  · exact ⟨hr, hl, h3⟩
  · exact ⟨le_max_of_le_left hr, hl, h3⟩

/-- The lifecycle fuse is blown to a state that is no lower than the one it shows. -/
theorem fusesAtLeast_lifecycleTo {r l n : Nat} {s : State} (h : fusesAtLeast r l s) (hn : s.keys.fuse.lifecycle ≤ n) (h3 : n ≤ 3) :
    fusesAtLeast r l (lifecycleTo n s) := by
  obtain ⟨hr, hl, -⟩ := h
  simp only [fusesAtLeast, keeps_lifecycleTo]
  exact ⟨hr, hl.trans hn, h3⟩

/-- The lifecycle the module acts in stands no lower than its fuse (16 R500). -/
theorem fuse_le_lifecycle {s : State} (h : s.keys.fuse.lifecycle ≤ 3) : s.keys.fuse.lifecycle ≤ s.lifecycle := by
  unfold State.lifecycle
  split <;> omega

theorem fusesAtLeast_enterRma {r l : Nat} {s : State} (sig : List Byte) (h : fusesAtLeast r l s) :
    fusesAtLeast r l (enterRma sig s).1 := by
  have hle := fuse_le_lifecycle h.2.2
  simp only [enterRma]
  split_ifs with _ _ hlow
  · exact h
  · exact h
  · exact h
  · exact fusesAtLeast_lifecycleTo (n := 2) h (by simp only; omega) (by omega)

theorem fusesAtLeast_decommission {r l : Nat} {s : State} (tag : BitVec 16) (h : fusesAtLeast r l s) :
    fusesAtLeast r l (decommission tag s).1 := by
  unfold decommission
  split
  · exact fusesAtLeast_lifecycleTo (n := 3) h h.2.2 le_rfl
  · exact h

theorem fusesAtLeast_of_blowsFuse {c : Instr} {r l : Nat} {s t : State} (hc : blowsFuse c = true) (h : fusesAtLeast r l s)
    (hnext : exec c s = .next t) : fusesAtLeast r l t := by
  let P (f : Fuse) : Prop := r ≤ f.rollback ∧ l ≤ f.lifecycle ∧ f.lifecycle ≤ 3
  cases c <;> simp only [blowsFuse, Bool.false_eq_true] at hc
  case svnCommit src tag =>
    cases hnext
    exact mailbox_keeps_fuse P h (fusesAtLeast_svnCommit h) (fun _ => rfl)
  case enterRma src tag sig =>
    cases hnext
    exact mailbox_keeps_fuse P h (fusesAtLeast_enterRma sig h) (fun t => by simp)
  case decommission src tag =>
    cases hnext
    exact mailbox_keeps_fuse P h (fusesAtLeast_decommission tag h) (fun t => by split <;> simp)

/-! ## The other commands leave the fuses -/

@[simp] theorem fuse_mailbox {src : Transport} {cmd : Nat} {tag : BitVec 16} {priv : Bool} {body : State → State × Nat × List Nat}
    {after : State → State} {s : State} (hbody : (body s).1.keys.fuse = s.keys.fuse)
    (hafter : ∀ t, (after t).keys.fuse = t.keys.fuse) :
    (mailbox src cmd tag priv body after s).keys.fuse = s.keys.fuse :=
  mailbox_keeps_fuse (· = s.keys.fuse) rfl hbody hafter

theorem gives_fuse_of_not_blowsFuse {c : Instr} (s : State) (hc : blowsFuse c = false) :
    Gives c s (fun t => t.keys.fuse = s.keys.fuse) := by
  by_cases hk : Area.keys ∈ writesOf c
  · cases c <;> simp [writesOf, blowsFuse] at hk hc <;> exact ⟨_, rfl, by simp [apply_ite Prod.fst]⟩
  · obtain ⟨t, hnext, -, hsame⟩ := framed c s
    exact ⟨t, hnext, congrArg Keys.fuse (hsame .keys hk)⟩

/-! ## Steps -/

/-- What the passing of a cycle and every command keep whatever waits in the queue, every step keeps. -/
theorem step_keeps (P : State → Prop) (hqueue : ∀ s q, P s → P { s with pending := q }) (hcycle : ∀ s, P s → P (advance 1 s))
    (hexec : ∀ c s, P s → Gives c s P) {s t : State} (h : P s) (hstep : step s = .next t) : P t := by
  unfold step at hstep
  split at hstep
  · cases hstep
    exact hcycle s h
  · next c rest _ => exact (gives_iff c _ t P hstep).mp (hexec c _ (hqueue s rest h))

/-- Settles O5: fuses are blown by three commands alone, each of which raises what it blows, and a step of the empty queue only lets
time pass. -/
theorem fusesNeverFall : Obligations.FusesNeverFall := by
  intro r l s t h hstep
  refine step_keeps (fusesAtLeast r l) (fun _ _ h => h) (fun s h => by simpa [fusesAtLeast] using h) (fun c s h => ?_) h hstep
  cases hc : blowsFuse c
  · obtain ⟨u, hnext, hfuse⟩ := gives_fuse_of_not_blowsFuse s hc
    exact ⟨u, hnext, by rwa [fusesAtLeast, hfuse]⟩
  · obtain ⟨u, hnext, -⟩ := framed c s
    exact ⟨u, hnext, fusesAtLeast_of_blowsFuse hc h hnext⟩

end Sys2Proof.Machine
end

section
/-!
PROOFS. Scope: every operation on the state keeps the table of operations in its canonical form.
-/

namespace Sys2Proof.Machine

set_option Elab.async false

/-- A table of operations is in canonical form: tags strictly rising, no entry without an operation. -/
def Canon (m : KMap (Option Op)) : Prop := KMap.wf opReset m = true

/-! ## Tables, choices and folds -/

@[simp] theorem canon_nil : Canon [] := rfl

@[simp] theorem canon_reset : Canon State.reset.ops := rfl

@[simp] theorem canon_put {m : KMap (Option Op)} (k : Nat) (o : Option Op) (hc : Canon m) : Canon (put opReset m k o) :=
  wf_put opReset m k o hc

@[simp] theorem canon_ite (c : Prop) [Decidable c] (a b : KMap (Option Op)) :
    Canon (if c then a else b) ↔ (c → Canon a) ∧ (¬c → Canon b) := by
  split <;> simp [*]

theorem canon_foldl {α : Type} (g : State → α → State) (l : List α) (s : State) (hc : Canon s.ops)
    (hg : ∀ a x, Canon a.ops → Canon (g a x).ops) : Canon (l.foldl g s).ops := by
  induction l generalizing s with
  | nil => exact hc
  | cons x r ih => exact ih _ (hg _ _ hc)

/-! ## Operation by operation, in the order of the model -/

@[simp] theorem canon_setOp (s : State) (t : Tag) (o : Option Op) (hc : Canon s.ops) : Canon (State.setOp s t o).ops := by
  simp [hc, State.setOp]

@[simp] theorem canon_finish (s : State) (t : Tag) (st : Byte) (res : Vector Word 6) (hc : Canon s.ops) :
    Canon (State.finish s t st res).ops := by
  unfold State.finish; (repeat' split) <;> simp [hc]

@[simp] theorem canon_phase (s : State) (t : Tag) (ph : OpPhase) (hc : Canon s.ops) : Canon (State.phase s t ph).ops := by
  unfold State.phase; (repeat' split) <;> simp [hc]

@[simp] theorem canon_abortOps (s : State) (p : Op → Bool) (st : Byte) (hc : Canon s.ops) :
    Canon (State.abortOps s p st).ops := by
  unfold State.abortOps
  exact canon_foldl _ _ _ hc fun a x ha => by simp [ha]

@[simp] theorem canon_afterChipReset (s : State) : Canon (State.afterChipReset s).ops := by
  simp [State.afterChipReset]

@[simp] theorem canon_chipReset (s : State) (cause : Nat) : Canon (State.chipReset s cause).ops := by
  simp [State.chipReset]

@[simp] theorem canon_State_toStandby (s : State) : Canon (State.toStandby s).ops := by
  simp [State.toStandby]

@[simp] theorem canon_zeroiseOne (s : State) (n : KeyNo) (hc : Canon s.ops) : Canon (zeroiseOne s n).ops := by
  simp [hc, zeroiseOne]

@[simp] theorem canon_zeroiseAll (s : State) (hc : Canon s.ops) : Canon (zeroiseAll s).ops := by
  unfold zeroiseAll
  exact canon_foldl _ _ _ hc fun a x ha => by simp [ha]

@[simp] theorem canon_sealModule (s : State) (hc : Canon s.ops) : Canon (sealModule s).ops := by
  simp [hc, sealModule]

@[simp] theorem canon_tamperSource (src : Fin 9) (s : State) (hc : Canon s.ops) : Canon (tamperSource src s).ops := by
  simp only [tamperSource]; (repeat' split) <;> simp [hc]

@[simp] theorem canon_noteHeld (s : State) (pg : Nat) (hc : Canon s.ops) : Canon (noteHeld s pg).ops := by
  unfold noteHeld
  exact canon_foldl _ _ _ hc fun a x ha => by simp [ha]

@[simp] theorem canon_holdPage (s : State) (pg : Nat) (on : Bool) (a : Access) (hc : Canon s.ops) :
    Canon (holdPage s pg on a).ops := by
  simp [hc, holdPage, apply_ite Page.regs, Page.captureLate]

@[simp] theorem canon_domainReset (d : Dom) (s : State) (hc : Canon s.ops) : Canon (domainReset d s).ops := by
  simp [hc, domainReset]

@[simp] theorem canon_rateSetDispatch (o : Op) (t : Tag) (late : Bool) (s : State) (hc : Canon s.ops) :
    Canon (rateSetDispatch o t late s).ops := by
  simp [hc, rateSetDispatch]

@[simp] theorem canon_rateSetOne (s : State) (r : RateReq) (hc : Canon s.ops) : Canon (State.rateSetOne s r).ops := by
  simp [hc, State.rateSetOne]

@[simp] theorem canon_rateSetDone (s : State) (h : Half) (d : Dom) (hc : Canon s.ops) : Canon (State.rateSetDone s h d).ops := by
  unfold State.rateSetDone
  exact canon_foldl _ _ _ hc fun a x ha => by simp [ha]

@[simp] theorem canon_doQCfg (s : State) (p : Part) (q : QNo) (v : Word) (hc : Canon s.ops) : Canon (doQCfg s p q v).ops := by
  simp [hc, doQCfg]

@[simp] theorem canon_entryFetch (p : Part) (q : QNo) (entry : Vector Word 16) (s : State) (hc : Canon s.ops) :
    Canon (entryFetch p q entry s).ops := by
  unfold entryFetch; (repeat' split) <;> simp [hc]

@[simp] theorem canon_opNop (t : Tag) (s : State) (hc : Canon s.ops) : Canon (opNop t s).ops := by
  unfold opNop; (repeat' split) <;> simp [hc]

@[simp] theorem canon_opFence (t : Tag) (s : State) (hc : Canon s.ops) : Canon (opFence t s).ops := by
  unfold opFence; (repeat' split) <;> simp [hc]

@[simp] theorem canon_fenceComplete (t : Tag) (s : State) (hc : Canon s.ops) : Canon (fenceComplete t s).ops := by
  unfold fenceComplete; (repeat' split) <;> simp [hc]

@[simp] theorem canon_completionWrite (p : Part) (q : QNo) (s : State) (hc : Canon s.ops) :
    Canon (completionWrite p q s).ops := by
  unfold completionWrite; (repeat' split) <;> simp [hc]

@[simp] theorem canon_opTimeRead (t : Tag) (s : State) (hc : Canon s.ops) : Canon (opTimeRead t s).ops := by
  unfold opTimeRead; (repeat' split) <;> simp [hc]

@[simp] theorem canon_keyOp (t : Tag) (o : Op) (data : HostRead) (replace : Bool) (s : State) (hc : Canon s.ops) :
    Canon (keyOp t o data replace s).ops := by
  simp only [keyOp]; (repeat' split) <;> simp [hc]

@[simp] theorem canon_opKeyDerive (t : Tag) (label : HostRead) (s : State) (hc : Canon s.ops) :
    Canon (opKeyDerive t label s).ops := by
  unfold opKeyDerive; (repeat' split) <;> simp [hc]

@[simp] theorem canon_opKeyReplace (t : Tag) (key : HostRead) (s : State) (hc : Canon s.ops) :
    Canon (opKeyReplace t key s).ops := by
  unfold opKeyReplace; (repeat' split) <;> simp [hc]

@[simp] theorem canon_opStatsSnapshot (t : Tag) (s : State) (hc : Canon s.ops) : Canon (opStatsSnapshot t s).ops := by
  unfold opStatsSnapshot; (repeat' split) <;> simp [hc]

@[simp] theorem canon_opLogRead (t : Tag) (s : State) (hc : Canon s.ops) : Canon (opLogRead t s).ops := by
  unfold opLogRead; (repeat' split) <;> simp [hc]

@[simp] theorem canon_pcieTimeout (t : Tag) (s : State) (hc : Canon s.ops) : Canon (pcieTimeout t s).ops := by
  unfold pcieTimeout; (repeat' split) <;> simp [hc]

@[simp] theorem canon_partitionReset (p : Part) (s : State) (hc : Canon s.ops) : Canon (partitionReset p s).ops := by
  have hcut : Canon (cutKeys (fun o => o.part == p) s).ops := by simp [hc]
  have hfold := canon_foldl (fun a e => (a.disarmTag e.1).setOp e.1 none) (s.opList.filter (fun e => e.2.part == p)) _ hcut
    (fun a e ha => by simp [ha])
  simpa [partitionReset] using hfold

@[simp] theorem canon_captureEdge (c : CapNo) (rising : Bool) (sub sinceNs : Nat) (s : State) (hc : Canon s.ops) :
    Canon (captureEdge c rising sub sinceNs s).ops := by
  simp only [captureEdge]; (repeat' split) <;> simp [hc]

@[simp] theorem canon_rearm (c : CapNo) (f : CapSt → CapSt) (s : State) (hc : Canon s.ops) : Canon (rearm c f s).ops := by
  unfold rearm; (repeat' split) <;> simp [hc]

@[simp] theorem canon_opEventArm (t : Tag) (s : State) (hc : Canon s.ops) : Canon (opEventArm t s).ops := by
  unfold opEventArm; (repeat' split) <;> simp [hc]

@[simp] theorem canon_fireAlarm (t : Tag) (o : Op) (past : Bool) (s : State) (hc : Canon s.ops) :
    Canon (fireAlarm t o past s).ops := by
  simp [hc, fireAlarm]

@[simp] theorem canon_opAlarmSet (t : Tag) (s : State) (hc : Canon s.ops) : Canon (opAlarmSet t s).ops := by
  unfold opAlarmSet; (repeat' split) <;> simp [hc]

@[simp] theorem canon_opAlarmCancel (t : Tag) (s : State) (hc : Canon s.ops) : Canon (opAlarmCancel t s).ops := by
  unfold opAlarmCancel; (repeat' split) <;> simp [hc]

@[simp] theorem canon_alarmFire (t : Tag) (s : State) (hc : Canon s.ops) : Canon (alarmFire t s).ops := by
  unfold alarmFire; (repeat' split) <;> simp [hc]

@[simp] theorem canon_settleLevel (j : JetNo) (s : State) (hc : Canon s.ops) : Canon (settleLevel j s).ops := by
  simp [hc, settleLevel]

@[simp] theorem canon_startJet (j : JetNo) (s : State) (hc : Canon s.ops) : Canon (startJet j s).ops := by
  simp [hc, startJet]

@[simp] theorem canon_stopJet (j : JetNo) (again : Bool) (s : State) (hc : Canon s.ops) : Canon (stopJet j again s).ops := by
  unfold stopJet; (repeat' split) <;> simp [hc]

@[simp] theorem canon_jetsOn (s : State) (hc : Canon s.ops) : Canon (jetsOn s).ops := by
  unfold jetsOn
  exact canon_foldl _ _ _ hc fun a x ha => by simp [ha]

@[simp] theorem canon_started (j : JetNo) (s : State) (hc : Canon s.ops) : Canon (started j s).ops := by
  simp [hc, started]

@[simp] theorem canon_jetBoundary (j : JetNo) (edge : Option (Int × Rat)) (s : State) (hc : Canon s.ops) :
    Canon (jetBoundary j edge s).ops := by
  simp only [jetBoundary]; (repeat' split) <;> simp [hc]

@[simp] theorem canon_jetPeriodEdge (j : JetNo) (sub : Nat) (s : State) (hc : Canon s.ops) :
    Canon (jetPeriodEdge j sub s).ops := by
  unfold jetPeriodEdge
  split
  · simp [hc]
  · dsimp only
    split <;> simp [hc]

@[simp] theorem canon_jetFallingEdge (j : JetNo) (s : State) (hc : Canon s.ops) : Canon (jetFallingEdge j s).ops := by
  unfold jetFallingEdge
  split
  · simp [hc]
  · split
    · simp [hc]
    · dsimp only
      (repeat' split) <;> simp [hc]

@[simp] theorem canon_jetRestart (j : JetNo) (s : State) (hc : Canon s.ops) : Canon (jetRestart j s).ops := by
  simp [hc, jetRestart]

@[simp] theorem canon_killJet (j : JetNo) (v : Nat) (s : State) (hc : Canon s.ops) : Canon (killJet j v s).ops := by
  simp [hc, killJet]

@[simp] theorem canon_jetsBeat (h : Half) (d : Dom) (moved : Option (Int × Bool)) (s : State) (hc : Canon s.ops) :
    Canon (jetsBeat h d moved s).ops := by
  unfold jetsBeat; (repeat' split) <;> simp [hc]

@[simp] theorem canon_reloadEngines (j : JetNo) (s : State) (hc : Canon s.ops) : Canon (reloadEngines j s).ops := by
  unfold reloadEngines
  exact canon_foldl _ _ _ hc fun a x ha => by simp [ha]

@[simp] theorem canon_jetsTd0 (s : State) (hc : Canon s.ops) : Canon (jetsTd0 s).ops := by
  unfold jetsTd0
  exact canon_foldl _ _ _ hc fun a x ha => by simp [ha]

@[simp] theorem canon_rejoinJet (j : JetNo) (t since : Rat) (dev : Rat) (s : State) (hc : Canon s.ops) :
    Canon (rejoinJet j t since dev s).ops := by
  simp [hc, rejoinJet]

@[simp] theorem canon_jetSwitch (j : JetNo) (holdPs sub : Nat) (devLast devNext : Int) (s : State) (hc : Canon s.ops) :
    Canon (jetSwitch j holdPs sub devLast devNext s).ops := by
  simp only [jetSwitch]; (repeat' split) <;> simp [hc]

@[simp] theorem canon_jetDriverBack (j : JetNo) (s : State) (hc : Canon s.ops) : Canon (jetDriverBack j s).ops := by
  simp [hc, jetDriverBack]

@[simp] theorem canon_resetJet (j : JetNo) (s : State) (hc : Canon s.ops) : Canon (resetJet j s).ops := by
  simp [hc, resetJet]

@[simp] theorem canon_finishSend (f : HostFrame) (discarded : Bool) (res : Vector Word 6) (s : State) (hc : Canon s.ops) :
    Canon (finishSend f discarded res s).ops := by
  unfold finishSend; (repeat' split) <;> simp [hc]

theorem canon_dropFrames {s : State} {p : PortNo} {which : HostFrame → Bool} {f : HostFrame → State → State}
    (hc : Canon s.ops) (hf : ∀ e a, Canon a.ops → Canon (f e a).ops) : Canon (s.dropFrames p which f).ops := by
  unfold State.dropFrames
  exact canon_foldl _ _ _ hc fun a e ha => hf _ _ (by split <;> simp [ha])

@[simp] theorem canon_discardFrames (s : State) (p : PortNo) (which : HostFrame → Bool) (hc : Canon s.ops) :
    Canon (State.discardFrames s p which).ops := by
  exact canon_dropFrames hc fun f a ha => by simp [ha]

@[simp] theorem canon_abortSends (p : PortNo) (st : Byte) (s : State) (hc : Canon s.ops) : Canon (abortSends p st s).ops := by
  unfold abortSends
  exact canon_foldl _ _ _ hc fun a x ha => by simp [ha]

@[simp] theorem canon_retrySends (s : State) (p : PortNo) (which : HostFrame → Bool) (hc : Canon s.ops) :
    Canon (State.retrySends s p which).ops := by
  unfold State.retrySends
  exact canon_foldl _ _ _ hc fun a x ha => by simp [ha]

@[simp] theorem canon_opPtpSend (t : Tag) (frame : HostRead) (s : State) (hc : Canon s.ops) :
    Canon (opPtpSend t frame s).ops := by
  unfold opPtpSend; (repeat' split) <;> simp [hc]

@[simp] theorem canon_hostLeaves (p : PortNo) (a : PathAB) (idx sub fec : Nat) (discarded : Bool) (s : State) (hc : Canon s.ops) :
    Canon (hostLeaves p a idx sub fec discarded s).ops := by
  unfold hostLeaves; (repeat' split) <;> simp [hc]

@[simp] theorem canon_stopPort (p : PortNo) (s : State) (hc : Canon s.ops) : Canon (stopPort p s).ops := by
  simp [hc, stopPort]

@[simp] theorem canon_settleConflicts (s : State) (hc : Canon s.ops) : Canon (settleConflicts s).ops := by
  unfold settleConflicts
  exact canon_foldl _ _ _ hc fun a x ha => by simp [ha]

@[simp] theorem canon_settlePorts (s : State) (hc : Canon s.ops) : Canon (settlePorts s).ops := by
  simp [hc, settlePorts]

@[simp] theorem canon_portsOff (s : State) (hc : Canon s.ops) : Canon (portsOff s).ops := by
  unfold portsOff
  exact canon_foldl _ _ _ hc fun a x ha => by simp [ha]

@[simp] theorem canon_portChanged (p : PortNo) (old s : State) (hc : Canon s.ops) : Canon (portChanged p old s).ops := by
  simp [hc, portChanged]

@[simp] theorem canon_portBoundary (p : PortNo) (s : State) (hc : Canon s.ops) : Canon (portBoundary p s).ops := by
  simp [hc, portBoundary]

@[simp] theorem canon_tdcCalDetection (pt : TdcPoint) (s : State) (hc : Canon s.ops) : Canon (tdcCalDetection pt s).ops := by
  unfold tdcCalDetection; (repeat' split) <;> simp [hc]

@[simp] theorem canon_portDetection (pg : PortPage) (det : Byte) (s : State) (hc : Canon s.ops) :
    Canon (portDetection pg det s).ops := by
  simp only [portDetection]; (repeat' split) <;> simp [hc]

@[simp] theorem canon_newSequence (s : State) (hc : Canon s.ops) : Canon (State.newSequence s).ops := by
  simp [hc, State.newSequence]

@[simp] theorem canon_freshStart (s : State) (h : Half) (hc : Canon s.ops) : Canon (freshStart s h).ops := by
  simp [hc, freshStart]

@[simp] theorem canon_restartHalf (s : State) (h : Half) (hc : Canon s.ops) : Canon (restartHalf s h).ops := by
  simp [hc, restartHalf]

@[simp] theorem canon_lockRole (s : State) (h : Half) (hc : Canon s.ops) : Canon (lockRole s h).ops := by
  simp [hc, lockRole]

@[simp] theorem canon_commonClock (s : State) (h : Half) (hc : Canon s.ops) : Canon (State.commonClock s h).ops := by
  simp [hc, State.commonClock]

@[simp] theorem canon_lathLock (h : Half) (s : State) (hc : Canon s.ops) : Canon (lathLock h s).ops := by
  simp [hc, lathLock]

@[simp] theorem canon_opCookieMint (t : Tag) (keys : HostRead) (s : State) (hc : Canon s.ops) :
    Canon (opCookieMint t keys s).ops := by
  unfold opCookieMint
  split
  · simp [hc]
  · dsimp only
    (repeat' split) <;> first | (next hu => simp [hc, keeps_useAes _ _ _ _ hu]) | simp [hc]

@[simp] theorem canon_noClaim (s : State) (hc : Canon s.ops) : Canon (State.noClaim s).ops := by
  unfold State.noClaim; (repeat' split) <;> simp [hc]

@[simp] theorem canon_newClaims (s : State) (h : Half) (c : Option (BitVec 8)) (hc : Canon s.ops) :
    Canon (State.newClaims s h c).ops := by
  simp [hc, State.newClaims]

@[simp] theorem canon_peerGone (h : Half) (s : State) (hc : Canon s.ops) : Canon (peerGone h s).ops := by
  unfold peerGone; (repeat' split) <;> simp [hc]

@[simp] theorem canon_claimChange (h : Half) (s : State) (hc : Canon s.ops) : Canon (claimChange h s).ops := by
  simp [hc, claimChange]

@[simp] theorem canon_withdrawClaim (h : Half) (s : State) (hc : Canon s.ops) : Canon (withdrawClaim h s).ops := by
  simp [hc, withdrawClaim]

@[simp] theorem canon_claimParityError (h : Half) (s : State) (hc : Canon s.ops) : Canon (claimParityError h s).ops := by
  simp [hc, claimParityError]

@[simp] theorem canon_claimParityClear (h : Half) (s : State) (hc : Canon s.ops) : Canon (claimParityClear h s).ops := by
  simp [hc, claimParityClear]

@[simp] theorem canon_switchBus (s : State) (hc : Canon s.ops) : Canon (switchBus s).ops := by
  unfold switchBus; (repeat' split) <;> simp [hc]

@[simp] theorem canon_resyncOrder (s : State) (hc : Canon s.ops) : Canon (resyncOrder s).ops := by
  have hfold (c : State → Half → Prop) [∀ z h, Decidable (c z h)] (f : HalfSt → HalfSt) :
      Canon (allHalves.foldl (fun z h => (if c z h then restartHalf z h else z).modHalf h f) s).ops :=
    canon_foldl _ _ _ hc fun z h hz => by simp [hz]
  simp only [resyncOrder]
  (repeat' split) <;> simp [hc, hfold]

@[simp] theorem canon_linkLostHalf (h : Half) (s : State) (hc : Canon s.ops) : Canon (linkLostHalf h s).ops := by
  simp only [linkLostHalf]; (repeat' split) <;> simp [hc]

@[simp] theorem canon_linkLost (s : State) (hc : Canon s.ops) : Canon (linkLost s).ops := by
  simp [hc, linkLost]

@[simp] theorem canon_halfDetection (det : Byte) (s : State) (hc : Canon s.ops) : Canon (halfDetection det s).ops := by
  simp [hc, halfDetection]

@[simp] theorem canon_halfBeat (h : Half) (d : Dom) (xoPhase : Int) (s : State) (hc : Canon s.ops) :
    Canon (halfBeat h d xoPhase s).ops := by
  simp [hc, halfBeat]

@[simp] theorem canon_packetBoundary (p : PortNo) (s : State) (hc : Canon s.ops) : Canon (packetBoundary p s).ops := by
  simp [hc, packetBoundary]

@[simp] theorem canon_commonBeat (h : Half) (d : Dom) (moved : Option (Int × Bool)) (s : State) (hc : Canon s.ops) :
    Canon (commonBeat h d moved s).ops := by
  simp [hc, commonBeat]

@[simp] theorem canon_beatBoundary (h : Half) (d : Dom) (xoPhase : Int) (s : State) (hc : Canon s.ops) :
    Canon (beatBoundary h d xoPhase s).ops := by
  simp [hc, beatBoundary]

@[simp] theorem canon_opRateSet (r : RateWrite) (s : State) (hc : Canon s.ops) : Canon (opRateSet r s).ops := by
  unfold opRateSet; (repeat' split) <;> simp [hc]

@[simp] theorem canon_frameTransmitted (p : PortNo) (a : PathAB) (k : TxKind) (sub fec : Nat) (discarded : Bool) (s : State)
    (hc : Canon s.ops) :
    Canon (frameTransmitted p a k sub fec discarded s).ops := by
  unfold frameTransmitted; (repeat' split) <;> simp [hc]

@[simp] theorem canon_bootTampers (fuseOk : Bool) (s : State) (hc : Canon s.ops) : Canon (bootTampers fuseOk s).ops := by
  simp only [bootTampers]; (repeat' split) <;> simp [hc]

@[simp] theorem canon_bootSeal (s : State) (hc : Canon s.ops) : Canon (bootSeal s).ops := by
  simp only [bootSeal]; (repeat' split) <;> simp [hc]

@[simp] theorem canon_bootRomStart (fuseOk : Bool) (s : State) (hc : Canon s.ops) : Canon (bootRomStart fuseOk s).ops := by
  unfold bootRomStart; (repeat' split) <;> simp [hc]

@[simp] theorem canon_applyStartup (s : State) (hc : Canon s.ops) : Canon (applyStartup s).ops := by
  unfold applyStartup
  split
  · exact hc
  · exact canon_foldl _ _ _ (canon_foldl _ _ _ (canon_foldl _ _ _ hc fun a x ha => by simp [ha]) fun a x ha => by simp [ha])
      fun a x ha => by simp [ha]

@[simp] theorem canon_measuredBoot (s : State) (hc : Canon s.ops) : Canon (measuredBoot s).ops := by
  unfold measuredBoot; (repeat' split) <;> simp [hc]

@[simp] theorem canon_lifecycleTo (n : Nat) (s : State) (hc : Canon s.ops) : Canon (lifecycleTo n s).ops := by
  simp [hc, lifecycleTo]

@[simp] theorem canon_enterRma (sig : List Byte) (s : State) (hc : Canon s.ops) : Canon (enterRma sig s).1.ops := by
  simp only [enterRma]; (repeat' split) <;> simp [hc]

@[simp] theorem canon_decommission (tag : BitVec 16) (s : State) (hc : Canon s.ops) : Canon (decommission tag s).1.ops := by
  unfold decommission; (repeat' split) <;> simp [hc]

@[simp] theorem canon_settleAll (s : State) (hc : Canon s.ops) : Canon (settleAll s).ops := by
  simp [hc, settleAll]

@[simp] theorem canon_abortEngine (pg : Nat) (st : Byte) (s : State) (hc : Canon s.ops) : Canon (abortEngine pg st s).ops := by
  unfold abortEngine
  exact canon_foldl _ _ _ hc fun a x ha => by simp [ha]

@[simp] theorem canon_timeOut (t : Option Tag) (s : State) (hc : Canon s.ops) : Canon (timeOut t s).ops := by
  unfold timeOut; (repeat' split) <;> simp [hc]

@[simp] theorem canon_clearPort (p : PortNo) (s : State) (hc : Canon s.ops) : Canon (clearPort p s).ops := by
  simp [hc, clearPort]

@[simp] theorem canon_resetBlock (pg : Nat) (s : State) (hc : Canon s.ops) : Canon (resetBlock pg s).ops := by
  unfold resetBlock; (repeat' split) <;> simp [hc]

@[simp] theorem canon_blockReset (src : Nat) (s : State) (hc : Canon s.ops) : Canon (blockReset src s).ops := by
  unfold blockReset; (repeat' split) <;> simp [hc]

@[simp] theorem canon_react (src pg sev : Nat) (s : State) (hc : Canon s.ops) : Canon (react src pg sev s).ops := by
  simp only [react]; (repeat' split) <;> simp [hc]

@[simp] theorem canon_acceptMsg (k : Nat) (s : State) (hc : Canon s.ops) : Canon (acceptMsg k s).ops := by
  unfold acceptMsg; (repeat' split) <;> simp [hc]

@[simp] theorem canon_loseBank (k : Nat) (det : Byte) (s : State) (hc : Canon s.ops) : Canon (loseBank k det s).ops := by
  unfold loseBank; (repeat' split) <;> simp [hc]

@[simp] theorem canon_unitResult (k : Nat) (det : Byte) (lasting : Bool) (s : State) (hc : Canon s.ops) :
    Canon (unitResult k det lasting s).ops := by
  unfold unitResult; (repeat' split) <;> simp [hc]

@[simp] theorem canon_selftestResult (k : Nat) (det : Byte) (pass : Bool) (s : State) (hc : Canon s.ops) :
    Canon (selftestResult k det pass s).ops := by
  have hunit (lasting : Bool) (t : State) (ht : Canon t.ops) : Canon (settleAll (unitResult k det lasting t)).ops := by simp [ht]
  simp only [selftestResult]
  (repeat' split) <;> simp [hc, hunit]

@[simp] theorem canon_retestUnit (k : Nat) (det : Byte) (pass : Bool) (s : State) (hc : Canon s.ops) :
    Canon (retestUnit k det pass s).ops := by
  simp [hc, retestUnit]

@[simp] theorem canon_resetEngine (k : Nat) (t : Option Tag) (s : State) (hc : Canon s.ops) : Canon (resetEngine k t s).ops := by
  unfold resetEngine; (repeat' split) <;> simp [hc]

@[simp] theorem canon_engineWatchdog (k : Nat) (s : State) (hc : Canon s.ops) : Canon (engineWatchdog k s).ops := by
  simp only [engineWatchdog]; (repeat' split) <;> simp [hc]

@[simp] theorem canon_queueOpTimeout (t : Tag) (s : State) (hc : Canon s.ops) : Canon (queueOpTimeout t s).ops := by
  unfold queueOpTimeout; (repeat' split) <;> simp [hc]

@[simp] theorem canon_flushCrossing (p : Part) (lost : Nat) (s : State) (hc : Canon s.ops) :
    Canon (flushCrossing p lost s).ops := by
  have hdraw (n : Nat) : Canon (s.draw n).2.ops := by simp [hc]
  have hfold (n : Nat) (l : List (Tag × Op)) := canon_foldl (fun a e => a.finish e.1 stAbortFlush) l _ (hdraw n)
    (fun a e ha => by simp [ha])
  simpa [flushCrossing] using hfold _ _

@[simp] theorem canon_crossingTimeout (p : Part) (lost : Nat) (s : State) (hc : Canon s.ops) :
    Canon (crossingTimeout p lost s).ops := by
  simp [hc, crossingTimeout]

@[simp] theorem canon_hpDetection (p : Part) (det : Byte) (s : State) (hc : Canon s.ops) : Canon (hpDetection p det s).ops := by
  unfold hpDetection; (repeat' split) <;> simp [hc]

@[simp] theorem canon_retryKey (t : Tag) (o : Op) (how : Nat) (s : State) (hc : Canon s.ops) :
    Canon (retryKey t o how s).ops := by
  simp [hc, retryKey]

@[simp] theorem canon_keyDetection (det : Byte) (slot : KeyNo) (s : State) (hc : Canon s.ops) :
    Canon (keyDetection det slot s).ops := by
  have hfault (pl k : Nat) (loc : BitVec 24) : Canon (s.fault pl pgKey k (kindSev k) det loc).ops := by simp [hc]
  have hretry (l : List (Tag × Op)) (u : State) (hu : Canon u.ops) :=
    canon_foldl (fun a e => retryKey e.1 e.2 (a.draw 3).1 (a.draw 3).2) l u hu fun a e ha => by simp [ha]
  simp only [keyDetection]; (repeat' split) <;> simp [hc, hretry]

@[simp] theorem canon_detect (pg : Nat) (det : Byte) (loc : Nat) (s : State) (hc : Canon s.ops) :
    Canon (detect pg det loc s).ops := by
  unfold detect; (repeat' split) <;> simp [hc]

@[simp] theorem canon_faultDetection (pl : Place) (pg : Nat) (det : Byte) (loc : BitVec 24) (s : State) (hc : Canon s.ops) :
    Canon (faultDetection pl pg det loc s).ops := by
  unfold faultDetection; (repeat' split) <;> simp [hc]

@[simp] theorem canon_partitionResetBy (p : Part) (k : PartReset) (s : State) (hc : Canon s.ops) :
    Canon (partitionResetBy p k s).ops := by
  unfold partitionResetBy
  split
  · cases k <;> simp [hc]
  · exact hc

@[simp] theorem canon_powerFail (s : State) (h : Half) (hc : Canon s.ops) : Canon (powerFail s h).ops := by
  unfold powerFail; (repeat' split) <;> simp [hc]

@[simp] theorem canon_feedLost (f : Half) (s : State) (hc : Canon s.ops) : Canon (feedLost f s).ops := by
  simp only [feedLost]; (repeat' split) <;> simp [hc]

@[simp] theorem canon_breakerTrip (f : Half) (s : State) (hc : Canon s.ops) : Canon (breakerTrip f s).ops := by
  unfold breakerTrip; (repeat' split) <;> simp [hc]

@[simp] theorem canon_resetN (low : Bool) (s : State) (hc : Canon s.ops) : Canon (resetN low s).ops := by
  unfold resetN; (repeat' split) <;> simp [hc]

@[simp] theorem canon_thermTrip (h : Half) (s : State) (hc : Canon s.ops) : Canon (thermTrip h s).ops := by
  simp [hc, thermTrip]

@[simp] theorem canon_thermCommon (s : State) (hc : Canon s.ops) : Canon (thermCommon s).ops := by
  unfold thermCommon; (repeat' split) <;> simp [hc]

@[simp] theorem canon_abortReset (pg : Nat) (s : State) (hc : Canon s.ops) : Canon (abortReset pg s).ops := by
  simp [hc, abortReset]

@[simp] theorem canon_resetTd (d : Dom) (s : State) (hc : Canon s.ops) : Canon (resetTd d s).ops := by
  simp [hc, resetTd]

@[simp] theorem canon_resetBeyond (pg : Nat) (s : State) (hc : Canon s.ops) : Canon (resetBeyond pg s).ops := by
  have hstop (n : PortNo) : Canon (stopPort n (abortReset pg s)).ops := by simp [hc]
  unfold resetBeyond; (repeat' split) <;> simp [hc, hstop]

@[simp] theorem canon_softReset (pg : Nat) (s : State) (hc : Canon s.ops) : Canon (softReset pg s).ops := by
  simp [hc, softReset]

@[simp] theorem canon_requestReset (pg : Nat) (s : State) (hc : Canon s.ops) : Canon (requestReset pg s).ops := by
  simp [hc, requestReset]

@[simp] theorem canon_pageSoftReset (pg : Nat) (s : State) (hc : Canon s.ops) : Canon (pageSoftReset pg s).ops := by
  simp [hc, pageSoftReset]

@[simp] theorem canon_writeEn (pg : Nat) (on : Bool) (s : State) (hc : Canon s.ops) : Canon (writeEn pg on s).ops := by
  unfold writeEn; (repeat' split) <;> simp [hc]

@[simp] theorem canon_writeCtl (pg : Nat) (v : Word) (s : State) (hc : Canon s.ops) : Canon (writeCtl pg v s).ops := by
  simp [hc, writeCtl]

@[simp] theorem canon_clearFault (pg : Nat) (s : State) (hc : Canon s.ops) : Canon (clearFault pg s).ops := by
  unfold clearFault; (repeat' split) <;> simp [hc]

@[simp] theorem canon_writeInj (pg : Nat) (v : Word) (s : State) (hc : Canon s.ops) : Canon (writeInj pg v s).ops := by
  simp only [writeInj]; (repeat' split) <;> simp [hc]

@[simp] theorem canon_nowInForce (pg : Nat) (ws : KMap Word) (s s1 : State) (hc : Canon s1.ops) :
    Canon (nowInForce pg ws s s1).ops := by
  have hport (n : PortNo) : Canon (portChanged n s s1).ops := by simp [hc]
  unfold nowInForce; (repeat' split) <;> simp [hc, hport]

@[simp] theorem canon_writeApply (pg : Nat) (v : Word) (a : Access) (s : State) (hc : Canon s.ops) :
    Canon (writeApply pg v a s).ops := by
  simp [hc, writeApply]

@[simp] theorem canon_writeBuffered (pg : Nat) (ws : List (Nat × Word × Word)) (a : Access) (s : State) (hc : Canon s.ops) :
    Canon (writeBuffered pg ws a s).ops := by
  unfold writeBuffered; (repeat' split) <;> simp [hc]

@[simp] theorem canon_writeHp (p : Part) (o : Nat) (v m : Word) (s : State) (hc : Canon s.ops) :
    Canon (writeHp p o v m s).ops := by
  simp [hc, writeHp]

@[simp] theorem canon_writeFlt (o : Nat) (v m : Word) (x : Beside) (s : State) (hc : Canon s.ops) :
    Canon (writeFlt o v m x s).ops := by
  unfold writeFlt; (repeat' split) <;> simp [hc]

@[simp] theorem canon_writeHeader (a : Access) (pg o : Nat) (v : Word) (x : Beside) (s : State) (hc : Canon s.ops) :
    Canon (writeHeader a pg o v x s).ops := by
  unfold writeHeader; (repeat' split) <;> simp [hc]

@[simp] theorem canon_writeWord (a : Access) (x : Beside) (addr : Nat) (v : Word) (s : State) (hc : Canon s.ops) :
    Canon (writeWord a x addr v s).ops := by
  simp only [writeWord]; (repeat' split) <;> simp [hc]

@[simp] theorem canon_hostWrite (a : Access) (off : Nat) (v : BitVec 64) (x : Beside) (s : State) (hc : Canon s.ops) :
    Canon (hostWrite a off v x s).ops := by
  simp only [hostWrite]; (repeat' split) <;> simp [hc]

@[simp] theorem canon_rowWrite (a : Access) (pg o : Nat) (v : Word) (s : State) (x : Beside) (hc : Canon s.ops) :
    Canon (rowWrite a pg o v s x).ops := by
  simp [hc, rowWrite]

@[simp] theorem canon_hostAccess (a : Access) (off : Nat) (v : Option (BitVec 64)) (s : State) (hc : Canon s.ops) :
    Canon (hostAccess a off v s).ops := by
  unfold hostAccess; (repeat' split) <;> simp [hc]

end Sys2Proof.Machine
end

section
/-!
PROOFS. Scope: every operation on the state but those of a firmware update leaves the boot flash, and every step keeps
the table of operations and the flash in canonical form (settles O6).
-/

namespace Sys2Proof.Machine

set_option Elab.async false

/-! ## Choices and folds -/

@[simp] theorem flash_ite (c : Prop) [Decidable c] (a b : Mgt) :
    (if c then a else b).flash = if c then a.flash else b.flash := by
  split <;> rfl

@[simp] theorem flash_foldl {α : Type} (g : State → α → State) (l : List α) (s : State)
    (h : ∀ a x, (g a x).mgt.flash = a.mgt.flash) : (l.foldl g s).mgt.flash = s.mgt.flash := by
  induction l generalizing s with
  | nil => rfl
  | cons x r ih => rw [List.foldl_cons, ih, h]

@[simp] theorem flash_foldr {α : Type} (g : α → State → State) (l : List α) (s : State)
    (h : ∀ a x, (g x a).mgt.flash = a.mgt.flash) : (l.foldr g s).mgt.flash = s.mgt.flash := by
  induction l with
  | nil => rfl
  | cons x r ih => rw [List.foldr_cons, h, ih]

/-! ## Operation by operation, in the order of the model -/

@[simp] theorem flash_storeRec (s : State) (r : LogRec) : (State.storeRec s r).mgt.flash = s.mgt.flash := by
  simp [State.storeRec]

@[simp] theorem flash_afterChipReset (s : State) : (State.afterChipReset s).mgt.flash = s.mgt.flash := by
  simp [State.afterChipReset]

@[simp] theorem flash_logPower (s : State) (lastGasp : Bool) : (State.logPower s lastGasp).mgt.flash = s.mgt.flash := by
  simp [State.logPower]

@[simp] theorem flash_chipReset (s : State) (cause : Nat) : (State.chipReset s cause).mgt.flash = s.mgt.flash := by
  simp [State.chipReset]

@[simp] theorem flash_State_toStandby (s : State) : (State.toStandby s).mgt.flash = s.mgt.flash := by
  simp [State.toStandby]

@[simp] theorem flash_logKey (s : State) (n : KeyNo) (ev : Nat) (gen : Word) :
    (State.logKey s n ev gen).mgt.flash = s.mgt.flash := by
  simp [State.logKey]

@[simp] theorem flash_loadSlot (s : State) (n : KeyNo) : (loadSlot s n).mgt.flash = s.mgt.flash := by
  simp only [loadSlot]; (repeat' split) <;> simp

@[simp] theorem flash_loadStore (s : State) : (loadStore s).mgt.flash = s.mgt.flash := by
  unfold loadStore; (repeat' split) <;> simp

@[simp] theorem flash_commitKey (s : State) (n : KeyNo) (attr : Word) (imported : Bool) (body : List Byte) :
    (commitKey s n attr imported body).mgt.flash = s.mgt.flash := by
  simp [commitKey]

@[simp] theorem flash_zeroiseSlot (s : State) (n : KeyNo) : (zeroiseSlot s n).mgt.flash = s.mgt.flash := by
  simp [zeroiseSlot]

@[simp] theorem flash_zeroiseOne (s : State) (n : KeyNo) : (zeroiseOne s n).mgt.flash = s.mgt.flash := by
  simp [zeroiseOne]

@[simp] theorem flash_zeroiseAll (s : State) : (zeroiseAll s).mgt.flash = s.mgt.flash := by
  simp [zeroiseAll]

@[simp] theorem flash_tamperSource (src : Fin 9) (s : State) : (tamperSource src s).mgt.flash = s.mgt.flash := by
  simp only [tamperSource]; (repeat' split) <;> simp

@[simp] theorem flash_eraseComplete (s : State) : (eraseComplete s).mgt.flash = s.mgt.flash := by
  unfold eraseComplete; (repeat' split) <;> simp

@[simp] theorem flash_lathEvt (s : State) (h : Half) (b : Nat) : (State.lathEvt s h b).mgt.flash = s.mgt.flash := by
  simp [State.lathEvt]

@[simp] theorem flash_slotEvt (s : State) (h : Half) (n : SlotNo) (b : Nat) :
    (State.slotEvt s h n b).mgt.flash = s.mgt.flash := by
  simp [State.slotEvt]

@[simp] theorem flash_stepSeen (s : State) (h : Half) (n : SlotNo) : (State.stepSeen s h n).mgt.flash = s.mgt.flash := by
  simp [State.stepSeen]

@[simp] theorem flash_observeIn (h : Half) (n : SlotNo) (d : Dom) (m : PulseMark) (raw : Int) (s : State) :
    (observeIn h n d m raw s).mgt.flash = s.mgt.flash := by
  simp [observeIn]

@[simp] theorem flash_adoptDone (s : State) (h : Half) (n : SlotNo) : (State.adoptDone s h n).mgt.flash = s.mgt.flash := by
  simp [State.adoptDone]

@[simp] theorem flash_observeRaw (h : Half) (n : SlotNo) (r : Option Int) (d : Dom) (s : State) :
    (observeRaw h n r d s).mgt.flash = s.mgt.flash := by
  unfold observeRaw; (repeat' split) <;> simp

@[simp] theorem flash_observe (h : Half) (n : SlotNo) (raw : List Int) (s : State) :
    (observe h n raw s).mgt.flash = s.mgt.flash := by
  simp [observe]

@[simp] theorem flash_labelIn (h : Half) (n : SlotNo) (sec : Nat) (p : Option PulseMark) (d : Dom) (s : State) :
    (labelIn h n sec p d s).mgt.flash = s.mgt.flash := by
  unfold labelIn; (repeat' split) <;> simp

@[simp] theorem flash_labelPulse (h : Half) (n : SlotNo) (sec : Nat) (s : State) :
    (labelPulse h n sec s).mgt.flash = s.mgt.flash := by
  simp [labelPulse]

@[simp] theorem flash_pulseSeen (h : Half) (n : SlotNo) (raw : List Int) (s : State) :
    (pulseSeen h n raw s).mgt.flash = s.mgt.flash := by
  unfold pulseSeen; (repeat' split) <;> simp

@[simp] theorem flash_slotObservation (h : Half) (n : SlotNo) (clk : Bool) (raw : List Int) (s : State) :
    (slotObservation h n clk raw s).mgt.flash = s.mgt.flash := by
  simp [slotObservation]

@[simp] theorem flash_enterSlot (s0 : State) (h : Half) (n : SlotNo) (st cause : Nat) :
    (State.enterSlot s0 h n st cause).mgt.flash = s0.mgt.flash := by
  simp [State.enterSlot]

@[simp] theorem flash_adoptAct (h : Half) (n : SlotNo) (s : State) : (adoptAct h n s).mgt.flash = s.mgt.flash := by
  simp [adoptAct]

@[simp] theorem flash_requalAct (h : Half) (n : SlotNo) (s : State) : (requalAct h n s).mgt.flash = s.mgt.flash := by
  simp [requalAct]

@[simp] theorem flash_slotBoundary (h : Half) (n : SlotNo) (s : State) : (slotBoundary h n s).mgt.flash = s.mgt.flash := by
  simp only [slotBoundary]; (repeat' split) <;> simp

@[simp] theorem flash_delayStep (s : State) (h : Half) (n : SlotNo) (dlt : Rat) :
    (State.delayStep s h n dlt).mgt.flash = s.mgt.flash := by
  simp [State.delayStep]

@[simp] theorem flash_todErr (s : State) (h : Half) (n : SlotNo) : (State.todErr s h n).mgt.flash = s.mgt.flash := by
  simp [State.todErr]

@[simp] theorem flash_todLate (s : State) (h : Half) (n : SlotNo) : (State.todLate s h n).mgt.flash = s.mgt.flash := by
  simp [State.todLate]

@[simp] theorem flash_delayDetected (s : State) (h : Half) (n : SlotNo) :
    (State.delayDetected s h n).mgt.flash = s.mgt.flash := by
  simp [State.delayDetected]

@[simp] theorem flash_todDetected (s : State) (h : Half) (n : SlotNo) : (State.todDetected s h n).mgt.flash = s.mgt.flash := by
  simp [State.todDetected]

@[simp] theorem flash_slotDetected (h : Half) (n : SlotNo) (timey : Bool) (det : Nat) (s : State) :
    (slotDetected h n timey det s).mgt.flash = s.mgt.flash := by
  unfold slotDetected; (repeat' split) <;> simp

@[simp] theorem flash_slotMonitorHalf (h : Half) (n : SlotNo) (det : Nat) (s : State) :
    (slotMonitorHalf h n det s).mgt.flash = s.mgt.flash := by
  simp [slotMonitorHalf]

@[simp] theorem flash_slotInjected (h : Half) (n : SlotNo) (s : State) : (slotInjected h n s).mgt.flash = s.mgt.flash := by
  simp [slotInjected]

@[simp] theorem flash_slotsBoundary (h : Half) (d : Dom) (s : State) : (slotsBoundary h d s).mgt.flash = s.mgt.flash := by
  simp [slotsBoundary]

@[simp] theorem flash_adopt (n : SlotNo) (s : State) : (adopt n s).mgt.flash = s.mgt.flash := by
  simp [adopt]

@[simp] theorem flash_requal (n : SlotNo) (s : State) : (requal n s).mgt.flash = s.mgt.flash := by
  simp [requal]

@[simp] theorem flash_setLeap (s : State) (h : Half) (n : SlotNo) (tai : Nat) :
    (State.setLeap s h n tai).mgt.flash = s.mgt.flash := by
  simp [State.setLeap]

@[simp] theorem flash_leapReg (h : Half) (n : SlotNo) (s t : State) : (leapReg h n s t).mgt.flash = t.mgt.flash := by
  simp [leapReg]

@[simp] theorem flash_todSecond (h : Half) (n : SlotNo) (l : TodLabel) (s : State) :
    (todSecond h n l s).mgt.flash = s.mgt.flash := by
  simp only [todSecond]; (repeat' split) <;> simp

@[simp] theorem flash_todSentence (h : Half) (n : SlotNo) (zda : Bool) (l : TodLabel) (s : State) :
    (todSentence h n zda l s).mgt.flash = s.mgt.flash := by
  simp [todSentence]

@[simp] theorem flash_todOffset (h : Half) (n : SlotNo) (o : Nat) (s : State) : (todOffset h n o s).mgt.flash = s.mgt.flash := by
  simp [todOffset]

@[simp] theorem flash_todMessage (h : Half) (k : Fin 2) (m : TodMsg) (gapNs : Nat) (s : State) :
    (todMessage h k m gapNs s).mgt.flash = s.mgt.flash := by
  simp only [todMessage]; (repeat' split) <;> simp

@[simp] theorem flash_atomLabel (h : Half) (timeMode : Bool) (sec : Option Nat) (s : State) :
    (atomLabel h timeMode sec s).mgt.flash = s.mgt.flash := by
  unfold atomLabel; (repeat' split) <;> simp

@[simp] theorem flash_atomTelemetry (h : Half) (line : List Byte) (gapNs : Nat) (s : State) :
    (atomTelemetry h line gapNs s).mgt.flash = s.mgt.flash := by
  unfold atomTelemetry; (repeat' split) <;> simp

@[simp] theorem flash_pathDelay (h : Half) (n : SlotNo) (delay : Rat) (s : State) :
    (pathDelay h n delay s).mgt.flash = s.mgt.flash := by
  simp [pathDelay]

@[simp] theorem flash_keyOp (t : Tag) (o : Op) (data : HostRead) (replace : Bool) (s : State) :
    (keyOp t o data replace s).mgt.flash = s.mgt.flash := by
  simp only [keyOp]; (repeat' split) <;> simp

@[simp] theorem flash_opKeyDerive (t : Tag) (label : HostRead) (s : State) : (opKeyDerive t label s).mgt.flash = s.mgt.flash := by
  unfold opKeyDerive; (repeat' split) <;> simp

@[simp] theorem flash_opKeyReplace (t : Tag) (key : HostRead) (s : State) : (opKeyReplace t key s).mgt.flash = s.mgt.flash := by
  unfold opKeyReplace; (repeat' split) <;> simp

@[simp] theorem flash_xoLockTimeout (h : Half) (s : State) : (xoLockTimeout h s).mgt.flash = s.mgt.flash := by
  simp [xoLockTimeout]

@[simp] theorem flash_lathFail (h : Half) (s : State) : (lathFail h s).mgt.flash = s.mgt.flash := by
  simp [lathFail]

@[simp] theorem flash_afterLoss (h : Half) (l : Lath) (s : State) : (afterLoss h l s).mgt.flash = s.mgt.flash := by
  unfold afterLoss; (repeat' split) <;> simp

@[simp] theorem flash_loseMosc (h : Half) (ev det : Nat) (inj : Bool) (s : State) :
    (loseMosc h ev det inj s).mgt.flash = s.mgt.flash := by
  simp [loseMosc]

@[simp] theorem flash_moscLost (h : Half) (s : State) : (moscLost h s).mgt.flash = s.mgt.flash := by
  simp [moscLost]

@[simp] theorem flash_lockLost (h : Half) (s : State) : (lockLost h s).mgt.flash = s.mgt.flash := by
  simp [lockLost]

@[simp] theorem flash_xoFalls (h : Half) (s : State) : (xoFalls h s).mgt.flash = s.mgt.flash := by
  simp [xoFalls]

@[simp] theorem flash_xoBad (h : Half) (s : State) : (xoBad h s).mgt.flash = s.mgt.flash := by
  simp [xoBad]

@[simp] theorem flash_changeSource (h : Half) (y : Int) (unc : Rat) (coastNs : Nat) (offset : BitVec 10)
    (toPrim : Bool) (s : State) :
    (changeSource h y unc coastNs offset toPrim s).mgt.flash = s.mgt.flash := by
  simp [changeSource]

@[simp] theorem flash_toStandby (h : Half) (coastNs : Nat) (offset : BitVec 10) (s : State) :
    (toStandby h coastNs offset s).mgt.flash = s.mgt.flash := by
  simp [toStandby]

@[simp] theorem flash_moscQualWindow (h : Half) (y : Int) (s : State) : (moscQualWindow h y s).mgt.flash = s.mgt.flash := by
  simp [moscQualWindow]

@[simp] theorem flash_toPrimary (h : Half) (offset : BitVec 10) (s : State) : (toPrimary h offset s).mgt.flash = s.mgt.flash := by
  simp [toPrimary]

@[simp] theorem flash_xoBeat (h : Half) (phase : Int) (s : State) : (xoBeat h phase s).mgt.flash = s.mgt.flash := by
  simp [xoBeat]

@[simp] theorem flash_halfResetEnd (h : Half) (s : State) : (halfResetEnd h s).mgt.flash = s.mgt.flash := by
  unfold halfResetEnd; (repeat' split) <;> simp

@[simp] theorem flash_exchangeIn (h : Half) (n : SlotNo) (x : Exchange) (asym : Int) (t : Option (Int × Int)) (d : Dom)
    (s : State) :
    (exchangeIn h n x asym t d s).mgt.flash = s.mgt.flash := by
  unfold exchangeIn; (repeat' split) <;> simp

@[simp] theorem flash_observeExchange (h : Half) (n : SlotNo) (x : Exchange) (asym : Int) (q : DreqSent) (s : State) :
    (observeExchange h n x asym q s).mgt.flash = s.mgt.flash := by
  simp [observeExchange]

@[simp] theorem flash_delayIn (h : Half) (n : SlotNo) (x : Exchange) (t : Option (Int × Int)) (s : State) :
    (delayIn h n x t s).mgt.flash = s.mgt.flash := by
  unfold delayIn; (repeat' split) <;> simp

@[simp] theorem flash_takeExchange (h : Half) (n : SlotNo) (x : Exchange) (asym : Int) (b : Code) (q : DreqSent) (s : State) :
    (takeExchange h n x asym b q s).mgt.flash = s.mgt.flash := by
  simp [takeExchange]

@[simp] theorem flash_inView (s : State) (h : Half) (f : State → State) (hf : ∀ t, (f t).mgt.flash = t.mgt.flash) :
    (s.inView h f).mgt.flash = s.mgt.flash := by
  simp [State.inView, State.unview, hf]

@[simp] theorem flash_exchanged (k : ClNo) (x : Exchange) (q : DreqSent) (s : State) :
    (exchanged k x q s).mgt.flash = s.mgt.flash := by
  simp [exchanged]

@[simp] theorem flash_exchangeOf (k : ClNo) (x : Exchange) (q : Option DreqSent) (s : State) :
    (exchangeOf k x q s).mgt.flash = s.mgt.flash := by
  unfold exchangeOf; (repeat' split) <;> simp

@[simp] theorem flash_exchangeComplete (k : ClNo) (x : Exchange) (s : State) :
    (exchangeComplete k x s).mgt.flash = s.mgt.flash := by
  simp [exchangeComplete]

@[simp] theorem flash_sampleSensors (ms : Nat) (s : State) : (sampleSensors ms s).mgt.flash = s.mgt.flash := by
  simp [sampleSensors]

@[simp] theorem flash_advance (n : Nat) (s : State) : (advance n s).mgt.flash = s.mgt.flash := by
  simp [advance]

@[simp] theorem flash_domainBeat (h : Half) (d : Dom) (s : State) : (domainBeat h d s).mgt.flash = s.mgt.flash := by
  simp [domainBeat]

@[simp] theorem flash_td0Beat (h : Half) (xoPhase : Int) (s : State) : (td0Beat h xoPhase s).mgt.flash = s.mgt.flash := by
  simp [td0Beat]

@[simp] theorem flash_beatWork (h : Half) (d : Dom) (xoPhase : Int) (s : State) :
    (beatWork h d xoPhase s).mgt.flash = s.mgt.flash := by
  simp [beatWork]

@[simp] theorem flash_halfBeat (h : Half) (d : Dom) (xoPhase : Int) (s : State) :
    (halfBeat h d xoPhase s).mgt.flash = s.mgt.flash := by
  simp [halfBeat]

@[simp] theorem flash_beatBoundary (h : Half) (d : Dom) (xoPhase : Int) (s : State) :
    (beatBoundary h d xoPhase s).mgt.flash = s.mgt.flash := by
  simp [beatBoundary]

@[simp] theorem flash_bootRestore (s : State) : (bootRestore s).mgt.flash = s.mgt.flash := by
  simp only [bootRestore]; (repeat' split) <;> simp

@[simp] theorem flash_bootTampers (fuseOk : Bool) (s : State) : (bootTampers fuseOk s).mgt.flash = s.mgt.flash := by
  simp only [bootTampers]; (repeat' split) <;> simp

@[simp] theorem flash_bootSelected (pick : BootCtl × BootImage) (s : State) : (bootSelected pick s).mgt.flash = s.mgt.flash := by
  simp [bootSelected]

@[simp] theorem flash_bootRomStart (fuseOk : Bool) (s : State) : (bootRomStart fuseOk s).mgt.flash = s.mgt.flash := by
  unfold bootRomStart; (repeat' split) <;> simp

@[simp] theorem flash_applyPolicy (s : State) : (applyPolicy s).mgt.flash = s.mgt.flash := by
  unfold applyPolicy; (repeat' split) <;> simp

@[simp] theorem flash_romExtend (i : Fin 8) (d : BitVec 384) (s : State) : (romExtend i d s).mgt.flash = s.mgt.flash := by
  simp [romExtend]

@[simp] theorem flash_measuredBoot (s : State) : (measuredBoot s).mgt.flash = s.mgt.flash := by
  unfold measuredBoot; (repeat' split) <;> simp

@[simp] theorem flash_measExtend (i : Fin 8) (d : BitVec 384) (s : State) : (measExtend i d s).mgt.flash = s.mgt.flash := by
  unfold measExtend; (repeat' split) <;> simp

@[simp] theorem flash_measLock (s : State) : (measLock s).mgt.flash = s.mgt.flash := by
  unfold measLock; (repeat' split) <;> simp

@[simp] theorem flash_bootRestart (step reason : Byte) (s : State) : (bootRestart step reason s).mgt.flash = s.mgt.flash := by
  simp [bootRestart]

@[simp] theorem flash_ringAppend (s : State) (rs : List LogRec) : (ringAppend s rs).mgt.flash = s.mgt.flash := by
  simp [ringAppend]

@[simp] theorem flash_logRecordWrite (s : State) : (logRecordWrite s).mgt.flash = s.mgt.flash := by
  unfold logRecordWrite; (repeat' split) <;> simp

@[simp] theorem flash_ethAnswer (dst : BitVec 48) (cmd : Nat) (tag : BitVec 16) (status n : Nat) (s : State) :
    (ethAnswer dst cmd tag status n s).mgt.flash = s.mgt.flash := by
  simp [ethAnswer]

@[simp] theorem flash_answer (src : Transport) (cmd : Nat) (tag : BitVec 16) (status : Nat) (vals : List Nat) (s : State) :
    (answer src cmd tag status vals s).mgt.flash = s.mgt.flash := by
  unfold answer; (repeat' split) <;> simp

@[simp] theorem flash_drainUnknown (n : Nat) (s : State) : (drainUnknown n s).mgt.flash = s.mgt.flash := by
  induction n generalizing s with
  | zero => simp [drainUnknown]
  | succ n ih => unfold drainUnknown; (repeat' split) <;> simp [ih]

@[simp] theorem flash_smbWait (cmd : Nat) (tag : BitVec 16) (s : State) : (smbWait cmd tag s).mgt.flash = s.mgt.flash := by
  simp [smbWait]

@[simp] theorem flash_doMbxGo (s : State) (p : Part) : (doMbxGo s p).mgt.flash = s.mgt.flash := by
  simp [doMbxGo]

@[simp] theorem flash_mgtEthFrame (srcMac : BitVec 48) (seq : BitVec 64) (body : List Byte) (icv : BitVec 128) (s : State) :
    (mgtEthFrame srcMac seq body icv s).mgt.flash = s.mgt.flash := by
  simp [mgtEthFrame]

@[simp] theorem flash_restartMgt (lockstep : Bool) (s : State) : (restartMgt lockstep s).mgt.flash = s.mgt.flash := by
  simp [restartMgt]

@[simp] theorem flash_doPolicy (r : PolicyRec) (s : State) : (doPolicy r s).mgt.flash = s.mgt.flash := by
  unfold doPolicy; (repeat' split) <;> simp

@[simp] theorem flash_lifecycleTo (n : Nat) (s : State) : (lifecycleTo n s).mgt.flash = s.mgt.flash := by
  simp [lifecycleTo]

@[simp] theorem flash_updateEnd (s : State) : (updateEnd s).1.mgt.flash = s.mgt.flash := by
  unfold updateEnd; (repeat' split) <;> simp

@[simp] theorem flash_confirmImage (s : State) : (confirmImage s).1.mgt.flash = s.mgt.flash := by
  unfold confirmImage; (repeat' split) <;> simp

@[simp] theorem flash_enterRma (sig : List Byte) (s : State) : (enterRma sig s).1.mgt.flash = s.mgt.flash := by
  simp only [enterRma]; (repeat' split) <;> simp

@[simp] theorem flash_decommission (tag : BitVec 16) (s : State) : (decommission tag s).1.mgt.flash = s.mgt.flash := by
  unfold decommission; (repeat' split) <;> simp

@[simp] theorem flash_railCrossing (rail : Fin 8) (mv : Nat) (s : State) : (railCrossing rail mv s).mgt.flash = s.mgt.flash := by
  simp [railCrossing]

@[simp] theorem flash_mgtDetection (det : Byte) (correctable : Bool) (s : State) :
    (mgtDetection det correctable s).mgt.flash = s.mgt.flash := by
  unfold mgtDetection; (repeat' split) <;> simp

@[simp] theorem flash_mgtWdog (s : State) : (mgtWdog s).mgt.flash = s.mgt.flash := by
  simp [mgtWdog]

@[simp] theorem flash_react (src pg sev : Nat) (s : State) : (react src pg sev s).mgt.flash = s.mgt.flash := by
  simp only [react]; (repeat' split) <;> simp

@[simp] theorem flash_acceptMsg (k : Nat) (s : State) : (acceptMsg k s).mgt.flash = s.mgt.flash := by
  unfold acceptMsg; (repeat' split) <;> simp

@[simp] theorem flash_loseBank (k : Nat) (det : Byte) (s : State) : (loseBank k det s).mgt.flash = s.mgt.flash := by
  unfold loseBank; (repeat' split) <;> simp

@[simp] theorem flash_selftestResult (k : Nat) (det : Byte) (pass : Bool) (s : State) :
    (selftestResult k det pass s).mgt.flash = s.mgt.flash := by
  simp only [selftestResult]; (repeat' split) <;> simp

@[simp] theorem flash_keyDetection (det : Byte) (slot : KeyNo) (s : State) :
    (keyDetection det slot s).mgt.flash = s.mgt.flash := by
  simp only [keyDetection]; (repeat' split) <;> simp

@[simp] theorem flash_lathDetection (det : Nat) (s : State) : (lathDetection det s).mgt.flash = s.mgt.flash := by
  simp [lathDetection]

@[simp] theorem flash_detect (pg : Nat) (det : Byte) (loc : Nat) (s : State) : (detect pg det loc s).mgt.flash = s.mgt.flash := by
  unfold detect; (repeat' split) <;> simp

@[simp] theorem flash_faultDetection (pl : Place) (pg : Nat) (det : Byte) (loc : BitVec 24) (s : State) :
    (faultDetection pl pg det loc s).mgt.flash = s.mgt.flash := by
  unfold faultDetection; (repeat' split) <;> simp

@[simp] theorem flash_feedLost (f : Half) (s : State) : (feedLost f s).mgt.flash = s.mgt.flash := by
  simp only [feedLost]; (repeat' split) <;> simp

@[simp] theorem flash_breakerTrip (f : Half) (s : State) : (breakerTrip f s).mgt.flash = s.mgt.flash := by
  unfold breakerTrip; (repeat' split) <;> simp

@[simp] theorem flash_resetN (low : Bool) (s : State) : (resetN low s).mgt.flash = s.mgt.flash := by
  unfold resetN; (repeat' split) <;> simp

@[simp] theorem flash_thermCommon (s : State) : (thermCommon s).mgt.flash = s.mgt.flash := by
  unfold thermCommon; (repeat' split) <;> simp

@[simp] theorem flash_writeInj (pg : Nat) (v : Word) (s : State) : (writeInj pg v s).mgt.flash = s.mgt.flash := by
  simp only [writeInj]; (repeat' split) <;> simp

@[simp] theorem flash_nowInForce (pg : Nat) (ws : KMap Word) (s s1 : State) :
    (nowInForce pg ws s s1).mgt.flash = s1.mgt.flash := by
  unfold nowInForce; (repeat' split) <;> simp

@[simp] theorem flash_writeHp (p : Part) (o : Nat) (v m : Word) (s : State) : (writeHp p o v m s).mgt.flash = s.mgt.flash := by
  simp [writeHp]

@[simp] theorem flash_writeHeader (a : Access) (pg o : Nat) (v : Word) (x : Beside) (s : State) :
    (writeHeader a pg o v x s).mgt.flash = s.mgt.flash := by
  unfold writeHeader; (repeat' split) <;> simp

@[simp] theorem flash_writeWord (a : Access) (x : Beside) (addr : Nat) (v : Word) (s : State) :
    (writeWord a x addr v s).mgt.flash = s.mgt.flash := by
  simp only [writeWord]; (repeat' split) <;> simp

@[simp] theorem flash_hostWrite (a : Access) (off : Nat) (v : BitVec 64) (x : Beside) (s : State) :
    (hostWrite a off v x s).mgt.flash = s.mgt.flash := by
  simp only [hostWrite]; (repeat' split) <;> simp

@[simp] theorem flash_rowWrite (a : Access) (pg o : Nat) (v : Word) (s : State) (x : Beside) :
    (rowWrite a pg o v s x).mgt.flash = s.mgt.flash := by
  simp [rowWrite]

@[simp] theorem flash_hostAccess (a : Access) (off : Nat) (v : Option (BitVec 64)) (s : State) :
    (hostAccess a off v s).mgt.flash = s.mgt.flash := by
  unfold hostAccess; (repeat' split) <;> simp

/-! ## Commands keep the table of operations in canonical form -/

/-- A mailbox command keeps the canonical form of the operations where its body and what follows do. -/
theorem canon_mailbox {src : Transport} {cmd : Nat} {tag : BitVec 16} {priv : Bool} {body : State → State × Nat × List Nat}
    {after : State → State} {s : State} (hc : Canon s.ops) (hbody : Canon (body s).1.ops)
    (hafter : ∀ t, Canon t.ops → Canon (after t).ops) : Canon (mailbox src cmd tag priv body after s).ops :=
  mailbox_keeps (fun t => Canon t.ops) hc (by simpa using hc) (fun _ _ _ h => by simpa using h) hbody hafter

/-- The mailbox rows whose end may reset the chip. -/
def endsInReset : Instr → Bool
  | .chipReset .. | .updateEnd .. | .enterRma .. | .decommission .. => true
  | _ => false

theorem canon_of_endsInReset {c : Instr} {s : State} (hr : endsInReset c = true) (hc : Canon s.ops) :
    Gives c s (fun t => Canon t.ops) := by
  cases c <;> simp only [endsInReset, Bool.false_eq_true] at hr
  case chipReset => exact ⟨_, rfl, canon_mailbox hc hc fun _ _ => by simp⟩
  case updateEnd => exact ⟨_, rfl, canon_mailbox hc (by simp [hc]) fun t ht => by simp [ht]⟩
  case enterRma => exact ⟨_, rfl, canon_mailbox hc (by simp [hc]) fun _ _ => by simp⟩
  case decommission => exact ⟨_, rfl, canon_mailbox hc (by simp [hc]) fun t ht => by simp [ht]⟩

theorem gives_canon (c : Instr) {s : State} (hc : Canon s.ops) : Gives c s (fun t => Canon t.ops) := by
  by_cases hk : Area.ops ∈ writesOf c
  · cases hr : endsInReset c
    · cases c <;> simp [writesOf, endsInReset] at hk hr <;> exact ⟨_, rfl, by simp [hc]⟩
    · exact canon_of_endsInReset hr hc
  · obtain ⟨t, hnext, -, hsame⟩ := framed c s
    have hops : t.ops = s.ops := hsame .ops hk
    exact ⟨t, hnext, by simpa [hops] using hc⟩

/-! ## Commands keep the flash in canonical form -/

/-- The flash is in canonical form: addresses strictly rising, no byte as an unlisted address reads (log entry 7). -/
def CanonFlash (m : KMap Byte) : Prop := KMap.wf flashReset m = true

theorem canonFlash_updateBegin (len : Nat) {s : State} (hf : CanonFlash s.mgt.flash) :
    CanonFlash (updateBegin len s).1.mgt.flash := by
  simp only [updateBegin]
  split_ifs
  · exact hf
  · exact hf
  · exact wf_eraseRegion _ _ hf

theorem canonFlash_updateData (off : Nat) (data : List Byte) {s : State} (hf : CanonFlash s.mgt.flash) :
    CanonFlash (updateData off data s).1.mgt.flash := by
  unfold updateData
  split
  · exact hf
  · split_ifs
    · exact hf
    · exact wf_flashWrite _ _ _ hf
    · exact hf

/-- A mailbox command keeps the canonical form of the flash where its body does, and what follows leaves the flash. -/
theorem canonFlash_mailbox {src : Transport} {cmd : Nat} {tag : BitVec 16} {priv : Bool} {body : State → State × Nat × List Nat}
    {after : State → State} {s : State} (hf : CanonFlash s.mgt.flash) (hbody : CanonFlash (body s).1.mgt.flash)
    (hafter : ∀ t, (after t).mgt.flash = t.mgt.flash) : CanonFlash (mailbox src cmd tag priv body after s).mgt.flash :=
  mailbox_keeps (fun t => CanonFlash t.mgt.flash) hf (by simpa using hf) (fun _ _ _ h => by simpa using h) hbody
    (fun t h => by rwa [hafter])

/-- A mailbox command leaves the flash where its body and what follows do. -/
@[simp] theorem flash_mailbox {src : Transport} {cmd : Nat} {tag : BitVec 16} {priv : Bool} {body : State → State × Nat × List Nat}
    {after : State → State} {s : State} (hbody : (body s).1.mgt.flash = s.mgt.flash)
    (hafter : ∀ t, (after t).mgt.flash = t.mgt.flash) : (mailbox src cmd tag priv body after s).mgt.flash = s.mgt.flash :=
  mailbox_keeps (fun t => t.mgt.flash = s.mgt.flash) rfl (by simp) (fun _ _ _ h => by simpa using h) hbody
    (fun t h => by rwa [hafter])

/-- The rows that write the flash (18 R571). -/
def writesFlash : Instr → Bool
  | .updateBegin .. | .updateData .. => true
  | _ => false

theorem gives_flash_of_not_writesFlash {c : Instr} (s : State) (hw : writesFlash c = false) :
    Gives c s (fun t => t.mgt.flash = s.mgt.flash) := by
  by_cases hk : Area.mgt ∈ writesOf c
  · cases c <;> simp [writesOf, writesFlash] at hk hw <;> exact ⟨_, rfl, by simp [apply_ite Prod.fst]⟩
  · obtain ⟨t, hnext, -, hsame⟩ := framed c s
    exact ⟨t, hnext, congrArg Mgt.flash (hsame .mgt hk)⟩

theorem gives_canonFlash (c : Instr) {s : State} (hf : CanonFlash s.mgt.flash) : Gives c s (fun t => CanonFlash t.mgt.flash) := by
  cases hw : writesFlash c
  · obtain ⟨t, hnext, hsame⟩ := gives_flash_of_not_writesFlash s hw
    exact ⟨t, hnext, by simpa [hsame] using hf⟩
  · cases c <;> simp only [writesFlash, Bool.false_eq_true] at hw
    case updateBegin => exact ⟨_, rfl, canonFlash_mailbox hf (canonFlash_updateBegin _ hf) fun _ => rfl⟩
    case updateData => exact ⟨_, rfl, canonFlash_mailbox hf (canonFlash_updateData _ _ hf) fun _ => rfl⟩

/-! ## Every step -/

/-- Settles O6: operations are placed and dropped by `put` alone, and two rows write the flash, by `put` and by leaving out a
region. -/
theorem tablesStayCanonical : Obligations.TablesStayCanonical := by
  refine ⟨fun s t h hstep => ?_, fun s t h hstep => ?_⟩
  · exact step_keeps (fun s => Canon s.ops) (fun _ _ h => h) (fun _ h => by simpa using h) (fun c _ => gives_canon c) h hstep
  · exact step_keeps (fun s => CanonFlash s.mgt.flash) (fun _ _ h => h) (fun _ h => by simpa using h)
      (fun c _ => gives_canonFlash c) h hstep

end Sys2Proof.Machine
end

section
/-!
PROOFS. Scope: what reads nothing of the counters, and a PTP master port's answers (settles O42).
-/

namespace Sys2Proof.Machine

/-! ## Counting changes the counters alone -/

/-- A count in one form for all cases, so that whatever does not read the counters reads the same by `rfl`. -/
theorem count_eq (s : State) (c n : Nat) : s.count c n = { s with cnt := (s.count c n).cnt } := by
  simp only [State.count, State.setCnt]
  split
  · rfl
  · split <;> rfl

theorem ptpPort_count (s : State) (c n : Nat) (p : PortNo) : (s.count c n).ptpPort p = s.ptpPort p := by
  simp [State.ptpPort]

theorem ptpPort_setEvt (s : State) (pg b : Nat) (p : PortNo) : (s.setEvt pg b).ptpPort p = s.ptpPort p := by
  simp [State.ptpPort]

@[simp] theorem mpDom_count (s : State) (c n : Nat) (p : PortNo) : (s.count c n).mpDom p = s.mpDom p := by
  rw [count_eq]; rfl

@[simp] theorem portReg_count (s : State) (c n : Nat) (p : PortNo) (pg o : Nat) :
    (s.count c n).portReg p pg o = s.portReg p pg o := by
  rw [count_eq]; rfl

@[simp] theorem ingress_count (s : State) (c n : Nat) (p : PortNo) (a : PathAB) (d : Dom) (pt : RxPoint) :
    ((s.count c n).ingress p a d pt).1 = (s.ingress p a d pt).1 := by
  rw [count_eq]
  exact issue_congr (t := { s with cnt := (s.count c n).cnt }) (s := s) rfl rfl rfl _

/-! ## Messages are queued on their port (13 R398, R416) -/

/-- A message without an association always waits on its port. -/
theorem queueMsg_of_plain {m : PtpMsg} (p : PortNo) (s : State) (h : m.sa = none) :
    queueMsg p m s = s.modPort p (fun x => { x with msgs := x.msgs ++ [m] }) := by
  simp [queueMsg, h]

section
variable {s : State} {p : PortNo} (hauth : s.mpAuth p = 0)
include hauth

/-- With AUTH at 0 a message is consumed as it is, and an answer carries no TLV (R417). -/
theorem authCheck_of_off (v : Option AuthTlv) : authCheck p (s.mpAuth p) v s = (true, none, s) := by
  simp [authCheck, hauth]

theorem withTlv_of_off (multicast : Bool) (x : Option PtpSess) : s.withTlv p multicast x = false := by
  simp [State.withTlv, hauth]

end

/-! ## Follow_Up and Delay_Resp (13 R399, R400) -/

section
variable {s : State} {p : PortNo} {a : PathAB} {m : DelayReq}

theorem followUpBuild_gives {f : PtpMsg} {r : List PtpMsg} (hwait : (s.port p).follow = f :: r) (hsa : f.sa = none) :
    Gives (.followUpBuild p) s (fun t => (t.port p).follow = r ∧ (t.port p).msgs = (s.port p).msgs ++ [f]) := by
  refine ⟨_, rfl, ?_⟩
  simp only [followUpBuild, hwait, queueMsg_of_plain _ _ hsa, port_modPort_self]
  exact ⟨trivial, trivial⟩

/-- The answer to a Delay_Req that needs no association. -/
def dreqAnswer (p : PortNo) (a : PathAB) (m : DelayReq) (i : Option Nat) (s : State) : PtpMsg :=
  { kind := .delayResp, sess := i, dest := some m.client, unicast := m.unicast, domNum := m.head.domainNum, seq := m.seqId
    log := s.mpLog p .delayResp, dom := s.mpDom p, t := (s.ingress p a (s.mpDom p) m.pt).1
    corr := m.correction - corrOf (s.ingress p a (s.mpDom p) m.pt).1
    bound := (s.ingress p a (s.mpDom p) m.pt).2.2.boundTlv (s.mpDom p) (s.ingress p a (s.mpDom p) m.pt).2.1
      ((s.ingress p a (s.mpDom p) m.pt).2.2.rxLevel7 ((s.ingress p a (s.mpDom p) m.pt).2.2.refLane p a)) }

theorem port_answerDreq (i : Option Nat) (s : State) :
    (answerDreq p a m i false s).port p = { s.port p with msgs := (s.port p).msgs ++ [dreqAnswer p a m i s] } := by
  rw [answerDreq, queueMsg_of_plain _ _ (by rfl), port_modPort_self, port_of_ports (s := s) (by simp)]
  rfl

/-- A multicast Delay_Req that the port takes, without authentication, comes down to the limit of its second (R400). -/
theorem delayReqReceived_of_multicast (hup : s.pathUp p a = true) (hlink : (s.path p a).link = true)
    (htakes : s.mpTakes p m.head = true) (hprof : s.mpProf p ≠ 4) (hauth : s.mpAuth p = 0) (hmulti : m.unicast = false)
    (hserves : (s.ptpPort p).serving = true) (hsec : (s.ptpPort p).dreqAt = secOf (s.busTime (s.mpDom p))) :
    delayReqReceived p a m s =
      if s.pf p pgPtp (mpBase p + 0x1C) 31 16 ≤ (s.ptpPort p).dreqSec then
        (dreqRefused (s.count 332 1)).modPtpPort p (fun y =>
          { y with dreqAt := secOf (s.busTime (s.mpDom p)), dreqSec := (s.ptpPort p).dreqSec, dreqLimit := y.dreqLimit + 1 })
      else
        (answerDreq p a m none false (s.count 332 1)).modPtpPort p (fun y =>
          { y with dreqAt := secOf (s.busTime (s.mpDom p)), dreqSec := (s.ptpPort p).dreqSec + 1 }) := by
  simp only [delayReqReceived, hup, hlink, htakes, authCheck_of_off hauth, withTlv_of_off hauth, hmulti, ptpPort_count,
    hserves, hsec]
  simp [hprof]

theorem delayReqReceived_gives (hup : s.pathUp p a = true) (hlink : (s.path p a).link = true)
    (htakes : s.mpTakes p m.head = true) (hprof : s.mpProf p ≠ 4) (hauth : s.mpAuth p = 0) (hmulti : m.unicast = false)
    (hserves : (s.ptpPort p).serving = true) (hsec : (s.ptpPort p).dreqAt = secOf (s.busTime (s.mpDom p))) :
    ((s.ptpPort p).dreqSec < s.pf p pgPtp (mpBase p + 0x1C) 31 16 →
      Gives (.delayReqReceived p a m) s (fun t =>
        (∃ x, (t.port p).msgs = (s.port p).msgs ++ [x] ∧ x.kind = .delayResp ∧ x.seq = m.seqId ∧
          x.dest = some m.client ∧ x.unicast = false ∧ x.domNum = m.head.domainNum ∧
          x.t = (s.ingress p a (s.mpDom p) m.pt).1 ∧ x.corr = m.correction - corrOf x.t) ∧
        (t.ptpPort p).dreqSec = (s.ptpPort p).dreqSec + 1)) ∧
    (s.pf p pgPtp (mpBase p + 0x1C) 31 16 ≤ (s.ptpPort p).dreqSec →
      Gives (.delayReqReceived p a m) s (fun t => (t.port p).msgs = (s.port p).msgs ∧
        (t.ptpPort p).dreqLimit = (s.ptpPort p).dreqLimit + 1 ∧ t.evtBit pgPtp evDreqLimit = true)) := by
  have hone := delayReqReceived_of_multicast hup hlink htakes hprof hauth hmulti hserves hsec
  refine ⟨fun hroom => ⟨_, congrArg Host.Outcome.next hone, ?_⟩, fun hfull => ⟨_, congrArg Host.Outcome.next hone, ?_⟩⟩
  · rw [if_neg (by omega)]
    refine ⟨⟨dreqAnswer p a m none (s.count 332 1), ?_, rfl, rfl, rfl, hmulti, rfl, ?_, rfl⟩, ?_⟩
    · exact (congrArg PortSt.msgs (port_answerDreq none (s.count 332 1))).trans (by rw [port_count])
    · rw [dreqAnswer, mpDom_count, ingress_count]
    · rw [ptpPort_modPtpPort_self]
  · rw [if_pos hfull]
    refine ⟨?_, ?_, ?_⟩
    · exact congrArg PortSt.msgs (by simp [dreqRefused] : (dreqRefused (s.count 332 1)).port p = s.port p)
    · rw [ptpPort_modPtpPort_self, dreqRefused, ptpPort_setEvt, ptpPort_count, ptpPort_count]
    · exact evtBit_setEvt_self ((s.count 332 1).count 333 1) pgPtp evDreqLimit (by decide)

theorem delayReqReceived_of_untaken (h : s.mpTakes p m.head = false) : delayReqReceived p a m s = s := by
  simp [delayReqReceived, h]

end

theorem foreignAnn_gives {s : State} {p : PortNo} (hup : s.portUp p = true) (hprof : s.mpProf p ≠ 0) (hopen : s.pwr.state ≠ .sealed) :
    Gives (.foreignAnn p) s (fun t => (t.ptpPort p).foreign = (s.ptpPort p).foreign + 1 ∧
      (t.ptpPort p).foreignAt = some s.now ∧ t.evtBit pgPtp evForeignAnn = true ∧ t.ports = s.ports) := by
  refine ⟨_, congrArg Host.Outcome.next (if_pos (by simp [hup, hprof, hopen])), ?_⟩
  have hport : (((s.modPtpPort p (fun x => { x with foreign := x.foreign + 1, foreignAt := some s.now })).setEvt
      pgPtp evForeignAnn).ptpPort p) = { s.ptpPort p with foreign := (s.ptpPort p).foreign + 1, foreignAt := some s.now } := by
    rw [ptpPort_setEvt, ptpPort_modPtpPort_self]
  exact ⟨congrArg PtpPort.foreign hport, congrArg PtpPort.foreignAt hport, evtBit_setEvt_self _ _ _ (by decide), by simp [State.modPtpPort]⟩

/-- Settles O42: a message is queued on its port as it is built, and a multicast Delay_Req comes down to the limit of its second. -/
theorem mastersAnswer : Obligations.MastersAnswer := by
  intro s p a m f r
  exact ⟨followUpBuild_gives, delayReqReceived_gives, fun h => ⟨_, congrArg Host.Outcome.next (delayReqReceived_of_untaken h), rfl⟩,
    foreignAnn_gives⟩

end Sys2Proof.Machine
end

section
/-!
PROOFS. Scope: the session table of the PTP engine, its signals, and its grants (settles O43).
-/

namespace Sys2Proof.Machine

variable {s : State} {p : PortNo}

/-! ## The session table -/

theorem sess_of_ptp {s t : State} (h : t.ptp.sessions = s.ptp.sessions) (i : Nat) : t.sess? i = s.sess? i := by
  simp [State.sess?, h]

@[simp] theorem sess_count (s : State) (c n i : Nat) : (s.count c n).sess? i = s.sess? i := by
  rw [count_eq]; rfl

theorem sess_modSess (s : State) (i j : Nat) (f : PtpSess → PtpSess) :
    (s.modSess i f).sess? j = if j = i then (s.sess? i).map f else s.sess? j := by
  split
  · next h => subst h; exact sess_setSess_self _ _ _
  · next h => exact sess_setSess_ne _ _ h

/-- A session as a message of its client leaves it (R396, R412). -/
def PtpSess.touched (x : PtpSess) (lastRx : Word) (c : UniClient) : PtpSess :=
  { x with lastRx := lastRx, client := { x.client with dmac := c.dmac } }

theorem sess_touchSess (i j : Nat) (d : Dom) (c : UniClient) (s : State) :
    (touchSess i d c s).sess? j =
      if j = i then (s.sess? i).map (·.touched (BitVec.ofNat 32 (secOf (s.busTime d))) c) else s.sess? j :=
  sess_modSess s i j _

/-- Some grant of a session is active. -/
def PtpSess.holds (x : PtpSess) : Bool := allGrants.any (fun g => (x.grant g).active)

theorem holds_eq_false_iff (x : PtpSess) : x.holds = false ↔ ∀ k, (x.grant k).active = false := by
  simp only [PtpSess.holds, allGrants, List.any_cons, List.any_nil, Bool.or_false, Bool.or_eq_false_iff]
  exact ⟨fun ⟨ha, hs, hd⟩ k => by cases k <;> assumption, fun h => ⟨h _, h _, h _⟩⟩

theorem sess_freeEnded (i j : Nat) (s : State) :
    (freeEnded i s).sess? j = if j = i then (s.sess? i).filter PtpSess.holds else s.sess? j := by
  unfold freeEnded
  cases hx : s.sess? i with
  | none => simp only [Option.filter_none]; split <;> simp_all
  | some x =>
    change (if x.holds then s else s.setSess i none).sess? j = _
    cases hh : x.holds <;> by_cases hj : j = i <;> simp_all [Option.filter, sess_setSess_ne]

theorem grant_setGrant (x : PtpSess) (g k : GrantType) (v : Grant) :
    (x.setGrant g v).grant k = if k = g then v else x.grant k := by
  cases g <;> cases k <;> rfl

/-! ## Signals (13 R409) -/

section
variable (i : Option Nat) (c : UniClient) (tlv : SigTlv)

/-- A signal without an association. -/
def signalMsg (p : PortNo) (i : Option Nat) (c : UniClient) (tlv : SigTlv) (s : State) : PtpMsg :=
  { kind := .signaling tlv, sess := i, dest := some c, unicast := true, domNum := BitVec.ofNat 8 (s.mpDomNum p), dom := s.mpDom p
    seq := match i.bind s.sess? with
      | some y => y.sigSeq
      | none => (s.ptpPort p).sigSeq }

/-- With AUTH at 0 a signal waits on its port. -/
theorem port_signal (hauth : s.mpAuth p = 0) :
    (signal p i c tlv s).port p = { s.port p with msgs := (s.port p).msgs ++ [signalMsg p i c tlv s] } := by
  have hqueue := queueMsg_of_plain (m := signalMsg p i c tlv s) p s rfl
  have hport := congrArg (fun u => u.port p) hqueue
  rw [port_modPort_self] at hport
  rw [← hport]
  simp only [signal, withTlv_of_off hauth, State.mpSaIf]
  cases i with
  | none => rfl
  | some j => simp only [Option.bind_some]; split <;> rfl

theorem sess_queueMsg (m : PtpMsg) (s : State) (j : Nat) : (queueMsg p m s).sess? j = s.sess? j :=
  sess_of_ptp (congrArg Ptp.sessions (by simp : (queueMsg p m s).ptp = s.ptp)) j

theorem sess_signal_none (s : State) (j : Nat) : (signal p none c tlv s).sess? j = s.sess? j :=
  sess_queueMsg _ s j

theorem sess_signal_some (s : State) (i j : Nat) :
    (signal p (some i) c tlv s).sess? j =
      if j = i then (s.sess? i).map (fun y => { y with sigSeq := y.sigSeq + 1 }) else s.sess? j := by
  simp only [signal, Option.bind_some]
  split
  · rw [sess_modSess, sess_queueMsg, sess_queueMsg]
  · next h =>
    rw [sess_queueMsg]
    split
    · next hj => subst hj; simp [Option.not_isSome_iff_eq_none.mp h]
    · rfl

end

/-! ## Grants are asked for (13 R409, R411) -/

/-- What a port's AUTH is read from. -/
theorem mpAuth_congr {t : State} (hregs : t.reg = s.reg) (hover : (t.port p).overP = (s.port p).overP) :
    t.mpAuth p = s.mpAuth p := by
  simp only [State.mpAuth, State.pf, portReg_ptp_congr hregs hover]

theorem mpAuth_setEvt (s : State) (pg b : Nat) : (s.setEvt pg b).mpAuth p = s.mpAuth p :=
  mpAuth_congr (regs_setEvt s pg b) (by simp)

/-- A new session takes a free entry of the table. -/
theorem sess_sessPlace {c : UniClient} {i : Nat} (h : s.sessPlace p c = some i) : s.sess? i = none := by
  have hfree : ∀ b, i ∈ s.freeIn b → s.sess? i = none := fun b hb => by
    simpa using (List.mem_filter.mp hb).2
  simp only [State.sessPlace] at h
  split at h
  · exact hfree _ (List.mem_of_head? h)
  · exact hfree _ (List.mem_of_head? h)

/-- A session that an unauthenticated request makes. -/
def newSess (p : PortNo) (c : UniClient) (now : Nat) : PtpSess := { lp := p, auth := false, key := 0, client := c, tokenAt := now }

section
variable {u : UniMsg} {g : GrantType} {log : Int} {dur : Nat} (hneg : s.negotiates p u = true) (hauth : s.mpAuth p = 0)

theorem unicastRequest_of_not_negotiates (h : s.negotiates p u = false) : unicastRequest p u g log dur s = s := by
  simp [unicastRequest, h]

theorem unicastCancel_of_not_negotiates (h : s.negotiates p u = false) : unicastCancel p u g s = s := by
  simp [unicastCancel, h]

include hneg hauth

/-- A first request within the limits makes a session and is answered in it. -/
theorem unicastRequest_of_limits {i : Nat} (hnone : s.sessOf p u.client = none) (hserves : (s.ptpPort p).serving = true)
    (hmin : s.minLog p g ≤ log) (hmax : log ≤ s.psf p pgPtp 0x06C 15 12) (hdur : s.pf p pgPtp 0x068 9 0 ≤ dur)
    (hmost : s.pf p pgPtp (mpBase p + 0x1C) 15 0 = 0) (hplace : s.sessPlace p u.client = some i) :
    unicastRequest p u g log dur s =
      (signal p (some i) u.client (.grant g log (min dur (s.pf p pgPtp 0x068 25 16)))
        (touchSess i (s.mpDom p) u.client (s.setSess i (some ((newSess p u.client s.now).setGrant g
          { active := true, log := log, remain := min dur (s.pf p pgPtp 0x068 25 16) }))))).count 334 1 := by
  have hfree := sess_sessPlace hplace
  simp [unicastRequest, hneg, authCheck_of_off hauth, hnone, hserves, hmin, hmax, hdur, hmost, hplace, hfree, newSess]

theorem unicastRequest_accepts {i : Nat} (hnone : s.sessOf p u.client = none) (hserves : (s.ptpPort p).serving = true)
    (hmin : s.minLog p g ≤ log) (hmax : log ≤ s.psf p pgPtp 0x06C 15 12) (hdur : s.pf p pgPtp 0x068 9 0 ≤ dur)
    (hmost : s.pf p pgPtp (mpBase p + 0x1C) 15 0 = 0) (hplace : s.sessPlace p u.client = some i) :
    Gives (.unicastRequest p u g log dur) s (fun t =>
      (∃ y, t.sess? i = some y ∧ y.lp = p ∧ y.client = u.client ∧
        y.grant g = { active := true, log := log, remain := min dur (s.pf p pgPtp 0x068 25 16) } ∧
        ∀ k, k ≠ g → (y.grant k).active = false) ∧
      (∀ j, j ≠ i → t.sess? j = s.sess? j) ∧
      ∃ m, (t.port p).msgs = (s.port p).msgs ++ [m] ∧ m.dest = some u.client ∧
        m.kind = .signaling (.grant g log (min dur (s.pf p pgPtp 0x068 25 16)))) := by
  refine ⟨_, congrArg Host.Outcome.next
    (unicastRequest_of_limits hneg hauth hnone hserves hmin hmax hdur hmost hplace), ?_, fun j hj => ?_, ?_⟩
  · rw [sess_count, sess_signal_some, if_pos rfl, sess_touchSess, if_pos rfl, sess_setSess_self]
    refine ⟨_, rfl, ?_⟩
    cases g <;> exact ⟨rfl, rfl, rfl, fun k hk => by cases k <;> first | rfl | exact absurd rfl hk⟩
  · rw [sess_count, sess_signal_some, if_neg hj, sess_touchSess, if_neg hj, sess_setSess_ne _ _ hj]
  · rw [port_count, port_signal]
    · exact ⟨_, rfl, rfl, rfl⟩
    · exact hauth

omit hneg in
/-- A denial answers with a duration of 0 outside any session. -/
theorem denyRequest_shows (c : UniClient) : (denyRequest p none c g log s).ptp.sessions = s.ptp.sessions ∧
    (denyRequest p none c g log s).ptp.denied = s.ptp.denied + 1 ∧
    (denyRequest p none c g log s).evtBit pgPtp evGrantDeny = true ∧
    ∃ m, ((denyRequest p none c g log s).port p).msgs = (s.port p).msgs ++ [m] ∧ m.kind = .signaling (.grant g log 0) := by
  have hsignal := port_signal none c (.grant g log 0) hauth
  refine ⟨?_, ?_, ?_, signalMsg p none c (.grant g log 0) s, ?_, rfl⟩
  · simp [denyRequest, signal, State.modPtpPort]
  · simp [denyRequest, signal, State.modPtpPort]
  · have hsaid := evtBit_setEvt_self (signal p none c (.grant g log 0) s) pgPtp evGrantDeny (by decide)
    simpa [denyRequest, State.evtBit, page_of_pages] using hsaid
  · rw [port_of_ports (s := signal p none c (.grant g log 0) s) (by simp [denyRequest]), hsignal]

/-- A first request outside the limits is denied, whether or not a session would have found room. -/
theorem unicastRequest_denies (hnone : s.sessOf p u.client = none)
    (hout : (s.ptpPort p).serving = false ∨ log < s.minLog p g ∨ s.psf p pgPtp 0x06C 15 12 < log ∨ dur < s.pf p pgPtp 0x068 9 0) :
    Gives (.unicastRequest p u g log dur) s (fun t => t.ptp.sessions = s.ptp.sessions ∧
      t.ptp.denied = s.ptp.denied + 1 ∧ t.evtBit pgPtp evGrantDeny = true ∧
      ∃ m, (t.port p).msgs = (s.port p).msgs ++ [m] ∧ m.kind = .signaling (.grant g log 0)) := by
  obtain ⟨s2, hsess, hden, hports, hregs, hone⟩ : ∃ s2 : State, s2.ptp.sessions = s.ptp.sessions ∧
      s2.ptp.denied = s.ptp.denied ∧ s2.ports = s.ports ∧ s2.reg = s.reg ∧
      unicastRequest p u g log dur s = denyRequest p none u.client g log s2 := by
    by_cases hfull : s.sessPlace p u.client = none
    · refine ⟨{ s with ptp := { s.ptp with bucketFull := s.ptp.bucketFull + 1 } }.setEvt pgPtp evBucketFull,
        by simp, by simp, by simp, regs_setEvt _ _ _, ?_⟩
      simp [unicastRequest, hneg, authCheck_of_off hauth, hnone, hfull]
    · refine ⟨s, rfl, rfl, rfl, rfl, ?_⟩
      have hbar : ((s.ptpPort p).serving && decide (s.minLog p g ≤ log) && decide (log ≤ s.psf p pgPtp 0x06C 15 12) &&
          decide (s.pf p pgPtp 0x068 9 0 ≤ dur)) = false := by
        simpa only [Bool.and_eq_false_iff, decide_eq_false_iff_not, Int.not_le, Nat.not_le, or_assoc] using hout
      simp [unicastRequest, hneg, authCheck_of_off hauth, hnone, hfull, hbar]
  have hport : s2.port p = s.port p := port_of_ports hports p
  have hauth2 : s2.mpAuth p = 0 := (mpAuth_congr hregs (by rw [hport])).trans hauth
  refine ⟨_, congrArg Host.Outcome.next hone, ?_⟩
  rw [← hsess, ← hden, ← hport]
  exact denyRequest_shows hauth2 u.client

/-! ## Grants end (13 R410) -/

theorem unicastCancel_ends {i : Nat} {x : PtpSess} (hsess : s.sessOf p u.client = some (i, x)) (hx : s.sess? i = some x) :
    Gives (.unicastCancel p u g) s (fun t =>
      (∀ y, t.sess? i = some y → (y.grant g).active = false ∧ ∀ k, k ≠ g → y.grant k = x.grant k) ∧
      ((∀ k, k ≠ g → (x.grant k).active = false) → t.sess? i = none) ∧ ∀ j, j ≠ i → t.sess? j = s.sess? j) := by
  have hone : unicastCancel p u g s = freeEnded i (signal p (some i) u.client (.ackCancel g)
      (touchSess i (s.mpDom p) u.client (s.modSess i (fun x => x.setGrant g {})))) := by
    simp [unicastCancel, hneg, authCheck_of_off hauth, hsess]
  obtain ⟨z, hz, hgrant⟩ : ∃ z, (freeEnded i (signal p (some i) u.client (.ackCancel g)
      (touchSess i (s.mpDom p) u.client (s.modSess i (fun x => x.setGrant g {}))))).sess? i = (some z).filter PtpSess.holds ∧
      ∀ k, z.grant k = if k = g then {} else x.grant k := by
    rw [sess_freeEnded, if_pos rfl, sess_signal_some, if_pos rfl, sess_touchSess, if_pos rfl, sess_modSess, if_pos rfl, hx]
    exact ⟨_, rfl, fun k => (by cases k <;> rfl : _ = (x.setGrant g {}).grant k).trans (grant_setGrant x g k {})⟩
  refine ⟨_, congrArg Host.Outcome.next hone, fun y hy => ?_, fun hended => ?_, fun j hj => ?_⟩
  · obtain ⟨hzy, -⟩ := Option.filter_eq_some_iff.mp (hz.symm.trans hy)
    cases hzy
    exact ⟨by rw [hgrant, if_pos rfl], fun k hk => by rw [hgrant, if_neg hk]⟩
  · rw [hz, Option.filter_eq_none_iff]
    intro y hy
    cases hy
    rw [Bool.not_eq_true, holds_eq_false_iff]
    intro k
    rw [hgrant]
    split
    · rfl
    · next hk => exact hended k hk
  · rw [sess_freeEnded, if_neg hj, sess_signal_some, if_neg hj, sess_touchSess, if_neg hj, sess_modSess, if_neg hj]

end

/-! ## The whole second of a domain (13 R410) -/

/-- A grant as a second leaves it. -/
def Grant.counted (v : Grant) : Grant :=
  if v.active then (if v.remain ≤ 1 then {} else { v with remain := v.remain - 1 }) else v

/-- A session as a second leaves its grants. -/
def PtpSess.counted (x : PtpSess) : PtpSess := allGrants.foldl (fun y g =>
  let v := y.grant g
  if v.active then y.setGrant g (if v.remain ≤ 1 then {} else { v with remain := v.remain - 1 }) else y) x

theorem grant_counted (x : PtpSess) (k : GrantType) : x.counted.grant k = (x.grant k).counted := by
  have hstep : ∀ (y : PtpSess) (g : GrantType), (let v := y.grant g
      if v.active then y.setGrant g (if v.remain ≤ 1 then {} else { v with remain := v.remain - 1 }) else y) =
        y.setGrant g (y.grant g).counted := fun y g => by
    simp only [Grant.counted]
    split
    · rfl
    · cases g <;> rfl
  simp only [PtpSess.counted, hstep]
  cases k <;> rfl

theorem active_counted (v : Grant) : v.counted.active = true ↔ v.active = true ∧ 1 < v.remain := by
  unfold Grant.counted
  split <;> [split; skip] <;> simp_all

theorem sess_countedDown (i j : Nat) (s : State) :
    (freeEnded i (s.modSess i PtpSess.counted)).sess? j =
      if j = i then ((s.sess? i).map PtpSess.counted).filter PtpSess.holds else s.sess? j := by
  rw [sess_freeEnded]
  split
  · rw [sess_modSess, if_pos rfl]
  · next h => rw [sess_modSess, if_neg h]

/-- Work on the sessions of a list without repetition touches each of them once, and no other. -/
theorem sess_foldl {g : State → Nat × PtpSess → State} {f : Option PtpSess → Option PtpSess}
    (hg : ∀ a e j, (g a e).sess? j = if j = e.1 then f (a.sess? e.1) else a.sess? j) {l : List (Nat × PtpSess)}
    (hl : (l.map Prod.fst).Nodup) (s : State) (j : Nat) :
    (l.foldl g s).sess? j = if j ∈ l.map Prod.fst then f (s.sess? j) else s.sess? j := by
  induction l generalizing s with
  | nil => rfl
  | cons e r ih =>
    obtain ⟨hfresh, hr⟩ := List.nodup_cons.mp hl
    rw [List.foldl_cons, ih hr, hg]
    by_cases hj : j = e.1
    · subst hj; simp [hfresh]
    · rw [if_neg hj]
      exact if_congr (by rw [List.map_cons, List.mem_cons, or_iff_right hj]) rfl rfl

theorem nodup_sessList (hwf : KMap.wf sessReset s.ptp.sessions = true) : (s.sessList.map Prod.fst).Nodup := by
  unfold State.sessList
  generalize s.ptp.sessions = m at hwf ⊢
  induction m with
  | nil => exact List.nodup_nil
  | cons e r ih =>
    obtain ⟨k, v⟩ := e
    obtain ⟨hv, habove, hr⟩ := (wf_cons sessReset k v r).mp hwf
    obtain ⟨x, rfl⟩ := Option.ne_none_iff_exists'.mp hv
    refine List.nodup_cons.mpr ⟨fun hk => ?_, ih hr⟩
    obtain ⟨e, he, hek⟩ := List.mem_map.mp hk
    obtain ⟨e', he', hmap⟩ := List.mem_filterMap.mp he
    obtain ⟨y, -, rfl⟩ := Option.map_eq_some_iff.mp hmap
    exact absurd hek (Nat.ne_of_gt (habove e' he'))

theorem mem_sessList (hwf : KMap.wf sessReset s.ptp.sessions = true) {i : Nat} {x : PtpSess} :
    (i, x) ∈ s.sessList ↔ s.sess? i = some x := by
  have hlist : (i, x) ∈ s.sessList ↔ (i, some x) ∈ s.ptp.sessions := by
    simp only [State.sessList, List.mem_filterMap, Option.map_eq_some_iff]
    constructor
    · rintro ⟨⟨k, v⟩, he, y, hv, heq⟩
      cases heq
      exact hv ▸ he
    · exact fun h => ⟨_, h, x, rfl, rfl⟩
  rw [hlist]
  refine ⟨look_of_mem hwf, fun h => ?_⟩
  have hmem := mem_of_look (d := sessReset) (m := s.ptp.sessions) (k := i) (by
    rw [show look sessReset s.ptp.sessions i = some x from h]; simp [sessReset])
  rwa [show look sessReset s.ptp.sessions i = some x from h] at hmem

/-- A session of the domain counts down, and one of another stays. -/
theorem sess_grantCountdown (hwf : KMap.wf sessReset s.ptp.sessions = true) {i : Nat} {x : PtpSess} (hx : s.sess? i = some x)
    (d : Dom) : (grantCountdown d s).sess? i =
      if s.mpDom x.lp = d then (some x.counted).filter PtpSess.holds else some x := by
  have hnodup : ((s.sessList.filter (fun e => s.mpDom e.2.lp == d)).map Prod.fst).Nodup :=
    (List.filter_sublist.map _).nodup (nodup_sessList hwf)
  have hmem : i ∈ (s.sessList.filter (fun e => s.mpDom e.2.lp == d)).map Prod.fst ↔ s.mpDom x.lp = d := by
    simp only [List.mem_map, List.mem_filter, beq_iff_eq]
    constructor
    · rintro ⟨⟨k, y⟩, ⟨he, hd⟩, rfl⟩
      obtain rfl := Option.some.inj (hx.symm.trans ((mem_sessList hwf).mp he))
      exact hd
    · exact fun hd => ⟨(i, x), ⟨(mem_sessList hwf).mpr hx, hd⟩, rfl⟩
  have hfold := sess_foldl (f := fun o => (o.map PtpSess.counted).filter PtpSess.holds)
    (fun a e j => sess_countedDown e.1 j a) hnodup s i
  rw [hx] at hfold
  exact hfold.trans (if_congr hmem rfl rfl)

theorem grantCountdown_gives (hwf : KMap.wf sessReset s.ptp.sessions = true) {i : Nat} {x : PtpSess}
    (hx : s.sess? i = some x) (d : Dom) :
    (s.mpDom x.lp = d → Gives (.grantCountdown d) s (fun t =>
      (∀ y, t.sess? i = some y → ∀ k, y.grant k =
        (if (x.grant k).active then (if (x.grant k).remain ≤ 1 then {} else { x.grant k with remain := (x.grant k).remain - 1 })
         else x.grant k)) ∧
      (t.sess? i = none ↔ ∀ k, (x.grant k).active = true → (x.grant k).remain ≤ 1))) ∧
    (s.mpDom x.lp ≠ d → Gives (.grantCountdown d) s (fun t => t.sess? i = some x)) := by
  have hone := sess_grantCountdown hwf hx d
  refine ⟨fun hd => ⟨_, rfl, fun y hy k => ?_, ?_⟩, fun hd => ⟨_, rfl, hone.trans (if_neg hd)⟩⟩
  · rw [hone, if_pos hd] at hy
    cases (Option.filter_eq_some_iff.mp hy).1
    exact grant_counted x k
  · rw [hone, if_pos hd, Option.filter_eq_none_iff]
    simp only [Option.some.injEq, forall_eq', Bool.not_eq_true, holds_eq_false_iff, grant_counted]
    refine forall_congr' fun k => ?_
    rw [← Bool.not_eq_true, active_counted]
    constructor
    · intro h hact
      exact Nat.le_of_not_lt fun hlt => h ⟨hact, hlt⟩
    · rintro h ⟨hact, hlt⟩
      exact absurd (h hact) (Nat.not_le.mpr hlt)

/-! ## A host's cancel (13 R410) -/

/-- Signals in a session: each waits on the port in its turn, and no other session is touched. -/
theorem signals_shows (i : Nat) (c : UniClient) (f : GrantType → SigTlv) (l : List GrantType) (s : State) :
    (∀ j, j ≠ i → (l.foldl (fun a g => signal p (some i) c (f g) a) s).sess? j = s.sess? j) ∧
    (s.mpAuth p = 0 → ((l.foldl (fun a g => signal p (some i) c (f g) a) s).port p).msgs.map PtpMsg.kind =
      (s.port p).msgs.map PtpMsg.kind ++ l.map (fun g => .signaling (f g))) := by
  induction l generalizing s with
  | nil => exact ⟨fun _ _ => rfl, fun _ => (List.append_nil _).symm⟩
  | cons g r ih =>
    obtain ⟨hsess, hmsgs⟩ := ih (signal p (some i) c (f g) s)
    refine ⟨fun j hj => (hsess j hj).trans ((sess_signal_some _ _ _ _ _).trans (if_neg hj)), fun hauth => ?_⟩
    have hport := port_signal (some i) c (f g) hauth
    have hauth1 : (signal p (some i) c (f g) s).mpAuth p = 0 :=
      (mpAuth_congr (by funext pg o; exact reg_of_pages (by simp) pg o) (by rw [hport])).trans hauth
    rw [List.foldl_cons, hmsgs hauth1, hport]
    simp [signalMsg]

theorem ptpCancel_gives {i : Nat} {x : PtpSess} (hx : s.sess? i = some x) :
    Gives (.ptpCancel i) s (fun t => t.sess? i = none ∧ (∀ j, j ≠ i → t.sess? j = s.sess? j) ∧
      (s.mpAuth x.lp = 0 → (t.port x.lp).msgs.map PtpMsg.kind = (s.port x.lp).msgs.map PtpMsg.kind ++
        (allGrants.filter (fun k => (x.grant k).active)).map (fun k => .signaling (.cancel k)))) := by
  obtain ⟨hsess, hmsgs⟩ := signals_shows (p := x.lp) i x.client .cancel (allGrants.filter (fun g => (x.grant g).active)) s
  refine ⟨_, congrArg Host.Outcome.next (by simp [ptpCancel, hx] : ptpCancel i s = State.setSess _ i none),
    sess_setSess_self _ _ _, fun j hj => (sess_setSess_ne _ _ hj).trans (hsess j hj), hmsgs⟩

/-- Settles O43: requests and cancels by their one equation each, a second by the fold over the domain's sessions. -/
theorem grantsAreGivenAndEnd : Obligations.GrantsAreGivenAndEnd := by
  rintro s p u c g log dur i x d rfl
  refine ⟨fun hneg => ⟨⟨_, congrArg Host.Outcome.next (unicastRequest_of_not_negotiates hneg), rfl⟩,
      ⟨_, congrArg Host.Outcome.next (unicastCancel_of_not_negotiates hneg), rfl⟩⟩,
    fun hneg hauth hnone => ⟨unicastRequest_accepts hneg hauth hnone, unicastRequest_denies hneg hauth hnone⟩,
    fun hneg hauth => unicastCancel_ends hneg hauth, fun hwf hx => grantCountdown_gives hwf hx d, ptpCancel_gives⟩

end Sys2Proof.Machine
end

section
/-!
PROOFS. Scope: the client instances of the PTP engine, and the port's L1_SYNC messages (settles O44).
-/

namespace Sys2Proof.Machine

variable {s : State} {p : PortNo} {k : ClNo}

theorem client_of_clients {t : State} (h : t.ptp.clients = s.ptp.clients) (k : ClNo) : t.client k = s.client k := by
  simp [State.client, h]

@[simp] theorem client_setEvt (s : State) (pg b : Nat) (k : ClNo) : (s.setEvt pg b).client k = s.client k :=
  client_of_clients (by simp) k

@[simp] theorem client_count (s : State) (c n : Nat) (k : ClNo) : (s.count c n).client k = s.client k :=
  client_of_clients (by simp) k

/-! ## Masters (13 R418, R419, R422) -/

/-- A client that reports loss. -/
def Client.reported (x : Client) : Client := { x with loss := true, since := 0, outstanding := [] }

theorem client_reportLoss (k : ClNo) (s : State) : (reportLoss k s).client k = (s.client k).reported := by
  rw [reportLoss, client_of_clients (s := s.modClient k Client.reported) (by simp; rfl), client_modClient_self]

theorem foreigns_takeMaster (k : ClNo) (m : Option AnnounceMsg) (s : State) :
    ((takeMaster k m s).client k).foreigns = (s.client k).foreigns := by
  unfold takeMaster
  split
  · rfl
  · rw [client_setEvt, client_modClient_self]
  · rw [client_modClient_self, client_reportLoss]
    rfl
  · split
    · rw [client_modClient_self]
    · rw [client_setEvt, client_modClient_self]

theorem authCheck_zero (p : PortNo) (v : Option AuthTlv) (s : State) : authCheck p 0 v s = (true, none, s) := by
  simp [authCheck]

section
variable {m o : AnnounceMsg}

theorem clientAnnounce_of_heard (hup : s.clUp k = true) (htakes : s.clTakes (s.clPort k) k m.head = true) (hauth : s.clAuth k = 0)
    (hplain : m.auth = none) : clientAnnounce k m s = heardAnnounce k m s := by
  have hm : ({ m with auth := none } : AnnounceMsg) = m := by rw [← hplain]
  simp [clientAnnounce, hup, htakes, hauth, authCheck_zero, hm]

theorem clientAnnounce_of_unheard (h : s.clUp k = false ∨ s.clTakes (s.clPort k) k m.head = false) : clientAnnounce k m s = s := by
  rcases h with h | h <;> simp [clientAnnounce, h]

theorem heardAnnounce_multicast (hmulti : s.clUnicast k = false) :
    ∃ f ∈ ((heardAnnounce k m s).client k).foreigns, f.ann = m ∧ s.now ∈ f.at_ := by
  simp only [heardAnnounce, hmulti, Bool.false_eq_true, if_false, selectMaster, foreigns_takeMaster, client_modClient_self]
  exact ⟨_, List.mem_cons_self, rfl, List.mem_cons_self⟩

theorem heardAnnounce_unicast (huni : s.clUnicast k = true) (hholds : s.clHolds k .announce = true)
    (hclass : m.gmClass.toNat ≤ s.clf k 4 23 16) (hnone : (s.client k).master = none) :
    ((heardAnnounce k m s).client k).master = some m ∧ (heardAnnounce k m s).evtBit pgPtp (evClMaster k) = true := by
  simp only [heardAnnounce, huni, hholds, hclass, takeMaster, hnone]
  exact ⟨by simp, evtBit_setEvt_self _ _ _ (by unfold evClMaster; omega)⟩

/-- A unicast client that loses its master tells its slot (R422). -/
theorem masterLost_unicast (ho : (s.client k).master = some o) (huni : s.clUnicast k = true) :
    ((masterLost k s).client k).master = none ∧ ((masterLost k s).client k).loss = true ∧
      ((masterLost k s).client k).outstanding = [] ∧
      ∀ h, s.halfOn h = true → (s.slot h (clSlot k)).st ≠ 0 → ((masterLost k s).slot h (clSlot k)).pend.lost = true := by
  have hone : masterLost k s = (reportLoss k (s.modClient k (fun y =>
      { y with foreigns := y.foreigns.filter (fun f => !sameMaster f.ann o) }))).modClient k
        (fun y => { y with master := none, changed := false }) := by
    simp [masterLost, ho, huni, takeMaster]
  have hclient : (masterLost k s).client k = { (s.client k).reported with
      foreigns := (s.client k).foreigns.filter (fun f => !sameMaster f.ann o), master := none, changed := false } := by
    rw [hone, client_modClient_self, client_reportLoss, client_modClient_self]
    rfl
  refine ⟨by rw [hclient], by rw [hclient]; rfl, by rw [hclient]; rfl, fun h hon hst => ?_⟩
  rw [hone]
  exact lost_loseSlot ((halfOn_of_pwr (by simp) h).trans hon) (by rwa [slot_of_halves (s := s) (by simp)])

theorem masterLost_multicast (ho : (s.client k).master = some o) (hmulti : s.clUnicast k = false) :
    ∀ f ∈ ((masterLost k s).client k).foreigns, sameMaster f.ann o = false := by
  simp only [masterLost, ho, hmulti, Bool.false_eq_true, if_false, selectMaster, foreigns_takeMaster, client_modClient_self]
  intro f hf
  simpa using (List.mem_filter.mp hf).2

end

/-! ## Messages of a client (13 R420, R421) -/

/-- A message of a client without an association. -/
def clMsg (k : ClNo) (kind : PtpKind) (seq : BitVec 16) (s : State) : PtpMsg :=
  { kind := kind, client := some k, unicast := s.clUnicast k, domNum := BitVec.ofNat 8 (s.clDomNum k), seq := seq
    dom := s.mpDom (s.clPort k) }

theorem clientMsg_of_off (hauth : s.clAuth k = 0) (kind : PtpKind) (seq : BitVec 16) :
    clientMsg k kind seq s = s.modPort (s.clPort k) (fun x => { x with msgs := x.msgs ++ [clMsg k kind seq s] }) := by
  simp only [clientMsg, hauth, if_true]
  exact queueMsg_of_plain _ s rfl

/-- Queueing a message changes no word in force. -/
theorem portReg_modMsgs (s : State) (p q : PortNo) (f : List PtpMsg → List PtpMsg) (pg o : Nat) :
    (s.modPort p (fun x => { x with msgs := f x.msgs })).portReg q pg o = s.portReg q pg o := by
  have hover : ((s.modPort p (fun x => { x with msgs := f x.msgs })).port q).over pg = (s.port q).over pg := by
    by_cases hq : q = p
    · subst hq; rw [port_modPort_self]; rfl
    · rw [port_modPort_ne _ _ hq]
  exact congrArg (fun w => look (fun o => s.reg pg o) w o) hover

/-- One request leaves what the next is made of. -/
theorem requestGrant_leaves (hauth : s.clAuth k = 0) (dur : Nat) (g : GrantType) :
    (requestGrant k dur s g).clPort k = s.clPort k ∧ (requestGrant k dur s g).clAuth k = 0 ∧
    (∀ h, (requestGrant k dur s g).clLog k h = s.clLog k h) ∧
    (requestGrant k dur s g).port (s.clPort k) = { s.port (s.clPort k) with msgs := (s.port (s.clPort k)).msgs ++
      [clMsg k (.signaling (.request g (s.clLog k g) dur)) (s.client k).sigSeq s] } := by
  have hone := clientMsg_of_off hauth (.signaling (.request g (s.clLog k g) dur)) (s.client k).sigSeq
  have hwords : ∀ q pg o, (requestGrant k dur s g).portReg q pg o = s.portReg q pg o := fun q pg o => by
    rw [requestGrant, hone]
    exact portReg_modMsgs s (s.clPort k) q (· ++ [_]) pg o
  have hplace : (requestGrant k dur s g).clPort k = s.clPort k := by
    rw [requestGrant, hone]; rfl
  refine ⟨hplace, ?_, fun h => ?_, ?_⟩
  · rw [← hauth]
    simp only [State.clAuth, State.clf, State.pf, hwords, hplace]
  · simp only [State.clLog, State.clProf, State.clf, State.pf, State.psf, hwords, hplace]
  · rw [requestGrant, hone]
    exact port_modPort_self s _ _

/-- The requests of a client wait on its port in their order. -/
theorem msgs_requestGrants (hauth : s.clAuth k = 0) (dur : Nat) (l : List GrantType) :
    (((l.foldl (requestGrant k dur) s).port (s.clPort k)).msgs.map PtpMsg.kind) =
      (s.port (s.clPort k)).msgs.map PtpMsg.kind ++ l.map (fun g => .signaling (.request g (s.clLog k g) dur)) := by
  induction l generalizing s with
  | nil => simp
  | cons g r ih =>
    obtain ⟨hplace, hauth1, hlog, hport⟩ := requestGrant_leaves hauth dur g
    have hrest := ih hauth1
    rw [hplace, hport] at hrest
    simpa [hlog, clMsg] using hrest

theorem grantRequest_fails (hup : s.clUp k = true) (huni : s.clUnicast k = true) :
    Gives (.grantRequest k true) s (fun t => (t.client k).failedAt = s.now ∧ (t.client k).grants = (s.client k).grants ∧
      (t.client k).wait = (if (s.client k).wait = 0 then 1 else min 64 (2 * (s.client k).wait))) := by
  have hone : grantRequest k true s = requestFails k s := by simp [grantRequest, hup, huni]
  refine ⟨_, congrArg Host.Outcome.next hone, ?_⟩
  beta_reduce
  rw [requestFails, client_modClient_self]
  exact ⟨rfl, rfl, rfl⟩

theorem grantRequest_asks (hup : s.clUp k = true) (huni : s.clUnicast k = true) (hauth : s.clAuth k = 0)
    (hover : (s.client k).failedAt + (s.client k).wait * 800000000 ≤ s.now) :
    Gives (.grantRequest k false) s (fun t =>
      (t.port (s.clPort k)).msgs.map PtpMsg.kind = (s.port (s.clPort k)).msgs.map PtpMsg.kind ++
        (allGrants.filter (fun g => s.grantDue k g)).map (fun g => .signaling (.request g (s.clLog k g) (s.clf k 8 9 0)))) :=
  ⟨_, congrArg Host.Outcome.next (by simp [grantRequest, hup, huni, hover] :
    grantRequest k false s = (allGrants.filter (fun g => s.grantDue k g)).foldl (requestGrant k (s.clf k 8 9 0)) s),
    msgs_requestGrants hauth _ _⟩

theorem grantRequest_waits (hwait : s.now < (s.client k).failedAt + (s.client k).wait * 800000000) :
    grantRequest k false s = s := by
  simp [grantRequest, hwait]

theorem clientDelayReq_leaves (hstate : s.clState k = 3)
    (hpace : ∀ u, (s.client k).dreqAt = some u → u + logCycles (s.dreqLog k) ≤ s.now) (hauth : s.clAuth k = 0) :
    Gives (.clientDelayReq k) s (fun t => (t.client k).dreqAt = some s.now ∧
      (t.client k).outstanding = (s.client k).outstanding ++ [{ seq := (s.client k).dreqSeq }] ∧
      (t.client k).dreqSeq = (s.client k).dreqSeq + 1 ∧
      ∃ q, (t.port (s.clPort k)).msgs = (s.port (s.clPort k)).msgs ++ [q] ∧ q.kind = .delayReq ∧ q.seq = (s.client k).dreqSeq) := by
  have hpaced : (s.client k).dreqAt.all (fun t => decide (t + logCycles (s.dreqLog k) ≤ s.now)) = true :=
    (Option.all_eq_true _ _).mpr fun u hu => decide_eq_true (hpace u hu)
  refine ⟨_, congrArg Host.Outcome.next (if_pos ⟨hstate, hpaced⟩), ?_⟩
  beta_reduce
  rw [client_modClient_self, client_of_clients (s := s) (by simp), clientMsg_of_off hauth]
  exact ⟨rfl, rfl, rfl, _, congrArg PortSt.msgs (port_modPort_self s _ _), rfl, rfl⟩

theorem clientDelayReq_of_other (h : s.clState k ≠ 3) : clientDelayReq k s = s := by
  simp [clientDelayReq, h]

/-! ## Exchanges (13 R421) -/

section
variable {x : Exchange} {q : DreqSent}

theorem exchangePass_of_off (hauth : s.clAuth k = 0) : exchangePass k x s = (true, s) := by
  unfold exchangePass
  cases x.follow <;> simp [hauth, authCheck_zero]

theorem client_exchanged (k : ClNo) (x : Exchange) (q : DreqSent) (s : State) :
    ((exchanged k x q s).client k).exch = (s.client k).exch + 1 ∧
    ((exchanged k x q s).client k).outstanding = (s.client k).outstanding.filter (fun r => r.seq != x.seqId) ∧
    ((exchanged k x q s).client k).mbound = (s.exchangeBound k x).1 := by
  simp only [exchanged, client_count, client_modClient_self]
  rw [client_of_clients (s := s) (by simp)]
  exact ⟨rfl, rfl, trivial⟩

theorem exchangeComplete_gives (hup : s.clUp k = true) (hmaster : (s.client k).master ≠ none)
    (htakes : s.clTakes (s.clPort k) k x.head = true) (hauth : s.clAuth k = 0) (hq : (s.client k).answered x.seqId = some q) :
    Gives (.exchangeComplete k x) s (fun t => (t.client k).exch = (s.client k).exch + 1 ∧
      (t.client k).outstanding = (s.client k).outstanding.filter (fun r => r.seq != x.seqId) ∧
      (t.client k).mbound = (s.exchangeBound k x).1) :=
  ⟨_, congrArg Host.Outcome.next (by simp [exchangeComplete, hup, hmaster, htakes, exchangePass_of_off hauth, hq, exchangeOf] :
    exchangeComplete k x s = exchanged k x q s), client_exchanged k x q s⟩

theorem exchangeComplete_of_unanswered (hauth : s.clAuth k = 0) (hq : (s.client k).answered x.seqId = none) :
    exchangeComplete k x s = s := by
  simp [exchangeComplete, exchangePass_of_off hauth, hq, exchangeOf]

end

theorem delayRespTimeout_gives (k : ClNo) (s : State) :
    Gives (.delayRespTimeout k) s (fun t => (t.client k).outstanding = (s.client k).outstanding.drop 1 ∧
      (t.client k).master = (s.client k).master ∧ t.halves = s.halves) := by
  refine ⟨_, rfl, ?_⟩
  beta_reduce
  rw [delayRespTimeout, client_modClient_self]
  exact ⟨rfl, rfl, rfl⟩

/-! ## L1 synchronisation (13 R423) -/

theorem l1SyncSend_gives (hup : s.portUp p = true) (hopen : s.pwr.state ≠ .sealed) (hprof : s.mpProf p = 2)
    (hauth : s.mpAuth p = 0) :
    Gives (.l1SyncSend p) s (fun t => (t.ptpPort p).sigSeq = (s.ptpPort p).sigSeq + 1 ∧
      ∃ q tcr rcr, (t.port p).msgs = (s.port p).msgs ++ [q] ∧ q.kind = .signaling (.l1sync tcr rcr (tcr && rcr)) ∧
        (tcr = true ↔ s.bitAt (pgLp p) 0x058 0 = true ∧ s.syncDom p = s.mpDom p)) := by
  refine ⟨_, congrArg Host.Outcome.next (if_pos (by simp [hup, hopen, hprof])), ?_⟩
  beta_reduce
  rw [withTlv_of_off hauth, ptpPort_modPtpPort_self, queueMsg_of_plain]
  · exact ⟨rfl, _, _, _, congrArg PortSt.msgs (port_modPort_self s _ _), rfl, by simp⟩
  · rfl

/-- Settles O44: a client's commands by their one equation each; its requests by the fold over the grants that are due. -/
theorem clientsFollowTheirMaster : Obligations.ClientsFollowTheirMaster := by
  intro s k m o x p q
  refine ⟨fun hup htakes hauth hplain => ?_, fun h => ⟨_, congrArg Host.Outcome.next (clientAnnounce_of_unheard h), rfl⟩,
    fun ho => ⟨fun huni => ⟨_, rfl, masterLost_unicast ho huni⟩, fun hmulti => ⟨_, rfl, masterLost_multicast ho hmulti⟩⟩,
    fun hup huni => ⟨grantRequest_fails hup huni, grantRequest_asks hup huni,
      fun hwait => ⟨_, congrArg Host.Outcome.next (grantRequest_waits hwait), rfl⟩⟩,
    clientDelayReq_leaves, fun h => ⟨_, congrArg Host.Outcome.next (clientDelayReq_of_other h), rfl⟩, exchangeComplete_gives,
    fun hauth hq => ⟨_, congrArg Host.Outcome.next (exchangeComplete_of_unanswered hauth hq), rfl⟩,
    delayRespTimeout_gives k s, l1SyncSend_gives⟩
  have hone : exec (.clientAnnounce k m) s = .next (heardAnnounce k m s) :=
    congrArg Host.Outcome.next (clientAnnounce_of_heard hup htakes hauth hplain)
  exact ⟨fun hmulti => ⟨_, hone, heardAnnounce_multicast hmulti⟩,
    fun huni hholds hclass hnone => ⟨_, hone, heardAnnounce_unicast huni hholds hclass hnone⟩⟩

end Sys2Proof.Machine
end

section
/-!
PROOFS. Scope: the Fountain's work on a request: its units, its client table, its answers (settles O45).
-/

namespace Sys2Proof.Machine

variable {s u v : State} {p : PortNo} {a : PathAB} {r : NtpReq}

/-! ## What the Fountain's work on a request changes -/

/-- A request takes free values and units, is counted and charged, and changes nothing else. -/
def State.Worked (s u : State) : Prop :=
  ∃ c f l n t, u = { s with cnt := c, fresh := f, ftn := { s.ftn with util := l, counts := n, table := t } }

theorem State.Worked.refl (s : State) : s.Worked s := ⟨_, _, _, _, _, rfl⟩

theorem State.Worked.trans (h : s.Worked u) (k : u.Worked v) : s.Worked v := by
  obtain ⟨_, _, _, _, _, rfl⟩ := h
  obtain ⟨_, _, _, _, _, rfl⟩ := k
  exact ⟨_, _, _, _, _, rfl⟩

theorem worked_count (s : State) (c n : Nat) : s.Worked (s.count c n) := ⟨_, _, _, _, _, count_eq s c n⟩

theorem worked_setClientEnt (s : State) (i : Nat) (e : Option ClientEnt) : s.Worked (s.setClientEnt i e) := ⟨_, _, _, _, _, rfl⟩

theorem worked_evict (s : State) : s.Worked (s.ftnCount .evict 1) :=
  .trans ⟨_, _, _, _, _, rfl⟩ (worked_count { s with ftn := { s.ftn with
    counts := modAt s.ftn.counts FtnCnt.evict.ix (· + BitVec.ofNat 32 1) } } _ _)

/-- The state of a lookup before its entry stands in the table. -/
def State.evicted (s : State) (p : PortNo) (r : NtpReq) : State :=
  match s.clientEnt (s.srcHash p r).1 with
  | none => s
  | some e => if e.tag = (s.srcHash p r).2 then s else s.ftnCount .evict 1

theorem lookup_state (p : PortNo) (r : NtpReq) (nts : Bool) (s : State) :
    (lookup p r nts s).2.2 = (s.evicted p r).setClientEnt (s.srcHash p r).1 (some (lookup p r nts s).2.1) := rfl

theorem evicted_cases (s : State) (p : PortNo) (r : NtpReq) : s.evicted p r = s ∨ s.evicted p r = s.ftnCount .evict 1 := by
  unfold State.evicted
  split
  · exact .inl rfl
  · split
    · exact .inl rfl
    · exact .inr rfl

theorem worked_lookup (p : PortNo) (r : NtpReq) (nts : Bool) (s : State) : s.Worked (lookup p r nts s).2.2 := by
  rw [lookup_state]
  refine .trans ?_ (worked_setClientEnt _ _ _)
  rcases evicted_cases s p r with h | h <;> rw [h]
  · exact .refl s
  · exact worked_evict s

theorem worked_charge (i : Nat) (e : ClientEnt) (s : State) : s.Worked (charge i e s) := ⟨_, _, _, _, _, rfl⟩

theorem worked_overLimit (i : Nat) (e : ClientEnt) (s : State) : s.Worked (overLimit i e s).2 := ⟨_, _, _, _, _, rfl⟩

section
variable (h : s.Worked u)
include h

theorem State.Worked.ports : u.ports = s.ports := by
  obtain ⟨_, _, _, _, _, rfl⟩ := h; rfl

theorem State.Worked.flt : u.flt = s.flt := by
  obtain ⟨_, _, _, _, _, rfl⟩ := h; rfl

theorem State.Worked.servesPlain (p : PortNo) : u.servesPlain p = s.servesPlain p := by
  obtain ⟨_, _, _, _, _, rfl⟩ := h; rfl

theorem State.Worked.servesNts (p : PortNo) : u.servesNts p = s.servesNts p := by
  obtain ⟨_, _, _, _, _, rfl⟩ := h; rfl

theorem State.Worked.canMint (n : Nat) : u.canMint n = s.canMint n := by
  obtain ⟨_, _, _, _, _, rfl⟩ := h; rfl

theorem State.Worked.launchNs (p : PortNo) : u.launchNs p = s.launchNs p := by
  obtain ⟨_, _, _, _, _, rfl⟩ := h; rfl

end

/-! ## Units (14 R450, R462) -/

/-- Whether some unit is in service rests on the collector's tests alone. -/
theorem ftnUnit_isSome (s : State) (first n : Nat) : (s.ftnUnit first n).1.isSome =
    !((List.range n).filter (fun k => !s.unitBusy pgFtn (BitVec.ofNat 8 (first + k)))).isEmpty := by
  simp only [State.ftnUnit]
  split
  · next h => rw [h]; rfl
  · next h =>
    have hlen := List.length_pos_iff.mpr (mt List.isEmpty_iff.mpr h)
    simp [State.draw, Nat.mod_lt _ hlen, h]

theorem ftnUnit_isSome_congr (h : u.flt = s.flt) (first n : Nat) : (u.ftnUnit first n).1.isSome = (s.ftnUnit first n).1.isSome := by
  have hbusy : ∀ d, u.unitBusy pgFtn d = s.unitBusy pgFtn d := fun d => by simp only [State.unitBusy, State.unit, h]
  simp only [ftnUnit_isSome, hbusy]

theorem ftnUnit_snd (s : State) (first n : Nat) : ∃ f, (s.ftnUnit first n).2 = { s with fresh := f } := by
  simp only [State.ftnUnit]
  split
  · exact ⟨_, rfl⟩
  · exact ⟨_, rfl⟩

/-- A unit leaves the counts and the client table. -/
theorem onUnit_work (s : State) (first n det c k nb ops : Nat) : ∃ x f l,
    (onUnit det (((s.ftnUnit first n).2.count c k).ftnWork nb ops)).2 =
      { s with cnt := x, fresh := f, ftn := { s.ftn with util := l } } := by
  obtain ⟨f, hf⟩ := ftnUnit_snd s first n
  rw [hf, count_eq]
  exact ⟨_, _, _, rfl⟩

theorem useBuilder_leaves {w : Nat × Nat} (h : useBuilder s = some (w, u)) :
    ∃ x f l, u = { s with cnt := x, fresh := f, ftn := { s.ftn with util := l } } := by
  obtain ⟨k, -, hk⟩ := Option.map_eq_some_iff.mp h
  obtain ⟨x, f, l, hwork⟩ := onUnit_work s 8 4 (8 + k) (288 + 2 * k) 1 1 0
  exact ⟨x, f, l, (congrArg Prod.snd hk).symm.trans hwork⟩

theorem useBuilder_count_leaves {c n : Nat} {w : Nat × Nat} (h : useBuilder (s.count c n) = some (w, u)) :
    ∃ x f l, u = { s with cnt := x, fresh := f, ftn := { s.ftn with util := l } } := by
  obtain ⟨x, f, l, hu⟩ := useBuilder_leaves h
  rw [count_eq] at hu
  exact ⟨x, f, l, hu⟩

theorem useAes_some (ops : Nat) (h : (s.ftnUnit 0 8).1.isSome = true) : ∃ w u, useAes ops s = some (w, u) ∧ s.Worked u := by
  obtain ⟨k, hk⟩ := Option.isSome_iff_exists.mp h
  obtain ⟨x, f, l, hwork⟩ := onUnit_work s 0 8 k (272 + 2 * k) ops 0 ops
  exact ⟨_, _, by rw [useAes, hk]; rfl, x, f, l, s.ftn.counts, s.ftn.table, hwork⟩

/-! ## The client table (14 R455 to R457) -/

/-- An entry whose fields fit reads back as it was written. -/
theorem ofWord_word {e : ClientEnt} (htag : e.tag < 2 ^ 16) (hlast : e.last < 2 ^ 20) (htokens : e.tokens < 2 ^ 12)
    (hovr : e.ovr < 2 ^ 8) : ClientEnt.ofWord e.word = some e := by
  obtain ⟨tag, last, tokens, ovr, nts⟩ := e
  dsimp only at htag hlast htokens hovr
  obtain ⟨b, hb, hbit⟩ : ∃ b, (if nts then 2 else 0) = 2 * b ∧ b < 2 ∧ (b == 1) = nts := by
    cases nts
    · exact ⟨0, rfl, by decide, rfl⟩
    · exact ⟨1, rfl, by decide, rfl⟩
  obtain ⟨hb2, hnts⟩ := hbit
  have hnat : (ClientEnt.word ⟨tag, last, tokens, ovr, nts⟩).toNat =
      tag * 2 ^ 48 + last * 2 ^ 28 + tokens * 2 ^ 16 + ovr * 2 ^ 8 + 2 * b + 1 := by
    simp only [ClientEnt.word, hb, BitVec.toNat_ofNat]
    omega
  unfold ClientEnt.ofWord
  rw [hnat]
  dsimp only
  rw [if_neg (by omega)]
  generalize hn : tag * 2 ^ 48 + last * 2 ^ 28 + tokens * 2 ^ 16 + ovr * 2 ^ 8 + 2 * b + 1 = n
  rw [show n / 2 ^ 48 = tag by omega, show n / 2 ^ 28 % 2 ^ 20 = last by omega, show n / 2 ^ 16 % 2 ^ 12 = tokens by omega,
    show n / 2 ^ 8 % 2 ^ 8 = ovr by omega, show n / 2 % 2 = b by omega, hnts]

theorem clientEnt_setClientEnt {e : ClientEnt} (htag : e.tag < 2 ^ 16) (hlast : e.last < 2 ^ 20) (htokens : e.tokens < 2 ^ 12)
    (hovr : e.ovr < 2 ^ 8) (s : State) (i : Nat) : (s.setClientEnt i (some e)).clientEnt i = some e := by
  simpa [State.clientEnt, State.setClientEnt] using ofWord_word htag hlast htokens hovr

theorem clientEnt_charge {e : ClientEnt} (htag : e.tag < 2 ^ 16) (hlast : e.last < 2 ^ 20) (htokens : e.tokens < 2 ^ 12)
    (s : State) (i : Nat) : (charge i e s).clientEnt i = some { e with tokens := e.tokens - 16, ovr := 0 } :=
  clientEnt_setClientEnt (e := { e with tokens := e.tokens - 16, ovr := 0 }) htag hlast (Nat.lt_of_le_of_lt (Nat.sub_le _ _) htokens)
    (Nat.two_pow_pos 8) s i

/-- The entry that a lookup gives has the source's tag, the time of the request, and no more tokens than the burst. -/
theorem lookup_fits (p : PortNo) (r : NtpReq) (nts : Bool) (s : State) :
    (lookup p r nts s).2.1.tag < 2 ^ 16 ∧ (lookup p r nts s).2.1.last < 2 ^ 20 ∧ (lookup p r nts s).2.1.tokens < 2 ^ 12 := by
  have htag : (s.srcHash p r).2 < 2 ^ 16 := Nat.mod_lt _ (by decide)
  have hburst : s.rlBurst p < 2 ^ 12 := by
    have hfield : s.pf p pgFtn 0x050 15 8 < 2 ^ 8 := Nat.mod_lt _ (by decide)
    unfold State.rlBurst
    omega
  refine ⟨?_, Nat.mod_lt _ (by decide), Nat.lt_of_le_of_lt (Nat.min_le_left _ _) hburst⟩
  simp only [lookup]
  split
  · exact htag
  · split
    · next h => exact h ▸ htag
    · exact htag

/-! ## Counts and answers (14 R433, R447, R464) -/

theorem counts_ftnCount (s : State) (c : FtnCnt) (n : Nat) (i : Fin 12) :
    (s.ftnCount c n).ftn.counts.get i = if i = c.ix then s.ftn.counts.get i + BitVec.ofNat 32 n else s.ftn.counts.get i := by
  have hftn : (s.ftnCount c n).ftn = { s.ftn with counts := modAt s.ftn.counts c.ix (· + BitVec.ofNat 32 n) } := by
    cases c <;> simp [State.ftnCount]
  rw [hftn]
  split
  · next h => subst h; exact get_modAt_self _ _ _
  · next h => exact get_modAt_ne _ _ h

theorem counts_setClientEnt (s : State) (i : Nat) (e : Option ClientEnt) : (s.setClientEnt i e).ftn.counts = s.ftn.counts := rfl

/-- A lookup counts at most an eviction. -/
theorem counts_lookup (p : PortNo) (r : NtpReq) (nts : Bool) (s : State) {i : Fin 12} (hi : i ≠ FtnCnt.evict.ix) :
    (lookup p r nts s).2.2.ftn.counts.get i = s.ftn.counts.get i := by
  rw [lookup_state, counts_setClientEnt]
  rcases evicted_cases s p r with h | h <;> rw [h]
  rw [counts_ftnCount, if_neg hi]

/-- A response queued unsealed. -/
def ntpResp (p : PortNo) (a : PathAB) (r : NtpReq) (d : Dom) (kind : NtpKind) (uid : List Byte) (w : Nat × Nat) (s : State) : NtpResp :=
  { kind := kind, req := r, dom := d, t2 := (s.ingress p a d r.pt).1, p2 := ntpStamp (s.shown p (s.ingress p a d r.pt).1)
    units := [w], uid := uid }

theorem port_answerNtp (d : Dom) (kind : NtpKind) (uid : List Byte) (w : Nat × Nat) (s : State) :
    (answerNtp p a r d kind uid w s).port p = { s.port p with ntp := (s.port p).ntp ++ [ntpResp p a r d kind uid w s] } := by
  rw [answerNtp, queueNtp, port_modPort_self, port_of_ports (s := s) (by simp)]
  rfl

theorem clientEnt_answerNtp (d : Dom) (kind : NtpKind) (uid : List Byte) (w : Nat × Nat) (s : State) (i : Nat) :
    (answerNtp p a r d kind uid w s).clientEnt i = s.clientEnt i := by
  simp [State.clientEnt]

theorem served_of {nts : Bool} (h : (if nts then s.servesNts p else s.servesPlain p) = true) (k : State → State) :
    served p nts k s = k s := if_pos h

/-! ## Plain requests (14 R430, R433, R457, R458, R461) -/

/-- What becomes of a plain request that a builder has taken. -/
def ntpBuilt (p : PortNo) (a : PathAB) (r : NtpReq) (s : State) (w : Nat × Nat) (u : State) : State :=
  let x := lookup p r false u
  if x.2.1.tokens < 16 then
    if (overLimit x.1 x.2.1 x.2.2).1 && s.rlAction p != 0 then
      served p false (answerNtp p a r (s.fnDom p) .rate [] w) (overLimit x.1 x.2.1 x.2.2).2
    else (overLimit x.1 x.2.1 x.2.2).2.ftnCount .dropRl 1
  else served p false (answerNtp p a r (s.fnDom p) .plain [] w) (charge x.1 x.2.1 x.2.2)

section
variable (htakes : s.fnTakes p a r = true)
include htakes

theorem ntpRequest_of_bad (h : r.hasMac = true ∨ (ntpVersion r ≠ 3 ∧ ntpVersion r ≠ 4)) :
    ntpRequest p a r s = (s.count 256 1).ftnCount .dropBad 1 := by
  simp only [ntpRequest, htakes]
  rcases h with h | h <;> simp [h]

variable (hmac : r.hasMac = false)
include hmac

section
variable (hver : ntpVersion r = 3 ∨ ntpVersion r = 4)
include hver

theorem ntpRequest_of_full (hfull : r.buildersFull = true) : ntpRequest p a r s = (s.count 256 1).ftnCount .dropBusy 1 := by
  simp only [ntpRequest, htakes, hmac, hfull]
  rcases hver with h | h <;> simp [h]

/-- A request that a builder takes is looked up and charged, or is over its limit. -/
theorem ntpRequest_of_built (hroom : r.buildersFull = false) (hbuild : (useBuilder (s.count 256 1)).isSome = true) :
    ∃ w u, s.Worked u ∧ u.ftn.counts = s.ftn.counts ∧ (∀ nts, (lookup p r nts u).2.1 = (lookup p r nts s).2.1) ∧
      (lookup p r false u).1 = (s.srcHash p r).1 ∧ ntpRequest p a r s = ntpBuilt p a r s w u := by
  obtain ⟨⟨w, u⟩, hu⟩ := Option.isSome_iff_exists.mp hbuild
  have hone : ntpRequest p a r s = ntpBuilt p a r s w u := by
    simp only [ntpRequest, htakes, hmac, hroom, hu, ntpBuilt]
    rcases hver with h | h <;> simp [h]
  obtain ⟨x, f, l, rfl⟩ := useBuilder_count_leaves hu
  exact ⟨w, _, ⟨x, f, l, s.ftn.counts, s.ftn.table, rfl⟩, rfl, fun _ => rfl, rfl, hone⟩

theorem ntpRequest_over (hroom : r.buildersFull = false) (hbuild : (useBuilder (s.count 256 1)).isSome = true)
    (hshort : (lookup p r false s).2.1.tokens < 16) (hdrop : s.rlAction p = 0) :
    Gives (.ntpRequest p a r) s (fun t => t.ports = s.ports ∧ t.ftn.counts.get 6 = s.ftn.counts.get 6 + 1) := by
  obtain ⟨w, u, hwork, hcounts, hlook, -, hone⟩ := ntpRequest_of_built htakes hmac hver hroom hbuild
  have hover : ntpRequest p a r s = (overLimit (lookup p r false u).1 (lookup p r false u).2.1
      (lookup p r false u).2.2).2.ftnCount .dropRl 1 := by
    rw [hone]
    simp [ntpBuilt, hlook, hshort, hdrop]
  have hall := hwork.trans ((worked_lookup p r false u).trans (worked_overLimit (lookup p r false u).1 (lookup p r false u).2.1 _))
  refine ⟨_, congrArg Host.Outcome.next hover, by simpa using hall.ports, ?_⟩
  rw [counts_ftnCount, if_pos (by rfl), overLimit, counts_setClientEnt, counts_lookup _ _ _ _ (by decide), hcounts]
  rfl

theorem ntpRequest_serves (hroom : r.buildersFull = false) (hbuild : (useBuilder (s.count 256 1)).isSome = true)
    (henough : 16 ≤ (lookup p r false s).2.1.tokens) (hserves : s.servesPlain p = true) :
    Gives (.ntpRequest p a r) s (fun t =>
      (∃ x, (t.port p).ntp = (s.port p).ntp ++ [x] ∧ x.kind = .plain ∧ x.req = r ∧ x.dom = s.fnDom p) ∧
      ∃ e, t.clientEnt (s.srcHash p r).1 = some e ∧ e.tokens = (lookup p r false s).2.1.tokens - 16 ∧ e.ovr = 0) := by
  obtain ⟨w, u, hwork, -, hlook, hplace, hone⟩ := ntpRequest_of_built htakes hmac hver hroom hbuild
  have hall := hwork.trans ((worked_lookup p r false u).trans (worked_charge (lookup p r false u).1 (lookup p r false u).2.1 _))
  have hsent : ntpRequest p a r s = answerNtp p a r (s.fnDom p) .plain [] w
      (charge (lookup p r false u).1 (lookup p r false u).2.1 (lookup p r false u).2.2) := by
    rw [hone, ntpBuilt, if_neg (by rw [hlook]; omega), served_of]
    exact (hall.servesPlain p).trans hserves
  refine ⟨_, congrArg Host.Outcome.next hsent, ?_, ?_⟩
  · rw [port_answerNtp, port_of_ports hall.ports]
    exact ⟨_, rfl, rfl, rfl, rfl⟩
  · obtain ⟨htag, hlast, htokens⟩ := lookup_fits p r false u
    rw [clientEnt_answerNtp, ← hlook, ← hplace]
    exact ⟨_, clientEnt_charge htag hlast htokens _ _, rfl, rfl⟩

end

end

/-! ## NTS requests (14 R430, R446, R447, R449, R461) -/

/-- The keys of a request whose cookie and authenticator open. -/
def State.openedKeys (s : State) (q : NtsParts) : Option (List Byte × List Byte) :=
  (s.openCookie q.cookie).bind (fun k => if (Config.aeadOpen k.1 q.nonce q.assoc q.cipher).isSome then some k else none)

section
variable (htakes : s.fnTakes p a r = true) {n : NtsReq}
include htakes

theorem ntsRequest_of_bad (h : r.hasMac = true ∨ ntpVersion r ≠ 4 ∨ ntsParts r n = none) :
    ntsRequest p a r n s = (s.count 256 1).ftnCount .dropBad 1 := by
  simp only [ntsRequest, htakes]
  rcases h with h | h | h <;> simp [h]

variable (hmac : r.hasMac = false) (hver : ntpVersion r = 4) {q : NtsParts} (hparts : ntsParts r n = some q)
include hmac hver hparts

theorem ntsRequest_of_full (hfull : r.buildersFull = true) : ntsRequest p a r n s = (s.count 256 1).ftnCount .dropBusy 1 := by
  simp [ntsRequest, htakes, hmac, hver, hparts, hfull]

/-- A request within its limit is charged, and answered as its cookie and authenticator open. -/
theorem ntsRequest_of_charged (hroom : r.buildersFull = false) (hbuild : (useBuilder (s.count 256 1)).isSome = true)
    (henough : 16 ≤ (lookup p r true s).2.1.tokens) (hserves : s.servesNts p = true) :
    ∃ w u, s.Worked u ∧ ntsRequest p a r n s = match s.openedKeys q with
      | none => answerNtp p a r (s.fnDom p) .nak q.uid w u
      | some k => sealNts p a r n.sealInTime q (s.fnDom p) .auth k w u := by
  obtain ⟨⟨w, u⟩, hu⟩ := Option.isSome_iff_exists.mp hbuild
  obtain ⟨x, f, l, hleft⟩ := useBuilder_count_leaves hu
  have hwork : s.Worked u := ⟨x, f, l, s.ftn.counts, s.ftn.table, hleft⟩
  have hlook : (lookup p r true u).2.1 = (lookup p r true s).2.1 := by subst hleft; rfl
  have hall := hwork.trans ((worked_lookup p r true u).trans (worked_charge (lookup p r true u).1 (lookup p r true u).2.1 _))
  have hserved := (hall.servesNts p).trans hserves
  have hwithin : decide ((lookup p r true u).2.1.tokens < 16) = false := by rw [hlook]; exact decide_eq_false (by omega)
  refine ⟨w, _, hall, ?_⟩
  simp only [ntsRequest, htakes, hmac, hver, hparts, hroom, hu, hwithin, Bool.not_true, Bool.false_eq_true, if_false, and_self,
    if_true, Bool.false_and]
  change (match s.openedKeys q with
    | none => served p true (answerNtp p a r (s.fnDom p) .nak q.uid w) (charge _ _ _)
    | some k => served p true (sealNts p a r n.sealInTime q (s.fnDom p) .auth k w) (charge _ _ _)) = _
  cases s.openedKeys q <;> exact served_of (nts := true) hserved _

theorem ntsRequest_naks (hroom : r.buildersFull = false) (hbuild : (useBuilder (s.count 256 1)).isSome = true)
    (henough : 16 ≤ (lookup p r true s).2.1.tokens) (hserves : s.servesNts p = true)
    (hshut : s.openCookie q.cookie = none ∨
      (∃ k, s.openCookie q.cookie = some k ∧ Config.aeadOpen k.1 q.nonce q.assoc q.cipher = none)) :
    Gives (.ntsRequest p a r n) s (fun t => (t.port p).sealed = (s.port p).sealed ∧
      ∃ x, (t.port p).ntp = (s.port p).ntp ++ [x] ∧ x.kind = .nak ∧ x.req = r ∧ x.uid = q.uid) := by
  have hnone : s.openedKeys q = none := by
    rcases hshut with h | ⟨k, hk, h⟩
    · simp [State.openedKeys, h]
    · simp [State.openedKeys, hk, h]
  obtain ⟨w, u, hwork, hone⟩ := ntsRequest_of_charged htakes hmac hver hparts hroom hbuild henough hserves
  rw [hnone] at hone
  refine ⟨_, congrArg Host.Outcome.next hone, ?_⟩
  beta_reduce
  rw [port_answerNtp, port_of_ports hwork.ports]
  exact ⟨rfl, _, rfl, rfl, rfl, rfl⟩

end

/-- What neither an event, a port's shown state, a start-up step nor the Fountain's notes of leap and key change, settling leaves. -/
theorem settleFtn_keeps {α : Type} (f : State → α) (hevt : ∀ s c b, f (s.evtIf c pgFtn b) = f s)
    (hport : ∀ s p g, f (s.modFtnPort p g) = f s) (hreach : ∀ s, f (s.reachStep 10) = f s)
    (hleap : ∀ s l b, f { s with ftn := { s.ftn with leapSeen := l, leapPast := b } } = f s)
    (hready : ∀ s b g, f { s with ftn := { s.ftn with ready := b, gen := g } } = f s) (s : State) :
    f (settleFtn s) = f s := by
  have hnote : f (noteLeap s) = f s := by
    simp only [noteLeap]
    split
    · rfl
    · exact hleap s _ _
  simp only [settleFtn]
  refine List.foldlRecOn (motive := fun (b : State) => f b = f s) allPorts _ ?_ fun b hb p _ => ?_
  · rw [hevt, hevt, hready, hnote]
  · have hon : ∀ (c : Bool) (u : State), f (if c then u.reachStep 10 else u) = f u := fun c u => by
      split
      · exact hreach u
      · rfl
    rw [hevt, hevt, hport, hevt, hevt, hport, hon, hb]

@[simp] theorem ports_settleFtn (s : State) : (settleFtn s).ports = s.ports :=
  settleFtn_keeps (·.ports) (fun _ _ _ => by simp) (fun _ _ _ => rfl) (fun _ => rfl) (fun _ _ _ => rfl) (fun _ _ _ => rfl) s

@[simp] theorem port_settleFtn (s : State) (p : PortNo) : (settleFtn s).port p = s.port p := port_of_ports (ports_settleFtn s) p

/-- A response is sealed as it is, and changes no port until it waits. -/
theorem port_queueSealed (x : NtpResp) (s : State) :
    (queueSealed p (sealResp p x s)).port p = { s.port p with sealed := (s.port p).sealed ++ [(sealResp p x s).1] } := by
  rw [queueSealed, port_modPort_self, port_of_ports (s := s) (by simp)]

/-- A response that is sealed in time waits for its launch. -/
theorem port_sealNts {q : NtsParts} {d : Dom} {kind : NtpKind} {k : List Byte × List Byte} {w : Nat × Nat}
    (hmint : s.canMint (1 + min 7 q.placeholders) = true) (hunit : (s.ftnUnit 0 8).1.isSome = true) :
    ∃ x, (sealNts p a r true q d kind k w s).port p = { s.port p with sealed := (s.port p).sealed ++ [x] } ∧ x.kind = kind ∧
      x.req = r ∧ x.uid = q.uid ∧ x.cookies = 1 + min 7 q.placeholders ∧ x.t3 = x.t2 + s.launchNs p * 2 ^ 62 := by
  obtain ⟨v, u, haes, hwork⟩ := useAes_some (exchangeOps q (1 + min 7 q.placeholders) (uidField q.uid).length) hunit
  simp only [sealNts, hmint, Bool.and_self, if_true, haes]
  rw [port_settleFtn, port_queueSealed, port_of_ports (s := s) (by simp [hwork.ports])]
  refine ⟨_, rfl, rfl, rfl, rfl, rfl, ?_⟩
  rw [← hwork.launchNs]
  rfl

theorem ntsRequest_seals (htakes : s.fnTakes p a r = true) {n : NtsReq} (hmac : r.hasMac = false) (hver : ntpVersion r = 4)
    {q : NtsParts} (hparts : ntsParts r n = some q) (hroom : r.buildersFull = false)
    (hbuild : (useBuilder (s.count 256 1)).isSome = true) (henough : 16 ≤ (lookup p r true s).2.1.tokens)
    (hserves : s.servesNts p = true) {k : List Byte × List Byte} (hopen : s.openCookie q.cookie = some k)
    (hauth : (Config.aeadOpen k.1 q.nonce q.assoc q.cipher).isSome = true) (htime : n.sealInTime = true)
    (hmint : s.canMint (1 + min 7 q.placeholders) = true) (hunit : (s.ftnUnit 0 8).1.isSome = true) :
    Gives (.ntsRequest p a r n) s (fun t => (t.port p).ntp = (s.port p).ntp ∧
      ∃ x, (t.port p).sealed = (s.port p).sealed ++ [x] ∧ x.kind = .auth ∧ x.req = r ∧ x.uid = q.uid ∧
        x.cookies = 1 + min 7 q.placeholders ∧ x.t3 = x.t2 + s.launchNs p * 2 ^ 62) := by
  have hkeys : s.openedKeys q = some k := by simp [State.openedKeys, hopen, hauth]
  obtain ⟨w, u, hwork, hone⟩ := ntsRequest_of_charged htakes hmac hver hparts hroom hbuild henough hserves
  rw [hkeys, htime] at hone
  dsimp only at hone
  obtain ⟨x, hport, hkind, hreq, huid, hcookies, ht3⟩ := port_sealNts (p := p) (a := a) (r := r) (d := s.fnDom p) (kind := .auth)
    (k := k) (w := w) ((hwork.canMint _).trans hmint) ((ftnUnit_isSome_congr hwork.flt 0 8).trans hunit)
  rw [port_of_ports hwork.ports] at hport
  rw [hwork.launchNs] at ht3
  exact ⟨_, congrArg Host.Outcome.next hone, (congrArg PortSt.ntp hport).trans rfl, x, congrArg PortSt.sealed hport, hkind, hreq, huid, hcookies,
    ht3⟩

/-- Settles O45: a request is malformed, finds no builder, is over its limit, or is charged and answered as its kind asks. -/
theorem requestsAreAnsweredOrDropped : Obligations.RequestsAreAnsweredOrDropped := by
  intro s p a r n htakes
  refine ⟨fun h => ⟨_, congrArg Host.Outcome.next (ntpRequest_of_bad htakes h), rfl⟩,
    fun h => ⟨_, congrArg Host.Outcome.next (ntsRequest_of_bad htakes h), rfl⟩, fun hmac hver => ?_⟩
  refine ⟨fun hfull => ⟨_, congrArg Host.Outcome.next (ntpRequest_of_full htakes hmac hver hfull), rfl⟩,
    ntpRequest_over htakes hmac hver, ntpRequest_serves htakes hmac hver,
    fun q hver4 hparts hfull => ⟨_, congrArg Host.Outcome.next (ntsRequest_of_full htakes hmac hver4 hparts hfull), rfl⟩,
    fun q hver4 hparts hroom hbuild henough hserves => ?_⟩
  exact ⟨fun k => ntsRequest_seals htakes hmac hver4 hparts hroom hbuild henough hserves,
    ntsRequest_naks htakes hmac hver4 hparts hroom hbuild henough hserves⟩

end Sys2Proof.Machine
end

section
/-!
PROOFS. Scope: launches of sealed responses, the sweeper, mint epochs and the kill switch (settles O46).
-/

namespace Sys2Proof.Machine

variable {s : State} {p : PortNo} {r : NtpResp} {rest : List NtpResp} {cross : Nat}

/-! ## Launches (14 R449) -/

/-- But for work dropped as busy or late, a unit of a count goes with no event of the page. -/
theorem ftnCount_silent (s : State) {c : FtnCnt} (n : Nat) (hbusy : c ≠ .dropBusy) (hlate : c ≠ .dropLate) :
    s.ftnCount c n = ({ s with ftn := { s.ftn with counts := modAt s.ftn.counts c.ix (· + BitVec.ofNat 32 n) } }).count c.event n := by
  unfold State.ftnCount
  cases c <;> first | rfl | exact absurd rfl hbusy | exact absurd rfl hlate

theorem outs_ftnCount (s : State) {c : FtnCnt} (n : Nat) (hbusy : c ≠ .dropBusy) (hlate : c ≠ .dropLate) :
    (s.ftnCount c n).outs = s.outs := by
  rw [ftnCount_silent s n hbusy hlate, count_eq]

@[simp] theorem port_ftnCount (s : State) (c : FtnCnt) (n : Nat) (p : PortNo) : (s.ftnCount c n).port p = s.port p :=
  port_of_ports (show (s.ftnCount c n).ports = s.ports by simp) p

/-- What carries a response is read from the words in force. -/
theorem ntpLink_congr {u : State} (hregs : u.reg = s.reg) (hover : (u.port p).overF = (s.port p).overF) (q : NtpReq) :
    u.ntpLink p q = s.ntpLink p q := by
  simp only [State.ntpLink, State.lpMac, State.wideAt, State.portReg, PortSt.over, if_neg (by decide : ¬ pgFtn = pgPtp), hregs,
    hover]

theorem standbyCopy_port (s : State) : ((standbyCopy p s).port p).sealed = (s.port p).sealed ∧
    ((standbyCopy p s).port p).overF = (s.port p).overF := by
  unfold standbyCopy
  dsimp only
  split
  · rw [port_count, port_modPort_self]
    exact ⟨rfl, rfl⟩
  · exact ⟨rfl, rfl⟩

/-- A response of the kind that is sealed is sent as it was sealed, and counted. -/
theorem sendNtp_auth (hkind : r.kind = .auth) (a : PathAB) (h : NtpHeader) (ext : List Byte) (s : State) :
    ((sendNtp p a r h ext s).port p).sealed = (s.port p).sealed ∧
    (∃ fr, (sendNtp p a r h ext s).outs = s.outs ++ [.frame p a (.ntp .auth h ((s.ntpLink p r.req).frame fr (h.bytes ++ ext)))]) ∧
    (sendNtp p a r h ext s).ftn.counts.get 1 = s.ftn.counts.get 1 + 1 := by
  simp only [sendNtp, hkind]
  refine ⟨?_, ⟨(s.draw (2 ^ 32)).1, ?_⟩, ?_⟩
  · rw [port_ftnCount]
    change (State.port (State.count _ (cntPort p 13) 1) p).sealed = _
    rw [port_count, State.countFrame, port_modPort_self, port_count, port_count]
    rfl
  · rw [outs_ftnCount _ _ (by decide) (by decide)]
    simp [State.countFrame, State.emit, State.draw]
  · rw [counts_ftnCount, if_pos (by rfl)]
    simp [State.countFrame, State.modFtnPort, State.emit, State.draw]

section
variable (hsealed : (s.port p).sealed = r :: rest) (hup : s.pathUp p (s.activePath p) = true)
  (hlink : (s.path p (s.activePath p)).link = true) (hfree : s.schedBusy p (s.activePath p) = false)
include hsealed hup hlink hfree

/-- A sealed response whose path can send leaves the queue, and is sent, late or not served. -/
theorem ntsLaunch_of_path : ntsLaunch p cross s =
    if !s.launches p then (s.modPort p (fun x => { x with sealed := rest })).ftnCount .dropNoserve 1
    else if s.launchTol p < cross ∨ (if isKod r.kind then 3 else s.ntpLi p r.t3) ≠ r.hdr.li ∨
        s.ntpDisp (s.present r.dom (s.txLevel7 (s.refLane p (s.activePath p)))) (s.launchTol p) ≠ r.hdr.disp then
      (s.modPort p (fun x => { x with sealed := rest })).ftnCount .dropLate 1
    else sendNtp p (s.activePath p) r r.hdr (uidField r.uid ++ r.box) (standbyCopy p (s.modPort p (fun x => { x with sealed := rest }))) := by
  simp only [ntsLaunch, hsealed, hup, hlink, hfree]
  rfl

theorem ntsLaunch_noserve (hno : s.launches p = false) :
    Gives (.ntsLaunch p cross) s (fun t => (t.port p).sealed = rest ∧ t.outs = s.outs ∧
      t = (s.modPort p (fun x => { x with sealed := rest })).ftnCount .dropNoserve 1) := by
  have hone := ntsLaunch_of_path (cross := cross) hsealed hup hlink hfree
  rw [hno, Bool.not_false, if_pos rfl] at hone
  refine ⟨_, congrArg Host.Outcome.next hone, ?_, outs_ftnCount _ _ (by decide) (by decide), rfl⟩
  exact congrArg PortSt.sealed ((port_ftnCount _ _ _ p).trans (port_modPort_self _ _ _))

theorem ntsLaunch_late (hyes : s.launches p = true) (hlate : s.launchTol p < cross) :
    Gives (.ntsLaunch p cross) s (fun t => (t.port p).sealed = rest ∧
      t.ftn.counts.get 8 = s.ftn.counts.get 8 + 1 ∧ t.evtBit pgFtn evFtnLate = true) := by
  have hone := ntsLaunch_of_path (cross := cross) hsealed hup hlink hfree
  rw [hyes, Bool.not_true, if_neg Bool.false_ne_true, if_pos (.inl hlate)] at hone
  refine ⟨_, congrArg Host.Outcome.next hone, ?_, ?_, evtBit_setEvt_self _ _ _ (by decide)⟩
  · rw [port_ftnCount, port_modPort_self]
  · rw [counts_ftnCount, if_pos (by rfl)]
    rfl

theorem ntsLaunch_sends (hyes : s.launches p = true) (htime : cross ≤ s.launchTol p) (hkind : r.kind = .auth)
    (hli : s.ntpLi p r.t3 = r.hdr.li)
    (hdisp : s.ntpDisp (s.present r.dom (s.txLevel7 (s.refLane p (s.activePath p)))) (s.launchTol p) = r.hdr.disp) :
    Gives (.ntsLaunch p cross) s (fun t => (t.port p).sealed = rest ∧
      (∃ fr, t.outs = s.outs ++ [.frame p (s.activePath p) (.ntp .auth r.hdr
        ((s.ntpLink p r.req).frame fr (r.hdr.bytes ++ (uidField r.uid ++ r.box))))]) ∧
      t.ftn.counts.get 1 = s.ftn.counts.get 1 + 1) := by
  have hone := ntsLaunch_of_path (cross := cross) hsealed hup hlink hfree
  have hkod : isKod r.kind = false := by rw [hkind]; rfl
  rw [hyes, hkod, hli, hdisp, Bool.not_true, if_neg Bool.false_ne_true, if_neg (by simpa using htime)] at hone
  obtain ⟨hport, ⟨fr, houts⟩, hcount⟩ := sendNtp_auth (p := p) hkind (s.activePath p) r.hdr (uidField r.uid ++ r.box)
    (standbyCopy p (s.modPort p (fun x => { x with sealed := rest })))
  obtain ⟨hrest, hover⟩ := standbyCopy_port (p := p) (s.modPort p (fun x => { x with sealed := rest }))
  rw [port_modPort_self] at hrest hover
  have hlinks : (standbyCopy p (s.modPort p (fun x => { x with sealed := rest }))).ntpLink p r.req = s.ntpLink p r.req :=
    ntpLink_congr (by funext pg o; exact reg_of_pages (by simp) pg o) hover _
  refine ⟨_, congrArg Host.Outcome.next hone, hport.trans hrest, ⟨fr, ?_⟩, ?_⟩
  · rw [houts, hlinks]
    simp
  · rw [hcount]
    simp

end

/-! ## The sweeper (14 R459) -/

theorem clientEnt_setClientEnt_ne (s : State) {i j : Nat} (e : Option ClientEnt) (h : j ≠ i) :
    (s.setClientEnt i e).clientEnt j = s.clientEnt j := by
  simp [State.clientEnt, State.setClientEnt, look_put_ne _ _ _ h]

theorem sweeperVisit_frees {i : Fin 1048576} {e : ClientEnt} (he : s.clientEnt i.val = some e)
    (hold : 16 * max 1 (s.fieldAt pgFtn 0x050 15 8) ≤
        s.refillEnt (16 * max 1 (s.fieldAt pgFtn 0x050 15 8)) (max 1 (s.fieldAt pgFtn 0x050 7 0)) e ∨
      8192 * 64 ≤ s.sinceLast e) :
    Gives (.sweeperVisit i) s (fun t => t.clientEnt i.val = none ∧ ∀ j, j ≠ i.val → t.clientEnt j = s.clientEnt j) := by
  have hone : sweeperVisit i.val s = s.setClientEnt i.val none := by
    simp only [sweeperVisit, he]
    exact if_pos hold
  exact ⟨_, congrArg Host.Outcome.next hone, clientEnt_setClientEnt_none s i.val, fun j hj => clientEnt_setClientEnt_ne s none hj⟩

/-! ## Mint epochs (14 R453) -/

theorem epoch_settleFtn (s : State) : (settleFtn s).ftn.epoch = s.ftn.epoch :=
  settleFtn_keeps (·.ftn.epoch) (fun _ _ _ => by simp) (fun _ _ _ => rfl) (fun _ => rfl) (fun _ _ _ => rfl) (fun _ _ _ => rfl) s

theorem stored_settleFtn (s : State) : (settleFtn s).ftn.stored = s.ftn.stored :=
  settleFtn_keeps (·.ftn.stored) (fun _ _ _ => by simp) (fun _ _ _ => rfl) (fun _ => rfl) (fun _ _ _ => rfl) (fun _ _ _ => rfl) s

theorem seq_settleFtn (s : State) : (settleFtn s).ftn.seq = s.ftn.seq :=
  settleFtn_keeps (·.ftn.seq) (fun _ _ _ => by simp) (fun _ _ _ => rfl) (fun _ => rfl) (fun _ _ _ => rfl) (fun _ _ _ => rfl) s

theorem ftn_useEpoch (s : State) : (useEpoch s).ftn = { s.ftn with epoch := some s.ftn.stored, seq := 0, mintBad := false } := by
  simp [useEpoch]

theorem ftn_commitEpoch (h : s.ftn.stored ≠ 0xFFFFFF) : (commitEpoch s).ftn = { s.ftn with stored := s.ftn.stored + 1 } := by
  rw [commitEpoch, if_neg h]
  simp

section
variable (hrun : s.mgt.running = true) (hopen : s.pwr.state ≠ .sealed) (hstep : 6 ≤ s.pwr.startStep)
include hrun hopen hstep

theorem epochAdv_first (hnone : s.ftn.epoch = none) (hlast : s.ftn.stored ≠ 0xFFFFFF) :
    Gives .epochAdv s (fun t => t.ftn.epoch = some (s.ftn.stored + 1) ∧ t.ftn.stored = s.ftn.stored + 1 ∧ t.ftn.seq = 0 ∧
      t.evtBit pgFtn evEpochAdv = true) := by
  have hone : epochAdv s = settleFtn (useEpoch (commitEpoch s)) := by
    simp only [epochAdv, hrun, hnone, if_neg hlast]
    rw [if_neg (by simp [hopen, hstep])]
  refine ⟨_, congrArg Host.Outcome.next hone, ?_, ?_, ?_, (dieWork_settleFtn _).evts _ _ (evtBit_setEvt_self _ _ _ (by decide))⟩
  · rw [epoch_settleFtn, ftn_useEpoch, ftn_commitEpoch hlast]
  · rw [stored_settleFtn, ftn_useEpoch, ftn_commitEpoch hlast]
  · rw [seq_settleFtn, ftn_useEpoch]

theorem epochAdv_ahead {e : BitVec 24} (he : s.ftn.epoch = some e) (hgood : s.ftn.mintBad = false) (hhalf : 2 ^ 39 ≤ s.ftn.seq)
    (hroom : s.ftn.seq < 2 ^ 40) (hstored : s.ftn.stored = e) (hlast : e ≠ 0xFFFFFF) :
    Gives .epochAdv s (fun t => t.ftn.epoch = some e ∧ t.ftn.stored = e + 1 ∧ t.ftn.seq = s.ftn.seq) := by
  have hcommit := ftn_commitEpoch (s := s) (by rw [hstored]; exact hlast)
  have hone : epochAdv s = settleFtn (commitEpoch s) := by
    have hnot : ¬ 2 ^ 40 ≤ (commitEpoch s).ftn.seq := by rw [hcommit]; exact Nat.not_le.mpr hroom
    have hdue : 2 ^ 39 ≤ s.ftn.seq ∧ s.ftn.stored = e := ⟨hhalf, hstored⟩
    simp only [epochAdv, hrun, he, hgood, if_pos hdue, hnot, false_and, if_false]
    rw [if_neg (by simp [hopen, hstep]), if_neg Bool.false_ne_true]
  refine ⟨_, congrArg Host.Outcome.next hone, ?_, ?_, ?_⟩
  · rw [epoch_settleFtn, hcommit, he]
  · rw [stored_settleFtn, hcommit, hstored]
  · rw [seq_settleFtn, hcommit]

end

/-! ## The kill switch (14 R463) -/

theorem regRow_ftnKill : regRow? .ftn 0x058 = some { base := 0x058, rw := 1 } := rfl

theorem exec_ftnKill {a : Access} {v : Word} (hall : Allowed a pgFtn 0x058 v s) :
    exec (.ftnKill a v) s = .next (doFtnKill v s) := by
  have hword : writeWord a {} (pgFtn * 4096 + 0x058) v s = doFtnKill v s := by
    simp only [writeWord, (by decide : (pgFtn * 4096 + 0x058) / 4096 = pgFtn), (by decide : (pgFtn * 4096 + 0x058) % 4096 = 0x058),
      (by decide : pageKind pgFtn = some .ftn), regRow_ftnKill]
    rfl
  rw [← hword, ← rowWrite_allowed {} hall rfl (by decide)]
  rfl

theorem killed_settleFtn (s : State) : (settleFtn s).killed = s.killed := by
  simp only [State.killed, State.bitAt, reg_eq]
  simp

theorem ftnKill_gives {a : Access} {v : Word} (hall : Allowed a pgFtn 0x058 v s) :
    Gives (.ftnKill a v) s (fun t => t.killed = bit v 0 ∧
      (bit v 0 = true → ∀ q, (t.port q).ntp = [] ∧ (t.port q).sealed = []) ∧ (bit v 0 = false → t.ports = s.ports)) := by
  refine ⟨_, exec_ftnKill hall, ?_, fun hon q => ?_, fun hoff => ?_⟩
  · have hreg : ((s.setReg pgFtn 0x058 (v &&& 1)).killed) = bit v 0 := by
      rw [State.killed, State.bitAt, reg_setReg_self]
      simp [bit]
    rw [doFtnKill, killed_settleFtn]
    split
    · exact hreg
    · exact hreg
  · rw [doFtnKill, port_settleFtn, if_pos hon]
    simp [State.port]
  · rw [doFtnKill, ports_settleFtn, if_neg (by simp [hoff])]
    simp

/-- Settles O46: a launch is sent, late or not served; an epoch is committed and used; the kill switch clears the ports' queues. -/
theorem launchesEpochsAndTheKillSwitch : Obligations.LaunchesEpochsAndTheKillSwitch := by
  intro s p cross r rest i acc v
  exact ⟨fun hsealed hup hlink hfree => ⟨ntsLaunch_noserve hsealed hup hlink hfree, ntsLaunch_sends hsealed hup hlink hfree,
      ntsLaunch_late hsealed hup hlink hfree⟩,
    fun e => sweeperVisit_frees, epochAdv_first, fun e hrun hopen hstep => epochAdv_ahead hrun hopen hstep, ftnKill_gives⟩

end Sys2Proof.Machine
end

section
/-!
PROOFS. Scope: a disabled queue cancels an alarm that still waits behind a FENCE (refutes O47).
-/

namespace Sys2Proof.Machine

/-- A FENCE that waits. -/
def waitingFence : Op :=
  { part := 0, q := 0, words := (Vector.replicate 16 (0 : Word)).set 0 0x01, order := 0, shared := false, phase := .waiting }

/-- An ALARM_SET that has been fetched behind it, and so is not dispatched (15 R483). -/
def fencedAlarm : Op :=
  { part := 0, q := 0, words := (Vector.replicate 16 (0 : Word)).set 0 0x12, order := 1, shared := false }

/-- Queue 0 of partition 0 runs and holds the two. -/
def fencedQueue : State :=
  ({ State.reset with
    pwr := { State.reset.pwr with pcieUp := true }
    parts := Vector.replicate 4 { linkUp := true, queues := Vector.replicate 8 { running := true } }
    ops := [(0, some waitingFence), (1, some fencedAlarm)] }.modPage (pgHp 0) (fun p => { p with owner := 0 })).setReg
      (pgHp 0) (qBase 0 + 0x10) 0x80000000

/-- A write of a whole word by partition 0. -/
def wholeWrite : Access := { part := 0, width := 4, be := 0xF, late := false }

theorem allowed_disable_fencedQueue : Allowed wholeWrite (pgHp 0) (qBase 0 + 0x10) (0 &&& 0x7FFFFFFF) fencedQueue := by
  unfold Allowed
  decide

/-- The alarm has not been dispatched, so that by the statement it would stay fetched. -/
theorem not_inFlight_fencedAlarm : fencedQueue.op? 1 = some fencedAlarm ∧ fencedQueue.inFlight fencedAlarm = false := by decide

/-- The disable cancels it all the same (R477). -/
theorem queueDisable_cancels_fencedAlarm : ∃ t, exec (.queueDisable wholeWrite 0 0) fencedQueue = .next t ∧
    (t.op? 1).map Op.phase = some (.done stCancelled) := ⟨_, rfl, by decide⟩

/-- Refutes O47: an ALARM_SET that waits behind a FENCE is not in flight, but the disable cancels it with the queue's other waits. -/
theorem not_doorbellsMoveOrFail : ¬ Obligations.DoorbellsMoveOrFail := by
  intro h
  obtain ⟨-, -, -, hdisable⟩ := h fencedQueue wholeWrite 0 0
  obtain ⟨t, ht, -, -, -, hops⟩ := hdisable allowed_disable_fencedQueue (by decide) (by decide) (by decide)
  obtain ⟨hop, hfenced⟩ := not_inFlight_fencedAlarm
  obtain ⟨u, hu, hcancelled⟩ := queueDisable_cancels_fencedAlarm
  obtain rfl : u = t := Host.Outcome.next.inj (hu.symm.trans ht)
  have hstays := hops 1 fencedAlarm hop rfl rfl
  rw [hcancelled, hfenced, if_neg fun hflight => Bool.false_ne_true hflight.1] at hstays
  exact absurd hstays (by decide)

end Sys2Proof.Machine
end

section
/-!
PROOFS. Scope: a queue fetches, completes, coalesces and stops (settles O48).
-/

namespace Sys2Proof.Machine

variable {s : State} {p : Part} {q : QNo}

theorem queue_of_parts {t : State} (h : t.parts = s.parts) (p : Part) (q : QNo) : t.queue p q = s.queue p q := by
  rw [State.queue, part_of_parts h, State.queue]

@[simp] theorem queue_count (s : State) (c n : Nat) (p : Part) (q : QNo) : (s.count c n).queue p q = s.queue p q :=
  queue_of_parts (by simp) p q

@[simp] theorem queue_evtIf (s : State) (c : Bool) (pg b : Nat) (p : Part) (q : QNo) : (s.evtIf c pg b).queue p q = s.queue p q :=
  queue_of_parts (by simp) p q

@[simp] theorem queue_setEvt (s : State) (pg b : Nat) (p : Part) (q : QNo) : (s.setEvt pg b).queue p q = s.queue p q :=
  queue_of_parts (by simp) p q

@[simp] theorem queue_setOp (s : State) (t : Tag) (o : Option Op) (p : Part) (q : QNo) : (s.setOp t o).queue p q = s.queue p q := rfl

theorem queue_modQueue_part_ne (s : State) {p r : Part} (q i : QNo) (f : Queue → Queue) (h : r ≠ p) :
    (s.modQueue p q f).queue r i = s.queue r i := by
  unfold State.queue State.modQueue
  rw [part_modPart_ne _ _ h]

/-- What a change of some queue keeps is kept in every queue. -/
theorem queue_modQueue_keeps {α : Type} (g : Queue → α) {f : Queue → Queue} (hf : ∀ x, g (f x) = g x) (s : State) (p r : Part)
    (q i : QNo) : g ((s.modQueue p q f).queue r i) = g (s.queue r i) := by
  by_cases hp : r = p
  · subst hp
    by_cases hq : i = q
    · subst hq; rw [queue_modQueue_self, hf]
    · rw [queue_modQueue_ne _ _ _ hq]
  · rw [queue_modQueue_part_ne _ _ _ _ hp]

/-- Finishing an operation moves no head. -/
theorem sqHead_finish (s : State) (t : Tag) (st : Byte) (res : Vector Word 6) (p : Part) (q : QNo) :
    ((s.finish t st res).queue p q).sqHead = (s.queue p q).sqHead := by
  unfold State.finish
  split
  · rfl
  · split
    · rfl
    · dsimp only
      rw [queue_evtIf, queue_evtIf]
      refine (queue_modQueue_keeps Queue.sqHead ?_ _ _ _ _ _).trans (by rw [queue_setOp])
      exact fun _ => rfl

/-! ## Fetching (15 R471, R473, R478, R480) -/

/-- The operation that an entry makes. -/
def State.fetchedOp (s : State) (p : Part) (q : QNo) (w : Vector Word 16) : Op :=
  let e : Op := { part := p, q := q, words := w, order := (s.queue p q).nextOrder, shared := false }
  match e.fencePage with
  | some pg => { e with fenceWait := some (s.page pg).bufCnt, heldSeen := (s.page pg).hold }
  | none => e

theorem fetchedOp_fields (s : State) (p : Part) (q : QNo) (w : Vector Word 16) :
    (s.fetchedOp p q w).part = p ∧ (s.fetchedOp p q w).q = q ∧ (s.fetchedOp p q w).words = w ∧
    (s.fetchedOp p q w).shared = false ∧ (s.fetchedOp p q w).phase = .fetched := by
  unfold State.fetchedOp
  dsimp only
  split <;> exact ⟨rfl, rfl, rfl, rfl, rfl⟩

/-- The state after an entry's tag is taken, its operation not finished yet. -/
def State.tagTaken (s : State) (p : Part) (q : QNo) (w : Vector Word 16) (t : Tag) : State :=
  ((({ s with fresh := s.fresh + 1 }.setOp t (some (s.fetchedOp p q w))).modQueue p q
    (fun y => { y with sqHead := (y.sqHead + 1) % sqDepth s p q, nextOrder := y.nextOrder + 1 })).modPart p
      (fun y => { y with turn := q })).count (cntPart p 0) 1

theorem op_tagTaken (s : State) (p : Part) (q : QNo) (w : Vector Word 16) (t r : Tag) :
    (s.tagTaken p q w t).op? r = if r = t then some (s.fetchedOp p q w) else s.op? r := by
  rw [State.tagTaken, op_count, op_of_ops (s := { s with fresh := s.fresh + 1 }.setOp t (some (s.fetchedOp p q w))) (by rfl)]
  split
  · next h => subst h; exact op_setOp_self _ _ _
  · next h => exact op_setOp_ne _ _ h

theorem sqHead_tagTaken (s : State) (p : Part) (q : QNo) (w : Vector Word 16) (t : Tag) :
    ((s.tagTaken p q w t).queue p q).sqHead = ((s.queue p q).sqHead + 1) % sqDepth s p q := by
  rw [State.tagTaken, queue_count]
  simp [State.queue, State.modQueue, State.part, State.modPart, State.setPart, State.setOp]

section
variable {w : Vector Word 16} (hup : s.hostUp p = true) (hgo : (s.part p).paused = false) (hen : qEn s p q = true)
  (hrun : (s.queue p q).running = true) (hok : (s.queue p q).error = false) (hwork : (s.queue p q).sqHead ≠ (s.queue p q).sqTail)
  (hqueue : (queueOps s p q).length < 64) (hreserve : (s.opList.filter (fun e => e.2.part == p && !e.2.shared)).length < 64)
include hup hgo hen hrun hok hwork hqueue hreserve

/-- A queue that may fetch from its partition's reserve fetches in its turn, while a tag is free. -/
theorem entryFetch_of_asks : entryFetch p q w s = if queueTurn s p q then
    match freeTag s with
    | none => s.count (cntPart p 10) 1
    | some t => if knownOpcode (s.fetchedOp p q w).opcode then s.tagTaken p q w t else (s.tagTaken p q w t).finish t stInvalidOp
    else s := by
  have hasks : queueAsks s p q = true := by simp [queueAsks, hup, hgo, hen, hrun, hok, hwork]
  have hown : needsShared s p = false := decide_eq_false (Nat.not_le.mpr hreserve)
  have hmay : tagMayBe s p q = true := by simp [tagMayBe, hqueue, hown]
  simp only [entryFetch, hasks, hown, hmay]
  cases hturn : queueTurn s p q with
  | false => rfl
  | true => cases freeTag s <;> rfl

theorem entryFetch_fetches {t : Tag} (hturn : queueTurn s p q = true) (hfree : freeTag s = some t) :
    Gives (.entryFetch p q w) s (fun u => (u.queue p q).sqHead = ((s.queue p q).sqHead + 1) % sqDepth s p q ∧
      ∃ x, u.op? t = some x ∧ x.part = p ∧ x.q = q ∧ x.words = w ∧ x.shared = false ∧
        x.phase = (if knownOpcode x.opcode then .fetched else .done stInvalidOp) ∧ ∀ r, r ≠ t → u.op? r = s.op? r) := by
  have hone := entryFetch_of_asks (w := w) hup hgo hen hrun hok hwork hqueue hreserve
  rw [if_pos hturn, hfree] at hone
  dsimp only at hone
  obtain ⟨hpart, hq, hwords, hshared, hphase⟩ := fetchedOp_fields s p q w
  have hop : (s.tagTaken p q w t).op? t = some (s.fetchedOp p q w) := (op_tagTaken s p q w t t).trans (if_pos rfl)
  have hrest : ∀ r, r ≠ t → (s.tagTaken p q w t).op? r = s.op? r := fun r hr => (op_tagTaken s p q w t r).trans (if_neg hr)
  refine ⟨_, congrArg Host.Outcome.next hone, ?_⟩
  cases hknown : knownOpcode (s.fetchedOp p q w).opcode with
  | true => exact ⟨sqHead_tagTaken s p q w t, _, hop, hpart, hq, hwords, hshared, by rw [hknown, hphase]; rfl, hrest⟩
  | false =>
    have hdone : (s.fetchedOp p q w).isDone = false := by rw [Op.isDone, hphase]
    refine ⟨(sqHead_finish _ _ _ _ _ _).trans (sqHead_tagTaken s p q w t), _, op_finish_self _ t _ stInvalidOp noResult hop hdone,
      hpart, hq, hwords, hshared, ?_, fun r hr => (op_finish_ne _ _ _ hr).trans (hrest r hr)⟩
    exact (if_neg (by rw [Bool.not_eq_true]; exact hknown)).symm

end

/-! ## Completions (15 R474, R475, R479) -/

section
variable {t : Tag} {o : Op} (hready : nextReadyOp s p q = some (t, o)) (hup : s.hostUp p = true)
  (hrun : (s.queue p q).running = true) (hroom : ((s.queue p q).cqTail + 1) % cqDepth s p q ≠ (s.queue p q).cqHead)

/-- The state after a completion is written, before it is counted and signalled. -/
def State.completed (s : State) (p : Part) (q : QNo) (t : Tag) (o : Op) : State :=
  ((s.emit (.hostMem p (s.wideAt (pgHp p) (qBase q + 0x08) + (s.queue p q).cqTail * 32)
    (completionEntry (s.queue p q) q t o))).setOp t none).modQueue p q (fun y =>
      { y with cqTail := (y.cqTail + 1) % cqDepth s p q
               phase := if ((s.queue p q).cqTail + 1) % cqDepth s p q == 0 then !y.phase else y.phase, unacked := y.unacked + 1 })

theorem op_completed (s : State) (p : Part) (q : QNo) (t r : Tag) (o : Op) :
    (s.completed p q t o).op? r = if r = t then none else s.op? r := by
  change (State.setOp (s.emit _) t none).op? r = _
  split
  · next h => subst h; exact op_setOp_self _ _ _
  · next h => exact op_setOp_ne _ _ h

/-- A completion is counted by its status. -/
def State.countStatus (s : State) (p : Part) (st : Byte) : State :=
  let s3 := s.count (cntPart p (if st = stOk then 1 else 2)) 1
  if st = stRetry then s3.count (cntPart p 13) 1 else if st = stTimeout then s3.count (cntPart p 14) 1
    else if st = stHostMemory then s3.count (cntPart p 15) 1 else s3

theorem countStatus_leaves (s : State) (p : Part) (st : Byte) : (s.countStatus p st).ops = s.ops ∧
    (s.countStatus p st).parts = s.parts ∧ (s.countStatus p st).outs = s.outs := by
  unfold State.countStatus
  dsimp only
  split_ifs <;> simp

include hready hup hrun hroom

/-- What follows a completion's writing counts it, and may signal a vector. -/
theorem completionWrite_of_ready : (completionWrite p q s).ops = (s.completed p q t o).ops ∧
    (completionWrite p q s).parts = (s.completed p q t o).parts ∧
    ∀ x, x ∈ (s.completed p q t o).outs → x ∈ (completionWrite p q s).outs := by
  have hone : ∃ (c : Bool) (v : Nat), completionWrite p q s = if c then ((s.completed p q t o).countStatus p (statusOf o)).msix p v
      else (s.completed p q t o).countStatus p (statusOf o) := by
    have hwrites : (s.hostUp p && (s.queue p q).running &&
        (((s.queue p q).cqTail + 1) % cqDepth s p q != (s.queue p q).cqHead)) = true := by
      simp [hup, hrun, hroom]
    simp only [completionWrite, hready, hwrites, if_true]
    exact ⟨_, _, rfl⟩
  obtain ⟨c, v, hone⟩ := hone
  obtain ⟨hops, hparts, houts⟩ := countStatus_leaves (s.completed p q t o) p (statusOf o)
  rw [hone]
  cases c with
  | false => exact ⟨hops, hparts, fun x hx => houts ▸ hx⟩
  | true => exact ⟨by simpa using hops, by simpa using hparts, fun x hx => mem_outs_msix _ _ (houts ▸ hx)⟩

theorem completionWrite_gives :
    Gives (.completionWrite p q) s (fun u => u.op? t = none ∧
      (u.queue p q).cqTail = ((s.queue p q).cqTail + 1) % cqDepth s p q ∧
      (u.queue p q).phase = (if ((s.queue p q).cqTail + 1) % cqDepth s p q = 0 then !(s.queue p q).phase else (s.queue p q).phase) ∧
      .hostMem p (s.wideAt (pgHp p) (qBase q + 0x08) + (s.queue p q).cqTail * 32) (completionEntry (s.queue p q) q t o) ∈ u.outs ∧
      ∀ r, r ≠ t → u.op? r = s.op? r) := by
  obtain ⟨hops, hparts, houts⟩ := completionWrite_of_ready hready hup hrun hroom
  have hqueue : (s.completed p q t o).queue p q = { s.queue p q with
      cqTail := ((s.queue p q).cqTail + 1) % cqDepth s p q
      phase := if ((s.queue p q).cqTail + 1) % cqDepth s p q == 0 then !(s.queue p q).phase else (s.queue p q).phase
      unacked := (s.queue p q).unacked + 1 } := queue_modQueue_self _ _ _ _
  refine ⟨_, rfl, ?_, ?_, ?_, houts _ ?_, fun r hr => ?_⟩
  · rw [op_of_ops hops, op_completed, if_pos rfl]
  · rw [queue_of_parts hparts, hqueue]
  · rw [queue_of_parts hparts, hqueue]
    simp
  · simp [State.completed, State.emit]
  · rw [op_of_ops hops, op_completed, if_neg hr]

end

theorem completionWrite_of_unready (h : nextReadyOp s p q = none ∨ ((s.queue p q).cqTail + 1) % cqDepth s p q = (s.queue p q).cqHead) :
    completionWrite p q s = s := by
  rcases h with h | h
  · simp [completionWrite, h]
  · simp only [completionWrite]
    split
    · rfl
    · simp [h]

theorem irqCoalesce_signals (hirq : bit (qCfg s p q) 16 = true) (hwait : 0 < (s.queue p q).unacked) :
    irqCoalesce p q s = s.msix p (bits (qCfg s p q) 12 8) := by
  simp [irqCoalesce, hirq, hwait]

/-- A disabled queue stops once it holds no tag (R477). -/
theorem qStopped_gives (hoff : qEn s p q = false) (hrun : (s.queue p q).running = true) (hnone : (queueOps s p q).isEmpty = true) :
    Gives (.qStopped p q) s (fun u => (u.queue p q).running = false ∧ (u.queue p q).sqHead = 0 ∧ (u.queue p q).cqTail = 0 ∧
      (u.queue p q).phase = true ∧ u.evtBit (pgHp p) (evQStopped q) = true) := by
  refine ⟨_, congrArg Host.Outcome.next (if_pos (by simp [hoff, hrun, hnone])), ?_⟩
  beta_reduce
  rw [queue_setEvt, queue_modQueue_self]
  exact ⟨rfl, rfl, rfl, rfl, evtBit_setEvt_self _ _ _ (by unfold evQStopped; omega)⟩

/-- Settles O48: a fetch takes a tag in the queue's turn, and the completion that was ready first is written with its tag returned. -/
theorem queuesFetchAndComplete : Obligations.QueuesFetchAndComplete := by
  intro s p q w t o
  refine ⟨fun hup hgo hen hrun hok hwork hqueue hreserve => ⟨fun hturn => ?_,
      entryFetch_fetches hup hgo hen hrun hok hwork hqueue hreserve⟩,
    completionWrite_gives, fun h => ⟨_, congrArg Host.Outcome.next (completionWrite_of_unready h), rfl⟩,
    fun hirq hwait => ⟨_, congrArg Host.Outcome.next (irqCoalesce_signals hirq hwait), rfl⟩, qStopped_gives⟩
  have hone := entryFetch_of_asks (w := w) hup hgo hen hrun hok hwork hqueue hreserve
  rw [hturn, if_neg Bool.false_ne_true] at hone
  exact ⟨_, congrArg Host.Outcome.next hone, rfl⟩

end Sys2Proof.Machine
end

section
/-!
PROOFS. Scope: tamper responses and zeroise (settles O22).
-/

namespace Sys2Proof.Machine

variable {s : State} {src : Fin 9}

/-! ## A cut of key operations leaves every generation (16 R514) -/

theorem gen_setSlotKey (s : State) (n m : KeyNo) {k : KeySlot} (h : k.gen = (s.slotKey n).gen) :
    ((s.setSlotKey n k).slotKey m).gen = (s.slotKey m).gen := by
  by_cases hm : m = n
  · subst hm; rw [slotKey_setSlotKey_self, h]
  · rw [slotKey_setSlotKey_ne _ _ hm]

theorem gen_keyCut (o : Op) (s : State) (m : KeyNo) : ((keyCut o s).slotKey m).gen = (s.slotKey m).gen := by
  simp only [keyCut, keyCutAt]
  split_ifs
  · rfl
  · exact gen_setSlotKey _ _ _ rfl
  · exact gen_setSlotKey _ _ _ rfl
  · rfl

theorem gen_cutKeys (which : Op → Bool) (s : State) (m : KeyNo) : ((cutKeys which s).slotKey m).gen = (s.slotKey m).gen :=
  List.foldlRecOn (motive := fun (a : State) => (a.slotKey m).gen = (s.slotKey m).gen) _ _ rfl
    fun a h e _ => (gen_keyCut e.2 a m).trans h

/-! ## SEALED (16 R521, R524) -/

/-- In SEALED no material is left: each slot is unloaded with its generation, and the engines hold no session and no table. -/
theorem sealModule_leaves (s : State) : (sealModule s).pwr = { s.pwr with state := .sealed, pcieUp := true } ∧
    (∃ v, (sealModule s).keys = { s.keys with slots := v, kint := none, kwrap := none, storeLoaded := false }) ∧
    (∀ n, ((sealModule s).slotKey n).loaded = false ∧ ((sealModule s).slotKey n).cur = none ∧
      ((sealModule s).slotKey n).prev = none ∧ ((sealModule s).slotKey n).gen = (s.slotKey n).gen) ∧
    (sealModule s).ptp.sessions = [] ∧ (sealModule s).ftn.table = [] := by
  obtain ⟨v, hv⟩ := slotsOnly_cutKeys (fun _ => true) s
  have hkeys : (sealModule s).keys = { s.keys with
      slots := ((cutKeys (fun _ => true) s).keys.slots.map KeySlot.unload), kint := none, kwrap := none, storeLoaded := false } := by
    simp only [sealModule, stopServing]
    cases s.pwr.pcieUp <;> simp [hv]
  refine ⟨?_, ⟨_, hkeys⟩, fun n => ?_, rfl, rfl⟩
  · simp only [sealModule, stopServing]
    cases s.pwr.pcieUp <;> simp
  · have hslot : (sealModule s).slotKey n = ((cutKeys (fun _ => true) s).slotKey n).unload := by
      simp [State.slotKey, hkeys]
    rw [hslot]
    exact ⟨rfl, rfl, rfl, gen_cutKeys _ s n⟩

/-! ## Tamper sources (16 R519 to R523) -/

/-- The bit of a source in KEY_TAMP_RAW and in the latch. -/
def srcBit (src : Fin 9) : BitVec 9 := BitVec.ofNat 9 (2 ^ src.val)

/-- The latch and the noted time after a source whose response latches. -/
def State.latched (s : State) (src : Fin 9) : State :=
  { s with keys := { s.keys with
      raw := s.keys.raw ||| srcBit src, latch := s.keys.latch ||| srcBit src
      tampTime := if s.keys.latch = 0 then s.pwr.rtcSec else s.keys.tampTime } }

/-- The latched state as it goes into SEALED. -/
def State.sealing (s : State) (src : Fin 9) : State :=
  { s.latched src with
    keys := { (s.latched src).keys with erasing := s.keys.erasing || tampResp s src == 3 }
    pwr := { s.pwr with lastCause := 6 } }

theorem tamperSource_seals (hpower : s.pwr.state ≠ .standby) (hfeed : (s.pwr.feeds.a.detected || s.pwr.feeds.b.detected) = true)
    (hresp : 2 ≤ tampResp s src) : tamperSource src s =
      ((sealModule (s.sealing src)).logRec 0x0004 (2 ^ src.val + 2 ^ 16 * tampResp s src)).fault 3 pgKey kTamper sevError
          (Config.detectorOf pgKey kTamper) 0 := by
  simp only [tamperSource, hfeed]
  rw [if_neg (by simp), if_neg (by omega), if_neg (by omega), if_neg hpower]
  rfl

theorem tamper_seals (hpower : s.pwr.state ≠ .standby) (hfeed : (s.pwr.feeds.a.detected || s.pwr.feeds.b.detected) = true)
    (hresp : 2 ≤ tampResp s src) :
    Gives (.tamper src) s (fun t =>
      t.pwr.state = .sealed ∧ t.keys.latch = s.keys.latch ||| BitVec.ofNat 9 (2 ^ src.val) ∧ t.keys.kint = none ∧
      t.keys.kwrap = none ∧ t.keys.storeLoaded = false ∧
      (∀ n, (t.slotKey n).loaded = false ∧ (t.slotKey n).cur = none ∧ (t.slotKey n).prev = none ∧
        (t.slotKey n).gen = (s.slotKey n).gen) ∧
      t.ptp.sessions = [] ∧ t.ftn.table = [] ∧ t.keys.erasing = (s.keys.erasing || tampResp s src == 3) ∧
      t.keys.fuse = s.keys.fuse) := by
  obtain ⟨hpwr, ⟨v, hkeys⟩, hslots, hsess, htable⟩ := sealModule_leaves (s.sealing src)
  have hstays : (((sealModule (s.sealing src)).logRec 0x0004 (2 ^ src.val + 2 ^ 16 * tampResp s src)).fault 3 pgKey kTamper
      sevError (Config.detectorOf pgKey kTamper) 0).keys = (sealModule (s.sealing src)).keys := by simp
  refine ⟨_, congrArg Host.Outcome.next (tamperSource_seals hpower hfeed hresp), ?_, ?_, ?_, ?_, ?_, fun n => ?_, ?_, ?_, ?_, ?_⟩
  · simp [hpwr]
  · rw [hstays, hkeys]; rfl
  · rw [hstays, hkeys]
  · rw [hstays, hkeys]
  · rw [hstays, hkeys]
  · rw [slotKey_of_keys hstays]
    exact hslots n
  · simpa using hsess
  · simpa using htable
  · rw [hstays, hkeys]; rfl
  · rw [hstays, hkeys]; rfl

theorem tamper_standby (hpower : s.pwr.state = .standby) (hisland : islandSrc src = true) (hresp : 2 ≤ tampResp s src) :
    Gives (.tamper src) s (fun t =>
      t.keys.latch = s.keys.latch ||| BitVec.ofNat 9 (2 ^ src.val) ∧ t.pwr = s.pwr ∧ t.keys.slots = s.keys.slots ∧
      t.keys.erasePend = (s.keys.erasePend || tampResp s src == 3) ∧ t.pages = s.pages) := by
  have hone : tamperSource src s = { s.latched src with
      keys := { (s.latched src).keys with erasePend := s.keys.erasePend || tampResp s src == 3 } } := by
    simp only [tamperSource]
    rw [if_neg (by simp [hisland]), if_neg (by omega), if_neg (by omega), if_pos hpower]
    rfl
  exact ⟨_, congrArg Host.Outcome.next hone, rfl, rfl, rfl, rfl, rfl⟩

theorem tamper_off (hresp : tampResp s src = 0) :
    Gives (.tamper src) s (fun t => t.keys.latch = s.keys.latch ∧ t.keys.slots = s.keys.slots ∧ t.pwr = s.pwr ∧
      t.pages = s.pages) := by
  refine ⟨_, rfl, ?_⟩
  simp only [tamperSource, hresp, if_true]
  split <;> exact ⟨rfl, rfl, rfl, rfl⟩

/-! ## Zeroise (16 R517, R523, R526) -/

/-- A slot as zeroise leaves it. -/
def KeySlot.zeroed (k : KeySlot) : KeySlot :=
  { k with used := true, zeroised := true, badslot := false, loaded := false, cur := none, prev := none
           banks := Vector.replicate 2 {} }

theorem zeroed_fields (k : KeySlot) : k.zeroed.stateCode = 2 ∧ k.zeroed.loaded = false ∧ k.zeroed.cur = none ∧
    k.zeroed.prev = none ∧ k.zeroed.gen = k.gen := ⟨rfl, rfl, rfl, rfl, rfl⟩

theorem slotKey_zeroiseSlot (s : State) (n m : KeyNo) :
    (zeroiseSlot s n).slotKey m = if m = n then (s.slotKey n).zeroed else s.slotKey m := by
  rw [zeroiseSlot, slotKey_of_keys (s := s.setSlotKey n (s.slotKey n).zeroed) (by simp; rfl)]
  split
  · next h => subst h; exact slotKey_setSlotKey_self _ _ _
  · next h => exact slotKey_setSlotKey_ne _ _ h

theorem slotKey_zeroiseOne (s : State) (n m : KeyNo) :
    (zeroiseOne s n).slotKey m = if m = n then (s.slotKey n).zeroed else s.slotKey m := by
  rw [zeroiseOne, slotKey_zeroiseSlot, slotKey_of_keys (s := s) (by simp) n, slotKey_of_keys (s := s) (by simp) m]

/-- Work on each slot that zeroises it and leaves the others zeroises every slot. -/
theorem slotKey_zeroiseEach {g : State → KeyNo → State}
    (hg : ∀ a n m, (g a n).slotKey m = if m = n then (a.slotKey n).zeroed else a.slotKey m) (s : State) (m : KeyNo) :
    (allKeys.foldl g s).slotKey m = (s.slotKey m).zeroed := by
  have hfold : ∀ (l : List KeyNo), l.Nodup → ∀ a, (l.foldl g a).slotKey m = if m ∈ l then (a.slotKey m).zeroed else a.slotKey m := by
    intro l
    induction l with
    | nil => intro _ _; rfl
    | cons n r ih =>
      intro hl a
      obtain ⟨hfresh, hr⟩ := List.nodup_cons.mp hl
      rw [List.foldl_cons, ih hr, hg]
      by_cases hm : m = n
      · subst hm; simp [hfresh]
      · simp [hm]
  rw [hfold allKeys (List.nodup_finRange 64), if_pos (show m ∈ allKeys from List.mem_finRange m)]

theorem eraseComplete_gives (herase : s.keys.erasing = true) :
    Gives .eraseComplete s (fun t => t.keys.erasing = false ∧ t.keys.erasePend = false ∧
      ∀ n, (t.slotKey n).stateCode = 2 ∧ (t.slotKey n).cur = none ∧ (t.slotKey n).gen = (s.slotKey n).gen) := by
  refine ⟨_, congrArg Host.Outcome.next (if_pos herase), rfl, rfl, fun n => ?_⟩
  have hslot := slotKey_zeroiseEach slotKey_zeroiseSlot s n
  obtain ⟨hstate, -, hcur, -, hgen⟩ := zeroed_fields (s.slotKey n)
  rw [← hslot] at hstate hcur hgen
  exact ⟨hstate, hcur, hgen⟩

theorem regRow_zeroise : regRow? .key 0x044 = some { base := 0x044, rw := 0x13F } := rfl

/-- A write of KEY_ZEROISE that meets no cause zeroises what it names, and the engines take note (R517). -/
theorem rowWrite_zeroise {a : Access} {v : Word} (hall : Allowed a pgKey 0x044 v s) :
    rowWrite a pgKey 0x044 v s =
      settleFtn (saRefresh (if bit v 8 then zeroiseAll s else zeroiseOne s (Fin.ofNat 64 (bits v 5 0)))) := by
  rw [rowWrite_allowed {} hall rfl (by decide)]
  simp only [writeWord, (by decide : (pgKey * 4096 + 0x044) / 4096 = pgKey), (by decide : (pgKey * 4096 + 0x044) % 4096 = 0x044),
    (by decide : pageKind pgKey = some .key), regRow_zeroise]
  rfl

/-- A slot's number stands in its own field, with ALL at 0. -/
theorem keyNo_word : ∀ n : KeyNo,
    Fin.ofNat 64 (bits (BitVec.ofNat 32 n.val) 5 0) = n ∧ bit (BitVec.ofNat 32 n.val) 8 = false := by decide

theorem keyZeroise_gives {a : Access} {n : KeyNo} (hall : Allowed a pgKey 0x044 (BitVec.ofNat 32 n.val) s) :
    Gives (.keyZeroise a n) s (fun t =>
      (t.slotKey n).stateCode = 2 ∧ (t.slotKey n).loaded = false ∧ (t.slotKey n).cur = none ∧ (t.slotKey n).prev = none ∧
      (t.slotKey n).gen = (s.slotKey n).gen ∧ (∀ m, m ≠ n → t.slotKey m = s.slotKey m) ∧ t.keys.fuse = s.keys.fuse) := by
  have hone := rowWrite_zeroise hall
  rw [(keyNo_word n).1, (keyNo_word n).2, if_neg Bool.false_ne_true] at hone
  have hkey : ∀ m, (settleFtn (saRefresh (zeroiseOne s n))).slotKey m = if m = n then (s.slotKey n).zeroed else s.slotKey m :=
    fun m => (slotKey_of_keys (by simp) m).trans (slotKey_zeroiseOne s n m)
  obtain ⟨hstate, hload, hcur, hprev, hgen⟩ := zeroed_fields (s.slotKey n)
  refine ⟨_, congrArg Host.Outcome.next hone, ?_⟩
  beta_reduce
  rw [hkey n, if_pos rfl]
  exact ⟨hstate, hload, hcur, hprev, hgen, fun m hm => (hkey m).trans (if_neg hm), by simp⟩

theorem keyZeroiseAll_gives {a : Access} (hall : Allowed a pgKey 0x044 0x100 s) :
    Gives (.keyZeroiseAll a) s (fun t =>
      ∀ m, (t.slotKey m).stateCode = 2 ∧ (t.slotKey m).cur = none ∧ (t.slotKey m).gen = (s.slotKey m).gen) := by
  have hone := rowWrite_zeroise hall
  rw [if_pos (by decide)] at hone
  refine ⟨_, congrArg Host.Outcome.next hone, fun m => ?_⟩
  obtain ⟨hstate, -, hcur, -, hgen⟩ := zeroed_fields (s.slotKey m)
  rw [slotKey_of_keys (s := zeroiseAll s) (by simp), zeroiseAll, slotKey_zeroiseEach slotKey_zeroiseOne]
  exact ⟨hstate, hcur, hgen⟩

/-- Settles O22: a tamper source seals, latches or does nothing by its response and the power, and zeroise works slot by slot. -/
theorem keysAreErasedOnTamperAndCommand : Obligations.KeysAreErasedOnTamperAndCommand :=
  ⟨fun _ _ => ⟨tamper_seals, tamper_standby, tamper_off, eraseComplete_gives⟩, fun _ _ _ => ⟨keyZeroise_gives, keyZeroiseAll_gives⟩⟩

end Sys2Proof.Machine
end

section
/-!
PROOFS. Scope: what answering a mailbox command leaves, and the commands that inform, set policies and restart (settles O56).
-/

namespace Sys2Proof.Machine

variable {s t u : State} {src : Transport} {cmd : Nat} {tag : BitVec 16} {priv : Bool}

/-! ## Work of the mailboxes (18 R565 to R567) -/

/-- What Milondino holds apart from the requests, the answers and the queue of log records. -/
def Mgt.aside (m : Mgt) : Mgt :=
  { m with held := [], wdogOnce := false, smbAlert := false, ethTx := 0, logQ := [], logDropped := 0 }

/-- Answering changes nothing of Milondino but its requests, answers and queued records, no key and no power, and takes back
no output and no event. -/
structure State.Mailed (s t : State) : Prop where
  mgt : t.mgt.aside = s.mgt.aside
  keys : t.keys = s.keys
  pwr : t.pwr = s.pwr
  flt : t.flt = s.flt
  outs : ∀ o ∈ s.outs, o ∈ t.outs
  evts : s.EvtsStay t

theorem State.Mailed.refl (s : State) : s.Mailed s := ⟨rfl, rfl, rfl, rfl, fun _ h => h, .refl s⟩

theorem State.Mailed.trans (a : s.Mailed t) (b : t.Mailed u) : s.Mailed u :=
  ⟨b.mgt.trans a.mgt, b.keys.trans a.keys, b.pwr.trans a.pwr, b.flt.trans a.flt, fun o h => b.outs o (a.outs o h), a.evts.trans b.evts⟩

/-- Work that leaves what answering leaves may follow. -/
theorem State.Mailed.keep (a : s.Mailed t) (hmgt : u.mgt.aside = t.mgt.aside) (hkeys : u.keys = t.keys) (hpwr : u.pwr = t.pwr)
    (hflt : u.flt = t.flt) (houts : u.outs = t.outs) (hpages : u.pages = t.pages) : s.Mailed u :=
  a.trans ⟨hmgt, hkeys, hpwr, hflt, fun o h => by rw [houts]; exact h, (State.EvtsStay.refl t).keep hpages⟩

theorem State.Mailed.setEvt (a : s.Mailed t) (pg b : Nat) : s.Mailed (t.setEvt pg b) :=
  a.trans ⟨by simp, by simp, by simp, by simp, fun _ => mem_outs_setEvt pg b, (State.EvtsStay.refl t).setEvt pg b⟩

theorem State.Mailed.setReg (a : s.Mailed t) (pg o : Nat) (v : Word) : s.Mailed (t.setReg pg o v) :=
  a.trans ⟨rfl, rfl, rfl, rfl, fun _ h => h, evtsStay_setReg t pg o v⟩

theorem mailed_foldl {α : Type} {g : State → α → State} (hg : ∀ (a : State) x, a.Mailed (g a x)) (l : List α) (s : State) :
    s.Mailed (l.foldl g s) := by
  induction l generalizing s with
  | nil => exact .refl s
  | cons x xs ih => exact (hg s x).trans (ih _)

theorem State.Mailed.logRec (a : s.Mailed t) (typ data : Nat) (inj : Bool) : s.Mailed (t.logRec typ data inj) := by
  unfold State.logRec
  split
  · exact a.keep rfl rfl rfl rfl rfl rfl
  · refine State.Mailed.setEvt ?_ pgMgt evMgtLogOvf
    exact a.keep rfl rfl rfl rfl rfl rfl

theorem mailed_ethAnswer (dst : BitVec 48) (cmd : Nat) (tag : BitVec 16) (status n : Nat) (s : State) :
    s.Mailed (ethAnswer dst cmd tag status n s) := by
  unfold ethAnswer
  split
  · exact ⟨rfl, rfl, rfl, rfl, fun _ => mem_outs_emit, (State.EvtsStay.refl s).keep rfl⟩
  · exact .refl s

/-- The state with a request answered: it waits no more, and the answer is an output. -/
def State.told (s : State) (src : Transport) (o : Out) : State :=
  { s with mgt := { s.mgt with held := removeReq s.mgt.held src, wdogOnce := false } }.emit o

theorem mailed_told (s : State) (src : Transport) (o : Out) : s.Mailed (s.told src o) :=
  ⟨rfl, rfl, rfl, rfl, fun _ => mem_outs_emit, (State.EvtsStay.refl s).keep rfl⟩

/-- The words of a partition's mailbox after an answer of a length (18 R567). -/
def State.answerWords (s : State) (p : Part) (cmd : Nat) (tag : BitVec 16) (st len : Nat) (vals : List Nat) : State :=
  let a := (s.setReg (pgHp p) 0x500 (fld cmd 0 ||| fld len 16)).setReg (pgHp p) 0x504 (fld tag.toNat 0 ||| fld st 16)
  if vals.isEmpty then a
  else (List.range 62).foldl (fun x i => x.setReg (pgHp p) (0x508 + 4 * i) (BitVec.ofNat 32 (Config.free (s.fresh + 1 + i)))) a

theorem mailed_answerWords (s : State) (p : Part) (cmd : Nat) (tag : BitVec 16) (st len : Nat) (vals : List Nat) :
    s.Mailed (s.answerWords p cmd tag st len vals) := by
  have hhead := ((State.Mailed.refl s).setReg (pgHp p) 0x500 (fld cmd 0 ||| fld len 16)).setReg (pgHp p) 0x504
    (fld tag.toNat 0 ||| fld st 16)
  unfold State.answerWords
  split
  · exact hhead
  · exact hhead.trans (mailed_foldl (fun a i => (State.Mailed.refl a).setReg _ _ _) _ _)

/-- A partition's mailbox with an answer in its words and DONE set (18 R567). -/
def State.answerDone (s : State) (p : Part) (cmd : Nat) (tag : BitVec 16) (st : Nat) (vals : List Nat) : State :=
  { s.answerWords p cmd tag st (if vals.isEmpty then 0 else 4 + Config.free s.fresh % 245) vals with
    fresh := s.fresh + 63 }.modPart p (fun x => { x with mbxDone := true })

/-- An answer to a partition: DONE and its event, then the record of the command. -/
theorem answer_part (p : Part) (cmd : Nat) (tag : BitVec 16) (st : Nat) (vals : List Nat) (s : State) :
    answer (.part p) cmd tag st vals s =
      (((s.told (.part p) (.mailbox (.part p) cmd tag st vals)).answerDone p cmd tag st vals).setEvt (pgHp p) evMbxDone).logRec
        0x0009 (cmd + 2 ^ 16 * st) := rfl

theorem told_answer (src : Transport) (cmd : Nat) (tag : BitVec 16) (st : Nat) (vals : List Nat) (s : State) :
    (s.told src (.mailbox src cmd tag st vals)).Mailed (answer src cmd tag st vals s) := by
  let u := s.told src (.mailbox src cmd tag st vals)
  cases src with
  | part p =>
    have hwords := mailed_answerWords u p cmd tag st (if vals.isEmpty then 0 else 4 + Config.free u.fresh % 245) vals
    have hdone := hwords.keep (u := u.answerDone p cmd tag st vals) rfl rfl rfl rfl rfl rfl
    rw [answer_part]
    exact (hdone.setEvt (pgHp p) evMbxDone).logRec _ _ _
  | smbus =>
    have halert := (State.Mailed.refl u).keep (u := { u with mgt := { u.mgt with smbAlert := true } }) rfl rfl rfl rfl rfl rfl
    exact halert.logRec _ _ _
  | eth =>
    have hdraw := (State.Mailed.refl u).keep (u := (u.draw 245).2) rfl rfl rfl rfl rfl rfl
    exact (hdraw.trans (mailed_ethAnswer _ cmd tag st _ _)).logRec _ _ _

theorem mailed_answer (src : Transport) (cmd : Nat) (tag : BitVec 16) (st : Nat) (vals : List Nat) (s : State) :
    s.Mailed (answer src cmd tag st vals s) := (mailed_told s src _).trans (told_answer src cmd tag st vals s)

theorem answered_answer (src : Transport) (cmd : Nat) (tag : BitVec 16) (st : Nat) (vals : List Nat) (s : State) :
    Answered src cmd tag st vals (answer src cmd tag st vals s) :=
  (told_answer src cmd tag st vals s).outs _ (List.mem_append_right _ (List.mem_singleton.mpr rfl))

theorem mailed_drainUnknown (n : Nat) (s : State) : s.Mailed (drainUnknown n s) := by
  induction n generalizing s with
  | zero => exact .refl s
  | succ n ih =>
    unfold drainUnknown
    split
    · exact .refl s
    · split
      · exact .refl s
      · exact (mailed_answer _ _ _ _ _ s).trans (ih _)

/-- An answer is given and the unlisted requests behind it are told so. -/
theorem answered_drained (src : Transport) (cmd : Nat) (tag : BitVec 16) (st : Nat) (vals : List Nat) (s : State) :
    s.Mailed (drainUnknown 8 (answer src cmd tag st vals s)) ∧
      Answered src cmd tag st vals (drainUnknown 8 (answer src cmd tag st vals s)) :=
  have hdrain := mailed_drainUnknown 8 (answer src cmd tag st vals s)
  ⟨(mailed_answer src cmd tag st vals s).trans hdrain, hdrain.outs _ (answered_answer src cmd tag st vals s)⟩

/-- A command that may be given is carried out, answered with its status, and followed up where that is OK (18 R567). -/
theorem mailbox_of_requested {body : State → State × Nat × List Nat} {after : State → State} (hreq : Requested s src cmd tag priv) :
    ∃ t, mailbox src cmd tag priv body after s = (if (body s).2.1 = mbOk then after t else t) ∧
      (body s).1.Mailed t ∧ Answered src cmd tag (body s).2.1 (body s).2.2 t := by
  obtain ⟨r, hfront, hlen, hrun, himage, hmay⟩ := hreq
  refine ⟨_, ?_, answered_drained src cmd tag (body s).2.1 (body s).2.2 (body s).1⟩
  have hpriv : (priv && !privileged s src) = false := by cases priv <;> simp_all
  have hrecov : (s.mgt.image == BootImage.recovery) = false := by simpa using himage
  simp [mailbox, hfront, hlen, hrun, hrecov, hpriv]

/-- A command whose LENGTH does not fit is answered so and does nothing else (18 R568). -/
theorem mailbox_of_badLength {body : State → State × Nat × List Nat} {after : State → State} {r : MbxReq}
    (hfront : reqFront s src cmd tag = some r) (hrun : s.mgt.running = true) (himage : s.mgt.image ≠ .recovery)
    (hlen : lengthOk cmd r.len = false) :
    mailbox src cmd tag priv body after s = drainUnknown 8 (answer src cmd tag mbBadLength [] s) := by
  have hrecov : (s.mgt.image == BootImage.recovery) = false := by simpa using himage
  simp [mailbox, hfront, hlen, hrun, hrecov]

/-- A privileged command from a transport without the right is denied and does nothing else (18 R565). -/
theorem mailbox_of_denied {body : State → State × Nat × List Nat} {after : State → State} (hreq : Requested s src cmd tag false)
    (hdenied : privileged s src = false) :
    mailbox src cmd tag true body after s = drainUnknown 8 (answer src cmd tag mbDenied [] s) := by
  obtain ⟨r, hfront, hlen, hrun, himage, -⟩ := hreq
  have hrecov : (s.mgt.image == BootImage.recovery) = false := by simpa using himage
  simp [mailbox, hfront, hlen, hrun, hrecov, hdenied]

/-! ## The commands that inform -/

theorem getInfo_gives (hreq : Requested s src 0x01 tag false) :
    Gives (.getInfo src tag) s (fun t => Answered src 0x01 tag mbOk (infoVals s) t) := by
  obtain ⟨t, hrun, -, hans⟩ := mailbox_of_requested (body := fun x => (x, mbOk, infoVals x)) (after := id) hreq
  exact ⟨t, congrArg Host.Outcome.next hrun, hans⟩

theorem getSensors_gives (hreq : Requested s src 0x02 tag false) :
    Gives (.getSensors src tag) s (fun t => Answered src 0x02 tag mbOk (sensorVals s) t) := by
  obtain ⟨t, hrun, -, hans⟩ := mailbox_of_requested (body := fun x => (x, mbOk, sensorVals x)) (after := id) hreq
  exact ⟨t, congrArg Host.Outcome.next hrun, hans⟩

/-- The state with a nonce drawn. -/
def State.challenged (s : State) : State :=
  { s with mgt := { s.mgt with nonce := some (nonceOf s, s.now) }, fresh := s.fresh + 32 }

theorem getChallenge_gives (hreq : Requested s src 0x03 tag false) :
    Gives (.getChallenge src tag) s (fun t =>
      t.mgt.nonce = some (nonceOf s, s.now) ∧ Answered src 0x03 tag mbOk [ofBe (nonceOf s)] t) := by
  obtain ⟨t, hrun, hmail, hans⟩ := mailbox_of_requested
    (body := fun x => (x.challenged, mbOk, [ofBe (nonceOf x)])) (after := id) hreq
  exact ⟨t, congrArg Host.Outcome.next hrun, congrArg Mgt.nonce hmail.mgt, hans⟩

/-! ## Policies and latches (18 R570, 16 R525) -/

theorem evtBit_doPolicy (r : PolicyRec) (s : State) : (doPolicy r s).evtBit pgMgt evPolicy = true :=
  (State.EvtsStay.refl _).keep (u := doPolicy r s) (by simp [doPolicy]; rfl) _ _ (evtBit_setEvt_self _ pgMgt evPolicy (by decide))

theorem setPolicy_gives (hreq : Requested s src 0x10 tag true) (r : PolicyRec) (cfg : Word) :
    Gives (.setPolicy src tag r) s (fun t => t.evtBit pgMgt evPolicy = true ∧ Answered src 0x10 tag mbOk [] t) ∧
    Gives (.setPolicy src tag (.tamper cfg)) s (fun t =>
      t.mgt.tamperRec = some (cfg &&& 0x0F03FFFF) ∧ t.keys.tampCfg = cfg &&& 0x0F03FFFF) := by
  constructor
  · obtain ⟨t, hrun, hmail, hans⟩ := mailbox_of_requested (body := fun x => (doPolicy r x, mbOk, [])) (after := id) hreq
    exact ⟨t, congrArg Host.Outcome.next hrun, hmail.evts _ _ (evtBit_doPolicy r s), hans⟩
  · obtain ⟨t, hrun, hmail, -⟩ := mailbox_of_requested
      (body := fun x => (doPolicy (.tamper cfg) x, mbOk, [])) (after := id) hreq
    refine ⟨t, congrArg Host.Outcome.next hrun, (congrArg Mgt.tamperRec hmail.mgt).trans ?_, ?_⟩
    · simp [doPolicy]; rfl
    · rw [hmail.keys]; simp [doPolicy]

theorem setPolicy_denied (hreq : Requested s src 0x10 tag false) (hdenied : privileged s src = false) (r : PolicyRec) :
    Gives (.setPolicy src tag r) s (fun t => t.mgt.policy = s.mgt.policy ∧ t.mgt.tamperRec = s.mgt.tamperRec ∧
      t.keys = s.keys ∧ Answered src 0x10 tag mbDenied [] t) := by
  obtain ⟨hmail, hans⟩ := answered_drained src 0x10 tag mbDenied [] s
  exact ⟨_, congrArg Host.Outcome.next (mailbox_of_denied hreq hdenied), (congrArg Mgt.policy hmail.mgt :),
    (congrArg Mgt.tamperRec hmail.mgt :), hmail.keys, hans⟩

/-- The work of CLEAR_LATCH: what no longer asserts leaves the latch, except in DECOMMISSIONED (16 R525). -/
def latchCleared (live : BitVec 9) (x : State) : State × Nat × List Nat :=
  if x.lifecycle = 3 then ({ x with keys := { x.keys with raw := live } }, mbBadState, [])
  else ({ x with keys := { x.keys with raw := live, latch := x.keys.latch &&& live } }, mbOk, [])

theorem clearLatch_gives (hreq : Requested s src 0x11 tag true) (live : BitVec 9) :
    (s.lifecycle ≠ 3 → Gives (.clearLatch src tag live) s (fun t => t.keys.latch = s.keys.latch &&& live ∧
      t.keys.raw = live ∧ Answered src 0x11 tag mbOk [] t)) ∧
    (s.lifecycle = 3 → Gives (.clearLatch src tag live) s (fun t => t.keys.latch = s.keys.latch ∧
      Answered src 0x11 tag mbBadState [] t)) := by
  obtain ⟨t, hrun, hmail, hans⟩ := mailbox_of_requested (body := latchCleared live) (after := id) hreq
  have hkeys := hmail.keys
  constructor <;> intro hlife <;> simp only [latchCleared, hlife, if_true, if_false] at hrun hkeys hans
  · exact ⟨t, congrArg Host.Outcome.next hrun, by rw [hkeys], by rw [hkeys], hans⟩
  · exact ⟨t, congrArg Host.Outcome.next hrun, by rw [hkeys], hans⟩

theorem clearLatch_badLength {q : MbxReq} (hfront : reqFront s src 0x11 tag = some q) (hrun : s.mgt.running = true)
    (himage : s.mgt.image ≠ .recovery) (hlen : 0 < q.len) (live : BitVec 9) :
    Gives (.clearLatch src tag live) s (fun t => t.keys = s.keys ∧ Answered src 0x11 tag mbBadLength [] t) := by
  obtain ⟨hmail, hans⟩ := answered_drained src 0x11 tag mbBadLength [] s
  have hbad : lengthOk 0x11 q.len = false := by simp [lengthOk]; omega
  exact ⟨_, congrArg Host.Outcome.next (mailbox_of_badLength hfront hrun himage hbad), hmail.keys, hans⟩

/-! ## Resets (18 R549, R569) -/

theorem outs_chipReset (s : State) (cause : Nat) : (s.chipReset cause).outs = s.outs := by
  simp [State.chipReset, State.afterChipReset]

theorem running_chipReset (s : State) (cause : Nat) : (s.chipReset cause).mgt.running = false := by
  simp [State.chipReset, State.afterChipReset, State.reset]

theorem chipReset_gives (hreq : Requested s src 0x12 tag true) (hpower : s.pwr.state = .run) :
    Gives (.chipReset src tag) s (fun t => t.pwr.state = .boot ∧ t.pwr.lastCause = 5 ∧ t.mgt.running = false ∧
      t.keys.fuse = s.keys.fuse ∧ Answered src 0x12 tag mbOk [] t) := by
  obtain ⟨t, hrun, hmail, hans⟩ := mailbox_of_requested
    (body := fun x => (x, mbOk, [])) (after := fun x => x.chipReset 5) hreq
  refine ⟨t.chipReset 5, congrArg Host.Outcome.next hrun, ?_, rfl, running_chipReset t 5, ?_, ?_⟩
  · simp [State.chipReset, hmail.pwr, hpower]
  · rw [(keeps_chipReset t 5).2, hmail.keys]
  · rw [Answered, outs_chipReset]; exact hans

/-- The end of a restart: its count, and what is lost with it. -/
def Mgt.restarted (m : Mgt) (lockstep : Bool) : Mgt :=
  { m with restarts := m.restarts + 1, lockstepRun := if lockstep then m.lockstepRun + 1 else 0
           wdogOnce := false, session := none, nonce := none, decom := none, logQ := [], logDropped := 0 }

/-- A restart once the held requests are answered: Milondino has restarted, and no NMI is held. -/
def State.restarted (s : State) (lockstep : Bool) : State :=
  { s with mgt := s.mgt.restarted lockstep, flt := { s.flt with nmiHeld := false } }

theorem restartMgt_leaves (lockstep : Bool) (s : State) :
    (restartMgt lockstep s).mgt.aside = (s.mgt.restarted lockstep).aside ∧ (∀ o ∈ s.outs, o ∈ (restartMgt lockstep s).outs) ∧
      (restartMgt lockstep s).mgt.wdogOnce = false ∧ (restartMgt lockstep s).evtBit pgMgt evRestart = true := by
  have hheld := mailed_foldl (fun a (r : MbxReq) => mailed_answer r.src r.cmd r.tag mbRestarted [] a) s.mgt.held s
  let a := s.mgt.held.foldl (fun a r => answer r.src r.cmd r.tag mbRestarted [] a) s
  have hend := ((State.Mailed.refl (a.restarted lockstep)).logRec 0x0009 0x0013 false).setEvt pgMgt evRestart
  refine ⟨hend.mgt.trans (congrArg (fun m : Mgt => (m.restarted lockstep).aside) hheld.mgt :), fun o h => hend.outs o (hheld.outs o h),
    ?_, evtBit_setEvt_self _ pgMgt evRestart (by decide)⟩
  calc (restartMgt lockstep s).mgt.wdogOnce
      = (((a.restarted lockstep).logRec 0x0009 0x0013).setEvt pgMgt evRestart).mgt.wdogOnce := rfl
    _ = false := by simp [State.restarted, Mgt.restarted]

theorem restartMgt_gives (hreq : Requested s src 0x13 tag true) :
    Gives (.restartMgt src tag) s (fun t => t.mgt.restarts = s.mgt.restarts + 1 ∧ t.mgt.session = none ∧ t.mgt.nonce = none ∧
      t.evtBit pgMgt evRestart = true ∧ Answered src 0x13 tag mbOk [] t) := by
  obtain ⟨t, hrun, hmail, hans⟩ := mailbox_of_requested
    (body := fun x => (x, mbOk, [])) (after := restartMgt false) hreq
  obtain ⟨hmgt, houts, -, hevt⟩ := restartMgt_leaves false t
  refine ⟨_, congrArg Host.Outcome.next hrun, (congrArg Mgt.restarts hmgt).trans ?_, congrArg Mgt.session hmgt,
    congrArg Mgt.nonce hmgt, hevt, houts _ hans⟩
  exact (congrArg (fun m : Mgt => m.restarts + 1) hmail.mgt :)

/-- Settles O56: a command that may be given is carried out and answered on its transport, and any other does nothing but its answer. -/
theorem mailboxCommandsAnswer : Obligations.MailboxCommandsAnswer := fun _ _ _ r live cfg =>
  ⟨getInfo_gives, getSensors_gives, getChallenge_gives, fun hreq => setPolicy_gives hreq r cfg,
    fun hreq => clearLatch_gives hreq live, fun hreq hdenied => setPolicy_denied hreq hdenied r,
    fun _ hfront hrun himage hlen => clearLatch_badLength hfront hrun himage hlen live, chipReset_gives, restartMgt_gives⟩

end Sys2Proof.Machine
end

section
/-!
PROOFS. Scope: update sessions and the fuses blown on command (settles O57 and O58).
-/

namespace Sys2Proof.Machine

variable {s t : State} {src : Transport} {tag : BitVec 16} {len off : Nat} {data : List Byte} {u : Session}

/-- What a mailbox command that may be given does, where nothing follows its answer. -/
theorem mailbox_gives {cmd st : Nat} {priv : Bool} {body : State → State × Nat × List Nat} {after : State → State}
    {a : State} {vals : List Nat} (hreq : Requested s src cmd tag priv) (hbody : body s = (a, st, vals))
    (hafter : ∀ t, after t = t) :
    ∃ t, mailbox src cmd tag priv body after s = t ∧ a.Mailed t ∧ Answered src cmd tag st vals t := by
  obtain ⟨t, hrun, hmail, hans⟩ := mailbox_of_requested (body := body) (after := after) hreq
  rw [hbody] at hmail hans
  exact ⟨t, by rw [hrun, hafter, ite_self], hmail, hans⟩

/-! ## Reading the flash after an erase and after data (18 R571, R572) -/

/-- A table with the keys of a kind taken out reads as reset there, and as before elsewhere. -/
theorem look_filter {α : Type} (d : Nat → α) (q : Nat → Bool) (m : KMap α) (k : Nat) :
    look d (m.filter (fun e => q e.1)) k = if q k then look d m k else d k := by
  induction m with
  | nil => simp
  | cons e r ih =>
    obtain ⟨j, w⟩ := e
    by_cases hj : j = k
    · subst hj
      by_cases hq : q j <;> simp [hq, ih, look_cons]
    · by_cases hq : q j <;> simp [hq, hj, ih, look_cons]

theorem look_eraseRegion (r : Bool) (f : KMap Byte) {a : Nat} (hlo : regionBase r ≤ a) (hhi : a < regionBase r + 0x80000) :
    look flashReset (eraseRegion r f) a = flashReset a :=
  (look_filter flashReset (fun k => decide (k < regionBase r) || decide (regionBase r + 0x80000 ≤ k)) f a).trans
    (if_neg (by simp; omega))

/-- Data written in order from a base stands at its positions, and the rest is left. -/
theorem look_write (base : Nat) (g : Nat → Byte) (n : Nat) (f : KMap Byte) (a : Nat) :
    look flashReset ((List.range n).foldl (fun m i => put flashReset m (base + i) (g i)) f) a =
      if base ≤ a ∧ a < base + n then g (a - base) else look flashReset f a := by
  induction n with
  | zero => rw [if_neg (by omega)]; rfl
  | succ n ih =>
    rw [List.range_succ, List.foldl_append, List.foldl_cons, List.foldl_nil, look_put, ih]
    by_cases ha : a = base + n
    · rw [if_pos ha, if_pos (by omega), ha, Nat.add_sub_cancel_left]
    · rw [if_neg ha]
      exact if_congr (by omega) rfl rfl

/-! ## Update sessions (18 R560, R571 to R573) -/

/-- A session begun: the region that does not run is erased for it. -/
def State.updating (s : State) (len : Nat) : State :=
  { s with mgt := { s.mgt with
    session := some ⟨s.mgt.image == .regionA, len⟩, flash := eraseRegion (s.mgt.image == .regionA) s.mgt.flash } }

theorem updateBegin_takes (hreq : Requested s src 0x20 tag true) (hnone : s.mgt.session = none) (hlo : 4096 ≤ len)
    (hhi : len ≤ 393216) :
    Gives (.updateBegin src tag len) s (fun t => t.mgt.session = some ⟨s.mgt.image == .regionA, len⟩ ∧
      (∀ a, regionBase (s.mgt.image == .regionA) ≤ a → a < regionBase (s.mgt.image == .regionA) + 0x80000 →
        look flashReset t.mgt.flash a = flashReset a) ∧ Answered src 0x20 tag mbOk [] t) := by
  have hbody : updateBegin len s = (s.updating len, mbOk, []) := by
    rw [updateBegin, if_neg (by simp [hnone]), if_neg (by omega)]
    rfl
  obtain ⟨t, hrun, hmail, hans⟩ := mailbox_gives hreq hbody fun _ => rfl
  have hflash : t.mgt.flash = eraseRegion (s.mgt.image == .regionA) s.mgt.flash := (congrArg Mgt.flash hmail.mgt :)
  refine ⟨t, congrArg Host.Outcome.next hrun, (congrArg Mgt.session hmail.mgt :), fun a hlo hhi => ?_, hans⟩
  rw [hflash, look_eraseRegion _ _ hlo hhi]

theorem updateBegin_refused (hreq : Requested s src 0x20 tag true) (hnone : s.mgt.session = none)
    (hlen : len < 4096 ∨ 393216 < len) :
    Gives (.updateBegin src tag len) s (fun t =>
      t.mgt.session = none ∧ t.mgt.flash = s.mgt.flash ∧ Answered src 0x20 tag mbBadLength [] t) := by
  have hbody : updateBegin len s = (s, mbBadLength, []) := by
    rw [updateBegin, if_neg (by simp [hnone]), if_pos hlen]
  obtain ⟨t, hrun, hmail, hans⟩ := mailbox_gives hreq hbody fun _ => rfl
  exact ⟨t, congrArg Host.Outcome.next hrun, (congrArg Mgt.session hmail.mgt :).trans hnone, (congrArg Mgt.flash hmail.mgt :), hans⟩

/-- The session's region with data written at a position. -/
def State.updated (s : State) (u : Session) (off : Nat) (data : List Byte) : State :=
  { s with mgt := { s.mgt with
    flash := (List.range data.length).foldl (fun m i =>
      put flashReset m (regionBase u.regionB + off + i) (data.getD i 0xFF)) s.mgt.flash } }

theorem updateData_gives (hreq : Requested s src 0x21 tag true) (hsess : s.mgt.session = some u) (hdata : data.length ≤ 240)
    (hlo : 4096 ≤ off) (hhi : off + data.length ≤ 4096 + u.bodyLen) :
    Gives (.updateData src tag off data) s (fun t => Answered src 0x21 tag mbOk [] t ∧ t.mgt.session = some u ∧
      (∀ i, i < data.length → look flashReset t.mgt.flash (regionBase u.regionB + off + i) = data.getD i 0xFF) ∧
      (∀ a, a < regionBase u.regionB + off ∨ regionBase u.regionB + off + data.length ≤ a →
        look flashReset t.mgt.flash a = look flashReset s.mgt.flash a)) := by
  have hbody : updateData off data s = (s.updated u off data, mbOk, []) := by
    simp only [updateData, hsess, State.updated]
    rw [if_neg (by omega), if_pos (Or.inr ⟨hlo, hhi⟩)]
  obtain ⟨t, hrun, hmail, hans⟩ := mailbox_gives hreq hbody fun _ => rfl
  have hlook : ∀ a, look flashReset t.mgt.flash a =
      if regionBase u.regionB + off ≤ a ∧ a < regionBase u.regionB + off + data.length
      then data.getD (a - (regionBase u.regionB + off)) 0xFF else look flashReset s.mgt.flash a := fun a =>
    (congrArg (fun m : Mgt => look flashReset m.flash a) hmail.mgt :).trans (look_write _ (fun i => data.getD i 0xFF) _ _ a)
  refine ⟨t, congrArg Host.Outcome.next hrun, hans, (congrArg Mgt.session hmail.mgt :).trans hsess, fun i hi => ?_, fun a ha => ?_⟩
  · rw [hlook, if_pos (by omega), Nat.add_sub_cancel_left]
  · rw [hlook, if_neg (by omega)]

/-- The state after a good end of an update: its region is preferred, on trial, and the session is over. -/
def State.updateReady (s : State) (u : Session) : State :=
  (({ s with mgt := { s.mgt with bootCtl := { preferB := u.regionB, trial := true, tries := 3 }, session := none } } :
    State).setEvt pgMgt evUpdateReady).count 681 1

theorem updateEnd_gives (hreq : Requested s src 0x22 tag true) (hsess : s.mgt.session = some u) :
    (imageGood s u.regionB = false → Gives (.updateEnd src tag) s (fun t =>
      t.mgt.bootCtl = s.mgt.bootCtl ∧ t.mgt.session = some u ∧ Answered src 0x22 tag mbBadImage [] t)) ∧
    (imageGood s u.regionB = true → imgSvn s u.regionB < s.keys.fuse.rollback → Gives (.updateEnd src tag) s (fun t =>
      t.mgt.bootCtl = s.mgt.bootCtl ∧ Answered src 0x22 tag mbRollback [] t)) ∧
    (imageGood s u.regionB = true → s.keys.fuse.rollback ≤ imgSvn s u.regionB → Gives (.updateEnd src tag) s (fun t =>
      t.mgt.bootCtl.preferB = u.regionB ∧ t.mgt.bootCtl.trial = true ∧ t.mgt.bootCtl.tries = 3 ∧ t.mgt.session = none ∧
      t.evtBit pgMgt evUpdateReady = true ∧ Answered src 0x22 tag mbOk [] t)) := by
  have hstays : ∀ t : State, (if s.mgt.image = .recovery then t.chipReset 5 else t) = t := fun t =>
    if_neg (let ⟨_, _, _, _, himage, _⟩ := hreq; himage)
  refine ⟨fun hbad => ?_, fun hgood hroll => ?_, fun hgood hroll => ?_⟩
  · have hbody : updateEnd s = (s, mbBadImage, []) := by simp [updateEnd, hsess, hbad]
    obtain ⟨t, hrun, hmail, hans⟩ := mailbox_gives hreq hbody hstays
    exact ⟨t, congrArg Host.Outcome.next hrun, (congrArg Mgt.bootCtl hmail.mgt :), (congrArg Mgt.session hmail.mgt :).trans hsess, hans⟩
  · have hbody : updateEnd s = (s, mbRollback, []) := by simp [updateEnd, hsess, hgood, hroll]
    obtain ⟨t, hrun, hmail, hans⟩ := mailbox_gives hreq hbody hstays
    exact ⟨t, congrArg Host.Outcome.next hrun, (congrArg Mgt.bootCtl hmail.mgt :), hans⟩
  · have hbody : updateEnd s = (s.updateReady u, mbOk, []) := by
      simp [updateEnd, hsess, hgood, Nat.not_lt.mpr hroll, State.updateReady]
    obtain ⟨t, hrun, hmail, hans⟩ := mailbox_gives hreq hbody hstays
    have hctl : t.mgt.bootCtl = { preferB := u.regionB, trial := true, tries := 3 } :=
      (congrArg Mgt.bootCtl hmail.mgt :).trans (by simp [State.updateReady, Mgt.aside])
    have hover : t.mgt.session = none := (congrArg Mgt.session hmail.mgt :).trans (by simp [State.updateReady, Mgt.aside])
    have hevt : (s.updateReady u).evtBit pgMgt evUpdateReady = true := by
      rw [State.updateReady, count_eq]
      exact evtBit_setEvt_self _ pgMgt evUpdateReady (by decide)
    exact ⟨t, congrArg Host.Outcome.next hrun, by rw [hctl], by rw [hctl], by rw [hctl], hover, hmail.evts _ _ hevt, hans⟩

/-- The state once the image on trial is confirmed. -/
def State.confirmed (s : State) : State :=
  ({ s with mgt := { s.mgt with bootCtl := { s.mgt.bootCtl with trial := false }, trialImage := false } } : State).count 681 1

theorem confirm_gives (hreq : Requested s src 0x23 tag true) :
    (s.mgt.trialImage = true → Gives (.confirm src tag) s (fun t => t.mgt.bootCtl.trial = false ∧
      t.mgt.trialImage = false ∧ Answered src 0x23 tag mbOk [] t)) ∧
    (s.mgt.trialImage = false → Gives (.confirm src tag) s (fun t => t.mgt.bootCtl = s.mgt.bootCtl ∧
      Answered src 0x23 tag mbBadState [] t)) := by
  constructor <;> intro htrial
  · have hbody : confirmImage s = (s.confirmed, mbOk, []) := if_pos htrial
    obtain ⟨t, hrun, hmail, hans⟩ := mailbox_gives hreq hbody fun _ => rfl
    rw [State.confirmed, count_eq] at hmail
    exact ⟨t, congrArg Host.Outcome.next hrun, (congrArg (fun m : Mgt => m.bootCtl.trial) hmail.mgt :),
      (congrArg Mgt.trialImage hmail.mgt :), hans⟩
  · have hbody : confirmImage s = (s, mbBadState, []) := by simp [confirmImage, htrial]
    obtain ⟨t, hrun, hmail, hans⟩ := mailbox_gives hreq hbody fun _ => rfl
    exact ⟨t, congrArg Host.Outcome.next hrun, (congrArg Mgt.bootCtl hmail.mgt :), hans⟩

/-- Settles O57: what each update command does to the flash, the session and the boot control. -/
theorem updatesReplaceTheOtherRegion : Obligations.UpdatesReplaceTheOtherRegion := fun _ _ _ _ _ _ _ =>
  ⟨fun hreq hnone => ⟨updateBegin_takes hreq hnone, updateBegin_refused hreq hnone⟩, updateData_gives, updateEnd_gives, confirm_gives⟩

/-! ## Fuses blown on command (16 R501, R526; 18 R573, R574) -/

variable {sig n : List Byte} {at0 : Nat}

/-- The state with the anti-rollback count at no less than the running image's SVN. -/
def State.svnCommitted (s : State) : State :=
  { s with keys := { s.keys with fuse := { s.keys.fuse with rollback := max s.keys.fuse.rollback s.mgt.svn } } }

theorem svnCommit_gives (hreq : Requested s src 0x24 tag true) :
    (s.mgt.trialImage = false → Gives (.svnCommit src tag) s (fun t =>
      t.keys.fuse.rollback = max s.keys.fuse.rollback s.mgt.svn ∧ t.keys.fuse.lifecycle = s.keys.fuse.lifecycle ∧
      Answered src 0x24 tag mbOk [] t)) ∧
    (s.mgt.trialImage = true → Gives (.svnCommit src tag) s (fun t =>
      t.keys.fuse = s.keys.fuse ∧ Answered src 0x24 tag mbBadState [] t)) := by
  constructor <;> intro htrial
  · have hbody : svnCommit s = (s.svnCommitted, mbOk, []) := by simp [svnCommit, htrial, State.svnCommitted]
    obtain ⟨t, hrun, hmail, hans⟩ := mailbox_gives hreq hbody fun _ => rfl
    exact ⟨t, congrArg Host.Outcome.next hrun, by rw [hmail.keys]; rfl, by rw [hmail.keys]; rfl, hans⟩
  · have hbody : svnCommit s = (s, mbBadState, []) := if_pos htrial
    obtain ⟨t, hrun, hmail, hans⟩ := mailbox_gives hreq hbody fun _ => rfl
    exact ⟨t, congrArg Host.Outcome.next hrun, by rw [hmail.keys], hans⟩

/-- The state with the nonce used up. -/
def State.nonceUsed (s : State) : State := { s with mgt := { s.mgt with nonce := none } }

/-- A chip reset leaves no key material and stops Milondino. -/
theorem chipReset_leaves (s : State) (cause : Nat) :
    (∀ k, ((s.chipReset cause).slotKey k).cur = none ∧ ((s.chipReset cause).slotKey k).prev = none) ∧
      (s.chipReset cause).pwr.lastCause = cause ∧ (s.chipReset cause).mgt.running = false :=
  ⟨fun k => by simp [State.slotKey, State.chipReset, State.afterChipReset, KeySlot.unload], rfl, running_chipReset s cause⟩

/-- The end of a command that changed the lifecycle: the chip resets with the fuse blown. -/
theorem mailbox_lifecycleTo {cmd l : Nat} {body : State → State × Nat × List Nat} {after : State → State} {a : State}
    (hreq : Requested s src cmd tag true) (hbody : body s = (lifecycleTo l a, mbOk, [])) (hafter : ∀ t, after t = t.chipReset 5) :
    ∃ t, mailbox src cmd tag true body after s = t ∧ t.keys.fuse.lifecycle = l ∧
      (∀ k, (t.slotKey k).cur = none ∧ (t.slotKey k).prev = none) ∧ t.pwr.lastCause = 5 ∧ t.mgt.running = false ∧
      Answered src cmd tag mbOk [] t := by
  obtain ⟨t, hrun, hmail, hans⟩ := mailbox_of_requested (body := body) (after := after) hreq
  rw [hbody, hafter] at hrun
  rw [hbody] at hmail hans
  obtain ⟨hslots, hcause, hstop⟩ := chipReset_leaves t 5
  refine ⟨t.chipReset 5, hrun, ?_, hslots, hcause, hstop, ?_⟩
  · rw [(keeps_chipReset t 5).2, hmail.keys]; simp
  · rw [Answered, outs_chipReset]; exact hans

/-- Whether ENTER_RMA's signature holds over the nonce given, within 60 s of it. -/
def rmaOk (s : State) (sig n : List Byte) (at0 : Nat) : Bool :=
  decide (s.now ≤ at0 + cyc60s) && Config.ecdsaOk Config.dalnalKey (beBytes 8 Config.serial.toNat ++ n) sig

theorem enterRma_eq (hsig : sig.length = 96) (hnonce : s.mgt.nonce = some (n, at0)) :
    enterRma sig s = if !rmaOk s sig n at0 then (s.nonceUsed, mbDenied, [])
      else if 2 ≤ s.lifecycle then (s.nonceUsed, mbBadState, []) else (lifecycleTo 2 s.nonceUsed, mbOk, []) := by
  rw [enterRma, if_neg (by simp [hsig]), hnonce]
  rfl

theorem enterRma_gives (hreq : Requested s src 0x30 tag true) (hsig : sig.length = 96) (hnonce : s.mgt.nonce = some (n, at0)) :
    (s.now ≤ at0 + cyc60s → Config.ecdsaOk Config.dalnalKey (beBytes 8 Config.serial.toNat ++ n) sig = true →
      (s.lifecycle < 2 → Gives (.enterRma src tag sig) s (fun t => t.keys.fuse.lifecycle = 2 ∧
        (∀ k, (t.slotKey k).cur = none ∧ (t.slotKey k).prev = none) ∧ t.pwr.lastCause = 5 ∧ t.mgt.running = false ∧
        Answered src 0x30 tag mbOk [] t)) ∧
      (2 ≤ s.lifecycle → Gives (.enterRma src tag sig) s (fun t => t.keys.fuse = s.keys.fuse ∧
        Answered src 0x30 tag mbBadState [] t))) ∧
    (Config.ecdsaOk Config.dalnalKey (beBytes 8 Config.serial.toNat ++ n) sig = false ∨ at0 + cyc60s < s.now →
      Gives (.enterRma src tag sig) s (fun t => t.keys.fuse = s.keys.fuse ∧ t.mgt.nonce = none ∧
        Answered src 0x30 tag mbDenied [] t)) := by
  have hrma := enterRma_eq hsig hnonce
  refine ⟨fun hnow hok => ⟨fun hlife => ?_, fun hlife => ?_⟩, fun hbad => ?_⟩
  · rw [if_neg (by simp [rmaOk, hnow, hok]), if_neg (by omega)] at hrma
    obtain ⟨t, hrun, hend⟩ := mailbox_lifecycleTo hreq hrma fun _ => rfl
    exact ⟨t, congrArg Host.Outcome.next hrun, hend⟩
  · rw [if_neg (by simp [rmaOk, hnow, hok]), if_pos hlife] at hrma
    obtain ⟨t, hrun, hmail, hans⟩ := mailbox_of_requested (body := enterRma sig) (after := fun x => x.chipReset 5) hreq
    rw [hrma] at hrun hmail hans
    exact ⟨t, congrArg Host.Outcome.next hrun, by rw [hmail.keys]; rfl, hans⟩
  · have hno : rmaOk s sig n at0 = false := by
      rcases hbad with h | h
      · simp [rmaOk, h]
      · simp [rmaOk, Nat.not_le.mpr h]
    rw [if_pos (by simp [hno])] at hrma
    obtain ⟨t, hrun, hmail, hans⟩ := mailbox_of_requested (body := enterRma sig) (after := fun x => x.chipReset 5) hreq
    rw [hrma] at hrun hmail hans
    exact ⟨t, congrArg Host.Outcome.next hrun, by rw [hmail.keys]; rfl, (congrArg Mgt.nonce hmail.mgt :), hans⟩

/-- The state with a first DECOMMISSION noted. -/
def State.decomNoted (s : State) (tag : BitVec 16) : State :=
  { (s.draw 8).2 with mgt := { s.mgt with decom := some (tag, s.now) } }

theorem decommission_gives (hreq : Requested s src 0x31 tag true) :
    (decomSecond tag s = false → Gives (.decommission src tag) s (fun t => t.mgt.decom = some (tag, s.now) ∧
      t.keys.fuse = s.keys.fuse)) ∧
    (decomSecond tag s = true → Gives (.decommission src tag) s (fun t => t.keys.fuse.lifecycle = 3 ∧
      (∀ k, (t.slotKey k).cur = none ∧ (t.slotKey k).prev = none) ∧ t.pwr.lastCause = 5 ∧ Answered src 0x31 tag mbOk [] t)) := by
  constructor <;> intro hsecond
  · have hbody : decommission tag s = (s.decomNoted tag, (s.draw 8).1, []) := by
      rw [decommission, if_neg (by simp [hsecond])]
      rfl
    obtain ⟨t, hrun, hmail, -⟩ := mailbox_gives hreq hbody (after := fun x => if decomSecond tag s then x.chipReset 5 else x)
      fun t => if_neg (by simp [hsecond])
    exact ⟨t, congrArg Host.Outcome.next hrun, (congrArg Mgt.decom hmail.mgt :), by rw [hmail.keys]; rfl⟩
  · have hbody : decommission tag s = (lifecycleTo 3 s, mbOk, []) := if_pos hsecond
    obtain ⟨t, hrun, hlife, hslots, hcause, -, hans⟩ := mailbox_lifecycleTo hreq hbody
      (after := fun x => if decomSecond tag s then x.chipReset 5 else x) fun t => if_pos hsecond
    exact ⟨t, congrArg Host.Outcome.next hrun, hlife, hslots, hcause, hans⟩

/-- Settles O58: each of the three commands blows its fuse under its conditions, and else leaves the fuses. -/
theorem fusesAreBlownOnCommand : Obligations.FusesAreBlownOnCommand := fun _ _ _ _ _ _ =>
  ⟨svnCommit_gives, enterRma_gives, decommission_gives⟩

end Sys2Proof.Machine
end

section
/-!
PROOFS. Scope: requests taken by the mailboxes and the management Ethernet, and records by the log (settles O59).
-/

namespace Sys2Proof.Machine

variable {s : State} {a : Access} {v : Word}

/-! ## A request that is alone waits or is answered UNKNOWN (18 R566, R567) -/

theorem drainUnknown_listed {r : MbxReq} {n : Nat} (hheld : s.mgt.held = [r]) (hcmd : r.cmd ∈ commands) :
    drainUnknown n s = s := by
  cases n with
  | zero => rfl
  | succ n => simp [drainUnknown, hheld, hcmd]

theorem drainUnknown_unlisted {r : MbxReq} (hheld : s.mgt.held = [r]) (hcmd : r.cmd ∉ commands) (hrun : s.mgt.running = true) :
    drainUnknown 1 s = answer r.src r.cmd r.tag mbUnknown [] s := by
  simp [drainUnknown, hheld, hcmd, hrun]

/-! ## A partition's mailbox -/

theorem held_logRec (s : State) (typ data : Nat) (inj : Bool) : (s.logRec typ data inj).mgt.held = s.mgt.held := by
  unfold State.logRec
  split <;> simp

theorem removeReq_alone (r : MbxReq) : removeReq [r] r.src = [] := by
  simp [removeReq, findIx]

/-- An answer in a partition's mailbox replaces its request and sets DONE. -/
theorem answer_part_leaves (p : Part) (cmd : Nat) (tag : BitVec 16) (st : Nat) (s : State) :
    (answer (.part p) cmd tag st [] s).mgt.held = removeReq s.mgt.held (.part p) ∧
      ((answer (.part p) cmd tag st [] s).part p).mbxDone = true := by
  rw [answer_part]
  constructor
  · rw [held_logRec]
    simp
    rfl
  · rw [part_of_parts (s := (s.told (.part p) (.mailbox (.part p) cmd tag st [])).answerDone p cmd tag st []) (by simp)]
    exact congrArg PartSt.mbxDone (part_modPart_self _ p _)

/-- The request that a partition's mailbox words state. -/
def State.mbxReq (s : State) (p : Part) : MbxReq :=
  { src := .part p, cmd := bits (s.reg (pgHp p) 0x500) 15 0, tag := BitVec.ofNat 16 (bits (s.reg (pgHp p) 0x504) 15 0)
    len := bits (s.reg (pgHp p) 0x500) 31 16 }

/-- The state with a partition's request at the end of those held. -/
def State.asked (s : State) (p : Part) : State :=
  let s1 := (s.modPart p (fun x => { x with mbxDone := false })).count (cntPart p 12) 1
  { s1 with mgt := { s1.mgt with held := s1.mgt.held ++ [s.mbxReq p] } }

theorem regRow_mbxGo (p : Part) : pageKind (pgHp p) = some (.hp p.val) ∧
    regRow? (.hp p.val) 0x600 = some { base := 0x600, rw := 1 } := by
  fin_cases p <;> exact ⟨by decide, rfl⟩

theorem exec_mbxGo (hall : Allowed a (pgHp a.part) 0x600 v s) (hgo : bit v 0 = true) :
    exec (.mbxGo a v) s = .next (doMbxGo s a.part) := by
  obtain ⟨hkind, hrow⟩ := regRow_mbxGo a.part
  have hlt : pgHp a.part < 0x14 := by have := a.part.isLt; simp only [pgHp]; omega
  have hword : writeWord a {} (pgHp a.part * 4096 + 0x600) v s = doMbxGo s a.part := by
    simp only [writeWord, (by omega : (pgHp a.part * 4096 + 0x600) / 4096 = pgHp a.part),
      (by omega : (pgHp a.part * 4096 + 0x600) % 4096 = 0x600), hkind, hrow]
    simp [writeHp, hgo]
  rw [← hword, ← rowWrite_allowed {} hall rfl (by omega)]
  rfl

theorem doMbxGo_asks {p : Part} (hheld : s.mgt.held = []) :
    doMbxGo s p = drainUnknown 1 (s.asked p) := by
  rw [doMbxGo, if_neg (by simp [hheld])]
  rfl

theorem held_asked {p : Part} (hheld : s.mgt.held = []) : (s.asked p).mgt.held = [s.mbxReq p] := by
  simp [State.asked, hheld]

theorem mbxGo_takes (hall : Allowed a (pgHp a.part) 0x600 v s) (hgo : bit v 0 = true) (hheld : s.mgt.held = [])
    (hcmd : bits (s.reg (pgHp a.part) 0x500) 15 0 ∈ commands) :
    Gives (.mbxGo a v) s (fun t => (t.part a.part).mbxDone = false ∧ ∃ q, t.mgt.held = [q] ∧ q.src = .part a.part ∧
      q.cmd = bits (s.reg (pgHp a.part) 0x500) 15 0 ∧ q.len = bits (s.reg (pgHp a.part) 0x500) 31 16 ∧
      q.tag = BitVec.ofNat 16 (bits (s.reg (pgHp a.part) 0x504) 15 0)) := by
  have hone := exec_mbxGo hall hgo
  rw [doMbxGo_asks hheld, drainUnknown_listed (held_asked hheld) hcmd] at hone
  refine ⟨_, hone, ?_, s.mbxReq a.part, held_asked hheld, rfl, rfl, rfl, rfl⟩
  have hparts : (s.asked a.part).parts = (s.modPart a.part (fun x => { x with mbxDone := false })).parts := by simp [State.asked]
  exact congrArg PartSt.mbxDone ((part_of_parts hparts a.part).trans (part_modPart_self s a.part _))

theorem mbxGo_unknown (hall : Allowed a (pgHp a.part) 0x600 v s) (hgo : bit v 0 = true) (hheld : s.mgt.held = [])
    (hcmd : bits (s.reg (pgHp a.part) 0x500) 15 0 ∉ commands) (hrun : s.mgt.running = true) :
    Gives (.mbxGo a v) s (fun t => t.mgt.held = [] ∧ (t.part a.part).mbxDone = true ∧
      Answered (.part a.part) (bits (s.reg (pgHp a.part) 0x500) 15 0)
        (BitVec.ofNat 16 (bits (s.reg (pgHp a.part) 0x504) 15 0)) mbUnknown [] t) := by
  have hone := exec_mbxGo hall hgo
  rw [doMbxGo_asks hheld, drainUnknown_unlisted (held_asked hheld) hcmd (by simpa [State.asked] using hrun)] at hone
  obtain ⟨hgone, hdone⟩ := answer_part_leaves a.part (s.mbxReq a.part).cmd (s.mbxReq a.part).tag mbUnknown (s.asked a.part)
  refine ⟨_, hone, hgone.trans ?_, hdone, answered_answer _ _ _ _ _ _⟩
  rw [held_asked hheld]
  exact removeReq_alone (s.mbxReq a.part)

theorem mbxGo_ignored (hall : Allowed a (pgHp a.part) 0x600 v s) (hgo : bit v 0 = true)
    (hheld : s.mgt.held.any (fun q => q.src == .part a.part) = true) : Gives (.mbxGo a v) s (fun t => t = s) :=
  ⟨_, exec_mbxGo hall hgo, if_pos hheld⟩

/-! ## The management Ethernet (18 R566, R567) -/

variable {mac : BitVec 48} {seq : BitVec 64} {body : List Byte} {icv : BitVec 128}

/-- A frame's ICV holds and its number lies above the last one's. -/
def ethGood (seq : BitVec 64) (body : List Byte) (icv : BitVec 128) (s : State) : Bool :=
  ethKeyOk s && icv == ethIcv s seq body &&
    (match s.mgt.ethSeq with | some q => decide (q.toNat < seq.toNat) | none => true)

theorem ethGood_iff : ethGood seq body icv s = true ↔
    ethKeyOk s = true ∧ icv = ethIcv s seq body ∧ ∀ q, s.mgt.ethSeq = some q → q.toNat < seq.toNat := by
  unfold ethGood
  cases s.mgt.ethSeq <;> simp [and_assoc]

/-- The request that a frame's message states, with the frame's source. -/
def ethReq (mac : BitVec 48) (body : List Byte) : MbxReq :=
  { src := .eth, cmd := ofBe (body.take 2), tag := BitVec.ofNat 16 (ofBe ((body.drop 4).take 2))
    len := ofBe ((body.drop 2).take 2), mac := mac }

/-- The state with a frame's request taken. -/
def State.ethAsked (s : State) (mac : BitVec 48) (seq : BitVec 64) (body : List Byte) : State :=
  { s with mgt := { s.mgt with ethSeq := some seq, held := s.mgt.held ++ [ethReq mac body] } }

theorem mgtEthFrame_drops (hrun : s.mgt.running = true)
    (hbad : ethKeyOk s = false ∨ icv ≠ ethIcv s seq body ∨ (∃ q, s.mgt.ethSeq = some q ∧ seq.toNat ≤ q.toNat)) :
    Gives (.mgtEthFrame mac seq body icv) s (fun t => t.mgt.held = s.mgt.held ∧ t.mgt.ethDrop = s.mgt.ethDrop + 1 ∧
      t.mgt.ethSeq = s.mgt.ethSeq) := by
  have hnot : ¬ ethGood seq body icv s = true := by
    rw [ethGood_iff]
    rintro ⟨hkey, hicv, hseq⟩
    rcases hbad with h | h | ⟨q, hq, hle⟩
    · simp [hkey] at h
    · exact h hicv
    · exact absurd (hseq q hq) (by omega)
  have hone : mgtEthFrame mac seq body icv s = { s with mgt := { s.mgt with ethDrop := s.mgt.ethDrop + 1 } } := by
    rw [mgtEthFrame, if_neg (by simp [hrun])]
    exact if_neg hnot
  exact ⟨_, congrArg Host.Outcome.next hone, rfl, rfl, rfl⟩

theorem mgtEthFrame_takes (hrun : s.mgt.running = true) (hkey : ethKeyOk s = true) (hicv : icv = ethIcv s seq body)
    (hseq : ∀ q, s.mgt.ethSeq = some q → q.toNat < seq.toNat) (hheld : s.mgt.held = []) (hcmd : ofBe (body.take 2) ∈ commands) :
    Gives (.mgtEthFrame mac seq body icv) s (fun t => t.mgt.ethSeq = some seq ∧ t.mgt.ethDrop = s.mgt.ethDrop ∧
      ∃ q, t.mgt.held = [q] ∧ q.src = .eth ∧ q.mac = mac ∧ q.cmd = ofBe (body.take 2) ∧
        q.len = ofBe ((body.drop 2).take 2) ∧ q.tag = BitVec.ofNat 16 (ofBe ((body.drop 4).take 2))) := by
  have hasked : (s.ethAsked mac seq body).mgt.held = [ethReq mac body] := by simp [State.ethAsked, hheld]
  have hone : mgtEthFrame mac seq body icv s = s.ethAsked mac seq body := by
    rw [mgtEthFrame, if_neg (by simp [hrun])]
    refine (if_pos (ethGood_iff.mpr ⟨hkey, hicv, hseq⟩)).trans ((if_neg (by simp [hheld])).trans ?_)
    exact drainUnknown_listed hasked hcmd
  exact ⟨_, congrArg Host.Outcome.next hone, rfl, rfl, _, hasked, rfl, rfl, rfl, rfl, rfl⟩

/-! ## The log queue (18 R577, R579, R580) -/

variable {r : LogRec} {rest : List LogRec}

/-- A record stored takes the next number and stands last; the ring of 6,144 has room for it. -/
theorem storeRec_log (s : State) (r : LogRec) (hroom : s.mgt.log.length < 6144) :
    (s.storeRec r).mgt = { s.mgt with log := s.mgt.log ++ [⟨s.mgt.logSeq, r, true⟩], logSeq := s.mgt.logSeq + 1 } := by
  have hdrop : s.mgt.log.length - 6143 = 0 := by omega
  simp [State.storeRec, hdrop]

/-- The record that tells how many were dropped (18 R580). -/
def dropRec (s : State) (r : LogRec) : LogRec :=
  { r with typ := 0x0001, injected := false
           data := BitVec.ofNat 64 (msgBits pgMgt kOverflow sevWarning (Config.detectorOf pgMgt kOverflow).toNat
             (s.mgt.logDropped % 2 ^ 16) 0) }

/-- The queue with its first record taken and the drops told. -/
def State.logTaken (s : State) (rest : List LogRec) : State :=
  { s with mgt := { s.mgt with logQ := rest, logDropped := 0, wdogOnce := false } }

theorem logRecordWrite_eq (hrun : s.mgt.running = true) (hq : s.mgt.logQ = r :: rest) : logRecordWrite s =
    ringAppend (s.logTaken rest) ((if s.mgt.logDropped = 0 then [] else [dropRec s r]) ++ [r]) := by
  simp only [logRecordWrite, hq]
  exact if_neg (by simp [hrun])

theorem logRecordWrite_gives (hrun : s.mgt.running = true) (hq : s.mgt.logQ = r :: rest) (hroom : s.mgt.log.length < 6143) :
    Gives .logRecordWrite s (fun t => t.mgt.logQ = rest ∧ t.mgt.logDropped = 0 ∧
      (s.mgt.logDropped = 0 → t.mgt.log = s.mgt.log ++ [⟨s.mgt.logSeq, r, true⟩] ∧ t.mgt.logSeq = s.mgt.logSeq + 1) ∧
      (s.mgt.logDropped ≠ 0 → t.mgt.logSeq = s.mgt.logSeq + 2 ∧ t.mgt.log.length = s.mgt.log.length + 2 ∧
        t.mgt.log.getLast? = some ⟨s.mgt.logSeq + 1, r, true⟩)) := by
  have hone := logRecordWrite_eq hrun hq
  by_cases hdrop : s.mgt.logDropped = 0
  · rw [if_pos hdrop] at hone
    have hmgt := storeRec_log (s.logTaken rest) r (Nat.lt_of_lt_of_le hroom (by decide))
    refine ⟨_, congrArg Host.Outcome.next hone, ?_⟩
    simp only [ringAppend, List.nil_append, List.foldl_cons, List.foldl_nil, hmgt]
    exact ⟨rfl, rfl, fun _ => ⟨rfl, rfl⟩, fun h => absurd hdrop h⟩
  · rw [if_neg hdrop] at hone
    have hfirst := storeRec_log (s.logTaken rest) (dropRec s r) (Nat.lt_of_lt_of_le hroom (by decide))
    have hlen : ((s.logTaken rest).storeRec (dropRec s r)).mgt.log.length < 6144 := by
      rw [hfirst, List.length_append, List.length_singleton]
      exact Nat.succ_lt_succ hroom
    have hmgt := storeRec_log ((s.logTaken rest).storeRec (dropRec s r)) r hlen
    rw [hfirst] at hmgt
    refine ⟨_, congrArg Host.Outcome.next hone, ?_⟩
    simp only [ringAppend, List.cons_append, List.nil_append, List.foldl_cons, List.foldl_nil, hmgt]
    refine ⟨rfl, rfl, fun h => absurd h hdrop, fun _ => ⟨?_, ?_, ?_⟩⟩
    · exact (BitVec.add_assoc _ 1 1).trans rfl
    · simp [State.logTaken]
    · simp [State.logTaken]

/-- Settles O59: requests are taken, told UNKNOWN or dropped as they arrive, and records are written in order. -/
theorem requestsAndRecordsAreTaken : Obligations.RequestsAndRecordsAreTaken := fun _ _ _ _ _ _ _ _ _ =>
  ⟨fun hall hgo => ⟨mbxGo_takes hall hgo, mbxGo_unknown hall hgo, mbxGo_ignored hall hgo⟩,
    fun hrun => ⟨mgtEthFrame_drops hrun, mgtEthFrame_takes hrun⟩, logRecordWrite_gives⟩

end Sys2Proof.Machine
end

section
/-!
PROOFS. Scope: what work beside the collector leaves of PAGE_FAULT, and messages accepted in order (settles O53).
-/

namespace Sys2Proof.Machine

variable {s t u : State}

/-! ## Events stay and PAGE_FAULT is left (02 R81, 17 R537) -/

/-- PAGE_FAULT apart from whether an ERRPIN message set it. -/
def PageFault.told (f : PageFault) : PageFault := { f with errpin := false }

/-- Every event that is set stays set, and no PAGE_FAULT tells otherwise. -/
structure State.PagesStay (s t : State) : Prop where
  evts : s.EvtsStay t
  fault : ∀ pg, (t.page pg).fault.told = (s.page pg).fault.told

theorem State.PagesStay.refl (s : State) : s.PagesStay s := ⟨.refl s, fun _ => rfl⟩

theorem State.PagesStay.trans (a : s.PagesStay t) (b : t.PagesStay u) : s.PagesStay u :=
  ⟨a.evts.trans b.evts, fun pg => (b.fault pg).trans (a.fault pg)⟩

/-- Work that leaves the pages may follow. -/
theorem State.PagesStay.keep (a : s.PagesStay t) (hpages : u.pages = t.pages) : s.PagesStay u :=
  ⟨a.evts.keep hpages, fun pg => by rw [State.page, hpages]; exact a.fault pg⟩

theorem pagesStay_foldl {α : Type} {g : State → α → State} (hg : ∀ (a : State) x, a.PagesStay (g a x)) (l : List α)
    (s : State) : s.PagesStay (l.foldl g s) := by
  induction l generalizing s with
  | nil => exact .refl s
  | cons x xs ih => exact (hg s x).trans (ih _)

/-- A change of a page that takes back no event and leaves PAGE_FAULT may follow. -/
theorem State.PagesStay.modPage (a : s.PagesStay t) (pg : Nat) {f : Page → Page} (hevt : ∀ p, (f p).evt = p.evt)
    (hfault : ∀ p, (f p).fault.told = p.fault.told) : s.PagesStay (t.modPage pg f) := by
  refine a.trans ⟨evtsStay_setPage (hevt _), fun q => ?_⟩
  by_cases hq : q = pg
  · subst hq
    rw [page_modPage_self, hfault]
  · rw [page_modPage_ne _ _ hq]

theorem State.PagesStay.setReg (a : s.PagesStay t) (pg o : Nat) (v : Word) : s.PagesStay (t.setReg pg o v) :=
  a.modPage pg (f := fun p => Page.setReg pg p o v) (fun _ => rfl) fun _ => rfl

theorem State.PagesStay.setEvt (a : s.PagesStay t) (pg b : Nat) : s.PagesStay (t.setEvt pg b) := by
  refine a.trans ⟨(State.EvtsStay.refl t).setEvt pg b, fun q => ?_⟩
  by_cases hq : q = pg
  · subst hq
    rw [page_setEvt_self]
  · rw [page_setEvt_ne _ _ hq]

theorem State.PagesStay.evtIf (a : s.PagesStay t) (c : Bool) (pg b : Nat) : s.PagesStay (t.evtIf c pg b) := by
  cases c with
  | true => exact a.setEvt pg b
  | false => exact a

theorem State.PagesStay.count (a : s.PagesStay t) (c n : Nat) : s.PagesStay (t.count c n) := a.keep (by simp)

theorem State.PagesStay.logRec (a : s.PagesStay t) (typ data : Nat) (inj : Bool) : s.PagesStay (t.logRec typ data inj) := by
  unfold State.logRec
  split
  · exact a.keep rfl
  · refine State.PagesStay.setEvt ?_ pgMgt evMgtLogOvf
    exact a.keep rfl

/-! ## Reactions that reset nothing (17 R539, R550) -/

theorem pagesStay_freezeAlive (s : State) : s.PagesStay (freezeAlive s) :=
  ((State.PagesStay.refl s).keep (u := { s with flt := { s.flt with frozen := true } }) rfl).evtIf _ _ _

theorem flt_freezeAlive (s : State) : (freezeAlive s).flt = { s.flt with frozen := true } := by simp [freezeAlive]

/-- The IRQ and the NMI of a message's reactions. -/
def State.alerted (s : State) (irq nmi : Bool) (pg : Nat) : State :=
  let s1 := if irq then s.irqPage pg else s
  if nmi && !s1.mgt.running then { s1 with flt := { s1.flt with nmiHeld := true } } else s1

theorem alerted_leaves (s : State) (irq nmi : Bool) (pg : Nat) :
    (s.alerted irq nmi pg).pages = s.pages ∧ ∃ n, (s.alerted irq nmi pg).flt = { s.flt with nmiHeld := n } := by
  simp only [State.alerted]
  split_ifs
  · exact ⟨by simp, true, by simp⟩
  · exact ⟨by simp, s.flt.nmiHeld, by simp⟩
  · exact ⟨rfl, true, rfl⟩
  · exact ⟨rfl, s.flt.nmiHeld, rfl⟩

/-- The state after an ERRPIN reaction. -/
def State.errpinned (s : State) (pg sev : Nat) : State :=
  freezeAlive (s.modPage pg (fun p => { p with fault := { p.fault with errpin := p.fault.errpin || decide (sevError ≤ sev) } }))

/-- Without a block reset and a chip reset among its reactions, a message changes no more than IRQs, the NMI and ALIVE's freeze. -/
theorem react_leaves {src pg sev : Nat} (hblock : bit (look reactReset s.flt.react src) 2 = false)
    (hchip : bit (look reactReset s.flt.react src) 3 = false) :
    s.PagesStay (react src pg sev s) ∧ (∃ n f, (react src pg sev s).flt = { s.flt with nmiHeld := n, frozen := f }) ∧
      (sev = sevFatal → (react src pg sev s).flt.frozen = true) := by
  let w := look reactReset s.flt.react src
  let a := s.alerted (decide (bits w 9 8 ≤ sev) && bit w 0) (decide (bits w 9 8 ≤ sev) && bit w 1 || sev == sevFatal) pg
  have heq : react src pg sev s =
      if (decide (bits w 9 8 ≤ sev) && bit w 4 || sev == sevFatal) = true then a.errpinned pg sev else a := by
    simp only [react, hblock, hchip, Bool.and_false, Bool.false_eq_true, if_false]
    rfl
  obtain ⟨hpages, n, hflt⟩ := alerted_leaves s (decide (bits w 9 8 ≤ sev) && bit w 0)
    (decide (bits w 9 8 ≤ sev) && bit w 1 || sev == sevFatal) pg
  have hstay : s.PagesStay a := (State.PagesStay.refl s).keep hpages
  rw [heq]
  split
  · refine ⟨.trans ?_ (pagesStay_freezeAlive _), ⟨n, true, ?_⟩, fun _ => ?_⟩
    · exact hstay.modPage pg (fun _ => rfl) fun _ => rfl
    · rw [State.errpinned, flt_freezeAlive]
      exact congrArg (fun f : Flt => { f with frozen := true }) hflt
    · rw [State.errpinned, flt_freezeAlive]
  · next hcalm => exact ⟨hstay, ⟨n, s.flt.frozen, hflt⟩, fun hsev => absurd (by simp [hsev]) hcalm⟩

/-! ## Accepting a message (17 R534 to R537) -/

/-- The collector's state with a message taken from its source's buffer: numbered, counted, and the turn passed. -/
def State.taken (s : State) (k : Nat) (m : Msg) (rest : List Msg) : State :=
  { s with flt := { s.flt with
    bufs := put bufReset s.flt.bufs k rest, turn := k, nextSeq := s.flt.nextSeq + 1
    badInput := s.flt.badInput && !(s.flt.badInput && k != pgFlt)
    counts := put countReset s.flt.counts k ((look countReset s.flt.counts k + 1) &&& 0xFFFF)
    fatal := s.flt.fatal || raisedSev s m == sevFatal } }

/-- The message in its page's PAGE_FAULT, from WARNING up. -/
def tellPage (k : Nat) (m : Msg) (sev : Nat) (seq : BitVec 14) (s : State) : State :=
  s.modPage (k % 256) (fun p => { p with fault :=
    { p.fault with
      seq := seq, kind := m.kind, sev := BitVec.ofNat 2 sev, active := p.fault.active || decide (sevError ≤ sev)
      by_ := if sevError ≤ sev ∧ !p.fault.by_.contains (k / 256, m.kind.toNat, m.det)
        then p.fault.by_ ++ [(k / 256, m.kind.toNat, m.det)] else p.fault.by_ } })

/-- The collector's events of an accepted message, and its count of recoveries. -/
def tellEvents (m : Msg) (sev : Nat) (s : State) : State :=
  let s1 := (s.evtIf (sev == sevFatal) pgFlt evFatal).evtIf (m.kind.toNat == kRecovery) pgFlt evRecovery
  if m.kind.toNat = kRecovery then s1.count 678 1 else s1

/-- What an accepted message tells software: PAGE_FAULT and the event log from WARNING up, and the collector's events. -/
def tellMsg (k : Nat) (m : Msg) (sev : Nat) (seq : BitVec 14) (s : State) : State :=
  tellEvents m sev (if sevWarning ≤ sev then
      ((tellPage k m sev seq s).setEvt pgFlt evMsg).logRec 0x0001
        (msgBits k m.kind.toNat sev m.det.toNat m.loc.toNat seq.toNat) m.injected
    else s)

/-- The message numbered and in the log ring. -/
def State.logged (s : State) (k : Nat) (m : Msg) (rest : List Msg) : State :=
  logMsg (BitVec.ofNat 64 (msgBits (if s.flt.badInput && k != pgFlt then pgFlt else k) m.kind.toNat (raisedSev s m) m.det.toNat
      m.loc.toNat s.flt.nextSeq.toNat)) m.injected
    ((noteSeq m.ident s.flt.nextSeq (s.taken k m rest)).count (672 + raisedSev s m) 1)

variable {k : Nat} {m : Msg} {rest : List Msg}

theorem acceptMsg_eq (hbuf : look bufReset s.flt.bufs k = m :: rest) (hturn : s.sourceTurn k = true) :
    acceptMsg k s = react k (k % 256) (raisedSev s m) (tellMsg k m (raisedSev s m) s.flt.nextSeq (s.logged k m rest)) := by
  simp only [acceptMsg, hturn, if_true, hbuf, tellMsg]
  by_cases hwarn : sevWarning ≤ raisedSev s m <;> simp only [hwarn, decide_true, decide_false, if_true, if_false, Bool.false_eq_true]
  · rfl
  · rfl

/-- The log ring changes its own fields alone, and grows while it has room. -/
theorem logMsg_leaves (w : BitVec 64) (inj : Bool) (s : State) :
    (∃ l n c, (logMsg w inj s).flt = { s.flt with log := l, logLost := n, lostTotal := c }) ∧
      (s.flt.log.length < 256 → (logMsg w inj s).flt.log.length = s.flt.log.length + 1) := by
  simp only [logMsg]
  split
  · exact ⟨⟨_, _, _, rfl⟩, fun _ => by simp⟩
  · next hfull =>
    exact ⟨⟨s.flt.log, s.flt.logLost + 1, s.flt.lostTotal + 1, by simp⟩, fun h => absurd h hfull⟩

theorem flt_tellMsg (k : Nat) (m : Msg) (sev : Nat) (seq : BitVec 14) (s : State) : (tellMsg k m sev seq s).flt = s.flt := by
  simp only [tellMsg, tellEvents, tellPage]
  split_ifs <;> simp

theorem pagesStay_tellEvents (m : Msg) (sev : Nat) (s : State) : s.PagesStay (tellEvents m sev s) := by
  have hevts := ((State.PagesStay.refl s).evtIf (sev == sevFatal) pgFlt evFatal).evtIf (m.kind.toNat == kRecovery) pgFlt evRecovery
  simp only [tellEvents]
  split
  · exact hevts.count 678 1
  · exact hevts

theorem tellEvents_fatal (m : Msg) (s : State) : (tellEvents m sevFatal s).evtBit pgFlt evFatal = true := by
  have hfatal := evtBit_setEvt_self s pgFlt evFatal (by decide)
  have hrest := (State.EvtsStay.refl (s.setEvt pgFlt evFatal)).evtIf (m.kind.toNat == kRecovery) pgFlt evRecovery
  simp only [tellEvents, beq_self_eq_true]
  split
  · rw [count_eq]
    exact hrest _ _ hfatal
  · exact hrest _ _ hfatal

/-- From WARNING up PAGE_FAULT holds the message, and MSG is set. -/
theorem tellMsg_tells {sev : Nat} {seq : BitVec 14} (hwarn : sevWarning ≤ sev) (hstay : (tellMsg k m sev seq s).PagesStay t) :
    (t.page (k % 256)).fault.seq = seq ∧ (t.page (k % 256)).fault.kind = m.kind ∧
      (sevError ≤ sev → (t.page (k % 256)).fault.active = true) ∧ t.evtBit pgFlt evMsg = true := by
  rw [tellMsg, if_pos hwarn] at hstay
  let a := (tellPage k m sev seq s).setEvt pgFlt evMsg
  have hlate := ((State.PagesStay.refl a).logRec 0x0001 (msgBits k m.kind.toNat sev m.det.toNat m.loc.toNat seq.toNat)
    m.injected).trans ((pagesStay_tellEvents m sev _).trans hstay)
  have hfault := (((State.PagesStay.refl (tellPage k m sev seq s)).setEvt pgFlt evMsg).trans hlate).fault (k % 256)
  rw [tellPage, page_modPage_self] at hfault
  refine ⟨(congrArg PageFault.seq hfault :), (congrArg PageFault.kind hfault :), fun herr => ?_,
    hlate.evts _ _ (evtBit_setEvt_self _ pgFlt evMsg (by decide))⟩
  exact (congrArg PageFault.active hfault :).trans (by simp [PageFault.told, herr])

/-- A message that names another takes its SEQ into its location (17 R533). -/
def Msg.numbered (ident : Nat) (seq : BitVec 14) (m : Msg) : Msg :=
  match m.ref with
  | some (i, lo) => if i = ident then { m with loc := m.loc ||| BitVec.ofNat 24 (seq.toNat * 2 ^ lo), ref := none } else m
  | none => m

/-- The message is out of its buffer, with the next SEQ, and counted for its source. -/
theorem logged_leaves (s : State) (k : Nat) (m : Msg) (rest : List Msg) :
    (look bufReset (s.logged k m rest).flt.bufs k).length = rest.length ∧
      (s.logged k m rest).flt.nextSeq = s.flt.nextSeq + 1 ∧
      look countReset (s.logged k m rest).flt.counts k = (look countReset s.flt.counts k + 1) &&& 0xFFFF ∧
      (s.flt.log.length < 256 → (s.logged k m rest).flt.log.length = s.flt.log.length + 1) ∧
      (s.logged k m rest).flt.fatal = (s.flt.fatal || raisedSev s m == sevFatal) ∧
      (s.logged k m rest).flt.react = s.flt.react := by
  let w := BitVec.ofNat 64 (msgBits (if s.flt.badInput && k != pgFlt then pgFlt else k) m.kind.toNat (raisedSev s m)
    m.det.toNat m.loc.toNat s.flt.nextSeq.toNat)
  let a := (noteSeq m.ident s.flt.nextSeq (s.taken k m rest)).count (672 + raisedSev s m) 1
  have hnoted : a.flt = (noteSeq m.ident s.flt.nextSeq (s.taken k m rest)).flt := by simp [a]
  obtain ⟨⟨l, n, c, hflt⟩, hgrows⟩ := logMsg_leaves w m.injected a
  rw [hnoted] at hflt hgrows
  have hbufs : look bufReset (noteSeq m.ident s.flt.nextSeq (s.taken k m rest)).flt.bufs k =
      (look bufReset (s.taken k m rest).flt.bufs k).map (Msg.numbered m.ident s.flt.nextSeq) := look_bufs_map _ _ _
  have hend : (s.logged k m rest).flt = _ := hflt
  refine ⟨?_, ?_, ?_, hgrows, ?_, ?_⟩
  · rw [hend]
    simp only [hbufs, List.length_map]
    exact congrArg List.length (look_put_self bufReset s.flt.bufs k rest)
  · rw [hend]; rfl
  · rw [hend]; exact look_put_self countReset s.flt.counts k _
  · rw [hend]; rfl
  · rw [hend]; rfl

theorem faultMessageAccepted_gives {src : BitVec 10} (hbuf : look bufReset s.flt.bufs src.toNat = m :: rest)
    (hturn : s.sourceTurn src.toNat = true) (hblock : bit (look reactReset s.flt.react src.toNat) 2 = false)
    (hchip : bit (look reactReset s.flt.react src.toNat) 3 = false) :
    Gives (.faultMessageAccepted src) s (fun t =>
      (look bufReset t.flt.bufs src.toNat).length = rest.length ∧ t.flt.nextSeq = s.flt.nextSeq + 1 ∧
      look countReset t.flt.counts src.toNat = (look countReset s.flt.counts src.toNat + 1) &&& 0xFFFF ∧
      (s.flt.log.length < 256 → t.flt.log.length = s.flt.log.length + 1) ∧
      (sevWarning ≤ raisedSev s m → (t.page (src.toNat % 256)).fault.seq = s.flt.nextSeq ∧
        (t.page (src.toNat % 256)).fault.kind = m.kind ∧ t.evtBit pgFlt evMsg = true) ∧
      (sevError ≤ raisedSev s m → (t.page (src.toNat % 256)).fault.active = true) ∧
      (raisedSev s m = sevFatal → t.flt.fatal = true ∧ t.flt.frozen = true ∧ t.evtBit pgFlt evFatal = true)) := by
  have hone := acceptMsg_eq hbuf hturn
  obtain ⟨hlen, hseq, hcount, hlog, hfatal, hreact⟩ := logged_leaves s src.toNat m rest
  have hflt := flt_tellMsg src.toNat m (raisedSev s m) s.flt.nextSeq (s.logged src.toNat m rest)
  obtain ⟨hstay, ⟨n, f, hend⟩, hfrozen⟩ := react_leaves (src := src.toNat) (pg := src.toNat % 256) (sev := raisedSev s m)
    (by rw [hflt, hreact]; exact hblock) (by rw [hflt, hreact]; exact hchip)
  rw [hflt] at hend
  refine ⟨_, congrArg Host.Outcome.next hone, ?_, ?_, ?_, ?_, fun hwarn => ?_, fun herr => ?_, fun hsev => ⟨?_, hfrozen hsev, ?_⟩⟩
  · rw [hend]; exact hlen
  · rw [hend]; exact hseq
  · rw [hend]; exact hcount
  · rw [hend]; exact hlog
  · obtain ⟨hseq, hkind, -, hevt⟩ := tellMsg_tells hwarn hstay
    exact ⟨hseq, hkind, hevt⟩
  · obtain ⟨-, -, hactive, -⟩ := tellMsg_tells (Nat.le_trans (by decide) herr) hstay
    exact hactive herr
  · rw [hend]
    exact hfatal.trans (by simp [hsev])
  · refine hstay.evts _ _ ?_
    rw [hsev]
    exact tellEvents_fatal _ _

theorem faultMessageAccepted_none {src : BitVec 10} (hnone : look bufReset s.flt.bufs src.toNat = [] ∨ s.sourceTurn src.toNat = false) :
    Gives (.faultMessageAccepted src) s (fun t => t = s) := by
  refine ⟨_, rfl, ?_⟩
  rcases hnone with h | h <;> simp [acceptMsg, h]

/-- The OVERFLOW message of a source. -/
def State.overflowOf (s : State) (k : Nat) : Msg :=
  { src := BitVec.ofNat 10 k, kind := BitVec.ofNat 6 kOverflow, sev := BitVec.ofNat 2 sevWarning
    det := Config.detectorOf (k % 256) kOverflow, loc := BitVec.ofNat 24 (look dropReset s.flt.dropped k % 2 ^ 16)
    injected := false, ident := s.ident }

theorem overflowMessage_gives {src : BitVec 10} (hdropped : look dropReset s.flt.dropped src.toNat ≠ 0)
    (hfree : (look bufReset s.flt.bufs src.toNat).length < 4) (hsend : s.canSend (src.toNat / 256) = true) :
    Gives (.overflowMessage src) s (fun t => look dropReset t.flt.dropped src.toNat = 0 ∧
      ∃ x, look bufReset t.flt.bufs src.toNat = look bufReset s.flt.bufs src.toNat ++ [x] ∧
        x.kind = BitVec.ofNat 6 kOverflow ∧ x.loc = BitVec.ofNat 24 (look dropReset s.flt.dropped src.toNat % 2 ^ 16)) := by
  have hsrc : (s.overflowOf src.toNat).src.toNat = src.toNat := by simp [State.overflowOf]
  have hflt : (overflowMsg src.toNat s).flt = { s.flt with
      dropped := put dropReset s.flt.dropped src.toNat 0
      bufs := put bufReset s.flt.bufs src.toNat (look bufReset s.flt.bufs src.toNat ++ [s.overflowOf src.toNat]) } := by
    rw [overflowMsg, if_neg (by simp [hdropped, hsend]; omega)]
    simp [State.enqueueMsg, State.overflowOf, hfree]
  refine ⟨_, rfl, ?_, s.overflowOf src.toNat, ?_, rfl, rfl⟩
  · rw [hflt]; exact look_put_self dropReset s.flt.dropped src.toNat 0
  · rw [hflt]; exact look_put_self bufReset s.flt.bufs src.toNat _

/-- Settles O53: what accepting a message does, that none else is accepted, and that drops are told. -/
theorem messagesAreAcceptedInOrder : Obligations.MessagesAreAcceptedInOrder := fun _ _ _ _ =>
  ⟨faultMessageAccepted_gives, faultMessageAccepted_none, overflowMessage_gives⟩

end Sys2Proof.Machine
end

section
/-!
PROOFS. Scope: ports, engines and units brought in line leave PAGE_FAULT, and self-tests decide (settles O54).
-/

namespace Sys2Proof.Machine

variable {s t : State}

/-! ## Bringing the common die in line (17 R542, 10 R390) -/

theorem State.PagesStay.finish (a : s.PagesStay t) (g : Tag) (st : Byte) (res : Vector Word 6) :
    s.PagesStay (t.finish g st res) := by
  unfold State.finish
  split
  · exact a
  · split
    · exact a
    · refine .evtIf (.evtIf ?_ _ _ _) _ _ _
      exact a.keep (by simp)

theorem State.PagesStay.modPort (a : s.PagesStay t) (p : PortNo) (f : PortSt → PortSt) : s.PagesStay (t.modPort p f) := a.keep rfl

theorem State.PagesStay.pushTx (a : s.PagesStay t) (p : PortNo) (e : TxEnt) : s.PagesStay (t.pushTx p e) := by
  simp only [State.pushTx]
  split
  · exact (a.modPort p _).evtIf _ _ _
  · exact (a.modPort p _).setEvt _ _

theorem State.PagesStay.finishSend (a : s.PagesStay t) (f : HostFrame) (discarded : Bool) (res : Vector Word 6) :
    s.PagesStay (finishSend f discarded res t) := by
  unfold Machine.finishSend
  split
  · exact a.finish _ _ _
  · exact a

theorem State.PagesStay.discardFrames (a : s.PagesStay t) (p : PortNo) (which : HostFrame → Bool) :
    s.PagesStay (t.discardFrames p which) := by
  simp only [State.discardFrames, State.dropFrames]
  refine .trans (a.modPort p _) (pagesStay_foldl (fun b e => ?_) _ _)
  refine .finishSend ?_ e true noResult
  split
  · exact .pushTx (.refl b) p _
  · exact .refl b

theorem State.PagesStay.dropLink (a : s.PagesStay t) (p : PortNo) (x : PathAB) : s.PagesStay (t.dropLink p x) := by
  unfold State.dropLink
  split
  · have hdown := (a.keep (u := t.modPath p x (fun y => { y with link := false })) rfl).setEvt (pgLp p) (evLpLinkDown x)
    exact hdown.keep (by simp [State.loseSlot])
  · exact a

theorem pagesStay_stopPort (p : PortNo) (s : State) : s.PagesStay (stopPort p s) := by
  have hlinks := ((State.PagesStay.refl s).dropLink p .A).dropLink p .B
  have hframes := hlinks.discardFrames p (fun _ => true)
  simp only [stopPort]
  refine .trans (hframes.modPort p _) (pagesStay_foldl (fun b x => ?_) _ _)
  exact (State.PagesStay.refl b).keep (by simp)

theorem pagesStay_settleConflicts (s : State) : s.PagesStay (settleConflicts s) := by
  refine pagesStay_foldl (fun a p => ?_) allPorts s
  dsimp only
  split_ifs
  · exact .refl a
  · exact (((State.PagesStay.refl a).modPort p _).setEvt (pgLp p) evConflict).trans (pagesStay_stopPort p _)
  · exact (State.PagesStay.refl a).modPort p _

theorem pagesStay_settleLanes (s : State) : s.PagesStay (settleLanes s) := by
  refine pagesStay_foldl (fun a n => ?_) allLanes s
  simp only [settleLane]
  split_ifs
  · exact .refl a
  · refine .setReg (.setReg (t := a.modLane n _) ?_ _ _ _) _ _ _
    exact (State.PagesStay.refl a).keep rfl
  · exact (State.PagesStay.refl a).keep rfl

theorem pagesStay_commitPorts (s : State) (pg : Nat) : s.PagesStay (s.commitPorts pg) := by
  unfold State.commitPorts
  extract_lets waited val done mark s1 s2
  have hput : s.PagesStay s1 := pagesStay_foldl (fun b o => (State.PagesStay.refl b).setReg pg o (val o)) done s
  have hpage : s.PagesStay s2 := hput.modPage pg (fun _ => rfl) fun _ => rfl
  exact hpage.keep rfl

theorem pagesStay_settleServe (s : State) (pg : Nat) : s.PagesStay (s.settleServe pg) :=
  ((State.PagesStay.refl s).keep (by simp)).trans (pagesStay_commitPorts (s.idleTakes pg) pg)

theorem pagesStay_saRefresh (s : State) : s.PagesStay (saRefresh s) := by
  unfold saRefresh
  extract_lets b
  exact ((State.PagesStay.refl s).keep (u := { s with ptp := { s.ptp with saBad := b } }) rfl).evtIf _ _ _

theorem pagesStay_settleFtn (s : State) : s.PagesStay (settleFtn s) := by
  refine ⟨(dieWork_settleFtn s).evts, fun pg => ?_⟩
  refine settleFtn_keeps (fun a => (a.page pg).fault.told) (fun a c b => ?_) (fun _ _ _ => rfl) (fun _ => rfl)
    (fun _ _ _ => rfl) (fun _ _ _ => rfl) s
  exact ((State.PagesStay.refl a).evtIf c pgFtn b).fault pg

theorem pagesStay_settlePorts (s : State) : s.PagesStay (settlePorts s) := by
  simp only [settlePorts]
  refine .trans ?_ (pagesStay_foldl (fun a p => ?_) allPorts _)
  · refine .trans ?_ (pagesStay_settleServe _ pgFtn)
    refine .trans ?_ (pagesStay_settleServe _ pgPtp)
    exact (pagesStay_settleConflicts s).trans (pagesStay_settleLanes _)
  · exact (State.PagesStay.refl a).keep (by simp)

theorem pagesStay_settleAll (s : State) : s.PagesStay (settleAll s) :=
  (pagesStay_settlePorts s).trans ((pagesStay_saRefresh _).trans (pagesStay_settleFtn _))

/-! ## Units (17 R541 to R543) -/

theorem unit_of_flt (h : t.flt = s.flt) (k : Nat) (det : Byte) : t.unit k det = s.unit k det := by
  rw [State.unit, h, State.unit]

theorem unit_settleAll (s : State) (k : Nat) (det : Byte) : (settleAll s).unit k det = s.unit k det := unit_of_flt (by simp) k det

theorem unit_unitResult (n : Nat) (d : Byte) (lasting : Bool) (s : State) (k : Nat) (det : Byte) :
    (unitResult n d lasting s).unit k det = s.unit k det := unit_of_flt (by simp) k det

theorem unit_noteLasting (n : Nat) (s : State) (k : Nat) (det : Byte) : (noteLasting n s).unit k det = s.unit k det :=
  unit_of_flt (by simp) k det

theorem unit_modPage (s : State) (pg : Nat) (f : Page → Page) (k : Nat) (det : Byte) :
    (s.modPage pg f).unit k det = s.unit k det := rfl

theorem units_enqueueMsg (s : State) (m : Msg) : (s.enqueueMsg m).flt.units = s.flt.units := by
  simp only [State.enqueueMsg]
  split <;> rfl

theorem unit_selftestMsg (k : Nat) (det : Byte) (lasting : Bool) (sev : Nat) (start : Option (BitVec 14)) (ident : Option Nat)
    (s : State) (n : Nat) (d : Byte) : (selftestMsg k det lasting sev start ident s).unit n d = s.unit n d := by
  simp only [selftestMsg]
  split
  · simp only [State.unit, keeps_countSent, units_enqueueMsg]
  · rfl

/-- A unit after its test: the transients it now has, whether the result is LASTING, and whether a spare replaces it. -/
def TestUnit.tested (u : TestUnit) (half : Option Half) (ident : Nat) (recent : List Nat) (lasting spare : Bool) : TestUnit :=
  { u with
    testing := none, startSeq := none, transients := recent, spare := spare
    fenced := (u.fenced || lasting) && half.isNone
    resIdent := if lasting then some ident else u.resIdent
    resSeq := if lasting then none else u.resSeq }

/-- The state with a unit's test over and its result told. -/
def State.tested (s : State) (k : Nat) (det : Byte) (i : Nat) (recent : List Nat) (lasting : Bool) (sev : Nat) : State :=
  selftestMsg k det lasting sev (s.unit k det).startSeq (some i)
    (s.setUnit k det ((s.unit k det).tested (halfOfPlace (k / 256)) s.ident recent lasting false))

variable {k i : Nat} {det : Byte}

theorem unit_tested (recent : List Nat) (lasting : Bool) (sev : Nat) : (s.tested k det i recent lasting sev).unit k det =
    (s.unit k det).tested (halfOfPlace (k / 256)) s.ident recent lasting false := by
  rw [State.tested, unit_selftestMsg, unit_setUnit_self]

theorem unit_halfTested (o : Option Half) (pass : Bool) (s : State) (n : Nat) (d : Byte) :
    (halfTested o k det false pass s).unit n d = s.unit n d := by
  refine unit_of_flt ?_ n d
  cases o with
  | none => rfl
  | some h =>
    simp only [halfTested, Bool.false_eq_true, if_false]
    split <;> simp

/-- Few passes leave the result transient. -/
theorem selftestResult_passed (htest : (s.unit k det).testing = some i)
    (hfew : (s.unit k det).transients.length + 1 < escalCount s) :
    selftestResult k det true s = settleAll (unitResult k det false (halfTested (halfOfPlace (k / 256)) k det false true
      (s.tested k det i (s.nowNs :: (s.unit k det).transients.filter (fun t => decide (s.nowNs ≤ t + escalWindow s)))
        false sevInfo))) := by
  have hcount : decide (escalCount s ≤ (s.nowNs :: (s.unit k det).transients.filter
      (fun t => decide (s.nowNs ≤ t + escalWindow s))).length) = false := by
    have := List.length_filter_le (fun t => decide (s.nowNs ≤ t + escalWindow s)) (s.unit k det).transients
    rw [decide_eq_false_iff_not, List.length_cons]
    omega
  simp only [selftestResult, htest, if_true, Bool.not_true, Bool.false_or, hcount, Bool.false_and, Bool.false_eq_true, if_false]
  rfl

/-- A failure on the common die is LASTING. -/
theorem selftestResult_failed (htest : (s.unit k det).testing = some i) (hplace : halfOfPlace (k / 256) = none)
    (hbank : isBank k det = false) :
    selftestResult k det false s = settleAll (unitResult k det true (noteLasting k
      (s.tested k det i (s.unit k det).transients true (if noSpare s k det then sevFatal else sevError)))) := by
  simp only [selftestResult, htest, hplace, hbank, Bool.and_false, Bool.false_and, Bool.false_eq_true, if_false, Bool.not_false,
    Bool.true_or, if_true, Option.isNone_none, Bool.true_and, Bool.not_true]
  simp only [State.tested, hplace]
  rfl

theorem selftestResult_gives_passed {src : BitVec 10} (htest : (s.unit src.toNat det).testing = some i)
    (hfew : (s.unit src.toNat det).transients.length + 1 < escalCount s) :
    Gives (.selftestResult src det true) s (fun t => (t.unit src.toNat det).testing = none ∧
      (t.unit src.toNat det).fenced = ((s.unit src.toNat det).fenced && (halfOfPlace (src.toNat / 256)).isNone)) := by
  refine ⟨_, congrArg Host.Outcome.next (selftestResult_passed htest hfew), ?_⟩
  beta_reduce
  rw [unit_settleAll, unit_unitResult, unit_halfTested, unit_tested]
  exact ⟨rfl, by simp [TestUnit.tested]⟩

/-- A unit's result is taken in its block without a page's PAGE_FAULT; a jet's LASTING result stops its jet besides. -/
theorem pagesStay_unitResult {lasting : Bool} (hjet : lasting = false ∨ ∀ n, pageKind k ≠ some (.jet n)) (s : State) :
    s.PagesStay (unitResult k det lasting s) := by
  unfold unitResult
  split
  · split
    · exact (State.PagesStay.refl s).keep rfl
    · exact .refl s
  · split
    · exact (State.PagesStay.refl s).modPort _ _
    · exact .refl s
  · next n hkind =>
    rcases hjet with rfl | hjet
    · rw [if_neg (by simp)]
      exact .refl s
    · exact absurd hkind (hjet n)
  · exact (State.PagesStay.refl s).evtIf _ _ _
  · exact .refl s

theorem told_lasting (f : PageFault) : f.told.lasting = f.lasting := rfl

theorem noteLasting_tells (k : Nat) (s : State) :
    ((noteLasting k s).page (k % 256)).fault.told.lasting = true ∧ (noteLasting k s).evtBit pgFlt evLasting = true := by
  let a := s.modPage (k % 256) (fun p => { p with fault := { p.fault with lasting := true } })
  have hevt := evtBit_setEvt_self a pgFlt evLasting (by decide)
  have hfault := ((State.PagesStay.refl a).setEvt pgFlt evLasting).fault (k % 256)
  rw [page_modPage_self] at hfault
  rw [noteLasting, count_eq]
  exact ⟨(congrArg PageFault.lasting hfault :), hevt⟩

/-- A LASTING result, taken and told: the unit is as its test left it, and its page is told LASTING. -/
theorem lasting_leaves (hjet : ∀ n, pageKind k ≠ some (.jet n)) (s : State) (n : Nat) (d : Byte) :
    (settleAll (unitResult k det true (noteLasting k s))).unit n d = s.unit n d ∧
      ((settleAll (unitResult k det true (noteLasting k s))).page (k % 256)).fault.lasting = true ∧
      (settleAll (unitResult k det true (noteLasting k s))).evtBit pgFlt evLasting = true := by
  obtain ⟨hlasting, hevt⟩ := noteLasting_tells k s
  have hstay := (pagesStay_unitResult (det := det) (lasting := true) (.inr hjet) (noteLasting k s)).trans (pagesStay_settleAll _)
  refine ⟨by rw [unit_settleAll, unit_unitResult, unit_noteLasting], ?_, hstay.evts _ _ hevt⟩
  rw [← told_lasting, hstay.fault (k % 256)]
  exact hlasting

theorem selftestResult_gives_failed {src : BitVec 10} (htest : (s.unit src.toNat det).testing = some i)
    (hplace : halfOfPlace (src.toNat / 256) = none) (hbank : isBank src.toNat det = false)
    (hjet : ∀ n, pageKind src.toNat ≠ some (.jet n)) :
    Gives (.selftestResult src det false) s (fun t => (t.unit src.toNat det).testing = none ∧
      (t.unit src.toNat det).fenced = true ∧ (t.page (src.toNat % 256)).fault.lasting = true ∧ t.evtBit pgFlt evLasting = true) := by
  refine ⟨_, congrArg Host.Outcome.next (selftestResult_failed htest hplace hbank), ?_⟩
  obtain ⟨hunit, hlasting, hevt⟩ := lasting_leaves (det := det) hjet (s.tested src.toNat det i (s.unit src.toNat det).transients true
    (if noSpare s src.toNat det then sevFatal else sevError)) src.toNat det
  rw [unit_tested] at hunit
  rw [hunit]
  exact ⟨rfl, by simp [TestUnit.tested, hplace], hlasting, hevt⟩

theorem selftestResult_none {src : BitVec 10} (htest : (s.unit src.toNat det).testing = none) (pass : Bool) :
    Gives (.selftestResult src det pass) s (fun t => t = s) :=
  ⟨_, rfl, by simp [selftestResult, htest]⟩

/-! ## Retests (17 R543) -/

variable {a : Access} {v : Word}

/-- A write of one of the collector's own registers that meets no cause. -/
theorem rowWrite_flt {o : Nat} {r : RegRow} {x : Beside} (hall : Allowed a pgFlt o v s) (hrow : regRow? .flt o = some r)
    (hown : 0x040 ≤ o ∧ o < 4096 ∧ o % 4 = 0) (hplain : r.rwb = 0 ∧ r.wo = 0) : rowWrite a pgFlt o v s x = writeFlt o v r.rw x s := by
  obtain ⟨hlo, hhi, halign⟩ := hown
  have hflt : pgFlt = 0xC0 := rfl
  rw [rowWrite_allowed _ hall halign (by omega)]
  simp only [writeWord, (by omega : (pgFlt * 4096 + o) / 4096 = pgFlt), (by omega : (pgFlt * 4096 + o) % 4096 = o),
    (by decide : pageKind pgFlt = some .flt), hrow, hplain.1, hplain.2]
  rw [if_neg (by omega)]
  rfl

/-- The collector's registers with the retest register written. -/
def State.retestWord (s : State) (v : Word) : State := s.setReg pgFlt 0x05C (v &&& 0x03FF00FF)

theorem writeFlt_retest (v m : Word) (pass : Bool) (s : State) : writeFlt 0x05C v m { pass := some pass } s =
    if bit v 31 then retestUnit (bits v 25 16) (BitVec.ofNat 8 (bits v 7 0)) pass (s.retestWord v) else s.retestWord v := rfl

theorem rowWrite_retest (hall : Allowed a pgFlt 0x05C v s) (hgo : bit v 31 = true) (pass : Bool) :
    rowWrite a pgFlt 0x05C v s { pass := some pass } =
      retestUnit (bits v 25 16) (BitVec.ofNat 8 (bits v 7 0)) pass (s.retestWord v) := by
  rw [rowWrite_flt hall (r := { base := 0x05C, rw := 0x83FF00FF }) rfl (by decide) ⟨rfl, rfl⟩, writeFlt_retest, if_pos hgo]

theorem place_of_none {n : Nat} (h : halfOfPlace n = none) : (n == 1) = false ∧ (n == 2) = false := by
  unfold halfOfPlace at h
  split_ifs at h with h1 h2
  exact ⟨by simpa using h1, by simpa using h2⟩

/-- A fenced unit that a passing retest has put back, told. -/
def State.unfenced (s : State) (k : Nat) (det : Byte) : State :=
  selftestMsg k det false sevInfo (s.unit k det).resSeq (s.unit k det).resIdent
    (((s.count 676 1).setUnit k det { s.unit k det with fenced := false, spare := false }).modPage (k % 256)
      (fun p => { p with fault := { p.fault with lasting := false } }))

theorem retestUnit_eq (hfenced : (s.unit k det).fenced = true) (htest : (s.unit k det).testing = none)
    (hplace : halfOfPlace (k / 256) = none) (pass : Bool) : retestUnit k det pass s =
      if pass then settleAll (unitResult k det false ((s.unfenced k det).setEvt pgFlt evUnfenced)) else s.count 676 1 := by
  obtain ⟨hnotA, hnotB⟩ := place_of_none hplace
  exact if_neg (by simp [hfenced, htest, hnotA, hnotB])

/-- A retest that passes puts a fenced unit back, and one that fails leaves it fenced. -/
theorem retestUnit_leaves (hfenced : (s.unit k det).fenced = true) (htest : (s.unit k det).testing = none)
    (hplace : halfOfPlace (k / 256) = none) :
    (((retestUnit k det true s).unit k det).fenced = false ∧ (retestUnit k det true s).evtBit pgFlt evUnfenced = true) ∧
      ((retestUnit k det false s).unit k det).fenced = true := by
  have hone := retestUnit_eq hfenced htest hplace
  refine ⟨⟨?_, ?_⟩, ?_⟩
  · rw [hone, if_pos rfl, unit_settleAll, unit_unitResult, unit_of_flt (s := s.unfenced k det) (by simp), State.unfenced,
      unit_selftestMsg, unit_modPage, unit_setUnit_self]
  · rw [hone, if_pos rfl]
    have hresult := pagesStay_unitResult (k := k) (det := det) (.inl rfl) ((s.unfenced k det).setEvt pgFlt evUnfenced)
    exact (hresult.trans (pagesStay_settleAll _)).evts _ _ (evtBit_setEvt_self _ pgFlt evUnfenced (by decide))
  · rw [hone, if_neg Bool.false_ne_true, unit_of_flt (s := s) (by simp)]
    exact hfenced

theorem fltRetest_gives (hall : Allowed a pgFlt 0x05C v s) (hgo : bit v 31 = true)
    (hfenced : (s.unit (bits v 25 16) (BitVec.ofNat 8 (bits v 7 0))).fenced = true)
    (htest : (s.unit (bits v 25 16) (BitVec.ofNat 8 (bits v 7 0))).testing = none)
    (hplace : halfOfPlace (bits v 25 16 / 256) = none) :
    Gives (.fltRetest a v true) s (fun t => (t.unit (bits v 25 16) (BitVec.ofNat 8 (bits v 7 0))).fenced = false ∧
      t.evtBit pgFlt evUnfenced = true) ∧
    Gives (.fltRetest a v false) s (fun t => (t.unit (bits v 25 16) (BitVec.ofNat 8 (bits v 7 0))).fenced = true) := by
  have hunits := unit_of_flt (t := s.retestWord v) (s := s) rfl (bits v 25 16) (BitVec.ofNat 8 (bits v 7 0))
  rw [← hunits] at hfenced htest
  obtain ⟨hpass, hfail⟩ := retestUnit_leaves hfenced htest hplace
  exact ⟨⟨_, congrArg Host.Outcome.next (rowWrite_retest hall hgo true), hpass⟩,
    _, congrArg Host.Outcome.next (rowWrite_retest hall hgo false), hfail⟩

/-- Settles O54: a pass among few leaves its unit, a failure fences it, and a retest that passes puts it back. -/
theorem testsDecideOnUnits : Obligations.TestsDecideOnUnits := fun _ _ _ _ _ _ pass =>
  ⟨fun htest => ⟨selftestResult_gives_passed htest, selftestResult_gives_failed htest⟩, fun htest => selftestResult_none htest pass,
    fltRetest_gives⟩

end Sys2Proof.Machine
end

section
/-!
PROOFS. Scope: the watchdogs of the engines and of Milondino, and ALIVE (settles O55).
-/

namespace Sys2Proof.Machine

variable {s t : State}

/-! ## Resets of engines send nothing (17 R538, R545) -/

theorem flt_settleAll (s : State) : (settleAll s).flt = s.flt := by simp

theorem flt_resetBlock {pg : Nat} (hpart : ∀ n, pageKind pg ≠ some (.hp n)) (s : State) : (resetBlock pg s).flt = s.flt := by
  unfold resetBlock
  split
  · next n hkind => exact absurd hkind (hpart n)
  all_goals simp

theorem flt_resetEngine (k : Nat) (g : Option Tag) (s : State) : (resetEngine k g s).flt = s.flt := by
  simp only [resetEngine]
  split
  · simp
  · split
    case h_5 hpart _ _ _ => rw [flt_resetBlock hpart]; simp
    all_goals simp

theorem mem_bufs_recovery_at {place pg level ident : Nat} {x : Msg} {src : Nat} (h : x ∈ look bufReset s.flt.bufs src) :
    x ∈ look bufReset (s.recovery place pg level ident).flt.bufs src := by
  unfold State.recovery
  split
  · simpa using mem_bufs_enqueueMsg (s := { s with ident := s.ident + 1 }) h
  · exact h

/-! ## The latest reset of an engine (17 R546) -/

theorem lastReset_setUnit {src n : Nat} {det d : Byte} {u : TestUnit} (hu : u.lastReset = (s.unit src det).lastReset) :
    ((s.setUnit src det u).unit n d).lastReset = (s.unit n d).lastReset := by
  simp only [State.unit, State.setUnit, look_put]
  split
  · next hkey => rw [hkey]; exact hu
  · rfl

theorem unit_enqueueMsg (m : Msg) (s : State) (n : Nat) (d : Byte) : (s.enqueueMsg m).unit n d = s.unit n d := by
  rw [State.unit, units_enqueueMsg, State.unit]

theorem unit_countSent (place : Nat) (s : State) (n : Nat) (d : Byte) : (s.countSent place).unit n d = s.unit n d :=
  unit_of_flt (by simp) n d

theorem lastReset_startTest (src : Nat) (det : Byte) (ident : Nat) (s : State) (n : Nat) (d : Byte) :
    ((s.startTest src det ident).unit n d).lastReset = (s.unit n d).lastReset := by
  simp only [State.startTest]
  split
  · rfl
  · rw [count_eq]
    exact lastReset_setUnit rfl

/-- A detection may start a test, and resets no engine. -/
theorem lastReset_fault (place pg kind sev : Nat) (det : Byte) (loc : BitVec 24) (s : State) (n : Nat) (d : Byte) :
    ((s.fault place pg kind sev det loc).unit n d).lastReset = (s.unit n d).lastReset := by
  unfold State.fault
  split
  · extract_lets p inj m s1 s2
    have hsent : s2.unit n d = s.unit n d := by
      simp only [s2, unit_countSent, unit_enqueueMsg, s1]
      split <;> rfl
    split
    · rw [lastReset_startTest, hsent]
    · rw [hsent]
  · rfl

theorem unit_recovery (place pg level ident : Nat) (s : State) (n : Nat) (d : Byte) :
    (s.recovery place pg level ident).unit n d = s.unit n d := by
  unfold State.recovery
  split
  · rw [unit_countSent, unit_enqueueMsg]
    rfl
  · rfl

/-! ## The watchdog of an engine -/

variable {src : BitVec 10}

/-- The watchdog's latest reset lies within the escalation's window. -/
def State.resetLately (s : State) (k : Nat) : Bool := (s.unit k 0xFF).lastReset.any (fun t => decide (s.nowNs ≤ t + escalWindow s))

/-- The state once the engine's expiry is told. -/
def State.expired (s : State) (k : Nat) : State := s.fault (k / 256) (k % 256) kTimeout (kindSev kTimeout) 0xFF 0

theorem engineWatchdog_eq {k : Nat} (hkind : (pageKind (k % 256)).isSome = true) (hsend : s.canSend (k / 256) = true) :
    engineWatchdog k s =
      if s.resetLately k then settleAll (timeOut (workingOp s (k % 256)) (s.expired k))
      else settleAll ((resetEngine k (workingOp s (k % 256))
        ((s.expired k).setUnit k 0xFF { ((s.expired k).unit k 0xFF) with lastReset := some s.nowNs })).recovery
          (k / 256) (k % 256) 2 s.ident) := by
  rw [engineWatchdog, if_neg (by simp [hsend]; simpa [Option.isSome_iff_ne_none] using hkind)]
  rfl

theorem reported_expired (hsend : s.canSend (src.toNat / 256) = true) :
    Reported src.toNat kTimeout (kindSev kTimeout) 0xFF s (s.expired src.toNat) := by
  have hsrc : src.toNat / 256 * 256 + src.toNat % 256 = src.toNat := Nat.div_add_mod' _ _
  have hreports := reported_fault_at hsend (pg := src.toNat % 256) (by have := src.isLt; omega) kTimeout (kindSev kTimeout) 0xFF 0
  rwa [hsrc] at hreports

theorem engineWatchdog_gives (hkind : (pageKind (src.toNat % 256)).isSome = true) (hsend : s.canSend (src.toNat / 256) = true) :
    Gives (.engineWatchdog src) s (fun t => Reported src.toNat kTimeout (kindSev kTimeout) 0xFF s t ∧
      (t.unit src.toNat 0xFF).lastReset =
        (if (s.unit src.toNat 0xFF).lastReset.any (fun r => decide (s.nowNs ≤ r + escalWindow s)) = true
         then (s.unit src.toNat 0xFF).lastReset else some s.nowNs)) := by
  have hreports := reported_expired hsend
  refine ⟨_, congrArg Host.Outcome.next (engineWatchdog_eq hkind hsend), ?_⟩
  beta_reduce
  by_cases hlately : s.resetLately src.toNat = true
  · rw [if_pos hlately, if_pos (show Option.any _ _ = true from hlately)]
    refine ⟨hreports.after (by simp), ?_⟩
    rw [unit_settleAll, unit_of_flt (s := s.expired src.toNat) (by simp)]
    exact lastReset_fault ..
  · rw [if_neg hlately, if_neg (show ¬ Option.any _ _ = true from hlately)]
    refine ⟨hreports.mono rfl (Nat.le_refl _) fun m hm => ?_, ?_⟩
    · rw [flt_settleAll]
      refine mem_bufs_recovery_at ?_
      rw [flt_resetEngine]
      exact hm
    · rw [unit_settleAll, unit_recovery, unit_of_flt (flt_resetEngine _ _ _), unit_setUnit_self]

theorem engineWatchdog_none (hnone : (pageKind (src.toNat % 256)).isSome = false ∨ s.canSend (src.toNat / 256) = false) :
    Gives (.engineWatchdog src) s (fun t => t = s) := by
  refine ⟨_, rfl, if_pos ?_⟩
  rcases hnone with h | h
  · simp [Option.isSome_eq_false_iff.mp h]
  · simp [h]

variable {a : Access} {v : Word}

theorem writeFlt_injWdog (v m : Word) (x : Beside) (s : State) : writeFlt 0x060 v m x s =
    if bit v 31 then engineWatchdog (bits v 9 0) (s.setReg pgFlt 0x060 (v &&& 0x3FF)) else s.setReg pgFlt 0x060 (v &&& 0x3FF) := rfl

theorem fltInjWdog_gives (hall : Allowed a pgFlt 0x060 v s) (hgo : bit v 31 = true) :
    Gives (.fltInjWdog a v) s (fun t => t = engineWatchdog (bits v 9 0) (s.setReg pgFlt 0x060 (v &&& 0x3FF))) := by
  refine ⟨_, rfl, ?_⟩
  rw [rowWrite_flt hall (r := { base := 0x060, rw := 0x800003FF }) rfl (by decide) ⟨rfl, rfl⟩, writeFlt_injWdog, if_pos hgo]

/-! ## Milondino's watchdog (17 R545, R549) -/

/-- The state once an expiry of Milondino's watchdog is told. -/
def State.mgtExpired (s : State) : State := (s.fault 0 pgMgt kTimeout (kindSev kTimeout) 0xFF 0).setEvt pgFlt evMgtWdog

theorem mgtWdog_eq (hrun : s.mgt.running = true) : mgtWdog s =
    if s.mgt.wdogOnce then restartMgt false (s.mgtExpired.recovery 0 pgMgt 3 s.ident)
    else { s.mgtExpired with mgt := { s.mgtExpired.mgt with wdogOnce := true } } := by
  rw [mgtWdog, if_neg (by simp [hrun])]
  rfl

theorem reported_mgtExpired (s : State) : Reported pgMgt kTimeout (kindSev kTimeout) 0xFF s s.mgtExpired :=
  (reported_fault s (by decide) kTimeout (kindSev kTimeout) 0xFF 0).after (by simp [State.mgtExpired])

theorem mgtWdog_first (hrun : s.mgt.running = true) (honce : s.mgt.wdogOnce = false) :
    Gives .mgtWdog s (fun t => t.mgt.wdogOnce = true ∧ t.mgt.restarts = s.mgt.restarts ∧
      t.evtBit pgFlt evMgtWdog = true ∧ Reported pgMgt kTimeout (kindSev kTimeout) 0xFF s t) := by
  have hone := mgtWdog_eq hrun
  rw [if_neg (by simp [honce])] at hone
  refine ⟨_, congrArg Host.Outcome.next hone, rfl, by simp [State.mgtExpired], ?_, (reported_mgtExpired s).after rfl⟩
  exact evtBit_setEvt_self _ pgFlt evMgtWdog (by decide)

theorem mgtWdog_second (hrun : s.mgt.running = true) (honce : s.mgt.wdogOnce = true) :
    Gives .mgtWdog s (fun t => t.mgt.wdogOnce = false ∧ t.mgt.restarts = s.mgt.restarts + 1 ∧
      t.mgt.session = none ∧ t.evtBit pgMgt evRestart = true ∧ Reported pgMgt kTimeout (kindSev kTimeout) 0xFF s t) := by
  have hone := mgtWdog_eq hrun
  rw [if_pos honce] at hone
  obtain ⟨hmgt, -, hwdog, hevt⟩ := restartMgt_leaves false (s.mgtExpired.recovery 0 pgMgt 3 s.ident)
  refine ⟨_, congrArg Host.Outcome.next hone, hwdog, (congrArg Mgt.restarts hmgt :).trans ?_, (congrArg Mgt.session hmgt :), hevt, ?_⟩
  · simp [State.mgtExpired, Mgt.restarted, Mgt.aside]
  · refine ((reported_mgtExpired s).mono rfl (Nat.le_refl _) fun m hm => ?_)
    rw [bufs_restartMgt]
    exact mem_bufs_recovery hm

theorem mgtWdog_none (hrun : s.mgt.running = false) : Gives .mgtWdog s (fun t => t = s) :=
  ⟨_, rfl, if_pos (by simp [hrun])⟩

/-! ## ALIVE (17 R550) -/

theorem aliveToggle_gives (hon : s.flt.aliveOn = true) (hfrozen : s.flt.frozen = false) :
    Gives .aliveToggle s (fun t => t.flt.alive = !s.flt.alive ∧ t.outs = s.outs ++ [.alive (!s.flt.alive)]) := by
  have hone : aliveToggle s =
      ({ s with flt := { s.flt with alive := !s.flt.alive } }.emit (.alive (!s.flt.alive))).count 683 1 :=
    if_pos (by simp [hon, hfrozen])
  refine ⟨_, congrArg Host.Outcome.next hone, ?_⟩
  rw [count_eq]
  exact ⟨rfl, rfl⟩

theorem aliveToggle_none (hnone : s.flt.aliveOn = false ∨ s.flt.frozen = true) : Gives .aliveToggle s (fun t => t = s) := by
  refine ⟨_, rfl, if_neg ?_⟩
  rcases hnone with h | h <;> simp [h]

theorem writeFlt_resume (v m : Word) (x : Beside) (s : State) :
    writeFlt 0x044 v m x s = if bit v 0 then resumeAlive s else s := rfl

theorem fltResume_gives (hall : Allowed a pgFlt 0x044 v s) (hgo : bit v 0 = true) :
    Gives (.fltResume a v) s (fun t => t.flt.frozen =
      (s.flt.frozen && s.pages.any (fun e => e.2.fault.active && e.2.fault.errpin)) ∧ t.pages = s.pages) := by
  have hone : rowWrite a pgFlt 0x044 v s = resumeAlive s := by
    rw [rowWrite_flt hall (r := { base := 0x044, rw := 1 }) rfl (by decide) ⟨rfl, rfl⟩, writeFlt_resume, if_pos hgo]
  refine ⟨_, congrArg Host.Outcome.next hone, ?_⟩
  simp only [resumeAlive]
  split
  · next hheld => exact ⟨by simp only [hheld, Bool.and_true], rfl⟩
  · next hfree => exact ⟨by simp only [Bool.not_eq_true _ ▸ hfree, Bool.and_false], rfl⟩

/-- Settles O55: each watchdog tells its expiry and resets or not, and ALIVE toggles, freezes and resumes. -/
theorem watchdogsAndAlive : Obligations.WatchdogsAndAlive := fun _ _ _ _ =>
  ⟨engineWatchdog_gives, engineWatchdog_none, fltInjWdog_gives, mgtWdog_none, fun hrun => ⟨mgtWdog_first hrun, mgtWdog_second hrun⟩,
    aliveToggle_gives, aliveToggle_none, fltResume_gives⟩

end Sys2Proof.Machine
end
